-- ==== Sys2Proof/Word.lean ====
section
/-! DEFINITION. The word types of the block and the numbers that name its units (00_scope.md R1 to R3). -/

namespace Sys2Proof

/-- A byte. -/
abbrev Byte := BitVec 8

/-- A 32-bit register, scalar or instruction word (00_scope.md R10). -/
abbrev Word := BitVec 32

/-- A 64-bit datum: the payload of a token, a predicate. -/
abbrev DWord := BitVec 64

/-- A 512-bit vector register, and a 64-byte line. -/
abbrev Vec := BitVec 512

/-- A partition, PT0 to PT3. -/
abbrev PartId := Fin 4

/-- A logical quire, Q00 to Q31: quire 8n + q is local quire q of partition n. -/
abbrev QuireId := Fin 32

/-- A logical device of the host link, LD 0 to 15. -/
abbrev LdId := Fin 16

/-- A physical tile, T00 to T35. -/
abbrev TileId := Fin 36

/-- A cord link, 0 to 77. -/
abbrev LinkId := Fin 78

/-- A half of the die: `false` west, `true` east. -/
abbrev Half := Bool

/-- A press of a quire: `false` PA, `true` PB. -/
abbrev PressId := Bool

/-- A stitcher: its logical quire and its number in the quire (04_stitchers.md, Table 1). -/
structure StId where
  quire : QuireId
  st    : Fin 64
  deriving DecidableEq, Repr

/-- The number that names a stitcher among the 2,048 of the device. -/
def StId.key (u : StId) : Nat := 64 * u.quire.val + u.st.val

/-- A scalar register number. -/
abbrev SReg := BitVec 5

/-- A vector register number. -/
abbrev VReg := BitVec 4

/-- A predicate number. -/
abbrev PReg := BitVec 3

end Sys2Proof
end

