-- ==== Sys2Proof/Syntax.lean ====
section
/-! DEFINITION. The commands of the block as syntax: one constructor of `Instr` for each row of the table of
operations and events (spec/opcode_table.json), with the operands its rule gives it. -/

namespace Sys2Proof

/-- The space a stitcher's memory instruction names: the M format's sp bit and the f bits (04_stitchers.md, Table 4). -/
inductive Space where
  | pocket | leaf
  deriving DecidableEq, Repr

/-- The conditions of CMPI (04_stitchers.md, Table 5). -/
inductive CondI where
  | eq | ne | lt | ltu
  deriving DecidableEq, Repr

/-- The lane types of the V format's ty field (04_stitchers.md, Table 4). -/
inductive LaneTy where
  | fp32 | bf16 | int8 | int32
  deriving DecidableEq, Repr

/-- The lane types of the bitwise and shift instructions (Table 6). -/
inductive IntTy where
  | int8 | int32
  deriving DecidableEq, Repr

/-- The lane types of the transcendental instructions (Table 6). -/
inductive FloatTy where
  | fp32 | bf16
  deriving DecidableEq, Repr

/-- The rounding modes of the rm field (Table 4; the fourth code is illegal). -/
inductive Rm where
  | rne | rtz | sr
  deriving DecidableEq, Repr

/-- The formats CVT converts between: codes 0x0 to 0x4 and 0x7 to 0x9 of R38 (R103). -/
inductive CvtFmt where
  | fp32 | bf16 | fp16 | e4m3 | e5m2 | int32 | int8 | int4
  deriving DecidableEq, Repr

/-- The block element formats of CVT.BLK and CVT.UNBLK: codes 0x3 to 0x6 (R103). -/
inductive BlkFmt where
  | e4m3 | e5m2 | mxfp6 | mxfp4
  deriving DecidableEq, Repr

/-- The sources of CVT.BLK (R103). -/
inductive BlkSrc where
  | fp32 | bf16
  deriving DecidableEq, Repr

/-- The targets of CVT.UNBLK (R103). -/
inductive UnblkDst where
  | fp32 | bf16 | fp16
  deriving DecidableEq, Repr

/-- The formats of CVT.S: codes 0x0, 0x1, 0x2 and 0x7 (Table 6). -/
inductive ScalFmt where
  | fp32 | bf16 | fp16 | int32
  deriving DecidableEq, Repr

/-- Who writes a register: a logical device over the host link, or the steward over the spine (00_scope.md R9). -/
inductive Writer where
  | ld (l : LdId)
  | steward
  deriving DecidableEq, Repr

/-- The width of a register access; the registers take aligned 32-bit accesses only (00_scope.md R10). -/
inductive AccWidth where
  | w8 | w16 | w32 | w64
  deriving DecidableEq, Repr

/-- Where a spine message is dropped for parity: the place, counted from 0, among the stops that it meets on its way; past its
destination's place, its destination (08_cord_mesh_and_spine.md R206, R210). -/
abbrev Hop := Fin 16

/-- The spaces of a logical device that a host request of memory's kind names: its HDM window, or its BAR2
(09_host_attachment.md R224). BAR0 has the register commands. -/
inductive HostSpace where
  | window | bar2
  deriving DecidableEq, Repr

/-- A register access: the address and the width of the access (00_scope.md R10). -/
structure RegAt where
  addr : BitVec 28
  width : AccWidth
  deriving DecidableEq, Repr

/-- How a register message goes over the spine: whether it carries wake, and where it is dropped
(08_cord_mesh_and_spine.md R210, R218). -/
structure RegWay where
  wake : Bool
  drop : Option Hop
  deriving DecidableEq, Repr

/-- A 64-byte line of a space of a logical device, and a byte of it. -/
structure HostLine where
  space : HostSpace
  line : BitVec 35
  deriving DecidableEq, Repr

structure HostAt where
  space : HostSpace
  off : BitVec 41
  deriving DecidableEq, Repr

/-- Where a token's credit returns: the channel entry that sent it, or nowhere (04_stitchers.md R92, R382). -/
inductive Origin where
  | entry (q : QuireId) (e : Nat)
  | internal
  deriving DecidableEq, Repr

/-- A wrong bit in one part of a press: an accumulator of the array, a check value, an output byte of the first or the
second conversion copy (03_presses.md R75, R82, Table 8). -/
inductive PressUpset where
  | acc (row col : Nat) (mask : Word)
  | check (row : Nat) (mask : Word)
  | copy1 (row byte : Nat) (mask : Byte)
  | copy2 (row byte : Nat) (mask : Byte)
  deriving DecidableEq, Repr

/-- A stitcher's image in a program image: program words, pocket bytes, the five configuration chunks, and the CRC-32C of
the load header (08_cord_mesh_and_spine.md R212, 04_stitchers.md R111). -/
structure StImage where
  u      : StId
  prog   : List Byte
  pocket : List Byte
  cfg    : List Byte
  crc    : Word
  deriving DecidableEq, Repr

/-- A program image as the loader decodes it from partition memory (08_cord_mesh_and_spine.md R212,
01_the_tick.md R32, 11_fences_resets_recovery.md R289, R297). -/
structure Image where
  /-- PMA bits [37:6] of the image. -/
  pma : Nat
  /-- Estimated partition power in watts at the operating points that the program permits, by TK_STATUS.clock: 2.0, 1.6,
  1.0 GHz, 250 MHz, a heavy test run included (01_the_tick.md Table 5, 12_self_test_and_rotation.md R306). -/
  watts : List Nat
  /-- The local quires it is compiled for, as a mask. -/
  shape : Nat
  /-- Register writes: byte offset in the partition's 16 MiB block, value. -/
  regs : List (Nat × Word)
  stitchers : List StImage
  /-- Weight bands: quire, leaf address, PMA of the master copy, bytes. -/
  weights : List (QuireId × Nat × Nat × Nat)
  /-- Initial contents of activation bands: quire, leaf address, bytes. -/
  leaf : List (QuireId × Nat × List Byte)
  /-- Recorded digests: quire, region, the 32 bytes. -/
  digests : List (QuireId × Nat × List Byte)
  deriving DecidableEq, Repr

/-- The signed part of the configuration store (13_bring_up_and_licences.md R325): the serial number, the factory defect
map (fenced tiles; remapped rows as tile, bank, row, spare; spared lanes as 2 x link + direction, lane), the minimum
firmware level, the MISR reference signatures by test program, the identity public key and its endorsement, and the
SHAKE256 digest of the signed part. -/
structure Store where
  serial : List Byte
  fenced : List Nat
  rows   : List (Nat × Nat × Nat × Nat)
  lanes  : List (Nat × Nat)
  minFw  : Nat
  misr   : List (Nat × BitVec 128)
  idKey  : List Byte
  endorsement : List Byte
  digest : List Byte
  deriving DecidableEq, Repr

def Store.empty : Store := ⟨[], [], [], [], 0, [], [], [], []⟩

/-- What the CXL link comes up at: a speed of 16, 32 or 64 GT/s, a width of 2, 4 or 8 lanes, with or without
latency-optimised flits; none: it is down. No other option is offered (09_host_attachment.md R223, Table 1). -/
abbrev LinkUp := Option (Fin 3 × Fin 3 × Bool)

/-- What training finds (13_bring_up_and_licences.md R329, Table 2): LPDDR5X channels whose entry of the training area fails
its CRC; channels whose eyes fail on the saved settings; the CXL link; the least margin of each of its lanes; and the
real-time clock in ns since 1970, as device time is loaded after a die rail cycle (14_event_recorder_and_colophon.md R342). -/
structure TrainInput where
  rtc     : Nat
  unsaved : List (Fin 64)
  eyes    : List (Fin 64)
  link    : LinkUp
  margins : List Nat
  deriving DecidableEq, Repr

/-- What the steward finds at a start (13_bring_up_and_licences.md Table 2): the real-time clock in ns since 1970; the check
of the Clearason image (none: good, else the cause code), its version and its SHAKE256 digest; the checks of the two store
copies (none: good, else the cause code) and the signed part of the copy that is used; what training finds; the runs of
a cold start that fail, as program, unit and signature; and the least slack of each tile at its margin baseline. -/
structure BootInput where
  rtc     : Nat
  image   : Option Nat
  version : Nat
  imageDigest : List Byte
  copyA   : Option Nat
  copyB   : Option Nat
  store   : Store
  train   : TrainInput
  failed  : List (Nat × Nat × BitVec 128)
  baseline : List Nat
  deriving DecidableEq, Repr

/-- A request over SMBus (15_module_power_and_signals.md R371): a colophon range, an attestation nonce, a register of the hub
block, or anything else. -/
inductive SmbusReq where
  | colophon (sec : BitVec 8) (off n : BitVec 24)
  | attest (nonce : BitVec 256)
  | reg (off : BitVec 24)
  | other
  deriving DecidableEq, Repr

/-- Why a unit is late in transit (08_cord_mesh_and_spine.md R200). -/
inductive LateCause where
  | replay | retrain | contention
  deriving DecidableEq, Repr

/-- What happens in one step of a partition's recovery (11_fences_resets_recovery.md R289, R290, R294): its duration in ns;
quires whose rows were not all read; tiles that do not come back from their power cycle; marked DRAM rows, as channel and
row, for which no repair resource is left; whether the entries of the training area pass their CRC, and whether the
trained eyes pass on them. -/
structure ResetInput where
  ns      : Nat
  skipped : BitVec 8
  dead    : List (Fin 36)
  beyond  : List (Nat × Nat)
  saved   : Bool
  eyes    : Bool
  deriving DecidableEq, Repr

/-- The scope and target of a RESET message (08_cord_mesh_and_spine.md R207); a quire's is asked for by the hang watchdog, or
by a flush whose stitcher resets are late (11_fences_resets_recovery.md, Table 2). -/
inductive ResetTarget where
  | stitcher (u : StId)
  | quire (q : QuireId) (late : Bool)
  | part (p : PartId)
  deriving DecidableEq, Repr

/-- A reset that may miss its bound (11_fences_resets_recovery.md, Table 6): of a quire, or its tile's power cycle; of a
partition; of the device, or a cycle of the die rails. -/
inductive HangOf where
  | quire (q : QuireId)
  | part (p : PartId)
  | device
  deriving DecidableEq, Repr

/-- A channel entry that a reconfiguration writes: CH_ROUTE_A to CH_ROUTE_C (06_channels.md R162). -/
structure EntryWrite where
  quire : QuireId
  entry : Fin 256
  a     : Word
  b     : Word
  c     : Word
  deriving DecidableEq, Repr

/-- The commands of the block: one constructor for each row of spec/opcode_table.json. A command that a stitcher issues
names the stitcher first; an operand that the rule of the row leaves to the command's sender is a field of it. -/
inductive Instr where
  /-- TICK_RUN_START (R17): A write of 1 to TK_CTRL.run checks the frame and the seals, routes, tables, rings and slots, and starts the tick generator or refuses the start. -/
  | tickRunStart (w : Writer) (p : PartId)
  /-- TICK_RUN_STOP (R17): A write of 0 to TK_CTRL.run stops the tick generator after the current frame. -/
  | tickRunStop (w : Writer) (p : PartId)
  /-- TICK_HOLD (R27): A write of 1 to TK_CTRL.hold stops strokes after the current frame closes, and TK_STATUS.held then reads 1. -/
  | tickHold (w : Writer) (p : PartId)
  /-- TICK_HOLD_RELEASE (R18): Clearing TK_CTRL.hold repeats the start check, applies the held writes, and lets the deferred or pending stroke issue. -/
  | tickHoldRelease (w : Writer) (p : PartId)
  /-- TK_STRIKE_WRITE (R19): A write of 1 to TK_STRIKE strikes in STRUCK mode, or has no effect in the other modes. -/
  | tkStrikeWrite (w : Writer) (p : PartId)
  /-- TIMED_GRID_POINT (R21): The TIMED period elapses and a stroke issues, or is deferred with the late flag, or the grid point is counted as skipped. -/
  | timedGridPoint (p : PartId)
  /-- PENDING_STRIKE_STROKE (R19): A pending strike or edge is acted on in the first cycle that the frame spacing allows. -/
  | pendingStrikeStroke (p : PartId)
  /-- TICK_IN_EDGE (R20): A filtered TICK_IN edge issues a stroke 12 cycles later in EXTERNAL mode, or is latched as pending or counted as skipped. -/
  | tickInEdge (falling : Bool)
  /-- SPINE_STROKE (R211): A STROKE message is released at a quire, which forms the 48-bit counter, checks for a gap and delivers stroke tokens in run cycle 1. -/
  | spineStroke (q : QuireId) (drop : Option Hop)
  /-- SPINE_INTAKE (R245): An INTAKE message reaches the target quire of a ring, or its loss or mismatch fails the tick. -/
  | spineIntake (p : PartId) (r : Fin 4) (drop : Option Hop) (flip : BitVec 16)
  /-- SPINE_TICKDONE (R16): A tick-done token reaches the sequencer; when every quire's token has arrived, publish begins. -/
  | spineTickdone (q : QuireId) (drop : Option Hop)
  /-- RUN_DEADLINE (R24): Run cycle run_budget passes without TICKDONE at a quire, which overruns and is handled under the FAIL or STRETCH policy. -/
  | runDeadline (q : QuireId)
  /-- HANG_WATCHDOG (R25): The hang watchdog fires 1 µs after the deadline under STRETCH, or when a FAIL flush has not completed in 256 cycles, and the quire is reset. -/
  | hangWatchdog (q : QuireId)
  /-- SEND_STALL_WATCHDOG (R160): A blocking send stalled for CH_WDOG.threshold cycles records EV_SEND_STALL and moves the quire's deadline to that cycle. -/
  | sendStallWatchdog (u : StId)
  /-- TEMP_SAMPLE (R367): Junction and plate sensors are read every 100 µs and the throttling points, critical hold and restriction bands are applied. -/
  | tempSample (junctions : List Int) (hubs : List Int) (plate : Int)
  /-- THERMAL_STEP_UP (R35): After the hottest junction has stayed below 87 °C for 10 ms, the half steps its clock up one operating point. -/
  | thermalStepUp (h : Half)
  /-- THERMAL_CRIT_END (R367): The hottest junction stays below 85 °C for 100 ms and the half returns from the critical state to 1.0 GHz and releases its holds. -/
  | thermalCritEnd (h : Half)
  /-- THERMAL_TRIP (R367): A junction held at or above 95 °C for 1 s, or a sensor at 105 °C, switches the rails off and asserts FAULT#. -/
  | thermalTrip
  /-- CLOCK_STEP (R214): Once both partitions of a half are held, the half's clock steps, both holds are released and the kettles re-centre. -/
  | clockStep (h : Half)
  /-- ADD (R101): Scalar integer add. -/
  | add (u : StId) (rd : SReg) (ra : SReg) (rb : SReg)
  /-- SUB (R101): Scalar integer subtract. -/
  | sub (u : StId) (rd : SReg) (ra : SReg) (rb : SReg)
  /-- MUL (R101): Scalar multiply giving the low 32 bits. -/
  | mul (u : StId) (rd : SReg) (ra : SReg) (rb : SReg)
  /-- MULH (R101): Signed multiply giving the high 32 bits. -/
  | mulh (u : StId) (rd : SReg) (ra : SReg) (rb : SReg)
  /-- MULHU (R101): Unsigned multiply giving the high 32 bits. -/
  | mulhu (u : StId) (rd : SReg) (ra : SReg) (rb : SReg)
  /-- AND (R101): Bitwise and. -/
  | and (u : StId) (rd : SReg) (ra : SReg) (rb : SReg)
  /-- OR (R101): Bitwise or. -/
  | or (u : StId) (rd : SReg) (ra : SReg) (rb : SReg)
  /-- XOR (R101): Bitwise exclusive or. -/
  | xor (u : StId) (rd : SReg) (ra : SReg) (rb : SReg)
  /-- SHL (R101): Shift left by rb[4:0]. -/
  | shl (u : StId) (rd : SReg) (ra : SReg) (rb : SReg)
  /-- SHR (R101): Logical shift right by rb[4:0]. -/
  | shr (u : StId) (rd : SReg) (ra : SReg) (rb : SReg)
  /-- SRA (R101): Arithmetic shift right by rb[4:0]. -/
  | sra (u : StId) (rd : SReg) (ra : SReg) (rb : SReg)
  /-- MIN (R101): Signed minimum. -/
  | min (u : StId) (rd : SReg) (ra : SReg) (rb : SReg)
  /-- MAX (R101): Signed maximum. -/
  | max (u : StId) (rd : SReg) (ra : SReg) (rb : SReg)
  /-- MINU (R101): Unsigned minimum. -/
  | minu (u : StId) (rd : SReg) (ra : SReg) (rb : SReg)
  /-- MAXU (R101): Unsigned maximum. -/
  | maxu (u : StId) (rd : SReg) (ra : SReg) (rb : SReg)
  /-- ADD_SAT (R44): Add clamped to the INT32 range. -/
  | addSat (u : StId) (rd : SReg) (ra : SReg) (rb : SReg)
  /-- SUB_SAT (R44): Subtract clamped to the INT32 range. -/
  | subSat (u : StId) (rd : SReg) (ra : SReg) (rb : SReg)
  /-- SEL (R101): Selects ra or rb by bit 0 of a predicate. -/
  | sel (u : StId) (rd : SReg) (ra : SReg) (rb : SReg) (pd : PReg)
  /-- CMP_EQ (R89): Scalar compare equal into a predicate. -/
  | cmpEq (u : StId) (pd : PReg) (ra : SReg) (rb : SReg)
  /-- CMP_NE (R89): Scalar compare not equal into a predicate. -/
  | cmpNe (u : StId) (pd : PReg) (ra : SReg) (rb : SReg)
  /-- CMP_LT (R89): Signed compare less than into a predicate. -/
  | cmpLt (u : StId) (pd : PReg) (ra : SReg) (rb : SReg)
  /-- CMP_LE (R89): Signed compare less or equal into a predicate. -/
  | cmpLe (u : StId) (pd : PReg) (ra : SReg) (rb : SReg)
  /-- CMP_LTU (R89): Unsigned compare less than into a predicate. -/
  | cmpLtu (u : StId) (pd : PReg) (ra : SReg) (rb : SReg)
  /-- CMP_LEU (R89): Unsigned compare less or equal into a predicate. -/
  | cmpLeu (u : StId) (pd : PReg) (ra : SReg) (rb : SReg)
  /-- ADDI (R101): Add a sign-extended immediate. -/
  | addi (u : StId) (rd : SReg) (ra : SReg) (imm : BitVec 16)
  /-- ANDI (R101): And with a zero-extended immediate. -/
  | andi (u : StId) (rd : SReg) (ra : SReg) (imm : BitVec 16)
  /-- ORI (R101): Or with a zero-extended immediate. -/
  | ori (u : StId) (rd : SReg) (ra : SReg) (imm : BitVec 16)
  /-- XORI (R101): Exclusive or with a zero-extended immediate. -/
  | xori (u : StId) (rd : SReg) (ra : SReg) (imm : BitVec 16)
  /-- LUI (R101): Sets rd to imm16 shifted left by 16. -/
  | lui (u : StId) (rd : SReg) (imm : BitVec 16)
  /-- SHLI (R101): Shift left by an immediate amount. -/
  | shli (u : StId) (rd : SReg) (ra : SReg) (amt : BitVec 5)
  /-- SHRI (R101): Logical shift right by an immediate amount. -/
  | shri (u : StId) (rd : SReg) (ra : SReg) (amt : BitVec 5)
  /-- SRAI (R101): Arithmetic shift right by an immediate amount. -/
  | srai (u : StId) (rd : SReg) (ra : SReg) (amt : BitVec 5)
  /-- CMPI (R101): Compares with a sign-extended immediate into a predicate. -/
  | cmpi (u : StId) (pd : PReg) (cond : CondI) (ra : SReg) (imm : BitVec 16)
  /-- FADD (R101): FP32 add in RNE. -/
  | fadd (u : StId) (rd : SReg) (ra : SReg) (rb : SReg)
  /-- FSUB (R101): FP32 subtract in RNE. -/
  | fsub (u : StId) (rd : SReg) (ra : SReg) (rb : SReg)
  /-- FMUL (R101): FP32 multiply in RNE. -/
  | fmul (u : StId) (rd : SReg) (ra : SReg) (rb : SReg)
  /-- FFMA (R101): FP32 fused multiply-add rounded once. -/
  | ffma (u : StId) (rd : SReg) (ra : SReg) (rb : SReg)
  /-- FMIN (R42): FP32 minimum propagating NaN. -/
  | fmin (u : StId) (rd : SReg) (ra : SReg) (rb : SReg)
  /-- FMAX (R42): FP32 maximum propagating NaN. -/
  | fmax (u : StId) (rd : SReg) (ra : SReg) (rb : SReg)
  /-- FABS (R42): Clears bit 31 and changes no other bit. -/
  | fabs (u : StId) (rd : SReg) (ra : SReg)
  /-- FNEG (R42): Inverts bit 31 and changes no other bit. -/
  | fneg (u : StId) (rd : SReg) (ra : SReg)
  /-- FEXP (R102): Correctly rounded FP32 e to the x. -/
  | fexp (u : StId) (rd : SReg) (ra : SReg)
  /-- FRCP (R102): Correctly rounded FP32 reciprocal. -/
  | frcp (u : StId) (rd : SReg) (ra : SReg)
  /-- FRSQRT (R102): Correctly rounded FP32 reciprocal square root. -/
  | frsqrt (u : StId) (rd : SReg) (ra : SReg)
  /-- FCMP_EQ (R101): FP32 compare equal into a predicate. -/
  | fcmpEq (u : StId) (pd : PReg) (ra : SReg) (rb : SReg)
  /-- FCMP_LT (R101): FP32 compare less than into a predicate. -/
  | fcmpLt (u : StId) (pd : PReg) (ra : SReg) (rb : SReg)
  /-- FCMP_LE (R101): FP32 compare less or equal into a predicate. -/
  | fcmpLe (u : StId) (pd : PReg) (ra : SReg) (rb : SReg)
  /-- FCMP_UN (R101): Sets a predicate when either operand is NaN. -/
  | fcmpUn (u : StId) (pd : PReg) (ra : SReg) (rb : SReg)
  /-- BR (R101): Branch when the guard holds. -/
  | br (u : StId) (pg : PReg) (pn : Bool) (off : BitVec 11)
  /-- LOOP (R101): Decrements rs and branches while it is not zero, when the guard holds. -/
  | loop (u : StId) (pg : PReg) (pn : Bool) (rs : SReg) (off : BitVec 11)
  /-- BR_Z (R101): Branch when rs is zero and the guard holds. -/
  | brZ (u : StId) (pg : PReg) (pn : Bool) (rs : SReg) (off : BitVec 11)
  /-- BR_NZ (R101): Branch when rs is not zero and the guard holds. -/
  | brNz (u : StId) (pg : PReg) (pn : Bool) (rs : SReg) (off : BitVec 11)
  /-- LD_B (R101): Loads a byte from pocket or leaf. -/
  | ldB (u : StId) (rd : SReg) (ra : SReg) (sp : Space) (imm : BitVec 12)
  /-- LD_H (R101): Loads a half-word from pocket or leaf. -/
  | ldH (u : StId) (rd : SReg) (ra : SReg) (sp : Space) (imm : BitVec 12)
  /-- LD_W (R101): Loads a word from pocket or leaf. -/
  | ldW (u : StId) (rd : SReg) (ra : SReg) (sp : Space) (imm : BitVec 12)
  /-- LD_BS (R101): Loads a sign-extended byte. -/
  | ldBs (u : StId) (rd : SReg) (ra : SReg) (sp : Space) (imm : BitVec 12)
  /-- LD_HS (R101): Loads a sign-extended half-word. -/
  | ldHs (u : StId) (rd : SReg) (ra : SReg) (sp : Space) (imm : BitVec 12)
  /-- VLD (R101): Loads 64 bytes into a vector register. -/
  | vld (u : StId) (vd : VReg) (ra : SReg) (sp : Space) (imm : BitVec 12)
  /-- ST_B (R101): Stores a byte to pocket or leaf. -/
  | stB (u : StId) (rd : SReg) (ra : SReg) (sp : Space) (imm : BitVec 12)
  /-- ST_H (R101): Stores a half-word to pocket or leaf. -/
  | stH (u : StId) (rd : SReg) (ra : SReg) (sp : Space) (imm : BitVec 12)
  /-- ST_W (R101): Stores a word to pocket or leaf. -/
  | stW (u : StId) (rd : SReg) (ra : SReg) (sp : Space) (imm : BitVec 12)
  /-- VST (R101): Stores a vector register of 64 bytes. -/
  | vst (u : StId) (vd : VReg) (ra : SReg) (sp : Space) (imm : BitVec 12)
  /-- VADD (R101): Lanewise add. -/
  | vadd (u : StId) (vd : VReg) (va : VReg) (vb : VReg) (pg : PReg) (pn : Bool) (ty : LaneTy)
  /-- VSUB (R101): Lanewise subtract. -/
  | vsub (u : StId) (vd : VReg) (va : VReg) (vb : VReg) (pg : PReg) (pn : Bool) (ty : LaneTy)
  /-- VMUL (R101): Lanewise multiply. -/
  | vmul (u : StId) (vd : VReg) (va : VReg) (vb : VReg) (pg : PReg) (pn : Bool) (ty : LaneTy)
  /-- VFMA (R101): Lanewise fused multiply-add rounded once. -/
  | vfma (u : StId) (vd : VReg) (va : VReg) (vb : VReg) (vc : VReg) (pg : PReg) (pn : Bool) (ty : LaneTy)
  /-- VMIN (R101): Lanewise minimum. -/
  | vmin (u : StId) (vd : VReg) (va : VReg) (vb : VReg) (pg : PReg) (pn : Bool) (ty : LaneTy)
  /-- VMAX (R101): Lanewise maximum. -/
  | vmax (u : StId) (vd : VReg) (va : VReg) (vb : VReg) (pg : PReg) (pn : Bool) (ty : LaneTy)
  /-- VABS (R42): Lanewise absolute value. -/
  | vabs (u : StId) (vd : VReg) (va : VReg) (pg : PReg) (pn : Bool) (ty : LaneTy)
  /-- VNEG (R42): Lanewise negation. -/
  | vneg (u : StId) (vd : VReg) (va : VReg) (pg : PReg) (pn : Bool) (ty : LaneTy)
  /-- VAND (R101): Lanewise and. -/
  | vand (u : StId) (vd : VReg) (va : VReg) (vb : VReg) (pg : PReg) (pn : Bool) (ty : IntTy)
  /-- VOR (R101): Lanewise or. -/
  | vor (u : StId) (vd : VReg) (va : VReg) (vb : VReg) (pg : PReg) (pn : Bool) (ty : IntTy)
  /-- VXOR (R101): Lanewise exclusive or. -/
  | vxor (u : StId) (vd : VReg) (va : VReg) (vb : VReg) (pg : PReg) (pn : Bool) (ty : IntTy)
  /-- VSHL (R101): Lanewise shift left. -/
  | vshl (u : StId) (vd : VReg) (va : VReg) (vb : VReg) (pg : PReg) (pn : Bool) (ty : IntTy)
  /-- VSRA (R101): Lanewise arithmetic shift right. -/
  | vsra (u : StId) (vd : VReg) (va : VReg) (vb : VReg) (pg : PReg) (pn : Bool) (ty : IntTy)
  /-- VCMP_EQ (R89): Lanewise compare equal into a predicate. -/
  | vcmpEq (u : StId) (pd : PReg) (va : VReg) (vb : VReg) (pg : PReg) (pn : Bool) (ty : LaneTy)
  /-- VCMP_LT (R89): Lanewise compare less than into a predicate. -/
  | vcmpLt (u : StId) (pd : PReg) (va : VReg) (vb : VReg) (pg : PReg) (pn : Bool) (ty : LaneTy)
  /-- VCMP_LE (R89): Lanewise compare less or equal into a predicate. -/
  | vcmpLe (u : StId) (pd : PReg) (va : VReg) (vb : VReg) (pg : PReg) (pn : Bool) (ty : LaneTy)
  /-- VSEL (R101): Selects each lane from va or vb by the predicate. -/
  | vsel (u : StId) (vd : VReg) (va : VReg) (vb : VReg) (pg : PReg) (pn : Bool) (ty : LaneTy)
  /-- VBCAST (R101): Broadcasts a scalar to every lane. -/
  | vbcast (u : StId) (vd : VReg) (rs : SReg) (ty : LaneTy)
  /-- VEXT (R101): Extracts one lane into a scalar register. -/
  | vext (u : StId) (va : VReg) (rs : SReg) (lane : BitVec 6) (ty : LaneTy)
  /-- VINS (R101): Inserts a scalar into one lane. -/
  | vins (u : StId) (vd : VReg) (rs : SReg) (lane : BitVec 6) (ty : LaneTy)
  /-- VSUM (R101): Sums the lanes pairwise into lane 0. -/
  | vsum (u : StId) (vd : VReg) (va : VReg) (pg : PReg) (pn : Bool) (ty : LaneTy)
  /-- VMAXI (R101): Finds the largest lane and its lowest index. -/
  | vmaxi (u : StId) (vd : VReg) (va : VReg) (pg : PReg) (pn : Bool) (ty : LaneTy)
  /-- VSHUF (R101): Permutes lanes by index. -/
  | vshuf (u : StId) (vd : VReg) (va : VReg) (vb : VReg) (pg : PReg) (pn : Bool) (ty : LaneTy)
  /-- VMOV (R101): Copies a vector register. -/
  | vmov (u : StId) (vd : VReg) (va : VReg) (pg : PReg) (pn : Bool) (ty : LaneTy)
  /-- VEXP (R102): Lanewise correctly rounded exponential. -/
  | vexp (u : StId) (vd : VReg) (va : VReg) (pg : PReg) (pn : Bool) (ty : FloatTy)
  /-- VRCP (R102): Lanewise correctly rounded reciprocal. -/
  | vrcp (u : StId) (vd : VReg) (va : VReg) (pg : PReg) (pn : Bool) (ty : FloatTy)
  /-- VRSQRT (R102): Lanewise correctly rounded reciprocal square root. -/
  | vrsqrt (u : StId) (vd : VReg) (va : VReg) (pg : PReg) (pn : Bool) (ty : FloatTy)
  /-- CVT (R103): Lanewise conversion between the element formats with SR draws per R58. -/
  | cvt (u : StId) (vd : VReg) (va : VReg) (tf : CvtFmt) (ff : CvtFmt) (rm : Rm) (spc : Bool) (pg : PReg) (part : BitVec 2)
  /-- CVT_BLK (R51): Quantises one 32-value block into an MX block with its E8M0 scale. -/
  | cvtBlk (u : StId) (vd : VReg) (va : VReg) (tf : BlkFmt) (ff : BlkSrc) (rm : Rm)
  /-- CVT_UNBLK (R103): Expands an MX block by its scale into a float format. -/
  | cvtUnblk (u : StId) (vd : VReg) (va : VReg) (tf : UnblkDst) (ff : BlkFmt) (rm : Rm)
  /-- CVT_S (R101): Scalar conversion between FP32, INT32, BF16 and FP16. -/
  | cvtS (u : StId) (rd : SReg) (ra : SReg) (tf : ScalFmt) (ff : ScalFmt) (rm : Rm)
  /-- SEND (R106): Sends a data token or queue word, stalling for credit. -/
  | send (u : StId) (rx : SReg) (rt : SReg) (rs : SReg) (ch : BitVec 8)
  /-- SEND_CTL (R106): Sends a control token, stalling for credit. -/
  | sendCtl (u : StId) (rx : SReg) (rt : SReg) (rs : SReg) (ch : BitVec 8)
  /-- TRY_SEND (R106): Sends a data token or word, or returns status 1 without credit. -/
  | trySend (u : StId) (rx : SReg) (rt : SReg) (rs : SReg) (ch : BitVec 8)
  /-- TRY_SEND_CTL (R106): Sends a control token, or returns status 1 without credit. -/
  | trySendCtl (u : StId) (rx : SReg) (rt : SReg) (rs : SReg) (ch : BitVec 8)
  /-- MSEND_P (R106): Sends a queue or ring message from pocket memory, stalling for credit. -/
  | msendP (u : StId) (rx : SReg) (rt : SReg) (rs : SReg) (ch : BitVec 8)
  /-- MSEND_L (R106): Sends a queue or ring message from the leaf, stalling for credit. -/
  | msendL (u : StId) (rx : SReg) (rt : SReg) (rs : SReg) (ch : BitVec 8)
  /-- TRY_MSEND_P (R106): Sends a message from pocket memory, or returns status 1 without credit. -/
  | tryMsendP (u : StId) (rx : SReg) (rt : SReg) (rs : SReg) (ch : BitVec 8)
  /-- TRY_MSEND_L (R106): Sends a message from the leaf, or returns status 1 without credit. -/
  | tryMsendL (u : StId) (rx : SReg) (rt : SReg) (rs : SReg) (ch : BitVec 8)
  /-- QRECV (R144): Takes one word from a receive queue, waiting for one, and frees its credit. -/
  | qrecv (u : StId) (ra : SReg) (queue : BitVec 2)
  /-- QRECV_TRY (R144): Takes one word from a receive queue if present and sets a predicate. -/
  | qrecvTry (u : StId) (ra : SReg) (pd : PReg) (queue : BitVec 2)
  /-- RING_ADV (R148): Advances a landing ring's read pointer and frees its units of credit, clamped at the write pointer. -/
  | ringAdv (u : StId) (ra : SReg) (rb : SReg)
  /-- RING_WP (R146): Reads a landing ring's write pointer. -/
  | ringWp (u : StId) (ra : SReg) (rb : SReg)
  /-- CREDITS (R101): Reads the credits held on a channel entry. -/
  | credits (u : StId) (ra : SReg) (rb : SReg)
  /-- PRESS_GO (R63): Copies a 64-byte descriptor from pocket or leaf into a press queue, stalling while the queue is full. -/
  | pressGo (u : StId) (ra : SReg) (press : PressId) (sp : Space)
  /-- HINT (R174): Copies a catchword list into the quire's hint queue, stalling while it is full. -/
  | hint (u : StId) (ra : SReg) (rb : SReg)
  /-- LEAF_FILL (R131): Copies a fill descriptor into the leaf operation queue. -/
  | leafFill (u : StId) (ra : SReg)
  /-- LEAF_COPY (R131): Copies a copy descriptor into the leaf operation queue. -/
  | leafCopy (u : StId) (ra : SReg)
  /-- COLL_CHK (R107): Computes a CRC-32C over a block and compares it with an expected code, failing the tick on a mismatch. -/
  | collChk (u : StId) (ra : SReg) (rb : SReg) (rc : SReg) (pd : PReg) (sp : Space)
  /-- COLL_GEN (R268): Computes the CRC-32C collation code of a block. -/
  | collGen (u : StId) (ra : SReg) (rb : SReg) (rc : SReg) (sp : Space)
  /-- NOP (R101): Does nothing. -/
  | nop (u : StId)
  /-- END (R95): Ends the firing once its register writes have completed. -/
  | endF (u : StId)
  /-- TICKDONE (R108): Ends the firing when the quire is idle, sends the tick-done token, checks the contract, updates the ledger and purges orphans. -/
  | tickdone (u : StId)
  /-- GETS (R109): Reads the status value that the selector names. -/
  | gets (u : StId) (ra : SReg) (sel : BitVec 5)
  /-- PAND (R101): Predicate and. -/
  | pand (u : StId) (pd : PReg) (ra : PReg) (rb : PReg)
  /-- POR (R101): Predicate or. -/
  | por (u : StId) (pd : PReg) (ra : PReg) (rb : PReg)
  /-- PNOT (R101): Predicate not. -/
  | pnot (u : StId) (pd : PReg) (ra : PReg)
  /-- PANY (R101): Sets all ones when any bit of the predicate is 1. -/
  | pany (u : StId) (pd : PReg) (ra : PReg)
  /-- PALL (R101): Sets all ones when every bit of the predicate is 1. -/
  | pall (u : StId) (pd : PReg) (ra : PReg)
  /-- FENCE (R101): Waits until every issued store, send and leaf operation has been accepted. -/
  | fence (u : StId)
  /-- FIRING_DISPATCH (R93): A ready handler fires: slot data and s23 are written, its match-store entries freed and its first instruction issued. -/
  | firingDispatch (u : StId)
  /-- TOKEN_ARRIVAL (R99): A token reaches a port and is checked, dropped for epoch, discarded as duplicate, overflow or orphan, absorbed, or stored in the match store. -/
  | tokenArrival (u : StId) (w : BitVec 96) (o : Origin) (pos : Nat)
  /-- RESIDUE_MISMATCH (R112): A residue or shadow check reports a mismatch 4 cycles after an instruction issues, raising a firing fault. -/
  | residueMismatch (u : StId) (pc : BitVec 10)
  /-- STITCHER_RESET_END (R110): A stitcher reset completes its 200 cycles and the stitcher becomes able to fire again. -/
  | stitcherResetEnd (u : StId)
  /-- ST_CTRL_RESET (R110): A write of 1 to ST_CTRL.reset resets the stitcher while the partition is held or stopped, and is otherwise ignored. -/
  | stCtrlReset (w : Writer) (u : StId)
  /-- ST_FAULT_SUSPECT_CLEAR (R115): A write of 1 to ST_FAULT.suspect clears the stitcher suspect state so that ticks may succeed again. -/
  | stFaultSuspectClear (w : Writer) (q : QuireId)
  /-- PRESS_COMMAND_DECODE (R68): A descriptor at the head of a press queue is decoded and checked, then refused or started with its activation load. -/
  | pressCommandDecode (q : QuireId) (x : PressId)
  /-- PRESS_TILE_CHECK (R78): A column tile's check result arrives 8 cycles after its last accumulate and the tile is released or a mismatch is found. -/
  | pressTileCheck (q : QuireId) (x : PressId) (upset : Option PressUpset)
  /-- PRESS_VOTE_START (R82): After a check mismatch, the other press finishes its tile and starts re-executing the failing tile. -/
  | pressVoteStart (q : QuireId)
  /-- PRESS_VOTE_JUDGEMENT (R82): The re-execution ends and the vote judges the check path, the array or unresolved, releasing the chosen result. -/
  | pressVoteJudgement (q : QuireId) (upset : Option PressUpset)
  /-- PRESS_DELIVERY_TOKEN (R72): The press output stage sends a delivery token when the delivery port has room. -/
  | pressDeliveryToken (q : QuireId) (x : PressId)
  /-- PRESS_COMPLETION (R65): A command ends after its last leaf write and delivery token; the output code is written and the completion token sent. -/
  | pressCompletion (q : QuireId) (x : PressId)
  /-- OUTBOUND_HOLD_RELEASE (R79): In check-behind mode a held outbound message leaves the hold when the window of the last tile released before it closes. -/
  | outboundHoldRelease (q : QuireId)
  /-- PS_VOTE_SUSPECT_CLEAR (R84): A write of 1 to PS_VOTE.suspect clears the press suspect state after a check-behind mismatch. -/
  | psVoteSuspectClear (w : Writer) (q : QuireId)
  /-- LF_CLASS_WRITE (R124): A write to LF_CLASS changes band classes while held or stopped and starts the zero-fill of every changed band, or is ignored. -/
  | lfClassWrite (w : Writer) (q : QuireId) (i : Fin 32) (v : Word)
  /-- CLASS_FILL_DONE (R124): The zero-fill of the changed bands ends and LF_STATUS.class_busy falls to 0. -/
  | classFillDone (q : QuireId)
  /-- WRITE_BUFFER_LAND (R128): A held pager or host write lands in the leaf when its bank is free and the shared port has an access left. -/
  | writeBufferLand (q : QuireId) (n : Nat) (reader : Option Nat)
  /-- LEAF_OP_START (R132): A leaf operation at the head of its queue is checked and refused or started. -/
  | leafOpStart (q : QuireId)
  /-- LEAF_OP_COMPLETE (R132): A leaf fill or copy writes its last segment and sends its completion token. -/
  | leafOpComplete (q : QuireId)
  /-- SCRUB_PASS_START (R134): Every 250 ms a scrub pass starts, or EV_SCRUB_LATE is recorded when one is still running. -/
  | scrubPassStart (q : QuireId)
  /-- SCRUB_READ (R133): The scrubber reads one weight row in an unwanted access, updating corrections and the tracker. -/
  | scrubRead (q : QuireId)
  /-- SCRUB_WRITE_BACK (R133): The scrubber writes back a corrected row in its next access, or drops it after another write. -/
  | scrubWriteBack (q : QuireId)
  /-- SCRUB_PASS_END (R135): A scrub pass ends and each region's SHAKE256 digest and validity are written. -/
  | scrubPassEnd (q : QuireId)
  /-- MESSAGE_RELEASE (R154): A channel message is released at its landing at its schedule position, the receiver pausing when it has not yet arrived. -/
  | messageRelease (q : QuireId) (upset : Word)
  /-- CREDIT_RETURN (R156): A credit return reaches its sending entry and becomes usable at its stamped position. -/
  | creditReturn (q : QuireId)
  /-- SPAN_MESSAGE_RELEASE (R157): A span message is released at the receiver without positional timing. -/
  | spanMessageRelease (q : QuireId) (upset : Word)
  /-- RECONF_DRAIN (R162): A write of 1 to CH_RECONF.drain starts a drain of the named quires, or is refused when not held. -/
  | reconfDrain (w : Writer) (p : PartId)
  /-- RECONF_DRAIN_END (R162): The drain ends with nothing in flight, or at CH_DRAIN.limit_ns with unsure set. -/
  | reconfDrainEnd (p : PartId)
  /-- RECONF_COMMIT (R162): A write of 1 to CH_RECONF.commit discards queued tokens, zeroes rings, advances the epoch and resets credits, or is refused. -/
  | reconfCommit (w : Writer) (p : PartId)
  /-- RECONF_REFUSED_CLEAR (R162): A write of 1 to CH_RECONF.refused clears the refusal flag. -/
  | reconfRefusedClear (w : Writer) (p : PartId)
  /-- PAGER_ENTRY_START (R182): The pager starts a hint entry in due order, breaking it into memory operations when channels have room. -/
  | pagerEntryStart (p : PartId)
  /-- PAGE_COMPLETE (R178): A page-in lands and is checked, or a page-out writes its code, or the page fails, and its completion starts toward the quire. -/
  | pageComplete (p : PartId)
  /-- PAGE_DUE_POSITION (R179): The landing quire reaches a table's due position and releases the completions due, pausing for late pages. -/
  | pageDuePosition (q : QuireId)
  /-- PAGE_COMPLETION_ARRIVAL (R179): A late page's completion arrives and ends the late-page pause with its release. -/
  | pageCompletionArrival (p : PartId)
  /-- UPLOAD_WRITE (R187): A host write through the upload window is accepted toward partition memory or a leaf, or refused. -/
  | uploadWrite (p : PartId) (ld : LdId) (off : BitVec 30) (bytes : List Byte) (poison : Bool)
  /-- UPLOAD_FLUSH (R188): A write of 1 to PG_UPL_FLUSH.flush marks every accepted upload write. -/
  | uploadFlush (w : Writer) (p : PartId)
  /-- UPLOAD_FLUSH_DONE (R188): All marked upload writes have landed and the flush bit reads 0. -/
  | uploadFlushDone (p : PartId)
  /-- LINK_FLIT (R198): A cord link flit is received and checked, and a failed flit is replayed or the link retrains or goes down. -/
  | linkFlit (n : LinkId) (dir : Bool) (ok : Bool) (lane : Fin 1056)
  /-- LINK_RETRAIN_DONE (R198): A link retraining of 2 µs ends and the failed flit is replayed. -/
  | linkRetrainDone (n : LinkId) (dir : Bool)
  /-- LANE_SPARE (R199): The steward switches a failing lane to a spare once the link's partitions are held and it is empty. -/
  | laneSpare (n : LinkId) (dir : Bool)
  /-- LATE_TRANSIT_ARRIVAL (R200): A unit that was late in transit arrives and ends its receiver's pause, which breaks the contract. -/
  | lateTransitArrival (q : QuireId) (credit : Bool) (n : BitVec 16) (cause : LateCause) (upset : Word)
  /-- MAP_SWITCH (R204): The steward holds the span, drains, broadcasts a new logical-to-physical map, increments the generation and releases the holds. -/
  | mapSwitch (p : PartId) (m : List (Option TileId)) (spare : Option TileId)
  /-- SPINE_RESET (R207): A RESET spine message starts a reset of its scope and target. -/
  | spineReset (t : ResetTarget) (drop : Option Hop)
  /-- SPINE_MAPSET (R204): A MAPSET message applies a partition's map at a network interface or stop. -/
  | spineMapset (p : PartId) (stop : Fin 42) (drop : Option Hop)
  /-- SPINE_DOORBELL (R253): A DOORBELL message delivers a notice to a mailbox bit. -/
  | spineDoorbell (mailbox : Fin 5) (bit : Fin 32) (ld : LdId) (drop : Option Hop)
  /-- SPINE_EVENT (R344): An EVENT message reaches the recorder core, which writes the record with odd and even sequence and advances the ring head. -/
  | spineEvent (k : Fin 38) (drop : Option Hop)
  /-- REG_RD (R207): A REG.RD message reads a register and answers with REG.DATA. -/
  | regRd (w : Writer) (r : RegAt) (way : RegWay)
  /-- REG_WR (R207): A REG.WR message writes a register. -/
  | regWr (w : Writer) (r : RegAt) (v : Word) (way : RegWay)
  /-- REG_DATA (R207): A REG.DATA message returns read data to its requester. -/
  | regData (w : Writer) (addr : BitVec 28) (drop : Option Hop)
  /-- LOAD_BEGIN (R212): A LOAD.BEGIN message gives a stitcher its chunk counts and image CRC. -/
  | loadBegin (u : StId) (drop : Option Hop)
  /-- LOAD_DATA (R212): A LOAD.DATA broadcast writes a chunk into every named stitcher and marks its arrival map. -/
  | loadData (p : PartId) (quires : BitVec 8) (stitchers : BitVec 64) (space : Fin 3) (chunk : Fin 512) (drops : List (Fin 36)) (hubDrops : List (Fin 6)) (flip : BitVec 256) (flipped : BitVec 8)
  /-- LOAD_END (R213): A LOAD.END makes each used stitcher check its image and answer sealed, mismatch or gaps. -/
  | loadEnd (p : PartId) (drops : List (Fin 36)) (hubDrops : List (Fin 6))
  /-- LOAD_STAT (R213): A LOAD.STAT answer reaches the loader, which resends missing chunks or images and ends or fails the load. -/
  | loadStat (u : StId) (drop : Option Hop)
  /-- LOAD_ANSWER_TIMEOUT (R213): A stitcher gives no LOAD.STAT answer within 2 µs and the loader resends its whole image. -/
  | loadAnswerTimeout (u : StId)
  /-- SPINE_ASLEEP (R218): An ASLEEP notice reaches the sender of a message refused at a clocked-down half or an absent quire. -/
  | spineAsleep (stop : Fin 42) (cls : Fin 5) (seq : Byte) (drop : Option Hop)
  /-- SPINE_ACK (R209): An ACK reaches the sender of an acknowledged spine message. -/
  | spineAck (stop : Fin 42) (cls : Fin 5) (seq : Byte)
  /-- SPINE_ACK_TIMEOUT (R209): No ACK within 2 µs: the message is resent once, and after a second timeout it is lost with the outcome of its class. -/
  | spineAckTimeout (stop : Fin 42) (cls : Fin 5) (seq : Byte)
  /-- HALF_CLOCK_UP (R216): MS_HALF_REQ with target 0 clocks a half up to full clock. -/
  | halfClockUp (w : Writer) (h : Half)
  /-- HALF_RETENTION (R216): MS_HALF_REQ with target 1 moves a half to the retention clock, or is refused BUSY_RUN or BUSY_SPAN. -/
  | halfRetention (w : Writer) (h : Half)
  /-- HALF_STOP (R216): MS_HALF_REQ with target 2 stops a half's quire clocks, or is refused. -/
  | halfStop (w : Writer) (h : Half)
  /-- HALF_CLOCK_UP_DONE (R218): A half reaches full clock after 40 µs or 300 µs per partition, delivers held wake messages and frees withheld credits. -/
  | halfClockUpDone (h : Half)
  /-- INBOX_LINE_WRITE (R238): A whole-line host write to an inbox ring marks the line arrived, or is dropped as partial or sealed. -/
  | inboxLineWrite (ld : LdId) (p : PartId) (off : BitVec 20) (bytes : List Byte) (poison : Bool)
  /-- INBOX_STALE (R241): The head message's earliest line has waited CX_IN_STALE.limit_us and EV_INBOX_STALE is recorded. -/
  | inboxStale (p : PartId) (r : Fin 4)
  /-- INBOX_SKIP (R241): A write of 1 to CX_IN_CTRL.skip discards the head message and advances the ring. -/
  | inboxSkip (w : Writer) (p : PartId) (r : Fin 4)
  /-- INBOX_RESET (R240): A write of 1 to CX_IN_CTRL.reset discards unbound messages and zeroes the pointer and sequence. -/
  | inboxReset (w : Writer) (p : PartId) (r : Fin 4)
  /-- LANDING_COPY (R243): A sealed message is copied into its landing slot once it is sealed and the slot's previous tick has ended. -/
  | landingCopy (p : PartId) (r : Fin 4)
  /-- INTAKE_TOKEN_RELEASE (R244): The target network interface releases an intake token at run cycle intake_lat + j. -/
  | intakeTokenRelease (p : PartId) (r : Fin 4)
  /-- FORWARDED_WRITE (R247): A staging write forwarded from the leaf reaches the result store, or is discarded as out of order or late. -/
  | forwardedWrite (q : QuireId)
  /-- RESULT_ACK_WRITE (R251): A host write to a ring slot's acknowledge line frees entries, or is ignored as bad. -/
  | resultAckWrite (ld : LdId) (p : PartId) (k : Fin 32) (v : DWord)
  /-- HOST_READ (R227): A host read of its window returns data, tracks the line in the snoop filter and returns zeros on an uncorrectable error. -/
  | hostRead (ld : LdId) (at_ : HostLine)
  /-- HOST_WRITE_OTHER (R235): A host write to another window area is accepted or dropped as the area allows. -/
  | hostWriteOther (ld : LdId) (at_ : HostAt) (bytes : List Byte) (poison : Bool)
  /-- CXL_IDE_FAIL (R226): A flit fails its IDE integrity check and the device drops CXL.mem and most CXL.io requests until re-keyed. -/
  | cxlIdeFail (stream : Byte) (protocol : Fin 2)
  /-- SET_OWNER_LD (R229): The fabric manager's Set Owner LD command moves the owner role to another LD. -/
  | setOwnerLd (ld : LdId)
  /-- FUNCTION_LEVEL_RESET (R285): An FLR of an LD resets each partition bound to it and clears its control page. -/
  | functionLevelReset (ld : LdId)
  /-- NOTICE_RECORD_WRITE (R252): A whole notice record write rings its doorbell bit: busy, held while masked, woken, asleep, or delivered. -/
  | noticeRecordWrite (ld : LdId) (off : BitVec 12) (bytes : List Byte) (poison : Bool)
  /-- DOORBELL_STRIKE (R19): Sequencer doorbell bit 0 strikes in STRUCK mode, or is refused. -/
  | doorbellStrike (p : PartId)
  /-- DOORBELL_PROGRAM_LOAD (R213): Sequencer doorbell bit 1 loads the program image at the pointer while held or stopped. -/
  | doorbellProgramLoad (p : PartId) (image : Image)
  /-- DOORBELL_RECONFIGURATION (R162): Sequencer doorbell bit 2 performs the hold, drain, entry writes and commit of a reconfiguration. -/
  | doorbellReconfiguration (p : PartId) (quires : BitVec 8) (l : List EntryWrite)
  /-- DOORBELL_HOLD (R27): Sequencer doorbell bit 3 holds the partition and completes when held. -/
  | doorbellHold (p : PartId)
  /-- DOORBELL_RELEASE (R27): Sequencer doorbell bit 4 releases the hold. -/
  | doorbellRelease (p : PartId)
  /-- DOORBELL_RESERVED (R253): Sequencer doorbell bits 5 to 7 are refused at once. -/
  | doorbellReserved (p : PartId) (bit : Fin 3)
  /-- DOORBELL_INJECT (R256): Sequencer doorbell bits 8 to 31 bind a control token to the next tick, and may strike. -/
  | doorbellInject (p : PartId) (i : Fin 24)
  /-- INJECTED_TOKEN_RELEASE (R256): An injected control token is released at run cycle MB_INJ.release of its tick. -/
  | injectedTokenRelease (p : PartId)
  /-- MB_MASK_WRITE (R253): A write to MB_MASK masks doorbell bits, and unmasking delivers held notices. -/
  | mbMaskWrite (w : Writer) (p : PartId) (v : Word)
  /-- COMPLETION_WRITE (R258): A notice's completion is written into the completion queue when there is room, and its vector raised. -/
  | completionWrite (ld : LdId)
  /-- CQ_CONSUMER_WRITE (R258): The host writes the completion consumer index, freeing queue space for waiting completions. -/
  | cqConsumerWrite (ld : LdId) (v : DWord)
  /-- BIND (R230): Steward command BIND binds a partition to an LD. -/
  | bind (ld : LdId) (p : PartId) (target : LdId)
  /-- UNBIND (R299): The unbind form of BIND fences the partition and resets and wipes it, or keeps it held under retain. -/
  | unbind (ld : LdId) (p : PartId)
  /-- RETAIN (R298): Steward command RETAIN sets or clears a partition's retain flag. -/
  | retain (ld : LdId) (p : PartId) (v : Bool)
  /-- BUDGET (R365): Steward command BUDGET sets a partition's power budget, or is refused. -/
  | budget (ld : LdId) (p : PartId) (w : Word)
  /-- FW_UPDATE (R324): Steward command FW_UPDATE copies a firmware chunk into steward RAM. -/
  | fwUpdate (ld : LdId) (off : BitVec 16) (n : BitVec 16) (at_ : BitVec 20)
  /-- FW_ACTIVATE (R324): Steward command FW_ACTIVATE checks the image, writes flash and restarts Clearason, or is refused. -/
  | fwActivate (ld : LdId) (bad : Option (Fin 256)) (version : BitVec 16) (digest : List Byte)
  /-- LICENCE (R331): Steward command LICENCE checks a licence and stores it as pending, or refuses it. -/
  | licence (ld : LdId) (off : BitVec 16)
  /-- TEST_DEVICE_SHUTDOWN (R309): TEST_DEVICE with mode 1 runs the shutdown test and leaves the die ready for power removal, or is refused BUSY_ACTIVE. -/
  | testDeviceShutdown (ld : LdId)
  /-- TEST_DEVICE_SERVICE (R309): TEST_DEVICE with mode 0 runs the service test with state saved and restored, or is refused BUSY_ACTIVE. -/
  | testDeviceService (ld : LdId)
  /-- RESET_DEVICE (R284): Steward command RESET_DEVICE resets the device from step 3 of bring-up. -/
  | resetDevice (ld : LdId)
  /-- ACK_WITHDRAWN (R295): Steward command ACK_WITHDRAWN starts an uncounted device reset of a withdrawn device. -/
  | ackWithdrawn (ld : LdId)
  /-- RESET_PARTITION (R289): Steward command RESET_PARTITION starts a partition reset and recovery. -/
  | resetPartition (ld : LdId) (p : PartId)
  /-- TEST_QUIRE (R317): Steward command TEST_QUIRE moves a quire to the head of rotation or holds its test for a window. -/
  | testQuire (ld : LdId) (q : QuireId)
  /-- DC_LEND (R231): Steward command DC_LEND lends a capacity extent to an LD. -/
  | dcLend (ld : LdId) (target : LdId) (p : PartId) (slot : Fin 4096) (pma : BitVec 38)
  /-- DC_RECALL (R231): Steward command DC_RECALL starts the release of a lent extent. -/
  | dcRecall (ld : LdId) (target : LdId) (slot : Fin 4096)
  /-- DC_RECALL_TIMEOUT (R231): An extent not released within 10 s of DC_RECALL stays lent and the command ends busy. -/
  | dcRecallTimeout (ld : LdId) (slot : Fin 4096)
  /-- ATTEST (R337): An attestation request by steward command or DOE joins the current gathering of nonces. -/
  | attest (ld : LdId) (nonce : BitVec 256) (via : Option (BitVec 16))
  /-- ATTEST_GATHER_END (R337): 20 ms after the first request, one object is signed for all gathered nonces, or busy or exhausted is answered. -/
  | attestGatherEnd
  /-- COLOPHON_READ (R357): Steward command COLOPHON_READ copies a colophon range into the command area. -/
  | colophonRead (ld : LdId) (sec : BitVec 16) (off : DWord) (n : Word) (dst : Word) (bad : Bool)
  /-- MD_GO (R270): A write of 1 to IN_MD_CTRL.go starts a master digest run, or is refused or ignored while busy. -/
  | mdGo (w : Writer) (p : PartId)
  /-- MD_RUN_END (R270): A master digest run ends done, uncorrectable or torn. -/
  | mdRunEnd (p : PartId)
  /-- MARGIN_READ (R272): Once per second the steward reads every margin monitor and records droop and slack. -/
  | marginRead (droop : List Nat) (slack : List Nat) (press : List Nat) (issue : List Nat)
  /-- MONITOR_TRIP (R273): A margin monitor trips; the clock stretches and the tile's tick fails. -/
  | monitorTrip (tile : TileId) (m : Fin 4) (droop : Byte) (slack : Byte)
  /-- MONITOR_CLEAR (R273): A tripped monitor clears and the clock stretch ends. -/
  | monitorClear (tile : TileId) (m : Fin 4)
  /-- CLOCK_MONITOR_WINDOW (R274): A 64 ns comparison finds a half's clock outside its band, holding strokes and failing ticks. -/
  | clockMonitorWindow (h : Half) (kHz : BitVec 32)
  /-- CLOCK_RELOCK_RELEASE (R274): After the relocked clock has stayed in band for 1 ms, the holds are released. -/
  | clockRelockRelease (h : Half)
  /-- STEWARD_JUDGEMENT (R276): Within 10 ms of an event the steward judges the charged unit transient, permanent or restricted and acts. -/
  | stewardJudgement
  /-- RESTRICTION_LIFT (R279): 10 ms after the temperature leaves a restriction's band, its clock cap is lifted. -/
  | restrictionLift (i : Fin 16)
  /-- PARTITION_RESET (R289): A partition reset samples, fences, resets, retrains, reloads, verifies and hands back the partition. -/
  | partitionReset (p : PartId) (i : ResetInput)
  /-- QUIRE_RESET_END (R287): A quire reset completes and strokes held for it resume. -/
  | quireResetEnd (q : QuireId)
  /-- TILE_POWER_CYCLE_END (R288): A tile power cycle completes and the quire's images are reloaded with suspect set. -/
  | tilePowerCycleEnd (q : QuireId)
  /-- RESET_HANG (R293): A reset that misses its bound is replaced by the next step of the ladder. -/
  | resetHang (h : HangOf)
  /-- DEVICE_RESET (R284): A device reset fences every partition, wipes where R300 requires, and runs bring-up from step 3. -/
  | deviceReset (i : TrainInput)
  /-- WIPE_DONE (R299): A partition memory wipe ends and the partition may be bound again. -/
  | wipeDone (p : PartId)
  /-- ROTATION_DUE (R311): A quire's rotation falls due; it starts with its notice, preparation and weight copy, or is postponed by 10 min. -/
  | rotationDue (p : PartId)
  /-- ROTATION_SWITCH (R313): At the first frame close after the planned time the partition is held, the volume copied and the map switched. -/
  | rotationSwitch (p : PartId) (drain : BitVec 14) (crc : Bool)
  /-- ROTATION_ABANDON_TIMEOUT (R314): No map broadcast 120 µs after the hold: the switch is abandoned and the hold released. -/
  | rotationAbandonTimeout (p : PartId)
  /-- TEST_RUN_START (R306): A waiting test run starts when the heavy-run limits allow. -/
  | testRunStart (keys : Bool)
  /-- TEST_RUN_END (R304): A test run ends; its MISR signature is compared and the verdict and coverage record written. -/
  | testRunEnd (unit : Fin 37) (sig : BitVec 128) (raise : Fin 6) (slack : BitVec 6) (bad : List (Fin 264192))
  /-- BT_HOLDOFF_WRITE (R319): A write to BT_HOLDOFF.minutes starts or ends a rotation hold-off. -/
  | btHoldoffWrite (w : Writer) (p : PartId) (minutes : Byte)
  /-- BT_WINDOW_WRITE (R317): A write to BT_WINDOW.grant_ms grants or ends a test window, holding the partition for held quire tests. -/
  | btWindowWrite (w : Writer) (p : PartId) (ms : BitVec 16)
  /-- TEST_WINDOW_END (R317): The test window's time runs out and the hold is released after the current test. -/
  | testWindowEnd (p : PartId)
  /-- POWER_ON (R326): 52 V enters its band; the steward boots and bring-up runs from step 1. -/
  | powerOn (i : BootInput)
  /-- PERST_ASSERT (R327): PERST# asserted after PWR_GOOD is a device reset. -/
  | perstAssert
  /-- PERST_RELEASE (R327): PERST# is released and link training of step 6 may proceed. -/
  | perstRelease (i : TrainInput)
  /-- RECOVERY_IMAGE_BLOCK (R323): The recovery loader receives an image block over SMBus or serial, and checks and installs a complete image. -/
  | recoveryImageBlock (bytes : List Byte) (crc : Word) (last : Option BootInput)
  /-- SMBUS_COMMAND (R371): An MCTP request over SMBus runs COLOPHON_READ, ATTEST or a PW_ or LC_ register read. -/
  | smbusCommand (r : SmbusReq)
  /-- INPUT_SAMPLE (R361): Every 1 ms the steward measures the 52 V input and changes band, or handles an input fault. -/
  | inputSample (mv : BitVec 16) (ca : BitVec 16)
  /-- POWER_SAMPLE (R366): Partition power is sampled every 1 µs and the partition or module cap engages or releases. -/
  | powerSample (fast : List Nat) (slow : List Nat) (input : Nat)
  /-- PW_BUDGET_WRITE (R365): An owner write to PW_BUDGET sets a budget from the next frame, or is refused. -/
  | pwBudgetWrite (w : Writer) (p : PartId) (v : Word)
  /-- PW_CLK_WRITE (R375): A write to PW_CLK.spread changes the clock spread as a clock step of both halves. -/
  | pwClkWrite (w : Writer) (v : Word)
  /-- HB_TICK_IO_WRITE (R374): A write to HB_TICK_IO configures TICK_OUT after any pulse in progress. -/
  | hbTickIoWrite (w : Writer) (v : Word)
  /-- FLOOD_UPDATE (R346): At most once per µs during a flood, and once at its end, the source sends a folded update of its last record. -/
  | floodUpdate (k : Fin 38)
  /-- STAGING_DRAIN (R351): Staged records are written to their ring when its memory returns. -/
  | stagingDrain (p : PartId)
  /-- COLOPHON_COPY (R356): Within 100 ms the steward copies each error or fatal record into the colophon. -/
  | colophonCopy (fail : Bool)
  /-- COLOPHON_FLUSH (R355): Every 10 min the steward writes its accumulated histograms, counters and hours to flash. -/
  | colophonFlush (wear : Fin 101) (fail : Bool)
  /-- TRIGGER_TABLE_WRITE (R347): An owner write to a trigger entry changes snapshot sources or severity floor and records EV_TRIG_CHANGED. -/
  | triggerTableWrite (w : Writer) (reg : Fin 11) (v : Word)
  /-- REGISTER_WRITE (R10): A write to any register without its own behaviour sets its fields, or is ignored as the access and write rules give. -/
  | registerWrite (w : Writer) (r : RegAt) (v : Word)
  /-- FRAME_CLOSE (R27): The tick frame of R16 closes, after which a hold takes effect and TK_STATUS.held reads 1, a stopped generator stops, a STRETCH stroke may issue, and clock steps or rotation switches waiting on it may proceed. -/
  | frameClose (p : PartId)
  /-- HALF_CLOCK_DOWN_DONE (R217): A half finishes moving to the retention clock or to stopped, its channels enter self-refresh and MS_HALF leaves the changing state. -/
  | halfClockDownDone (h : Half)
  /-- ILLEGAL_INSTRUCTION (R100): A stitcher issues a word that is not a legal instruction, which is a firing fault under R114. -/
  | illegalInstruction (u : StId)
  /-- CXL_LINK_RETRAIN (R262): The CXL link retrains, goes down, or changes speed or width, updating CX_LINK and recording EV_CX_LINK. -/
  | cxlLinkRetrain (t : LinkUp)
  /-- IDE_KEYS_PROGRAMMED (R226): The host programs or re-keys the IDE streams, ending the insecure state after an integrity failure or a hub scan test. -/
  | ideKeysProgrammed
  /-- DC_EXTENT_RESPONSE (R231): The receiving host answers the dynamic capacity add or release flow, adding the extent or releasing it so that DC_RECALL completes. -/
  | dcExtentResponse (ld : LdId) (slot : Fin 4096) (accept : Bool)
  /-- BACK_INVALIDATE_RESPONSE (R228): A host's response to a BISnpInv arrives, possibly carrying modified line data that counts as an arrived write, and frees the snoop filter entry so that a waiting read can be answered. -/
  | backInvalidateResponse (ld : LdId) (line : BitVec 35) (data : Option (BitVec 512))
  deriving DecidableEq, Repr

end Sys2Proof
end

