-- ==== Sys2Proof/Decode.lean ====
section
/-! DEFINITION. Decoding: no row of the opcode table gives bits, so no word spells a command; and the decoder and the
encoder of the stitchers' own 32-bit instruction words (04_stitchers.md R100 to R103, Tables 4 to 6). -/

namespace Sys2Proof

/-- The command that a word of the table's bits spells: none, because every row of spec/opcode_table.json has no
fields. -/
def decodeTableWord (_nbits _w : Nat) : Option Instr := none

/-! The codes of the fields (Table 4). -/

/-- The bits of a word from `lo` up, `n` of them. -/
abbrev bits (w : Word) (lo n : Nat) : BitVec n := w.extractLsb' lo n

def Space.bit : Space → BitVec 1
  | .pocket => 0
  | .leaf => 1

def Space.ofBit (b : BitVec 1) : Space := if b = 0 then .pocket else .leaf

def boolBit (b : Bool) : BitVec 1 := if b then 1 else 0

def bitBool (b : BitVec 1) : Bool := b == 1

def CondI.code : CondI → BitVec 2
  | .eq => 0
  | .ne => 1
  | .lt => 2
  | .ltu => 3

def CondI.ofCode (c : BitVec 2) : CondI :=
  if c = 0 then .eq else if c = 1 then .ne else if c = 2 then .lt else .ltu

def LaneTy.code : LaneTy → BitVec 2
  | .fp32 => 0
  | .bf16 => 1
  | .int8 => 2
  | .int32 => 3

def LaneTy.ofCode (c : BitVec 2) : LaneTy :=
  if c = 0 then .fp32 else if c = 1 then .bf16 else if c = 2 then .int8 else .int32

def IntTy.code : IntTy → BitVec 2
  | .int8 => 2
  | .int32 => 3

/-- INT8 and INT32 only (Table 6). -/
def IntTy.ofCode? (c : BitVec 2) : Option IntTy :=
  if c = 2 then some .int8 else if c = 3 then some .int32 else none

def FloatTy.code : FloatTy → BitVec 2
  | .fp32 => 0
  | .bf16 => 1

/-- FP32 or BF16 (Table 6). -/
def FloatTy.ofCode? (c : BitVec 2) : Option FloatTy :=
  if c = 0 then some .fp32 else if c = 1 then some .bf16 else none

def Rm.code : Rm → BitVec 2
  | .rne => 0
  | .rtz => 1
  | .sr => 2

/-- 0b11 is illegal (Table 4). -/
def Rm.ofCode? (c : BitVec 2) : Option Rm :=
  if c = 0 then some .rne else if c = 1 then some .rtz else if c = 2 then some .sr else none

def CvtFmt.code : CvtFmt → BitVec 4
  | .fp32 => 0
  | .bf16 => 1
  | .fp16 => 2
  | .e4m3 => 3
  | .e5m2 => 4
  | .int32 => 7
  | .int8 => 8
  | .int4 => 9

/-- Codes 0x0 to 0x4 and 0x7 to 0x9 (R103). -/
def CvtFmt.ofCode? (c : BitVec 4) : Option CvtFmt :=
  if c = 0 then some .fp32 else if c = 1 then some .bf16 else if c = 2 then some .fp16 else if c = 3 then some .e4m3
  else if c = 4 then some .e5m2 else if c = 7 then some .int32 else if c = 8 then some .int8
  else if c = 9 then some .int4 else none

def BlkFmt.code : BlkFmt → BitVec 4
  | .e4m3 => 3
  | .e5m2 => 4
  | .mxfp6 => 5
  | .mxfp4 => 6

/-- Codes 0x3 to 0x6 (R103). -/
def BlkFmt.ofCode? (c : BitVec 4) : Option BlkFmt :=
  if c = 3 then some .e4m3 else if c = 4 then some .e5m2 else if c = 5 then some .mxfp6
  else if c = 6 then some .mxfp4 else none

def BlkSrc.code : BlkSrc → BitVec 4
  | .fp32 => 0
  | .bf16 => 1

/-- Codes 0x0 and 0x1 (R103). -/
def BlkSrc.ofCode? (c : BitVec 4) : Option BlkSrc :=
  if c = 0 then some .fp32 else if c = 1 then some .bf16 else none

def UnblkDst.code : UnblkDst → BitVec 4
  | .fp32 => 0
  | .bf16 => 1
  | .fp16 => 2

/-- Codes 0x0 to 0x2 (R103). -/
def UnblkDst.ofCode? (c : BitVec 4) : Option UnblkDst :=
  if c = 0 then some .fp32 else if c = 1 then some .bf16 else if c = 2 then some .fp16 else none

def ScalFmt.code : ScalFmt → BitVec 4
  | .fp32 => 0
  | .bf16 => 1
  | .fp16 => 2
  | .int32 => 7

/-- Codes 0x0, 0x1, 0x2 and 0x7 (Table 6). -/
def ScalFmt.ofCode? (c : BitVec 4) : Option ScalFmt :=
  if c = 0 then some .fp32 else if c = 1 then some .bf16 else if c = 2 then some .fp16
  else if c = 7 then some .int32 else none

/-- The bits of one value of a CVT format (02_number_formats.md R38). -/
def CvtFmt.width : CvtFmt → Nat
  | .fp32 => 32
  | .bf16 => 16
  | .fp16 => 16
  | .e4m3 => 8
  | .e5m2 => 8
  | .int32 => 32
  | .int8 => 8
  | .int4 => 4

/-! The formats (Table 4), one packing each. -/

def packR (op : BitVec 6) (rd ra rb : BitVec 5) (fn : BitVec 6) (pd : BitVec 3) : Word :=
  op ++ rd ++ ra ++ rb ++ fn ++ pd ++ 0#2

def packI (op : BitVec 6) (rd ra : BitVec 5) (imm : BitVec 16) : Word := op ++ rd ++ ra ++ imm

def packB (fn pg : BitVec 3) (pn : BitVec 1) (rs : BitVec 5) (off : BitVec 11) : Word :=
  0x0A#6 ++ fn ++ pg ++ pn ++ rs ++ 0#3 ++ off

def packM (op : BitVec 6) (rd ra : BitVec 5) (sp : BitVec 1) (sz : BitVec 3) (imm : BitVec 12) : Word :=
  op ++ rd ++ ra ++ sp ++ sz ++ imm

def packV (op : BitVec 6) (vd va vb vc : BitVec 4) (pg : BitVec 3) (pn : BitVec 1) (ty : BitVec 2) (fn : BitVec 4) :
    Word := op ++ vd ++ va ++ vb ++ vc ++ pg ++ pn ++ ty ++ fn

def packVL (v : BitVec 4) (rs : BitVec 5) (lane : BitVec 6) (ty : BitVec 2) (fn : BitVec 4) : Word :=
  0x11#6 ++ v ++ 0#4 ++ rs ++ lane ++ 0#1 ++ ty ++ fn

def packCV (vd va tf ff : BitVec 4) (rm : BitVec 2) (spc : BitVec 1) (pg : BitVec 3) (part : BitVec 2)
    (blk : BitVec 1) : Word := 0x13#6 ++ vd ++ va ++ tf ++ ff ++ rm ++ spc ++ pg ++ part ++ blk ++ 0#1

def packCS (rd ra : BitVec 5) (tf ff : BitVec 4) (rm : BitVec 2) : Word :=
  0x14#6 ++ rd ++ ra ++ tf ++ ff ++ rm ++ 0#6

def packC (fn : BitVec 3) (rx rt rs : BitVec 5) (ch : BitVec 8) : Word := 0x18#6 ++ fn ++ rx ++ rt ++ rs ++ ch

def packX (op : BitVec 6) (fn ra rb rc : BitVec 5) (pd f : BitVec 3) : Word := op ++ fn ++ ra ++ rb ++ rc ++ pd ++ f

/-- An instruction where every field that must be zero is zero (R100). -/
def ifZero (c : Bool) (i : Instr) : Option Instr := if c then some i else none

/-- Opcode 0x01, scalar integer (Table 6). -/
def decInt (u : StId) (rd ra rb : BitVec 5) (fn : BitVec 6) (pd : BitVec 3) : Option Instr :=
  match fn.toNat with
  | 0 => ifZero (pd == 0) (.add u rd ra rb)
  | 1 => ifZero (pd == 0) (.sub u rd ra rb)
  | 2 => ifZero (pd == 0) (.mul u rd ra rb)
  | 3 => ifZero (pd == 0) (.mulh u rd ra rb)
  | 4 => ifZero (pd == 0) (.mulhu u rd ra rb)
  | 5 => ifZero (pd == 0) (.and u rd ra rb)
  | 6 => ifZero (pd == 0) (.or u rd ra rb)
  | 7 => ifZero (pd == 0) (.xor u rd ra rb)
  | 8 => ifZero (pd == 0) (.shl u rd ra rb)
  | 9 => ifZero (pd == 0) (.shr u rd ra rb)
  | 10 => ifZero (pd == 0) (.sra u rd ra rb)
  | 11 => ifZero (pd == 0) (.min u rd ra rb)
  | 12 => ifZero (pd == 0) (.max u rd ra rb)
  | 13 => ifZero (pd == 0) (.minu u rd ra rb)
  | 14 => ifZero (pd == 0) (.maxu u rd ra rb)
  | 15 => ifZero (pd == 0) (.addSat u rd ra rb)
  | 16 => ifZero (pd == 0) (.subSat u rd ra rb)
  | 17 => some (.sel u rd ra rb pd)
  | 24 => ifZero (rd == 0) (.cmpEq u pd ra rb)
  | 25 => ifZero (rd == 0) (.cmpNe u pd ra rb)
  | 26 => ifZero (rd == 0) (.cmpLt u pd ra rb)
  | 27 => ifZero (rd == 0) (.cmpLe u pd ra rb)
  | 28 => ifZero (rd == 0) (.cmpLtu u pd ra rb)
  | 29 => ifZero (rd == 0) (.cmpLeu u pd ra rb)
  | _ => none

/-- Opcode 0x09, scalar FP32 and transcendental (Table 6). -/
def decFloat (u : StId) (rd ra rb : BitVec 5) (fn : BitVec 6) (pd : BitVec 3) : Option Instr :=
  match fn.toNat with
  | 0 => ifZero (pd == 0) (.fadd u rd ra rb)
  | 1 => ifZero (pd == 0) (.fsub u rd ra rb)
  | 2 => ifZero (pd == 0) (.fmul u rd ra rb)
  | 3 => ifZero (pd == 0) (.ffma u rd ra rb)
  | 4 => ifZero (pd == 0) (.fmin u rd ra rb)
  | 5 => ifZero (pd == 0) (.fmax u rd ra rb)
  | 6 => ifZero (pd == 0 && rb == 0) (.fabs u rd ra)
  | 7 => ifZero (pd == 0 && rb == 0) (.fneg u rd ra)
  | 8 => ifZero (pd == 0 && rb == 0) (.fexp u rd ra)
  | 9 => ifZero (pd == 0 && rb == 0) (.frcp u rd ra)
  | 10 => ifZero (pd == 0 && rb == 0) (.frsqrt u rd ra)
  | 24 => ifZero (rd == 0) (.fcmpEq u pd ra rb)
  | 25 => ifZero (rd == 0) (.fcmpLt u pd ra rb)
  | 26 => ifZero (rd == 0) (.fcmpLe u pd ra rb)
  | 27 => ifZero (rd == 0) (.fcmpUn u pd ra rb)
  | _ => none

/-- Opcode 0x07: the immediate shifts (Table 5). -/
def decShiftI (u : StId) (rd ra : BitVec 5) (imm : BitVec 16) : Option Instr :=
  let amt := imm.extractLsb' 0 5
  if imm.extractLsb' 7 9 ≠ 0 then none
  else match (imm.extractLsb' 5 2).toNat with
    | 0 => some (.shli u rd ra amt)
    | 1 => some (.shri u rd ra amt)
    | 2 => some (.srai u rd ra amt)
    | _ => none

/-- Opcode 0x0A: branches (Table 6). -/
def decBranch (u : StId) (fn pg : BitVec 3) (pn : Bool) (rs : BitVec 5) (off : BitVec 11) : Option Instr :=
  match fn.toNat with
  | 0 => ifZero (rs == 0) (.br u pg pn off)
  | 1 => some (.loop u pg pn rs off)
  | 2 => some (.brZ u pg pn rs off)
  | 3 => some (.brNz u pg pn rs off)
  | _ => none

/-- Opcode 0x0B: loads (Table 4). -/
def decLoad (u : StId) (rd ra : BitVec 5) (sp : Space) (sz : BitVec 3) (imm : BitVec 12) : Option Instr :=
  match sz.toNat with
  | 0 => some (.ldB u rd ra sp imm)
  | 1 => some (.ldH u rd ra sp imm)
  | 2 => some (.ldW u rd ra sp imm)
  | 3 => ifZero (rd.extractLsb' 4 1 == 0) (.vld u (rd.extractLsb' 0 4) ra sp imm)
  | 4 => some (.ldBs u rd ra sp imm)
  | 5 => some (.ldHs u rd ra sp imm)
  | _ => none

/-- Opcode 0x0C: stores, which have no signed form (Table 4). -/
def decStore (u : StId) (rd ra : BitVec 5) (sp : Space) (sz : BitVec 3) (imm : BitVec 12) : Option Instr :=
  match sz.toNat with
  | 0 => some (.stB u rd ra sp imm)
  | 1 => some (.stH u rd ra sp imm)
  | 2 => some (.stW u rd ra sp imm)
  | 3 => ifZero (rd.extractLsb' 4 1 == 0) (.vst u (rd.extractLsb' 0 4) ra sp imm)
  | _ => none

/-- Opcode 0x10: vector arithmetic (Table 6). -/
def decVec (u : StId) (vd va vb vc : BitVec 4) (pg : BitVec 3) (pn : Bool) (ty : BitVec 2) (fn : BitVec 4) :
    Option Instr :=
  match fn.toNat with
  | 0 => ifZero (vc == 0) (.vadd u vd va vb pg pn (.ofCode ty))
  | 1 => ifZero (vc == 0) (.vsub u vd va vb pg pn (.ofCode ty))
  | 2 => ifZero (vc == 0) (.vmul u vd va vb pg pn (.ofCode ty))
  | 4 => ifZero (vc == 0) (.vmin u vd va vb pg pn (.ofCode ty))
  | 5 => ifZero (vc == 0) (.vmax u vd va vb pg pn (.ofCode ty))
  | 3 => some (.vfma u vd va vb vc pg pn (.ofCode ty))
  | 6 => ifZero (vb == 0 && vc == 0) (.vabs u vd va pg pn (.ofCode ty))
  | 7 => ifZero (vb == 0 && vc == 0) (.vneg u vd va pg pn (.ofCode ty))
  | 8 => if vc = 0 then (IntTy.ofCode? ty).map (fun t => .vand u vd va vb pg pn t) else none
  | 9 => if vc = 0 then (IntTy.ofCode? ty).map (fun t => .vor u vd va vb pg pn t) else none
  | 10 => if vc = 0 then (IntTy.ofCode? ty).map (fun t => .vxor u vd va vb pg pn t) else none
  | 11 => if vc = 0 then (IntTy.ofCode? ty).map (fun t => .vshl u vd va vb pg pn t) else none
  | 12 => if vc = 0 then (IntTy.ofCode? ty).map (fun t => .vsra u vd va vb pg pn t) else none
  | 13 => ifZero (vc == 0 && vd.extractLsb' 3 1 == 0) (.vcmpEq u (vd.extractLsb' 0 3) va vb pg pn (.ofCode ty))
  | 14 => ifZero (vc == 0 && vd.extractLsb' 3 1 == 0) (.vcmpLt u (vd.extractLsb' 0 3) va vb pg pn (.ofCode ty))
  | 15 => ifZero (vc == 0 && vd.extractLsb' 3 1 == 0) (.vcmpLe u (vd.extractLsb' 0 3) va vb pg pn (.ofCode ty))
  | _ => none

/-- Opcode 0x11: vector lanes and reductions, in the V and VL formats (Table 6). -/
def decLane (u : StId) (w : Word) : Option Instr :=
  let vd := bits w 22 4
  let va := bits w 18 4
  let vb := bits w 14 4
  let vc := bits w 10 4
  let pg := bits w 7 3
  let pn := bitBool (bits w 6 1)
  let ty := LaneTy.ofCode (bits w 4 2)
  let rs := bits w 13 5
  let lane := bits w 7 6
  match (bits w 0 4).toNat with
  | 0 => ifZero (vc == 0) (.vsel u vd va vb pg pn ty)
  | 1 => ifZero (bits w 18 4 == 0 && bits w 6 1 == 0 && lane == 0) (.vbcast u vd rs ty)
  | 2 => ifZero (bits w 18 4 == 0 && bits w 6 1 == 0) (.vext u vd rs lane ty)
  | 3 => ifZero (bits w 18 4 == 0 && bits w 6 1 == 0) (.vins u vd rs lane ty)
  | 4 => ifZero (vb == 0 && vc == 0) (.vsum u vd va pg pn ty)
  | 5 => ifZero (vb == 0 && vc == 0) (.vmaxi u vd va pg pn ty)
  | 6 => ifZero (vc == 0) (.vshuf u vd va vb pg pn ty)
  | 7 => ifZero (vb == 0 && vc == 0) (.vmov u vd va pg pn ty)
  | _ => none

/-- Opcode 0x12: vector transcendental (Table 6). -/
def decVTrans (u : StId) (vd va vb vc : BitVec 4) (pg : BitVec 3) (pn : Bool) (ty : BitVec 2) (fn : BitVec 4) :
    Option Instr :=
  if vb = 0 ∧ vc = 0 then
    match fn.toNat with
    | 0 => (FloatTy.ofCode? ty).map (fun t => .vexp u vd va pg pn t)
    | 1 => (FloatTy.ofCode? ty).map (fun t => .vrcp u vd va pg pn t)
    | 2 => (FloatTy.ofCode? ty).map (fun t => .vrsqrt u vd va pg pn t)
    | _ => none
  else none

/-- CVT's part must be 0 unless the target is wider than the source (R103). -/
def cvtPartOk (tf ff : CvtFmt) (part : BitVec 2) : Bool := decide (ff.width < tf.width) || part == 0

/-- Opcode 0x13 with blk 0: CVT (R103). -/
def decCvt (u : StId) (vd va tf ff : BitVec 4) (rm : BitVec 2) (spc : BitVec 1) (pg : BitVec 3) (part : BitVec 2) :
    Option Instr :=
  match CvtFmt.ofCode? tf, CvtFmt.ofCode? ff, Rm.ofCode? rm with
  | some t, some f, some m => ifZero (cvtPartOk t f part) (.cvt u vd va t f m (bitBool spc) pg part)
  | _, _, _ => none

/-- Opcode 0x13 with blk 1: CVT.BLK and CVT.UNBLK, told apart by the direction of the format pair (R103). -/
def decCvtBlk (u : StId) (vd va tf ff : BitVec 4) (rm : BitVec 2) : Option Instr :=
  match Rm.ofCode? rm with
  | none => none
  | some m =>
    match BlkFmt.ofCode? tf, BlkSrc.ofCode? ff with
    | some t, some f => ifZero (!(f == .fp32 && va == 15)) (.cvtBlk u vd va t f m)
    | _, _ =>
      match UnblkDst.ofCode? tf, BlkFmt.ofCode? ff with
      | some t, some f => ifZero (!(t == .fp32 && vd == 15)) (.cvtUnblk u vd va t f m)
      | _, _ => none

/-- Opcode 0x14: CVT.S (Table 6). -/
def decCvtS (u : StId) (rd ra : BitVec 5) (tf ff : BitVec 4) (rm : BitVec 2) : Option Instr :=
  match ScalFmt.ofCode? tf, ScalFmt.ofCode? ff, Rm.ofCode? rm with
  | some t, some f, some m => some (.cvtS u rd ra t f m)
  | _, _, _ => none

/-- Opcode 0x18: sends; the data of a token or word is the pair s(rx+1):s(rx) (Table 6, R100). -/
def decSend (u : StId) (fn : BitVec 3) (rx rt rs : BitVec 5) (ch : BitVec 8) : Option Instr :=
  match fn.toNat with
  | 0 => ifZero (rx != 31) (.send u rx rt rs ch)
  | 1 => ifZero (rx != 31) (.sendCtl u rx rt rs ch)
  | 2 => ifZero (rx != 31) (.trySend u rx rt rs ch)
  | 3 => ifZero (rx != 31) (.trySendCtl u rx rt rs ch)
  | 4 => some (.msendP u rx rt rs ch)
  | 5 => some (.msendL u rx rt rs ch)
  | 6 => some (.tryMsendP u rx rt rs ch)
  | _ => some (.tryMsendL u rx rt rs ch)

/-- Opcode 0x19: receive and ring (Table 6). -/
def decRecv (u : StId) (fn ra rb rc : BitVec 5) (pd f : BitVec 3) : Option Instr :=
  match fn.toNat with
  | 0 => ifZero (ra != 31 && rb == 0 && rc == 0 && pd == 0 && f.extractLsb' 2 1 == 0) (.qrecv u ra (f.extractLsb' 0 2))
  | 1 => ifZero (ra != 31 && rb == 0 && rc == 0 && f.extractLsb' 2 1 == 0) (.qrecvTry u ra pd (f.extractLsb' 0 2))
  | 2 => ifZero (rc == 0 && pd == 0 && f == 0) (.ringAdv u ra rb)
  | 3 => ifZero (rc == 0 && pd == 0 && f == 0) (.ringWp u ra rb)
  | 4 => ifZero (rc == 0 && pd == 0 && f == 0) (.credits u ra rb)
  | _ => none

/-- Opcode 0x1C: press, paging and leaf operations (Table 6). -/
def decPress (u : StId) (fn ra rb rc : BitVec 5) (pd f : BitVec 3) : Option Instr :=
  match fn.toNat with
  | 0 => ifZero (rb == 0 && rc == 0 && pd == 0 && f.extractLsb' 2 1 == 0)
      (.pressGo u ra (bitBool (f.extractLsb' 0 1)) (.ofBit (f.extractLsb' 1 1)))
  | 1 => ifZero (rc == 0 && pd == 0 && f == 0) (.hint u ra rb)
  | 2 => ifZero (rb == 0 && rc == 0 && pd == 0 && f == 0) (.leafFill u ra)
  | 3 => ifZero (rb == 0 && rc == 0 && pd == 0 && f == 0) (.leafCopy u ra)
  | _ => none

/-- Opcode 0x1D: collation (Table 6). -/
def decColl (u : StId) (fn ra rb rc : BitVec 5) (pd f : BitVec 3) : Option Instr :=
  match fn.toNat with
  | 0 => ifZero (f.extractLsb' 1 2 == 0) (.collChk u ra rb rc pd (.ofBit (f.extractLsb' 0 1)))
  | 1 => ifZero (pd == 0 && f.extractLsb' 1 2 == 0) (.collGen u ra rb rc (.ofBit (f.extractLsb' 0 1)))
  | _ => none

/-- Opcode 0x1E: control and predicates (Table 6). -/
def decCtl (u : StId) (fn ra rb rc : BitVec 5) (pd f : BitVec 3) : Option Instr :=
  let pa := ra.extractLsb' 0 3
  let pb := rb.extractLsb' 0 3
  let za := ra.extractLsb' 3 2 == 0
  let zb := rb.extractLsb' 3 2 == 0
  match fn.toNat with
  | 0 => ifZero (ra == 0 && rb == 0 && rc == 0 && pd == 0 && f == 0) (.nop u)
  | 1 => ifZero (ra == 0 && rb == 0 && rc == 0 && pd == 0 && f == 0) (.endF u)
  | 2 => ifZero (ra == 0 && rb == 0 && rc == 0 && pd == 0 && f == 0) (.tickdone u)
  | 3 => ifZero (rc == 0 && pd == 0 && f == 0) (.gets u ra rb)
  | 4 => ifZero (za && zb && rc == 0 && f == 0) (.pand u pd pa pb)
  | 5 => ifZero (za && zb && rc == 0 && f == 0) (.por u pd pa pb)
  | 6 => ifZero (za && rb == 0 && rc == 0 && f == 0) (.pnot u pd pa)
  | 7 => ifZero (za && rb == 0 && rc == 0 && f == 0) (.pany u pd pa)
  | 8 => ifZero (za && rb == 0 && rc == 0 && f == 0) (.pall u pd pa)
  | 9 => ifZero (ra == 0 && rb == 0 && rc == 0 && pd == 0 && f == 0) (.fence u)
  | _ => none

/-- The instruction that a word of stitcher `u`'s program is; none where it is illegal (R100). -/
def decodeWord (u : StId) (w : Word) : Option Instr :=
  let rd := bits w 21 5
  let ra := bits w 16 5
  let rb := bits w 11 5
  let imm := bits w 0 16
  match (bits w 26 6).toNat with
  | 0x01 => if bits w 0 2 = 0 then decInt u rd ra rb (bits w 5 6) (bits w 2 3) else none
  | 0x02 => some (.addi u rd ra imm)
  | 0x03 => some (.andi u rd ra imm)
  | 0x04 => some (.ori u rd ra imm)
  | 0x05 => some (.xori u rd ra imm)
  | 0x06 => ifZero (ra == 0) (.lui u rd imm)
  | 0x07 => decShiftI u rd ra imm
  | 0x08 => some (.cmpi u (bits w 21 3) (.ofCode (bits w 24 2)) ra imm)
  | 0x09 => if bits w 0 2 = 0 then decFloat u rd ra rb (bits w 5 6) (bits w 2 3) else none
  | 0x0A => if bits w 11 3 = 0 then decBranch u (bits w 23 3) (bits w 20 3) (bitBool (bits w 19 1)) (bits w 14 5) (bits w 0 11) else none
  | 0x0B => decLoad u rd ra (.ofBit (bits w 15 1)) (bits w 12 3) (bits w 0 12)
  | 0x0C => decStore u rd ra (.ofBit (bits w 15 1)) (bits w 12 3) (bits w 0 12)
  | 0x10 => decVec u (bits w 22 4) (bits w 18 4) (bits w 14 4) (bits w 10 4) (bits w 7 3) (bitBool (bits w 6 1)) (bits w 4 2) (bits w 0 4)
  | 0x11 => decLane u w
  | 0x12 => decVTrans u (bits w 22 4) (bits w 18 4) (bits w 14 4) (bits w 10 4) (bits w 7 3) (bitBool (bits w 6 1)) (bits w 4 2) (bits w 0 4)
  | 0x13 =>
    if bits w 0 1 = 0 then
      if bits w 1 1 = 0 then decCvt u (bits w 22 4) (bits w 18 4) (bits w 14 4) (bits w 10 4) (bits w 8 2) (bits w 7 1) (bits w 4 3) (bits w 2 2)
      else if bits w 7 1 = 0 ∧ bits w 4 3 = 0 ∧ bits w 2 2 = 0 then decCvtBlk u (bits w 22 4) (bits w 18 4) (bits w 14 4) (bits w 10 4) (bits w 8 2)
      else none
    else none
  | 0x14 => if bits w 0 6 = 0 then decCvtS u rd ra (bits w 12 4) (bits w 8 4) (bits w 6 2) else none
  | 0x18 => decSend u (bits w 23 3) (bits w 18 5) (bits w 13 5) (bits w 8 5) (bits w 0 8)
  | 0x19 => decRecv u rd ra rb (bits w 6 5) (bits w 3 3) (bits w 0 3)
  | 0x1C => decPress u rd ra rb (bits w 6 5) (bits w 3 3) (bits w 0 3)
  | 0x1D => decColl u rd ra rb (bits w 6 5) (bits w 3 3) (bits w 0 3)
  | 0x1E => decCtl u rd ra rb (bits w 6 5) (bits w 3 3) (bits w 0 3)
  | _ => none

/-! The encoder, from the same tables. -/

/-- The word of an instruction of stitcher `u`; none for a command that is no instruction. -/
def encode : Instr → Option Word
  | .add _ rd ra rb => some (packR 0x01 rd ra rb 0 0)
  | .sub _ rd ra rb => some (packR 0x01 rd ra rb 1 0)
  | .mul _ rd ra rb => some (packR 0x01 rd ra rb 2 0)
  | .mulh _ rd ra rb => some (packR 0x01 rd ra rb 3 0)
  | .mulhu _ rd ra rb => some (packR 0x01 rd ra rb 4 0)
  | .and _ rd ra rb => some (packR 0x01 rd ra rb 5 0)
  | .or _ rd ra rb => some (packR 0x01 rd ra rb 6 0)
  | .xor _ rd ra rb => some (packR 0x01 rd ra rb 7 0)
  | .shl _ rd ra rb => some (packR 0x01 rd ra rb 8 0)
  | .shr _ rd ra rb => some (packR 0x01 rd ra rb 9 0)
  | .sra _ rd ra rb => some (packR 0x01 rd ra rb 10 0)
  | .min _ rd ra rb => some (packR 0x01 rd ra rb 11 0)
  | .max _ rd ra rb => some (packR 0x01 rd ra rb 12 0)
  | .minu _ rd ra rb => some (packR 0x01 rd ra rb 13 0)
  | .maxu _ rd ra rb => some (packR 0x01 rd ra rb 14 0)
  | .addSat _ rd ra rb => some (packR 0x01 rd ra rb 15 0)
  | .subSat _ rd ra rb => some (packR 0x01 rd ra rb 16 0)
  | .sel _ rd ra rb pd => some (packR 0x01 rd ra rb 17 pd)
  | .cmpEq _ pd ra rb => some (packR 0x01 0 ra rb 24 pd)
  | .cmpNe _ pd ra rb => some (packR 0x01 0 ra rb 25 pd)
  | .cmpLt _ pd ra rb => some (packR 0x01 0 ra rb 26 pd)
  | .cmpLe _ pd ra rb => some (packR 0x01 0 ra rb 27 pd)
  | .cmpLtu _ pd ra rb => some (packR 0x01 0 ra rb 28 pd)
  | .cmpLeu _ pd ra rb => some (packR 0x01 0 ra rb 29 pd)
  | .addi _ rd ra imm => some (packI 2 rd ra imm)
  | .andi _ rd ra imm => some (packI 3 rd ra imm)
  | .ori _ rd ra imm => some (packI 4 rd ra imm)
  | .xori _ rd ra imm => some (packI 5 rd ra imm)
  | .lui _ rd imm => some (packI 6 rd 0 imm)
  | .shli _ rd ra amt => some (packI 7 rd ra (0#9 ++ 0#2 ++ amt))
  | .shri _ rd ra amt => some (packI 7 rd ra (0#9 ++ 1#2 ++ amt))
  | .srai _ rd ra amt => some (packI 7 rd ra (0#9 ++ 2#2 ++ amt))
  | .cmpi _ pd cond ra imm => some (packI 8 (cond.code ++ pd) ra imm)
  | .fadd _ rd ra rb => some (packR 0x09 rd ra rb 0 0)
  | .fsub _ rd ra rb => some (packR 0x09 rd ra rb 1 0)
  | .fmul _ rd ra rb => some (packR 0x09 rd ra rb 2 0)
  | .ffma _ rd ra rb => some (packR 0x09 rd ra rb 3 0)
  | .fmin _ rd ra rb => some (packR 0x09 rd ra rb 4 0)
  | .fmax _ rd ra rb => some (packR 0x09 rd ra rb 5 0)
  | .fabs _ rd ra => some (packR 0x09 rd ra 0 6 0)
  | .fneg _ rd ra => some (packR 0x09 rd ra 0 7 0)
  | .fexp _ rd ra => some (packR 0x09 rd ra 0 8 0)
  | .frcp _ rd ra => some (packR 0x09 rd ra 0 9 0)
  | .frsqrt _ rd ra => some (packR 0x09 rd ra 0 10 0)
  | .fcmpEq _ pd ra rb => some (packR 0x09 0 ra rb 24 pd)
  | .fcmpLt _ pd ra rb => some (packR 0x09 0 ra rb 25 pd)
  | .fcmpLe _ pd ra rb => some (packR 0x09 0 ra rb 26 pd)
  | .fcmpUn _ pd ra rb => some (packR 0x09 0 ra rb 27 pd)
  | .br _ pg pn off => some (packB 0 pg (boolBit pn) 0 off)
  | .loop _ pg pn rs off => some (packB 1 pg (boolBit pn) rs off)
  | .brZ _ pg pn rs off => some (packB 2 pg (boolBit pn) rs off)
  | .brNz _ pg pn rs off => some (packB 3 pg (boolBit pn) rs off)
  | .ldB _ rd ra sp imm => some (packM 0x0B rd ra sp.bit 0 imm)
  | .ldH _ rd ra sp imm => some (packM 0x0B rd ra sp.bit 1 imm)
  | .ldW _ rd ra sp imm => some (packM 0x0B rd ra sp.bit 2 imm)
  | .ldBs _ rd ra sp imm => some (packM 0x0B rd ra sp.bit 4 imm)
  | .ldHs _ rd ra sp imm => some (packM 0x0B rd ra sp.bit 5 imm)
  | .vld _ vd ra sp imm => some (packM 0x0B (0#1 ++ vd) ra sp.bit 3 imm)
  | .stB _ rd ra sp imm => some (packM 0x0C rd ra sp.bit 0 imm)
  | .stH _ rd ra sp imm => some (packM 0x0C rd ra sp.bit 1 imm)
  | .stW _ rd ra sp imm => some (packM 0x0C rd ra sp.bit 2 imm)
  | .vst _ vd ra sp imm => some (packM 0x0C (0#1 ++ vd) ra sp.bit 3 imm)
  | .vadd _ vd va vb pg pn ty => some (packV 0x10 vd va vb 0 pg (boolBit pn) ty.code 0)
  | .vsub _ vd va vb pg pn ty => some (packV 0x10 vd va vb 0 pg (boolBit pn) ty.code 1)
  | .vmul _ vd va vb pg pn ty => some (packV 0x10 vd va vb 0 pg (boolBit pn) ty.code 2)
  | .vmin _ vd va vb pg pn ty => some (packV 0x10 vd va vb 0 pg (boolBit pn) ty.code 4)
  | .vmax _ vd va vb pg pn ty => some (packV 0x10 vd va vb 0 pg (boolBit pn) ty.code 5)
  | .vand _ vd va vb pg pn ty => some (packV 0x10 vd va vb 0 pg (boolBit pn) ty.code 8)
  | .vor _ vd va vb pg pn ty => some (packV 0x10 vd va vb 0 pg (boolBit pn) ty.code 9)
  | .vxor _ vd va vb pg pn ty => some (packV 0x10 vd va vb 0 pg (boolBit pn) ty.code 10)
  | .vshl _ vd va vb pg pn ty => some (packV 0x10 vd va vb 0 pg (boolBit pn) ty.code 11)
  | .vsra _ vd va vb pg pn ty => some (packV 0x10 vd va vb 0 pg (boolBit pn) ty.code 12)
  | .vfma _ vd va vb vc pg pn ty => some (packV 0x10 vd va vb vc pg (boolBit pn) ty.code 3)
  | .vabs _ vd va pg pn ty => some (packV 0x10 vd va 0 0 pg (boolBit pn) ty.code 6)
  | .vneg _ vd va pg pn ty => some (packV 0x10 vd va 0 0 pg (boolBit pn) ty.code 7)
  | .vcmpEq _ pd va vb pg pn ty => some (packV 0x10 (0#1 ++ pd) va vb 0 pg (boolBit pn) ty.code 13)
  | .vcmpLt _ pd va vb pg pn ty => some (packV 0x10 (0#1 ++ pd) va vb 0 pg (boolBit pn) ty.code 14)
  | .vcmpLe _ pd va vb pg pn ty => some (packV 0x10 (0#1 ++ pd) va vb 0 pg (boolBit pn) ty.code 15)
  | .vsel _ vd va vb pg pn ty => some (packV 0x11 vd va vb 0 pg (boolBit pn) ty.code 0)
  | .vshuf _ vd va vb pg pn ty => some (packV 0x11 vd va vb 0 pg (boolBit pn) ty.code 6)
  | .vbcast _ vd rs ty => some (packVL vd rs 0 ty.code 1)
  | .vext _ va rs lane ty => some (packVL va rs lane ty.code 2)
  | .vins _ vd rs lane ty => some (packVL vd rs lane ty.code 3)
  | .vsum _ vd va pg pn ty => some (packV 0x11 vd va 0 0 pg (boolBit pn) ty.code 4)
  | .vmaxi _ vd va pg pn ty => some (packV 0x11 vd va 0 0 pg (boolBit pn) ty.code 5)
  | .vmov _ vd va pg pn ty => some (packV 0x11 vd va 0 0 pg (boolBit pn) ty.code 7)
  | .vexp _ vd va pg pn ty => some (packV 0x12 vd va 0 0 pg (boolBit pn) ty.code 0)
  | .vrcp _ vd va pg pn ty => some (packV 0x12 vd va 0 0 pg (boolBit pn) ty.code 1)
  | .vrsqrt _ vd va pg pn ty => some (packV 0x12 vd va 0 0 pg (boolBit pn) ty.code 2)
  | .cvt _ vd va tf ff rm spc pg part => some (packCV vd va tf.code ff.code rm.code (boolBit spc) pg part 0)
  | .cvtBlk _ vd va tf ff rm => some (packCV vd va tf.code ff.code rm.code 0 0 0 1)
  | .cvtUnblk _ vd va tf ff rm => some (packCV vd va tf.code ff.code rm.code 0 0 0 1)
  | .cvtS _ rd ra tf ff rm => some (packCS rd ra tf.code ff.code rm.code)
  | .send _ rx rt rs ch => some (packC 0 rx rt rs ch)
  | .sendCtl _ rx rt rs ch => some (packC 1 rx rt rs ch)
  | .trySend _ rx rt rs ch => some (packC 2 rx rt rs ch)
  | .trySendCtl _ rx rt rs ch => some (packC 3 rx rt rs ch)
  | .msendP _ rx rt rs ch => some (packC 4 rx rt rs ch)
  | .msendL _ rx rt rs ch => some (packC 5 rx rt rs ch)
  | .tryMsendP _ rx rt rs ch => some (packC 6 rx rt rs ch)
  | .tryMsendL _ rx rt rs ch => some (packC 7 rx rt rs ch)
  | .qrecv _ ra queue => some (packX 0x19 0 ra 0 0 0 (0#1 ++ queue))
  | .qrecvTry _ ra pd queue => some (packX 0x19 1 ra 0 0 pd (0#1 ++ queue))
  | .ringAdv _ ra rb => some (packX 0x19 2 ra rb 0 0 0)
  | .ringWp _ ra rb => some (packX 0x19 3 ra rb 0 0 0)
  | .credits _ ra rb => some (packX 0x19 4 ra rb 0 0 0)
  | .pressGo _ ra press sp => some (packX 0x1C 0 ra 0 0 0 (0#1 ++ sp.bit ++ boolBit press))
  | .hint _ ra rb => some (packX 0x1C 1 ra rb 0 0 0)
  | .leafFill _ ra => some (packX 0x1C 2 ra 0 0 0 0)
  | .leafCopy _ ra => some (packX 0x1C 3 ra 0 0 0 0)
  | .collChk _ ra rb rc pd sp => some (packX 0x1D 0 ra rb rc pd (0#2 ++ sp.bit))
  | .collGen _ ra rb rc sp => some (packX 0x1D 1 ra rb rc 0 (0#2 ++ sp.bit))
  | .nop _ => some (packX 0x1E 0 0 0 0 0 0)
  | .endF _ => some (packX 0x1E 1 0 0 0 0 0)
  | .tickdone _ => some (packX 0x1E 2 0 0 0 0 0)
  | .gets _ ra sel => some (packX 0x1E 3 ra sel 0 0 0)
  | .pand _ pd ra rb => some (packX 0x1E 4 (0#2 ++ ra) (0#2 ++ rb) 0 pd 0)
  | .por _ pd ra rb => some (packX 0x1E 5 (0#2 ++ ra) (0#2 ++ rb) 0 pd 0)
  | .pnot _ pd ra => some (packX 0x1E 6 (0#2 ++ ra) 0 0 pd 0)
  | .pany _ pd ra => some (packX 0x1E 7 (0#2 ++ ra) 0 0 pd 0)
  | .pall _ pd ra => some (packX 0x1E 8 (0#2 ++ ra) 0 0 pd 0)
  | .fence _ => some (packX 0x1E 9 0 0 0 0 0)
  | _ => none

end Sys2Proof
end

