-- ==== Sys2Proof/Machine/Float.lean ====
section
/-! DEFINITION. Number formats: exact values, one rounding, conversions, and the correctly rounded functions
(02_number_formats.md R38 to R60, 04_stitchers.md R102). -/

namespace Sys2Proof.Machine

/-- The exact value of a float code: not a number, an infinity, or (-1)^s x m x 2^e. -/
inductive FVal where
  | nan
  | inf (s : Bool)
  | fin (s : Bool) (m : Nat) (e : Int)
  deriving DecidableEq, Repr

/-- A float layout of R40, Table 2: mantissa bits, bias, largest finite magnitude code, sign bit place,
magnitude code of infinity, canonical NaN code (R42). -/
structure FFmt where
  mb   : Nat
  bias : Nat
  maxc : Nat
  sgn  : Nat
  infc : Option Nat
  nanc : Nat
  deriving DecidableEq, Repr

def FFmt.fp32 : FFmt := ⟨23, 127, 0x7F7FFFFF, 31, some 0x7F800000, 0x7FC00000⟩
def FFmt.bf16 : FFmt := ⟨7, 127, 0x7F7F, 15, some 0x7F80, 0x7FC0⟩
def FFmt.fp16 : FFmt := ⟨10, 15, 0x7BFF, 15, some 0x7C00, 0x7E00⟩
def FFmt.e4m3 : FFmt := ⟨3, 7, 0x7E, 7, none, 0x7F⟩
def FFmt.e5m2 : FFmt := ⟨2, 15, 0x7B, 7, some 0x7C, 0x7E⟩
def FFmt.e3m2 : FFmt := ⟨2, 3, 0x1F, 5, none, 0⟩
def FFmt.e2m1 : FFmt := ⟨1, 1, 0x7, 3, none, 0⟩

/-- The rounding modes of R56. -/
inductive RMode where
  | rne | rtz | sr
  deriving DecidableEq, Repr

/-- The exact value of a code (R40). -/
def FFmt.decode (f : FFmt) (c : Nat) : FVal :=
  let s := decide ((c / 2 ^ f.sgn) % 2 = 1)
  let mag := c % 2 ^ f.sgn
  if f.maxc < mag then
    if f.infc = some mag then .inf s else .nan
  else
    let e := mag / 2 ^ f.mb
    let m := mag % 2 ^ f.mb
    if e = 0 then .fin s m (1 - f.bias - f.mb)
    else .fin s (m + 2 ^ f.mb) ((e : Int) - f.bias - f.mb)

/-- The sign placed over a magnitude code. -/
def FFmt.withSign (f : FFmt) (s : Bool) (mag : Nat) : Nat :=
  if s then 2 ^ f.sgn + mag else mag

/-- Whether dropping `d` low bits of `m` carries into the kept value, by mode (R56, R57); `r` is the draw. -/
def roundUp (mode : RMode) (r m d : Nat) : Bool :=
  let kept := m / 2 ^ d
  let rem := m % 2 ^ d
  match mode with
  | .rne => decide (2 ^ d < 2 * rem) || (decide (2 * rem = 2 ^ d) && decide (kept % 2 = 1))
  | .rtz => false
  | .sr => decide (2 ^ d ≤ rem + (if d ≤ 16 then r / 2 ^ (16 - d) else r * 2 ^ (d - 16)))

/-- The magnitude code nearest by mode to m x 2^e, on the format's grid continued past its largest finite value. -/
def FFmt.roundMag (f : FFmt) (mode : RMode) (r m : Nat) (e : Int) : Nat :=
  let qmin : Int := 1 - f.bias - f.mb
  let q := max (e + (Nat.log2 m : Int) - f.mb) qmin
  let base := (q - qmin).toNat * 2 ^ f.mb
  if q ≤ e then base + m * 2 ^ (e - q).toNat
  else
    let d := (q - e).toNat
    base + m / 2 ^ d + (if roundUp mode r m d then 1 else 0)

/-- What a finite overflow gives (R59, Table 5): an infinity, the largest finite value, or a NaN. -/
def FFmt.overflow (f : FFmt) (mode : RMode) (spc : Bool) (s : Bool) : Nat :=
  if f.sgn = 7 then
    if spc then
      match f.infc with
      | none => f.nanc
      | some i => if mode = .rtz then f.withSign s f.maxc else f.withSign s i
    else f.withSign s f.maxc
  else
    match f.infc with
    | none => f.withSign s f.maxc
    | some i => if mode = .rtz then f.withSign s f.maxc else f.withSign s i

/-- The code of an exact value in a float format, rounded once (R56, R59, R60). -/
def FFmt.encode (f : FFmt) (mode : RMode) (r : Nat) (spc : Bool) : FVal → Nat
  | .nan => f.nanc
  | .inf s =>
    if f.sgn = 7 ∧ spc = false then f.withSign s f.maxc
    else match f.infc with
      | none => f.nanc
      | some i => f.withSign s i
  | .fin s m e =>
    if m = 0 then f.withSign s 0
    else
      let c := f.roundMag mode r m e
      if f.maxc < c then f.overflow mode spc s else f.withSign s c

/-- The signed integer nearest by mode to a finite value. -/
def roundInt (mode : RMode) (r : Nat) (s : Bool) (m : Nat) (e : Int) : Int :=
  let mag : Nat :=
    if 0 ≤ e then m * 2 ^ e.toNat
    else
      let d := (-e).toNat
      m / 2 ^ d + (if roundUp mode r m d then 1 else 0)
  if s then -(mag : Int) else mag

/-- Clamp to the two's complement range of `w` bits (R44). -/
def clampInt (w : Nat) (x : Int) : Int :=
  max (-(2 ^ (w - 1) : Int)) (min x (2 ^ (w - 1) - 1))

/-- The two's complement code of `w` bits. -/
def intCode (w : Nat) (x : Int) : Nat := (x % (2 ^ w : Int)).toNat

/-- The value of a two's complement code of `w` bits. -/
def intVal (w c : Nat) : Int :=
  let c := c % 2 ^ w
  if 2 ^ (w - 1) ≤ c then (c : Int) - 2 ^ w else c

/-- The exact value of an integer. -/
def FVal.ofInt (x : Int) : FVal := .fin (decide (x < 0)) x.natAbs 0

/-- Float to integer, saturating; NaN gives 0 (R59, Table 5). -/
def floatToInt (w : Nat) (mode : RMode) (r : Nat) : FVal → Int
  | .nan => 0
  | .inf s => if s then -(2 ^ (w - 1) : Int) else 2 ^ (w - 1) - 1
  | .fin s m e => clampInt w (roundInt mode r s m e)

/-- m x 2^e as a signed integer count of 2^q, for q at most e. -/
def signedAt (s : Bool) (m : Nat) (e q : Int) : Int :=
  let x : Int := (m : Int) * 2 ^ (e - q).toNat
  if s then -x else x

/-- Exact sum (R42: an invalid sum is NaN; an exact zero of two signs is +0, as RNE gives). -/
def FVal.add : FVal → FVal → FVal
  | .nan, _ => .nan
  | _, .nan => .nan
  | .inf a, .inf b => if a = b then .inf a else .nan
  | .inf a, .fin .. => .inf a
  | .fin .., .inf b => .inf b
  | .fin s m e, .fin t n g =>
    let q := min e g
    let x := signedAt s m e q + signedAt t n g q
    if x = 0 then .fin (s && t) 0 q
    else .fin (decide (x < 0)) x.natAbs q

/-- Exact product. -/
def FVal.mul : FVal → FVal → FVal
  | .nan, _ => .nan
  | _, .nan => .nan
  | .inf a, .inf b => .inf (a != b)
  | .inf a, .fin t n _ => if n = 0 then .nan else .inf (a != t)
  | .fin s m _, .inf b => if m = 0 then .nan else .inf (s != b)
  | .fin s m e, .fin t n g => .fin (s != t) (m * n) (e + g)

def FVal.neg : FVal → FVal
  | .nan => .nan
  | .inf s => .inf (!s)
  | .fin s m e => .fin (!s) m e

/-- Strictly less, in the exact order; false with a NaN. -/
def FVal.lt : FVal → FVal → Bool
  | .nan, _ => false
  | _, .nan => false
  | .inf a, .inf b => a && !b
  | .inf a, .fin .. => a
  | .fin .., .inf b => !b
  | .fin s m e, .fin t n g =>
    let q := min e g
    decide (signedAt s m e q < signedAt t n g q)

/-- Equal as numbers; the zeros are equal; false with a NaN. -/
def FVal.eqv : FVal → FVal → Bool
  | .nan, _ => false
  | _, .nan => false
  | .inf a, .inf b => a == b
  | .inf _, .fin .. => false
  | .fin .., .inf _ => false
  | .fin s m e, .fin t n g =>
    let q := min e g
    decide (signedAt s m e q = signedAt t n g q)

def FVal.isNan : FVal → Bool
  | .nan => true
  | _ => false

/-- The sign of a value that is not NaN. -/
def FVal.sign : FVal → Bool
  | .nan => false
  | .inf s => s
  | .fin s _ _ => s

/-- The order of minimum and maximum: as numbers, with -0 below +0 (R42). -/
def FVal.below (a b : FVal) : Bool :=
  a.lt b || (a.eqv b && a.sign && !b.sign)

def FVal.min (a b : FVal) : FVal :=
  if a.isNan || b.isNan then .nan else if b.below a then b else a

def FVal.max (a b : FVal) : FVal :=
  if a.isNan || b.isNan then .nan else if a.below b then b else a

/-! The correctly rounded functions of R102. Each gives an exact value, or one within the last of many more bits than
the rounding reads, with a low bit that says that more follows. -/

/-- The sum of the terms x^k/k! from k on, in units of 2^-320, for `n` terms; `t` is the term k. -/
def expTerms (x : Nat) : Nat → Nat → Nat → Nat → Nat
  | 0, _, _, acc => acc
  | n + 1, k, t, acc => expTerms x n (k + 1) (t * x / 2 ^ 320 / (k + 1)) (acc + t)

/-- Squares a fixed-point number `n` times. -/
def squareTimes : Nat → Nat → Nat
  | 0, y => y
  | n + 1, y => squareTimes n (y * y / 2 ^ 320)

/-- e^x in units of 2^-320 for x given in units of 2^-320, x below 128. -/
def expFix (x : Nat) : Nat := squareTimes 8 (expTerms (x / 2 ^ 8) 80 0 (2 ^ 320) 0)

/-- e^x (R102). -/
def FVal.exp : FVal → FVal
  | .nan => .nan
  | .inf s => if s then .fin false 0 0 else .inf false
  | .fin s m e =>
    if m = 0 then .fin false 1 0
    else if 7 < e + (Nat.log2 m : Int) then
      if s then .fin false 1 (-400) else .fin false 1 400
    else
      let x := if -320 ≤ e then m * 2 ^ (e + 320).toNat else m / 2 ^ (-320 - e).toNat
      let y := expFix x
      if s then .fin false (2 * (2 ^ 640 / y) + 1) (-321)
      else .fin false (2 * y + 1) (-321)

/-- 1/x (R102). -/
def FVal.rcp : FVal → FVal
  | .nan => .nan
  | .inf s => .fin s 0 0
  | .fin s m e =>
    if m = 0 then .inf s
    else
      let q := 2 ^ 200 / m
      .fin s (2 * q + (if q * m = 2 ^ 200 then 0 else 1)) (-201 - e)

/-- The integer square root, found bit by bit from bit `n - 1` down. -/
def isqrtFrom (x : Nat) : Nat → Nat → Nat
  | 0, r => r
  | n + 1, r => isqrtFrom x n (if (r + 2 ^ n) * (r + 2 ^ n) ≤ x then r + 2 ^ n else r)

/-- 1/sqrt x (R102). -/
def FVal.rsqrt : FVal → FVal
  | .nan => .nan
  | .inf s => if s then .nan else .fin false 0 0
  | .fin s m e =>
    if m = 0 then .inf s
    else if s then .nan
    else
      let m' := if e % 2 = 0 then m else 2 * m
      let h := if e % 2 = 0 then e / 2 else (e - 1) / 2
      let q := isqrtFrom (2 ^ 256 / m') 130 0
      .fin false (2 * q + (if q * q * m' = 2 ^ 256 then 0 else 1)) (-129 - h)

/-- One RNE rounding to FP32 (R41, R56). -/
def toFp32 (v : FVal) : BitVec 32 := BitVec.ofNat 32 (FFmt.fp32.encode .rne 0 false v)

/-- The value of an FP32 code. -/
def ofFp32 (w : BitVec 32) : FVal := FFmt.fp32.decode w.toNat

/-! The format codes of R38. -/

/-- The float layout of a code, where the code names a float format. -/
def fmtFloat : Nat → Option FFmt
  | 0 => some .fp32
  | 1 => some .bf16
  | 2 => some .fp16
  | 3 => some .e4m3
  | 4 => some .e5m2
  | 5 => some .e3m2
  | 6 => some .e2m1
  | _ => none

/-- The bits of one value of a format code (R38, Table 1). -/
def fmtBits : Nat → Nat
  | 0 => 32
  | 1 => 16
  | 2 => 16
  | 3 => 8
  | 4 => 8
  | 5 => 6
  | 6 => 4
  | 7 => 32
  | 8 => 8
  | _ => 4

/-- The exact value of a code of a format, float or integer. -/
def fmtValue (c x : Nat) : FVal :=
  match fmtFloat c with
  | some f => f.decode x
  | none => .ofInt (intVal (fmtBits c) x)

/-- One conversion to a format (R56, R59, Table 5). -/
def fmtConvert (tf : Nat) (mode : RMode) (r : Nat) (spc : Bool) (v : FVal) : Nat :=
  match fmtFloat tf with
  | some f => f.encode mode r spc v
  | none => intCode (fmtBits tf) (floatToInt (fmtBits tf) mode r v)

/-- emax of R51. -/
def fmtEmax : Nat → Int
  | 3 => 8
  | 4 => 15
  | 5 => 4
  | _ => 2

/-- floor (log2 |x|) of a finite value other than zero. -/
def FVal.exponent : FVal → Int
  | .fin _ m e => e + Nat.log2 m
  | _ => 0

/-- The magnitude, in the exact order, is at most that of the other. -/
def FVal.magLe : FVal → FVal → Bool
  | .fin _ m e, .fin _ n g => !(FVal.lt (.fin false n g) (.fin false m e))
  | _, _ => false

/-- The value times 2^k. -/
def FVal.scale (k : Int) : FVal → FVal
  | .fin s m e => .fin s m (e + k)
  | v => v

def FVal.isFin : FVal → Bool
  | .fin .. => true
  | _ => false

def FVal.isZero : FVal → Bool
  | .fin _ 0 _ => true
  | _ => false

/-- The largest magnitude of a list of finite values. -/
def maxMag : List FVal → FVal
  | [] => .fin false 0 0
  | v :: t => if (maxMag t).magLe v then v else maxMag t

/-- The scale byte of a block (R51). -/
def blockScale (tf : Nat) (xs : List FVal) : Nat :=
  if xs.any (fun v => !v.isFin) then 0xFF
  else
    let a := maxMag xs
    if a.isZero then 0x7F
    else (max 0 (min (a.exponent - fmtEmax tf + 127) 254)).toNat

/-- The element code of one value of a block under its scale (R51); block quantisation saturates. -/
def blockElem (tf scale : Nat) (mode : RMode) (r : Nat) (v : FVal) : Nat :=
  if scale = 0xFF then 0
  else
    match fmtFloat tf with
    | some f => f.encode mode r false (v.scale (127 - (scale : Int)))
    | none => 0

/-- The value of an element of a block under its scale byte (R49, R50). -/
def blockValue (fmt scale x : Nat) : FVal :=
  if scale = 0xFF then .nan
  else match fmtFloat fmt with
    | some f => (f.decode x).scale ((scale : Int) - 127)
    | none => .nan

/-! The rounding generator of R58. -/

def lfsrStep (x : BitVec 32) : BitVec 32 :=
  if x.getLsbD 0 then (x >>> 1) ^^^ 0x80200003#32 else x >>> 1

def lfsrSteps : Nat → BitVec 32 → BitVec 32
  | 0, x => x
  | n + 1, x => lfsrSteps n (lfsrStep x)

/-- A draw's next generator state: 16 steps on. -/
def lfsrDraw (x : BitVec 32) : BitVec 32 := lfsrSteps 16 x

/-- What a seed loads: zero loads one. -/
def lfsrLoad (seed : BitVec 32) : BitVec 32 := if seed = 0 then 1 else seed

end Sys2Proof.Machine
end

