-- ==== Sys2Proof/Config.lean ====
section
/-! DEFINITION. What an implementation fixes and the values the spec leaves open: constants without a body. -/

namespace Sys2Proof

/-- A free value of `w` bits: any value the spec leaves open, by the number of the use in a run and the place in it. -/
opaque Config.freeBits : Nat → Nat → (w : Nat) → BitVec w

/-- The factor of a TRN group whose scale byte lies out of range, by the reference and the byte: the spec states none (02_number_formats.md
R54). -/
opaque Config.trnOutOfRange : Nat → Nat → Int

/-- The hub stop, above columns 0 to 5, at which the hub's host side sends its spine messages: the spec names none. -/
opaque Config.hubStop : Fin 6

/-- The BCH and overall parity bits [40:0] of a weight segment, by its data and its address [26:6], and the check byte of an
activation word, by its data, the segment address and its place: the spec names no generator (05_leaf_store.md R118). -/
opaque Config.leafBch : BitVec 512 → BitVec 21 → BitVec 41
opaque Config.leafSecded : BitVec 64 → BitVec 21 → BitVec 3 → BitVec 8

/-- The DRAM row, in its channel, that holds a partition memory address: the spec names no row size. -/
opaque Config.dramRow : Nat → Nat

/-- A Kolqua vendor key accepts the signature of a message: the XMSS check of 13_bring_up_and_licences.md R334, whose
algorithm the spec takes from NIST SP 800-208. -/
opaque Config.vendorAccepts : List Byte → List Byte → Bool

/-- The bytes of the identity key's signature over a message at an index (R334, R337). -/
opaque Config.identitySign : Nat → List Byte → List Byte

end Sys2Proof
end

