-- ==== Sys2Proof/Machine/Crc.lean ====
section
/-! DEFINITION. The check codes: CRC-8 of tokens (04_stitchers.md R99) and CRC-32C (10_collation_and_checking.md R267). -/

namespace Sys2Proof.Machine

/-- One bit into the CRC-8 of polynomial x^8 + x^2 + x + 1. -/
def crc8Bit (c : BitVec 8) (b : Bool) : BitVec 8 :=
  if c.msb != b then (c <<< 1) ^^^ 0x07#8 else c <<< 1

/-- The `n` bits of a number from bit 0 upward. -/
def bitsUp : Nat → Nat → List Bool
  | 0, _ => []
  | n + 1, x => decide (x % 2 = 1) :: bitsUp n (x / 2)

/-- The check field of a token: bits [83:0] of the token, then the stitcher, then the logical quire (R99). -/
def tokenCheck (body st quire : Nat) : BitVec 8 :=
  (bitsUp 84 body ++ bitsUp 6 st ++ bitsUp 5 quire).foldl crc8Bit 0

/-- One bit shifted out of the reflected CRC-32C register. -/
def crc32Bit (c : BitVec 32) : BitVec 32 :=
  if c.getLsbD 0 then (c >>> 1) ^^^ 0x82F63B78#32 else c >>> 1

/-- One byte into the CRC-32C register. -/
def crc32Byte (c : BitVec 32) (b : BitVec 8) : BitVec 32 :=
  let x := c ^^^ b.setWidth 32
  crc32Bit (crc32Bit (crc32Bit (crc32Bit (crc32Bit (crc32Bit (crc32Bit (crc32Bit x)))))))

/-- CRC-32C of a block (R267, Table 2). -/
def crc32c (l : List (BitVec 8)) : BitVec 32 := (l.foldl crc32Byte 0xFFFFFFFF#32) ^^^ 0xFFFFFFFF#32

end Sys2Proof.Machine
end

