-- ==== Sys2Proof/Machine/EventTable.lean ====
section
/-! DEFINITION. The event codes of the spec's event tables, and the trigger table's defaults
(14_event_recorder_and_colophon.md R347, R349, R354). -/

namespace Sys2Proof.Machine

def Ev.TICK_OVERRUN : Nat := 0x1001
def Ev.TICK_CONTRACT : Nat := 0x1002
def Ev.SLIP_EXCEEDED : Nat := 0x1003
def Ev.TICK_CONFIG : Nat := 0x1004
def Ev.TICK_HANG : Nat := 0x1005
def Ev.TICK_WRAP : Nat := 0x1006
def Ev.PS_REFUSED : Nat := 0x2001
def Ev.PS_CHECK : Nat := 0x2002
def Ev.PS_VOTE : Nat := 0x2003
def Ev.COLL_PRESS : Nat := 0x2004
def Ev.PS_ABANDON : Nat := 0x2005
def Ev.PS_HOLD_DISCARD : Nat := 0x2006
def Ev.PS_HOLD_OPEN : Nat := 0x2007
def Ev.TRN_CODE : Nat := 0x2011
def Ev.TRN_SCALE : Nat := 0x2012
def Ev.FMT_PAIR : Nat := 0x2013
def Ev.FMT_UNLICENSED : Nat := 0x2014
def Ev.ACC_WRAP : Nat := 0x2015
def Ev.MX_SCALE_NAN : Nat := 0x2016
def Ev.ST_RESIDUE : Nat := 0x3001
def Ev.ST_ILLEGAL : Nat := 0x3002
def Ev.ST_LONG_FIRING : Nat := 0x3003
def Ev.ST_TOKEN_CHECK : Nat := 0x3004
def Ev.ST_PORT_UNBOUND : Nat := 0x3005
def Ev.ST_TAG_DUP : Nat := 0x3006
def Ev.ST_MEM_UNCORR : Nat := 0x3007
def Ev.ST_ADDR : Nat := 0x3008
def Ev.COLL_STITCH : Nat := 0x3009
def Ev.ST_CHANNEL : Nat := 0x300A
def Ev.ST_CONFIG : Nat := 0x300B
def Ev.ST_UNSEALED_TOKEN : Nat := 0x300C
def Ev.ST_CTRL_IGNORED : Nat := 0x300D
def Ev.CVT_NAN : Nat := 0x3011
def Ev.LF_UNCORR : Nat := 0x4001
def Ev.ROW_RACE : Nat := 0x4002
def Ev.LF_ROW_PENDING : Nat := 0x4003
def Ev.LF_ROW_REMAPPED : Nat := 0x4004
def Ev.LF_SPARES_OUT : Nat := 0x4005
def Ev.LF_TRACK_FULL : Nat := 0x4006
def Ev.LF_OP_REFUSED : Nat := 0x4007
def Ev.SCRUB_LATE : Nat := 0x4008
def Ev.SCRUB_TORN : Nat := 0x4009
def Ev.LF_CLASS_IGNORED : Nat := 0x400A
def Ev.SEND_STALL : Nat := 0x5001
def Ev.EPOCH_DISCARD : Nat := 0x5002
def Ev.CH_ORPHAN : Nat := 0x5003
def Ev.CH_OVERFLOW : Nat := 0x5004
def Ev.CH_RING_ADV : Nat := 0x5005
def Ev.CH_MSG_CHECK : Nat := 0x5006
def Ev.CH_SPAN_ABORT : Nat := 0x5007
def Ev.CH_CONFIG : Nat := 0x5008
def Ev.CH_DRAIN_LIMIT : Nat := 0x5009
def Ev.MS_LINK_RETRAIN : Nat := 0x5010
def Ev.MS_LINK_DOWN : Nat := 0x5011
def Ev.MS_LANE_SPARED : Nat := 0x5012
def Ev.MS_LANES_OUT : Nat := 0x5013
def Ev.MS_LATE_TRANSIT : Nat := 0x5014
def Ev.MS_MAP_SWITCH : Nat := 0x5015
def Ev.MS_ABSENT : Nat := 0x5016
def Ev.MS_HALF : Nat := 0x5017
def Ev.SP_PARITY : Nat := 0x5020
def Ev.SP_TIMEOUT : Nat := 0x5021
def Ev.SP_STROKE_GAP : Nat := 0x5022
def Ev.SP_ASLEEP : Nat := 0x5023
def Ev.SP_LOAD_GAP : Nat := 0x5024
def Ev.SP_LOAD_FAIL : Nat := 0x5025
def Ev.SP_LOST : Nat := 0x5026
def Ev.LATE_PAGE : Nat := 0x6001
def Ev.PG_HINT_BAD : Nat := 0x6002
def Ev.PG_MEM_UNCORR : Nat := 0x6003
def Ev.COLL_PAGE : Nat := 0x6004
def Ev.PG_OUT_POISON : Nat := 0x6005
def Ev.PG_SLOT_REUSE : Nat := 0x6006
def Ev.PG_UPLOAD_REFUSED : Nat := 0x6007
def Ev.PG_UPLOAD_ORDER : Nat := 0x6008
def Ev.PG_CANCEL : Nat := 0x6009
def Ev.PG_CONFIG_IGNORED : Nat := 0x600A
def Ev.CFG_WRITE : Nat := 0x7001
def Ev.CX_PRIV_DENIED : Nat := 0x7002
def Ev.CX_LINK : Nat := 0x7003
def Ev.CX_IDE_FAIL : Nat := 0x7004
def Ev.CX_READ_UNCORR : Nat := 0x7005
def Ev.CX_BIND : Nat := 0x7006
def Ev.CX_WRITE_DROP : Nat := 0x7007
def Ev.INBOX_STALE : Nat := 0x7010
def Ev.INBOX_HEADER : Nat := 0x7011
def Ev.INBOX_SKIP : Nat := 0x7012
def Ev.INBOX_LATE : Nat := 0x7013
def Ev.INBOX_INTAKE_LOST : Nat := 0x7014
def Ev.SLOT_INCOMPLETE : Nat := 0x7020
def Ev.SLOT_LATE_WRITE : Nat := 0x7021
def Ev.SLOT_WRITE_ORDER : Nat := 0x7022
def Ev.RESULT_RING_FULL : Nat := 0x7023
def Ev.SLOT_ACK_BAD : Nat := 0x7024
def Ev.MB_ABORT : Nat := 0x7030
def Ev.MB_REFUSED : Nat := 0x7031
def Ev.MB_WAKE : Nat := 0x7032
def Ev.MB_CQ_FULL : Nat := 0x7033
def Ev.IN_SHIELD_LAPSE : Nat := 0x8001
def Ev.IN_DROOP : Nat := 0x8002
def Ev.IN_CLOCK : Nat := 0x8003
def Ev.IN_PERMANENT : Nat := 0x8004
def Ev.IN_RESTRICT : Nat := 0x8005
def Ev.IN_SWEEP : Nat := 0x8006
def Ev.IN_MD_FAIL : Nat := 0x8007
def Ev.IN_PPR : Nat := 0x8008
def Ev.IN_MARGIN_LOW : Nat := 0x8009
def Ev.RS_QUIRE : Nat := 0x9001
def Ev.RS_TILE_CYCLE : Nat := 0x9002
def Ev.RS_PARTITION : Nat := 0x9003
def Ev.RS_RECOVERED : Nat := 0x9004
def Ev.RS_FENCE : Nat := 0x9005
def Ev.RS_VERIFY_FAIL : Nat := 0x9006
def Ev.RS_HANG : Nat := 0x9007
def Ev.RS_PART_WITHDRAWN : Nat := 0x9008
def Ev.RS_DEVICE : Nat := 0x9009
def Ev.RS_DEV_WITHDRAWN : Nat := 0x900A
def Ev.RS_DEGRADED : Nat := 0x900B
def Ev.RS_WIPE : Nat := 0x900C
def Ev.BT_RESULT : Nat := 0xA001
def Ev.BT_FAIL : Nat := 0xA002
def Ev.BT_KEYS_CLEARED : Nat := 0xA003
def Ev.BT_ROT_NOTICE : Nat := 0xA004
def Ev.BT_ROT_DONE : Nat := 0xA005
def Ev.BT_ROT_POSTPONED : Nat := 0xA006
def Ev.BT_ROT_ABANDONED : Nat := 0xA007
def Ev.BT_HELD : Nat := 0xA008
def Ev.BT_REFUSED : Nat := 0xA009
def Ev.BT_TIPIN : Nat := 0xA00A
def Ev.BT_RESTORE : Nat := 0xA00B
def Ev.BOOT_DONE : Nat := 0xB001
def Ev.BOOT_CFG_COPY : Nat := 0xB002
def Ev.BOOT_CFG_BAD : Nat := 0xB003
def Ev.BOOT_TRAIN : Nat := 0xB004
def Ev.LC_INSTALLED : Nat := 0xB010
def Ev.LC_REFUSED : Nat := 0xB011
def Ev.LC_NONE : Nat := 0xB012
def Ev.LC_FEATURE : Nat := 0xB013
def Ev.FW_UPDATE : Nat := 0xB020
def Ev.FW_RECOVERY : Nat := 0xB021
def Ev.LC_ID_LOW : Nat := 0xB030
def Ev.LC_ID_EXHAUSTED : Nat := 0xB031
def Ev.ATTEST : Nat := 0xB032
def Ev.REC_LOST : Nat := 0xB040
def Ev.REC_CRC : Nat := 0xB041
def Ev.COL_WRITE : Nat := 0xB042
def Ev.TRIG_CHANGED : Nat := 0xB043
def Ev.COL_WORN : Nat := 0xB044
def Ev.PW_BUDGET : Nat := 0xC001
def Ev.POWER_CAP : Nat := 0xC002
def Ev.BUDGET_BELOW_SCHEDULE : Nat := 0xC003
def Ev.PW_MODULE_CAP : Nat := 0xC004
def Ev.CLOCK_STEP : Nat := 0xC011
def Ev.THERM_CRIT : Nat := 0xC012
def Ev.THERM_TRIP : Nat := 0xC013
def Ev.THERM_PLATE : Nat := 0xC014
def Ev.PW_INPUT : Nat := 0xC020

/-- Every code in ascending order with its default severity (R349) and its capture words (R347, R381). The trigger entry of a code is its place here. -/
def evTable0 : List (Nat × Nat × Nat) := [(0x1001, 0, 0), (0x1002, 1, 8), (0x1003, 1, 0), (0x1004, 1, 1), (0x1005, 2, 0), (0x1006, 0, 0), (0x2001, 2, 3), (0x2002, 1, 6), (0x2003, 2, 4), (0x2004, 2, 5), (0x2005, 0, 3), (0x2006, 2, 2), (0x2007, 2, 2), (0x2011, 1, 3), (0x2012, 2, 4), (0x2013, 2, 4)]
def evTable1 : List (Nat × Nat × Nat) := [(0x2014, 2, 3), (0x2015, 0, 2), (0x2016, 0, 2), (0x3001, 2, 3), (0x3002, 2, 3), (0x3003, 2, 3), (0x3004, 2, 4), (0x3005, 1, 3), (0x3006, 2, 3), (0x3007, 2, 3), (0x3008, 2, 3), (0x3009, 2, 5), (0x300A, 2, 3), (0x300B, 1, 2), (0x300C, 1, 3), (0x300D, 1, 2)]
def evTable2 : List (Nat × Nat × Nat) := [(0x3011, 0, 2), (0x4001, 2, 4), (0x4002, 1, 4), (0x4003, 1, 4), (0x4004, 0, 4), (0x4005, 2, 3), (0x4006, 1, 3), (0x4007, 2, 3), (0x4008, 0, 2), (0x4009, 0, 2), (0x400A, 1, 2), (0x5001, 0, 7), (0x5002, 0, 3), (0x5003, 0, 5), (0x5004, 2, 5), (0x5005, 2, 5)]
def evTable3 : List (Nat × Nat × Nat) := [(0x5006, 2, 6), (0x5007, 1, 3), (0x5008, 1, 4), (0x5009, 0, 2), (0x5010, 1, 3), (0x5011, 2, 3), (0x5012, 0, 4), (0x5013, 1, 3), (0x5014, 1, 4), (0x5015, 0, 5), (0x5016, 1, 3), (0x5017, 0, 5), (0x5020, 1, 3), (0x5021, 1, 4), (0x5022, 2, 2), (0x5023, 1, 4)]
def evTable4 : List (Nat × Nat × Nat) := [(0x5024, 1, 3), (0x5025, 1, 2), (0x5026, 2, 4), (0x6001, 0, 5), (0x6002, 2, 3), (0x6003, 2, 4), (0x6004, 2, 4), (0x6005, 2, 4), (0x6006, 1, 3), (0x6007, 1, 4), (0x6008, 0, 3), (0x6009, 0, 2), (0x600A, 1, 2), (0x7001, 0, 3), (0x7002, 1, 2), (0x7003, 0, 2)]
def evTable5 : List (Nat × Nat × Nat) := [(0x7004, 2, 2), (0x7005, 2, 2), (0x7006, 0, 3), (0x7007, 1, 3), (0x7010, 1, 3), (0x7011, 2, 4), (0x7012, 0, 2), (0x7013, 0, 6), (0x7014, 2, 3), (0x7020, 1, 3), (0x7021, 1, 3), (0x7022, 1, 3), (0x7023, 0, 5), (0x7024, 1, 3), (0x7030, 0, 3), (0x7031, 1, 4)]
def evTable6 : List (Nat × Nat × Nat) := [(0x7032, 0, 3), (0x7033, 0, 5), (0x8001, 2, 2), (0x8002, 2, 5), (0x8003, 2, 3), (0x8004, 2, 4), (0x8005, 0, 3), (0x8006, 0, 4), (0x8007, 1, 3), (0x8008, 0, 3), (0x8009, 1, 4), (0x9001, 2, 2), (0x9002, 2, 2), (0x9003, 2, 3), (0x9004, 0, 2), (0x9005, 2, 2)]
def evTable7 : List (Nat × Nat × Nat) := [(0x9006, 2, 4), (0x9007, 2, 3), (0x9008, 3, 6), (0x9009, 2, 2), (0x900A, 3, 2), (0x900B, 2, 3), (0x900C, 0, 4), (0xA001, 0, 4), (0xA002, 2, 7), (0xA003, 0, 2), (0xA004, 0, 4), (0xA005, 0, 4), (0xA006, 0, 2), (0xA007, 1, 3), (0xA008, 0, 2), (0xA009, 1, 2)]
def evTable8 : List (Nat × Nat × Nat) := [(0xA00A, 2, 4), (0xA00B, 2, 2), (0xB001, 0, 3), (0xB002, 1, 1), (0xB003, 3, 1), (0xB004, 1, 3), (0xB010, 0, 4), (0xB011, 1, 2), (0xB012, 1, 1), (0xB013, 1, 3), (0xB020, 0, 2), (0xB021, 3, 1), (0xB030, 1, 1), (0xB031, 1, 0), (0xB032, 0, 3), (0xB040, 1, 3)]
def evTable9 : List (Nat × Nat × Nat) := [(0xB041, 2, 3), (0xB042, 2, 2), (0xB043, 0, 3), (0xB044, 1, 1), (0xC001, 0, 5), (0xC002, 1, 0), (0xC003, 1, 0), (0xC004, 1, 5), (0xC011, 0, 0), (0xC012, 2, 3), (0xC013, 3, 3), (0xC014, 2, 1), (0xC020, 2, 3)]

def evTable : List (Nat × Nat × Nat) := evTable0 ++ evTable1 ++ evTable2 ++ evTable3 ++ evTable4 ++ evTable5 ++ evTable6 ++ evTable7 ++ evTable8 ++ evTable9

/-- The default severity of a code (R349). -/
def evSev (code : Nat) : Nat :=
  match evTable.find? (fun e => e.1 == code) with
  | some e => e.2.1
  | none => 0

end Sys2Proof.Machine
end

