-- ==== Sys2Proof/Machine/RegMap.lean ====
section
/-! DEFINITION. The register map: every register of the spec's register tables with its offset in its block and its
reset value, and every field with its place (00_scope.md R9, R10 and the sections "Registers" of the other files). -/

namespace Sys2Proof.Machine

/-- A register: its byte offset in its block and its value at reset (00_scope.md R10). -/
structure Reg where
  off : Nat
  rst : BitVec 32
  deriving DecidableEq, Repr

/-- A field of a register: its register, its lowest bit, its width. -/
structure Fld where
  reg : Reg
  lo  : Nat
  w   : Nat
  deriving DecidableEq, Repr

/-- What a plain write does to a register: the bits it may set, the bits that a 1 clears, the bits that a 1 sets. -/
structure RegAcc where
  off : Nat
  stride : Nat
  count : Nat
  rst : BitVec 32
  rw  : Nat
  w1c : Nat
  w1s : Nat
  deriving DecidableEq, Repr

/-- Register `i` of an array of 4-byte registers. -/
def Reg.nth (r : Reg) (i : Nat) : Reg := { r with off := r.off + 4 * i }

/-- Field of register `i` of an array of 4-byte registers. -/
def Fld.nth (f : Fld) (i : Nat) : Fld := { f with reg := f.reg.nth i }

-- 01_the_tick.md
def R.TK_CTRL : Reg := ⟨0x0, 0x0⟩
def F.TK_CTRL_run : Fld := ⟨R.TK_CTRL, 0, 1⟩
def F.TK_CTRL_hold : Fld := ⟨R.TK_CTRL, 1, 1⟩
def F.TK_CTRL_policy : Fld := ⟨R.TK_CTRL, 2, 1⟩
def R.TK_MODE : Reg := ⟨0x4, 0x10000⟩
def F.TK_MODE_mode : Fld := ⟨R.TK_MODE, 0, 2⟩
def F.TK_MODE_strike_inbox : Fld := ⟨R.TK_MODE, 2, 1⟩
def F.TK_MODE_strike_doorbell : Fld := ⟨R.TK_MODE, 3, 1⟩
def F.TK_MODE_ext_edge : Fld := ⟨R.TK_MODE, 4, 1⟩
def F.TK_MODE_strike_min : Fld := ⟨R.TK_MODE, 8, 24⟩
def R.TK_PERIOD : Reg := ⟨0x8, 0x200⟩
def F.TK_PERIOD_period : Fld := ⟨R.TK_PERIOD, 0, 32⟩
def R.TK_BUDGET : Reg := ⟨0xC, 0x0⟩
def F.TK_BUDGET_run_budget : Fld := ⟨R.TK_BUDGET, 0, 32⟩
def R.TK_FRAME : Reg := ⟨0x10, 0x10012⟩
def F.TK_FRAME_publish_len : Fld := ⟨R.TK_FRAME, 0, 16⟩
def F.TK_FRAME_bind_max : Fld := ⟨R.TK_FRAME, 16, 7⟩
def R.TK_STRIKE : Reg := ⟨0x14, 0x0⟩
def F.TK_STRIKE_strike : Fld := ⟨R.TK_STRIKE, 0, 1⟩
def R.TK_STATUS : Reg := ⟨0x18, 0x0⟩
def F.TK_STATUS_running : Fld := ⟨R.TK_STATUS, 0, 1⟩
def F.TK_STATUS_held : Fld := ⟨R.TK_STATUS, 1, 1⟩
def F.TK_STATUS_phase : Fld := ⟨R.TK_STATUS, 2, 2⟩
def F.TK_STATUS_last_failed : Fld := ⟨R.TK_STATUS, 4, 1⟩
def F.TK_STATUS_last_late : Fld := ⟨R.TK_STATUS, 5, 1⟩
def F.TK_STATUS_pending : Fld := ⟨R.TK_STATUS, 6, 1⟩
def F.TK_STATUS_clock : Fld := ⟨R.TK_STATUS, 7, 2⟩
def F.TK_STATUS_quires_done : Fld := ⟨R.TK_STATUS, 16, 8⟩
def R.TK_COUNT_LO : Reg := ⟨0x20, 0x0⟩
def R.TK_COUNT_HI : Reg := ⟨0x24, 0x0⟩
def R.TK_OVERRUNS_LO : Reg := ⟨0x28, 0x0⟩
def R.TK_OVERRUNS_HI : Reg := ⟨0x2C, 0x0⟩
def R.TK_STRIKE_STATS : Reg := ⟨0x30, 0x0⟩
def F.TK_STRIKE_STATS_merged : Fld := ⟨R.TK_STRIKE_STATS, 0, 16⟩
def F.TK_STRIKE_STATS_spaced : Fld := ⟨R.TK_STRIKE_STATS, 16, 16⟩
def R.TK_INTAKE_STATS : Reg := ⟨0x34, 0x0⟩
def F.TK_INTAKE_STATS_deferred : Fld := ⟨R.TK_INTAKE_STATS, 0, 16⟩
def F.TK_INTAKE_STATS_skipped : Fld := ⟨R.TK_INTAKE_STATS, 16, 16⟩
def R.TK_LG_EXPECT : Reg := ⟨0x400, 0x0⟩
def F.TK_LG_EXPECT_reported_run : Fld := ⟨R.TK_LG_EXPECT, 0, 32⟩
def R.TK_LG_ALLOW : Reg := ⟨0x404, 0x40⟩
def F.TK_LG_ALLOW_allowance : Fld := ⟨R.TK_LG_ALLOW, 0, 10⟩
def R.TK_LG_RUN : Reg := ⟨0x408, 0x0⟩
def F.TK_LG_RUN_run : Fld := ⟨R.TK_LG_RUN, 0, 32⟩
def R.TK_LG_SLIP : Reg := ⟨0x40C, 0x0⟩
def F.TK_LG_SLIP_used : Fld := ⟨R.TK_LG_SLIP, 0, 16⟩
def F.TK_LG_SLIP_corrections : Fld := ⟨R.TK_LG_SLIP, 16, 8⟩
def F.TK_LG_SLIP_seam : Fld := ⟨R.TK_LG_SLIP, 24, 4⟩
def F.TK_LG_SLIP_tipin : Fld := ⟨R.TK_LG_SLIP, 28, 4⟩
def R.TK_LG_STALL0 : Reg := ⟨0x410, 0x0⟩
def F.TK_LG_STALL0_late_page : Fld := ⟨R.TK_LG_STALL0, 0, 16⟩
def F.TK_LG_STALL0_credit : Fld := ⟨R.TK_LG_STALL0, 16, 16⟩
def R.TK_LG_STALL1 : Reg := ⟨0x414, 0x0⟩
def F.TK_LG_STALL1_power_cap : Fld := ⟨R.TK_LG_STALL1, 0, 16⟩
def F.TK_LG_STALL1_refused : Fld := ⟨R.TK_LG_STALL1, 16, 16⟩
def R.TK_LG_TICK : Reg := ⟨0x418, 0x0⟩
def F.TK_LG_TICK_tick : Fld := ⟨R.TK_LG_TICK, 0, 16⟩
def F.TK_LG_TICK_late_pages : Fld := ⟨R.TK_LG_TICK, 16, 8⟩
def F.TK_LG_TICK_overrun : Fld := ⟨R.TK_LG_TICK, 24, 1⟩
def F.TK_LG_TICK_mismatch : Fld := ⟨R.TK_LG_TICK, 25, 1⟩
def F.TK_LG_TICK_late : Fld := ⟨R.TK_LG_TICK, 26, 1⟩
def R.TK_LG_MISMATCH : Reg := ⟨0x41C, 0x0⟩
def F.TK_LG_MISMATCH_mismatches : Fld := ⟨R.TK_LG_MISMATCH, 0, 32⟩
-- 02_number_formats.md
def R.HB_FMT_CAPS : Reg := ⟨0x100, 0x39F⟩
def F.HB_FMT_CAPS_accept : Fld := ⟨R.HB_FMT_CAPS, 0, 11⟩
def R.PS_FMT_ERR_PA : Reg := ⟨0x500, 0x0⟩
def F.PS_FMT_ERR_PA_trn_code : Fld := ⟨R.PS_FMT_ERR_PA, 0, 16⟩
def F.PS_FMT_ERR_PA_trn_scale : Fld := ⟨R.PS_FMT_ERR_PA, 16, 8⟩
def F.PS_FMT_ERR_PA_acc_wrap : Fld := ⟨R.PS_FMT_ERR_PA, 24, 8⟩
def R.PS_FMT_ERR_PB : Reg := ⟨0x504, 0x0⟩
def F.PS_FMT_ERR_PB_trn_code : Fld := ⟨R.PS_FMT_ERR_PB, 0, 16⟩
def F.PS_FMT_ERR_PB_trn_scale : Fld := ⟨R.PS_FMT_ERR_PB, 16, 8⟩
def F.PS_FMT_ERR_PB_acc_wrap : Fld := ⟨R.PS_FMT_ERR_PB, 24, 8⟩
def R.ST_SR_SEED : Reg := ⟨0x800, 0x1⟩
def F.ST_SR_SEED_seed : Fld := ⟨R.ST_SR_SEED, 0, 32⟩
-- 03_presses.md
def R.PS_MODE : Reg := ⟨0x508, 0x1⟩
def F.PS_MODE_check : Fld := ⟨R.PS_MODE, 0, 1⟩
def F.PS_MODE_behind : Fld := ⟨R.PS_MODE, 1, 1⟩
def R.PS_CHECK_TOL : Reg := ⟨0x50C, 0xC⟩
def F.PS_CHECK_TOL_tol_exp : Fld := ⟨R.PS_CHECK_TOL, 0, 5⟩
def R.PS_VOTE : Reg := ⟨0x510, 0x0⟩
def F.PS_VOTE_checker : Fld := ⟨R.PS_VOTE, 0, 8⟩
def F.PS_VOTE_array : Fld := ⟨R.PS_VOTE, 8, 8⟩
def F.PS_VOTE_unresolved : Fld := ⟨R.PS_VOTE, 16, 8⟩
def F.PS_VOTE_abandoned : Fld := ⟨R.PS_VOTE, 24, 4⟩
def F.PS_VOTE_active : Fld := ⟨R.PS_VOTE, 28, 1⟩
def F.PS_VOTE_suspect : Fld := ⟨R.PS_VOTE, 29, 1⟩
def R.PS_HOLD : Reg := ⟨0x514, 0x0⟩
def F.PS_HOLD_peak : Fld := ⟨R.PS_HOLD, 0, 8⟩
def F.PS_HOLD_now : Fld := ⟨R.PS_HOLD, 8, 8⟩
def F.PS_HOLD_discarded : Fld := ⟨R.PS_HOLD, 16, 16⟩
def R.PS_STATUS_PA : Reg := ⟨0x600, 0x0⟩
def F.PS_STATUS_PA_busy : Fld := ⟨R.PS_STATUS_PA, 0, 1⟩
def F.PS_STATUS_PA_queued : Fld := ⟨R.PS_STATUS_PA, 1, 3⟩
def F.PS_STATUS_PA_frozen : Fld := ⟨R.PS_STATUS_PA, 4, 1⟩
def F.PS_STATUS_PA_port_bound : Fld := ⟨R.PS_STATUS_PA, 5, 1⟩
def F.PS_STATUS_PA_last_seq : Fld := ⟨R.PS_STATUS_PA, 8, 16⟩
def F.PS_STATUS_PA_last_status : Fld := ⟨R.PS_STATUS_PA, 24, 4⟩
def R.PS_STATUS_PB : Reg := ⟨0x640, 0x0⟩
def F.PS_STATUS_PB_busy : Fld := ⟨R.PS_STATUS_PB, 0, 1⟩
def F.PS_STATUS_PB_queued : Fld := ⟨R.PS_STATUS_PB, 1, 3⟩
def F.PS_STATUS_PB_frozen : Fld := ⟨R.PS_STATUS_PB, 4, 1⟩
def F.PS_STATUS_PB_port_bound : Fld := ⟨R.PS_STATUS_PB, 5, 1⟩
def F.PS_STATUS_PB_last_seq : Fld := ⟨R.PS_STATUS_PB, 8, 16⟩
def F.PS_STATUS_PB_last_status : Fld := ⟨R.PS_STATUS_PB, 24, 4⟩
def R.PS_DONE_LO_PA : Reg := ⟨0x604, 0x0⟩
def R.PS_DONE_HI_PA : Reg := ⟨0x608, 0x0⟩
def R.PS_DONE_LO_PB : Reg := ⟨0x644, 0x0⟩
def R.PS_DONE_HI_PB : Reg := ⟨0x648, 0x0⟩
def R.PS_BUSY_LO_PA : Reg := ⟨0x60C, 0x0⟩
def R.PS_BUSY_HI_PA : Reg := ⟨0x610, 0x0⟩
def R.PS_BUSY_LO_PB : Reg := ⟨0x64C, 0x0⟩
def R.PS_BUSY_HI_PB : Reg := ⟨0x650, 0x0⟩
def R.PS_CHECKS_PA : Reg := ⟨0x614, 0x0⟩
def F.PS_CHECKS_PA_mismatch : Fld := ⟨R.PS_CHECKS_PA, 0, 16⟩
def F.PS_CHECKS_PA_collation : Fld := ⟨R.PS_CHECKS_PA, 16, 16⟩
def R.PS_CHECKS_PB : Reg := ⟨0x654, 0x0⟩
def F.PS_CHECKS_PB_mismatch : Fld := ⟨R.PS_CHECKS_PB, 0, 16⟩
def F.PS_CHECKS_PB_collation : Fld := ⟨R.PS_CHECKS_PB, 16, 16⟩
def R.PS_REFUSALS_PA : Reg := ⟨0x618, 0x0⟩
def F.PS_REFUSALS_PA_format : Fld := ⟨R.PS_REFUSALS_PA, 0, 8⟩
def F.PS_REFUSALS_PA_shape : Fld := ⟨R.PS_REFUSALS_PA, 8, 8⟩
def F.PS_REFUSALS_PA_address : Fld := ⟨R.PS_REFUSALS_PA, 16, 8⟩
def R.PS_REFUSALS_PB : Reg := ⟨0x658, 0x0⟩
def F.PS_REFUSALS_PB_format : Fld := ⟨R.PS_REFUSALS_PB, 0, 8⟩
def F.PS_REFUSALS_PB_shape : Fld := ⟨R.PS_REFUSALS_PB, 8, 8⟩
def F.PS_REFUSALS_PB_address : Fld := ⟨R.PS_REFUSALS_PB, 16, 8⟩
-- 04_stitchers.md
def R.ST_SEALED_LO : Reg := ⟨0x900, 0x0⟩
def R.ST_SEALED_HI : Reg := ⟨0x904, 0x0⟩
def R.ST_USED_LO : Reg := ⟨0x908, 0x0⟩
def R.ST_USED_HI : Reg := ⟨0x90C, 0x0⟩
def R.ST_FAULT : Reg := ⟨0x910, 0x0⟩
def F.ST_FAULT_stitcher : Fld := ⟨R.ST_FAULT, 0, 6⟩
def F.ST_FAULT_cause : Fld := ⟨R.ST_FAULT, 6, 4⟩
def F.ST_FAULT_count : Fld := ⟨R.ST_FAULT, 16, 8⟩
def F.ST_FAULT_discarded : Fld := ⟨R.ST_FAULT, 24, 7⟩
def F.ST_FAULT_suspect : Fld := ⟨R.ST_FAULT, 31, 1⟩
def R.ST_DBG_ADDR : Reg := ⟨0x914, 0x0⟩
def F.ST_DBG_ADDR_addr : Fld := ⟨R.ST_DBG_ADDR, 0, 14⟩
def F.ST_DBG_ADDR_space : Fld := ⟨R.ST_DBG_ADDR, 14, 1⟩
def F.ST_DBG_ADDR_stitcher : Fld := ⟨R.ST_DBG_ADDR, 16, 6⟩
def R.ST_DBG_DATA : Reg := ⟨0x918, 0x0⟩
def F.ST_DBG_DATA_data : Fld := ⟨R.ST_DBG_DATA, 0, 32⟩
def R.ST_CTRL : Reg := ⟨0x0, 0x0⟩
def F.ST_CTRL_reset : Fld := ⟨R.ST_CTRL, 0, 1⟩
def R.ST_STATUS : Reg := ⟨0x4, 0x0⟩
def F.ST_STATUS_used : Fld := ⟨R.ST_STATUS, 0, 1⟩
def F.ST_STATUS_sealed : Fld := ⟨R.ST_STATUS, 1, 1⟩
def F.ST_STATUS_cfg_err : Fld := ⟨R.ST_STATUS, 2, 1⟩
def F.ST_STATUS_state : Fld := ⟨R.ST_STATUS, 3, 3⟩
def F.ST_STATUS_handler : Fld := ⟨R.ST_STATUS, 6, 4⟩
def F.ST_STATUS_resets : Fld := ⟨R.ST_STATUS, 16, 16⟩
def R.ST_PC : Reg := ⟨0x8, 0x0⟩
def F.ST_PC_pc : Fld := ⟨R.ST_PC, 0, 10⟩
def F.ST_PC_count : Fld := ⟨R.ST_PC, 10, 9⟩
def R.ST_FIRINGS_LO : Reg := ⟨0xC, 0x0⟩
def R.ST_FIRINGS_HI : Reg := ⟨0x10, 0x0⟩
def R.ST_MATCH : Reg := ⟨0x14, 0x0⟩
def F.ST_MATCH_now : Fld := ⟨R.ST_MATCH, 0, 7⟩
def F.ST_MATCH_peak : Fld := ⟨R.ST_MATCH, 8, 7⟩
def F.ST_MATCH_orphans : Fld := ⟨R.ST_MATCH, 16, 8⟩
def F.ST_MATCH_absorbed : Fld := ⟨R.ST_MATCH, 24, 8⟩
def R.ST_ERR : Reg := ⟨0x18, 0x0⟩
def F.ST_ERR_residue : Fld := ⟨R.ST_ERR, 0, 4⟩
def F.ST_ERR_illegal : Fld := ⟨R.ST_ERR, 4, 4⟩
def F.ST_ERR_long : Fld := ⟨R.ST_ERR, 8, 4⟩
def F.ST_ERR_address : Fld := ⟨R.ST_ERR, 12, 4⟩
def F.ST_ERR_mem_uncorr : Fld := ⟨R.ST_ERR, 16, 4⟩
def F.ST_ERR_token_check : Fld := ⟨R.ST_ERR, 20, 4⟩
def F.ST_ERR_port_unbound : Fld := ⟨R.ST_ERR, 24, 4⟩
def F.ST_ERR_tag_dup : Fld := ⟨R.ST_ERR, 28, 4⟩
def R.ST_ECC : Reg := ⟨0x1C, 0x0⟩
def F.ST_ECC_corrected : Fld := ⟨R.ST_ECC, 0, 16⟩
def R.ST_HANDLER : Reg := ⟨0x40, 0x0⟩
def F.ST_HANDLER_entry : Fld := ⟨R.ST_HANDLER, 0, 10⟩
def F.ST_HANDLER_ports : Fld := ⟨R.ST_HANDLER, 10, 2⟩
def F.ST_HANDLER_valid : Fld := ⟨R.ST_HANDLER, 12, 1⟩
def R.ST_PORT : Reg := ⟨0x80, 0x0⟩
def F.ST_PORT_valid : Fld := ⟨R.ST_PORT, 0, 1⟩
def F.ST_PORT_handler : Fld := ⟨R.ST_PORT, 1, 4⟩
def F.ST_PORT_slot : Fld := ⟨R.ST_PORT, 5, 2⟩
def F.ST_PORT_credits : Fld := ⟨R.ST_PORT, 8, 7⟩
-- 05_leaf_store.md
def R.LF_SIZE : Reg := ⟨0x200, 0x8000000⟩
def F.LF_SIZE_bytes : Fld := ⟨R.LF_SIZE, 0, 32⟩
def R.LF_GEOM : Reg := ⟨0x204, 0x109A8⟩
def F.LF_GEOM_bank_bits : Fld := ⟨R.LF_GEOM, 0, 4⟩
def F.LF_GEOM_row_bits : Fld := ⟨R.LF_GEOM, 4, 4⟩
def F.LF_GEOM_row_byte_bits : Fld := ⟨R.LF_GEOM, 8, 4⟩
def F.LF_GEOM_spares : Fld := ⟨R.LF_GEOM, 12, 8⟩
def R.LF_CTRL : Reg := ⟨0x208, 0x3⟩
def F.LF_CTRL_scrub_en : Fld := ⟨R.LF_CTRL, 0, 1⟩
def F.LF_CTRL_digest_en : Fld := ⟨R.LF_CTRL, 1, 1⟩
def R.LF_STATUS : Reg := ⟨0x20C, 0x10000⟩
def F.LF_STATUS_class_busy : Fld := ⟨R.LF_STATUS, 0, 1⟩
def F.LF_STATUS_op_busy : Fld := ⟨R.LF_STATUS, 1, 1⟩
def F.LF_STATUS_op_queued : Fld := ⟨R.LF_STATUS, 2, 3⟩
def F.LF_STATUS_scrub_active : Fld := ⟨R.LF_STATUS, 5, 1⟩
def F.LF_STATUS_pending : Fld := ⟨R.LF_STATUS, 8, 4⟩
def F.LF_STATUS_spares_min : Fld := ⟨R.LF_STATUS, 12, 5⟩
def R.LF_CORR : Reg := ⟨0x210, 0x0⟩
def F.LF_CORR_weight : Fld := ⟨R.LF_CORR, 0, 16⟩
def F.LF_CORR_activation : Fld := ⟨R.LF_CORR, 16, 16⟩
def R.LF_UNCORR : Reg := ⟨0x214, 0x0⟩
def F.LF_UNCORR_weight : Fld := ⟨R.LF_UNCORR, 0, 8⟩
def F.LF_UNCORR_activation : Fld := ⟨R.LF_UNCORR, 8, 8⟩
def F.LF_UNCORR_misdirected : Fld := ⟨R.LF_UNCORR, 16, 8⟩
def F.LF_UNCORR_dropped : Fld := ⟨R.LF_UNCORR, 24, 8⟩
def R.LF_RACE : Reg := ⟨0x218, 0x0⟩
def F.LF_RACE_races : Fld := ⟨R.LF_RACE, 0, 16⟩
def F.LF_RACE_wbuf_peak : Fld := ⟨R.LF_RACE, 16, 6⟩
def R.LF_OPS : Reg := ⟨0x21C, 0x0⟩
def F.LF_OPS_done : Fld := ⟨R.LF_OPS, 0, 16⟩
def F.LF_OPS_refused : Fld := ⟨R.LF_OPS, 16, 8⟩
def F.LF_OPS_poisoned : Fld := ⟨R.LF_OPS, 24, 8⟩
def R.LF_SCRUB : Reg := ⟨0x220, 0x0⟩
def F.LF_SCRUB_passes : Fld := ⟨R.LF_SCRUB, 0, 16⟩
def F.LF_SCRUB_last_ms : Fld := ⟨R.LF_SCRUB, 16, 8⟩
def F.LF_SCRUB_dropped : Fld := ⟨R.LF_SCRUB, 24, 8⟩
def R.LF_SCRUB_POS : Reg := ⟨0x224, 0x0⟩
def F.LF_SCRUB_POS_band : Fld := ⟨R.LF_SCRUB_POS, 0, 10⟩
def F.LF_SCRUB_POS_bank : Fld := ⟨R.LF_SCRUB_POS, 10, 8⟩
def R.LF_TRACK_SEL : Reg := ⟨0x228, 0x0⟩
def F.LF_TRACK_SEL_entry : Fld := ⟨R.LF_TRACK_SEL, 0, 5⟩
def F.LF_TRACK_SEL_overflow : Fld := ⟨R.LF_TRACK_SEL, 16, 16⟩
def R.LF_TRACK : Reg := ⟨0x22C, 0x0⟩
def F.LF_TRACK_bank : Fld := ⟨R.LF_TRACK, 0, 8⟩
def F.LF_TRACK_row : Fld := ⟨R.LF_TRACK, 8, 10⟩
def F.LF_TRACK_count : Fld := ⟨R.LF_TRACK, 18, 4⟩
def F.LF_TRACK_pending : Fld := ⟨R.LF_TRACK, 22, 1⟩
def F.LF_TRACK_weight : Fld := ⟨R.LF_TRACK, 23, 1⟩
def F.LF_TRACK_valid : Fld := ⟨R.LF_TRACK, 24, 1⟩
def R.LF_CLASS : Reg := ⟨0x280, 0x0⟩
def F.LF_CLASS_weight : Fld := ⟨R.LF_CLASS, 0, 32⟩
def R.LF_DREG : Reg := ⟨0x0, 0x0⟩
def F.LF_DREG_first : Fld := ⟨R.LF_DREG, 0, 10⟩
def F.LF_DREG_count : Fld := ⟨R.LF_DREG, 10, 11⟩
def R.LF_DSTAT : Reg := ⟨0x4, 0x0⟩
def F.LF_DSTAT_pass : Fld := ⟨R.LF_DSTAT, 0, 16⟩
def F.LF_DSTAT_valid : Fld := ⟨R.LF_DSTAT, 16, 1⟩
def F.LF_DSTAT_torn : Fld := ⟨R.LF_DSTAT, 17, 1⟩
def F.LF_DSTAT_uncorr : Fld := ⟨R.LF_DSTAT, 18, 1⟩
def R.LF_DIG : Reg := ⟨0x20, 0x0⟩
def F.LF_DIG_digest : Fld := ⟨R.LF_DIG, 0, 32⟩
-- 06_channels.md
def R.CH_MODE : Reg := ⟨0x100, 0x0⟩
def F.CH_MODE_tolerant : Fld := ⟨R.CH_MODE, 0, 1⟩
def R.CH_WDOG : Reg := ⟨0x104, 0x0⟩
def F.CH_WDOG_threshold : Fld := ⟨R.CH_WDOG, 0, 32⟩
def R.CH_DRAIN : Reg := ⟨0x108, 0x1F40⟩
def F.CH_DRAIN_limit_ns : Fld := ⟨R.CH_DRAIN, 0, 24⟩
def R.CH_RECONF : Reg := ⟨0x10C, 0x0⟩
def F.CH_RECONF_quires : Fld := ⟨R.CH_RECONF, 0, 8⟩
def F.CH_RECONF_drain : Fld := ⟨R.CH_RECONF, 8, 1⟩
def F.CH_RECONF_commit : Fld := ⟨R.CH_RECONF, 9, 1⟩
def F.CH_RECONF_state : Fld := ⟨R.CH_RECONF, 10, 2⟩
def F.CH_RECONF_unsure : Fld := ⟨R.CH_RECONF, 12, 1⟩
def F.CH_RECONF_refused : Fld := ⟨R.CH_RECONF, 13, 1⟩
def R.CH_INFLIGHT : Reg := ⟨0x110, 0x0⟩
def F.CH_INFLIGHT_per_epoch : Fld := ⟨R.CH_INFLIGHT, 0, 32⟩
def R.CH_EPOCH : Reg := ⟨0x300, 0x0⟩
def F.CH_EPOCH_epoch : Fld := ⟨R.CH_EPOCH, 0, 2⟩
def R.CH_STAT : Reg := ⟨0x304, 0x0⟩
def F.CH_STAT_orphan_ticks : Fld := ⟨R.CH_STAT, 0, 8⟩
def F.CH_STAT_overflow : Fld := ⟨R.CH_STAT, 8, 8⟩
def F.CH_STAT_msg_check : Fld := ⟨R.CH_STAT, 16, 4⟩
def F.CH_STAT_ring_adv : Fld := ⟨R.CH_STAT, 20, 4⟩
def F.CH_STAT_aborted : Fld := ⟨R.CH_STAT, 24, 8⟩
def R.CH_EPOCH_DISC : Reg := ⟨0x308, 0x0⟩
def F.CH_EPOCH_DISC_commit : Fld := ⟨R.CH_EPOCH_DISC, 0, 16⟩
def F.CH_EPOCH_DISC_arrival : Fld := ⟨R.CH_EPOCH_DISC, 16, 16⟩
def R.CH_INHERIT : Reg := ⟨0x30C, 0x0⟩
def F.CH_INHERIT_cycles : Fld := ⟨R.CH_INHERIT, 0, 16⟩
def F.CH_INHERIT_pauses : Fld := ⟨R.CH_INHERIT, 16, 8⟩
def R.CH_QSTAT : Reg := ⟨0xC0, 0x0⟩
def F.CH_QSTAT_q0 : Fld := ⟨R.CH_QSTAT, 0, 5⟩
def F.CH_QSTAT_q1 : Fld := ⟨R.CH_QSTAT, 8, 5⟩
def F.CH_QSTAT_q2 : Fld := ⟨R.CH_QSTAT, 16, 5⟩
def F.CH_QSTAT_q3 : Fld := ⟨R.CH_QSTAT, 24, 5⟩
def R.CH_ROUTE_A : Reg := ⟨0x0, 0x0⟩
def F.CH_ROUTE_A_valid : Fld := ⟨R.CH_ROUTE_A, 0, 1⟩
def F.CH_ROUTE_A_landing : Fld := ⟨R.CH_ROUTE_A, 1, 2⟩
def F.CH_ROUTE_A_span : Fld := ⟨R.CH_ROUTE_A, 3, 1⟩
def F.CH_ROUTE_A_epoch : Fld := ⟨R.CH_ROUTE_A, 4, 2⟩
def F.CH_ROUTE_A_src : Fld := ⟨R.CH_ROUTE_A, 6, 6⟩
def F.CH_ROUTE_A_quire : Fld := ⟨R.CH_ROUTE_A, 12, 5⟩
def F.CH_ROUTE_A_stitcher : Fld := ⟨R.CH_ROUTE_A, 17, 6⟩
def F.CH_ROUTE_A_target : Fld := ⟨R.CH_ROUTE_A, 23, 5⟩
def F.CH_ROUTE_A_cfg_err : Fld := ⟨R.CH_ROUTE_A, 28, 1⟩
def R.CH_ROUTE_B : Reg := ⟨0x4, 0x0⟩
def F.CH_ROUTE_B_latency : Fld := ⟨R.CH_ROUTE_B, 0, 10⟩
def F.CH_ROUTE_B_credit_latency : Fld := ⟨R.CH_ROUTE_B, 10, 10⟩
def R.CH_ROUTE_C : Reg := ⟨0x8, 0x0⟩
def F.CH_ROUTE_C_grant : Fld := ⟨R.CH_ROUTE_C, 0, 19⟩
def R.CH_ROUTE_D : Reg := ⟨0xC, 0x0⟩
def F.CH_ROUTE_D_held : Fld := ⟨R.CH_ROUTE_D, 0, 19⟩
def R.CH_RING_CFG : Reg := ⟨0x0, 0x0⟩
def F.CH_RING_CFG_valid : Fld := ⟨R.CH_RING_CFG, 0, 1⟩
def F.CH_RING_CFG_size_log2 : Fld := ⟨R.CH_RING_CFG, 1, 5⟩
def F.CH_RING_CFG_reader : Fld := ⟨R.CH_RING_CFG, 6, 6⟩
def F.CH_RING_CFG_base : Fld := ⟨R.CH_RING_CFG, 12, 15⟩
def R.CH_RING_SRC : Reg := ⟨0x4, 0x0⟩
def F.CH_RING_SRC_quire : Fld := ⟨R.CH_RING_SRC, 0, 5⟩
def F.CH_RING_SRC_entry : Fld := ⟨R.CH_RING_SRC, 5, 8⟩
def R.CH_RING_WP : Reg := ⟨0x8, 0x0⟩
def F.CH_RING_WP_wp : Fld := ⟨R.CH_RING_WP, 0, 32⟩
def R.CH_RING_RP : Reg := ⟨0xC, 0x0⟩
def F.CH_RING_RP_rp : Fld := ⟨R.CH_RING_RP, 0, 32⟩
-- 07_catchword_paging.md
def R.PG_CTRL : Reg := ⟨0x200, 0x2⟩
def F.PG_CTRL_upl_share : Fld := ⟨R.PG_CTRL, 0, 4⟩
def R.PG_STATUS : Reg := ⟨0x204, 0x0⟩
def F.PG_STATUS_queued : Fld := ⟨R.PG_STATUS, 0, 13⟩
def F.PG_STATUS_in_flight : Fld := ⟨R.PG_STATUS, 13, 12⟩
def F.PG_STATUS_upl_pending : Fld := ⟨R.PG_STATUS, 25, 1⟩
def R.PG_LATE : Reg := ⟨0x208, 0x0⟩
def F.PG_LATE_late : Fld := ⟨R.PG_LATE, 0, 16⟩
def F.PG_LATE_refused : Fld := ⟨R.PG_LATE, 16, 8⟩
def F.PG_LATE_cancelled : Fld := ⟨R.PG_LATE, 24, 8⟩
def R.PG_ERR : Reg := ⟨0x20C, 0x0⟩
def F.PG_ERR_mem_uncorr : Fld := ⟨R.PG_ERR, 0, 8⟩
def F.PG_ERR_collation : Fld := ⟨R.PG_ERR, 8, 8⟩
def F.PG_ERR_out_poison : Fld := ⟨R.PG_ERR, 16, 8⟩
def F.PG_ERR_unreleased : Fld := ⟨R.PG_ERR, 24, 8⟩
def R.PG_ORDER : Reg := ⟨0x210, 0x0⟩
def F.PG_ORDER_slot_reuse : Fld := ⟨R.PG_ORDER, 0, 16⟩
def F.PG_ORDER_overlap_waits : Fld := ⟨R.PG_ORDER, 16, 16⟩
def R.PG_IN_LO : Reg := ⟨0x218, 0x0⟩
def R.PG_IN_HI : Reg := ⟨0x21C, 0x0⟩
def R.PG_OUT_LO : Reg := ⟨0x220, 0x0⟩
def R.PG_OUT_HI : Reg := ⟨0x224, 0x0⟩
def R.PG_UPL_CTRL : Reg := ⟨0x230, 0x0⟩
def F.PG_UPL_CTRL_target : Fld := ⟨R.PG_UPL_CTRL, 0, 1⟩
def F.PG_UPL_CTRL_quire : Fld := ⟨R.PG_UPL_CTRL, 1, 3⟩
def R.PG_UPL_BASE : Reg := ⟨0x234, 0x0⟩
def F.PG_UPL_BASE_pma : Fld := ⟨R.PG_UPL_BASE, 0, 32⟩
def R.PG_UPL_FLUSH : Reg := ⟨0x238, 0x0⟩
def F.PG_UPL_FLUSH_flush : Fld := ⟨R.PG_UPL_FLUSH, 0, 1⟩
def R.PG_UPL_STAT : Reg := ⟨0x23C, 0x0⟩
def F.PG_UPL_STAT_refused : Fld := ⟨R.PG_UPL_STAT, 0, 16⟩
def F.PG_UPL_STAT_waited : Fld := ⟨R.PG_UPL_STAT, 16, 16⟩
def R.PG_ECC : Reg := ⟨0x240, 0x0⟩
def F.PG_ECC_corrected : Fld := ⟨R.PG_ECC, 0, 16⟩
def F.PG_ECC_uncorrectable : Fld := ⟨R.PG_ECC, 16, 8⟩
def R.PG_TBL_CFG : Reg := ⟨0x0, 0x0⟩
def F.PG_TBL_CFG_valid : Fld := ⟨R.PG_TBL_CFG, 0, 1⟩
def F.PG_TBL_CFG_mode : Fld := ⟨R.PG_TBL_CFG, 1, 1⟩
def F.PG_TBL_CFG_size : Fld := ⟨R.PG_TBL_CFG, 2, 3⟩
def F.PG_TBL_CFG_shift : Fld := ⟨R.PG_TBL_CFG, 5, 5⟩
def F.PG_TBL_CFG_distance : Fld := ⟨R.PG_TBL_CFG, 10, 8⟩
def R.PG_TBL_BASE : Reg := ⟨0x4, 0x0⟩
def F.PG_TBL_BASE_pma : Fld := ⟨R.PG_TBL_BASE, 0, 32⟩
def R.PG_TBL_CODE : Reg := ⟨0x8, 0x0⟩
def F.PG_TBL_CODE_pma : Fld := ⟨R.PG_TBL_CODE, 0, 32⟩
def R.PG_TBL_LEN : Reg := ⟨0xC, 0x0⟩
def F.PG_TBL_LEN_pages : Fld := ⟨R.PG_TBL_LEN, 0, 25⟩
def R.PG_TBL_LAND : Reg := ⟨0x10, 0x0⟩
def F.PG_TBL_LAND_base : Fld := ⟨R.PG_TBL_LAND, 0, 15⟩
def F.PG_TBL_LAND_slots : Fld := ⟨R.PG_TBL_LAND, 16, 13⟩
def R.PG_TBL_DUE : Reg := ⟨0x14, 0x0⟩
def F.PG_TBL_DUE_position : Fld := ⟨R.PG_TBL_DUE, 0, 32⟩
def R.PG_QSTAT : Reg := ⟨0x320, 0x0⟩
def F.PG_QSTAT_queued : Fld := ⟨R.PG_QSTAT, 0, 10⟩
def F.PG_QSTAT_peak : Fld := ⟨R.PG_QSTAT, 10, 10⟩
-- 08_cord_mesh_and_spine.md
def R.MS_HALF : Reg := ⟨0x200, 0x0⟩
def F.MS_HALF_west : Fld := ⟨R.MS_HALF, 0, 2⟩
def F.MS_HALF_east : Fld := ⟨R.MS_HALF, 2, 2⟩
def F.MS_HALF_result : Fld := ⟨R.MS_HALF, 4, 4⟩
def F.MS_HALF_wakes : Fld := ⟨R.MS_HALF, 8, 8⟩
def R.MS_HALF_REQ : Reg := ⟨0x204, 0x0⟩
def F.MS_HALF_REQ_half : Fld := ⟨R.MS_HALF_REQ, 0, 1⟩
def F.MS_HALF_REQ_target : Fld := ⟨R.MS_HALF_REQ, 1, 2⟩
def F.MS_HALF_REQ_go : Fld := ⟨R.MS_HALF_REQ, 3, 1⟩
def R.MS_LINK_SEL : Reg := ⟨0x210, 0x0⟩
def F.MS_LINK_SEL_link : Fld := ⟨R.MS_LINK_SEL, 0, 7⟩
def F.MS_LINK_SEL_dir : Fld := ⟨R.MS_LINK_SEL, 7, 1⟩
def R.MS_LINK_STAT : Reg := ⟨0x214, 0x0⟩
def F.MS_LINK_STAT_crc_errors : Fld := ⟨R.MS_LINK_STAT, 0, 16⟩
def F.MS_LINK_STAT_retrains : Fld := ⟨R.MS_LINK_STAT, 16, 8⟩
def F.MS_LINK_STAT_spares_used : Fld := ⟨R.MS_LINK_STAT, 24, 2⟩
def F.MS_LINK_STAT_failing : Fld := ⟨R.MS_LINK_STAT, 26, 1⟩
def F.MS_LINK_STAT_down : Fld := ⟨R.MS_LINK_STAT, 27, 1⟩
def R.MS_LINK_LANES : Reg := ⟨0x218, 0x0⟩
def F.MS_LINK_LANES_first : Fld := ⟨R.MS_LINK_LANES, 0, 11⟩
def F.MS_LINK_LANES_second : Fld := ⟨R.MS_LINK_LANES, 11, 11⟩
def R.MS_MAP : Reg := ⟨0x300, 0x100⟩
def F.MS_MAP_tile : Fld := ⟨R.MS_MAP, 0, 6⟩
def F.MS_MAP_absent : Fld := ⟨R.MS_MAP, 8, 1⟩
def R.MS_SPARE : Reg := ⟨0x320, 0x100⟩
def F.MS_SPARE_tile : Fld := ⟨R.MS_SPARE, 0, 6⟩
def F.MS_SPARE_none : Fld := ⟨R.MS_SPARE, 8, 1⟩
def F.MS_SPARE_testing : Fld := ⟨R.MS_SPARE, 9, 1⟩
def R.MS_MAPGEN : Reg := ⟨0x324, 0x0⟩
def F.MS_MAPGEN_gen : Fld := ⟨R.MS_MAPGEN, 0, 16⟩
def F.MS_MAPGEN_discarded : Fld := ⟨R.MS_MAPGEN, 16, 16⟩
def R.MS_SPAN : Reg := ⟨0x330, 0x0⟩
def F.MS_SPAN_members : Fld := ⟨R.MS_SPAN, 0, 4⟩
def F.MS_SPAN_fenced : Fld := ⟨R.MS_SPAN, 4, 4⟩
def F.MS_SPAN_seam : Fld := ⟨R.MS_SPAN, 8, 1⟩
def R.SP_STAT : Reg := ⟨0x400, 0x0⟩
def F.SP_STAT_parity : Fld := ⟨R.SP_STAT, 0, 8⟩
def F.SP_STAT_timeouts : Fld := ⟨R.SP_STAT, 8, 8⟩
def F.SP_STAT_asleep : Fld := ⟨R.SP_STAT, 16, 8⟩
def F.SP_STAT_lost : Fld := ⟨R.SP_STAT, 24, 8⟩
def R.SP_LOAD : Reg := ⟨0x404, 0x0⟩
def F.SP_LOAD_state : Fld := ⟨R.SP_LOAD, 0, 3⟩
def F.SP_LOAD_round : Fld := ⟨R.SP_LOAD, 3, 4⟩
def F.SP_LOAD_unsealed : Fld := ⟨R.SP_LOAD, 7, 10⟩
def R.SP_LOAD_CFG : Reg := ⟨0x408, 0x8⟩
def F.SP_LOAD_CFG_rounds : Fld := ⟨R.SP_LOAD_CFG, 0, 4⟩
def R.SP_LOAD_STAT : Reg := ⟨0x40C, 0x0⟩
def F.SP_LOAD_STAT_resent : Fld := ⟨R.SP_LOAD_STAT, 0, 16⟩
def F.SP_LOAD_STAT_reporters : Fld := ⟨R.SP_LOAD_STAT, 16, 16⟩
def R.MS_QTRANSIT : Reg := ⟨0x340, 0x0⟩
def F.MS_QTRANSIT_cycles : Fld := ⟨R.MS_QTRANSIT, 0, 16⟩
def F.MS_QTRANSIT_units : Fld := ⟨R.MS_QTRANSIT, 16, 8⟩
-- 09_host_attachment.md
def R.CX_LINK : Reg := ⟨0x300, 0x0⟩
def F.CX_LINK_speed : Fld := ⟨R.CX_LINK, 0, 3⟩
def F.CX_LINK_width : Fld := ⟨R.CX_LINK, 3, 4⟩
def F.CX_LINK_lat_opt : Fld := ⟨R.CX_LINK, 7, 1⟩
def F.CX_LINK_ide : Fld := ⟨R.CX_LINK, 8, 2⟩
def F.CX_LINK_retrains : Fld := ⟨R.CX_LINK, 16, 8⟩
def R.CX_OWNER : Reg := ⟨0x304, 0x0⟩
def F.CX_OWNER_ld : Fld := ⟨R.CX_OWNER, 0, 4⟩
def F.CX_OWNER_lds : Fld := ⟨R.CX_OWNER, 4, 5⟩
def R.CX_LD_BIND : Reg := ⟨0x340, 0x0⟩
def F.CX_LD_BIND_parts : Fld := ⟨R.CX_LD_BIND, 0, 4⟩
def F.CX_LD_BIND_present : Fld := ⟨R.CX_LD_BIND, 4, 1⟩
def F.CX_LD_BIND_extents : Fld := ⟨R.CX_LD_BIND, 8, 12⟩
def R.CX_IN_STALE : Reg := ⟨0x600, 0x2710⟩
def F.CX_IN_STALE_limit_us : Fld := ⟨R.CX_IN_STALE, 0, 24⟩
def R.CX_IN_CFG : Reg := ⟨0x0, 0x0⟩
def F.CX_IN_CFG_valid : Fld := ⟨R.CX_IN_CFG, 0, 1⟩
def F.CX_IN_CFG_size_log2 : Fld := ⟨R.CX_IN_CFG, 1, 4⟩
def F.CX_IN_CFG_strike : Fld := ⟨R.CX_IN_CFG, 5, 1⟩
def F.CX_IN_CFG_max_lines : Fld := ⟨R.CX_IN_CFG, 6, 7⟩
def F.CX_IN_CFG_land_log2 : Fld := ⟨R.CX_IN_CFG, 13, 3⟩
def R.CX_IN_TGT : Reg := ⟨0x4, 0x0⟩
def F.CX_IN_TGT_quire : Fld := ⟨R.CX_IN_TGT, 0, 3⟩
def F.CX_IN_TGT_stitcher : Fld := ⟨R.CX_IN_TGT, 3, 6⟩
def F.CX_IN_TGT_port : Fld := ⟨R.CX_IN_TGT, 9, 5⟩
def F.CX_IN_TGT_intake_lat : Fld := ⟨R.CX_IN_TGT, 14, 12⟩
def R.CX_IN_LAND : Reg := ⟨0x8, 0x0⟩
def F.CX_IN_LAND_base : Fld := ⟨R.CX_IN_LAND, 0, 15⟩
def R.CX_IN_SEQ : Reg := ⟨0xC, 0x0⟩
def F.CX_IN_SEQ_next : Fld := ⟨R.CX_IN_SEQ, 0, 32⟩
def R.CX_IN_STAT : Reg := ⟨0x10, 0x0⟩
def F.CX_IN_STAT_stale : Fld := ⟨R.CX_IN_STAT, 0, 1⟩
def F.CX_IN_STAT_bad : Fld := ⟨R.CX_IN_STAT, 1, 1⟩
def F.CX_IN_STAT_sealed : Fld := ⟨R.CX_IN_STAT, 2, 7⟩
def F.CX_IN_STAT_rewrites : Fld := ⟨R.CX_IN_STAT, 16, 8⟩
def F.CX_IN_STAT_dropped : Fld := ⟨R.CX_IN_STAT, 24, 8⟩
def R.CX_IN_CTRL : Reg := ⟨0x14, 0x0⟩
def F.CX_IN_CTRL_skip : Fld := ⟨R.CX_IN_CTRL, 0, 1⟩
def F.CX_IN_CTRL_reset : Fld := ⟨R.CX_IN_CTRL, 1, 1⟩
def R.CX_IN_CONS : Reg := ⟨0x18, 0x0⟩
def F.CX_IN_CONS_c : Fld := ⟨R.CX_IN_CONS, 0, 32⟩
def R.CX_SLOT_CFG : Reg := ⟨0x0, 0x0⟩
def F.CX_SLOT_CFG_valid : Fld := ⟨R.CX_SLOT_CFG, 0, 1⟩
def F.CX_SLOT_CFG_mode : Fld := ⟨R.CX_SLOT_CFG, 1, 1⟩
def F.CX_SLOT_CFG_depth_log2 : Fld := ⟨R.CX_SLOT_CFG, 2, 3⟩
def F.CX_SLOT_CFG_units : Fld := ⟨R.CX_SLOT_CFG, 5, 11⟩
def F.CX_SLOT_CFG_base : Fld := ⟨R.CX_SLOT_CFG, 16, 8⟩
def F.CX_SLOT_CFG_vector : Fld := ⟨R.CX_SLOT_CFG, 24, 6⟩
def F.CX_SLOT_CFG_irq : Fld := ⟨R.CX_SLOT_CFG, 30, 1⟩
def R.CX_SLOT_SRC : Reg := ⟨0x4, 0x0⟩
def F.CX_SLOT_SRC_quire : Fld := ⟨R.CX_SLOT_SRC, 0, 3⟩
def F.CX_SLOT_SRC_addr : Fld := ⟨R.CX_SLOT_SRC, 3, 21⟩
def R.CX_SLOT_STAT : Reg := ⟨0x8, 0x0⟩
def F.CX_SLOT_STAT_late : Fld := ⟨R.CX_SLOT_STAT, 0, 8⟩
def F.CX_SLOT_STAT_order : Fld := ⟨R.CX_SLOT_STAT, 8, 8⟩
def F.CX_SLOT_STAT_incomplete : Fld := ⟨R.CX_SLOT_STAT, 16, 8⟩
def F.CX_SLOT_STAT_ring_full : Fld := ⟨R.CX_SLOT_STAT, 24, 8⟩
def R.MB_MASK : Reg := ⟨0x700, 0x0⟩
def F.MB_MASK_mask : Fld := ⟨R.MB_MASK, 0, 32⟩
def R.MB_WAKE : Reg := ⟨0x704, 0x0⟩
def F.MB_WAKE_wake : Fld := ⟨R.MB_WAKE, 0, 32⟩
def R.MB_PEND : Reg := ⟨0x708, 0x0⟩
def F.MB_PEND_pending : Fld := ⟨R.MB_PEND, 0, 32⟩
def R.MB_STAT : Reg := ⟨0x70C, 0x0⟩
def F.MB_STAT_busy : Fld := ⟨R.MB_STAT, 0, 8⟩
def F.MB_STAT_asleep : Fld := ⟨R.MB_STAT, 8, 8⟩
def F.MB_STAT_aborted : Fld := ⟨R.MB_STAT, 16, 8⟩
def F.MB_STAT_cq_wait : Fld := ⟨R.MB_STAT, 24, 8⟩
def R.MB_INJ : Reg := ⟨0x740, 0x0⟩
def F.MB_INJ_valid : Fld := ⟨R.MB_INJ, 0, 1⟩
def F.MB_INJ_quire : Fld := ⟨R.MB_INJ, 1, 3⟩
def F.MB_INJ_stitcher : Fld := ⟨R.MB_INJ, 4, 6⟩
def F.MB_INJ_port : Fld := ⟨R.MB_INJ, 10, 5⟩
def F.MB_INJ_strike : Fld := ⟨R.MB_INJ, 15, 1⟩
def F.MB_INJ_release : Fld := ⟨R.MB_INJ, 16, 12⟩
-- 10_collation_and_checking.md
def R.IN_RESTRICT_SEL : Reg := ⟨0x400, 0x0⟩
def F.IN_RESTRICT_SEL_entry : Fld := ⟨R.IN_RESTRICT_SEL, 0, 4⟩
def R.IN_RESTRICT : Reg := ⟨0x404, 0x0⟩
def F.IN_RESTRICT_tile : Fld := ⟨R.IN_RESTRICT, 0, 6⟩
def F.IN_RESTRICT_bin : Fld := ⟨R.IN_RESTRICT, 6, 4⟩
def F.IN_RESTRICT_all_bins : Fld := ⟨R.IN_RESTRICT, 10, 1⟩
def F.IN_RESTRICT_kind : Fld := ⟨R.IN_RESTRICT, 11, 2⟩
def F.IN_RESTRICT_cap : Fld := ⟨R.IN_RESTRICT, 13, 2⟩
def F.IN_RESTRICT_raise : Fld := ⟨R.IN_RESTRICT, 15, 4⟩
def F.IN_RESTRICT_valid : Fld := ⟨R.IN_RESTRICT, 19, 1⟩
def F.IN_RESTRICT_provisional : Fld := ⟨R.IN_RESTRICT, 20, 1⟩
def R.IN_SHIELD : Reg := ⟨0x800, 0x0⟩
def F.IN_SHIELD_check : Fld := ⟨R.IN_SHIELD, 0, 1⟩
def F.IN_SHIELD_scrub : Fld := ⟨R.IN_SHIELD, 1, 1⟩
def F.IN_SHIELD_firmware : Fld := ⟨R.IN_SHIELD, 2, 1⟩
def F.IN_SHIELD_ratings : Fld := ⟨R.IN_SHIELD, 3, 1⟩
def F.IN_SHIELD_shielded : Fld := ⟨R.IN_SHIELD, 4, 1⟩
def F.IN_SHIELD_suspect : Fld := ⟨R.IN_SHIELD, 5, 1⟩
def F.IN_SHIELD_lapses : Fld := ⟨R.IN_SHIELD, 8, 8⟩
def R.IN_MGN_CFG : Reg := ⟨0x804, 0x4⟩
def F.IN_MGN_CFG_warn : Fld := ⟨R.IN_MGN_CFG, 0, 6⟩
def R.IN_MD_BASE : Reg := ⟨0x810, 0x0⟩
def F.IN_MD_BASE_pma : Fld := ⟨R.IN_MD_BASE, 0, 32⟩
def R.IN_MD_LEN : Reg := ⟨0x814, 0x0⟩
def F.IN_MD_LEN_units : Fld := ⟨R.IN_MD_LEN, 0, 24⟩
def R.IN_MD_CTRL : Reg := ⟨0x818, 0x0⟩
def F.IN_MD_CTRL_go : Fld := ⟨R.IN_MD_CTRL, 0, 1⟩
def F.IN_MD_CTRL_busy : Fld := ⟨R.IN_MD_CTRL, 1, 1⟩
def F.IN_MD_CTRL_status : Fld := ⟨R.IN_MD_CTRL, 2, 2⟩
def F.IN_MD_CTRL_runs : Fld := ⟨R.IN_MD_CTRL, 16, 16⟩
def R.IN_MD_OUT : Reg := ⟨0x820, 0x0⟩
def F.IN_MD_OUT_digest : Fld := ⟨R.IN_MD_OUT, 0, 32⟩
def R.IN_MGN : Reg := ⟨0x380, 0x0⟩
def F.IN_MGN_droop_mv : Fld := ⟨R.IN_MGN, 0, 8⟩
def F.IN_MGN_slack : Fld := ⟨R.IN_MGN, 8, 6⟩
def F.IN_MGN_trips : Fld := ⟨R.IN_MGN, 16, 8⟩
def R.IN_UNIT : Reg := ⟨0x390, 0x0⟩
def F.IN_UNIT_charges : Fld := ⟨R.IN_UNIT, 0, 8⟩
def F.IN_UNIT_watch : Fld := ⟨R.IN_UNIT, 8, 1⟩
def F.IN_UNIT_restricted : Fld := ⟨R.IN_UNIT, 9, 1⟩
-- 11_fences_resets_recovery.md
def R.RS_DEVICE : Reg := ⟨0x500, 0x0⟩
def F.RS_DEVICE_withdrawn : Fld := ⟨R.RS_DEVICE, 0, 1⟩
def F.RS_DEVICE_fault_resets : Fld := ⟨R.RS_DEVICE, 1, 2⟩
def F.RS_DEVICE_parts_out : Fld := ⟨R.RS_DEVICE, 3, 4⟩
def F.RS_DEVICE_last_cause : Fld := ⟨R.RS_DEVICE, 7, 4⟩
def R.RS_STATUS : Reg := ⟨0x900, 0x0⟩
def F.RS_STATUS_state : Fld := ⟨R.RS_STATUS, 0, 4⟩
def F.RS_STATUS_retain : Fld := ⟨R.RS_STATUS, 4, 1⟩
def F.RS_STATUS_withdrawn : Fld := ⟨R.RS_STATUS, 5, 1⟩
def F.RS_STATUS_recent : Fld := ⟨R.RS_STATUS, 6, 2⟩
def F.RS_STATUS_present : Fld := ⟨R.RS_STATUS, 8, 4⟩
def F.RS_STATUS_fenced : Fld := ⟨R.RS_STATUS, 12, 1⟩
def R.RS_CFG : Reg := ⟨0x904, 0x1⟩
def F.RS_CFG_resume : Fld := ⟨R.RS_CFG, 0, 1⟩
def F.RS_CFG_full_train : Fld := ⟨R.RS_CFG, 1, 1⟩
def R.RS_LAST : Reg := ⟨0x908, 0x0⟩
def F.RS_LAST_cause : Fld := ⟨R.RS_LAST, 0, 4⟩
def F.RS_LAST_full : Fld := ⟨R.RS_LAST, 4, 1⟩
def F.RS_LAST_cycled : Fld := ⟨R.RS_LAST, 5, 1⟩
def F.RS_LAST_verified : Fld := ⟨R.RS_LAST, 6, 1⟩
def F.RS_LAST_ms : Fld := ⟨R.RS_LAST, 8, 20⟩
def R.RS_COUNT : Reg := ⟨0x90C, 0x0⟩
def F.RS_COUNT_resets : Fld := ⟨R.RS_COUNT, 0, 16⟩
def F.RS_COUNT_full_paths : Fld := ⟨R.RS_COUNT, 16, 16⟩
def R.RS_IMAGE : Reg := ⟨0x910, 0x0⟩
def F.RS_IMAGE_pma : Fld := ⟨R.RS_IMAGE, 0, 32⟩
def R.RS_SAMPLE : Reg := ⟨0x914, 0x0⟩
def F.RS_SAMPLE_set : Fld := ⟨R.RS_SAMPLE, 0, 16⟩
def F.RS_SAMPLE_complete : Fld := ⟨R.RS_SAMPLE, 16, 1⟩
def F.RS_SAMPLE_skipped : Fld := ⟨R.RS_SAMPLE, 24, 8⟩
def R.RS_QUIRE : Reg := ⟨0x3A0, 0x0⟩
def F.RS_QUIRE_resets : Fld := ⟨R.RS_QUIRE, 0, 8⟩
def F.RS_QUIRE_cycles : Fld := ⟨R.RS_QUIRE, 8, 8⟩
def F.RS_QUIRE_in_reset : Fld := ⟨R.RS_QUIRE, 16, 1⟩
-- 12_self_test_and_rotation.md
def R.BT_SEL : Reg := ⟨0x600, 0x0⟩
def F.BT_SEL_tile : Fld := ⟨R.BT_SEL, 0, 6⟩
def R.BT_RESULT : Reg := ⟨0x604, 0x0⟩
def F.BT_RESULT_program : Fld := ⟨R.BT_RESULT, 0, 8⟩
def F.BT_RESULT_verdict : Fld := ⟨R.BT_RESULT, 8, 2⟩
def F.BT_RESULT_running : Fld := ⟨R.BT_RESULT, 10, 1⟩
def F.BT_RESULT_hours : Fld := ⟨R.BT_RESULT, 16, 16⟩
def R.BT_SIG : Reg := ⟨0x610, 0x0⟩
def F.BT_SIG_signature : Fld := ⟨R.BT_SIG, 0, 32⟩
def R.BT_START : Reg := ⟨0x620, 0x0⟩
def F.BT_START_passed : Fld := ⟨R.BT_START, 0, 1⟩
def F.BT_START_clean : Fld := ⟨R.BT_START, 1, 1⟩
def F.BT_START_fast : Fld := ⟨R.BT_START, 2, 1⟩
def F.BT_START_age_days : Fld := ⟨R.BT_START, 8, 8⟩
def R.BT_LOAD : Reg := ⟨0x624, 0x0⟩
def F.BT_LOAD_heavy : Fld := ⟨R.BT_LOAD, 0, 2⟩
def F.BT_LOAD_queued : Fld := ⟨R.BT_LOAD, 2, 6⟩
def R.BT_ROT_CFG : Reg := ⟨0xA00, 0x2D06401⟩
def F.BT_ROT_CFG_enable : Fld := ⟨R.BT_ROT_CFG, 0, 1⟩
def F.BT_ROT_CFG_irq : Fld := ⟨R.BT_ROT_CFG, 1, 1⟩
def F.BT_ROT_CFG_vector : Fld := ⟨R.BT_ROT_CFG, 2, 6⟩
def F.BT_ROT_CFG_lead_ms : Fld := ⟨R.BT_ROT_CFG, 8, 10⟩
def F.BT_ROT_CFG_period_min : Fld := ⟨R.BT_ROT_CFG, 18, 12⟩
def R.BT_ROT_STATUS : Reg := ⟨0xA04, 0x0⟩
def F.BT_ROT_STATUS_state : Fld := ⟨R.BT_ROT_STATUS, 0, 3⟩
def F.BT_ROT_STATUS_quire : Fld := ⟨R.BT_ROT_STATUS, 3, 3⟩
def F.BT_ROT_STATUS_next : Fld := ⟨R.BT_ROT_STATUS, 6, 3⟩
def F.BT_ROT_STATUS_last : Fld := ⟨R.BT_ROT_STATUS, 9, 3⟩
def F.BT_ROT_STATUS_rotations : Fld := ⟨R.BT_ROT_STATUS, 16, 16⟩
def R.BT_ROT_NEXT_LO : Reg := ⟨0xA08, 0x0⟩
def R.BT_ROT_NEXT_HI : Reg := ⟨0xA0C, 0x0⟩
def R.BT_HOLDOFF : Reg := ⟨0xA10, 0x0⟩
def F.BT_HOLDOFF_minutes : Fld := ⟨R.BT_HOLDOFF, 0, 8⟩
def R.BT_WINDOW : Reg := ⟨0xA14, 0x0⟩
def F.BT_WINDOW_grant_ms : Fld := ⟨R.BT_WINDOW, 0, 16⟩
def F.BT_WINDOW_waiting : Fld := ⟨R.BT_WINDOW, 16, 8⟩
def R.BT_LAST_STALL : Reg := ⟨0xA18, 0x0⟩
def F.BT_LAST_STALL_ns : Fld := ⟨R.BT_LAST_STALL, 0, 17⟩
def R.BT_ROTSET : Reg := ⟨0xA00, 0x0⟩
def F.BT_ROTSET_carried : Fld := ⟨R.BT_ROTSET, 0, 32⟩
def R.BT_QROT : Reg := ⟨0xA80, 0x0⟩
def F.BT_QROT_hours : Fld := ⟨R.BT_QROT, 0, 16⟩
def F.BT_QROT_released : Fld := ⟨R.BT_QROT, 16, 6⟩
def F.BT_QROT_volume_mib : Fld := ⟨R.BT_QROT, 24, 5⟩
-- 13_bring_up_and_licences.md
def R.HB_BOOT : Reg := ⟨0x700, 0x0⟩
def F.HB_BOOT_step : Fld := ⟨R.HB_BOOT, 0, 4⟩
def F.HB_BOOT_path : Fld := ⟨R.HB_BOOT, 4, 2⟩
def F.HB_BOOT_cfg_copy : Fld := ⟨R.HB_BOOT, 6, 1⟩
def F.HB_BOOT_full_channels : Fld := ⟨R.HB_BOOT, 8, 7⟩
def R.LC_FEATURES : Reg := ⟨0x704, 0x0⟩
def F.LC_FEATURES_parts : Fld := ⟨R.LC_FEATURES, 0, 4⟩
def F.LC_FEATURES_lds : Fld := ⟨R.LC_FEATURES, 4, 2⟩
def F.LC_FEATURES_dense : Fld := ⟨R.LC_FEATURES, 8, 1⟩
def F.LC_FEATURES_replay : Fld := ⟨R.LC_FEATURES, 9, 1⟩
def F.LC_FEATURES_long : Fld := ⟨R.LC_FEATURES, 10, 1⟩
def F.LC_FEATURES_dc : Fld := ⟨R.LC_FEATURES, 11, 1⟩
def F.LC_FEATURES_licensed : Fld := ⟨R.LC_FEATURES, 12, 1⟩
def F.LC_FEATURES_pending : Fld := ⟨R.LC_FEATURES, 13, 1⟩
def R.LC_LIC_NUM : Reg := ⟨0x708, 0x0⟩
def F.LC_LIC_NUM_number : Fld := ⟨R.LC_LIC_NUM, 0, 32⟩
def R.LC_LIC_PEND : Reg := ⟨0x70C, 0x0⟩
def F.LC_LIC_PEND_number : Fld := ⟨R.LC_LIC_PEND, 0, 32⟩
def R.LC_ID_NEXT : Reg := ⟨0x710, 0x0⟩
def F.LC_ID_NEXT_next : Fld := ⟨R.LC_ID_NEXT, 0, 16⟩
def F.LC_ID_NEXT_exhausted : Fld := ⟨R.LC_ID_NEXT, 16, 1⟩
def R.LC_ID_RSV : Reg := ⟨0x714, 0x0⟩
def F.LC_ID_RSV_reserved_to : Fld := ⟨R.LC_ID_RSV, 0, 17⟩
def F.LC_ID_RSV_day_used : Fld := ⟨R.LC_ID_RSV, 17, 5⟩
def R.LC_FW : Reg := ⟨0x718, 0x0⟩
def F.LC_FW_running : Fld := ⟨R.LC_FW, 0, 16⟩
def F.LC_FW_minimum : Fld := ⟨R.LC_FW, 16, 16⟩
def R.LC_SERIAL : Reg := ⟨0x720, 0x0⟩
def F.LC_SERIAL_serial : Fld := ⟨R.LC_SERIAL, 0, 32⟩
-- 14_event_recorder_and_colophon.md
def R.EV_CFG : Reg := ⟨0x800, 0x3E8⟩
def F.EV_CFG_flood_us : Fld := ⟨R.EV_CFG, 0, 16⟩
def R.EV_TIME_LO : Reg := ⟨0x808, 0x0⟩
def R.EV_TIME_HI : Reg := ⟨0x80C, 0x0⟩
def R.EV_TRIG_SEL : Reg := ⟨0x810, 0x0⟩
def F.EV_TRIG_SEL_entry : Fld := ⟨R.EV_TRIG_SEL, 0, 9⟩
def R.EV_TRIG_CODE : Reg := ⟨0x814, 0x0⟩
def F.EV_TRIG_CODE_code : Fld := ⟨R.EV_TRIG_CODE, 0, 16⟩
def F.EV_TRIG_CODE_count : Fld := ⟨R.EV_TRIG_CODE, 16, 4⟩
def F.EV_TRIG_CODE_caps : Fld := ⟨R.EV_TRIG_CODE, 20, 4⟩
def F.EV_TRIG_CODE_severity : Fld := ⟨R.EV_TRIG_CODE, 24, 2⟩
def F.EV_TRIG_CODE_default : Fld := ⟨R.EV_TRIG_CODE, 26, 2⟩
def F.EV_TRIG_CODE_valid : Fld := ⟨R.EV_TRIG_CODE, 31, 1⟩
def R.EV_TRIG_ADDR : Reg := ⟨0x818, 0x0⟩
def F.EV_TRIG_ADDR_offset : Fld := ⟨R.EV_TRIG_ADDR, 0, 24⟩
def F.EV_TRIG_ADDR_base : Fld := ⟨R.EV_TRIG_ADDR, 24, 2⟩
def R.EV_STAGE : Reg := ⟨0x840, 0x0⟩
def F.EV_STAGE_staged : Fld := ⟨R.EV_STAGE, 0, 13⟩
def F.EV_STAGE_dropped : Fld := ⟨R.EV_STAGE, 16, 16⟩
def R.EV_COL : Reg := ⟨0x844, 0x0⟩
def F.EV_COL_pending : Fld := ⟨R.EV_COL, 0, 16⟩
def F.EV_COL_lost : Fld := ⟨R.EV_COL, 16, 8⟩
def F.EV_COL_wear : Fld := ⟨R.EV_COL, 24, 8⟩
def R.EV_PSTAT : Reg := ⟨0xB00, 0x0⟩
def F.EV_PSTAT_lost : Fld := ⟨R.EV_PSTAT, 0, 16⟩
def F.EV_PSTAT_floods : Fld := ⟨R.EV_PSTAT, 16, 16⟩
-- 15_module_power_and_signals.md
def R.PW_INPUT : Reg := ⟨0x900, 0x0⟩
def F.PW_INPUT_mv : Fld := ⟨R.PW_INPUT, 0, 16⟩
def F.PW_INPUT_centiamps : Fld := ⟨R.PW_INPUT, 16, 16⟩
def R.PW_MODULE : Reg := ⟨0x904, 0x0⟩
def F.PW_MODULE_watts : Fld := ⟨R.PW_MODULE, 0, 12⟩
def F.PW_MODULE_cap : Fld := ⟨R.PW_MODULE, 12, 1⟩
def F.PW_MODULE_out_of_rating : Fld := ⟨R.PW_MODULE, 13, 1⟩
def F.PW_MODULE_cap_events : Fld := ⟨R.PW_MODULE, 16, 16⟩
def R.PW_TEMP : Reg := ⟨0x908, 0x0⟩
def F.PW_TEMP_west : Fld := ⟨R.PW_TEMP, 0, 8⟩
def F.PW_TEMP_east : Fld := ⟨R.PW_TEMP, 8, 8⟩
def F.PW_TEMP_hub : Fld := ⟨R.PW_TEMP, 16, 8⟩
def F.PW_TEMP_plate : Fld := ⟨R.PW_TEMP, 24, 8⟩
def R.PW_THERM : Reg := ⟨0x90C, 0x0⟩
def F.PW_THERM_west : Fld := ⟨R.PW_THERM, 0, 2⟩
def F.PW_THERM_east : Fld := ⟨R.PW_THERM, 2, 2⟩
def F.PW_THERM_crit : Fld := ⟨R.PW_THERM, 8, 8⟩
def F.PW_THERM_plate_hot : Fld := ⟨R.PW_THERM, 16, 8⟩
def R.PW_CLK : Reg := ⟨0x910, 0x1⟩
def F.PW_CLK_spread : Fld := ⟨R.PW_CLK, 0, 1⟩
def R.HB_TICK_IO : Reg := ⟨0x914, 0x40⟩
def F.HB_TICK_IO_out_en : Fld := ⟨R.HB_TICK_IO, 0, 1⟩
def F.HB_TICK_IO_out_src : Fld := ⟨R.HB_TICK_IO, 1, 2⟩
def F.HB_TICK_IO_out_pol : Fld := ⟨R.HB_TICK_IO, 3, 1⟩
def F.HB_TICK_IO_out_width : Fld := ⟨R.HB_TICK_IO, 4, 8⟩
def F.HB_TICK_IO_missed : Fld := ⟨R.HB_TICK_IO, 12, 8⟩
def F.HB_TICK_IO_in_edges : Fld := ⟨R.HB_TICK_IO, 20, 12⟩
def R.PW_BUDGET : Reg := ⟨0xC00, 0x12C⟩
def F.PW_BUDGET_watts : Fld := ⟨R.PW_BUDGET, 0, 11⟩
def R.PW_PART : Reg := ⟨0xC04, 0x0⟩
def F.PW_PART_watts : Fld := ⟨R.PW_PART, 0, 11⟩
def F.PW_PART_cap : Fld := ⟨R.PW_PART, 11, 1⟩
def F.PW_PART_cap_events : Fld := ⟨R.PW_PART, 16, 16⟩
def R.PW_EST : Reg := ⟨0xC08, 0x0⟩
def F.PW_EST_watts : Fld := ⟨R.PW_EST, 0, 11⟩

/-- Registers of the part block, part 0: offset, stride, count, reset, and the masks of R10's access codes. -/
def accTable.part0 : List RegAcc := [
  ⟨0x0, 4, 1, 0x0, 0x7, 0x0, 0x0⟩ /- TK_CTRL -/,
  ⟨0x4, 4, 1, 0x10000, 0xFFFFFF1F, 0x0, 0x0⟩ /- TK_MODE -/,
  ⟨0x8, 4, 1, 0x200, 0xFFFFFFFF, 0x0, 0x0⟩ /- TK_PERIOD -/,
  ⟨0xC, 4, 1, 0x0, 0xFFFFFFFF, 0x0, 0x0⟩ /- TK_BUDGET -/,
  ⟨0x10, 4, 1, 0x10012, 0x7FFFFF, 0x0, 0x0⟩ /- TK_FRAME -/,
  ⟨0x14, 4, 1, 0x0, 0x0, 0x0, 0x0⟩ /- TK_STRIKE -/,
  ⟨0x18, 4, 1, 0x0, 0x0, 0x0, 0x0⟩ /- TK_STATUS -/,
  ⟨0x20, 4, 1, 0x0, 0x0, 0x0, 0x0⟩ /- TK_COUNT_LO -/,
  ⟨0x24, 4, 1, 0x0, 0x0, 0x0, 0x0⟩ /- TK_COUNT_HI -/,
  ⟨0x28, 4, 1, 0x0, 0x0, 0x0, 0x0⟩ /- TK_OVERRUNS_LO -/,
  ⟨0x2C, 4, 1, 0x0, 0x0, 0x0, 0x0⟩ /- TK_OVERRUNS_HI -/,
  ⟨0x30, 4, 1, 0x0, 0x0, 0x0, 0x0⟩ /- TK_STRIKE_STATS -/]

/-- Registers of the part block, part 1: offset, stride, count, reset, and the masks of R10's access codes. -/
def accTable.part1 : List RegAcc := [
  ⟨0x34, 4, 1, 0x0, 0x0, 0x0, 0x0⟩ /- TK_INTAKE_STATS -/,
  ⟨0x100, 4, 1, 0x0, 0x1, 0x0, 0x0⟩ /- CH_MODE -/,
  ⟨0x104, 4, 1, 0x0, 0xFFFFFFFF, 0x0, 0x0⟩ /- CH_WDOG -/,
  ⟨0x108, 4, 1, 0x1F40, 0xFFFFFF, 0x0, 0x0⟩ /- CH_DRAIN -/,
  ⟨0x10C, 4, 1, 0x0, 0xFF, 0x2000, 0x300⟩ /- CH_RECONF -/,
  ⟨0x110, 4, 1, 0x0, 0x0, 0x0, 0x0⟩ /- CH_INFLIGHT -/,
  ⟨0x200, 4, 1, 0x2, 0xF, 0x0, 0x0⟩ /- PG_CTRL -/,
  ⟨0x204, 4, 1, 0x0, 0x0, 0x0, 0x0⟩ /- PG_STATUS -/,
  ⟨0x208, 4, 1, 0x0, 0x0, 0x0, 0x0⟩ /- PG_LATE -/,
  ⟨0x20C, 4, 1, 0x0, 0x0, 0x0, 0x0⟩ /- PG_ERR -/,
  ⟨0x210, 4, 1, 0x0, 0x0, 0x0, 0x0⟩ /- PG_ORDER -/,
  ⟨0x218, 4, 1, 0x0, 0x0, 0x0, 0x0⟩ /- PG_IN_LO -/]

/-- Registers of the part block, part 2: offset, stride, count, reset, and the masks of R10's access codes. -/
def accTable.part2 : List RegAcc := [
  ⟨0x21C, 4, 1, 0x0, 0x0, 0x0, 0x0⟩ /- PG_IN_HI -/,
  ⟨0x220, 4, 1, 0x0, 0x0, 0x0, 0x0⟩ /- PG_OUT_LO -/,
  ⟨0x224, 4, 1, 0x0, 0x0, 0x0, 0x0⟩ /- PG_OUT_HI -/,
  ⟨0x230, 4, 1, 0x0, 0xF, 0x0, 0x0⟩ /- PG_UPL_CTRL -/,
  ⟨0x234, 4, 1, 0x0, 0xFFFFFFFF, 0x0, 0x0⟩ /- PG_UPL_BASE -/,
  ⟨0x238, 4, 1, 0x0, 0x0, 0x0, 0x1⟩ /- PG_UPL_FLUSH -/,
  ⟨0x23C, 4, 1, 0x0, 0x0, 0x0, 0x0⟩ /- PG_UPL_STAT -/,
  ⟨0x240, 4, 16, 0x0, 0x0, 0x0, 0x0⟩ /- PG_ECC -/,
  ⟨0x300, 4, 8, 0x100, 0x0, 0x0, 0x0⟩ /- MS_MAP -/,
  ⟨0x320, 4, 1, 0x100, 0x0, 0x0, 0x0⟩ /- MS_SPARE -/,
  ⟨0x324, 4, 1, 0x0, 0x0, 0x0, 0x0⟩ /- MS_MAPGEN -/,
  ⟨0x330, 4, 1, 0x0, 0x0, 0x0, 0x0⟩ /- MS_SPAN -/]

/-- Registers of the part block, part 3: offset, stride, count, reset, and the masks of R10's access codes. -/
def accTable.part3 : List RegAcc := [
  ⟨0x400, 4, 1, 0x0, 0x0, 0x0, 0x0⟩ /- SP_STAT -/,
  ⟨0x404, 4, 1, 0x0, 0x0, 0x0, 0x0⟩ /- SP_LOAD -/,
  ⟨0x408, 4, 1, 0x8, 0xF, 0x0, 0x0⟩ /- SP_LOAD_CFG -/,
  ⟨0x40C, 4, 1, 0x0, 0x0, 0x0, 0x0⟩ /- SP_LOAD_STAT -/,
  ⟨0x600, 4, 1, 0x2710, 0xFFFFFF, 0x0, 0x0⟩ /- CX_IN_STALE -/,
  ⟨0x700, 4, 1, 0x0, 0xFFFFFFFF, 0x0, 0x0⟩ /- MB_MASK -/,
  ⟨0x704, 4, 1, 0x0, 0xFFFFFFFF, 0x0, 0x0⟩ /- MB_WAKE -/,
  ⟨0x708, 4, 1, 0x0, 0x0, 0x0, 0x0⟩ /- MB_PEND -/,
  ⟨0x70C, 4, 1, 0x0, 0x0, 0x0, 0x0⟩ /- MB_STAT -/,
  ⟨0x740, 4, 24, 0x0, 0xFFFFFFF, 0x0, 0x0⟩ /- MB_INJ -/,
  ⟨0x800, 4, 1, 0x0, 0x0, 0x0, 0x0⟩ /- IN_SHIELD -/,
  ⟨0x804, 4, 1, 0x4, 0x3F, 0x0, 0x0⟩ /- IN_MGN_CFG -/]

/-- Registers of the part block, part 4: offset, stride, count, reset, and the masks of R10's access codes. -/
def accTable.part4 : List RegAcc := [
  ⟨0x810, 4, 1, 0x0, 0xFFFFFFFF, 0x0, 0x0⟩ /- IN_MD_BASE -/,
  ⟨0x814, 4, 1, 0x0, 0xFFFFFF, 0x0, 0x0⟩ /- IN_MD_LEN -/,
  ⟨0x818, 4, 1, 0x0, 0x0, 0x0, 0x1⟩ /- IN_MD_CTRL -/,
  ⟨0x820, 4, 8, 0x0, 0x0, 0x0, 0x0⟩ /- IN_MD_OUT -/,
  ⟨0x900, 4, 1, 0x0, 0x0, 0x0, 0x0⟩ /- RS_STATUS -/,
  ⟨0x904, 4, 1, 0x1, 0x3, 0x0, 0x0⟩ /- RS_CFG -/,
  ⟨0x908, 4, 1, 0x0, 0x0, 0x0, 0x0⟩ /- RS_LAST -/,
  ⟨0x90C, 4, 1, 0x0, 0x0, 0x0, 0x0⟩ /- RS_COUNT -/,
  ⟨0x910, 4, 1, 0x0, 0x0, 0x0, 0x0⟩ /- RS_IMAGE -/,
  ⟨0x914, 4, 1, 0x0, 0x0, 0x0, 0x0⟩ /- RS_SAMPLE -/,
  ⟨0xA00, 4, 1, 0x2D06401, 0x3FFFFFFF, 0x0, 0x0⟩ /- BT_ROT_CFG -/,
  ⟨0xA04, 4, 1, 0x0, 0x0, 0x0, 0x0⟩ /- BT_ROT_STATUS -/]

/-- Registers of the part block, part 5: offset, stride, count, reset, and the masks of R10's access codes. -/
def accTable.part5 : List RegAcc := [
  ⟨0xA08, 4, 1, 0x0, 0x0, 0x0, 0x0⟩ /- BT_ROT_NEXT_LO -/,
  ⟨0xA0C, 4, 1, 0x0, 0x0, 0x0, 0x0⟩ /- BT_ROT_NEXT_HI -/,
  ⟨0xA10, 4, 1, 0x0, 0xFF, 0x0, 0x0⟩ /- BT_HOLDOFF -/,
  ⟨0xA14, 4, 1, 0x0, 0xFFFF, 0x0, 0x0⟩ /- BT_WINDOW -/,
  ⟨0xA18, 4, 1, 0x0, 0x0, 0x0, 0x0⟩ /- BT_LAST_STALL -/,
  ⟨0xB00, 4, 1, 0x0, 0x0, 0x0, 0x0⟩ /- EV_PSTAT -/,
  ⟨0xC00, 4, 1, 0x12C, 0x7FF, 0x0, 0x0⟩ /- PW_BUDGET -/,
  ⟨0xC04, 4, 1, 0x0, 0x0, 0x0, 0x0⟩ /- PW_PART -/,
  ⟨0xC08, 4, 1, 0x0, 0x0, 0x0, 0x0⟩ /- PW_EST -/]

def accTable.part : List RegAcc := accTable.part0 ++ accTable.part1 ++ accTable.part2 ++ accTable.part3 ++ accTable.part4 ++ accTable.part5

/-- Registers of the quire block, part 0: offset, stride, count, reset, and the masks of R10's access codes. -/
def accTable.quire0 : List RegAcc := [
  ⟨0x200, 4, 1, 0x8000000, 0x0, 0x0, 0x0⟩ /- LF_SIZE -/,
  ⟨0x204, 4, 1, 0x109A8, 0x0, 0x0, 0x0⟩ /- LF_GEOM -/,
  ⟨0x208, 4, 1, 0x3, 0x3, 0x0, 0x0⟩ /- LF_CTRL -/,
  ⟨0x20C, 4, 1, 0x10000, 0x0, 0x0, 0x0⟩ /- LF_STATUS -/,
  ⟨0x210, 4, 1, 0x0, 0x0, 0x0, 0x0⟩ /- LF_CORR -/,
  ⟨0x214, 4, 1, 0x0, 0x0, 0x0, 0x0⟩ /- LF_UNCORR -/,
  ⟨0x218, 4, 1, 0x0, 0x0, 0x0, 0x0⟩ /- LF_RACE -/,
  ⟨0x21C, 4, 1, 0x0, 0x0, 0x0, 0x0⟩ /- LF_OPS -/,
  ⟨0x220, 4, 1, 0x0, 0x0, 0x0, 0x0⟩ /- LF_SCRUB -/,
  ⟨0x224, 4, 1, 0x0, 0x0, 0x0, 0x0⟩ /- LF_SCRUB_POS -/,
  ⟨0x228, 4, 1, 0x0, 0x1F, 0x0, 0x0⟩ /- LF_TRACK_SEL -/,
  ⟨0x22C, 4, 1, 0x0, 0x0, 0x0, 0x0⟩ /- LF_TRACK -/]

/-- Registers of the quire block, part 1: offset, stride, count, reset, and the masks of R10's access codes. -/
def accTable.quire1 : List RegAcc := [
  ⟨0x280, 4, 32, 0x0, 0xFFFFFFFF, 0x0, 0x0⟩ /- LF_CLASS -/,
  ⟨0x300, 4, 1, 0x0, 0x0, 0x0, 0x0⟩ /- CH_EPOCH -/,
  ⟨0x304, 4, 1, 0x0, 0x0, 0x0, 0x0⟩ /- CH_STAT -/,
  ⟨0x308, 4, 1, 0x0, 0x0, 0x0, 0x0⟩ /- CH_EPOCH_DISC -/,
  ⟨0x30C, 4, 1, 0x0, 0x0, 0x0, 0x0⟩ /- CH_INHERIT -/,
  ⟨0x320, 4, 1, 0x0, 0x0, 0x0, 0x0⟩ /- PG_QSTAT -/,
  ⟨0x340, 4, 1, 0x0, 0x0, 0x0, 0x0⟩ /- MS_QTRANSIT -/,
  ⟨0x380, 4, 4, 0x0, 0x0, 0x0, 0x0⟩ /- IN_MGN -/,
  ⟨0x390, 4, 1, 0x0, 0x0, 0x0, 0x0⟩ /- IN_UNIT -/,
  ⟨0x3A0, 4, 1, 0x0, 0x0, 0x0, 0x0⟩ /- RS_QUIRE -/,
  ⟨0x400, 4, 1, 0x0, 0xFFFFFFFF, 0x0, 0x0⟩ /- TK_LG_EXPECT -/,
  ⟨0x404, 4, 1, 0x40, 0x3FF, 0x0, 0x0⟩ /- TK_LG_ALLOW -/]

/-- Registers of the quire block, part 2: offset, stride, count, reset, and the masks of R10's access codes. -/
def accTable.quire2 : List RegAcc := [
  ⟨0x408, 4, 1, 0x0, 0x0, 0x0, 0x0⟩ /- TK_LG_RUN -/,
  ⟨0x40C, 4, 1, 0x0, 0x0, 0x0, 0x0⟩ /- TK_LG_SLIP -/,
  ⟨0x410, 4, 1, 0x0, 0x0, 0x0, 0x0⟩ /- TK_LG_STALL0 -/,
  ⟨0x414, 4, 1, 0x0, 0x0, 0x0, 0x0⟩ /- TK_LG_STALL1 -/,
  ⟨0x418, 4, 1, 0x0, 0x0, 0x0, 0x0⟩ /- TK_LG_TICK -/,
  ⟨0x41C, 4, 1, 0x0, 0x0, 0x0, 0x0⟩ /- TK_LG_MISMATCH -/,
  ⟨0x500, 4, 1, 0x0, 0x0, 0x0, 0x0⟩ /- PS_FMT_ERR_PA -/,
  ⟨0x504, 4, 1, 0x0, 0x0, 0x0, 0x0⟩ /- PS_FMT_ERR_PB -/,
  ⟨0x508, 4, 1, 0x1, 0x3, 0x0, 0x0⟩ /- PS_MODE -/,
  ⟨0x50C, 4, 1, 0xC, 0x1F, 0x0, 0x0⟩ /- PS_CHECK_TOL -/,
  ⟨0x510, 4, 1, 0x0, 0x0, 0x20000000, 0x0⟩ /- PS_VOTE -/,
  ⟨0x514, 4, 1, 0x0, 0x0, 0x0, 0x0⟩ /- PS_HOLD -/]

/-- Registers of the quire block, part 3: offset, stride, count, reset, and the masks of R10's access codes. -/
def accTable.quire3 : List RegAcc := [
  ⟨0x600, 4, 1, 0x0, 0x0, 0x0, 0x0⟩ /- PS_STATUS_PA -/,
  ⟨0x604, 4, 1, 0x0, 0x0, 0x0, 0x0⟩ /- PS_DONE_LO_PA -/,
  ⟨0x608, 4, 1, 0x0, 0x0, 0x0, 0x0⟩ /- PS_DONE_HI_PA -/,
  ⟨0x60C, 4, 1, 0x0, 0x0, 0x0, 0x0⟩ /- PS_BUSY_LO_PA -/,
  ⟨0x610, 4, 1, 0x0, 0x0, 0x0, 0x0⟩ /- PS_BUSY_HI_PA -/,
  ⟨0x614, 4, 1, 0x0, 0x0, 0x0, 0x0⟩ /- PS_CHECKS_PA -/,
  ⟨0x618, 4, 1, 0x0, 0x0, 0x0, 0x0⟩ /- PS_REFUSALS_PA -/,
  ⟨0x640, 4, 1, 0x0, 0x0, 0x0, 0x0⟩ /- PS_STATUS_PB -/,
  ⟨0x644, 4, 1, 0x0, 0x0, 0x0, 0x0⟩ /- PS_DONE_LO_PB -/,
  ⟨0x648, 4, 1, 0x0, 0x0, 0x0, 0x0⟩ /- PS_DONE_HI_PB -/,
  ⟨0x64C, 4, 1, 0x0, 0x0, 0x0, 0x0⟩ /- PS_BUSY_LO_PB -/,
  ⟨0x650, 4, 1, 0x0, 0x0, 0x0, 0x0⟩ /- PS_BUSY_HI_PB -/]

/-- Registers of the quire block, part 4: offset, stride, count, reset, and the masks of R10's access codes. -/
def accTable.quire4 : List RegAcc := [
  ⟨0x654, 4, 1, 0x0, 0x0, 0x0, 0x0⟩ /- PS_CHECKS_PB -/,
  ⟨0x658, 4, 1, 0x0, 0x0, 0x0, 0x0⟩ /- PS_REFUSALS_PB -/,
  ⟨0x800, 4, 64, 0x1, 0xFFFFFFFF, 0x0, 0x0⟩ /- ST_SR_SEED -/,
  ⟨0x900, 4, 1, 0x0, 0x0, 0x0, 0x0⟩ /- ST_SEALED_LO -/,
  ⟨0x904, 4, 1, 0x0, 0x0, 0x0, 0x0⟩ /- ST_SEALED_HI -/,
  ⟨0x908, 4, 1, 0x0, 0x0, 0x0, 0x0⟩ /- ST_USED_LO -/,
  ⟨0x90C, 4, 1, 0x0, 0x0, 0x0, 0x0⟩ /- ST_USED_HI -/,
  ⟨0x910, 4, 1, 0x0, 0x0, 0x80000000, 0x0⟩ /- ST_FAULT -/,
  ⟨0x914, 4, 1, 0x0, 0x3F7FFF, 0x0, 0x0⟩ /- ST_DBG_ADDR -/,
  ⟨0x918, 4, 1, 0x0, 0x0, 0x0, 0x0⟩ /- ST_DBG_DATA -/,
  ⟨0xA00, 4, 32, 0x0, 0xFFFFFFFF, 0x0, 0x0⟩ /- BT_ROTSET -/,
  ⟨0xA80, 4, 1, 0x0, 0x0, 0x0, 0x0⟩ /- BT_QROT -/]

def accTable.quire : List RegAcc := accTable.quire0 ++ accTable.quire1 ++ accTable.quire2 ++ accTable.quire3 ++ accTable.quire4

/-- Registers of the hub block, part 0: offset, stride, count, reset, and the masks of R10's access codes. -/
def accTable.hub0 : List RegAcc := [
  ⟨0x100, 4, 1, 0x39F, 0x0, 0x0, 0x0⟩ /- HB_FMT_CAPS -/,
  ⟨0x200, 4, 1, 0x0, 0x0, 0x0, 0x0⟩ /- MS_HALF -/,
  ⟨0x204, 4, 1, 0x0, 0x0, 0x0, 0x0⟩ /- MS_HALF_REQ -/,
  ⟨0x210, 4, 1, 0x0, 0xFF, 0x0, 0x0⟩ /- MS_LINK_SEL -/,
  ⟨0x214, 4, 1, 0x0, 0x0, 0x0, 0x0⟩ /- MS_LINK_STAT -/,
  ⟨0x218, 4, 1, 0x0, 0x0, 0x0, 0x0⟩ /- MS_LINK_LANES -/,
  ⟨0x300, 4, 1, 0x0, 0x0, 0x0, 0x0⟩ /- CX_LINK -/,
  ⟨0x304, 4, 1, 0x0, 0x0, 0x0, 0x0⟩ /- CX_OWNER -/,
  ⟨0x340, 4, 16, 0x0, 0x0, 0x0, 0x0⟩ /- CX_LD_BIND -/,
  ⟨0x400, 4, 1, 0x0, 0xF, 0x0, 0x0⟩ /- IN_RESTRICT_SEL -/,
  ⟨0x404, 4, 1, 0x0, 0x0, 0x0, 0x0⟩ /- IN_RESTRICT -/,
  ⟨0x500, 4, 1, 0x0, 0x0, 0x0, 0x0⟩ /- RS_DEVICE -/]

/-- Registers of the hub block, part 1: offset, stride, count, reset, and the masks of R10's access codes. -/
def accTable.hub1 : List RegAcc := [
  ⟨0x600, 4, 1, 0x0, 0x3F, 0x0, 0x0⟩ /- BT_SEL -/,
  ⟨0x604, 4, 1, 0x0, 0x0, 0x0, 0x0⟩ /- BT_RESULT -/,
  ⟨0x610, 4, 4, 0x0, 0x0, 0x0, 0x0⟩ /- BT_SIG -/,
  ⟨0x620, 4, 1, 0x0, 0x0, 0x0, 0x0⟩ /- BT_START -/,
  ⟨0x624, 4, 1, 0x0, 0x0, 0x0, 0x0⟩ /- BT_LOAD -/,
  ⟨0x700, 4, 1, 0x0, 0x0, 0x0, 0x0⟩ /- HB_BOOT -/,
  ⟨0x704, 4, 1, 0x0, 0x0, 0x0, 0x0⟩ /- LC_FEATURES -/,
  ⟨0x708, 4, 1, 0x0, 0x0, 0x0, 0x0⟩ /- LC_LIC_NUM -/,
  ⟨0x70C, 4, 1, 0x0, 0x0, 0x0, 0x0⟩ /- LC_LIC_PEND -/,
  ⟨0x710, 4, 1, 0x0, 0x0, 0x0, 0x0⟩ /- LC_ID_NEXT -/,
  ⟨0x714, 4, 1, 0x0, 0x0, 0x0, 0x0⟩ /- LC_ID_RSV -/,
  ⟨0x718, 4, 1, 0x0, 0x0, 0x0, 0x0⟩ /- LC_FW -/]

/-- Registers of the hub block, part 2: offset, stride, count, reset, and the masks of R10's access codes. -/
def accTable.hub2 : List RegAcc := [
  ⟨0x720, 4, 4, 0x0, 0x0, 0x0, 0x0⟩ /- LC_SERIAL -/,
  ⟨0x800, 4, 1, 0x3E8, 0xFFFF, 0x0, 0x0⟩ /- EV_CFG -/,
  ⟨0x808, 4, 1, 0x0, 0x0, 0x0, 0x0⟩ /- EV_TIME_LO -/,
  ⟨0x80C, 4, 1, 0x0, 0x0, 0x0, 0x0⟩ /- EV_TIME_HI -/,
  ⟨0x810, 4, 1, 0x0, 0x1FF, 0x0, 0x0⟩ /- EV_TRIG_SEL -/,
  ⟨0x814, 4, 1, 0x0, 0x30F0000, 0x0, 0x0⟩ /- EV_TRIG_CODE -/,
  ⟨0x818, 4, 10, 0x0, 0x3FFFFFF, 0x0, 0x0⟩ /- EV_TRIG_ADDR -/,
  ⟨0x840, 4, 1, 0x0, 0x0, 0x0, 0x0⟩ /- EV_STAGE -/,
  ⟨0x844, 4, 1, 0x0, 0x0, 0x0, 0x0⟩ /- EV_COL -/,
  ⟨0x900, 4, 1, 0x0, 0x0, 0x0, 0x0⟩ /- PW_INPUT -/,
  ⟨0x904, 4, 1, 0x0, 0x0, 0x0, 0x0⟩ /- PW_MODULE -/,
  ⟨0x908, 4, 1, 0x0, 0x0, 0x0, 0x0⟩ /- PW_TEMP -/]

/-- Registers of the hub block, part 3: offset, stride, count, reset, and the masks of R10's access codes. -/
def accTable.hub3 : List RegAcc := [
  ⟨0x90C, 4, 1, 0x0, 0x0, 0x0, 0x0⟩ /- PW_THERM -/,
  ⟨0x910, 4, 1, 0x1, 0x1, 0x0, 0x0⟩ /- PW_CLK -/,
  ⟨0x914, 4, 1, 0x40, 0xFFF, 0x0, 0x0⟩ /- HB_TICK_IO -/]

def accTable.hub : List RegAcc := accTable.hub0 ++ accTable.hub1 ++ accTable.hub2 ++ accTable.hub3

/-- Registers of the stit block, part 0: offset, stride, count, reset, and the masks of R10's access codes. -/
def accTable.stit0 : List RegAcc := [
  ⟨0x0, 4, 1, 0x0, 0x0, 0x0, 0x0⟩ /- ST_CTRL -/,
  ⟨0x4, 4, 1, 0x0, 0x0, 0x0, 0x0⟩ /- ST_STATUS -/,
  ⟨0x8, 4, 1, 0x0, 0x0, 0x0, 0x0⟩ /- ST_PC -/,
  ⟨0xC, 4, 1, 0x0, 0x0, 0x0, 0x0⟩ /- ST_FIRINGS_LO -/,
  ⟨0x10, 4, 1, 0x0, 0x0, 0x0, 0x0⟩ /- ST_FIRINGS_HI -/,
  ⟨0x14, 4, 1, 0x0, 0x0, 0x0, 0x0⟩ /- ST_MATCH -/,
  ⟨0x18, 4, 1, 0x0, 0x0, 0x0, 0x0⟩ /- ST_ERR -/,
  ⟨0x1C, 4, 1, 0x0, 0x0, 0x0, 0x0⟩ /- ST_ECC -/,
  ⟨0x40, 4, 16, 0x0, 0x0, 0x0, 0x0⟩ /- ST_HANDLER -/,
  ⟨0x80, 4, 16, 0x0, 0x0, 0x0, 0x0⟩ /- ST_PORT -/,
  ⟨0xC0, 4, 1, 0x0, 0x0, 0x0, 0x0⟩ /- CH_QSTAT -/]

def accTable.stit : List RegAcc := accTable.stit0

/-- Registers of the dreg block, part 0: offset, stride, count, reset, and the masks of R10's access codes. -/
def accTable.dreg0 : List RegAcc := [
  ⟨0x0, 4, 1, 0x0, 0x1FFFFF, 0x0, 0x0⟩ /- LF_DREG -/,
  ⟨0x4, 4, 1, 0x0, 0x0, 0x0, 0x0⟩ /- LF_DSTAT -/,
  ⟨0x20, 4, 8, 0x0, 0x0, 0x0, 0x0⟩ /- LF_DIG -/]

def accTable.dreg : List RegAcc := accTable.dreg0

/-- Registers of the entry block, part 0: offset, stride, count, reset, and the masks of R10's access codes. -/
def accTable.entry0 : List RegAcc := [
  ⟨0x0, 4, 1, 0x0, 0xFFFFFFF, 0x0, 0x0⟩ /- CH_ROUTE_A -/,
  ⟨0x4, 4, 1, 0x0, 0xFFFFF, 0x0, 0x0⟩ /- CH_ROUTE_B -/,
  ⟨0x8, 4, 1, 0x0, 0x7FFFF, 0x0, 0x0⟩ /- CH_ROUTE_C -/,
  ⟨0xC, 4, 1, 0x0, 0x0, 0x0, 0x0⟩ /- CH_ROUTE_D -/]

def accTable.entry : List RegAcc := accTable.entry0

/-- Registers of the ring block, part 0: offset, stride, count, reset, and the masks of R10's access codes. -/
def accTable.ring0 : List RegAcc := [
  ⟨0x0, 4, 1, 0x0, 0x7FFFFFF, 0x0, 0x0⟩ /- CH_RING_CFG -/,
  ⟨0x4, 4, 1, 0x0, 0x1FFF, 0x0, 0x0⟩ /- CH_RING_SRC -/,
  ⟨0x8, 4, 1, 0x0, 0x0, 0x0, 0x0⟩ /- CH_RING_WP -/,
  ⟨0xC, 4, 1, 0x0, 0x0, 0x0, 0x0⟩ /- CH_RING_RP -/]

def accTable.ring : List RegAcc := accTable.ring0

/-- Registers of the table block, part 0: offset, stride, count, reset, and the masks of R10's access codes. -/
def accTable.table0 : List RegAcc := [
  ⟨0x0, 4, 1, 0x0, 0x3FFFF, 0x0, 0x0⟩ /- PG_TBL_CFG -/,
  ⟨0x4, 4, 1, 0x0, 0xFFFFFFFF, 0x0, 0x0⟩ /- PG_TBL_BASE -/,
  ⟨0x8, 4, 1, 0x0, 0xFFFFFFFF, 0x0, 0x0⟩ /- PG_TBL_CODE -/,
  ⟨0xC, 4, 1, 0x0, 0x1FFFFFF, 0x0, 0x0⟩ /- PG_TBL_LEN -/,
  ⟨0x10, 4, 1, 0x0, 0x1FFF7FFF, 0x0, 0x0⟩ /- PG_TBL_LAND -/,
  ⟨0x14, 4, 1, 0x0, 0xFFFFFFFF, 0x0, 0x0⟩ /- PG_TBL_DUE -/]

def accTable.table : List RegAcc := accTable.table0

/-- Registers of the inbox block, part 0: offset, stride, count, reset, and the masks of R10's access codes. -/
def accTable.inbox0 : List RegAcc := [
  ⟨0x0, 4, 1, 0x0, 0xFFFF, 0x0, 0x0⟩ /- CX_IN_CFG -/,
  ⟨0x4, 4, 1, 0x0, 0x3FFFFFF, 0x0, 0x0⟩ /- CX_IN_TGT -/,
  ⟨0x8, 4, 1, 0x0, 0x7FFF, 0x0, 0x0⟩ /- CX_IN_LAND -/,
  ⟨0xC, 4, 1, 0x0, 0x0, 0x0, 0x0⟩ /- CX_IN_SEQ -/,
  ⟨0x10, 4, 1, 0x0, 0x0, 0x0, 0x0⟩ /- CX_IN_STAT -/,
  ⟨0x14, 4, 1, 0x0, 0x0, 0x0, 0x0⟩ /- CX_IN_CTRL -/,
  ⟨0x18, 4, 1, 0x0, 0x0, 0x0, 0x0⟩ /- CX_IN_CONS -/]

def accTable.inbox : List RegAcc := accTable.inbox0

/-- Registers of the slot block, part 0: offset, stride, count, reset, and the masks of R10's access codes. -/
def accTable.slot0 : List RegAcc := [
  ⟨0x0, 4, 1, 0x0, 0x7FFFFFFF, 0x0, 0x0⟩ /- CX_SLOT_CFG -/,
  ⟨0x4, 4, 1, 0x0, 0xFFFFFF, 0x0, 0x0⟩ /- CX_SLOT_SRC -/,
  ⟨0x8, 4, 1, 0x0, 0x0, 0x0, 0x0⟩ /- CX_SLOT_STAT -/]

def accTable.slot : List RegAcc := accTable.slot0

end Sys2Proof.Machine
end

