-- ==== Sys2Proof/Machine/Sparse.lean ====
section
/-! DEFINITION. Sparse tables: a list of (key, value) pairs in one canonical form, keys strictly rising and no value
equal to what an unlisted key reads as. -/

namespace Sys2Proof.Machine

/-- A table by key; an unlisted key reads as the default that the reader names. -/
abbrev Sparse (α : Type) := List (Nat × α)

/-- The value at key `k`; `d` where the key is not listed. -/
def spGet {α : Type} (d : α) : Sparse α → Nat → α
  | [], _ => d
  | (i, v) :: t, k => if i = k then v else spGet d t k

/-- Places a pair before the first greater key. -/
def spIns {α : Type} (k : Nat) (v : α) : Sparse α → Sparse α
  | [] => [(k, v)]
  | (i, w) :: t => if k < i then (k, v) :: (i, w) :: t else (i, w) :: spIns k v t

/-- The table without key `k`. -/
def spDel {α : Type} (m : Sparse α) (k : Nat) : Sparse α :=
  m.filter (fun c => decide (c.1 ≠ k))

/-- The table with key `k` at `v`; writing the default removes the entry. -/
def spSet {α : Type} [DecidableEq α] (d : α) (m : Sparse α) (k : Nat) (v : α) : Sparse α :=
  if v = d then spDel m k else spIns k v (spDel m k)

/-- The table with key `k` changed by `f`. -/
def spUpd {α : Type} [DecidableEq α] (d : α) (m : Sparse α) (k : Nat) (f : α → α) : Sparse α :=
  spSet d m k (f (spGet d m k))

/-- Every listed key is above `b` and the keys rise strictly, and no listed value is the default. -/
def spWfFrom {α : Type} [DecidableEq α] (d : α) : Nat → Sparse α → Bool
  | _, [] => true
  | b, (i, v) :: t => decide (b ≤ i) && decide (v ≠ d) && spWfFrom d (i + 1) t

/-- The canonical form of a table. -/
def spWf {α : Type} [DecidableEq α] (d : α) (m : Sparse α) : Bool :=
  spWfFrom d 0 m

/-- `n` bytes from address `a` upward. -/
def memRead (m : Sparse (BitVec 8)) (a : Nat) : Nat → List (BitVec 8)
  | 0 => []
  | n + 1 => spGet 0 m a :: memRead m (a + 1) n

/-- The bytes written from address `a` upward. -/
def memWrite (m : Sparse (BitVec 8)) (a : Nat) : List (BitVec 8) → Sparse (BitVec 8)
  | [] => m
  | b :: t => memWrite (spSet 0 m a b) (a + 1) t

/-- The little-endian number that the bytes spell (05_leaf_store.md R117). -/
def leNat : List (BitVec 8) → Nat
  | [] => 0
  | b :: t => b.toNat + 256 * leNat t

/-- A field of a byte list: `n` bytes from byte `i` on, little-endian. -/
def leAt (l : List (BitVec 8)) (i n : Nat) : Nat := leNat ((l.drop i).take n)

/-- The `n` little-endian bytes of a number. -/
def leBytes : Nat → Nat → List (BitVec 8)
  | 0, _ => []
  | n + 1, x => BitVec.ofNat 8 x :: leBytes n (x / 256)

end Sys2Proof.Machine
end

