-- ==== Sys2Proof/Machine/State.lean ====
section
/-! DEFINITION. The state of the block: its register file, its memories, and the state the spec gives each unit. -/

namespace Sys2Proof.Machine

/-- Why the block stops. -/
inductive Fault where
  /-- Raised by an access to a partition memory address above 0x3B_FFFF_FFFF, which the spec gives no memory
  (07_catchword_paging.md R167). Safe: the model stops where the spec says nothing is there. -/
  | noPartitionMemory
  deriving DecidableEq, Repr

/-- Why a command has no meaning. -/
inductive Refusal where
  /-- Raised by an arm of `exec` that has no meaning yet. Safe: nothing is claimed of the command. -/
  | notModelled (mnemonic : String)
  deriving DecidableEq, Repr

/-! ## Events (14_event_recorder_and_colophon.md) -/

/-- A source of event records (R341, Table 2). -/
inductive Src where
  | hub
  | steward
  | part (p : PartId)
  | quire (q : QuireId)
  deriving DecidableEq, Repr

/-- An event record before it is written to its ring (R341, Table 1). -/
structure EvRec where
  code   : Nat
  source : Nat
  time   : Nat
  rep    : Nat
  sev    : Nat
  gap    : Bool
  staged : Bool
  words  : Nat
  snap   : List Nat
  /-- A flood update of the source's last record (R346), not a new record. -/
  update : Bool
  deriving DecidableEq, Repr

/-- What the recorder keeps for one source (R343, R344, R346, R350, R351). -/
structure SrcSt where
  /-- Records on their way to the recorder core, oldest first; 8 places (R343). -/
  queue  : List EvRec
  /-- The sequence counter, 32 bits (R344). -/
  seq    : Nat
  /-- Records started in the ring (Table 4, `head`). -/
  head   : Nat
  /-- The source's last record, with what has been folded into it (R346). -/
  last   : Option EvRec
  /-- The fold register holds an update that has not been sent (R346). -/
  folded : Bool
  /-- Device time of the last update sent (R346). -/
  sentAt : Nat
  /-- Records lost before reaching the ring, saturating (Table 4, `lost`). -/
  lost   : Nat
  /-- The next record carries `gap` (R351). -/
  gap    : Bool
  deriving DecidableEq, Repr

/-- What the owner set in a trigger entry beyond its defaults: the number of snapshot sources (0: the default), the
severity floor, the offset and base words of the added sources by slot (R347, R349). -/
structure Trig where
  count : Nat
  sev   : Nat
  addrs : Sparse (BitVec 32)
  deriving DecidableEq, Repr

def Trig.init : Trig := ⟨0, 0, []⟩

def SrcSt.init : SrcSt := ⟨[], 0, 0, none, false, 0, 0, false⟩

/-! ## Stitchers (04_stitchers.md) -/

/-- A token in a match store (R90, R99). -/
structure Waiting where
  data : BitVec 64
  tag  : Nat
  port : Nat
  ctl  : Bool
  /-- The schedule position at which it became readable (R93, R154). -/
  at_  : Nat
  origin : Origin
  deriving DecidableEq, Repr

/-- A word of a receive queue with the channel entry that sent it (R144, R150). -/
structure QWord where
  data : BitVec 64
  quire : QuireId
  entry : Nat
  /-- The schedule position at which it became readable. -/
  at_  : Nat
  deriving DecidableEq, Repr

/-- A firing: its handler and tag (R93). -/
structure Firing where
  handler : Nat
  tag : Nat
  deriving DecidableEq, Repr

/-- What a stitcher waits for (ST_STATUS.state 2 to 5), since which schedule position, and the send's channel. -/
structure Stall where
  state : Nat
  since : Nat
  ch    : Option Nat
  /-- The position from which its cycles are not yet in the ledger, and whether those from it on are refused at a
  clocked-down half (08_cord_mesh_and_spine.md R219). -/
  from_ : Nat
  refused : Bool
  /-- The send-stall watchdog has fired for it (06_channels.md R160). -/
  fired : Bool
  deriving DecidableEq, Repr

/-- A stitcher's own state beside its registers in the register file (04_stitchers.md, Table 1). -/
structure Stitcher where
  /-- s1 to s31 (s0 reads as zero, R88). -/
  sreg : Sparse (BitVec 32)
  /-- v0 to v15. -/
  vreg : Sparse (BitVec 512)
  /-- p1 to p7 (p0 reads as all ones, R88). -/
  preg : Sparse (BitVec 64)
  /-- Pocket memory, 16 KiB. -/
  pocket : Sparse (BitVec 8)
  /-- Program memory, 1,024 words. -/
  prog : Sparse (BitVec 32)
  /-- Errors in the 64-bit words of the two memories, pocket words first, program words from 2,048: 1 corrected at a
  read, 2 uncorrectable (R113). -/
  memErr : Sparse Nat
  /-- The address of the next instruction. -/
  pc : Nat
  firing : Option Firing
  /-- The match store, oldest first (R90). -/
  store : List Waiting
  /-- The four receive queues (R144). -/
  queues : Sparse (List QWord)
  /-- The rounding generator (R58). -/
  lfsr : BitVec 32
  /-- The first position at which the next instruction may issue (R104). -/
  nextAt : Nat
  /-- Positions at which registers become usable (R104): scalar n at n, vector n at 32 + n, predicate n at 48 + n. -/
  score : Sparse Nat
  /-- The position at which the transcendental unit accepts its next instruction (R104). -/
  unitAt : Nat
  /-- The latest position at which a register write of the firing completes (R95). -/
  doneAt : Nat
  /-- The instructions that the firing has issued, latest first: address and position of issue (R112). -/
  issues : List (Nat × Nat)
  stall : Option Stall
  /-- In reset (R110). -/
  inReset : Bool
  /-- Absolute partition cycle at which the reset ends (R110). -/
  resetEnd : Nat
  /-- Fires nothing until the next stroke delivery (R114). -/
  stopped : Bool
  /-- The positions at which entries of a port were freed in the tick, latest first (R93, R382). -/
  portFreed : Sparse (List Nat)
  /-- Resets since program load, for GETS selector 8, saturating at 2^32 - 1 (R109). -/
  resets : Nat
  /-- EV_ST_UNSEALED_TOKEN has been recorded since the last load (R111). -/
  unsealedSeen : Bool
  /-- Positions up to which issued stores and leaf operations have been accepted (FENCE, R101). -/
  acceptedAt : Nat
  /-- The chunks received in the load in progress, by 1,024 x space + chunk (08_cord_mesh_and_spine.md R212). -/
  loadMap : Sparse Bool
  /-- The configuration chunks as received, 160 bytes (R111, 08_cord_mesh_and_spine.md R212). -/
  loadCfg : Sparse (BitVec 8)
  /-- The load header: program and pocket chunk counts and image CRC (R212). -/
  loadHdr : Option (Nat × Nat × BitVec 32)
  deriving DecidableEq, Repr

def Stitcher.init : Stitcher :=
  { sreg := [], vreg := [], preg := [], pocket := [], prog := [], memErr := [], pc := 0, firing := none,
    store := [], queues := [], lfsr := 1, nextAt := 0, score := [], unitAt := 0, doneAt := 0, issues := [], stall := none,
    inReset := false, resetEnd := 0, stopped := false, portFreed := [], resets := 0, unsealedSeen := false,
    acceptedAt := 0, loadMap := [], loadCfg := [], loadHdr := none }

/-! ## Channels (06_channels.md) -/

/-- What a message lands on (Table 1). -/
inductive Landing where
  | token (port tag : Nat) (ctl : Bool) (data : BitVec 64)
  | queue (n : Nat) (words : List (BitVec 64))
  | ring (n : Nat) (bytes : List (BitVec 8)) (pad units seq : Nat)
  deriving DecidableEq, Repr

/-- A message in flight between its launch and its release (R154). -/
structure Flight where
  src     : QuireId
  entry   : Nat
  sender  : Nat
  dst     : QuireId
  st      : Nat
  landing : Landing
  epoch   : Nat
  span    : Bool
  /-- The release position: stamp + latency - 4 (R154). -/
  relPos  : Nat
  /-- The sender's run cycle at which it counts as arrived: launch run cycle + latency - 4 (R154). -/
  arrive  : Nat
  /-- Its CRC-8 or CRC-32C, as the sending network interface computed it (R99, R149). -/
  code    : Nat
  /-- The position at which its sender issued it. -/
  sentAt  : Nat
  deriving DecidableEq, Repr

/-- A credit return in flight (R156). -/
structure CreditFlight where
  src    : QuireId
  entry  : Nat
  units  : Nat
  epoch  : Nat
  from_  : QuireId
  usePos : Nat
  arrive : Nat
  deriving DecidableEq, Repr

/-- A scheduled leaf write into the staging range of a result slot, on its way to the result store (R246). -/
structure Fwd where
  slot  : Nat
  /-- Byte offset from the slot's control line. -/
  off   : Nat
  bytes : List (BitVec 8)
  /-- The tick counter of the tick it was made in. -/
  tick  : Nat
  sentAt : Nat
  deriving DecidableEq, Repr

/-- What passes a quire's outbound hold (03_presses.md R79). -/
inductive OutMsg where
  | flight (m : Flight)
  | fwd (w : Fwd)
  deriving DecidableEq, Repr

/-- A message in the outbound hold and the position at which its window closes (R79). -/
structure HeldOut where
  leave : Nat
  msg   : OutMsg
  deriving DecidableEq, Repr

/-! ## Presses (03_presses.md) -/

/-- A descriptor in a press queue: its 64 bytes, the leaf or pocket address it came from, and the position at which its
copy ended (R63). -/
structure PDesc where
  bytes  : List (BitVec 8)
  addr   : Nat
  leaf   : Bool
  sender : Nat
  enterAt : Nat
  deriving DecidableEq, Repr

/-- A running press command (R65, R68, R74). -/
structure PRun where
  desc   : PDesc
  /-- Column tiles streamed and checked so far. -/
  tile   : Nat
  /-- A collation mismatch, a poisoned operand or an unresolved vote: nothing more is released (R80, R82). -/
  withheld : Bool
  /-- Completion status so far (Table 2). -/
  status : Nat
  /-- An integer accumulator wrapped (R45). -/
  wrap   : Bool
  /-- Element rows and scale rows of the activations as loaded, without padding (R70). -/
  acts   : List (List (BitVec 8))
  scales : List (List (BitVec 8))
  /-- The weight code array as read (R67): the expected code of each column tile, none where the read was poisoned. -/
  codes  : List (Option Nat)
  /-- The output rows of the released tiles, in tile order (R80). -/
  out    : List (List (List (BitVec 8)))
  /-- Delivery words that wait for room at the delivery port with the position of their release, and the words sent
  (R72, R382). -/
  deliver : List (Nat × BitVec 64)
  delivered : Nat
  /-- Positions: the next weight read, the write side free, the next delivery token. -/
  readAt  : Nat
  writeAt : Nat
  sendAt  : Nat
  /-- The last vote on this press: the mismatch, and the position before which nothing is released (R82, R83). -/
  frozeAt : Nat
  floor   : Nat
  /-- It decoded an invalid TRN byte (R53). -/
  trnBad  : Bool
  /-- A delivery word has found the port full (R382). -/
  waiting : Bool
  /-- Weight tiles streamed, for the idle cycles of a port-bound command (R71). -/
  streamed : Nat
  deriving DecidableEq, Repr

/-- Accumulator slots that a column tile holds (R73): their eighths of the file, the position at which its leaf writes and
its sent delivery words are out, and its delivery words that have not been sent. -/
structure PSlot where
  units  : Nat
  freeAt : Nat
  words  : Nat
  deriving DecidableEq, Repr

/-- One press (03_presses.md R62, R63). -/
structure Press where
  /-- Descriptors behind the running command. -/
  queue : List PDesc
  run   : Option PRun
  /-- The accumulators of the tile last formed, row by row, as 32-bit codes (R74). -/
  acc   : List (BitVec 32)
  /-- Accumulator slots in use, oldest first (R73). -/
  slots : List PSlot
  /-- The position of the last weight read of the last command (R76). -/
  lastRead : Nat
  /-- The positions from which the write side and the delivery are free after the last command (R72). -/
  lastWrite : Nat
  lastSend : Nat
  /-- The last vote on this press in the tick: the mismatch, and the position before which nothing is released and no
  tile starts (R82, R83). -/
  frozeAt : Nat
  floor   : Nat
  /-- The queue is frozen for a vote (R82). -/
  frozen : Bool
  deriving DecidableEq, Repr

def Press.init : Press := ⟨[], none, [], [], 0, 0, 0, 0, 0, false⟩

/-- A vote, in progress or waiting for the one before it (R82, R83). -/
structure Vote where
  press : PressId
  tile  : Nat
  /-- The position of the mismatch. -/
  at_   : Nat
  /-- The original result: accumulators and output rows; the check values C of each row. -/
  accs  : List (BitVec 32)
  outs  : List (List (BitVec 8))
  checks : List (BitVec 32)
  /-- The re-execution has started, with the activations as the other press loaded them. -/
  started : Bool
  acts   : List (List (BitVec 8))
  scales : List (List (BitVec 8))
  /-- The position before the re-execution's first read, and the cycles it takes of the press port (R83). -/
  startAt : Nat
  span   : Nat
  deriving DecidableEq, Repr

/-! ## The leaf (05_leaf_store.md) -/

/-- A pager or host write held in the write buffer (R128). -/
structure HeldWrite where
  addr  : Nat
  bytes : List (BitVec 8)
  /-- The writer's unit word (14_event_recorder_and_colophon.md, Table 11). -/
  writer : Nat
  /-- The 64-byte segments of the write, as a mask from its first byte on, that are written uncorrectable. -/
  poison : Nat
  /-- A host write that a flush has marked (07_catchword_paging.md R188). -/
  marked : Bool
  /-- The pager entry the write belongs to, if any. -/
  page : Option Nat
  deriving DecidableEq, Repr

/-- A leaf operation in its queue (R131): the 64 descriptor bytes, the instruction's op, the stitcher, its address. -/
structure LeafOp where
  bytes  : List (BitVec 8)
  op     : Nat
  sender : Nat
  addr   : Nat
  /-- Position at which it was accepted. -/
  at_    : Nat
  running : Bool
  /-- Checked and refused; its place is held until its completion (R132). -/
  refused : Bool
  /-- Poisoned segments were copied (R132). -/
  poison : Bool
  /-- Position of its completion. -/
  doneAt : Nat
  deriving DecidableEq, Repr

/-- An entry of a tile's correction tracker (R137). -/
structure Track where
  bank : Nat
  row  : Nat
  weight : Bool
  count : Nat
  first : Nat
  pending : Bool
  deriving DecidableEq, Repr

/-- A row that the scrubber will write back: its address, and whether another write reached it since (R133). -/
structure WriteBack where
  addr : Nat
  stale : Bool
  deriving DecidableEq, Repr

/-! ## The pager (07_catchword_paging.md) -/

/-- How far a hint entry has come (R178, R182). -/
inductive HintPhase where
  | queued | moving | complete | arrived
  deriving DecidableEq, Repr

/-- An accepted hint entry (R174 to R178). -/
structure Hint where
  id     : Nat
  /-- The quire and stitcher that executed the HINT, and the quire whose leaf holds the slot. -/
  owner  : QuireId
  sender : Nat
  quire  : QuireId
  /-- Bytes 0 to 7 of the entry, its tag, and its place in the list. -/
  word   : Nat
  tag    : Nat
  index  : Nat
  dueTick : Nat
  duePos  : Nat
  phase  : HintPhase
  status : Nat
  /-- The page: its memory address, its code word's address, its size, its leaf address. -/
  pma    : Nat
  code   : Nat
  size   : Nat
  land_  : Nat
  /-- The page's bytes once read, bytes of them handed to the write buffer, 64-byte segments that hold a bad granule. -/
  data   : List (BitVec 8)
  moved  : Nat
  bad    : List Nat
  /-- The partition cycle at which its completion counts as arrived. -/
  arrive : Nat
  /-- No completion is sent (R189). -/
  quiet  : Bool
  /-- Its place in the hint queue is freed: its due point has passed, or its due tick has ended (R176, R181). -/
  freed  : Bool
  /-- It has been counted as waiting behind another entry (R186). -/
  waited : Bool
  /-- The position at which the HINT issued (04_stitchers.md R115), and the partition cycle of its acceptance. -/
  sentAt : Nat
  accepted : Nat
  deriving DecidableEq, Repr

/-- A host write through the upload window that waits behind a pager operation (R186, R187). -/
structure Upload where
  pma   : Nat
  bytes : List (BitVec 8)
  ld    : Nat
  marked : Bool
  deriving DecidableEq, Repr

/-! ## Charges (10_collation_and_checking.md R275) -/

/-- A unit that an error is charged to (R275, Table 6), on its physical tile where it has one. -/
inductive HwUnit where
  | pressArray (tile : Nat) (x : PressId)
  | pressCheck (tile : Nat) (x : PressId)
  | tile (tile : Nat)
  | stitcher (tile st : Nat)
  | leafRow (tile bank row : Nat)
  | leafBank (tile bank : Nat)
  | network (tile : Nat)
  | dramRow (p : PartId) (channel row : Nat)
  | link (n : Nat)
  | spineLink (stop : Nat)
  | clock (h : Half)
  deriving DecidableEq, Repr

/-- A detected error charged to a unit, as the steward keeps it in the colophon (R275, R276, R279). -/
structure Charge where
  unit : HwUnit
  code : Nat
  /-- The device delivered the right value anyway. -/
  resolved : Bool
  /-- Device time, and the start of the tick it was detected in. -/
  time : Nat
  tick : Option Nat
  /-- The temperature bin of the hottest junction of the unit's half. -/
  bin : Nat
  /-- The activity bin of its tile at the last margin reading: press eighths and 8 x stitcher eighths (R280). -/
  act : Nat
  /-- A judgement has taken it into account. -/
  judged : Bool
  deriving DecidableEq, Repr

/-! ## Host interface (09_host_attachment.md) -/

/-- A sealed inbox message (R236, R239, R241). -/
structure InMsg where
  seq   : Nat
  len   : Nat
  lines : Nat
  late  : Bool
  /-- Device time in ns, and the partition cycle, at which it sealed. -/
  arrival  : Nat
  sealedAt : Nat
  bytes  : List (BitVec 8)
  /-- Its landing copy has been handed to the write buffer (R243). -/
  copied : Bool
  deriving DecidableEq, Repr

/-- An inbox ring beside its registers (R237 to R243). -/
structure InRing where
  /-- Line contents by byte offset in the ring. -/
  cells : Sparse (BitVec 8)
  /-- The arrival map: line modulo the ring's size to the device time of its arrival and 1. -/
  came  : Sparse Nat
  /-- Sealed and not yet bound, in order; bound to the open tick. -/
  msgs  : List InMsg
  bound : List InMsg
  /-- EV_INBOX_STALE has been recorded for the head message. -/
  staleSeen : Bool
  deriving DecidableEq, Repr

def InRing.init : InRing := ⟨[], [], [], [], false⟩

/-- An INTAKE message on its way: the ring, count, late flag, tick bits, and the messages it speaks of (R244). -/
structure Intake where
  ring : Nat
  late : Bool
  tick : Nat
  msgs : List InMsg
  /-- It has reached its quire. -/
  got : Bool
  deriving DecidableEq, Repr

/-- A token due at a schedule position: an intake token (R244) with its ring and `seq`, or an injected one (R256). -/
structure DueTok where
  pos  : Nat
  u    : StId
  port : Nat
  tag  : Nat
  ctl  : Bool
  data : BitVec 64
  /-- The ring and message whose landing copy it waits for; none for an injected token. -/
  msg  : Option (Nat × Nat)
  /-- The notice that an injected token completes: LD and bit. -/
  notice : Option (Nat × Nat)
  /-- Its time has come before its landing copy (R244). -/
  blocked : Bool
  deriving DecidableEq, Repr

/-- A result slot beside its registers (R246 to R251). -/
structure SlotSt where
  /-- Results published; the acknowledged `seq`. -/
  seq : Nat
  ack : Nat
  /-- The tick whose control line has arrived, its length and `app`. -/
  ctl : Option Nat
  len : Nat
  app : Nat
  /-- A write followed the control line in this tick. -/
  broken : Bool
  /-- The last tick whose header has been written. -/
  header : Option Nat
  deriving DecidableEq, Repr

def SlotSt.init : SlotSt := ⟨0, 0, none, 0, 0, false, none⟩

/-- A result header that publish will write: its slot, its partition cycle, its device time (R248). -/
structure PubHeader where
  slot : Nat
  cyc  : Nat
  ns   : Nat
  deriving DecidableEq, Repr

/-- How far a notice has come (R253). -/
inductive NoticePhase where
  | masked | travelling | delivered | acting
  deriving DecidableEq, Repr

/-- A notice that has not completed (R252). -/
structure Notice where
  ld      : Nat
  /-- 0 steward; 1 + n the sequencer of PTn. -/
  mailbox : Nat
  bit     : Nat
  ptr     : Nat
  tag     : Nat
  irq     : Bool
  vec     : Nat
  phase   : NoticePhase
  deriving DecidableEq, Repr

/-- A completion that has not been written (R258, Table 10). -/
structure Completion where
  ld      : Nat
  mailbox : Nat
  bit     : Nat
  tag     : Nat
  status  : Nat
  result  : Nat
  irq     : Bool
  vec     : Nat
  /-- It has been counted as waiting for queue space. -/
  waited  : Bool
  deriving DecidableEq, Repr

/-- A capacity extent of 256 MiB lent to an LD (R231): its partition, its PMA and its DC region offset in extents. -/
structure Extent where
  ld   : Nat
  part : PartId
  pma  : Nat
  slot : Nat
  /-- Offered and not yet accepted; the device time by which a recall must be answered. -/
  offered : Bool
  recallBy : Option Nat
  /-- The LD whose steward notice waits for the host's answer. -/
  by_ : Option Nat
  deriving DecidableEq, Repr

/-! ## Networks (08_cord_mesh_and_spine.md) -/

/-- One direction of a cord link (R198, R199). -/
structure LinkSt where
  /-- Failures in a row; it has retrained for this flit; retraining ends at this device time. -/
  fails : Nat
  again : Bool
  retrainEnd : Option Nat
  down  : Bool
  crc   : Nat
  retrains : Nat
  /-- Lanes replaced by spares. -/
  spared : List Nat
  /-- Lanes blamed, with the device times. -/
  blamed : List (Nat × Nat)
  /-- Failing lanes that no spare has replaced, in the order in which they failed. -/
  failing : List Nat
  deriving DecidableEq, Repr

def LinkSt.init : LinkSt := ⟨0, false, none, false, 0, 0, [], [], []⟩

/-- A spine message that waits for its ACK (R209). -/
structure SpMsg where
  part   : Option PartId
  stop   : Nat
  dest   : Nat
  cls    : Nat
  opcode : Nat
  seq    : Nat
  sentAt : Nat
  again  : Bool
  /-- The register address a REG.RD or REG.WR names; the mailbox, LD and bit a DOORBELL carries; the source of an EVENT;
  the sequence that an ASLEEP notice refuses. -/
  arg    : Nat
  /-- The value of a REG.WR or REG.DATA; the cause of an ASLEEP notice; the scope and target of a RESET. -/
  data   : Nat
  /-- Dropped for parity on its way; accepted at its destination; held at a kettle until its half is at full clock. -/
  lost   : Bool
  got    : Bool
  held   : Bool
  wake   : Bool
  deriving DecidableEq, Repr

/-- A program load in progress (R212, R213). -/
structure Load where
  image : Image
  /-- Stitchers asked in this round whose answer is outstanding, and those of them that LOAD.END did not reach. -/
  waiting : List StId
  deaf  : List StId
  /-- The chunks to resend: stitcher, space, chunk. -/
  gaps  : List (StId × Nat × Nat)
  /-- Answers of this round with gaps or a mismatch. -/
  faulty : Nat
  round : Nat
  /-- Device time of the last LOAD.END. -/
  endAt : Nat
  deriving DecidableEq, Repr

/-- A change of a half's clock in progress (R216 to R218, R363): the target and the device time at which the first and
the second partition are ready. -/
structure HalfChange where
  target : Nat
  first  : PartId
  readyAt : Nat
  secondAt : Nat
  firstDone : Bool
  /-- The state before, and the requester's LD. -/
  old : Nat
  ld  : Nat
  deriving DecidableEq, Repr

/-- A half's thermal and clock history (01_the_tick.md R35, 15_module_power_and_signals.md R367). -/
structure Thermal where
  /-- Since when the hottest junction has been below 87 degrees, below 85, at or above 95 (device ns). -/
  below87 : Option Nat
  below85 : Option Nat
  above95 : Option Nat
  /-- The step that waits for both partitions to be held: the TK_STATUS.clock code. -/
  stepTo : Option Nat
  /-- The step is also a change of the clock spread (15_module_power_and_signals.md R375). -/
  spread : Bool
  /-- The throttling level that the temperature asks for: 0 none, 1 1.6 GHz, 2 1.0 GHz, 3 critical. -/
  level  : Nat
  /-- The clock is outside its band since a fault, and in its band again since (10_collation_and_checking.md R274). -/
  faulty : Bool
  goodSince : Option Nat
  /-- The half is critical for the hub's temperature, not its own (15_module_power_and_signals.md, Table 4). -/
  byHub : Bool
  deriving DecidableEq, Repr

def Thermal.init : Thermal := ⟨none, none, none, none, false, 0, false, none, false⟩

/-! ## Resets, tests, the steward -/

/-- A partition reset in progress (11_fences_resets_recovery.md R289). -/
structure Recovery where
  cause : Nat
  startAt : Nat
  cycled : Bool
  full  : Bool
  wasRunning : Bool
  requester : Nat
  /-- Notices that complete with RS_LAST: LD and bit of the steward mailbox. -/
  notices : List (Nat × Nat)
  deriving DecidableEq, Repr

/-- A rotation in progress (12_self_test_and_rotation.md R313). -/
structure Rotation where
  quire : QuireId
  planned : Nat
  volume : Nat
  holdAt : Option Nat
  /-- TEST_QUIRE notices that complete with its verdict: LD and bit. -/
  notices : List (Nat × Nat)
  deriving DecidableEq, Repr

/-- A run of a test program (R303, R306). -/
structure TestRun where
  program : Nat
  /-- Tile number; 36 for the units that are not tiles. -/
  unit : Nat
  quire : Option QuireId
  going : Bool
  startAt : Nat
  deriving DecidableEq, Repr

/-- A master digest run (10_collation_and_checking.md R270). -/
structure MdRun where
  base : Nat
  units : Nat
  startAt : Nat
  torn : Bool
  deriving DecidableEq, Repr

/-- A licence (13_bring_up_and_licences.md Table 3): its 2,948 bytes. -/
abbrev Licence := List (BitVec 8)

/-- A conditional restriction (10_collation_and_checking.md R279, R280): the word IN_RESTRICT shows, its unit, the time
of its last change. -/
structure Restriction where
  word : BitVec 32
  unit : HwUnit
  changed : Nat
  /-- The temperature lies in its range, or left it at this time (R279). -/
  inForce : Bool
  leftAt : Option Nat
  deriving DecidableEq, Repr

/-- An attestation request (13_bring_up_and_licences.md R337): nonce, LD, and for the steward command path the notice's
bit and the command-area offset. -/
structure AttestReq where
  nonce : List (BitVec 8)
  ld    : Nat
  cmd   : Option (Nat × Nat)
  deriving DecidableEq, Repr

/-- The steward: what its flash and its RAM hold, and the module's pins (13, 14, 15). -/
structure Steward where
  /-- Clearason runs; the recovery loader runs, for this cause. -/
  running : Bool
  recovery : Option Nat
  /-- The die has power; the module is withdrawn. -/
  die : Bool
  moduleOut : Bool
  pwrGood : Bool
  faultPin : Bool
  /-- Device time until which WAKE# is asserted (15_module_power_and_signals.md R370). -/
  wakeUntil : Nat
  clkreq : Bool
  perst : Bool
  /-- Clearason version, image bytes received by FW_UPDATE, by the recovery loader. -/
  version : Nat
  fwRam : Sparse (BitVec 8)
  recImage : List (BitVec 8)
  licence : Option Licence
  licPending : Option Licence
  /-- PW_BUDGET by partition, PW_CLK and HB_TICK_IO as flash keeps them. -/
  keepBudget : Sparse Nat
  keepClk : Nat
  keepIo : Nat
  retain : List PartId
  triggers : Sparse Trig
  /-- XMSS: next index, end of the reservation, times of the signatures of the last 24 h. -/
  idNext : Nat
  idRsv : Nat
  idTimes : List Nat
  attest : List AttestReq
  attestAt : Nat
  /-- The last attestation object. -/
  object : List (BitVec 8)
  /-- Colophon bytes by section x 2^24 + offset, in flash and accumulated in RAM; error records copied: source number,
  index in the source's ring, device time of the copy. -/
  flash : Sparse (BitVec 8)
  ram   : Sparse (BitVec 8)
  errors : List (Nat × Nat × Nat)
  /-- Error records that wait for their copy: source number, index in its ring (R356); entries written to section 0x02. -/
  colPend : List (Nat × Nat)
  colNext : Nat
  /-- Device time at which RAM counts next go to flash (14_event_recorder_and_colophon.md R355). -/
  flushDue : Nat
  lastTime : Nat
  /-- Partition resets that something other than a command asks for, with their cause codes (11_fences_resets_recovery.md,
  Table 2). -/
  resetReqs : List (PartId × Nat)
  /-- Fenced tiles, permanent units, restrictions. -/
  fenced : List Nat
  permanent : List HwUnit
  restrictions : List Restriction
  /-- DRAM rows marked for repair, repaired, beyond repair: partition, channel, row. -/
  pprMarked : List (PartId × Nat × Nat)
  pprDone : List (PartId × Nat × Nat)
  pprOut : List (PartId × Nat × Nat)
  /-- Last shutdown test passed; its device time; nothing has started since it (12_self_test_and_rotation.md R310). -/
  testPassed : Bool
  testAt : Option Nat
  testHere : Bool
  /-- Entries of the training area: channel 0 to 63, temperature band (13_bring_up_and_licences.md, Table 1, R329). -/
  savedTrain : List (Nat × Nat)
  /-- Maps at the last switch: partition x 16 + local quire to tile and 1; 8 the spare. -/
  maps : Sparse Nat
  /-- A device test is in progress (mode 1 or 0): the notice that asked, the first failing program, the last signature. -/
  devTest : Option Nat
  devNotice : Option (Nat × Nat)
  devFail : Nat
  devSig : BitVec 128
  /-- Device times of counted device resets. -/
  devResets : List Nat
  /-- Wipes in progress: partition, start, old LD. -/
  wipes : List (PartId × Nat × Nat)
  /-- An SMBus answer. -/
  smbus : List (BitVec 8)
  /-- The band of the 52 V input: 0 in rating, 1 outside, 2 fault. -/
  band : Nat
  wornDay : Nat
  /-- The last junction temperatures: two for each tile, four of the hub strip; the inlet is above 50 degrees and has not
  returned to 48 (15_module_power_and_signals.md R367). -/
  temps : List Int
  plateHot : Bool
  /-- Since when a hub sensor has been at or above 95 degrees. -/
  hub95 : Option Nat
  /-- Device time from which the monitors are read again (10_collation_and_checking.md R272). -/
  marginDue : Nat
  /-- The signed configuration store in use, and as it stood at the last shutdown test; the digest of the Clearason image
  (13_bring_up_and_licences.md R310, R325, R337). -/
  store : Store
  testStore : Store
  imageDigest : List (BitVec 8)
  /-- Resets of the last hour: scope (1 stitcher, 2 quire, 3 partition, 4 device), target (64 x tile + stitcher, tile,
  partition, 0), device time (10_collation_and_checking.md R276). -/
  resetLog : List (Nat × Nat × Nat)
  /-- Margin sweeps due at a tile's next release: tile, the unit they are for (10_collation_and_checking.md R279, R280). -/
  sweeps : List (Nat × HwUnit)
  /-- The activity bin of each tile at the last margin reading. -/
  actBins : Sparse Nat
  /-- The first failing program of the tests in progress on a tile, and its signature. -/
  tileFail : Sparse Nat
  tileSig : Sparse (BitVec 128)
  /-- Device time of each quire's last switch, and 1 (12_self_test_and_rotation.md, BT_QROT). -/
  rotAt : Sparse Nat
  /-- A device reset that has begun: the last_cause code, the requester's LD, its start (11_fences_resets_recovery.md). -/
  devReq : Option (Nat × Nat × Nat)
  /-- Spared lanes in the defect list: 2 x link + direction, lane (08_cord_mesh_and_spine.md R199). -/
  lanes : List (Nat × Nat)
  /-- Device time at which the bring-up in progress began; its path and R310 criteria stand in the registers. -/
  bootAt : Nat
  /-- Device time of the last EV_LC_ID_LOW, and 1 (13_bring_up_and_licences.md R336). -/
  idLowAt : Nat
  /-- The status word of the last DOE answer to each LD, and 1 (R337). -/
  doe : Sparse Nat
  /-- Shutdown tests run and passed, power cycles, device resets, and ticks of earlier runs by partition, for the colophon's
  summary (14_event_recorder_and_colophon.md, Table 6). -/
  testsRun : Nat
  testsPassed : Nat
  powerCycles : Nat
  devResetsAll : Nat
  ticksBefore : Sparse Nat
  firstPower : Option Nat
  deriving DecidableEq, Repr

def Steward.init : Steward :=
  { running := false, recovery := none, die := false, moduleOut := false, pwrGood := false, faultPin := false,
    wakeUntil := 0, clkreq := false, perst := true, version := 0, fwRam := [], recImage := [], licence := none,
    licPending := none, keepBudget := [], keepClk := 1, keepIo := 0x40, retain := [], triggers := [], idNext := 0,
    idRsv := 0, idTimes := [], attest := [], attestAt := 0, object := [], flash := [], ram := [], errors := [], colPend := [], colNext := 0, flushDue := 0,
    lastTime := 0, resetReqs := [], fenced := [], permanent := [], restrictions := [], pprMarked := [], pprDone := [], pprOut := [],
    testPassed := false, testAt := none, testHere := false, savedTrain := [], maps := [], devTest := none, devNotice := none, devFail := 0, devSig := 0,
    devResets := [], wipes := [], smbus := [], band := 0, wornDay := 0, temps := [], plateHot := false,
    hub95 := none, marginDue := 0, store := .empty, testStore := .empty, imageDigest := [], resetLog := [], sweeps := [], actBins := [], tileFail := [], tileSig := [], rotAt := [],
    devReq := none, lanes := [], bootAt := 0, idLowAt := 0, doe := [], testsRun := 0, testsPassed := 0, powerCycles := 0, devResetsAll := 0,
    ticksBefore := [], firstPower := none }

/-! ## Quires -/

/-- A quire's own state beside its registers. -/
structure Quire where
  /-- A tick is open at the quire: its stroke was delivered and TICKDONE has not retired (01_the_tick.md R15). -/
  open_ : Bool
  /-- Absolute partition cycle of run cycle 1 (R15). -/
  start : Nat
  /-- TICKDONE has retired in this tick (R15). -/
  done : Bool
  /-- The partition cycle at which the token of a retired TICKDONE reaches the sequencer. -/
  doneAt : Nat
  /-- The tick overran at this quire (R24); device time at its deadline. -/
  overrun : Bool
  overrunNs : Nat
  /-- The deadline in run cycles when the send-stall watchdog moved it (06_channels.md R160). -/
  deadline : Option Nat
  /-- The quire's copy of the 48-bit tick counter (08_cord_mesh_and_spine.md R211). -/
  tick : Nat
  /-- Slip used in the tick (R30). -/
  slip : Nat
  corrections : Nat
  seam : Nat
  tipin : Nat
  inherited : Nat
  inheritPauses : Nat
  /-- The positions of the tick at which an inherited pause has stood (06_channels.md R155). -/
  inheritAt : List Nat
  /-- Late-page stall cycles and late pages in the tick (R29). -/
  latePage : Nat
  latePages : Nat
  creditStall : Nat
  powerCap : Nat
  refusedStall : Nat
  /-- Late-in-transit cycles and units of the tick (08_cord_mesh_and_spine.md R200). -/
  transit : Nat
  transitUnits : Nat
  /-- The position of the latest END of a firing in the tick (R108). -/
  lastEnd : Nat
  /-- Kettle re-centrings and map switches waiting to be charged to the next tick (01_the_tick.md, Table 6). -/
  seamDue : Nat
  tipinDue : Nat
  /-- Orphans discarded since the last TICKDONE: count, and the first one's stitcher, port and tag (06_channels.md R161). -/
  orphans : Nat
  firstOrphan : Option (Nat × Nat × Nat)
  /-- The tick's orphans have been recorded. -/
  orphanNoted : Bool
  /-- From a firing fault to the tick's end the network interface discards the quire's messages (04_stitchers.md R115). -/
  discarding : Bool
  /-- Flush under FAIL in progress (01_the_tick.md R25): the partition cycle by which it must end. -/
  flushBy : Option Nat
  /-- In quire reset (11_fences_resets_recovery.md R287). -/
  inReset : Bool
  resetEnd : Nat
  /-- Device time at which the quire reset or tile power cycle began, its cause code, and which of the two it is. -/
  resetFrom : Nat
  resetCause : Nat
  cycling : Bool
  /-- Leaf contents, 128 MiB (05_leaf_store.md R117). -/
  leaf : Sparse (BitVec 8)
  /-- Bit errors of leaf segments by segment number: 1 correctable, 2 uncorrectable or poisoned, 3 misdirected,
  4 beyond what the code detects (R120). -/
  leafMark : Sparse Nat
  /-- Bands whose zero-fill has not ended (R124). -/
  filling : List Nat
  /-- The partition cycle at which the first of them ends (R124). -/
  fillAt : Nat
  ops : List LeafOp
  wbuf : List HeldWrite
  /-- Row writes that wait for a place in the write buffer, in order of arrival (R128). -/
  wwait : List HeldWrite
  /-- Shared-port accesses by position; banks by position x 256 + bank: taken by an access of a rank of Table 4 (the rank and
  1), or held for a merge (1) (R125 to R127). -/
  portBusy : Sparse Nat
  bankBusy : Sparse Nat
  /-- The positions of the tick at which a weight correction has paused the quire (R121). -/
  fixAt : List Nat
  /-- The scrubber: its pass is running, when it started (device ns), the next start due, rows to write back, and digest
  regions torn or met uncorrectable in the pass as bit masks, with the region set the pass works on (R133 to R135). -/
  scrubOn : Bool
  scrubStart : Nat
  scrubDue : Nat
  writeBack : Option WriteBack
  /-- The pass has read its last row; a start fell due while it ran (R134); the partition cycle of the scrubber's next
  read at the earliest (R133). -/
  scrubEnd : Bool
  scrubLate : Bool
  scrubNext : Nat
  regionTorn : Nat
  regionUncorr : Nat
  regions : List (Nat × Nat)
  pa : Press
  pb : Press
  /-- The vote in progress, then those that wait (R83). -/
  votes : List Vote
  /-- The position of the last judgement (R83). -/
  voteEnd : Nat
  /-- The release mode and the check column as PS_MODE stood at the last stroke (R79). -/
  behind : Bool
  checkOn : Bool
  /-- Check-behind: the tile window that closes last, the release positions of the tick's tiles, and messages in the
  outbound hold (03_presses.md R79). -/
  windowClose : Nat
  releases : List Nat
  holding : List HeldOut
  /-- Writes toward result slots on their way to the store, in the order performed (R246). -/
  forwards : List Fwd
  /-- A check-behind mismatch was found at this position, after which the hold discards (R84). -/
  behindFail : Option Nat
  /-- Ring messages sent per channel entry since the epoch began (06_channels.md, Table 2, `seq`). -/
  ringSeq : Sparse Nat
  /-- The sender's count of ring units written per entry: where the next record starts (R147). -/
  ringPos : Sparse Nat
  /-- Entries aborted at a fence until a reconfiguration (R157). -/
  aborted : List Nat
  /-- Position of the last credit return per entry (R156). -/
  creditAt : Sparse Nat
  /-- Position at which a place was last freed: 0 outbound hold, 1 and 2 the queues of PA and PB, 3 leaf operation queue,
  4 hint queue. -/
  freedAt : Sparse Nat
  /-- The quire pauses at this due position for late pages (07_catchword_paging.md R179). -/
  duePause : Option Nat
  /-- A rotation copies the quire's weight bands: the cycles in which the copy begins and ends, until the switch; the bands
  written since their copy (12_self_test_and_rotation.md R312, R313). -/
  copying : Option (Nat × Nat)
  dirty : List Nat
  deriving DecidableEq, Repr

def Quire.init : Quire :=
  { open_ := false, start := 0, done := false, doneAt := 0, overrun := false, overrunNs := 0, deadline := none, tick := 0, slip := 0,
    corrections := 0, seam := 0, tipin := 0, inherited := 0, inheritPauses := 0, inheritAt := [], latePage := 0, latePages := 0,
    creditStall := 0, powerCap := 0, refusedStall := 0, transit := 0, transitUnits := 0, lastEnd := 0, seamDue := 0,
    tipinDue := 0, orphans := 0, firstOrphan := none, orphanNoted := false, discarding := false, flushBy := none, inReset := false,
    resetEnd := 0, resetFrom := 0, resetCause := 0, cycling := false, leaf := [], leafMark := [], filling := [], fillAt := 0, ops := [], wbuf := [],
    wwait := [], portBusy := [], bankBusy := [], fixAt := [],
    scrubOn := false, scrubStart := 0, scrubDue := 0, writeBack := none, scrubEnd := false, scrubLate := false, scrubNext := 0,
    regionTorn := 0, regionUncorr := 0,
    regions := [], pa := .init, pb := .init, votes := [], voteEnd := 0, behind := false, checkOn := true, windowClose := 0, releases := [], holding := [], forwards := [], behindFail := none,
    ringSeq := [], ringPos := [], aborted := [], creditAt := [], freedAt := [], duePause := none, copying := none, dirty := [] }

/-! ## Partitions -/

/-- Why the hardware or the steward holds a partition's strokes, beside TK_CTRL.hold (01_the_tick.md R27). -/
inductive HoldCause where
  | clockStep | critical | clockMonitor | rotation | mapSwitch | testWindow | reconf | load | halfMove | laneSpare
  | quireReset | recovery
  deriving DecidableEq, Repr

/-- A partition's own state beside its registers. -/
structure Part where
  /-- The partition's cycle count and what has passed since its last cycle, in thousandths of a unit of 125 ps
  (00_scope.md R13). -/
  cyc : Nat
  sub : Nat
  /-- A frame is open; the cycle of its stroke (01_the_tick.md R16). -/
  frameOpen : Bool
  strokeAt : Nat
  /-- A stroke has been issued since start. -/
  struck : Bool
  /-- TIMED: the cycle of the next grid point (R21). -/
  gridAt : Nat
  /-- A grid point is deferred (R21). -/
  gridLate : Bool
  pendStrike : Bool
  pendEdge : Bool
  /-- The cycle in which the stroke of a strike issues, 2 cycles after the strike (R19, Table 3). -/
  strikeDue : Option Nat
  /-- The pending strike has waited for spacing only (R19). -/
  spaceOnly : Bool
  /-- A stop was written: the generator stops after the frame (R17). -/
  stopping : Bool
  /-- Holds by the hardware and the steward. -/
  holds : List HoldCause
  /-- The open tick carries the late flag; it failed; its results are published. -/
  late : Bool
  failed : Bool
  /-- The partition cycle in which the open tick first failed. -/
  failAt : Nat
  /-- Result headers of the open tick that are still to be written, in their order (09_host_attachment.md R248). -/
  pubs : List PubHeader
  published : Bool
  /-- Local quires whose tick-done token has arrived, as a mask, and the cycle the last one arrived. -/
  doneMask : Nat
  /-- Local quires that the open tick waits for, as a mask. -/
  waitMask : Nat
  doneAt : Nat
  /-- The next stroke carries the late flag (R20, R21, R24). -/
  lateNext : Bool
  /-- Hint entries in order of acceptance, and the number of the next one (07_catchword_paging.md R176). -/
  hints : List Hint
  hintId : Nat
  /-- When the drain in progress began, in device ns (06_channels.md R162). -/
  drainAt : Nat
  /-- The epochs that a drain left behind in doubt (06_channels.md R163). -/
  unsureEpochs : List Nat
  /-- Upload writes that wait behind pager operations (R186). -/
  uploads : List Upload
  /-- Inbox rings by number, INTAKE messages and due tokens of the open tick (09_host_attachment.md). -/
  rings : Sparse InRing
  intakes : List Intake
  dueToks : List DueTok
  /-- Result slots by number, and the result area, 1 MiB. -/
  slots : Sparse SlotSt
  result : Sparse (BitVec 8)
  /-- Strokes are held for a full result ring (R251). -/
  ringFull : Bool
  /-- Device time of the stroke, and the partition cycle at which PUBLISH ends and the frame closes, once known. -/
  strokeNs : Nat
  closeAt : Option Nat
  /-- Stroke messages of the tick that have reached their quires, as a mask. -/
  strokeMask : Nat
  /-- Quires in which a flush resets stitchers; the deadline has passed for the partition. -/
  overran : Bool
  /-- Local quires that have overrun the open tick, as a mask. -/
  overMask : Nat
  load : Option Load
  /-- The last image loaded without failure. -/
  image : Option Image
  recovery : Option Recovery
  /-- Device times of counted partition resets. -/
  resetTimes : List Nat
  rot : Option Rotation
  rotDue : Nat
  /-- Device time since which the due rotation has been postponed. -/
  rotSince : Option Nat
  /-- Quires that TEST_QUIRE moved to the head of the rotation order, with its notice: LD and bit (R317). -/
  rotWant : List (QuireId × Nat × Nat)
  /-- Quires whose tile was judged permanent and whose spare is to be tipped in: quire, failed tile, device time of the
  judgement (R316). -/
  tipins : List (QuireId × Nat × Nat)
  /-- Device time at which the hold-off ends; device time at which the test window ends. -/
  holdoff : Nat
  window : Option Nat
  /-- Held quire tests: quire and notice (LD, bit), and the head of the rotation order asked for (R317). -/
  heldTests : List (QuireId × Nat × Nat)
  md : Option MdRun
  /-- The partition cycle in which the power cap engaged; the partition's own cap condition holds (R366). -/
  capAt : Option Nat
  capOwn : Bool
  /-- The budget in force since the last frame (15_module_power_and_signals.md R365). -/
  budget : Nat
  /-- The partition is asleep in self-refresh or its channels train: ring records are staged (R351). -/
  memAsleep : Bool
  /-- `shielded` as last evaluated; the steward has brought the partition up (10_collation_and_checking.md R264, R282). -/
  broughtUp : Bool
  deriving DecidableEq, Repr

def Part.init : Part :=
  { cyc := 0, sub := 0, frameOpen := false, strokeAt := 0, struck := false, gridAt := 0, gridLate := false,
    pendStrike := false, pendEdge := false, strikeDue := none, spaceOnly := false, stopping := false, holds := [], late := false,
    failed := false, failAt := 0, pubs := [], published := false, doneMask := 0, waitMask := 0, doneAt := 0, lateNext := false, hints := [], hintId := 0,
    drainAt := 0, unsureEpochs := [], uploads := [], rings := [], intakes := [], dueToks := [], slots := [], result := [], ringFull := false,
    strokeNs := 0, closeAt := none, strokeMask := 0, overran := false, overMask := 0, load := none, image := none, recovery := none,
    resetTimes := [], rot := none, rotDue := 0, rotSince := none, rotWant := [], tipins := [], holdoff := 0, window := none, heldTests := [],
    md := none, capAt := none, capOwn := false, budget := 300, memAsleep := false, broughtUp := false }

/-- The state of the block. -/
structure State where
  /-- The commands that wait, first in, first out. -/
  pending : List Instr
  /-- Time in units of 125 ps since the block was powered (00_scope.md R13). -/
  now : Nat
  /-- Device time in ns is this base and the units passed since power-on (14_event_recorder_and_colophon.md R342). -/
  timeBase : Nat
  /-- The model's own counter of the free values used. -/
  freeCount : Nat
  /-- The register file by BAR0 byte address; an unlisted register reads as its reset value (00_scope.md R9, R10). -/
  regs : Sparse (BitVec 32)
  /-- The HI words latched by a read of LO, per reader and counter (00_scope.md R10). -/
  latches : Sparse (BitVec 32)
  stitchers : Sparse Stitcher
  quires : Sparse Quire
  parts : Sparse Part
  /-- Messages in flight, oldest first (06_channels.md R154). -/
  flights : List Flight
  /-- Credits in flight, oldest first (R156). -/
  creditFlights : List CreditFlight
  /-- What the recorder keeps for its sources: hub 0, steward 1, partition n at 2 + n, quire q at 6 + q. -/
  srcs : Sparse SrcSt
  /-- Partition memory: byte p x 2^38 + PMA (07_catchword_paging.md R167). -/
  mem : Sparse (BitVec 8)
  /-- Bit errors of 32-byte data words of partition memory, by p x 2^33 + word: 1 single-bit, 2 double-bit (R168). -/
  memMark : Sparse Nat
  /-- The owner's additions to the trigger table by event code (14_event_recorder_and_colophon.md R347). -/
  triggers : Sparse Trig
  /-- The tile that carries each correction tracker: tile to its entries, oldest first (05_leaf_store.md R137). -/
  trackers : Sparse (List Track)
  /-- Charges against units, oldest first, as the steward keeps them (10_collation_and_checking.md R275). -/
  charges : List Charge
  /-- Margin monitors by 4 x tile + monitor: the last second's droop and slack, trips since device reset, and whether it
  has tripped and not cleared (10_collation_and_checking.md R272, R273). -/
  mgn : Sparse (Nat × Nat × Nat × Bool)
  /-- Single-bit errors corrected in partition memory: partition, channel, row, device time (R278). -/
  dramFixes : List (Nat × Nat × Nat × Nat)
  /-- Spare rows in use per tile and bank (tile x 256 + bank), and the applied remaps as (tile, bank, row, spare)
  (R136, R138). -/
  sparesUsed : Sparse Nat
  remaps : List (Nat × Nat × Nat × Nat)
  /-- Notices that have not completed, and completions that wait to be written, oldest first (09_host_attachment.md). -/
  notices : List Notice
  comps : List Completion
  /-- Control pages by LD x 4,096 + offset, command areas by LD x 65,536 + offset, BAR2 of each LD by LD x 16,384 +
  offset. -/
  ctlPage : Sparse (BitVec 8)
  cmdArea : Sparse (BitVec 8)
  bar2 : Sparse (BitVec 8)
  /-- MSI-X messages sent, counted by LD x 64 + vector. -/
  msix : Sparse Nat
  extents : List Extent
  /-- The snoop filter: LD and line number of its window, oldest first; back-invalidates on their way (R227). -/
  filter : List (Nat × Nat)
  snoops : List (Nat × Nat)
  /-- Host reads that wait for a back-invalidate, oldest first: LD, line of its window. -/
  readWait : List (Nat × Nat)
  /-- The bytes of the last host read's answer. -/
  hostData : List (BitVec 8)
  /-- Cord links by 2 x number + direction. -/
  links : Sparse LinkSt
  /-- Spine messages that wait for their ACK; the next `seq` to send by 8 x stop + class; the answers of register reads:
  2^28 x the reader's word + address, and the value. -/
  spine : List SpMsg
  spNext : Sparse Nat
  regAns : List (Nat × BitVec 32)
  halfChg : Sparse (Option HalfChange)
  thermal : Sparse Thermal
  /-- The staging buffer with each record's source number (14_event_recorder_and_colophon.md R351). -/
  staging : List (Nat × EvRec)
  /-- Device time of the last EV_REC_LOST for staging losses, and the losses since; the device time of the recorder core's
  next slot (R343). -/
  stageLostAt : Option Nat
  stageLostN : Nat
  recNext : Nat
  /-- The maps that network interfaces and stops hold: 4 x stop + partition to the words of MS_MAP0 to 7 and MS_SPARE
  (08_cord_mesh_and_spine.md R203, R204). -/
  mapCopies : Sparse (List (BitVec 32))
  /-- By partition, the map that its last broadcast replaced (R210). -/
  mapBefore : Sparse (List (BitVec 32))
  /-- Test runs going and waiting, in order of request (12_self_test_and_rotation.md R306); last result by tile: program,
  verdict, device time, signature. -/
  runs : List TestRun
  tested : Sparse (Nat × Nat × Nat × BitVec 128)
  /-- TICK_OUT drives a pulse until this time in units of 125 ps; a write of HB_TICK_IO that waits for it
  (15_module_power_and_signals.md R374). -/
  pulseEnd : Nat
  ioNext : Option (BitVec 32)
  /-- The filtered level of TICK_IN. -/
  tickIn : Bool
  stew : Steward
  deriving DecidableEq, Repr

/-- The machine right after reset: no power-on has been made, every register at its reset value, nothing listed in
memory, nothing in flight. -/
def State.reset : State :=
  { pending := [], now := 0, timeBase := 0, freeCount := 0, regs := [], latches := [], stitchers := [], quires := [],
    parts := [], flights := [], creditFlights := [], srcs := [], mem := [], memMark := [], triggers := [], trackers := [],
    charges := [], mgn := [], dramFixes := [], sparesUsed := [], remaps := [], notices := [], comps := [], ctlPage := [], cmdArea := [], bar2 := [],
    msix := [], extents := [], filter := [], snoops := [], readWait := [], hostData := [], links := [], spine := [],
    spNext := [], regAns := [], halfChg := [], thermal := [], staging := [], stageLostAt := none, stageLostN := 0, recNext := 0, mapCopies := [], mapBefore := [], runs := [],
    tested := [], pulseEnd := 0, ioNext := none, tickIn := false, stew := .init }

end Sys2Proof.Machine
end

