-- ==== Sys2Proof/Machine/Regs.lean ====
section
/-! DEFINITION. The units of the block by number, the register file and its fields, and time. -/

namespace Sys2Proof.Machine

/-! The blocks of BAR0 (00_scope.md R9, Table 7). -/

/-- The hub block. -/
def hub : Nat := 0

/-- The control block of partition `p`. -/
def pt (p : PartId) : Nat := 0x1000000 * (p.val + 1)

/-- The partition of a quire. -/
def partOf (q : QuireId) : PartId := ⟨q.val / 8, by omega⟩

/-- The local number of a quire in its partition. -/
def localOf (q : QuireId) : Nat := q.val % 8

/-- Local quire `i` of partition `p`. -/
def quireOf (p : PartId) (i : Nat) : QuireId := ⟨8 * p.val + i % 8, by omega⟩

/-- The block of a quire. -/
def qb (q : QuireId) : Nat := pt (partOf q) + 0x800000 + 0x10000 * localOf q

/-- The registers of a stitcher (04_stitchers.md, "Registers, per stitcher"). -/
def sb (u : StId) : Nat := qb u.quire + 0x1000 + 0x100 * u.st.val

/-- Channel entry `e` of a quire (06_channels.md, "Registers, channel table"). -/
def eb (q : QuireId) (e : Nat) : Nat := qb q + 0x6000 + 16 * (e % 256)

/-- Landing ring `r` of a quire (06_channels.md, "Registers, landing rings"). -/
def rb_ (q : QuireId) (r : Nat) : Nat := qb q + 0x7000 + 16 * (r % 16)

/-- Digest region `r` of a quire (05_leaf_store.md, "Registers, digest regions"). -/
def db (q : QuireId) (r : Nat) : Nat := qb q + 0x5000 + 0x40 * (r % 8)

/-- Page table `t` of a partition (07_catchword_paging.md, "Registers, page tables"). -/
def tb (p : PartId) (t : Nat) : Nat := pt p + 0x1000 + 0x20 * (t % 64)

/-- Inbox ring `r` of a partition (09_host_attachment.md). -/
def ib (p : PartId) (r : Nat) : Nat := pt p + 0x640 + 0x20 * (r % 4)

/-- Result slot `k` of a partition (09_host_attachment.md). -/
def lb (p : PartId) (k : Nat) : Nat := pt p + 0x2000 + 0x10 * (k % 32)

/-! Units of the state. -/

def State.st (s : State) (u : StId) : Stitcher := spGet .init s.stitchers u.key
def State.setSt (s : State) (u : StId) (x : Stitcher) : State :=
  { s with stitchers := spSet .init s.stitchers u.key x }
def State.updSt (s : State) (u : StId) (f : Stitcher → Stitcher) : State := s.setSt u (f (s.st u))

def State.qu (s : State) (q : QuireId) : Quire := spGet .init s.quires q.val
def State.setQu (s : State) (q : QuireId) (x : Quire) : State :=
  { s with quires := spSet .init s.quires q.val x }
def State.updQu (s : State) (q : QuireId) (f : Quire → Quire) : State := s.setQu q (f (s.qu q))

def State.part (s : State) (p : PartId) : Part := spGet .init s.parts p.val
def State.setPart (s : State) (p : PartId) (x : Part) : State :=
  { s with parts := spSet .init s.parts p.val x }
def State.updPart (s : State) (p : PartId) (f : Part → Part) : State := s.setPart p (f (s.part p))

/-- The number of an event source. -/
def Src.key : Src → Nat
  | .hub => 0
  | .steward => 1
  | .part p => 2 + p.val
  | .quire q => 6 + q.val

def State.src (s : State) (x : Src) : SrcSt := spGet .init s.srcs x.key
def State.setSrc (s : State) (x : Src) (v : SrcSt) : State := { s with srcs := spSet .init s.srcs x.key v }
def State.updSrc (s : State) (x : Src) (f : SrcSt → SrcSt) : State := s.setSrc x (f (s.src x))

/-! Registers. -/

/-- The register of the block at `base`. -/
def State.rd (s : State) (base : Nat) (r : Reg) : BitVec 32 := spGet r.rst s.regs (base + r.off)

def State.wr (s : State) (base : Nat) (r : Reg) (v : BitVec 32) : State :=
  { s with regs := spSet r.rst s.regs (base + r.off) v }

/-- The field's value in a word. -/
def Fld.get (f : Fld) (w : BitVec 32) : Nat := w.toNat / 2 ^ f.lo % 2 ^ f.w

/-- The word with the field at `v`, cut to the field's width. -/
def Fld.put (f : Fld) (w : BitVec 32) (v : Nat) : BitVec 32 :=
  BitVec.ofNat 32 (w.toNat % 2 ^ f.lo + v % 2 ^ f.w * 2 ^ f.lo + w.toNat / 2 ^ (f.lo + f.w) * 2 ^ (f.lo + f.w))

/-- A field of the block at `base`. -/
def State.f (s : State) (base : Nat) (f : Fld) : Nat := f.get (s.rd base f.reg)

def State.setF (s : State) (base : Nat) (f : Fld) (v : Nat) : State := s.wr base f.reg (f.put (s.rd base f.reg) v)

/-- A saturating counter field, `n` more. -/
def State.incF (s : State) (base : Nat) (f : Fld) (n : Nat := 1) : State :=
  s.setF base f (min (2 ^ f.w - 1) (s.f base f + n))

/-- A 64-bit counter in a LO and a HI register. -/
def State.cnt (s : State) (base : Nat) (lo hi : Reg) : Nat := (s.rd base lo).toNat + 2 ^ 32 * (s.rd base hi).toNat

def State.setCnt (s : State) (base : Nat) (lo hi : Reg) (v : Nat) : State :=
  (s.wr base lo (BitVec.ofNat 32 v)).wr base hi (BitVec.ofNat 32 (v / 2 ^ 32))

/-- One of two registers or fields, by press. -/
def byPress {α : Type} (x : PressId) (a b : α) : α := if x then b else a

/-- The register tables with their blocks' sizes, for a plain access by address (00_scope.md R9, Table 7). -/
def findAcc (t : List RegAcc) (off : Nat) : Option RegAcc :=
  t.find? (fun a => decide (a.off ≤ off) && decide (off < a.off + 4 * a.count) && decide ((off - a.off) % 4 = 0))

/-- The access row of a BAR0 byte address, where a register stands there. -/
def accOf (addr : Nat) : Option RegAcc :=
  if addr % 4 ≠ 0 then none
  else if addr < 0x1000000 then findAcc accTable.hub addr
  else if 0x5000000 ≤ addr then none
  else
    let o := addr % 0x1000000
    if o < 0x800000 then
      if 0x640 ≤ o ∧ o < 0x6C0 then findAcc accTable.inbox ((o - 0x640) % 0x20)
      else if 0x1000 ≤ o ∧ o < 0x1800 then findAcc accTable.table ((o - 0x1000) % 0x20)
      else if 0x2000 ≤ o ∧ o < 0x2200 then findAcc accTable.slot ((o - 0x2000) % 0x10)
      else findAcc accTable.part o
    else if 0x880000 ≤ o then none
    else
      let x := o % 0x10000
      if 0x1000 ≤ x ∧ x < 0x5000 then findAcc accTable.stit ((x - 0x1000) % 0x100)
      else if 0x5000 ≤ x ∧ x < 0x5200 then findAcc accTable.dreg ((x - 0x5000) % 0x40)
      else if 0x6000 ≤ x ∧ x < 0x7000 then findAcc accTable.entry ((x - 0x6000) % 16)
      else if 0x7000 ≤ x ∧ x < 0x7100 then findAcc accTable.ring ((x - 0x7000) % 16)
      else findAcc accTable.quire x

/-- The stored word of a register by address. -/
def State.rdAddr (s : State) (a : RegAcc) (addr : Nat) : BitVec 32 := spGet a.rst s.regs addr

def State.wrAddr (s : State) (a : RegAcc) (addr : Nat) (v : BitVec 32) : State :=
  { s with regs := spSet a.rst s.regs addr v }

/-- The latches of the HI words from address `lo` up to `hi` read zero (00_scope.md R10). -/
def State.clearLatches (s : State) (lo hi : Nat) : State :=
  { s with latches := s.latches.filter (fun c => !(decide (lo ≤ c.1 % 2 ^ 28) && decide (c.1 % 2 ^ 28 < hi))) }

/-- Every register from address `lo` up to `hi` at its reset value. -/
def State.clearRegs (s : State) (lo hi : Nat) : State :=
  ({ s with regs := s.regs.filter (fun c => !(decide (lo ≤ c.1) && decide (c.1 < hi))) }).clearLatches lo hi

/-- The word of HB_TICK_IO with its writable bits written (15_module_power_and_signals.md). -/
def tickIoWord (old v : BitVec 32) : BitVec 32 := (old &&& 0xFFFFF000#32) ||| (v &&& 0x00000FFF#32)

/-! Time (00_scope.md R13, 14_event_recorder_and_colophon.md R342). -/

/-- Device time in ns. -/
def State.ns (s : State) : Nat := s.timeBase + s.now / 8

/-- The units of 125 ps in one cycle of a partition's clock, from TK_STATUS.clock: 2.0, 1.6, 1.0 GHz and 250 MHz
(01_the_tick.md, TK_STATUS). -/
def State.period (s : State) (p : PartId) : Nat :=
  match s.f (pt p) F.TK_STATUS_clock with
  | 0 => 4
  | 1 => 5
  | 2 => 8
  | _ => 32

/-- The half of a partition: PT0 and PT2 west, PT1 and PT3 east (00_scope.md, Table 2). -/
def halfOf (p : PartId) : Half := decide (p.val % 2 = 1)

/-- The field of MS_HALF that shows a half's state. -/
def halfFld (h : Half) : Fld := if h then F.MS_HALF_east else F.MS_HALF_west

/-- The partition's quire clocks are stopped (08_cord_mesh_and_spine.md R216). -/
def State.clockStopped (s : State) (p : PartId) : Bool := decide (s.f hub (halfFld (halfOf p)) = 2)

def State.therm (s : State) (h : Half) : Thermal := spGet .init s.thermal (if h then 1 else 0)
def State.updTherm (s : State) (h : Half) (f : Thermal → Thermal) : State :=
  { s with thermal := spUpd .init s.thermal (if h then 1 else 0) f }

/-- The clock of a half is spread: PW_CLK.spread, but for a change of it that still waits for its clock step
(15_module_power_and_signals.md R375). -/
def State.spreadOn (s : State) (h : Half) : Bool := decide (s.f hub F.PW_CLK_spread = 1) != (s.therm h).spread

def allParts : List PartId := [0, 1, 2, 3]

/-- A margin monitor of the half is tripped: its clock generator stretches its cycles until the monitor clears
(10_collation_and_checking.md R273). Columns 3 to 5 are the east half's. -/
def State.stretched (s : State) (h : Half) : Bool :=
  s.mgn.any (fun c => c.2.2.2.2 && (decide (3 ≤ c.1 / 4 % 6) == h))

/-- By how much a half's clock may fall behind its nominal rate in `n` units of time, in thousandths of a unit: by 0.5% while
it is spread, by any amount while it is stretched, which the spec does not bound. -/
def State.lagBound (s : State) (h : Half) (n : Nat) : Nat :=
  if s.stretched h then 1000 * n else if s.spreadOn h then 5 * n else 0

/-- `n` units of time pass for a partition's clock: how far a spread or stretched clock falls behind is a free value
(00_scope.md R13, 15_module_power_and_signals.md R375). -/
def State.advPart (s : State) (n : Nat) (p : PartId) : State :=
  if s.clockStopped p then s
  else
    let bound := s.lagBound (halfOf p) n
    let lag := if bound = 0 then 0 else (Config.freeBits s.freeCount p.val 64).toNat % (bound + 1)
    s.updPart p (fun x =>
      let u := x.sub + 1000 * n - lag
      { x with cyc := x.cyc + u / (1000 * s.period p), sub := u % (1000 * s.period p) })

/-- `n` units of time pass. -/
def State.advance (s : State) (n : Nat) : State :=
  let s := allParts.foldl (fun t p => t.advPart n p) { s with now := s.now + n }
  { s with freeCount := s.freeCount + 1 }

/-- Lets time pass until partition `p` is in cycle `c` or later: a timed event commanded before it is due waits for
its own time (DESIGN CHOICE). How long that takes of a spread clock is free within its 0.5%, and of a stretched one free. -/
def State.waitCycle (s : State) (p : PartId) (c : Nat) : State :=
  if c ≤ (s.part p).cyc ∨ s.clockStopped p then s
  else
    let h := halfOf p
    let d := (c - (s.part p).cyc) * (1000 * s.period p) - (s.part p).sub
    let least := (d + 999) / 1000
    let more := (Config.freeBits s.freeCount 4 64).toNat
    let n := if s.stretched h then least + more
      else if s.spreadOn h then least + more % ((d + 994) / 995 - least + 1)
      else least
    let own := if s.stretched h then d else if s.spreadOn h then max d (995 * n) else 1000 * n
    (s.advance n).updPart p (fun x => { x with cyc := c, sub := own - d })

/-- Lets time pass until device time is `t` ns or later (DESIGN CHOICE, as for `waitCycle`). -/
def State.waitNs (s : State) (t : Nat) : State :=
  if t ≤ s.ns then s else s.advance (8 * (t - s.timeBase) - s.now)

/-! Free values: the value the model's counter names, never seen by a proof. -/

/-- The state after one free value has been used. -/
def State.useFree (s : State) : State := { s with freeCount := s.freeCount + 1 }

end Sys2Proof.Machine
end

