-- ==== Sys2Proof/Machine/RegRead.lean ====
section
/-! DEFINITION. What a read of a register shows: the stored word, or a view of the unit's state where the register
shows one (00_scope.md R9, R10 and the register tables). -/

namespace Sys2Proof.Machine

/-- ST_STATUS.state (04_stitchers.md, "Registers, per stitcher"). -/
def Stitcher.stateCode (x : Stitcher) : Nat :=
  if x.inReset then 6
  else if x.stopped then 7
  else match x.stall with
    | some st => st.state
    | none => if x.firing.isSome then 1 else 0

/-- A mask of the 64 stitchers of a quire, by a field of their ST_STATUS. -/
def State.stMask (s : State) (q : QuireId) (f : Fld) : Nat :=
  (List.finRange 64).foldl (fun m i => m + s.f (sb ⟨q, i⟩) f * 2 ^ i.val) 0

/-- The word of a stitcher's program memory. -/
def Stitcher.progWord (x : Stitcher) (a : Nat) : BitVec 32 := spGet 0 x.prog (a % 1024)

/-- A little-endian word of pocket memory. -/
def Stitcher.pocketWord (x : Stitcher) (a : Nat) : BitVec 32 := BitVec.ofNat 32 (leNat (memRead x.pocket a 4))

/-- Words in receive queue `n`. -/
def Stitcher.qlen (x : Stitcher) (n : Nat) : Nat := (spGet [] x.queues n).length

/-- The correction tracker of the tile that carries a quire (05_leaf_store.md R137). -/
def State.tileOf (s : State) (q : QuireId) : Nat := s.f (pt (partOf q)) (F.MS_MAP_tile.nth (localOf q))

def State.tracker (s : State) (q : QuireId) : List Track := spGet [] s.trackers (s.tileOf q)

/-- Messages and credits in flight to or from partition `p` that carry epoch `e` (06_channels.md, CH_INFLIGHT). -/
def State.inflight (s : State) (p : PartId) (e : Nat) : Nat :=
  (s.flights.filter (fun m => decide (m.epoch = e) && (decide (partOf m.src = p) || decide (partOf m.dst = p)))).length
  + (s.creditFlights.filter (fun c => decide (c.epoch = e) &&
      (decide (partOf c.src = p) || decide (partOf c.from_ = p)))).length

/-- What a register of a stitcher's block shows. -/
def State.viewStitcher (s : State) (u : StId) (off : Nat) (w : BitVec 32) : BitVec 32 :=
  let x := s.st u
  if off = R.ST_STATUS.off then F.ST_STATUS_state.put w x.stateCode
  else if off = R.ST_MATCH.off then F.ST_MATCH_now.put w x.store.length
  else if off = R.CH_QSTAT.off then
    BitVec.ofNat 32 (x.qlen 0 + 2 ^ 8 * x.qlen 1 + 2 ^ 16 * x.qlen 2 + 2 ^ 24 * x.qlen 3)
  else w

/-- What a press status register shows (03_presses.md, PS_STATUS). -/
def Press.view (x : Press) (w : BitVec 32) : BitVec 32 :=
  F.PS_STATUS_PA_frozen.put (F.PS_STATUS_PA_queued.put (F.PS_STATUS_PA_busy.put w (if x.run.isSome then 1 else 0))
    x.queue.length) (if x.frozen then 1 else 0)

/-- LF_TRACK of a tracker entry (05_leaf_store.md). -/
def Track.word (t : Track) : BitVec 32 :=
  BitVec.ofNat 32 (t.bank + 2 ^ 8 * t.row + 2 ^ 18 * min t.count 15 + 2 ^ 22 * (if t.pending then 1 else 0)
    + 2 ^ 23 * (if t.weight then 1 else 0) + 2 ^ 24)

/-- The physical tile a unit belongs to. -/
def HwUnit.tile? : HwUnit → Option Nat
  | .pressArray t _ => some t
  | .pressCheck t _ => some t
  | .tile t => some t
  | .stitcher t _ => some t
  | .leafRow t _ _ => some t
  | .leafBank t _ => some t
  | .network t => some t
  | .dramRow .. => none
  | .link _ => none
  | .spineLink _ => none
  | .clock _ => none

/-- Whole hours since a device time, saturating at 16 bits. -/
def State.hoursSince (s : State) (t : Nat) : Nat := min 65535 ((s.ns - t) / 3600000000000)

/-- Charges to units of a tile: the watches of droop trips charge none (10_collation_and_checking.md R275, Table 6). -/
def State.chargesOf (s : State) (tile : Nat) : List Charge :=
  s.charges.filter (fun c => decide (c.unit.tile? = some tile) && decide (c.code ≠ Ev.IN_DROOP))

/-- 30 days in ns. -/
def month : Nat := 2592000000000000

/-- IN_UNIT of the tile that carries a quire (R282). -/
def State.inUnitWord (s : State) (q : QuireId) : Nat :=
  let t := s.tileOf q
  let l := s.chargesOf t
  if (s.part (partOf q)).broughtUp = false then 0
  else min 255 l.length +
    (if l.any (fun c => !c.resolved && decide (s.ns < c.time + month)) then 2 ^ 8 else 0) +
    (if s.stew.restrictions.any (fun r => decide (F.IN_RESTRICT_tile.get r.word = t) &&
        decide (F.IN_RESTRICT_valid.get r.word = 1)) then 2 ^ 9 else 0)

/-! What the pager's registers show (07_catchword_paging.md R176, R182, R188). -/

/-- Bit 30 of a hint entry: a page-out (Table 3). -/
def Hint.isOut (h : Hint) : Bool := decide (h.word / 2 ^ 30 % 2 = 1)

/-- Entries in a quire's hint queue (R176). -/
def State.hintQueue (s : State) (q : QuireId) : Nat :=
  ((s.part (partOf q)).hints.filter (fun h => decide (h.owner = q) && !h.freed)).length

/-- The 256-byte memory operations of a page that are outstanding: those whose data have not been handed on (R182). -/
def Hint.operations (h : Hint) : Nat :=
  if h.phase == .moving then (if h.isOut then h.size else h.size - h.moved) / 256 else 0

/-- The memory operations outstanding of a partition; they spread evenly over its 16 channels (R167, R182). -/
def State.outstanding (s : State) (p : PartId) : Nat := ((s.part p).hints.map Hint.operations).foldl (· + ·) 0

/-- Entries in the hint queues of a partition. -/
def State.hintsQueued (s : State) (p : PartId) : Nat := ((s.part p).hints.filter (fun h => !h.freed)).length

/-- Upload writes accepted and not landed. -/
def State.uploadPending (s : State) (p : PartId) : Bool :=
  !(s.part p).uploads.isEmpty ||
    (List.range 8).any (fun i => ((s.qu (quireOf p i)).wbuf ++ (s.qu (quireOf p i)).wwait).any (fun w => decide (w.writer / 256 = 7)))

/-- The spare rows left in the bank of a tile that has fewest (05_leaf_store.md R139). -/
def State.sparesLeft (s : State) (tile : Nat) : Nat :=
  16 - (List.range 256).foldl (fun m b => max m (spGet 0 s.sparesUsed (tile * 256 + b))) 0

/-- What a register of a quire's own block shows. -/
def State.viewQuire (s : State) (q : QuireId) (off : Nat) (w : BitVec 32) : BitVec 32 :=
  let x := s.qu q
  if off = R.ST_SEALED_LO.off then BitVec.ofNat 32 (s.stMask q F.ST_STATUS_sealed)
  else if off = R.ST_SEALED_HI.off then BitVec.ofNat 32 (s.stMask q F.ST_STATUS_sealed / 2 ^ 32)
  else if off = R.ST_USED_LO.off then BitVec.ofNat 32 (s.stMask q F.ST_STATUS_used)
  else if off = R.ST_USED_HI.off then BitVec.ofNat 32 (s.stMask q F.ST_STATUS_used / 2 ^ 32)
  else if off = R.ST_DBG_DATA.off then
    let u : StId := ⟨q, ⟨s.f (qb q) F.ST_DBG_ADDR_stitcher % 64, by omega⟩⟩
    let a := s.f (qb q) F.ST_DBG_ADDR_addr / 4 * 4
    if s.f (qb q) F.ST_DBG_ADDR_space = 0 then (s.st u).pocketWord a else (s.st u).progWord (a / 4)
  else if off = R.PS_STATUS_PA.off then x.pa.view w
  else if off = R.PS_STATUS_PB.off then x.pb.view w
  else if off = R.PS_VOTE.off then F.PS_VOTE_active.put w (if !x.votes.isEmpty then 1 else 0)
  else if off = R.PS_HOLD.off then F.PS_HOLD_now.put w x.holding.length
  else if off = R.LF_STATUS.off then
    let w := F.LF_STATUS_class_busy.put w (if x.filling.isEmpty then 0 else 1)
    let w := F.LF_STATUS_op_busy.put w (if x.ops.any (fun o => o.running) then 1 else 0)
    let w := F.LF_STATUS_op_queued.put w x.ops.length
    let w := F.LF_STATUS_scrub_active.put w (if x.scrubOn then 1 else 0)
    let w := F.LF_STATUS_spares_min.put w (s.sparesLeft (s.tileOf q))
    F.LF_STATUS_pending.put w (min 15 ((s.tracker q).filter (fun t => t.pending)).length)
  else if off = R.PG_QSTAT.off then F.PG_QSTAT_queued.put w (s.hintQueue q)
  else if off = R.LF_TRACK.off then
    match (s.tracker q)[s.f (qb q) F.LF_TRACK_SEL_entry]? with
    | some t => t.word
    | none => 0
  else if R.IN_MGN.off ≤ off ∧ off < R.IN_MGN.off + 16 then
    let g := spGet (0, 0, 0, false) s.mgn (4 * s.tileOf q + (off - R.IN_MGN.off) / 4)
    F.IN_MGN_trips.put (F.IN_MGN_slack.put (F.IN_MGN_droop_mv.put w g.1) g.2.1) g.2.2.1
  else if off = R.IN_UNIT.off then BitVec.ofNat 32 (s.inUnitWord q)
  else if off = R.BT_QROT.off then
    match spGet 0 s.stew.rotAt q.val with
    | 0 => w
    | t + 1 => F.BT_QROT_hours.put w (s.hoursSince t)
  else w

/-- Present quires of a partition (08_cord_mesh_and_spine.md R205). -/
def State.presentCount (s : State) (p : PartId) : Nat :=
  ((List.range 8).filter (fun i => decide (s.f (pt p) (F.MS_MAP_absent.nth i) = 0))).length

/-- A quire of the partition is suspect (10_collation_and_checking.md R265). -/
def State.anySuspect (s : State) (p : PartId) : Bool :=
  (List.range 8).any (fun i => decide (s.f (pt p) (F.MS_MAP_absent.nth i) = 0) &&
    (decide (s.f (qb (quireOf p i)) F.ST_FAULT_suspect = 1) || decide (s.f (qb (quireOf p i)) F.PS_VOTE_suspect = 1)))

/-- Counted partition resets of the last 15 min (11_fences_resets_recovery.md R295). -/
def State.recentResets (s : State) (p : PartId) : List Nat :=
  (s.part p).resetTimes.filter (fun t => decide (s.ns < t + 900000000000))

/-- Whole units left until a device time, rounded up. -/
def State.leftUntil (s : State) (t unit : Nat) : Nat := (t - s.ns + (unit - 1)) / unit

/-- What a register of a partition's control block shows. -/
def State.viewPart (s : State) (p : PartId) (off : Nat) (w : BitVec 32) : BitVec 32 :=
  if off = R.CH_INFLIGHT.off then
    BitVec.ofNat 32 (min 255 (s.inflight p 0) + 2 ^ 8 * min 255 (s.inflight p 1) + 2 ^ 16 * min 255 (s.inflight p 2)
      + 2 ^ 24 * min 255 (s.inflight p 3))
  else if off = R.PG_STATUS.off then
    F.PG_STATUS_upl_pending.put (F.PG_STATUS_in_flight.put (F.PG_STATUS_queued.put w (s.hintsQueued p)) (s.outstanding p))
      (if s.uploadPending p then 1 else 0)
  else if off = R.IN_SHIELD.off then F.IN_SHIELD_suspect.put w (if (s.part p).broughtUp && s.anySuspect p then 1 else 0)
  else if off = R.RS_STATUS.off then
    let w := F.RS_STATUS_present.put w (s.presentCount p)
    let w := F.RS_STATUS_recent.put w (min 3 (s.recentResets p).length)
    F.RS_STATUS_retain.put w (if s.stew.retain.contains p then 1 else 0)
  else if off = R.BT_HOLDOFF.off then BitVec.ofNat 32 (s.leftUntil (s.part p).holdoff 60000000000)
  else if off = R.BT_WINDOW.off then
    let w := F.BT_WINDOW_waiting.put 0 (min 255 (s.part p).heldTests.length)
    match (s.part p).window with
    | some t => F.BT_WINDOW_grant_ms.put w (s.leftUntil t 1000000)
    | none => w
  else w

/-- A trigger entry: its code, default severity, capture words. -/
def trigEntry (i : Nat) : Option (Nat × Nat × Nat) := evTable[i]?

/-- What EV_TRIG_CODE shows of an entry. -/
def State.trigWord (s : State) (i : Nat) : Nat :=
  match trigEntry i with
  | none => 0
  | some (code, sev, caps) =>
    let g := spGet Trig.init s.triggers code
    code + max caps g.count % 16 * 2 ^ 16 + caps * 2 ^ 20 + max sev g.sev % 4 * 2 ^ 24 + sev * 2 ^ 26 + 2 ^ 31

/-- What EV_TRIG_ADDR shows of a slot of an entry: slots below `caps` read base 3 and their number. -/
def State.trigAddr (s : State) (i a : Nat) : BitVec 32 :=
  match trigEntry i with
  | none => 0
  | some (code, _, caps) =>
    if a < caps then BitVec.ofNat 32 (3 * 2 ^ 24 + a) else spGet 0 (spGet Trig.init s.triggers code).addrs a

/-- The link direction that MS_LINK_SEL selects. -/
def State.selLink (s : State) : LinkSt :=
  spGet .init s.links (2 * s.f hub F.MS_LINK_SEL_link + s.f hub F.MS_LINK_SEL_dir)

/-- A heavy test program (12_self_test_and_rotation.md, Table 1). -/
def heavyProgram (n : Nat) : Bool := n = 1 || n = 3 || n = 8

/-- BT_RESULT of a tile. -/
def State.resultWord (s : State) (tile : Nat) : Nat :=
  let run := if s.runs.any (fun r => r.going && decide (r.unit = tile)) then 2 ^ 10 else 0
  match spGet (0, 0, 0, 0) s.tested tile with
  | (0, _, _, _) => run
  | (program, verdict, time, _) => program + 2 ^ 8 * verdict + run + 2 ^ 16 * s.hoursSince time

/-- What a register of the hub block shows. -/
def State.viewHub (s : State) (off : Nat) (w : BitVec 32) : BitVec 32 :=
  if off = R.EV_TIME_LO.off then BitVec.ofNat 32 s.ns
  else if off = R.EV_TIME_HI.off then BitVec.ofNat 32 (s.ns / 2 ^ 32)
  else if off = R.HB_TICK_IO.off then
    match s.ioNext with
    | some v => if s.pulseEnd ≤ s.now then tickIoWord w v else w
    | none => w
  else if off = R.EV_TRIG_CODE.off then BitVec.ofNat 32 (s.trigWord (s.f hub F.EV_TRIG_SEL_entry))
  else if R.EV_TRIG_ADDR.off ≤ off ∧ off < R.EV_TRIG_ADDR.off + 40 then
    s.trigAddr (s.f hub F.EV_TRIG_SEL_entry) ((off - R.EV_TRIG_ADDR.off) / 4)
  else if off = R.MS_LINK_STAT.off then
    let x := s.selLink
    BitVec.ofNat 32 (min 65535 x.crc + 2 ^ 16 * min 255 x.retrains + 2 ^ 24 * (x.spared.length % 4)
      + (if x.failing ≠ [] ∧ x.spared.length < 2 then 2 ^ 26 else 0) + (if x.down then 2 ^ 27 else 0))
  else if off = R.MS_LINK_LANES.off then
    BitVec.ofNat 32 (s.selLink.spared.getD 0 0 + 2 ^ 11 * s.selLink.spared.getD 1 0)
  else if off = R.IN_RESTRICT.off then
    match s.stew.restrictions[s.f hub F.IN_RESTRICT_SEL_entry]? with
    | some r => r.word
    | none => 0
  else if off = R.BT_RESULT.off then BitVec.ofNat 32 (s.resultWord (s.f hub F.BT_SEL_tile))
  else if R.BT_SIG.off ≤ off ∧ off < R.BT_SIG.off + 16 then
    BitVec.ofNat 32 ((spGet (0, 0, 0, (0 : BitVec 128)) s.tested (s.f hub F.BT_SEL_tile)).2.2.2.toNat /
      2 ^ (8 * (off - R.BT_SIG.off)))
  else if off = R.BT_LOAD.off then
    BitVec.ofNat 32 (min 2 (s.runs.filter (fun r => r.going && heavyProgram r.program)).length
      + 4 * min 63 (s.runs.filter (fun r => !r.going)).length)
  else if off = R.RS_DEVICE.off then
    F.RS_DEVICE_fault_resets.put w (min 2 (s.stew.devResets.filter (fun t => decide (s.ns < t + 86400000000000))).length)
  else if off = R.LC_ID_RSV.off then
    F.LC_ID_RSV_day_used.put w (min 16 (s.stew.idTimes.filter (fun t => decide (s.ns < t + 86400000000000))).length)
  else w

/-- What a read of a BAR0 address shows; zero where no register stands (00_scope.md R9). -/
def State.peek (s : State) (addr : Nat) : BitVec 32 :=
  match accOf addr with
  | none => 0
  | some a =>
    let w := s.rdAddr a addr
    if addr < 0x1000000 then s.viewHub addr w
    else
      let p : PartId := ⟨(addr / 0x1000000 - 1) % 4, by omega⟩
      let o := addr % 0x1000000
      if o < 0x800000 then s.viewPart p o w
      else
        let q := quireOf p ((o - 0x800000) / 0x10000)
        let x := o % 0x10000
        if 0x1000 ≤ x ∧ x < 0x5000 then
          s.viewStitcher ⟨q, ⟨(x - 0x1000) / 0x100 % 64, by omega⟩⟩ (x % 0x100) w
        else s.viewQuire q x w

/-! Latches (00_scope.md R10): each reader has its own for the high word of each pair that the register tables latch. -/

/-- The low word of a latched pair, by its offset in its block. -/
def latchedLo (addr : Nat) : Bool :=
  if addr < 0x1000000 then decide (addr = R.EV_TIME_LO.off)
  else
    let o := addr % 0x1000000
    if o < 0x800000 then
      [R.TK_COUNT_LO, R.TK_OVERRUNS_LO, R.PG_IN_LO, R.PG_OUT_LO, R.BT_ROT_NEXT_LO].any (fun r => decide (r.off = o))
    else
      let x := o % 0x10000
      if 0x1000 ≤ x ∧ x < 0x5000 then decide (x % 0x100 = R.ST_FIRINGS_LO.off)
      else [R.PS_DONE_LO_PA, R.PS_DONE_LO_PB, R.PS_BUSY_LO_PA, R.PS_BUSY_LO_PB].any (fun r => decide (r.off = x))

/-- The key of a reader's latch of a high word. -/
def latchKey (reader addr : Nat) : Nat := reader * 2 ^ 28 + addr

/-- A read of a register by a reader: what it returns, and its latch. -/
def State.readReg (s : State) (reader addr : Nat) : State × BitVec 32 :=
  if addr % 4 ≠ 0 then (s, 0)
  else if (accOf addr).isSome ∧ latchedLo addr then
    ({ s with latches := spSet 0 s.latches (latchKey reader (addr + 4)) (s.peek (addr + 4)) }, s.peek addr)
  else if 4 ≤ addr ∧ (accOf addr).isSome ∧ latchedLo (addr - 4) then (s, spGet 0 s.latches (latchKey reader addr))
  else (s, s.peek addr)

end Sys2Proof.Machine
end

