-- ==== Sys2Proof/Machine/Ops.lean ====
section
/-! DEFINITION. The named operations that the meanings share: recording an event, failing a tick, a token's arrival,
returning a credit, a stitcher reset, a firing fault. -/

namespace Sys2Proof

/-- The capture word of a writer (R381): its logical device, 0xFF for the steward. -/
def Writer.word : Writer → Nat
  | .ld l => l.val
  | .steward => 0xFF

/-- The quire that sent a token to quire `q`. -/
def Origin.quire (o : Origin) (q : QuireId) : QuireId :=
  match o with
  | .entry src _ => src
  | .internal => q

end Sys2Proof

namespace Sys2Proof.Machine

/-- The answer of a meaning. -/
abbrev Out := Host.Outcome State Fault Refusal

/-- A meaning that applies only where its occasion holds in the state; without the occasion nothing changes
(DESIGN CHOICE). -/
def when_ (c : Bool) (s t : State) : Out := if c then .next t else .next s

/-! ## Events (14_event_recorder_and_colophon.md) -/

/-- The source field of a record (R341, Table 2). -/
def State.srcWord (s : State) : Src → Nat
  | .hub => 0
  | .steward => 3 * 2 ^ 12
  | .part p => 2 ^ 12 + p.val * 2 ^ 9
  | .quire q => 2 * 2 ^ 12 + (partOf q).val * 2 ^ 9 + localOf q * 2 ^ 6 + s.tileOf q % 64

/-- The partition a source lies in. -/
def Src.part? : Src → Option PartId
  | .part p => some p
  | .quire q => some (partOf q)
  | _ => none

/-- The block of a source (R347). -/
def Src.block : Src → Nat
  | .hub => 0
  | .steward => 0
  | .part p => pt p
  | .quire q => qb q

/-- The LD a partition is bound to (09_host_attachment.md R230). -/
def State.ldOf (s : State) (p : PartId) : Option LdId :=
  (List.finRange 16).find? (fun l => decide (s.f hub (F.CX_LD_BIND_parts.nth l.val) / 2 ^ p.val % 2 = 1))

/-- The owner LD (R229). -/
def State.owner (s : State) : LdId := ⟨s.f hub F.CX_OWNER_ld % 16, by omega⟩

/-- One added snapshot word: a register of the source's block, its partition's or the hub's; hub state reads zero for a
source in a partition bound to a tenant (R347). -/
def State.snapWord (s : State) (x : Src) (a : BitVec 32) : Nat :=
  let off := a.toNat % 2 ^ 24
  match a.toNat / 2 ^ 24 % 4 with
  | 0 => match x with
    | .quire q => if s.f (pt (partOf q)) (F.MS_MAP_absent.nth (localOf q)) = 0 then (s.peek (x.block + off)).toNat else 0
    | _ => (s.peek (x.block + off)).toNat
  | 1 => match x.part? with
    | some p => (s.peek (pt p + off)).toNat
    | none => 0
  | 2 => match x.part? with
    | some p => match s.ldOf p with
      | some l => if l = s.owner then (s.peek off).toNat else 0
      | none => (s.peek off).toNat
    | none => (s.peek off).toNat
  | _ => 0

/-- The snapshot words of an event: its capture words, then the owner's added registers (R347, R348). -/
def State.snapshot (s : State) (x : Src) (code : Nat) (cap : List Nat) : List Nat :=
  let g := spGet Trig.init s.triggers code
  let n := cap.length
  (cap.map (fun v => v % 2 ^ 32)) ++
    (List.range (min 10 g.count - n)).map (fun i =>
      let a := spGet 0 g.addrs (n + i)
      if a.toNat / 2 ^ 24 % 4 = 3 then cap.getD (a.toNat % 2 ^ 24) 0 % 2 ^ 32 else s.snapWord x a)

/-- Added slots that an absent quire leaves unread: those of its own block (R348). -/
def State.unread (s : State) (x : Src) (code n : Nat) : Nat :=
  match x with
  | .quire q =>
    if s.f (pt (partOf q)) (F.MS_MAP_absent.nth (localOf q)) = 0 then 0
    else
      let g := spGet Trig.init s.triggers code
      ((List.range (min 10 g.count - n)).filter (fun i => decide ((spGet 0 g.addrs (n + i)).toNat / 2 ^ 24 % 4 = 0))).length
  | _ => 0

/-- A new record into its source's queue, or a fold into its last record (R346, R351). The second part says that a
record was lost. -/
def State.raise0 (s : State) (x : Src) (code sev : Nat) (cap : List Nat) : State × Bool :=
  let t := s.ns
  let r := s.src x
  let us := s.f hub F.EV_CFG_flood_us
  let fold := match r.last with
    | some l => decide (l.code = code) && decide (us ≠ 0) && decide (t ≤ l.time + us * 1000) && decide (l.rep < 0xFFFF)
    | none => false
  if fold then
    (s.setSrc x { r with last := r.last.map (fun l => { l with rep := l.rep + 1, time := t }), folded := true }, false)
  else
    let sendUpd := r.folded && decide (r.queue.length < 8)
    let q1 := match r.last with
      | some l => if sendUpd then r.queue ++ [{ l with update := true }] else r.queue
      | none => r.queue
    let r1 := { r with queue := q1, folded := r.folded && !sendUpd }
    if q1.length < 8 then
      let snap := s.snapshot x code cap
      let e : EvRec :=
        { code := code, source := s.srcWord x, time := t, rep := 0,
          sev := max sev (max (evSev code) (spGet Trig.init s.triggers code).sev),
          gap := r.gap, staged := false, words := snap.length - s.unread x code cap.length, snap := snap, update := false }
      (s.setSrc x { r1 with queue := q1 ++ [e], last := some e, gap := false }, false)
    else
      let s := s.setSrc x { r1 with gap := true, lost := min (2 ^ 32 - 1) (r.lost + 1) }
      (match x.part? with
        | some p => s.incF (pt p) F.EV_PSTAT_lost
        | none => s, true)

/-- A source raises an event: its code, the severity of its case, its capture words (R343, R346, R347, R349, R351). A
record lost from a full queue is recorded by the hub, cause "queue" (R360). -/
def State.raise (s : State) (x : Src) (code sev : Nat) (cap : List Nat) : State :=
  let r := s.raise0 x code sev cap
  if r.2 then (r.1.raise0 .hub Ev.REC_LOST 1 [s.srcWord x, 1, 0x60]).1 else r.1

/-- EV_LC_FEATURE: an unlicensed feature (1 dense formats, 2 bulk replay, 3 long context, 4 dynamic capacity), a partition,
the requester's LD (13_bring_up_and_licences.md R333). -/
def State.noteFeature (s : State) (p : PartId) (feature ld : Nat) : State :=
  s.raise .hub Ev.LC_FEATURE (evSev Ev.LC_FEATURE) [feature, p.val, ld]

/-- A unit word (R381, Table 11). -/
def unitWord (kind number : Nat) : Nat := kind * 256 + number % 256

/-- The junction temperature of a half as PW_TEMP shows it, and its bin of 7 degrees (10_collation_and_checking.md
R279). -/
def State.tempBin (s : State) (h : Half) : Nat :=
  min 15 (s.f hub (if h then F.PW_TEMP_east else F.PW_TEMP_west) / 7)

/-- A unit of partition `p`, or of its half, is charged with an event; what one unit makes within one tick counts as one
(10_collation_and_checking.md R275). -/
def State.charge (s : State) (p : PartId) (unit : HwUnit) (code : Nat) (resolved : Bool) : State :=
  let tick := if (s.part p).frameOpen then some (s.part p).strokeAt else none
  if tick.isSome && s.charges.any (fun c => decide (c.unit = unit) && decide (c.tick = tick)) then s
  else { s with charges := s.charges ++ [{ unit := unit, code := code, resolved := resolved, time := s.ns, tick := tick,
                                           bin := s.tempBin (halfOf p),
                                           act := (match unit.tile? with
                                             | some t => spGet 0 s.stew.actBins t
                                             | none => 0),
                                           judged := false }] }

/-! ## The tick (01_the_tick.md) -/

/-- The partition's tick generator runs and is not held: the state in which R18 and its like ignore writes. -/
def State.runsFree (s : State) (p : PartId) : Bool :=
  decide (s.f (pt p) F.TK_STATUS_running = 1) && decide (s.f (pt p) F.TK_STATUS_held = 0)

/-- The open tick of a partition fails (03_presses.md R66, 01_the_tick.md R26). -/
def State.failTick (s : State) (p : PartId) : State :=
  s.updPart p (fun x => if x.frameOpen && !x.failed then { x with failed := true, failAt := x.cyc } else x)

/-- The run cycle of a quire at a schedule position: the position and the variation so far (06_channels.md, "Release by
schedule position"). -/
def Quire.runAt (x : Quire) (pos : Nat) : Nat := pos + x.slip + x.latePage

/-- The position at which a message that enters the outbound hold leaves it: the close of the window of the last tile
released at or before its entry, or the entry itself (03_presses.md R79). -/
def Quire.leaveAt (x : Quire) (entry : Nat) : Nat :=
  ((x.releases.filter (fun r => decide (r ≤ entry))).map (· + 64)).foldl max entry

/-- The schedule position that a quire has reached. -/
def State.posNow (s : State) (q : QuireId) : Nat :=
  (s.part (partOf q)).cyc + 1 - (s.qu q).start - (s.qu q).slip - (s.qu q).latePage

/-- A pause of `n` cycles before a position: the messages that the quire launches and the credits that it frees from that
position on go as much later (06_channels.md R154, R156). -/
def State.delayFrom (s : State) (q : QuireId) (pos n : Nat) : State :=
  { s with
    flights := s.flights.map (fun m =>
      if m.src = q ∧ pos ≤ (if m.dst = q then m.sentAt else m.sentAt + 4) then { m with arrive := m.arrive + n } else m),
    creditFlights := s.creditFlights.map (fun c =>
      if c.from_ = q ∧ pos + s.f (eb c.src c.entry) F.CH_ROUTE_B_credit_latency ≤ c.usePos then
        { c with arrive := c.arrive + n }
      else c) }

/-- A weight correction of a scheduled read at a position pauses the quire for 6 cycles; reads of one cycle share one
pause (05_leaf_store.md R121). -/
def State.pauseCorrection (s : State) (q : QuireId) (pos : Nat) : State :=
  if pos ∈ (s.qu q).fixAt then s
  else (s.updQu q (fun x =>
    { x with slip := x.slip + 6, corrections := x.corrections + 1, fixAt := pos :: x.fixAt })).delayFrom q (pos + 4) 6

/-- A pause of `n` cycles at a position for a message or credit that has not arrived; those due at one position make one
pause (06_channels.md R155). -/
def State.pauseInherit (s : State) (q : QuireId) (pos n : Nat) : State :=
  if n = 0 then s
  else (s.updQu q (fun x =>
    { x with slip := x.slip + n, inherited := x.inherited + n,
             inheritPauses := if pos ∈ x.inheritAt then x.inheritPauses else x.inheritPauses + 1,
             inheritAt := if pos ∈ x.inheritAt then x.inheritAt else pos :: x.inheritAt })).delayFrom q pos n

/-- The cycles of a blocking send's stall up to a position that the ledger does not hold yet: refused at a clocked-down half,
or for credit (01_the_tick.md R29, R31, 08_cord_mesh_and_spine.md R219). -/
def State.chargeStall (s : State) (u : StId) (old : Option Stall) (t : Nat) : State :=
  match old with
  | some w => s.updQu u.quire (fun x =>
      if w.refused then { x with refusedStall := x.refusedStall + (t - w.from_) }
      else { x with creditStall := x.creditStall + (t - w.from_) })
  | none => s

/-- A half is at full clock again: the stalls of refused sends go on for want of credit (R219). -/
def State.endRefusals (s : State) (q : QuireId) (toward : Nat → Bool) : State :=
  (List.finRange 64).foldl (fun t i =>
    match (t.st ⟨q, i⟩).stall with
    | some w =>
      if w.refused && (w.ch.map toward).getD false then
        (t.chargeStall ⟨q, i⟩ (some w) (t.posNow q)).updSt ⟨q, i⟩ (fun x =>
          { x with stall := some { w with refused := false, from_ := max w.from_ (t.posNow q) } })
      else t
    | none => t) s

/-! A pause that is no slip: the schedule position advances through it, and everything that the quire does waits
(08_cord_mesh_and_spine.md R200, 05_leaf_store.md R121). -/

/-- A position from `pos` on, `n` later. -/
def shiftPos (pos n x : Nat) : Nat := if pos ≤ x then x + n else x

/-- The keys of a map from `pos` on, `n` later. -/
def Sparse.later {α : Type} (pos n : Nat) (m : Sparse α) : Sparse α := m.map (fun c => (shiftPos pos n c.1, c.2))

def Stitcher.later (x : Stitcher) (pos n : Nat) : Stitcher :=
  let f := shiftPos pos n
  { x with nextAt := max x.nextAt pos + n, score := x.score.map (fun c => (c.1, f c.2)), unitAt := f x.unitAt }

def PDesc.later (d : PDesc) (pos n : Nat) : PDesc := { d with enterAt := shiftPos pos n d.enterAt }

def PRun.later (r : PRun) (pos n : Nat) : PRun :=
  let f := shiftPos pos n
  { r with desc := r.desc.later pos n, readAt := max r.readAt pos + n, writeAt := max r.writeAt pos + n,
           sendAt := max r.sendAt pos + n, floor := f r.floor, deliver := r.deliver.map (fun d => (f d.1, d.2)) }

def Press.later (x : Press) (pos n : Nat) : Press :=
  let f := shiftPos pos n
  { x with queue := x.queue.map (fun d => d.later pos n), run := x.run.map (fun r => r.later pos n),
           slots := x.slots.map (fun l => { l with freeAt := f l.freeAt }), lastRead := f x.lastRead,
           lastWrite := f x.lastWrite, lastSend := f x.lastSend, floor := f x.floor }

def Vote.later (v : Vote) (pos n : Nat) : Vote := { v with startAt := shiftPos pos n v.startAt }

def LeafOp.later (o : LeafOp) (pos n : Nat) : LeafOp := { o with doneAt := shiftPos pos n o.doneAt }

/-- The presses, leaf operations, banks and shared port of a quire. -/
def Quire.later (x : Quire) (pos n : Nat) : Quire :=
  { x with pa := x.pa.later pos n, pb := x.pb.later pos n, votes := x.votes.map (fun v => v.later pos n),
           voteEnd := shiftPos pos n x.voteEnd, ops := x.ops.map (fun o => o.later pos n),
           portBusy := Sparse.later pos n x.portBusy, bankBusy := Sparse.later (256 * pos) (256 * n) x.bankBusy }

/-- A quire pauses for `n` cycles from a position on for a unit late in transit (R200): counted and recorded. -/
def State.pauseTransit (s : State) (q src : QuireId) (entry pos n cause : Nat) : State :=
  if n = 0 then s
  else
    let s := s.updQu q (fun x => { x.later pos n with transit := x.transit + n, transitUnits := x.transitUnits + 1 })
    let s := (List.finRange 64).foldl (fun t i => t.updSt ⟨q, i⟩ (fun y => y.later pos n)) s
    s.raise (.quire q) Ev.MS_LATE_TRANSIT (evSev Ev.MS_LATE_TRANSIT) [entry, src.val, n, cause]

/-- The element of a list that comes first by a key, and the others. -/
def takeLeast {α : Type} (key : α → Nat) : List α → Option (α × List α)
  | [] => none
  | a :: t => match takeLeast key t with
    | none => some (a, [])
    | some (b, r) => if key b < key a then some (b, a :: r) else some (a, t)

/-- A list in the order of a key, what came first first among equals. -/
def insBy {α : Type} (key : α → Nat) (a : α) : List α → List α
  | [] => [a]
  | b :: t => if key a < key b then a :: b :: t else b :: insBy key a t

def orderBy {α : Type} (key : α → Nat) (l : List α) : List α := l.foldl (fun m a => insBy key a m) []

/-! ## Credits (06_channels.md) -/

/-- A credit freed at quire `q` at position `pos` starts back to its sender (R150, R156). -/
def State.freeCredit (s : State) (q : QuireId) (pos : Nat) (o : Origin) (n : Nat) : State :=
  match o with
  | .internal => s
  | .entry src e =>
    let lat := s.f (eb src e) F.CH_ROUTE_B_credit_latency
    { s with creditFlights := s.creditFlights ++
        [{ src := src, entry := e % 256, units := n, epoch := s.f (qb q) F.CH_EPOCH_epoch, from_ := q,
           usePos := pos + lat, arrive := (s.qu q).runAt pos + lat }] }

/-- Credits of several messages freed together. -/
def State.freeCredits (s : State) (q : QuireId) (pos : Nat) (l : List (Origin × Nat)) : State :=
  l.foldl (fun t o => t.freeCredit q pos o.1 o.2) s

/-! ## Tokens (04_stitchers.md) -/

/-- A token (R99, Table 2). -/
structure Tok where
  data  : BitVec 64
  tag   : Nat
  port  : Nat
  epoch : Nat
  ctl   : Bool
  check : Nat
  deriving DecidableEq, Repr

/-- Bits [83:0] of a token. -/
def Tok.body (t : Tok) : Nat :=
  t.data.toNat + t.tag % 4096 * 2 ^ 64 + t.port % 32 * 2 ^ 76 + t.epoch % 4 * 2 ^ 81 + (if t.ctl then 2 ^ 83 else 0)

/-- The fields of a 96-bit token. -/
def Tok.ofBits (w : BitVec 96) : Tok :=
  let x := w.toNat
  { data := BitVec.ofNat 64 x, tag := x / 2 ^ 64 % 4096, port := x / 2 ^ 76 % 32, epoch := x / 2 ^ 81 % 4,
    ctl := decide (x / 2 ^ 83 % 2 = 1), check := x / 2 ^ 84 % 256 }

/-- A token with the check field its destination calls for (R99). -/
def Tok.sealed (t : Tok) (u : StId) : Tok := { t with check := (tokenCheck t.body u.st.val u.quire.val).toNat }

/-- The fields of the port map entry of port `j` (04_stitchers.md, ST_PORT0 to ST_PORT15). -/
def portFld (f : Fld) (j : Nat) : Fld := { f.nth (j / 2) with lo := f.lo + 16 * (j % 2) }

def State.portValid (s : State) (u : StId) (j : Nat) : Bool :=
  decide (s.f (sb u) (portFld F.ST_PORT_valid j) = 1)

/-- Tokens waiting at a port. -/
def Stitcher.waitingAt (x : Stitcher) (j : Nat) : Nat := (x.store.filter (fun w => decide (w.port = j))).length

/-- A token discarded as an orphan (R98, 06_channels.md R161). -/
def State.orphan (s : State) (u : StId) (pos port tag : Nat) (o : Origin) : State :=
  let s := (s.incF (sb u) F.ST_MATCH_orphans).freeCredit u.quire pos o 1
  s.updQu u.quire (fun x =>
    { x with orphans := x.orphans + 1,
             firstOrphan := match x.firstOrphan with
               | some f => some f
               | none => some (u.st.val, port, tag) })

/-- The orphans of the tick are recorded once, with their count and the first of them (06_channels.md R161). -/
def State.recordOrphans (s : State) (q : QuireId) : State :=
  let x := s.qu q
  if x.orphans = 0 then s
  else
    let f := x.firstOrphan.getD (0, 0, 0)
    let s := (s.setQu q { x with orphans := 0, firstOrphan := none, orphanNoted := true }).incF (qb q) F.CH_STAT_orphan_ticks
    s.raise (.quire q) Ev.CH_ORPHAN (evSev Ev.CH_ORPHAN)
      [x.tick % 2 ^ 32, x.orphans, f.1, f.2.1, f.2.2]

/-- An orphan of a tick that has ended at its quire: it makes the tick's one record, unless that has been made (R161). -/
def State.lateOrphan (s : State) (q : QuireId) : State :=
  if (s.qu q).orphanNoted then s.updQu q (fun x => { x with orphans := 0, firstOrphan := none })
  else s.recordOrphans q

/-- A discarded token whose credit returns, counted and recorded; the tick fails where the rule says so. -/
def State.dropToken (s : State) (u : StId) (pos : Nat) (t : Tok) (o : Origin) (cnt : Fld) (code : Nat)
    (extra : List Nat) (fails : Bool) : State :=
  let s := ((s.incF (sb u) cnt).freeCredit u.quire pos o 1).raise (.quire u.quire) code (evSev code)
    ([u.st.val, t.port, t.tag] ++ extra)
  let s := if code = Ev.ST_TOKEN_CHECK then s.charge (partOf u.quire) (.network (s.tileOf (o.quire u.quire))) code false
    else s
  if fails then s.failTick (partOf u.quire) else s

/-- A token reaches a port at a schedule position (R90 to R92, R97 to R99, R110, R111, R382, 06_channels.md R151,
R163). -/
def State.arriveToken (s : State) (u : StId) (t : Tok) (o : Origin) (pos : Nat) : State :=
  let x := s.st u
  let q := u.quire
  if (tokenCheck t.body u.st.val q.val).toNat ≠ t.check then
    s.dropToken u pos t o F.ST_ERR_token_check Ev.ST_TOKEN_CHECK [t.check] true
  else if t.epoch % 4 ≠ s.f (qb q) F.CH_EPOCH_epoch then
    (s.incF (qb q) F.CH_EPOCH_DISC_arrival).raise (.quire q) Ev.EPOCH_DISCARD 0
      [0x21, 1, 0, t.epoch % 4, s.f (qb q) F.CH_EPOCH_epoch]
  else if s.f (sb u) F.ST_STATUS_used = 0 then
    s.dropToken u pos t o F.ST_ERR_port_unbound Ev.ST_PORT_UNBOUND [] false
  else if s.f (sb u) F.ST_STATUS_sealed = 0 then
    let s := (s.incF (sb u) F.ST_MATCH_absorbed).freeCredit q pos o 1
    if x.unsealedSeen then s
    else (s.updSt u (fun x => { x with unsealedSeen := true })).raise (.quire q) Ev.ST_UNSEALED_TOKEN 1
      [u.st.val, t.port, t.tag]
  else if x.inReset then (s.incF (sb u) F.ST_MATCH_absorbed).freeCredit q pos o 1
  else if s.portValid u t.port = false then
    s.dropToken u pos t o F.ST_ERR_port_unbound Ev.ST_PORT_UNBOUND [] false
  else if (s.qu q).done then (s.orphan u pos t.port t.tag o).lateOrphan q
  else if x.store.any (fun w => decide (w.port = t.port) && decide (w.tag = t.tag)) then
    s.dropToken u pos t o F.ST_ERR_tag_dup Ev.ST_TAG_DUP [] true
  else if t.port ≠ 31 ∧ s.f (sb u) (portFld F.ST_PORT_credits t.port) ≤ x.waitingAt t.port then
    let src := match o with
      | .entry sq e => [sq.val, e]
      | .internal => [0, 0]
    ((s.incF (qb q) F.CH_STAT_overflow).raise (.quire q) Ev.CH_OVERFLOW 2 ([0, u.st.val, t.port] ++ src)).failTick
      (partOf q)
  else
    let s := s.setSt u { x with store := x.store ++
      [{ data := t.data, tag := t.tag, port := t.port, ctl := t.ctl, at_ := pos, origin := o }] }
    s.setF (sb u) F.ST_MATCH_peak (max (s.f (sb u) F.ST_MATCH_peak) (x.store.length + 1))

/-- A token formed inside the device for a port: the quire's current epoch, its own check, no credit (R382). -/
def State.internalToken (s : State) (u : StId) (port tag : Nat) (ctl : Bool) (data : BitVec 64) (pos : Nat) : State :=
  let t : Tok := { data := data, tag := tag % 4096, port := port % 32, epoch := s.f (qb u.quire) F.CH_EPOCH_epoch,
                   ctl := ctl, check := 0 }
  s.arriveToken u (t.sealed u) .internal pos

/-! ## Stitcher reset and firing fault (04_stitchers.md) -/

/-- The credits that the waiting tokens and queue words of a stitcher hold. -/
def Stitcher.heldCredits (x : Stitcher) : List (Origin × Nat) :=
  x.store.map (fun w => (w.origin, 1)) ++
    ((spGet [] x.queues 0 ++ spGet [] x.queues 1 ++ spGet [] x.queues 2 ++ spGet [] x.queues 3).map
      (fun w => (Origin.entry w.quire w.entry, 1)))

/-- A reset is remembered for an hour, for the judgement of what recurs after it (10_collation_and_checking.md R276). -/
def State.logReset (s : State) (scope target : Nat) : State :=
  { s with stew := { s.stew with
      resetLog := s.stew.resetLog.filter (fun r => decide (s.ns ≤ r.2.2 + 3600000000000)) ++ [(scope, target, s.ns)] } }

/-- The partition cycle of a schedule position of a quire, no earlier than the present one. -/
def State.cycleOf (s : State) (q : QuireId) (pos : Nat) : Nat :=
  max (s.part (partOf q)).cyc ((s.qu q).start + (s.qu q).runAt pos - 1)

/-- A partition reset is on its way to the end of its step 3: a quire or stitcher reset that is requested meanwhile is
dropped (11 R301). -/
def State.partResets (s : State) (p : PartId) : Bool :=
  (s.part p).recovery.isSome && decide (s.f (pt p) F.RS_STATUS_state ≤ 3)

/-- A stitcher reset asked for at a position starts in the cycle after it (R110): registers and the program counter
cleared, the match store and the queues freed with their credits returned, the generator reloaded from ST_SR_SEED
(02_number_formats.md R58). It lasts 200 cycles. -/
def State.resetStitcher (s : State) (u : StId) (pos : Nat) : State :=
  let x := s.st u
  let s := (s.logReset 1 (64 * s.tileOf u.quire + u.st.val)).freeCredits u.quire (pos + 1) x.heldCredits
  let s := s.setSt u
    { x with sreg := [], vreg := [], preg := [], pc := 0, firing := none, store := [], queues := [],
             lfsr := (let seed := s.rd (qb u.quire) (R.ST_SR_SEED.nth u.st.val); if seed = 0 then 1 else seed),
             score := [], issues := [], stall := none, inReset := true, resetEnd := s.cycleOf u.quire pos + 201, resets := min (2 ^ 32 - 1) (x.resets + 1) }
  s.incF (sb u) F.ST_STATUS_resets

/-- The units of credit that a message took (06_channels.md, Table 3). -/
def Landing.units : Landing → Nat
  | .token .. => 1
  | .queue _ ws => ws.length
  | .ring _ _ pad units _ => pad + units

/-- Credits back at the sending entry itself, and a ring message's place and number: it never left the quire (R115). -/
def State.refund (s : State) (m : Flight) : State :=
  let n := m.landing.units
  let s := s.setF (eb m.src m.entry) F.CH_ROUTE_D_held (s.f (eb m.src m.entry) F.CH_ROUTE_D_held + n)
  match m.landing with
  | .ring .. => s.updQu m.src (fun x => { x with ringPos := spUpd 0 x.ringPos m.entry (· - n),
                                                 ringSeq := spUpd 0 x.ringSeq m.entry (· - 1) })
  | _ => s

/-- The position at which a message reaches the outbound hold, 4 cycles after its issue (R115, 03_presses.md R79). -/
def OutMsg.entry : OutMsg → Nat
  | .flight m => m.sentAt + 4
  | .fwd w => w.sentAt + 4

/-- A message or forwarded write that quire `q` issued and that has not left its 4-cycle residue stage at a position
(R115). -/
def Flight.inStage (m : Flight) (q : QuireId) (pos : Nat) : Bool :=
  decide (m.src = q) && decide (m.dst ≠ q) && decide (0 < m.sentAt) && decide (pos < m.sentAt + 4)

def OutMsg.inStage (m : OutMsg) (q : QuireId) (pos : Nat) : Bool :=
  match m with
  | .flight m => m.inStage q pos
  | .fwd w => decide (pos < w.sentAt + 4)

/-- The messages of a quire in its residue stage, hint lists among them, are discarded and counted, and their credits
return at once (R115). -/
def State.discardOutbound (s : State) (q : QuireId) (pos : Nat) : State :=
  let x := s.qu q
  let gone := s.flights.filter (fun m => m.inStage q pos)
  let held := x.holding.filter (fun h => h.msg.inStage q pos)
  let fwds := x.forwards.filter (fun w => decide (pos < w.sentAt + 4))
  let s := { s with flights := s.flights.filter (fun m => !m.inStage q pos) }
  let s := s.setQu q { x with holding := x.holding.filter (fun h => !h.msg.inStage q pos),
                              forwards := x.forwards.filter (fun w => !decide (pos < w.sentAt + 4)) }
  let staged (h : Hint) : Bool := decide (h.owner = q) && decide (0 < h.sentAt) && decide (pos < h.sentAt + 4)
  let hints := ((s.part (partOf q)).hints.filter staged).map (fun h => (h.sender, h.sentAt))
  let s := s.updPart (partOf q) (fun y => { y with hints := y.hints.filter (fun h => !staged h) })
  let s := s.incF (qb q) F.ST_FAULT_discarded (gone.length + held.length + fwds.length + hints.dedup.length)
  let s := gone.foldl (fun t m => t.refund m) s
  held.foldl (fun t h => match h.msg with
    | .flight m => t.refund m
    | .fwd _ => t) s

/-- The ST_ERR counter and the event of a fault cause (1 residue, 2 memory, 3 illegal, 4 long firing, 5 address). -/
def faultCause : Nat → Fld × Nat
  | 1 => (F.ST_ERR_residue, Ev.ST_RESIDUE)
  | 2 => (F.ST_ERR_mem_uncorr, Ev.ST_MEM_UNCORR)
  | 3 => (F.ST_ERR_illegal, Ev.ST_ILLEGAL)
  | 4 => (F.ST_ERR_long, Ev.ST_LONG_FIRING)
  | _ => (F.ST_ERR_address, Ev.ST_ADDR)

/-- A firing fault (R114, R115): the event is recorded and counted, suspect is set, the tick fails, the quire's outbound
messages are discarded until its tick ends, and the stitcher is reset and stays stopped until the next stroke. -/
def State.firingFault (s : State) (u : StId) (cause pos : Nat) (cap : List Nat) : State :=
  let q := u.quire
  let s := s.raise (.quire q) (faultCause cause).2 2 (u.st.val :: cap)
  let s := s.incF (sb u) (faultCause cause).1
  let s := if cause = 1 ∨ cause = 2 then s.charge (partOf q) (.stitcher (s.tileOf q) u.st.val) (faultCause cause).2 false
    else s
  let s := (s.setF (qb q) F.ST_FAULT_stitcher u.st.val).setF (qb q) F.ST_FAULT_cause cause
  let s := (s.incF (qb q) F.ST_FAULT_count).setF (qb q) F.ST_FAULT_suspect 1
  let s := s.failTick (partOf q)
  let s := (s.discardOutbound q pos).updQu q (fun x => { x with discarding := x.open_ })
  (s.resetStitcher u pos).updSt u (fun x => { x with stopped := true })

end Sys2Proof.Machine
end

