-- ==== Sys2Proof/Machine/LeafStore.lean ====
section
/-! DEFINITION. The leaf as an operation: bank and port grants, reads and their outcomes, writes and merges, the
correction tracker (05_leaf_store.md R117 to R129, R135, R137). -/

namespace Sys2Proof.Machine

/-- LF_SIZE of a quire (R117). -/
def State.leafSize (s : State) (q : QuireId) : Nat := s.f (qb q) F.LF_SIZE_bytes

/-- The band of a leaf address is of weight class (R124). -/
def State.weightBand (s : State) (q : QuireId) (band : Nat) : Bool :=
  decide (s.f (qb q) (F.LF_CLASS_weight.nth (band / 32)) / 2 ^ (band % 32) % 2 = 1)

def bandOf (a : Nat) : Nat := a / 2 ^ 17
def bankOf (a : Nat) : Nat := a / 2 ^ 9 % 256

/-! Banks and the shared port (R125 to R127, Table 4). A bank at a position is free, or taken by an access of a rank of
Table 4 (the rank and 1), or held for a merge (1). -/

/-- An access of a rank gets a bank at a position: it is free, or a lower rank has asked for it. -/
def Quire.bankFree (x : Quire) (rank pos bank : Nat) : Bool :=
  let h := spGet 0 x.bankBusy (pos * 256 + bank)
  decide (h = 0) || decide (rank + 1 < h)

/-- A bank taken for `n` positions from `pos` on: by a rank's access, or held (`v` = 1). -/
def Quire.takeBank (x : Quire) (v pos bank : Nat) : Nat → Quire
  | 0 => x
  | n + 1 => { x with bankBusy := spSet 0 x.bankBusy (pos * 256 + bank) v }.takeBank v (pos + 1) bank n

/-- The shared port has an access left at a position and the bank is free for a rank. -/
def Quire.portFree (x : Quire) (rank pos bank : Nat) : Bool :=
  decide (spGet 0 x.portBusy pos < 8) && x.bankFree rank pos bank

/-- The shared port's access and the bank taken at a position. -/
def Quire.takePort (x : Quire) (rank pos bank : Nat) : Quire :=
  { x with portBusy := spUpd 0 x.portBusy pos (· + 1) }.takeBank (rank + 1) pos bank 1

/-- The first position from `pos` on at which the shared port has an access left and the bank is free for a scheduled
access, within `n` tries (R126, R127). -/
def Quire.grantFrom (x : Quire) (bank : Nat) : Nat → Nat → Nat
  | 0, pos => pos
  | n + 1, pos => if x.portFree 5 pos bank then pos else x.grantFrom bank n (pos + 1)

/-- A scheduled access of the shared port asked for at `pos`: the position at which it is granted, with the port and the
bank taken for it. Requests of rank 5 are granted in the order of their commands (DESIGN CHOICE). -/
def State.grant (s : State) (q : QuireId) (pos addr : Nat) : State × Nat :=
  let x := s.qu q
  let b := bankOf addr
  let g := x.grantFrom b (x.portBusy.length + x.bankBusy.length + 1) pos
  (s.setQu q (x.takePort 5 g b), g)

/-- The first position from `pos` on at which every one of the banks is free for a press access, within `n` tries. -/
def Quire.pressFrom (x : Quire) (rank : Nat) (banks : List Nat) : Nat → Nat → Nat
  | 0, pos => pos
  | n + 1, pos => if banks.all (fun b => x.bankFree rank pos b) then pos else x.pressFrom rank banks n (pos + 1)

/-- A press port's access to the rows of the addresses given, at the first position from `pos` on at which its banks are
free for its rank (R126, Table 4). -/
def State.pressGrant (s : State) (q : QuireId) (rank pos : Nat) (addrs : List Nat) : State × Nat :=
  let x := s.qu q
  let banks := (addrs.map bankOf).dedup
  let g := x.pressFrom rank banks (x.bankBusy.length + 1) pos
  (s.setQu q (banks.foldl (fun y b => y.takeBank (rank + 1) g b 1) x), g)

/-- An unscheduled access in the quire's present cycle: it is made only where its bank is free and the port has an access
left (R126, R128). -/
def State.freeAccess (s : State) (q : QuireId) (rank addr : Nat) : Bool :=
  !(s.qu q).open_ || (s.qu q).portFree rank (s.posNow q) (bankOf addr)

def State.takeFree (s : State) (q : QuireId) (rank addr : Nat) : State :=
  if (s.qu q).open_ then s.updQu q (fun x => x.takePort rank (s.posNow q) (bankOf addr)) else s

/-- A bank held for a merge: for one position after its own, or to the tenth where the merge read makes a weight
correction (R125). -/
def State.holdBank (s : State) (q : QuireId) (sched : Option Nat) (addr : Nat) (merged fixed : Bool) : State :=
  if merged && (s.qu q).open_ then
    s.updQu q (fun x => x.takeBank 1 ((sched.getD (s.posNow q)) + 1) (bankOf addr) (if fixed then 10 else 1))
  else s

/-! The correction tracker (R137). -/

def State.setTracker (s : State) (q : QuireId) (l : List Track) : State :=
  { s with trackers := spSet [] s.trackers (s.tileOf q) l }

/-- 24 hours in ns. -/
def dayNs : Nat := 86400000000000

/-- Drops the entry with the oldest first correction that is not pending; the list is oldest first. -/
def dropOldest : List Track → List Track
  | [] => []
  | t :: l => if t.pending then t :: dropOldest l else l

/-- A correcting read of a row (R137). -/
def State.trackRow (s : State) (q : QuireId) (addr : Nat) : State :=
  let l := s.tracker q
  let bank := bankOf addr
  let row := bandOf addr
  let w := s.weightBand q row
  let tile := s.tileOf q
  match l.find? (fun t => decide (t.bank = bank) && decide (t.row = row)) with
  | some t =>
    let restart := decide (dayNs < s.ns - t.first) && decide (t.count < 3)
    let t' := if restart then { t with count := 1, first := s.ns } else { t with count := t.count + 1 }
    let pend := decide (3 ≤ t'.count) && !t.pending
    let t' := { t' with pending := t.pending || pend }
    let rest := l.filter (fun e => !(decide (e.bank = bank) && decide (e.row = row)))
    let l' := if restart then rest ++ [t'] else l.map (fun e => if e.bank = bank ∧ e.row = row then t' else e)
    let s := s.setTracker q l'
    if pend then s.raise (.quire q) Ev.LF_ROW_PENDING 1 [tile, bank, row, if w then 1 else 0] else s
  | none =>
    let e : Track := { bank := bank, row := row, weight := w, count := 1, first := s.ns, pending := false }
    if l.length < 32 then s.setTracker q (l ++ [e])
    else if l.all (fun t => t.pending) then
      (s.incF (qb q) F.LF_TRACK_SEL_overflow).raise (.quire q) Ev.LF_TRACK_FULL 1 [tile, bank, row]
    else s.setTracker q (dropOldest l ++ [e])

/-! Code words (R118): a 64-byte segment of a weight band, an aligned 8-byte word of an activation band. -/

/-- The code words of `size` bytes that a range touches. -/
def codeWords (size addr n : Nat) : List Nat :=
  if n = 0 then []
  else (List.range ((addr + n - 1) / size - addr / size + 1)).map (fun i => (addr / size + i) * size)

def State.codeSize (s : State) (q : QuireId) (addr : Nat) : Nat := if s.weightBand q (bandOf addr) then 64 else 8

/-- The 8 check bytes of the clean segment at an address: the code of its band's class over its data and its address (Table
2). They follow from the data, and are no state of their own. -/
def State.checkBytes (s : State) (q : QuireId) (a : Nat) : List (BitVec 8) :=
  let seg := a / 64 * 64
  let data := memRead (s.qu q).leaf seg 64
  let addr := BitVec.ofNat 21 (seg / 64)
  if s.weightBand q (bandOf a) then
    leBytes 8 ((Config.leafBch (BitVec.ofNat 512 (leNat data)) addr).toNat + addr.toNat * 2 ^ 41)
  else (List.range 8).map (fun w =>
    Config.leafSecded (BitVec.ofNat 64 (leNat ((data.drop (8 * w)).take 8))) addr (BitVec.ofNat 3 w))

/-- The error mark of the code word at an address (R120, Table 3). -/
def State.markAt (s : State) (q : QuireId) (a : Nat) : Nat := spGet 0 (s.qu q).leafMark (a / 8)

def State.setMark (s : State) (q : QuireId) (a m : Nat) : State :=
  s.updQu q (fun x => { x with leafMark := spSet 0 x.leafMark (a / 8) m })

/-- What the code finds in a code word (Table 3): 0 clean, 1 corrected, 2 uncorrectable, 3 misdirected; an error beyond the
code's power has a free outcome: uncorrectable, wrong data reported as a correction (5) or passed as clean (4). A wrong
address shows as misdirection only in a weight segment (R119). -/
def State.outcome (s : State) (q : QuireId) (a : Nat) : Nat :=
  let m := s.markAt q a
  if m = 4 then
    match (Config.freeBits s.freeCount a 2).toNat with
    | 0 => 2
    | 1 => 5
    | _ => 4
  else if m = 3 ∧ s.weightBand q (bandOf a) = false then 2
  else m

/-- The parts of a range in the rows it touches: address and length. -/
def rowParts (addr n : Nat) : List (Nat × Nat) :=
  (List.range (if n = 0 then 0 else (addr + n - 1) / 512 - addr / 512 + 1)).map (fun i =>
    let a := max addr ((addr / 512 + i) * 512)
    (a, min (addr + n) ((addr / 512 + i + 1) * 512) - a))

/-- A leaf read. -/
structure LeafRead where
  state  : State
  bytes  : List (BitVec 8)
  /-- Uncorrectable or misdirected: the bytes are zero and poisoned (R122). -/
  poison : Bool
  /-- A weight correction was made (R121). -/
  fixed  : Bool
  /-- The code words that were uncorrectable or misdirected. -/
  bad    : List Nat

/-- The record and the counter of an uncorrectable read or a dropped merge write (R122, R125, R141). -/
def State.leafUncorr (s : State) (q : QuireId) (addr reader cause : Nat) : State :=
  let w := s.weightBand q (bandOf addr)
  let s := if cause = 0x31 then s.incF (qb q) F.LF_UNCORR_misdirected
    else if cause = 0x32 then s.incF (qb q) F.LF_UNCORR_dropped
    else if w then s.incF (qb q) F.LF_UNCORR_weight else s.incF (qb q) F.LF_UNCORR_activation
  let tile := s.tileOf q
  let s := (s.charge (partOf q) (.leafRow tile (bankOf addr) (bandOf addr)) Ev.LF_UNCORR false).charge (partOf q)
    (.leafBank tile (bankOf addr)) Ev.LF_UNCORR false
  s.raise (.quire q) Ev.LF_UNCORR 2 [addr, reader, if w then 1 else 0, cause]

/-- The part of a read that lies in one row (R119, R120, R122, R137). A band whose zero-fill has not ended reads as zeros,
clean (R124). -/
def State.rowRead (s : State) (q : QuireId) (reader addr n : Nat) : LeafRead :=
  if bandOf addr ∈ (s.qu q).filling then ⟨s, List.replicate n 0, false, false, []⟩
  else
    let w := s.weightBand q (bandOf addr)
    let size := s.codeSize q addr
    let words := codeWords size addr n
    let wrong (a : Nat) : Bool := decide (4 ≤ s.outcome q a)
    let bytes := if words.any wrong then
        (List.range n).map (fun i => if wrong ((addr + i) / size * size) then Config.freeBits s.freeCount i 8
          else spGet 0 (s.qu q).leaf (addr + i))
      else memRead (s.qu q).leaf addr n
    let fixes := (words.filter (fun a => decide (s.outcome q a = 1) || decide (s.outcome q a = 5))).length
    let lost := words.filter (fun a => decide (s.outcome q a = 2) || decide (s.outcome q a = 3))
    let mis := words.any (fun a => decide (s.outcome q a = 3))
    let s := if words.any (fun a => decide (s.markAt q a = 4)) then s.useFree else s
    let s := if fixes = 0 then s
      else (if w then s else s.incF (qb q) F.LF_CORR_activation fixes).trackRow q addr
    let s := if lost.isEmpty then s else s.leafUncorr q addr reader (if mis then 0x31 else 0x30)
    ⟨s, if lost.isEmpty then bytes else List.replicate n 0, !lost.isEmpty, w && decide (fixes ≠ 0), lost⟩

/-- One access of a port to the row parts given, by a reader named by its unit word (R119 to R122): a weight correction in
it counts once, and pauses the quire where the access is scheduled, at the position given. -/
def State.portAccess (s : State) (q : QuireId) (reader : Nat) (sched : Option Nat) (parts : List (Nat × Nat)) : LeafRead :=
  let r := parts.foldl (fun (r : LeafRead) v =>
    let x := r.state.rowRead q reader v.1 v.2
    ⟨x.state, r.bytes ++ x.bytes, r.poison || x.poison, r.fixed || x.fixed, r.bad ++ x.bad⟩) ⟨s, [], false, false, []⟩
  let s := if r.fixed then r.state.incF (qb q) F.LF_CORR_weight else r.state
  let s := match sched with
    | some pos => if r.fixed then s.pauseCorrection q pos else s
    | none => s
  { r with state := s, bytes := if r.poison then List.replicate r.bytes.length 0 else r.bytes }

/-- A read of `n` bytes in one access of a port. -/
def State.leafRead (s : State) (q : QuireId) (addr n reader : Nat) (sched : Option Nat) : LeafRead :=
  s.portAccess q reader sched (rowParts addr n)

/-- A read made in several accesses of the shared port: each part with the position of its access. -/
def State.leafReads (s : State) (q : QuireId) (reader : Nat) (l : List (Nat × Nat × Option Nat)) : LeafRead :=
  l.foldl (fun (r : LeafRead) v =>
    let x := r.state.leafRead q v.1 v.2.1 reader v.2.2
    ⟨x.state, r.bytes ++ x.bytes, r.poison || x.poison, r.fixed || x.fixed, r.bad ++ x.bad⟩) ⟨s, [], false, false, []⟩

/-- A write reaches a row during a pass: the digest regions it lies in are torn once the pass has read of them, and a
write-back of the row is stale (R133, R135). -/
def State.touchRow (s : State) (q : QuireId) (addr : Nat) : State :=
  let s := s.updQu q (fun x => { x with writeBack := match x.writeBack with
    | some b => if b.addr / 512 = addr / 512 then some { b with stale := true } else some b
    | none => none })
  let x := s.qu q
  if x.scrubOn then
    let posn := s.f (qb q) F.LF_SCRUB_POS_band * 256 + s.f (qb q) F.LF_SCRUB_POS_bank
    (List.range 8).foldl (fun t i =>
      match x.regions[i]? with
      | some (first, count) =>
        let b := bandOf addr
        if count ≠ 0 ∧ first ≤ b ∧ b < first + count ∧ (first * 256 < posn ∨ x.scrubEnd) ∧ x.regionTorn / 2 ^ i % 2 = 0 then
          (t.updQu q (fun y => { y with regionTorn := y.regionTorn + 2 ^ i })).raise (.quire q) Ev.SCRUB_TORN 0 [i, addr]
        else t
      | none => t) s
  else s

/-- A write enters the quire's write buffer row by row; what finds its 32 places taken waits behind it, where the network
interface withholds credit (R128). -/
def State.holdWrite (s : State) (q : QuireId) (w : HeldWrite) : State :=
  (rowParts w.addr w.bytes.length).foldl (fun t v =>
    let o := v.1 - w.addr
    let piece : HeldWrite :=
      { w with addr := v.1, bytes := (w.bytes.drop o).take v.2, poison := w.poison / 2 ^ (o / 64) % 2 ^ ((v.2 + 63) / 64) }
    let x := t.qu q
    if x.wbuf.length < 32 ∧ x.wwait.isEmpty then
      (t.setQu q { x with wbuf := x.wbuf ++ [piece] }).setF (qb q) F.LF_RACE_wbuf_peak
        (max (t.f (qb q) F.LF_RACE_wbuf_peak) (x.wbuf.length + 1))
    else t.setQu q { x with wwait := x.wwait ++ [piece] }) s

/-- A write or poisoned write to a band whose zero-fill has not ended waits in the write buffer (R124). -/
def State.holdFilling (s : State) (q : QuireId) (addr : Nat) (bytes : List (BitVec 8)) (writer poison : Nat) : State :=
  s.holdWrite q { addr := addr, bytes := bytes, writer := writer, poison := poison, marked := false, page := none }

/-- What one code word of a write makes. -/
structure WordWrite where
  state : State
  /-- The merge read was uncorrectable: the word was not written. -/
  dropped : Bool
  /-- The word was merged; its merge read was corrected. -/
  merged : Bool
  fixed : Bool

/-- A rotation that copies the quire's weight bands, in ascending order and a row every 5 cycles, has begun with this one
(12_self_test_and_rotation.md, Table 4). -/
def State.bandCopied (s : State) (q : QuireId) (band : Nat) : Bool :=
  match (s.qu q).copying with
  | none => false
  | some (from_, _) => s.weightBand q band &&
    decide (from_ + 1280 * ((List.range band).filter (fun b => s.weightBand q b)).length < (s.part (partOf q)).cyc)

/-- One code word of a write: the bytes of the write that fall in it, merged where the write covers it in part (R125). A
merge over an error beyond the code's power leaves free bytes around the written ones. -/
def State.writeWord (s : State) (q : QuireId) (size a addr : Nat) (bytes : List (BitVec 8)) : WordWrite :=
  let n := bytes.length
  let lo := max a addr
  let hi := min (a + size) (addr + n)
  let part := (bytes.drop (lo - addr)).take (hi - lo)
  let put (t : State) : State := (t.setMark q a 0).updQu q (fun x =>
    { x with leaf := memWrite x.leaf lo part,
             dirty := if t.bandCopied q (bandOf a) && !x.dirty.contains (bandOf a) then x.dirty ++ [bandOf a] else x.dirty })
  if addr ≤ a ∧ a + size ≤ addr + n then ⟨put s, false, false, false⟩
  else
    let m := s.outcome q a
    if m = 2 ∨ m = 3 then ⟨s, true, true, false⟩
    else if 4 ≤ m then
      let old := (List.range size).map (fun i => Config.freeBits s.freeCount (a + i) 8)
      ⟨put (s.updQu q (fun x => { x with leaf := memWrite x.leaf a old })), false, true, decide (m = 5)⟩
    else ⟨put s, false, true, decide (m = 1)⟩

/-- The part of a write that lies in one row: the second part says that a code word was dropped (R118, R124, R125, R137). -/
def State.rowWrite (s : State) (q : QuireId) (addr : Nat) (bytes : List (BitVec 8)) (writer : Nat) (sched : Option Nat) :
    State × Bool :=
  if bytes.isEmpty then (s, false)
  else if bandOf addr ∈ (s.qu q).filling then (s.holdFilling q addr bytes writer 0, false)
  else
    let w := s.weightBand q (bandOf addr)
    let size := s.codeSize q addr
    let words := codeWords size addr bytes.length
    let free := words.any (fun a => decide (s.markAt q a = 4))
    let r := words.foldl (fun (t : State × Bool × Bool × Nat) a =>
      let v := t.1.writeWord q size a addr bytes
      (v.state, t.2.1 || v.dropped, t.2.2.1 || v.merged, t.2.2.2 + (if v.fixed then 1 else 0))) (s, false, false, 0)
    let fixes := r.2.2.2
    let fixed := w && decide (fixes ≠ 0)
    let s := if free then r.1.useFree else r.1
    let s := if fixes = 0 then s
      else (s.incF (qb q) (if w then F.LF_CORR_weight else F.LF_CORR_activation) (if w then 1 else fixes)).trackRow q addr
    let s := match sched with
      | some pos => if fixed then s.pauseCorrection q pos else s
      | none => s
    ((s.holdBank q sched addr r.2.2.1 fixed).touchRow q addr, r.2.1)

/-- A forwarded write leaves its quire: through the outbound hold in check-behind mode, discarded after a firing fault
(09_host_attachment.md R246, R115, 03_presses.md R79). -/
def State.sendFwd (s : State) (q : QuireId) (w : Fwd) : State :=
  let x := s.qu q
  if x.discarding then s.incF (qb q) F.ST_FAULT_discarded
  else if x.behindFail.isSome then s.incF (qb q) F.PS_HOLD_discarded
  else if x.behind ∧ w.sentAt + 4 < x.leaveAt (w.sentAt + 4) then
    let s := s.setQu q { x with holding := x.holding ++ [⟨x.leaveAt (w.sentAt + 4), .fwd w⟩] }
    s.setF (qb q) F.PS_HOLD_peak (max (s.f (qb q) F.PS_HOLD_peak) (x.holding.length + 1))
  else s.setQu q { x with forwards := x.forwards ++ [w] }

/-- The part of a write that falls in the staging range of slot `k` of a quire's partition: its start and end (R246). -/
def State.slotPart (s : State) (q : QuireId) (k addr n : Nat) : Option (Nat × Nat) :=
  let p := partOf q
  let base := s.f (lb p k) F.CX_SLOT_SRC_addr * 64
  let lo := max addr base
  let hi := min (addr + n) (base + (64 + 64 * s.f (lb p k) F.CX_SLOT_CFG_units))
  if s.f (lb p k) F.CX_SLOT_CFG_valid = 1 ∧ s.f (lb p k) F.CX_SLOT_SRC_quire = localOf q ∧ lo < hi then some (lo, hi)
  else none

/-- A write toward a result slot finds the outbound hold full (03_presses.md R79). -/
def State.fwdFull (s : State) (q : QuireId) (addr n : Nat) : Bool :=
  (s.qu q).behind && decide (64 ≤ (s.qu q).holding.length) && (List.range 32).any (fun k => (s.slotPart q k addr n).isSome)

/-- Every scheduled write that falls in the staging range of a valid slot is forwarded to the result store (R246). -/
def State.forwardWrite (s : State) (q : QuireId) (addr : Nat) (bytes : List (BitVec 8)) (pos : Nat) : State :=
  (List.range 32).foldl (fun t k =>
    match s.slotPart q k addr bytes.length with
    | some (lo, hi) =>
      t.sendFwd q { slot := k, off := lo - s.f (lb (partOf q) k) F.CX_SLOT_SRC_addr * 64,
                    bytes := (bytes.drop (lo - addr)).take (hi - lo), tick := (s.qu q).tick, sentAt := pos }
    | none => t) s

/-- A write of bytes to a leaf (R118, R124, R125), at a position where it is scheduled, row by row. -/
def State.leafWrite (s : State) (q : QuireId) (addr : Nat) (bytes : List (BitVec 8)) (writer : Nat)
    (sched : Option Nat) : State :=
  let r := (rowParts addr bytes.length).foldl (fun (t : State × Bool) v =>
    let x := t.1.rowWrite q v.1 ((bytes.drop (v.1 - addr)).take v.2) writer sched
    (x.1, t.2 || x.2)) (s, false)
  let s := if r.2 then r.1.leafUncorr q addr writer 0x32 else r.1
  match sched with
  | some pos => s.forwardWrite q addr bytes pos
  | none => s

/-- A poisoned write: every code word the range touches reads as uncorrectable afterwards (R122, R132). -/
def State.leafPoison (s : State) (q : QuireId) (addr n : Nat) : State :=
  (rowParts addr n).foldl (fun t v =>
    let zeros := List.replicate v.2 0
    if bandOf v.1 ∈ (t.qu q).filling then t.holdFilling q v.1 zeros (unitWord 5 0) (2 ^ ((v.2 + 63) / 64) - 1)
    else
      let t := t.updQu q (fun x => { x with leaf := memWrite x.leaf v.1 zeros })
      let t := (codeWords (t.codeSize q v.1) v.1 v.2).foldl (fun u a => u.setMark q a 2) t
      t.touchRow q v.1) s

end Sys2Proof.Machine
end

