-- ==== Sys2Proof/Machine/Operands.lean ====
section
/-! DEFINITION. The operands of the stitcher's instructions: registers with s0 and p0 as R88 says, vector lanes,
immediates, addresses with their alignment and range (04_stitchers.md R88, R89, R100, R101, R114). -/

namespace Sys2Proof

/-- The bytes of a lane. -/
def LaneTy.bytes : LaneTy → Nat
  | .fp32 => 4
  | .bf16 => 2
  | .int8 => 1
  | .int32 => 4

/-- The lanes of a vector register. -/
def LaneTy.lanes : LaneTy → Nat
  | .fp32 => 16
  | .bf16 => 32
  | .int8 => 64
  | .int32 => 16

def LaneTy.isFloat : LaneTy → Bool
  | .fp32 => true
  | .bf16 => true
  | .int8 => false
  | .int32 => false

def IntTy.lane : IntTy → LaneTy
  | .int8 => .int8
  | .int32 => .int32

def FloatTy.lane : FloatTy → LaneTy
  | .fp32 => .fp32
  | .bf16 => .bf16

/-- The bits of a lane. -/
def LaneTy.width (ty : LaneTy) : Nat := 8 * ty.bytes

end Sys2Proof

namespace Sys2Proof.Machine

/-! Registers (R88). -/

/-- A scalar register; s0 reads as zero. -/
def Stitcher.s (x : Stitcher) (r : SReg) : BitVec 32 := if r = 0 then 0 else spGet 0 x.sreg r.toNat

/-- A scalar register written; a write to s0 is discarded. -/
def Stitcher.setS (x : Stitcher) (r : SReg) (v : BitVec 32) : Stitcher :=
  if r = 0 then x else { x with sreg := spSet 0 x.sreg r.toNat v }

/-- A predicate; p0 reads as all ones. -/
def Stitcher.p (x : Stitcher) (r : PReg) : BitVec 64 := if r = 0 then BitVec.allOnes 64 else spGet 0 x.preg r.toNat

/-- A predicate written; a write to p0 is discarded. -/
def Stitcher.setP (x : Stitcher) (r : PReg) (v : BitVec 64) : Stitcher :=
  if r = 0 then x else { x with preg := spSet 0 x.preg r.toNat v }

def Stitcher.v (x : Stitcher) (r : VReg) : BitVec 512 := spGet 0 x.vreg r.toNat

def Stitcher.setV (x : Stitcher) (r : VReg) (v : BitVec 512) : Stitcher :=
  { x with vreg := spSet 0 x.vreg r.toNat v }

/-- The 64 bits of a scalar pair s(n+1):s(n). -/
def Stitcher.pair (x : Stitcher) (r : SReg) : BitVec 64 := x.s (r + 1) ++ x.s r

/-! The scoreboard's keys (R104). -/

def sK (r : SReg) : Nat := r.toNat
def vK (r : VReg) : Nat := 32 + r.toNat
def pK (r : PReg) : Nat := 48 + r.toNat

/-- A register becomes usable at a position, and its write completes there (R95, R104). -/
def Stitcher.usable (x : Stitcher) (k at_ : Nat) : Stitcher :=
  { x with score := spSet 0 x.score k at_, doneAt := max x.doneAt at_ }

/-! Writes of results: the value and the position from which it is usable. -/

def State.putS (s : State) (u : StId) (r : SReg) (v : BitVec 32) (at_ : Nat) : State :=
  if r = 0 then s else s.updSt u (fun x => (x.setS r v).usable (sK r) at_)

def State.putP (s : State) (u : StId) (r : PReg) (v : BitVec 64) (at_ : Nat) : State :=
  if r = 0 then s else s.updSt u (fun x => (x.setP r v).usable (pK r) at_)

def State.putV (s : State) (u : StId) (r : VReg) (v : BitVec 512) (at_ : Nat) : State :=
  s.updSt u (fun x => (x.setV r v).usable (vK r) at_)

/-- Every lane of a type is governed by a guard, so that a write leaves nothing of the old contents (R89, Table 4). -/
def governsAll (ty : LaneTy) (g : BitVec 64) (pn : Bool) : Bool :=
  (List.range ty.lanes).all (fun i => (g.getLsbD (ty.bytes * i)).xor pn)

/-- A vector register written in all its lanes, or in some: the lanes kept of it are not usable earlier than before
(R104). -/
def State.putLanes (s : State) (u : StId) (r : VReg) (all : Bool) (v : BitVec 512) (at_ : Nat) : State :=
  s.putV u r v (if all then at_ else max at_ (spGet 0 (s.st u).score (vK r)))

/-- The same for a predicate. -/
def State.putBits (s : State) (u : StId) (r : PReg) (all : Bool) (v : BitVec 64) (at_ : Nat) : State :=
  s.putP u r v (if all then at_ else max at_ (spGet 0 (s.st u).score (pK r)))

/-- A scalar pair written, low word first. -/
def State.putPair (s : State) (u : StId) (r : SReg) (v : BitVec 64) (at_ : Nat) : State :=
  (s.putS u r (v.setWidth 32) at_).putS u (r + 1) ((v >>> 32).setWidth 32) at_

/-! Lanes (Table 1, R89). -/

/-- `w` bits of a vector from bit `i * w` up. -/
def laneAt (v : BitVec 512) (w i : Nat) : Nat := v.toNat / 2 ^ (w * i) % 2 ^ w

/-- The vector whose lanes of `w` bits are the codes of a list, lane 0 first, zero above them. -/
def packNat (w : Nat) : List Nat → Nat
  | [] => 0
  | c :: t => c % 2 ^ w + 2 ^ w * packNat w t

def packVec (w : Nat) (l : List Nat) : BitVec 512 := BitVec.ofNat 512 (packNat w l)

/-- The lanes of a vector register in a lane type. -/
def lanesOf (ty : LaneTy) (v : BitVec 512) : List Nat := (List.range ty.lanes).map (laneAt v ty.width)

/-- The lane's governing bit: bit w x i of the guard predicate, XOR the inversion (R89, Table 4). -/
def governs (g : BitVec 64) (pn : Bool) (w i : Nat) : Bool := (g.getLsbD (w * i)).xor pn

/-- The lanes of a result under its guard: a lane that the guard does not govern keeps its contents (Table 4). -/
def guarded (ty : LaneTy) (g : BitVec 64) (pn : Bool) (old : BitVec 512) (new : Nat → Nat) : BitVec 512 :=
  packVec ty.width ((List.range ty.lanes).map (fun i =>
    if governs g pn ty.bytes i then new i else laneAt old ty.width i))

/-! Immediates (Table 6). -/

def sext16 (i : BitVec 16) : BitVec 32 := i.signExtend 32
def zext16 (i : BitVec 16) : BitVec 32 := i.setWidth 32

/-- A branch target: a signed word offset from the branch (Table 4). -/
def branchTo (pc : Nat) (off : BitVec 11) : Nat := ((pc + 2048 : Int) + off.toInt).toNat % 1024

/-! Addresses (Table 6, R114). -/

/-- Bytes of pocket memory. -/
def pocketSize : Nat := 16384

/-- The address of a load or store: s(ra) + imm12 x size, in the wrapping 32-bit arithmetic of R44 (DEDUCED). -/
def memAddr (x : Stitcher) (ra : SReg) (imm : BitVec 12) (size : Nat) : Nat :=
  ((x.s ra).toNat + imm.toNat * size) % 2 ^ 32

/-- The size of a space. -/
def State.spaceSize (s : State) (q : QuireId) : Space → Nat
  | .pocket => pocketSize
  | .leaf => s.leafSize q

/-- An address is in range: aligned, and its range inside the space (R114). -/
def State.inRange (s : State) (q : QuireId) (sp : Space) (addr align n : Nat) : Bool :=
  decide (addr % align = 0) && decide (addr < s.spaceSize q sp) && decide (addr + n ≤ s.spaceSize q sp)

end Sys2Proof.Machine
end

