-- ==== Sys2Proof/Machine/Flags.lean ====
section
/-! DEFINITION. The stitcher's flag computations: predicates of scalar and vector compares, guards, integer and float
operations with their saturation (04_stitchers.md R89, R101; 02_number_formats.md R42, R44). -/

namespace Sys2Proof.Machine

/-! Predicates (R89). -/

/-- A scalar compare writes all 64 bits with its result. -/
def predAll (b : Bool) : BitVec 64 := if b then BitVec.allOnes 64 else 0

/-- Bit 0 of a predicate at `b`, the other bits kept. -/
def predBit0 (p : BitVec 64) (b : Bool) : BitVec 64 := p / 2 * 2 + (if b then 1 else 0)

/-- A branch's guard: bit 0 of its guard predicate, XOR the inversion (R89). -/
def Stitcher.guardOk (x : Stitcher) (pg : PReg) (pn : Bool) : Bool := ((x.p pg).getLsbD 0).xor pn

/-- The bits of a vector compare: every bit of each governed lane's bytes is that lane's result, the other lanes' bits
keep their contents (R89, Table 4). -/
def predLanes (ty : LaneTy) (g : BitVec 64) (pn : Bool) (old : BitVec 64) (r : Nat → Bool) : BitVec 64 :=
  BitVec.ofNat 64 (packNat ty.bytes ((List.range ty.lanes).map (fun i =>
    if governs g pn ty.bytes i then (if r i then 2 ^ ty.bytes - 1 else 0)
    else old.toNat / 2 ^ (ty.bytes * i) % 2 ^ ty.bytes)))

/-! Scalar integer compares and saturation. -/

def CondI.holds (c : CondI) (a b : BitVec 32) : Bool :=
  match c with
  | .eq => a == b
  | .ne => a != b
  | .lt => a.slt b
  | .ltu => a.ult b

/-- A sum or difference clamped to the INT32 range (R44). -/
def sat32 (x : Int) : BitVec 32 := BitVec.ofInt 32 (clampInt 32 x)

/-! FP32 operations, rounded once to nearest even (R56). -/

def fadd32 (a b : BitVec 32) : BitVec 32 := toFp32 ((ofFp32 a).add (ofFp32 b))
def fsub32 (a b : BitVec 32) : BitVec 32 := toFp32 ((ofFp32 a).add (ofFp32 b).neg)
def fmul32 (a b : BitVec 32) : BitVec 32 := toFp32 ((ofFp32 a).mul (ofFp32 b))
/-- a x b + c, rounded once. -/
def ffma32 (a b c : BitVec 32) : BitVec 32 := toFp32 (((ofFp32 a).mul (ofFp32 b)).add (ofFp32 c))
def fmin32 (a b : BitVec 32) : BitVec 32 := toFp32 ((ofFp32 a).min (ofFp32 b))
def fmax32 (a b : BitVec 32) : BitVec 32 := toFp32 ((ofFp32 a).max (ofFp32 b))

def feq32 (a b : BitVec 32) : Bool := (ofFp32 a).eqv (ofFp32 b)
def flt32 (a b : BitVec 32) : Bool := (ofFp32 a).lt (ofFp32 b)
def fle32 (a b : BitVec 32) : Bool := flt32 a b || feq32 a b
def fun32 (a b : BitVec 32) : Bool := (ofFp32 a).isNan || (ofFp32 b).isNan

end Sys2Proof.Machine

namespace Sys2Proof

open Machine

/-! Lane operations by lane type. A code is the lane's bits. -/

/-- The float layout of a float lane type. -/
def LaneTy.fmt : LaneTy → FFmt
  | .bf16 => .bf16
  | _ => .fp32

/-- A lane operation: the exact float one rounded once, or the exact integer one wrapped. -/
def LaneTy.op2 (ty : LaneTy) (f : FVal → FVal → FVal) (g : Int → Int → Int) (a b : Nat) : Nat :=
  if ty.isFloat then ty.fmt.encode .rne 0 false (f (ty.fmt.decode a) (ty.fmt.decode b))
  else intCode ty.width (g (intVal ty.width a) (intVal ty.width b))

def LaneTy.add (ty : LaneTy) : Nat → Nat → Nat := ty.op2 FVal.add (· + ·)
def LaneTy.sub (ty : LaneTy) : Nat → Nat → Nat := ty.op2 (fun a b => a.add b.neg) (· - ·)
def LaneTy.mul (ty : LaneTy) : Nat → Nat → Nat := ty.op2 FVal.mul (· * ·)
def LaneTy.min (ty : LaneTy) : Nat → Nat → Nat := ty.op2 FVal.min Min.min
def LaneTy.max (ty : LaneTy) : Nat → Nat → Nat := ty.op2 FVal.max Max.max

/-- a x b + c, rounded once or wrapped (R56, R44). -/
def LaneTy.fma (ty : LaneTy) (a b c : Nat) : Nat :=
  if ty.isFloat then
    ty.fmt.encode .rne 0 false (((ty.fmt.decode a).mul (ty.fmt.decode b)).add (ty.fmt.decode c))
  else intCode ty.width (intVal ty.width a * intVal ty.width b + intVal ty.width c)

/-- For float types only the sign bit changes (R42); an integer's magnitude wraps (R44). -/
def LaneTy.abs (ty : LaneTy) (a : Nat) : Nat :=
  if ty.isFloat then a % 2 ^ (ty.width - 1) else intCode ty.width (intVal ty.width a).natAbs

def LaneTy.neg (ty : LaneTy) (a : Nat) : Nat :=
  if ty.isFloat then (a + 2 ^ (ty.width - 1)) % 2 ^ ty.width else intCode ty.width (-(intVal ty.width a))

def LaneTy.eqv (ty : LaneTy) (a b : Nat) : Bool :=
  if ty.isFloat then (ty.fmt.decode a).eqv (ty.fmt.decode b) else decide (intVal ty.width a = intVal ty.width b)

def LaneTy.lt (ty : LaneTy) (a b : Nat) : Bool :=
  if ty.isFloat then (ty.fmt.decode a).lt (ty.fmt.decode b) else decide (intVal ty.width a < intVal ty.width b)

def LaneTy.le (ty : LaneTy) (a b : Nat) : Bool := ty.lt a b || ty.eqv a b

def LaneTy.isNan (ty : LaneTy) (a : Nat) : Bool := ty.isFloat && (ty.fmt.decode a).isNan

end Sys2Proof
end

