-- ==== Sys2Proof/Machine/Issue.lean ====
section
/-! DEFINITION. The issue of a stitcher's instruction: when it may issue, the position at which it does, what every
issue does, and its stalls (04_stitchers.md R95, R100, R104, R113, R114). -/

namespace Sys2Proof.Machine

/-- What the issue of an instruction waits for and takes. -/
structure Gate where
  /-- The scoreboard's keys of the sources it reads. -/
  srcs : List Nat
  /-- Cycles of issue it occupies (Table 7). -/
  occupy : Nat := 1
  /-- Cycles until the transcendental unit accepts its next instruction; 0: the unit is not used. -/
  unit : Nat := 0
  /-- No issue before this position. -/
  notBefore : Nat := 0
  /-- It stalls: the ST_STATUS.state code and, for a send, the channel entry. -/
  wait : Option (Nat × Option Nat) := none
  /-- The stall is a refusal at a clocked-down half (08_cord_mesh_and_spine.md R219). -/
  refused : Bool := false
  deriving DecidableEq, Repr

/-- The stitcher is in a firing and executes instructions: used, sealed, in no reset, not stopped, its quire not
paused for a late page (R95, R110, R111, R114, 07_catchword_paging.md R179). -/
def State.executes (s : State) (u : StId) : Bool :=
  let x := s.st u
  decide (s.f (sb u) F.ST_STATUS_used = 1) && decide (s.f (sb u) F.ST_STATUS_sealed = 1) && x.firing.isSome &&
    !x.inReset && !x.stopped && !(s.qu u.quire).inReset && (s.qu u.quire).duePause.isNone

/-- The next instruction of the stitcher is `i`. -/
def State.mayIssue (s : State) (u : StId) (i : Instr) : Bool :=
  s.executes u && decide (decodeWord u ((s.st u).progWord (s.st u).pc) = some i)

/-- The position of issue: in order, every source ready, the unit free (R104). -/
def Stitcher.issueAt (x : Stitcher) (g : Gate) : Nat :=
  (g.srcs.map (spGet 0 x.score)).foldl max
    (max (max x.nextAt g.notBefore) (if g.unit = 0 then 0 else x.unitAt))

/-- What every issue does: ST_PC shows the instruction and counts it, the program counter advances. -/
def State.issued (s : State) (u : StId) (g : Gate) (t : Nat) : State :=
  let x := s.st u
  let s := s.setSt u { x with pc := (x.pc + 1) % 1024, nextAt := t + g.occupy, stall := none,
                              issues := (x.pc, t) :: x.issues,
                              unitAt := if g.unit = 0 then x.unitAt else t + g.unit }
  (s.setF (sb u) F.ST_PC_pc x.pc).setF (sb u) F.ST_PC_count (s.f (sb u) F.ST_PC_count + 1)

/-- A stall: the stitcher's state shows it, from the position at which it began. -/
def State.stallOn (s : State) (u : StId) (g : Gate) (code : Nat) (ch : Option Nat) : State :=
  s.updSt u (fun x =>
    let new : Stall := { state := code, since := x.issueAt g, ch := ch, from_ := x.issueAt g, refused := g.refused, fired := false }
    { x with stall := match x.stall with
      | some w => if w.state = code then some w else some new
      | none => some new })

/-- The mark of the program memory word at an address (R113). -/
def Stitcher.progErr (x : Stitcher) (pc : Nat) : Nat := spGet 0 x.memErr (2048 + pc / 2)

/-- A single-bit error at the fetch is corrected and counted (R113). -/
def State.fetchFix (s : State) (u : StId) : State :=
  if (s.st u).progErr (s.st u).pc = 1 then s.incF (sb u) F.ST_ECC_corrected else s

/-- The firing's handler and tag. -/
def Stitcher.handlerTag (x : Stitcher) : List Nat :=
  match x.firing with
  | some f => [f.handler, f.tag]
  | none => [0, 0]

/-- The issue of instruction `i`: without its occasion nothing changes; a 257th instruction and an uncorrectable program
word are firing faults (R95, R113, R114); a stall leaves it to be issued again. `body` is its own effect, with the
position of issue and its address. -/
def State.issue (s : State) (u : StId) (i : Instr) (g : Gate) (body : State → Nat → Nat → State) : Out :=
  let x := s.st u
  if s.mayIssue u i = false then .next s
  else if 256 ≤ s.f (sb u) F.ST_PC_count then .next (s.firingFault u 4 (x.issueAt g) x.handlerTag)
  else if x.progErr x.pc = 2 then .next (s.firingFault u 2 (x.issueAt g) [1, 4 * x.pc])
  else match g.wait with
    | some w => .next (s.stallOn u g w.1 w.2)
    | none => .next (body ((s.fetchFix u).issued u g (x.issueAt g)) (x.issueAt g) x.pc)

end Sys2Proof.Machine
end

