-- ==== Sys2Proof/Machine/Branch.lean ====
section
/-! DEFINITION. Branches (04_stitchers.md, Table 6: opcode 0x0A; R89, Table 7). -/

namespace Sys2Proof.Machine

/-- A branch taken to an address: it occupies 2 cycles of issue. -/
def State.jump (s : State) (u : StId) (t target : Nat) : State :=
  s.updSt u (fun x => { x with pc := target, nextAt := t + 2 })

/-- A branch taken where `c` holds. -/
def State.jumpIf (s : State) (u : StId) (t target : Nat) (c : Bool) : State := if c then s.jump u t target else s

/-- Taken when the guard holds. -/
def execBr (u : StId) (pg : PReg) (pn : Bool) (off : BitVec 11) (s : State) : Out :=
  s.issue u (.br u pg pn off) { srcs := [pK pg] }
    (fun s t pc => s.jumpIf u t (branchTo pc off) ((s.st u).guardOk pg pn))

/-- When the guard holds: rs = rs - 1, and taken when that is not zero; when it does not hold, rs is left unchanged. -/
def execLoop (u : StId) (pg : PReg) (pn : Bool) (rs : SReg) (off : BitVec 11) (s : State) : Out :=
  s.issue u (.loop u pg pn rs off) { srcs := [pK pg, sK rs] } (fun s t pc =>
    let v := (s.st u).s rs - 1
    if (s.st u).guardOk pg pn then (s.putS u rs v (t + 1)).jumpIf u t (branchTo pc off) (v != 0) else s)

/-- Taken when the guard holds and rs = 0. -/
def execBrZ (u : StId) (pg : PReg) (pn : Bool) (rs : SReg) (off : BitVec 11) (s : State) : Out :=
  s.issue u (.brZ u pg pn rs off) { srcs := [pK pg, sK rs] }
    (fun s t pc => s.jumpIf u t (branchTo pc off) ((s.st u).guardOk pg pn && (s.st u).s rs == 0))

/-- Taken when the guard holds and rs ≠ 0. -/
def execBrNz (u : StId) (pg : PReg) (pn : Bool) (rs : SReg) (off : BitVec 11) (s : State) : Out :=
  s.issue u (.brNz u pg pn rs off) { srcs := [pK pg, sK rs] }
    (fun s t pc => s.jumpIf u t (branchTo pc off) ((s.st u).guardOk pg pn && (s.st u).s rs != 0))

end Sys2Proof.Machine
end

