-- ==== Sys2Proof/Machine/Keccak.lean ====
section
/-! DEFINITION. SHAKE256, the hash of region digests (05_leaf_store.md R135), master digests (10_collation_and_checking.md R270)
and identities (13_bring_up_and_licences.md Table 3). The spec names the function; its definition is that of FIPS 202
(PRESUMED). -/

namespace Sys2Proof.Machine

/-- The permutation's state by sheets: for each x the lanes of y = 0 to 4. -/
abbrev Sheets := List (List (BitVec 64))

/-- A state from its lanes, and a lane of it, coordinates mod 5. -/
def sheets (f : Nat → Nat → BitVec 64) : Sheets := (List.range 5).map (fun x => (List.range 5).map (f x))
def Sheets.lane (a : Sheets) (x y : Nat) : BitVec 64 := (a.getD (x % 5) []).getD (y % 5) 0

/-- The parity of the columns of a sheet, 64 at once. -/
def Sheets.parity (a : Sheets) (x : Nat) : BitVec 64 := (a.getD (x % 5) []).foldl (fun m l => m ^^^ l) 0

def Sheets.theta (a : Sheets) : Sheets :=
  sheets (fun x y => a.lane x y ^^^ a.parity (x + 4) ^^^ (a.parity (x + 1)).rotateLeft 1)

/-- The lane's offset in rho: the walk from (1, 0) by (x, y) to (y, 2x + 3y) meets it at a step t, and it is
(t + 1)(t + 2) / 2. -/
def rhoOffset (x y : Nat) : Nat :=
  ((List.range 24).foldl (fun (r : (Nat × Nat) × Nat) t =>
    ((r.1.2, (2 * r.1.1 + 3 * r.1.2) % 5), if r.1 = (x, y) then (t + 1) * (t + 2) / 2 % 64 else r.2)) ((1, 0), 0)).2

/-- The offsets, computed once: sheet x, lane y. -/
def rhoTable : List (List Nat) := (List.range 5).map (fun x => (List.range 5).map (rhoOffset x))

/-- rho, then pi: the lane at (x, y) comes from (x + 3y, x). -/
def Sheets.rhoPi (a : Sheets) (table : List (List Nat)) : Sheets :=
  sheets (fun x y =>
    let from_ := (x + 3 * y) % 5
    (a.lane from_ x).rotateLeft ((table.getD from_ []).getD x 0))

def Sheets.chi (a : Sheets) : Sheets := sheets (fun x y => a.lane x y ^^^ (~~~(a.lane (x + 1) y) &&& a.lane (x + 2) y))

/-- The shift register of iota after `t` steps: x^8 + x^6 + x^5 + x^4 + 1. -/
def iotaReg : Nat → Nat
  | 0 => 1
  | t + 1 => let r := 2 * iotaReg t; if 256 ≤ r then r ^^^ 0x171 else r

/-- The constant of a round: bit 2^j - 1 is the register's output at step j + 7 x round. -/
def iotaWord (round : Nat) : BitVec 64 :=
  BitVec.ofNat 64 ((List.range 7).foldl (fun m j => m + iotaReg (j + 7 * round) % 2 * 2 ^ (2 ^ j - 1)) 0)

def Sheets.iota (a : Sheets) (c : BitVec 64) : Sheets :=
  sheets (fun x y => if x = 0 ∧ y = 0 then a.lane x y ^^^ c else a.lane x y)

/-- The permutation: 24 rounds, with its tables. -/
def Sheets.permute (a : Sheets) (table : List (List Nat)) (words : List (BitVec 64)) : Sheets :=
  words.foldl (fun b c => ((b.theta.rhoPi table).chi).iota c) a

/-- The rate of SHAKE256 in bytes. -/
def shakeRate : Nat := 136

/-- A block of the rate is added to the lanes x + 5y = 0 to 16. -/
def Sheets.absorb (a : Sheets) (block : List (BitVec 8)) : Sheets :=
  sheets (fun x y =>
    let at_ := 8 * (x + 5 * y)
    if at_ < shakeRate then a.lane x y ^^^ BitVec.ofNat 64 (leNat ((block.drop at_).take 8)) else a.lane x y)

/-- The message and its padding: the suffix 1111 and the first 1 of the pad, and the last 1 at the block's end. -/
def shakeMessage (l : List (BitVec 8)) : List (BitVec 8) :=
  let room := shakeRate - l.length % shakeRate
  l ++ (List.range room).map (fun i => (if i = 0 then 0x1F else 0) ^^^ (if i + 1 = room then 0x80 else 0))

/-- The blocks of a message, `n` of them. -/
def Sheets.blocks (table : List (List Nat)) (words : List (BitVec 64)) (a : Sheets) : Nat → List (BitVec 8) → Sheets
  | 0, _ => a
  | n + 1, l => Sheets.blocks table words ((a.absorb (l.take shakeRate)).permute table words) n (l.drop shakeRate)

/-- The first 256 bits of SHAKE256, byte 0 first. -/
def shake256 (l : List (BitVec 8)) : List (BitVec 8) :=
  let a := Sheets.blocks rhoTable ((List.range 24).map iotaWord) [] (l.length / shakeRate + 1) (shakeMessage l)
  (List.range 4).flatMap (fun x => leBytes 8 (a.lane x 0).toNat)

end Sys2Proof.Machine
end

