-- ==== Sys2Proof/Machine/Memory.lean ====
section
/-! DEFINITION. Loads and stores, to pocket memory and to the leaf (04_stitchers.md, Table 6: opcodes 0x0B and 0x0C;
R113, R114; 05_leaf_store.md R120 to R127). -/

namespace Sys2Proof.Machine

/-- The marks of the 64-bit pocket words that a range touches (R113). -/
def Stitcher.pocketMarks (x : Stitcher) (addr n : Nat) : List Nat :=
  (codeWords 8 addr n).map (fun a => spGet 0 x.memErr (a / 8))

/-- Bytes written to pocket memory; a word written in full loses its error. -/
def Stitcher.pocketWrite (x : Stitcher) (addr : Nat) (bytes : List (BitVec 8)) : Stitcher :=
  { x with pocket := memWrite x.pocket addr bytes,
           memErr := (codeWords 8 addr bytes.length).foldl (fun m a =>
             if addr ≤ a ∧ a + 8 ≤ addr + bytes.length then spDel m (a / 8) else m) x.memErr }

/-- The words of a range are stored anew with a good code. -/
def Stitcher.pocketMended (x : Stitcher) (addr n : Nat) : Stitcher :=
  { x with memErr := (codeWords 8 addr n).foldl (fun m a => spDel m (a / 8)) x.memErr }

/-- A read of pocket memory by an instruction: corrected errors are counted; an uncorrectable word is none (R113). -/
def State.pocketRead (s : State) (u : StId) (addr n : Nat) : State × Option (List (BitVec 8)) :=
  let x := s.st u
  let m := x.pocketMarks addr n
  let s := s.incF (sb u) F.ST_ECC_corrected (m.filter (fun v => decide (v = 1))).length
  if 2 ∈ m then (s, none) else (s, some (memRead x.pocket addr n))

/-- A scheduled access of the shared port by a stitcher, which waits for its grant (Table 7, R127). -/
def State.leafGrant (s : State) (u : StId) (t addr : Nat) : State × Nat :=
  let r := s.grant u.quire t addr
  (r.1.updSt u (fun x => { x with nextAt := max x.nextAt (r.2 + 1) }), r.2)

/-- A load of `n` bytes into the register that `put` writes. A misaligned address or one outside the space is a firing
fault with cause 5, an uncorrectable pocket word one with cause 2 (R113, R114); a poisoned leaf read delivers zeros and
fails the tick (R122). -/
def State.load (s : State) (u : StId) (i : Instr) (ra : SReg) (sp : Space) (imm : BitVec 12) (n : Nat)
    (put : State → BitVec 512 → Nat → State) : Out :=
  s.issue u i { srcs := [sK ra] } (fun s t pc =>
    let a := memAddr (s.st u) ra imm n
    if s.inRange u.quire sp a n n = false then s.firingFault u 5 t [pc, a]
    else match sp with
      | .pocket =>
        let r := s.pocketRead u a n
        (match r.2 with
        | none => r.1.firingFault u 2 t [0, a]
        | some b => put r.1 (BitVec.ofNat 512 (leNat b)) (t + 2))
      | .leaf =>
        let g := s.leafGrant u t a
        let r := g.1.leafRead u.quire a n (unitWord 1 u.st.val) (some g.2)
        let s := if r.poison then r.state.failTick (partOf u.quire) else r.state
        put s (BitVec.ofNat 512 (leNat r.bytes)) (g.2 + 4))

/-- A store of the low `n` bytes of a value, with the same addressing. A pocket store of part of a 64-bit word reads the
word, as its code needs: an error of one bit is corrected and counted, an uncorrectable word is a fault (R113, DEDUCED). A
store toward a result slot stalls while the outbound hold is full (03_presses.md R79). -/
def State.store (s : State) (u : StId) (i : Instr) (ra : SReg) (src : Nat) (sp : Space) (imm : BitVec 12) (n : Nat)
    (val : Stitcher → BitVec 512) : Out :=
  let a0 := memAddr (s.st u) ra imm n
  s.issue u i
    { srcs := [sK ra, src],
      notBefore := if (s.st u).stall.isSome then spGet 0 (s.qu u.quire).freedAt 0 else 0,
      wait := if sp = .leaf ∧ s.inRange u.quire sp a0 n n ∧ s.fwdFull u.quire a0 n then some (2, none) else none }
    (fun s t pc =>
    let a := memAddr (s.st u) ra imm n
    let bytes := leBytes n (val (s.st u)).toNat
    if s.inRange u.quire sp a n n = false then s.firingFault u 5 t [pc, a]
    else match sp with
      | .pocket =>
        if n < 8 then
          match (s.pocketRead u a n).2 with
          | none => (s.pocketRead u a n).1.firingFault u 2 t [0, a]
          | some _ => (s.pocketRead u a n).1.updSt u (fun x => (x.pocketWrite a bytes).pocketMended a n)
        else s.updSt u (fun x => x.pocketWrite a bytes)
      | .leaf =>
        let g := s.leafGrant u t a
        (g.1.leafWrite u.quire a bytes (unitWord 1 u.st.val) (some g.2)).updSt u
          (fun x => { x with acceptedAt := max x.acceptedAt g.2 }))

/-- Loads a byte, zero above it. -/
def execLdB (u : StId) (rd ra : SReg) (sp : Space) (imm : BitVec 12) (s : State) : Out :=
  s.load u (.ldB u rd ra sp imm) ra sp imm 1 (fun s v t => s.putS u rd (v.setWidth 32) t)

/-- Loads a half-word, zero above it. -/
def execLdH (u : StId) (rd ra : SReg) (sp : Space) (imm : BitVec 12) (s : State) : Out :=
  s.load u (.ldH u rd ra sp imm) ra sp imm 2 (fun s v t => s.putS u rd (v.setWidth 32) t)

/-- Loads a word. -/
def execLdW (u : StId) (rd ra : SReg) (sp : Space) (imm : BitVec 12) (s : State) : Out :=
  s.load u (.ldW u rd ra sp imm) ra sp imm 4 (fun s v t => s.putS u rd (v.setWidth 32) t)

/-- Loads a signed byte. -/
def execLdBs (u : StId) (rd ra : SReg) (sp : Space) (imm : BitVec 12) (s : State) : Out :=
  s.load u (.ldBs u rd ra sp imm) ra sp imm 1 (fun s v t => s.putS u rd ((v.setWidth 8).signExtend 32) t)

/-- Loads a signed half-word. -/
def execLdHs (u : StId) (rd ra : SReg) (sp : Space) (imm : BitVec 12) (s : State) : Out :=
  s.load u (.ldHs u rd ra sp imm) ra sp imm 2 (fun s v t => s.putS u rd ((v.setWidth 16).signExtend 32) t)

/-- Loads a vector of 64 bytes. -/
def execVld (u : StId) (vd : VReg) (ra : SReg) (sp : Space) (imm : BitVec 12) (s : State) : Out :=
  s.load u (.vld u vd ra sp imm) ra sp imm 64 (fun s v t => s.putV u vd v t)

/-- Stores the low byte. -/
def execStB (u : StId) (rd ra : SReg) (sp : Space) (imm : BitVec 12) (s : State) : Out :=
  s.store u (.stB u rd ra sp imm) ra (sK rd) sp imm 1 (fun x => (x.s rd).setWidth 512)

/-- Stores the low half-word. -/
def execStH (u : StId) (rd ra : SReg) (sp : Space) (imm : BitVec 12) (s : State) : Out :=
  s.store u (.stH u rd ra sp imm) ra (sK rd) sp imm 2 (fun x => (x.s rd).setWidth 512)

/-- Stores a word. -/
def execStW (u : StId) (rd ra : SReg) (sp : Space) (imm : BitVec 12) (s : State) : Out :=
  s.store u (.stW u rd ra sp imm) ra (sK rd) sp imm 4 (fun x => (x.s rd).setWidth 512)

/-- Stores a vector of 64 bytes. -/
def execVst (u : StId) (vd : VReg) (ra : SReg) (sp : Space) (imm : BitVec 12) (s : State) : Out :=
  s.store u (.vst u vd ra sp imm) ra (vK vd) sp imm 64 (fun x => x.v vd)

end Sys2Proof.Machine
end

