-- ==== Sys2Proof/Machine/PartMem.lean ====
section
/-! DEFINITION. Partition memory as an operation: reads and writes of its data words with their codes
(07_catchword_paging.md R167 to R169, R187). -/

namespace Sys2Proof.Machine

/-- The end of partition memory and of its program space (R167, R169). -/
def pmaEnd : Nat := 0x3C00000000
def progEnd : Nat := 0x3BF0000000

def memKey (p : PartId) (a : Nat) : Nat := p.val * 2 ^ 38 + a
def markKey (p : PartId) (a : Nat) : Nat := p.val * 2 ^ 33 + a / 32

/-- The channel of an address (R167). -/
def channelOf (a : Nat) : Nat := a / 256 % 16

/-- The error mark of the data word at an address. -/
def State.memErr (s : State) (p : PartId) (a : Nat) : Nat := spGet 0 s.memMark (markKey p a)

/-! Counters of the colophon that steward RAM accumulates (14_event_recorder_and_colophon.md R355). -/

/-- A byte of a section. -/
def colKey (sec off : Nat) : Nat := sec * 2 ^ 24 + off

/-- A 32-bit counter of a section that steward RAM accumulates: flash and the sum since the last flush. -/
def State.colAdd (s : State) (sec off n : Nat) : State :=
  let k := colKey sec off
  let v := min (2 ^ 32 - 1) (leNat (memRead s.stew.ram k 4) + n)
  { s with stew := { s.stew with ram := memWrite s.stew.ram k (leBytes 4 v) } }

/-- The places of the unit counters of cord links and of LPDDR5X channels in section 0x03 (14, Tables 6 and 7). -/
def linkEntry (n : Nat) : Nat := 64 * (36 + n)
def channelEntry (c : Nat) : Nat := 64 * (114 + c)

/-- A read of a data word counts its error in the channel's PG_ECC; corrections are kept by row (R168,
10_collation_and_checking.md R278). -/
def State.countEcc (s : State) (p : PartId) (a : Nat) : State :=
  match s.memErr p a with
  | 1 =>
    let s : State := { s with dramFixes := s.dramFixes ++ [(p.val, channelOf a, Config.dramRow a, s.ns)] }
    (s.incF (pt p) (F.PG_ECC_corrected.nth (channelOf a))).colAdd 0x03 (channelEntry (16 * p.val + channelOf a) + 4) 1
  | 2 => (s.incF (pt p) (F.PG_ECC_uncorrectable.nth (channelOf a))).colAdd 0x03 (channelEntry (16 * p.val + channelOf a) + 8) 1
  | _ => s

/-- A read of `n` bytes: the state with its errors counted, the bytes, the addresses of uncorrectable words. -/
def State.pmRead (s : State) (p : PartId) (a n : Nat) : State × List (BitVec 8) × List Nat :=
  let w := codeWords 32 a n
  (w.foldl (fun t x => t.countEcc p x) s, memRead s.mem (memKey p a) n, w.filter (fun x => decide (s.memErr p x = 2)))

/-- An uncorrectable read of partition memory is recorded, and its row charged (R185, 10_collation_and_checking.md R275). -/
def State.memUncorr (s : State) (p : PartId) (a table pos : Nat) : State :=
  (s.raise (.part p) Ev.PG_MEM_UNCORR (evSev Ev.PG_MEM_UNCORR) [channelOf a, a / 64, table, pos]).charge p
    (.dramRow p (channelOf a) (Config.dramRow a)) Ev.PG_MEM_UNCORR false

/-- A write of bytes: whole data words are encoded anew; a word covered in part is merged, and where its merge read is
uncorrectable its bytes are dropped (R187). The second part says that something was dropped. -/
def State.pmWrite (s : State) (p : PartId) (a : Nat) (bytes : List (BitVec 8)) : State × Bool :=
  let n := bytes.length
  (codeWords 32 a n).foldl (fun (t : State × Bool) w =>
    let lo := max w a
    let hi := min (w + 32) (a + n)
    let part := (bytes.drop (lo - a)).take (hi - lo)
    let whole := decide (a ≤ w) && decide (w + 32 ≤ a + n)
    if !whole && decide (t.1.memErr p w = 2) then (t.1.countEcc p w, true)
    else
      let u := if whole then t.1 else t.1.countEcc p w
      ({ u with mem := memWrite u.mem (memKey p lo) part, memMark := spDel u.memMark (markKey p w) }, t.2)) (s, false)

/-! Device writes and the snoop filter (09_host_attachment.md R227). -/

/-- A device write to a byte of an LD's window: a tracked line is back-invalidated at once, in the order of the writes. The
filter keeps the line until the host has answered. -/
def State.devWrite (s : State) (ld : Nat) (off : Nat) : State :=
  let e := (ld, off / 64)
  if s.filter.contains e then { s with snoops := s.snoops ++ [e] } else s

/-- A device write to a partition's area as the LD bound to it sees it. -/
def State.devWriteP (s : State) (p : PartId) (off : Nat) : State :=
  match s.ldOf p with
  | some l => s.devWrite l.val off
  | none => s

/-- The bytes of an extent (09_host_attachment.md R231). -/
def extentBytes : Nat := 0x10000000

/-- The device writes bytes of partition memory: each line, in the upload window that shows it and in the extents lent of
it, is back-invalidated where it is tracked (09_host_attachment.md R227). -/
def State.devWriteMem (s : State) (p : PartId) (a n : Nat) : State :=
  let up := s.f (pt p) F.PG_UPL_BASE_pma * 64
  (List.range (if n = 0 then 0 else (a + n - 1) / 64 - a / 64 + 1)).foldl (fun t i =>
    let x := (a / 64 + i) * 64
    let t := if up ≤ x ∧ x < up + 0x40000000 then t.devWriteP p (0x100000000 + p.val * 0x40000000 + (x - up)) else t
    (s.extents.filter (fun e => decide (e.part = p) && !e.offered && decide (e.pma ≤ x) && decide (x < e.pma + extentBytes))).foldl
      (fun u e => u.devWrite e.ld (0x4000000000 + e.slot * extentBytes + (x - e.pma))) t) s

/-- The 64-bit word at an address. -/
def word64 (l : List (BitVec 8)) : Nat := leNat (l.take 8)

end Sys2Proof.Machine
end

