-- ==== Sys2Proof/Machine/Routes.lean ====
section
/-! DEFINITION. The fixed routes of the cord mesh and the spine, and the copies of the maps at which a unit or message is
translated (08_cord_mesh_and_spine.md R191, R193, R198, R203, R206). -/

namespace Sys2Proof.Machine

/-! Cord mesh routes (R193): a link as a route takes it is its number and its direction (Table 2, MS_LINK_SEL). -/

/-- Along row `r` from column `a` to column `b`. -/
def rowHops (r a b : Nat) : List (Nat × Bool) :=
  if a ≤ b then (List.range (b - a)).map (fun i => (5 * r + a + i, false))
  else (List.range (a - b)).map (fun i => (5 * r + a - 1 - i, true))

/-- Along column `c` from row `a` to row `b`. -/
def colHops (c a b : Nat) : List (Nat × Bool) :=
  if a ≤ b then (List.range (b - a)).map (fun i => (30 + 6 * (a + i) + c, false))
  else (List.range (a - b)).map (fun i => (30 + 6 * (a - 1 - i) + c, true))

/-- Tile to tile: along the row, then along the column. -/
def tileRoute (a b : Nat) : List (Nat × Bool) := rowHops (a / 6) (a % 6) (b % 6) ++ colHops (b % 6) (a / 6) (b / 6)

/-- Hub to tile, at the hub port above its column; and back. -/
def hubRoute (t : Nat) : List (Nat × Bool) := (60 + t % 6, false) :: colHops (t % 6) 0 (t / 6)
def toHub (t : Nat) : List (Nat × Bool) := colHops (t % 6) (t / 6) 0 ++ [(60 + t % 6, true)]

/-- Memory to tile, at the memory port of its row on the partition's edge: west for PT0 and PT2, east for PT1 and PT3; and
back. -/
def memRoute (p : PartId) (t : Nat) : List (Nat × Bool) :=
  if p.val % 2 = 0 then (66 + t / 6, false) :: rowHops (t / 6) 0 (t % 6) else (72 + t / 6, false) :: rowHops (t / 6) 5 (t % 6)
def toMem (p : PartId) (t : Nat) : List (Nat × Bool) :=
  if p.val % 2 = 0 then rowHops (t / 6) (t % 6) 0 ++ [(66 + t / 6, true)] else rowHops (t / 6) (t % 6) 5 ++ [(72 + t / 6, true)]

/-- Mesh hops of a tile-to-tile route, and its seam crossings: links 5r + 2 (R196). -/
def hops (a b : Nat) : Nat := (tileRoute a b).length
def crossings (a b : Nat) : Nat := ((tileRoute a b).filter (fun h => decide (h.1 < 30) && decide (h.1 % 5 = 2))).length

/-- The tiles of a partition's block (00_scope.md R4). -/
def blockTiles (p : PartId) : List Nat :=
  (List.range 9).map (fun i => 6 * (3 * (p.val / 2) + i / 3) + 3 * (p.val % 2) + i % 3)

/-- A link of a route is down: the unit waits (R198). -/
def State.routeDown (s : State) (l : List (Nat × Bool)) : Bool :=
  l.any (fun h => (spGet .init s.links (2 * h.1 + (if h.2 then 1 else 0))).down)

/-- Bulk traffic on its way to a quire's leaf waits for a link that is down: a page's rows from the memory port, host writes and
landing copies from the hub port (R193, R198). -/
def State.bulkWaits (s : State) (q : QuireId) (writer : Nat) : Bool :=
  if writer / 256 = 6 then s.routeDown (memRoute (partOf q) (s.tileOf q))
  else if writer / 256 = 7 ∨ writer / 256 = 0x10 then s.routeDown (hubRoute (s.tileOf q))
  else false

/-! Spine routes (R206): tiles' stops 0 to 35, the hub's 36 to 41 above columns 0 to 5. -/

/-- The stops that a walk from `a` to `b` in steps of one meets after `a`. -/
def walk (a b : Nat) : List Nat :=
  if a ≤ b then (List.range (b - a)).map (fun i => a + 1 + i) else (List.range (a - b)).map (fun i => a - 1 - i)

/-- The column of a stop. -/
def stopCol (a : Nat) : Nat := a % 6

/-- The stops that a message meets after the one it enters at, its destination last. -/
def spineRoute (a b : Nat) : List Nat :=
  if a < 36 ∧ b < 36 then
    (walk (a % 6) (b % 6)).map (fun c => 6 * (a / 6) + c) ++ (walk (a / 6) (b / 6)).map (fun r => 6 * r + b % 6)
  else if 36 ≤ a ∧ b < 36 then
    (walk (a % 6) (b % 6)).map (fun c => 36 + c) ++ (List.range (b / 6 + 1)).map (fun r => 6 * r + b % 6)
  else if a < 36 then
    (List.range (a / 6)).map (fun i => a - 6 * (i + 1)) ++ (36 + a % 6) :: (walk (a % 6) (b % 6)).map (fun c => 36 + c)
  else (walk (a % 6) (b % 6)).map (fun c => 36 + c)

/-- The cycles of a spine message: 1 a hop, 2 a kettle (at the seam, and between the hub and a half), 1 to eject. -/
def spineCycles (a b : Nat) : Nat :=
  let seam := if a < 36 ∧ b < 36 ∧ (a % 6 < 3) ≠ (b % 6 < 3) then 2 else 0
  let edge := if (a < 36) ≠ (b < 36) then 2 else 0
  (spineRoute a b).length + seam + edge + 1

/-! The maps' copies (R203). -/


/-- What the copy of a map at a stop says of a quire: its MS_MAP word. -/
def State.copyAt (s : State) (stop : Nat) (q : QuireId) : BitVec 32 :=
  (spGet [] s.mapCopies (4 * stop + (partOf q).val)).getD (localOf q) 0x100

/-- The tile to which the network interface or stop where a unit enters translates a quire's number; 36 where its copy says
that no tile carries the quire. -/
def State.tileAt (s : State) (stop : Nat) (q : QuireId) : Nat :=
  if (s.copyAt stop q).getLsbD 8 then 36 else (s.copyAt stop q).toNat % 64

/-- The tile that a unit from one quire to another is addressed to. -/
def State.addressed (s : State) (src dst : QuireId) : Nat := s.tileAt (s.tileOf src) dst

/-- A unit between two quires waits for a link that is down. -/
def State.unitWaits (s : State) (src dst : QuireId) : Bool := s.routeDown (tileRoute (s.tileOf src) (s.addressed src dst))

/-! Destinations on the spine (R206, Table 4). -/

/-- The stop at which a message ends that enters the spine at `entry`: a quire's, as the copy there translates it, a
sequencer's, the recorder core's, the steward port's, the loader's; 39 is the hub's host side, to which Table 4 gives no number
(DESIGN CHOICE). -/
def State.stopFor (s : State) (entry dest : Nat) : Nat :=
  if dest < 32 then min 35 (s.tileAt entry ⟨dest % 32, by omega⟩)
  else match dest with
    | 32 => 37
    | 33 => 40
    | 34 => 37
    | 35 => 40
    | 37 => 39
    | 39 => 36 + Config.hubStop.val
    | _ => 38

/-- The stop that drops a message for parity, by its place on the message's way (R210). -/
def State.dropStop (s : State) (entry dest : Nat) (i : Hop) : Nat :=
  let stop := s.stopFor entry dest
  let way := spineRoute entry stop
  way.getD (min i.val (way.length - 1)) stop

/-- The sequencer of a partition sits at the hub stop above column 1 or 4. -/
def seqStop (p : PartId) : Nat := if p.val % 2 = 0 then 37 else 40

/-- A branch of a message from `entry` to a stop passes, or ends at, the stop `d`. -/
def feeds (entry d stop : Nat) : Bool := decide (d = stop) || (spineRoute entry stop).contains d

/-- The quires of a partition whose branch of a broadcast from `entry` passes the stop `d` (R210). -/
def State.fedQuires (s : State) (entry : Nat) (p : PartId) (d : Nat) : List QuireId :=
  ((List.range 8).map (quireOf p)).filter (fun q => decide (s.tileAt entry q < 36) && feeds entry d (s.tileAt entry q))

/-- The stops among some that drop a broadcast to a partition: those that receive it, on a branch that none before has
dropped. -/
def State.dropsMade (s : State) (entry : Nat) (p : PartId) (l : List Nat) : List Nat :=
  l.dedup.filter (fun d => (s.fedQuires entry p d ≠ []) && !(l.any (fun e => decide (e ≠ d) && feeds entry e d)))

/-- Units that meet a failed tile, a tile that does not carry the quire they are addressed to, or an absent quire are
absorbed there and recorded with their count; 0xFF where no tile carries the quire (R205; the last DESIGN CHOICE). -/
def State.noteAbsent (s : State) (q : QuireId) (tile units : Nat) : State :=
  if units = 0 then s
  else s.raise (.part (partOf q)) Ev.MS_ABSENT (evSev Ev.MS_ABSENT) [q.val, if tile < 36 then tile else 0xFF, units]

end Sys2Proof.Machine
end

