-- ==== Sys2Proof/Machine/Pager.lean ====
section
/-! DEFINITION. The pager: hints, page-ins and page-outs, due points, uploads (07_catchword_paging.md R170 to R190). -/

namespace Sys2Proof.Machine

/-! Fields of a hint entry's first word (Table 3). -/

def Hint.pos (h : Hint) : Nat := h.word % 2 ^ 24
def Hint.table (h : Hint) : Nat := h.word / 2 ^ 24 % 64
def Hint.slot (h : Hint) : Nat := h.word / 2 ^ 35 % 4096
def Hint.compEn (h : Hint) : Bool := decide (h.word / 2 ^ 47 % 2 = 1)
def Hint.stitcher (h : Hint) : Nat := h.word / 2 ^ 48 % 64
def Hint.port (h : Hint) : Nat := h.word / 2 ^ 54 % 32
def Hint.part (h : Hint) : PartId := partOf h.quire

/-- A local quire is absent (08_cord_mesh_and_spine.md R205). -/
def State.absent (s : State) (q : QuireId) : Bool :=
  decide (s.f (pt (partOf q)) (F.MS_MAP_absent.nth (localOf q)) = 1)

/-- The page size of a table (PG_TBL_CFG.size). -/
def State.pageSize (s : State) (p : PartId) (t : Nat) : Nat := 4096 * 2 ^ s.f (tb p t) F.PG_TBL_CFG_size

/-- The page of an entry (R170). -/
def State.pageIndex (s : State) (p : PartId) (t pos : Nat) : Nat := pos / 2 ^ s.f (tb p t) F.PG_TBL_CFG_shift

/-- The check of an entry when it is accepted: 0, or the reason's code (R175, 14_event_recorder_and_colophon.md R381). -/
def State.hintCheck (s : State) (p : PartId) (w0 w1 : Nat) : Nat :=
  let t := w0 / 2 ^ 24 % 64
  if w0 / 2 ^ 31 % 2 = 1 ∨ w0 / 2 ^ 59 ≠ 0 ∨ w1 / 2 ^ 12 ≠ 0 then 0x3D
  else if s.f (tb p t) F.PG_TBL_CFG_valid = 0 then 0x3E
  else if s.f (tb p t) F.PG_TBL_LEN_pages ≤ s.pageIndex p t (w0 % 2 ^ 24) then 0x3F
  else if s.f (tb p t) F.PG_TBL_LAND_slots ≤ w0 / 2 ^ 35 % 4096 then 0x40
  else if s.absent (quireOf p (w0 / 2 ^ 32 % 8)) then 0x18
  else 0

def State.updHints (s : State) (p : PartId) (f : List Hint → List Hint) : State :=
  s.updPart p (fun x => { x with hints := f x.hints })

/-- An entry that ends without moving data; the completion counts as arrived 24 cycles after the cycle given: that of its
acceptance for a refused entry, else the present one (R178, R185). -/
def Hint.failed (h : Hint) (status cyc : Nat) : Hint := { h with status := status, phase := .complete, arrive := cyc + 24 }

/-- An entry is complete, with whatever status: its direction's count of pages goes up (PG_IN, PG_OUT). -/
def State.countPage (s : State) (h : Hint) : State :=
  let lo := if h.isOut then R.PG_OUT_LO else R.PG_IN_LO
  let hi := if h.isOut then R.PG_OUT_HI else R.PG_IN_HI
  s.setCnt (pt h.part) lo hi (s.cnt (pt h.part) lo hi + 1)

/-- The pager accepts one entry (R174, R175). -/
def State.acceptHint (s : State) (u : StId) (pos index w0 w1 : Nat) : State :=
  let q := u.quire
  let p := partOf q
  let t := w0 / 2 ^ 24 % 64
  let c := s.hintCheck p w0 w1
  let valid := decide (s.f (tb p t) F.PG_TBL_CFG_valid = 1)
  let n := (s.qu q).tick
  let sz := s.pageSize p t
  let x := s.part p
  let h : Hint :=
    { id := x.hintId, owner := q, sender := u.st.val, quire := quireOf p (w0 / 2 ^ 32 % 8), word := w0, tag := w1 % 4096,
      index := index,
      dueTick := (n + (if valid then s.f (tb p t) F.PG_TBL_CFG_distance else 1)) % 2 ^ 48,
      duePos := if valid then s.f (tb p t) F.PG_TBL_DUE_position else 1,
      phase := .queued, status := 0, pma := 0,
      code := s.f (tb p t) F.PG_TBL_CODE_pma * 64 + 4 * s.pageIndex p t (w0 % 2 ^ 24), size := sz,
      land_ := s.f (tb p t) F.PG_TBL_LAND_base * 4096 + w0 / 2 ^ 35 % 4096 * sz,
      data := [], moved := 0, bad := [], arrive := 0, quiet := false, freed := false, waited := false,
      sentAt := pos, accepted := s.cycleOf q (pos + index / 4) }
  let h := if c = 0 then h else h.failed 1 h.accepted
  let s := s.setPart p { x with hints := x.hints ++ [h], hintId := x.hintId + 1 }
  let s := if c = 0 then s
    else ((s.countPage h).incF (pt p) F.PG_LATE_refused).raise (.quire q) Ev.PG_HINT_BAD 2 [u.st.val, index, c]
  s.setF (qb q) F.PG_QSTAT_peak (max (s.f (qb q) F.PG_QSTAT_peak) (s.hintQueue q))

/-- The entries of a list, with their places. -/
def acceptAll (u : StId) (pos : Nat) : List (BitVec 8) → Nat → Nat → State → State
  | _, _, 0, s => s
  | l, i, n + 1, s => acceptAll u pos (l.drop 16) (i + 1) n (s.acceptHint u pos i (word64 l) (word64 (l.drop 8)))

/-- Copies a list of s(rb) entries from pocket address s(ra) into the quire's hint queue, one line a cycle, stalling while
it is full (R105, R174, R176). A count above 64 takes nothing, is recorded and fails the tick; a count of 0 has no
effect. After a firing fault of the quire the network interface discards it (R115). -/
def execHint (u : StId) (ra rb : SReg) (s : State) : Out :=
  let x := s.st u
  let q := u.quire
  let a := (x.s ra).toNat
  let n := (x.s rb).toNat
  let ok := s.inRange q .pocket a 64 (16 * n)
  let takes := decide (1 ≤ n) && decide (n ≤ 64) && ok
  s.issue u (.hint u ra rb)
    { srcs := [sK ra, sK rb],
      occupy := if takes then (n + 3) / 4 else 1,
      notBefore := if x.stall.isSome then spGet 0 (s.qu q).freedAt 4 else 0,
      wait := if takes ∧ 512 < s.hintQueue q + n then some (4, none) else none }
    (fun s t pc =>
      if n = 0 then s
      else if 64 < n then (s.raise (.quire q) Ev.PG_HINT_BAD 2 [u.st.val, n, 0x39]).failTick (partOf q)
      else if ok = false then s.firingFault u 5 t [pc, a]
      else
        let r := s.pocketRead u a (16 * n)
        match r.2 with
        | none => r.1.firingFault u 2 t [0, a]
        | some b => if (s.qu q).discarding then r.1.incF (qb q) F.ST_FAULT_discarded else acceptAll u t b 0 n r.1)

/-! Starting entries (R182, R186). -/

/-- The order of entries: due tick counted from the partition's tick, due position, acceptance (R182). -/
def hintKey (tick : Nat) (h : Hint) : Nat × Nat × Nat := ((h.dueTick + 2 ^ 48 + 2 ^ 47 - tick) % 2 ^ 48, h.duePos, h.id)

def keyLe (a b : Nat × Nat × Nat) : Bool :=
  decide (a.1 < b.1) || (decide (a.1 = b.1) && (decide (a.2.1 < b.2.1) || (decide (a.2.1 = b.2.1) && decide (a.2.2 ≤ b.2.2))))

/-- An entry placed in the order. -/
def insHint (tick : Nat) (h : Hint) : List Hint → List Hint
  | [] => [h]
  | g :: t => if keyLe (hintKey tick h) (hintKey tick g) then h :: g :: t else g :: insHint tick h t

/-- The page's memory address: linear, or the indexed entry's word, whose reading may fail (R170). The answer is a
status, 0 where the page is good, with its event's reason; 5 where the entry's word, or the code word of a good page, lies
past the end of partition memory, where the spec gives no memory (R167). -/
def State.findPage (s : State) (h : Hint) : State × Nat × Nat × Nat :=
  let p := h.part
  let t := h.table
  let i := s.pageIndex p t h.pos
  let base := s.f (tb p t) F.PG_TBL_BASE_pma * 64
  let good := if pmaEnd < h.code + 4 then 5 else 0
  if s.f (tb p t) F.PG_TBL_CFG_mode = 0 then
    let a := base + i * h.size
    if progEnd < a + h.size then (s, a, 1, 0x16) else (s, a, good, 0)
  else if pmaEnd < base + 8 * i + 8 then (s, base + 8 * i, 5, 0)
  else
    let e := base + 8 * i
    let r := s.pmRead p e 8
    let w := word64 r.2.1
    let a := w / 2 ^ 12 % 2 ^ 26 * 4096
    if r.2.2 ≠ [] then (r.1, e, 2, 0)
    else if w % 2 = 0 ∨ w / 2 % 2 ^ 11 ≠ 0 ∨ w / 2 ^ 38 ≠ 0 ∨ a % h.size ≠ 0 ∨ progEnd < a + h.size then (r.1, a, 1, 0x42)
    else (r.1, a, good, 0)

/-- Another live entry accepted before `h` keeps it waiting: 1 for a page-in to the same slot, 2 for an overlap of
memory, 0 for none (R186). -/
def State.blockedBy (s : State) (h : Hint) (l : List Hint) : Nat :=
  let a := (s.findPage h).2.1
  let live := l.filter (fun g => decide (g.id < h.id) && (g.phase == .queued || g.phase == .moving))
  if !h.isOut && live.any (fun g => !g.isOut && decide (g.table = h.table) && decide (g.quire = h.quire) &&
      decide (g.slot = h.slot)) then 1
  else if live.any (fun g => (g.isOut != h.isOut) &&
      (let b := (s.findPage g).2.1
       decide (a < b + g.size) && decide (b < a + h.size))) then 2
  else 0

/-- Counts an entry's wait, once (R186). -/
def State.noteWait (s : State) (h : Hint) (why : Nat) : State :=
  let p := h.part
  if h.waited then s
  else
    let s := s.updHints p (fun l => l.map (fun g => if g.id = h.id then { g with waited := true } else g))
    if why = 1 then (s.incF (pt p) F.PG_ORDER_slot_reuse).raise (.part p) Ev.PG_SLOT_REUSE 1
      [localOf h.quire, h.table, h.slot]
    else s.incF (pt p) F.PG_ORDER_overlap_waits

def State.setHint (s : State) (h : Hint) : State :=
  s.updHints h.part (fun l => l.map (fun g => if g.id = h.id then h else g))

/-- The pager's memory error: counted and recorded (R185). -/
def State.pagerMemErr (s : State) (h : Hint) (a : Nat) : State :=
  (s.incF (pt h.part) F.PG_ERR_mem_uncorr).memUncorr h.part a h.table h.pos

/-- The rows of a started page-in go to the write buffer while it has room (R128, R183). -/
def State.pushRows (s : State) (h : Hint) : Nat → State
  | 0 => s
  | n + 1 =>
    match (s.part h.part).hints.find? (fun g => decide (g.id = h.id)) with
    | none => s
    | some g =>
      let x := s.qu g.quire
      if g.moved < g.size ∧ x.wbuf.length < 32 ∧ x.wwait.isEmpty then
        let mask := (List.range 8).foldl (fun m k => if g.moved / 64 + k ∈ g.bad then m + 2 ^ k else m) 0
        let w : HeldWrite := { addr := g.land_ + g.moved, bytes := (g.data.drop g.moved).take 512,
                               writer := unitWord 6 g.part.val, poison := mask, marked := false, page := some g.id }
        let s := s.setQu g.quire { x with wbuf := x.wbuf ++ [w] }
        let s := s.setF (qb g.quire) F.LF_RACE_wbuf_peak (max (s.f (qb g.quire) F.LF_RACE_wbuf_peak) (x.wbuf.length + 1))
        (s.setHint { g with moved := g.moved + 512 }).pushRows g n
      else s

/-- The write buffer's free places take the writes that wait for one, in order, then rows of started page-ins (R128). -/
def State.refill (s : State) (q : QuireId) : State :=
  let s := s.updQu q (fun x =>
    { x with wbuf := x.wbuf ++ x.wwait.take (32 - x.wbuf.length), wwait := x.wwait.drop (32 - x.wbuf.length) })
  ((s.part (partOf q)).hints.filter (fun h => decide (h.quire = q) && !h.isOut && h.phase == .moving)).foldl
    (fun t h => t.pushRows h 32) s

/-- An upload write lands in partition memory (R187). -/
def State.landUpload (s : State) (p : PartId) (w : Upload) : State :=
  let s := s.updPart p (fun x => { x with md := x.md.map (fun m =>
    if w.pma < m.base + m.units * 64 ∧ m.base < w.pma + w.bytes.length then { m with torn := true } else m) })
  let r := s.pmWrite p w.pma w.bytes
  if r.2 then (r.1.incF (pt p) F.PG_UPL_STAT_refused).raise (.part p) Ev.PG_UPLOAD_REFUSED 1
    [0, w.pma - s.f (pt p) F.PG_UPL_BASE_pma * 64, 0x1A, w.ld]
  else r.1

/-- A pager operation on these bytes of memory is live (R186). -/
def State.pageOver (s : State) (p : PartId) (a n : Nat) : Option Hint :=
  (s.part p).hints.find? (fun h => (h.phase == .queued || h.phase == .moving) &&
    (let b := (s.findPage h).2.1
     decide (a < b + h.size) && decide (b < a + n)))

/-- Waiting upload writes that no live page holds back land, in order. -/
def State.landUploads (s : State) (p : PartId) : State :=
  let l := (s.part p).uploads
  let ready := l.takeWhile (fun w => (s.pageOver p w.pma w.bytes.length).isNone)
  let s := s.updPart p (fun x => { x with uploads := l.drop ready.length })
  ready.foldl (fun t w => t.landUpload p w) s

/-- An entry that ends at its start: what waited behind its page goes on (R178, R185, R186). -/
def State.endHint (s : State) (h : Hint) (status : Nat) : State :=
  let at_ := if status = 1 then h.accepted else (s.part h.part).cyc
  ((s.setHint (h.failed status at_)).countPage h).landUploads h.part

/-- Each uncorrectable data word's granule and channel that a page's reads meet (R185, R190). -/
def badGranules (l : List Nat) : List Nat := ((l.map (· / 256)).dedup).map (· * 256)

/-- An entry starts: its page is found and read from memory, or from the leaf for a page-out (R177, R182, R185). -/
def State.startHint (s : State) (h : Hint) : State :=
  let p := h.part
  let r := s.findPage h
  let s := r.1
  let a := r.2.1
  if r.2.2.1 = 2 then (s.endHint h 2).pagerMemErr h a
  else if r.2.2.1 = 1 then
    ((s.endHint h 1).incF (pt p) F.PG_LATE_refused).raise (.quire h.owner) Ev.PG_HINT_BAD 2
      [h.sender, h.index, r.2.2.2]
  else if h.isOut then
    let l := s.leafReads h.quire (unitWord 6 p.val) ((rowParts h.land_ h.size).map (fun v => (v.1, v.2, none)))
    if l.poison then
      ((l.state.endHint h 4).incF (pt p) F.PG_ERR_out_poison).raise (.part p) Ev.PG_OUT_POISON 2
        [localOf h.quire, h.table, h.slot, h.land_]
    else l.state.setHint { h with phase := .moving, pma := a, data := l.bytes }
  else
    let c := s.pmRead p h.code 4
    if c.2.2 ≠ [] then (c.1.endHint h 2).pagerMemErr h h.code
    else
      let d := c.1.pmRead p a h.size
      let bad := (d.2.2.map (fun w => (w - a) / 64)).dedup
      let h := { h with phase := .moving, pma := a, data := d.2.1, bad := bad, status := if bad = [] then 0 else 2 }
      let s := d.1.setHint h
      let s := if bad = [] then s else s.incF (pt p) F.PG_ERR_mem_uncorr
      let s := (badGranules d.2.2).foldl (fun t g =>
        t.memUncorr p ((d.2.2.find? (fun w => decide (w / 256 * 256 = g))).getD g) h.table h.pos) s
      s.pushRows h 32

/-- The pager starts the next entry in due order that no other holds back, where the channels have operations left for its
page: 128 each, 2,048 in all (R182, R186). -/
def execPagerEntryStart (p : PartId) (s : State) : Out :=
  let tick := s.cnt (pt p) R.TK_COUNT_LO R.TK_COUNT_HI
  let l := (s.part p).hints
  let ready := (l.filter (fun h => h.phase == .queued)).foldl (fun m h => insHint tick h m) []
  let ahead := ready.takeWhile (fun h => decide (s.blockedBy h l ≠ 0))
  let s' := ahead.foldl (fun t h => t.noteWait h (s.blockedBy h l)) s
  if s.f (pt p) F.RS_STATUS_fenced = 1 then .next s
  else match ready.find? (fun h => decide (s.blockedBy h l = 0)) with
  | some h =>
    if (s.findPage h).2.2.1 = 5 then .fault .noPartitionMemory
    else if 2048 < s.outstanding p + h.size / 256 then .next s'
    else .next (s'.startHint h)
  | none => .next s'

/-- A page-in whose last write has landed, or a page-out, is complete (R178): the code is checked or written, and the
completion counts as arrived 3 or 24 cycles on. -/
def State.completeHint (s : State) (h : Hint) : State :=
  let p := h.part
  let cyc := (s.part p).cyc
  if h.isOut then
    let s := (s.pmWrite p h.pma h.data).1
    let s := (s.pmWrite p h.code (leBytes 4 (crc32c h.data).toNat)).1
    let s := (s.devWriteMem p h.pma h.data.length).devWriteMem p h.code 4
    (s.setHint { h with phase := .complete, arrive := cyc + 24 }).countPage h
  else
    let want := leNat ((s.pmRead p h.code 4).2.1)
    let got := (crc32c h.data).toNat
    let bad := decide (h.status = 0) && decide (want ≠ got)
    let s := (s.setHint { h with phase := .complete, arrive := cyc + 3, status := if bad then 3 else h.status }).countPage h
    if bad then (s.incF (pt p) F.PG_ERR_collation).raise (.part p) Ev.COLL_PAGE 2 [h.table, h.pos, want, got] else s

/-- The oldest started entry whose data has all moved is complete. A fence stops the pager (11_fences_resets_recovery.md
R286). -/
def execPageComplete (p : PartId) (s : State) : Out :=
  let l := (s.part p).hints
  if s.f (pt p) F.RS_STATUS_fenced = 1 then .next s
  else match l.find? (fun h => h.phase == .moving && ((h.isOut && !s.routeDown (toMem p (s.tileOf h.quire))) || (!h.isOut && decide (h.size ≤ h.moved) &&
      !((s.qu h.quire).wbuf ++ (s.qu h.quire).wwait).any (fun w => decide (w.page = some h.id))))) with
  | some h => .next ((s.completeHint h).landUploads p)
  | none => .next s

/-! The due point (R178 to R181). -/

/-- The completion's run cycle at its landing quire. -/
def State.arriveRun (s : State) (h : Hint) : Nat := h.arrive + 1 - (s.qu h.quire).start

/-- The completion's data word (Table 4). -/
def Hint.dataWord (h : Hint) (late : Bool) : Nat :=
  h.word % 2 ^ 31 % 2 ^ 30 + (if h.isOut then 2 ^ 30 else 0) + (if late then 2 ^ 31 else 0) + h.status * 2 ^ 32
    + h.slot * 2 ^ 36

/-- A completion is released at a due position: its token becomes readable, a faulty status fails the tick, its place in
the hint queue is freed (R176, R178, R180). An entry without a completion frees its place only, and one that still moves
its page goes on (R186, R189). -/
def State.releaseHint (s : State) (h : Hint) (late : Bool) : State :=
  let q := h.quire
  let s := s.updQu h.owner (fun x => { x with freedAt := spSet 0 x.freedAt 4 h.duePos })
  let s := if h.phase == .arrived then s.updHints h.part (fun l => l.filter (fun g => decide (g.id ≠ h.id)))
    else s.setHint { h with freed := true }
  if h.quiet then s
  else
  let s := if h.status = 0 then s else s.failTick h.part
  if h.compEn then
    s.internalToken ⟨q, ⟨h.stitcher % 64, by omega⟩⟩ h.port h.tag false (BitVec.ofNat 64 (h.dataWord late)) h.duePos
  else s

/-- The entries of a quire due at a position of its open tick. -/
def State.dueAt (s : State) (q : QuireId) (pos : Nat) : List Hint :=
  (s.part (partOf q)).hints.filter (fun h =>
    decide (h.quire = q) && !h.freed && decide (h.dueTick = (s.qu q).tick) && decide (h.duePos = pos))

/-- The next due position of a quire's open tick. -/
def State.nextDue (s : State) (q : QuireId) : Option Nat :=
  (((s.part (partOf q)).hints.filter (fun h =>
    decide (h.quire = q) && !h.freed && decide (h.dueTick = (s.qu q).tick))).map (fun h => h.duePos)).min?

/-- Every completion due at a position is released, the late ones after a pause that ends when the last has arrived and is
charged to the late-page stall (R179). -/
def State.releaseDue (s : State) (q : QuireId) (pos : Nat) : State :=
  let due := s.dueAt q pos
  let here := (s.qu q).runAt pos
  let late (h : Hint) : Bool := decide (here < s.arriveRun h) && !h.quiet
  let last := due.foldl (fun m h => if h.quiet then m else max m (s.arriveRun h)) here
  let n := (due.filter late).length
  let s' := (s.updQu q (fun x =>
    { x with latePage := x.latePage + (last - here), latePages := x.latePages + n, duePause := none })).delayFrom q pos
      (last - here)
  let s' := s'.incF (pt (partOf q)) F.PG_LATE_late n
  due.foldl (fun t h =>
    let t := if late h then t.raise (.quire q) Ev.LATE_PAGE 0
      [h.table, h.pos, h.slot, h.dueTick % 2 ^ 32, s.arriveRun h - here] else t
    t.releaseHint h (late h)) s'

/-- The landing quire waits for no completion of the entry: it has none, or has arrived or is known to arrive. -/
def Hint.isDone (h : Hint) : Bool := h.quiet || h.phase == .complete || h.phase == .arrived

/-- The landing quire reaches its next due position: the completions due there are released, or it pauses (R179). -/
def execPageDuePosition (q : QuireId) (s : State) : Out :=
  let x := s.qu q
  match s.nextDue q with
  | none => .next s
  | some pos =>
    if x.open_ = false ∨ x.done ∨ x.inReset then .next s
    else if (s.dueAt q pos).all (fun h => h.isDone) then .next (s.releaseDue q pos)
    else .next (s.setQu q { x with duePause := some pos })

/-- A completion arrives (R178); the last one that a paused quire waits for ends its pause (R179). -/
def execPageCompletionArrival (p : PartId) (s : State) : Out :=
  match takeLeast (fun h : Hint => h.arrive) ((s.part p).hints.filter (fun h => h.phase == .complete)) with
  | none => .next s
  | some (h, _) =>
    let s := (s.waitCycle p h.arrive).setHint { h with phase := .arrived }
    let s := if h.freed then s.updHints p (fun l => l.filter (fun g => decide (g.id ≠ h.id))) else s
    match (s.qu h.quire).duePause with
    | some pos => if (s.dueAt h.quire pos).all (fun g => g.isDone) then .next (s.releaseDue h.quire pos) else .next s
    | none => .next s

/-- The landing quire ends its tick before due positions: their completions are discarded and counted, their places
freed; the landing still completes; the cycles of a pause that waited for them stand (R179, R181). -/
def State.dropDue (s : State) (q : QuireId) : State :=
  let p := partOf q
  let mine (h : Hint) : Bool := decide (h.quire = q) && !h.freed && decide (h.dueTick = (s.qu q).tick)
  let n := ((s.part p).hints.filter mine).length
  let s := s.updHints p (fun l => (l.filter (fun h => !(mine h && h.phase == .arrived))).map
    (fun h => if mine h then { h with freed := true, quiet := true } else h))
  let s := s.updQu q (fun x => { x with duePause := none })
  s.incF (pt p) F.PG_ERR_unreleased n

/-- A late-page pause in progress when a deadline ends the tick at a run cycle: its cycles so far are charged (R179). -/
def State.chargePause (s : State) (q : QuireId) (run : Nat) : State :=
  match s.nextDue q with
  | some pos =>
    if (s.dueAt q pos).all (fun h => h.isDone) then s
    else s.updQu q (fun x => { x with latePage := x.latePage + (run - x.runAt pos) })
  | none => s

/-- Entries not started are cancelled and counted, started ones finish with no completion; upload writes that waited for a
cancelled page land (R186, R189). -/
def State.cancelHints (s : State) (p : PartId) (sel : Hint → Bool) (mask : Nat) : State :=
  let n := ((s.part p).hints.filter (fun h => sel h && h.phase == .queued)).length
  let s := s.updHints p (fun l => (l.filter (fun h => !(sel h && h.phase == .queued))).map
    (fun h => if sel h then { h with quiet := true } else h))
  if n = 0 then s
  else ((s.landUploads p).incF (pt p) F.PG_LATE_cancelled n).raise (.part p) Ev.PG_CANCEL 0 [mask, n]

/-! The upload path (R187, R188). -/

/-- A half is at full clock. -/
def State.halfUp (s : State) (p : PartId) : Bool := decide (s.f hub (halfFld (halfOf p)) = 0)

/-- The quire that the upload window's target names. -/
def State.uplQuire (s : State) (p : PartId) : QuireId := quireOf p (s.f (pt p) F.PG_UPL_CTRL_quire)

/-- Why an upload write is refused: 0 where it is not (R187). -/
def State.uplRefused (s : State) (p : PartId) (off n : Nat) : Nat :=
  if s.halfUp p = false then 0x19
  else if s.f (pt p) F.PG_UPL_CTRL_target = 0 then
    if progEnd < s.f (pt p) F.PG_UPL_BASE_pma * 64 + off + n then 0x16 else 0
  else if s.absent (s.uplQuire p) then 0x18
  else if s.leafSize (s.uplQuire p) < off + n then 0x17
  else 0

/-- What a host write of a line through a partition's upload window at a byte offset does (R187). -/
def State.uploadOp (s : State) (p : PartId) (ld : LdId) (off : Nat) (bytes : List Byte) : State :=
  let n := bytes.length
  let target := s.f (pt p) F.PG_UPL_CTRL_target
  let c := s.uplRefused p off n
  let a := s.f (pt p) F.PG_UPL_BASE_pma * 64 + off
  if c ≠ 0 then
    (s.incF (pt p) F.PG_UPL_STAT_refused).raise (.part p) Ev.PG_UPLOAD_REFUSED 1 [target, off, c, ld.val]
  else if target = 1 then
    let q := s.uplQuire p
    s.holdWrite q { addr := off, bytes := bytes, writer := unitWord 7 ld.val, poison := 0, marked := false, page := none }
  else
    let w : Upload := { pma := a, bytes := bytes, ld := ld.val, marked := false }
    match s.pageOver p a n with
    | some h =>
      let s := s.updPart p (fun x => { x with uploads := x.uploads ++ [w] })
      (s.incF (pt p) F.PG_UPL_STAT_waited).raise (.part p) Ev.PG_UPLOAD_ORDER 0 [a / 64, h.table, h.pos]
    | none =>
      if (s.part p).uploads.any (fun v => decide (v.pma / 64 = a / 64)) then
        s.updPart p (fun x => { x with uploads := x.uploads ++ [w] })
      else s.landUpload p w

/-- A write of 1 to PG_UPL_FLUSH.flush marks every accepted upload write; with none waiting it ends at once (R188). -/
def State.uploadFlush (s : State) (p : PartId) : State :=
  let s := s.updPart p (fun x => { x with uploads := x.uploads.map (fun w => { w with marked := true }) })
  let mark (w : HeldWrite) : HeldWrite := if w.writer / 256 = 7 then { w with marked := true } else w
  let s := (List.range 8).foldl (fun t i => t.updQu (quireOf p i) (fun x =>
    { x with wbuf := x.wbuf.map mark, wwait := x.wwait.map mark })) s
  s.setF (pt p) F.PG_UPL_FLUSH_flush 1

/-- The marked upload writes that have not landed. -/
def State.flushPending (s : State) (p : PartId) : Bool :=
  (s.part p).uploads.any (fun w => w.marked) ||
    (List.range 8).any (fun i => ((s.qu (quireOf p i)).wbuf ++ (s.qu (quireOf p i)).wwait).any (fun w => w.marked))


/-- All marked upload writes have landed: the bit reads 0 (R188). -/
def execUploadFlushDone (p : PartId) (s : State) : Out :=
  when_ (decide (s.f (pt p) F.PG_UPL_FLUSH_flush = 1) && !s.flushPending p) s (s.setF (pt p) F.PG_UPL_FLUSH_flush 0)

end Sys2Proof.Machine
end

