-- ==== Sys2Proof/Machine/LeafOps.lean ====
section
/-! DEFINITION. Leaf operations, the class map, the write buffer's landing, the scrubber and its digests
(05_leaf_store.md R124, R128 to R139). -/

namespace Sys2Proof.Machine

/-! Leaf operations (R131, R132). -/

def LeafOp.dst (o : LeafOp) : Nat := leAt o.bytes 4 4
def LeafOp.src (o : LeafOp) : Nat := leAt o.bytes 8 4
def LeafOp.len (o : LeafOp) : Nat := leAt o.bytes 12 4
def LeafOp.comp (o : LeafOp) : Nat := leAt o.bytes 16 4

/-- Copies a 64-byte descriptor from pocket address s(ra) into the leaf operation queue, which holds 4; stalls while it is
full (R105, R131). A misaligned address, or a range past pocket memory, is an address fault (R114, DEDUCED). -/
def State.leafOpIssue (s : State) (u : StId) (i : Instr) (ra : SReg) (op : Nat) : Out :=
  let x := s.st u
  let q := u.quire
  let a := (x.s ra).toNat
  let ok := s.inRange q .pocket a 64 64
  s.issue u i
    { srcs := [sK ra], notBefore := if x.stall.isSome then spGet 0 (s.qu q).freedAt 3 else 0,
      wait := if ok ∧ 4 ≤ (s.qu q).ops.length then some (4, none) else none }
    (fun s t pc =>
      if ok = false then s.firingFault u 5 t [pc, a]
      else
        let r := s.pocketRead u a 64
        match r.2 with
        | none => r.1.firingFault u 2 t [0, a]
        | some b =>
          let o : LeafOp := { bytes := b, op := op, sender := u.st.val, addr := a, at_ := t, running := false,
                              refused := false, poison := false, doneAt := 0 }
          (r.1.updQu q (fun y => { y with ops := y.ops ++ [o] })).updSt u
            (fun y => { y with acceptedAt := max y.acceptedAt t }))

/-- A fill (R131). -/
def execLeafFill (u : StId) (ra : SReg) (s : State) : Out := s.leafOpIssue u (.leafFill u ra) ra 0

/-- A copy (R131). -/
def execLeafCopy (u : StId) (ra : SReg) (s : State) : Out := s.leafOpIssue u (.leafCopy u ra) ra 1

/-- The checks of a descriptor at the head of the queue: 0, or the reason's code (R132). -/
def State.leafOpCheck (s : State) (q : QuireId) (o : LeafOp) : Nat :=
  let size := s.leafSize q
  let copy := decide (o.op = 1)
  if leAt o.bytes 0 1 % 4 ≠ o.op then 0x38
  else if leAt o.bytes 0 1 / 8 ≠ 0 ∨ leAt o.bytes 1 1 ≠ 0 ∨ o.comp / 2 ^ 23 ≠ 0 ∨ leNat (o.bytes.drop 20) ≠ 0 then 0x3D
  else if o.len = 0 ∨ o.len % 64 ≠ 0 then 0x39
  else if o.dst % 64 ≠ 0 ∨ (copy ∧ o.src % 64 ≠ 0) then 0x3A
  else if size < o.dst + o.len ∨ (copy ∧ size < o.src + o.len) then 0x3B
  else if copy ∧ o.src < o.dst + o.len ∧ o.dst < o.src + o.len then 0x3C
  else 0

/-- One row part of a copy's source is read at a position, and written: each poisoned source segment is written as a
poisoned destination segment (R122, R132). -/
def State.copyPart (s : State) (q : QuireId) (src dst n read write : Nat) : State × Bool :=
  let r := s.leafRead q src n (unitWord 5 0) (some read)
  if r.poison = false then (r.state.leafWrite q dst r.bytes (unitWord 5 0) (some write), false)
  else
    let bytes := memRead (s.qu q).leaf src n
    ((List.range (n / 64)).foldl (fun t k =>
      if r.bad.any (fun a => decide (a / 64 = src / 64 + k)) then t.leafPoison q (dst + 64 * k) 64
      else t.leafWrite q (dst + 64 * k) ((bytes.drop (64 * k)).take 64) (unitWord 5 0) (some write)) r.state, true)

/-- The 512-byte steps of an operation. -/
def opSteps (n : Nat) : Nat := (n + 511) / 512

/-- The accesses of a fill from position `a` on: 8 row writes a cycle, each asked for in its cycle; the position of the
last (Table 7). -/
def State.fillGrants (s : State) (q : QuireId) (a dst n : Nat) : State × Nat :=
  (List.range (opSteps n)).foldl (fun r i =>
    let g := r.1.grant q (a + 1 + i / 8) (dst + 512 * i)
    (g.1, max r.2 g.2)) (s, a)

/-- The accesses of a copy: 4 row reads and 4 row writes a cycle, a write 4 cycles after its read at the earliest, reads
ahead of writes; the position of the last. -/
def State.copyGrants (s : State) (q : QuireId) (a src dst n : Nat) : State × Nat :=
  (List.range (opSteps n)).foldl (fun r i =>
    let g := r.1.grant q (a + 1 + i / 4) (src + 512 * i)
    let w := g.1.grant q (g.2 + 4) (dst + 512 * i)
    (w.1, max r.2 w.2)) (s, a)

/-- A copy's source, row by row. -/
def State.copyRows (s : State) (q : QuireId) (a src dst n : Nat) : State × Bool :=
  (rowParts src n).foldl (fun r v =>
    let o := v.1 - src
    let x := r.1.copyPart q v.1 (dst + o) v.2 (a + 1 + o / 2048) (a + 5 + o / 2048)
    (x.1, r.2 || x.2)) (s, false)

/-- The operation at the head of the queue is checked and refused, or starts: its effect is made at its start, its accesses
take the port and the banks, which lengthens it where others have them (R132, Table 7). -/
def execLeafOpStart (q : QuireId) (s : State) : Out :=
  let x := s.qu q
  match x.ops with
  | [] => .next s
  | o :: rest =>
    if o.running then .next s
    else
      let a := max o.at_ (spGet 0 x.freedAt 3)
      let c := s.leafOpCheck q o
      if c ≠ 0 then
        let s := s.setQu q { x with ops := { o with running := true, refused := true, doneAt := a + 1 } :: rest }
        let s := (s.incF (qb q) F.LF_OPS_refused).raise (.quire q) Ev.LF_OP_REFUSED 2 [o.sender, o.addr, c]
        .next (s.failTick (partOf q))
      else if o.op = 0 then
        let bytes := (List.replicate (o.len / 4) (leBytes 4 o.src)).flatten
        let g := s.fillGrants q a o.dst o.len
        let s := g.1.leafWrite q o.dst bytes (unitWord 5 0) (some (a + 1))
        .next (s.updQu q (fun y => { y with ops := { o with running := true, doneAt := g.2 + 1 } :: rest }))
      else
        let g := s.copyGrants q a o.src o.dst o.len
        let r := g.1.copyRows q a o.src o.dst o.len
        let s := if r.2 then r.1.failTick (partOf q) else r.1
        .next (s.updQu q (fun y => { y with ops := { o with running := true, poison := r.2, doneAt := g.2 + 1 } :: rest }))

/-- The running operation ends: its place frees and its completion token is sent, readable 3 cycles later (R132). -/
def execLeafOpComplete (q : QuireId) (s : State) : Out :=
  let x := s.qu q
  match x.ops with
  | [] => .next s
  | o :: rest =>
    if o.running = false then .next s
    else
      let status := if o.refused then 1 else if o.poison then 2 else 0
      let s := s.setQu q { x with ops := rest, freedAt := spSet 0 x.freedAt 3 o.doneAt }
      let s := if o.refused then s else s.incF (qb q) F.LF_OPS_done
      let s := if status = 2 then s.incF (qb q) F.LF_OPS_poisoned else s
      if leAt o.bytes 0 1 / 4 % 2 = 1 then
        .next (s.internalToken ⟨q, ⟨o.comp % 64, by omega⟩⟩ (o.comp / 64 % 32) (o.comp / 2048 % 4096) false
          (BitVec.ofNat 64 (leAt o.bytes 2 2 + status * 2 ^ 16)) (o.doneAt + 3))
      else .next s

/-! The class map (R124). -/

/-- A band's bytes and error marks go: it reads as zero and clean. -/
def Quire.clearBand (x : Quire) (b : Nat) : Quire :=
  { x with leaf := x.leaf.filter (fun c => !(decide (c.1 / 2 ^ 17 = b))),
           leafMark := x.leafMark.filter (fun c => !(decide (c.1 / 2 ^ 14 = b))) }

/-- A write to LF_CLASS register `i`: while the partition runs and is not held it is ignored and recorded; otherwise every
band whose class changes loses its contents and is zero-filled (R124). -/
def State.classWrite (s : State) (w : Writer) (q : QuireId) (i : Nat) (v : BitVec 32) : State :=
  let p := partOf q
  let r := R.LF_CLASS.nth (i % 32)
  let old := s.rd (qb q) r
  if s.runsFree p then s.raise (.quire q) Ev.LF_CLASS_IGNORED 1 [old.toNat, w.word]
  else
    let bands := ((List.range 32).filter (fun j => old.getLsbD j != v.getLsbD j)).map (fun j => 32 * (i % 32) + j)
    let s := (s.wr (qb q) r v).updQu q (fun x =>
      { (bands.foldl Quire.clearBand x) with
        fillAt := if x.filling.isEmpty then (s.part p).cyc + 32 else x.fillAt
        filling := ((x.filling ++ bands).dedup).mergeSort })
    bands.foldl (fun t b => t.touchRow q (b * 2 ^ 17)) s

/-- The zero-fill of the lowest changed band ends, 32 cycles after it began, and the next one begins (R124): writes that
waited for the band stay in the write buffer. -/
def execClassFillDone (q : QuireId) (s : State) : Out :=
  let x := s.qu q
  match x.filling with
  | [] => .next s
  | _ :: rest =>
    .next ((s.waitCycle (partOf q) x.fillAt).updQu q (fun y => { y with filling := rest, fillAt := x.fillAt + 32 }))

/-! The write buffer (R128, R129). -/

/-- The held write's segments, each written or poisoned. -/
def State.landSegs (s : State) (q : QuireId) (w : HeldWrite) : State :=
  if w.poison = 0 then s.leafWrite q w.addr w.bytes w.writer none
  else (List.range ((w.bytes.length + 63) / 64)).foldl (fun t k =>
    if w.poison / 2 ^ k % 2 = 1 then t.leafPoison q (w.addr + 64 * k) 64
    else t.leafWrite q (w.addr + 64 * k) ((w.bytes.drop (64 * k)).take 64) w.writer none) s

/-- Held write `n` lands when no earlier one waits for the same row. Where a scheduled read of the row, by the reader
named, falls in the same cycle, the read wins, the race is counted and recorded, and the write stays for a later cycle
(R128, R129). It needs its bank and an access of the shared port; what a link that is down holds back is not there yet
(08_cord_mesh_and_spine.md R198). -/
def execWriteBufferLand (q : QuireId) (n : Nat) (reader : Option Nat) (s : State) : Out :=
  let x := s.qu q
  match x.wbuf[n]? with
  | none => .next s
  | some w =>
    if (x.wbuf.take n).any (fun v => decide (v.addr / 512 = w.addr / 512)) ∨ bandOf w.addr ∈ x.filling ∨
        s.freeAccess q 6 w.addr = false ∨ s.bulkWaits q w.writer then .next s
    else match reader with
      | some r =>
        let run := (s.part (partOf q)).cyc + 1 - x.start
        .next ((s.incF (qb q) F.LF_RACE_races).raise (.quire q) Ev.ROW_RACE 1 [w.addr / 512, r, w.writer, run])
      | none =>
        let s := s.setQu q { x with wbuf := x.wbuf.take n ++ x.wbuf.drop (n + 1) }
        .next (((s.takeFree q 6 w.addr).landSegs q w).refill q)

/-! The scrubber (R133 to R135). -/

/-- 250 ms of device time in ns. -/
def scrubPeriod : Nat := 250000000

/-- The first weight band from `b` on, among `n` of them. -/
def State.weightFrom (s : State) (q : QuireId) (b : Nat) : Nat → Option Nat
  | 0 => none
  | n + 1 => if s.weightBand q b then some b else s.weightFrom q (b + 1) n

/-- The scrubber's next read is in band `b` or a later one; past the last weight band the position is at the end of the
leaf (R133). -/
def State.scrubAt (s : State) (q : QuireId) (b bank : Nat) : State :=
  match s.weightFrom q b (1024 - b) with
  | some b' => (s.setF (qb q) F.LF_SCRUB_POS_band b').setF (qb q) F.LF_SCRUB_POS_bank (if b' = b then bank else 0)
  | none => s

/-- The digest regions as a pass takes them: first band and count (R135). -/
def State.regionsNow (s : State) (q : QuireId) : List (Nat × Nat) :=
  (List.range 8).map (fun r =>
    let first := s.f (db q r) F.LF_DREG_first
    let count := s.f (db q r) F.LF_DREG_count
    if 1024 < first + count then (first, 0) else (first, count))

/-- A pass begins: the regions are taken as they stand (R135). -/
def State.beginPass (s : State) (q : QuireId) : State :=
  let s := s.updQu q (fun x => { x with scrubOn := true, scrubLate := false, scrubStart := s.ns, regionTorn := 0,
                                        regionUncorr := 0, regions := s.regionsNow q,
                                        scrubEnd := (s.weightFrom q 0 1024).isNone })
  s.scrubAt q 0 0

/-- A pass starts every 250 ms while scrub_en is 1; one still running is recorded and the next starts when it ends
(R134, 08_cord_mesh_and_spine.md R217). Starts that fell while no pass could start are past. -/
def execScrubPassStart (q : QuireId) (s : State) : Out :=
  if s.f (qb q) F.LF_CTRL_scrub_en = 0 ∨ s.clockStopped (partOf q) then .next s
  else
    let due := (s.qu q).scrubDue
    let due := due + (s.ns - due) / scrubPeriod * scrubPeriod
    let s := (s.waitNs due).updQu q (fun x => { x with scrubDue := due + scrubPeriod })
    if (s.qu q).scrubOn then
      .next ((s.updQu q (fun x => { x with scrubLate := true })).raise (.quire q) Ev.SCRUB_LATE 1
        [s.f (qb q) F.LF_SCRUB_passes, s.f (qb q) F.LF_SCRUB_POS_band])
    else .next (s.beginPass q)

/-- The cycle until which the scrubber pauses for a rotation's copy of the weight bands that is under way
(12_self_test_and_rotation.md, Table 4). -/
def Quire.copyPause (x : Quire) (cyc : Nat) : Nat :=
  match x.copying with
  | some (from_, end_) => if from_ ≤ cyc then end_ else 0
  | none => 0

/-- The scrubber reads the row at its position, no earlier than 32 cycles after its last read and only where no other rank
wants the bank: corrections are counted and tracked without a pause, a corrected row is
written back next, an uncorrectable segment marks its digest regions (R122, R133, R135). -/
def execScrubRead (q : QuireId) (s : State) : Out :=
  let x := s.qu q
  if x.scrubOn = false ∨ x.scrubEnd ∨ x.writeBack.isSome ∨ s.clockStopped (partOf q) then .next s
  else
    let s := s.waitCycle (partOf q) (max x.scrubNext (x.copyPause (s.part (partOf q)).cyc))
    let band := s.f (qb q) F.LF_SCRUB_POS_band
    let bank := s.f (qb q) F.LF_SCRUB_POS_bank
    let a := band * 2 ^ 17 + bank * 512
    if s.freeAccess q 8 a = false then .next s else
    let r := (s.takeFree q 8 a).leafRead q a 512 (unitWord 8 0) none
    let mask := (List.range 8).foldl (fun m i => match x.regions[i]? with
      | some (f, c) => if f ≤ band ∧ band < f + c then m ||| 2 ^ i else m
      | none => m) 0
    let s := r.state.updQu q (fun y =>
      { y with scrubNext := (s.part (partOf q)).cyc + 32, regionUncorr := if r.poison then y.regionUncorr ||| mask else y.regionUncorr,
               writeBack := if r.fixed && !r.poison then some ⟨a, false⟩ else none,
               scrubEnd := decide (bank = 255) && (s.weightFrom q (band + 1) (1023 - band)).isNone })
    .next (if bank = 255 then s.scrubAt q (band + 1) 0 else s.setF (qb q) F.LF_SCRUB_POS_bank (bank + 1))

/-- A corrected row is written back, or dropped where another write has reached it since (R133). -/
def execScrubWriteBack (q : QuireId) (s : State) : Out :=
  let x := s.qu q
  match x.writeBack with
  | none => .next s
  | some w =>
    if s.clockStopped (partOf q) ∨ s.freeAccess q 8 w.addr = false then .next s else
    let s := (s.takeFree q 8 w.addr).updQu q (fun y => { y with writeBack := none })
    if w.stale then .next (s.incF (qb q) F.LF_SCRUB_dropped)
    else .next ((codeWords 64 w.addr 512).foldl (fun t a => if t.markAt q a = 1 then t.setMark q a 0 else t) s)

/-- The digest of a region and its status (R135). -/
def State.writeDigest (s : State) (q : QuireId) (pass r : Nat) : State :=
  let x := s.qu q
  match x.regions[r]? with
  | some (first, count) =>
    if count = 0 then s
    else
      let bytes := memRead x.leaf (first * 2 ^ 17) (count * 2 ^ 17)
      -- data of an error beyond the code's power, as the scrubber read it, is free, and so is its digest
      let wild := x.leafMark.any (fun c => decide (c.2 = 4) && decide (first ≤ c.1 / 2 ^ 14) &&
        decide (c.1 / 2 ^ 14 < first + count))
      let dig := if wild then leBytes 32 (Config.freeBits s.freeCount r 256).toNat else shake256 bytes
      let torn := x.regionTorn / 2 ^ r % 2
      let bad := x.regionUncorr / 2 ^ r % 2
      let act := (List.range count).any (fun i => !s.weightBand q (first + i))
      let valid := if torn = 0 ∧ bad = 0 ∧ act = false then 1 else 0
      let s := (List.range 8).foldl (fun t w =>
        t.wr (db q r) (R.LF_DIG.nth w) (BitVec.ofNat 32 (leNat ((dig.drop (4 * w)).take 4)))) s
      let s := if wild then s.useFree else s
      s.wr (db q r) R.LF_DSTAT (BitVec.ofNat 32 (pass % 2 ^ 16 + valid * 2 ^ 16 + torn * 2 ^ 17 + bad * 2 ^ 18))
  | none => s

/-- A pass ends after its last row: each region's digest is written and the pass counted (R135); a start that fell due
while it ran is made now (R134). -/
def execScrubPassEnd (q : QuireId) (s : State) : Out :=
  let x := s.qu q
  if x.scrubOn = false ∨ x.scrubEnd = false ∨ x.writeBack.isSome ∨ s.clockStopped (partOf q) then .next s
  else
    let pass := (s.f (qb q) F.LF_SCRUB_passes + 1) % 2 ^ 16
    let s := if s.f (qb q) F.LF_CTRL_digest_en = 1 then (List.range 8).foldl (fun t r => t.writeDigest q pass r) s else s
    let s := (s.setF (qb q) F.LF_SCRUB_passes pass).setF (qb q) F.LF_SCRUB_last_ms
      (min 255 ((s.ns - x.scrubStart) / 1000000))
    let late := x.scrubLate && decide (s.f (qb q) F.LF_CTRL_scrub_en = 1)
    let s := s.updQu q (fun y => { y with scrubOn := false, scrubLate := false })
    .next (if late then s.beginPass q else s)

/-! Pending remaps (R138, R139). -/

/-- One pending row of a tile is remapped: the remap is recorded and kept, its tracker entry is cleared; without a spare it
stays pending and the tile is charged (R138, R139). The second part says that it was remapped. -/
def State.remapTile (s : State) (q : QuireId) (tile : Nat) (t : Track) : State × Bool :=
  let used := spGet 0 s.sparesUsed (tile * 256 + t.bank)
  if 16 ≤ used then
    ((s.raise (.quire q) Ev.LF_SPARES_OUT (evSev Ev.LF_SPARES_OUT) [tile, t.bank, t.row]).charge (partOf q) (.tile tile)
      Ev.LF_SPARES_OUT true, false)
  else
    let s : State := { s with
      sparesUsed := spSet 0 s.sparesUsed (tile * 256 + t.bank) (used + 1),
      remaps := s.remaps ++ [(tile, t.bank, t.row, used)],
      trackers := spUpd [] s.trackers tile (fun l =>
        l.filter (fun e => !(decide (e.bank = t.bank) && decide (e.row = t.row)))) }
    ((s.raise (.quire q) Ev.LF_ROW_REMAPPED (evSev Ev.LF_ROW_REMAPPED) [tile, t.bank, t.row, used]), true)

/-- One pending row of the tile under a quire is remapped: its contents go (R138, R139). -/
def State.remapRow (s : State) (q : QuireId) (t : Track) : State :=
  let tile := s.tileOf q
  let a := t.row * 2 ^ 17 + t.bank * 512
  let r := s.remapTile q tile t
  if r.2 = false then r.1
  else
    let s := r.1.updQu q (fun x => { x with leaf := memWrite x.leaf a (List.replicate 512 0) })
    (codeWords 8 a 512).foldl (fun u w => u.setMark q w 0) s

/-- The pending remaps of a quire's tile are applied: of both classes at a partition reset, of activation rows when
rotation releases the tile (R138). -/
def State.applyRemaps (s : State) (q : QuireId) (weightToo : Bool) : State :=
  ((s.tracker q).filter (fun t => t.pending && (weightToo || !t.weight))).foldl (fun u t => u.remapRow q t) s

end Sys2Proof.Machine
end

