-- ==== Sys2Proof/Machine/Landing.lean ====
section
/-! DEFINITION. What a channel does at its landing: queues and rings, the release of what is in flight, the settling of
drains (06_channels.md R144 to R157, R163). -/

namespace Sys2Proof.Machine

/-! Landing (R144, R146, R149, R151, R163, 04_stitchers.md R97, R110). -/

/-- A message dropped for its epoch (R163). -/
def State.dropEpoch (s : State) (q : QuireId) (tokens words epoch : Nat) : State :=
  (s.incF (qb q) F.CH_EPOCH_DISC_arrival).raise (.quire q) Ev.EPOCH_DISCARD (evSev Ev.EPOCH_DISCARD)
    [0x21, tokens, words, epoch, s.f (qb q) F.CH_EPOCH_epoch]

/-- A queue or ring message fails its CRC-32C: counted and recorded; the tick fails; the sending tile's network interface
is charged (R149, 10_collation_and_checking.md R275). -/
def State.msgCheck (s : State) (m : Flight) (landing seq expected got : Nat) : State :=
  let q := m.dst
  let s := (s.incF (qb q) F.CH_STAT_msg_check).charge (partOf q) (.network (s.tileOf m.src)) Ev.CH_MSG_CHECK false
  (s.raise (.quire q) Ev.CH_MSG_CHECK (evSev Ev.CH_MSG_CHECK) [landing, m.src.val, m.entry, seq, expected, got]).failTick
    (partOf q)

/-- A queue message lands whole (R144). -/
def State.landQueue (s : State) (m : Flight) (n : Nat) (ws : List (BitVec 64)) (upset : BitVec 32) (pos : Nat) : State :=
  let q := m.dst
  let u : StId := ⟨q, ⟨m.st % 64, by omega⟩⟩
  let x := s.st u
  let back (t : State) : State := t.freeCredit q pos (.entry m.src m.entry) ws.length
  let got := ((crc32c (ws.flatMap (fun w => leBytes 8 w.toNat))) ^^^ upset).toNat
  if m.epoch ≠ s.f (qb q) F.CH_EPOCH_epoch then s.dropEpoch q 0 ws.length m.epoch
  else if got ≠ m.code then (back s).msgCheck m 1 0 m.code got
  else if s.f (sb u) F.ST_STATUS_used = 0 then
    ((back s).incF (sb u) F.ST_ERR_port_unbound).raise (.quire q) Ev.ST_PORT_UNBOUND (evSev Ev.ST_PORT_UNBOUND)
      [u.st.val, 32 + n, 0]
  else if s.f (sb u) F.ST_STATUS_sealed = 0 ∨ x.inReset then (back s).incF (sb u) F.ST_MATCH_absorbed
  else if 16 < x.qlen n + ws.length then
    ((s.incF (qb q) F.CH_STAT_overflow).raise (.quire q) Ev.CH_OVERFLOW (evSev Ev.CH_OVERFLOW)
      [1, u.st.val, n, m.src.val, m.entry]).failTick (partOf q)
  else s.updSt u (fun x => { x with queues := spUpd [] x.queues n (fun l =>
    l ++ ws.map (fun w => { data := w, quire := m.src, entry := m.entry % 256, at_ := pos })) })

/-- The 64 bytes of a ring record header (Table 2). -/
def ringHeader (units epoch len seq : Nat) (pad failed : Bool) (m : Flight) (code : Nat) : List (BitVec 8) :=
  leBytes 4 (units + (if pad then 2 ^ 19 else 0) + epoch % 4 * 2 ^ 20 + (if failed then 2 ^ 22 else 0)) ++
  leBytes 4 len ++ leBytes 4 seq ++ leBytes 4 (m.src.val + m.entry % 256 * 2 ^ 5 + m.sender % 64 * 2 ^ 13) ++
  leBytes 4 code ++ List.replicate 44 0

/-- The units of a record as they are written, through the shared port and one a cycle: pad header, payload units, header;
they are asked for so that the header would be written 3 cycles before the release (R146). The position of the last. -/
def State.ringWrites (s : State) (q : QuireId) (addrs : List Nat) (pos : Nat) : State × Nat :=
  addrs.foldl (fun (t : State × Nat) a =>
    let g := t.1.grant q t.2 a
    (g.1, g.2 + 1)) (s, pos - 2 - addrs.length)

/-- A ring message lands: payload, header, then the write pointer over pad and record in one step; a message that fails its
check keeps its place with a failed header. Writes that have not ended at the release make it late in transit (R146, R147,
R149). -/
def State.landRing (s : State) (m : Flight) (n : Nat) (bytes : List (BitVec 8)) (pad units seq : Nat) (upset : BitVec 32)
    (pos : Nat) : State :=
  let q := m.dst
  let b := rb_ q n
  if m.epoch ≠ s.f (qb q) F.CH_EPOCH_epoch then s.dropEpoch q 0 0 m.epoch
  else if s.f b F.CH_RING_CFG_valid = 0 then s
  else
    let base := s.f b F.CH_RING_CFG_base * 2 ^ 12
    let size := 2 ^ s.f b F.CH_RING_CFG_size_log2
    let wp := s.f b F.CH_RING_WP_wp
    let w := unitWord 4 n
    let got := ((crc32c bytes) ^^^ upset).toNat
    let bad := decide (got ≠ m.code)
    let at_ := base + 64 * ((wp + pad) % size)
    let padAt := base + 64 * (wp % size)
    let g := s.ringWrites q ((if pad = 0 then [] else [padAt]) ++
      (List.range (units - 1)).map (fun i => at_ + 64 * (i + 1)) ++ [at_]) pos
    let s := if m.span then g.1 else g.1.pauseTransit q m.src m.entry pos (g.2 - pos) 0x8A
    let on := some (g.2 - 1)
    let s := if pad = 0 then s
      else s.leafWrite q padAt (ringHeader pad m.epoch 0 0 true false m 0) w on
    let s := s.leafWrite q (at_ + 64) (bytes ++ List.replicate (64 * (units - 1) - bytes.length) 0) w on
    let s := s.leafWrite q at_ (if bad then ringHeader units m.epoch 0 seq true true m 0
      else ringHeader units m.epoch bytes.length seq false false m m.code) w on
    let s := s.setF b F.CH_RING_WP_wp ((wp + pad + units) % 2 ^ 32)
    if bad then s.msgCheck m 2 seq m.code got else s

/-- A message reaches its landing at a schedule position; `upset` are bits that its check finds wrong. -/
def State.land (s : State) (m : Flight) (upset : BitVec 32) (pos : Nat) : State :=
  match m.landing with
  | .token port tag ctl data =>
    let t : Tok := { data := data, tag := tag, port := port, epoch := m.epoch, ctl := ctl,
                     check := (BitVec.ofNat 8 m.code ^^^ upset.setWidth 8).toNat }
    s.arriveToken ⟨m.dst, ⟨m.st % 64, by omega⟩⟩ t (.entry m.src (m.entry % 256)) pos
  | .queue n ws => s.landQueue m n ws upset pos
  | .ring n bytes pad units seq => s.landRing m n bytes pad units seq upset pos

/-! Releases (R154 to R157, R163). -/

/-- The channel entry lies in a fenced span: its partition or its destination's is fenced, or it waits for a
reconfiguration since a fence (R157, 11_fences_resets_recovery.md R286). -/
def State.spanAborted (s : State) (q : QuireId) (e : Nat) : Bool :=
  let d : QuireId := ⟨s.f (eb q e) F.CH_ROUTE_A_quire % 32, by omega⟩
  decide (s.f (eb q e) F.CH_ROUTE_A_span = 1) &&
    (decide (s.f (pt (partOf q)) F.RS_STATUS_fenced = 1) || decide (s.f (pt (partOf d)) F.RS_STATUS_fenced = 1) ||
     decide (e ∈ (s.qu q).aborted))

/-- The destination of a channel entry. -/
def State.entryQuire (s : State) (q : QuireId) (e : Nat) : QuireId := ⟨s.f (eb q e) F.CH_ROUTE_A_quire % 32, by omega⟩

/-- The order of releases at a quire: position, source quire, entry (R144). -/
def Flight.key (m : Flight) : Nat := (m.relPos * 32 + m.src.val) * 256 + m.entry % 256

/-- A drain's doubt ends when the in-flight counts of every epoch that it left behind are zero (R163). -/
def State.settle (s : State) (p : PartId) : State :=
  if s.f (pt p) F.CH_RECONF_unsure = 1 ∧ (s.part p).unsureEpochs.all (fun e => decide (s.inflight p e = 0)) then
    (s.setF (pt p) F.CH_RECONF_unsure 0).updPart p (fun x => { x with unsureEpochs := [] })
  else s

def State.settleAll (s : State) : State := (List.finRange 4).foldl (fun t p => t.settle p) s

/-- A message reaches the tile that it is addressed to: its quire's network interface takes it, or, where the tile does not
carry the quire, absorbs it (08_cord_mesh_and_spine.md R205; an out-of-date copy of the map: DESIGN CHOICE). -/
def State.receive (s : State) (m : Flight) (upset : BitVec 32) (pos : Nat) : State :=
  if s.addressed m.src m.dst = s.tileOf m.dst then s.land m upset pos
  else s.noteAbsent m.dst (s.addressed m.src m.dst) 1

/-- A message is released at its position: the quire pauses while it does not count as arrived, and `late` cycles more where
it is late in transit (R154, R155, 08_cord_mesh_and_spine.md R200). -/
def State.releaseFlight (s : State) (m : Flight) (late cause : Nat) (upset : BitVec 32) : State :=
  let q := m.dst
  let s := { s with flights := s.flights.erase m }
  let s := s.pauseInherit q m.relPos (m.arrive - (s.qu q).runAt m.relPos)
  ((s.pauseTransit q m.src m.entry m.relPos late cause).receive m upset (m.relPos + late)).settleAll

/-- The device time, in units of 125 ps since power-on, of a run cycle of a quire's tick. -/
def State.timeOfRun (s : State) (q : QuireId) (run : Nat) : Nat :=
  let p := partOf q
  s.now + s.period p * ((s.qu q).start + run) - s.period p * ((s.part p).cyc + 1)

/-- The position of a quire in its first cycle at or after a time; the present one for a time that is past. -/
def State.posAt (s : State) (q : QuireId) (time : Nat) : Nat :=
  s.posNow q + (time - s.now + s.period (partOf q) - 1) / s.period (partOf q)

/-- The position at which a span message is released, and the order of releases (R144, R157). -/
def State.spanPos (s : State) (m : Flight) : Nat := s.posAt m.dst (s.timeOfRun m.src m.arrive)
def State.spanKey (s : State) (m : Flight) : Nat := (s.spanPos m * 32 + m.src.val) * 256 + m.entry % 256

/-- The device reaches the run cycle of another quire's partition at which a span unit of it arrives. -/
def State.waitRun (s : State) (q : QuireId) (run : Nat) : State := s.waitCycle (partOf q) ((s.qu q).start + run - 1)

/-- A span message is released once it has arrived (R157). -/
def State.releaseSpan (s : State) (m : Flight) (upset : BitVec 32) : State :=
  let s := ({ s with flights := s.flights.erase m }).waitRun m.src m.arrive
  (if s.spanAborted m.src m.entry then s else s.receive m upset (s.posNow m.dst)).settleAll

/-- A credit's entry is a span's. -/
def State.creditSpan (s : State) (c : CreditFlight) : Bool := decide (s.f (eb c.src c.entry) F.CH_ROUTE_A_span = 1)

/-- The order of credit returns at their sender. -/
def State.creditKey (s : State) (c : CreditFlight) : Nat :=
  (if s.creditSpan c then s.posAt c.src (s.timeOfRun c.from_ c.arrive) else c.usePos) * 256 + c.entry

/-- A credit returns: usable at its stamped position, or, a span's, once it has arrived; `late` cycles later where it is late
in transit. A credit of an older epoch does not return, nor one to a tile that no longer carries the sender (R156, R157, R162,
R163, 08_cord_mesh_and_spine.md R200, R205). -/
def State.releaseCredit (s : State) (c : CreditFlight) (late cause : Nat) : State :=
  let q := c.src
  let s := { s with creditFlights := s.creditFlights.erase c }
  if c.epoch ≠ s.f (eb q c.entry) F.CH_ROUTE_A_epoch then s.settleAll
  else if s.addressed c.from_ q ≠ s.tileOf q then (s.noteAbsent q (s.addressed c.from_ q) 1).settleAll
  else
    let s := if s.creditSpan c then s.waitRun c.from_ c.arrive
      else (s.pauseInherit q c.usePos (c.arrive - (s.qu q).runAt c.usePos)).pauseTransit q c.from_ c.entry c.usePos late cause
    let use := if s.creditSpan c then s.posNow q else c.usePos + late
    let s := s.setF (eb q c.entry) F.CH_ROUTE_D_held (s.f (eb q c.entry) F.CH_ROUTE_D_held + c.units)
    (s.updQu q (fun x => { x with creditAt := spSet 0 x.creditAt c.entry use })).settleAll

/-- The releases of a ring due at a position or before it are made: they take effect before a RING.ADV or RING.WP of the same
cycle (R148). -/
def State.releaseRing (s : State) (q : QuireId) (n pos : Nat) : State :=
  let due (m : Flight) : Bool := decide (m.dst = q) && !s.unitWaits m.src m.dst &&
    decide ((if m.span then s.spanPos m else m.relPos) ≤ pos) && (match m.landing with
      | .ring k .. => decide (k = n)
      | _ => false)
  (orderBy (fun m => if m.span then s.spanKey m else m.key) (s.flights.filter due)).foldl
    (fun t m => if m.span then t.releaseSpan m 0 else t.releaseFlight m 0 0 0) s

/-- Everything that can move to or from the quires of a list lands, in order: what the drains of a load and of a map switch
wait for (R162, 08_cord_mesh_and_spine.md R204). -/
def State.landAll (s : State) (l : List QuireId) : State :=
  let ms := s.flights.filter (fun m => (l.contains m.src || l.contains m.dst) && !s.unitWaits m.src m.dst)
  let cs := s.creditFlights.filter (fun c => (l.contains c.src || l.contains c.from_) && !s.unitWaits c.from_ c.src)
  let s := (orderBy Flight.key (ms.filter (fun m => !m.span))).foldl (fun t m => t.releaseFlight m 0 0 0) s
  let s := (orderBy s.spanKey (ms.filter (fun m => m.span))).foldl (fun t m => t.releaseSpan m 0) s
  (orderBy s.creditKey cs).foldl (fun t c => t.releaseCredit c 0 0) s

end Sys2Proof.Machine
end

