-- ==== Sys2Proof/Machine/PressCalc.lean ====
section
/-! DEFINITION. A press command's descriptor, its geometry, and the arithmetic of its array and check column
(03_presses.md R62, R67 to R78, R383, R384; 02_number_formats.md R47 to R55). -/

namespace Sys2Proof.Machine

/-! Descriptor fields (R67, Table 3). -/

def PDesc.nat (d : PDesc) (i n : Nat) : Nat := leAt d.bytes i n
def PDesc.wFmt (d : PDesc) : Nat := d.nat 0 1 % 16
def PDesc.aFmt (d : PDesc) : Nat := d.nat 0 1 / 16
def PDesc.oFmt (d : PDesc) : Nat := d.nat 1 1 % 16
def PDesc.wSc (d : PDesc) : Bool := decide (d.nat 1 1 / 16 % 2 = 1)
def PDesc.aSc (d : PDesc) : Bool := decide (d.nat 1 1 / 32 % 2 = 1)
def PDesc.specials (d : PDesc) : Bool := decide (d.nat 1 1 / 64 % 2 = 1)
def PDesc.accMode (d : PDesc) : Nat := d.nat 2 1 % 4
def PDesc.dest (d : PDesc) : Nat := d.nat 2 1 / 4 % 4
def PDesc.compEn (d : PDesc) : Bool := decide (d.nat 2 1 / 16 % 2 = 1)
def PDesc.outShift (d : PDesc) : Nat := d.nat 3 1 % 32
def PDesc.trnRef (d : PDesc) : Nat := d.nat 4 1
def PDesc.m (d : PDesc) : Nat := d.nat 5 1
def PDesc.k32 (d : PDesc) : Nat := d.nat 6 2
def PDesc.n64 (d : PDesc) : Nat := d.nat 8 2
def PDesc.seq (d : PDesc) : Nat := d.nat 14 2
def PDesc.wBase (d : PDesc) : Nat := d.nat 16 4
def PDesc.wsBase (d : PDesc) : Nat := d.nat 20 4
def PDesc.wcBase (d : PDesc) : Nat := d.nat 24 4
def PDesc.aBase (d : PDesc) : Nat := d.nat 28 4
def PDesc.asBase (d : PDesc) : Nat := d.nat 32 4
def PDesc.aCode (d : PDesc) : Nat := d.nat 36 4
def PDesc.bBase (d : PDesc) : Nat := d.nat 40 4
def PDesc.oBase (d : PDesc) : Nat := d.nat 44 4
def PDesc.ocAddr (d : PDesc) : Nat := d.nat 48 4
def PDesc.comp (d : PDesc) : Nat := d.nat 52 4
def PDesc.deliv (d : PDesc) : Nat := d.nat 56 4

def PDesc.k (d : PDesc) : Nat := 32 * d.k32
def PDesc.n (d : PDesc) : Nat := 64 * d.n64

/-! Geometry (R62, Table 1). -/

/-- The pair of formats is one of 02_number_formats.md, Table 4. -/
def PDesc.pairOk (d : PDesc) : Bool :=
  let a := d.aFmt
  match d.wFmt with
  | 1 => a == 1
  | 2 => a == 2
  | 3 => a == 3 || a == 4 || a == 5
  | 4 => a == 3 || a == 4 || a == 5
  | 5 => a == 3 || a == 4 || a == 5
  | 6 => a == 3 || a == 4 || a == 5 || a == 6
  | 8 => a == 8
  | 9 => a == 8 || a == 9
  | 10 => a == 8 || a == 3 || a == 4
  | _ => false

/-- The accumulator is INT32 (R55). -/
def PDesc.isInt (d : PDesc) : Bool := decide (8 ≤ d.aFmt)

def PDesc.trn (d : PDesc) : Bool := decide (d.wFmt = 10)

def PDesc.tileK (d : PDesc) : Nat :=
  if d.wFmt ≤ 2 then 64
  else if d.trn then 512
  else if (d.wFmt = 6 ∧ d.aFmt = 6) ∨ (d.wFmt = 9 ∧ d.aFmt = 9) then 256
  else 128

def PDesc.tileCols (d : PDesc) : Nat := if d.wFmt ≤ 2 then 64 else 128

/-- k values of an accumulation group. -/
def PDesc.group (d : PDesc) : Nat := if d.trn then 64 else 32

/-- The weights, and the activations, carry a scale byte per 32 k outside their elements (R48, R67). -/
def PDesc.wScaled (d : PDesc) : Bool :=
  d.wFmt == 5 || d.wFmt == 6 || ((d.wFmt == 3 || d.wFmt == 4) && d.wSc)

def PDesc.aScaled (d : PDesc) : Bool :=
  d.aFmt == 5 || d.aFmt == 6 || ((d.aFmt == 3 || d.aFmt == 4) && d.aSc)

/-- The bytes of `k` packed values of a format (R47, R52). -/
def fmtRow (c k : Nat) : Nat := if c = 10 then k / 64 * 14 else k * fmtBits c / 8

def pad64 (x : Nat) : Nat := (x + 63) / 64 * 64

def PDesc.kTiles (d : PDesc) : Nat := (d.k + d.tileK - 1) / d.tileK
def PDesc.colTiles (d : PDesc) : Nat := (d.n + d.tileCols - 1) / d.tileCols

/-- Columns of column tile `j`, and k of k tile `t`, at their real size (R69). -/
def PDesc.cols (d : PDesc) (j : Nat) : Nat := min d.tileCols (d.n - j * d.tileCols)
def PDesc.kOf (d : PDesc) (t : Nat) : Nat := min d.tileK (d.k - t * d.tileK)

/-- Bytes of an activation element row, of its scale row, of an output value. -/
def PDesc.aRow (d : PDesc) : Nat := fmtRow d.aFmt d.k
def PDesc.aScaleRow (d : PDesc) : Nat := if d.aScaled then d.k32 else 0
def PDesc.oBytes (d : PDesc) : Nat := fmtBits d.oFmt / 8

/-- Spacings of the activation rows, the output rows and the init rows (R67, R70, R383). -/
def PDesc.aStep (d : PDesc) : Nat := if d.nat 10 2 = 0 then pad64 d.aRow else 64 * d.nat 10 2
def PDesc.oStep (d : PDesc) (row : Nat) : Nat := if d.nat 12 2 = 0 then pad64 row else 64 * d.nat 12 2

/-- The activation load in bytes (R70). -/
def PDesc.load (d : PDesc) : Nat := d.m * (pad64 d.aRow + pad64 d.aScaleRow)

/-! The checks of Table 4. -/

/-- A used address field passes check 6: aligned, no bit at or above LF_SIZE, its array inside the leaf. -/
def addrOk (size align base len : Nat) : Bool :=
  decide (base % align = 0) && decide (base < size) && decide (base + len ≤ size)

/-- Rows of `len` bytes at a spacing. -/
def rowsLen (m step len : Nat) : Nat := (m - 1) * step + len

/-- Every used address field passes (R383). -/
def PDesc.addrsOk (d : PDesc) (size : Nat) : Bool :=
  addrOk size 64 d.wBase (d.n * fmtRow d.wFmt d.k) &&
  (!d.wScaled || addrOk size 64 d.wsBase (d.n * d.k32)) &&
  addrOk size 4 d.wcBase (4 * d.colTiles) &&
  addrOk size 64 d.aBase (rowsLen d.m d.aStep d.aRow) &&
  (!d.aScaled || addrOk size 64 d.asBase (rowsLen d.m (pad64 d.k32) d.k32)) &&
  (match d.accMode with
    | 1 => addrOk size 64 d.bBase (4 * d.n)
    | 2 => addrOk size 64 d.bBase (rowsLen d.m (d.oStep (4 * d.n)) (4 * d.n))
    | _ => true) &&
  (decide (d.dest = 1) || decide (d.dest = 3) ||
    addrOk size 64 d.oBase (rowsLen d.m (d.oStep (d.n * d.oBytes)) (d.n * d.oBytes))) &&
  addrOk size 4 d.ocAddr 4

/-- A reserved field or value is not zero (check 7). -/
def PDesc.reserved (d : PDesc) : Bool :=
  decide (d.nat 1 1 / 128 ≠ 0) || decide (d.accMode = 3) || decide (d.dest = 3) || decide (d.nat 2 1 / 32 ≠ 0) ||
  decide (d.nat 3 1 / 32 ≠ 0) || decide (d.comp / 2 ^ 23 ≠ 0) || decide (d.deliv / 2 ^ 23 ≠ 0) ||
  decide (d.nat 60 4 ≠ 0) ||
  [d.wBase, d.wsBase, d.wcBase, d.aBase, d.asBase, d.bBase, d.oBase, d.ocAddr].any (fun a => decide (2 ^ 27 ≤ a))

/-- A format code is reserved (R38). -/
def fmtReserved (c : Nat) : Bool := decide (11 ≤ c)

/-- The output format suits the accumulator (check 3, R67). -/
def PDesc.outOk (d : PDesc) : Bool :=
  if d.isInt then d.oFmt == 7 || d.oFmt == 8 else decide (d.oFmt ≤ 4)

/-- A code of the dense formats pack. -/
def dense (c : Nat) : Bool := c == 5 || c == 6 || c == 10

/-- The first of a descriptor's format codes that lacks its licence (R39). -/
def PDesc.unlicensed (d : PDesc) (caps : Nat) : Option Nat :=
  [d.wFmt, d.aFmt, d.oFmt].find? (fun c => dense c && decide (caps / 2 ^ c % 2 = 0))

/-- The checks in their order: 0 none fails, else the number of the first that does; `caps` is HB_FMT_CAPS.accept
(R39, R68). -/
def PDesc.check (d : PDesc) (size caps : Nat) : Nat :=
  if d.pairOk = false ∨ fmtReserved d.oFmt then 1
  else if (d.unlicensed caps).isSome then 2
  else if d.outOk = false then 3
  else if d.m = 0 ∨ d.k32 = 0 ∨ d.n64 = 0 ∨ 128 < d.m ∨ (d.trn ∧ d.k32 % 2 = 1) ∨ 1024 < d.colTiles then 4
  else if 65536 < d.load then 5
  else if d.addrsOk size = false then 6
  else if d.reserved then 7
  else 0

/-! The press port (R70, R71, R384). -/

/-- The 64-byte segments of a range. -/
def segsOf (a n : Nat) : List Nat := (List.range ((n + 63) / 64)).map (fun i => a + 64 * i)

/-- The load's segments: element rows, then scale rows, with their padding. -/
def PDesc.loadSegs (d : PDesc) : List Nat :=
  ((List.range d.m).map (fun r => segsOf (d.aBase + r * d.aStep) d.aRow)).flatten ++
  ((List.range d.m).map (fun r => segsOf (d.asBase + r * pad64 d.k32) d.aScaleRow)).flatten

/-- The initial values' segments of column tile `j`. -/
def PDesc.initSegs (d : PDesc) (j : Nat) : List Nat :=
  let at_ := d.bBase + 4 * (j * d.tileCols)
  match d.accMode with
  | 1 => segsOf at_ (4 * d.cols j)
  | 2 => ((List.range d.m).map (fun r => segsOf (at_ + r * d.oStep (4 * d.n)) (4 * d.cols j))).flatten
  | _ => []

/-- The cycles in which a sequence of segments is read, with the segments of each: up to 256 a cycle, from at most 32 leaf
rows in distinct banks. The cycle being filled comes first in the accumulator, its segments in reverse. -/
def portCycles : List Nat → List Nat → List (List Nat) → List (List Nat)
  | [], cur, acc => (if cur.isEmpty then acc else cur.reverse :: acc).reverse
  | a :: t, cur, acc =>
    let rows := (cur.map (· / 512)).dedup
    let row := a / 512
    let fits := decide (cur.length < 256) &&
      (rows.contains row || (decide (rows.length < 32) && rows.all (fun r => r % 256 != row % 256)))
    if cur.isEmpty || fits then portCycles t (a :: cur) acc else portCycles t [a] (cur.reverse :: acc)

/-- Element and scale bytes of a weight tile. -/
def PDesc.tileBytes (d : PDesc) (j t : Nat) : Nat :=
  d.cols j * (fmtRow d.wFmt (d.kOf t) + (if d.wScaled then d.kOf t / 32 else 0))

/-- Tiles between two idle cycles: 16,384 by the scale bytes of a tile (R71). -/
def PDesc.idleEvery (d : PDesc) : Nat := 16384 / max 1 (d.tileCols * (d.tileK / 32))

/-- A weight tile outruns the press port (R71). -/
def PDesc.outruns (d : PDesc) (j t : Nat) : Bool := decide (d.m = 1) && decide (16384 < d.tileBytes j t)

/-- The command runs port-bound (R71). -/
def PDesc.portBound (d : PDesc) : Bool := d.outruns 0 0

/-- Accumulator slots a tile takes, in eighths of the file (R73). -/
def PDesc.slotUnits (d : PDesc) : Nat := if d.m ≤ 32 then 1 else if d.m ≤ 64 then 2 else 4

/-- The slots that a tile must wait for, and those that stay: slots are freed oldest first. -/
def slotFree (units : Nat) : List PSlot → List PSlot × List PSlot
  | [] => ([], [])
  | x :: t =>
    if units + ((x :: t).map (·.units)).sum ≤ 8 then ([], x :: t)
    else
      let r := slotFree units t
      (x :: r.1, r.2)

/-! The weight array (R69). -/

/-- The leaf address of the elements of column `c` of tile `j` at k tile `t`. -/
def PDesc.wAddr (d : PDesc) (j t c : Nat) : Nat :=
  d.wBase + j * d.tileCols * fmtRow d.wFmt d.k + d.cols j * fmtRow d.wFmt (t * d.tileK) + c * fmtRow d.wFmt (d.kOf t)

/-- The leaf address of its scale bytes. -/
def PDesc.wsAddr (d : PDesc) (j t c : Nat) : Nat :=
  d.wsBase + j * d.tileCols * d.k32 + d.cols j * (t * d.tileK / 32) + c * (d.kOf t / 32)

/-- Lists of `n` values, in order. -/
def chunks {α : Type} (n : Nat) : Nat → List α → List (List α)
  | 0, _ => []
  | _ + 1, [] => []
  | f + 1, a :: t => (a :: t).take n :: chunks n f ((a :: t).drop n)

/-- The codes of `count` packed values (R47). -/
def codesOf (bits count : Nat) (bytes : List (BitVec 8)) : List Nat :=
  let x := leNat bytes
  (List.range count).map (fun i => x / 2 ^ (bits * i) % 2 ^ bits)

/-- The weights of a TRN group; an invalid byte is five zero weights (R52, R53). -/
def trnWeights (g : List (BitVec 8)) : List Int :=
  (List.range 64).map (fun i =>
    let c := leAt g (i / 5) 1
    if 243 ≤ c then 0
    else match c / 3 ^ (i % 5) % 3 with
      | 0 => 0
      | 1 => 1
      | _ => -1)

/-- A scale byte's value: 2^(S - 127), or NaN (R40, R50). -/
def scaleVal (s : Nat) : FVal := if s = 255 then .nan else .fin false 1 ((s : Int) - 127)

/-- Float values of a packed row of a format, each with its block's scale where the operand carries scales. -/
def floatRow (fmt k : Nat) (bytes : List (BitVec 8)) (scales : Option (List (BitVec 8))) : List FVal :=
  let per := fmtRow fmt 32
  (((List.range (k / 32)).map (fun b =>
    let sc := match scales with
      | some l => scaleVal (leAt l b 1)
      | none => .fin false 1 0
    (codesOf (fmtBits fmt) 32 ((bytes.drop (per * b)).take per)).map (fun c => (fmtValue fmt c).mul sc))).flatten)

/-- Integer values of a packed row. -/
def intRow (fmt k : Nat) (bytes : List (BitVec 8)) : List Int :=
  (List.range (k / 32)).flatMap (fun b =>
    let per := fmtRow fmt 32
    (codesOf (fmtBits fmt) 32 ((bytes.drop (per * b)).take per)).map (intVal (fmtBits fmt)))

/-- TRN groups of a column as floats. A zero weight against an infinite or NaN activation gives a NaN product
(log entry 120). -/
def trnFloatRow (bytes : List (BitVec 8)) : List FVal :=
  (chunks 14 bytes.length bytes).flatMap (fun g =>
    (trnWeights g).map (fun w => (FVal.ofInt w).mul (scaleVal (leAt g 13 1))))

/-- A TRN group's scale byte is in range of the reference (R54). -/
def trnInRange (ref s : Nat) : Bool := decide (ref ≤ s) && decide (s ≤ ref + 15) && decide (s ≠ 255)

/-- The factor of a TRN group's scale byte against INT8 activations: 2^(S - ref), or the free one of a scale out of range,
on which the spec states no result (R54). -/
def trnFactor (ref s : Nat) : Int := if trnInRange ref s then 2 ^ (s - ref) else Config.trnOutOfRange ref s

/-- TRN groups of a column as integers. -/
def trnIntRow (ref : Nat) (bytes : List (BitVec 8)) : List Int :=
  (chunks 14 bytes.length bytes).flatMap (fun g =>
    (trnWeights g).map (fun w => w * trnFactor ref (leAt g 13 1)))

/-- The element bytes of column `c`, of the elements of a column tile as read (R69). -/
def PDesc.colBytes (d : PDesc) (j c : Nat) (elems : List (BitVec 8)) : List (BitVec 8) :=
  (List.range d.kTiles).flatMap (fun t =>
    (elems.drop (d.wAddr j t c - d.wAddr j 0 0)).take (fmtRow d.wFmt (d.kOf t)))

/-- The scale bytes of column `c`. -/
def PDesc.colScales (d : PDesc) (j c : Nat) (scales : List (BitVec 8)) : List (BitVec 8) :=
  (List.range d.kTiles).flatMap (fun t => (scales.drop (d.wsAddr j t c - d.wsAddr j 0 0)).take (d.kOf t / 32))

/-! Sums (R74). -/

/-- The exact sum of products: zero is +0 unless every product is -0. -/
def sumF : List FVal → FVal
  | [] => .fin false 0 0
  | p :: t => t.foldl FVal.add p

/-- FP32 sum and product of codes, rounded once to nearest even. -/
def addP (a b : BitVec 32) : BitVec 32 := toFp32 ((ofFp32 a).add (ofFp32 b))

def pairUp {α : Type} (f : α → α → α) : List α → List α
  | a :: b :: t => f a b :: pairUp f t
  | l => l

/-- Partials combined pairwise, adjacent first. -/
def tree {α : Type} (f : α → α → α) (z : α) : Nat → List α → α
  | _, [] => z
  | _, [a] => a
  | 0, a :: _ => a
  | n + 1, l => tree f z n (pairUp f l)

def treeF (l : List (BitVec 32)) : BitVec 32 := tree addP 0 l.length l

/-- One float accumulator over all k (R74). -/
def PDesc.accF (d : PDesc) (init : BitVec 32) (w a : List FVal) : BitVec 32 :=
  let prods := List.zipWith FVal.mul w a
  (chunks d.tileK prods.length prods).foldl (fun acc t =>
    let s := (chunks d.group t.length t).map (fun g => toFp32 (sumF g))
    addP acc (treeF (s ++ List.replicate (d.tileK / d.group - s.length) 0))) init

/-- One integer accumulator over all k, and whether it wrapped (R45, R74). -/
def PDesc.accI (d : PDesc) (init : BitVec 32) (w a : List Int) : BitVec 32 × Bool :=
  let prods := List.zipWith (· * ·) w a
  (chunks d.tileK prods.length prods).foldl (fun r t =>
    let x := r.1.toInt + t.sum
    (BitVec.ofInt 32 x, r.2 || decide (x < -(2 ^ 31)) || decide (2 ^ 31 ≤ x))) (init, false)

/-! The check column (R77, R78). -/

/-- A check weight as the column holds it: exact for TRN weights, rounded once to FP32 for float ones (R77). -/
def PDesc.checkWeight (d : PDesc) (c : FVal) : FVal := if d.trn then c else ofFp32 (toFp32 c)

/-- The check value of a row, float: products and additions rounded to nearest even. -/
def checkF (inits : List (BitVec 32)) (ck a : List FVal) : BitVec 32 :=
  (List.zipWith (fun c x => toFp32 (c.mul x)) ck a).foldl addP (treeF inits)

/-- The check value of a row, integer: exact modulo 2^32. -/
def checkI (inits : List (BitVec 32)) (ck a : List Int) : BitVec 32 :=
  BitVec.ofInt 32 ((inits.map BitVec.toInt).sum + (List.zipWith (· * ·) ck a).sum)

/-- The check weights: per k, the sum of the tile's columns. -/
def colSums {α : Type} (f : α → α → α) : List (List α) → List α
  | [] => []
  | c :: t => t.foldl (fun acc x => List.zipWith f acc x) c

def absP (x : BitVec 32) : BitVec 32 := x &&& 0x7FFFFFFF#32

/-- The sum A of a row's accumulators. -/
def PDesc.sumA (d : PDesc) (accs : List (BitVec 32)) : BitVec 32 :=
  if d.isInt then accs.foldl (· + ·) 0 else treeF accs

/-- A row passes its check (R78). -/
def PDesc.rowPasses (d : PDesc) (tol : Nat) (accs : List (BitVec 32)) (c : BitVec 32) : Bool :=
  let a := d.sumA accs
  if d.isInt then a == c
  else
    let av := ofFp32 a
    let cv := ofFp32 c
    if av.isFin && cv.isFin then
      let dd := ofFp32 (absP (toFp32 (av.add cv.neg)))
      let ss := ofFp32 (treeF (accs.map absP))
      let tt := ofFp32 (toFp32 ((ss.max (.fin false 1 (-126))).scale (-(tol : Int))))
      !(tt.lt dd)
    else !av.isFin && !cv.isFin

/-! Output conversion (R75, 02_number_formats.md R59). -/

/-- One accumulator converted to the output format, as bytes. -/
def PDesc.convert (d : PDesc) (acc : BitVec 32) : List (BitVec 8) :=
  let code := match d.oFmt with
    | 0 => acc.toNat
    | 7 => acc.toNat
    | 8 => intCode 8 (clampInt 8 (roundInt .rne 0 (decide (acc.toInt < 0)) acc.toInt.natAbs (-(d.outShift : Int))))
    | c => fmtConvert c .rne 0 d.specials (ofFp32 acc)
  leBytes d.oBytes code

/-- The output bytes of a row of accumulators. -/
def PDesc.outRow (d : PDesc) (accs : List (BitVec 32)) : List (BitVec 8) := accs.flatMap d.convert

/-- The 64-bit delivery words of a row: its bytes padded with zeros to a multiple of 8 (R72). -/
def deliveryWords (row : List (BitVec 8)) : List (BitVec 64) :=
  (chunks 8 row.length row).map (fun w => BitVec.ofNat 64 (leNat w))

end Sys2Proof.Machine
end

