-- ==== Sys2Proof/Machine/SendRecv.lean ====
section
/-! DEFINITION. Sends, receive queues, landing rings and credits as instructions (04_stitchers.md R106, R115;
06_channels.md R142 to R158; 03_presses.md R79; 08_cord_mesh_and_spine.md R219). -/

namespace Sys2Proof.Machine

/-- What a send carries. -/
inductive Payload where
  | word (ctl : Bool) (data : BitVec 64) (tag : Nat)
  | bytes (sp : Space) (addr len : Nat)
  deriving DecidableEq, Repr

/-- The landing accepts this send with this length (R143, Table 1, R145). -/
def State.accepts (s : State) (q : QuireId) (e : Nat) : Payload → Bool
  | .word ctl _ _ => match s.f (eb q e) F.CH_ROUTE_A_landing with
    | 0 => decide (s.f (eb q e) F.CH_ROUTE_A_target ≠ 31)
    | 1 => !ctl
    | _ => false
  | .bytes _ _ len => match s.f (eb q e) F.CH_ROUTE_A_landing with
    | 1 => decide (8 ≤ len) && decide (len ≤ 64) && decide (len % 8 = 0)
    | 2 => decide (1 ≤ len) && decide (len ≤ 65536) &&
        decide (2 * (1 + (len + 63) / 64) ≤ s.f (eb q e) F.CH_ROUTE_C_grant)
    | _ => false

/-- The status a send ends with before credit is asked for (R106, R142, R143, R157): 0 goes on, 2 aborted, 3 not
valid. -/
def State.sendStatus (s : State) (u : StId) (e : Nat) (m : Payload) : Nat :=
  let b := eb u.quire e
  if s.f b F.CH_ROUTE_A_valid = 0 ∨ s.f b F.CH_ROUTE_A_cfg_err = 1 ∨ s.f b F.CH_ROUTE_A_src ≠ u.st.val ∨
    s.accepts u.quire e m = false then 3
  else if s.spanAborted u.quire e then 2
  else 0

/-- Pad units before a ring message of so many units (R147). -/
def State.ringPad (s : State) (q : QuireId) (e units : Nat) : Nat :=
  let n := s.f (eb q e) F.CH_ROUTE_C_grant
  let left := n - spGet 0 (s.qu q).ringPos e % n
  if left < units then left else 0

/-- Credits a send takes (Table 3). -/
def State.sendNeeds (s : State) (q : QuireId) (e : Nat) : Payload → Nat
  | .word .. => 1
  | .bytes _ _ len =>
    if s.f (eb q e) F.CH_ROUTE_A_landing = 1 then len / 8
    else s.ringPad q e (1 + (len + 63) / 64) + (1 + (len + 63) / 64)

/-- Span traffic into a half that is not at full clock is refused credit (R219). -/
def State.refusedHalf (s : State) (q : QuireId) (e : Nat) : Bool :=
  decide (s.f (eb q e) F.CH_ROUTE_A_span = 1) && decide (s.f hub (halfFld (halfOf (partOf (s.entryQuire q e)))) ≠ 0)

/-- The outbound hold has no entry left for a message that leaves the quire (03_presses.md R79). -/
def State.holdFull (s : State) (q : QuireId) (e : Nat) : Bool :=
  (s.qu q).behind && decide (s.entryQuire q e ≠ q) && decide (64 ≤ (s.qu q).holding.length)

/-- A send that may go on lacks credit, or a place in the hold (R106, R150). -/
def State.sendBlocked (s : State) (q : QuireId) (e : Nat) (m : Payload) : Bool :=
  decide (s.f (eb q e) F.CH_ROUTE_D_held < s.sendNeeds q e m) || s.refusedHalf q e || s.holdFull q e

/-- The 64-bit words of a queue message's bytes. -/
def wordsOf (l : List (BitVec 8)) : List (BitVec 64) :=
  (List.range (l.length / 8)).map (fun i => BitVec.ofNat 64 (leNat ((l.drop (8 * i)).take 8)))

/-- The landing of a message and its check: the token's CRC-8 (R99) or the message's CRC-32C (R149). -/
def State.landingOf (s : State) (q : QuireId) (e : Nat) (m : Payload) (bytes : List (BitVec 8)) : Landing × Nat :=
  let b := eb q e
  let target := s.f b F.CH_ROUTE_A_target
  match m with
  | .word ctl data tag =>
    if s.f b F.CH_ROUTE_A_landing = 0 then
      let t : Tok := { data := data, tag := tag, port := target, epoch := s.f b F.CH_ROUTE_A_epoch, ctl := ctl, check := 0 }
      (.token target tag ctl data, (tokenCheck t.body (s.f b F.CH_ROUTE_A_stitcher) (s.entryQuire q e).val).toNat)
    else (.queue (target % 4) [data], (crc32c (leBytes 8 data.toNat)).toNat)
  | .bytes _ _ len =>
    if s.f b F.CH_ROUTE_A_landing = 1 then (.queue (target % 4) (wordsOf bytes), (crc32c bytes).toNat)
    else
      let units := 1 + (len + 63) / 64
      (.ring (target % 16) bytes (s.ringPad q e units) units (spGet 0 (s.qu q).ringSeq e), (crc32c bytes).toNat)

/-- A message leaves its quire: discarded after a firing fault (R115), into the outbound hold (R79), or launched 4 cycles
after its issue; inside the quire it passes no stage. -/
def State.launch (s : State) (m : Flight) (lat : Nat) : State :=
  let q := m.src
  let x := s.qu q
  if m.dst = q then
    { s with flights := s.flights ++ [{ m with relPos := m.sentAt + lat, arrive := x.runAt m.sentAt + lat }] }
  else if x.discarding then (s.incF (qb q) F.ST_FAULT_discarded).refund m
  else if x.behindFail.isSome then (s.incF (qb q) F.PS_HOLD_discarded).refund m
  else
    let go := m.sentAt + 4
    let leave := x.leaveAt go
    if x.behind ∧ go < leave then
      let m := { m with relPos := leave + lat - 4, arrive := 0 }
      let s := s.setQu q { x with holding := x.holding ++ [⟨leave, .flight m⟩] }
      s.setF (qb q) F.PS_HOLD_peak (max (s.f (qb q) F.PS_HOLD_peak) (x.holding.length + 1))
    else { s with flights := s.flights ++ [{ m with relPos := go + lat - 4, arrive := x.runAt go + lat - 4 }] }

/-- A send that holds its credits: they are taken and the message goes on its way (R150, R154). -/
def State.dispatchSend (s : State) (u : StId) (e : Nat) (m : Payload) (bytes : List (BitVec 8)) (t : Nat) : State :=
  let q := u.quire
  let b := eb q e
  let l := s.landingOf q e m bytes
  let n := l.1.units
  let s := s.setF b F.CH_ROUTE_D_held (s.f b F.CH_ROUTE_D_held - n)
  let s := match l.1 with
    | .ring .. => s.updQu q (fun x => { x with ringPos := spUpd 0 x.ringPos e (· + n),
                                               ringSeq := spUpd 0 x.ringSeq e (· + 1) })
    | _ => s
  s.launch { src := q, entry := e, sender := u.st.val, dst := s.entryQuire q e, st := s.f b F.CH_ROUTE_A_stitcher,
             landing := l.1, epoch := s.f b F.CH_ROUTE_A_epoch, span := decide (s.f b F.CH_ROUTE_A_span = 1),
             relPos := 0, arrive := 0, code := l.2, sentAt := t } (s.f b F.CH_ROUTE_B_latency)


/-- Accesses of the shared port for parts of a range, one after another, each asked for in the cycle after the one before
was granted: the state, the position of the last grant, the parts with their positions. -/
def State.grantParts (s : State) (q : QuireId) (t : Nat) : List (Nat × Nat) → State × Nat × List (Nat × Nat × Option Nat)
  | [] => (s, t, [])
  | (a, n) :: l =>
    let g := s.grant q t a
    match l with
    | [] => (g.1, g.2, [(a, n, some g.2)])
    | _ => let r := g.1.grantParts q (g.2 + 1) l
           (r.1, r.2.1, (a, n, some g.2) :: r.2.2)

/-- The 64-byte beats of a message. -/
def beatParts (addr n : Nat) : List (Nat × Nat) :=
  (List.range ((n + 63) / 64)).map (fun i => (addr + 64 * i, min 64 (n - 64 * i)))

/-- What a send that ends with status 2 or 3 does beside its code (R106, R157); one to an absent quire is recorded as such too
(08_cord_mesh_and_spine.md R205, R220). -/
def State.sendRefused (s : State) (u : StId) (e pc st : Nat) : State :=
  if st = 3 then
    let d := s.entryQuire u.quire e
    let s := if s.f (eb u.quire e) F.CH_ROUTE_A_valid = 1 ∧ s.f (pt (partOf d)) (F.MS_MAP_absent.nth (localOf d)) = 1 then
        s.noteAbsent d (s.addressed u.quire d) 1
      else s
    (s.raise (.quire u.quire) Ev.ST_CHANNEL 2 [u.st.val, e, pc]).failTick (partOf u.quire)
  else (s.incF (qb u.quire) F.CH_STAT_aborted).raise (.quire u.quire) Ev.CH_SPAN_ABORT 1
    [u.st.val, e, (partOf (s.entryQuire u.quire e)).val]

/-- The gate of a send: a blocking send stalls while it lacks credit; it issues no earlier than the credit's return. -/
def State.sendGate (s : State) (u : StId) (srcs : List Nat) (e : Nat) (m : Payload) (try_ : Bool) : Gate :=
  let q := u.quire
  let x := s.st u
  { srcs := srcs,
    refused := s.refusedHalf q e,
    notBefore := match x.stall with
      | some w => if w.state = 2 then max (spGet 0 (s.qu q).creditAt e) (spGet 0 (s.qu q).freedAt 0) else 0
      | none => 0,
    wait := if s.sendStatus u e m = 0 ∧ s.sendBlocked q e m ∧ try_ = false then some (2, some e) else none }

/-- A send of one word (R106): status 0 sent, 1 no credit, 2 aborted, 3 not valid, into s(rs). -/
def State.sendWord (s : State) (u : StId) (i : Instr) (rx rt rs : SReg) (ch : BitVec 8) (ctl try_ : Bool) : Out :=
  let x := s.st u
  let e := ch.toNat
  let m : Payload := .word ctl (x.pair rx) ((x.s rt).toNat % 4096)
  s.issue u i (s.sendGate u [sK rx, sK (rx + 1), sK rt] e m try_) (fun s' t pc =>
    let st := s'.sendStatus u e m
    if st ≠ 0 then (s'.putS u rs (BitVec.ofNat 32 st) (t + 1)).sendRefused u e pc st
    else if s'.sendBlocked u.quire e m then s'.putS u rs 1 (t + 1)
    else
      let s' := s'.chargeStall u x.stall t
      let s' := (s'.putS u rs 0 (t + 1)).dispatchSend u e m [] t
      s'.updSt u (fun y => { y with acceptedAt := max y.acceptedAt t }))

/-- A send of a message from pocket or leaf (R106, R114, R143, R152). -/
def State.sendMsg (s : State) (u : StId) (i : Instr) (rx rt rs : SReg) (ch : BitVec 8) (sp : Space) (try_ : Bool) : Out :=
  let x := s.st u
  let e := ch.toNat
  let q := u.quire
  let a := (x.s rx).toNat
  let n := (x.s rt).toNat
  let m : Payload := .bytes sp a n
  let ok := s.inRange q sp a 64 n
  let g := s.sendGate u [sK rx, sK rt] e m try_
  s.issue u i (if ok then g else { g with wait := none }) (fun s' t pc =>
    if ok = false then s'.firingFault u 5 t [pc, a]
    else
      let st := s'.sendStatus u e m
      if st ≠ 0 then (s'.putS u rs (BitVec.ofNat 32 st) (t + 1)).sendRefused u e pc st
      else if s'.sendBlocked q e m then s'.putS u rs 1 (t + 1)
      else
        let s' := (s'.chargeStall u x.stall t).putS u rs 0 (t + 1)
        let beats := (n + 63) / 64
        match sp with
        | .pocket =>
          let r := s'.pocketRead u a n
          (match r.2 with
          | none => r.1.firingFault u 2 t [0, a]
          | some b =>
            (r.1.dispatchSend u e m b (t + beats - 1)).updSt u
              (fun y => { y with nextAt := t + beats, acceptedAt := max y.acceptedAt (t + beats - 1) }))
        | .leaf =>
          let g := s'.grantParts q t (beatParts a n)
          let r := g.1.leafReads q (unitWord 1 u.st.val) g.2.2
          let s' := if r.poison then r.state.failTick (partOf q) else r.state
          (s'.dispatchSend u e m r.bytes g.2.1).updSt u
            (fun y => { y with nextAt := g.2.1 + 1, acceptedAt := max y.acceptedAt g.2.1 }))

/-- Sends a data token, or a queue word, stalling for credit. -/
def execSend (u : StId) (rx rt rs : SReg) (ch : BitVec 8) (s : State) : Out :=
  s.sendWord u (.send u rx rt rs ch) rx rt rs ch false false

/-- Sends a control token, stalling for credit. -/
def execSendCtl (u : StId) (rx rt rs : SReg) (ch : BitVec 8) (s : State) : Out :=
  s.sendWord u (.sendCtl u rx rt rs ch) rx rt rs ch true false

/-- Sends a data token or a queue word, or ends with status 1. -/
def execTrySend (u : StId) (rx rt rs : SReg) (ch : BitVec 8) (s : State) : Out :=
  s.sendWord u (.trySend u rx rt rs ch) rx rt rs ch false true

/-- Sends a control token, or ends with status 1. -/
def execTrySendCtl (u : StId) (rx rt rs : SReg) (ch : BitVec 8) (s : State) : Out :=
  s.sendWord u (.trySendCtl u rx rt rs ch) rx rt rs ch true true

/-- Sends a message from pocket, stalling for credit. -/
def execMsendP (u : StId) (rx rt rs : SReg) (ch : BitVec 8) (s : State) : Out :=
  s.sendMsg u (.msendP u rx rt rs ch) rx rt rs ch .pocket false

/-- Sends a message from the leaf, stalling for credit. -/
def execMsendL (u : StId) (rx rt rs : SReg) (ch : BitVec 8) (s : State) : Out :=
  s.sendMsg u (.msendL u rx rt rs ch) rx rt rs ch .leaf false

/-- Sends a message from pocket, or ends with status 1. -/
def execTryMsendP (u : StId) (rx rt rs : SReg) (ch : BitVec 8) (s : State) : Out :=
  s.sendMsg u (.tryMsendP u rx rt rs ch) rx rt rs ch .pocket true

/-- Sends a message from the leaf, or ends with status 1. -/
def execTryMsendL (u : StId) (rx rt rs : SReg) (ch : BitVec 8) (s : State) : Out :=
  s.sendMsg u (.tryMsendL u rx rt rs ch) rx rt rs ch .leaf true

/-! Receive queues (R144). -/

/-- The oldest word of receive queue `n` leaves it, and its credit returns to the entry that sent it. -/
def State.takeWord (s : State) (u : StId) (n : Nat) (ra : SReg) (w : QWord) (t : Nat) : State :=
  let s := s.updSt u (fun x => { x with queues := spUpd [] x.queues n List.tail })
  (s.freeCredit u.quire t (.entry w.quire w.entry) 1).putPair u ra w.data (t + 2)

/-- One word of a queue into s(ra+1):s(ra), stalling while the queue is empty. -/
def execQrecv (u : StId) (ra : SReg) (queue : BitVec 2) (s : State) : Out :=
  let n := queue.toNat
  match spGet [] (s.st u).queues n with
  | [] => s.issue u (.qrecv u ra queue) { srcs := [], wait := some (3, none) } (fun s _ _ => s)
  | w :: _ => s.issue u (.qrecv u ra queue) { srcs := [], notBefore := w.at_ }
      (fun s t _ => s.takeWord u n ra w t)

/-- One word of a queue where one is readable; bit 0 of pd tells. -/
def execQrecvTry (u : StId) (ra : SReg) (pd : PReg) (queue : BitVec 2) (s : State) : Out :=
  let n := queue.toNat
  s.issue u (.qrecvTry u ra pd queue) { srcs := [pK pd] } (fun s t _ =>
    let p := (s.st u).p pd
    match spGet [] (s.st u).queues n with
    | [] => s.putP u pd (predBit0 p false) (t + 2)
    | w :: _ =>
      if w.at_ ≤ t then (s.takeWord u n ra w t).putP u pd (predBit0 p true) (t + 2)
      else s.putP u pd (predBit0 p false) (t + 2))

/-! Landing rings (R146, R148). -/

/-- Advances the read pointer of ring s(rb) by s(ra) units and frees them, clamped at the write pointer; by a stitcher
other than the reader, or on a ring that is not valid, without effect. Either fault is recorded and fails the tick. A release
to the ring in the same cycle comes first. -/
def execRingAdv (u : StId) (ra rb : SReg) (s : State) : Out :=
  s.issue u (.ringAdv u ra rb) { srcs := [sK ra, sK rb] } (fun s t _ =>
    let q := u.quire
    let n := ((s.st u).s ra).toNat
    let r := ((s.st u).s rb).toNat
    let s := s.releaseRing q r t
    let b := rb_ q r
    let wp := s.f b F.CH_RING_WP_wp
    let rp := s.f b F.CH_RING_RP_rp
    let ok := decide (r < 16) && decide (s.f b F.CH_RING_CFG_valid = 1) && decide (s.f b F.CH_RING_CFG_reader = u.st.val)
    let have_ := (wp + 2 ^ 32 - rp) % 2 ^ 32
    let adv := if ok then min n have_ else 0
    let src : QuireId := ⟨s.f b F.CH_RING_SRC_quire % 32, by omega⟩
    let s := if adv = 0 then s
      else (s.setF b F.CH_RING_RP_rp ((rp + adv) % 2 ^ 32)).freeCredit q (t + 1) (.entry src (s.f b F.CH_RING_SRC_entry)) adv
    if ok && decide (n ≤ have_) then s
    else ((s.incF (qb q) F.CH_STAT_ring_adv).raise (.quire q) Ev.CH_RING_ADV 2 [r, u.st.val, n, wp, rp]).failTick
      (partOf q))

/-- The write pointer of ring s(rb) into s(ra), after a release to the ring in the same cycle. A ring number past 15 names no ring: the spec states no result, and the
value is free (DESIGN CHOICE). -/
def execRingWp (u : StId) (ra rb : SReg) (s : State) : Out :=
  s.issue u (.ringWp u ra rb) { srcs := [sK rb] } (fun s t _ =>
    let r := ((s.st u).s rb).toNat
    let s := s.releaseRing u.quire r t
    if r < 16 then s.putS u ra (BitVec.ofNat 32 (s.f (rb_ u.quire r) F.CH_RING_WP_wp)) (t + 2)
    else s.useFree.putS u ra (Config.freeBits s.freeCount 0 32) (t + 2))

/-- The credits held on channel s(rb)[7:0] into s(ra). -/
def execCredits (u : StId) (ra rb : SReg) (s : State) : Out :=
  s.issue u (.credits u ra rb) { srcs := [sK rb] } (fun s t _ =>
    s.putS u ra (BitVec.ofNat 32 (s.f (eb u.quire (((s.st u).s rb).toNat % 256)) F.CH_ROUTE_D_held)) (t + 2))

end Sys2Proof.Machine
end

