-- ==== Sys2Proof/Machine/Press.lean ====
section
/-! DEFINITION. The presses: the descriptor queue, decode, tiles with their checks and release, the vote, delivery,
completion, the outbound hold (03_presses.md R62 to R86, R383, R384; 02_number_formats.md R45 to R55). -/

namespace Sys2Proof.Machine

/-! A quire's presses. -/

def Quire.press (x : Quire) (p : PressId) : Press := if p then x.pb else x.pa

def Quire.setPress (x : Quire) (p : PressId) (v : Press) : Quire := if p then { x with pb := v } else { x with pa := v }

def State.press (s : State) (q : QuireId) (p : PressId) : Press := (s.qu q).press p

def State.updPress (s : State) (q : QuireId) (p : PressId) (f : Press → Press) : State :=
  s.updQu q (fun x => x.setPress p (f (x.press p)))

def State.updRun (s : State) (q : QuireId) (p : PressId) (f : PRun → PRun) : State :=
  s.updPress q p (fun x => { x with run := x.run.map f })

/-- The number of a press. -/
def pressNo (p : PressId) : Nat := if p then 1 else 0

/-- The key of freedAt for a press queue. -/
def pressKey (p : PressId) : Nat := if p then 2 else 1

/-- Places held in a press queue (R63). -/
def Press.places (x : Press) : Nat := x.queue.length + (if x.run.isSome then 1 else 0)

/-! Press registers by press. -/

def psFmtErr (p : PressId) (f : Fld) : Fld := if p then f.nth 1 else f

/-- A field of PB's registers: 0x40 above PA's. -/
def psFld (p : PressId) (f : Fld) : Fld := if p then f.nth 16 else f

/-! PRESS.GO (R63, R64). -/

/-- A descriptor enters a queue in the order of the cycles of entry; of two that would enter in one cycle the one of the
lower-numbered stitcher enters first, the other in the next cycle (R63, R64). -/
def insDesc (d : PDesc) : List PDesc → List PDesc
  | [] => [d]
  | o :: t =>
    if d.enterAt < o.enterAt then d :: o :: t
    else if d.enterAt = o.enterAt then
      if d.sender < o.sender then d :: insDesc { o with enterAt := o.enterAt + 1 } t
      else o :: insDesc { d with enterAt := d.enterAt + 1 } t
    else o :: insDesc d t

/-- A copied descriptor joins the queue of a press. -/
def State.queueDesc (s : State) (q : QuireId) (p : PressId) (d : PDesc) : State :=
  s.updPress q p (fun y => { y with queue := insDesc d y.queue })

/-- Copies a descriptor into the named press's queue: from pocket in 4 cycles, from the leaf by one scheduled read; stalls
while the queue's four places are held. A misaligned address or one outside its space is a firing fault. -/
def execPressGo (u : StId) (ra : SReg) (press : PressId) (sp : Space) (s : State) : Out :=
  let q := u.quire
  let x := s.st u
  let a := (x.s ra).toNat
  let ok := s.inRange q sp a 64 64
  s.issue u (.pressGo u ra press sp)
    { srcs := [sK ra], occupy := if sp = .pocket then 4 else 1,
      notBefore := if x.stall.isSome then spGet 0 (s.qu q).freedAt (pressKey press) else 0,
      wait := if ok ∧ 4 ≤ (s.press q press).places then some (4, none) else none }
    (fun s t pc =>
      if ok = false then s.firingFault u 5 t [pc, a]
      else match sp with
        | .pocket =>
          let r := s.pocketRead u a 64
          (match r.2 with
          | none => r.1.firingFault u 2 t [0, a]
          | some b =>
            let o : PDesc := { bytes := b, addr := a, leaf := false, sender := u.st.val, enterAt := t + 4 }
            (r.1.queueDesc q press o).updSt u (fun y => { y with acceptedAt := max y.acceptedAt t }))
        | .leaf =>
          let g := s.grant q t a
          let r := g.1.leafRead q a 64 (unitWord 3 (pressNo press)) (some g.2)
          let o : PDesc := { bytes := r.bytes, addr := a, leaf := true, sender := u.st.val, enterAt := g.2 + 4 }
          (r.state.queueDesc q press o).updSt u (fun y => { y with acceptedAt := max y.acceptedAt t }))

/-! Reads on the press port. -/

/-- Segments merged into ranges that stay within a leaf row. -/
def rowRanges : List Nat → List (Nat × Nat)
  | [] => []
  | a :: t => match rowRanges t with
    | (b, n) :: r => if a + 64 = b ∧ a / 512 = b / 512 then (a, n + 64) :: r else (a, 64) :: (b, n) :: r
    | [] => [(a, 64)]

/-- The rank of a press port's reads and of its writes (05_leaf_store.md, Table 4). -/
def readRank (p : PressId) : Nat := 1 + pressNo p
def writeRank (p : PressId) : Nat := 3 + pressNo p

/-- Reads of a press port: what was read, and the first and the next position. -/
structure PortReads where
  state  : State
  bytes  : List (BitVec 8)
  poison : Bool
  /-- The position of the last read. -/
  last   : Nat

/-- One read of the press port, asked for at a position: it waits while a bank of its rows is held by a higher rank, and
pauses the quire where a weight correction was made (R71, 05_leaf_store.md R121, R126). -/
def State.portRead (s : State) (q : QuireId) (p : PressId) (pos : Nat) (segs : List Nat) : PortReads :=
  let g := s.pressGrant q (readRank p) pos segs
  let x := g.1.portAccess q (unitWord 2 (pressNo p)) (some g.2) (rowRanges segs)
  ⟨x.state, x.bytes, x.poison, g.2⟩

/-- Several reads of the press port from a position on, one a cycle; `last` is the position before the first where there is
none. -/
def State.portReads (s : State) (q : QuireId) (p : PressId) (pos : Nat) (cycles : List (List Nat)) : PortReads :=
  cycles.foldl (fun r c =>
    let x := r.state.portRead q p (r.last + 1) c
    ⟨x.state, r.bytes ++ x.bytes, r.poison || x.poison, x.last⟩) ⟨s, [], false, pos - 1⟩

/-- Rows of a padded sequence, without their padding. -/
def unpad (m len : Nat) (bytes : List (BitVec 8)) : List (List (BitVec 8)) :=
  (List.range m).map (fun r => (bytes.drop (r * pad64 len)).take len)

/-- The activation load: element rows, scale rows, the position of its last read, poisoned (R70). -/
structure PLoad where
  state  : State
  acts   : List (List (BitVec 8))
  scales : List (List (BitVec 8))
  last   : Nat
  poison : Bool

def State.loadActs (s : State) (q : QuireId) (p : PressId) (d : PDesc) (pos : Nat) : PLoad :=
  let r := s.portReads q p pos (portCycles d.loadSegs [] [])
  { state := r.state, acts := unpad d.m d.aRow r.bytes,
    scales := unpad d.m d.aScaleRow (r.bytes.drop (d.m * pad64 d.aRow)), last := r.last, poison := r.poison }

/-! Status and events of a command. -/

/-- A command's completion status as further outcomes are met: the first faulty one stays (R65). -/
def statusWith (old new : Nat) : Nat := if old = 0 ∨ old = 3 then new else old

/-- A press records an event with its press number first. -/
def State.pressEvent (s : State) (q : QuireId) (p : PressId) (code : Nat) (cap : List Nat) : State :=
  s.raise (.quire q) code (evSev code) (pressNo p :: cap)

/-- An input collation mismatch: nothing of the tile or of a later one is released (R80). The command counts it once. -/
def State.collMismatch (s : State) (q : QuireId) (p : PressId) (d : PDesc) (operand expected computed : Nat) : State :=
  let s := (s.incF (qb q) (psFld p F.PS_CHECKS_PA_collation)).pressEvent q p Ev.COLL_PRESS
    [d.seq, operand, expected, computed]
  s.updRun q p (fun r => { r with withheld := true, status := statusWith r.status 2 })

/-! Command end (R63, R65, R66). -/

/-- A command ends at a position: counted, its status shown, its place freed, its token sent, the tick failed where its
status is faulty. -/
def State.endCommand (s : State) (q : QuireId) (p : PressId) (d : PDesc) (status outCode pos : Nat) (wrap bound : Bool) :
    State :=
  let st (f : Fld) := psFld p f
  let s := (s.setF (qb q) (st F.PS_STATUS_PA_last_seq) d.seq).setF (qb q) (st F.PS_STATUS_PA_last_status) status
  let s := s.setF (qb q) (st F.PS_STATUS_PA_port_bound) 0
  let off := if p then 16 else 0
  let s := s.setCnt (qb q) (R.PS_DONE_LO_PA.nth off) (R.PS_DONE_HI_PA.nth off)
    (s.cnt (qb q) (R.PS_DONE_LO_PA.nth off) (R.PS_DONE_HI_PA.nth off) + 1)
  let s := s.updQu q (fun x => { x with freedAt := spSet 0 x.freedAt (pressKey p) pos })
  let s := if status = 0 ∨ status = 3 then s else s.failTick (partOf q)
  if d.compEn then
    s.internalToken ⟨q, ⟨d.comp % 64, by omega⟩⟩ (d.comp / 64 % 32) (d.comp / 2048 % 4096) false
      (BitVec.ofNat 64 (d.seq + status * 2 ^ 16 + (if wrap then 2 ^ 20 else 0) + (if bound then 2 ^ 21 else 0)
        + outCode % 2 ^ 32 * 2 ^ 32)) (pos + 3)
  else s

/-- A descriptor that fails a check is refused: counted and recorded, and the command ends in the cycle after decode
(R68). Its output code is a free value. -/
def State.refuseCommand (s : State) (q : QuireId) (p : PressId) (d : PDesc) (check : Nat) : State :=
  let s := match check with
    | 1 => (s.incF (qb q) (psFld p F.PS_REFUSALS_PA_format)).pressEvent q p Ev.FMT_PAIR [d.addr, d.wFmt, d.aFmt]
    | 2 => ((s.incF (qb q) (psFld p F.PS_REFUSALS_PA_format)).pressEvent q p Ev.FMT_UNLICENSED
        [d.addr, (d.unlicensed (s.f hub F.HB_FMT_CAPS_accept)).getD 0]).noteFeature (partOf q) 1
          (match s.ldOf (partOf q) with
            | some l => l.val
            | none => 0xFF)
    | 3 => (s.incF (qb q) (psFld p F.PS_REFUSALS_PA_format)).pressEvent q p Ev.PS_REFUSED [d.addr, 1]
    | 4 => (s.incF (qb q) (psFld p F.PS_REFUSALS_PA_shape)).pressEvent q p Ev.PS_REFUSED [d.addr, 2]
    | 5 => (s.incF (qb q) (psFld p F.PS_REFUSALS_PA_shape)).pressEvent q p Ev.PS_REFUSED [d.addr, 3]
    | 6 => (s.incF (qb q) (psFld p F.PS_REFUSALS_PA_address)).pressEvent q p Ev.PS_REFUSED [d.addr, 4]
    | _ => (s.incF (qb q) (psFld p F.PS_REFUSALS_PA_address)).pressEvent q p Ev.PS_REFUSED [d.addr, 5]
  let code := (Config.freeBits s.freeCount 0 32).toNat
  s.useFree.endCommand q p d 1 code (d.enterAt + 3) false false

/-- The weight code array of a command, read on the shared port, one row an access; a poisoned code is none (R67, R127). -/
def State.readCodes (s : State) (q : QuireId) (p : PressId) (d : PDesc) : State × List (Option Nat) :=
  let g := s.grantParts q (d.enterAt + 1) (rowParts d.wcBase (4 * d.colTiles))
  g.2.2.foldl (fun (r : State × List (Option Nat)) v =>
    let x := r.1.leafRead q v.1 v.2.1 (unitWord 3 (pressNo p)) v.2.2
    (x.state, r.2 ++ (chunks 4 x.bytes.length x.bytes).map (fun c => if x.poison then none else some (leNat c)))) (g.1, [])

/-- The events of activation blocks whose scale byte is 0xFF (02_number_formats.md R50). -/
def State.nanScales (s : State) (q : QuireId) (p : PressId) (base : Nat) (bytes : List (BitVec 8)) : State :=
  (List.range bytes.length).foldl (fun t i =>
    if leAt bytes i 1 = 255 then t.pressEvent q p Ev.MX_SCALE_NAN [base + i] else t) s

/-- Those of all the scale rows of an activation load. -/
def State.nanRows (s : State) (q : QuireId) (p : PressId) (d : PDesc) (scales : List (List (BitVec 8))) : State :=
  (List.range d.m).foldl (fun t i => t.nanScales q p (d.asBase + i * pad64 d.k32) (scales.getD i [])) s

/-- The power cap withholds press issue in the partition (01_the_tick.md R33). -/
def State.capped (s : State) (q : QuireId) : Bool := decide (s.f (pt (partOf q)) F.PW_PART_cap = 1)

/-- The descriptor at the head of the queue of an idle press is decoded and checked; a good one reads its weight codes
and loads its activations, whose code is compared (R68, R70, R76, R80). -/
def execPressCommandDecode (q : QuireId) (p : PressId) (s : State) : Out :=
  let x := s.press q p
  if s.capped q then .next s else
  match x.run, x.queue with
  | none, d :: rest =>
    if x.frozen then .next s
    else
      let s := s.updPress q p (fun y => { y with queue := rest })
      let c := d.check (s.leafSize q) (s.f hub F.HB_FMT_CAPS_accept)
      if c ≠ 0 then .next (s.refuseCommand q p d c)
      else
        let codes := s.readCodes q p d
        let l := codes.1.loadActs q p d (max (d.enterAt + 3) (x.lastRead + 1))
        let r : PRun :=
          { desc := d, tile := 0, withheld := false, status := 0, wrap := false, acts := l.acts, scales := l.scales,
            codes := codes.2, out := [], deliver := [], delivered := 0, readAt := l.last + 1,
            writeAt := x.lastWrite, sendAt := x.lastSend, frozeAt := x.frozeAt, floor := x.floor, trnBad := false, waiting := false, streamed := 0 }
        let s := l.state.updPress q p (fun y => { y with run := some r })
        let s := if d.portBound then s.setF (qb q) (psFld p F.PS_STATUS_PA_port_bound) 1 else s
        let s := s.nanRows q p d l.scales
        let code := (crc32c (l.acts.flatten ++ l.scales.flatten)).toNat
        .next (if l.poison ∨ code ≠ d.aCode then s.collMismatch q p d 0 d.aCode code else s)
  | _, _ => .next s

/-! A column tile (R74, R75, R77). -/

/-- What a press forms of a column tile. -/
structure TileOut where
  accs   : List (List (BitVec 32))
  checks : List (BitVec 32)
  outs   : List (List (BitVec 8))
  wrap   : Bool

/-- The tile's initial values, row by row (R384). -/
def PDesc.initsOf (d : PDesc) (j : Nat) (bytes : List (BitVec 8)) : List (List (BitVec 32)) :=
  let n := d.cols j
  (List.range d.m).map (fun r => (List.range n).map (fun c =>
    match d.accMode with
    | 1 => BitVec.ofNat 32 (leAt bytes (4 * c) 4)
    | 2 => BitVec.ofNat 32 (leAt bytes (4 * (r * n + c)) 4)
    | _ => 0))

/-- The accumulators, check values and outputs of column tile `j` (R74, R75, R77). -/
def PDesc.formTile (d : PDesc) (j : Nat) (elems scales : List (BitVec 8)) (acts ascales : List (List (BitVec 8)))
    (inits : List (List (BitVec 32))) : TileOut :=
  let cols := List.range (d.cols j)
  let rows := List.range d.m
  if d.isInt then
    let w := cols.map (fun c => let b := d.colBytes j c elems
      if d.trn then trnIntRow d.trnRef b else intRow d.wFmt d.k b)
    let ck := colSums (· + ·) w
    let a := rows.map (fun r => intRow d.aFmt d.k (acts.getD r []))
    let res := rows.map (fun r => cols.map (fun c => d.accI ((inits.getD r []).getD c 0) (w.getD c []) (a.getD r [])))
    let accs := res.map (fun l => l.map (·.1))
    { accs := accs, checks := rows.map (fun r => checkI (inits.getD r []) ck (a.getD r [])),
      outs := accs.map d.outRow, wrap := res.any (fun l => l.any (·.2)) }
  else
    let w := cols.map (fun c => let b := d.colBytes j c elems
      if d.trn then trnFloatRow b
      else floatRow d.wFmt d.k b (if d.wScaled then some (d.colScales j c scales) else none))
    let ck := (colSums FVal.add w).map d.checkWeight
    let a := rows.map (fun r =>
      floatRow d.aFmt d.k (acts.getD r []) (if d.aScaled then some (ascales.getD r []) else none))
    let accs := rows.map (fun r => cols.map (fun c => d.accF ((inits.getD r []).getD c 0) (w.getD c []) (a.getD r [])))
    { accs := accs, checks := rows.map (fun r => checkF (inits.getD r []) ck (a.getD r [])),
      outs := accs.map d.outRow, wrap := false }

/-- The accumulators with a wrong bit in the array. -/
def upsetAccs (up : Option PressUpset) (accs : List (List (BitVec 32))) : List (List (BitVec 32)) :=
  match up with
  | some (.acc r c mask) => accs.modify r (fun l => l.modify c (· ^^^ mask))
  | _ => accs

def upsetChecks (up : Option PressUpset) (checks : List (BitVec 32)) : List (BitVec 32) :=
  match up with
  | some (.check r mask) => checks.modify r (· ^^^ mask)
  | _ => checks

def upsetOuts (up : Option PressUpset) (outs : List (List (BitVec 8))) : List (List (BitVec 8)) :=
  match up with
  | some (.copy1 r b mask) => outs.modify r (fun l => l.modify b (· ^^^ mask))
  | _ => outs

/-- The row on which the two conversion copies disagree. -/
def copyRow (up : Option PressUpset) (m bytes : Nat) : Option Nat :=
  match up with
  | some (.copy1 r b mask) => if mask ≠ 0 ∧ r < m ∧ b < bytes then some r else none
  | some (.copy2 r b mask) => if mask ≠ 0 ∧ r < m ∧ b < bytes then some r else none
  | _ => none

/-- A tile as the press forms it, with a wrong bit where one is given. -/
def TileOut.upset (d : PDesc) (o : TileOut) (up : Option PressUpset) : TileOut :=
  let accs := upsetAccs up o.accs
  { accs := accs, checks := upsetChecks up o.checks, outs := upsetOuts up (accs.map d.outRow), wrap := o.wrap }

/-- Every row's accumulators pass against the check values given (R78). -/
def PDesc.failRow (d : PDesc) (tol : Nat) (accs : List (List (BitVec 32))) (checks : List (BitVec 32)) : Option Nat :=
  (List.range d.m).find? (fun r => !d.rowPasses tol (accs.getD r []) (checks.getD r 0))

/-- The decode of a tile's TRN groups: invalid bytes and scales out of range count and are recorded, in the order of
reading; a scale of 0xFF against float activations is a NaN scale (02_number_formats.md R50, R53, R54). `own` says that the
press decodes its own command's tile, and not a vote's: only then is the running command marked. -/
def State.trnDecode (s : State) (q : QuireId) (p : PressId) (d : PDesc) (j : Nat) (elems : List (BitVec 8)) (own : Bool) :
    State :=
  let base := d.wAddr j 0 0
  let mark (t : State) (f : PRun → PRun) : State := if own then t.updRun q p f else t
  (List.range (elems.length / 14)).foldl (fun t g =>
    let at_ := 14 * g
    let t := (List.range 13).foldl (fun t b =>
      let c := leAt elems (at_ + b) 1
      if 243 ≤ c then
        mark ((t.incF (qb q) (psFmtErr p F.PS_FMT_ERR_PA_trn_code)).pressEvent q p Ev.TRN_CODE [base + at_ + b, c])
          (fun r => { r with trnBad := true })
      else t) t
    let sc := leAt elems (at_ + 13) 1
    if d.isInt then
      if trnInRange d.trnRef sc then t
      else
        mark ((t.incF (qb q) (psFmtErr p F.PS_FMT_ERR_PA_trn_scale)).pressEvent q p Ev.TRN_SCALE
          [base + at_, sc, d.trnRef]) (fun r => { r with status := statusWith r.status 5 })
    else if sc = 255 then t.pressEvent q p Ev.MX_SCALE_NAN [base + at_ + 13] else t) s

/-- A tile's operands read and its result formed (R69, R74, R384), with the position of the last weight read, the next one
of the command, and the tiles counted for idle cycles. -/
structure TileRead where
  state  : State
  out    : TileOut
  elems  : List (BitVec 8)
  scales : List (BitVec 8)
  poison : Bool
  last   : Nat
  next   : Nat
  streamed : Nat

/-- What the streaming of a column tile has read so far. -/
structure Stream where
  state  : State
  elems  : List (BitVec 8)
  scales : List (BitVec 8)
  poison : Bool
  last   : Nat
  next   : Nat
  streamed : Nat

/-- Weight tile `t` of column tile `j` is read and stays in the array for m cycles; a port-bound command inserts its idle
cycles (R69, R71). -/
def Stream.tile (r : Stream) (q : QuireId) (p : PressId) (d : PDesc) (j : Nat) (own : Bool) (t : Nat) : Stream :=
  let n := d.cols j
  let e := n * fmtRow d.wFmt (d.kOf t)
  let sc := if d.wScaled then n * (d.kOf t / 32) else 0
  let x := r.state.portRead q p r.next (segsOf (d.wAddr j t 0) e ++ segsOf (d.wsAddr j t 0) sc)
  let k := if own && d.outruns j t then r.streamed + 1 else r.streamed
  let idle := if own && d.outruns j t && decide (k % d.idleEvery = 0) then 1 else 0
  ⟨x.state, r.elems ++ x.bytes.take e, r.scales ++ (x.bytes.drop (pad64 e)).take sc, r.poison || x.poison,
    x.last + d.m - 1, x.last + d.m + idle, k⟩

/-- Press `p` reads column tile `j` of a descriptor, its own command's or a vote's, and forms it from activations given:
initial values from `init` on, weights no earlier than `start`. -/
def State.readTile (s : State) (q : QuireId) (p : PressId) (d : PDesc) (j : Nat) (acts ascales : List (List (BitVec 8)))
    (own : Bool) (init start streamed : Nat) : TileRead :=
  let i := s.portReads q p init (portCycles (d.initSegs j) [] [])
  let w := (List.range d.kTiles).foldl (fun (r : Stream) t => r.tile q p d j own t)
    ⟨i.state, [], [], i.poison, start, max start (if own then i.last + 1 else 0), streamed⟩
  let out := d.formTile j w.elems w.scales acts ascales (d.initsOf j i.bytes)
  let s := if d.trn then w.state.trnDecode q p d j w.elems own else w.state
  { state := s.nanScales q p (d.wsAddr j 0 0) w.scales, out := out, elems := w.elems, scales := w.scales,
    poison := w.poison, last := w.last, next := w.next, streamed := w.streamed }

/-! Release (R72, R79). -/

/-- A held message that entered the hold at or after a release leaves no earlier than its window's close; its release
position moves with it (R79, 06_channels.md R154). -/
def HeldOut.moveTo (h : HeldOut) (rel : Nat) : HeldOut :=
  if rel ≤ h.msg.entry ∧ h.leave < rel + 64 then
    { leave := rel + 64,
      msg := match h.msg with
        | .flight m => .flight { m with relPos := m.relPos + (rel + 64 - h.leave) }
        | .fwd w => .fwd w }
  else h

/-- A tile's release opens its window: messages that entered the quire's outbound hold at or after it leave no earlier
than the window's close; those on their way since then are taken back into it (R79). -/
def State.openWindow (s : State) (q : QuireId) (rel : Nat) : State :=
  let x := s.qu q
  let left (m : Flight) : Nat := m.relPos + 4 - s.f (eb q m.entry) F.CH_ROUTE_B_latency
  let back := s.flights.filter (fun m => decide (m.src = q) && decide (m.dst ≠ q) && decide (rel ≤ m.sentAt + 4) &&
    decide (left m < rel + 64))
  let fw := x.forwards.filter (fun w => decide (rel ≤ w.sentAt + 4) && decide (w.sentAt + 4 < rel + 64))
  let held := (x.holding ++ back.map (fun m => HeldOut.mk (left m) (.flight m)) ++
    fw.map (fun w => HeldOut.mk (w.sentAt + 4) (.fwd w))).map (fun h => h.moveTo rel)
  let s := s.setF (qb q) F.PS_HOLD_peak (max (s.f (qb q) F.PS_HOLD_peak) (min 64 held.length))
  { s with flights := s.flights.filter (fun m => !back.contains m) }.setQu q
    { x with holding := held, forwards := x.forwards.filter (fun w => !fw.contains w),
             windowClose := max x.windowClose (rel + 64), releases := x.releases ++ [rel] }

/-- A tile's output rows are released at a position: leaf writes at up to 2 KiB a cycle through the write side, delivery
words queued one a cycle (R72). -/
def State.releaseTile (s : State) (q : QuireId) (p writer : PressId) (j : Nat) (outs : List (List (BitVec 8))) (rel : Nat) :
    State :=
  match (s.press q p).run with
  | none => s
  | some r =>
    let d := r.desc
    let at0 := max rel r.writeAt
    let len := (outs.getD 0 []).length
    let s := if d.dest = 1 then s
      else (List.range d.m).foldl (fun t i =>
        let a := d.oBase + i * d.oStep (d.n * d.oBytes) + j * d.tileCols * d.oBytes
        let g := t.pressGrant q (writeRank writer) (at0 + i * len / 2048) (segsOf a len)
        g.1.leafWrite q a (outs.getD i []) (unitWord 2 (pressNo writer)) (some g.2)) s
    let words := if d.dest = 0 then [] else (outs.flatMap deliveryWords).map (fun w => (rel, w))
    let s := s.updRun q p (fun r => { r with out := r.out ++ [outs], deliver := r.deliver ++ words })
    if (s.qu q).behind then s.openWindow q rel else s

/-- The timing of a tile's output stage, the same whether or not it is withheld: write side, slot, delivery (R72, R73,
R80). The slot is held until the last leaf write and the last delivery word. -/
def State.stageTile (s : State) (q : QuireId) (p : PressId) (j rel : Nat) : State :=
  s.updPress q p (fun x => match x.run with
    | none => x
    | some r =>
      let d := r.desc
      let cyc := (d.m * d.cols j * d.oBytes + 2047) / 2048
      let at0 := max rel r.writeAt
      let w := if d.dest = 1 then r.writeAt else at0 + cyc
      let words := d.m * ((d.cols j * d.oBytes + 7) / 8)
      let send := if d.dest = 0 then r.sendAt
        else if r.withheld then max rel r.sendAt + words else r.sendAt
      let written := if d.dest = 1 then rel else at0 + cyc - 1
      let slot : PSlot :=
        { units := d.slotUnits, words := if d.dest = 0 ∨ r.withheld then 0 else words,
          freeAt := if d.dest ≠ 0 ∧ r.withheld then max written (send - 1) else written }
      { x with run := some { r with writeAt := w, sendAt := send }, slots := x.slots ++ [slot] })

/-- A delivery word has gone at a position: the oldest slot that has words left has one less, and stays until then. -/
def sendSlot (pos : Nat) : List PSlot → List PSlot
  | [] => []
  | x :: t => if x.words = 0 then x :: sendSlot pos t
    else { x with words := x.words - 1, freeAt := max x.freeAt pos } :: t

/-- The output stage held for a full delivery port from a position on: what it has not written moves by the wait (R72). -/
def Press.holdStage (x : Press) (from_ n : Nat) : Press :=
  { x with run := x.run.map (fun r => { r with writeAt := if from_ < r.writeAt then r.writeAt + n else r.writeAt }),
           slots := x.slots.map (fun y => { y with freeAt := if from_ < y.freeAt then y.freeAt + n else y.freeAt }) }

/-! The hold's discard (R84). -/

/-- A message or write of the hold entered it at or after a position. -/
def HeldOut.enteredFrom (h : HeldOut) (rel : Nat) : Bool := decide (rel ≤ h.msg.entry)

/-- What the outbound hold discards, with the credits its messages took (R84). -/
def State.discardHeld (s : State) (q : QuireId) (gone : List HeldOut) : State :=
  gone.foldl (fun t h => match h.msg with
    | .flight m => t.refund m
    | .fwd _ => t) (s.incF (qb q) F.PS_HOLD_discarded gone.length)

/-- A check-behind mismatch of a tile released at `rel`: the hold discards, suspect is set (R84). -/
def State.behindMismatch (s : State) (q : QuireId) (p : PressId) (rel : Nat) : State :=
  let x := s.qu q
  let gone := x.holding.filter (fun h => h.enteredFrom rel)
  let s := s.setQu q { x with holding := x.holding.filter (fun h => !h.enteredFrom rel), behindFail := some rel }
  let s := (s.discardHeld q gone).raise (.quire q) Ev.PS_HOLD_DISCARD (evSev Ev.PS_HOLD_DISCARD) [rel, gone.length]
  (s.setF (qb q) F.PS_VOTE_suspect 1).updRun q p (fun r => { r with status := 6 })

/-- The next column tile of a running command: its operands are read, its code compared, its result checked and released,
or withheld, or a mismatch freezes the press for a vote (R69 to R84); a tile of a command that withholds its output is
checked and holds no vote (R80). It waits while the delivery words of a slot it needs have not been sent (R73). `upset` is a
wrong bit in the press. -/
def execPressTileCheck (q : QuireId) (p : PressId) (upset : Option PressUpset) (s : State) : Out :=
  let x := s.press q p
  match x.run with
  | none => .next s
  | some r =>
    let d := r.desc
    let j := r.tile
    let sl := slotFree d.slotUnits x.slots
    if x.frozen ∨ d.colTiles ≤ j ∨ s.capped q ∨ sl.1.any (fun y => decide (y.words ≠ 0)) then .next s
    else
      let behind := (s.qu q).behind
      let free := (sl.1.map (·.freeAt)).foldl max 0
      let initCyc := (portCycles (d.initSegs j) [] []).length
      let begin_ := max (r.readAt + initCyc) (free - 12)
      let begin_ := if r.frozeAt < begin_ ∧ begin_ < r.floor then r.floor else begin_
      let rd := s.readTile q p d j r.acts r.scales true (begin_ - initCyc) begin_ r.streamed
      let last := rd.last + 12
      let check := last + 8
      let rel := max (if behind then last else check) r.floor
      let o := rd.out.upset d upset
      let s := rd.state
      let off := if p then 16 else 0
      let s := s.setCnt (qb q) (R.PS_BUSY_LO_PA.nth off) (R.PS_BUSY_HI_PA.nth off)
        (s.cnt (qb q) (R.PS_BUSY_LO_PA.nth off) (R.PS_BUSY_HI_PA.nth off) + d.kTiles * d.m)
      let s := s.updPress q p (fun y => { y with acc := o.accs.flatten, slots := sl.2, lastRead := rd.last })
      let s := s.updRun q p (fun r => { r with tile := j + 1, readAt := rd.next, streamed := rd.streamed })
      let s := if o.wrap && !r.wrap then
          (s.updRun q p (fun r => { r with wrap := true })).pressEvent q p Ev.ACC_WRAP [d.addr]
        else s
      let code := (crc32c (rd.elems ++ rd.scales)).toNat
      let expected := (r.codes.getD j none)
      let s := if r.withheld = false ∧ (rd.poison ∨ expected ≠ some code) then
          s.collMismatch q p d 1 (expected.getD 0) code
        else s
      let held := match (s.press q p).run with
        | some r => r.withheld
        | none => true
      let bad := match copyRow upset d.m (d.cols j * d.oBytes) with
        | some i => some i
        | none => d.failRow (s.f (qb q) F.PS_CHECK_TOL_tol_exp) o.accs o.checks
      match (if (s.qu q).checkOn then bad else none) with
      | none => .next ((if held then s else s.releaseTile q p p j o.outs rel).stageTile q p j rel)
      | some row =>
        let s := s.incF (qb q) (psFld p F.PS_CHECKS_PA_mismatch)
        let s := s.pressEvent q p Ev.PS_CHECK
          [d.seq, j, row, (d.sumA (o.accs.getD row [])).toNat, (o.checks.getD row 0).toNat]
        if held then .next (s.stageTile q p j rel)
        else
          let s := if behind then (s.releaseTile q p p j o.outs rel).stageTile q p j rel else s
          let v : Vote := { press := p, tile := j, at_ := max check r.floor, accs := o.accs.flatten, outs := o.outs,
                            checks := o.checks, started := false, acts := [], scales := [], startAt := 0, span := 0 }
          let s := s.updQu q (fun y => { y with votes := y.votes ++ [v] })
          let s := s.updPress q p (fun y => { y with frozen := true })
          .next (if behind then s.behindMismatch q p rel else s)

/-! The vote (R82 to R84). -/

/-- The other press takes the vote at the head: it loads the mismatched tile's activations after its current column
tile (R82, R83). -/
def execPressVoteStart (q : QuireId) (s : State) : Out :=
  match (s.qu q).votes with
  | [] => .next s
  | v :: rest =>
    match (s.press q v.press).run with
    | none => .next s
    | some r =>
      if v.started then .next s
      else
        let y := !v.press
        let busy := match (s.press q y).run with
          | some ry => ry.readAt - 1
          | none => 0
        let before := max (max v.at_ (s.qu q).voteEnd) (if v.at_ < busy then busy else 0)
        let l := s.loadActs q y r.desc (before + 1)
        let v' := { v with started := true, acts := l.acts, scales := l.scales, startAt := before,
                           span := l.last - before + r.desc.kTiles * r.desc.m }
        .next ((l.state.nanRows q y r.desc l.scales).updQu q (fun x => { x with votes := v' :: rest }))

/-- The judgement of a vote: R is released, or R' replaces it, or the vote is unresolved; the unit is charged, the
presses resume (R82 to R84, Table 8). `upset` is a wrong bit in the press that re-executes. -/
def execPressVoteJudgement (q : QuireId) (upset : Option PressUpset) (s : State) : Out :=
  match (s.qu q).votes with
  | [] => .next s
  | v :: rest =>
    match (s.press q v.press).run with
    | none => .next s
    | some r =>
      if v.started = false then .next s
      else
        let d := r.desc
        let p := v.press
        let y := !p
        let start := v.startAt + v.span + 1 - d.kTiles * d.m
        let rd := s.readTile q y d v.tile v.acts v.scales false start start 0
        let judge := rd.last + 20
        let o := rd.out.upset d upset
        let same := decide (o.accs.flatten = v.accs) && decide (o.outs = v.outs)
        let passes := (d.failRow (s.f (qb q) F.PS_CHECK_TOL_tol_exp) o.accs v.checks).isNone &&
          (copyRow upset d.m (d.cols v.tile * d.oBytes)).isNone
        let judgement := if same then 0 else if passes then 3 else 4
        let behind := (s.qu q).behind
        let tile := s.tileOf q
        let s := rd.state
        let s := s.incF (qb q) (match judgement with
          | 0 => F.PS_VOTE_checker
          | 3 => F.PS_VOTE_array
          | _ => F.PS_VOTE_unresolved)
        let s := s.pressEvent q p Ev.PS_VOTE [v.tile, judgement, rd.last - v.startAt]
        let s := if r.trnBad then s
          else match judgement with
            | 0 => s.charge (partOf q) (.pressCheck tile p) Ev.PS_VOTE true
            | 3 => s.charge (partOf q) (.pressArray tile p) Ev.PS_VOTE true
            | _ => s.charge (partOf q) (.tile tile) Ev.PS_VOTE false
        let s := s.updQu q (fun x => { x with votes := rest, voteEnd := judge })
        let s := s.updRun q p (fun r => { r with frozeAt := v.at_, floor := judge + 1 })
        let s := s.updPress q p (fun x => { x with frozen := rest.any (fun w => w.press = p), frozeAt := v.at_,
                                                   floor := judge + 1 })
        let s := s.updPress q y (fun x => match x.run with
          | some ry => { x with run := some { ry with readAt := max ry.readAt (judge + 1), frozeAt := v.at_,
                                                      floor := max ry.floor (judge + 1) } }
          | none => { x with lastRead := max x.lastRead judge, frozeAt := v.at_, floor := max x.floor (judge + 1) })
        if judgement = 4 then
          let s := s.updRun q p (fun r => { r with withheld := true, status := statusWith r.status 4 })
          .next (if behind then s else s.stageTile q p v.tile judge)
        else if behind then .next s
        else
          let s := if judgement = 3 then s.updRun q p (fun r => { r with status := statusWith r.status 3 }) else s
          .next ((s.releaseTile q p (if judgement = 3 then y else p) v.tile (if judgement = 3 then o.outs else v.outs)
            judge).stageTile q p v.tile judge)

/-! Delivery and completion (R65, R72, R80, R382). -/

/-- The first position from `pos` on at which a port of so many credits shows room: an entry counts as held until 3 cycles
after the position at which it was freed (R382). -/
def roomAt (waiting credits pos : Nat) (freed : List Nat) : Nat :=
  let fits (p : Nat) : Bool := decide (waiting + (freed.filter (fun f => decide (p < f + 3))).length < credits)
  ((freed.map (· + 3)).filter (fun p => decide (pos ≤ p) && fits p)).foldl min
    (if fits pos then pos else (freed.map (· + 3)).foldl max pos)

/-- The next delivery token is sent, or held while the delivery port is full, and with it the output stage (R72, R382). -/
def execPressDeliveryToken (q : QuireId) (p : PressId) (s : State) : Out :=
  let x := s.press q p
  match x.run with
  | none => .next s
  | some r =>
    match r.deliver with
    | [] => .next s
    | (rel, w) :: rest =>
      let d := r.desc
      let u : StId := ⟨q, ⟨d.deliv % 64, by omega⟩⟩
      let port := d.deliv / 64 % 32
      if x.frozen then .next s
      else if s.f (sb u) (portFld F.ST_PORT_credits port) ≤ (s.st u).waitingAt port then
        .next (s.updRun q p (fun r => { r with waiting := true }))
      else
        let due := max rel r.sendAt
        let pos := roomAt ((s.st u).waitingAt port) (s.f (sb u) (portFld F.ST_PORT_credits port)) due
          (spGet [] (s.st u).portFreed port)
        let s := s.updPress q p (fun y => let y := y.holdStage due (pos - due)
          { y with slots := sendSlot pos y.slots })
        let s := s.updRun q p (fun r =>
          { r with deliver := rest, delivered := r.delivered + 1, sendAt := pos + 1, waiting := false })
        .next (s.internalToken u port ((d.deliv / 2048 + r.delivered) % 4096) false w (pos + 3))

/-- The command ends: its output code is written and its completion token sent, one cycle after its last leaf write and
its last delivery token; the code's write takes its bank (05_leaf_store.md R126); the code of a command that withheld
output is a free value (R65, R66, R80). -/
def execPressCompletion (q : QuireId) (p : PressId) (s : State) : Out :=
  let x := s.press q p
  match x.run with
  | none => .next s
  | some r =>
    let d := r.desc
    if r.tile < d.colTiles ∨ x.frozen ∨ !r.deliver.isEmpty then .next s
    else
      let pos := max (max r.writeAt r.sendAt) r.floor
      let rows := (List.range d.m).flatMap (fun i => r.out.flatMap (fun t => t.getD i []))
      let code := if r.withheld then (Config.freeBits s.freeCount 0 32).toNat else (crc32c rows).toNat
      let s := if r.withheld then s.useFree else s
      let g := s.pressGrant q (writeRank p) pos [d.ocAddr]
      let pos := g.2
      let s := g.1.leafWrite q d.ocAddr (leBytes 4 code) (unitWord 2 (pressNo p)) (some pos)
      let s := if r.wrap then s.incF (qb q) (psFmtErr p F.PS_FMT_ERR_PA_acc_wrap) else s
      let s := s.updPress q p (fun y => { y with run := none, lastWrite := r.writeAt, lastSend := r.sendAt })
      .next (s.endCommand q p d r.status code pos r.wrap d.portBound)

/-! The outbound hold (R79). -/

/-- The oldest message of the hold leaves the quire at the close of its window (R79). -/
def execOutboundHoldRelease (q : QuireId) (s : State) : Out :=
  let x := s.qu q
  match x.holding with
  | [] => .next s
  | h :: rest =>
    let s := s.setQu q { x with holding := rest, freedAt := spSet 0 x.freedAt 0 h.leave }
    match h.msg with
    | .flight m =>
      let lat := m.relPos - h.leave
      .next { s with flights := s.flights ++ [{ m with arrive := x.runAt h.leave + lat }] }
    | .fwd w => .next (s.updQu q (fun y => { y with forwards := y.forwards ++ [{ w with sentAt := h.leave - 4 }] }))

/-! Abandonment (R85). -/

/-- Every queued and running command of both presses is abandoned, with a vote in progress; the hold is emptied (R85). -/
def State.abandonPresses (s : State) (q : QuireId) : State :=
  let x := s.qu q
  let na := x.pa.places
  let nb := x.pb.places
  let voting := !x.votes.isEmpty
  let held := x.holding
  let s := s.setQu q
    { x with pa := { Press.init with acc := x.pa.acc }, pb := { Press.init with acc := x.pb.acc }, votes := [],
             holding := [], releases := [] }
  let s := held.foldl (fun t h => match h.msg with
    | .flight m => t.refund m
    | .fwd _ => t) s
  let s := if voting then s.incF (qb q) F.PS_VOTE_abandoned else s
  if na + nb = 0 ∧ voting = false then s
  else s.raise (.quire q) Ev.PS_ABANDON (evSev Ev.PS_ABANDON) [na, nb, if voting then 1 else 0]

end Sys2Proof.Machine
end

