-- ==== Sys2Proof/Machine/Control.lean ====
section
/-! DEFINITION. Collation codes, predicates, and the instructions that end a firing or a quire's tick
(04_stitchers.md R95, R98, R101, R107 to R109; 01_the_tick.md R15, R29 to R31; 06_channels.md R161). -/

namespace Sys2Proof.Machine

/-! Collation codes (R107, R122, Table 7). -/

/-- The bytes of a block as a collation instruction reads them: the state, the position of the last data, the bytes where
the read was good, and a fault of pocket memory. -/
structure CollRead where
  state : State
  last  : Nat
  bytes : Option (List (BitVec 8))
  fault : Bool

/-- A block is read from pocket at 64 bytes a cycle, or from the leaf one row a grant; data of a leaf row arrive 4 cycles
after its grant. -/
def State.collRead (s : State) (u : StId) (sp : Space) (a n t : Nat) : CollRead :=
  let q := u.quire
  match sp with
  | .pocket =>
    let r := s.pocketRead u a n
    let last := t + (n + 63) / 64 - 1
    ⟨r.1.updSt u (fun x => { x with nextAt := max x.nextAt (last + 1) }), last, r.2, r.2.isNone⟩
  | .leaf =>
    let g := s.grantParts q t (rowParts a n)
    let r := g.1.leafReads q (unitWord 1 u.st.val) g.2.2
    let s := if r.poison then r.state.failTick (partOf q) else r.state
    ⟨s.updSt u (fun x => { x with nextAt := max x.nextAt (g.2.1 + 1) }), g.2.1 + 4,
      if r.poison then none else some r.bytes, false⟩

/-- The shared part of COLL.CHK and COLL.GEN: the address check, the read, and what follows from the code; `none` where
the leaf delivered poisoned data, whose destination receives zeros (R122). -/
def State.coll (s : State) (u : StId) (i : Instr) (ra rb : SReg) (sp : Space) (srcs : List Nat)
    (k : State → Option (BitVec 32) → Nat → State) : Out :=
  let a := ((s.st u).s ra).toNat
  let n := ((s.st u).s rb).toNat
  s.issue u i { srcs := [sK ra, sK rb] ++ srcs } (fun s t pc =>
    if s.inRange u.quire sp a 64 n = false then s.firingFault u 5 t [pc, a]
    else
      let r := s.collRead u sp a n t
      if r.fault then r.state.firingFault u 2 t [0, a] else k r.state (r.bytes.map crc32c) (r.last + 4))

/-- Compares the CRC-32C of s(rb) bytes at s(ra) with s(rc); a mismatch is recorded and fails the tick (R107). -/
def execCollChk (u : StId) (ra rb rc : SReg) (pd : PReg) (sp : Space) (s : State) : Out :=
  let a := ((s.st u).s ra).toNat
  let n := ((s.st u).s rb).toNat
  s.coll u (.collChk u ra rb rc pd sp) ra rb sp [sK rc, pK pd] (fun s code at_ =>
    let want := (s.st u).s rc
    let p := (s.st u).p pd
    match code with
    | none => s.putP u pd (predBit0 p false) at_
    | some c =>
      if c = want then s.putP u pd (predBit0 p true) at_
      else ((s.putP u pd (predBit0 p false) at_).raise (.quire u.quire) Ev.COLL_STITCH (evSev Ev.COLL_STITCH)
        [u.st.val, a, n, want.toNat, c.toNat]).failTick (partOf u.quire))

/-- The CRC-32C of s(rb) bytes at s(ra) into s(rc) (10_collation_and_checking.md R268). -/
def execCollGen (u : StId) (ra rb rc : SReg) (sp : Space) (s : State) : Out :=
  s.coll u (.collGen u ra rb rc sp) ra rb sp [] (fun s code at_ => s.putS u rc (code.getD 0) at_)

/-! Predicates (Table 6). -/

/-- A predicate operation. -/
def State.predOp (s : State) (u : StId) (i : Instr) (pd : PReg) (srcs : List PReg) (f : Stitcher → BitVec 64) : Out :=
  s.issue u i { srcs := srcs.map pK } (fun s t _ => s.putP u pd (f (s.st u)) (t + 1))

def execPand (u : StId) (pd ra rb : PReg) (s : State) : Out :=
  s.predOp u (.pand u pd ra rb) pd [ra, rb] (fun x => x.p ra &&& x.p rb)

def execPor (u : StId) (pd ra rb : PReg) (s : State) : Out :=
  s.predOp u (.por u pd ra rb) pd [ra, rb] (fun x => x.p ra ||| x.p rb)

def execPnot (u : StId) (pd ra : PReg) (s : State) : Out :=
  s.predOp u (.pnot u pd ra) pd [ra] (fun x => ~~~ x.p ra)

def execPany (u : StId) (pd ra : PReg) (s : State) : Out :=
  s.predOp u (.pany u pd ra) pd [ra] (fun x => predAll (x.p ra != 0))

def execPall (u : StId) (pd ra : PReg) (s : State) : Out :=
  s.predOp u (.pall u pd ra) pd [ra] (fun x => predAll (x.p ra == BitVec.allOnes 64))

/-! NOP, FENCE, GETS. -/

def execNop (u : StId) (s : State) : Out := s.issue u (.nop u) { srcs := [] } (fun s _ _ => s)

/-- Waits until every store, send and leaf operation this stitcher has issued has been accepted. -/
def execFence (u : StId) (s : State) : Out :=
  s.issue u (.fence u) { srcs := [], notBefore := (s.st u).acceptedAt } (fun s _ _ => s)

/-- The value a GETS selector reads (R109, Table 8). -/
def State.getsValue (s : State) (u : StId) (sel : BitVec 5) (t : Nat) : BitVec 32 :=
  let x := s.st u
  let q := u.quire
  match sel.toNat with
  | 0 => BitVec.ofNat 32 u.st.val
  | 1 => BitVec.ofNat 32 (localOf q)
  | 2 => BitVec.ofNat 32 (partOf q).val
  | 3 => BitVec.ofNat 32 (x.handlerTag.getD 1 0)
  | 4 => BitVec.ofNat 32 (x.handlerTag.getD 0 0)
  | 5 => BitVec.ofNat 32 (s.f (qb q) F.CH_EPOCH_epoch)
  | 6 => BitVec.ofNat 32 (s.qu q).tick
  | 7 => BitVec.ofNat 32 ((s.qu q).runAt t)
  | 8 => BitVec.ofNat 32 x.resets
  | 9 => BitVec.ofNat 32 (s.leafSize q)
  | 10 => x.lfsr
  | _ => 0

def execGets (u : StId) (ra : SReg) (sel : BitVec 5) (s : State) : Out :=
  s.issue u (.gets u ra sel) { srcs := [] } (fun s t _ => s.putS u ra (s.getsValue u sel t) (t + 1))

/-! END (R95). -/

/-- The firing ends: the stitcher may begin its next one in the cycle after. -/
def State.endFiring (s : State) (u : StId) (t : Nat) : State :=
  (s.updSt u (fun x => { x with firing := none, doneAt := 0 })).updQu u.quire
    (fun x => { x with lastEnd := max x.lastEnd t })

/-- Retires when every register write of the firing has completed (R95). -/
def execEndF (u : StId) (s : State) : Out :=
  s.issue u (.endF u) { srcs := [], notBefore := (s.st u).doneAt } (fun s t _ => s.endFiring u t)

/-! TICKDONE (R98, R108). -/

/-- No other stitcher of the quire is in a firing, and neither press holds a command (R108). -/
def State.quireQuiet (s : State) (u : StId) : Bool :=
  let x := s.qu u.quire
  (List.finRange 64).all (fun i => decide (i = u.st) || (s.st ⟨u.quire, i⟩).firing.isNone) &&
    decide (x.pa.places = 0) && decide (x.pb.places = 0)

/-- Every token that waits at a stitcher of the quire is discarded as an orphan (R98). -/
def State.purgeQuire (s : State) (q : QuireId) (pos : Nat) : State :=
  (List.finRange 64).foldl (fun s i =>
    let u : StId := ⟨q, i⟩
    let w := (s.st u).store
    if w.isEmpty then s
    else w.foldl (fun s x => s.orphan u pos x.port x.tag x.origin) (s.updSt u (fun x => { x with store := [] }))) s

/-- The ledger registers in order, as a contract event captures them (01_the_tick.md R29). -/
def State.ledger (s : State) (q : QuireId) : List Nat :=
  [R.TK_LG_EXPECT, R.TK_LG_ALLOW, R.TK_LG_RUN, R.TK_LG_SLIP, R.TK_LG_STALL0, R.TK_LG_STALL1, R.TK_LG_TICK,
    R.TK_LG_MISMATCH].map (fun r => (s.rd (qb q) r).toNat)

/-- The cycles for which the power cap has been engaged in the open tick (01_the_tick.md R33). -/
def State.capCycles (s : State) (q : QuireId) : Nat :=
  match (s.part (partOf q)).capAt with
  | some c => (s.part (partOf q)).cyc - max c (s.qu q).start
  | none => 0

/-- The ledger of a quire takes the values of the tick that ends with a run (01_the_tick.md R31). -/
def State.writeLedger (s : State) (q : QuireId) (tick run : Nat) (overrun mismatch : Bool) : State :=
  let x := s.qu q
  let b := qb q
  let sat (w v : Nat) := min (2 ^ w - 1) v
  let s := s.setF b F.TK_LG_RUN_run (sat 32 run)
  let s := (s.setF b F.TK_LG_SLIP_used (sat 16 x.slip)).setF b F.TK_LG_SLIP_corrections (sat 8 x.corrections)
  let s := (s.setF b F.TK_LG_SLIP_seam (sat 4 x.seam)).setF b F.TK_LG_SLIP_tipin (sat 4 x.tipin)
  let s := (s.setF b F.TK_LG_STALL0_late_page (sat 16 x.latePage)).setF b F.TK_LG_STALL0_credit (sat 16 x.creditStall)
  let s := (s.setF b F.TK_LG_STALL1_power_cap (sat 16 (x.powerCap + s.capCycles q))).setF b F.TK_LG_STALL1_refused (sat 16 x.refusedStall)
  let s := (s.setF b F.TK_LG_TICK_tick (tick % 65536)).setF b F.TK_LG_TICK_late_pages (sat 8 x.latePages)
  let s := (s.setF b F.TK_LG_TICK_overrun (if overrun then 1 else 0)).setF b F.TK_LG_TICK_mismatch (if mismatch then 1 else 0)
  s.setF b F.TK_LG_TICK_late (if (s.part (partOf q)).late then 1 else 0)

/-- What updates with the ledger: inherited pauses and late transit of the tick (06_channels.md R155,
08_cord_mesh_and_spine.md R200). -/
def State.writeInherit (s : State) (q : QuireId) : State :=
  let x := s.qu q
  let s := (s.setF (qb q) F.CH_INHERIT_cycles (min 65535 x.inherited)).setF (qb q) F.CH_INHERIT_pauses
    (min 255 x.inheritPauses)
  (s.setF (qb q) F.MS_QTRANSIT_cycles (min 65535 x.transit)).setF (qb q) F.MS_QTRANSIT_units (min 255 x.transitUnits)

/-- A contract mismatch: counted and recorded with the ledger registers (01_the_tick.md R15, R29). -/
def State.contractMismatch (s : State) (q : QuireId) : State :=
  let s := s.incF (qb q) F.TK_LG_MISMATCH_mismatches
  s.raise (.quire q) Ev.TICK_CONTRACT (evSev Ev.TICK_CONTRACT) (s.ledger q)

/-- A quire's tick ends at a position: the contract is checked, the ledger written, orphans purged and recorded, the hold
checked, hint entries due in the tick counted, and the tick-done token sent (01_the_tick.md R29 to R31, R98, R161,
03_presses.md R81, 07_catchword_paging.md R181). -/
def State.endQuireTick (s : State) (q : QuireId) (t : Nat) : State :=
  let x := s.qu q
  let run := x.runAt t
  let bad := decide (run ≠ s.f (qb q) F.TK_LG_EXPECT_reported_run + x.slip + x.latePage)
  let s := s.updQu q (fun x => { x with open_ := false, done := true, doneAt := x.start + run - 1 + 14 })
  let s := (s.writeLedger q x.tick run x.overrun bad).writeInherit q
  let s := if bad then s.contractMismatch q else s
  let s := if s.f (qb q) F.TK_LG_ALLOW_allowance < x.slip then
      s.raise (.quire q) Ev.SLIP_EXCEEDED (evSev Ev.SLIP_EXCEEDED) []
    else s
  let s := (s.purgeQuire q t).recordOrphans q
  let s := if x.holding.isEmpty then s
    else (s.raise (.quire q) Ev.PS_HOLD_OPEN (evSev Ev.PS_HOLD_OPEN) [x.holding.length, x.windowClose]).failTick (partOf q)
  let s := s.dropDue q
  s.updQu q (fun x => { x with discarding := false })

end Sys2Proof.Machine
end

