-- ==== Sys2Proof/Machine/Stitch.lean ====
section
/-! DEFINITION. What happens at a stitcher beside its instructions: dispatch, token arrival, mismatches, resets
(04_stitchers.md R90 to R99, R110 to R115). -/

namespace Sys2Proof.Machine

/-! Dispatch (R90, R93, R94). -/

/-- The ports of handler `h`, in slot order. -/
def State.slotPorts (s : State) (u : StId) (h : Nat) : List Nat :=
  (List.range (s.f (sb u) (F.ST_HANDLER_ports.nth h) + 1)).filterMap (fun k =>
    (List.range 32).find? (fun j => s.portValid u j && decide (s.f (sb u) (portFld F.ST_PORT_handler j) = h) &&
      decide (s.f (sb u) (portFld F.ST_PORT_slot j) = k)))

/-- A firing that may begin: its handler, tag and tokens in slot order, and the position at which the last of them became
readable. -/
structure Ready where
  handler : Nat
  tag : Nat
  toks : List Waiting
  last : Nat
  deriving DecidableEq, Repr

/-- Every ready firing of handler `h` (R90). -/
def State.readyOf (s : State) (u : StId) (h : Nat) : List Ready :=
  let x := s.st u
  let ports := s.slotPorts u h
  if s.f (sb u) (F.ST_HANDLER_valid.nth h) = 0 ∨ ports.length ≠ s.f (sb u) (F.ST_HANDLER_ports.nth h) + 1 then []
  else ((x.store.map (fun w => w.tag)).dedup).filterMap (fun g =>
    let toks := ports.filterMap (fun j => x.store.find? (fun w => decide (w.port = j) && decide (w.tag = g)))
    if toks.length = ports.length then some ⟨h, g, toks, (toks.map (fun w => w.at_)).foldl max 0⟩ else none)

/-- The order of ready firings: earliest last token, then lower handler, then lower tag (R94). -/
def Ready.before (a b : Ready) : Bool :=
  decide (a.last < b.last) ||
    (decide (a.last = b.last) && (decide (a.handler < b.handler) || (decide (a.handler = b.handler) && decide (a.tag < b.tag))))

def Ready.first : List Ready → Option Ready
  | [] => none
  | a :: t => match Ready.first t with
    | none => some a
    | some b => if b.before a then some b else some a

/-- The firing that the stitcher begins next. -/
def State.nextReady (s : State) (u : StId) : Option Ready :=
  Ready.first ((List.range 16).flatMap (s.readyOf u))

/-- The stitcher may begin a firing: used, sealed, idle, in no reset, not stopped, its quire's tick open and not paused. -/
def State.mayFire (s : State) (u : StId) : Bool :=
  let x := s.st u
  decide (s.f (sb u) F.ST_STATUS_used = 1) && decide (s.f (sb u) F.ST_STATUS_sealed = 1) && x.firing.isNone &&
    !x.inReset && !x.stopped && (s.qu u.quire).open_ && !(s.qu u.quire).inReset && (s.qu u.quire).duePause.isNone

/-- Slot data in the scalar registers: s(24 + 2j) and s(25 + 2j) (R93). -/
def Stitcher.loadSlots (x : Stitcher) : Nat → List Waiting → Stitcher
  | _, [] => x
  | j, w :: t =>
    ((x.setS (BitVec.ofNat 5 (24 + 2 * j)) (w.data.setWidth 32)).setS (BitVec.ofNat 5 (25 + 2 * j))
      ((w.data >>> 32).setWidth 32)).loadSlots (j + 1) t

/-- The kind bits of the slots, as s23 holds them from bit 12. -/
def kindBits : Nat → List Waiting → Nat
  | _, [] => 0
  | j, w :: t => (if w.ctl then 2 ^ j else 0) + kindBits (j + 1) t

/-- The firing that is first in order begins (R93): slot data and s23 are written, its entries freed with their credits,
its first instruction may issue in the same cycle. -/
def execFiringDispatch (u : StId) (s : State) : Out :=
  if s.mayFire u = false then .next s
  else match s.nextReady u with
  | none => .next s
  | some r =>
    let x := s.st u
    let t := max (r.last + 2) x.nextAt
    let y := x.loadSlots 0 r.toks
    let y := y.setS 23 (BitVec.ofNat 32 (r.tag % 4096 + 2 ^ 12 * kindBits 0 r.toks + 2 ^ 16 * r.handler))
    let ports := r.toks.map (fun w => w.port)
    let y := { y with
      store := x.store.filter (fun w => !(decide (w.tag = r.tag) && ports.contains w.port)),
      firing := some ⟨r.handler, r.tag⟩, pc := s.f (sb u) (F.ST_HANDLER_entry.nth r.handler), nextAt := t, doneAt := 0,
      issues := [], stall := none, score := x.score.filter (fun c => !(decide (23 ≤ c.1) && decide (c.1 < 32))),
      portFreed := ports.foldl (fun m j => spUpd [] m j (t :: ·)) x.portFreed }
    let s := s.setSt u y
    let s := s.freeCredits u.quire t (r.toks.map (fun w => (w.origin, 1)))
    let s := (s.setF (sb u) F.ST_STATUS_handler r.handler).setF (sb u) F.ST_PC_count 0
    .next (s.setCnt (sb u) R.ST_FIRINGS_LO R.ST_FIRINGS_HI (s.cnt (sb u) R.ST_FIRINGS_LO R.ST_FIRINGS_HI + 1))

/-- A token of 96 bits reaches a stitcher's port, readable at a schedule position (R97 to R99). -/
def execTokenArrival (u : StId) (w : BitVec 96) (o : Origin) (pos : Nat) (s : State) : Out :=
  .next (s.arriveToken u (Tok.ofBits w) o pos)

/-! Faults that the checks report (R112, R114). -/

/-- The residue or the shadow slice checks an instruction word: arithmetic, logic, shifts, compares, selects, moves, lane
permutations, conversions, the count of LOOP (R112). -/
def residueChecks (w : BitVec 32) : Bool :=
  let op := w.toNat / 2 ^ 26
  let fn := w.toNat / 2 ^ 21 % 32
  (decide (1 ≤ op) && decide (op ≤ 0x0A)) || (decide (0x10 ≤ op) && decide (op ≤ 0x14)) ||
    (decide (op = 0x1E) && decide (4 ≤ fn) && decide (fn ≤ 8))

/-- A residue or shadow mismatch of the last issue of the instruction at an address, reported 4 cycles after it; without
such an issue in the firing, or for an instruction without a check, there is none. -/
def execResidueMismatch (u : StId) (pc : BitVec 10) (s : State) : Out :=
  let x := s.st u
  let w := x.progWord pc.toNat
  match x.issues.find? (fun i => decide (i.1 = pc.toNat)) with
  | none => .next s
  | some i =>
    if s.f (sb u) F.ST_STATUS_used = 0 ∨ s.f (sb u) F.ST_STATUS_sealed = 0 ∨ x.inReset ∨ residueChecks w = false then .next s
    else .next (s.firingFault u 1 (i.2 + 4) [pc.toNat, w.toNat])

/-- The word at the program counter is no legal instruction (R100). -/
def execIllegalInstruction (u : StId) (s : State) : Out :=
  let x := s.st u
  let w := x.progWord x.pc
  if s.executes u = false ∨ (decodeWord u w).isSome then .next s
  else
    let t := x.issueAt { srcs := [] }
    if 256 ≤ s.f (sb u) F.ST_PC_count then .next (s.firingFault u 4 t x.handlerTag)
    else if x.progErr x.pc = 2 then .next (s.firingFault u 2 t [1, 4 * x.pc])
    else .next (((s.fetchFix u).issued u { srcs := [] } t).firingFault u 3 t [x.pc, w.toNat])

/-! Resets (R110). -/

/-- The 200 cycles of a reset end. -/
def execStitcherResetEnd (u : StId) (s : State) : Out :=
  if (s.st u).inReset = false then .next s
  else
    let s := s.waitCycle (partOf u.quire) (s.st u).resetEnd
    let pos := s.posNow u.quire
    .next (s.updSt u (fun x => { x with inReset := false, nextAt := max x.nextAt pos }))

/-- A write of 1 to ST_CTRL.reset (04_stitchers.md, ST_CTRL). -/
def State.stCtrlReset (s : State) (w : Writer) (u : StId) : State :=
  if s.runsFree (partOf u.quire) then
    s.raise (.quire u.quire) Ev.ST_CTRL_IGNORED (evSev Ev.ST_CTRL_IGNORED) [u.st.val, w.word]
  else if s.partResets (partOf u.quire) then s
  else s.resetStitcher u (s.posNow u.quire)

end Sys2Proof.Machine
end

