-- ==== Sys2Proof/Machine/Channel.lean ====
section
/-! DEFINITION. Channels between their ends: releases at their schedule positions, credit returns, spans, drains and
commits (06_channels.md R154 to R157, R162, R163). -/

namespace Sys2Proof.Machine

/-- The next message for a quire is released at its schedule position; the quire pauses while it has not arrived (R154,
R155). One that waits for a link that is down is not released, nor is any behind it (08_cord_mesh_and_spine.md R198). -/
def execMessageRelease (q : QuireId) (upset : Word) (s : State) : Out :=
  match takeLeast Flight.key (s.flights.filter (fun m => decide (m.dst = q) && !m.span)) with
  | none => .next s
  | some (m, _) => if s.unitWaits m.src m.dst then .next s else .next (s.releaseFlight m 0 0 upset)

/-- A credit return becomes usable at its stamped position at the sender, which pauses while it has not arrived; a span's
is usable once it has arrived (R156, R157). -/
def execCreditReturn (q : QuireId) (s : State) : Out :=
  match takeLeast s.creditKey (s.creditFlights.filter (fun c => decide (c.src = q))) with
  | none => .next s
  | some (c, _) => if s.unitWaits c.from_ c.src then .next s else .next (s.releaseCredit c 0 0)

/-- The next span message for a quire is released without positional timing, in its first cycle at or after the arrival:
of those of one cycle the one from the lower source quire and entry first; in a fence it is discarded (R144, R157). -/
def execSpanMessageRelease (q : QuireId) (upset : Word) (s : State) : Out :=
  match takeLeast s.spanKey (s.flights.filter (fun m => decide (m.dst = q) && m.span && !s.unitWaits m.src m.dst)) with
  | none => .next s
  | some (m, _) => .next (s.releaseSpan m upset)

/-! Drains and commits (R162, R163). -/

/-- The local quires that a mask names. -/
def maskQuires (p : PartId) (mask : Nat) : List QuireId :=
  ((List.range 8).filter (fun i => decide (mask / 2 ^ i % 2 = 1))).map (quireOf p)

/-- Something is in flight to or from a quire of a list: a message, a credit, a pager operation toward it
(07_catchword_paging.md R186). -/
def State.anyInFlight (s : State) (l : List QuireId) : Bool :=
  l.any (fun q => (s.part (partOf q)).hints.any (fun h => decide (h.quire = q) && h.phase == .moving)) ||
  s.flights.any (fun m => l.contains m.src || l.contains m.dst) ||
  s.creditFlights.any (fun c => l.contains c.src || l.contains c.from_)

/-- A drain starts while the partition is held, and cancels the named quires' hints; otherwise it is refused (R162,
07_catchword_paging.md R186). -/
def State.startDrain (s : State) (p : PartId) : State :=
  if s.f (pt p) F.TK_STATUS_held = 0 then s.setF (pt p) F.CH_RECONF_refused 1
  else
    let mask := s.f (pt p) F.CH_RECONF_quires
    let l := maskQuires p mask
    let s := ((s.setF (pt p) F.CH_RECONF_drain 1).setF (pt p) F.CH_RECONF_state 1).setF (pt p) F.CH_RECONF_refused 0
    let s := s.updPart p (fun x => { x with drainAt := s.ns })
    s.cancelHints p (fun h => l.contains h.owner || l.contains h.quire) mask

/-- The drain ends with nothing in flight, or at its limit, where doubt stays until nothing of the epochs that it left behind
is in flight (R162, R163). -/
def State.endDrain (s : State) (p : PartId) : State :=
  if s.f (pt p) F.CH_RECONF_state ≠ 1 then s
  else
    let mask := s.f (pt p) F.CH_RECONF_quires
    if s.anyInFlight (maskQuires p mask) = false then
      (s.setF (pt p) F.CH_RECONF_drain 0).setF (pt p) F.CH_RECONF_state 2
    else
      let limit := s.f (pt p) F.CH_DRAIN_limit_ns
      let s := s.waitNs ((s.part p).drainAt + (if limit = 0 then 8000 else limit))
      let s := ((s.setF (pt p) F.CH_RECONF_drain 0).setF (pt p) F.CH_RECONF_state 3).setF (pt p) F.CH_RECONF_unsure 1
      let s := s.updPart p (fun x =>
        { x with unsureEpochs := (x.unsureEpochs ++ (maskQuires p mask).map (fun q => s.f (qb q) F.CH_EPOCH_epoch)).dedup })
      s.raise (.part p) Ev.CH_DRAIN_LIMIT (evSev Ev.CH_DRAIN_LIMIT) [mask, (s.peek (pt p + R.CH_INFLIGHT.off)).toNat]

def execReconfDrainEnd (p : PartId) (s : State) : Out := .next (s.endDrain p)

/-- The commit at one quire: tokens and words discarded, ring pointers zero, the epoch advanced, credits at their grants
(R162). -/
def State.commitQuire (s : State) (q : QuireId) : State :=
  let old := s.f (qb q) F.CH_EPOCH_epoch
  let new := (old + 1) % 4
  let r := (List.finRange 64).foldl (fun (r : State × Nat × Nat) i =>
    let u : StId := ⟨q, i⟩
    let x := r.1.st u
    let words := (List.range 4).foldl (fun n k => n + x.qlen k) 0
    if x.store.length + words = 0 then r
    else (r.1.setSt u { x with store := [], queues := [] }, r.2.1 + x.store.length, r.2.2 + words)) (s, 0, 0)
  let s := (List.range 16).foldl (fun t k =>
    if t.f (rb_ q k) F.CH_RING_CFG_valid = 1 then (t.setF (rb_ q k) F.CH_RING_WP_wp 0).setF (rb_ q k) F.CH_RING_RP_rp 0
    else t) r.1
  let s := (List.range 256).foldl (fun t e => t.setF (eb q e) F.CH_ROUTE_D_held (t.f (eb q e) F.CH_ROUTE_C_grant)) s
  let s := s.updQu q (fun x => { x with ringSeq := [], ringPos := [], aborted := [] })
  let s := (s.setF (qb q) F.CH_EPOCH_epoch new).incF (qb q) F.CH_EPOCH_DISC_commit (r.2.1 + r.2.2)
  s.raise (.quire q) Ev.EPOCH_DISCARD (evSev Ev.EPOCH_DISCARD) [0x20, r.2.1, r.2.2, old, new]

/-- A commit while held, with nothing in flight that carries an epoch it would adopt; otherwise refused (R162, R163). -/
def State.commit (s : State) (p : PartId) : State :=
  let l := maskQuires p (s.f (pt p) F.CH_RECONF_quires)
  let clash := l.any (fun q => decide (s.inflight p ((s.f (qb q) F.CH_EPOCH_epoch + 1) % 4) ≠ 0))
  if s.f (pt p) F.TK_STATUS_held = 0 ∨ clash then s.setF (pt p) F.CH_RECONF_refused 1
  else
    let s := l.foldl (fun t q => t.commitQuire q) s
    ((s.setF (pt p) F.CH_RECONF_refused 0).setF (pt p) F.CH_RECONF_drain 0).setF (pt p) F.CH_RECONF_state 0

end Sys2Proof.Machine
end

