-- ==== Sys2Proof/Machine/Gate.lean ====
section
/-! DEFINITION. Who may write what: the gate of BAR0 writes and of host writes to the window, and the host's view of
device writes (00_scope.md R9, 09_host_attachment.md R224 to R234, 11_fences_resets_recovery.md R286, R295). -/

namespace Sys2Proof.Machine

/-- An event at the default severity of its code. -/
def State.ev (s : State) (x : Src) (code : Nat) (cap : List Nat) : State := s.raise x code (evSev code) cap

/-- A number as one capture word where it fits in 32 bits, else as two, low word first (R381). -/
def capNum (n : Nat) : List Nat := if n < 2 ^ 32 then [n] else [n % 2 ^ 32, n / 2 ^ 32]

/-- A 64-bit time as two capture words (R381). -/
def cap64 (n : Nat) : List Nat := [n % 2 ^ 32, n / 2 ^ 32 % 2 ^ 32]

/-- The partition is enabled by the licence (13_bring_up_and_licences.md R332). -/
def State.enabled (s : State) (p : PartId) : Bool := decide (s.f hub F.LC_FEATURES_parts / 2 ^ p.val % 2 = 1)

def State.fenced (s : State) (p : PartId) : Bool := decide (s.f (pt p) F.RS_STATUS_fenced = 1)

/-- The device is withdrawn, or answers management only after a shutdown test (R295, 12_self_test_and_rotation.md R309). -/
def State.withdrawn (s : State) : Bool := decide (s.f hub F.RS_DEVICE_withdrawn = 1) || decide (s.stew.devTest = some 3)

/-- The IDE streams are insecure after a failure (R226). -/
def State.insecure (s : State) : Bool := decide (s.f hub F.CX_LINK_ide = 2)

def State.present (s : State) (q : QuireId) : Bool :=
  decide (s.f (pt (partOf q)) (F.MS_MAP_absent.nth (localOf q)) = 0)

/-- The present quires of a partition. -/
def State.quiresOf (s : State) (p : PartId) : List QuireId :=
  ((List.range 8).map (quireOf p)).filter (fun q => s.present q)

/-- The partitions bound to an LD (R230). -/
def State.bound (s : State) (l : LdId) (p : PartId) : Bool :=
  decide (s.f hub (F.CX_LD_BIND_parts.nth l.val) / 2 ^ p.val % 2 = 1)

/-- The partition whose block holds a BAR0 address. -/
def blockPart (addr : Nat) : Option PartId :=
  if addr < 0x1000000 ∨ 0x5000000 ≤ addr then none else some ⟨(addr / 0x1000000 - 1) % 4, by omega⟩

/-- The source that records a configuration write: the partition whose block is written, else the hub (R262). -/
def cfgSrc (addr : Nat) : Src := match blockPart addr with
  | some p => .part p
  | none => .hub

/-- Who may write a register: nobody while insecure or withdrawn, or with the die's rails off; a tenant only its own partitions' blocks, and none of
the owner's fields; nobody a partition that is not enabled; the bound LD nothing but RS_CFG while fenced. -/
inductive GateAnswer where
  | pass | silent | denied | fenced
  deriving DecidableEq, Repr

def State.gateOf (s : State) (w : Writer) (addr : Nat) : GateAnswer :=
  match w with
  | .steward => .pass
  | .ld l =>
    if s.insecure ∨ s.withdrawn ∨ s.stew.die = false then .silent
    else match blockPart addr with
      | none => if l = s.owner then .pass else .denied
      | some p =>
        if l ≠ s.owner ∧ (s.bound l p = false ∨ addr % 0x1000000 = R.PW_BUDGET.off) then .denied
        else if s.enabled p = false then .silent
        else if s.fenced p ∧ s.bound l p ∧ addr % 0x1000000 ≠ R.RS_CFG.off then .fenced
        else .pass

/-- Why a message to a register of a quire's block comes back from its kettle: the quire is absent, or its half is clocked
down (08_cord_mesh_and_spine.md R205, R218). -/
def State.asleepCause (s : State) (addr : Nat) : Option Nat :=
  match blockPart addr with
  | none => none
  | some p =>
    let o := addr % 0x1000000
    if o < 0x800000 ∨ 0x880000 ≤ o then none
    else if s.present (quireOf p ((o - 0x800000) / 0x10000)) = false then some 0x18
    else if s.f hub (halfFld (halfOf p)) ≠ 0 then some 0x19
    else none

/-- The logical destination of a message to a register of a partition's block (08, Table 4). -/
def regDest (p : PartId) (addr : Nat) : Nat :=
  let o := addr % 0x1000000
  if o < 0x800000 then 32 + p.val else (quireOf p ((o - 0x800000) / 0x10000)).val

/-- The unit word of a destination of Table 4 (14_event_recorder_and_colophon.md R381): a quire, a sequencer, the hub, the
steward, the loader of a partition. -/
def destWord (p : PartId) (dest : Nat) : Nat :=
  if dest < 32 then unitWord 0x09 dest
  else if dest < 36 then unitWord 0x12 (dest - 32)
  else if dest = 37 then unitWord 0x11 0
  else if dest = 38 then unitWord 0x14 p.val
  else unitWord 0x10 0

/-- A kettle answers ASLEEP; where the quire is absent, that is recorded too (08 R205, R218, Table 9). -/
def State.noteAsleep (s : State) (p : PartId) (dest cls opcode cause : Nat) : State :=
  let s := (s.incF (pt p) F.SP_STAT_asleep).ev (.part p) Ev.SP_ASLEEP [destWord p dest, cls, opcode, cause]
  if cause = 0x18 ∧ dest < 32 then s.noteAbsent ⟨dest % 32, by omega⟩ 36 1 else s

/-- A BAR0 write: recorded with the writer's LD, the offset and the value, unless it strikes, and carried out where the
gate lets it pass and its quire answers; a tenant's write of an owner's field in its own block is recorded as both
(R9, R232, R233, R286, 08_cord_mesh_and_spine.md R218). -/
def State.asWrite (s : State) (w : Writer) (addr value : Nat) (k : State → State) : State :=
  match s.gateOf w addr with
  | .silent => s
  | .denied =>
    let own : Bool := match w, blockPart addr with
      | .ld l, some p => s.bound l p
      | _, _ => false
    (if own then s.ev (cfgSrc addr) Ev.CFG_WRITE [w.word, addr, value] else s).ev .hub Ev.CX_PRIV_DENIED [w.word, addr]
  | .fenced => s.ev (cfgSrc addr) Ev.CFG_WRITE [w.word, addr, value, 0x14]
  | .pass =>
    if addr % 0x1000000 = R.TK_STRIKE.off ∧ (blockPart addr).isSome then k s
    else
      let s := s.ev (cfgSrc addr) Ev.CFG_WRITE [w.word, addr, value]
      match blockPart addr, s.asleepCause addr with
      | some p, some c => s.noteAsleep p (regDest p addr) 4 0x21 c
      | _, _ => k s

/-- A host write to the window that is dropped (R225, R234, R235, R238, R252). -/
def State.writeDrop (s : State) (x : Src) (ld : Nat) (off cause : Nat) : State :=
  s.ev x Ev.CX_WRITE_DROP ([ld] ++ capNum off ++ [cause])

/-- Host memory writes are taken: not while the streams are insecure or the device withdrawn. -/
def State.takesMem (s : State) : Bool := !s.insecure && !s.withdrawn && s.stew.die

/-- CX_LINK shows what the CXL link came up at: one of the options of Table 1, or down (R223). -/
def State.linkUp (s : State) (t : LinkUp) : State :=
  match t with
  | some (speed, width, lat) =>
    let s := (s.setF hub F.CX_LINK_speed (speed.val + 1)).setF hub F.CX_LINK_width (2 ^ (width.val + 1))
    s.setF hub F.CX_LINK_lat_opt (if lat then 1 else 0)
  | none => ((s.setF hub F.CX_LINK_speed 0).setF hub F.CX_LINK_width 0).setF hub F.CX_LINK_lat_opt 0

/-- Every line of a range of an LD's window is back-invalidated (R261). -/
def State.devClearLd (s : State) (l : LdId) (lo hi : Nat) : State :=
  let hit (e : Nat × Nat) := decide (e.1 = l.val) && decide (lo ≤ e.2 * 64) && decide (e.2 * 64 < hi)
  { s with snoops := s.snoops ++ s.filter.filter hit }

/-- Every line of a range of a partition's areas is back-invalidated in the window of the LD it is bound to. -/
def State.devClear (s : State) (p : PartId) (lo hi : Nat) : State :=
  match s.ldOf p with
  | some l => s.devClearLd l lo hi
  | none => s

/-- What an unwritten byte of BAR2 reads as: every vector of the MSI-X table masked, as PCIe resets it (PRESUMED). -/
def bar2Rst (off : Nat) : BitVec 8 := if off % 16384 < 0x400 ∧ off % 16 = 12 then 1 else 0

def State.bar2At (s : State) (a : Nat) : BitVec 8 := spGet (bar2Rst a) s.bar2 a
def State.setBar2 (s : State) (a : Nat) (v : BitVec 8) : State := { s with bar2 := spSet (bar2Rst a) s.bar2 a v }

/-- An MSI-X message: the LD's vector is raised; a masked vector sets its pending bit (R224, R259). -/
def State.msi (s : State) (ld vec : Nat) : State :=
  let base := ld * 16384
  if (s.bar2At (base + 16 * (vec % 64) + 12)).toNat % 2 = 1 then
    let a := base + 0x2000 + vec % 64 / 8
    s.setBar2 a (s.bar2At a ||| BitVec.ofNat 8 (2 ^ (vec % 8)))
  else { s with msix := spUpd 0 s.msix (ld * 64 + vec % 64) (· + 1) }

/-- Bits of a byte of BAR2 that a host writes: of a table entry the message address but for its two lowest bits, the message
data, the mask bit; none of the pending bits (PRESUMED: PCIe). -/
def bar2Mask (off : Nat) : BitVec 8 :=
  if 0x400 ≤ off then 0 else if off % 16 = 0 then 0xFC else if off % 16 < 12 then 0xFF else if off % 16 = 12 then 1 else 0

/-- A host write of an LD's BAR2. A vector that is unmasked while its bit is pending is raised (R224, R259). -/
def State.bar2Write (s : State) (ld off : Nat) (bytes : List (BitVec 8)) : State :=
  let base := ld * 16384
  let s := (bytes.zipIdx).foldl (fun t b =>
    let a := off + b.2
    let m := bar2Mask a
    t.setBar2 (base + a) ((b.1 &&& m) ||| (t.bar2At (base + a) &&& ~~~m))) s
  (List.range 64).foldl (fun t v =>
    let a := base + 0x2000 + v / 8
    let bit := BitVec.ofNat 8 (2 ^ (v % 8))
    if (t.bar2At (base + 16 * v + 12)).toNat % 2 = 0 ∧ t.bar2At a &&& bit ≠ 0 then
      (t.setBar2 a (t.bar2At a &&& ~~~bit)).msi ld v
    else t) s

/-- Bytes written by the device into an LD's control page (R237, R258). -/
def State.ctlWrite (s : State) (ld off : Nat) (bytes : List (BitVec 8)) : State :=
  { s with ctlPage := memWrite s.ctlPage (ld * 4096 + off) bytes }.devWrite ld off

end Sys2Proof.Machine
end

