-- ==== Sys2Proof/Machine/Mailbox.lean ====
section
/-! DEFINITION. Notices and completions (09_host_attachment.md R252 to R259). -/

namespace Sys2Proof.Machine

/-- The completion statuses of Table 10. -/
def Cs.done : Nat := 0
def Cs.aborted : Nat := 1
def Cs.refused : Nat := 2
def Cs.busy : Nat := 3
def Cs.denied : Nat := 4
def Cs.asleep : Nat := 5
def Cs.lost : Nat := 6

/-- The partition of a sequencer mailbox. -/
def boxPart (mailbox : Nat) : Option PartId := if mailbox = 0 then none else some ⟨(mailbox - 1) % 4, by omega⟩

/-- The source that records a mailbox event. -/
def boxSrc (mailbox : Nat) : Src := match boxPart mailbox with
  | some p => .part p
  | none => .hub

/-- A completion on its way to the queue, counted by its status in MB_STAT (R253, R255). -/
def State.pushComp (s : State) (n : Notice) (status result : Nat) : State :=
  let s := { s with comps := s.comps ++
    [{ ld := n.ld, mailbox := n.mailbox, bit := n.bit, tag := n.tag, status := status, result := result % 2 ^ 64,
       irq := n.irq, vec := n.vec, waited := false }] }
  match boxPart n.mailbox with
  | none => s
  | some p =>
    if status = Cs.busy then s.incF (pt p) F.MB_STAT_busy
    else if status = Cs.asleep then s.incF (pt p) F.MB_STAT_asleep
    else if status = Cs.aborted then s.incF (pt p) F.MB_STAT_aborted
    else s

/-- MB_PEND shows the bits that hold a notice. -/
def State.showPend (s : State) (mailbox : Nat) : State :=
  match boxPart mailbox with
  | none => s
  | some p =>
    let m := (List.range 32).foldl (fun a b =>
      if s.notices.any (fun n => decide (n.mailbox = mailbox) && decide (n.bit = b)) then a + 2 ^ b else a) 0
    s.setF (pt p) F.MB_PEND_pending m

/-- A notice ends in exactly one completion (R253). -/
def State.complete (s : State) (n : Notice) (status result : Nat) : State :=
  ({ s with notices := s.notices.erase n }.pushComp n status result).showPend n.mailbox

/-- A notice refused or denied, for a reason of Table 13 (R253, R232). -/
def State.refuse (s : State) (n : Notice) (status reason : Nat) (result : Nat := 0) : State :=
  (s.complete n status result).ev (boxSrc n.mailbox) Ev.MB_REFUSED [n.ld, n.mailbox, n.bit, reason]

/-- The notice a mailbox bit holds. -/
def State.noticeAt (s : State) (mailbox bit : Nat) (ld : Option Nat := none) : Option Notice :=
  s.notices.find? (fun n => decide (n.mailbox = mailbox) && decide (n.bit = bit) &&
    (match ld with
      | some l => decide (n.ld = l)
      | none => true))

/-- A notice in a phase. -/
def State.setPhase (s : State) (n : Notice) (ph : NoticePhase) : State :=
  { s with notices := s.notices.map (fun m => if m = n then { m with phase := ph } else m) }

/-- Completes every notice of a mailbox's bit that acts. -/
def State.completeActing (s : State) (p : PartId) (bit result : Nat) : State :=
  (s.notices.filter (fun n => decide (n.mailbox = p.val + 1) && decide (n.bit = bit) &&
    decide (n.phase = .acting))).foldl (fun t n => t.complete n Cs.done result) s

/-- A mailbox is cleared by its receiver's reset: every notice it holds completes aborted; vectors are raised with the
completions (R255). -/
def State.abortBox (s : State) (mailbox : Nat) : State :=
  let l := s.notices.filter (fun n => decide (n.mailbox = mailbox))
  let s := l.foldl (fun t n => t.complete n Cs.aborted 0) s
  let lds := (l.map (fun n => 2 ^ n.ld)).dedup.foldl (· + ·) 0
  s.ev (boxSrc mailbox) Ev.MB_ABORT [mailbox, l.length, lds]

/-- The free-running producer and consumer indices of an LD's completion queue. -/
def State.cqProd (s : State) (ld : Nat) : Nat := leNat (memRead s.ctlPage (ld * 4096 + 0xA00) 8)
def State.cqCons (s : State) (ld : Nat) : Nat := leNat (memRead s.ctlPage (ld * 4096 + 0xA08) 8)

/-- The oldest completion of an LD is written into its queue and its vector raised, or waits for space (R258, Table 10). -/
def State.writeComp (s : State) (ld : Nat) : State :=
  match s.comps.find? (fun c => decide (c.ld = ld)) with
  | none => s
  | some c =>
    let prod := s.cqProd ld
    if 64 ≤ (prod + 2 ^ 64 - s.cqCons ld) % 2 ^ 64 then
      if c.waited then s
      else
        let first := !s.comps.any (fun d => decide (d.ld = ld) && d.waited)
        let s := { s with comps := s.comps.map (fun d => if d = c then { d with waited := true } else d) }
        let s := match boxPart c.mailbox with
          | some p => s.incF (pt p) F.MB_STAT_cq_wait
          | none => s
        if first then s.ev .hub Ev.MB_CQ_FULL ([ld] ++ cap64 prod ++ cap64 (s.cqCons ld)) else s
    else
      let e := leBytes 8 c.result ++ leBytes 4 c.tag ++ leBytes 1 c.mailbox ++ leBytes 1 c.bit ++ leBytes 1 c.status ++
        leBytes 1 (prod / 64 % 2)
      let s := { s with comps := s.comps.erase c }
      let s := s.ctlWrite ld (0xC00 + 16 * (prod % 64)) e
      let s := s.ctlWrite ld 0xA00 (leBytes 8 ((prod + 1) % 2 ^ 64))
      if c.irq then s.msi ld c.vec else s

/-- COMPLETION_WRITE (R258). -/
def execCompletionWrite (ld : LdId) (s : State) : Out := .next (s.writeComp ld.val)

/-- A host write of the consumer index (R235, R258). -/
def execCqConsumerWrite (ld : LdId) (v : DWord) (s : State) : Out :=
  if s.takesMem then .next { s with ctlPage := memWrite s.ctlPage (ld.val * 4096 + 0xA08) (leBytes 8 v.toNat) }
  else .next s

end Sys2Proof.Machine
end

