-- ==== Sys2Proof/Machine/Stroke.lean ====
section
/-! DEFINITION. Strikes and strokes: when a stroke may issue, what binds to it, holds, and the checks at the start of the
tick generator (01_the_tick.md R16 to R27, 09_host_attachment.md R244, R249, R251, R256). -/

namespace Sys2Proof.Machine

/-- The frame in cycles (R16). -/
def State.frameLen (s : State) (p : PartId) : Nat :=
  14 + s.f (pt p) F.TK_BUDGET_run_budget + 14 + s.f (pt p) F.TK_FRAME_publish_len + 256

def State.mode (s : State) (p : PartId) : Nat := s.f (pt p) F.TK_MODE_mode

/-- The TIMED period; 0 stands for 2^32 (TK_PERIOD). -/
def State.periodOf (s : State) (p : PartId) : Nat :=
  let v := s.f (pt p) F.TK_PERIOD_period
  if v = 0 then 2 ^ 32 else v

/-- The first cycle in which the spacing after the last stroke allows another (Table 2, R20, R21). -/
def State.spacedAt (s : State) (p : PartId) : Nat :=
  let x := s.part p
  if x.struck then x.strokeAt + (if s.mode p = 1 then s.f (pt p) F.TK_MODE_strike_min else s.frameLen p) else 0

/-- The hold bit or a hold by the hardware or the steward is in force (R27). -/
def State.holdIn (s : State) (p : PartId) : Bool :=
  decide (s.f (pt p) F.TK_CTRL_hold = 1) || !(s.part p).holds.isEmpty

def State.running (s : State) (p : PartId) : Bool := decide (s.f (pt p) F.TK_STATUS_running = 1)

/-- A field out of the range that a start accepts. -/
def State.badValue (s : State) (p : PartId) : Bool :=
  let per := s.f (pt p) F.TK_PERIOD_period
  let bind := s.f (pt p) F.TK_FRAME_bind_max
  decide (s.mode p = 3) || (decide (s.mode p = 0) && decide (1 ≤ per) && decide (per ≤ 511)) ||
  (decide (s.mode p = 1) && decide (s.f (pt p) F.TK_MODE_strike_min < 256)) ||
  decide (s.f (pt p) F.TK_BUDGET_run_budget = 0) || decide (bind = 0) || decide (64 < bind) ||
  (List.range 4).any (fun r => decide (s.f (ib p r) F.CX_IN_CFG_valid = 1) &&
    (let n := s.f (ib p r) F.CX_IN_CFG_size_log2
     decide (n < 6) || decide (12 < n)))

/-- The period or `strike_min` is below the frame (R17). -/
def State.badFrame (s : State) (p : PartId) : Bool :=
  (decide (s.mode p = 0) && decide (s.periodOf p < s.frameLen p)) ||
  (decide (s.mode p = 1) && decide (s.f (pt p) F.TK_MODE_strike_min < s.frameLen p))

/-- TK_STATUS.held: a hold is in force and no frame is open; a hold notice completes when it reads 1 (R27, R253). -/
def State.showHeld (s : State) (p : PartId) : State :=
  let h := s.holdIn p && !(s.part p).frameOpen
  let s := s.setF (pt p) F.TK_STATUS_held (if h then 1 else 0)
  if h then s.completeActing p 3 (s.cnt (pt p) R.TK_COUNT_LO R.TK_COUNT_HI) else s

/-- A strike that waits while strokes are held has not waited for spacing only (R19). -/
def State.noteHold (s : State) (p : PartId) : State := (s.updPart p (fun x => { x with spaceOnly := false })).showHeld p

def State.addHold (s : State) (p : PartId) (c : HoldCause) : State :=
  (s.updPart p (fun x => { x with holds := c :: x.holds.erase c })).noteHold p

/-- The points of the TIMED grid that fell while strokes were held: the first is deferred, with the late flag, the others
are skipped; the grid is kept (R21, R27). -/
def State.catchGrid (s : State) (p : PartId) : State :=
  let x := s.part p
  if s.mode p ≠ 0 ∨ s.running p = false ∨ x.cyc ≤ x.gridAt then s
  else
    let n := (x.cyc - x.gridAt - 1) / s.periodOf p + 1
    let s := s.incF (pt p) F.TK_INTAKE_STATS_skipped (if x.gridLate then n else n - 1)
    s.updPart p (fun y => { y with gridAt := y.gridAt + n * s.periodOf p, gridLate := true })

/-- The check that the release of a hold repeats for a running partition fails: the hold stays, as TK_CTRL.hold, and the
failure is recorded (R18). -/
def State.recheck (s : State) (p : PartId) : State :=
  if s.running p && (s.badValue p || s.badFrame p) then
    (s.setF (pt p) F.TK_CTRL_hold 1).ev (.part p) Ev.TICK_CONFIG [if s.badValue p then 2 else 1]
  else s

/-- A hold has ended: where none is left, the check of the start is repeated and the grid is caught up (R18, R27). -/
def State.holdEnded (s : State) (p : PartId) : State :=
  if s.holdIn p then s.showHeld p
  else
    let s := s.recheck p
    if s.holdIn p then s.showHeld p else (s.showHeld p).catchGrid p

def State.dropHold (s : State) (p : PartId) (c : HoldCause) : State :=
  if (s.part p).holds.contains c then (s.updPart p (fun x => { x with holds := x.holds.erase c })).holdEnded p else s

def State.showPending (s : State) (p : PartId) : State :=
  s.setF (pt p) F.TK_STATUS_pending (if (s.part p).pendStrike || (s.part p).pendEdge then 1 else 0)

/-! Result rings that hold strokes (R251). -/

def slotDepth (s : State) (p : PartId) (k : Nat) : Nat := 2 ^ (s.f (lb p k) F.CX_SLOT_CFG_depth_log2 + 1)

/-- A valid ring slot with no free entry. -/
def State.fullSlot (s : State) (p : PartId) : Option Nat :=
  (List.range 32).find? (fun k => decide (s.f (lb p k) F.CX_SLOT_CFG_valid = 1) &&
    decide (s.f (lb p k) F.CX_SLOT_CFG_mode = 1) &&
    (let x := spGet SlotSt.init (s.part p).slots k
     decide (slotDepth s p k ≤ x.seq - x.ack)))

/-- A stroke is due while a result ring is full: the hold is counted and recorded at its start. -/
def State.noteFull (s : State) (p : PartId) : State :=
  match s.fullSlot p with
  | none => s
  | some k =>
    if (s.part p).ringFull then s
    else
      let x := spGet SlotSt.init (s.part p).slots k
      let s := (s.updPart p (fun y => { y with ringFull := true, spaceOnly := false })).incF (lb p k) F.CX_SLOT_STAT_ring_full
      s.ev (.part p) Ev.RESULT_RING_FULL ([k] ++ cap64 x.seq ++ cap64 x.ack)

/-- A stroke may issue but for its spacing. -/
def State.mayStroke (s : State) (p : PartId) : Bool :=
  s.running p && !s.holdIn p && !(s.part p).frameOpen && (s.fullSlot p).isNone

/-! Issue (R19, R22, R23, R36, R244, R256, 15_module_power_and_signals.md R374). -/

def State.ring (s : State) (p : PartId) (r : Nat) : InRing := spGet .init (s.part p).rings r
def State.setRing (s : State) (p : PartId) (r : Nat) (x : InRing) : State :=
  s.updPart p (fun y => { y with rings := spSet .init y.rings r x })

/-- A ring's consumer pointer, in its register and in the control page (R237). -/
def State.setCons (s : State) (p : PartId) (r c : Nat) : State :=
  let s := s.setF (ib p r) F.CX_IN_CONS_c (c % 2 ^ 32)
  match s.ldOf p with
  | some l => s.ctlWrite l.val (0xA40 + 0x20 * p.val + 8 * r) (leBytes 8 (c % 2 ^ 32))
  | none => s

/-- The lines of a message leave the arrival map and its ring moves past them (R237). -/
def State.passLines (s : State) (p : PartId) (r lines : Nat) : State :=
  let c := s.f (ib p r) F.CX_IN_CONS_c
  let n := 2 ^ s.f (ib p r) F.CX_IN_CFG_size_log2
  let x := s.ring p r
  let s := s.setRing p r { x with came := (List.range lines).foldl (fun m i => spDel m ((c + i) % n)) x.came }
  s.setCons p r (c + lines)

/-- The binding of one ring at a stroke (R22, R23). -/
def State.bindRing (s : State) (p : PartId) (tick : Nat) (r : Nat) : State :=
  if s.f (ib p r) F.CX_IN_CFG_valid = 0 then s
  else
    let x := s.ring p r
    let now := (s.part p).cyc
    let ready := if s.insecure then [] else x.msgs.takeWhile (fun m => decide (m.sealedAt < now))
    let take := ready.take (s.f (pt p) F.TK_FRAME_bind_max)
    let rest := x.msgs.drop take.length
    let late := match take with
      | m :: _ => m.late
      | [] => false
    let s := s.setRing p r { x with msgs := rest, bound := x.bound ++ take }
    let s := take.foldl (fun t m => t.passLines p r m.lines) s
    let s := s.setF (ib p r) F.CX_IN_SEQ_next ((s.f (ib p r) F.CX_IN_SEQ_next + take.length) % 2 ^ 32)
    let s := s.setF (ib p r) F.CX_IN_STAT_sealed rest.length
    let s := s.incF (pt p) F.TK_INTAKE_STATS_deferred (ready.length - take.length)
    let s := s.updPart p (fun y => { y with
      intakes := y.intakes ++ [{ ring := r, late := late, tick := tick % 65536, msgs := take, got := false }] })
    if take.length < ready.length ∧ s.mode p = 1 then s.updPart p (fun y => { y with pendStrike := true }) else s

/-- The token that an injecting bit forms from its notice (R256). -/
def State.injectTok (s : State) (p : PartId) (n : Notice) : DueTok :=
  let f (g : Fld) := s.f (pt p) (g.nth (n.bit - 8))
  { pos := f F.MB_INJ_release, u := ⟨quireOf p (f F.MB_INJ_quire), ⟨f F.MB_INJ_stitcher % 64, by omega⟩⟩,
    port := f F.MB_INJ_port, tag := n.tag % 4096, ctl := true,
    data := BitVec.ofNat 64 (n.ptr / 64 % 2 ^ 32 + 2 ^ 32 * (n.tag % 2 ^ 32)), msg := none, notice := some (n.ld, n.bit), blocked := false }

/-- A write that has waited for a pulse takes effect once the pulse is over (15_module_power_and_signals.md R374). -/
def State.settleIo (s : State) : State :=
  match s.ioNext with
  | none => s
  | some v => if s.now < s.pulseEnd then s else { s.wr hub R.HB_TICK_IO (tickIoWord (s.rd hub R.HB_TICK_IO) v) with ioNext := none }

/-- TICK_OUT drives a pulse, or the stroke is counted missed (R374). -/
def State.tickOut (s : State) (p : PartId) : State :=
  let s := s.settleIo
  if s.f hub F.HB_TICK_IO_out_en = 0 ∨ s.f hub F.HB_TICK_IO_out_src ≠ p.val then s
  else
    let start := s.now + 12 * s.period p + 24
    let w := s.f hub F.HB_TICK_IO_out_width
    if start < s.pulseEnd then s.incF hub F.HB_TICK_IO_missed
    else { s with pulseEnd := start + 32 * (if w = 0 then 1 else w) }

/-- A quire of the partition is suspect (R265, 04_stitchers.md R115, 03_presses.md R84). -/
def State.suspect (s : State) (p : PartId) : Bool :=
  (s.quiresOf p).any (fun q => decide (s.f (qb q) F.ST_FAULT_suspect = 1) || decide (s.f (qb q) F.PS_VOTE_suspect = 1))

/-- A mask of local quires. -/
def localMask (l : List QuireId) : Nat := l.foldl (fun m q => m + 2 ^ localOf q) 0

/-- The sequencer issues a stroke in the partition's present cycle: the counter advances, messages and injected tokens
bind, the frame opens. -/
def State.issueStroke (s : State) (p : PartId) (late : Bool) : State :=
  let old := s.cnt (pt p) R.TK_COUNT_LO R.TK_COUNT_HI
  let tick := (old + 1) % 2 ^ 48
  let s := s.setCnt (pt p) R.TK_COUNT_LO R.TK_COUNT_HI tick
  let s := if tick = 0 then s.ev (.part p) Ev.TICK_WRAP [] else s
  let s := s.updPart p (fun x =>
    { x with frameOpen := true, strokeAt := x.cyc, strokeNs := s.ns, struck := true, pendStrike := false, pendEdge := false,
             gridLate := false, spaceOnly := false, late := late || x.lateNext, lateNext := false, failed := s.suspect p,
             failAt := x.cyc, pubs := [],
             published := false, doneMask := 0, waitMask := localMask (s.quiresOf p), doneAt := 0, closeAt := none,
             strokeMask := 0, overran := false, overMask := 0, intakes := [], dueToks := [], ringFull := false,
             budget := s.f (pt p) F.PW_BUDGET_watts })
  let s := (List.range 4).foldl (fun t r => t.bindRing p tick r) s
  let inj := s.notices.filter (fun n => !s.insecure && decide (n.mailbox = p.val + 1) && decide (8 ≤ n.bit) &&
    decide (n.phase = .acting))
  let s := s.updPart p (fun x => { x with dueToks := x.dueToks ++ inj.map (s.injectTok p) })
  let s := ((s.setF (pt p) F.TK_STATUS_phase 1).setF (pt p) F.TK_STATUS_quires_done 0).showPending p
  ((s.completeActing p 0 tick).showHeld p).tickOut p

/-- The stroke of a strike issues 2 cycles after it, if that cycle has come or `wait` lets time pass to it; where strokes
have meanwhile been stopped the strike stays pending. A strike that came after it waits as before (R19, Table 3). -/
def State.tryStrike (s : State) (p : PartId) (at_ : Nat) (wait : Bool) : State :=
  if (s.part p).cyc < at_ ∧ wait = false then s
  else
    let later := (s.part p).pendStrike
    let s := (s.waitCycle p at_).updPart p (fun y => { y with strikeDue := none })
    let s := if s.mayStroke p then s.issueStroke p false else s.updPart p (fun y => { y with pendStrike := true })
    (s.updPart p (fun y => { y with pendStrike := y.pendStrike || later, spaceOnly := false })).showPending p

/-- What is pending is acted on in the first cycle in which a stroke may issue, if that cycle has come or `wait` lets time
pass to it (R19 to R21, R27, R251). -/
def State.tryPending (s : State) (p : PartId) (wait : Bool) : State :=
  let x := s.part p
  if let some t := x.strikeDue then s.tryStrike p t wait
  else if !(x.pendStrike || x.pendEdge || x.gridLate) then s
  else
    let s := if s.running p && !s.holdIn p && !x.frameOpen then s.noteFull p else s
    if s.mayStroke p = false then s
    else
      let t := s.spacedAt p
      if x.cyc < t ∧ wait = false then s
      else
        let s := s.waitCycle p t
        let s := if x.pendStrike && x.spaceOnly then s.incF (pt p) F.TK_STRIKE_STATS_spaced else s
        s.issueStroke p (x.pendEdge || x.gridLate)

/-- A strike reaches the sequencer (R19): a stroke 2 cycles later where one may issue, the same for every strike of the
cycle, else one pending strike. -/
def State.strike (s : State) (p : PartId) : State :=
  let x := s.part p
  if s.mode p ≠ 1 ∨ s.running p = false then s
  else if x.pendStrike then s.incF (pt p) F.TK_STRIKE_STATS_merged
  else if let some t := x.strikeDue then
    if t = x.cyc + 2 then s else (s.updPart p (fun y => { y with pendStrike := true, spaceOnly := false })).showPending p
  else
    let s := if !s.holdIn p && !x.frameOpen then s.noteFull p else s
    let spaced := decide (s.spacedAt p ≤ x.cyc + 2)
    if s.mayStroke p && spaced then s.updPart p (fun y => { y with strikeDue := some (x.cyc + 2) })
    else (s.updPart p (fun y => { y with pendStrike := true, spaceOnly := s.mayStroke p })).showPending p

/-! The start check (R17, R18, R32, R111, R153, R173, R216, R244, R249, R333). -/

/-- A valid page table fails R170 or R172 (R173). -/
def State.badTable (s : State) (p : PartId) : Bool :=
  (List.range 64).any (fun t =>
    let b := tb p t
    let due := s.f b F.PG_TBL_DUE_position
    let land_ := s.f b F.PG_TBL_LAND_base * 4096
    let size := s.pageSize p t
    decide (s.f b F.PG_TBL_CFG_valid = 1) &&
      (decide (4 < s.f b F.PG_TBL_CFG_size) || decide (16 < s.f b F.PG_TBL_CFG_shift) ||
       decide (s.f b F.PG_TBL_LEN_pages = 0) || decide (0x1000000 < s.f b F.PG_TBL_LEN_pages) ||
       decide (s.f b F.PG_TBL_LAND_slots = 0) || decide (4096 < s.f b F.PG_TBL_LAND_slots) ||
       decide (s.f b F.PG_TBL_CFG_distance = 0) || decide (due = 0) ||
       decide (s.f (pt p) F.TK_BUDGET_run_budget < due) || decide (land_ % size ≠ 0) ||
       decide (0x8000000 < land_ + s.f b F.PG_TBL_LAND_slots * size) ||
       (decide (s.f b F.PG_TBL_CFG_mode = 0) && decide (s.f b F.PG_TBL_BASE_pma * 64 % size ≠ 0))))

/-- A valid inbox ring fails R244. -/
def State.badIntake (s : State) (p : PartId) : Bool :=
  (List.range 4).any (fun r => decide (s.f (ib p r) F.CX_IN_CFG_valid = 1) &&
    (decide (s.f (ib p r) F.CX_IN_TGT_intake_lat < 15) ||
     decide (2 ^ s.f (ib p r) F.CX_IN_CFG_land_log2 < 2 * s.f (pt p) F.TK_FRAME_bind_max)))

/-- A slot's area in the result area: its first byte and its size (R249). -/
def State.slotArea (s : State) (p : PartId) (k : Nat) : Nat × Nat :=
  let pay := s.f (lb p k) F.CX_SLOT_CFG_units * 64
  (s.f (lb p k) F.CX_SLOT_CFG_base * 4096,
   if s.f (lb p k) F.CX_SLOT_CFG_mode = 0 then 64 + 2 * pay else 64 + slotDepth s p k * (64 + pay))

/-- The valid slots of a partition. -/
def State.validSlots (s : State) (p : PartId) : List Nat :=
  (List.range 32).filter (fun k => decide (s.f (lb p k) F.CX_SLOT_CFG_valid = 1))

/-- Result slots fail R249. -/
def State.badSlots (s : State) (p : PartId) : Bool :=
  let l := s.validSlots p
  let a := l.map (fun k => (k, s.slotArea p k))
  decide (16 + 2 * l.length ≠ s.f (pt p) F.TK_FRAME_publish_len) ||
  a.any (fun x => decide (0x100000 < x.2.1 + x.2.2) ||
    a.any (fun y => decide (x.1 < y.1) && decide (x.2.1 < y.2.1 + y.2.2) && decide (y.2.1 < x.2.1 + x.2.2)))

/-- Long context without its licence (R333). -/
def State.badLength (s : State) (p : PartId) : Bool :=
  (List.range 64).any (fun t => decide (s.f (tb p t) F.PG_TBL_CFG_valid = 1) &&
    decide (262144 < s.f (tb p t) F.PG_TBL_LEN_pages * 2 ^ s.f (tb p t) F.PG_TBL_CFG_shift))

/-- The cause code for which a start is refused; none where it is not (Table 13 of the recorder's chapter). A partition
that is withdrawn or failed its verification carries none: 0. -/
def State.startRefused (s : State) (p : PartId) : Option Nat :=
  let qs := s.quiresOf p
  if s.f (pt p) F.RS_STATUS_state = 8 ∨ s.f (pt p) F.RS_STATUS_withdrawn = 1 then some 0
  else if s.badValue p then some 2
  else if s.badFrame p then some 1
  else if qs.any (fun q => (List.finRange 64).any (fun i =>
      decide (s.f (sb ⟨q, i⟩) F.ST_STATUS_used = 1) && decide (s.f (sb ⟨q, i⟩) F.ST_STATUS_sealed = 0))) then some 5
  else if qs.any (fun q => (List.range 256).any (fun e => decide (s.f (eb q e) F.CH_ROUTE_A_cfg_err = 1))) then some 6
  else if s.badTable p then some 7
  else if s.f hub (halfFld (halfOf p)) ≠ 0 then some 8
  else if s.badIntake p then some 9
  else if s.badSlots p then some 10
  else if s.f (pt p) F.TK_CTRL_policy = 1 ∧ s.f hub F.LC_FEATURES_replay = 0 then some 11
  else if s.f hub F.LC_FEATURES_long = 0 ∧ s.badLength p then some 11
  else none

/-- TK_CTRL.run written 1 (R17). While the open frame still runs out after a stop, the check is made as at any start: a
start that passes takes the stop back, one that fails leaves it standing. -/
def State.runStart (s : State) (p : PartId) (ld : Nat) : State :=
  if s.running p && !(s.part p).stopping then s.setF (pt p) F.TK_CTRL_run 1
  else match s.startRefused p with
    | some c =>
      let s := s.setF (pt p) F.TK_CTRL_run 0
      let s := if c = 11 then
          s.noteFeature p (if s.f (pt p) F.TK_CTRL_policy = 1 ∧ s.f hub F.LC_FEATURES_replay = 0 then 2 else 3) ld
        else s
      s.ev (.part p) Ev.TICK_CONFIG [c]
    | none =>
      if s.running p then (s.updPart p (fun x => { x with stopping := false })).setF (pt p) F.TK_CTRL_run 1
      else
      let s := (s.setF (pt p) F.TK_CTRL_run 1).setF (pt p) F.TK_STATUS_running 1
      (s.updPart p (fun x => { x with gridAt := x.cyc + 1, stopping := false })).showHeld p

/-- TK_CTRL.run written 0: the generator stops after the current frame. -/
def State.runStop (s : State) (p : PartId) : State :=
  let s := s.setF (pt p) F.TK_CTRL_run 0
  if (s.part p).frameOpen then s.updPart p (fun x => { x with stopping := true })
  else s.setF (pt p) F.TK_STATUS_running 0

/-- TK_CTRL.hold written 1 (R27). -/
def State.holdOn (s : State) (p : PartId) : State := (s.setF (pt p) F.TK_CTRL_hold 1).noteHold p

/-- TK_CTRL.hold written 0: a running partition is checked again, and what is pending issues (R18, R27). -/
def State.holdOff (s : State) (p : PartId) : State :=
  if s.f (pt p) F.TK_CTRL_hold = 0 then s
  else
    let s := (s.setF (pt p) F.TK_CTRL_hold 0).recheck p
    if s.f (pt p) F.TK_CTRL_hold = 1 then s else ((s.holdEnded p).tryPending p false)

/-- A write to TK_CTRL: policy, then run, then hold (TK_CTRL). -/
def State.writeCtrl (s : State) (p : PartId) (ld : Nat) (v : BitVec 32) : State :=
  let s := s.setF (pt p) F.TK_CTRL_policy (F.TK_CTRL_policy.get v)
  let s := if F.TK_CTRL_hold.get v = 1 then s.holdOn p else s.holdOff p
  if F.TK_CTRL_run.get v = 1 then s.runStart p ld
  else if s.f (pt p) F.TK_CTRL_run = 1 then s.runStop p
  else s

/-! The commands. -/

/-- The word a write of one field makes of TK_CTRL. -/
def State.ctrlWord (s : State) (p : PartId) (f : Fld) (v : Nat) : BitVec 32 := f.put (s.rd (pt p) R.TK_CTRL) v

def State.writeTkCtrl (s : State) (w : Writer) (p : PartId) (f : Fld) (v : Nat) (k : State → State) : State :=
  s.asWrite w (pt p + R.TK_CTRL.off) (s.ctrlWord p f v).toNat k

/-- TICK_RUN_START (R17). -/
def execTickRunStart (w : Writer) (p : PartId) (s : State) : Out :=
  .next (s.writeTkCtrl w p F.TK_CTRL_run 1 (fun t => t.runStart p w.word))

/-- TICK_RUN_STOP (R17). -/
def execTickRunStop (w : Writer) (p : PartId) (s : State) : Out :=
  .next (s.writeTkCtrl w p F.TK_CTRL_run 0 (fun t => t.runStop p))

/-- TICK_HOLD (R27). -/
def execTickHold (w : Writer) (p : PartId) (s : State) : Out :=
  .next (s.writeTkCtrl w p F.TK_CTRL_hold 1 (fun t => t.holdOn p))

/-- TICK_HOLD_RELEASE (R18, R27). -/
def execTickHoldRelease (w : Writer) (p : PartId) (s : State) : Out :=
  .next (s.writeTkCtrl w p F.TK_CTRL_hold 0 (fun t => t.holdOff p))

/-- TK_STRIKE_WRITE: a strike in STRUCK mode, nothing in the others (R19). -/
def execTkStrikeWrite (w : Writer) (p : PartId) (s : State) : Out :=
  .next (s.asWrite w (pt p + R.TK_STRIKE.off) 1 (fun t => t.strike p))

/-- A grid point of TIMED mode: a stroke, a deferred stroke with the late flag, or a point that is skipped (R21). -/
def execTimedGridPoint (p : PartId) (s : State) : Out :=
  if s.mode p ≠ 0 ∨ s.running p = false then .next s
  else
    let s := s.waitCycle p (s.part p).gridAt
    let s := s.updPart p (fun x => { x with gridAt := x.gridAt + s.periodOf p })
    if (s.part p).gridLate then .next (s.incF (pt p) F.TK_INTAKE_STATS_skipped)
    else if s.mayStroke p ∧ s.spacedAt p ≤ (s.part p).cyc then .next (s.issueStroke p false)
    else
      let s := if !s.holdIn p && !(s.part p).frameOpen then s.noteFull p else s
      .next (s.updPart p (fun x => { x with gridLate := true }))

/-- A stroke that is due in the partition's present cycle issues before what else the cycle brings (R240). -/
def State.strokeNow (s : State) (p : PartId) : State :=
  if s.mode p = 0 ∧ s.running p ∧ (s.part p).gridAt = (s.part p).cyc ∧ (s.part p).gridLate = false ∧ s.mayStroke p ∧
      s.spacedAt p ≤ (s.part p).cyc then
    (s.updPart p (fun x => { x with gridAt := x.gridAt + s.periodOf p })).issueStroke p false
  else s.tryPending p false

/-- PENDING_STRIKE_STROKE (R19 to R21). -/
def execPendingStrikeStroke (p : PartId) (s : State) : Out := .next (s.tryPending p true)

/-- An edge at a partition in EXTERNAL mode: a stroke 12 cycles later, a latched edge, or a skipped one (R20). -/
def State.edge (s : State) (p : PartId) (at_ : Nat) : State :=
  let x := s.part p
  if x.pendEdge then s.incF (pt p) F.TK_INTAKE_STATS_skipped
  else
    let s := if !s.holdIn p && !x.frameOpen then s.noteFull p else s
    if s.mayStroke p ∧ s.spacedAt p ≤ at_ then (s.waitCycle p (at_ + 12)).issueStroke p false
    else (s.updPart p (fun y => { y with pendEdge := true })).showPending p

/-- A filtered edge of TICK_IN, `falling` its direction: counted, and seen by every partition in EXTERNAL mode that chose
its polarity, the fastest clock first (R20, 15_module_power_and_signals.md R373). -/
def execTickInEdge (falling : Bool) (s : State) : Out :=
  let n := s.f hub F.HB_TICK_IO_in_edges
  let s : State := { s.setF hub F.HB_TICK_IO_in_edges (n + 1) with tickIn := !falling }
  let sees (t : State) (p : PartId) := decide (t.mode p = 2) && t.running p &&
    decide (t.f (pt p) F.TK_MODE_ext_edge = if falling then 1 else 0)
  let order := ([4, 5, 8, 32] : List Nat).flatMap (fun k => allParts.filter (fun p => decide (s.period p = k) && sees s p))
  let due := order.map (fun p => (p, (s.part p).cyc))
  .next (due.foldl (fun t d => t.edge d.1 d.2) s)

end Sys2Proof.Machine
end

