-- ==== Sys2Proof/Machine/Inbox.lean ====
section
/-! DEFINITION. Inbox rings, landing copies, intake and injected tokens (09_host_attachment.md R236 to R245, R256). -/

namespace Sys2Proof.Machine

/-- Window offset of partition `p`'s inbox area (R234). -/
def inboxOff (p : PartId) : Nat := 0x1000000 + p.val * 0x1000000

/-- Lines of a message with `len` payload bytes (R236). -/
def msgLines (len : Nat) : Nat := 1 + (len - 40 + 63) / 64

/-- The lines of messages. -/
def linesOf (l : List InMsg) : Nat := (l.map (fun m => m.lines)).foldl (· + ·) 0

/-- The lines of the sealed and unbound messages of a ring. -/
def InRing.sealedLines (x : InRing) : Nat := linesOf x.msgs

/-- The messages of a ring that are sealed in a cycle; those behind them complete their 6 cycles (R239). -/
def InRing.sealedBy (x : InRing) (cyc : Nat) : List InMsg := x.msgs.takeWhile (fun m => decide (m.sealedAt ≤ cyc))

/-- The 64 bytes of a line. -/
def InRing.line (x : InRing) (l : Nat) : List (BitVec 8) := memRead x.cells (l * 64) 64

/-- A header line as its ring reads it: `seq`, `len`, lines. -/
def headerOf (b : List (BitVec 8)) : Nat × Nat × Nat := (leAt b 0 4, leAt b 4 2, msgLines (leAt b 4 2))

def State.ringSize (s : State) (p : PartId) (r : Nat) : Nat := 2 ^ s.f (ib p r) F.CX_IN_CFG_size_log2

/-- One message is sealed, or its header stops the ring, or nothing can be sealed yet (R239 to R241). The second part says
that a message was sealed. -/
def State.sealOne (s : State) (p : PartId) (r : Nat) : State × Bool :=
  let x := s.ring p r
  let n := s.ringSize p r
  let used := x.sealedLines
  let h := s.f (ib p r) F.CX_IN_CONS_c + used
  if n ≤ used ∨ s.f (ib p r) F.CX_IN_STAT_bad = 1 ∨ spGet 0 x.came (h % n) = 0 then (s, false)
  else
    let hd := x.line (h % n)
    let (sq, len, lines) := headerOf hd
    let want := (s.f (ib p r) F.CX_IN_SEQ_next + x.msgs.length) % 2 ^ 32
    if sq ≠ want ∨ 4072 < len ∨ s.f (ib p r) F.CX_IN_CFG_max_lines < lines ∨ n / 2 < lines then
      ((s.setF (ib p r) F.CX_IN_STAT_bad 1).ev (.part p) Ev.INBOX_HEADER [r, leAt hd 0 4, leAt hd 4 4, want], false)
    else if (List.range lines).all (fun i => decide (spGet 0 x.came ((h + i) % n) ≠ 0)) then
      let at_ := (s.part p).cyc + 6
      let ns := s.timeBase + (s.now + 6 * s.period p) / 8
      let m : InMsg := { seq := sq, len := len, lines := lines, late := x.staleSeen, arrival := ns, sealedAt := at_,
                         bytes := (List.range lines).flatMap (fun i => x.line ((h + i) % n)), copied := false }
      let s := s.setRing p r { x with msgs := x.msgs ++ [m], staleSeen := false }
      let s := (s.setF (ib p r) F.CX_IN_STAT_sealed (x.msgs.length + 1)).setF (ib p r) F.CX_IN_STAT_stale 0
      (if m.late then s.ev (.part p) Ev.INBOX_LATE ([r, sq] ++ cap64 (leAt hd 8 8) ++ cap64 ns) else s, true)
    else (s, false)

/-- Messages seal in order while they can. -/
def State.sealAll (s : State) (p : PartId) (r : Nat) : Nat → State × Bool
  | 0 => (s, false)
  | fuel + 1 =>
    let a := s.sealOne p r
    if a.2 then ((a.1.sealAll p r fuel).1, true) else (a.1, false)

/-- A sealing strikes: the strike is received 2 cycles after it (R242, 01_the_tick.md Table 3). -/
def State.sealStrike (s : State) (p : PartId) (r : Nat) : State :=
  let at_ := (s.part p).cyc + 8
  let a := s.sealAll p r (s.ringSize p r)
  if a.2 ∧ s.f (ib p r) F.CX_IN_CFG_strike = 1 ∧ s.f (pt p) F.TK_MODE_strike_inbox = 1 ∧ s.mode p = 1 then
    (a.1.waitCycle p at_).strike p
  else a.1

/-- A write to an inbox that is dropped; those that R235 and R238 drop are counted. -/
def State.inboxDrop (s : State) (ld : LdId) (p : PartId) (off cause : Nat) : State :=
  let s := if cause = 0x12 ∨ cause = 0x13 ∨ cause = 0x15 then s.incF (ib p (off / 0x40000)) F.CX_IN_STAT_dropped else s
  s.writeDrop (.part p) ld.val (inboxOff p + off) cause

/-- The message that line `d` of the unbound messages lies in, with the line's number in it. -/
def msgLine : List InMsg → Nat → Option (InMsg × Nat)
  | [], _ => none
  | m :: t, d => if d < m.lines then some (m, d) else msgLine t (d - m.lines)

/-- A line of a message that completes its 6 cycles is written again: the message seals with the later contents, unless its
header now says otherwise: then it and those behind it are no longer complete (R238, R239). -/
def InRing.rewrite (x : InRing) (d : Nat) (bytes : List (BitVec 8)) : InRing :=
  match msgLine x.msgs d with
  | none => x
  | some (m, i) =>
    let now := m.bytes.take (64 * i) ++ bytes ++ m.bytes.drop (64 * i + 64)
    if i = 0 ∧ headerOf bytes ≠ headerOf m.bytes then
      { x with msgs := x.msgs.takeWhile (fun k => decide (k ≠ m)), staleSeen := m.late }
    else { x with msgs := x.msgs.map (fun k => if k = m then { m with bytes := now } else k) }

/-- INBOX_LINE_WRITE: a host write at a byte offset of partition `p`'s inbox area (R225, R228, R234 to R242). -/
def execInboxLineWrite (ld : LdId) (p : PartId) (off : BitVec 20) (bytes : List Byte) (poison : Bool) (s : State) : Out :=
  let o := off.toNat
  let r := o / 0x40000
  let n := s.ringSize p r
  let l := o % 0x40000 / 64
  let x := s.ring p r
  if s.takesMem = false then .next s
  else if s.bound ld p = false then .next (s.inboxDrop ld p o 0x11)
  else if s.fenced p then .next (s.inboxDrop ld p o 0x14)
  else if poison then .next (s.inboxDrop ld p o 0x10)
  else if s.f (ib p r) F.CX_IN_CFG_valid = 0 ∨ n ≤ l then .next (s.inboxDrop ld p o 0x15)
  else if bytes.length ≠ 64 ∨ o % 64 ≠ 0 then .next (s.inboxDrop ld p o 0x12)
  else
    let d := (l + n - s.f (ib p r) F.CX_IN_CONS_c % n) % n
    if d < linesOf (x.sealedBy (s.part p).cyc) then .next (s.inboxDrop ld p o 0x13)
    else
    let x := x.rewrite d bytes
    let s := if spGet 0 x.came l ≠ 0 then s.incF (ib p r) F.CX_IN_STAT_rewrites else s
    let first := if spGet 0 x.came l ≠ 0 then spGet 0 x.came l else s.ns + 1
    let s := s.setRing p r { x with cells := memWrite x.cells (l * 64) bytes, came := spSet 0 x.came l first }
    .next (s.sealStrike p r)

/-- The lines of the head message that have arrived, with the device time of the earliest, and 1; an unread header leaves
every line up to `max_lines` to it (DEDUCED). -/
def State.headLines (s : State) (p : PartId) (r : Nat) : Nat × Nat :=
  let x := s.ring p r
  let n := s.ringSize p r
  let h := s.f (ib p r) F.CX_IN_CONS_c
  let lines := if spGet 0 x.came (h % n) ≠ 0 then (headerOf (x.line (h % n))).2.2 else s.f (ib p r) F.CX_IN_CFG_max_lines
  let l := ((List.range (min n lines)).map (fun i => spGet 0 x.came ((h + i) % n))).filter (fun t => decide (t ≠ 0))
  (l.length, l.foldl (fun a t => if a = 0 then t else min a t) 0)

/-- INBOX_STALE: the head message has waited its limit (R241). -/
def execInboxStale (p : PartId) (r : Fin 4) (s : State) : Out :=
  let x := s.ring p r
  let hl := s.headLines p r
  if s.f (ib p r) F.CX_IN_CFG_valid = 0 ∨ s.f (ib p r) F.CX_IN_STAT_bad = 1 ∨ !x.msgs.isEmpty ∨ x.staleSeen ∨ hl.1 = 0 then
    .next s
  else
    let us := s.f (pt p) F.CX_IN_STALE_limit_us
    let s := s.waitNs (hl.2 - 1 + 1000 * (if us = 0 then 10000 else us))
    let s := s.updPart p (fun y => { y with rings := spSet .init y.rings r { x with staleSeen := true } })
    .next ((s.setF (ib p r) F.CX_IN_STAT_stale 1).ev (.part p) Ev.INBOX_STALE
      [r, s.f (ib p r) F.CX_IN_SEQ_next, hl.1])

/-- CX_IN_CTRL.skip (R241). -/
def State.skipHead (s : State) (p : PartId) (r : Nat) : State :=
  let x := s.ring p r
  let n := s.ringSize p r
  let h := s.f (ib p r) F.CX_IN_CONS_c
  let go (s : State) (lines : Nat) : State :=
    let s := (s.setRing p r { x with msgs := x.msgs.drop 1, staleSeen := false }).passLines p r lines
    let s := s.setF (ib p r) F.CX_IN_SEQ_next ((s.f (ib p r) F.CX_IN_SEQ_next + 1) % 2 ^ 32)
    let s := (s.setF (ib p r) F.CX_IN_STAT_sealed (x.msgs.length - 1)).setF (ib p r) F.CX_IN_STAT_stale 0
    (s.ev (.part p) Ev.INBOX_SKIP [r, 1]).sealStrike p r
  match x.msgs with
  | m :: _ => go s m.lines
  | [] => if spGet 0 x.came (h % n) ≠ 0 then go s (headerOf (x.line (h % n))).2.2 else s

/-- A ring is emptied and stands at 0 (R240, R261). -/
def State.resetRing (s : State) (p : PartId) (r : Nat) : State :=
  let x := s.ring p r
  let s := s.setRing p r { x with came := [], msgs := [], staleSeen := false }
  let s := (s.setCons p r 0).setF (ib p r) F.CX_IN_SEQ_next 0
  let s := ((s.setF (ib p r) F.CX_IN_STAT_bad 0).setF (ib p r) F.CX_IN_STAT_stale 0).setF (ib p r) F.CX_IN_STAT_sealed 0
  s.ev (.part p) Ev.INBOX_SKIP [r, x.msgs.length]

/-- INBOX_SKIP. -/
def execInboxSkip (w : Writer) (p : PartId) (r : Fin 4) (s : State) : Out :=
  .next (s.asWrite w (ib p r + R.CX_IN_CTRL.off) 1 (fun t => t.skipHead p r))

/-- INBOX_RESET: a stroke of this cycle binds first (R240). -/
def execInboxReset (w : Writer) (p : PartId) (r : Fin 4) (s : State) : Out :=
  .next (s.asWrite w (ib p r + R.CX_IN_CTRL.off) 2 (fun t => (t.strokeNow p).resetRing p r))

/-! Landing (R243). -/

/-- The landing slot of a message and its leaf address. -/
def State.landSlot (s : State) (p : PartId) (r seq : Nat) : Nat × Nat :=
  let k := seq % 2 ^ s.f (ib p r) F.CX_IN_CFG_land_log2
  (k, s.f (ib p r) F.CX_IN_LAND_base * 4096 + k * (s.f (ib p r) F.CX_IN_CFG_max_lines * 64))

/-- The bytes of a landing copy: the message with the time of its sealing in `arrival`. -/
def InMsg.landed (m : InMsg) : List (BitVec 8) := m.bytes.take 16 ++ leBytes 8 m.arrival ++ m.bytes.drop 24

/-- The first message without a copy, and those before it. -/
def nextCopy : List InMsg → List InMsg → Option (InMsg × List InMsg)
  | _, [] => none
  | seen, m :: t => if m.copied then nextCopy (m :: seen) t else some (m, seen)

/-- LANDING_COPY: the next sealed message of a ring goes to its landing slot through the write buffer, once no earlier
message holds the slot (R243, R128). -/
def execLandingCopy (p : PartId) (r : Fin 4) (s : State) : Out :=
  let x := s.ring p r
  match nextCopy [] (x.bound ++ x.msgs) with
  | none => .next s
  | some (m, before) =>
    let a := s.landSlot p r m.seq
    if before.any (fun b => decide ((s.landSlot p r b.seq).1 = a.1)) then .next s
    else
      let q := quireOf p (s.f (ib p r) F.CX_IN_TGT_quire)
      let mark (l : List InMsg) := l.map (fun b => if b = m then { b with copied := true } else b)
      let s := s.setRing p r { x with bound := mark x.bound, msgs := mark x.msgs }
      .next ((s.waitCycle p m.sealedAt).holdWrite q
        { addr := a.2, bytes := m.landed, writer := unitWord 0x10 0, poison := 0, marked := false, page := none })

/-! Intake (R244, R245). -/

/-- The intake tokens of an INTAKE message. -/
def State.intakeToks (s : State) (p : PartId) (i : Intake) : List DueTok :=
  let r := i.ring
  let f (g : Fld) := s.f (ib p r) g
  i.msgs.mapIdx (fun j m =>
    { pos := f F.CX_IN_TGT_intake_lat + j, u := ⟨quireOf p (f F.CX_IN_TGT_quire), ⟨f F.CX_IN_TGT_stitcher % 64, by omega⟩⟩,
      port := f F.CX_IN_TGT_port, tag := m.seq % 4096, ctl := false,
      data := BitVec.ofNat 64 (m.seq % 2 ^ 32 + m.len % 4096 * 2 ^ 32 + (s.landSlot p r m.seq).1 * 2 ^ 44 +
        (if m.late then 2 ^ 56 else 0) + r * 2 ^ 57),
      msg := some (r, m.seq), notice := none, blocked := false })

/-- A flit fails parity: its whole message is dropped at the stop (08_cord_mesh_and_spine.md R210). -/
def State.parityDrop (s : State) (p : PartId) (stop cls opcode : Nat) : State :=
  let s := s.incF (pt p) F.SP_STAT_parity
  let s := s.charge p (.spineLink stop) Ev.SP_PARITY false
  s.ev (.part p) Ev.SP_PARITY [stop, cls, opcode]

/-- SPINE_INTAKE: a ring's INTAKE message reaches its quire; `flip` are tick bits changed on the way. It must come before
run cycle 1 (R244, R245). -/
def execSpineIntake (p : PartId) (r : Fin 4) (drop : Option Hop) (flip : BitVec 16) (s : State) : Out :=
  match (s.part p).intakes.find? (fun i => decide (i.ring = r.val) && !i.got) with
  | none => .next s
  | some i =>
    let q := quireOf p (s.f (ib p r) F.CX_IN_TGT_quire)
    match drop with
    | some h =>
      .next ((s.updPart p (fun x => { x with intakes := x.intakes.erase i })).parityDrop p (s.dropStop (seqStop p) q.val h) 1 0x02)
    | none =>
      let j := { i with got := true, tick := (BitVec.ofNat 16 i.tick ^^^ flip).toNat }
      .next (s.updPart p (fun x => { x with intakes := x.intakes.map (fun k => if k = i then j else k) }))

/-- At stroke delivery a quire checks the INTAKE of every valid ring that targets it (R245). -/
def State.checkIntakes (s : State) (q : QuireId) (tick : Nat) : State :=
  let p := partOf q
  (List.range 4).foldl (fun t r =>
    if t.f (ib p r) F.CX_IN_CFG_valid = 0 ∨ t.f (ib p r) F.CX_IN_TGT_quire ≠ localOf q then t
    else match (t.part p).intakes.find? (fun i => decide (i.ring = r) && i.got) with
      | some i =>
        if i.tick = tick % 65536 then t.updPart p (fun x => { x with dueToks := x.dueToks ++ t.intakeToks p i })
        else (t.ev (.quire q) Ev.INBOX_INTAKE_LOST [r, tick % 2 ^ 32, i.tick]).failTick p
      | none => (t.ev (.quire q) Ev.INBOX_INTAKE_LOST [r, tick % 2 ^ 32, 0]).failTick p) s

/-- The landing copy of a message is in the leaf. -/
def State.copyLanded (s : State) (p : PartId) (r seq : Nat) : Bool :=
  let q := quireOf p (s.f (ib p r) F.CX_IN_TGT_quire)
  let a := (s.landSlot p r seq).2
  let n := s.f (ib p r) F.CX_IN_CFG_max_lines * 64
  (s.ring p r).bound.all (fun m => m.seq ≠ seq || m.copied) &&
    !((s.qu q).wbuf ++ (s.qu q).wwait).any (fun w =>
      decide (a ≤ w.addr) && decide (w.addr < a + n) && decide (w.writer = unitWord 0x10 0))

/-- INTAKE_TOKEN_RELEASE: the next intake token of a ring is released at its position; a landing copy that has not landed
holds it, and the quire pauses (R244). -/
def execIntakeTokenRelease (p : PartId) (r : Fin 4) (s : State) : Out :=
  let isOf (d : DueTok) := match d.msg with
    | some (k, _) => decide (k = r.val)
    | none => false
  match (s.part p).dueToks.find? isOf with
  | none => .next s
  | some d =>
    let q := d.u.quire
    let seq := match d.msg with
      | some (_, m) => m
      | none => 0
    if (s.qu q).open_ = false then .next s
    else if s.copyLanded p r seq = false then
      .next (s.updPart p (fun x => { x with dueToks := x.dueToks.map (fun e => if e = d then { e with blocked := true } else e) }))
    else
      let s := s.updPart p (fun x => { x with dueToks := x.dueToks.erase d })
      let late := if d.blocked then s.posNow q - d.pos else 0
      let s := s.pauseTransit q q r d.pos late 0x8A
      .next (s.internalToken d.u d.port d.tag d.ctl d.data (d.pos + late))

/-- INJECTED_TOKEN_RELEASE (R256): the notice then completes with the tick counter. -/
def execInjectedTokenRelease (p : PartId) (s : State) : Out :=
  match (s.part p).dueToks.find? (fun d => d.notice.isSome && (s.qu d.u.quire).open_) with
  | none => .next s
  | some d =>
      let s := s.updPart p (fun x => { x with dueToks := x.dueToks.erase d })
      let s := s.internalToken d.u d.port d.tag d.ctl d.data d.pos
      match d.notice with
      | none => .next s
      | some (ld, bit) => match s.noticeAt (p.val + 1) bit (some ld) with
        | some n => .next (s.complete n Cs.done (s.cnt (pt p) R.TK_COUNT_LO R.TK_COUNT_HI))
        | none => .next s

end Sys2Proof.Machine
end

