-- ==== Sys2Proof/Machine/Result.lean ====
section
/-! DEFINITION. The result store and publishing (09_host_attachment.md R246 to R251, 01_the_tick.md R16). -/

namespace Sys2Proof.Machine

/-- Window offset of partition `p`'s result area (R234). -/
def resultOff (p : PartId) : Nat := 0x1100000 + p.val * 0x1000000

def State.slot (s : State) (p : PartId) (k : Nat) : SlotSt := spGet .init (s.part p).slots k
def State.setSlot (s : State) (p : PartId) (k : Nat) (x : SlotSt) : State :=
  s.updPart p (fun y => { y with slots := spSet .init y.slots k x })

/-- Payload bytes of a slot (R249). -/
def State.slotPay (s : State) (p : PartId) (k : Nat) : Nat := s.f (lb p k) F.CX_SLOT_CFG_units * 64

/-- Offset of the header and of the payload of the result that a slot forms in a tick (R249). -/
def State.slotPlaces (s : State) (p : PartId) (k tick : Nat) : Nat × Nat :=
  let base := s.f (lb p k) F.CX_SLOT_CFG_base * 4096
  let pay := s.slotPay p k
  if s.f (lb p k) F.CX_SLOT_CFG_mode = 0 then (base, base + 64 + tick % 2 * pay)
  else
    let e := base + 64 + (s.slot p k).seq % slotDepth s p k * (64 + pay)
    (e, e + 64)

/-- The device writes bytes of a result area; tracked lines are back-invalidated (R227). -/
def State.resultWrite (s : State) (p : PartId) (off : Nat) (bytes : List (BitVec 8)) : State :=
  let s := s.updPart p (fun x => { x with result := memWrite x.result off bytes })
  (List.range (if bytes.isEmpty then 0 else (off + bytes.length - 1) / 64 - off / 64 + 1)).foldl
    (fun t i => t.devWriteP p (resultOff p + (off / 64 + i) * 64)) s

/-- The control line's length and `app` with a write's bytes over them (R246). -/
def ctlWith (x : SlotSt) (off : Nat) (bytes : List (BitVec 8)) : Nat × Nat :=
  let old := leBytes 2 x.len ++ [0, 0] ++ leBytes 4 x.app
  let new := old.take off ++ bytes ++ old.drop (off + bytes.length)
  (leAt new 0 2, leAt new 4 4)

/-- The partition cycle in which a forwarded write reaches the store: 8 + 2(r + 1) cycles after it was performed, r the
quire's tile row (R247). -/
def State.forwardAt (s : State) (q : QuireId) (w : Fwd) : Nat :=
  (s.qu q).start + (s.qu q).runAt w.sentAt - 1 + 8 + 2 * (s.tileOf q / 6 + 1)

/-- The header of a slot for a tick, or for a later one, has been written. -/
def SlotSt.closed (x : SlotSt) (tick : Nat) : Bool :=
  match x.header with
  | some h => decide ((h + 2 ^ 48 - tick) % 2 ^ 48 < 2 ^ 47)
  | none => false

/-- A forwarded write in the result store: late, out of order, or stored (R247). -/
def State.landForward (s : State) (p : PartId) (w : Fwd) : State :=
  let k := w.slot
  let sl := s.slot p k
  let line := w.off / 64
  if sl.closed w.tick then
    (s.incF (lb p k) F.CX_SLOT_STAT_late).ev (.part p) Ev.SLOT_LATE_WRITE [k, w.tick % 2 ^ 32, line]
  else if sl.ctl = some w.tick then
    let s := s.setSlot p k { sl with broken := true }
    (s.incF (lb p k) F.CX_SLOT_STAT_order).ev (.part p) Ev.SLOT_WRITE_ORDER [k, w.tick % 2 ^ 32, line]
  else
    let s := if 64 < w.off + w.bytes.length then
        s.resultWrite p ((s.slotPlaces p k w.tick).2 + (w.off - 64)) (w.bytes.drop (64 - w.off))
      else s
    if w.off < 64 then
      let v := ctlWith sl w.off (w.bytes.take (64 - w.off))
      s.setSlot p k { sl with ctl := some w.tick, len := v.1, app := v.2 }
    else s

/-- The writes of a quire that reach the store by a cycle are stored, in their order. -/
def State.landForwards (s : State) (q : QuireId) (cyc : Nat) : State :=
  let l := (s.qu q).forwards.takeWhile (fun w => decide (s.forwardAt q w ≤ cyc))
  let t := s.updQu q (fun x => { x with forwards := x.forwards.drop l.length })
  l.foldl (fun u w => u.landForward (partOf q) w) t

/-- A result header line (Table 7). -/
def resultHeader (seq tick status : Nat) (late buf : Bool) (len app stroke pub : Nat) : List (BitVec 8) :=
  leBytes 8 seq ++ leBytes 6 tick ++ leBytes 1 status ++ leBytes 1 ((if late then 1 else 0) + (if buf then 2 else 0)) ++
  leBytes 2 len ++ [0, 0] ++ leBytes 4 app ++ leBytes 8 stroke ++ leBytes 8 pub ++ List.replicate 24 0

/-- One header of the open tick is written; it carries failed status if the tick had failed by its cycle (R248,
10_collation_and_checking.md, Table 8). -/
def State.publishSlot (r : State) (p : PartId) (g : PubHeader) : State :=
  let x := r.part p
  let k := g.slot
  let tick := r.cnt (pt p) R.TK_COUNT_LO R.TK_COUNT_HI
  let sl := r.slot p k
  let whole := decide (sl.ctl = some tick) && !sl.broken && decide (sl.len ≤ r.slotPay p k)
  let status := if x.failed && decide (x.failAt ≤ g.cyc) then 1 else if whole then 0 else 2
  let plain := decide (r.f (lb p k) F.CX_SLOT_CFG_mode = 0)
  let h := resultHeader (sl.seq + 1) tick status x.late (plain && decide (tick % 2 = 1)) sl.len sl.app x.strokeNs g.ns
  let r := r.resultWrite p (r.slotPlaces p k tick).1 h
  let r := r.setSlot p k { sl with seq := sl.seq + 1, header := some tick, ctl := none, broken := false }
  let r := if status = 2 then
      (r.incF (lb p k) F.CX_SLOT_STAT_incomplete).ev (.part p) Ev.SLOT_INCOMPLETE [k, tick % 2 ^ 32, sl.len]
    else r
  if r.f (lb p k) F.CX_SLOT_CFG_irq = 1 then
    match r.ldOf p with
    | some l => r.msi l.val (r.f (lb p k) F.CX_SLOT_CFG_vector)
    | none => r
  else r

/-- The headers of a partition whose cycle has come are written, each after the forwarded writes that reach the store by
its cycle (R247, R248). -/
def State.settlePubs (s : State) (p : PartId) : State :=
  let due := (s.part p).pubs.takeWhile (fun g => decide (g.cyc ≤ (s.part p).cyc))
  let s := s.updPart p (fun x => { x with pubs := x.pubs.drop due.length })
  due.foldl (fun t g => (((t.quiresOf p).foldl (fun u q => u.landForwards q g.cyc) t).publishSlot p g)) s

/-- The headers of every partition whose cycle has come. -/
def State.settleAllPubs (s : State) : State := allParts.foldl (fun t p => t.settlePubs p) s

/-- Publish begins: the headers in ascending slot order, 2 cycles apart, the first `first` cycles from now (R16, R248). -/
def State.publish (s : State) (p : PartId) (first : Nat) : State :=
  let x := s.part p
  if x.published then s
  else
    let pubs := (s.validSlots p).zipIdx.map (fun e =>
      let d := first + 2 * e.2
      ({ slot := e.1, cyc := x.cyc + d, ns := s.timeBase + (s.now + d * s.period p) / 8 } : PubHeader))
    let close := max (x.strokeAt + s.frameLen p)
      (if x.overran then x.cyc + s.f (pt p) F.TK_FRAME_publish_len + 256 else 0)
    let s := s.updPart p (fun y => { y with published := true, doneAt := y.cyc, closeAt := some close, pubs := pubs })
    (s.setF (pt p) F.TK_STATUS_phase 3).settlePubs p

/-- Every token that the tick waits for has arrived: publish begins, 2 cycles after the last (Table 1). -/
def State.publishIfDone (s : State) (p : PartId) : State :=
  let x := s.part p
  if x.frameOpen && !x.published && (List.range 8).all (fun i =>
      decide (x.waitMask / 2 ^ i % 2 = 0) || decide (x.doneMask / 2 ^ i % 2 = 1)) then s.publish p 2
  else s

/-- FORWARDED_WRITE: the next write of a quire reaches the result store, after the headers that come before it (R246,
R247). -/
def execForwardedWrite (q : QuireId) (s : State) : Out :=
  match (s.qu q).forwards with
  | [] => .next s
  | w :: rest =>
    let p := partOf q
    let c := s.forwardAt q w
    let t := (s.waitCycle p (c - 1)).settlePubs p
    let l := (t.qu q).forwards
    if l.length ≤ rest.length then .next t
    else .next (((t.setQu q { t.qu q with forwards := l.drop 1 }).waitCycle p c).landForward p w)

/-- RESULT_ACK_WRITE: a host write of the acknowledge line of a ring slot (R235, R251, R286). -/
def execResultAckWrite (ld : LdId) (p : PartId) (k : Fin 32) (v : DWord) (s : State) : Out :=
  let base := s.f (lb p k) F.CX_SLOT_CFG_base * 4096
  let drop (c : Nat) : Out := .next (s.writeDrop (.part p) ld.val (resultOff p + base) c)
  let s := s.settlePubs p
  let sl := s.slot p k
  if s.takesMem = false then .next s
  else if s.bound ld p = false then drop 0x11
  else if s.fenced p then drop 0x14
  else if s.f (lb p k) F.CX_SLOT_CFG_valid = 0 ∨ s.f (lb p k) F.CX_SLOT_CFG_mode = 0 then drop 0x15
  else if sl.seq < v.toNat ∨ v.toNat < sl.ack then .next (s.ev (.part p) Ev.SLOT_ACK_BAD ([k.val] ++ cap64 v.toNat))
  else
    let s := s.setSlot p k { sl with ack := v.toNat }
    let s := s.updPart p (fun x => { x with result := memWrite x.result base (leBytes 8 v.toNat) })
    .next (if (s.fullSlot p).isNone then s.updPart p (fun x => { x with ringFull := false }) else s)

end Sys2Proof.Machine
end

