-- ==== Sys2Proof/Machine/Tick.lean ====
section
/-! DEFINITION. The tick from stroke delivery to the close of its frame: deliveries, tick-done tokens, deadlines, the
watchdogs, quire resets (01_the_tick.md R15 to R31, 04_stitchers.md R96, 06_channels.md R160,
08_cord_mesh_and_spine.md R211, R215, 11_fences_resets_recovery.md R287). -/

namespace Sys2Proof.Machine

/-! Stroke delivery (R211, R215, R245, 04_stitchers.md R96). -/

/-- A new tick's positions start at 1: what the last tick left behind in positions of its own is settled (the model's own
bookkeeping, 06_channels.md "Release by schedule position"). -/
def Stitcher.newTick (x : Stitcher) : Stitcher :=
  { x with nextAt := 1, score := [], unitAt := 0, doneAt := 0, acceptedAt := 0, portFreed := [], stopped := false,
           store := x.store.map (fun w => { w with at_ := 0 }),
           queues := x.queues.map (fun q => (q.1, q.2.map (fun w => { w with at_ := 0 }))) }

def Press.newTick (x : Press) : Press :=
  { x with slots := [], lastRead := 0, lastWrite := 0, lastSend := 0, frozeAt := 0, floor := 0 }

/-- A quire at stroke delivery: everything the tick counts starts at zero, and the slip due to a re-centring of the
kettles, 6 cycles each, or to a map switch, `tip` cycles, is charged at run cycle 1 (01_the_tick.md Table 6). -/
def Quire.newTick (x : Quire) (start tick tip : Nat) (behind check : Bool) : Quire :=
  { x with open_ := true, done := false, overrun := false, deadline := none, start := start, tick := tick,
           doneAt := 0, slip := 6 * x.seamDue + (if x.tipinDue = 0 then 0 else tip), corrections := 0, seam := x.seamDue, tipin := x.tipinDue,
           seamDue := 0, tipinDue := 0, inherited := 0, inheritPauses := 0, inheritAt := [], orphans := 0, firstOrphan := none, orphanNoted := false,
           latePage := 0, latePages := 0, creditStall := 0, powerCap := 0, refusedStall := 0, transit := 0, transitUnits := 0, lastEnd := 0, discarding := false,
           portBusy := [], bankBusy := [], fixAt := [], pa := x.pa.newTick, pb := x.pb.newTick, voteEnd := 0, behind := behind,
           forwards := x.forwards.map (fun w => { w with sentAt := 0 }), checkOn := check, windowClose := 0, releases := [], behindFail := none, creditAt := [], freedAt := [],
           ops := x.ops.map (fun o => { o with at_ := 0, doneAt := 0 }), duePause := none, flushBy := none }

/-- A mask without a bit. -/
def dropBit (m i : Nat) : Nat := if m / 2 ^ i % 2 = 1 then m - 2 ^ i else m

/-- A mask with a bit. -/
def setBit (m i : Nat) : Nat := if m / 2 ^ i % 2 = 1 then m else m + 2 ^ i

/-- What is still in flight when a tick starts counts in the new tick's cycles. -/
def rebase (oldStart start arrive : Nat) : Nat := max 1 (oldStart + arrive - start)

def Flight.rebased (m : Flight) (q : QuireId) (old start : Nat) : Flight :=
  let a := rebase old start m.arrive
  let m := if m.src = q then { m with sentAt := 0, arrive := if m.span then a else m.arrive } else m
  if m.dst = q ∧ m.span = false then { m with relPos := a, arrive := a } else m

/-- A span's credit counts in the cycles of the quire that freed it, any other in its sender's. -/
def CreditFlight.rebased (c : CreditFlight) (q : QuireId) (old start : Nat) : CreditFlight :=
  let a := rebase old start c.arrive
  if partOf c.src ≠ partOf c.from_ then (if c.from_ = q then { c with arrive := a } else c)
  else if c.src = q then { c with usePos := a, arrive := a } else c

/-- SPINE_STROKE: the STROKE message of the open tick reaches a quire, 14 cycles after its issue; one that fails parity is
dropped at a stop on its way, and with it every branch of the broadcast that the stop would have fed (R211, R210). -/
def execSpineStroke (q : QuireId) (drop : Option Hop) (s : State) : Out :=
  let p := partOf q
  let x := s.part p
  let bit := 2 ^ localOf q
  if x.frameOpen = false ∨ x.strokeMask / bit % 2 = 1 ∨ s.present q = false then .next s
  else
    let s := s.waitCycle p (x.strokeAt + 14)
    match drop with
    | some h =>
      let d := s.dropStop (seqStop p) q.val h
      let lost := (q :: s.fedQuires (seqStop p) p d).foldl (fun m r => setBit m (localOf r)) x.strokeMask
      .next ((s.updPart p (fun y => { y with strokeMask := lost })).parityDrop p d 1 0x01)
    | none =>
      let s := s.updPart p (fun y => { y with strokeMask := y.strokeMask + bit })
      let s := s.setF (pt p) F.TK_STATUS_phase 2
      let counter := s.cnt (pt p) R.TK_COUNT_LO R.TK_COUNT_HI
      let copy := (s.qu q).tick
      let low := counter % 2 ^ 32
      let high := copy / 2 ^ 32 + (if low = 0 then 1 else 0)
      let tick := (low + high * 2 ^ 32) % 2 ^ 48
      let want := (copy + 1) % 2 ^ 48
      let s := if tick = want then s
        else s.ev (.quire q) Ev.SP_STROKE_GAP [want % 2 ^ 32, tick % 2 ^ 32]
      if (s.qu q).inReset then .next (s.updQu q (fun y => { y with tick := tick }))
      else
        let old := (s.qu q).start
        let start := (s.part p).cyc
        let behind := decide (s.f (qb q) F.PS_MODE_behind = 1)
        let check := decide (s.f (qb q) F.PS_MODE_check = 1)
        -- the slip of a map switch is at most 8 cycles: a free value
        let tip := (Config.freeBits s.freeCount 0 4).toNat % 9
        let s := if (s.qu q).tipinDue = 0 then s else s.useFree
        let s := s.updQu q (fun y => y.newTick start tick tip behind check)
        let s := (List.finRange 64).foldl (fun t i => t.updSt ⟨q, i⟩ Stitcher.newTick) s
        let s : State := { s with flights := s.flights.map (fun m => m.rebased q old start),
                                  creditFlights := s.creditFlights.map (fun c => c.rebased q old start) }
        let s := s.updPart p (fun y => { y with hints := y.hints.map (fun h =>
          if h.owner = q then { h with sentAt := 0 } else h) })
        let s := (List.finRange 64).foldl (fun t i =>
          let u : StId := ⟨q, i⟩
          if t.f (sb u) F.ST_STATUS_sealed = 1 ∧ t.portValid u 31 then
            t.internalToken u 31 (tick % 4096) true (BitVec.ofNat 64 tick) 1
          else t) s
        .next (s.checkIntakes q tick)

/-! Tick-done tokens (R16, R208). -/

/-- SPINE_TICKDONE: a quire's tick-done token reaches the sequencer; after the last, publish begins (R16, R248). One that fails
parity is dropped at a stop on its way, with those of the same cycle that the spine has combined with it up to there (R208,
R210). -/
def execSpineTickdone (q : QuireId) (drop : Option Hop) (s : State) : Out :=
  let p := partOf q
  let x := s.qu q
  let bit := 2 ^ localOf q
  if (s.part p).frameOpen = false ∨ x.done = false ∨ x.doneAt = 0 then .next s
  else
    let s := s.waitCycle p x.doneAt
    match drop with
    | some h =>
      let d := s.dropStop (s.tileOf q) (32 + p.val) h
      let with_ (r : QuireId) : Bool := decide ((s.qu r).doneAt = x.doneAt) && (s.qu r).done &&
        feeds (s.tileOf r) d (seqStop p)
      let s := ((s.quiresOf p).filter with_).foldl (fun t r => t.updQu r (fun y => { y with doneAt := 0 })) s
      .next ((s.updQu q (fun y => { y with doneAt := 0 })).parityDrop p d 1 0x03)
    | none =>
    let s := s.updQu q (fun y => { y with doneAt := 0 })
    if (s.part p).doneMask / bit % 2 = 1 then .next s
    else
      let s := s.updPart p (fun y => { y with doneMask := y.doneMask + bit })
      let s := s.setF (pt p) F.TK_STATUS_quires_done (s.f (pt p) F.TK_STATUS_quires_done + 1)
      .next (s.publishIfDone p)

/-! Quire reset (11_fences_resets_recovery.md R284, R287). -/

/-- Every press register of a quire returns to its reset value (03_presses.md R85). -/
def State.clearPressRegs (s : State) (q : QuireId) : State :=
  s.clearRegs (qb q + R.PS_FMT_ERR_PA.off) (qb q + R.PS_STATUS_PA.off + 0x100)

/-- A quire reset starts: every stitcher resets, the presses and their registers clear, the leaf operation queue is
abandoned, hint entries not started are cancelled; its tick fails and strokes are held until it ends. -/
def State.startQuireReset (s : State) (q : QuireId) (cause : Nat) : State :=
  let p := partOf q
  if s.partResets p then s
  else
    let pos := s.posNow q
    let s := (List.finRange 64).foldl (fun t i => t.resetStitcher ⟨q, i⟩ pos) s
    let s := (s.abandonPresses q).clearPressRegs q
    let s := s.failTick p
    let s := s.cancelHints p (fun h => decide (h.owner = q)) (2 ^ localOf q)
    let s := s.updQu q (fun x => { x with ops := [], open_ := false, inReset := true, cycling := false, resetFrom := s.ns,
                                          resetCause := cause, resetEnd := s.ns + 20000, flushBy := none })
    let s := ((s.setF (qb q) F.RS_QUIRE_in_reset 1).incF (qb q) F.RS_QUIRE_resets).logReset 2 (s.tileOf q)
    let s := s.addHold p .quireReset
    let s := s.updPart p (fun x => { x with waitMask := dropBit x.waitMask (localOf q) })
    s.publishIfDone p

/-! Deadlines (R24, R31). -/

/-- The run cycle by which a quire must be done (R24, 06_channels.md R160). -/
def State.deadlineOf (s : State) (q : QuireId) : Nat :=
  ((s.qu q).deadline).getD (s.f (pt (partOf q)) F.TK_BUDGET_run_budget)

/-- The stitcher at a channel's landing: a ring's is the reader that CH_RING_CFG names (06_channels.md R148, R160). -/
def State.entryStitcher (s : State) (q : QuireId) (e : Nat) : StId :=
  let d := s.entryQuire q e
  let n := if s.f (eb q e) F.CH_ROUTE_A_landing = 2 then
      s.f (rb_ d (s.f (eb q e) F.CH_ROUTE_A_target % 16)) F.CH_RING_CFG_reader
    else s.f (eb q e) F.CH_ROUTE_A_stitcher
  ⟨d, ⟨n % 64, by omega⟩⟩

/-- The channel a stitcher is itself stalled on; 0xFFFFFFFF stands for none (DESIGN CHOICE). -/
def State.stalledOn (s : State) (u : StId) : Nat :=
  match (s.st u).stall with
  | some st => match st.ch with
    | some e => e
    | none => 2 ^ 32 - 1
  | none => 2 ^ 32 - 1

/-- The record of a stalled send (06_channels.md R160). -/
def State.sendStall (s : State) (u : StId) (e cycles : Nat) : State :=
  let q := u.quire
  let dst := s.entryStitcher q e
  s.ev (.quire q) Ev.SEND_STALL [u.st.val, e, unitWord 9 dst.quire.val, s.f (eb q e) F.CH_ROUTE_D_held,
    s.f (eb q e) F.CH_ROUTE_C_grant, s.stalledOn dst, cycles]

/-- The send stalls of a quire at a position are recorded, but for one whose watchdog has fired in the same cycle. -/
def State.recordStalls (s : State) (q : QuireId) (pos : Nat) (fired : Option StId) : State :=
  (List.finRange 64).foldl (fun t i =>
    match (t.st ⟨q, i⟩).stall with
    | some st => match st.ch with
      | some e => if fired = some ⟨q, i⟩ then t else t.sendStall ⟨q, i⟩ e (pos - st.since)
      | none => t
    | none => t) s

/-- The cycles of sends that are stalled at a position go to the ledger. -/
def State.chargeStalls (s : State) (q : QuireId) (pos : Nat) : State :=
  (List.finRange 64).foldl (fun t i =>
    match (t.st ⟨q, i⟩).stall with
    | some st => if st.ch.isSome then
        (t.chargeStall ⟨q, i⟩ (some st) pos).updSt ⟨q, i⟩ (fun x => { x with stall := some { st with from_ := max st.from_ pos } })
      else t
    | none => t) s

/-- A quire that a stroke did not reach has used nothing of the tick. -/
def Quire.unused (x : Quire) : Quire :=
  { x with slip := 0, corrections := 0, seam := 0, tipin := 0, inherited := 0, inheritPauses := 0, latePage := 0,
           latePages := 0, creditStall := 0, powerCap := 0, refusedStall := 0, transit := 0, transitUnits := 0 }

/-- The FAIL flush of a quire that overran a tick (R24): stitcher resets, presses abandoned, the ledger at the
deadline. -/
def State.failFlush (s : State) (q : QuireId) (tick deadline : Nat) : State :=
  let p := partOf q
  let pos := s.posNow q
  let s := (s.failTick p).chargeStalls q pos
  let s := s.updQu q (fun x => { x with open_ := false, flushBy := some ((s.part p).cyc + 256) })
  let s := (List.finRange 64).foldl (fun t i => t.resetStitcher ⟨q, i⟩ pos) s
  let s := s.chargePause q deadline
  let s := (s.writeLedger q tick deadline true false).writeInherit q
  let s := if s.f (qb q) F.TK_LG_ALLOW_allowance < (s.qu q).slip then s.ev (.quire q) Ev.SLIP_EXCEEDED [] else s
  let s := (s.abandonPresses q).recordOrphans q
  let s := s.dropDue q
  let s := s.updQu q (fun x => { x with done := true, doneAt := 0, discarding := false })
  s.publish p 0

/-- A quire overruns its tick (R24, R211); `fired` is a stitcher whose send-stall watchdog has moved the deadline here. -/
def State.overrunQuire (s : State) (q : QuireId) (fired : Option StId) : State :=
  let p := partOf q
  let x := s.part p
  let fail := decide (s.f (pt p) F.TK_CTRL_policy = 0)
  let d := s.deadlineOf q
  let s := if x.overran then s
    else (s.updPart p (fun y => { y with overran := true })).setCnt (pt p) R.TK_OVERRUNS_LO R.TK_OVERRUNS_HI
      (s.cnt (pt p) R.TK_OVERRUNS_LO R.TK_OVERRUNS_HI + 1)
  let s := s.updPart p (fun y => { y with overMask := setBit y.overMask (localOf q) })
  let s := s.updQu q (fun y => { y with overrunNs := s.ns })
  let s := s.raise (.quire q) Ev.TICK_OVERRUN (if fail || !(s.qu q).open_ then 2 else evSev Ev.TICK_OVERRUN) []
  if (s.qu q).open_ = false then
    -- no stroke was delivered, or the tick-done token was lost: the tick fails at its deadline; a quire that the stroke
    -- did not reach is flushed under FAIL
    let tick := s.cnt (pt p) R.TK_COUNT_LO R.TK_COUNT_HI
    let s := s.failTick p
    let s := s.updPart p (fun y => { y with waitMask := dropBit y.waitMask (localOf q) })
    if fail then
      (if (s.qu q).tick = tick then s else ((s.updQu q Quire.unused).failFlush q tick d)).publish p 0
    else s.publishIfDone p
  else
    let s := (s.updQu q (fun y => { y with overrun := true })).recordStalls q (s.posNow q) fired
    if fail then s.failFlush q (s.qu q).tick d
    else s.updPart p (fun y => { y with lateNext := true })

/-- Ends the firing and the quire's tick in the first cycle in which no other stitcher fires and neither press holds a
command; a second one in the same tick is ignored and counted (R108, R15). One that comes after the deadline finds the quire
overrun (R24). -/
def execTickdone (u : StId) (s : State) : Out :=
  let q := u.quire
  let x := s.qu q
  s.issue u (.tickdone u)
    { srcs := [], notBefore := max (max (s.st u).doneAt (x.lastEnd + 1))
        (max (if spGet 0 x.freedAt 1 = 0 then 0 else spGet 0 x.freedAt 1 + 1)
             (if spGet 0 x.freedAt 2 = 0 then 0 else spGet 0 x.freedAt 2 + 1)),
      wait := if s.quireQuiet u then none else some (1, none) }
    (fun s t _ =>
      let s := s.endFiring u t
      if x.done then s.contractMismatch q
      else if s.deadlineOf q < x.runAt t ∧ x.overrun = false then
        -- the deadline has passed before it: the quire overruns, and under FAIL it is flushed and never executes it
        let s := (s.waitCycle (partOf q) ((s.part (partOf q)).strokeAt + 14 + s.deadlineOf q)).overrunQuire q none
        if (s.qu q).open_ then s.endQuireTick q t else s
      else s.endQuireTick q t)

/-- RUN_DEADLINE: the deadline cycle of a quire ends without its tick-done token (R24, R211). -/
def execRunDeadline (q : QuireId) (s : State) : Out :=
  let p := partOf q
  let x := s.part p
  let d := s.deadlineOf q
  let bit := 2 ^ localOf q
  if x.frameOpen = false ∨ x.waitMask / bit % 2 = 0 ∨ x.doneMask / bit % 2 = 1 ∨ x.overMask / bit % 2 = 1 ∨
      (s.qu q).doneAt ≠ 0 then .next s
  else
    let s := s.waitCycle p (x.strokeAt + 14 + d)
    .next (s.overrunQuire q none)

/-- HANG_WATCHDOG (R25): under STRETCH 1 µs after the deadline; under FAIL when the resets of the flush are not all done
within its 256 cycles. -/
def execHangWatchdog (q : QuireId) (s : State) : Out :=
  let p := partOf q
  let x := s.qu q
  if s.f (pt p) F.TK_CTRL_policy = 1 then
    if !(x.open_ && x.overrun) then .next s
    else
      let s := s.waitNs (x.overrunNs + 1000)
      let s := ((s.failTick p).ev (.quire q) Ev.TICK_HANG []).updQu q (fun y => { y with overrun := false })
      .next (s.startQuireReset q 0xC0)
  else
    match x.flushBy with
    | none => .next s
    | some t =>
      if (List.finRange 64).any (fun i => (s.st ⟨q, i⟩).inReset) = false then .next s
      else
        let s := s.waitCycle p t
        let s := (s.failTick p).ev (.quire q) Ev.TICK_HANG []
        .next (s.startQuireReset q 0xC1)

/-- SEND_STALL_WATCHDOG: a blocking send has stalled for CH_WDOG.threshold cycles (06_channels.md R160): recorded, and where
the deadline has not been reached, the quire's deadline is this cycle. -/
def execSendStallWatchdog (u : StId) (s : State) : Out :=
  let q := u.quire
  let p := partOf q
  let th := s.f (pt p) F.CH_WDOG_threshold
  let th := if th = 0 then s.f (pt p) F.TK_BUDGET_run_budget else th
  match (s.st u).stall with
  | none => .next s
  | some st => match st.ch with
    | none => .next s
    | some e =>
      if (s.qu q).open_ = false ∨ st.fired then .next s
      else
        let run := (s.qu q).runAt (st.since + th)
        let s := (s.waitCycle p ((s.qu q).start + run - 1)).updSt u (fun x => { x with stall := some { st with fired := true } })
        if (s.qu q).overrun ∨ s.deadlineOf q ≤ run then .next (s.sendStall u e th)
        else
          let s := s.sendStall u e th
          let s := s.updQu q (fun x => { x with deadline := some run })
          .next (s.overrunQuire q (some u))

/-! The close of a frame (R16, R26, R27). -/

/-- A notice whose token was bound to the tick and has not been released completes as aborted (R256). -/
def State.endInjected (s : State) (p : PartId) : State :=
  ((s.part p).dueToks.filterMap (fun d => d.notice)).foldl (fun t n => match t.noticeAt (p.val + 1) n.2 (some n.1) with
    | some m => t.complete m Cs.aborted 0
    | none => t) s

/-- FRAME_CLOSE: the frame of the open tick closes: status, holds and a stop take effect (R16, R17, R27). -/
def execFrameClose (p : PartId) (s : State) : Out :=
  match (s.part p).closeAt with
  | none => .next s
  | some t =>
    if (s.part p).frameOpen = false then .next s
    else
      let s := (s.waitCycle p t).settlePubs p
      let x := s.part p
      let s := (s.setF (pt p) F.TK_STATUS_last_failed (if x.failed then 1 else 0)).setF (pt p) F.TK_STATUS_last_late
        (if x.late then 1 else 0)
      let s := (s.setF (pt p) F.TK_STATUS_phase 0).endInjected p
      let s := s.updPart p (fun y =>
        { y with frameOpen := false, closeAt := none, dueToks := [], pubs := [],
                 rings := y.rings.map (fun r => (r.1, { r.2 with bound := r.2.bound.filter (fun m => !m.copied) })) })
      let s := if x.stopping then
          (s.updPart p (fun y => { y with stopping := false })).setF (pt p) F.TK_STATUS_running 0
        else s
      .next (s.showHeld p)

end Sys2Proof.Machine
end

