-- ==== Sys2Proof/Machine/Recorder.lean ====
section
/-! DEFINITION. The event recorder's core and the colophon: rings, directories, staging, the trigger table, colophon copies
(14_event_recorder_and_colophon.md R341 to R360). -/

namespace Sys2Proof.Machine

/-! Rings (R350, Tables 3 and 4). -/

/-- The source with a number: hub 0, steward 1, partition n at 2 + n, quire q at 6 + q. -/
def srcOf (x : Fin 38) : Src :=
  if x.val = 0 then .hub
  else if x.val = 1 then .steward
  else if x.val < 6 then .part ⟨(x.val - 2) % 4, by omega⟩
  else .quire ⟨(x.val - 6) % 32, by omega⟩

/-- The partition whose memory holds a source's ring: its own, or the lowest-numbered enabled one. -/
def State.ringHome (s : State) (x : Src) : Option PartId :=
  match x.part? with
  | some p => some p
  | none => allParts.find? (fun p => s.enabled p)

/-- The PMA of the area that holds a source's ring. -/
def areaOf (x : Src) : Nat := match x.part? with
  | some _ => 0x3BF0000000
  | none => 0x3BFA000000

/-- The offset of a source's ring in its area, its slots, and its directory entry (Table 3). -/
def ringPlace : Src → Nat × Nat × Nat
  | .hub => (0x400000, 131072, 0)
  | .steward => (0xC00000, 65536, 1)
  | .part _ => (0x400000, 65536, 0)
  | .quire q => (0x800000 + localOf q * 0x100000, 16384, 1 + localOf q)

/-- The window offset of the mirror of a source's area (09_host_attachment.md, Table 3). -/
def mirrorOff (x : Src) : Nat := match x.part? with
  | some p => 0x10000000 + p.val * 0x1000000
  | none => 0x14000000

/-- Ring memory answers: its partition is enabled, awake, and not in training (R351). -/
def State.ringReady (s : State) (x : Src) : Bool :=
  match s.ringHome x with
  | some p => s.enabled p && !(s.part p).memAsleep && decide (s.f hub (halfFld (halfOf p)) = 0)
  | none => false

/-- The source field of a directory entry: `tile` 0 (Table 4). -/
def srcField : Src → Nat
  | .hub => 0
  | .steward => 3 * 2 ^ 12
  | .part p => 2 ^ 12 + p.val * 2 ^ 9
  | .quire q => 2 * 2 ^ 12 + (partOf q).val * 2 ^ 9 + localOf q * 2 ^ 6

/-- A directory entry (Table 4). -/
def State.dirEntry (s : State) (x : Src) : List (BitVec 8) :=
  let r := s.src x
  let (off, size, _) := ringPlace x
  leBytes 8 r.head ++ leBytes 4 size ++ leBytes 4 off ++ leBytes 2 (srcField x) ++ [0, 0] ++ leBytes 4 r.lost ++
    leBytes 8 r.seq ++ List.replicate 32 0

/-- A line of the directory of a source's area, which the hub serves from its own copy at all times (R352). -/
def State.dirLine (s : State) (x : Src) (line : Nat) : List (BitVec 8) :=
  let sources : List Src := match x.part? with
    | some p => .part p :: (List.range 8).map (fun i => .quire (quireOf p i))
    | none => [.hub, .steward]
  match sources[line]? with
  | some y => s.dirEntry y
  | none => List.replicate 64 0

/-- The bytes of a record with its sequence (Table 1). -/
def EvRec.bytes (e : EvRec) (seq : Nat) : List (BitVec 8) :=
  let b := leBytes 4 seq ++ leBytes 2 e.code ++ leBytes 2 e.source ++ leBytes 8 e.time ++
    leBytes 4 (e.rep % 65536 + e.sev % 4 * 2 ^ 16 + (if e.gap then 2 ^ 18 else 0) + (if e.staged then 2 ^ 19 else 0) +
      e.words % 16 * 2 ^ 20) ++
    ((List.range 10).flatMap (fun i => leBytes 4 (e.snap.getD i 0)))
  b ++ leBytes 4 (crc32c b).toNat

/-- The device writes an area's bytes: tracked lines of its mirror are back-invalidated (R352). -/
def State.areaWrite (s : State) (x : Src) (off : Nat) (bytes : List (BitVec 8)) : State :=
  match s.ringHome x with
  | none => s
  | some p =>
    let s := ((s.pmWrite p (areaOf x + off) bytes).1).devWriteMem p (areaOf x + off) bytes.length
    match x.part? with
    | some p => s.devWriteP p (mirrorOff x + off)
    | none => s.devWrite s.owner.val (mirrorOff x + off)

/-- The PMA of slot `i` of a source's ring. -/
def slotPma (x : Src) (i : Nat) : Nat := areaOf x + (ringPlace x).1 + 64 * (i % (ringPlace x).2.1)

/-- Vector 0 for a new record of error severity or above whose source is one of an LD's partitions (09 R259). -/
def State.vector0 (s : State) (x : Src) : State :=
  match x.part? with
  | some p => match s.ldOf p with
    | some l => s.msi l.val 0
    | none => s
  | none => s

def State.showCol (s : State) : State := s.setF hub F.EV_COL_pending (min 65535 s.stew.colPend.length)

/-- A record awaits its colophon copy (R356). -/
def State.pendCopy (s : State) (x : Src) (i : Nat) : State :=
  if s.stew.colPend.contains (x.key, i) then s
  else ({ s with stew := { s.stew with colPend := s.stew.colPend ++ [(x.key, i)] } }).showCol

/-- The recorder core writes a record of a source into its ring, new or a flood update of the last one, in its next slot of
8 ns (R343, R344, R346). -/
def State.writeRecord (s : State) (x : Src) (e : EvRec) : State :=
  let s := s.waitNs s.recNext
  let s : State := { s with recNext := s.ns + 8 }
  let r := s.src x
  let i := if e.update then r.head - 1 else r.head
  let (off, size, entry) := ringPlace x
  let seq := (r.seq + 2) % 2 ^ 32
  let s := s.setSrc x { r with seq := seq, head := if e.update then r.head else r.head + 1 }
  let s := s.areaWrite x (off + 64 * (i % size)) (e.bytes seq)
  let s := s.areaWrite x (64 * entry) (s.dirEntry x)
  let s := if e.update then
      (match x.part? with
        | some p => s.incF (pt p) F.EV_PSTAT_floods
        | none => s)
    else if 2 ≤ e.sev then s.vector0 x else s
  if 2 ≤ e.sev then s.pendCopy x i else s

/-! Staging (R351). -/

def State.showStage (s : State) : State := s.setF hub F.EV_STAGE_staged s.staging.length

/-- A record lost from the staging buffer. -/
def State.stageLost (s : State) (x : Src) : State :=
  let s := (s.updSrc x (fun r => { r with lost := min (2 ^ 32 - 1) (r.lost + 1) })).incF hub F.EV_STAGE_dropped
  let n := s.stageLostN + 1
  let due := match s.stageLostAt with
    | some t => decide (t + 1000000 ≤ s.ns)
    | none => true
  if due then
    ({ s with stageLostAt := some s.ns, stageLostN := 0 }).ev .hub Ev.REC_LOST [s.srcWord x, n, 0x61]
  else { s with stageLostN := n }

/-- Removes the oldest staged record below error severity; its source. -/
def dropLow : List (Nat × EvRec) → Option (Nat × List (Nat × EvRec))
  | [] => none
  | a :: t => if a.2.sev < 2 then some (a.1, t) else match dropLow t with
    | some (k, r) => some (k, a :: r)
    | none => none

/-- The last staged record of a source takes a flood update, if it is there. -/
def foldStaged (k : Nat) (e : EvRec) (l : List (Nat × EvRec)) : Option (List (Nat × EvRec)) :=
  match l.reverse.findIdx? (fun a => decide (a.1 = k)) with
  | none => none
  | some i => some ((l.reverse.mapIdx (fun j a => if j = i then (a.1, { a.2 with rep := e.rep, time := e.time }) else a)).reverse)

/-- A record for ring memory that does not answer goes to the staging buffer. -/
def State.stage (s : State) (x : Src) (e : EvRec) : State :=
  let put (s : State) : State := ({ s with staging := s.staging ++ [(x.key, { e with staged := true })] }).showStage
  match (if e.update then foldStaged x.key e s.staging else none) with
  | some l => { s with staging := l }
  | none =>
    if s.staging.length < 4096 then put s
    else if e.sev < 2 then s.stageLost x
    else match dropLow s.staging with
      | some (k, l) => (put { s with staging := l }).stageLost (srcOf ⟨k % 38, by omega⟩)
      | none => s.stageLost x

/-! The commands. -/

/-- The stop at which a source sends (08_cord_mesh_and_spine.md R206). The hub's own stop is open: one of the six. -/
def State.stopOf (s : State) : Src → Nat
  | .hub => 36 + Config.hubStop.val
  | .steward => 39
  | .part p => seqStop p
  | .quire q => s.tileOf q

/-- A message is dropped at a stop for parity (08 R210). -/
def State.parityAt (s : State) (p : Option PartId) (stop cls opcode : Nat) : State :=
  match p with
  | some p => s.parityDrop p stop cls opcode
  | none => s.ev .hub Ev.SP_PARITY [stop, cls, opcode]

/-- A message's next sequence from a stop in a class (08 R207). -/
def State.nextSeq (s : State) (stop cls : Nat) : State × Nat :=
  let n := spGet 0 s.spNext (stop * 8 + cls)
  ({ s with spNext := spSet 0 s.spNext (stop * 8 + cls) ((n + 1) % 256) }, n)

/-- A message enters the spine and waits for its ACK (08 R207, R209). -/
def State.spSend (s : State) (m : SpMsg) : State :=
  let a := s.nextSeq m.stop m.cls
  { a.1 with spine := a.1.spine ++ [{ m with seq := a.2, sentAt := s.ns }] }

/-- An older message of the class of `m`, from its stop to its destination, is still on its way (08 R208). -/
def State.behindOlder (s : State) (m : SpMsg) : Bool :=
  (s.spine.takeWhile (fun k => decide (k ≠ m))).any (fun k => decide (k.stop = m.stop) && decide (k.cls = m.cls) &&
    decide (s.stopFor k.stop k.dest = s.stopFor m.stop m.dest) && decide (k.opcode ≠ 0x7E) && !k.got && !k.lost && !k.held)

/-- A message of an acknowledged class comes to its destination: one that a stop has dropped, that is held at a kettle, or
that is behind an older one stays where it is, and one that fails parity now is dropped at a stop on its way (08 R207 to
R210). An accepted message stays with its sender until its ACK. The second part says that it arrived. -/
def State.spArrive (s : State) (part : Option PartId) (stop dest cls opcode arg : Nat) (drop : Option Hop) : State × Bool :=
  match s.spine.find? (fun m => decide (m.opcode = opcode) && decide (m.arg = arg) && decide (m.dest = dest) && !m.got) with
  | some m =>
    let put (n : SpMsg) : State := { s with spine := s.spine.map (fun k => if k = m then n else k) }
    if m.lost ∨ m.held ∨ s.behindOlder m then (s, false)
    else (match drop with
      | some i => ((put { m with lost := true }).parityAt part (s.dropStop m.stop dest i) cls opcode, false)
      | none => (put { m with got := true }, true))
  | none =>
    let a := s.nextSeq stop cls
    let m : SpMsg := { part := part, stop := stop, dest := dest, cls := cls, opcode := opcode, seq := a.2, sentAt := s.ns,
                       again := false, arg := arg, data := 0, lost := drop.isSome, got := drop.isNone, held := false,
                       wake := false }
    let s : State := { a.1 with spine := a.1.spine ++ [m] }
    (match drop with
      | some i => (s.parityAt part (s.dropStop stop dest i) cls opcode, false)
      | none => (s, true))

/-- The staged records whose ring lies in a partition's memory are written in their order of arrival, once that memory answers
(R351). -/
def State.drainStage (s : State) (p : PartId) : State :=
  let mine (a : Nat × EvRec) : Bool :=
    let x := srcOf ⟨a.1 % 38, by omega⟩
    decide (s.ringHome x = some p) && s.ringReady x
  let l := s.staging.filter mine
  if l.isEmpty then s
  else
    let s : State := { s with staging := s.staging.filter (fun a => !mine a) }
    (l.foldl (fun t a => t.writeRecord (srcOf ⟨a.1 % 38, by omega⟩) a.2) s).showStage

/-- A record comes to the recorder core: into its ring, behind what is staged for the same memory, or to the staging buffer
(R351, R353). -/
def State.record (s : State) (x : Src) (e : EvRec) : State :=
  if s.ringReady x then
    (match s.ringHome x with
      | some p => s.drainStage p
      | none => s).writeRecord x e
  else s.stage x e

/-- SPINE_EVENT: the oldest queued record of a source reaches the recorder core and is written or staged (R343, R344, R351);
a message that fails parity waits for its timeout (08 R209, R210). -/
def execSpineEvent (k : Fin 38) (drop : Option Hop) (s : State) : Out :=
  let x := srcOf k
  match (s.src x).queue with
  | [] => .next s
  | e :: rest =>
    let a := s.spArrive x.part? (s.stopOf x) 36 3 0x18 x.key drop
    if a.2 = false then .next a.1
    else
      let s := a.1.updSrc x (fun r => { r with queue := rest })
      .next (s.record x e)

/-- FLOOD_UPDATE: a source sends the update of its last record, at most once per µs, where its queue has room (R346). -/
def execFloodUpdate (k : Fin 38) (s : State) : Out :=
  let x := srcOf k
  if (s.src x).folded = false ∨ 8 ≤ (s.src x).queue.length then .next s
  else
    let s := if (s.src x).sentAt = 0 then s else s.waitNs ((s.src x).sentAt + 1000)
    .next (s.updSrc x (fun r => match r.last with
      | some l => { r with queue := r.queue ++ [{ l with update := true }], folded := false, sentAt := s.ns }
      | none => { r with folded := false }))

/-- STAGING_DRAIN: the staged records of a partition's memory are written (R351). -/
def execStagingDrain (p : PartId) (s : State) : Out := .next (s.drainStage p)

/-! The trigger table (R347, R349). -/

/-- A write to EV_TRIG_CODE (`reg` 0) or EV_TRIG_ADDR a (`reg` 1 + a) of the selected entry; the steward keeps the owner's
additions (R347, R349, R359). -/
def State.writeTrig (s : State) (reg : Nat) (v : BitVec 32) : State :=
  let i := s.f hub F.EV_TRIG_SEL_entry
  match trigEntry i with
  | none => s
  | some (code, sev, caps) =>
    let g := spGet Trig.init s.triggers code
    let n := F.EV_TRIG_CODE_count.get v
    let h : Trig :=
      if reg = 0 then
        { g with count := if caps ≤ n ∧ n ≤ 10 then n else g.count,
                 sev := if F.EV_TRIG_CODE_severity.get v ≤ sev then 0 else F.EV_TRIG_CODE_severity.get v }
      else if reg - 1 < caps then g
      else { g with addrs := spSet 0 g.addrs (reg - 1) (v &&& 0x03FFFFFF#32) }
    let old := s.trigWord i
    let tr := spSet Trig.init s.triggers code h
    let s : State := { s with triggers := tr, stew := { s.stew with triggers := tr } }
    s.ev .hub Ev.TRIG_CHANGED [code, old, s.trigWord i]

/-- The register that a trigger write addresses. -/
def trigReg (reg : Nat) : Nat := if reg = 0 then R.EV_TRIG_CODE.off else R.EV_TRIG_ADDR.off + 4 * (reg - 1)

/-- TRIGGER_TABLE_WRITE. -/
def execTriggerTableWrite (w : Writer) (reg : Fin 11) (v : Word) (s : State) : Out :=
  .next (s.asWrite w (trigReg reg) v.toNat (fun t => t.writeTrig reg v))

/-! The colophon (R355 to R357). -/

/-- Bytes of a section written at once: records, charges, judgements and defects. -/
def State.colWrite (s : State) (sec off : Nat) (bytes : List (BitVec 8)) : State :=
  { s with stew := { s.stew with flash := memWrite s.stew.flash (colKey sec off) bytes } }

/-- An entry of `size` bytes appended to a history of `kept` entries, its newest index in the index section (Table 6). -/
def State.colAppend (s : State) (sec size kept : Nat) (bytes : List (BitVec 8)) : State :=
  let n := leNat (memRead s.stew.flash (colKey 0 (16 * sec + 8)) 8)
  let s := s.colWrite sec (n % kept * size) (bytes ++ List.replicate (size - bytes.length) 0)
  s.colWrite 0 (16 * sec + 8) (leBytes 8 (n + 1))

/-- A flash write that fails: its page is retired and the other copy written (R360). -/
def State.flashFail (s : State) (fail : Bool) (sec off : Nat) : State :=
  if fail then s.ev .hub Ev.COL_WRITE [sec, off / 4096] else s

/-- COLOPHON_COPY: the next error record is copied from its ring, unless it has been overwritten or fails its check; `fail`
says that the flash write failed (R356). -/
def execColophonCopy (fail : Bool) (s : State) : Out :=
  match s.stew.colPend with
  | [] => .next s
  | (k, i) :: rest =>
    let x := srcOf ⟨k % 38, by omega⟩
    let r := s.src x
    let size := (ringPlace x).2.1
    if s.stew.running = false ∨ s.ringReady x = false then .next s
    else
      let old := s.stew.errors.find? (fun e => decide (e.1 = k) && decide (e.2.1 = i))
      let s := match old with
        | some e => s.waitNs (e.2.2 + 1000000000)
        | none => s
      let s := ({ s with stew := { s.stew with colPend := rest } }).showCol
      if size < r.head - i then
        .next ((s.incF hub F.EV_COL_lost).ev .hub Ev.REC_LOST [s.srcWord x, 1, 0x62])
      else match s.ringHome x with
        | none => .next s
        | some p =>
          let a := s.pmRead p (slotPma x i) 64
          let b := a.2.1
          let bad := !a.2.2.isEmpty || decide ((crc32c (b.take 60)).toNat ≠ leAt b 60 4)
          let s := a.1
          if bad then .next (s.ev .hub Ev.REC_CRC [s.srcWord x, i % size, leAt b 0 4])
          else
            let n := match old with
              | some _ => match s.stew.errors.findIdx? (fun e => decide (e.1 = k) && decide (e.2.1 = i)) with
                | some j => s.stew.colNext - s.stew.errors.length + j
                | none => s.stew.colNext
              | none => s.stew.colNext
            let s := (s.colWrite 2 (n % 65536 * 64) b).flashFail fail 2 (n % 65536 * 64)
            let st := s.stew
            match old with
            | some e => .next { s with stew := { st with
                errors := st.errors.map (fun f => if f = e then (k, i, s.ns) else f) } }
            | none =>
              let l := (st.errors ++ [(k, i, s.ns)])
              .next ({ s with stew := { st with errors := l.drop (l.length - 65536), colNext := n + 1 } })

/-- Everything that steward RAM has accumulated is added to flash. -/
def State.flushRam (s : State) : State :=
  { s with stew := { s.stew with
      flash := s.stew.ram.foldl (fun m c => spSet 0 m c.1 c.2) s.stew.flash } }

/-- COLOPHON_FLUSH: every 10 min the accumulated counts go to flash; `wear` is the percentage of its erase cycles used,
`fail` that a write failed (R355, R360). -/
def execColophonFlush (wear : Fin 101) (fail : Bool) (s : State) : Out :=
  if s.stew.running = false then .next s
  else
    let s := s.waitNs s.stew.flushDue
    let s : State := { s with stew := { s.stew with flushDue := s.ns + 600000000000 } }
    let s := (s.flushRam.flashFail fail 4 0).setF hub F.EV_COL_wear wear.val
    let due := decide (90 ≤ wear.val) && (decide (s.stew.wornDay = 0) || decide (s.stew.wornDay + 86400000000000 ≤ s.ns))
    .next (if due then ({ s with stew := { s.stew with wornDay := s.ns } }).ev .hub Ev.COL_WORN [wear.val] else s)

end Sys2Proof.Machine
end

