-- ==== Sys2Proof/Machine/Clock.lean ====
section
/-! DEFINITION. Clocks, temperature and the states of the halves (01_the_tick.md R35, 08_cord_mesh_and_spine.md R214 to
R219, 10_collation_and_checking.md R264, R274, R279, 15_module_power_and_signals.md R363, R367). -/

namespace Sys2Proof.Machine

def halfParts (h : Half) : List PartId := allParts.filter (fun p => halfOf p == h)

/-- The number of a half: 0 west, 1 east (R381). -/
def halfNum (h : Half) : Nat := if h then 1 else 0

/-! The detection promise's conditions (10 R264, R282). -/

/-- The module is within its ratings. -/
def State.inRatings (s : State) : Bool :=
  decide (s.f hub F.PW_MODULE_out_of_rating = 0) && decide (s.f hub F.PW_THERM_west ≠ 3) &&
  decide (s.f hub F.PW_THERM_east ≠ 3) && !s.stew.plateHot

/-- IN_SHIELD follows its conditions; a fall of `shielded` is counted and recorded with the writer that caused it, or 0xFF
(R264, R283). -/
def State.evalShield (s : State) (p : PartId) (writer : Nat := 0xFF) : State :=
  if (s.part p).broughtUp = false then s
  else
    let qs := s.quiresOf p
    let bit (b : Bool) : Nat := if b then 1 else 0
    let c := qs.all (fun q => decide (s.f (qb q) F.PS_MODE_check = 1))
    let sc := qs.all (fun q => decide (s.f (qb q) F.LF_CTRL_scrub_en = 1) && decide (s.f (qb q) F.LF_CTRL_digest_en = 1)) &&
      decide (s.f hub (halfFld (halfOf p)) ≠ 2)
    let fw := s.stew.running && decide (s.stew.store.minFw ≤ s.stew.version)
    let ra := s.inRatings
    let was := s.f (pt p) F.IN_SHIELD_shielded
    let s := (((s.setF (pt p) F.IN_SHIELD_check (bit c)).setF (pt p) F.IN_SHIELD_scrub (bit sc)).setF (pt p)
      F.IN_SHIELD_firmware (bit fw)).setF (pt p) F.IN_SHIELD_ratings (bit ra)
    let all := c && sc && fw && ra
    let s := s.setF (pt p) F.IN_SHIELD_shielded (bit all)
    if was = 1 ∧ all = false then
      let s := s.incF (pt p) F.IN_SHIELD_lapses
      s.ev (.part p) Ev.IN_SHIELD_LAPSE [(s.viewPart p R.IN_SHIELD.off (s.rd (pt p) R.IN_SHIELD)).toNat, writer]
    else s

def State.evalShields (s : State) : State := allParts.foldl (fun t p => t.evalShield p) s

/-! Clock steps (01 R35, 08 R214, R215). -/

/-- The operating point a half's restrictions in force cap it at (10 R279): a restriction counts while its tile carries a
quire of the half. -/
def State.capLevel (s : State) (h : Half) : Nat :=
  s.stew.restrictions.foldl (fun m r =>
    let t := F.IN_RESTRICT_tile.get r.word
    let carries := (halfParts h).any (fun p => (s.quiresOf p).any (fun q => decide (s.tileOf q = t)))
    if r.inForce && carries && decide (F.IN_RESTRICT_kind.get r.word = 1) && decide (F.IN_RESTRICT_valid.get r.word = 1)
    then max m (F.IN_RESTRICT_cap.get r.word) else m) 0

/-- The operating point that a half should run at. -/
def State.wantClock (s : State) (h : Half) : Nat :=
  let l := (s.therm h).level
  if l = 3 then 3 else max l (s.capLevel h)

/-- The operating point of a half (08 R214). -/
def State.halfClock (s : State) (h : Half) : Nat :=
  match halfParts h with
  | p :: _ => s.f (pt p) F.TK_STATUS_clock
  | [] => 0

/-- A step of a half's clock is due: both its partitions hold strokes from the close of their frames. -/
def State.dueStep (s : State) (h : Half) (c : Nat) : State :=
  let s := s.updTherm h (fun x => { x with stepTo := some c })
  (halfParts h).foldl (fun t p => t.addHold p .clockStep) s

/-- The half steps if it should run at another point; a step no longer wanted is dropped. -/
def State.retarget (s : State) (h : Half) : State :=
  let w := s.wantClock h
  if s.f hub (halfFld h) ≠ 0 ∨ w = 3 ∨ s.halfClock h = 3 then s
  else if w ≠ s.halfClock h then s.dueStep h w
  else if (s.therm h).stepTo.isSome && !(s.therm h).spread then
    (halfParts h).foldl (fun t p => t.dropHold p .clockStep) (s.updTherm h (fun x => { x with stepTo := none }))
  else s

/-- A quire has a channel crossing the seam, in either direction (R215). -/
def State.seamQuire (s : State) (q : QuireId) : Bool :=
  decide (s.f (pt (partOf q)) F.MS_SPAN_seam = 1) &&
  ((List.range 256).any (fun e => decide (s.f (eb q e) F.CH_ROUTE_A_valid = 1) &&
      decide (halfOf (partOf (s.entryQuire q e)) ≠ halfOf (partOf q))) ||
    (List.finRange 32).any (fun o => decide (halfOf (partOf o) ≠ halfOf (partOf q)) &&
      decide (s.f (pt (partOf o)) F.MS_SPAN_seam = 1) &&
      (List.range 256).any (fun e => decide (s.f (eb o e) F.CH_ROUTE_A_valid = 1) && decide (s.entryQuire o e = q))))

/-- Every kettle re-centres: each quire with a channel crossing the seam owes a pause in its next tick (R215). -/
def State.recentre (s : State) : State :=
  (List.finRange 32).foldl (fun t q =>
    if s.seamQuire q then t.updQu q (fun x => { x with seamDue := x.seamDue + 1 }) else t) s

/-- The clock of a half changes: every partition of it shows the point and records the step. -/
def State.setClock (s : State) (h : Half) (c : Nat) : State :=
  ((halfParts h).foldl (fun t p => (t.setF (pt p) F.TK_STATUS_clock c).ev (.part p) Ev.CLOCK_STEP []) s).recentre

/-- Holds of a half end, and what is pending there may issue. -/
def State.releaseHalf (s : State) (h : Half) (c : HoldCause) : State :=
  (halfParts h).foldl (fun t p => (t.dropHold p c).tryPending p false) s

def State.showLevel (s : State) (h : Half) : State :=
  s.setF hub (if h then F.PW_THERM_east else F.PW_THERM_west) (s.therm h).level

/-- CLOCK_STEP: once both partitions of the half are held, its clock steps in 256 ns and the holds end (R35, R214). -/
def execClockStep (h : Half) (s : State) : Out :=
  match (s.therm h).stepTo with
  | none => .next s
  | some c =>
    if (halfParts h).all (fun p => decide (s.f (pt p) F.TK_STATUS_held = 1)) = false then .next s
    else
      let s := s.waitNs (s.ns + 256)
      let s := (s.updTherm h (fun x => { x with stepTo := none, spread := false })).setClock h c
      .next ((s.showLevel h).releaseHalf h .clockStep)

/-! Temperature (15 R367, 10 R279). -/

/-- The hottest of some readings. -/
def hottest (l : List Int) : Int := l.foldl max (-40)

/-- The junction sensors of a half, by number: two for each of its tiles. -/
def halfSensors (h : Half) : List Nat :=
  (List.range 72).filter (fun i => decide (3 ≤ i / 2 % 6) == h)

def tempByte (t : Int) : Nat := min 255 t.toNat

/-- Since when a condition has held. -/
def since (old : Option Nat) (now : Nat) (c : Bool) : Option Nat :=
  if c then (match old with
    | some t => some t
    | none => some now) else none

/-- The range of a restriction: its bin widened by 2 degrees each side, or every temperature (R279, R280). -/
def capRange (w : BitVec 32) (t : Int) : Bool :=
  decide (F.IN_RESTRICT_all_bins.get w = 1) ||
  (decide ((7 * F.IN_RESTRICT_bin.get w : Nat) - 2 ≤ t) && decide (t < (7 * F.IN_RESTRICT_bin.get w + 7 : Nat) + 2))

/-- The half of a tile (00_scope.md, Table 2). -/
def tileHalf (t : Nat) : Half := decide (3 ≤ t % 6)

/-- A half becomes critical: holds at once, its ticks fail, the retention clock (Table 4). -/
def State.critical (s : State) (h : Half) (sensor : Nat) (t : Int) : State :=
  let s := s.updTherm h (fun x => { x with level := 3, stepTo := none, spread := false })
  let s := (halfParts h).foldl (fun u p => (u.addHold p .critical).failTick p) s
  let s := (halfParts h).foldl (fun u p => u.dropHold p .clockStep) s
  let s := ((s.setClock h 3).showLevel h).incF hub F.PW_THERM_crit
  s.ev .hub Ev.THERM_CRIT [halfNum h, sensor, tempByte t]

/-- The first sensor of a list that shows a temperature. -/
def sensorAt (l : List Int) (idx : List Nat) (t : Int) : Nat :=
  match idx.find? (fun i => decide (l.getD i (-40) = t)) with
  | some i => i
  | none => 0

/-- One half's throttling at a reading of the sensors. -/
def State.sampleHalf (s : State) (l : List Int) (h : Half) : State :=
  let idx := halfSensors h
  let t := hottest (idx.map (fun i => l.getD i (-40)))
  let hubT := hottest ((l.drop 72).take 4)
  let now := s.ns
  let s := s.setF hub (if h then F.PW_TEMP_east else F.PW_TEMP_west) (tempByte t)
  let s := s.updTherm h (fun x => { x with below87 := since x.below87 now (decide (t < 87)),
                                           below85 := since x.below85 now (decide (t < 85) && (!x.byHub || decide (hubT < 85))),
                                           above95 := since x.above95 now (decide (95 ≤ t)) })
  let s : State := { s with stew := { s.stew with restrictions := s.stew.restrictions.map (fun r =>
    if tileHalf (F.IN_RESTRICT_tile.get r.word) ≠ h then r
    else if capRange r.word t then { r with inForce := true, leftAt := none }
    else { r with leftAt := if r.inForce then since r.leftAt now true else none }) } }
  if (s.therm h).level = 3 then s
  else if 95 ≤ t then s.critical h (sensorAt l idx t) t
  else if 95 ≤ hubT then
    (s.updTherm h (fun x => { x with byHub := true, below85 := none })).critical h (sensorAt l [72, 73, 74, 75] hubT) hubT
  else
    let want := if 93 < t then 2 else if 90 < t then 1 else 0
    (s.updTherm h (fun x => { x with level := max x.level want })).retarget h

/-- TEMP_SAMPLE: the readings of the 72 junction sensors, the four of the hub strip, and the inlet (R367). -/
def execTempSample (junctions : List Int) (hubs : List Int) (plate : Int) (s : State) : Out :=
  let l := (junctions.take 72 ++ List.replicate (72 - junctions.length) (-40)) ++ hubs.take 4
  let hot := since s.stew.hub95 s.ns (decide (95 ≤ hottest (hubs.take 4)))
  let s : State := { s with stew := { s.stew with temps := l, hub95 := hot } }
  if s.stew.die = false then .next s
  else
  let s := (s.setF hub F.PW_TEMP_hub (tempByte (hottest ((l.drop 72).take 4)))).setF hub F.PW_TEMP_plate (tempByte plate)
  let s := (s.sampleHalf l false).sampleHalf l true
  let s :=
    if plate > 50 ∧ s.stew.plateHot = false then
      ((({ s with stew := { s.stew with plateHot := true } }).incF hub F.PW_THERM_plate_hot).ev .hub Ev.THERM_PLATE
        [tempByte plate])
    else if plate ≤ 48 ∧ s.stew.plateHot then
      ({ s with stew := { s.stew with plateHot := false } }).ev .hub Ev.THERM_PLATE [tempByte plate]
    else s
  .next s.evalShields

/-- THERMAL_STEP_UP: 10 ms below 87 degrees: the half steps its clock up one operating point (R35). -/
def execThermalStepUp (h : Half) (s : State) : Out :=
  let x := s.therm h
  match x.below87 with
  | none => .next s
  | some t =>
    if x.level = 0 ∨ x.level = 3 then .next s
    else
      let s := s.waitNs (t + 10000000)
      .next ((s.updTherm h (fun y => { y with level := y.level - 1, below87 := some s.ns })).retarget h)

/-- THERMAL_CRIT_END: 100 ms below 85 degrees, of the half and of the hub (Table 4): 1.0 GHz, the holds released. -/
def execThermalCritEnd (h : Half) (s : State) : Out :=
  let x := s.therm h
  match x.below85 with
  | none => .next s
  | some t =>
    if x.level ≠ 3 ∨ 95 ≤ hottest ((s.stew.temps.drop 72).take 4) then .next s
    else
      let s := s.waitNs (t + 100000000)
      let s := (s.updTherm h (fun y => { y with level := 2, byHub := false, below87 := if y.below87.isSome then some s.ns else none })).setClock h 2
      .next (((s.showLevel h).releaseHalf h .critical).evalShields)

/-- RESTRICTION_LIFT: 10 ms after the temperature has left a restriction's range its cap is lifted (R279). -/
def execRestrictionLift (i : Fin 16) (s : State) : Out :=
  match s.stew.restrictions[i.val]? with
  | none => .next s
  | some r => match r.leftAt with
    | none => .next s
    | some t =>
      let s := s.waitNs (t + 10000000)
      let s : State := { s with stew := { s.stew with restrictions := s.stew.restrictions.mapIdx (fun j x =>
        if j = i.val then { x with inForce := false, leftAt := none } else x) } }
      .next (s.retarget (tileHalf (F.IN_RESTRICT_tile.get r.word)))

/-! The clock monitor (10 R274). -/

/-- The frequency of an operating point in kHz. -/
def pointKHz : Nat → Nat
  | 0 => 2000000
  | 1 => 1600000
  | 2 => 1000000
  | _ => 250000

/-- A frequency within -1.0% to +0.25% of an operating point. -/
def inBand (kHz point : Nat) : Bool :=
  decide (pointKHz point * 990 ≤ kHz * 1000) && decide (kHz * 10000 ≤ pointKHz point * 10025)

/-- CLOCK_MONITOR_WINDOW: a 64 ns window finds a half's clock at a frequency in kHz (R274). -/
def execClockMonitorWindow (h : Half) (kHz : BitVec 32) (s : State) : Out :=
  let x := s.therm h
  let c := s.halfClock h
  if s.f hub (halfFld h) = 2 ∨ s.stew.die = false then .next s
  else if inBand kHz.toNat c then
    .next (if x.faulty then s.updTherm h (fun y => { y with goodSince := since y.goodSince s.ns true }) else s)
  else if x.faulty then .next (s.updTherm h (fun y => { y with goodSince := none }))
  else
    let s := s.updTherm h (fun y => { y with faulty := true, goodSince := none })
    let s := match halfParts h with
      | p :: _ => s.charge p (.clock h) Ev.IN_CLOCK false
      | [] => s
    let s := (halfParts h).foldl (fun t p => (t.addHold p .clockMonitor).failTick p) s
    .next (s.ev .hub Ev.IN_CLOCK [halfNum h, kHz.toNat, c])

/-- CLOCK_RELOCK_RELEASE: the relocked clock has stayed in its band for 1 ms (R274). -/
def execClockRelockRelease (h : Half) (s : State) : Out :=
  match (s.therm h).goodSince with
  | none => .next s
  | some t =>
    let s := s.waitNs (t + 1000000)
    .next ((s.updTherm h (fun y => { y with faulty := false, goodSince := none })).releaseHalf h .clockMonitor)

/-! Halves (08 R216 to R219, 15 Table 3, R363). -/

def State.halfState (s : State) (h : Half) : Nat := s.f hub (halfFld h)

def State.setHalf (s : State) (h : Half) (v : Nat) : State := s.setF hub (halfFld h) v

/-- EV_MS_HALF at a severity: refusals are warnings. -/
def State.noteHalf (s : State) (h : Half) (old new result ld : Nat) : State :=
  s.raise .hub Ev.MS_HALF (if result = 1 ∨ result = 2 ∨ result = 3 then 1 else evSev Ev.MS_HALF)
    [halfNum h, old, new, result, ld]

/-- A request ends at once with a result. -/
def State.halfAnswer (s : State) (h : Half) (target result ld : Nat) : State :=
  let s := s.setF hub F.MS_HALF_result result
  if result = 0 then s else s.noteHalf h (s.halfState h) target result ld

/-- A partition of the half runs, or a unit is in flight into it: a message, a credit, an upload, a page. -/
def State.busyRun (s : State) (h : Half) : Bool :=
  (halfParts h).any (fun p => s.running p) ||
  s.flights.any (fun m => halfOf (partOf m.dst) == h) || s.creditFlights.any (fun c => halfOf (partOf c.src) == h) ||
  (halfParts h).any (fun p => !(s.part p).uploads.isEmpty || (s.part p).hints.any (fun g => g.phase == .moving))

/-- A span crosses the seam with a member here and a running member in the other half. -/
def State.busySpan (s : State) (h : Half) : Bool :=
  (halfParts h).any (fun p => decide (s.f (pt p) F.MS_SPAN_seam = 1) &&
    (halfParts (!h)).any (fun r => decide (s.f (pt p) F.MS_SPAN_members / 2 ^ r.val % 2 = 1) && s.running r))

/-- The half starts to clock up, for a partition first (R218, R363). -/
def State.startUp (s : State) (h : Half) (first : PartId) (ld : Nat) : State :=
  let old := s.halfState h
  let c : HalfChange :=
    { target := 0, first := first, readyAt := s.ns + (if old = 1 then 40000 else 300000),
      secondAt := s.ns + (if old = 1 then 40000 else 600000), firstDone := false, old := old, ld := ld }
  (({ s with halfChg := spSet none s.halfChg (halfNum h) (some c) }).setHalf h 3).setF hub F.MS_HALF_result 4

def State.halfChange (s : State) (h : Half) : Option HalfChange := spGet none s.halfChg (halfNum h)

/-- A request through MS_HALF_REQ (R216): a half that is changing takes no other request, and a stopped half none for the
retention clock (DEDUCED: both are invalid). -/
def State.halfReq (s : State) (h : Half) (target ld : Nat) : State :=
  let old := s.halfState h
  if target = 3 ∨ old = 3 ∨ (old = 2 ∧ target = 1) then s.halfAnswer h target 3 ld
  else if old = target then s.halfAnswer h target 0 ld
  else if target = 0 then s.startUp h (match halfParts h with
    | p :: _ => p
    | [] => 0) ld
  else if s.busyRun h then s.halfAnswer h target 2 ld
  else if s.busySpan h then s.halfAnswer h target 1 ld
  else
    let c : HalfChange := { target := target, first := 0, readyAt := 0, secondAt := 0, firstDone := true, old := old, ld := ld }
    (({ s with halfChg := spSet none s.halfChg (halfNum h) (some c) }).setHalf h 3).setF hub F.MS_HALF_result 4

/-- The word of a request. -/
def halfReqWord (h : Half) (target : Nat) : Nat := halfNum h + 2 * target + 8

def State.halfCmd (s : State) (w : Writer) (h : Half) (target : Nat) : State :=
  s.asWrite w R.MS_HALF_REQ.off (halfReqWord h target) (fun t => t.halfReq h target w.word)

/-- HALF_CLOCK_UP, HALF_RETENTION, HALF_STOP (R216). -/
def execHalfClockUp (w : Writer) (h : Half) (s : State) : Out := .next (s.halfCmd w h 0)
def execHalfRetention (w : Writer) (h : Half) (s : State) : Out := .next (s.halfCmd w h 1)
def execHalfStop (w : Writer) (h : Half) (s : State) : Out := .next (s.halfCmd w h 2)

/-- HALF_CLOCK_DOWN_DONE: the half has reached the retention clock or stopped; its channels enter self-refresh (R217). -/
def execHalfClockDownDone (h : Half) (s : State) : Out :=
  match s.halfChange h with
  | none => .next s
  | some c =>
    if c.target = 0 then .next s
    else
      let s : State := { s with halfChg := spSet none s.halfChg (halfNum h) none }
      let s := (s.setHalf h c.target).setF hub F.MS_HALF_result 0
      let s := (halfParts h).foldl (fun t p =>
        (t.updPart p (fun x => { x with memAsleep := true })).setF (pt p) F.TK_STATUS_clock 3) s
      .next ((s.noteHalf h c.old c.target 0 c.ld).evalShields)

/-- A wake of a partition whose half is clocked down: the half is clocked up to full, that partition first (R218, R253,
R363). -/
def State.wakeHalf (s : State) (p : PartId) (ld : Nat) : State :=
  let h := halfOf p
  let old := s.halfState h
  let rising : Bool := match s.halfChange h with
    | some c => decide (c.target = 0)
    | none => false
  if old = 0 ∨ rising then s
  else
    let s := (s.incF hub F.MS_HALF_wakes).startUp h p ld
    s.noteHalf h old 0 4 ld

/-- The half of a partition takes no message now. -/
def State.halfDown (s : State) (p : PartId) : Bool :=
  decide (s.halfState (halfOf p) ≠ 0) && (match s.halfChange (halfOf p) with
    | some c => !(decide (c.target = 0) && c.firstDone && decide (c.first = p))
    | none => true)

/-- The first or the second partition of a rising half is ready: its memory returns; with the second, the half is at full
clock (R217, R218, R363). The second part is the partition that became ready. -/
def State.upDone (s : State) (h : Half) : State × List PartId :=
  match s.halfChange h with
  | none => (s, [])
  | some c =>
    if c.target ≠ 0 then (s, [])
    else
      let ready (t : State) (p : PartId) : State := t.updPart p (fun x => { x with memAsleep := false })
      let full (t : State) : State :=
        let t : State := { t with halfChg := spSet none t.halfChg (halfNum h) none }
        let t := ((t.setHalf h 0).setF hub F.MS_HALF_result 0).noteHalf h c.old 0 0 c.ld
        let t := (halfParts h).foldl (fun u p => u.setF (pt p) F.TK_STATUS_clock (u.wantClock h)) t
        ((List.finRange 32).foldl (fun u q => u.endRefusals q (fun c =>
          halfOf (partOf (u.entryQuire q c)) == h)) t).evalShields
      let others := (halfParts h).filter (fun p => p ≠ c.first)
      if c.firstDone = false then
        let s := ready (s.waitNs c.readyAt) c.first
        if c.secondAt ≤ c.readyAt then (full (others.foldl ready s), halfParts h)
        else ({ s with halfChg := spSet none s.halfChg (halfNum h) (some { c with firstDone := true }) }, [c.first])
      else (full (others.foldl ready (s.waitNs c.secondAt)), others)

end Sys2Proof.Machine
end

