-- ==== Sys2Proof/WellFormed.lean ====
section
/-! DEFINITION. Which commands are well formed: operands that their types alone do not bound. -/

namespace Sys2Proof

/-- A host write lies within one 64-byte line, and is not empty. -/
def lineOk (off : Nat) (bytes : List Byte) : Bool :=
  !bytes.isEmpty && decide (off % 64 + bytes.length ≤ 64)

/-- A tile of a partition's block (00_scope.md R4). -/
def inBlock (p : PartId) (t : TileId) : Bool :=
  decide (t.val / 18 = p.val / 2) && decide (t.val % 6 / 3 = p.val % 2)

/-- A map of a partition names eight places and its spare, only tiles of the partition's block, and no tile twice
(00_scope.md R4, 08_cord_mesh_and_spine.md R203). -/
def mapOk (p : PartId) (m : List (Option TileId)) (spare : Option TileId) : Bool :=
  decide (m.length = 8) && (m ++ [spare]).reduceOption.all (fun t => inBlock p t) &&
    decide ((m ++ [spare]).reduceOption.Nodup)

/-- A store whose fields have their lengths (13_bring_up_and_licences.md R325, Table 8). -/
def Store.wf (s : Store) : Bool :=
  decide (s.serial.length ≤ 16) && decide (s.idKey.length = 68) && decide (s.endorsement.length = 2820) &&
    decide (s.digest.length = 32) && s.fenced.all (fun t => decide (t < 36)) &&
    s.rows.all (fun r => decide (r.1 < 36) && decide (r.2.1 < 256) && decide (r.2.2.1 < 1024) && decide (r.2.2.2 < 16)) &&
    s.lanes.all (fun l => decide (l.1 < 156))

def BootInput.wf (i : BootInput) : Bool := i.store.wf && decide (i.imageDigest.length = 32)

/-- A program image whose stitchers are named once, with whole program words and no more than its memories hold
(08_cord_mesh_and_spine.md R212), and at most one estimate for each operating point (01_the_tick.md Table 5). -/
def Image.wf (i : Image) : Bool :=
  decide (i.pma < 2 ^ 32) && decide (i.watts.length ≤ 4) && decide (i.shape < 256) &&
    decide ((i.stitchers.map (fun x => x.u)).Nodup) &&
    i.stitchers.all (fun x => decide (x.prog.length ≤ 4096) && decide (x.prog.length % 4 = 0) &&
      decide (x.pocket.length ≤ 16384) && decide (x.cfg.length = 160)) &&
    i.digests.all (fun d => decide (d.2.1 < 8) && decide (d.2.2.length = 32))

/-- A command is well formed. Every other operand is exact in its type. -/
def Instr.wf : Instr → Bool
  | .send _ rx _ _ _ => rx != 31
  | .sendCtl _ rx _ _ _ => rx != 31
  | .trySend _ rx _ _ _ => rx != 31
  | .trySendCtl _ rx _ _ _ => rx != 31
  | .qrecv _ ra _ => ra != 31
  | .qrecvTry _ ra _ _ => ra != 31
  | .cvt _ _ _ t f _ _ _ part => cvtPartOk t f part
  | .cvtBlk _ _ va _ f _ => !(f == .fp32 && va == 15)
  | .cvtUnblk _ vd _ t _ _ => !(t == .fp32 && vd == 15)
  | .tempSample junctions hubs _ => decide (junctions.length = 72) && decide (hubs.length = 4)
  | .powerSample fast slow _ => decide (fast.length = 4) && decide (slow.length = 4)
  | .marginRead droop slack press issue =>
      decide (droop.length = 144) && decide (slack.length = 144) && slack.all (fun x => decide (x < 64)) &&
        decide (press.length = 36) && decide (issue.length = 36)
  | .mapSwitch p m spare => mapOk p m spare
  | .uploadWrite _ _ off bytes _ => lineOk off.toNat bytes
  | .inboxLineWrite _ _ off bytes _ => lineOk off.toNat bytes
  | .hostWriteOther _ at_ bytes _ => lineOk at_.off.toNat bytes
  | .noticeRecordWrite _ off bytes _ => lineOk off.toNat bytes
  | .fwActivate _ _ _ digest => decide (digest.length = 32)
  | .doorbellProgramLoad _ image => image.wf
  | .powerOn i => i.wf
  | .recoveryImageBlock _ _ last => match last with
    | some i => i.wf
    | none => true
  | .tokenArrival _ _ o _ => match o with
    | .entry _ e => decide (e < 256)
    | .internal => true
  | _ => true

end Sys2Proof
end

