-- ==== Sys2Proof/Machine/Mesh.lean ====
section
/-! DEFINITION. The cord mesh: links, lanes, units late in transit, channel entry checks, map switches
(08_cord_mesh_and_spine.md R191 to R205, 06_channels.md R152, R153, R157). -/

namespace Sys2Proof.Machine

/-- The partition whose block holds a tile (00_scope.md, Table 2). -/
def tilePart (t : Nat) : PartId :=
  if t / 6 < 3 then (if t % 6 < 3 then 0 else 1) else (if t % 6 < 3 then 2 else 3)

/-- The tiles that a link joins: one for hub and memory links (Table 2). -/
def linkTiles (n : LinkId) : List Nat :=
  let n := n.val
  if n < 30 then [6 * (n / 5) + n % 5, 6 * (n / 5) + n % 5 + 1]
  else if n < 60 then [6 * ((n - 30) / 6) + (n - 30) % 6, 6 * ((n - 30) / 6 + 1) + (n - 30) % 6]
  else if n < 66 then [n - 60]
  else if n < 72 then [6 * (n - 66)]
  else [6 * (n - 72) + 5]

/-- The partitions whose home routes cross a link: the one whose block holds both ends (R195). -/
def homeParts (n : LinkId) : List PartId :=
  match linkTiles n with
  | [a, b] => if tilePart a = tilePart b then [tilePart a] else []
  | _ => []

/-- A route takes a link, in either direction. -/
def takes (n : LinkId) (route : List (Nat × Bool)) : Bool := route.any (fun h => decide (h.1 = n.val))

/-- The traffic of a partition uses a link: its home routes, its routes to the hub ports and to the memory ports, and the
routes between it and the other members of its span (R193, R196, R201). -/
def State.usesLink (s : State) (n : LinkId) (p : PartId) : Bool :=
  let mine := blockTiles p
  mine.any (fun a => takes n (hubRoute a) || takes n (memRoute p a) || mine.any (fun b => takes n (tileRoute a b))) ||
  allParts.any (fun r => decide (r ≠ p) && decide (s.f (pt p) F.MS_SPAN_members / 2 ^ r.val % 2 = 1) &&
    mine.any (fun a => (blockTiles r).any (fun b => takes n (tileRoute a b) || takes n (tileRoute b a))))

/-- The partitions whose traffic uses a link (R199). -/
def State.linkParts (s : State) (n : LinkId) : List PartId := allParts.filter (fun p => s.usesLink n p)

def linkKey (n : LinkId) (dir : Bool) : Nat := 2 * n.val + (if dir then 1 else 0)
def State.link (s : State) (n : LinkId) (dir : Bool) : LinkSt := spGet .init s.links (linkKey n dir)
def State.setLink (s : State) (n : LinkId) (dir : Bool) (x : LinkSt) : State :=
  { s with links := spSet .init s.links (linkKey n dir) x }

/-- An entry of the colophon's defect list (14_event_recorder_and_colophon.md, Table 6), of the factory (0) or the field (1):
kind 1 tile fenced, 2 leaf row remapped, 3 lane spared, 4 DRAM row repaired; the place of its fields is the model's (DESIGN
CHOICE). -/
def State.colDefectOf (s : State) (origin kind unit pos : Nat) : State :=
  s.colAppend 0x0B 16 8192 (leBytes 1 kind ++ leBytes 1 unit ++ leBytes 4 pos ++ leBytes 8 s.ns ++ leBytes 1 origin)

/-- An entry of the field. -/
def State.colDefect (s : State) (kind unit pos : Nat) : State := s.colDefectOf 1 kind unit pos

def dirNum (dir : Bool) : Nat := if dir then 1 else 0

/-- A lane blamed for a failed check: 8 within a second make it failing; where the spares are in use or taken by lanes that
failed before it, it stays in service (R199). -/
def State.blame (s : State) (n : LinkId) (dir : Bool) (lane : Nat) : State :=
  let x := s.link n dir
  let b := (lane, s.ns) :: x.blamed.filter (fun e => decide (s.ns < e.2 + 1000000000))
  let new := decide (8 ≤ (b.filter (fun e => decide (e.1 = lane))).length) && !x.failing.contains lane
  let s := s.setLink n dir { x with blamed := b, failing := if new then x.failing ++ [lane] else x.failing }
  if new && decide (2 ≤ x.spared.length + x.failing.length) then
    (s.ev .hub Ev.MS_LANES_OUT [n.val, dirNum dir, lane]).charge (tilePart ((linkTiles n).headD 0)) (.link n.val)
      Ev.MS_LANES_OUT false
  else s

/-- LINK_FLIT: a flit is received on a link direction, and where its check fails a lane is blamed; the fourth failure in a
row retrains the link, and again after retraining takes it down (R198, R199). -/
def execLinkFlit (n : LinkId) (dir ok : Bool) (lane : Fin 1056) (s : State) : Out :=
  let x := s.link n dir
  if x.down ∨ x.retrainEnd.isSome then .next s
  else if ok then .next (s.setLink n dir { x with fails := 0, again := false })
  else
    let s := (s.setLink n dir { x with crc := min 65535 (x.crc + 1), fails := x.fails + 1 }).blame n dir lane.val
    let s := s.colAdd 0x03 (linkEntry n.val + 4) 1
    let x := s.link n dir
    if x.fails < 4 then .next s
    else if x.again = false then
      let s := s.setLink n dir { x with fails := 0, again := true, retrains := min 255 (x.retrains + 1),
                                        retrainEnd := some (s.ns + 2000) }
      let s := s.colAdd 0x03 (linkEntry n.val + 8) 1
      .next (s.ev .hub Ev.MS_LINK_RETRAIN [n.val, dirNum dir, lane.val])
    else
      let s := s.setLink n dir { x with down := true }
      let hung := homeParts n
      let s := s.ev .hub Ev.MS_LINK_DOWN [n.val, dirNum dir, hung.foldl (fun m p => m + 2 ^ p.val) 0]
      let s := s.charge (tilePart ((linkTiles n).headD 0)) (.link n.val) Ev.MS_LINK_DOWN false
      .next { s with stew := { s.stew with resetReqs := s.stew.resetReqs ++ hung.map (fun p => (p, 4)) } }

/-- LINK_RETRAIN_DONE: retraining ends after 2 µs and the failed flit is replayed (R198). -/
def execLinkRetrainDone (n : LinkId) (dir : Bool) (s : State) : Out :=
  let x := s.link n dir
  match x.retrainEnd with
  | none => .next s
  | some t => .next ((s.waitNs t).setLink n dir { x with retrainEnd := none })

/-- LANE_SPARE: the steward switches a failing lane to a spare in 64 cycles, once every partition that uses the link is held
or in reset and nothing is in flight on it (R199). -/
def execLaneSpare (n : LinkId) (dir : Bool) (s : State) : Out :=
  let x := s.link n dir
  let ps := s.linkParts n
  match x.failing with
  | [] => .next s
  | lane :: rest =>
    let still := ps.all (fun p => decide (s.f (pt p) F.TK_STATUS_held = 1) || (s.part p).recovery.isSome)
    let empty := s.flights.all (fun m => !ps.contains (partOf m.src) && !ps.contains (partOf m.dst)) &&
      s.creditFlights.all (fun c => !ps.contains (partOf c.src) && !ps.contains (partOf c.from_)) &&
      ps.all (fun p => (s.part p).uploads.isEmpty && (s.part p).hints.all (fun g => g.phase != .moving))
    if 2 ≤ x.spared.length ∨ still = false ∨ empty = false then .next s
    else
      let p := tilePart ((linkTiles n).headD 0)
      let s := s.waitCycle p ((s.part p).cyc + 64)
      let spare := x.spared.length
      let s := s.setLink n dir { x with failing := rest, spared := x.spared ++ [lane],
                                        blamed := x.blamed.filter (fun e => decide (e.1 ≠ lane)) }
      let s : State := { s with stew := { s.stew with lanes := s.stew.lanes ++ [(linkKey n dir, lane)] } }
      .next ((s.ev .hub Ev.MS_LANE_SPARED [n.val, dirNum dir, lane, spare]).colDefect 3 n.val
        (lane + 2048 * dirNum dir))

/-- LATE_TRANSIT_ARRIVAL: the next message for a quire, or its next credit, arrives some cycles after it counts as arrived,
delayed by a replay, a retraining or contention; the quire pauses, its position advancing (R200). -/
def execLateTransitArrival (q : QuireId) (credit : Bool) (n : BitVec 16) (cause : LateCause) (upset : Word) (s : State) :
    Out :=
  let late := n.toNat
  let code := match cause with
    | .replay => 0x88
    | .retrain => 0x89
    | .contention => 0x8A
  if credit then
    match takeLeast s.creditKey (s.creditFlights.filter (fun c => decide (c.src = q) && !s.creditSpan c)) with
    | none => .next s
    | some (c, _) => if s.unitWaits c.from_ c.src then .next s else .next (s.releaseCredit c late code)
  else
    match takeLeast Flight.key (s.flights.filter (fun m => decide (m.dst = q) && !m.span)) with
    | none => .next s
    | some (m, _) => if s.unitWaits m.src m.dst then .next s else .next (s.releaseFlight m late code upset)

/-! Channel entry checks (06 R152, R153, R157). -/

/-- The physical latency of a path: token or queue, ring, credit (Table 4). -/
def physLat (same : Bool) (a b : Nat) (ring credit : Bool) : Nat :=
  let far := 2 * (hops a b - 1) + 6 * crossings a b
  if credit then (if same then 3 else 6 + far)
  else if ring then (if same then 7 else 14 + far)
  else if same then 3 else 10 + far

/-- Some LD has both partitions. -/
def State.oneSpan (s : State) (p r : PartId) : Bool :=
  (List.finRange 16).any (fun l => s.bound l p && s.bound l r)

/-- A stated latency of an entry lies below its physical value (R152, R153). -/
def State.badLatency (s : State) (q : QuireId) (e : Nat) : Bool :=
  let d := s.entryQuire q e
  let b := eb q e
  let ring := decide (s.f b F.CH_ROUTE_A_landing = 2)
  decide (s.f b F.CH_ROUTE_B_latency < physLat (decide (d = q)) (s.tileOf q) (s.tileOf d) ring false) ||
  decide (s.f b F.CH_ROUTE_B_credit_latency < physLat (decide (d = q)) (s.tileOf q) (s.tileOf d) ring true)

/-- Why an entry fails its check at seal: 6 a route, 2 a value (R153, R157); none where it passes. -/
def State.entryFault (s : State) (q : QuireId) (e : Nat) : Option Nat :=
  let b := eb q e
  let d := s.entryQuire q e
  let span := decide (s.f b F.CH_ROUTE_A_span = 1)
  let land := s.f b F.CH_ROUTE_A_landing
  let grant := s.f b F.CH_ROUTE_C_grant
  if s.f b F.CH_ROUTE_A_valid = 0 then none
  else if land = 3 then some 2
  else if (span && decide (land = 0)) || (!span && decide (partOf d ≠ partOf q)) || (span && decide (partOf d = partOf q)) ||
      (span && !s.oneSpan (partOf q) (partOf d)) || decide (s.f (pt (partOf d)) (F.MS_MAP_absent.nth (localOf d)) = 1) ||
      s.badLatency q e then some 6
  else
    let r := rb_ d (s.f b F.CH_ROUTE_A_target)
    let ok := match land with
      | 0 => decide (1 ≤ grant) && decide (grant ≤ 64)
      | 1 => decide (1 ≤ grant) && decide (grant ≤ 16)
      | _ => decide (s.f r F.CH_RING_CFG_valid = 1) && decide (6 ≤ s.f r F.CH_RING_CFG_size_log2) &&
          decide (s.f r F.CH_RING_CFG_size_log2 ≤ 18) && decide (grant = 2 ^ s.f r F.CH_RING_CFG_size_log2) &&
          decide (s.f r F.CH_RING_CFG_base * 4096 % (64 * 2 ^ s.f r F.CH_RING_CFG_size_log2) = 0)
    if ok then none else some 2

/-- The check of every valid entry of a quire (R153). -/
def State.checkEntries (s : State) (q : QuireId) : State :=
  (List.range 256).foldl (fun t e =>
    match t.entryFault q e with
    | none => t.setF (eb q e) F.CH_ROUTE_A_cfg_err 0
    | some c => (t.setF (eb q e) F.CH_ROUTE_A_cfg_err 1).ev (.part (partOf q)) Ev.CH_CONFIG [q.val, e, c, 0xFF]) s

/-! Map switches (R203 to R205). -/

/-- A word of MS_MAP or MS_SPARE for a tile. -/
def mapWord : Option TileId → BitVec 32
  | some t => BitVec.ofNat 32 t.val
  | none => 0x100

/-- One byte for each of eight local quires, in two words (14 R381). -/
def packBytes (f : Nat → Nat) : List Nat :=
  [f 0 + f 1 * 2 ^ 8 + f 2 * 2 ^ 16 + f 3 * 2 ^ 24, f 4 + f 5 * 2 ^ 8 + f 6 * 2 ^ 16 + f 7 * 2 ^ 24]

/-- Members of a partition's span, itself included. -/
def State.spanOf (s : State) (p : PartId) : List PartId :=
  allParts.filter (fun r => decide (r = p) || decide (s.f (pt p) F.MS_SPAN_members / 2 ^ r.val % 2 = 1))

/-- The copies at some stops, and at their network interfaces, of a partition's map take it (R203, R204). -/
def State.copyTo (s : State) (p : PartId) (stops : List Nat) (ws : List (BitVec 32)) : State :=
  { s with mapCopies := stops.foldl (fun m i => spSet [] m (4 * i + p.val) ws) s.mapCopies }

/-- Every copy of a partition's map takes it. -/
def State.copyMap (s : State) (p : PartId) (ws : List (BitVec 32)) : State := s.copyTo p (List.range 42) ws

/-- The map of a partition as its registers show it. -/
def State.mapWords (s : State) (p : PartId) : List (BitVec 32) :=
  (List.range 8).map (fun i => s.rd (pt p) (R.MS_MAP.nth i)) ++ [s.rd (pt p) R.MS_SPARE]

/-- A partition's block lies in a half that takes no message now: a MAPSET, which always carries wake, clocks the half up and
waits at its kettle (R218). -/
def State.holdMapset (s : State) (p r : PartId) : State :=
  let s := s.wakeHalf r 0xFF
  if s.spine.any (fun m => m.held && decide (m.opcode = 0x09) && decide (m.arg = p.val) && decide (m.part = some r)) then s
  else s.spSend { part := some r, stop := 39, dest := 40 + r.val, cls := 0, opcode := 0x09, seq := 0, sentAt := 0, again := false,
                  arg := p.val, data := 0, lost := false, got := false, held := true, wake := true }

/-- The new map is broadcast in the reset class: every stop takes it, those of a clocked-down half once it is up (R204,
R218). What it replaced is kept, for a stop that drops its MAPSET (R210). -/
def State.sendMap (s : State) (p : PartId) : State :=
  let down := allParts.filter (fun r => s.halfDown r)
  let s : State := { s with mapBefore := spSet [] s.mapBefore p.val (spGet [] s.mapCopies (4 * 39 + p.val)) }
  let s := s.copyTo p ((List.range 42).filter (fun i => decide (36 ≤ i) || !down.contains (tilePart i))) (s.mapWords p)
  down.foldl (fun t r => t.holdMapset p r) s

/-- A new map is written: registers, the count of present quires. -/
def State.putMap (s : State) (p : PartId) (m : List (Option TileId)) (spare : Option TileId) : State :=
  let s := (List.range 8).foldl (fun t i => t.wr (pt p) (R.MS_MAP.nth i) (mapWord (m.getD i none))) s
  let s := s.wr (pt p) R.MS_SPARE (mapWord spare)
  let s := s.setF (pt p) F.RS_STATUS_present ((List.range 8).filter (fun i => (m.getD i none).isSome)).length
  s

/-- A new map is written, registers and every copy, as bring-up writes it. -/
def State.writeMap (s : State) (p : PartId) (m : List (Option TileId)) (spare : Option TileId) : State :=
  let s := s.putMap p m spare
  s.copyMap p (s.mapWords p)

/-- Entries that land on a quire that has become absent, and entries whose physical value now exceeds their stated one, set
`cfg_err` (R205, 06 R153). -/
def State.mapErrors (s : State) (p : PartId) : State :=
  (List.finRange 32).foldl (fun t q =>
    (List.range 256).foldl (fun t e =>
      let d := t.entryQuire q e
      if t.f (eb q e) F.CH_ROUTE_A_valid = 1 ∧ (partOf d = p ∨ partOf q = p) ∧
          (t.present d = false ∨ t.badLatency q e) then t.setF (eb q e) F.CH_ROUTE_A_cfg_err 1 else t) t) s

/-- Steps 3 and 4 of a map switch: the map applies everywhere, the generation advances, each quire owes the tip-in slip
(R204, 06 R153). -/
def State.applyMap (s : State) (p : PartId) (m : List (Option TileId)) (spare : Option TileId) (gone : Nat) : State :=
  let old (i : Nat) : Nat := s.f (pt p) (F.MS_MAP_tile.nth i)
  let was (i : Nat) : Bool := decide (s.f (pt p) (F.MS_MAP_absent.nth i) = 0)
  let moved (i : Nat) : Bool := match m.getD i none with
    | some t => !was i || decide (old i ≠ t.val)
    | none => was i
  let ow := packBytes (fun i => if moved i && was i then old i else 0xFF)
  let nw := packBytes (fun i => if moved i then (match m.getD i none with
    | some t => t.val
    | none => 0xFF) else 0xFF)
  let s := ((s.putMap p m spare).sendMap p).mapErrors p
  let s := (s.setF (pt p) F.MS_MAPGEN_gen (s.f (pt p) F.MS_MAPGEN_gen + 1)).incF (pt p) F.MS_MAPGEN_discarded gone
  let s := (List.range 8).foldl (fun t i => t.updQu (quireOf p i) (fun x => { x with tipinDue := x.tipinDue + 1 })) s
  let s : State := { s with stew := { s.stew with
    maps := (List.range 9).foldl (fun k i => spSet 0 k (16 * p.val + i)
      (match (if i = 8 then spare else m.getD i none) with
        | some t => t.val + 1
        | none => 0)) s.stew.maps } }
  s.ev (.part p) Ev.MS_MAP_SWITCH (ow ++ nw ++ [gone])

/-- The span of a partition is held, and its holds stand. -/
def State.spanHeld (s : State) (p : PartId) : Bool :=
  (s.spanOf p).all (fun r => decide (s.f (pt r) F.TK_STATUS_held = 1))

/-- Units to or from a partition that a switch waits for: its home units, and span units. -/
def State.unitsOf (s : State) (p : PartId) : Nat :=
  (s.flights.filter (fun m => decide (partOf m.src = p) || decide (partOf m.dst = p))).length +
  (s.creditFlights.filter (fun c => decide (partOf c.src = p) || decide (partOf c.from_ = p))).length

/-- What a partition has in flight is discarded. -/
def State.dropUnits (s : State) (p : PartId) : State :=
  ({ s with flights := s.flights.filter (fun m => decide (partOf m.src ≠ p) && decide (partOf m.dst ≠ p)),
            creditFlights := s.creditFlights.filter (fun c => decide (partOf c.src ≠ p) && decide (partOf c.from_ ≠ p)) }).settleAll

/-- The drain limit in ns (CH_DRAIN). -/
def State.drainLimit (s : State) (p : PartId) : Nat :=
  let n := s.f (pt p) F.CH_DRAIN_limit_ns
  if n = 0 then 8000 else n

/-- Step 2: what is in flight lands; at the drain limit what could not is discarded; the count. -/
def State.drainUnits (s : State) (p : PartId) : State × Nat :=
  let s := s.landAll ((List.range 8).map (quireOf p))
  let n := s.unitsOf p
  if n = 0 then (s, 0) else ((s.waitNs (s.ns + s.drainLimit p)).dropUnits p, n)

/-- MAP_SWITCH: the steward holds the span, and once it is held drains, writes the new map and releases the holds (R204). It
writes no map that leaves the partition's block (00_scope.md R4). -/
def execMapSwitch (p : PartId) (m : List (Option TileId)) (spare : Option TileId) (s : State) : Out :=
  if mapOk p m spare = false then .next s else
  let s := (s.spanOf p).foldl (fun t r => t.addHold r .mapSwitch) s
  if s.spanHeld p = false then .next s
  else
    let a := s.drainUnits p
    let s := a.1.waitCycle p ((a.1.part p).cyc + 64)
    let s := s.applyMap p m spare a.2
    .next ((s.spanOf p).foldl (fun t r => (t.dropHold r .mapSwitch).tryPending r false) s)

/-- SPINE_MAPSET: the MAPSET broadcast of a partition's map reaches a stop, which takes it. One that fails parity is dropped at
a stop on its way: that stop and every one that its branch would have fed keep the map before (R204, R210). Into a
clocked-down half it carries wake and is held (R218). -/
def execSpineMapset (p : PartId) (stop : Fin 42) (drop : Option Hop) (s : State) : Out :=
  match drop with
  | some h =>
    let way := spineRoute 39 stop.val
    let d := way.getD (min h.val (way.length - 1)) 39
    let s := s.copyTo p ((List.range 42).filter (fun i => feeds 39 d i)) (spGet [] s.mapBefore p.val)
    .next (s.parityDrop p d 0 0x09)
  | none =>
    if stop.val < 36 ∧ s.halfDown (tilePart stop.val) then .next (s.holdMapset p (tilePart stop.val))
    else .next (s.copyTo p [stop.val] (s.mapWords p))

end Sys2Proof.Machine
end

