-- ==== Sys2Proof/Machine/Notices.lean ====
section
/-! DEFINITION. Notices from their record to their delivery, and what the sequencer's doorbell bits do
(09_host_attachment.md R252 to R257, 06_channels.md R162, 01_the_tick.md R19, R27). -/

namespace Sys2Proof.Machine

/-- The words of a notice in a DOORBELL message's bookkeeping: LD, mailbox, bit. -/
def noticeArg (ld mailbox bit : Nat) : Nat := ld * 2 ^ 16 + mailbox * 2 ^ 8 + bit

/-- Where a mailbox lies on the spine: the steward port, or a sequencer (08_cord_mesh_and_spine.md, Table 4). -/
def boxDest (mailbox : Nat) : Nat := if mailbox = 0 then 37 else 31 + mailbox

/-! Messages that a kettle keeps or sends back (R205, R218). -/

/-- A message with wake set waits at its kettle until its half is at full clock. -/
def State.spHold (s : State) (p : PartId) (stop dest cls opcode arg : Nat) : State :=
  s.spSend { part := some p, stop := stop, dest := dest, cls := cls, opcode := opcode, seq := 0, sentAt := 0, again := false,
             arg := arg, data := 0, lost := false, got := false, held := true, wake := true }

/-- A message that its kettle refuses, and the ASLEEP notice that the kettle above its column sends back with its sequence. -/
def State.spRefuse (s : State) (p : PartId) (stop dest cls opcode arg cause : Nat) : State :=
  let m : SpMsg := { part := some p, stop := stop, dest := dest, cls := cls, opcode := opcode, seq := 0, sentAt := 0, again := false,
                     arg := arg, data := 0, lost := false, got := false, held := true, wake := false }
  let seq := spGet 0 s.spNext (stop * 8 + cls)
  let s := (s.spSend m).noteAsleep p dest cls opcode cause
  { s with spine := s.spine ++ [{ m with opcode := 0x7E, stop := 36 + stopCol (s.stopFor stop dest), dest := stop, arg := seq,
                                         data := cause, sentAt := s.ns, held := false }] }

/-- The hub sends a notice as a DOORBELL message; `held` at the kettle while its half is clocked up. -/
def State.sendNotice (s : State) (n : Notice) (held : Bool) : State :=
  let s := s.setPhase n .travelling
  s.spSend { part := boxPart n.mailbox, stop := s.stopOf .hub, dest := boxDest n.mailbox, cls := 2, opcode := 0x10, seq := 0,
             sentAt := 0, again := false, arg := noticeArg n.ld n.mailbox n.bit, data := 0, lost := false, got := false,
             held := held, wake := held }

/-- A notice that its mailbox holds goes to its receiver, or ends there: aborted by a fence, asleep, or after a wake
(R253, 11_fences_resets_recovery.md R286). -/
def State.forwardNotice (s : State) (n : Notice) : State :=
  match boxPart n.mailbox with
  | none => s.sendNotice n false
  | some p =>
    if s.fenced p then s.complete n Cs.aborted 0
    else if s.halfDown p then
      if s.f (pt p) F.MB_WAKE_wake / 2 ^ n.bit % 2 = 1 then
        let s := (s.wakeHalf p n.ld).sendNotice n true
        let due := match s.halfChange (halfOf p) with
          | some c => (if c.first = p then c.readyAt else c.secondAt) - s.ns
          | none => 0
        s.ev (.part p) Ev.MB_WAKE [n.ld, n.bit, due]
      else s.complete n Cs.asleep 0
    else s.sendNotice n false

/-- A notice record rings its bit (R252, R253): busy while the bit holds a notice, held pending while it is masked, aborted at once by a fence (R286). -/
def State.ringBit (s : State) (ld mailbox bit : Nat) (rcd : List (BitVec 8)) : State :=
  let n : Notice := { ld := ld, mailbox := mailbox, bit := bit, ptr := leAt rcd 0 8 % 2 ^ 38 / 64 * 64, tag := leAt rcd 8 4,
                      irq := decide (leAt rcd 12 4 % 2 = 1), vec := leAt rcd 12 4 / 2 % 64, phase := .masked }
  if (s.noticeAt mailbox bit (if mailbox = 0 then some ld else none)).isSome then s.pushComp n Cs.busy 0
  else
    let s := ({ s with notices := s.notices ++ [n] }).showPend mailbox
    match boxPart mailbox with
    | some p => if s.f (pt p) F.MB_MASK_mask / 2 ^ bit % 2 = 1 ∧ s.fenced p = false then s else s.forwardNotice n
    | none => s.forwardNotice n

/-- The steward's areas of a window answer its owner even while the device is withdrawn (11 R295). -/
def State.takesOwn (s : State) (ld : LdId) : Bool := s.stew.die && !s.insecure && (!s.withdrawn || decide (ld = s.owner))

/-- NOTICE_RECORD_WRITE: a host write at a byte offset of its control page, of whole notice records (R252, R235). -/
def execNoticeRecordWrite (ld : LdId) (off : BitVec 12) (bytes : List Byte) (poison : Bool) (s : State) : Out :=
  let o := off.toNat
  let n := bytes.length
  if s.takesOwn ld = false ∨ (s.withdrawn ∧ 0x200 ≤ o) then .next s
  else if poison then .next (s.writeDrop .hub ld.val o 0x10)
  else if 0xA00 < o + n then .next (s.writeDrop .hub ld.val o 0x15)
  else
    let first := (o + 15) / 16
    let s := if o % 16 ≠ 0 ∨ n % 16 ≠ 0 ∨ n = 0 then s.writeDrop .hub ld.val o 0x12 else s
    .next ((List.range ((o + n) / 16 - first)).foldl (fun t i =>
      let a := 16 * (first + i)
      let rcd := (bytes.drop (a - o)).take 16
      let m := a / 0x200
      let ok : Bool := match boxPart m with
        | some p => t.bound ld p
        | none => true
      if ok = false then t.writeDrop .hub ld.val a 0x11
      else ({ t with ctlPage := memWrite t.ctlPage (ld.val * 4096 + a) rcd }).ringBit ld.val m (a % 0x200 / 16) rcd) s)

/-- The command block that a steward notice names in the ringing LD's command area (R257). -/
def State.cmdBlock (s : State) (n : Notice) : List (BitVec 8) :=
  memRead s.cmdArea (n.ld * 65536 + (n.ptr + 65536 - 0x10000) % 65536) 64

/-- Its opcode. -/
def State.blockOpcode (s : State) (n : Notice) : Nat := leAt (s.cmdBlock n) 0 2

/-- The opcodes of the steward commands (R232, Table 2, and the commands of Clearason). -/
def stewardOps : List Nat :=
  [0x0101, 0x0102, 0x0201, 0x0301, 0x0302, 0x0401, 0x0501, 0x0502, 0x0503, 0x0504, 0x0505, 0x0601, 0x0602, 0x0701, 0x0801]

/-- The steward finds a command at the pointer: a block of the command area with an opcode it has and bytes 2 and 3 zero. -/
def State.isCommand (s : State) (n : Notice) : Bool :=
  decide (0x10000 ≤ n.ptr) && decide (n.ptr + 64 ≤ 0x20000) && stewardOps.contains (s.blockOpcode n) &&
    decide (leAt (s.cmdBlock n) 2 2 = 0)

/-- A notice is delivered to its mailbox (R253, R257): the steward acts on bit 0 only, and refuses a block that holds no
command of its list. -/
def State.deliverNotice (s : State) (ld mailbox bit : Nat) : State :=
  match s.noticeAt mailbox bit (some ld) with
  | none => s
  | some n =>
    match boxPart mailbox with
    | none =>
      if bit ≠ 0 then s.refuse n Cs.refused 0x90
      else if s.isCommand n then s.setPhase n .delivered
      else (s.ev .hub Ev.CFG_WRITE [ld, s.blockOpcode n, leAt (s.cmdBlock n) 4 4]).refuse n Cs.refused 0x91
    | some p => if s.fenced p then s.complete n Cs.aborted 0 else s.setPhase n .delivered

/-- MB_MASK takes a value, and notices held by bits now unmasked go on, in the order they were rung (R253). -/
def State.writeMask (s : State) (p : PartId) (v : BitVec 32) : State :=
  let s := s.setF (pt p) F.MB_MASK_mask v.toNat
  (s.notices.filter (fun n => decide (n.mailbox = p.val + 1) && decide (n.phase = .masked) &&
    decide (v.toNat / 2 ^ n.bit % 2 = 0))).foldl (fun t n => t.forwardNotice n) s

/-- MB_MASK_WRITE. -/
def execMbMaskWrite (w : Writer) (p : PartId) (v : Word) (s : State) : Out :=
  .next (s.asWrite w (pt p + R.MB_MASK.off) v.toNat (fun t => t.writeMask p v))

/-! What the bits do (Table 8). -/

/-- The delivered notice of a sequencer's bit. -/
def State.delivered (s : State) (p : PartId) (bit : Nat) : Option Notice :=
  s.notices.find? (fun n => decide (n.mailbox = p.val + 1) && decide (n.bit = bit) && decide (n.phase = .delivered))

def State.tickNow (s : State) (p : PartId) : Nat := s.cnt (pt p) R.TK_COUNT_LO R.TK_COUNT_HI

/-- A doorbell may strike here: STRUCK mode, `strike_doorbell`, a running generator. -/
def State.bellStrikes (s : State) (p : PartId) : Bool :=
  decide (s.mode p = 1) && decide (s.f (pt p) F.TK_MODE_strike_doorbell = 1) && s.running p

/-- DOORBELL_STRIKE: bit 0 (R19). -/
def execDoorbellStrike (p : PartId) (s : State) : Out :=
  match s.delivered p 0 with
  | none => .next s
  | some n =>
    if s.bellStrikes p = false then .next (s.refuse n Cs.refused 0x91)
    else .next ((s.setPhase n .acting).strike p)

/-- DOORBELL_HOLD: bit 3 completes when TK_STATUS.held is 1 (R27). -/
def execDoorbellHold (p : PartId) (s : State) : Out :=
  match s.delivered p 3 with
  | none => .next s
  | some n => .next ((s.setPhase n .acting).holdOn p)

/-- DOORBELL_RELEASE: bit 4 completes at once (R27). -/
def execDoorbellRelease (p : PartId) (s : State) : Out :=
  match s.delivered p 4 with
  | none => .next s
  | some n =>
    let s := s.holdOff p
    .next (s.complete n Cs.done (s.tickNow p))

/-- DOORBELL_RESERVED: bits 5 to 7 are refused at once. -/
def execDoorbellReserved (p : PartId) (bit : Fin 3) (s : State) : Out :=
  match s.delivered p (5 + bit.val) with
  | none => .next s
  | some n => .next (s.refuse n Cs.refused 0x90)

/-- DOORBELL_INJECT: bits 8 to 31 bind a control token to the next tick, and may strike (R256); a release before run cycle
15 is not valid (DEDUCED). -/
def execDoorbellInject (p : PartId) (i : Fin 24) (s : State) : Out :=
  match s.delivered p (8 + i.val) with
  | none => .next s
  | some n =>
    let f (g : Fld) := s.f (pt p) (g.nth i.val)
    if f F.MB_INJ_valid = 0 ∨ f F.MB_INJ_release < 15 then .next (s.refuse n Cs.refused 0x93)
    else
      let s := s.setPhase n .acting
      .next (if f F.MB_INJ_strike = 1 ∧ s.bellStrikes p then s.strike p else s)

/-- The writes of a reconfiguration's entries: quire, entry, CH_ROUTE_A to C (R162). -/
def State.writeEntries (s : State) (l : List EntryWrite) : State :=
  l.foldl (fun t e =>
    let b := eb e.quire e.entry.val
    ((t.wr b R.CH_ROUTE_A (e.a &&& 0x0FFFFFFF)).wr b R.CH_ROUTE_B (e.b &&& 0x000FFFFF)).wr b R.CH_ROUTE_C
      (e.c &&& 0x0007FFFF)) s

/-- DOORBELL_RECONFIGURATION: bit 2: the hold, the drain of the named quires, the entries of the block at the pointer, the
commit, the release (R162). Until the partition is held the notice acts on. -/
def execDoorbellReconfiguration (p : PartId) (quires : BitVec 8) (l : List EntryWrite) (s : State) : Out :=
  match s.notices.find? (fun n => decide (n.mailbox = p.val + 1) && decide (n.bit = 2) &&
    (decide (n.phase = .delivered) || decide (n.phase = .acting))) with
  | none => .next s
  | some n =>
    let s := (s.setPhase n .acting).addHold p .reconf
    if s.f (pt p) F.TK_STATUS_held = 0 then .next s
    else
      let s := (s.setF (pt p) F.CH_RECONF_quires quires.toNat).startDrain p
      let s := (s.endDrain p).writeEntries (l.filter (fun e => decide (partOf e.quire = p)))
      let s := (s.commit p).dropHold p .reconf
      let s := s.tryPending p false
      .next (match s.notices.find? (fun m => decide (m.mailbox = p.val + 1) && decide (m.bit = 2)) with
        | some m => s.complete m Cs.done (s.rd (pt p) R.CH_RECONF).toNat
        | none => s)

end Sys2Proof.Machine
end

