-- ==== Sys2Proof/Machine/Rails.lean ====
section
/-! DEFINITION. What the loss of the die's rails or a device reset clears, and what the steward writes to the colophon by
itself (11_fences_resets_recovery.md R284, 14_event_recorder_and_colophon.md R355, R359, 15_module_power_and_signals.md R362,
R370). -/

namespace Sys2Proof.Machine

/-- A record that the steward writes into the colophon itself, with no ring to copy it from (13 R323, R340, 15 R362). -/
def State.colRecord (s : State) (x : Src) (code : Nat) (cap : List Nat) : State :=
  let e : EvRec :=
    { code := code, source := s.srcWord x, time := s.ns, rep := 0, sev := evSev code, gap := false, staged := false,
      words := cap.length, snap := cap.map (fun v => v % 2 ^ 32), update := false }
  let n := s.stew.colNext
  let s := s.colWrite 2 (n % 65536 * 64) (e.bytes (s.src x).seq)
  let l := s.stew.errors ++ [(x.key, 2 ^ 64, s.ns)]
  { s with stew := { s.stew with colNext := n + 1, errors := l.drop (l.length - 65536) } }

/-- What a source keeps over a device reset: its sequence, its head, what it lost with its staged records counted in, and
the records on their way (R359; the last DEDUCED). -/
def State.srcKept (s : State) (k : Nat) (r : SrcSt) : SrcSt :=
  { r with last := none, folded := false, gap := false,
           lost := min (2 ^ 32 - 1) (r.lost + (s.staging.filter (fun a => decide (a.1 = k))).length) }

/-- Everything on the die at its reset value; partition memory and its rings are kept where LPDDR5X keeps its rails. -/
def State.dieClear (s : State) (keepMem : Bool) : State :=
  { State.reset with
    pending := s.pending, now := s.now, timeBase := s.timeBase, freeCount := s.freeCount,
    mem := if keepMem then s.mem else [], memMark := if keepMem then s.memMark else [],
    srcs := if keepMem then s.srcs.map (fun c => (c.1, s.srcKept c.1 c.2)) else [],
    triggers := s.stew.triggers, charges := s.charges, dramFixes := s.dramFixes, sparesUsed := s.sparesUsed, remaps := s.remaps,
    trackers := s.trackers, msix := s.msix,
    tickIn := s.tickIn,
    stew := { s.stew with attest := [], devTest := none, devNotice := none, wipes := [], resetReqs := [], tileFail := [],
                          colPend := if keepMem then s.stew.colPend else [] } }

/-- The die rails go off, and with them PWR_GOOD (15 R370); the steward records the time (14 R342, DEDUCED). -/
def State.dieOff (s : State) (keepMem : Bool) : State :=
  let t := s.dieClear keepMem
  { t with stew := { t.stew with die := false, pwrGood := false, lastTime := max t.stew.lastTime s.ns } }

/-- The register that the steward keeps over a device reset (11_fences_resets_recovery.md, RS_DEVICE). -/
def State.keepDevice (s old : State) : State := s.wr hub R.RS_DEVICE (old.rd hub R.RS_DEVICE)

end Sys2Proof.Machine
end

