-- ==== Sys2Proof/Machine/Power.lean ====
section
/-! DEFINITION. Power: budgets, caps, the input, the tick pin's register, clock spread, thermal trip
(15_module_power_and_signals.md R361 to R375, 01_the_tick.md R33, R34). -/

namespace Sys2Proof.Machine

/-! Budgets (R365, 01_the_tick.md R34). -/

def State.budgetOf (s : State) (p : PartId) : Nat := s.f (pt p) F.PW_BUDGET_watts

/-- The sum of the four budgets with one at a value. -/
def State.budgetSum (s : State) (p : PartId) (v : Nat) : Nat :=
  allParts.foldl (fun a r => a + (if r = p then v else s.budgetOf r)) 0

/-- The cause code of a budget write: accepted, out of range, or too large a sum. -/
def State.budgetCause (s : State) (p : PartId) (v : Nat) : Nat :=
  if v < 80 ∨ 600 < v then 0x70 else if 1200 < s.budgetSum p v then 0x71 else 0x72

/-- A budget write: it stands from the partition's next frame, or is refused. -/
def State.setBudget (s : State) (p : PartId) (v ld : Nat) : State :=
  let old := s.budgetOf p
  let sum := s.budgetSum p v
  let c := s.budgetCause p v
  if c ≠ 0x72 then s.raise (.part p) Ev.PW_BUDGET 1 [old, v, sum, c, ld]
  else
    let s := s.setF (pt p) F.PW_BUDGET_watts v
    let s : State := { s with stew := { s.stew with keepBudget := spSet 300 s.stew.keepBudget p.val v } }
    let s := s.ev (.part p) Ev.PW_BUDGET [old, v, sum, c, ld]
    if v < old ∧ v < s.f (pt p) F.PW_EST_watts then s.ev (.part p) Ev.BUDGET_BELOW_SCHEDULE [] else s

/-- A value cut to a field. -/
def cut (f : Fld) (v : BitVec 32) : Nat := f.get v

/-- PW_BUDGET_WRITE (R365). -/
def execPwBudgetWrite (w : Writer) (p : PartId) (v : Word) (s : State) : Out :=
  .next (s.asWrite w (pt p + R.PW_BUDGET.off) v.toNat (fun t => t.setBudget p (cut F.PW_BUDGET_watts v) w.word))

/-! Caps (R366, 01_the_tick.md R33). -/

/-- The cap of a partition engages: press issue is withheld. -/
def State.capOn (s : State) (p : PartId) : State :=
  let s := (s.setF (pt p) F.PW_PART_cap 1).incF (pt p) F.PW_PART_cap_events
  (s.updPart p (fun x => { x with capAt := some x.cyc })).ev (.part p) Ev.POWER_CAP []

/-- The position of the next weight read of a press moves past the cycles withheld. -/
def Press.resumeAt (x : Press) (pos : Nat) : Press :=
  { x with run := x.run.map (fun r => { r with readAt := max r.readAt pos }),
           queue := x.queue.map (fun d => { d with enterAt := max d.enterAt pos }) }

/-- The cap of a partition releases: the cycles withheld count in every open tick. -/
def State.capOff (s : State) (p : PartId) : State :=
  let s := s.setF (pt p) F.PW_PART_cap 0
  let s := (s.quiresOf p).foldl (fun t q =>
    let pos := t.posNow q
    let n := t.capCycles q
    t.updQu q (fun x => if x.open_ then { x with powerCap := x.powerCap + n, pa := x.pa.resumeAt pos, pb := x.pb.resumeAt pos }
      else x)) s
  s.updPart p (fun x => { x with capAt := none })

/-- POWER_SAMPLE: the partitions' power averaged over 20 µs and over 1 ms, and the input power over 1 ms, in W. -/
def execPowerSample (fast slow : List Nat) (input : Nat) (s : State) : Out :=
  if s.stew.die = false then .next s
  else
  let s := allParts.foldl (fun t p => t.setF (pt p) F.PW_PART_watts (min 2047 (slow.getD p.val 0))) s
  let s := s.setF hub F.PW_MODULE_watts (min 4095 input)
  let was := decide (s.f hub F.PW_MODULE_cap = 1)
  let mod := if was then decide (1200 < input) else decide (1250 < input)
  let s := s.setF hub F.PW_MODULE_cap (if mod then 1 else 0)
  let s := if mod && !was then
      (s.incF hub F.PW_MODULE_cap_events).ev .hub Ev.PW_MODULE_CAP (input :: (List.range 4).map (fun i => slow.getD i 0))
    else s
  .next (allParts.foldl (fun t p =>
    let x := t.part p
    let w := fast.getD p.val 0
    let own := if x.capOwn then decide (x.budget < w) else decide (105 * x.budget < 100 * w)
    let t := t.updPart p (fun y => { y with capOwn := own })
    let on := own || (mod && t.running p)
    let is := decide (t.f (pt p) F.PW_PART_cap = 1)
    if on && !is then t.capOn p else if is && !on then t.capOff p else t) s)

/-! Clock spread (R375). -/

/-- PW_CLK takes a value; a change of `spread` is a clock step of both halves at the point they run at. -/
def State.setSpread (s : State) (v : Nat) : State :=
  let old := s.f hub F.PW_CLK_spread
  let s := s.setF hub F.PW_CLK_spread v
  let s : State := { s with stew := { s.stew with keepClk := v } }
  if v = old then s
  else
    ([false, true] : List Half).foldl (fun t h =>
      if t.f hub (halfFld h) ≠ 0 ∨ t.halfClock h = 3 then t
      else
        let t := t.dueStep h ((t.therm h).stepTo.getD (t.halfClock h))
        t.updTherm h (fun x => { x with spread := !x.spread })) s

/-- PW_CLK_WRITE. -/
def execPwClkWrite (w : Writer) (v : Word) (s : State) : Out :=
  .next (s.asWrite w R.PW_CLK.off v.toNat (fun t => t.setSpread (cut F.PW_CLK_spread v)))

/-! The tick pins (R374). -/

/-- HB_TICK_IO takes a value, after any pulse in progress. -/
def State.writeTickIo (s : State) (v : BitVec 32) : State :=
  let s := s.settleIo
  let s : State := { s with stew := { s.stew with keepIo := v.toNat % 4096 } }
  ({ s with ioNext := some v }).settleIo

/-- HB_TICK_IO_WRITE. -/
def execHbTickIoWrite (w : Writer) (v : Word) (s : State) : Out :=
  .next (s.asWrite w R.HB_TICK_IO.off v.toNat (fun t => t.writeTickIo v))

/-! The input and the trip (R361, R362, R367). -/

/-- The band of an input voltage in mV: 0 in rating, 1 outside the ratings, 2 fault (Table 2). -/
def inputBand (mv : Nat) : Nat :=
  if 44000 ≤ mv ∧ mv ≤ 58000 then 0 else if 42000 ≤ mv ∧ mv ≤ 60000 then 1 else 2

/-- The cause code of a band. -/
def bandCause (b : Nat) : Nat := 0x78 + b

/-- An input fault: rails and memory are lost, the steward writes what it holds to the colophon and stops. After a shutdown
test it is the removal of 52 V that the module is ready for, and no fault (R362, 12_self_test_and_rotation.md R309). -/
def State.inputFault (s : State) (mv ca : Nat) : State :=
  let ready := decide (s.stew.devTest = some 3)
  let s := if ready then s else (s.colRecord .steward Ev.PW_INPUT [mv, ca, bandCause 2]).flushRam
  let s := s.dieOff false
  { s with stew := { s.stew with running := false, recovery := none, faultPin := s.stew.faultPin || !ready } }

/-- INPUT_SAMPLE: the input in mV and in units of 10 mA, each averaged over 1 ms. -/
def execInputSample (mv ca : BitVec 16) (s : State) : Out :=
  let b := inputBand mv.toNat
  let old := s.stew.band
  let s : State := if b = old then s else { s with stew := { s.stew with band := b } }
  if s.stew.running = false then .next s
  else if b = 2 then .next (s.inputFault mv.toNat ca.toNat)
  else if s.stew.die = false then .next s
  else
    let s := (s.setF hub F.PW_INPUT_mv mv.toNat).setF hub F.PW_INPUT_centiamps ca.toNat
    let s := s.setF hub F.PW_MODULE_out_of_rating (if b = 0 then 0 else 1)
    let s := if b = old then s else s.ev .steward Ev.PW_INPUT [mv.toNat, ca.toNat, bandCause b]
    .next s.evalShields

/-- The rails go off for a temperature; only new power brings the module back (Table 4). -/
def State.trip (s : State) (sensor : Nat) (t : Int) (hot : Option Nat) : State :=
  let ms := match hot with
    | some a => (s.ns - a) / 1000000
    | none => 0
  let s := (s.colRecord .steward Ev.THERM_TRIP [sensor, tempByte t, ms]).dieOff false
  { s with stew := { s.stew with faultPin := true } }

/-- A sensor list with its numbers: junctions 0 to 71, hub 72 to 75. -/
def State.hotSensor (s : State) : Option Nat :=
  (List.range 76).find? (fun i => decide (105 ≤ s.stew.temps.getD i (-40)))

/-- THERMAL_TRIP: a sensor at 105 degrees, or a junction at or above 95 for 1 s. -/
def execThermalTrip (s : State) : Out :=
  if s.stew.die = false then .next s
  else
    let at_ (i : Nat) : Int := s.stew.temps.getD i (-40)
    let since_ (i : Nat) : Option Nat := if 72 ≤ i then s.stew.hub95 else (s.therm (tileHalf (i / 2))).above95
    match s.hotSensor with
    | some i => .next (s.trip i (at_ i) (since_ i))
    | none =>
      if 105 ≤ s.f hub F.PW_TEMP_plate then .next (s.trip 76 (s.f hub F.PW_TEMP_plate : Nat) none)
      else match (List.range 76).find? (fun i => decide (95 ≤ at_ i) && (since_ i).isSome) with
        | none => .next s
        | some i =>
          let t := (since_ i).getD 0
          .next ((s.waitNs (t + 1000000000)).trip i (at_ i) (some t))

end Sys2Proof.Machine
end

