-- ==== Sys2Proof/Machine/RegWrite.lean ====
section
/-! DEFINITION. Register writes: what each register's write does behind the gate of Gate.lean (00_scope.md R9, R10 and the
register tables of the other files), and the commands that are a write of one register. -/

namespace Sys2Proof.Machine

/-! Registers of the checking and self-test chapters with behaviour of their own. -/

/-- The range of a master digest run is refused: empty, past the program space, or in the reserve (10 R270). -/
def State.mdRefused (s : State) (p : PartId) : Bool :=
  let n := s.f (pt p) F.IN_MD_LEN_units
  decide (n = 0) || decide (progEnd < s.f (pt p) F.IN_MD_BASE_pma * 64 + n * 64)

/-- IN_MD_CTRL.go (10 R270). -/
def State.mdGo (s : State) (p : PartId) : State :=
  if s.f (pt p) F.IN_MD_CTRL_busy = 1 then s
  else if s.mdRefused p then
    (s.setF (pt p) F.IN_MD_CTRL_status 1).setF (pt p) F.IN_MD_CTRL_runs (s.f (pt p) F.IN_MD_CTRL_runs + 1)
  else
    let s := s.setF (pt p) F.IN_MD_CTRL_busy 1
    let run : MdRun := { base := s.f (pt p) F.IN_MD_BASE_pma * 64, units := s.f (pt p) F.IN_MD_LEN_units, startAt := s.ns, torn := false }
    s.updPart p (fun x => { x with md := some run })

/-- BT_HOLDOFF.minutes (12 R319). -/
def State.setHoldoff (s : State) (p : PartId) (minutes : Nat) : State :=
  s.updPart p (fun x => { x with holdoff := if minutes = 0 then 0 else s.ns + min 240 minutes * 60000000000 })

/-- A test of a quire of the partition under a window is in progress (12 R317). -/
def State.windowTest (s : State) (p : PartId) : Bool :=
  s.runs.any (fun r => match r.quire with
    | some q => decide (partOf q = p)
    | none => false)

/-- The window closes: its hold goes unless a test is still in progress (12 R317, Table 5). -/
def State.closeWindow (s : State) (p : PartId) : State :=
  let s := s.updPart p (fun x => { x with window := none })
  if s.windowTest p then s else (s.dropHold p .testWindow).tryPending p false

/-- BT_WINDOW.grant_ms: a window with a hold from the next frame close where quire tests are held, or its end (12 R317). -/
def State.setWindow (s : State) (p : PartId) (ms : Nat) : State :=
  if ms = 0 then s.closeWindow p
  else
    let s := s.updPart p (fun x => { x with window := some (s.ns + ms * 1000000) })
    if (s.part p).heldTests.isEmpty then s else s.addHold p .testWindow

/-! The dispatch of a write. -/

/-- A plain write: RW bits take the value, W1C bits clear, W1S bits set (00_scope.md, Table 8). -/
def State.plainWrite (s : State) (addr : Nat) (v : BitVec 32) : State :=
  match accOf addr with
  | none => s
  | some a =>
    let w := s.rdAddr a addr
    let rw := BitVec.ofNat 32 a.rw
    s.wrAddr a addr ((((w &&& ~~~rw) ||| (v &&& rw)) &&& ~~~(v &&& BitVec.ofNat 32 a.w1c)) ||| (v &&& BitVec.ofNat 32 a.w1s))

/-- A write to the hub block. -/
def State.hubWrite (s : State) (w : Writer) (off : Nat) (v : BitVec 32) : State :=
  if off = R.MS_HALF_REQ.off then
    if F.MS_HALF_REQ_go.get v = 1 then
      s.halfReq (decide (F.MS_HALF_REQ_half.get v = 1)) (F.MS_HALF_REQ_target.get v) w.word
    else s
  else if off = R.EV_TRIG_CODE.off then s.writeTrig 0 v
  else if R.EV_TRIG_ADDR.off ≤ off ∧ off < R.EV_TRIG_ADDR.off + 40 then
    s.writeTrig (1 + (off - R.EV_TRIG_ADDR.off) / 4) v
  else if off = R.PW_CLK.off then s.setSpread (F.PW_CLK_spread.get v)
  else if off = R.HB_TICK_IO.off then s.writeTickIo v
  else s.plainWrite off v

/-- A write to CH_RECONF: the quires, then the clearing of `refused`, a drain, a commit (06_channels.md R162). -/
def State.writeReconf (s : State) (p : PartId) (v : BitVec 32) : State :=
  let s := s.setF (pt p) F.CH_RECONF_quires (F.CH_RECONF_quires.get v)
  let s := if F.CH_RECONF_refused.get v = 1 then s.setF (pt p) F.CH_RECONF_refused 0 else s
  let s := if F.CH_RECONF_drain.get v = 1 then s.startDrain p else s
  if F.CH_RECONF_commit.get v = 1 then s.commit p else s

/-- A write to an inbox ring's registers. -/
def State.inboxWrite (s : State) (p : PartId) (off : Nat) (v : BitVec 32) : State :=
  let r := (off - 0x640) / 0x20 % 4
  if (off - 0x640) % 0x20 = R.CX_IN_CTRL.off then
    let s := if F.CX_IN_CTRL_skip.get v = 1 then s.skipHead p r else s
    if F.CX_IN_CTRL_reset.get v = 1 then s.resetRing p r else s
  else s.plainWrite (pt p + off) v

/-- A write to a partition's control block. -/
def State.partWrite (s : State) (w : Writer) (p : PartId) (off : Nat) (v : BitVec 32) : State :=
  if off = R.TK_CTRL.off then s.writeCtrl p w.word v
  else if off = R.TK_STRIKE.off then (if F.TK_STRIKE_strike.get v = 1 then s.strike p else s)
  else if R.TK_MODE.off ≤ off ∧ off ≤ R.TK_FRAME.off then
    if s.runsFree p then s.ev (.part p) Ev.TICK_CONFIG [3] else s.plainWrite (pt p + off) v
  else if off = R.CH_MODE.off then
    if s.runsFree p then s.ev (.part p) Ev.CH_CONFIG [0, 0, 3, w.word] else s.plainWrite (pt p + off) v
  else if off = R.CH_RECONF.off then s.writeReconf p v
  else if off = R.PG_UPL_FLUSH.off then (if v.toNat % 2 = 1 then s.uploadFlush p else s)
  else if 0x1000 ≤ off ∧ off < 0x1800 then
    if s.runsFree p then s.ev (.part p) Ev.PG_CONFIG_IGNORED [(s.peek (pt p + off)).toNat, w.word]
    else s.plainWrite (pt p + off) v
  else if 0x640 ≤ off ∧ off < 0x6C0 then s.inboxWrite p off v
  else if off = R.MB_MASK.off then s.writeMask p v
  else if off = R.IN_MD_CTRL.off then (if F.IN_MD_CTRL_go.get v = 1 then s.mdGo p else s)
  else if off = R.PW_BUDGET.off then s.setBudget p (F.PW_BUDGET_watts.get v) w.word
  else if off = R.BT_HOLDOFF.off then s.setHoldoff p (F.BT_HOLDOFF_minutes.get v)
  else if off = R.BT_WINDOW.off then s.setWindow p (F.BT_WINDOW_grant_ms.get v)
  else s.plainWrite (pt p + off) v

/-- A write to PS_MODE: check-behind mode needs its licence, and the check column bears on shielded mode (13 R333, 10
R264). -/
def State.writePsMode (s : State) (w : Writer) (q : QuireId) (v : BitVec 32) : State :=
  let p := partOf q
  let deny : Bool := decide (F.PS_MODE_behind.get v = 1) && decide (s.f hub F.LC_FEATURES_replay = 0)
  let s := if deny then s.noteFeature p 2 w.word else s
  let v := if deny then F.PS_MODE_behind.put v 0 else v
  (s.plainWrite (qb q + R.PS_MODE.off) v).evalShield p w.word

/-- A write to a quire's block. -/
def State.quireWrite (s : State) (w : Writer) (q : QuireId) (off : Nat) (v : BitVec 32) : State :=
  let p := partOf q
  if 0x1000 ≤ off ∧ off < 0x5000 then
    if off % 0x100 = R.ST_CTRL.off ∧ F.ST_CTRL_reset.get v = 1 then
      s.stCtrlReset w ⟨q, ⟨(off - 0x1000) / 0x100 % 64, by omega⟩⟩
    else s
  else if 0x6000 ≤ off ∧ off < 0x7000 then
    if s.runsFree p then
      if off % 16 < 12 then s.ev (.part p) Ev.CH_CONFIG [q.val, (off - 0x6000) / 16, 3, w.word] else s
    else s.plainWrite (qb q + off) v
  else if 0x7000 ≤ off ∧ off < 0x7100 then
    if s.runsFree p then
      if off % 16 < 8 then s.ev (.part p) Ev.CH_CONFIG [q.val, (off - 0x7000) / 16, 3, w.word] else s
    else s.plainWrite (qb q + off) v
  else if R.LF_CLASS.off ≤ off ∧ off < R.LF_CLASS.off + 128 then s.classWrite w q ((off - R.LF_CLASS.off) / 4) v
  else if off = R.LF_CTRL.off then (s.plainWrite (qb q + off) v).evalShield p w.word
  else if off = R.PS_MODE.off then s.writePsMode w q v
  else s.plainWrite (qb q + off) v

/-- What a register write does once it is let through. -/
def State.regEffect (s : State) (w : Writer) (addr : Nat) (v : BitVec 32) : State :=
  if addr % 4 ≠ 0 then s
  else match blockPart addr with
    | none => if addr < 0x1000000 then s.hubWrite w addr v else s
    | some p =>
      let o := addr % 0x1000000
      if o < 0x800000 then s.partWrite w p o v
      else if o < 0x880000 then s.quireWrite w (quireOf p ((o - 0x800000) / 0x10000)) (o % 0x10000) v
      else s

/-- A write that is ignored while its partition runs and is not held, and recorded as EV_CFG_WRITE with cause "running"
(09_host_attachment.md, CX_IN_CFG to CX_IN_LAND and CX_SLOT_CFG, CX_SLOT_SRC). -/
def State.cfgIgnored (s : State) (addr : Nat) : Bool :=
  match blockPart addr with
  | none => false
  | some p =>
    let o := addr % 0x1000000
    s.runsFree p && ((decide (0x640 ≤ o) && decide (o < 0x6C0) && decide ((o - 0x640) % 0x20 ≤ R.CX_IN_LAND.off)) ||
      (decide (0x2000 ≤ o) && decide (o < 0x2200) && decide ((o - 0x2000) % 0x10 ≤ R.CX_SLOT_SRC.off)))

/-- A write to any register, through the gate. -/
def State.regWrite (s : State) (w : Writer) (addr : Nat) (v : BitVec 32) : State :=
  if addr % 4 ≠ 0 then s
  else if s.gateOf w addr = .pass ∧ s.cfgIgnored addr then s.ev (cfgSrc addr) Ev.CFG_WRITE [w.word, addr, v.toNat, 3]
  else s.asWrite w addr v.toNat (fun t => t.regEffect w addr v)

/-! The commands. -/

/-- REGISTER_WRITE: an access of another width than 32 bits completes without effect (00_scope.md R9, R10). -/
def execRegisterWrite (w : Writer) (r : RegAt) (v : Word) (s : State) : Out :=
  .next (if r.width = .w32 then s.regWrite w r.addr.toNat v else s)

/-- LF_CLASS_WRITE (05_leaf_store.md R124). -/
def execLfClassWrite (w : Writer) (q : QuireId) (i : Fin 32) (v : Word) (s : State) : Out :=
  .next (s.asWrite w (qb q + (R.LF_CLASS.nth i.val).off) v.toNat (fun t => t.classWrite w q i.val v))

/-- ST_CTRL_RESET (04_stitchers.md R110). -/
def execStCtrlReset (w : Writer) (u : StId) (s : State) : Out :=
  .next (s.asWrite w (sb u + R.ST_CTRL.off) 1 (fun t => t.stCtrlReset w u))

/-- ST_FAULT_SUSPECT_CLEAR: a write of 1 to ST_FAULT.suspect (04_stitchers.md R115). -/
def execStFaultSuspectClear (w : Writer) (q : QuireId) (s : State) : Out :=
  .next (s.asWrite w (qb q + R.ST_FAULT.off) (2 ^ F.ST_FAULT_suspect.lo) (fun t => t.setF (qb q) F.ST_FAULT_suspect 0))

/-- PS_VOTE_SUSPECT_CLEAR: a write of 1 to PS_VOTE.suspect (03_presses.md R84). -/
def execPsVoteSuspectClear (w : Writer) (q : QuireId) (s : State) : Out :=
  .next (s.asWrite w (qb q + R.PS_VOTE.off) (2 ^ F.PS_VOTE_suspect.lo) (fun t => t.setF (qb q) F.PS_VOTE_suspect 0))

/-- RECONF_DRAIN (06_channels.md R162). -/
def execReconfDrain (w : Writer) (p : PartId) (s : State) : Out :=
  .next (s.asWrite w (pt p + R.CH_RECONF.off) (s.f (pt p) F.CH_RECONF_quires + 2 ^ F.CH_RECONF_drain.lo)
    (fun t => t.startDrain p))

/-- RECONF_COMMIT (06_channels.md R162). -/
def execReconfCommit (w : Writer) (p : PartId) (s : State) : Out :=
  .next (s.asWrite w (pt p + R.CH_RECONF.off) (s.f (pt p) F.CH_RECONF_quires + 2 ^ F.CH_RECONF_commit.lo)
    (fun t => t.commit p))

/-- RECONF_REFUSED_CLEAR: a write of 1 to CH_RECONF.refused. -/
def execReconfRefusedClear (w : Writer) (p : PartId) (s : State) : Out :=
  .next (s.asWrite w (pt p + R.CH_RECONF.off) (s.f (pt p) F.CH_RECONF_quires + 2 ^ F.CH_RECONF_refused.lo)
    (fun t => t.setF (pt p) F.CH_RECONF_refused 0))

/-- UPLOAD_FLUSH (07_catchword_paging.md R188). -/
def execUploadFlush (w : Writer) (p : PartId) (s : State) : Out :=
  .next (s.asWrite w (pt p + R.PG_UPL_FLUSH.off) 1 (fun t => t.uploadFlush p))

/-- MD_GO (10_collation_and_checking.md R270). -/
def execMdGo (w : Writer) (p : PartId) (s : State) : Out :=
  .next (s.asWrite w (pt p + R.IN_MD_CTRL.off) 1 (fun t => t.mdGo p))

/-- BT_HOLDOFF_WRITE (12_self_test_and_rotation.md R319). -/
def execBtHoldoffWrite (w : Writer) (p : PartId) (minutes : Byte) (s : State) : Out :=
  .next (s.asWrite w (pt p + R.BT_HOLDOFF.off) minutes.toNat (fun t => t.setHoldoff p minutes.toNat))

/-- BT_WINDOW_WRITE (12_self_test_and_rotation.md R317). -/
def execBtWindowWrite (w : Writer) (p : PartId) (ms : BitVec 16) (s : State) : Out :=
  .next (s.asWrite w (pt p + R.BT_WINDOW.off) ms.toNat (fun t => t.setWindow p ms.toNat))

end Sys2Proof.Machine
end

