-- ==== Sys2Proof/Machine/Load.lean ====
section
/-! DEFINITION. Program load: the images, the broadcast, the rounds, the seal, and the reload of quires and leaves
(08_cord_mesh_and_spine.md R212, R213, 04_stitchers.md R111, 06_channels.md R162, 01_the_tick.md R32,
11_fences_resets_recovery.md R288, R289). -/

namespace Sys2Proof.Machine

/-! Images by chunk (R212). -/

/-- Chunk `i` of a space: 32 bytes. -/
def chunkOf (l : List (BitVec 8)) (i : Nat) : List (BitVec 8) :=
  let b := (l.drop (32 * i)).take 32
  b ++ List.replicate (32 - b.length) 0

/-- The bytes of a stitcher's image in a load space. -/
def imBytes (im : StImage) : Nat → List (BitVec 8)
  | 0 => im.prog.take 4096
  | 1 => im.pocket.take 16384
  | _ => im.cfg

/-- The chunks of a space. -/
def imCount (im : StImage) (sp : Nat) : Nat := if sp = 2 then 5 else ((imBytes im sp).length + 31) / 32

/-- Every chunk of an image: space and chunk. -/
def imChunks (im : StImage) : List (Nat × Nat) :=
  ([0, 1, 2] : List Nat).flatMap (fun sp => (List.range (imCount im sp)).map (fun i => (sp, i)))

/-- A little-endian word of a byte list. -/
def wordAt (l : List (BitVec 8)) (i : Nat) : BitVec 32 := BitVec.ofNat 32 (leAt l (4 * i) 4)

/-- A chunk of program or pocket memory is written: words written lose their errors (R113). -/
def Stitcher.putChunk (x : Stitcher) (sp i : Nat) (b : List (BitVec 8)) : Stitcher :=
  let x := { x with loadMap := spSet false x.loadMap (1024 * sp + i) true }
  match sp with
  | 0 => { x with prog := (List.range 8).foldl (fun m k => spSet 0 m ((8 * i + k) % 1024) (wordAt b k)) x.prog,
                  memErr := (List.range 4).foldl (fun m k => spDel m (2048 + (4 * i + k) % 512)) x.memErr }
  | 1 => { x with pocket := memWrite x.pocket (32 * i) b,
                  memErr := (List.range 4).foldl (fun m k => spDel m (4 * i + k)) x.memErr }
  | _ => { x with loadCfg := memWrite x.loadCfg (32 * i) b }

/-- A configuration chunk: the handler table, the port map, ST_SR_SEED. -/
def State.putConfig (s : State) (u : StId) (i : Nat) (b : List (BitVec 8)) : State :=
  if i < 2 then (List.range 8).foldl (fun t k => t.wr (sb u) (R.ST_HANDLER.nth (8 * i + k)) (wordAt b k &&& 0x1FFF)) s
  else if i < 4 then
    (List.range 8).foldl (fun t k => t.wr (sb u) (R.ST_PORT.nth (8 * (i - 2) + k)) (wordAt b k &&& 0x7F7F7F7F)) s
  else s.wr (qb u.quire) (R.ST_SR_SEED.nth u.st.val) (wordAt b 0)

/-- A stitcher takes a chunk and marks its arrival map (R212). -/
def State.putChunk (s : State) (u : StId) (sp i : Nat) (b : List (BitVec 8)) : State :=
  let s := s.updSt u (fun x => x.putChunk sp i b)
  if sp = 2 then s.putConfig u i b else s

/-- The image as the stitcher received it, in the order of its CRC: program, pocket, the five configuration chunks (04
R111, R212). -/
def Stitcher.loadedBytes (x : Stitcher) (prog pocket : Nat) : List (BitVec 8) :=
  (List.range (8 * prog)).flatMap (fun i => leBytes 4 (x.progWord i).toNat) ++ memRead x.pocket 0 (32 * pocket) ++
    memRead x.loadCfg 0 160

/-- A port that makes the stitcher refuse to seal: bound to a slot its handler does not have, or past the credit total of
R92. -/
def State.portFault (s : State) (u : StId) : Option Nat :=
  let f (g : Fld) (j : Nat) : Nat := s.f (sb u) (portFld g j)
  let valid := (List.range 32).filter (fun j => s.portValid u j)
  match valid.find? (fun j =>
    let h := f F.ST_PORT_handler j
    decide (s.f (sb u) (F.ST_HANDLER_valid.nth h) = 0) || decide (s.f (sb u) (F.ST_HANDLER_ports.nth h) < f F.ST_PORT_slot j)) with
  | some j => some j
  | none =>
    let limit := if s.portValid u 31 then 63 else 64
    (valid.filter (fun j => decide (j < 31))).find? (fun j =>
      decide (limit < ((valid.filter (fun i => decide (i ≤ j))).map (fun i => f F.ST_PORT_credits i)).foldl (· + ·) 0))

/-- A stitcher whose arrival map is full checks its CRC and its port map, and seals or does not (R213, 04 R111). -/
def State.seal (s : State) (u : StId) : State :=
  match (s.st u).loadHdr with
  | none => s
  | some (prog, pocket, crc) =>
    if crc32c ((s.st u).loadedBytes prog pocket) ≠ crc then s
    else match s.portFault u with
      | some j => (s.setF (sb u) F.ST_STATUS_cfg_err 1).ev (.quire u.quire) Ev.ST_CONFIG [u.st.val, j]
      | none =>
        let seed := s.rd (qb u.quire) (R.ST_SR_SEED.nth u.st.val)
        let s := (s.setF (sb u) F.ST_STATUS_sealed 1).setF (sb u) F.ST_STATUS_cfg_err 0
        s.updSt u (fun x => { x with lfsr := if seed = 0 then 1 else seed })

/-- The load header reaches a stitcher: pocket bytes past the count are zero (R212). -/
def State.begin (s : State) (im : StImage) : State :=
  s.updSt im.u (fun x => { x with
    loadHdr := some (imCount im 0, imCount im 1, im.crc),
    pocket := x.pocket.filter (fun c => decide (c.1 < 32 * imCount im 1)),
    memErr := x.memErr.filter (fun c => decide (c.1 < 4 * imCount im 1) || decide (2048 ≤ c.1)) })

def Stitcher.arrived (x : Stitcher) (c : Nat × Nat) : Bool := spGet false x.loadMap (1024 * c.1 + c.2)

/-- The chunks of its image that a stitcher lacks. -/
def Stitcher.missing (x : Stitcher) (im : StImage) : List (Nat × Nat) := (imChunks im).filter (fun c => !x.arrived c)

/-- The first `n` runs of missing chunks of one space. -/
def takeRuns : Nat → Option (Nat × Nat) → List (Nat × Nat) → List (Nat × Nat)
  | _, _, [] => []
  | n, prev, c :: t =>
    let run : Bool := match prev with
      | some p => decide (p.1 = c.1) && decide (p.2 + 1 = c.2)
      | none => false
    if run then c :: takeRuns n (some c) t
    else match n with
      | 0 => []
      | n + 1 => c :: takeRuns n (some c) t

/-! Preparing a partition for an image (06 R162, 08 R211). -/

/-- A stitcher that is to take an image: unsealed, used where the image names it. -/
def State.openStitcher (s : State) (u : StId) (used : Bool) : State :=
  let s := s.updSt u (fun x => { x with loadMap := [], loadCfg := [], loadHdr := none })
  ((s.setF (sb u) F.ST_STATUS_used (if used then 1 else 0)).setF (sb u) F.ST_STATUS_sealed 0).setF (sb u)
    F.ST_STATUS_cfg_err 0

/-- A stitcher that a program load begins for: its counts since program load are zero (04 R109). A reload after a power
cycle or at a rebuild is no program load (04 R88). -/
def State.freshStitcher (s : State) (u : StId) (used : Bool) : State :=
  let s := (s.openStitcher u used).updSt u (fun x => { x with resets := 0, unsealedSeen := false })
  ((s.setF (sb u) F.ST_STATUS_resets 0).setCnt (sb u) R.ST_FIRINGS_LO R.ST_FIRINGS_HI 0).setF (sb u) F.ST_MATCH_peak
    (s.st u).store.length

/-- The stitchers of an image. -/
def usedBy (im : Image) (u : StId) : Bool := im.stitchers.any (fun x => decide (x.u = u))

/-- A register that the loader writes by REG.WR: a channel entry takes the next epoch, TK_CTRL only its policy. -/
def State.imageReg (s : State) (p : PartId) (off : Nat) (v : BitVec 32) : State :=
  let addr := pt p + off
  if off % 4 ≠ 0 ∨ 0x880000 ≤ off then s
  else if off = R.TK_CTRL.off then s.setF (pt p) F.TK_CTRL_policy (F.TK_CTRL_policy.get v)
  else
    let q := quireOf p ((off - 0x800000) / 0x10000)
    let o := off % 0x10000
    let v := if 0x800000 ≤ off ∧ 0x6000 ≤ o ∧ o < 0x7000 ∧ o % 16 = 0 then
        F.CH_ROUTE_A_epoch.put v ((s.f (qb q) F.CH_EPOCH_epoch + 1) % 4)
      else v
    match accOf addr with
    | none => s
    | some a => if a.rw = 0 ∧ a.w1c = 0 ∧ a.w1s = 0 then s.wrAddr a addr v else s.regEffect .steward addr v

/-- The registers of one quire in an image's list. -/
def quireRegs (im : Image) (q : QuireId) : List (Nat × Word) :=
  im.regs.filter (fun r => decide (0x800000 + 0x10000 * localOf q ≤ r.1) && decide (r.1 < 0x810000 + 0x10000 * localOf q))

/-- The registers, entries, counts and epochs of a load (R162, R211): the drain of all eight quires, entries and rings that
the image does not name made not valid, the commit. -/
def State.prepare (s : State) (p : PartId) (im : Image) : State :=
  let qs := (List.range 8).map (quireOf p)
  let keep := s.f (pt p) F.CH_RECONF_quires
  let s := (((s.setF (pt p) F.CH_RECONF_quires 255).startDrain p).landAll qs).endDrain p
  let s := qs.foldl (fun t q => (t.clearRegs (eb q 0) (eb q 0 + 0x1000)).clearRegs (rb_ q 0) (rb_ q 0 + 0x100)) s
  let s := im.regs.foldl (fun t r => t.imageReg p r.1 r.2) s
  let s := ((s.commit p).setF (pt p) F.CH_RECONF_quires keep).evalShield p
  qs.foldl (fun t q =>
    let t := (List.finRange 64).foldl (fun t i => t.freshStitcher ⟨q, i⟩ (usedBy im ⟨q, i⟩)) t
    let t := t.setF (qb q) F.PG_QSTAT_peak (t.hintQueue q)
    t.updQu q (fun x => { x with tick := t.cnt (pt p) R.TK_COUNT_LO R.TK_COUNT_HI })) s

/-! The load of a host (09_host_attachment.md, Table 8; R32, R213). -/

/-- The raise in 10 mV steps in force on a half's rail: the greatest of its restrictions whose tile carries a quire
(10_collation_and_checking.md R280). -/
def State.raiseOf (s : State) (h : Half) : Nat :=
  s.stew.restrictions.foldl (fun m r =>
    let t := F.IN_RESTRICT_tile.get r.word
    let carries := (halfParts h).any (fun p => (s.quiresOf p).any (fun q => decide (s.tileOf q = t)))
    if carries && decide (F.IN_RESTRICT_kind.get r.word = 2) && decide (F.IN_RESTRICT_valid.get r.word = 1)
    then max m (F.IN_RESTRICT_raise.get r.word) else m) 0

/-- The estimate of an image in watts at the operating point where the partition will run; where the report gives none for
it, the greatest of those it gives (01_the_tick.md R32, Table 5). -/
def State.imageWatts (s : State) (p : PartId) (im : Image) : Nat :=
  (im.watts[s.f (pt p) F.TK_STATUS_clock]?).getD (im.watts.foldl max 0)

/-- The estimate of an image with the raise in force, in hundredths of a watt (R280). -/
def State.estimate (s : State) (p : PartId) (im : Image) : Nat := s.imageWatts p im * (100 + s.raiseOf (halfOf p))

def State.loadOf (s : State) (p : PartId) : Option Load := (s.part p).load
def State.setLoad (s : State) (p : PartId) (l : Option Load) : State := s.updPart p (fun x => { x with load := l })

/-- Used stitchers of an image that are not sealed. -/
def State.unsealed (s : State) (im : Image) : List StImage :=
  im.stitchers.filter (fun x => decide (s.f (sb x.u) F.ST_STATUS_sealed = 0))

/-- SP_LOAD of a load. -/
def State.showLoad (s : State) (p : PartId) (im : Image) (st round : Nat) : State :=
  ((s.setF (pt p) F.SP_LOAD_state st).setF (pt p) F.SP_LOAD_round (max 1 round)).setF (pt p) F.SP_LOAD_unsealed
    (s.unsealed im).length

/-- The load ends: its hold goes and its notice completes with SP_LOAD. -/
def State.endLoad (s : State) (p : PartId) : State :=
  let s := ((s.setLoad p none).dropHold p .load).tryPending p false
  s.completeActing p 1 (s.rd (pt p) R.SP_LOAD).toNat

/-- The rounds before a load fails (SP_LOAD_CFG). -/
def State.loadRounds (s : State) (p : PartId) : Nat :=
  let n := s.f (pt p) F.SP_LOAD_CFG_rounds
  if n = 0 ∨ 8 < n then 8 else n

/-- The image becomes the partition's last image. -/
def State.imageDone (s : State) (p : PartId) (im : Image) : State :=
  let s := (s.wr (pt p) R.RS_IMAGE (BitVec.ofNat 32 im.pma)).updPart p (fun x => { x with image := some im })
  (s.quiresOf p).foldl (fun t q => t.checkEntries q) s

/-- A load that every used stitcher has sealed for. -/
def State.loadDone (s : State) (p : PartId) (l : Load) : State :=
  ((s.showLoad p l.image 5 l.round).imageDone p l.image).endLoad p

/-- A load fails: rounds, unsealed stitchers, cause (R213, R297). -/
def State.loadFail (s : State) (p : PartId) (im : Image) (round cause : Nat) : State :=
  let s := s.showLoad p im 6 round
  (s.ev (.part p) Ev.SP_LOAD_FAIL [round, (s.unsealed im).length, cause]).endLoad p

/-- The image is compiled for a quire that is absent (R297). -/
def State.badShape (s : State) (p : PartId) (im : Image) : Bool :=
  (List.range 8).any (fun i => decide (im.shape / 2 ^ i % 2 = 1) && !s.present (quireOf p i))

/-- A load starts: the checks of its power and shape, then the registers (R32, R162, R213, R297). -/
def State.startLoad (s : State) (p : PartId) (im : Image) : State :=
  let s := (s.addHold p .load).wr (pt p) R.SP_LOAD_STAT 0
  if s.f (pt p) F.PW_BUDGET_watts * 100 < s.estimate p im then
    ((s.showLoad p im 6 1).ev (.part p) Ev.TICK_CONFIG [4]).endLoad p
  else if s.badShape p im then s.loadFail p im 1 0x68
  else
    let s := s.setF (pt p) F.PW_EST_watts ((s.estimate p im + 99) / 100)
    let s := s.prepare p im
    let l : Load := { image := im, waiting := [], deaf := [], gaps := [], faulty := 0, round := 0, endAt := s.ns }
    (s.setLoad p (some l)).showLoad p im 1 1

/-- DOORBELL_PROGRAM_LOAD: bit 1, with the image that stands at the pointer. -/
def execDoorbellProgramLoad (p : PartId) (im : Image) (s : State) : Out :=
  match s.delivered p 1 with
  | none => .next s
  | some n =>
    if n.ptr / 64 ≠ im.pma then .next s
    else if s.running p ∧ s.f (pt p) F.TK_STATUS_held = 0 then .next (s.refuse n Cs.refused 0x91)
    else .next ((s.setPhase n .acting).startLoad p im)

/-! The exchange (R212, R213). -/

/-- The image of a stitcher in the load of its partition. -/
def State.imageOf (s : State) (u : StId) : Option (Load × StImage) :=
  match s.loadOf (partOf u.quire) with
  | none => none
  | some l => (l.image.stitchers.find? (fun x => decide (x.u = u))).map (fun im => (l, im))

/-- LOAD_BEGIN: a stitcher's LOAD.BEGIN. -/
def execLoadBegin (u : StId) (drop : Option Hop) (s : State) : Out :=
  let p := partOf u.quire
  match s.imageOf u with
  | none => .next s
  | some (_, im) =>
    if s.present u.quire = false then .next (s.spRefuse p 38 u.quire.val 4 0x28 u.key 0x18)
    else if s.halfDown p then .next (s.spRefuse p 38 u.quire.val 4 0x28 u.key 0x19)
    else
      let a := s.spArrive (some p) 38 u.quire.val 4 0x28 u.key drop
      .next (if a.2 then a.1.begin im else a.1)

/-- The quires of a partition that a broadcast of the loader misses, where stops drop it for parity (R210). -/
def State.missedBy (s : State) (p : PartId) (drops : List (Fin 42)) : List QuireId :=
  drops.flatMap (fun d => s.fedQuires 38 p d.val)

/-- Messages of a broadcast of the loader dropped at stops for parity: each stop that receives and drops it counts (R210). -/
def State.dropAt (s : State) (p : PartId) (drops : List (Fin 42)) (opcode : Nat) : State :=
  (s.dropsMade 38 p (drops.map (fun d => d.val))).foldl (fun t d => t.parityDrop p d 4 opcode) s

/-- A broadcast of the loader into a clocked-down half, without wake: its kettle sends it back (R218). -/
def State.loadAsleep (s : State) (p : PartId) (opcode : Nat) : State := s.noteAsleep p (40 + p.val) 4 opcode 0x19

/-- The stops at which a broadcast is dropped: tiles' stops and hub stops (R206). -/
def dropStops (drops : List (Fin 36)) (hubDrops : List (Fin 6)) : List (Fin 42) :=
  drops.map (fun d => d.castLE (by omega)) ++ hubDrops.map (fun d => d.natAdd 36)

/-- LOAD_DATA: a packet with one chunk for the stitchers in both masks; stops drop it for quires that miss it, and quires
whose copy is `flipped` take wrong bits. A resent packet goes to reporting stitchers only (R213). -/
def execLoadData (p : PartId) (quires : BitVec 8) (stitchers : BitVec 64) (space : Fin 3) (chunk : Fin 512)
    (drops : List (Fin 36)) (hubDrops : List (Fin 6)) (flip : BitVec 256) (flipped : BitVec 8) (s : State) : Out :=
  let drops := dropStops drops hubDrops
  match s.loadOf p with
  | none => .next s
  | some l =>
    let resend := decide (0 < l.round)
    let named := l.image.stitchers.filter (fun x => decide (partOf x.u.quire = p) &&
      quires.getLsbD (localOf x.u.quire) && stitchers.getLsbD x.u.st.val && decide (chunk.val < imCount x space.val) &&
      (!resend || l.gaps.contains (x.u, space.val, chunk.val)))
    match named with
    | [] => .next s
    | im :: _ =>
      if l.waiting ≠ [] then .next s
      else if s.halfDown p then .next (s.loadAsleep p 0x29)
      else
        let b := chunkOf (imBytes im space.val) chunk.val
        let wrong := leBytes 32 (leNat b ^^^ flip.toNat)
        let missed := s.missedBy p drops
        let s := s.dropAt p drops 0x29
        let s := (named.filter (fun x => !missed.contains x.u.quire)).foldl (fun t x =>
          t.putChunk x.u space.val chunk.val (if flipped.getLsbD (localOf x.u.quire) then wrong else b)) s
        let s := if resend then s.incF (pt p) F.SP_LOAD_STAT_resent else s
        .next (s.setF (pt p) F.SP_LOAD_state (if resend then 4 else 2))

/-- A round in which no answer is outstanding ends (R213). -/
def State.endRound (s : State) (p : PartId) : State :=
  match s.loadOf p with
  | none => s
  | some l =>
    if l.waiting ≠ [] then s.showLoad p l.image 3 l.round
    else if s.unsealed l.image = [] then s.loadDone p l
    else
      let data (g : StId × Nat × Nat) : Nat × Nat × List (BitVec 8) :=
        (g.2.1, g.2.2, match l.image.stitchers.find? (fun x => decide (x.u = g.1)) with
          | some im => chunkOf (imBytes im g.2.1) g.2.2
          | none => [])
      let s := if l.faulty = 0 then s
        else s.ev (.part p) Ev.SP_LOAD_GAP [l.round, l.faulty, (l.gaps.map data).dedup.length]
      if s.loadRounds p ≤ l.round then s.loadFail p l.image l.round 0x69
      else (s.setLoad p (some { l with faulty := 0 })).showLoad p l.image 4 l.round

/-- LOAD_END: the broadcast, or in later rounds the messages to reporting stitchers; stitchers with full maps check their
images. Stitchers whose branch a stop drops do not receive it, and one without a header does not answer. -/
def execLoadEnd (p : PartId) (drops : List (Fin 36)) (hubDrops : List (Fin 6)) (s : State) : Out :=
  let drops := dropStops drops hubDrops
  match s.loadOf p with
  | none => .next s
  | some l =>
    if l.waiting ≠ [] then .next s
    else if s.halfDown p then .next (s.loadAsleep p 0x2A)
    else
      let missed := s.missedBy p drops
      let asked := if l.round = 0 then l.image.stitchers
        else l.image.stitchers.filter (fun x => l.gaps.any (fun g => decide (g.1 = x.u)))
      let deaf := asked.filter (fun x => missed.contains x.u.quire || (s.st x.u).loadHdr.isNone)
      let s := s.dropAt p drops 0x2A
      let s := (asked.filter (fun x => !deaf.contains x && ((s.st x.u).missing x).isEmpty)).foldl (fun t x => t.seal x.u) s
      let s := s.setLoad p (some { l with waiting := asked.map (fun x => x.u), deaf := deaf.map (fun x => x.u), gaps := [],
                                          faulty := 0, round := l.round + 1, endAt := s.ns })
      .next (s.endRound p)

/-- A stitcher's answer, or its lack, is taken: what must be resent to it. -/
def State.answered (s : State) (l : Load) (u : StId) (gaps : List (Nat × Nat)) (faulty : Nat) : State :=
  let p := partOf u.quire
  (s.setLoad p (some { l with waiting := l.waiting.erase u, gaps := l.gaps ++ gaps.map (fun c => (u, c.1, c.2)),
                              faulty := l.faulty + faulty })).endRound p

/-- LOAD_STAT: sealed, a mismatch, or up to 14 runs of missing chunks. -/
def execLoadStat (u : StId) (drop : Option Hop) (s : State) : Out :=
  match s.imageOf u with
  | none => .next s
  | some (l, im) =>
    if l.waiting.contains u = false ∨ l.deaf.contains u then .next s
    else
      let p := partOf u.quire
      let a := s.spArrive (some p) (s.tileOf u.quire) 38 4 0x2B u.key drop
      let s := a.1
      if a.2 = false then .next s
      else if s.f (sb u) F.ST_STATUS_sealed = 1 then .next (s.answered l u [] 0)
      else
        let gaps := (s.st u).missing im
        .next ((s.incF (pt p) F.SP_LOAD_STAT_reporters).answered l u
          (if gaps.isEmpty then imChunks im else takeRuns 14 none gaps) 1)

/-- LOAD_ANSWER_TIMEOUT: 2 µs without an answer: the whole image is resent. -/
def execLoadAnswerTimeout (u : StId) (s : State) : Out :=
  match s.imageOf u with
  | none => .next s
  | some (l, im) =>
    if l.waiting.contains u = false then .next s
    else .next ((s.waitNs (l.endAt + 2000)).answered l u (imChunks im) 0)

/-! Reloads by the steward (11 R288, R289, 12_self_test_and_rotation.md R313, R316). -/

/-- A stitcher's image written whole, and sealed where it passes. -/
def State.installStitcher (s : State) (im : StImage) : State :=
  let s := s.openStitcher im.u true
  let s := s.updSt im.u (fun x => { x with prog := [], pocket := [], memErr := [] })
  let s := s.begin im
  ((imChunks im).foldl (fun t c => t.putChunk im.u c.1 c.2 (chunkOf (imBytes im c.1) c.2)) s).seal im.u

/-- The stitcher images of a quire. -/
def State.installQuire (s : State) (im : Image) (q : QuireId) : State :=
  (im.stitchers.filter (fun x => decide (x.u.quire = q))).foldl (fun t x => t.installStitcher x) s

/-- A quire's registers of the last image, its channel table and rings kept. -/
def State.reloadRegs (s : State) (im : Image) (q : QuireId) : State :=
  ((quireRegs im q).filter (fun r => decide (r.1 % 0x10000 < 0x6000) || decide (0x7100 ≤ r.1 % 0x10000))).foldl
    (fun t r => t.imageReg (partOf q) r.1 r.2) s

/-- A weight band from its master copy; a granule that cannot be read leaves its leaf bytes poisoned. -/
def State.reloadBand (s : State) (q : QuireId) (addr pma n : Nat) : State :=
  let p := partOf q
  let r := s.pmRead p pma n
  let s := r.1.leafWrite q addr r.2.1 (unitWord 0x14 p.val) none
  r.2.2.foldl (fun t a => (t.memUncorr p a 0 0).leafPoison q (addr + (a - pma)) 32) s

/-- The weight bands of a quire from their master copies. -/
def State.reloadWeights (s : State) (im : Image) (q : QuireId) : State :=
  (im.weights.filter (fun w => decide (w.1 = q))).foldl (fun t w => t.reloadBand q w.2.1 w.2.2.1 w.2.2.2) s

/-- The initial contents of a quire's activation bands. -/
def State.reloadActs (s : State) (im : Image) (q : QuireId) : State :=
  (im.leaf.filter (fun w => decide (w.1 = q))).foldl (fun t w => t.leafWrite q w.2.1 w.2.2 (unitWord 0x14 (partOf q).val) none) s

end Sys2Proof.Machine
end

