-- ==== Sys2Proof/Machine/Fences.lean ====
section
/-! DEFINITION. Fences, the start of a partition reset, and withdrawal (11_fences_resets_recovery.md R284 to R286, R289,
R295, 06_channels.md R157). -/

namespace Sys2Proof.Machine

/-! Fences (R286, 06 R157). -/

/-- A mask of partitions. -/
def partMask (l : List PartId) : Nat := l.foldl (fun m p => m + 2 ^ p.val) 0

/-- A span entry into or out of a partition. -/
def State.spanEntry (s : State) (p : PartId) (q : QuireId) (e : Nat) : Bool :=
  decide (s.f (eb q e) F.CH_ROUTE_A_valid = 1) && decide (s.f (eb q e) F.CH_ROUTE_A_span = 1) &&
    (decide (partOf q = p) || decide (partOf (s.entryQuire q e) = p))

/-- Span channels of a partition abort: entries stay aborted until a new epoch, units in flight across the fence go. -/
def State.abortSpans (s : State) (p : PartId) : State :=
  let s := (List.finRange 32).foldl (fun t q =>
    let l := (List.range 256).filter (fun e => t.spanEntry p q e)
    if l.isEmpty then t else t.updQu q (fun x => { x with aborted := (x.aborted ++ l).dedup })) s
  let across (a b : QuireId) : Bool := decide (partOf a ≠ partOf b) && (decide (partOf a = p) || decide (partOf b = p))
  ({ s with flights := s.flights.filter (fun m => !across m.src m.dst),
            creditFlights := s.creditFlights.filter (fun c => !across c.src c.from_) }).settleAll

/-- MS_SPAN.fenced of every member shows the fences of the span. -/
def State.showFences (s : State) (p : PartId) : State :=
  (s.spanOf p).foldl (fun t r =>
    t.setF (pt r) F.MS_SPAN_fenced (partMask ((t.spanOf r).filter (fun m => t.fenced m && decide (t.spanOf r ≠ [r]))))) s

/-- MS_SPAN of every partition shows the span of the LD it is bound to (08 R201, 09 R230). -/
def State.showSpans (s : State) : State :=
  allParts.foldl (fun t p =>
    let m := match t.ldOf p with
      | some l => t.f hub (F.CX_LD_BIND_parts.nth l.val)
      | none => 0
    let has (h : Half) : Bool := (halfParts h).any (fun r => decide (m / 2 ^ r.val % 2 = 1))
    (t.setF (pt p) F.MS_SPAN_members m).setF (pt p) F.MS_SPAN_seam (if has true && has false then 1 else 0)) s

/-- A fence rises, for a reason's code; it stands already while one is up. -/
def State.raiseFence (s : State) (p : PartId) (reason : Nat) : State :=
  if s.fenced p then s
  else
    let s := ((s.setF (pt p) F.RS_STATUS_fenced 1).abortSpans p).showFences p
    s.ev (.part p) Ev.RS_FENCE [reason, s.f (pt p) F.MS_SPAN_members]

/-- A fence falls. -/
def State.dropFence (s : State) (p : PartId) (reason : Nat) : State :=
  if s.fenced p = false then s
  else
    let s := (s.setF (pt p) F.RS_STATUS_fenced 0).showFences p
    s.ev (.part p) Ev.RS_FENCE [reason, s.f (pt p) F.MS_SPAN_members]

/-! What a reset or a judgement does to tests (12_self_test_and_rotation.md R317, R318, R320). -/

/-- A steward notice, named by its LD and bit, completes. -/
def State.endCmd (s : State) (k : Nat × Nat) (status result : Nat) : State :=
  match s.noticeAt 0 k.2 (some k.1) with
  | some n => s.complete n status result
  | none => s

/-- A rotation that has not switched is dropped, for a cause's code; the requests it served wait at the head of the order
again (DEDUCED). -/
def State.dropRotation (s : State) (p : PartId) (cause : Nat) : State :=
  match (s.part p).rot with
  | none => s
  | some r =>
    let step := s.f (pt p) F.BT_ROT_STATUS_state
    if step = 4 then s
    else
      let s := s.updPart p (fun x => { x with
        rot := none, rotWant := r.notices.map (fun k => (r.quire, k.1, k.2)) ++ x.rotWant,
        rotDue := if r.notices.isEmpty then x.rotDue else s.ns + 600000000000 })
      let s := s.updQu r.quire (fun x => { x with copying := none, dirty := [] })
      let s := ((s.setF (pt p) F.BT_ROT_STATUS_state 0).setF (pt p) F.BT_ROT_STATUS_last 2).setCnt (pt p) R.BT_ROT_NEXT_LO
        R.BT_ROT_NEXT_HI 0
      s.ev (.part p) Ev.BT_ROT_ABANDONED [r.quire.val, step, cause]

/-- Requests for tests of a partition's quires that have not begun complete aborted, with outcome 3. -/
def State.abortTests (s : State) (p : PartId) : State :=
  let x := s.part p
  let s := s.updPart p (fun y => { y with rotWant := [], heldTests := [] })
  (x.rotWant ++ x.heldTests).foldl (fun t k => t.endCmd (k.2.1, k.2.2) Cs.aborted (3 + 2 ^ 16 * s.tileOf k.1)) s

/-! The start of a partition reset (R284, R285, R289, R295, R301). -/

/-- Causes whose resets count toward withdrawal: not an unbind's (R295). -/
def countedCause (cause : Nat) : Bool := decide (cause ≠ 6)

/-- Counted resets of a partition in the last 15 minutes, in device ns. -/
def State.recentTimes (s : State) (p : PartId) : List Nat :=
  (s.part p).resetTimes.filter (fun t => decide (s.ns < t + 900000000000))

/-- A load in progress is cut off: SP_LOAD reads failed (R301). -/
def State.cutLoad (s : State) (p : PartId) : State :=
  match s.loadOf p with
  | none => s
  | some _ => ((s.setF (pt p) F.SP_LOAD_state 6).setLoad p none).dropHold p .load

/-- A partition reset begins, or merges into the one that runs; the steward holds the partition (R289, R301). Of a withdrawn
partition only an unbind's begins (R295). -/
def State.startReset (s : State) (p : PartId) (cause ld : Nat) (cycled : Bool) (notice : Option (Nat × Nat)) : State :=
  match (s.part p).recovery with
  | some r => s.updPart p (fun x => { x with recovery := some { r with notices := r.notices ++ notice.toList, cycled := r.cycled || cycled } })
  | none =>
    if s.f (pt p) F.RS_STATUS_withdrawn = 1 ∧ cause ≠ 6 then s
    else
      let r : Recovery :=
        { cause := cause, startAt := s.ns, cycled := cycled, full := false, wasRunning := s.running p, requester := ld,
          notices := notice.toList }
      let s := s.updPart p (fun x => { x with
        recovery := some r,
        resetTimes := if countedCause cause then x.resetTimes.filter (fun t => decide (s.ns < t + 900000000000)) ++ [s.ns]
          else x.resetTimes })
      let s := ((s.setF (pt p) F.RS_STATUS_state 1).incF (pt p) F.RS_COUNT_resets).addHold p .recovery
      let s := ((s.logReset 3 p.val).dropRotation p 0x5A).abortTests p
      s.ev (.part p) Ev.RS_PARTITION [cause, (s.peek (pt p + R.RS_STATUS.off)).toNat, ld]

/-! The training area (13_bring_up_and_licences.md R329). -/

/-- A channel has saved settings for the temperature band of its half. -/
def State.channelSaved (s : State) (c : Fin 64) : Bool :=
  s.stew.savedTrain.contains (c.val, s.tempBin (halfOf ⟨c.val / 16, by omega⟩))

/-- The settings of a full training of some channels are saved for their band. -/
def State.saveTraining (s : State) (l : List (Fin 64)) : State :=
  let new := (l.filter (fun c => !s.channelSaved c)).map (fun c => (c.val, s.tempBin (halfOf ⟨c.val / 16, by omega⟩)))
  { s with stew := { s.stew with savedTrain := s.stew.savedTrain ++ new } }

/-- The channels of a partition. -/
def partChannels (p : PartId) : List (Fin 64) := (List.finRange 64).filter (fun c => decide (c.val / 16 = p.val))

/-! Withdrawal (R295, Table 7). -/

/-- The device is withdrawn: every partition fenced and held. -/
def State.withdrawDevice (s : State) (reason : Nat) : State :=
  if s.f hub F.RS_DEVICE_withdrawn = 1 then s
  else
    let s := s.setF hub F.RS_DEVICE_withdrawn 1
    let s := allParts.foldl (fun t p => (t.raiseFence p 0xAA).addHold p .recovery) s
    let s := s.ev .hub Ev.RS_DEV_WITHDRAWN [reason, (s.peek R.RS_DEVICE.off).toNat]
    (List.finRange 16).foldl (fun t l =>
      if t.f hub (F.CX_LD_BIND_present.nth l.val) = 1 then t.msi l.val 0 else t) s

/-- A partition is withdrawn: fenced and held, its memory in self-refresh. A second one withdraws the device. -/
def State.withdrawPart (s : State) (p : PartId) : State :=
  if s.f (pt p) F.RS_STATUS_withdrawn = 1 then s
  else
    let s := (s.raiseFence p 0xAA).addHold p .recovery
    let s := ((s.setF (pt p) F.RS_STATUS_withdrawn 1).setF (pt p) F.RS_STATUS_state 9).setF hub F.RS_DEVICE_parts_out
      (s.f hub F.RS_DEVICE_parts_out + 2 ^ p.val)
    let s := s.updPart p (fun x => { x with memAsleep := true })
    let s := s.ev (.part p) Ev.RS_PART_WITHDRAWN ((s.recentTimes p).flatMap cap64)
    if s.f hub F.RS_DEVICE_parts_out ≠ 2 ^ p.val then s.withdrawDevice 0xB1 else s

/-! Device resets that begin (R284, R285, R295). -/

/-- A device reset begins, for a cause of RS_DEVICE.last_cause; DEVICE_RESET carries it out. One whose cause counts as a
fault is counted, and a second within 24 h withdraws the device instead. -/
def State.startDevice (s : State) (cause ld : Nat) : State :=
  if s.stew.devReq.isSome ∨ s.stew.die = false then s
  else
    let counted := decide (cause = 3) || decide (cause = 6)
    let recent := s.stew.devResets.filter (fun t => decide (s.ns < t + 86400000000000))
    if counted ∧ 1 ≤ recent.length then
      ({ s with stew := { s.stew with devResets := recent ++ [s.ns] } }).withdrawDevice 0xB0
    else
      let s : State := { s with stew := { s.stew with
        devResets := if counted then recent ++ [s.ns] else recent, devReq := some (cause, ld, s.ns) } }
      let s := s.setF hub F.RS_DEVICE_last_cause cause
      let s := s.ev .hub Ev.RS_DEVICE [cause, ld]
      allParts.foldl (fun t p => (t.raiseFence p 0x5A).addHold p .recovery) s

end Sys2Proof.Machine
end

