-- ==== Sys2Proof/Machine/Integrity.lean ====
section
/-! DEFINITION. Master digests, margin monitors, and the steward's judgements (10_collation_and_checking.md R270 to R281). -/

namespace Sys2Proof.Machine

/-! The master digest engine (R270). -/

/-- The digest of a range into IN_MD_OUT. -/
def State.mdOut (s : State) (p : PartId) (d : List (BitVec 8)) : State :=
  (List.range 8).foldl (fun t w => t.wr (pt p) (R.IN_MD_OUT.nth w) (wordAt d w)) s

/-- No valid digest: free values. -/
def State.mdNone (s : State) (p : PartId) : State :=
  (List.range 8).foldl (fun t w =>
    (t.wr (pt p) (R.IN_MD_OUT.nth w) (Config.freeBits t.freeCount w 32)).useFree) s

/-- A run ends with a status. -/
def State.mdEnd (s : State) (p : PartId) (status : Nat) : State :=
  let s := (s.setF (pt p) F.IN_MD_CTRL_busy 0).setF (pt p) F.IN_MD_CTRL_status status
  let s := s.setF (pt p) F.IN_MD_CTRL_runs (s.f (pt p) F.IN_MD_CTRL_runs + 1)
  s.updPart p (fun x => { x with md := none })

/-- MD_RUN_END: the run of a partition's engine ends done, uncorrectable or torn, after 8 cycles at least for each block of
136 bytes; a fence stops it (11 R286), and while the memory does not answer it waits. -/
def execMdRunEnd (p : PartId) (s : State) : Out :=
  match (s.part p).md with
  | none => .next s
  | some r =>
    if s.fenced p ∨ (s.part p).memAsleep then .next s
    else
      let n := r.units * 64
      let s := s.waitNs (r.startAt + (n / 136 + 1) * s.period p)
      let a := s.pmRead p r.base n
      match a.2.2 with
      | bad :: _ =>
        let s := ((a.1.memUncorr p bad 0 0).mdNone p).mdEnd p 2
        .next (s.ev (.part p) Ev.IN_MD_FAIL [2, r.base / 64, (bad - r.base) / 64])
      | [] =>
        if r.torn then
          .next (((a.1.mdNone p).mdEnd p 3).ev (.part p) Ev.IN_MD_FAIL [3, r.base / 64, r.units])
        else .next ((a.1.mdOut p (shake256 a.2.1)).mdEnd p 0)

/-! Margin monitors (R272, R273). -/

/-- The quire that a tile carries. -/
def State.carrier (s : State) (tile : Nat) : Option QuireId :=
  (List.finRange 32).find? (fun q => s.present q && decide (s.tileOf q = tile))

def State.mgnOf (s : State) (tile m : Nat) : Nat × Nat × Nat × Bool := spGet (0, 0, 0, false) s.mgn (4 * tile + m)
def State.setMgn (s : State) (tile m : Nat) (v : Nat × Nat × Nat × Bool) : State :=
  { s with mgn := spSet (0, 0, 0, false) s.mgn (4 * tile + m) v }

/-- An entry of the colophon's margin results (14_event_recorder_and_colophon.md, Table 6): time, tile or link, kind (0
monitor baseline, 1 sweep, 2 lane margining), bin, least slack, raise, result; their places are the model's (DESIGN
CHOICE). -/
def State.colMargin (s : State) (unit kind bin slack raise result : Nat) : State :=
  s.colAppend 0x07 32 2048 (leBytes 8 s.ns ++ leBytes 1 unit ++ leBytes 1 kind ++ leBytes 1 bin ++ leBytes 1 slack ++
    leBytes 1 raise ++ leBytes 1 result)

/-- One monitor of a tile is read. -/
def State.readMonitor (s : State) (tile m droop slack : Nat) : State :=
  let g := s.mgnOf tile m
  let s := s.setMgn tile m (min 255 droop, min 63 slack, g.2.2.1, g.2.2.2)
  let s := s.colAdd 0x06 (256 * tile + 64 * m + 4 * min 15 (droop / 8)) 1
  match s.carrier tile with
  | none => s
  | some q =>
    if slack < s.f (pt (partOf q)) F.IN_MGN_CFG_warn then
      s.ev (.quire q) Ev.IN_MARGIN_LOW [tile, m, slack, droop]
    else s

/-- The hours a tile has been carrying or spare, in seconds, kept by the steward beside the sections of the colophon. -/
def hoursKey (tile : Nat) (spare : Bool) : Nat := 0x100 * 2 ^ 24 + 8 * tile + (if spare then 4 else 0)

/-- One second more on an hours counter of a tile. -/
def State.addHour (s : State) (k : Nat) : State :=
  let m := memWrite s.stew.ram k (leBytes 4 (leNat (memRead s.stew.ram k 4) + 1))
  { s with stew := { s.stew with ram := m } }

/-- A tile's reading: its monitors, its temperature and activity histograms, its hours. -/
def State.marginTile (s : State) (droop slack press issue : List Nat) (tile : Nat) : State :=
  let s := (List.range 4).foldl (fun t m => t.readMonitor tile m (droop.getD (4 * tile + m) 0) (slack.getD (4 * tile + m) 0)) s
  let hot := hottest [s.stew.temps.getD (2 * tile) (-40), s.stew.temps.getD (2 * tile + 1) (-40)]
  let s := s.colAdd 0x04 (64 * tile + 4 * min 15 (hot.toNat / 7)) 1
  let a := min 7 (press.getD tile 0)
  let b := min 7 (issue.getD tile 0)
  let s : State := { s with stew := { s.stew with actBins := spSet 0 s.stew.actBins tile (a + 8 * b) } }
  let least := ((List.range 4).map (fun m => slack.getD (4 * tile + m) 0)).foldl min 63
  let s := s.colMargin tile 0 (min 15 (hot.toNat / 7)) least 0 0
  match s.carrier tile with
  | some _ =>
    (s.colAdd 0x05 (256 * tile + 4 * (8 * a + b)) 1).addHour (hoursKey tile false)
  | none => s.addHour (hoursKey tile true)

/-- MARGIN_READ: once per second, the deepest droop in mV and the least slack of every monitor (4 x tile + monitor), and
each tile's press busy and stitcher issue fractions in eighths (R272, 14 R355). -/
def execMarginRead (droop slack press issue : List Nat) (s : State) : Out :=
  if s.stew.running = false ∨ s.stew.die = false then .next s
  else
    let s := s.waitNs s.stew.marginDue
    let s : State := { s with stew := { s.stew with marginDue := s.ns + 1000000000 } }
    let s := (List.range 36).foldl (fun t i => t.marginTile droop slack press issue i) s
    let hubT := hottest ((s.stew.temps.drop 72).take 4)
    .next (s.colAdd 0x04 (64 * 36 + 4 * min 15 (hubT.toNat / 7)) 1)

/-- MONITOR_TRIP: a monitor of a tile trips: the clock stretches, and the tick of the partition fails (R273). -/
def execMonitorTrip (tile : TileId) (m : Fin 4) (droop slack : Byte) (s : State) : Out :=
  let t := tile.val
  let g := s.mgnOf t m.val
  if g.2.2.2 ∨ s.stew.die = false then .next s
  else
    let s := s.setMgn t m.val (g.1, g.2.1, min 255 (g.2.2.1 + 1), true)
    match s.carrier t with
    | none => .next s
    | some q =>
      let s := s.failTick (partOf q)
      let s := s.ev (.quire q) Ev.IN_DROOP [t, m.val, droop.toNat, slack.toNat, (s.qu q).tick]
      .next (s.charge (partOf q) (.tile t) Ev.IN_DROOP true)

/-- MONITOR_CLEAR: the monitor clears and the stretch ends. -/
def execMonitorClear (tile : TileId) (m : Fin 4) (s : State) : Out :=
  let g := s.mgnOf tile.val m.val
  .next (s.setMgn tile.val m.val (g.1, g.2.1, g.2.2.1, false))

/-! Units (R275, Tables 6 and 7; 14_event_recorder_and_colophon.md, Table 12). -/

/-- The unit word of a charged unit: what lies on a tile carries its tile (DEDUCED). -/
def HwUnit.word : HwUnit → Nat
  | .dramRow p ch _ => unitWord 0x0D (16 * p.val + ch)
  | .link n => unitWord 0x0B n
  | .spineLink n => unitWord 0x0C n
  | .clock h => unitWord 0x13 (halfNum h)
  | .pressArray t _ => unitWord 0x0A t
  | .pressCheck t _ => unitWord 0x0A t
  | .tile t => unitWord 0x0A t
  | .stitcher t _ => unitWord 0x0A t
  | .leafRow t _ _ => unitWord 0x0A t
  | .leafBank t _ => unitWord 0x0A t
  | .network t => unitWord 0x0A t

/-- The source that records what happens to a unit. -/
def HwUnit.src : HwUnit → Src
  | .dramRow p _ _ => .part p
  | .link _ => .hub
  | .spineLink _ => .hub
  | .clock _ => .hub
  | .pressArray t _ => .part (tilePart t)
  | .pressCheck t _ => .part (tilePart t)
  | .tile t => .part (tilePart t)
  | .stitcher t _ => .part (tilePart t)
  | .leafRow t _ _ => .part (tilePart t)
  | .leafBank t _ => .part (tilePart t)
  | .network t => .part (tilePart t)

/-- The row of Table 7 that a permanent unit falls in; 0 where the table has none. -/
def HwUnit.action : HwUnit → Nat
  | .leafRow .. => 2
  | .leafBank .. => 3
  | .link _ => 4
  | .dramRow .. => 5
  | .clock _ => 6
  | .spineLink _ => 0
  | .pressArray .. => 1
  | .pressCheck .. => 1
  | .tile _ => 1
  | .stitcher .. => 1
  | .network _ => 1

/-- A reset of a scope and target includes a unit (R276). -/
def HwUnit.inReset (u : HwUnit) (scope target : Nat) : Bool :=
  match scope with
  | 1 => match u with
    | .stitcher t i => decide (target = 64 * t + i)
    | _ => false
  | 2 => match u with
    | .leafRow .. => false
    | .leafBank .. => false
    | _ => decide (u.tile? = some target)
  | 3 => match u with
    | .dramRow p _ _ => decide (p.val = target)
    | _ => match u.tile? with
      | some t => decide ((tilePart t).val = target)
      | none => false
  | _ => true

/-! Taking units out (R277, R278). -/

/-- The tip-in of a spare, or the absence, that a quire whose tile has failed waits for; a rotation that would use the
spare is dropped (12_self_test_and_rotation.md Table 5, R316). -/
def State.queueTipin (s : State) (q : QuireId) (tile : Nat) : State :=
  let p := partOf q
  let s := s.dropRotation p 0x5B
  let s := s.updPart p (fun x => { x with tipins := x.tipins ++ [(q, tile, s.ns)] })
  s.addHold p .rotation

/-- A tile is fenced for good: its quire's spare is tipped in, or as a spare it serves no more (R277). -/
def State.fenceTile (s : State) (tile : Nat) : State :=
  if s.stew.fenced.contains tile then s
  else
    let s : State := { s with stew := { s.stew with fenced := s.stew.fenced ++ [tile] } }
    let s := s.colDefect 1 tile 0
    match s.carrier tile with
    | some q => s.queueTipin q tile
    | none =>
      let p := tilePart tile
      if s.f (pt p) F.MS_SPARE_tile = tile ∧ s.f (pt p) F.MS_SPARE_none = 0 then
        (s.setF (pt p) F.MS_SPARE_none 1).setF (pt p) F.MS_SPARE_testing 0
      else s

/-- A leaf row waits for its remap (05_leaf_store.md R138). -/
def State.markRow (s : State) (tile bank row : Nat) : State :=
  let l := spGet [] s.trackers tile
  let hit (e : Track) : Bool := decide (e.bank = bank) && decide (e.row = row)
  let weight : Bool := match s.carrier tile with
    | some q => s.weightBand q row
    | none => false
  let l := if l.any hit then l.map (fun e => if hit e then { e with pending := true } else e)
    else l ++ [{ bank := bank, row := row, weight := weight, count := 0, first := s.ns, pending := true }]
  { s with trackers := spSet [] s.trackers tile l }

/-- A DRAM row is marked for repair (R278). -/
def State.markDram (s : State) (p : PartId) (ch row : Nat) : State :=
  let k := (p, ch, row)
  if s.stew.pprMarked.contains k ∨ s.stew.pprDone.contains k ∨ s.stew.pprOut.contains k then s
  else
    let s : State := { s with stew := { s.stew with pprMarked := s.stew.pprMarked ++ [k] } }
    s.ev (.part p) Ev.IN_PPR [ch, row, 0x80]

/-- The action of Table 7. -/
def State.takeOut (s : State) (u : HwUnit) : State :=
  match u with
  | .leafRow t b r => s.markRow t b r
  | .link _ => s
  | .spineLink _ => s
  | .dramRow p ch row => s.markDram p ch row
  | .clock _ => s.withdrawDevice 0xB2
  | .leafBank t _ => s.fenceTile t
  | .pressArray t _ => s.fenceTile t
  | .pressCheck t _ => s.fenceTile t
  | .tile t => s.fenceTile t
  | .stitcher t _ => s.fenceTile t
  | .network t => s.fenceTile t

/-- A unit is judged permanent under a rule: 0 did not return from reset, 1 to 3 of R276, 4 failed self-test; `events` is
the codes of the two events that met it (DEDUCED: later code low, earlier high). -/
def State.judgePermanent (s : State) (u : HwUnit) (rule events : Nat) : State :=
  if s.stew.permanent.contains u then s
  else
    let s : State := { s with stew := { s.stew with permanent := s.stew.permanent ++ [u] } }
    (s.ev u.src Ev.IN_PERMANENT [u.word, rule, events, u.action]).takeOut u

/-! Conditional restrictions (R279, R280). -/

/-- The restrictions in force. -/
def State.validRestrictions (s : State) : List Restriction :=
  s.stew.restrictions.filter (fun r => decide (F.IN_RESTRICT_valid.get r.word = 1))

def State.halfTemp (s : State) (h : Half) : Int := (s.f hub (if h then F.PW_TEMP_east else F.PW_TEMP_west) : Nat)

/-- Entry `i` takes a word for a unit, in the list, in the colophon and in the record. -/
def State.setRestriction (s : State) (i : Nat) (u : HwUnit) (w : BitVec 32) : State :=
  let h := tileHalf (F.IN_RESTRICT_tile.get w)
  let r : Restriction := { word := w, unit := u, changed := s.ns, inForce := decide (F.IN_RESTRICT_valid.get w = 1) && capRange w (s.halfTemp h), leftAt := none }
  let l := s.stew.restrictions
  let old : BitVec 32 := match l[i]? with
    | some o => o.word
    | none => 0
  let l := if i < l.length then l.set i r else l ++ [r]
  let s : State := { s with stew := { s.stew with restrictions := l } }
  let s := s.colWrite 0x0C (16 * i) (leBytes 4 w.toNat ++ leBytes 8 s.ns)
  let s := s.ev .hub Ev.IN_RESTRICT [i, old.toNat, w.toNat]
  s.retarget (tileHalf (u.tile?.getD 0))

/-- The word of a provisional cap one operating point below 2.0 GHz (R279). -/
def capWord (tile bin : Nat) : BitVec 32 :=
  F.IN_RESTRICT_provisional.put (F.IN_RESTRICT_valid.put (F.IN_RESTRICT_cap.put (F.IN_RESTRICT_kind.put
    (F.IN_RESTRICT_bin.put (F.IN_RESTRICT_tile.put 0 tile) bin) 1) 1) 1) 1

/-- The word of a voltage raise at all temperatures (R280). -/
def raiseWord (tile bin raise : Nat) : BitVec 32 :=
  F.IN_RESTRICT_valid.put (F.IN_RESTRICT_raise.put (F.IN_RESTRICT_kind.put (F.IN_RESTRICT_all_bins.put
    (F.IN_RESTRICT_bin.put (F.IN_RESTRICT_tile.put 0 tile) bin) 1) 2) raise) 1

/-- The entry that the next restriction takes: the first that is not in force. -/
def State.freeRestriction (s : State) : Nat :=
  (s.stew.restrictions.findIdx? (fun r => decide (F.IN_RESTRICT_valid.get r.word = 0))).getD s.stew.restrictions.length

/-- A sweep becomes due at the tile's next release. -/
def State.dueSweep (s : State) (tile : Nat) (u : HwUnit) : State :=
  if s.stew.sweeps.contains (tile, u) then s
  else { s with stew := { s.stew with sweeps := s.stew.sweeps ++ [(tile, u)] } }

/-- All of several charges fall in one bin by a key. -/
def oneBin (key : Charge → Nat) : List Charge → Bool
  | [] => true
  | a :: t => t.all (fun b => decide (key b = key a))

/-! The judgement (R276). -/

/-- The charges of a unit that came before one. -/
def State.before (s : State) (c : Charge) : List Charge := (s.charges.takeWhile (fun e => e ≠ c)).filter (fun e => decide (e.unit = c.unit))

/-- The first rule of R276 that a charge meets, and the earlier charge that meets it with it. -/
def State.ruleMet (s : State) (c : Charge) : Option (Nat × Charge) :=
  let l := s.before c
  match (if c.resolved then none else l.find? (fun e => !e.resolved && decide (c.time < e.time + month))) with
  | some e => some (1, e)
  | none =>
    match l.find? (fun e => decide (e.code = c.code) && s.stew.resetLog.any (fun r =>
        decide (e.time ≤ r.2.2) && decide (r.2.2 ≤ c.time) && decide (c.time ≤ r.2.2 + 3600000000000) &&
        c.unit.inReset r.1 r.2.1)) with
    | some e => some (2, e)
    | none =>
      if c.code = Ev.PS_VOTE ∧ c.resolved then
        (l.find? (fun e => decide (e.code = Ev.PS_VOTE) && e.resolved && decide (c.time < e.time + 86400000000000))).map
          (fun e => (3, e))
      else none

/-- A unit that a restriction stands for. -/
def State.restricted (s : State) (u : HwUnit) : Bool := s.validRestrictions.any (fun r => decide (r.unit = u))

/-- One charge is judged: permanent, restricted, or transient. A unit of a tile whose errors all fell in one activity bin is
swept at the tile's next release (R280). A further uncorrectable error of a restricted unit makes it
permanent, whenever it comes (R279); it is recorded under rule 1 (DESIGN CHOICE). -/
def State.judge (s : State) (c : Charge) : State :=
  let s : State := { s with charges := s.charges.map (fun e => if e = c then { e with judged := true } else e) }
  let u := c.unit
  let exhausted : Option PartId := match u with
    | .dramRow p _ _ => if s.stew.pprOut.any (fun k => decide (k.1 = p)) then some p else none
    | _ => none
  if let some p := exhausted then s.withdrawPart p
  else if s.stew.permanent.contains u then s
  else if c.code = Ev.IN_DROOP then
    let l := s.charges.filter (fun e => decide (e.unit = u) && decide (e.code = Ev.IN_DROOP))
    if 2 ≤ l.length && oneBin (fun e => e.act) l then s.dueSweep (u.tile?.getD 0) u else s
  else
    let c' := { c with judged := true }
      let bankLeft : Bool := match u with
        | .leafBank t b => decide (spGet 0 s.sparesUsed (t * 256 + b) < 16)
        | _ => false
      if bankLeft then s
      else if s.restricted u ∧ c.resolved = false then
        s.judgePermanent u 1 (c.code + 2 ^ 16 * (((s.before c').getLast?.map (fun e => e.code)).getD 0))
      else match s.ruleMet c' with
        | none => match u.tile? with
          | some t => if s.before c' ≠ [] ∧ oneBin (fun x => x.act) ((s.before c') ++ [c']) then s.dueSweep t u else s
          | none => s
        | some (rule, e) =>
          let events := c.code + 2 ^ 16 * e.code
          match u.tile? with
          | none => s.judgePermanent u rule events
          | some t =>
            if (rule = 1 ∨ rule = 3) ∧ e.bin = c.bin ∧ s.validRestrictions.length < 16 then
              (s.setRestriction s.freeRestriction u (capWord t c.bin)).dueSweep t u
            else if oneBin (fun x => x.act) ((s.before c') ++ [c']) then s.dueSweep t u
            else s.judgePermanent u rule events

/-- A DRAM row with three corrections within 24 h that is not yet marked (R278). -/
def State.wornRow (s : State) : Option (Nat × Nat × Nat) :=
  let l := (s.dramFixes.filter (fun f => decide (s.ns < f.2.2.2 + 86400000000000))).map (fun f => (f.1, f.2.1, f.2.2.1))
  l.find? (fun k => decide (3 ≤ (l.filter (fun j => j = k)).length) &&
    !((s.stew.pprMarked ++ s.stew.pprDone ++ s.stew.pprOut).any (fun m => decide ((m.1.val, m.2.1, m.2.2) = k))))

/-- STEWARD_JUDGEMENT: the steward judges the oldest charge it has not judged, or marks a DRAM row that has needed three
corrections (R276 to R280). -/
def execStewardJudgement (s : State) : Out :=
  if s.stew.running = false ∨ s.stew.die = false then .next s
  else match s.charges.find? (fun c => !c.judged) with
    | some c => .next (s.judge c)
    | none => match s.wornRow with
      | some k => .next (s.markDram ⟨k.1 % 4, by omega⟩ k.2.1 k.2.2)
      | none => .next s

end Sys2Proof.Machine
end

