-- ==== Sys2Proof/Machine/Command.lean ====
section
/-! DEFINITION. What every steward command shares: its block, its record, its privileges (09_host_attachment.md R232, R233,
R257, 11_fences_resets_recovery.md R295). -/

namespace Sys2Proof.Machine

/-- The delivered notice of an LD that carries a command. -/
def State.cmdNotice (s : State) (ld : LdId) (op : Nat) : Option Notice :=
  s.notices.find? (fun n => decide (n.mailbox = 0) && decide (n.bit = 0) && decide (n.ld = ld.val) &&
    decide (n.phase = .delivered) && decide (s.blockOpcode n = op))

/-- The commands that a withdrawn device still answers: ACK_WITHDRAWN, ATTEST, COLOPHON_READ (R295). -/
def answersWithdrawn (op : Nat) : Bool := decide (op = 0x0503) || decide (op = 0x0701) || decide (op = 0x0801)

/-- A steward command: recorded with its first argument, refused while the device is withdrawn, denied to a tenant where
it is the owner's; else carried out. -/
def State.command (s : State) (ld : LdId) (op arg : Nat) (own : Bool) (k : Notice → State → State) : Out :=
  match s.cmdNotice ld op with
  | none => .next s
  | some n =>
    let s := s.ev .hub Ev.CFG_WRITE [ld.val, op, arg % 2 ^ 32]
    if s.withdrawn ∧ answersWithdrawn op = false then .next (s.refuse n Cs.refused 0x91)
    else if (own ∨ s.withdrawn) ∧ ld ≠ s.owner then
      .next ((s.refuse n Cs.denied 0x1B).ev .hub Ev.CX_PRIV_DENIED [ld.val, op])
    else .next (k { n with phase := .acting } (s.setPhase n .acting))

/-- A partition takes commands: it is enabled, bound to the LD or the LD is the owner, and not withdrawn. -/
def State.mayAsk (s : State) (ld : LdId) (p : PartId) : Bool := decide (ld = s.owner) || s.bound ld p

end Sys2Proof.Machine
end

