-- ==== Sys2Proof/Machine/SelfTest.lean ====
section
/-! DEFINITION. Test runs, rotation, tip-in, tests during work and the device tests (12_self_test_and_rotation.md). -/

namespace Sys2Proof.Machine

/-! Test runs (R303 to R307). -/

/-- The duration of a program in ns (Table 1). -/
def programNs : Nat → Nat
  | 1 => 180000000
  | 2 => 12000000
  | 3 => 20000000
  | 4 => 60000000
  | 5 => 20000000
  | 6 => 250000000
  | 7 => 5034000000
  | _ => 2000000000

/-- The `kind` and `coverage` of a program's coverage record (Table 2). -/
def programKind : Nat → Nat
  | 4 => 1
  | 5 => 2
  | 6 => 3
  | 7 => 4
  | _ => 0
def programCoverage : Nat → Nat
  | 1 => 9710
  | 6 => 9640
  | _ => 0xFFFF

/-- The unit word of a run. -/
def runUnit (program unit : Nat) : Nat :=
  match program with
  | 4 => unitWord 0x0B 0
  | 5 => unitWord 0x0C 0
  | 6 => unitWord 0x10 0
  | 7 => unitWord 0x0D 0
  | _ => unitWord 0x0A unit

/-- A run is asked for. -/
def State.askRun (s : State) (program unit : Nat) (quire : Option QuireId) : State :=
  { s with runs := s.runs ++ [{ program := program, unit := unit, quire := quire, going := false, startAt := 0 }] }

/-- The runs of a tile's test: 0x01, 0x02, 0x03, and 0x08 for each sweep that is due (R303, R313). -/
def State.askTile (s : State) (tile : Nat) (quire : Option QuireId) : State :=
  let s : State := { s with stew := { s.stew with tileFail := spSet 0 s.stew.tileFail tile 0, tileSig := spSet 0 s.stew.tileSig tile 0 } }
  let s := ((s.askRun 1 tile quire).askRun 2 tile quire).askRun 3 tile quire
  if quire.isSome then s
  else (s.stew.sweeps.filter (fun w => decide (w.1 = tile))).foldl (fun t _ => t.askRun 8 tile none) s

/-- Heavy runs in progress among the tiles that a test selects. -/
def State.heavyRuns (s : State) (f : Nat → Bool) : Nat :=
  (s.runs.filter (fun r => r.going && heavyProgram r.program && f r.unit)).length

/-- A heavy run breaks neither limit of R306. -/
def State.heavyFits (s : State) (r : TestRun) : Bool :=
  !heavyProgram r.program || (decide (s.heavyRuns (fun _ => true) < 2) &&
    decide (s.heavyRuns (fun t => decide (tilePart t = tilePart r.unit)) < 1))

/-- A run may start behind the runs asked for before it: one program of a unit at a time and in order, what is not a
tile's alone (Table 3), and one saved quire of a partition at a time, which has one save area (R308). -/
def mayFollow (earlier : List TestRun) (r : TestRun) : Bool :=
  earlier.all (fun e => decide (e.unit ≠ r.unit) && decide (e.unit ≠ 36) && decide (r.unit ≠ 36) &&
    !(e.quire.isSome && r.quire.isSome && decide (tilePart e.unit = tilePart r.unit)))

/-- The first waiting run that may start. -/
def State.nextRun (s : State) : List TestRun → List TestRun → Option TestRun
  | _, [] => none
  | earlier, r :: t => if !r.going && mayFollow earlier r && s.heavyFits r then some r else s.nextRun (earlier ++ [r]) t

/-- What a run writes to the colophon: the history and the coverage record (R304, R305). -/
def State.colRun (s : State) (program unit verdict : Nat) (ms : Nat) (sig : BitVec 128) : State :=
  let w (i : Nat) := sig.toNat / 2 ^ (32 * i) % 2 ^ 32
  let fold := w 0 ^^^ w 1 ^^^ w 2 ^^^ w 3
  let s := s.colAppend 0x09 64 8192 (leBytes 8 s.ns ++ leBytes 1 program ++ leBytes 1 unit ++ leBytes 1 verdict ++ [0] ++
    leBytes 4 ms ++ leBytes 16 sig.toNat)
  let c := leBytes 2 program ++ leBytes 1 (programKind program) ++ leBytes 1 (if programKind program = 0 then unit else 0) ++
    leBytes 2 (programCoverage program) ++ leBytes 2 (min 65535 ms) ++ leBytes 1 verdict ++ List.replicate 7 0 ++
    leBytes 8 s.ns ++ leBytes 4 fold
  s.colAppend 0x0A 32 8192 (c ++ leBytes 4 (crc32c c).toNat)

/-- The reference signature of a program (R304). -/
def State.reference (s : State) (program : Nat) : Option (BitVec 128) :=
  (s.stew.store.misr.find? (fun m => decide (m.1 = program))).map (fun m => m.2)

/-- Signature words of a record. -/
def sigWords (sig : BitVec 128) : List Nat := (List.range 4).map (fun i => sig.toNat / 2 ^ (32 * i) % 2 ^ 32)

/-- A run ends with a verdict: 0 pass, 1 fail, 2 not run; it leaves the list. -/
def State.closeRun (s : State) (r : TestRun) (verdict cause : Nat) (sig : BitVec 128) : State :=
  let fold := (sigWords sig).foldl (fun a b => a ^^^ b) 0
  let ms := if verdict = 2 then 0 else (s.ns - r.startAt) / 1000000
  let s : State := { s with runs := s.runs.erase r,
                            tested := if r.unit = 36 then s.tested
                              else spSet (0, 0, 0, 0) s.tested r.unit (r.program, verdict, s.ns, sig) }
  let s := s.colRun r.program r.unit verdict ms sig
  let s := if verdict = 2 then s else s.ev .hub Ev.BT_RESULT [r.program, runUnit r.program r.unit, verdict, fold]
  if verdict = 0 then s else s.ev .hub Ev.BT_FAIL ([r.program, runUnit r.program r.unit, cause] ++ sigWords sig)

/-! Saved state (R308). -/

/-- The leaf of a quire goes to the test save area of its partition. -/
def State.saveQuire (s : State) (q : QuireId) : State :=
  let p := partOf q
  let base := memKey p 0x3BF2000000
  let m := s.mem.filter (fun c => decide (c.1 < base) || decide (base + 0x8000000 ≤ c.1))
  let m := (s.qu q).leaf.foldl (fun a c => spSet 0 a (base + c.1) c.2) m
  { s with mem := m, memMark := s.memMark.filter (fun c =>
      decide (c.1 < markKey p 0x3BF2000000) || decide (markKey p 0x3BFA000000 ≤ c.1)) }

/-- A row of the save that comes back wrong: its bytes are free values, the quire is suspect. Rows up to 262,143 are the
leaf's, the others the pocket memories', 32 of each stitcher. -/
def State.badRow (s : State) (q : QuireId) (row : Nat) : State :=
  let b := (List.range 512).map (fun i => (Config.freeBits s.freeCount i 8))
  let s := s.useFree
  let s := if row < 262144 then s.updQu q (fun x => { x with leaf := memWrite x.leaf (512 * row) b })
    else
      let k := row - 262144
      s.updSt ⟨q, ⟨k / 32 % 64, by omega⟩⟩ (fun x => { x with pocket := memWrite x.pocket (512 * (k % 32)) b })
  (s.setF (qb q) F.ST_FAULT_suspect 1).ev (.quire q) Ev.BT_RESTORE [q.val, 512 * row]

/-- The duration of a save or of a restore of a leaf in ns (R308). -/
def saveNs : Nat := 520000

/-- The state of a quire is restored: programs reloaded from the last image, rows that fail their CRC. -/
def State.restoreQuire (s : State) (q : QuireId) (bad : List (Fin 264192)) : State :=
  let s := (s.waitNs (s.ns + saveNs)).updQu q (fun x => { x with leafMark := x.leafMark.filter (fun c => decide (c.2 ≠ 1)) })
  let s := match (s.part (partOf q)).image with
  | none => s
  | some im => (im.stitchers.filter (fun x => decide (x.u.quire = q))).foldl (fun t x =>
      t.updSt x.u (fun y =>
        let z := (List.range (imCount x 0)).foldl (fun z i => z.putChunk 0 i (chunkOf (imBytes x 0) i)) y
        { z with memErr := z.memErr.filter (fun c => decide (c.1 < 2048) && decide (c.2 ≠ 1)) })) s
  bad.foldl (fun t r => t.badRow q r.val) s

/-! The ends of tests. -/

/-- The result word of a test: outcome, first failing program, tile, signature (R318). -/
def testWord (outcome fail tile : Nat) (sig : BitVec 128) : Nat :=
  outcome + 2 ^ 8 * fail + 2 ^ 16 * (tile % 64) + 2 ^ 32 * (sig.toNat % 2 ^ 32)

/-- The failing program of a tile's test in progress. -/
def State.failOf (s : State) (tile : Nat) : Nat := spGet 0 s.stew.tileFail tile

/-- The signature that a tile's result word carries: of the failing run, or of the last one (R318). -/
def State.sigOf (s : State) (tile : Nat) : BitVec 128 :=
  if s.failOf tile = 0 then (spGet (0, 0, 0, (0 : BitVec 128)) s.tested tile).2.2.2 else spGet 0 s.stew.tileSig tile

/-- The test of a released tile ends: it becomes the spare, or it is fenced (R315); a rotation that is asked for comes
next (R317). -/
def State.endRelease (s : State) (p : PartId) (tile : Nat) : State :=
  let fail := s.failOf tile
  let word := testWord (if fail = 0 then 0 else 1) fail tile (s.sigOf tile)
  let notices := match (s.part p).rot with
    | some r => r.notices
    | none => []
  let s := s.updPart p (fun x => { x with rot := none, rotDue := if x.rotWant.isEmpty then x.rotDue else min x.rotDue s.ns })
  let s := (s.setF (pt p) F.BT_ROT_STATUS_state 0).setF (pt p) F.BT_ROT_STATUS_last (if fail = 0 then 0 else 3)
  let s := if fail = 0 then s.setF (pt p) F.MS_SPARE_testing 0 else s.judgePermanent (.tile tile) 4 0
  let s := s.copyMap p (s.mapWords p)
  notices.foldl (fun t k => t.endCmd k Cs.done word) s

/-- The test of a quire in a window ends (R317). -/
def State.endHeld (s : State) (q : QuireId) (tile : Nat) : State :=
  let p := partOf q
  let fail := s.failOf tile
  let word := testWord (if fail = 0 then 0 else 1) fail tile (s.sigOf tile)
  let s := match (s.part p).heldTests.find? (fun h => decide (h.1 = q)) with
    | some h => (s.updPart p (fun x => { x with heldTests := x.heldTests.erase h })).endCmd (h.2.1, h.2.2) Cs.done word
    | none => s
  let s := if fail = 0 then s else s.judgePermanent (.tile tile) 4 0
  match (s.part p).window with
  | none => (s.dropHold p .testWindow).tryPending p false
  | some _ => if (s.part p).heldTests.isEmpty then s.closeWindow p else s

/-- The device test ends: mode 1 leaves the die answering management only, its result and the accumulated counts in the
colophon; mode 0 resumes (R309, 14_event_recorder_and_colophon.md R355). -/
def State.endDevice (s : State) (mode : Nat) : State :=
  let word := testWord (if s.stew.devFail = 0 then 0 else 1) s.stew.devFail 0 s.stew.devSig
  let k := s.stew.devNotice
  let s := if mode = 1 then
      let s := s.flushRam
      { s with stew := { s.stew with devTest := some 3, devNotice := none, testsRun := s.stew.testsRun + 1,
                                     testsPassed := s.stew.testsPassed + (if s.stew.devFail = 0 then 1 else 0),
                                     idRsv := s.stew.idNext, testPassed := decide (s.stew.devFail = 0),
                                     testAt := some s.ns, testHere := true, testStore := s.stew.store } }
    else { s with stew := { s.stew with devTest := none, devNotice := none } }
  match k with
  | some k => s.endCmd k Cs.done word
  | none => s

/-- After the last run of a unit: what the test was for goes on. -/
def State.afterRun (s : State) (r : TestRun) (bad : List (Fin 264192)) : State :=
  if s.runs.any (fun e => decide (e.unit = r.unit) && decide (r.unit ≠ 36)) then s
  else
    let s := match r.quire with
      | some q => s.restoreQuire q bad
      | none => s
    match s.stew.devTest with
    | some mode =>
      if mode = 3 then s
      else
        let s := if r.unit ≠ 36 ∧ s.failOf r.unit ≠ 0 then s.judgePermanent (.tile r.unit) 4 0 else s
        if s.runs.isEmpty then s.endDevice mode else s
    | none =>
      if r.unit = 36 then s
      else match r.quire with
        | some q => s.endHeld q r.unit
        | none => s.endRelease (tilePart r.unit) r.unit

/-- Keys are cleared before the scan of the hub domain: the IDE streams are insecure until the host re-keys them (R307). -/
def State.clearKeys (s : State) : State :=
  let s := s.ev .hub Ev.BT_KEYS_CLEARED [unitWord 0x10 0, 2]
  if s.f hub F.CX_LINK_ide = 0 then s else s.setF hub F.CX_LINK_ide 2

/-- Held tests of a quire that is absent now complete aborted (DEDUCED). -/
def State.dropAbsentTests (s : State) (p : PartId) : State :=
  let gone := (s.part p).heldTests.filter (fun h => !s.present h.1)
  gone.foldl (fun t h => (t.updPart p (fun x => { x with heldTests := x.heldTests.erase h })).endCmd (h.2.1, h.2.2) Cs.aborted 3) s

/-- Held tests of windows that are open start, one at a time, where they can end before the window does (R317). -/
def State.openTests (s : State) : State :=
  allParts.foldl (fun t p =>
    let t := t.dropAbsentTests p
    match (t.part p).window, (t.part p).heldTests with
    | some w, h :: _ =>
      if t.f (pt p) F.TK_STATUS_held = 1 ∧ t.windowTest p = false ∧ t.ns + 214000000 ≤ w then
        t.askTile (t.tileOf h.1) (some h.1)
      else t
    | _, _ => t) s

/-- TEST_RUN_START: the first waiting run that the limits allow starts; `keys`: the keys of a scanned domain read back
cleared. A program without a reference signature is not run (R304, R306 to R308). -/
def execTestRunStart (keys : Bool) (s : State) : Out :=
  if s.stew.running = false ∨ s.stew.die = false then .next s
  else
    let s := s.openTests
    match s.nextRun [] s.runs with
    | none => .next s
    | some r =>
      match s.reference r.program with
      | none => .next ((s.closeRun r 2 0x49 0).afterRun r [])
      | some _ =>
        if r.program = 6 ∧ keys = false then .next ((s.closeRun r 2 0x4A 0).afterRun r [])
        else
          let s := if r.program = 6 then s.clearKeys else s
          let save := r.quire.isSome && decide (r.program = 1)
          let s := match r.quire with
            | some q => if save then s.saveQuire q else s
            | none => s
          let at_ := s.ns + (if save then saveNs else 0)
          .next { s with runs := s.runs.map (fun e => if e = r then { e with going := true, startAt := at_ } else e) }

/-! Margin sweeps (10_collation_and_checking.md R279, R280). -/

/-- The restriction entry of a unit. -/
def State.restrictionOf (s : State) (u : HwUnit) : Option Nat :=
  s.stew.restrictions.findIdx? (fun r => decide (r.unit = u) && decide (F.IN_RESTRICT_valid.get r.word = 1))

/-- A sweep ends: `raise` is the least raise in steps of 10 mV with which the tile passes, 5 for none. The failing unit is
judged permanent where none passes; a raise takes the entry or a new one; standard margins lift the provisional cap. -/
def State.endSweep (s : State) (tile raise slack : Nat) : State :=
  match s.stew.sweeps.find? (fun w => decide (w.1 = tile)) with
  | none => s
  | some w =>
    let u := w.2
    let s : State := { s with stew := { s.stew with sweeps := s.stew.sweeps.erase w } }
    let old : Option (Nat × BitVec 32) := (s.restrictionOf u).map (fun i => (i, match s.stew.restrictions[i]? with
      | some r => r.word
      | none => 0))
    let bin := match old with
      | some (_, w) => F.IN_RESTRICT_bin.get w
      | none => match s.charges.reverse.find? (fun c => decide (c.unit = u)) with
        | some c => c.bin
        | none => 0
    let result := if 5 ≤ raise then 1 else 0
    let s := (s.ev (.part (tilePart tile)) Ev.IN_SWEEP [tile, bin, result, min 4 raise]).colMargin tile 1 bin slack (min 4 raise) result
    if 5 ≤ raise then
      let s := match old with
        | some (i, w) => s.setRestriction i u (F.IN_RESTRICT_valid.put w 0)
        | none => s
      s.judgePermanent u 4 0
    else if raise = 0 then
      match old with
      | some (i, w) => s.setRestriction i u (F.IN_RESTRICT_valid.put w 0)
      | none => s
    else match old with
      | some (i, _) => s.setRestriction i u (raiseWord tile bin raise)
      | none =>
        if s.validRestrictions.length < 16 then s.setRestriction s.freeRestriction u (raiseWord tile bin raise)
        else s.judgePermanent u 4 0

/-- TEST_RUN_END: the run in progress on a tile, or on what is not a tile (36), ends with a signature; of a sweep, with the
least raise that passes and the least slack seen; of a quire's test, with the rows whose restore fails (R304, R308). -/
def execTestRunEnd (unit : Fin 37) (sig : BitVec 128) (raise : Fin 6) (slack : BitVec 6) (bad : List (Fin 264192))
    (s : State) : Out :=
  match s.runs.find? (fun r => r.going && decide (r.unit = unit.val)) with
  | none => .next s
  | some r =>
    let s := if r.program = 8 then s else s.waitNs (r.startAt + programNs r.program)
    let ok := decide (s.reference r.program = some sig)
    let s := s.closeRun r (if ok then 0 else 1) 0x48 sig
    let s := if r.program = 7 ∧ s.stew.devTest = some 1 then { s with mem := [], memMark := [] } else s
    let s := if ok ∧ r.program = 8 then s.endSweep r.unit raise.val slack.toNat else s
    let s := if ok then s
      else
        let s : State := if r.unit = 36 ∨ s.failOf r.unit ≠ 0 then s
          else { s with stew := { s.stew with tileFail := spSet 0 s.stew.tileFail r.unit r.program,
                                              tileSig := spSet 0 s.stew.tileSig r.unit sig } }
        if s.stew.devTest.isSome ∧ s.stew.devFail = 0 then
          { s with stew := { s.stew with devFail := r.program, devSig := sig } }
        else s
    let s : State := if s.stew.devTest.isSome ∧ s.stew.devFail = 0 then { s with stew := { s.stew with devSig := sig } } else s
    .next (s.afterRun r bad)

/-- TEST_WINDOW_END: the window's time runs out (R317). -/
def execTestWindowEnd (p : PartId) (s : State) : Out :=
  match (s.part p).window with
  | none => .next s
  | some t => .next ((s.waitNs t).closeWindow p)

/-! Rotation (R311 to R316). -/

/-- The bands that a switch carries: the rotation set, and the weight bands. -/
def State.rotBand (s : State) (q : QuireId) (band : Nat) : Bool :=
  decide ((s.rd (qb q) (R.BT_ROTSET.nth (band / 32 % 32))).toNat / 2 ^ (band % 32) % 2 = 1)

/-- Used stitchers of a quire. -/
def State.usedStitchers (s : State) (q : QuireId) : Nat :=
  ((List.finRange 64).filter (fun i => decide (s.f (sb ⟨q, i⟩) F.ST_STATUS_used = 1))).length

/-- The volume of a switch in bytes (R312). -/
def State.rotVolume (s : State) (q : QuireId) : Nat :=
  let bands := ((List.range 1024).filter (fun b => s.rotBand q b || (s.qu q).dirty.contains b)).length
  131072 * bands + 18432 * s.usedStitchers q

/-- The cycles of a copy: a row of 512 bytes per 4.125 cycles (Table 4). -/
def copyCycles (volume : Nat) : Nat := (volume / 512 * 33 + 7) / 8

/-- The planned stall in ns (R314). -/
def State.planNs (s : State) (p : PartId) (volume : Nat) : Nat := 8000 + copyCycles volume * s.period p / 8

/-- The half runs at 1.0 GHz or below, or is down. -/
def State.slowHalf (s : State) (p : PartId) : Bool :=
  decide (2 ≤ s.f (pt p) F.TK_STATUS_clock) || decide (s.f hub (halfFld (halfOf p)) ≠ 0)

/-- The volume or the plan is too large. -/
def State.tooLarge (s : State) (q : QuireId) : Bool :=
  decide (16777216 < s.rotVolume q) || decide (100000 < s.planNs (partOf q) (s.rotVolume q))

/-- The first condition of R311 that fails, by its cause code. -/
def State.rotBlocked (s : State) (q : QuireId) : Option Nat :=
  let p := partOf q
  let x := s.part p
  if s.f (pt p) F.BT_ROT_CFG_enable = 0 then some 0x50
  else if s.running p ∧ s.f (pt p) F.CH_MODE_tolerant = 0 then some 0x51
  else if s.f (pt p) F.MS_SPARE_testing = 1 ∨ s.f (pt p) F.MS_SPARE_none = 1 then some 0x52
  else if s.tooLarge q then some 0x53
  else if s.slowHalf p then some 0x54
  else if s.ns < x.holdoff then some 0x55
  else if x.recovery.isSome ∨ x.load.isSome ∨ x.holds.contains .reconf ∨ s.fenced p then some 0x56
  else none

/-- The quire whose rotation is due: the head of the requests, else the next in logical order (R311, R317). -/
def State.rotQuire (s : State) (p : PartId) : Option QuireId :=
  match (s.part p).rotWant with
  | w :: _ => some w.1
  | [] =>
    let n := s.f (pt p) F.BT_ROT_STATUS_next
    ((List.range 8).map (fun i => quireOf p ((n + i) % 8))).find? (fun q => s.present q)

/-- A rotation that cannot start or go on is postponed by 10 minutes; after 24 h in all that is an error (R311). -/
def State.postpone (s : State) (q : QuireId) (cause : Nat) : State :=
  let p := partOf q
  let first := (s.part p).rotSince.getD s.ns
  let late := decide (86400000000000 ≤ s.ns - first)
  let notices := match (s.part p).rot with
    | some r => r.notices
    | none => []
  let s := s.updPart p (fun x => { x with
    rot := none, rotDue := s.ns + 600000000000, rotSince := if late then some s.ns else some first,
    rotWant := notices.map (fun k => (q, k.1, k.2)) ++ x.rotWant })
  let s := s.updQu q (fun x => { x with copying := none, dirty := [] })
  let s := ((s.setF (pt p) F.BT_ROT_STATUS_state 5).setF (pt p) F.BT_ROT_STATUS_last 1).setCnt (pt p) R.BT_ROT_NEXT_LO
    R.BT_ROT_NEXT_HI 0
  let s := s.ev (.part p) Ev.BT_ROT_POSTPONED [q.val, cause]
  if late then s.raise (.part p) Ev.BT_ROT_POSTPONED 2 [q.val, 0x57] else s

/-- The period of rotations in ns (BT_ROT_CFG). -/
def State.rotPeriod (s : State) (p : PartId) : Nat := (max 10 (s.f (pt p) F.BT_ROT_CFG_period_min)) * 60000000000

/-- The cycles in which the weight bands are copied: after 0.1 ms, a row every 5 cycles (Table 4). -/
def State.copySpan (s : State) (q : QuireId) : Nat × Nat :=
  let from_ := (s.part (partOf q)).cyc + 800000 / s.period (partOf q)
  (from_, from_ + 5 * 256 * ((List.range 1024).filter (fun b => s.weightBand q b)).length)

/-- ROTATION_DUE: a quire's rotation falls due: the notice, the preparation of the spare and the copy of the weight bands,
or a postponement (R311 to R313). -/
def execRotationDue (p : PartId) (s : State) : Out :=
  let x := s.part p
  match s.rotQuire p with
  | none => .next s
  | some q =>
    if x.broughtUp = false ∨ s.enabled p = false ∨ x.rot.isSome ∨ s.stew.devTest.isSome then .next s
    else
      let s := s.waitNs x.rotDue
      let volume := s.rotVolume q
      let s := s.setF (qb q) F.BT_QROT_volume_mib (min 31 ((volume + 1048575) / 1048576))
      let s := s.setF (pt p) F.BT_ROT_STATUS_quire (localOf q)
      match s.rotBlocked q with
      | some c => .next (s.postpone q c)
      | none =>
        let lead := max 1 (s.f (pt p) F.BT_ROT_CFG_lead_ms) * 1000000
        let planned := s.ns + lead
        let mine := (s.part p).rotWant.filter (fun w => decide (w.1 = q))
        let r : Rotation := { quire := q, planned := planned, volume := volume, holdAt := none,
                              notices := mine.map (fun w => (w.2.1, w.2.2)) }
        let s := s.updPart p (fun y => { y with rot := some r, rotDue := s.ns + s.rotPeriod p, rotSince := none,
                                                rotWant := y.rotWant.filter (fun w => decide (w.1 ≠ q)) })
        let s := (s.setF (pt p) F.BT_ROT_STATUS_state 2).setCnt (pt p) R.BT_ROT_NEXT_LO R.BT_ROT_NEXT_HI planned
        let s := s.ev (.part p) Ev.BT_ROT_NOTICE ([q.val] ++ cap64 planned ++ [volume])
        let s := if s.f (pt p) F.BT_ROT_CFG_irq = 1 then
            match s.ldOf p with
            | some l => s.msi l.val (s.f (pt p) F.BT_ROT_CFG_vector)
            | none => s
          else s
        .next (s.updQu q (fun y => { y with copying := some (s.copySpan q), dirty := [] }))

/-- The pieces of an image's initial activation contents, 64 bytes each: address and bytes. -/
def actPieces (im : Image) (q : QuireId) : List (Nat × List (BitVec 8)) :=
  (im.leaf.filter (fun w => decide (w.1 = q))).flatMap (fun w =>
    (List.range ((w.2.2.length + 63) / 64)).map (fun i => (w.2.1 + 64 * i, (w.2.2.drop (64 * i)).take 64)))

/-- The leaf of a quire as the new tile holds it: bands outside the rotation set at the image's initial contents or zero
(R312). -/
def State.carryLeaf (s : State) (q : QuireId) : State :=
  let keep (b : Nat) : Bool := s.weightBand q b || s.rotBand q b
  let s' := s.updQu q (fun x => { x with
    leaf := x.leaf.filter (fun c => keep (c.1 / 131072)),
    leafMark := x.leafMark.filter (fun c => decide (c.2 ≠ 1) && keep (c.1 / 16384)) })
  match (s.part (partOf q)).image with
  | none => s'
  | some im => ((actPieces im q).filter (fun a => !keep (a.1 / 131072))).foldl
      (fun t a => t.leafWrite q a.1 a.2 (unitWord 0x14 (partOf q).val) none) s'

/-- The map of a partition with a quire's tile changed. -/
def State.mapWith (s : State) (p : PartId) (i : Nat) (t : Option TileId) : List (Option TileId) :=
  (List.range 8).map (fun j =>
    if j = i then t
    else if s.f (pt p) (F.MS_MAP_absent.nth j) = 1 then none
    else some ⟨s.f (pt p) (F.MS_MAP_tile.nth j) % 36, by omega⟩)

/-- The spare of a partition. -/
def State.spareTile (s : State) (p : PartId) : TileId := ⟨s.f (pt p) F.MS_SPARE_tile % 36, by omega⟩

/-- The rotation holds of a span are released. -/
def State.releaseRot (s : State) (p : PartId) : State :=
  (s.spanOf p).foldl (fun t r => (t.dropHold r .rotation).tryPending r false) s

/-- In exact latency mode a partition with a route above its stated value stays stopped; so does one that lands on an
absent quire (11_fences_resets_recovery.md R296, R297). -/
def State.stopOnRoute (s : State) (p : PartId) : State :=
  if s.f (pt p) F.CH_MODE_tolerant = 0 ∧ (s.quiresOf p).any (fun q =>
      (List.range 256).any (fun e => decide (s.f (eb q e) F.CH_ROUTE_A_cfg_err = 1))) then
    (s.setF (pt p) F.TK_CTRL_run 0).setF (pt p) F.TK_STATUS_running 0
  else s

/-- Pending activation remaps of a released tile are applied, and its test is asked for (Table 4, step 5). -/
def State.testReleased (s : State) (q : QuireId) (tile : Nat) : State :=
  let l := (spGet [] s.trackers tile).filter (fun t => t.pending && !t.weight)
  let s := l.foldl (fun t e =>
    let a := t.remapTile q tile e
    if a.2 then a.1.colDefect 2 tile (e.bank + 256 * e.row) else a.1) s
  s.askTile tile none

/-- The map of step 4 of a rotation: the spare carries the quire, the released tile is tested (Table 4). -/
def State.switchMap (s : State) (p : PartId) (r : Rotation) (gone : Nat) : State :=
  let q := r.quire
  let old := s.tileOf q
  let spare := s.spareTile p
  let s := s.carryLeaf q
  let s := (List.finRange 64).foldl (fun t i => t.updSt ⟨q, i⟩ (fun x =>
    { x with memErr := x.memErr.filter (fun c => decide (c.1 < 2048) && decide (c.2 = 2)) })) s
  let s := s.waitCycle p ((s.part p).cyc + 64)
  let s := s.applyMap p (s.mapWith p (localOf q) (some spare)) (some ⟨old % 36, by omega⟩) gone
  let s := s.setF (pt p) F.MS_SPARE_testing 1
  let s := s.copyMap p (s.mapWords p)
  let stall := s.ns - r.holdAt.getD s.ns
  let s := (s.setF (pt p) F.BT_LAST_STALL_ns (min 131071 stall)).setF (qb q) F.BT_QROT_released old
  let s : State := { s with stew := { s.stew with rotAt := spSet 0 s.stew.rotAt q.val (s.ns + 1) } }
  let s := ((s.incF (pt p) F.BT_ROT_STATUS_rotations).setF (pt p) F.BT_ROT_STATUS_state 4).setF (pt p)
    F.BT_ROT_STATUS_next ((localOf q + 1) % 8)
  let s := (s.setF (pt p) F.BT_ROT_STATUS_last 0).setCnt (pt p) R.BT_ROT_NEXT_LO R.BT_ROT_NEXT_HI 0
  let s := s.ev (.part p) Ev.BT_ROT_DONE [q.val, old, spare.val, stall]
  let s := s.updQu q (fun x => { x with copying := none, dirty := [] })
  (s.stopOnRoute p).releaseRot p |>.testReleased q old

/-- A switch is abandoned: the old tile keeps the quire, the hold is released (R314). -/
def State.abandonSwitch (s : State) (p : PartId) (cause : Nat) : State :=
  (s.dropRotation p cause).releaseRot p

/-- Step 4 of a rotation, with the partition and its span held since `holdAt`: drain and copy; where they end within 120 µs of
the hold the map switches, else the switch is abandoned (Table 4, R314). -/
def State.switchQuire (s : State) (p : PartId) (r : Rotation) (drain : Nat) : State :=
  let limit := s.drainLimit p
  let s := s.landAll ((List.range 8).map (quireOf p))
  let gone := s.unitsOf p
  let s := s.waitNs (s.ns + (if gone = 0 then min drain limit else limit))
  let s := if gone = 0 then s else s.dropUnits p
  let s := s.waitCycle p ((s.part p).cyc + copyCycles (s.rotVolume r.quire))
  if r.holdAt.getD s.ns + 120000 < s.ns then s.abandonSwitch p 0x58 else s.switchMap p r gone

/-- A quire starts on a tile from the last image: leaf, stitchers, registers (R316, 11_fences_resets_recovery.md R288). -/
def State.rebuildQuire (s : State) (q : QuireId) : State :=
  let s := (List.finRange 64).foldl (fun t i =>
    let u : StId := ⟨q, i⟩
    let x := t.st u
    (t.freeCredits q 0 x.heldCredits).setSt u { Stitcher.init with resets := x.resets, stopped := x.stopped }) s
  let s := s.updQu q (fun x => { x with leaf := [], leafMark := [], ops := [], wbuf := [], wwait := [] })
  let s := match (s.part (partOf q)).image with
    | none => s
    | some im => (((s.reloadWeights im q).reloadActs im q).installQuire im q).reloadRegs im q
  s.setF (qb q) F.ST_FAULT_suspect 1

/-- A quire is marked absent (11_fences_resets_recovery.md R297). -/
def State.markAbsent (s : State) (q : QuireId) (tile gone : Nat) : State :=
  let p := partOf q
  let s := s.applyMap p (s.mapWith p (localOf q) none)
    (if s.f (pt p) F.MS_SPARE_none = 1 then none else some (s.spareTile p)) gone
  (s.evalShield p).ev (.part p) Ev.RS_DEGRADED [q.val, tile, s.presentCount p]

/-- The units already addressed to a tile that has failed are absorbed by its network interface, and recorded with their count
(08_cord_mesh_and_spine.md R205). -/
def State.absorbFailed (s : State) (p : PartId) (tile : Nat) : State :=
  let toIt (src dst : QuireId) : Bool := decide (s.addressed src dst = tile) && decide (partOf dst = p)
  let n := (s.flights.filter (fun m => toIt m.src m.dst)).length +
    (s.creditFlights.filter (fun c => toIt c.from_ c.src)).length
  let q := ((List.range 8).map (quireOf p)).find? (fun q => decide (s.tileOf q = tile))
  let s := ({ s with flights := s.flights.filter (fun m => !toIt m.src m.dst),
                     creditFlights := s.creditFlights.filter (fun c => !toIt c.from_ c.src) }).settleAll
  match q with
  | some q => s.noteAbsent q tile n
  | none => s

/-- The spare is tipped in under a quire, or the quire is marked absent, with the units lost at the drain (R316, R320). -/
def State.tipInMap (s : State) (q : QuireId) (tile gone : Nat) : State :=
  let p := partOf q
  if s.f (pt p) F.MS_SPARE_none = 1 ∨ s.f (pt p) F.MS_SPARE_testing = 1 then
    let testing := s.f (pt p) F.MS_SPARE_testing
    let s := s.markAbsent q tile gone
    if testing = 1 then (s.setF (pt p) F.MS_SPARE_testing 1).copyMap p (s.mapWords p) else s
  else s.applyMap p (s.mapWith p (localOf q) (some (s.spareTile p))) none gone

/-- An unplanned tip-in, with the partition held: the weight bands come back at 256 bytes per ns (R316). -/
def State.tipIn (s : State) (p : PartId) (k : QuireId × Nat × Nat) (drain : Nat) : State :=
  let q := k.1
  let s := s.updPart p (fun x => { x with tipins := x.tipins.erase k })
  let spare := s.f (pt p) F.MS_SPARE_tile
  let can := decide (s.f (pt p) F.MS_SPARE_none = 0) && decide (s.f (pt p) F.MS_SPARE_testing = 0)
  let limit := s.drainLimit p
  let s := s.absorbFailed p k.2.1
  let s := s.landAll ((List.range 8).map (quireOf p))
  let gone := s.unitsOf p
  let s := s.waitNs (s.ns + (if gone = 0 then min drain limit else limit))
  let s := if gone = 0 then s else s.dropUnits p
  let s := s.tipInMap q k.2.1 gone
  let s := if can then
      let s := s.rebuildQuire q
      let s := s.waitNs (s.ns + 512 * ((List.range 1024).filter (fun b => s.weightBand q b)).length)
      s.ev (.part p) Ev.BT_TIPIN [q.val, k.2.1, spare, (s.ns - k.2.2 + 999999) / 1000000]
    else s
  let s := s.stopOnRoute p
  if (s.part p).tipins.isEmpty then s.releaseRot p else s

/-- ROTATION_SWITCH: a pending tip-in, or step 4 of the rotation in progress, once the partition and its span are held;
`drain` the ns of the drain, `crc`: a row has failed its CRC twice (R313, R314, R316). -/
def execRotationSwitch (p : PartId) (drain : BitVec 14) (crc : Bool) (s : State) : Out :=
  match (s.part p).tipins, (s.part p).rot with
  | k :: _, _ =>
    let s := (s.spanOf p).foldl (fun t r => t.addHold r .rotation) s
    if s.spanHeld p then .next (s.tipIn p k drain.toNat) else .next s
  | [], none => .next s
  | [], some r =>
    let step := s.f (pt p) F.BT_ROT_STATUS_state
    if step = 4 then .next s
    else
      let s := s.waitNs r.planned
      let q := r.quire
      if step ≠ 3 ∧ s.ns < (s.part p).holdoff then .next (s.postpone q 0x55)
      else if step ≠ 3 ∧ s.slowHalf p then .next (s.postpone q 0x54)
      else if step ≠ 3 ∧ s.tooLarge q then .next (s.postpone q 0x53)
      else
        let s := (s.spanOf p).foldl (fun t m => t.addHold m .rotation) s
        if s.f (pt p) F.TK_STATUS_held = 0 then .next s
        else
          let r := { r with holdAt := some (r.holdAt.getD s.ns) }
          let s := (s.updPart p (fun x => { x with rot := some r })).setF (pt p) F.BT_ROT_STATUS_state 3
          if s.spanHeld p = false then .next s
          else if crc then .next (s.abandonSwitch p 0x59)
          else .next (s.switchQuire p r drain.toNat)

/-- ROTATION_ABANDON_TIMEOUT: 120 µs after the hold without a map broadcast (R314). -/
def execRotationAbandonTimeout (p : PartId) (s : State) : Out :=
  match (s.part p).rot with
  | none => .next s
  | some r => match r.holdAt with
    | none => .next s
    | some t =>
      if s.f (pt p) F.BT_ROT_STATUS_state ≠ 3 then .next s
      else .next ((s.waitNs (t + 120000)).abandonSwitch p 0x58)

/-! Tests by command (R309, R317, R318). -/

/-- A partition is active: running, in recovery, or in step 4 of a rotation. -/
def State.active (s : State) (p : PartId) : Bool :=
  s.running p || (s.part p).recovery.isSome || decide (s.f (pt p) F.BT_ROT_STATUS_state = 3)

/-- The runs of Table 3 in their order, of mode 1 or of the service test, which tests a tile after the other, saves what they
carry and leaves LPDDR5X alone. -/
def State.askDevice (s : State) (mode : Nat) : State :=
  let s : State := { s with stew := { s.stew with tileFail := [], tileSig := [] } }
  let s := s.askRun 6 36 none
  let s := if mode = 0 then
      (List.range 36).foldl (fun t i =>
        let q := t.carrier i
        ((t.askRun 1 i q).askRun 2 i q).askRun 3 i q) s
    else
      let s := (List.range 36).foldl (fun t i => (t.askRun 1 i none).askRun 2 i none) s
      (List.range 36).foldl (fun t i => t.askRun 3 i none) s
  let s := (s.askRun 4 36 none).askRun 5 36 none
  if mode = 1 then s.askRun 7 36 none else s

/-- TEST_DEVICE (0x0501): refused while any partition is active, else it begins (R309, R318). -/
def State.testDevice (s : State) (ld : LdId) (mode : Nat) : Out :=
  s.command ld 0x0501 mode true (fun n s =>
    if allParts.any (fun p => s.active p) ∨ s.stew.devTest.isSome then
      (s.complete n Cs.refused 2).ev .hub Ev.BT_REFUSED
        [ld.val, allParts.foldl (fun m p => if s.active p then m + 2 ^ p.val else m) 0]
    else
      let s : State := { s with stew := { s.stew with devTest := some mode, devNotice := some (n.ld, n.bit), devFail := 0, devSig := 0 } }
      s.askDevice mode)

def execTestDeviceShutdown (ld : LdId) (s : State) : Out := s.testDevice ld 1
def execTestDeviceService (ld : LdId) (s : State) : Out := s.testDevice ld 0

/-- TEST_QUIRE (0x0505): by rotation, or held for a window (R317, R320). -/
def execTestQuire (ld : LdId) (q : QuireId) (s : State) : Out :=
  let p := partOf q
  s.command ld 0x0505 q.val false (fun n s =>
    if s.mayAsk ld p = false then
      (s.refuse n Cs.denied 0x1B).ev .hub Ev.CX_PRIV_DENIED [ld.val, 0x0505]
    else if s.f (pt p) F.RS_STATUS_withdrawn = 1 ∨ s.present q = false then s.refuse n Cs.refused 0x91
    else
      let k := (n.ld, n.bit)
      let mine : Bool := match (s.part p).rot with
        | some r => decide (r.quire = q)
        | none => false
      if mine then
        s.updPart p (fun x => { x with rot := x.rot.map (fun r => { r with notices := r.notices ++ [k] }) })
      else if (s.rotBlocked q).isNone then
        s.updPart p (fun x => { x with rotWant := x.rotWant ++ [(q, k.1, k.2)],
                                       rotDue := if x.rot.isSome then x.rotDue else min x.rotDue s.ns })
      else
        let s := s.updPart p (fun x => { x with heldTests := x.heldTests ++ [(q, k.1, k.2)] })
        let s := if (s.part p).window.isSome then s.addHold p .testWindow else s
        s.ev (.part p) Ev.BT_HELD [q.val, ld.val])

end Sys2Proof.Machine
end

