-- ==== Sys2Proof/Machine/Resets.lean ====
section
/-! DEFINITION. Resets of quires and partitions, recovery, the ladder, wipes (11_fences_resets_recovery.md R284 to R300). -/

namespace Sys2Proof.Machine

/-- An entry of the colophon's reset history (14_event_recorder_and_colophon.md, Table 6); its places are the model's
(DESIGN CHOICE). -/
def State.colReset (s : State) (scope target cause path ms set : Nat) : State :=
  s.colAppend 0x08 32 4096 (leBytes 8 s.ns ++ leBytes 1 scope ++ leBytes 1 target ++ leBytes 1 cause ++ leBytes 1 path ++
    leBytes 4 ms ++ leBytes 2 set)

/-! Quires (R287, R288). -/

/-- The hold of quire resets goes with the last one of the partition. -/
def State.endQuireHold (s : State) (p : PartId) : State :=
  if ((List.range 8).map (quireOf p)).any (fun q => (s.qu q).inReset) then s
  else (s.dropHold p .quireReset).tryPending p false

/-- The write buffer lands before a reset ends (05_leaf_store.md R140). -/
def State.landBuffer (s : State) (q : QuireId) : State :=
  let l := (s.qu q).wbuf ++ (s.qu q).wwait
  l.foldl (fun t w => t.landSegs q w) (s.updQu q (fun x => { x with wbuf := [], wwait := [] }))

/-- The reset or power cycle of a quire is over. -/
def State.quireBack (s : State) (q : QuireId) : State :=
  let s := (List.finRange 64).foldl (fun t i => t.updSt ⟨q, i⟩ (fun x => { x with inReset := false })) s
  let s := (s.updQu q (fun x => { x with inReset := false, cycling := false })).setF (qb q) F.RS_QUIRE_in_reset 0
  s.endQuireHold (partOf q)

/-- QUIRE_RESET_END (R287). -/
def execQuireResetEnd (q : QuireId) (s : State) : Out :=
  let x := s.qu q
  if x.inReset = false ∨ x.cycling then .next s
  else
    let s := (s.landBuffer q).ev (.quire q) Ev.RS_QUIRE [x.resetCause, s.ns - x.resetFrom]
    .next (s.quireBack q)

/-- The stitchers of a quire after its logic has lost power: the images and registers of the last image (R288). -/
def State.repower (s : State) (q : QuireId) : State :=
  let s := (List.finRange 64).foldl (fun t i =>
    t.updSt ⟨q, i⟩ (fun x => { Stitcher.init with resets := x.resets })) s
  let s := s.clearRegs (qb q + 0x1000) (qb q + 0x5000)
  let s := match (s.part (partOf q)).image with
    | none => s
    | some im => (s.installQuire im q).reloadRegs im q
  s.setF (qb q) F.ST_FAULT_suspect 1

/-- TILE_POWER_CYCLE_END (R288). -/
def execTilePowerCycleEnd (q : QuireId) (s : State) : Out :=
  let x := s.qu q
  if x.inReset = false ∨ x.cycling = false then .next s
  else
    let s := (s.waitNs (x.resetFrom + 100000)).landBuffer q
    let s := (s.repower q).incF (qb q) F.RS_QUIRE_cycles
    let s := s.ev (.quire q) Ev.RS_TILE_CYCLE [s.tileOf q, s.ns - x.resetFrom]
    .next (s.quireBack q)

/-! The sample (R290). -/

/-- Rows that records of a quire's ring of the last 10 s name, newest first: row numbers of the leaf. -/
def State.recentRows (s : State) (q : QuireId) : List Nat :=
  let p := partOf q
  let r := s.src (.quire q)
  ((List.range (min r.head 16384)).filterMap (fun k =>
    let b := memRead s.mem (memKey p (slotPma (.quire q) (r.head - 1 - k))) 64
    let code := leAt b 4 2
    if leAt b 8 8 + 10000000000 ≤ s.ns then none
    else if code = Ev.LF_UNCORR then some (leAt b 20 4 / 512)
    else if code = Ev.ROW_RACE then some (leAt b 20 4)
    else none)).dedup

/-- The rows of a quire in a sample set: bank, band, reason. -/
def State.sampleRows (s : State) (q : QuireId) (set : Nat) : List (Nat × Nat × Nat) :=
  let tr := (s.tracker q).map (fun t => (t.bank, t.row))
  let spread := ((List.range 256).map (fun i => ((8 * i + set % 8) % 256, (37 * set + 13 * i) % 1024))).filter
    (fun r => !tr.contains r)
  let a := tr ++ spread.take (64 - tr.length)
  let ev := ((s.recentRows q).map (fun r => (r % 256, r / 256))).filter (fun r => !a.contains r)
  tr.map (fun r => (r.1, r.2, 0)) ++ (spread.take (64 - tr.length)).map (fun r => (r.1, r.2, 1)) ++
    (ev.take 64).map (fun r => (r.1, r.2, 2))

/-- A record of a sample set: data and check bytes of segments with an error are free values. -/
def State.sampleRecord (s : State) (q : QuireId) (r : Nat × Nat × Nat) : List (BitVec 8) :=
  let addr := r.2.1 * 131072 + r.1 * 512
  let bad (i : Nat) : Bool := (List.range 8).any (fun k => decide (s.markAt q (addr + 64 * i + 8 * k) ≠ 0))
  let data := (List.range 8).flatMap (fun i =>
    if bad i then (List.range 64).map (fun k => Config.freeBits s.freeCount (addr + 64 * i + k) 8)
    else memRead (s.qu q).leaf (addr + 64 * i) 64)
  let mask := (List.range 8).foldl (fun m i => if bad i then m + 2 ^ i else m) 0
  leBytes 1 (localOf q) ++ leBytes 1 (s.tileOf q) ++ leBytes 1 r.1 ++ leBytes 1 r.2.2 ++ leBytes 2 r.2.1 ++
    leBytes 1 (if s.weightBand q r.2.1 then 1 else 0) ++ leBytes 1 mask ++ List.replicate 56 0 ++ data ++
    (List.range 8).flatMap (fun i =>
      if bad i then (List.range 8).map (fun k => Config.freeBits s.freeCount (2 ^ 27 + addr + 8 * i + k) 8)
      else s.checkBytes q (addr + 64 * i))

/-- A sample set is written to its frame, its header last. -/
def State.takeSample (s : State) (p : PartId) (cause skipped : Nat) : State :=
  let set := if s.f (pt p) F.RS_SAMPLE_complete = 0 then 0 else (s.f (pt p) F.RS_SAMPLE_set + 1) % 65536
  let frame := 0x3BF1000000 + set % 16 * 0x100000
  let time := s.ns
  let tick := s.cnt (pt p) R.TK_COUNT_LO R.TK_COUNT_HI
  let qs := (s.quiresOf p).filter (fun q => decide (skipped / 2 ^ localOf q % 2 = 0))
  let rows := qs.map (fun q => (q, s.sampleRows q set))
  let bytes := rows.flatMap (fun r => r.2.flatMap (fun x => s.sampleRecord r.1 x))
  let count (i : Nat) : Nat := match rows.find? (fun r => decide (localOf r.1 = i)) with
    | some r => r.2.length
    | none => 0
  let head := leBytes 8 set ++ leBytes 8 time ++ leBytes 6 tick ++ leBytes 1 cause ++ leBytes 1 skipped ++
    (List.range 8).flatMap (fun i => leBytes 1 (count i)) ++ leBytes 4 (bytes.length / 640) ++ List.replicate 28 0
  let s := (s.useFree.pmWrite p (frame + 64) bytes).1
  let s := (s.pmWrite p frame head).1
  ((s.setF (pt p) F.RS_SAMPLE_set set).setF (pt p) F.RS_SAMPLE_complete 1).setF (pt p) F.RS_SAMPLE_skipped skipped

/-! Step 3 (R140, R165, R189, R261, R278, R294, 01_the_tick.md R36, 08_cord_mesh_and_spine.md R221, 10 R282). -/

/-- A page-out in progress stops at a 256-byte granule: how much was written is a free value (07 R189, R301). -/
def State.tearPage (s : State) (h : Hint) : State :=
  if h.phase ≠ .moving ∨ h.isOut = false then s
  else
    let n := (Config.freeBits s.freeCount 0 32).toNat % (h.data.length / 256 + 1)
    (s.useFree.pmWrite h.part h.pma (h.data.take (256 * n))).1

/-- Marked rows of a partition are repaired, or have no repair resource left (10 R278). -/
def State.repairRows (s : State) (p : PartId) (beyond : List (Nat × Nat)) : State :=
  let mine := s.stew.pprMarked.filter (fun k => decide (k.1 = p))
  mine.foldl (fun t k =>
    let st := t.stew
    let l := st.pprMarked.erase k
    if beyond.contains k.2 then
      ({ t with stew := { st with pprMarked := l, pprOut := st.pprOut ++ [k] } }).ev (.part p) Ev.IN_PPR [k.2.1, k.2.2, 0x82]
    else
      let t := ({ t with stew := { st with pprMarked := l, pprDone := st.pprDone ++ [k] } }).ev (.part p) Ev.IN_PPR
        [k.2.1, k.2.2, 0x81]
      t.colDefect 4 (16 * p.val + k.2.1) k.2.2) s

/-- The remaps that a reset has made on a tile go into the colophon, and the tile's tracker is cleared (05 R138, R140). -/
def State.keepRemaps (s : State) (tile before : Nat) : State :=
  let s := (s.remaps.drop before).foldl (fun t r => t.colDefect 2 tile (r.2.1 + 256 * r.2.2.1)) s
  { s with trackers := spSet [] s.trackers tile [] }

/-- Remaps of both classes of the tile under a quire (05 R138). -/
def State.remapForReset (s : State) (q : QuireId) : State := (s.applyRemaps q true).keepRemaps (s.tileOf q) s.remaps.length

/-- Remaps that wait on a partition's spare tile, as its first quire records them (DESIGN CHOICE). -/
def State.remapSpare (s : State) (p : PartId) : State :=
  if s.f (pt p) F.MS_SPARE_none = 1 then s
  else
    let tile := s.f (pt p) F.MS_SPARE_tile
    (((spGet [] s.trackers tile).filter (fun t => t.pending)).foldl (fun u t => (u.remapTile (quireOf p 0) tile t).1)
      s).keepRemaps tile s.remaps.length

/-- The remaps that wait on any tile of a partition (05 R138, R140). -/
def State.remapTiles (s : State) (p : PartId) : State :=
  (((List.range 8).map (quireOf p)).foldl (fun t q => if t.present q then t.remapForReset q else t) s).remapSpare p

/-- A quire at a partition reset: everything at its reset value but the rotation set and BT_QROT. -/
def State.clearQuire (s : State) (q : QuireId) : State :=
  let s := (List.finRange 64).foldl (fun t i => t.setSt ⟨q, i⟩ Stitcher.init) s
  let s := (s.clearRegs (qb q) (qb q + R.BT_ROTSET.off)).clearRegs (qb q + R.BT_QROT.off + 4) (qb q + 0x10000)
  s.setQu q { Quire.init with tipinDue := (s.qu q).tipinDue }

/-- A ring without lines. -/
def InRing.emptied (x : InRing) : InRing := { x with cells := [], bound := [] }

/-- The host interface of a partition: rings reset, result areas zero, the sequencer mailbox aborted (09 R261). -/
def State.clearHost (s : State) (p : PartId) : State :=
  let s := (List.range 4).foldl (fun t r => t.resetRing p r) (s.settlePubs p)
  let s := (List.range 4).foldl (fun t r => t.setF (ib p r) F.CX_IN_SEQ_next 0) s
  let rings := (s.part p).rings.map (fun r => (r.1, r.2.emptied))
  let s := s.updPart p (fun x => { x with slots := [], pubs := [], result := [], intakes := [], dueToks := [], ringFull := false, rings := rings })
  let s := (List.range 32).foldl (fun t k => t.wr (lb p k) R.CX_SLOT_STAT 0) s
  let s := s.devClear p (inboxOff p) (inboxOff p + 0x100000)
  let s := s.devClear p (resultOff p) (resultOff p + 0x100000)
  s.abortBox (p.val + 1)

/-- The ticks of a partition go into the colophon's summary before the counter clears. -/
def State.keepTicks (s : State) (p : PartId) : State :=
  { s with stew := { s.stew with
      ticksBefore := spUpd 0 s.stew.ticksBefore p.val (· + s.cnt (pt p) R.TK_COUNT_LO R.TK_COUNT_HI) } }

/-- The registers and the state of a partition that step 3 clears. -/
def State.clearPartition (s : State) (p : PartId) : State :=
  let x := s.part p
  let clock := s.f (pt p) F.TK_STATUS_clock
  let s := ((s.keepTicks p).dropUnits p).clearLatches (pt p) (pt p + 0x1000000)
  let s := (s.clearRegs (pt p) (pt p + 0x300)).clearRegs (tb p 0) (tb p 0 + 0x800)
  let s := s.setF (pt p) F.TK_STATUS_clock clock
  let s := (s.wr (pt p) R.SP_LOAD_STAT 0).wr (pt p) R.SP_LOAD 0
  let s := (s.wr (pt p) R.IN_SHIELD 0).wr (pt p) R.IN_MD_CTRL 0
  let s := (List.range 8).foldl (fun t w => t.wr (pt p) (R.IN_MD_OUT.nth w) 0) s
  let s := s.wr (pt p) R.PW_EST 0
  let s := ((List.range 8).map (quireOf p)).foldl (fun t q => t.clearQuire q) s
  let keep : HoldCause → Bool := fun c => !(c == .quireReset || c == .load || c == .reconf)
  let s := s.setPart p { Part.init with
    cyc := x.cyc, sub := x.sub, holds := x.holds.filter keep, image := x.image, recovery := x.recovery,
    resetTimes := x.resetTimes, rot := x.rot, rotDue := x.rotDue, rotSince := x.rotSince, rotWant := x.rotWant,
    tipins := x.tipins, holdoff := x.holdoff, window := x.window, heldTests := x.heldTests, capAt := x.capAt,
    capOwn := x.capOwn, budget := x.budget, memAsleep := x.memAsleep, rings := x.rings, slots := x.slots,
    result := x.result }
  (s.clearHost p).showHeld p

/-- Tiles that do not come back are judged permanent, and every tip-in that waits is made without hold or drain (R294,
R301). -/
def State.deadTiles (s : State) (p : PartId) (dead : List (Fin 36)) : State :=
  let s := (dead.filter (fun t => decide (tilePart t.val = p))).foldl (fun t d => t.judgePermanent (.tile d.val) 0 0) s
  let s := (s.part p).tipins.foldl (fun t k => t.tipInMap k.1 k.2.1 0) s
  (s.updPart p (fun x => { x with tipins := [] })).dropHold p .rotation

/-- Tests of the partition's tiles end with the reset: those in a window are abandoned, that of a released tile starts
again after recovery (12 R320). -/
def State.dropRuns (s : State) (p : PartId) : State :=
  { s with runs := s.runs.filter (fun r => decide (r.unit = 36) || decide (tilePart r.unit ≠ p)) }

/-- Step 3 (R289). Its RESET messages wake a half that is clocked down (08 R218). -/
def State.resetPartition (s : State) (p : PartId) (cycled : Bool) (i : ResetInput) : State :=
  let s := (s.part p).hints.foldl (fun t h => t.tearPage h) s
  let cut := (s.loadOf p).isSome
  let s := s.wakeHalf p (match (s.part p).recovery with
    | some r => r.requester
    | none => 0xFF)
  let s := (s.cutLoad p).updPart p (fun x => { x with memAsleep := true })
  let s := s.remapTiles p
  let s := ((s.repairRows p i.beyond).dropRuns p).clearPartition p
  let s := if cut then s.setF (pt p) F.SP_LOAD_state 6 else s
  s.deadTiles p (if cycled then i.dead else [])

/-! Steps 4 to 8 (R289 to R292). -/

def State.setRecovery (s : State) (p : PartId) (r : Recovery) (state : Nat) : State :=
  (s.updPart p (fun x => { x with recovery := some r })).setF (pt p) F.RS_STATUS_state state

/-- The quires whose state is not in use by the map have none; the last image's contents are loaded (steps 5 and 6). -/
def State.reloadPartition (s : State) (p : PartId) (im : Image) : State :=
  let s := s.prepare p im
  let s := (s.quiresOf p).foldl (fun t q => ((t.reloadWeights im q).reloadActs im q).installQuire im q) s
  let s := (s.quiresOf p).foldl (fun t q => t.checkEntries q) s
  s.setF (pt p) F.PW_EST_watts ((s.estimate p im + 99) / 100)

/-- The digests of a quire after one pass of its scrubber. -/
def State.passQuire (s : State) (q : QuireId) : State :=
  let pass := (s.f (qb q) F.LF_SCRUB_passes + 1) % 65536
  let s := s.updQu q (fun x => { x with regions := s.regionsNow q, regionTorn := 0, regionUncorr := 0 })
  let s := (List.range 8).foldl (fun t r => t.writeDigest q pass r) s
  s.setF (qb q) F.LF_SCRUB_passes pass

/-- A recorded digest against the region's: 0 equal, 1 not valid, 2 different. -/
def State.verifyRegion (s : State) (d : QuireId × Nat × List (BitVec 8)) : Nat :=
  if F.LF_DSTAT_valid.get (s.rd (db d.1 d.2.1) R.LF_DSTAT) = 0 then 1
  else if (List.range 8).all (fun w => decide (s.rd (db d.1 d.2.1) (R.LF_DIG.nth w) = wordAt d.2.2 w)) then 0 else 2

/-- The record of a region that is passed over or differs (R291). -/
def State.verifyEvent (s : State) (p : PartId) (d : QuireId × Nat × List (BitVec 8)) : State :=
  s.ev (.part p) Ev.RS_VERIFY_FAIL [d.1.val, d.2.1, (s.rd (db d.1 d.2.1) (R.LF_DIG.nth 0)).toNat, (wordAt d.2.2 0).toNat]

/-- RS_LAST and what ends with a recovery: the history, the notices (R292). -/
def State.endRecovery (s : State) (p : PartId) (r : Recovery) (verified : Bool) : State :=
  let bit (b : Bool) : Nat := if b then 1 else 0
  let ms := (s.ns - r.startAt + 999999) / 1000000
  let w := F.RS_LAST_ms.put (F.RS_LAST_verified.put (F.RS_LAST_cycled.put (F.RS_LAST_full.put (F.RS_LAST_cause.put 0 r.cause)
    (bit r.full)) (bit r.cycled)) (bit verified)) (min 1048575 ms)
  let s := s.wr (pt p) R.RS_LAST w
  let s := s.colReset 3 p.val r.cause (bit r.full) ms (s.f (pt p) F.RS_SAMPLE_set)
  let s := (s.updPart p (fun x => { x with recovery := none })).setF (pt p) F.RS_CFG_full_train 0
  r.notices.foldl (fun t k => t.endCmd k Cs.done w.toNat) s

/-- The partition is left held: TK_CTRL.hold stands for the hold of the recovery. -/
def State.leaveHeld (s : State) (p : PartId) : State := (s.setF (pt p) F.TK_CTRL_hold 1).dropHold p .recovery

/-- Hand-back (R292). -/
def State.handBack (s : State) (p : PartId) (r : Recovery) : State :=
  let s := (s.updPart p (fun x => { x with broughtUp := true })).evalShield p
  let s := (s.dropFence p 0x5A).setF (pt p) F.RS_STATUS_state 0
  let s := s.leaveHeld p
  let s := s.endRecovery p r (s.part p).image.isSome
  let s := s.ev (.part p) Ev.RS_RECOVERED [(s.rd (pt p) R.RS_LAST).toNat, s.f (pt p) F.RS_SAMPLE_set]
  let s := match (s.part p).rot with
    | some _ => s.askTile (s.f (pt p) F.MS_SPARE_tile) none
    | none => s
  if s.f (pt p) F.RS_CFG_resume = 1 ∧ r.wasRunning then
    let s := s.runStart p 0xFF
    if s.running p then s.holdOff p else s
  else s

/-- A wipe begins: strokes stay held, the fence stays up (R299). -/
def State.startWipe (s : State) (p : PartId) (ld : Nat) : State :=
  let s := s.setF (pt p) F.RS_STATUS_state 10
  { s with stew := { s.stew with wipes := s.stew.wipes ++ [(p, s.ns, ld)] } }

/-- PARTITION_RESET: a reset that waits begins, or the step of recovery that RS_STATUS names is carried out. -/
def execPartitionReset (p : PartId) (i : ResetInput) (s : State) : Out :=
  match (s.part p).recovery with
  | none =>
    match s.stew.resetReqs.find? (fun r => decide (r.1 = p)) with
    | none => .next s
    | some r =>
      let s : State := { s with stew := { s.stew with resetReqs := s.stew.resetReqs.erase r } }
      .next (s.startReset p r.2 0xFF false none)
  | some r =>
    let s := s.waitNs (s.ns + i.ns)
    match s.f (pt p) F.RS_STATUS_state with
    | 1 =>
      let s := if r.cause = 6 then s else s.takeSample p r.cause i.skipped.toNat
      .next (s.setF (pt p) F.RS_STATUS_state 2)
    | 2 => .next ((s.raiseFence p 0x5A).setF (pt p) F.RS_STATUS_state 3)
    | 3 =>
      let s := s.resetPartition p r.cycled i
      if countedCause r.cause ∧ 3 ≤ (s.recentTimes p).length then
        .next ((s.endRecovery p r false).withdrawPart p)
      else .next (s.setF (pt p) F.RS_STATUS_state 4)
    | 4 =>
      let l := partChannels p
      let full := decide (s.f (pt p) F.RS_CFG_full_train = 1) || !l.all (fun c => s.channelSaved c) || !i.saved || !i.eyes
      let s := if full then (s.incF (pt p) F.RS_COUNT_full_paths).saveTraining l else s
      let s := s.updPart p (fun x => { x with memAsleep := false })
      let r := { r with full := full }
      if r.cause = 6 then
        let s := s.updPart p (fun x => { x with image := none })
        .next ((s.setRecovery p r 10).startWipe p r.requester)
      else .next (s.setRecovery p r (if (s.part p).image.isSome then 5 else 7))
    | 5 =>
      match (s.part p).image with
      | none => .next (s.setF (pt p) F.RS_STATUS_state 7)
      | some im => .next ((s.reloadPartition p im).setF (pt p) F.RS_STATUS_state 6)
    | 6 =>
      match (s.part p).image with
      | none => .next (s.setF (pt p) F.RS_STATUS_state 7)
      | some im =>
        let s := (s.quiresOf p).foldl (fun t q => t.passQuire q) s
        let l := im.digests.filter (fun d => decide (partOf d.1 = p) && s.present d.1)
        let failed := l.any (fun d => decide (s.verifyRegion d = 2))
        let s := (l.filter (fun d => decide (s.verifyRegion d ≠ 0))).foldl (fun t d => t.verifyEvent p d) s
        .next (if failed then (s.endRecovery p r false).setF (pt p) F.RS_STATUS_state 8
          else s.setF (pt p) F.RS_STATUS_state 7)
    | 7 => .next (s.handBack p r)
    | _ => .next s

/-! Wipes (R299, R300). -/

/-- The steward workspace, which a wipe leaves alone (07_catchword_paging.md, Table 1). -/
def inWorkspace (a : Nat) : Bool := decide (0x3BFA000000 ≤ a)

/-- A partition's memory is zero with valid check bits; its records restart at 0 (R299, 14 R359). -/
def State.wipeMem (s : State) (p : PartId) : State :=
  let keep (a : Nat) : Bool := inWorkspace a
  let srcs : List Src := .part p :: ((List.range 8).map (fun i => .quire (quireOf p i)))
  let s : State := { s with
    mem := s.mem.filter (fun c => decide (c.1 / 2 ^ 38 ≠ p.val) || keep (c.1 % 2 ^ 38)),
    memMark := s.memMark.filter (fun c => decide (c.1 / 2 ^ 33 ≠ p.val) || keep (c.1 % 2 ^ 33 * 32)),
    staging := s.staging.filter (fun a => !srcs.any (fun x => decide (x.key = a.1))) }
  srcs.foldl (fun t x => t.setSrc x { SrcSt.init with queue := (t.src x).queue }) s

/-- The bytes that a wipe writes. -/
def wipedBytes : Nat := 0x3BFA000000

/-- The partition is handed back held after a wipe; one that is withdrawn stays so, fenced, its memory in self-refresh
(R295: unbind is the command it takes). -/
def State.wipedBack (s : State) (p : PartId) : State :=
  if s.f (pt p) F.RS_STATUS_withdrawn = 1 then
    (s.updPart p (fun x => { x with memAsleep := true })).setF (pt p) F.RS_STATUS_state 9
  else
    let s := (s.setF (pt p) F.RS_STATUS_state 0).dropFence p 0xA9
    ((s.updPart p (fun x => { x with broughtUp := true })).evalShield p).leaveHeld p

/-- WIPE_DONE: the wipe of a partition ends. -/
def execWipeDone (p : PartId) (s : State) : Out :=
  match s.stew.wipes.find? (fun w => decide (w.1 = p)) with
  | none => .next s
  | some w =>
    let s := (s.waitNs (w.2.1 + 1000000000)).wipeMem p
    let s : State := { s with stew := { s.stew with wipes := s.stew.wipes.erase w } }
    let s := s.ev (.part p) Ev.RS_WIPE [wipedBytes % 2 ^ 32, wipedBytes / 2 ^ 32, s.ns - w.2.1, w.2.2]
    let s := s.wipedBack p
    .next (match (s.part p).recovery with
      | some r => s.endRecovery p r false
      | none => s)

/-! The ladder (R293). -/

/-- RESET_HANG: a reset that has not completed within its bound is replaced by the next step of Table 6. -/
def execResetHang (h : HangOf) (s : State) : Out :=
  match h with
  | .quire q =>
    let x := s.qu q
    if x.inReset = false then .next s
    else if x.cycling = false then
      let s := (s.waitNs (x.resetFrom + 20000)).ev .hub Ev.RS_HANG [2, unitWord 0x09 q.val, 1]
      .next (s.updQu q (fun y => { y with cycling := true, resetFrom := s.ns, resetEnd := s.ns + 200000 }))
    else
      let s := (s.waitNs (x.resetFrom + 200000)).ev .hub Ev.RS_HANG [2, unitWord 0x0A (s.tileOf q), 2]
      .next (s.startReset (partOf q) 3 0xFF true none)
  | .part p =>
    match (s.part p).recovery with
    | none => .next s
    | some r =>
      if s.f (pt p) F.RS_STATUS_state = 10 then .next s
      else
        let s := (s.waitNs (r.startAt + 3000000000)).ev .hub Ev.RS_HANG [3, unitWord 0x0E p.val, 3]
        .next (s.startDevice 3 0xFF)
  | .device =>
    match s.stew.devReq with
    | none => .next s
    | some r =>
      if r.1 ≠ 5 then
        let s := (s.waitNs (r.2.2 + 10000000000)).ev .hub Ev.RS_HANG [4, unitWord 0x10 0, 4]
        let s := s.colReset 4 0 5 0 0 0
        let t := s.dieOff true
        let t : State := { t with stew := { t.stew with devReq := some (5, r.2.1, s.ns) } }
        .next ((t.keepDevice s).setF hub F.RS_DEVICE_last_cause 5)
      else
        let s := (s.waitNs (r.2.2 + 20000000000)).colRecord .hub Ev.RS_HANG [4, unitWord 0x10 0, 5]
        let t := s.dieOff true
        .next { t with stew := { t.stew with moduleOut := true, faultPin := true, devReq := none } }

/-! The commands (R285). -/

/-- RESET_PARTITION (0x0504), of the LD bound to the partition or the owner. -/
def execResetPartition (ld : LdId) (p : PartId) (s : State) : Out :=
  s.command ld 0x0504 p.val false (fun n s =>
    if s.mayAsk ld p = false then (s.refuse n Cs.denied 0x1B).ev .hub Ev.CX_PRIV_DENIED [ld.val, 0x0504]
    else if s.f (pt p) F.RS_STATUS_withdrawn = 1 ∨ s.enabled p = false then s.refuse n Cs.refused 0x91
    else s.startReset p 1 ld.val false (some (n.ld, n.bit)))

/-- FUNCTION_LEVEL_RESET: the control page and the completion queue of an LD clear without completions, and each partition
bound to it is reset. -/
def execFunctionLevelReset (ld : LdId) (s : State) : Out :=
  if s.stew.die = false then .next s
  else
    let s : State := { s with
      ctlPage := s.ctlPage.filter (fun c => decide (c.1 / 4096 ≠ ld.val)),
      notices := s.notices.filter (fun n => decide (n.ld ≠ ld.val)),
      comps := s.comps.filter (fun c => decide (c.ld ≠ ld.val)) }
    let s := (([1, 2, 3, 4] : List Nat).foldl (fun t m => t.showPend m) s).devClearLd ld 0 0x1000
    .next ((allParts.filter (fun p => s.bound ld p)).foldl (fun t p => t.startReset p 2 ld.val false none) s)

end Sys2Proof.Machine
end

