-- ==== Sys2Proof/Machine/BringUp.lean ====
section
/-! DEFINITION. Bring-up, PERST#, device resets, licences, firmware (13_bring_up_and_licences.md,
11_fences_resets_recovery.md R284, R300, 12_self_test_and_rotation.md R310). -/

namespace Sys2Proof.Machine

/-- Time passes. -/
def State.later (s : State) (n : Nat) : State := s.waitNs (s.ns + n)

/-- An event recorded while ring memory does not answer: it goes on to the staging buffer (14 R351). -/
def State.bootEv (s : State) (x : Src) (code : Nat) (cap : List Nat) : State :=
  let s := s.ev x code cap
  let l := (s.src x).queue
  l.foldl (fun t e => t.stage x e) (s.updSrc x (fun r => { r with queue := [] }))

/-! Licences (R330 to R332). -/

/-- Bytes padded with zeros to a length. -/
def padTo (b : List (BitVec 8)) (n : Nat) : List (BitVec 8) := (b ++ List.replicate n 0).take n

/-- The first check of Table 4 that a licence fails, 0 for none; check 5 only where asked. -/
def State.licenceCheck (s : State) (l : Licence) (above : Option Nat) : Nat :=
  let zero (i n : Nat) : Bool := ((l.drop i).take n).all (fun b => decide (b = 0))
  let dup : Bool := match above with
    | some n => decide (leAt l 72 4 ≤ n)
    | none => false
  if l.length ≠ 2948 ∨ leAt l 0 4 ≠ 0x434C514B ∨ leAt l 4 2 ≠ 1 ∨ leAt l 6 2 ≠ 128 ∨ zero 60 4 = false ∨ zero 76 52 = false then 1
  else if Config.vendorAccepts (l.take 128) (l.drop 128) = false then 2
  else if (l.drop 8).take 16 ≠ padTo s.stew.store.serial 16 then 3
  else if (l.drop 24).take 32 ≠ shake256 s.stew.store.idKey then 4
  else if dup then 5
  else if leAt l 56 1 = 0 ∨ 4 < leAt l 56 1 ∨ (leAt l 57 1 ≠ 1 ∧ leAt l 57 1 ≠ 4 ∧ leAt l 57 1 ≠ 16) ∨ 16 ≤ leAt l 58 2 then 6
  else 0

/-- The number of a licence, 0 for none. -/
def licNumber : Option Licence → Nat
  | some l => leAt l 72 4
  | none => 0

/-- LC_FEATURES and HB_FMT_CAPS of a number of partitions, of LDs, of features. -/
def State.enable (s : State) (parts lds features : Nat) (licensed : Bool) : State :=
  let w := F.LC_FEATURES_parts.put 0 (2 ^ parts - 1)
  let w := F.LC_FEATURES_lds.put w (if lds = 16 then 2 else if lds = 4 then 1 else 0)
  let w := F.LC_FEATURES_long.put (F.LC_FEATURES_replay.put (F.LC_FEATURES_dense.put w (features % 2)) (features / 2 % 2))
    (features / 4 % 2)
  let w := F.LC_FEATURES_licensed.put (F.LC_FEATURES_dc.put w (features / 8 % 2)) (if licensed then 1 else 0)
  let s := s.wr hub R.LC_FEATURES w
  let s := s.setF hub F.HB_FMT_CAPS_accept (if features % 2 = 1 then 0x7FF else 0x39F)
  s.setF hub F.CX_OWNER_lds lds

/-- Step 7: the pending licence comes into force, and the licence in force is checked (R332). -/
def State.evaluate (s : State) : State :=
  let st := s.stew
  let s : State := { s with stew := { st with licence := st.licPending.orElse (fun _ => st.licence), licPending := none } }
  let s := s.wr hub R.LC_LIC_PEND 0
  match s.stew.licence with
  | none => ((s.enable 1 1 0 false).wr hub R.LC_LIC_NUM 0).bootEv .hub Ev.LC_NONE [0xA0]
  | some l =>
    match s.licenceCheck l none with
    | 0 => (s.enable (leAt l 56 1) (leAt l 57 1) (leAt l 58 2) true).wr hub R.LC_LIC_NUM (BitVec.ofNat 32 (leAt l 72 4))
    | c => ((s.enable 1 1 0 false).wr hub R.LC_LIC_NUM 0).bootEv .hub Ev.LC_NONE [0xA1, c]

/-- The registers of the identity key. -/
def State.showIds (s : State) : State :=
  let n := s.stew.idNext
  let s := (s.setF hub F.LC_ID_NEXT_next n).setF hub F.LC_ID_NEXT_exhausted (if 65536 ≤ n then 1 else 0)
  s.setF hub F.LC_ID_RSV_reserved_to s.stew.idRsv

/-- A start of Clearason resumes the identity key from its reservation record (R335). -/
def State.resumeIds (s : State) : State :=
  { s with stew := { s.stew with idNext := s.stew.idRsv } }

/-! Steps 3 to 5. -/

/-- The steward writes back what it keeps, and the registers of its stores (R339, 15 R377). -/
def State.bootRegs (s : State) : State :=
  let st := s.stew
  let s := allParts.foldl (fun t p =>
    let b := spGet 300 st.keepBudget p.val
    (t.setF (pt p) F.PW_BUDGET_watts b).updPart p (fun x => { x with budget := b })) s
  let s := (s.setF hub F.PW_CLK_spread st.keepClk).wr hub R.HB_TICK_IO (BitVec.ofNat 32 st.keepIo)
  let s := (s.setF hub F.LC_FW_running st.version).setF hub F.LC_FW_minimum st.store.minFw
  let s := (List.range 4).foldl (fun t w => t.wr hub (R.LC_SERIAL.nth w) (wordAt st.store.serial w)) s
  let s := s.wr hub R.LC_LIC_PEND (BitVec.ofNat 32 (licNumber st.licPending))
  s.showCol.showIds

/-- The first map of a partition: its quires in ascending order, its spare (00_scope.md, Table 3). -/
def firstMap (p : PartId) : List Nat × Nat :=
  match p.val with
  | 0 => ([0, 1, 2, 6, 8, 12, 13, 14], 7)
  | 1 => ([3, 4, 5, 9, 11, 15, 16, 17], 10)
  | 2 => ([18, 19, 20, 24, 26, 30, 31, 32], 25)
  | _ => ([21, 22, 23, 27, 29, 33, 34, 35], 28)

/-- The map last recorded for a partition, or the first one. -/
def State.oldMap (s : State) (p : PartId) : List (Option Nat) × Option Nat :=
  let f (i : Nat) : Nat := spGet 0 s.stew.maps (16 * p.val + i)
  let back : Nat → Option Nat
    | 0 => none
    | t + 1 => some t
  if (List.range 9).all (fun i => decide (f i = 0)) then ((firstMap p).1.map some, some (firstMap p).2)
  else ((List.range 8).map (fun i => back (f i)), back (f 8))

/-- A tile taken out by the factory or in the field. -/
def State.isFenced (s : State) (t : Nat) : Bool := s.stew.store.fenced.contains t || s.stew.fenced.contains t

/-- A map without its fenced tiles: the spare replaces the first that carried a quire (R328). -/
def fitMap (bad : Nat → Bool) : List (Option Nat) → Option Nat → List (Option Nat) × Option Nat
  | [], sp => ([], sp)
  | q :: t, sp =>
    match q with
    | some a =>
      if bad a then let r := fitMap bad t none; (sp :: r.1, r.2)
      else let r := fitMap bad t sp; (some a :: r.1, r.2)
    | none => let r := fitMap bad t sp; (none :: r.1, r.2)

def toTile (t : Nat) : TileId := ⟨t % 36, by omega⟩

/-- Step 4 for a partition (R328). -/
def State.bootMap (s : State) (p : PartId) : State :=
  let old := s.oldMap p
  let sp := old.2.filter (fun t => !s.isFenced t)
  let m := fitMap s.isFenced old.1 sp
  let s := s.writeMap p (m.1.map (fun t => t.map toTile)) (m.2.map toTile)
  if decide (m = old) then s
  else
    let moved (i : Nat) : Bool := decide (m.1.getD i none ≠ old.1.getD i none)
    let ow := packBytes (fun i => if moved i then (old.1.getD i none).getD 0xFF else 0xFF)
    let nw := packBytes (fun i => if moved i then (m.1.getD i none).getD 0xFF else 0xFF)
    let s : State := { s with stew := { s.stew with
      maps := (List.range 9).foldl (fun k i => spSet 0 k (16 * p.val + i)
        (match (if i = 8 then m.2 else m.1.getD i none) with
          | some t => t + 1
          | none => 0)) s.stew.maps } }
    let s := s.bootEv (.part p) Ev.MS_MAP_SWITCH (ow ++ nw ++ [0])
    ((List.range 8).filter (fun i => moved i && (m.1.getD i none).isNone)).foldl (fun t i =>
      t.bootEv (.part p) Ev.RS_DEGRADED [(quireOf p i).val, (old.1.getD i none).getD 0, t.presentCount p]) s

/-- Spared lanes are applied again from the factory map and the field's (08 R199). -/
def State.bootLanes (s : State) : State :=
  (s.stew.store.lanes ++ s.stew.lanes).foldl (fun t l =>
    let x := spGet .init t.links l.1
    { t with links := spSet .init t.links l.1 { x with spared := x.spared ++ [l.2] } }) s

/-- The factory's remapped rows count among the spares in use (05_leaf_store.md R136). -/
def State.bootRows (s : State) : State :=
  let new := s.stew.store.rows.filter (fun r => !s.remaps.contains r)
  new.foldl (fun t r =>
    { t with remaps := t.remaps ++ [r], sparesUsed := spUpd 0 t.sparesUsed (r.1 * 256 + r.2.1) (fun n => max n (r.2.2.2 + 1)) }) s

/-- Remaps that wait on a tile are applied as its leaf is zero-filled (05 R138, R140). -/
def State.bootRemaps (s : State) : State :=
  allParts.foldl (fun t p => t.remapTiles p) s

/-- Step 4. -/
def State.step4 (s : State) : State :=
  ((allParts.foldl (fun t p => t.bootMap p) s).bootLanes.bootRows).bootRemaps

/-- Step 5: the channels train, on the full path where the training area has no good entry for the temperature band or the
eyes fail on the saved settings (R329). -/
def State.train (s : State) (i : TrainInput) : State :=
  let absent := (List.finRange 64).filter (fun c => !s.channelSaved c || i.unsaved.contains c)
  let back := (List.finRange 64).filter (fun c => !absent.contains c && i.eyes.contains c)
  let s := s.setF hub F.HB_BOOT_full_channels (absent ++ back).length
  let s := back.foldl (fun t c =>
    t.bootEv .hub Ev.BOOT_TRAIN [c.val, t.tempBin (halfOf ⟨c.val / 16, by omega⟩), 1]) s
  s.saveTraining (absent ++ back)

/-- A run of a cold start ends: as it fails with the signature given, else as it passes; what has no reference is not run
(12_self_test_and_rotation.md R304). A tile that fails is judged permanent. -/
def State.coldRun (s : State) (l : List (Nat × Nat × BitVec 128)) (program unit : Nat) : State :=
  let run : TestRun := { program := program, unit := unit, quire := none, going := true, startAt := s.ns - programNs program }
  let bad := l.find? (fun r => decide (r.1 = program) && decide (r.2.1 = unit))
  let t := match s.reference program, bad with
    | none, _ => s.closeRun run 2 0x49 0
    | some _, some r => s.closeRun run 1 0x48 r.2.2
    | some sig, none => s.closeRun run 0 0x48 sig
  let t := (t.src .hub).queue.foldl (fun u e => u.stage .hub e) (t.updSrc .hub (fun x => { x with queue := [] }))
  if (s.reference program).isSome && bad.isSome && decide (unit < 36) then t.judgePermanent (.tile unit) 4 0 else t

/-- The test of a cold start, in the order of 12_self_test_and_rotation.md, Table 3, then the margin baseline of every tile with
its least slack; failing tiles are taken out of the maps (R326, Table 2). -/
def State.coldTest (s : State) (l : List (Nat × Nat × BitVec 128)) (slack : List Nat) : State :=
  let tiles (t : State) (program : Nat) : State := (List.range 36).foldl (fun u i => u.coldRun l program i) t
  let s := (s.later 250000000).coldRun l 6 36
  let s := tiles (tiles (s.later 3240000000) 1) 2
  let s := tiles (s.later 360000000) 3
  let s := ((s.later 80000000).coldRun l 4 36).coldRun l 5 36
  let s := (s.later 5034000000).coldRun l 7 36
  let s := tiles (s.later 36000000000) 8
  let s := (List.range 36).foldl (fun t i =>
    t.colMargin i 1 (t.tempBin (tileHalf i)) (min 63 (slack.getD i 0)) 0
      (if l.any (fun r => decide (r.1 = 8) && decide (r.2.1 = i)) then 1 else 0)) s
  allParts.foldl (fun t p => t.deadTiles p []) s

/-! Steps 6 to 8. -/

/-- Lane margining of the link (10 R274, 14 Table 6). -/
def State.colLanes (s : State) (l : List Nat) : State :=
  ((List.range l.length).zip l).foldl (fun t m => t.colMargin m.1 2 0 m.2 0 0) s

/-- The bindings of step 8: every enabled partition to LD 0, the owner (09 R229, R230, 11 R298). -/
def State.bindAll (s : State) : State :=
  let parts := s.f hub F.LC_FEATURES_parts
  let lds := s.f hub F.CX_OWNER_lds
  let s := s.setF hub F.CX_OWNER_ld 0
  let s := (List.range 16).foldl (fun t l =>
    (t.setF hub (F.CX_LD_BIND_parts.nth l) (if l = 0 then parts else 0)).setF hub (F.CX_LD_BIND_present.nth l)
      (if l < lds then 1 else 0)) s
  let s := s.showSpans
  { s with stew := { s.stew with retain := [] } }

/-- WAKE# is asserted for 100 ms at the end of a bring-up that the device started by itself: after a die rail cycle, or
ACK_WITHDRAWN (15_module_power_and_signals.md R370). -/
def State.wakePin (s : State) : State :=
  let c := s.f hub F.RS_DEVICE_last_cause
  if c = 4 ∨ c = 5 then { s with stew := { s.stew with wakeUntil := s.ns + 100000000 } } else s

/-- Step 8 ends: partitions are up, the device is ready. -/
def State.ready (s : State) : State :=
  let s := s.bindAll
  let s := allParts.foldl (fun t p =>
    if t.enabled p then
      (t.updPart p (fun x => { x with broughtUp := true, memAsleep := false, rotDue := t.ns + t.rotPeriod p })).evalShield p
    else t.updPart p (fun x => { x with memAsleep := true })) s
  let s := (s.setF hub F.HB_BOOT_step 9).wakePin
  let s := s.ev .hub Ev.BOOT_DONE [(s.rd hub R.HB_BOOT).toNat, (s.ns - s.stew.bootAt) / 1000000,
    (s.rd hub R.BT_START).toNat]
  if s.f hub F.RS_DEVICE_withdrawn = 1 then allParts.foldl (fun t p => (t.raiseFence p 0xAA).addHold p .recovery) s else s

/-- Steps 6 to 8, with PERST# released (Table 2). -/
def State.finishBoot (s : State) (i : TrainInput) (wipe : State → State) : State :=
  let s := (s.later 500000000).colLanes i.margins
  let s := s.linkUp i.link
  let s := (s.later 50000000).evaluate
  (wipe (s.later 800000000)).ready

/-- The end of step 5: memory answers, PWR_GOOD; on to step 6 where PERST# is released. -/
def State.step6 (s : State) (i : TrainInput) (wipe : State → State) : State :=
  let s : State := { s with stew := { s.stew with pwrGood := true, clkreq := true } }
  let s := s.setF hub F.HB_BOOT_step 6
  if s.stew.perst then s else s.finishBoot i wipe

/-! Power-on (R310, R322 to R328). -/

/-- The steward in its recovery loader: the die is off (R323). It asserts FAULT# 2 s after 52 V at the earliest
(15_module_power_and_signals.md R370). -/
def State.recover (s : State) (cause : Nat) (evs : List (Nat × List Nat)) : State :=
  let s := evs.foldl (fun t e => t.colRecord .hub e.1 e.2) s
  let s := s.colRecord .hub Ev.FW_RECOVERY [cause]
  { s with stew := { s.stew with running := false, recovery := some cause, faultPin := true, die := false, pwrGood := false, recImage := [] } }

/-- The defect maps of two stores agree. -/
def sameDefects (a b : Store) : Bool := decide (a.fenced = b.fenced) && decide (a.rows = b.rows) && decide (a.lanes = b.lanes)

/-- At the first power-on the factory's defects go into the defect list (14_event_recorder_and_colophon.md, Table 6; DESIGN
CHOICE). -/
def State.factoryDefects (s : State) : State :=
  let d := s.stew.store
  let s := d.fenced.foldl (fun t k => t.colDefectOf 0 1 k 0) s
  let s := d.rows.foldl (fun t r => t.colDefectOf 0 2 r.1 (r.2.1 + 256 * r.2.2.1)) s
  d.lanes.foldl (fun t l => t.colDefectOf 0 3 (l.1 / 2) l.2) s

/-- The steward starts with the die unpowered: steps 1 to 5, or the recovery loader. -/
def State.boot (s : State) (i : BootInput) : State :=
  let z := s.dieClear false
  let st := z.stew
  let s : State := { z with srcs := [], stew := { st with
    recovery := none, faultPin := false, moduleOut := false, running := false, die := false, pwrGood := false, fwRam := [], recImage := [],
    clkreq := false, devReq := none, devResets := [], resetLog := [], ram := st.flash, attest := [], smbus := [], colPend := [],
    powerCycles := st.powerCycles + 1, doe := [], object := [] } }
  let cfg : List (Nat × List Nat) := match i.copyA, i.copyB with
    | none, _ => []
    | some a, none => [(Ev.BOOT_CFG_COPY, [a])]
    | some a, some b => [(Ev.BOOT_CFG_COPY, [a]), (Ev.BOOT_CFG_BAD, [a + 2 ^ 16 * b])]
  let r : State := { s with now := 0, timeBase := max (i.rtc + 2000000000) st.lastTime }
  match i.image with
  | some c => r.recover c []
  | none =>
    if i.copyA.isSome ∧ i.copyB.isSome then r.recover 0x9A cfg
    else if i.version < i.store.minFw then r.recover 0x99 cfg
    else
      let st := s.stew
      let time := max (i.rtc + 3200000000) st.lastTime
      let passed := st.testPassed
      let when := st.testAt.getD 0
      let clean := st.errors.all (fun e => decide (e.2.2 ≤ when))
      let young := decide (i.rtc < when + 604800000000000)
      let fast := st.testHere && passed && clean && young && sameDefects i.store st.testStore
      let s : State := { s with now := 0, timeBase := time, stew := { st with
        running := true, die := true, version := i.version, imageDigest := i.imageDigest, store := i.store, bootAt := time - 3200000000,
        firstPower := some (st.firstPower.getD time), testHere := false, flushDue := time + 600000000000 } }
      let s := if st.firstPower.isSome then s else s.factoryDefects
      let s := cfg.foldl (fun t e => t.colRecord .hub e.1 e.2) s
      let s := s.resumeIds.bootRegs
      let s := (((s.setF hub F.BT_START_passed (if passed then 1 else 0)).setF hub F.BT_START_clean (if clean then 1 else 0)).setF
        hub F.BT_START_fast (if fast then 1 else 0)).setF hub F.BT_START_age_days (min 255 ((i.rtc - when) / 86400000000000))
      let s := (s.setF hub F.HB_BOOT_path (if fast then 0 else 1)).setF hub F.HB_BOOT_cfg_copy (if i.copyA.isSome then 1 else 0)
      let s := cfg.foldl (fun t e => t.bootEv .hub e.1 e.2) (s.later 300000000)
      let s := (s.step4.later 50000000).train i.train
      let s := if fast then s.later 1100000000 else ((s.later 24000000000).coldTest i.failed i.baseline).later 1000000000
      s.step6 i.train id

/-- POWER_ON: 52 V enters its band. -/
def execPowerOn (i : BootInput) (s : State) : Out :=
  if s.stew.die ∨ s.stew.devReq.isSome then .next s
  else .next (({ s with stew := { s.stew with band := 0 } }).boot i)

/-- RECOVERY_IMAGE_BLOCK: a block with its CRC-32C, answered "K" or "N"; with the last one, the checks of the whole image and
what the restarted steward finds (R323, 15 R371). -/
def execRecoveryImageBlock (bytes : List Byte) (crc : Word) (last : Option BootInput) (s : State) : Out :=
  match s.stew.recovery with
  | none => .next s
  | some _ =>
    if bytes.length ≠ 1024 ∨ crc32c bytes ≠ crc then .next { s with stew := { s.stew with smbus := [0x4E] } }
    else
      let s : State := { s with stew := { s.stew with recImage := s.stew.recImage ++ bytes, smbus := [0x4B] } }
      match last with
      | none => .next s
      | some i =>
        if i.image.isSome then .next { s with stew := { s.stew with recImage := [] } }
        else .next (s.boot i)

/-! Device resets (11 R284, R295, R300). -/

/-- The partitions that a device reset wipes: bound to another LD than LD 0 without retain, or newly enabled (R300). -/
def wipedParts (old new : State) : List PartId :=
  allParts.filter (fun p =>
    (new.enabled p && !old.enabled p) ||
    (!old.stew.retain.contains p && (match old.ldOf p with
      | some l => decide (l.val ≠ 0)
      | none => false)))

/-- The wipes of a device reset, all at once, before the partitions are bound. -/
def wipeFor (old new : State) : State :=
  let l := wipedParts old new
  if l.isEmpty then new
  else
    let t0 := new.ns
    l.foldl (fun t p => (t.wipeMem p).ev (.part p) Ev.RS_WIPE [wipedBytes % 2 ^ 32, wipedBytes / 2 ^ 32, t.ns - t0,
      match old.ldOf p with
        | some l => l.val
        | none => 0xFF]) (new.later 1000000000)

/-- What a device reset keeps of the host's bindings until PERST# is released: the old state's words. -/
def State.keepBinds (s old : State) : State :=
  let s := (List.range 16).foldl (fun t l =>
    t.setF hub (F.CX_LD_BIND_parts.nth l) (old.f hub (F.CX_LD_BIND_parts.nth l))) s
  s.wr hub R.LC_FEATURES (old.rd hub R.LC_FEATURES)

/-- DEVICE_RESET: the reset that has begun is carried out: everything on the die clears, bring-up runs from step 3, or from
step 1 with the steward running after a die rail cycle, which loads device time from the real-time clock
(14_event_recorder_and_colophon.md R342). -/
def execDeviceReset (i : TrainInput) (s : State) : Out :=
  match s.stew.devReq with
  | none => .next s
  | some (cause, _, t0) =>
    let s := if s.stew.die then s
      else
        let s := s.later 1800000000
        { s with now := 0, timeBase := max i.rtc s.stew.lastTime }
    let s := allParts.foldl (fun t p => t.keepTicks p) ((s.logReset 4 0).colReset 4 0 cause 0 ((s.ns - t0) / 1000000) 0)
    let t := (s.dieClear true).keepDevice s
    let t := (t.setF hub F.RS_DEVICE_parts_out 0).setF hub F.RS_DEVICE_withdrawn
      (if cause = 4 then 0 else s.f hub F.RS_DEVICE_withdrawn)
    let t : State := { t with stew := { t.stew with
      die := true, devReq := none, bootAt := s.ns, devResetsAll := t.stew.devResetsAll + 1, fwRam := s.stew.fwRam } }
    let t := (t.bootRegs.keepBinds s).setF hub F.HB_BOOT_path (if cause = 5 then 3 else 2)
    let t := t.setF hub F.HB_BOOT_cfg_copy (s.f hub F.HB_BOOT_cfg_copy)
    let t := ((t.later 300000000).step4.later 50000000).train i
    let old := t
    .next ((t.later 100000000).step6 i (wipeFor old))

/-- PERST_ASSERT: after PWR_GOOD it is a device reset (R327). -/
def execPerstAssert (s : State) : Out :=
  let s : State := { s with stew := { s.stew with perst := true } }
  if s.stew.pwrGood then .next (s.startDevice 2 0xFF) else .next s

/-- PERST_RELEASE: a bring-up that waits at step 6 goes on, with what the link's training finds (R327). -/
def execPerstRelease (i : TrainInput) (s : State) : Out :=
  let s : State := { s with stew := { s.stew with perst := false } }
  if s.stew.die ∧ s.stew.devReq.isNone ∧ s.f hub F.HB_BOOT_step = 6 then .next (s.finishBoot i (wipeFor s)) else .next s

/-- RESET_DEVICE (0x0502), which does not count (R295). Its notice is cleared with the mailbox (09 R255). -/
def execResetDevice (ld : LdId) (s : State) : Out :=
  s.command ld 0x0502 0 true (fun _ s => s.startDevice 1 ld.val)

/-- ACK_WITHDRAWN (0x0503): the device reset that returns a withdrawn device to service; refused where it is not withdrawn.
The 24 h and 15 min counts restart (R295). -/
def execAckWithdrawn (ld : LdId) (s : State) : Out :=
  s.command ld 0x0503 0 true (fun n s =>
    if s.f hub F.RS_DEVICE_withdrawn = 0 then s.refuse n Cs.refused 0x91
    else
      let s : State := { s with stew := { s.stew with devResets := [] } }
      let s := allParts.foldl (fun t p => t.updPart p (fun x => { x with resetTimes := [] })) s
      s.startDevice 4 ld.val)

/-! Licence and firmware commands (R324, R331, R338). -/

/-- Bytes of an LD's command area. -/
def State.areaBytes (s : State) (ld off n : Nat) : List (BitVec 8) := memRead s.cmdArea (ld * 65536 + off) n

/-- LICENCE (0x0401): the licence at an offset of the command area. -/
def execLicence (ld : LdId) (off : BitVec 16) (s : State) : Out :=
  s.command ld 0x0401 off.toNat true (fun n s =>
    if s.f hub F.HB_BOOT_step ≠ 9 then s.complete n Cs.busy 0
    else
      let l := s.areaBytes ld.val off.toNat (min 2948 (65536 - off.toNat))
      let above := max (licNumber s.stew.licence) (licNumber s.stew.licPending)
      match s.licenceCheck l (some above) with
      | 0 =>
        let s : State := { s with stew := { s.stew with licPending := some l } }
        let s := (s.setF hub F.LC_FEATURES_pending 1).wr hub R.LC_LIC_PEND (BitVec.ofNat 32 (leAt l 72 4))
        (s.complete n Cs.done 0).ev .hub Ev.LC_INSTALLED [leAt l 72 4, leAt l 56 1, leAt l 57 1, leAt l 58 2]
      | c => (s.complete n Cs.refused c).ev .hub Ev.LC_REFUSED [c, leAt l 72 4])

/-- FW_UPDATE (0x0301): a chunk of `n` bytes at an offset of the command area goes to an offset of steward RAM; more than
32 KiB, or a range past the command area or the image, is refused (DEDUCED). -/
def execFwUpdate (ld : LdId) (off n : BitVec 16) (at_ : BitVec 20) (s : State) : Out :=
  s.command ld 0x0301 at_.toNat true (fun k s =>
    if 32768 < n.toNat ∨ 65536 < off.toNat + n.toNat ∨ 1048576 < at_.toNat + n.toNat then s.refuse k Cs.refused 0x91
    else
      let b := s.areaBytes ld.val off.toNat n.toNat
      let s : State := { s with stew := { s.stew with fwRam := memWrite s.stew.fwRam at_.toNat b } }
      s.complete k Cs.done 0)

/-- Clearason restarts: the steward mailbox of every LD is cleared; gathered requests end; an open block of indices is lost
(R324, R335, R338, 09 R255). -/
def State.restart (s : State) : State :=
  let s := s.abortBox 0
  let doe := s.stew.attest.foldl (fun m r => if r.cmd.isNone then spSet 0 m r.ld 2 else m) s.stew.doe
  let s : State := { s with stew := { s.stew with attest := [], doe := doe } }
  s.resumeIds.showIds

/-- FW_ACTIVATE (0x0302): the image in RAM, with the outcome of its check, its version and its digest. -/
def execFwActivate (ld : LdId) (bad : Option (Fin 256)) (version : BitVec 16) (digest : List Byte) (s : State) : Out :=
  s.command ld 0x0302 0 true (fun n s =>
    let busy := allParts.any (fun p => (s.part p).recovery.isSome || (s.part p).rot.isSome)
    if busy then s.complete n Cs.busy 0
    else match bad with
      | some c => s.complete n Cs.refused c.val
      | none =>
        if version.toNat < s.stew.store.minFw then s.complete n Cs.refused 0x99
        else
          let old := s.stew.version
          let s := s.complete n Cs.done 0
          let s : State := { s with stew := { s.stew with version := version.toNat, imageDigest := digest, fwRam := [] } }
          let s := (s.setF hub F.LC_FW_running version.toNat).ev .hub Ev.FW_UPDATE [old, version.toNat]
          s.restart.evalShields)

end Sys2Proof.Machine
end

