-- ==== Sys2Proof/Machine/Scalar.lean ====
section
/-! DEFINITION. Scalar integer and immediate instructions (04_stitchers.md, Table 6: opcodes 0x01 to 0x08). -/

namespace Sys2Proof.Machine

/-- A scalar instruction of two registers: rd = f ra rb, usable after `lat` cycles (Table 7). -/
def State.scalar2 (s : State) (u : StId) (i : Instr) (rd ra rb : SReg) (lat : Nat)
    (f : BitVec 32 → BitVec 32 → BitVec 32) : Out :=
  s.issue u i { srcs := [sK ra, sK rb] } (fun s t _ => s.putS u rd (f ((s.st u).s ra) ((s.st u).s rb)) (t + lat))

/-- A scalar instruction of one register. -/
def State.scalar1 (s : State) (u : StId) (i : Instr) (rd ra : SReg) (lat : Nat) (f : BitVec 32 → BitVec 32) : Out :=
  s.issue u i { srcs := [sK ra] } (fun s t _ => s.putS u rd (f ((s.st u).s ra)) (t + lat))

/-- A scalar compare: every bit of pd is the result (R89). -/
def State.scalarCmp (s : State) (u : StId) (i : Instr) (pd : PReg) (ra rb : SReg) (lat : Nat)
    (f : BitVec 32 → BitVec 32 → Bool) : Out :=
  s.issue u i { srcs := [sK ra, sK rb] }
    (fun s t _ => s.putP u pd (predAll (f ((s.st u).s ra) ((s.st u).s rb))) (t + lat))

/-- rd = ra + rb, modulo 2^32 (R101, R44). -/
def execAdd (u : StId) (rd ra rb : SReg) (s : State) : Out :=
  s.scalar2 u (.add u rd ra rb) rd ra rb 1 (fun a b => a + b)

/-- rd = ra - rb, modulo 2^32. -/
def execSub (u : StId) (rd ra rb : SReg) (s : State) : Out :=
  s.scalar2 u (.sub u rd ra rb) rd ra rb 1 (fun a b => a - b)

/-- The low 32 bits of the product. -/
def execMul (u : StId) (rd ra rb : SReg) (s : State) : Out :=
  s.scalar2 u (.mul u rd ra rb) rd ra rb 3 (fun a b => a * b)

/-- The high 32 bits of the signed product. -/
def execMulh (u : StId) (rd ra rb : SReg) (s : State) : Out :=
  s.scalar2 u (.mulh u rd ra rb) rd ra rb 3 (fun a b => BitVec.ofInt 32 ((a.toInt * b.toInt) / 2 ^ 32))

/-- The high 32 bits of the unsigned product. -/
def execMulhu (u : StId) (rd ra rb : SReg) (s : State) : Out :=
  s.scalar2 u (.mulhu u rd ra rb) rd ra rb 3 (fun a b => BitVec.ofNat 32 (a.toNat * b.toNat / 2 ^ 32))

/-- Bitwise and. -/
def execAnd (u : StId) (rd ra rb : SReg) (s : State) : Out :=
  s.scalar2 u (.and u rd ra rb) rd ra rb 1 (fun a b => a &&& b)

/-- Bitwise or. -/
def execOr (u : StId) (rd ra rb : SReg) (s : State) : Out :=
  s.scalar2 u (.or u rd ra rb) rd ra rb 1 (fun a b => a ||| b)

/-- Bitwise exclusive or. -/
def execXor (u : StId) (rd ra rb : SReg) (s : State) : Out :=
  s.scalar2 u (.xor u rd ra rb) rd ra rb 1 (fun a b => a ^^^ b)

/-- Left shift by rb[4:0]. -/
def execShl (u : StId) (rd ra rb : SReg) (s : State) : Out :=
  s.scalar2 u (.shl u rd ra rb) rd ra rb 1 (fun a b => a <<< (b.toNat % 32))

/-- Logical right shift by rb[4:0]. -/
def execShr (u : StId) (rd ra rb : SReg) (s : State) : Out :=
  s.scalar2 u (.shr u rd ra rb) rd ra rb 1 (fun a b => a >>> (b.toNat % 32))

/-- Arithmetic right shift by rb[4:0]. -/
def execSra (u : StId) (rd ra rb : SReg) (s : State) : Out :=
  s.scalar2 u (.sra u rd ra rb) rd ra rb 1 (fun a b => a.sshiftRight (b.toNat % 32))

/-- The smaller, signed. -/
def execMin (u : StId) (rd ra rb : SReg) (s : State) : Out :=
  s.scalar2 u (.min u rd ra rb) rd ra rb 1 (fun a b => if a.slt b then a else b)

/-- The larger, signed. -/
def execMax (u : StId) (rd ra rb : SReg) (s : State) : Out :=
  s.scalar2 u (.max u rd ra rb) rd ra rb 1 (fun a b => if a.slt b then b else a)

/-- The smaller, unsigned. -/
def execMinu (u : StId) (rd ra rb : SReg) (s : State) : Out :=
  s.scalar2 u (.minu u rd ra rb) rd ra rb 1 (fun a b => if a.ult b then a else b)

/-- The larger, unsigned. -/
def execMaxu (u : StId) (rd ra rb : SReg) (s : State) : Out :=
  s.scalar2 u (.maxu u rd ra rb) rd ra rb 1 (fun a b => if a.ult b then b else a)

/-- The sum clamped to the INT32 range (R44). -/
def execAddSat (u : StId) (rd ra rb : SReg) (s : State) : Out :=
  s.scalar2 u (.addSat u rd ra rb) rd ra rb 1 (fun a b => sat32 (a.toInt + b.toInt))

/-- The difference clamped to the INT32 range (R44). -/
def execSubSat (u : StId) (rd ra rb : SReg) (s : State) : Out :=
  s.scalar2 u (.subSat u rd ra rb) rd ra rb 1 (fun a b => sat32 (a.toInt - b.toInt))

/-- rd = bit 0 of pd ? ra : rb. -/
def execSel (u : StId) (rd ra rb : SReg) (pd : PReg) (s : State) : Out :=
  s.issue u (.sel u rd ra rb pd) { srcs := [sK ra, sK rb, pK pd] }
    (fun s t _ => s.putS u rd (if ((s.st u).p pd).getLsbD 0 then (s.st u).s ra else (s.st u).s rb) (t + 1))

/-- pd = (ra = rb). -/
def execCmpEq (u : StId) (pd : PReg) (ra rb : SReg) (s : State) : Out :=
  s.scalarCmp u (.cmpEq u pd ra rb) pd ra rb 1 (fun a b => a == b)

/-- pd = (ra ≠ rb). -/
def execCmpNe (u : StId) (pd : PReg) (ra rb : SReg) (s : State) : Out :=
  s.scalarCmp u (.cmpNe u pd ra rb) pd ra rb 1 (fun a b => a != b)

/-- pd = (ra < rb), signed. -/
def execCmpLt (u : StId) (pd : PReg) (ra rb : SReg) (s : State) : Out :=
  s.scalarCmp u (.cmpLt u pd ra rb) pd ra rb 1 (fun a b => a.slt b)

/-- pd = (ra ≤ rb), signed. -/
def execCmpLe (u : StId) (pd : PReg) (ra rb : SReg) (s : State) : Out :=
  s.scalarCmp u (.cmpLe u pd ra rb) pd ra rb 1 (fun a b => a.sle b)

/-- pd = (ra < rb), unsigned. -/
def execCmpLtu (u : StId) (pd : PReg) (ra rb : SReg) (s : State) : Out :=
  s.scalarCmp u (.cmpLtu u pd ra rb) pd ra rb 1 (fun a b => a.ult b)

/-- pd = (ra ≤ rb), unsigned. -/
def execCmpLeu (u : StId) (pd : PReg) (ra rb : SReg) (s : State) : Out :=
  s.scalarCmp u (.cmpLeu u pd ra rb) pd ra rb 1 (fun a b => a.ule b)

/-- rd = ra + sign-extended imm16. -/
def execAddi (u : StId) (rd ra : SReg) (imm : BitVec 16) (s : State) : Out :=
  s.scalar1 u (.addi u rd ra imm) rd ra 1 (fun a => a + sext16 imm)

/-- rd = ra and zero-extended imm16. -/
def execAndi (u : StId) (rd ra : SReg) (imm : BitVec 16) (s : State) : Out :=
  s.scalar1 u (.andi u rd ra imm) rd ra 1 (fun a => a &&& zext16 imm)

/-- rd = ra or zero-extended imm16. -/
def execOri (u : StId) (rd ra : SReg) (imm : BitVec 16) (s : State) : Out :=
  s.scalar1 u (.ori u rd ra imm) rd ra 1 (fun a => a ||| zext16 imm)

/-- rd = ra exclusive or zero-extended imm16. -/
def execXori (u : StId) (rd ra : SReg) (imm : BitVec 16) (s : State) : Out :=
  s.scalar1 u (.xori u rd ra imm) rd ra 1 (fun a => a ^^^ zext16 imm)

/-- rd = imm16 << 16. -/
def execLui (u : StId) (rd : SReg) (imm : BitVec 16) (s : State) : Out :=
  s.issue u (.lui u rd imm) { srcs := [] } (fun s t _ => s.putS u rd (zext16 imm <<< 16) (t + 1))

/-- Left shift by the amount. -/
def execShli (u : StId) (rd ra : SReg) (amt : BitVec 5) (s : State) : Out :=
  s.scalar1 u (.shli u rd ra amt) rd ra 1 (fun a => a <<< amt.toNat)

/-- Logical right shift by the amount. -/
def execShri (u : StId) (rd ra : SReg) (amt : BitVec 5) (s : State) : Out :=
  s.scalar1 u (.shri u rd ra amt) rd ra 1 (fun a => a >>> amt.toNat)

/-- Arithmetic right shift by the amount. -/
def execSrai (u : StId) (rd ra : SReg) (amt : BitVec 5) (s : State) : Out :=
  s.scalar1 u (.srai u rd ra amt) rd ra 1 (fun a => a.sshiftRight amt.toNat)

/-- pd = ra compared with sign-extended imm16. -/
def execCmpi (u : StId) (pd : PReg) (cond : CondI) (ra : SReg) (imm : BitVec 16) (s : State) : Out :=
  s.issue u (.cmpi u pd cond ra imm) { srcs := [sK ra] }
    (fun s t _ => s.putP u pd (predAll (CondI.holds cond ((s.st u).s ra) (sext16 imm))) (t + 1))

end Sys2Proof.Machine
end

