-- ==== Sys2Proof/Machine/FloatInstr.lean ====
section
/-! DEFINITION. Scalar FP32 and transcendental instructions, scalar conversion (04_stitchers.md, Table 6: opcodes 0x09
and 0x14; R102; 02_number_formats.md R42, R56 to R59). -/

namespace Sys2Proof.Machine

/-- The FP32 sum, rounded to nearest even. -/
def execFadd (u : StId) (rd ra rb : SReg) (s : State) : Out :=
  s.scalar2 u (.fadd u rd ra rb) rd ra rb 4 fadd32

/-- The FP32 difference. -/
def execFsub (u : StId) (rd ra rb : SReg) (s : State) : Out :=
  s.scalar2 u (.fsub u rd ra rb) rd ra rb 4 fsub32

/-- The FP32 product. -/
def execFmul (u : StId) (rd ra rb : SReg) (s : State) : Out :=
  s.scalar2 u (.fmul u rd ra rb) rd ra rb 4 fmul32

/-- rd = ra x rb + rd, rounded once. -/
def execFfma (u : StId) (rd ra rb : SReg) (s : State) : Out :=
  s.issue u (.ffma u rd ra rb) { srcs := [sK ra, sK rb, sK rd] }
    (fun s t _ => s.putS u rd (ffma32 ((s.st u).s ra) ((s.st u).s rb) ((s.st u).s rd)) (t + 4))

/-- The FP32 minimum: a NaN propagates as the canonical NaN, and -0 is below +0 (R42). -/
def execFmin (u : StId) (rd ra rb : SReg) (s : State) : Out :=
  s.scalar2 u (.fmin u rd ra rb) rd ra rb 4 fmin32

/-- The FP32 maximum (R42). -/
def execFmax (u : StId) (rd ra rb : SReg) (s : State) : Out :=
  s.scalar2 u (.fmax u rd ra rb) rd ra rb 4 fmax32

/-- Clears bit 31 and changes no other bit (R42). -/
def execFabs (u : StId) (rd ra : SReg) (s : State) : Out :=
  s.scalar1 u (.fabs u rd ra) rd ra 4 (fun a => a &&& 0x7FFFFFFF)

/-- Inverts bit 31 and changes no other bit (R42). -/
def execFneg (u : StId) (rd ra : SReg) (s : State) : Out :=
  s.scalar1 u (.fneg u rd ra) rd ra 4 (fun a => a ^^^ 0x80000000)

/-- An instruction of the transcendental unit, which accepts one every 4 cycles (R102, Table 7). -/
def State.scalarT (s : State) (u : StId) (i : Instr) (rd ra : SReg) (f : FVal → FVal) : Out :=
  s.issue u i { srcs := [sK ra], unit := 4 } (fun s t _ => s.putS u rd (toFp32 (f (ofFp32 ((s.st u).s ra)))) (t + 12))

/-- e^x, correctly rounded (R102). -/
def execFexp (u : StId) (rd ra : SReg) (s : State) : Out := s.scalarT u (.fexp u rd ra) rd ra FVal.exp

/-- 1/x, correctly rounded (R102). -/
def execFrcp (u : StId) (rd ra : SReg) (s : State) : Out := s.scalarT u (.frcp u rd ra) rd ra FVal.rcp

/-- 1/sqrt x, correctly rounded (R102). -/
def execFrsqrt (u : StId) (rd ra : SReg) (s : State) : Out := s.scalarT u (.frsqrt u rd ra) rd ra FVal.rsqrt

/-- pd = (ra = rb) as FP32. -/
def execFcmpEq (u : StId) (pd : PReg) (ra rb : SReg) (s : State) : Out :=
  s.scalarCmp u (.fcmpEq u pd ra rb) pd ra rb 4 feq32

/-- pd = (ra < rb) as FP32. -/
def execFcmpLt (u : StId) (pd : PReg) (ra rb : SReg) (s : State) : Out :=
  s.scalarCmp u (.fcmpLt u pd ra rb) pd ra rb 4 flt32

/-- pd = (ra ≤ rb) as FP32. -/
def execFcmpLe (u : StId) (pd : PReg) (ra rb : SReg) (s : State) : Out :=
  s.scalarCmp u (.fcmpLe u pd ra rb) pd ra rb 4 fle32

/-- pd = either operand is a NaN. -/
def execFcmpUn (u : StId) (pd : PReg) (ra rb : SReg) (s : State) : Out :=
  s.scalarCmp u (.fcmpUn u pd ra rb) pd ra rb 4 fun32

/-- A conversion's rounding mode. -/
def rmOf : Rm → RMode
  | .rne => .rne
  | .rtz => .rtz
  | .sr => .sr

/-- The format code of R38. -/
def scalCode : ScalFmt → Nat
  | .fp32 => 0
  | .bf16 => 1
  | .fp16 => 2
  | .int32 => 7

/-- The record of a NaN converted to an integer (02_number_formats.md R59, R61). -/
def State.cvtNan (s : State) (u : StId) (pc : Nat) : State := s.raise (.quire u.quire) Ev.CVT_NAN 0 [u.st.val, pc]

/-- A scalar conversion: one exact value rounded once; in stochastic mode it takes one draw (R58, R59). -/
def execCvtS (u : StId) (rd ra : SReg) (tf ff : ScalFmt) (rm : Rm) (s : State) : Out :=
  s.issue u (.cvtS u rd ra tf ff rm) { srcs := [sK ra] } (fun s t pc =>
    let x := s.st u
    let g := if rm = .sr then lfsrDraw x.lfsr else x.lfsr
    let v := fmtValue (scalCode ff) ((x.s ra).toNat % 2 ^ fmtBits (scalCode ff))
    let r := BitVec.ofNat 32 (fmtConvert (scalCode tf) (rmOf rm) (g.toNat % 2 ^ 16) false v)
    let s := (s.setSt u { x with lfsr := g }).putS u rd r (t + 4)
    if v.isNan && decide (tf = .int32) then s.cvtNan u pc else s)

end Sys2Proof.Machine
end

