-- ==== Sys2Proof/Machine/VectorInstr.lean ====
section
/-! DEFINITION. Vector instructions (04_stitchers.md, Table 6: opcodes 0x10 to 0x12; R89, R102;
02_number_formats.md R42, R44, R56). -/

namespace Sys2Proof.Machine

/-- Latency of a lanewise instruction: 2 for integer lanes, 4 for float lanes (Table 7). -/
def laneLat (ty : LaneTy) : Nat := if ty.isFloat then 4 else 2

/-- A vector instruction whose result lanes are a function of the source registers, under its guard. -/
def State.vecOp (s : State) (u : StId) (i : Instr) (vd : VReg) (srcs : List Nat) (pg : PReg) (pn : Bool) (ty : LaneTy)
    (lat : Nat) (f : Stitcher → Nat → Nat) : Out :=
  s.issue u i { srcs := pK pg :: srcs } (fun s t _ =>
    let x := s.st u
    s.putLanes u vd (governsAll ty (x.p pg) pn) (guarded ty (x.p pg) pn (x.v vd) (f x)) (t + lat))

/-- A lanewise instruction of two registers. -/
def State.vec2 (s : State) (u : StId) (i : Instr) (vd va vb : VReg) (pg : PReg) (pn : Bool) (ty : LaneTy)
    (f : Nat → Nat → Nat) : Out :=
  s.vecOp u i vd [vK va, vK vb] pg pn ty (laneLat ty)
    (fun x k => f (laneAt (x.v va) ty.width k) (laneAt (x.v vb) ty.width k))

/-- A lanewise instruction of one register. -/
def State.vec1 (s : State) (u : StId) (i : Instr) (vd va : VReg) (pg : PReg) (pn : Bool) (ty : LaneTy) (lat : Nat)
    (f : Nat → Nat) : Out :=
  s.vecOp u i vd [vK va] pg pn ty lat (fun x k => f (laneAt (x.v va) ty.width k))

/-- A vector compare into a predicate (R89). -/
def State.vecCmp (s : State) (u : StId) (i : Instr) (pd : PReg) (va vb : VReg) (pg : PReg) (pn : Bool) (ty : LaneTy)
    (f : Nat → Nat → Bool) : Out :=
  s.issue u i { srcs := [pK pg, vK va, vK vb] } (fun s t _ =>
    let x := s.st u
    s.putBits u pd (governsAll ty (x.p pg) pn) (predLanes ty (x.p pg) pn (x.p pd)
      (fun k => f (laneAt (x.v va) ty.width k) (laneAt (x.v vb) ty.width k))) (t + laneLat ty))

/-- Lanewise sum. -/
def execVadd (u : StId) (vd va vb : VReg) (pg : PReg) (pn : Bool) (ty : LaneTy) (s : State) : Out :=
  s.vec2 u (.vadd u vd va vb pg pn ty) vd va vb pg pn ty ty.add

/-- Lanewise difference. -/
def execVsub (u : StId) (vd va vb : VReg) (pg : PReg) (pn : Bool) (ty : LaneTy) (s : State) : Out :=
  s.vec2 u (.vsub u vd va vb pg pn ty) vd va vb pg pn ty ty.sub

/-- Lanewise product. -/
def execVmul (u : StId) (vd va vb : VReg) (pg : PReg) (pn : Bool) (ty : LaneTy) (s : State) : Out :=
  s.vec2 u (.vmul u vd va vb pg pn ty) vd va vb pg pn ty ty.mul

/-- Lanewise minimum. -/
def execVmin (u : StId) (vd va vb : VReg) (pg : PReg) (pn : Bool) (ty : LaneTy) (s : State) : Out :=
  s.vec2 u (.vmin u vd va vb pg pn ty) vd va vb pg pn ty ty.min

/-- Lanewise maximum. -/
def execVmax (u : StId) (vd va vb : VReg) (pg : PReg) (pn : Bool) (ty : LaneTy) (s : State) : Out :=
  s.vec2 u (.vmax u vd va vb pg pn ty) vd va vb pg pn ty ty.max

/-- vd = va x vb + vc, rounded once. -/
def execVfma (u : StId) (vd va vb vc : VReg) (pg : PReg) (pn : Bool) (ty : LaneTy) (s : State) : Out :=
  s.vecOp u (.vfma u vd va vb vc pg pn ty) vd [vK va, vK vb, vK vc] pg pn ty (laneLat ty)
    (fun x k => ty.fma (laneAt (x.v va) ty.width k) (laneAt (x.v vb) ty.width k) (laneAt (x.v vc) ty.width k))

/-- Lanewise magnitude; a float lane's sign bit is cleared (R42). -/
def execVabs (u : StId) (vd va : VReg) (pg : PReg) (pn : Bool) (ty : LaneTy) (s : State) : Out :=
  s.vec1 u (.vabs u vd va pg pn ty) vd va pg pn ty (laneLat ty) ty.abs

/-- Lanewise negation; a float lane's sign bit is inverted (R42). -/
def execVneg (u : StId) (vd va : VReg) (pg : PReg) (pn : Bool) (ty : LaneTy) (s : State) : Out :=
  s.vec1 u (.vneg u vd va pg pn ty) vd va pg pn ty (laneLat ty) ty.neg

/-- Lanewise and. -/
def execVand (u : StId) (vd va vb : VReg) (pg : PReg) (pn : Bool) (ty : IntTy) (s : State) : Out :=
  s.vec2 u (.vand u vd va vb pg pn ty) vd va vb pg pn ty.lane Nat.land

/-- Lanewise or. -/
def execVor (u : StId) (vd va vb : VReg) (pg : PReg) (pn : Bool) (ty : IntTy) (s : State) : Out :=
  s.vec2 u (.vor u vd va vb pg pn ty) vd va vb pg pn ty.lane Nat.lor

/-- Lanewise exclusive or. -/
def execVxor (u : StId) (vd va vb : VReg) (pg : PReg) (pn : Bool) (ty : IntTy) (s : State) : Out :=
  s.vec2 u (.vxor u vd va vb pg pn ty) vd va vb pg pn ty.lane Nat.xor

/-- Vector shifts: the amount is vb's lane. An amount of the lane's width or more has no stated result: that lane is a
free value (DESIGN CHOICE). -/
def State.vecShift (s : State) (u : StId) (i : Instr) (vd va vb : VReg) (pg : PReg) (pn : Bool) (ty : LaneTy)
    (f : Nat → Nat → Nat) : Out :=
  s.issue u i { srcs := [pK pg, vK va, vK vb] } (fun s t _ =>
    let x := s.st u
    let amt (k : Nat) := laneAt (x.v vb) ty.width k
    let r (k : Nat) := if amt k < ty.width then f (laneAt (x.v va) ty.width k) (amt k)
      else (Config.freeBits s.freeCount k ty.width).toNat
    let v := guarded ty (x.p pg) pn (x.v vd) r
    let s := if (List.range ty.lanes).all (fun k => decide (amt k < ty.width)) then s else s.useFree
    s.putLanes u vd (governsAll ty (x.p pg) pn) v (t + 2))

/-- Lanewise left shift. -/
def execVshl (u : StId) (vd va vb : VReg) (pg : PReg) (pn : Bool) (ty : IntTy) (s : State) : Out :=
  s.vecShift u (.vshl u vd va vb pg pn ty) vd va vb pg pn ty.lane (fun a n => a * 2 ^ n)

/-- Lanewise arithmetic right shift. -/
def execVsra (u : StId) (vd va vb : VReg) (pg : PReg) (pn : Bool) (ty : IntTy) (s : State) : Out :=
  s.vecShift u (.vsra u vd va vb pg pn ty) vd va vb pg pn ty.lane
    (fun a n => intCode ty.lane.width (intVal ty.lane.width a / 2 ^ n))

/-- Lanewise equality into a predicate. -/
def execVcmpEq (u : StId) (pd : PReg) (va vb : VReg) (pg : PReg) (pn : Bool) (ty : LaneTy) (s : State) : Out :=
  s.vecCmp u (.vcmpEq u pd va vb pg pn ty) pd va vb pg pn ty ty.eqv

/-- Lanewise less-than into a predicate. -/
def execVcmpLt (u : StId) (pd : PReg) (va vb : VReg) (pg : PReg) (pn : Bool) (ty : LaneTy) (s : State) : Out :=
  s.vecCmp u (.vcmpLt u pd va vb pg pn ty) pd va vb pg pn ty ty.lt

/-- Lanewise at-most into a predicate. -/
def execVcmpLe (u : StId) (pd : PReg) (va vb : VReg) (pg : PReg) (pn : Bool) (ty : LaneTy) (s : State) : Out :=
  s.vecCmp u (.vcmpLe u pd va vb pg pn ty) pd va vb pg pn ty ty.le

/-- Each lane of vd is va's or vb's by its governing bit; all lanes are written. -/
def execVsel (u : StId) (vd va vb : VReg) (pg : PReg) (pn : Bool) (ty : LaneTy) (s : State) : Out :=
  s.issue u (.vsel u vd va vb pg pn ty) { srcs := [pK pg, vK va, vK vb] } (fun s t _ =>
    let x := s.st u
    s.putV u vd (guarded ty (x.p pg) pn (x.v vb) (laneAt (x.v va) ty.width)) (t + 2))

/-- The low bits of s(rs) to every lane of vd. -/
def execVbcast (u : StId) (vd : VReg) (rs : SReg) (ty : LaneTy) (s : State) : Out :=
  s.issue u (.vbcast u vd rs ty) { srcs := [sK rs] } (fun s t _ =>
    s.putV u vd (packVec ty.width (List.replicate ty.lanes ((s.st u).s rs).toNat)) (t + 2))

/-- A lane of va to s(rs). The spec does not state the bits above a narrow lane, nor the result for a lane number past
the last: those are free values (DESIGN CHOICE). -/
def execVext (u : StId) (va : VReg) (rs : SReg) (lane : BitVec 6) (ty : LaneTy) (s : State) : Out :=
  s.issue u (.vext u va rs lane ty) { srcs := [vK va] } (fun s t _ =>
    let v := laneAt ((s.st u).v va) ty.width lane.toNat
    let free := (Config.freeBits s.freeCount 0 32).toNat
    let r := if lane.toNat < ty.lanes then v + free / 2 ^ ty.width * 2 ^ ty.width else free
    let s := if lane.toNat < ty.lanes ∧ ty.width = 32 then s else s.useFree
    s.putS u rs (BitVec.ofNat 32 r) (t + 2))

/-- The low bits of s(rs) into one lane of vd. For a lane number past the last the spec states no result: vd is a free
value (DESIGN CHOICE). -/
def execVins (u : StId) (vd : VReg) (rs : SReg) (lane : BitVec 6) (ty : LaneTy) (s : State) : Out :=
  s.issue u (.vins u vd rs lane ty) { srcs := [sK rs] } (fun s t _ =>
    let x := s.st u
    if lane.toNat < ty.lanes then
      s.putLanes u vd false (packVec ty.width ((List.range ty.lanes).map (fun k =>
        if k = lane.toNat then (x.s rs).toNat else laneAt (x.v vd) ty.width k))) (t + 2)
    else s.useFree.putV u vd (Config.freeBits s.freeCount 0 512) (t + 2))

/-- Adjacent pairs combined. -/
def lanePairs {α : Type} (f : α → α → α) : List α → List α
  | a :: b :: t => f a b :: lanePairs f t
  | l => l

/-- `n` levels of adjacent pairs. -/
def pairTree {α : Type} (f : α → α → α) : Nat → List α → List α
  | 0, l => l
  | n + 1, l => pairTree f n (lanePairs f l)

/-- The sum of a list of lanes, adjacent lanes first; a float sum rounds at every node. -/
def laneSum (ty : LaneTy) (l : List Nat) : Nat := (pairTree ty.add 6 l).headD 0

/-- Lane 0 of vd is the sum of va's lanes, the other lanes are zero, under the guard. -/
def execVsum (u : StId) (vd va : VReg) (pg : PReg) (pn : Bool) (ty : LaneTy) (s : State) : Out :=
  s.vecOp u (.vsum u vd va pg pn ty) vd [vK va] pg pn ty 6
    (fun x k => if k = 0 then laneSum ty (lanesOf ty (x.v va)) else 0)

/-- Lane code `a` is larger than `b` for VMAXI: a NaN is largest, and +0 is above -0 (R42). -/
def laneAbove (ty : LaneTy) (a b : Nat) : Bool :=
  if ty.isFloat then
    let x := ty.fmt.decode a
    let y := ty.fmt.decode b
    !y.isNan && (x.isNan || y.below x)
  else ty.lt b a

/-- The largest lane and its lowest index. -/
def laneMax (ty : LaneTy) : List Nat → Nat × Nat
  | [] => (0, 0)
  | a :: t => (t.foldl (fun (r : (Nat × Nat) × Nat) c =>
      if laneAbove ty c r.1.1 then ((c, r.2), r.2 + 1) else (r.1, r.2 + 1)) ((a, 0), 1)).1

/-- Lane 0 is the largest lane (a NaN as the canonical NaN), lane 1 its lowest index, the other lanes zero. -/
def execVmaxi (u : StId) (vd va : VReg) (pg : PReg) (pn : Bool) (ty : LaneTy) (s : State) : Out :=
  s.vecOp u (.vmaxi u vd va pg pn ty) vd [vK va] pg pn ty 6 (fun x k =>
    let m := laneMax ty (lanesOf ty (x.v va))
    if k = 0 then (if ty.isNan m.1 then ty.fmt.nanc else m.1) else if k = 1 then m.2 else 0)

/-- vd lane i = va lane (vb lane i mod lane count). -/
def execVshuf (u : StId) (vd va vb : VReg) (pg : PReg) (pn : Bool) (ty : LaneTy) (s : State) : Out :=
  s.vecOp u (.vshuf u vd va vb pg pn ty) vd [vK va, vK vb] pg pn ty 6
    (fun x k => laneAt (x.v va) ty.width (laneAt (x.v vb) ty.width k % ty.lanes))

/-- vd = va. -/
def execVmov (u : StId) (vd va : VReg) (pg : PReg) (pn : Bool) (ty : LaneTy) (s : State) : Out :=
  s.vec1 u (.vmov u vd va pg pn ty) vd va pg pn ty 2 (fun a => a)

/-- A transcendental function of a lane: FP32 correctly rounded; a BF16 operand's FP32 result rounded to BF16 (R102). -/
def laneT (ty : FloatTy) (f : FVal → FVal) (a : Nat) : Nat :=
  let y := (toFp32 (f (ty.lane.fmt.decode a))).toNat
  match ty with
  | .fp32 => y
  | .bf16 => FFmt.bf16.encode .rne 0 false (FFmt.fp32.decode y)

/-- A vector instruction of the transcendental unit (Table 7). -/
def State.vecT (s : State) (u : StId) (i : Instr) (vd va : VReg) (pg : PReg) (pn : Bool) (ty : FloatTy)
    (f : FVal → FVal) : Out :=
  s.issue u i { srcs := [pK pg, vK va], unit := if ty = .fp32 then 4 else 8 } (fun s t _ =>
    let x := s.st u
    s.putLanes u vd (governsAll ty.lane (x.p pg) pn)
      (guarded ty.lane (x.p pg) pn (x.v vd) (fun k => laneT ty f (laneAt (x.v va) ty.lane.width k))) (t + 12))

/-- Lanewise e^x. -/
def execVexp (u : StId) (vd va : VReg) (pg : PReg) (pn : Bool) (ty : FloatTy) (s : State) : Out :=
  s.vecT u (.vexp u vd va pg pn ty) vd va pg pn ty FVal.exp

/-- Lanewise 1/x. -/
def execVrcp (u : StId) (vd va : VReg) (pg : PReg) (pn : Bool) (ty : FloatTy) (s : State) : Out :=
  s.vecT u (.vrcp u vd va pg pn ty) vd va pg pn ty FVal.rcp

/-- Lanewise 1/sqrt x. -/
def execVrsqrt (u : StId) (vd va : VReg) (pg : PReg) (pn : Bool) (ty : FloatTy) (s : State) : Out :=
  s.vecT u (.vrsqrt u vd va pg pn ty) vd va pg pn ty FVal.rsqrt

end Sys2Proof.Machine
end

