-- ==== Sys2Proof/Machine/Convert.lean ====
section
/-! DEFINITION. Vector conversions and MX blocks (04_stitchers.md R103; 02_number_formats.md R47 to R51, R56 to R60). -/

namespace Sys2Proof.Machine

/-- The format codes of R38. -/
def cvtCode : CvtFmt → Nat
  | .fp32 => 0
  | .bf16 => 1
  | .fp16 => 2
  | .e4m3 => 3
  | .e5m2 => 4
  | .int32 => 7
  | .int8 => 8
  | .int4 => 9

def blkCode : BlkFmt → Nat
  | .e4m3 => 3
  | .e5m2 => 4
  | .mxfp6 => 5
  | .mxfp4 => 6

def blkSrcCode : BlkSrc → Nat
  | .fp32 => 0
  | .bf16 => 1

def unblkCode : UnblkDst → Nat
  | .fp32 => 0
  | .bf16 => 1
  | .fp16 => 2

/-- Applies a conversion to each element in order; where `draws` holds the element takes one draw of the generator
(R58). -/
def withDraws {α β : Type} (sr : Bool) (f : Nat → α → β) (takes : α → Bool) :
    List α → BitVec 32 → List β × BitVec 32
  | [], g => ([], g)
  | a :: t, g =>
    let g' := if sr && takes a then lfsrDraw g else g
    let r := withDraws sr f takes t g'
    (f (g'.toNat % 2 ^ 16) a :: r.1, r.2)

/-- The bit of the guard that governs lane `i` of `w`-bit lanes: bit (bytes x i); an INT4 lane is governed by its byte's
bit (R89, DEDUCED). -/
def cvtGoverned (g : BitVec 64) (w i : Nat) : Bool := g.getLsbD (w * i / 8)

/-- The source lane of target lane `i`, where the part has one: the half or the quarter that `part` selects when the
target is wider (R103). -/
def cvtSource (tw fw : Nat) (part : BitVec 2) (i : Nat) : Option Nat :=
  if tw ≤ fw then some i
  else if part.toNat < tw / fw ∧ tw / fw ≤ 4 then some (part.toNat * (512 / tw) + i)
  else none

/-- Lanewise conversion (R103). Under a width ratio and a part for which the rule states no source the lanes are free
values (DESIGN CHOICE); a lane predicated off keeps its contents and takes no draw (R58). -/
def execCvt (u : StId) (vd va : VReg) (tf ff : CvtFmt) (rm : Rm) (spc : Bool) (pg : PReg) (part : BitVec 2) (s : State) :
    Out :=
  s.issue u (.cvt u vd va tf ff rm spc pg part) { srcs := [pK pg, vK va] } (fun s t pc =>
    let x := s.st u
    let tw := fmtBits (cvtCode tf)
    let fw := fmtBits (cvtCode ff)
    let n := 512 / max tw fw
    let val (i : Nat) : Option FVal := (cvtSource tw fw part i).map (fun k => fmtValue (cvtCode ff) (laneAt (x.v va) fw k))
    let on (i : Nat) : Bool := cvtGoverned (x.p pg) tw i
    let conv (r i : Nat) : Nat :=
      if on i then
        match val i with
        | some v => fmtConvert (cvtCode tf) (rmOf rm) r spc v
        | none => (Config.freeBits s.freeCount i tw).toNat
      else laneAt (x.v vd) tw i
    let d := withDraws (decide (rm = .sr)) conv on (List.range n) x.lfsr
    let toInt := decide (7 ≤ cvtCode tf)
    let nan := toInt && (List.range n).any (fun i => on i && match val i with
      | some v => v.isNan
      | none => false)
    let free := (cvtSource tw fw part 0).isNone
    let s := (s.setSt u { x with lfsr := d.2 }).putV u vd (packVec tw d.1) (t + 4)
    let s := if free then s.useFree else s
    if nan then s.cvtNan u pc else s)

/-- The 32 source values of CVT.BLK: va and va + 1 for FP32, va for BF16 (R103). -/
def blkValues (x : Stitcher) (va : VReg) (ff : BlkSrc) : List FVal :=
  match ff with
  | .fp32 => ((List.range 16).map (fun i => ofFp32 (BitVec.ofNat 32 (laneAt (x.v va) 32 i)))) ++
      ((List.range 16).map (fun i => ofFp32 (BitVec.ofNat 32 (laneAt (x.v (va + 1)) 32 i))))
  | .bf16 => (List.range 32).map (fun i => FFmt.bf16.decode (laneAt (x.v va) 16 i))

/-- Quantises one 32-value block: packed elements from byte 0, zeros up to byte 62, the E8M0 scale in byte 63 (R51,
R103). -/
def execCvtBlk (u : StId) (vd va : VReg) (tf : BlkFmt) (ff : BlkSrc) (rm : Rm) (s : State) : Out :=
  s.issue u (.cvtBlk u vd va tf ff rm)
    { srcs := if ff = .fp32 then [vK va, vK (va + 1)] else [vK va], occupy := 2 } (fun s t _ =>
    let x := s.st u
    let xs := blkValues x va ff
    let sc := blockScale (blkCode tf) xs
    let d := withDraws (decide (rm = .sr)) (fun r v => blockElem (blkCode tf) sc (rmOf rm) r v) (fun _ => true) xs x.lfsr
    let v := BitVec.ofNat 512 (packNat (fmtBits (blkCode tf)) d.1 + sc * 2 ^ 504)
    (s.setSt u { x with lfsr := d.2 }).putV u vd v (t + 8))

/-- Expands one block into vd, and vd + 1 for FP32 (R49, R50, R103). -/
def execCvtUnblk (u : StId) (vd va : VReg) (tf : UnblkDst) (ff : BlkFmt) (rm : Rm) (s : State) : Out :=
  s.issue u (.cvtUnblk u vd va tf ff rm) { srcs := [vK va], occupy := 2 } (fun s t _ =>
    let x := s.st u
    let sc := laneAt (x.v va) 8 63
    let w := fmtBits (blkCode ff)
    let vals := (List.range 32).map (fun i => blockValue (blkCode ff) sc (laneAt (x.v va) w i))
    let d := withDraws (decide (rm = .sr)) (fun r v => fmtConvert (unblkCode tf) (rmOf rm) r false v) (fun _ => true)
      vals x.lfsr
    let s := s.setSt u { x with lfsr := d.2 }
    match tf with
    | .fp32 => (s.putV u vd (packVec 32 (d.1.take 16)) (t + 8)).putV u (vd + 1) (packVec 32 (d.1.drop 16)) (t + 8)
    | _ => s.putV u vd (packVec 16 d.1) (t + 8))

end Sys2Proof.Machine
end

