-- ==== Sys2Proof/Machine/Colophon.lean ====
section
/-! DEFINITION. What the colophon's sections show (14_event_recorder_and_colophon.md R355, Tables 6 and 7). The places of
the fields in the sections other than 0x03 are the model's (DESIGN CHOICE): the spec gives only their contents. -/

namespace Sys2Proof.Machine

/-- The entry size and the entries kept of each section (Table 6). -/
def colSections : List (Nat × Nat) :=
  [(16, 16), (256, 1), (64, 65536), (64, 182), (64, 37), (256, 36), (256, 36), (32, 2048), (32, 4096), (64, 8192),
   (32, 8192), (16, 8192), (16, 16), (64, 4)]

/-- Hours of a counter of seconds that the colophon keeps. -/
def State.hoursAt (s : State) (k : Nat) : Nat := leNat (memRead s.stew.flash k 4) / 3600

/-- A 32-bit counter of a section in flash. -/
def State.colCount (s : State) (sec off : Nat) : Nat := leNat (memRead s.stew.flash (colKey sec off) 4)

/-- Charges of a unit of any kind, oldest first, the watches apart. -/
def State.chargesWhere (s : State) (f : HwUnit → Bool) : List Charge :=
  s.charges.filter (fun c => f c.unit && decide (c.code ≠ Ev.IN_DROOP))

/-- A count in 16 bits, saturating. -/
def count16 (l : List Charge) : List (BitVec 8) := leBytes 2 (min 65535 l.length)

/-- The time of the first charge of a list within 30 days, or 0; the time of the last, or 0. -/
def State.firstTime (s : State) (l : List Charge) : Nat :=
  match l.filter (fun c => decide (s.ns < c.time + month)) with
  | c :: _ => c.time
  | [] => 0

def lastOf (l : List Charge) : Nat := match l.getLast? with
  | some c => c.time
  | none => 0

/-- A stitcher, a leaf place, a network interface of a tile, the tile itself (Table 7, bytes 20 to 27). -/
def HwUnit.column : HwUnit → Option Nat
  | .pressArray _ _ => none
  | .pressCheck _ _ => none
  | .stitcher _ _ => some 0
  | .leafRow _ _ _ => some 1
  | .leafBank _ _ => some 1
  | .network _ => some 2
  | .tile _ => some 3
  | .dramRow .. => none
  | .link _ => none
  | .spineLink _ => none
  | .clock _ => none

/-- The unit counter entry of a tile. -/
def State.tileEntry (s : State) (t : Nat) : List (BitVec 8) :=
  let mine := s.chargesWhere (fun u => decide (u.tile? = some t))
  let state := if s.isFenced t then 2 else if (s.carrier t).isSome then 0 else 1
  let restr := (s.stew.restrictions.findIdx? (fun r => decide (F.IN_RESTRICT_valid.get r.word = 1) &&
    decide (F.IN_RESTRICT_tile.get r.word = t))).getD 0xFF
  let resolved (u : HwUnit) := count16 (mine.filter (fun c => c.resolved && decide (c.unit = u)))
  let wrong := mine.filter (fun c => !c.resolved)
  let trips := s.charges.filter (fun c => decide (c.unit.tile? = some t) && decide (c.code = Ev.IN_DROOP))
  leBytes 1 0 ++ leBytes 1 t ++ leBytes 1 state ++ leBytes 1 restr ++ leBytes 4 (s.hoursAt (hoursKey t false)) ++
    leBytes 4 (s.hoursAt (hoursKey t true)) ++ resolved (.pressArray t false) ++ resolved (.pressCheck t false) ++
    resolved (.pressArray t true) ++ resolved (.pressCheck t true) ++
    (List.range 4).flatMap (fun i => count16 (wrong.filter (fun c => decide (c.unit.column = some i)))) ++
    leBytes 4 trips.length ++ leBytes 8 (s.firstTime wrong) ++ leBytes 8 (lastOf mine) ++ List.replicate 16 0

/-- The unit counter entry of a cord link. -/
def State.linkEntryBytes (s : State) (n : Nat) : List (BitVec 8) :=
  let l := s.chargesWhere (fun u => decide (u = .link n))
  let downs := l.filter (fun c => decide (c.code = Ev.MS_LINK_DOWN))
  let spares := (spGet .init s.links (2 * n)).spared.length + (spGet .init s.links (2 * n + 1)).spared.length
  leBytes 1 1 ++ leBytes 1 n ++ leBytes 1 spares ++ leBytes 1 0 ++ leBytes 4 (s.colCount 3 (linkEntry n + 4)) ++
    leBytes 4 (s.colCount 3 (linkEntry n + 8)) ++ count16 downs ++ List.replicate 18 0 ++ leBytes 8 (lastOf downs) ++
    leBytes 8 (lastOf l) ++ List.replicate 16 0

/-- The unit counter entry of an LPDDR5X channel. -/
def State.channelEntryBytes (s : State) (c : Nat) : List (BitVec 8) :=
  let p : PartId := ⟨c / 16 % 4, by omega⟩
  let l := s.chargesWhere (fun u => match u with
    | .dramRow r ch _ => decide (r = p) && decide (ch = c % 16)
    | _ => false)
  let done := s.stew.pprDone.filter (fun k => decide (k.1 = p) && decide (k.2.1 = c % 16))
  leBytes 1 2 ++ leBytes 1 c ++ leBytes 1 (s.f (pt p) F.RS_STATUS_withdrawn) ++ leBytes 1 0 ++
    leBytes 4 (s.colCount 3 (channelEntry c + 4)) ++ leBytes 4 (s.colCount 3 (channelEntry c + 8)) ++
    leBytes 2 (min 65535 done.length) ++ List.replicate 18 0 ++ leBytes 8 (s.firstTime (l.filter (fun c => !c.resolved))) ++
    leBytes 8 (lastOf l) ++ List.replicate 16 0

/-- The entries of the clock generators, the hub and the steward: the hours powered stand for hours carrying (DESIGN CHOICE). -/
def State.otherEntry (s : State) (i : Nat) : List (BitVec 8) :=
  let l := match i with
    | 0 => s.chargesWhere (fun u => decide (u = .clock false))
    | 1 => s.chargesWhere (fun u => decide (u = .clock true))
    | 2 => s.chargesWhere (fun u => match u with
      | .spineLink _ => true
      | _ => false)
    | _ => []
  let powered := s.hoursAt (hoursKey 0 false) + s.hoursAt (hoursKey 0 true)
  List.replicate 4 0 ++ leBytes 4 powered ++ List.replicate 32 0 ++ leBytes 8 (lastOf l) ++ List.replicate 16 0

/-- Section 0x03. -/
def State.colUnits (s : State) : List (BitVec 8) :=
  (List.range 36).flatMap (fun t => s.tileEntry t) ++ (List.range 78).flatMap (fun n => s.linkEntryBytes n) ++
    (List.range 64).flatMap (fun c => s.channelEntryBytes c) ++ (List.range 4).flatMap (fun i => s.otherEntry i)

/-- Section 0x01. -/
def State.colSummary (s : State) : List (BitVec 8) :=
  let st := s.stew
  let powered := s.hoursAt (hoursKey 0 false) + s.hoursAt (hoursKey 0 true)
  padTo (padTo st.store.serial 16 ++ leBytes 8 (st.firstPower.getD 0) ++ leBytes 4 powered ++ leBytes 4 st.powerCycles ++
    leBytes 4 st.devResetsAll ++ allParts.flatMap (fun p => leBytes 8 (spGet 0 st.ticksBefore p.val +
      s.cnt (pt p) R.TK_COUNT_LO R.TK_COUNT_HI)) ++ leBytes 4 st.testsRun ++ leBytes 4 st.testsPassed) 256

/-- Section 0x0D: eight tiles and the spare of each partition, 0xFF where there is none. -/
def State.colMaps (s : State) : List (BitVec 8) :=
  allParts.flatMap (fun p => padTo ((List.range 9).flatMap (fun i => leBytes 1 (match spGet 0 s.stew.maps (16 * p.val + i) with
    | 0 => 0xFF
    | t + 1 => t))) 64)

/-- Section 0x00. -/
def State.colIndex (s : State) : List (BitVec 8) :=
  padTo (((List.range 14).zip colSections).flatMap (fun e =>
    leBytes 2 e.1 ++ leBytes 2 e.2.1 ++ leBytes 4 e.2.2 ++
      (if e.1 = 2 then leBytes 8 s.stew.colNext else memRead s.stew.flash (colKey 0 (16 * e.1 + 8)) 8))) 256

/-- Bytes of a section; none where the section or the range does not exist (R357). -/
def State.colRead (s : State) (sec off n : Nat) : Option (List (BitVec 8)) :=
  match colSections[sec]? with
  | none => none
  | some (size, kept) =>
    if size * kept < off + n then none
    else
      let cut (l : List (BitVec 8)) := some ((l.drop off).take n)
      if sec = 0 then cut s.colIndex
      else if sec = 1 then cut s.colSummary
      else if sec = 3 then cut s.colUnits
      else if sec = 0x0D then cut s.colMaps
      else some (memRead s.stew.flash (colKey sec off) n)

end Sys2Proof.Machine
end

