-- ==== Sys2Proof/Machine/Steward.lean ====
section
/-! DEFINITION. The steward's other commands: bindings, budgets, capacity, attestation, the colophon, SMBus
(09_host_attachment.md R229 to R232, 11_fences_resets_recovery.md R298, R299, 13_bring_up_and_licences.md R333 to R338,
14_event_recorder_and_colophon.md R357, 15_module_power_and_signals.md R365, R371). -/

namespace Sys2Proof.Machine

/-! The owner and the bindings. -/

/-- EV_CX_BIND: an LD, the partitions bound to it, the owner before. -/
def State.noteBind (s : State) (l : LdId) (owner : Nat) : State :=
  s.ev .hub Ev.CX_BIND [l.val, s.f hub (F.CX_LD_BIND_parts.nth l.val), owner]

/-- SET_OWNER_LD: the fabric manager moves the owner role to a presented LD (R229). -/
def execSetOwnerLd (ld : LdId) (s : State) : Out :=
  if s.stew.die = false ∨ s.f hub (F.CX_LD_BIND_present.nth ld.val) = 0 then .next s
  else
    let old := s.f hub F.CX_OWNER_ld
    .next ((s.setF hub F.CX_OWNER_ld ld.val).noteBind ld old)

/-- The partitions an LD has, with one taken or left. -/
def State.setBound (s : State) (l : LdId) (p : PartId) (b : Bool) : State :=
  let old := s.f hub (F.CX_LD_BIND_parts.nth l.val)
  s.setF hub (F.CX_LD_BIND_parts.nth l.val) (if b then old ||| 2 ^ p.val else old &&& (15 - 2 ^ p.val))

/-- Every span shows its fences. -/
def State.showAllFences (s : State) : State := allParts.foldl (fun t p => t.showFences p) s

/-- A partition is in recovery or its memory is being wiped. -/
def State.recovering (s : State) (p : PartId) : Bool :=
  (s.part p).recovery.isSome || s.stew.wipes.any (fun w => decide (w.1 = p))

/-- Every line of a partition that an LD may hold is back-invalidated: its areas, its mirror, its upload window (R261). -/
def State.devClearAll (s : State) (p : PartId) : State :=
  let s := s.devClear p (0x1000000 + p.val * 0x1000000) (0x1200000 + p.val * 0x1000000)
  let s := s.devClear p (0x10000000 + p.val * 0x1000000) (0x11000000 + p.val * 0x1000000)
  s.devClear p (0x100000000 + p.val * 0x40000000) (0x140000000 + p.val * 0x40000000)

/-- An unbind from an LD: the fence, the host interface cleared, its binding gone (R230). -/
def State.unbindFrom (s : State) (p : PartId) (l : LdId) : State :=
  let s := (((s.raiseFence p 0xA9).clearHost p).abortTests p).devClearAll p
  ((s.setBound l p false).showSpans.showAllFences).noteBind l s.owner.val

/-- BIND (0x0101): refused while the partition runs, is bound without its retain flag, is not enabled, withdrawn, or lends an
extent; busy in recovery or a wipe (R230, R231, 11 R299). A partition bound with its retain flag moves, by an unbind first
(16_worked_examples.md). The retain flag clears (11 R298). -/
def execBind (ld : LdId) (p : PartId) (target : LdId) (s : State) : Out :=
  s.command ld 0x0101 p.val true (fun n s =>
    if s.recovering p then s.complete n Cs.busy 0
    else if s.running p ∨ s.enabled p = false ∨ s.f (pt p) F.RS_STATUS_withdrawn = 1 ∨
        ((s.ldOf p).isSome ∧ s.stew.retain.contains p = false) ∨
        s.f hub (F.CX_LD_BIND_present.nth target.val) = 0 ∨ s.extents.any (fun e => decide (e.part = p)) then
      s.refuse n Cs.refused 0x91
    else
      let s := match s.ldOf p with
        | some l => (s.unbindFrom p l).leaveHeld p
        | none => s
      let s := (s.setBound target p true).showSpans
      let s : State := { s with stew := { s.stew with retain := s.stew.retain.erase p } }
      let s := (s.dropFence p 0xA9).showAllFences
      (s.noteBind target s.owner.val).complete n Cs.done 0)

/-- UNBIND: the fence, the host interface cleared, and the reset and wipe or, under retain, the hold (R230, 11 R299). -/
def execUnbind (ld : LdId) (p : PartId) (s : State) : Out :=
  s.command ld 0x0101 p.val true (fun n s =>
    match s.ldOf p with
    | none => s.refuse n Cs.refused 0x91
    | some l =>
      if s.recovering p then s.complete n Cs.busy 0
      else if s.running p then s.refuse n Cs.refused 0x91
      else
        let s := s.unbindFrom p l
        let s := if s.stew.retain.contains p then s.leaveHeld p else s.startReset p 6 ld.val false none
        s.complete n Cs.done 0)

/-- RETAIN (0x0102): the partition's retain flag (11 R298); busy in recovery (11 R301). -/
def execRetain (ld : LdId) (p : PartId) (v : Bool) (s : State) : Out :=
  s.command ld 0x0102 p.val true (fun n s =>
    if s.recovering p then s.complete n Cs.busy 0
    else if s.enabled p = false ∨ s.f (pt p) F.RS_STATUS_withdrawn = 1 then s.refuse n Cs.refused 0x91
    else
      let l := s.stew.retain.erase p
      let s : State := { s with stew := { s.stew with retain := if v then l ++ [p] else l } }
      s.complete n Cs.done 0)

/-- BUDGET (0x0201) (15 R365). -/
def execBudget (ld : LdId) (p : PartId) (w : Word) (s : State) : Out :=
  s.command ld 0x0201 p.val true (fun n s =>
    let c := s.budgetCause p w.toNat
    if s.f (pt p) F.RS_STATUS_withdrawn = 1 then s.refuse n Cs.refused 0x91
    else (s.setBudget p w.toNat ld.val).complete n (if c = 0x72 then Cs.done else Cs.refused) 0)

/-! Capacity (R231). -/

/-- The extents of an LD change by one in CX_LD_BIND. -/
def State.countExtents (s : State) (l : Nat) : State :=
  s.setF hub (F.CX_LD_BIND_extents.nth l) (s.extents.filter (fun e => decide (e.ld = l) && !e.offered)).length

/-- The extent of an LD at a place of its DC region. -/
def State.extentAt (s : State) (l slot : Nat) : Option Extent :=
  s.extents.find? (fun e => decide (e.ld = l) && decide (e.slot = slot))

def State.setExtent (s : State) (e f : Extent) : State :=
  { s with extents := s.extents.map (fun g => if g = e then f else g) }

/-- DC_LEND (0x0601): an extent of a partition, bound to the target LD or to none, is offered to the target's host at a
place of its DC region. -/
def execDcLend (ld : LdId) (target : LdId) (p : PartId) (slot : Fin 4096) (pma : BitVec 38) (s : State) : Out :=
  s.command ld 0x0601 target.val true (fun n s =>
    let a := pma.toNat
    if s.f hub F.LC_FEATURES_dc = 0 then (s.complete n Cs.refused 0).noteFeature p 4 ld.val
    else if s.recovering p then s.complete n Cs.busy 0
    else if s.f hub (F.CX_LD_BIND_present.nth target.val) = 0 ∨ s.enabled p = false ∨
        s.f (pt p) F.RS_STATUS_withdrawn = 1 ∨ ((s.ldOf p).isSome ∧ s.bound target p = false) ∨ a % extentBytes ≠ 0 ∨
        progEnd < a + extentBytes ∨ (s.extentAt target.val slot.val).isSome ∨
        s.extents.any (fun e => decide (e.part = p) && decide (e.pma = a)) then s.refuse n Cs.refused 0x91
    else
      { s with extents := s.extents ++ [{ ld := target.val, part := p, pma := a, slot := slot.val, offered := true,
                                          recallBy := none, by_ := some ld.val }] })

/-- The notice that waits for the host's answer about an extent completes. -/
def State.endExtent (s : State) (e : Extent) (status : Nat) : State :=
  match e.by_ with
  | some l => s.endCmd (l, 0) status 0
  | none => s

/-- DC_EXTENT_RESPONSE: the receiving host takes or declines an offered extent, or releases a recalled one. -/
def execDcExtentResponse (ld : LdId) (slot : Fin 4096) (accept : Bool) (s : State) : Out :=
  match s.extentAt ld.val slot.val with
  | none => .next s
  | some e =>
    if e.offered then
      if accept then
        .next (((s.setExtent e { e with offered := false, by_ := none }).countExtents ld.val).endExtent e Cs.done)
      else .next (({ s with extents := s.extents.erase e }).endExtent e Cs.refused)
    else if e.recallBy.isNone ∨ accept = false then .next s
    else
      let base := 0x4000000000 + slot.val * extentBytes
      let s : State := { s with
        extents := s.extents.erase e,
        filter := s.filter.filter (fun f => !(decide (f.1 = ld.val) && decide (base ≤ f.2 * 64) &&
          decide (f.2 * 64 < base + extentBytes))) }
      .next ((s.countExtents ld.val).endExtent e Cs.done)

/-- DC_RECALL (0x0602): the release of an extent begins. -/
def execDcRecall (ld : LdId) (target : LdId) (slot : Fin 4096) (s : State) : Out :=
  s.command ld 0x0602 target.val true (fun n s =>
    match s.extentAt target.val slot.val with
    | none => s.refuse n Cs.refused 0x91
    | some e =>
      if e.offered ∨ e.recallBy.isSome then s.refuse n Cs.refused 0x91
      else s.setExtent e { e with recallBy := some (s.ns + 10000000000), by_ := some ld.val })

/-- DC_RECALL_TIMEOUT: 10 s have passed; the extent stays lent. -/
def execDcRecallTimeout (ld : LdId) (slot : Fin 4096) (s : State) : Out :=
  match s.extentAt ld.val slot.val with
  | none => .next s
  | some e => match e.recallBy with
    | none => .next s
    | some t =>
      let s := s.waitNs t
      .next ((s.setExtent e { e with recallBy := none, by_ := none }).endExtent e Cs.busy)

/-! Attestation (13 R334 to R338). -/

/-- Bytes written by the steward into an LD's command area. -/
def State.areaPut (s : State) (ld off : Nat) (b : List (BitVec 8)) : State :=
  let s : State := { s with cmdArea := memWrite s.cmdArea (ld * 65536 + off) b }
  (List.range ((off % 64 + b.length + 63) / 64)).foldl (fun t i => t.devWrite ld (0x10000 + off / 64 * 64 + 64 * i)) s

/-- The bytes of an attestation object. -/
def objectBytes : Nat := 6348

/-- What is answered to a requester: the status word and, with status 0, the object (R337). -/
def State.answerAttest (s : State) (r : AttestReq) (word : Nat) (object : List (BitVec 8)) : State :=
  let b := leBytes 4 word ++ object
  match r.cmd with
  | some (bit, off) =>
    (s.areaPut r.ld off b).endCmd (r.ld, bit) (if word = 0 then Cs.done else if word = 1 then Cs.busy else Cs.refused) word
  | none =>
    if r.ld = 0xFF then { s with stew := { s.stew with smbus := b } }
    else { s with stew := { s.stew with doe := spSet 0 s.stew.doe r.ld (word + 1) } }

/-- A request joins the gathering, whose first member starts its 20 ms; a seventeenth is answered busy (DEDUCED). -/
def State.gather (s : State) (r : AttestReq) : State :=
  let st := s.stew
  if 16 ≤ st.attest.length then s.answerAttest r 1 []
  else { s with stew := { st with attest := st.attest ++ [r], attestAt := if st.attest.isEmpty then s.ns else st.attestAt } }

/-- ATTEST: by steward command (0x0701) with a command-area offset, or over DOE. -/
def execAttest (ld : LdId) (nonce : BitVec 256) (via : Option (BitVec 16)) (s : State) : Out :=
  let bytes := leBytes 32 nonce.toNat
  match via with
  | none =>
    if s.stew.running = false ∨ s.stew.die = false ∨ s.insecure then .next s
    else .next (s.gather { nonce := bytes, ld := ld.val, cmd := none })
  | some off =>
    s.command ld 0x0701 off.toNat false (fun n s =>
      if 65536 < off.toNat + 4 + objectBytes then s.refuse n Cs.refused 0x91
      else s.gather { nonce := bytes, ld := ld.val, cmd := some (n.bit, off.toNat) })

/-- Identity signatures of the last 24 h. -/
def State.idDay (s : State) : Nat := (s.stew.idTimes.filter (fun t => decide (s.ns < t + 86400000000000))).length

/-- The next index, with a new block reserved where the open one is used up (R335). -/
def State.takeIndex (s : State) : State × Nat :=
  let st := s.stew
  let rsv := if st.idRsv ≤ st.idNext then min 65536 (st.idNext + 64) else st.idRsv
  let s : State := { s with stew := { st with
    idNext := st.idNext + 1, idRsv := rsv,
    idTimes := st.idTimes.filter (fun t => decide (s.ns < t + 86400000000000)) ++ [s.ns] } }
  (s.showIds, st.idNext)

/-- EV_LC_ID_LOW, once per day (R336). -/
def State.noteIdLow (s : State) : State :=
  let st := s.stew
  if 4096 ≤ 65536 - st.idNext ∨ (st.idLowAt ≠ 0 ∧ s.ns < st.idLowAt - 1 + 86400000000000) then s
  else ({ s with stew := { st with idLowAt := s.ns + 1 } }).ev .hub Ev.LC_ID_LOW [st.idNext]

/-- The object that answers the gathered requests (Table 8). M3 is a free value: the spec gives the defect map no
encoding. -/
def State.attestObject (s : State) (l : List AttestReq) (index : Nat) : List (BitVec 8) :=
  let st := s.stew
  let slot (i : Nat) : Nat := match l[i]? with
    | some r => if r.cmd.isSome then 0xFF else r.ld
    | none => 0xFF
  let m2 := match st.licence with
    | some b => shake256 b
    | none => List.replicate 32 0
  let m3 := (List.range 32).map (fun i => Config.freeBits s.freeCount i 8)
  let nonces := (List.range 16).flatMap (fun i => match l[i]? with
    | some r => padTo r.nonce 32
    | none => List.replicate 32 0)
  let flags := s.f hub F.RS_DEVICE_withdrawn + (if st.licPending.isSome then 2 else 0)
  let signed := [0x4B, 0x51, 0x41, 0x54] ++ leBytes 2 1 ++ leBytes 2 768 ++ padTo st.store.serial 16 ++ leBytes 8 s.ns ++
    leBytes 4 st.version ++ leBytes 4 index ++ leBytes 1 l.length ++ leBytes 1 flags ++ [0, 0] ++
    (List.range 16).flatMap (fun i => leBytes 1 (slot i)) ++ List.replicate 4 0 ++ padTo st.imageDigest 32 ++
    padTo st.store.digest 32 ++ m2 ++ m3 ++ List.replicate 64 0 ++ nonces
  signed ++ padTo (Config.identitySign index signed) 2692 ++ padTo st.store.idKey 68 ++ padTo st.store.endorsement 2820

/-- ATTEST_GATHER_END: 20 ms after the first request, one signature answers all of them (R336, R337). -/
def execAttestGatherEnd (s : State) : Out :=
  if s.stew.attest.isEmpty then .next s
  else
    let s := s.waitNs (s.stew.attestAt + 20000000)
    let l := s.stew.attest
    let s : State := { s with stew := { s.stew with attest := [] } }
    let tell (t : State) (word : Nat) (o : List (BitVec 8)) : State := l.foldl (fun u r => u.answerAttest r word o) t
    if 65536 ≤ s.stew.idNext then .next (tell (s.ev .hub Ev.LC_ID_EXHAUSTED []) 2 [])
    else if 16 ≤ s.idDay then .next (tell s 1 [])
    else
      let a := s.takeIndex
      let o := a.1.attestObject l a.2
      let s : State := { a.1.useFree with stew := { a.1.stew with object := o } }
      let lds := ((l.map (fun r => if r.ld < 16 then 2 ^ r.ld else 0)).dedup).foldl (· + ·) 0
      let s := (s.ev .hub Ev.ATTEST [a.2, l.length, lds]).noteIdLow
      .next (tell s 0 o)

/-! The colophon and SMBus (14 R357, 15 R371). -/

/-- COLOPHON_READ (0x0801), of the section, offset, length and destination that the command block gives (R357): `bad` says that no copy of the section has pages that check. A read past the command area is
refused (DEDUCED). -/
def execColophonRead (ld : LdId) (sec : BitVec 16) (off : DWord) (n dst : Word) (bad : Bool) (s : State) : Out :=
  let named (k : Notice) : Bool :=
    let b := s.cmdBlock k
    decide (leAt b 4 2 = sec.toNat) && decide (leAt b 8 8 = off.toNat) && decide (leAt b 16 4 = n.toNat) &&
      decide (leAt b 20 4 = dst.toNat)
  let fits : Bool := match s.cmdNotice ld 0x0801 with
    | some k => named k
    | none => false
  if fits = false then .next s
  else s.command ld 0x0801 sec.toNat true (fun k s =>
    match s.colRead sec.toNat off.toNat n.toNat with
    | none => s.refuse k Cs.refused 0x91
    | some b =>
      if 32768 < n.toNat ∨ 65536 < dst.toNat + n.toNat then s.refuse k Cs.refused 0x91
      else if bad then
        (s.areaPut ld.val dst.toNat (List.replicate n.toNat 0)).complete k Cs.done (n.toNat + 2 ^ 63)
      else (s.areaPut ld.val dst.toNat b).complete k Cs.done n.toNat)

/-- The PW_ and LC_ registers of the hub block. -/
def smbusReg (off : Nat) : Bool :=
  decide (off % 4 = 0) && ((decide (R.LC_FEATURES.off ≤ off) && decide (off < R.LC_SERIAL.off + 16)) ||
    (decide (R.PW_INPUT.off ≤ off) && decide (off ≤ R.PW_CLK.off)))

/-- SMBUS_COMMAND: the steward answers a colophon range, an attestation or a register; nothing else. The steward commands
among them are recorded with the writer 0xFF (DEDUCED). -/
def execSmbusCommand (r : SmbusReq) (s : State) : Out :=
  let answer (t : State) (b : List (BitVec 8)) : Out := .next { t with stew := { t.stew with smbus := b } }
  if s.stew.running = false then .next s
  else match r with
    | .colophon sec off n =>
      let s := s.ev .hub Ev.CFG_WRITE [0xFF, 0x0801, sec.toNat]
      if 32768 < n.toNat then answer s []
      else (match s.colRead sec.toNat off.toNat n.toNat with
        | some b => answer s b
        | none => answer s [])
    | .attest nonce =>
      let s := s.ev .hub Ev.CFG_WRITE [0xFF, 0x0701, nonce.toNat % 2 ^ 32]
      .next (s.gather { nonce := leBytes 32 nonce.toNat, ld := 0xFF, cmd := none })
    | .reg off =>
      if s.stew.die ∧ smbusReg off.toNat then answer s (leBytes 4 (s.peek off.toNat).toNat) else answer s []
    | .other => .next s

end Sys2Proof.Machine
end

