-- ==== Sys2Proof/Machine/Spine.lean ====
section
/-! DEFINITION. The spine's messages: resets, doorbells, register access, ASLEEP notices, ACKs and their timeouts
(08_cord_mesh_and_spine.md R206 to R210, R218). -/

namespace Sys2Proof.Machine

/-! Resets (R207, 11_fences_resets_recovery.md R284, R285). -/

/-- The words of a RESET message: scope, and the stitcher, quire (with the cause of its reset) or partition. -/
def resetArg : ResetTarget → Nat
  | .stitcher u => 2 ^ 16 + u.key
  | .quire q late => 2 * 2 ^ 16 + q.val + (if late then 64 else 0)
  | .part p => 3 * 2 ^ 16 + p.val

def resetOwner : ResetTarget → PartId
  | .stitcher u => partOf u.quire
  | .quire q _ => partOf q
  | .part p => p

/-- The logical destination of a RESET message. -/
def resetDest : ResetTarget → Nat
  | .stitcher u => u.quire.val
  | .quire q _ => q.val
  | .part p => 32 + p.val

/-- A target read back from the words of its message. -/
def resetOfArg (a : Nat) : ResetTarget :=
  if a / 2 ^ 16 = 1 then .stitcher ⟨⟨a / 64 % 32, by omega⟩, ⟨a % 64, by omega⟩⟩
  else if a / 2 ^ 16 = 2 then .quire ⟨a % 32, by omega⟩ (decide (a / 64 % 2 = 1))
  else .part ⟨a % 4, by omega⟩

/-- The reset of a scope and target starts. A partition's is one that the steward has been asked for (R285). -/
def State.resetTarget (s : State) (t : ResetTarget) : State :=
  match t with
  | .stitcher u => if (s.st u).inReset || s.partResets (partOf u.quire) then s else s.resetStitcher u (s.posNow u.quire)
  | .quire q late => if (s.qu q).inReset then s else s.startQuireReset q (if late then 0xC1 else 0xC0)
  | .part p =>
    match s.stew.resetReqs.find? (fun r => decide (r.1 = p)) with
    | none => s
    | some r => ({ s with stew := { s.stew with resetReqs := s.stew.resetReqs.erase r } }).startReset p r.2 0xFF false none

/-- The quire that a RESET message is addressed to. -/
def resetQuire : ResetTarget → Option QuireId
  | .stitcher u => some u.quire
  | .quire q _ => some q
  | .part _ => none

/-- SPINE_RESET: a RESET message, which always carries wake, reaches its destination or waits at the kettle; one addressed to an
absent quire is answered ASLEEP (R205, R218). -/
def execSpineReset (t : ResetTarget) (drop : Option Hop) (s : State) : Out :=
  let p := resetOwner t
  if ((resetQuire t).map (fun q => !s.present q)).getD false then
    .next (s.spRefuse p 39 (resetDest t) 0 0x08 (resetArg t) 0x18)
  else if (resetQuire t).isSome ∧ s.halfDown p then
    .next ((s.wakeHalf p 0xFF).spHold p 39 (resetDest t) 0 0x08 (resetArg t))
  else
    let a := s.spArrive (some p) 39 (resetDest t) 0 0x08 (resetArg t) drop
    .next (if a.2 then a.1.resetTarget t else a.1)

/-! Doorbells (R253). -/

/-- SPINE_DOORBELL: the message of a notice reaches its mailbox. -/
def execSpineDoorbell (mailbox : Fin 5) (bit : Fin 32) (ld : LdId) (drop : Option Hop) (s : State) : Out :=
  let arg := noticeArg ld.val mailbox.val bit.val
  if s.spine.any (fun m => decide (m.opcode = 0x10) && decide (m.arg = arg) && !m.got) = false then .next s
  else
    let a := s.spArrive (boxPart mailbox.val) (s.stopOf .hub) (boxDest mailbox.val) 2 0x10 arg drop
    .next (if a.2 then a.1.deliverNotice ld.val mailbox.val bit.val else a.1)

/-! Register access. -/

/-- The number of a reader's latches: its LD, or 0xFF for the steward. -/
def readKey (w : Writer) (addr : Nat) : Nat := latchKey w.word addr

/-- Where a register access is sent from: the steward port, or the hub's host side. -/
def State.accessStop (s : State) : Writer → Nat
  | .ld _ => s.stopOf .hub
  | .steward => 39

/-- Where its answer goes: the steward port, or the hub's host side, to which Table 4 gives no number (39: DESIGN CHOICE). -/
def accessDest : Writer → Nat
  | .ld _ => 39
  | .steward => 37

/-- A register read is answered. -/
def State.answerRead (s : State) (key : Nat) (v : BitVec 32) : State := { s with regAns := s.regAns ++ [(key, v)] }

/-- A read that no block answers: a tenant's outside its partitions, an LD's of a partition that is not enabled or of a
withdrawn device (00_scope.md R9, 11 R295). -/
def State.readsZero (s : State) (w : Writer) (addr : Nat) : Bool :=
  decide (addr % 4 ≠ 0) || (match w with
    | .steward => false
    | .ld l => s.withdrawn || (match blockPart addr with
      | none => decide (l ≠ s.owner)
      | some p => !s.enabled p || (decide (l ≠ s.owner) && !s.bound l p)))

/-- A register read arrives, and its block answers with REG.DATA. -/
def State.readAt (s : State) (w : Writer) (p : PartId) (a : Nat) : State :=
  let r := s.readReg w.word a
  let o := a % 0x1000000
  let stop := if o < 0x800000 then r.1.stopOf (.part p) else r.1.tileOf (quireOf p ((o - 0x800000) / 0x10000))
  r.1.spSend { part := some p, stop := stop, dest := accessDest w, cls := 4, opcode := 0x22, seq := 0, sentAt := 0,
               again := false, arg := readKey w a, data := r.2.toNat, lost := false, got := false, held := false, wake := false }

/-- REG_RD: a read of a register by an LD or the steward. The hub answers for its own block; a partition's block answers
with REG.DATA; an access of another width than 32 bits reads zero. Into a clocked-down half it comes back ASLEEP or, with wake
set, is held until the half is up (R207, R218, 00_scope.md R9, R10). -/
def execRegRd (w : Writer) (r : RegAt) (way : RegWay) (s : State) : Out :=
  let a := r.addr.toNat
  let s := s.settleAllPubs
  let silent : Bool := match w with
    | .ld _ => s.insecure || !s.stew.die
    | .steward => !s.stew.die
  if silent then .next s
  else if r.width ≠ .w32 ∨ s.readsZero w a then .next (s.answerRead (readKey w a) 0)
  else match blockPart a with
    | none =>
      let x := s.readReg w.word a
      .next (x.1.answerRead (readKey w a) x.2)
    | some p =>
      match s.asleepCause a with
      | some c =>
        if way.wake ∧ c = 0x19 then .next ((s.wakeHalf p w.word).spHold p (s.accessStop w) (regDest p a) 4 0x20 (readKey w a))
        else .next (s.spRefuse p (s.accessStop w) (regDest p a) 4 0x20 (readKey w a) c)
      | none =>
        let x := s.spArrive (some p) (s.accessStop w) (regDest p a) 4 0x20 (readKey w a) way.drop
        .next (if x.2 then x.1.readAt w p a else x.1)

/-- REG_DATA: the answer of a register read reaches its requester. -/
def execRegData (w : Writer) (addr : BitVec 28) (drop : Option Hop) (s : State) : Out :=
  let key := readKey w addr.toNat
  match s.spine.find? (fun m => decide (m.opcode = 0x22) && decide (m.arg = key) && decide (m.dest = accessDest w) && !m.got) with
  | none => .next s
  | some m =>
    let x := s.spArrive m.part m.stop m.dest 4 0x22 key drop
    .next (if x.2 then x.1.answerRead key (BitVec.ofNat 32 m.data) else x.1)

/-- REG_WR: a register write as a spine message; into a clocked-down half as REG_RD (R207, R218). -/
def execRegWr (w : Writer) (r : RegAt) (v : Word) (way : RegWay) (s : State) : Out :=
  let a := r.addr.toNat
  if r.width ≠ .w32 then .next s
  else match blockPart a, s.asleepCause a with
  | none, _ => .next (s.regWrite w a v)
  | some p, some c =>
    if s.gateOf w a ≠ .pass then .next (s.regWrite w a v)
    else if way.wake ∧ c = 0x19 then
      .next ((s.wakeHalf p w.word).spHold p (s.accessStop w) (regDest p a) 4 0x21 (readKey w a * 2 ^ 32 + v.toNat))
    else .next (s.spRefuse p (s.accessStop w) (regDest p a) 4 0x21 (readKey w a * 2 ^ 32 + v.toNat) c)
  | some p, none =>
    if s.gateOf w a ≠ .pass then .next (s.regWrite w a v)
    else
      let x := s.spArrive (some p) (s.accessStop w) (regDest p a) 4 0x21 (readKey w a * 2 ^ 32 + v.toNat) way.drop
      .next (if x.2 then x.1.regWrite w a v else x.1)

/-! ASLEEP, ACK, timeouts (R209, R218). -/

/-- SPINE_ASLEEP: an ASLEEP notice reaches the sender of a refused message, which waits no longer; a refused register read
returns zero (R205, R218). -/
def execSpineAsleep (stop : Fin 42) (cls : Fin 5) (seq : Byte) (drop : Option Hop) (s : State) : Out :=
  match s.spine.find? (fun m => decide (m.opcode = 0x7E) && decide (m.dest = stop.val) && decide (m.cls = cls.val) &&
      decide (m.arg = seq.toNat)) with
  | none => .next s
  | some n =>
    let s : State := { s with spine := s.spine.erase n }
    match drop with
    | some h =>
      let way := spineRoute n.stop stop.val
      .next (s.parityAt n.part (way.getD (min h.val (way.length - 1)) stop.val) cls.val 0x7E)
    | none =>
      match s.spine.find? (fun m => decide (m.stop = stop.val) && decide (m.cls = cls.val) && decide (m.seq = seq.toNat) &&
        decide (m.opcode ≠ 0x7E)) with
      | none => .next s
      | some m =>
        let s : State := { s with spine := s.spine.erase m }
        .next (if m.opcode = 0x20 then s.answerRead m.arg 0 else s)

/-- SPINE_ACK: the ACK of an accepted message reaches its sender. -/
def execSpineAck (stop : Fin 42) (cls : Fin 5) (seq : Byte) (s : State) : Out :=
  match s.spine.find? (fun m => decide (m.stop = stop.val) && decide (m.cls = cls.val) && decide (m.seq = seq.toNat) &&
      decide (m.opcode ≠ 0x7E) && m.got) with
  | none => .next s
  | some m => .next { s with spine := s.spine.erase m }

/-- The event source of a message's sender. -/
def SpMsg.source (m : SpMsg) : Src :=
  if m.opcode = 0x18 then srcOf ⟨m.arg % 38, by omega⟩
  else if m.stop = 39 then .steward
  else match m.part with
    | some p => if m.opcode = 0x10 ∨ m.opcode = 0x20 ∨ m.opcode = 0x21 then .hub else .part p
    | none => .hub

/-- The unit word of a message's destination. -/
def SpMsg.destWord (m : SpMsg) : Nat := Machine.destWord (m.part.getD 0) m.dest

/-- EV_SP_LOST. -/
def State.noteLost (s : State) (m : SpMsg) : State := s.ev m.source Ev.SP_LOST [m.cls, m.opcode, m.destWord, m.seq]

/-- A lost RESET has not completed: the next larger scope is reset (11_fences_resets_recovery.md, Table 2, R293). -/
def State.lostReset (s : State) (t : ResetTarget) : State :=
  match t with
  | .stitcher u =>
    let s := s.ev .hub Ev.RS_HANG [1, unitWord 0x01 u.st.val, 0]
    if (s.qu u.quire).inReset then s else s.startQuireReset u.quire 0xC1
  | .quire q _ =>
    let s := s.ev .hub Ev.RS_HANG [2, unitWord 0x09 q.val, 2]
    { s with stew := { s.stew with resetReqs := s.stew.resetReqs ++ [(partOf q, 5)] } }
  | .part p => (s.ev .hub Ev.RS_HANG [3, unitWord 0x0E p.val, 3]).startDevice 6 0xFF

/-- What a message lost after two timeouts leaves behind (Table 6): the next larger scope is reset; the notice completes
"lost" (09 R253); the record is gone; the read returns zero. Each loss is recorded (R222). -/
def State.lostMsg (s : State) (m : SpMsg) : State :=
  if m.opcode = 0x08 then (s.noteLost m).lostReset (resetOfArg m.arg)
  else if m.opcode = 0x10 then
    (match s.noticeAt (m.arg / 2 ^ 8 % 2 ^ 8) (m.arg % 2 ^ 8) (some (m.arg / 2 ^ 16)) with
      | some n => (s.noteLost m).complete n Cs.lost 0
      | none => s.noteLost m)
  else if m.opcode = 0x18 then
    let s := if m.got then s else s.updSrc m.source (fun r => { r with queue := r.queue.drop 1, lost := min (2 ^ 32 - 1) (r.lost + 1) })
    s.noteLost m
  else if m.opcode = 0x20 then (s.answerRead m.arg 0).noteLost m
  else if m.opcode = 0x22 then (if m.got then s else s.answerRead m.arg 0).noteLost m
  else s.noteLost m

/-- SPINE_ACK_TIMEOUT: 2 µs have passed without an ACK: the message is sent once more, or is lost (R209). -/
def execSpineAckTimeout (stop : Fin 42) (cls : Fin 5) (seq : Byte) (s : State) : Out :=
  match s.spine.find? (fun m => decide (m.stop = stop.val) && decide (m.cls = cls.val) && decide (m.seq = seq.toNat) &&
      decide (m.opcode ≠ 0x7E) && (!m.held || !m.wake)) with
  | none => .next s
  | some m =>
    let s := s.waitNs (m.sentAt + 2000)
    let count (f : Fld) (t : State) : State := match m.part with
      | some p => t.incF (pt p) f
      | none => t
    let x : Src := match m.part with
      | some p => .part p
      | none => .hub
    let s := (count F.SP_STAT_timeouts s).ev x Ev.SP_TIMEOUT [m.stop, m.destWord, m.cls, m.seq]
    if m.again = false then
      .next { s with spine := s.spine.erase m ++ [{ m with again := true, lost := false, sentAt := s.ns }] }
    else
      let s := count F.SP_STAT_lost { s with spine := s.spine.erase m }
      .next (s.lostMsg m)

/-- The writer of a capture word (14_event_recorder_and_colophon.md R381). -/
def writerOf (w : Nat) : Writer := if w = 0xFF then .steward else .ld ⟨w % 16, by omega⟩

/-- HALF_CLOCK_UP_DONE: the next partition of a rising half is ready; what its kettle held for it is delivered (R217, R218,
R363). -/
def execHalfClockUpDone (h : Half) (s : State) : Out :=
  let a := s.upDone h
  let mine (m : SpMsg) : Bool := m.held && m.wake && (match m.part with
    | some p => a.2.contains p
    | none => false)
  let l := a.1.spine.filter mine
  let s : State := { a.1 with spine := a.1.spine.map (fun m => if mine m then { m with held := false, got := true } else m) }
  .next (l.foldl (fun t m =>
    if m.opcode = 0x10 then t.deliverNotice (m.arg / 2 ^ 16) (m.arg / 2 ^ 8 % 2 ^ 8) (m.arg % 2 ^ 8)
    else if m.opcode = 0x08 then t.resetTarget (resetOfArg m.arg)
    else if m.opcode = 0x09 then
      let p : PartId := ⟨m.arg % 4, by omega⟩
      t.copyTo p (blockTiles (m.part.getD 0)) (t.mapWords p)
    else if m.opcode = 0x20 then t.readAt (writerOf (m.arg / 2 ^ 28)) (m.part.getD 0) (m.arg % 2 ^ 28)
    else if m.opcode = 0x21 then
      t.regWrite (writerOf (m.arg / 2 ^ 60)) (m.arg / 2 ^ 32 % 2 ^ 28) (BitVec.ofNat 32 m.arg)
    else t) s)

end Sys2Proof.Machine
end

