-- ==== Sys2Proof/Machine/HostAccess.lean ====
section
/-! DEFINITION. Host reads and writes of a window, the snoop filter, the link and its encryption
(09_host_attachment.md R224 to R228, R234, R235). -/

namespace Sys2Proof.Machine

/-! Reads (R225, R227, R234, Tables 3 and 4). -/

/-- Bytes of partition memory as a host reads them: zeros and a record where a word is uncorrectable; free values while
the memory does not answer, for which the spec states none. The record raises vector 0 of the LD that the partition is
bound to as it is written (R259); another reading LD's is raised here, for a new record. -/
def State.hostMem (s : State) (ld : LdId) (p : PartId) (a : Nat) : State × List (BitVec 8) :=
  if (s.part p).memAsleep then (s.useFree, (List.range 64).map (fun i => Config.freeBits s.freeCount i 8))
  else
    let r := s.pmRead p a 64
    match r.2.2 with
    | [] => (r.1, r.2.1)
    | bad :: _ =>
      let u := r.1.ev (.part p) Ev.CX_READ_UNCORR [ld.val, bad / 64]
      let new := decide ((r.1.src (.part p)).queue.length < (u.src (.part p)).queue.length)
      let t := u.charge p (.dramRow p (channelOf bad) (Config.dramRow bad)) Ev.CX_READ_UNCORR false
      (if new ∧ s.bound ld p = false then t.msi ld.val 0 else t, List.replicate 64 0)

def zeros64 : List (BitVec 8) := List.replicate 64 0

/-- The extent of an LD that a place of its DC region lies in, taken by its host. -/
def State.extentOf (s : State) (ld : LdId) (o : Nat) : Option Extent :=
  (s.extentAt ld.val ((o - 0x4000000000) / extentBytes)).filter (fun e => !e.offered)

/-- A line of the mirror of a source's area, at an offset of the area: the directory, and slots, zero while their memory
does not answer (14_event_recorder_and_colophon.md R352). -/
def State.mirrorLine (s : State) (ld : LdId) (x : Src) (o : Nat) : State × List (BitVec 8) :=
  match s.ringHome x with
  | none => (s, zeros64)
  | some p =>
    if o < 0x1000 then (s, s.dirLine x (o / 64))
    else if s.ringReady x then s.hostMem ld p (areaOf x + o)
    else (s, zeros64)

/-- A line of a partition's areas in the window of the LD bound to it. -/
def State.partLine (s : State) (ld : LdId) (p : PartId) (o : Nat) : State × List (BitVec 8) :=
  if o < 0x10000000 then
    let x := o % 0x1000000
    if x < 0x100000 then (s, memRead (s.ring p (x / 0x40000)).cells (x % 0x40000) 64)
    else if x < 0x200000 then (s, memRead (s.part p).result (x - 0x100000) 64)
    else (s, zeros64)
  else if o < 0x100000000 then s.mirrorLine ld (.part p) (o % 0x1000000)
  else
    let a := s.f (pt p) F.PG_UPL_BASE_pma * 64 + o % 0x40000000
    if s.f (pt p) F.PG_UPL_CTRL_target = 1 ∨ pmaEnd ≤ a ∨ 0x3BF2000000 ≤ a then (s, zeros64) else s.hostMem ld p a

/-- The partition whose areas hold a window offset (Table 3). -/
def windowPart (o : Nat) : Option PartId :=
  if 0x1000000 ≤ o ∧ o < 0x5000000 then some ⟨(o / 0x1000000 - 1) % 4, by omega⟩
  else if 0x10000000 ≤ o ∧ o < 0x14000000 then some ⟨(o / 0x1000000 - 0x10) % 4, by omega⟩
  else if 0x100000000 ≤ o ∧ o < 0x200000000 then some ⟨(o / 0x40000000 - 4) % 4, by omega⟩
  else none

/-- A line of the event mirrors. -/
def isMirror (o : Nat) : Bool := decide (0x10000000 ≤ o) && decide (o < 0x15000000)

/-- What a read of a line of a window returns. A withdrawn device answers from the mirrors, and from the areas that its
owner's commands need (11 R295; the latter DEDUCED). -/
def State.hostLine (s : State) (ld : LdId) (o : Nat) : State × List (BitVec 8) :=
  if s.withdrawn ∧ isMirror o = false ∧ ¬(ld = s.owner ∧ o < 0x20000) then (s, zeros64)
  else if o < 0x1000 then (s, memRead s.ctlPage (ld.val * 4096 + o) 64)
  else if 0x10000 ≤ o ∧ o < 0x20000 then (s, memRead s.cmdArea (ld.val * 65536 + (o - 0x10000)) 64)
  else match windowPart o with
    | some p => if s.bound ld p then s.partLine ld p o else (s, zeros64)
    | none =>
      if 0x14000000 ≤ o ∧ o < 0x15000000 then
        (if ld = s.owner then s.mirrorLine ld .hub (o - 0x14000000) else (s, zeros64))
      else if 0x4000000000 ≤ o ∧ o < 0x14000000000 then
        (match s.extentOf ld o with
          | some e => s.hostMem ld e.part (e.pma + o % extentBytes)
          | none => (s, zeros64))
      else (s, zeros64)

/-- The lines that the snoop filter holds. -/
def filterSize : Nat := 262144

/-- A read is answered, and its line tracked. -/
def State.answerLine (s : State) (ld : LdId) (line : Nat) : State :=
  let r := s.hostLine ld (64 * line)
  { r.1 with hostData := r.2,
             filter := if r.1.filter.contains (ld.val, line) then r.1.filter else r.1.filter ++ [(ld.val, line)] }

/-- A line of an LD's BAR2: the MSI-X table at 0, the pending bits at 0x2000, zeros elsewhere (R224). A withdrawn device
answers configuration only (11 R295). -/
def State.bar2Line (s : State) (ld : LdId) (off : Nat) : List (BitVec 8) :=
  if s.withdrawn then zeros64 else (List.range 64).map (fun i => s.bar2At (ld.val * 16384 + (off + i) % 16384))

/-- The oldest line of the filter that no back-invalidate has been issued for. -/
def State.oldestLine (s : State) : Option (Nat × Nat) := s.filter.find? (fun e => !s.snoops.contains e)

/-- HOST_READ: a read of a line of an LD's window, or of its BAR2. With the filter full, its oldest line is back-invalidated
first, one for each read that waits. -/
def execHostRead (ld : LdId) (at_ : HostLine) (s : State) : Out :=
  let l := at_.line.toNat
  let s := s.settleAllPubs
  if s.stew.die = false ∨ s.insecure then .next s
  else match at_.space with
    | .bar2 => .next { s with hostData := s.bar2Line ld (64 * l) }
    | .window =>
      if s.filter.contains (ld.val, l) ∨ s.filter.length < filterSize then .next (s.answerLine ld l)
      else .next { s with snoops := s.snoops ++ s.oldestLine.toList, readWait := s.readWait ++ [(ld.val, l)] }

/-! Writes (R225, R234, R235). -/

/-- The state of an answer that goes on. -/
def outState (s : State) : Out → State
  | .next t => t
  | _ => s

/-- A host write through the upload window at an offset (07_catchword_paging.md R187). -/
def State.uploadWrite (s : State) (p : PartId) (ld : LdId) (off : Nat) (bytes : List (BitVec 8)) (poison : Bool) : State :=
  let o := 0x100000000 + p.val * 0x40000000 + off
  if s.takesMem = false then s
  else if s.bound ld p = false then s.writeDrop (.part p) ld.val o 0x11
  else if s.fenced p then s.writeDrop (.part p) ld.val o 0x14
  else if poison then s.writeDrop (.part p) ld.val o 0x10
  else s.uploadOp p ld off bytes

/-- UPLOAD_WRITE. -/
def execUploadWrite (p : PartId) (ld : LdId) (off : BitVec 30) (bytes : List Byte) (poison : Bool) (s : State) : Out :=
  .next (s.uploadWrite p ld off.toNat bytes poison)

/-- The ring slot whose acknowledge line holds an offset of the result area. -/
def State.ackSlot (s : State) (p : PartId) (x : Nat) : Option (Fin 32) :=
  (List.finRange 32).find? (fun k => decide (s.f (lb p k) F.CX_SLOT_CFG_valid = 1) &&
    decide (s.f (lb p k) F.CX_SLOT_CFG_mode = 1) && decide (s.f (lb p k) F.CX_SLOT_CFG_base * 4096 / 64 = x / 64))

/-- A host write to a partition's result area: whole 8-byte words of the acknowledge line of a ring slot are accepted, of
which the first acknowledges (R235, R251). -/
def State.writeAck (s : State) (ld : LdId) (p : PartId) (x : Nat) (bytes : List (BitVec 8)) : State :=
  let bad := s.writeDrop (.part p) ld.val (resultOff p + x) 0x15
  match s.ackSlot p x with
  | none => bad
  | some k =>
    if x % 8 ≠ 0 ∨ bytes.length % 8 ≠ 0 ∨ bytes.isEmpty then bad
    else if s.fenced p then s.writeDrop (.part p) ld.val (resultOff p + x) 0x14
    else
      let i := 8 - x % 64
      let s := s.updPart p (fun y => { y with result := memWrite y.result (x + i) (bytes.drop i) })
      if x % 64 = 0 then outState s (execResultAckWrite ld p k (BitVec.ofNat 64 (leAt bytes 0 8)) s) else s

/-- A host write at a window offset, whatever its area accepts. -/
def State.hostWrite (s : State) (ld : LdId) (o : Nat) (bytes : List (BitVec 8)) (poison : Bool) : State :=
  let n := bytes.length
  if o < 0x1000 then
    if 0xA00 ≤ o ∧ o ≤ 0xA08 ∧ 0xA10 ≤ o + n ∧ !poison then
      outState s (execCqConsumerWrite ld (BitVec.ofNat 64 (leAt bytes (0xA08 - o) 8)) s)
    else outState s (execNoticeRecordWrite ld (BitVec.ofNat 12 o) bytes poison s)
  else if 0x10000 ≤ o ∧ o + n ≤ 0x20000 then
    if s.takesOwn ld = false then s
    else if poison then s.writeDrop .hub ld.val o 0x10
    else { s with cmdArea := memWrite s.cmdArea (ld.val * 65536 + (o - 0x10000)) bytes }
  else match windowPart o with
    | some p =>
      let x := o % 0x1000000
      if 0x100000000 ≤ o then s.uploadWrite p ld (o % 0x40000000) bytes poison
      else if o < 0x10000000 ∧ x < 0x100000 then
        outState s (execInboxLineWrite ld p (BitVec.ofNat 20 x) bytes poison s)
      else if s.takesMem = false then s
      else if s.bound ld p = false then s.writeDrop (.part p) ld.val o 0x11
      else if poison then s.writeDrop (.part p) ld.val o 0x10
      else
        (if o < 0x10000000 ∧ 0x100000 ≤ x ∧ x < 0x200000 then s.writeAck ld p (x - 0x100000) bytes
         else s.writeDrop (.part p) ld.val o 0x15)
    | none =>
      if s.takesMem = false then s
      else if 0x4000000000 ≤ o ∧ o < 0x14000000000 then
        (match s.extentOf ld o with
          | some e =>
            if poison then s.writeDrop .hub ld.val o 0x10
            else (s.pmWrite e.part (e.pma + o % extentBytes) bytes).1
          | none => s.writeDrop .hub ld.val o 0x15)
      else s.writeDrop .hub ld.val o 0x15

/-- HOST_WRITE_OTHER: a host write within a line, at a window offset of an area that no other command names, or of BAR2 in
whole 4-byte words; a write of BAR2 that carries poison is dropped (R224, R225, R235). -/
def execHostWriteOther (ld : LdId) (at_ : HostAt) (bytes : List Byte) (poison : Bool) (s : State) : Out :=
  let off := at_.off
  match at_.space with
  | .window => .next (s.hostWrite ld off.toNat bytes poison)
  | .bar2 =>
    if s.takesMem = false ∨ off.toNat % 4 ≠ 0 ∨ bytes.length % 4 ≠ 0 ∨ 16384 < off.toNat + bytes.length then .next s
    else if poison then .next (s.writeDrop .hub ld.val off.toNat 0x10)
    else .next (s.bar2Write ld.val off.toNat bytes)

/-- The oldest read that waits for room in the filter is answered; a read that waited beside another for the same line needs
no room of its own. -/
def State.answerWaiting (s : State) : State :=
  match s.readWait with
  | [] => s
  | (l, line) :: t =>
    if s.filter.contains (l, line) ∨ s.filter.length < filterSize then
      ({ s with readWait := t }).answerLine ⟨l % 16, by omega⟩ line
    else s

/-- BACK_INVALIDATE_RESPONSE: a host answers the oldest back-invalidate of a line; modified data of the line is a write that
has arrived. With the last one of the line answered, the filter's entry is free (R227, R228). -/
def execBackInvalidateResponse (ld : LdId) (line : BitVec 35) (data : Option (BitVec 512)) (s : State) : Out :=
  let e := (ld.val, line.toNat)
  if s.snoops.contains e = false then .next s
  else
    let left := s.snoops.erase e
    let s : State := { s with snoops := left, filter := if left.contains e then s.filter else s.filter.erase e }
    let s := match data with
      | some d => s.hostWrite ld (64 * line.toNat) (leBytes 64 d.toNat) false
      | none => s
    .next s.answerWaiting

/-! The link (R223, R226, R262). -/

/-- CXL_IDE_FAIL: an integrity check fails on a stream of a protocol; the secure state is left (R226). -/
def execCxlIdeFail (stream : Byte) (protocol : Fin 2) (s : State) : Out :=
  if s.f hub F.CX_LINK_ide ≠ 1 then .next s
  else .next ((s.setF hub F.CX_LINK_ide 2).ev .hub Ev.CX_IDE_FAIL [stream.toNat, protocol.val])

/-- IDE_KEYS_PROGRAMMED: the streams are secure (R226). -/
def execIdeKeysProgrammed (s : State) : Out :=
  if s.stew.die = false then .next s else .next (s.setF hub F.CX_LINK_ide 1)

/-- CXL_LINK_RETRAIN: the link retrains, changes speed or width, or goes down (R223, R262). -/
def execCxlLinkRetrain (t : LinkUp) (s : State) : Out :=
  if s.stew.die = false then .next s
  else
    let old := s.rd hub R.CX_LINK
    let s := s.linkUp t
    let s := if t.isSome then s.incF hub F.CX_LINK_retrains else s
    .next (s.ev .hub Ev.CX_LINK [old.toNat, (s.rd hub R.CX_LINK).toNat])

end Sys2Proof.Machine
end

