-- ==== Sys2Proof/Machine/Dispatch.lean ====
section
/-! DEFINITION. What each command does, by constructor: one direct call of its meaning. -/

namespace Sys2Proof.Machine

/-- The effect of a command on everything but the queue. -/
def exec (i : Instr) (s : State) : Host.Outcome State Fault Refusal :=
  match i with
  | .tickRunStart w p => Sys2Proof.Machine.execTickRunStart w p s
  | .tickRunStop w p => Sys2Proof.Machine.execTickRunStop w p s
  | .tickHold w p => Sys2Proof.Machine.execTickHold w p s
  | .tickHoldRelease w p => Sys2Proof.Machine.execTickHoldRelease w p s
  | .tkStrikeWrite w p => Sys2Proof.Machine.execTkStrikeWrite w p s
  | .timedGridPoint p => Sys2Proof.Machine.execTimedGridPoint p s
  | .pendingStrikeStroke p => Sys2Proof.Machine.execPendingStrikeStroke p s
  | .tickInEdge falling => Sys2Proof.Machine.execTickInEdge falling s
  | .spineStroke q drop => Sys2Proof.Machine.execSpineStroke q drop s
  | .spineIntake p r drop flip => Sys2Proof.Machine.execSpineIntake p r drop flip s
  | .spineTickdone q drop => Sys2Proof.Machine.execSpineTickdone q drop s
  | .runDeadline q => Sys2Proof.Machine.execRunDeadline q s
  | .hangWatchdog q => Sys2Proof.Machine.execHangWatchdog q s
  | .sendStallWatchdog u => Sys2Proof.Machine.execSendStallWatchdog u s
  | .tempSample junctions hubs plate => Sys2Proof.Machine.execTempSample junctions hubs plate s
  | .thermalStepUp h => Sys2Proof.Machine.execThermalStepUp h s
  | .thermalCritEnd h => Sys2Proof.Machine.execThermalCritEnd h s
  | .thermalTrip => Sys2Proof.Machine.execThermalTrip s
  | .clockStep h => Sys2Proof.Machine.execClockStep h s
  | .add u rd ra rb => Sys2Proof.Machine.execAdd u rd ra rb s
  | .sub u rd ra rb => Sys2Proof.Machine.execSub u rd ra rb s
  | .mul u rd ra rb => Sys2Proof.Machine.execMul u rd ra rb s
  | .mulh u rd ra rb => Sys2Proof.Machine.execMulh u rd ra rb s
  | .mulhu u rd ra rb => Sys2Proof.Machine.execMulhu u rd ra rb s
  | .and u rd ra rb => Sys2Proof.Machine.execAnd u rd ra rb s
  | .or u rd ra rb => Sys2Proof.Machine.execOr u rd ra rb s
  | .xor u rd ra rb => Sys2Proof.Machine.execXor u rd ra rb s
  | .shl u rd ra rb => Sys2Proof.Machine.execShl u rd ra rb s
  | .shr u rd ra rb => Sys2Proof.Machine.execShr u rd ra rb s
  | .sra u rd ra rb => Sys2Proof.Machine.execSra u rd ra rb s
  | .min u rd ra rb => Sys2Proof.Machine.execMin u rd ra rb s
  | .max u rd ra rb => Sys2Proof.Machine.execMax u rd ra rb s
  | .minu u rd ra rb => Sys2Proof.Machine.execMinu u rd ra rb s
  | .maxu u rd ra rb => Sys2Proof.Machine.execMaxu u rd ra rb s
  | .addSat u rd ra rb => Sys2Proof.Machine.execAddSat u rd ra rb s
  | .subSat u rd ra rb => Sys2Proof.Machine.execSubSat u rd ra rb s
  | .sel u rd ra rb pd => Sys2Proof.Machine.execSel u rd ra rb pd s
  | .cmpEq u pd ra rb => Sys2Proof.Machine.execCmpEq u pd ra rb s
  | .cmpNe u pd ra rb => Sys2Proof.Machine.execCmpNe u pd ra rb s
  | .cmpLt u pd ra rb => Sys2Proof.Machine.execCmpLt u pd ra rb s
  | .cmpLe u pd ra rb => Sys2Proof.Machine.execCmpLe u pd ra rb s
  | .cmpLtu u pd ra rb => Sys2Proof.Machine.execCmpLtu u pd ra rb s
  | .cmpLeu u pd ra rb => Sys2Proof.Machine.execCmpLeu u pd ra rb s
  | .addi u rd ra imm => Sys2Proof.Machine.execAddi u rd ra imm s
  | .andi u rd ra imm => Sys2Proof.Machine.execAndi u rd ra imm s
  | .ori u rd ra imm => Sys2Proof.Machine.execOri u rd ra imm s
  | .xori u rd ra imm => Sys2Proof.Machine.execXori u rd ra imm s
  | .lui u rd imm => Sys2Proof.Machine.execLui u rd imm s
  | .shli u rd ra amt => Sys2Proof.Machine.execShli u rd ra amt s
  | .shri u rd ra amt => Sys2Proof.Machine.execShri u rd ra amt s
  | .srai u rd ra amt => Sys2Proof.Machine.execSrai u rd ra amt s
  | .cmpi u pd cond ra imm => Sys2Proof.Machine.execCmpi u pd cond ra imm s
  | .fadd u rd ra rb => Sys2Proof.Machine.execFadd u rd ra rb s
  | .fsub u rd ra rb => Sys2Proof.Machine.execFsub u rd ra rb s
  | .fmul u rd ra rb => Sys2Proof.Machine.execFmul u rd ra rb s
  | .ffma u rd ra rb => Sys2Proof.Machine.execFfma u rd ra rb s
  | .fmin u rd ra rb => Sys2Proof.Machine.execFmin u rd ra rb s
  | .fmax u rd ra rb => Sys2Proof.Machine.execFmax u rd ra rb s
  | .fabs u rd ra => Sys2Proof.Machine.execFabs u rd ra s
  | .fneg u rd ra => Sys2Proof.Machine.execFneg u rd ra s
  | .fexp u rd ra => Sys2Proof.Machine.execFexp u rd ra s
  | .frcp u rd ra => Sys2Proof.Machine.execFrcp u rd ra s
  | .frsqrt u rd ra => Sys2Proof.Machine.execFrsqrt u rd ra s
  | .fcmpEq u pd ra rb => Sys2Proof.Machine.execFcmpEq u pd ra rb s
  | .fcmpLt u pd ra rb => Sys2Proof.Machine.execFcmpLt u pd ra rb s
  | .fcmpLe u pd ra rb => Sys2Proof.Machine.execFcmpLe u pd ra rb s
  | .fcmpUn u pd ra rb => Sys2Proof.Machine.execFcmpUn u pd ra rb s
  | .br u pg pn off => Sys2Proof.Machine.execBr u pg pn off s
  | .loop u pg pn rs off => Sys2Proof.Machine.execLoop u pg pn rs off s
  | .brZ u pg pn rs off => Sys2Proof.Machine.execBrZ u pg pn rs off s
  | .brNz u pg pn rs off => Sys2Proof.Machine.execBrNz u pg pn rs off s
  | .ldB u rd ra sp imm => Sys2Proof.Machine.execLdB u rd ra sp imm s
  | .ldH u rd ra sp imm => Sys2Proof.Machine.execLdH u rd ra sp imm s
  | .ldW u rd ra sp imm => Sys2Proof.Machine.execLdW u rd ra sp imm s
  | .ldBs u rd ra sp imm => Sys2Proof.Machine.execLdBs u rd ra sp imm s
  | .ldHs u rd ra sp imm => Sys2Proof.Machine.execLdHs u rd ra sp imm s
  | .vld u vd ra sp imm => Sys2Proof.Machine.execVld u vd ra sp imm s
  | .stB u rd ra sp imm => Sys2Proof.Machine.execStB u rd ra sp imm s
  | .stH u rd ra sp imm => Sys2Proof.Machine.execStH u rd ra sp imm s
  | .stW u rd ra sp imm => Sys2Proof.Machine.execStW u rd ra sp imm s
  | .vst u vd ra sp imm => Sys2Proof.Machine.execVst u vd ra sp imm s
  | .vadd u vd va vb pg pn ty => Sys2Proof.Machine.execVadd u vd va vb pg pn ty s
  | .vsub u vd va vb pg pn ty => Sys2Proof.Machine.execVsub u vd va vb pg pn ty s
  | .vmul u vd va vb pg pn ty => Sys2Proof.Machine.execVmul u vd va vb pg pn ty s
  | .vfma u vd va vb vc pg pn ty => Sys2Proof.Machine.execVfma u vd va vb vc pg pn ty s
  | .vmin u vd va vb pg pn ty => Sys2Proof.Machine.execVmin u vd va vb pg pn ty s
  | .vmax u vd va vb pg pn ty => Sys2Proof.Machine.execVmax u vd va vb pg pn ty s
  | .vabs u vd va pg pn ty => Sys2Proof.Machine.execVabs u vd va pg pn ty s
  | .vneg u vd va pg pn ty => Sys2Proof.Machine.execVneg u vd va pg pn ty s
  | .vand u vd va vb pg pn ty => Sys2Proof.Machine.execVand u vd va vb pg pn ty s
  | .vor u vd va vb pg pn ty => Sys2Proof.Machine.execVor u vd va vb pg pn ty s
  | .vxor u vd va vb pg pn ty => Sys2Proof.Machine.execVxor u vd va vb pg pn ty s
  | .vshl u vd va vb pg pn ty => Sys2Proof.Machine.execVshl u vd va vb pg pn ty s
  | .vsra u vd va vb pg pn ty => Sys2Proof.Machine.execVsra u vd va vb pg pn ty s
  | .vcmpEq u pd va vb pg pn ty => Sys2Proof.Machine.execVcmpEq u pd va vb pg pn ty s
  | .vcmpLt u pd va vb pg pn ty => Sys2Proof.Machine.execVcmpLt u pd va vb pg pn ty s
  | .vcmpLe u pd va vb pg pn ty => Sys2Proof.Machine.execVcmpLe u pd va vb pg pn ty s
  | .vsel u vd va vb pg pn ty => Sys2Proof.Machine.execVsel u vd va vb pg pn ty s
  | .vbcast u vd rs ty => Sys2Proof.Machine.execVbcast u vd rs ty s
  | .vext u va rs lane ty => Sys2Proof.Machine.execVext u va rs lane ty s
  | .vins u vd rs lane ty => Sys2Proof.Machine.execVins u vd rs lane ty s
  | .vsum u vd va pg pn ty => Sys2Proof.Machine.execVsum u vd va pg pn ty s
  | .vmaxi u vd va pg pn ty => Sys2Proof.Machine.execVmaxi u vd va pg pn ty s
  | .vshuf u vd va vb pg pn ty => Sys2Proof.Machine.execVshuf u vd va vb pg pn ty s
  | .vmov u vd va pg pn ty => Sys2Proof.Machine.execVmov u vd va pg pn ty s
  | .vexp u vd va pg pn ty => Sys2Proof.Machine.execVexp u vd va pg pn ty s
  | .vrcp u vd va pg pn ty => Sys2Proof.Machine.execVrcp u vd va pg pn ty s
  | .vrsqrt u vd va pg pn ty => Sys2Proof.Machine.execVrsqrt u vd va pg pn ty s
  | .cvt u vd va tf ff rm spc pg part => Sys2Proof.Machine.execCvt u vd va tf ff rm spc pg part s
  | .cvtBlk u vd va tf ff rm => Sys2Proof.Machine.execCvtBlk u vd va tf ff rm s
  | .cvtUnblk u vd va tf ff rm => Sys2Proof.Machine.execCvtUnblk u vd va tf ff rm s
  | .cvtS u rd ra tf ff rm => Sys2Proof.Machine.execCvtS u rd ra tf ff rm s
  | .send u rx rt rs ch => Sys2Proof.Machine.execSend u rx rt rs ch s
  | .sendCtl u rx rt rs ch => Sys2Proof.Machine.execSendCtl u rx rt rs ch s
  | .trySend u rx rt rs ch => Sys2Proof.Machine.execTrySend u rx rt rs ch s
  | .trySendCtl u rx rt rs ch => Sys2Proof.Machine.execTrySendCtl u rx rt rs ch s
  | .msendP u rx rt rs ch => Sys2Proof.Machine.execMsendP u rx rt rs ch s
  | .msendL u rx rt rs ch => Sys2Proof.Machine.execMsendL u rx rt rs ch s
  | .tryMsendP u rx rt rs ch => Sys2Proof.Machine.execTryMsendP u rx rt rs ch s
  | .tryMsendL u rx rt rs ch => Sys2Proof.Machine.execTryMsendL u rx rt rs ch s
  | .qrecv u ra queue => Sys2Proof.Machine.execQrecv u ra queue s
  | .qrecvTry u ra pd queue => Sys2Proof.Machine.execQrecvTry u ra pd queue s
  | .ringAdv u ra rb => Sys2Proof.Machine.execRingAdv u ra rb s
  | .ringWp u ra rb => Sys2Proof.Machine.execRingWp u ra rb s
  | .credits u ra rb => Sys2Proof.Machine.execCredits u ra rb s
  | .pressGo u ra press sp => Sys2Proof.Machine.execPressGo u ra press sp s
  | .hint u ra rb => Sys2Proof.Machine.execHint u ra rb s
  | .leafFill u ra => Sys2Proof.Machine.execLeafFill u ra s
  | .leafCopy u ra => Sys2Proof.Machine.execLeafCopy u ra s
  | .collChk u ra rb rc pd sp => Sys2Proof.Machine.execCollChk u ra rb rc pd sp s
  | .collGen u ra rb rc sp => Sys2Proof.Machine.execCollGen u ra rb rc sp s
  | .nop u => Sys2Proof.Machine.execNop u s
  | .endF u => Sys2Proof.Machine.execEndF u s
  | .tickdone u => Sys2Proof.Machine.execTickdone u s
  | .gets u ra sel => Sys2Proof.Machine.execGets u ra sel s
  | .pand u pd ra rb => Sys2Proof.Machine.execPand u pd ra rb s
  | .por u pd ra rb => Sys2Proof.Machine.execPor u pd ra rb s
  | .pnot u pd ra => Sys2Proof.Machine.execPnot u pd ra s
  | .pany u pd ra => Sys2Proof.Machine.execPany u pd ra s
  | .pall u pd ra => Sys2Proof.Machine.execPall u pd ra s
  | .fence u => Sys2Proof.Machine.execFence u s
  | .firingDispatch u => Sys2Proof.Machine.execFiringDispatch u s
  | .tokenArrival u w o pos => Sys2Proof.Machine.execTokenArrival u w o pos s
  | .residueMismatch u pc => Sys2Proof.Machine.execResidueMismatch u pc s
  | .stitcherResetEnd u => Sys2Proof.Machine.execStitcherResetEnd u s
  | .stCtrlReset w u => Sys2Proof.Machine.execStCtrlReset w u s
  | .stFaultSuspectClear w q => Sys2Proof.Machine.execStFaultSuspectClear w q s
  | .pressCommandDecode q x => Sys2Proof.Machine.execPressCommandDecode q x s
  | .pressTileCheck q x upset => Sys2Proof.Machine.execPressTileCheck q x upset s
  | .pressVoteStart q => Sys2Proof.Machine.execPressVoteStart q s
  | .pressVoteJudgement q upset => Sys2Proof.Machine.execPressVoteJudgement q upset s
  | .pressDeliveryToken q x => Sys2Proof.Machine.execPressDeliveryToken q x s
  | .pressCompletion q x => Sys2Proof.Machine.execPressCompletion q x s
  | .outboundHoldRelease q => Sys2Proof.Machine.execOutboundHoldRelease q s
  | .psVoteSuspectClear w q => Sys2Proof.Machine.execPsVoteSuspectClear w q s
  | .lfClassWrite w q ix v => Sys2Proof.Machine.execLfClassWrite w q ix v s
  | .classFillDone q => Sys2Proof.Machine.execClassFillDone q s
  | .writeBufferLand q n reader => Sys2Proof.Machine.execWriteBufferLand q n reader s
  | .leafOpStart q => Sys2Proof.Machine.execLeafOpStart q s
  | .leafOpComplete q => Sys2Proof.Machine.execLeafOpComplete q s
  | .scrubPassStart q => Sys2Proof.Machine.execScrubPassStart q s
  | .scrubRead q => Sys2Proof.Machine.execScrubRead q s
  | .scrubWriteBack q => Sys2Proof.Machine.execScrubWriteBack q s
  | .scrubPassEnd q => Sys2Proof.Machine.execScrubPassEnd q s
  | .messageRelease q upset => Sys2Proof.Machine.execMessageRelease q upset s
  | .creditReturn q => Sys2Proof.Machine.execCreditReturn q s
  | .spanMessageRelease q upset => Sys2Proof.Machine.execSpanMessageRelease q upset s
  | .reconfDrain w p => Sys2Proof.Machine.execReconfDrain w p s
  | .reconfDrainEnd p => Sys2Proof.Machine.execReconfDrainEnd p s
  | .reconfCommit w p => Sys2Proof.Machine.execReconfCommit w p s
  | .reconfRefusedClear w p => Sys2Proof.Machine.execReconfRefusedClear w p s
  | .pagerEntryStart p => Sys2Proof.Machine.execPagerEntryStart p s
  | .pageComplete p => Sys2Proof.Machine.execPageComplete p s
  | .pageDuePosition q => Sys2Proof.Machine.execPageDuePosition q s
  | .pageCompletionArrival p => Sys2Proof.Machine.execPageCompletionArrival p s
  | .uploadWrite p ld off bytes poison => Sys2Proof.Machine.execUploadWrite p ld off bytes poison s
  | .uploadFlush w p => Sys2Proof.Machine.execUploadFlush w p s
  | .uploadFlushDone p => Sys2Proof.Machine.execUploadFlushDone p s
  | .linkFlit n dir ok lane => Sys2Proof.Machine.execLinkFlit n dir ok lane s
  | .linkRetrainDone n dir => Sys2Proof.Machine.execLinkRetrainDone n dir s
  | .laneSpare n dir => Sys2Proof.Machine.execLaneSpare n dir s
  | .lateTransitArrival q credit n cause upset => Sys2Proof.Machine.execLateTransitArrival q credit n cause upset s
  | .mapSwitch p m spare => Sys2Proof.Machine.execMapSwitch p m spare s
  | .spineReset t drop => Sys2Proof.Machine.execSpineReset t drop s
  | .spineMapset p stop drop => Sys2Proof.Machine.execSpineMapset p stop drop s
  | .spineDoorbell mailbox bit ld drop => Sys2Proof.Machine.execSpineDoorbell mailbox bit ld drop s
  | .spineEvent k drop => Sys2Proof.Machine.execSpineEvent k drop s
  | .regRd w r way => Sys2Proof.Machine.execRegRd w r way s
  | .regWr w r v way => Sys2Proof.Machine.execRegWr w r v way s
  | .regData w addr drop => Sys2Proof.Machine.execRegData w addr drop s
  | .loadBegin u drop => Sys2Proof.Machine.execLoadBegin u drop s
  | .loadData p quires stitchers space chunk drops hubDrops flip flipped => Sys2Proof.Machine.execLoadData p quires stitchers space chunk drops hubDrops flip flipped s
  | .loadEnd p drops hubDrops => Sys2Proof.Machine.execLoadEnd p drops hubDrops s
  | .loadStat u drop => Sys2Proof.Machine.execLoadStat u drop s
  | .loadAnswerTimeout u => Sys2Proof.Machine.execLoadAnswerTimeout u s
  | .spineAsleep stop cls seq drop => Sys2Proof.Machine.execSpineAsleep stop cls seq drop s
  | .spineAck stop cls seq => Sys2Proof.Machine.execSpineAck stop cls seq s
  | .spineAckTimeout stop cls seq => Sys2Proof.Machine.execSpineAckTimeout stop cls seq s
  | .halfClockUp w h => Sys2Proof.Machine.execHalfClockUp w h s
  | .halfRetention w h => Sys2Proof.Machine.execHalfRetention w h s
  | .halfStop w h => Sys2Proof.Machine.execHalfStop w h s
  | .halfClockUpDone h => Sys2Proof.Machine.execHalfClockUpDone h s
  | .inboxLineWrite ld p off bytes poison => Sys2Proof.Machine.execInboxLineWrite ld p off bytes poison s
  | .inboxStale p r => Sys2Proof.Machine.execInboxStale p r s
  | .inboxSkip w p r => Sys2Proof.Machine.execInboxSkip w p r s
  | .inboxReset w p r => Sys2Proof.Machine.execInboxReset w p r s
  | .landingCopy p r => Sys2Proof.Machine.execLandingCopy p r s
  | .intakeTokenRelease p r => Sys2Proof.Machine.execIntakeTokenRelease p r s
  | .forwardedWrite q => Sys2Proof.Machine.execForwardedWrite q s
  | .resultAckWrite ld p k v => Sys2Proof.Machine.execResultAckWrite ld p k v s
  | .hostRead ld at_ => Sys2Proof.Machine.execHostRead ld at_ s
  | .hostWriteOther ld at_ bytes poison => Sys2Proof.Machine.execHostWriteOther ld at_ bytes poison s
  | .cxlIdeFail stream protocol => Sys2Proof.Machine.execCxlIdeFail stream protocol s
  | .setOwnerLd ld => Sys2Proof.Machine.execSetOwnerLd ld s
  | .functionLevelReset ld => Sys2Proof.Machine.execFunctionLevelReset ld s
  | .noticeRecordWrite ld off bytes poison => Sys2Proof.Machine.execNoticeRecordWrite ld off bytes poison s
  | .doorbellStrike p => Sys2Proof.Machine.execDoorbellStrike p s
  | .doorbellProgramLoad p image => Sys2Proof.Machine.execDoorbellProgramLoad p image s
  | .doorbellReconfiguration p quires l => Sys2Proof.Machine.execDoorbellReconfiguration p quires l s
  | .doorbellHold p => Sys2Proof.Machine.execDoorbellHold p s
  | .doorbellRelease p => Sys2Proof.Machine.execDoorbellRelease p s
  | .doorbellReserved p bit => Sys2Proof.Machine.execDoorbellReserved p bit s
  | .doorbellInject p ix => Sys2Proof.Machine.execDoorbellInject p ix s
  | .injectedTokenRelease p => Sys2Proof.Machine.execInjectedTokenRelease p s
  | .mbMaskWrite w p v => Sys2Proof.Machine.execMbMaskWrite w p v s
  | .completionWrite ld => Sys2Proof.Machine.execCompletionWrite ld s
  | .cqConsumerWrite ld v => Sys2Proof.Machine.execCqConsumerWrite ld v s
  | .bind ld p target => Sys2Proof.Machine.execBind ld p target s
  | .unbind ld p => Sys2Proof.Machine.execUnbind ld p s
  | .retain ld p v => Sys2Proof.Machine.execRetain ld p v s
  | .budget ld p w => Sys2Proof.Machine.execBudget ld p w s
  | .fwUpdate ld off n at_ => Sys2Proof.Machine.execFwUpdate ld off n at_ s
  | .fwActivate ld bad version digest => Sys2Proof.Machine.execFwActivate ld bad version digest s
  | .licence ld off => Sys2Proof.Machine.execLicence ld off s
  | .testDeviceShutdown ld => Sys2Proof.Machine.execTestDeviceShutdown ld s
  | .testDeviceService ld => Sys2Proof.Machine.execTestDeviceService ld s
  | .resetDevice ld => Sys2Proof.Machine.execResetDevice ld s
  | .ackWithdrawn ld => Sys2Proof.Machine.execAckWithdrawn ld s
  | .resetPartition ld p => Sys2Proof.Machine.execResetPartition ld p s
  | .testQuire ld q => Sys2Proof.Machine.execTestQuire ld q s
  | .dcLend ld target p slot pma => Sys2Proof.Machine.execDcLend ld target p slot pma s
  | .dcRecall ld target slot => Sys2Proof.Machine.execDcRecall ld target slot s
  | .dcRecallTimeout ld slot => Sys2Proof.Machine.execDcRecallTimeout ld slot s
  | .attest ld nonce via => Sys2Proof.Machine.execAttest ld nonce via s
  | .attestGatherEnd => Sys2Proof.Machine.execAttestGatherEnd s
  | .colophonRead ld sec off n dst bad => Sys2Proof.Machine.execColophonRead ld sec off n dst bad s
  | .mdGo w p => Sys2Proof.Machine.execMdGo w p s
  | .mdRunEnd p => Sys2Proof.Machine.execMdRunEnd p s
  | .marginRead droop slack press issue => Sys2Proof.Machine.execMarginRead droop slack press issue s
  | .monitorTrip tile m droop slack => Sys2Proof.Machine.execMonitorTrip tile m droop slack s
  | .monitorClear tile m => Sys2Proof.Machine.execMonitorClear tile m s
  | .clockMonitorWindow h kHz => Sys2Proof.Machine.execClockMonitorWindow h kHz s
  | .clockRelockRelease h => Sys2Proof.Machine.execClockRelockRelease h s
  | .stewardJudgement => Sys2Proof.Machine.execStewardJudgement s
  | .restrictionLift ix => Sys2Proof.Machine.execRestrictionLift ix s
  | .partitionReset p ix => Sys2Proof.Machine.execPartitionReset p ix s
  | .quireResetEnd q => Sys2Proof.Machine.execQuireResetEnd q s
  | .tilePowerCycleEnd q => Sys2Proof.Machine.execTilePowerCycleEnd q s
  | .resetHang h => Sys2Proof.Machine.execResetHang h s
  | .deviceReset ix => Sys2Proof.Machine.execDeviceReset ix s
  | .wipeDone p => Sys2Proof.Machine.execWipeDone p s
  | .rotationDue p => Sys2Proof.Machine.execRotationDue p s
  | .rotationSwitch p drain crc => Sys2Proof.Machine.execRotationSwitch p drain crc s
  | .rotationAbandonTimeout p => Sys2Proof.Machine.execRotationAbandonTimeout p s
  | .testRunStart keys => Sys2Proof.Machine.execTestRunStart keys s
  | .testRunEnd unit sig raise slack bad => Sys2Proof.Machine.execTestRunEnd unit sig raise slack bad s
  | .btHoldoffWrite w p minutes => Sys2Proof.Machine.execBtHoldoffWrite w p minutes s
  | .btWindowWrite w p ms => Sys2Proof.Machine.execBtWindowWrite w p ms s
  | .testWindowEnd p => Sys2Proof.Machine.execTestWindowEnd p s
  | .powerOn ix => Sys2Proof.Machine.execPowerOn ix s
  | .perstAssert => Sys2Proof.Machine.execPerstAssert s
  | .perstRelease ix => Sys2Proof.Machine.execPerstRelease ix s
  | .recoveryImageBlock bytes crc last => Sys2Proof.Machine.execRecoveryImageBlock bytes crc last s
  | .smbusCommand r => Sys2Proof.Machine.execSmbusCommand r s
  | .inputSample mv ca => Sys2Proof.Machine.execInputSample mv ca s
  | .powerSample fast slow input => Sys2Proof.Machine.execPowerSample fast slow input s
  | .pwBudgetWrite w p v => Sys2Proof.Machine.execPwBudgetWrite w p v s
  | .pwClkWrite w v => Sys2Proof.Machine.execPwClkWrite w v s
  | .hbTickIoWrite w v => Sys2Proof.Machine.execHbTickIoWrite w v s
  | .floodUpdate k => Sys2Proof.Machine.execFloodUpdate k s
  | .stagingDrain p => Sys2Proof.Machine.execStagingDrain p s
  | .colophonCopy fail => Sys2Proof.Machine.execColophonCopy fail s
  | .colophonFlush wear fail => Sys2Proof.Machine.execColophonFlush wear fail s
  | .triggerTableWrite w reg v => Sys2Proof.Machine.execTriggerTableWrite w reg v s
  | .registerWrite w r v => Sys2Proof.Machine.execRegisterWrite w r v s
  | .frameClose p => Sys2Proof.Machine.execFrameClose p s
  | .halfClockDownDone h => Sys2Proof.Machine.execHalfClockDownDone h s
  | .illegalInstruction u => Sys2Proof.Machine.execIllegalInstruction u s
  | .cxlLinkRetrain t => Sys2Proof.Machine.execCxlLinkRetrain t s
  | .ideKeysProgrammed => Sys2Proof.Machine.execIdeKeysProgrammed s
  | .dcExtentResponse ld slot accept => Sys2Proof.Machine.execDcExtentResponse ld slot accept s
  | .backInvalidateResponse ld line data => Sys2Proof.Machine.execBackInvalidateResponse ld line data s

end Sys2Proof.Machine
end

