-- ==== Sys2Proof/Machine/Flits.lean ====
section
/-! DEFINITION. The flits of the spine's messages: the 48-bit flit, the head payload, the payload flits of each opcode
(08_cord_mesh_and_spine.md R207, Tables 3 to 5 and 7, 09_host_attachment.md R244). Where Table 5 names a payload's fields without
their places, they stand in the order named, one to a word, or from bit 0 up in one word (DESIGN CHOICE). -/

namespace Sys2Proof.Machine

/-- The parity of the low `n` bits of a number. -/
def parityOf (w : Nat) : Nat → Nat
  | 0 => 0
  | n + 1 => (w / 2 ^ n % 2 + parityOf w n) % 2

/-- A flit: payload, class, head, tail, wake, and even parity over bits 22:0 and 45:23 (Table 3). -/
def flit (payload : BitVec 32) (cls : Nat) (head tail wake : Bool) : BitVec 48 :=
  let b (x : Bool) : Nat := if x then 1 else 0
  let w := payload.toNat + 2 ^ 32 * (cls % 8) + 2 ^ 35 * b head + 2 ^ 36 * b tail + 2 ^ 37 * b wake
  BitVec.ofNat 48 (w + 2 ^ 46 * parityOf w 23 + 2 ^ 47 * parityOf (w / 2 ^ 23) 23)

/-- The check that every stop makes of every flit (R210). -/
def flitOk (w : BitVec 48) : Bool :=
  decide (parityOf w.toNat 23 = w.toNat / 2 ^ 46 % 2) && decide (parityOf (w.toNat / 2 ^ 23) 23 = w.toNat / 2 ^ 47 % 2)

/-- The payload of a head flit (Table 4). -/
def headPayload (dest : Nat) (phys : Bool) (source opcode length seq : Nat) : BitVec 32 :=
  BitVec.ofNat 32 (dest % 64 + (if phys then 2 ^ 6 else 0) + 2 ^ 7 * (source % 64) + 2 ^ 13 * (opcode % 128) +
    2 ^ 20 * (length % 16) + 2 ^ 24 * (seq % 256))

/-- The payload flits of a message, the last one its tail. -/
def tailFlits (cls : Nat) (wake : Bool) : List (BitVec 32) → List (BitVec 48)
  | [] => []
  | [w] => [flit w cls false true wake]
  | w :: t => flit w cls false false wake :: tailFlits cls wake t

/-- The flits of a message: one head flit, then its payload flits (R207). -/
def messageFlits (dest : Nat) (phys : Bool) (source opcode cls seq : Nat) (wake : Bool) (payload : List (BitVec 32)) :
    List (BitVec 48) :=
  flit (headPayload dest phys source opcode payload.length seq) cls true payload.isEmpty wake :: tailFlits cls wake payload

def word32 (n : Nat) : BitVec 32 := BitVec.ofNat 32 n

/-! Payloads (Table 5). -/

/-- STROKE: tick counter bits 31:0. -/
def State.strokePayload (s : State) (p : PartId) : List (BitVec 32) := [word32 (s.cnt (pt p) R.TK_COUNT_LO R.TK_COUNT_HI)]

/-- TICKDONE: the bitmap of the quires that it stands for, tick counter bits 15:0. -/
def State.tickdonePayload (s : State) (q : QuireId) : List (BitVec 32) := [word32 (2 ^ localOf q + 2 ^ 16 * ((s.qu q).tick % 2 ^ 16))]

/-- INTAKE: flit 1 as R244 lays it out; flit 2, the `seq` of the first message, where that does not follow the ring's last
bound message. -/
def Intake.payload (i : Intake) (follows : Bool) : List (BitVec 32) :=
  match i.msgs with
  | [] => [word32 (i.ring % 4 + 2 ^ 10 * (i.tick % 2 ^ 16))]
  | m :: _ =>
    word32 (i.ring % 4 + 2 ^ 2 * (i.msgs.length % 128) + (if m.late then 2 ^ 9 else 0) + 2 ^ 10 * (i.tick % 2 ^ 16)) ::
      (if follows then [] else [word32 m.seq])

/-- MAPSET: the partition and its map: seven bits, tile and absent, for each of the eight quires and the spare. -/
def State.mapsetPayload (s : State) (p : PartId) : List (BitVec 32) :=
  let m := ((List.range 9).zip (s.mapWords p)).foldl (fun n e =>
    n + 2 ^ (7 * e.1) * (e.2.toNat % 64 + 64 * (e.2.toNat / 2 ^ 8 % 2))) 0
  [word32 p.val, word32 m, word32 (m / 2 ^ 32)]

/-- EVENT: words 1 to 14 of the record. -/
def EvRec.payload (e : EvRec) : List (BitVec 32) := (List.range 14).map (fun i => wordAt (e.bytes 0) (i + 1))

/-- LOAD.BEGIN: the program and pocket chunk counts and the image CRC-32C (R212). -/
def beginPayload (im : StImage) : List (BitVec 32) := [word32 (imCount im 0), word32 (imCount im 1), im.crc]

/-- LOAD.DATA (Table 7). -/
def loadDataPayload (quires : BitVec 8) (stitchers : BitVec 64) (space chunk : Nat) (bytes : List (BitVec 8)) : List (BitVec 32) :=
  word32 (quires.toNat + 2 ^ 8 * (space % 4) + 2 ^ 10 * (chunk % 1024)) :: word32 stitchers.toNat ::
    word32 (stitchers.toNat / 2 ^ 32) :: (List.range 8).map (fun i => wordAt bytes i)

/-- The runs of a list of chunks: space, first chunk, count. -/
def chunkRuns : List (Nat × Nat) → List (Nat × Nat × Nat)
  | [] => []
  | c :: t => match chunkRuns t with
    | [] => [(c.1, c.2, 1)]
    | r :: u => if r.1 = c.1 ∧ r.2.1 = c.2 + 1 then (c.1, c.2, r.2.2 + 1) :: u else (c.1, c.2, 1) :: r :: u

/-- LOAD.STAT: sealed, a CRC mismatch, or up to 14 runs of missing chunks (R213). -/
def State.statPayload (s : State) (u : StId) : List (BitVec 32) :=
  if s.f (sb u) F.ST_STATUS_sealed = 1 then [0]
  else match s.imageOf u with
    | none => [1]
    | some (_, im) =>
      let gaps := (s.st u).missing im
      if gaps.isEmpty then [1]
      else (chunkRuns (takeRuns 14 none gaps)).map (fun r => word32 (2 + 2 ^ 2 * r.1 + 2 ^ 4 * r.2.1 + 2 ^ 14 * r.2.2))

/-- The payload of a message that waits for its ACK. -/
def State.payload (s : State) (m : SpMsg) : List (BitVec 32) :=
  match m.opcode with
  | 0x08 => [word32 m.arg]
  | 0x09 => s.mapsetPayload ⟨m.arg % 4, by omega⟩
  | 0x10 =>
    let bit := m.arg % 2 ^ 8
    (match s.noticeAt (m.arg / 2 ^ 8 % 2 ^ 8) bit (some (m.arg / 2 ^ 16)) with
      | some n => [word32 bit, word32 (n.ptr / 64), word32 n.tag]
      | none => [word32 bit, 0, 0])
  | 0x18 => (match (s.src (srcOf ⟨m.arg % 38, by omega⟩)).queue with
      | e :: _ => e.payload
      | [] => List.replicate 14 0)
  | 0x20 => [word32 (m.arg % 2 ^ 28)]
  | 0x21 => [word32 (m.arg / 2 ^ 32 % 2 ^ 28), word32 m.arg]
  | 0x22 => [word32 (m.arg % 2 ^ 28), word32 m.data]
  | 0x28 => (match s.imageOf ⟨⟨m.arg / 64 % 32, by omega⟩, ⟨m.arg % 64, by omega⟩⟩ with
      | some (_, im) => beginPayload im
      | none => [0, 0, 0])
  | 0x2B => s.statPayload ⟨⟨m.arg / 64 % 32, by omega⟩, ⟨m.arg % 64, by omega⟩⟩
  | 0x7E => [word32 (m.arg % 2 ^ 8 + 2 ^ 8 * m.data)]
  | _ => []

/-- The flits of a message that waits for its ACK; no such message names a physical tile. -/
def State.flits (s : State) (m : SpMsg) : List (BitVec 48) :=
  messageFlits m.dest false m.stop m.opcode m.cls m.seq m.wake (s.payload m)

end Sys2Proof.Machine
end

