-- ==== Sys2Proof/Safety.lean ====
section
/-! DEFINITION. What claims about runs are stated in: the canonical form of the block's memories and register file, the
queue, and runs without a stop. -/

namespace Sys2Proof.Machine

/-- The canonical form of a memory: addresses strictly rising, no entry equal to what an unlisted address reads as. -/
def Memory.wf (m : Sparse (BitVec 8)) : Bool := spWf 0 m

/-- The memories that hosts and partitions read back are in canonical form: partition memory, the control pages, the
command areas. -/
def State.memOk (s : State) : Bool := Memory.wf s.mem && Memory.wf s.ctlPage && Memory.wf s.cmdArea

/-- Every command that waits is well formed. -/
def State.queueOk (s : State) : Bool := s.pending.all (fun c => c.wf)

/-- A run of `k` steps meets no fault and no refusal. -/
def State.runsSafely (s : State) (k : Nat) : Prop := ∃ t, Sys2Proof.core.run k s = .next t

/-! ## What the claims about a stitcher's instructions are stated in -/

/-- Stitcher `u` may issue instruction `i`: it executes, `i` is its next instruction, not the 257th of its firing, and its
program word is no uncorrectable one (04_stitchers.md R95, R113, R114). -/
def State.canIssue (s : State) (u : StId) (i : Instr) : Bool :=
  s.mayIssue u i && decide (s.f (sb u) F.ST_PC_count < 256) && decide ((s.st u).progErr (s.st u).pc ≠ 2)

/-- The state without its stitchers and its registers. -/
def State.butStitchers (s : State) : State := { s with stitchers := [], regs := [] }

/-- Between the two states only the stitchers and the registers differ; of the stitchers only `u`, of the registers only
ST_PC and ST_ECC of `u`. -/
def OnlyStitcher (u : StId) (s t : State) : Prop :=
  t.butStitchers = s.butStitchers ∧ (∀ v, v ≠ u → t.st v = s.st v) ∧
    ∀ b r, b + r.off ≠ sb u + R.ST_PC.off → b + r.off ≠ sb u + R.ST_ECC.off → t.rd b r = s.rd b r

/-- ST_PC shows the instruction just issued and its count; ST_ECC counts a corrected program word. -/
def CountsIssue (u : StId) (s t : State) : Prop :=
  t.f (sb u) F.ST_PC_pc = (s.st u).pc % 1024 ∧ t.f (sb u) F.ST_PC_count = s.f (sb u) F.ST_PC_count + 1 ∧
    t.f (sb u) F.ST_ECC_corrected =
      min 65535 (s.f (sb u) F.ST_ECC_corrected + if (s.st u).progErr (s.st u).pc = 1 then 1 else 0)

/-- A stitcher with the progress of issue of another: program counter, scoreboard, stall, instructions issued. -/
def Stitcher.issueOf (x y : Stitcher) : Stitcher :=
  { x with pc := y.pc, nextAt := y.nextAt, unitAt := y.unitAt, stall := y.stall, score := y.score, doneAt := y.doneAt,
           issues := y.issues }

/-- The next instruction is the next word of program memory. -/
def Advances (u : StId) (s t : State) : Prop := (t.st u).pc = ((s.st u).pc + 1) % 1024

/-- An instruction of `u` that wrote scalar register `rd` with `v`, s0 excepted, and no other register or memory. -/
def WroteScalar (u : StId) (rd : SReg) (v : BitVec 32) (s t : State) : Prop :=
  OnlyStitcher u s t ∧ CountsIssue u s t ∧ Advances u s t ∧
    (∀ r, (t.st u).s r = if r = rd ∧ rd ≠ 0 then v else (s.st u).s r) ∧
    { (t.st u).issueOf (s.st u) with sreg := (s.st u).sreg } = s.st u

/-- An instruction of `u` that wrote predicate `pd` with `v`, p0 excepted, and no other register or memory. -/
def WrotePredicate (u : StId) (pd : PReg) (v : BitVec 64) (s t : State) : Prop :=
  OnlyStitcher u s t ∧ CountsIssue u s t ∧ Advances u s t ∧
    (∀ r, (t.st u).p r = if r = pd ∧ pd ≠ 0 then v else (s.st u).p r) ∧
    { (t.st u).issueOf (s.st u) with preg := (s.st u).preg } = s.st u

/-- An instruction of `u` that wrote vector register `vd` and no other register or memory. -/
def WroteVector (u : StId) (vd : VReg) (s t : State) : Prop :=
  OnlyStitcher u s t ∧ CountsIssue u s t ∧ Advances u s t ∧
    (∀ r, r ≠ vd → (t.st u).v r = (s.st u).v r) ∧
    { (t.st u).issueOf (s.st u) with vreg := (s.st u).vreg } = s.st u

/-- Lane `k` of a register in a lane type. -/
def lane (ty : LaneTy) (v : BitVec 512) (k : Nat) : Nat := laneAt v ty.width k

/-- The destination and the value of a scalar instruction, from the registers before it (04_stitchers.md R101 and Table 6;
02_number_formats.md R42, R44, R56; R102). -/
def scalarValue : Instr → Option (StId × SReg × (Stitcher → BitVec 32))
  | .add u rd ra rb => some (u, rd, fun x => x.s ra + x.s rb)
  | .sub u rd ra rb => some (u, rd, fun x => x.s ra - x.s rb)
  | .mul u rd ra rb => some (u, rd, fun x => x.s ra * x.s rb)
  | .mulh u rd ra rb => some (u, rd, fun x => (((x.s ra).signExtend 64 * (x.s rb).signExtend 64) >>> 32).setWidth 32)
  | .mulhu u rd ra rb => some (u, rd, fun x => (((x.s ra).setWidth 64 * (x.s rb).setWidth 64) >>> 32).setWidth 32)
  | .and u rd ra rb => some (u, rd, fun x => x.s ra &&& x.s rb)
  | .or u rd ra rb => some (u, rd, fun x => x.s ra ||| x.s rb)
  | .xor u rd ra rb => some (u, rd, fun x => x.s ra ^^^ x.s rb)
  | .shl u rd ra rb => some (u, rd, fun x => x.s ra <<< ((x.s rb).toNat % 32))
  | .shr u rd ra rb => some (u, rd, fun x => x.s ra >>> ((x.s rb).toNat % 32))
  | .sra u rd ra rb => some (u, rd, fun x => (x.s ra).sshiftRight ((x.s rb).toNat % 32))
  | .min u rd ra rb => some (u, rd, fun x => if (x.s ra).toInt ≤ (x.s rb).toInt then x.s ra else x.s rb)
  | .max u rd ra rb => some (u, rd, fun x => if (x.s ra).toInt ≤ (x.s rb).toInt then x.s rb else x.s ra)
  | .minu u rd ra rb => some (u, rd, fun x => if (x.s ra).toNat ≤ (x.s rb).toNat then x.s ra else x.s rb)
  | .maxu u rd ra rb => some (u, rd, fun x => if (x.s ra).toNat ≤ (x.s rb).toNat then x.s rb else x.s ra)
  | .addSat u rd ra rb => some (u, rd, fun x =>
      BitVec.ofInt 32 (max (-2147483648) (min 2147483647 ((x.s ra).toInt + (x.s rb).toInt))))
  | .subSat u rd ra rb => some (u, rd, fun x =>
      BitVec.ofInt 32 (max (-2147483648) (min 2147483647 ((x.s ra).toInt - (x.s rb).toInt))))
  | .sel u rd ra rb pd => some (u, rd, fun x => if (x.p pd).getLsbD 0 then x.s ra else x.s rb)
  | .addi u rd ra imm => some (u, rd, fun x => x.s ra + imm.signExtend 32)
  | .andi u rd ra imm => some (u, rd, fun x => x.s ra &&& imm.setWidth 32)
  | .ori u rd ra imm => some (u, rd, fun x => x.s ra ||| imm.setWidth 32)
  | .xori u rd ra imm => some (u, rd, fun x => x.s ra ^^^ imm.setWidth 32)
  | .lui u rd imm => some (u, rd, fun _ => imm ++ 0#16)
  | .shli u rd ra amt => some (u, rd, fun x => x.s ra <<< amt.toNat)
  | .shri u rd ra amt => some (u, rd, fun x => x.s ra >>> amt.toNat)
  | .srai u rd ra amt => some (u, rd, fun x => (x.s ra).sshiftRight amt.toNat)
  | .fadd u rd ra rb => some (u, rd, fun x => toFp32 ((ofFp32 (x.s ra)).add (ofFp32 (x.s rb))))
  | .fsub u rd ra rb => some (u, rd, fun x => toFp32 ((ofFp32 (x.s ra)).add (ofFp32 (x.s rb)).neg))
  | .fmul u rd ra rb => some (u, rd, fun x => toFp32 ((ofFp32 (x.s ra)).mul (ofFp32 (x.s rb))))
  | .ffma u rd ra rb => some (u, rd, fun x =>
      toFp32 (((ofFp32 (x.s ra)).mul (ofFp32 (x.s rb))).add (ofFp32 (x.s rd))))
  | .fmin u rd ra rb => some (u, rd, fun x => toFp32 ((ofFp32 (x.s ra)).min (ofFp32 (x.s rb))))
  | .fmax u rd ra rb => some (u, rd, fun x => toFp32 ((ofFp32 (x.s ra)).max (ofFp32 (x.s rb))))
  | .fabs u rd ra => some (u, rd, fun x => 0#1 ++ (x.s ra).extractLsb' 0 31)
  | .fneg u rd ra => some (u, rd, fun x => ~~~ (x.s ra).extractLsb' 31 1 ++ (x.s ra).extractLsb' 0 31)
  | .fexp u rd ra => some (u, rd, fun x => toFp32 (ofFp32 (x.s ra)).exp)
  | .frcp u rd ra => some (u, rd, fun x => toFp32 (ofFp32 (x.s ra)).rcp)
  | .frsqrt u rd ra => some (u, rd, fun x => toFp32 (ofFp32 (x.s ra)).rsqrt)
  | _ => none

/-- Every bit of a predicate with one value (R89). -/
def allBits (b : Bool) : BitVec 64 := if b then BitVec.allOnes 64 else 0#64

/-- The destination and the value of an instruction that writes a predicate from scalars or predicates. -/
def predicateValue : Instr → Option (StId × PReg × (Stitcher → BitVec 64))
  | .cmpEq u pd ra rb => some (u, pd, fun x => allBits (decide (x.s ra = x.s rb)))
  | .cmpNe u pd ra rb => some (u, pd, fun x => allBits (decide (x.s ra ≠ x.s rb)))
  | .cmpLt u pd ra rb => some (u, pd, fun x => allBits (decide ((x.s ra).toInt < (x.s rb).toInt)))
  | .cmpLe u pd ra rb => some (u, pd, fun x => allBits (decide ((x.s ra).toInt ≤ (x.s rb).toInt)))
  | .cmpLtu u pd ra rb => some (u, pd, fun x => allBits (decide ((x.s ra).toNat < (x.s rb).toNat)))
  | .cmpLeu u pd ra rb => some (u, pd, fun x => allBits (decide ((x.s ra).toNat ≤ (x.s rb).toNat)))
  | .cmpi u pd .eq ra imm => some (u, pd, fun x => allBits (decide (x.s ra = imm.signExtend 32)))
  | .cmpi u pd .ne ra imm => some (u, pd, fun x => allBits (decide (x.s ra ≠ imm.signExtend 32)))
  | .cmpi u pd .lt ra imm => some (u, pd, fun x => allBits (decide ((x.s ra).toInt < imm.toInt)))
  | .cmpi u pd .ltu ra imm => some (u, pd, fun x => allBits (decide ((x.s ra).toNat < (imm.signExtend 32).toNat)))
  | .fcmpEq u pd ra rb => some (u, pd, fun x => allBits ((ofFp32 (x.s ra)).eqv (ofFp32 (x.s rb))))
  | .fcmpLt u pd ra rb => some (u, pd, fun x => allBits ((ofFp32 (x.s ra)).lt (ofFp32 (x.s rb))))
  | .fcmpLe u pd ra rb => some (u, pd, fun x =>
      allBits ((ofFp32 (x.s ra)).lt (ofFp32 (x.s rb)) || (ofFp32 (x.s ra)).eqv (ofFp32 (x.s rb))))
  | .fcmpUn u pd ra rb => some (u, pd, fun x => allBits ((ofFp32 (x.s ra)).isNan || (ofFp32 (x.s rb)).isNan))
  | .pand u pd ra rb => some (u, pd, fun x => x.p ra &&& x.p rb)
  | .por u pd ra rb => some (u, pd, fun x => x.p ra ||| x.p rb)
  | .pnot u pd ra => some (u, pd, fun x => ~~~ x.p ra)
  | .pany u pd ra => some (u, pd, fun x => allBits (decide (x.p ra ≠ 0#64)))
  | .pall u pd ra => some (u, pd, fun x => allBits (decide (x.p ra = BitVec.allOnes 64)))
  | _ => none

/-- Whether a branch is taken, from the registers before it: its guard, and for BR.Z, BR.NZ and LOOP the scalar. -/
def taken (x : Stitcher) : Instr → Bool
  | .br _ pg pn _ => (x.p pg).getLsbD 0 != pn
  | .brZ _ pg pn rs _ => ((x.p pg).getLsbD 0 != pn) && decide (x.s rs = 0)
  | .brNz _ pg pn rs _ => ((x.p pg).getLsbD 0 != pn) && decide (x.s rs ≠ 0)
  | .loop _ pg pn rs _ => ((x.p pg).getLsbD 0 != pn) && decide (x.s rs - 1 ≠ 0)
  | _ => false

/-- The stitcher and the word offset of a branch. -/
def branchOf : Instr → Option (StId × BitVec 11)
  | .br u _ _ off => some (u, off)
  | .brZ u _ _ _ off => some (u, off)
  | .brNz u _ _ _ off => some (u, off)
  | .loop u _ _ _ off => some (u, off)
  | _ => none

/-- A range of a leaf of which every code word is without error, in bands whose zero-fill has ended. -/
abbrev cleanLeaf (s : State) (q : QuireId) (a n : Nat) : Prop :=
  ∀ v ∈ rowParts a n, bandOf v.1 ∉ (s.qu q).filling ∧ ∀ w ∈ codeWords (s.codeSize q v.1) v.1 v.2, s.markAt q w = 0

/-- A range of pocket memory of which no 64-bit word is uncorrectable. -/
abbrev readablePocket (x : Stitcher) (a n : Nat) : Prop := 2 ∉ x.pocketMarks a n

/-- Bytes of a space that a unit reads without an error to report. -/
abbrev readableAt (s : State) (u : StId) (sp : Space) (a n : Nat) : Prop :=
  match sp with
  | .pocket => readablePocket (s.st u) a n
  | .leaf => cleanLeaf s u.quire a n

/-- What a load finds at an address of a space: readable, or with nothing to correct. -/
abbrev loadable (s : State) (u : StId) (sp : Space) (a n : Nat) : Prop :=
  s.inRange u.quire sp a n n = true ∧ readableAt s u sp a n

/-- The little-endian number of `n` bytes at an address of a space (05_leaf_store.md R117). -/
def spaceValue (s : State) (u : StId) (sp : Space) (a n : Nat) : Nat :=
  match sp with
  | .pocket => leNat (memRead (s.st u).pocket a n)
  | .leaf => leNat (memRead (s.qu u.quire).leaf a n)

/-- Every byte of partition memory, of every leaf and of every pocket memory reads as before. -/
def MemoriesKept (s t : State) : Prop :=
  t.mem = s.mem ∧ (∀ q, (t.qu q).leaf = (s.qu q).leaf) ∧ ∀ u, (t.st u).pocket = (s.st u).pocket

/-- A scalar load's destination, address register, space, offset, size and extension. -/
def loadOf : Instr → Option (StId × SReg × SReg × Space × BitVec 12 × Nat × (Nat → BitVec 32))
  | .ldB u rd ra sp imm => some (u, rd, ra, sp, imm, 1, fun v => BitVec.ofNat 32 v)
  | .ldH u rd ra sp imm => some (u, rd, ra, sp, imm, 2, fun v => BitVec.ofNat 32 v)
  | .ldW u rd ra sp imm => some (u, rd, ra, sp, imm, 4, fun v => BitVec.ofNat 32 v)
  | .ldBs u rd ra sp imm => some (u, rd, ra, sp, imm, 1, fun v => (BitVec.ofNat 8 v).signExtend 32)
  | .ldHs u rd ra sp imm => some (u, rd, ra, sp, imm, 2, fun v => (BitVec.ofNat 16 v).signExtend 32)
  | _ => none

/-- A store's address register, space, offset, size and value. -/
def storeOf : Instr → Option (StId × SReg × Space × BitVec 12 × Nat × (Stitcher → Nat))
  | .stB u rd ra sp imm => some (u, ra, sp, imm, 1, fun x => (x.s rd).toNat)
  | .stH u rd ra sp imm => some (u, ra, sp, imm, 2, fun x => (x.s rd).toNat)
  | .stW u rd ra sp imm => some (u, ra, sp, imm, 4, fun x => (x.s rd).toNat)
  | .vst u vd ra sp imm => some (u, ra, sp, imm, 64, fun x => (x.v vd).toNat)
  | _ => none

/-- A byte of a stitcher's space. -/
def spaceByte (s : State) (u : StId) (sp : Space) (a : Nat) : BitVec 8 :=
  match sp with
  | .pocket => spGet 0 (s.st u).pocket a
  | .leaf => spGet 0 (s.qu u.quire).leaf a

/-- A lanewise instruction: its stitcher, destination, guard, lane type, and what lane k becomes (04_stitchers.md R89,
R101 and Table 6; R102). -/
def laneValue : Instr → Option (StId × VReg × PReg × Bool × LaneTy × (Stitcher → Nat → Nat))
  | .vadd u vd va vb pg pn ty => some (u, vd, pg, pn, ty, fun x k => ty.add (lane ty (x.v va) k) (lane ty (x.v vb) k))
  | .vsub u vd va vb pg pn ty => some (u, vd, pg, pn, ty, fun x k => ty.sub (lane ty (x.v va) k) (lane ty (x.v vb) k))
  | .vmul u vd va vb pg pn ty => some (u, vd, pg, pn, ty, fun x k => ty.mul (lane ty (x.v va) k) (lane ty (x.v vb) k))
  | .vmin u vd va vb pg pn ty => some (u, vd, pg, pn, ty, fun x k => ty.min (lane ty (x.v va) k) (lane ty (x.v vb) k))
  | .vmax u vd va vb pg pn ty => some (u, vd, pg, pn, ty, fun x k => ty.max (lane ty (x.v va) k) (lane ty (x.v vb) k))
  | .vfma u vd va vb vc pg pn ty => some (u, vd, pg, pn, ty, fun x k =>
      ty.fma (lane ty (x.v va) k) (lane ty (x.v vb) k) (lane ty (x.v vc) k))
  | .vabs u vd va pg pn ty => some (u, vd, pg, pn, ty, fun x k => ty.abs (lane ty (x.v va) k))
  | .vneg u vd va pg pn ty => some (u, vd, pg, pn, ty, fun x k => ty.neg (lane ty (x.v va) k))
  | .vand u vd va vb pg pn ty => some (u, vd, pg, pn, ty.lane, fun x k =>
      lane ty.lane (x.v va) k &&& lane ty.lane (x.v vb) k)
  | .vor u vd va vb pg pn ty => some (u, vd, pg, pn, ty.lane, fun x k =>
      lane ty.lane (x.v va) k ||| lane ty.lane (x.v vb) k)
  | .vxor u vd va vb pg pn ty => some (u, vd, pg, pn, ty.lane, fun x k =>
      lane ty.lane (x.v va) k ^^^ lane ty.lane (x.v vb) k)
  | .vshuf u vd va vb pg pn ty => some (u, vd, pg, pn, ty, fun x k =>
      lane ty (x.v va) (lane ty (x.v vb) k % ty.lanes))
  | .vmov u vd va pg pn ty => some (u, vd, pg, pn, ty, fun x k => lane ty (x.v va) k)
  | .vsum u vd va pg pn ty => some (u, vd, pg, pn, ty, fun x k =>
      if k = 0 then laneSum ty (lanesOf ty (x.v va)) else 0)
  | .vmaxi u vd va pg pn ty => some (u, vd, pg, pn, ty, fun x k =>
      if k = 0 then
        if ty.isNan (laneMax ty (lanesOf ty (x.v va))).1 then ty.fmt.nanc else (laneMax ty (lanesOf ty (x.v va))).1
      else if k = 1 then (laneMax ty (lanesOf ty (x.v va))).2 else 0)
  | .vexp u vd va pg pn ty => some (u, vd, pg, pn, ty.lane, fun x k => laneT ty FVal.exp (lane ty.lane (x.v va) k))
  | .vrcp u vd va pg pn ty => some (u, vd, pg, pn, ty.lane, fun x k => laneT ty FVal.rcp (lane ty.lane (x.v va) k))
  | .vrsqrt u vd va pg pn ty => some (u, vd, pg, pn, ty.lane, fun x k => laneT ty FVal.rsqrt (lane ty.lane (x.v va) k))
  | _ => none

/-- A vector compare: its stitcher, destination, guard, lane type, and the result of lane k. -/
def vectorCompare : Instr → Option (StId × PReg × PReg × Bool × LaneTy × (Stitcher → Nat → Bool))
  | .vcmpEq u pd va vb pg pn ty => some (u, pd, pg, pn, ty, fun x k => ty.eqv (lane ty (x.v va) k) (lane ty (x.v vb) k))
  | .vcmpLt u pd va vb pg pn ty => some (u, pd, pg, pn, ty, fun x k => ty.lt (lane ty (x.v va) k) (lane ty (x.v vb) k))
  | .vcmpLe u pd va vb pg pn ty => some (u, pd, pg, pn, ty, fun x k => ty.le (lane ty (x.v va) k) (lane ty (x.v vb) k))
  | _ => none

/-- The state of the generator for element i of a conversion: in stochastic mode each element that takes one has drawn
once, in order (02_number_formats.md R58). -/
def drawnAt (rm : Rm) (g : BitVec 32) (takes : Nat → Bool) (i : Nat) : BitVec 32 :=
  if rm = .sr then lfsrDraw^[((List.range i).filter takes).length] g else g

/-- Whether an instruction is a scalar compare (Table 6). -/
def scalarCompare : Instr → Bool
  | .cmpEq .. | .cmpNe .. | .cmpLt .. | .cmpLe .. | .cmpLtu .. | .cmpLeu .. | .cmpi .. => true
  | .fcmpEq .. | .fcmpLt .. | .fcmpLe .. | .fcmpUn .. => true
  | _ => false

/-- The stitcher, the guard and its inversion of a branch. -/
def guardOf : Instr → Option (StId × PReg × Bool)
  | .br u pg pn _ => some (u, pg, pn)
  | .brZ u pg pn _ _ => some (u, pg, pn)
  | .brNz u pg pn _ _ => some (u, pg, pn)
  | .loop u pg pn _ _ => some (u, pg, pn)
  | _ => none

/-- A send of one word: its stitcher, operands, channel, whether its token is a control token, whether it may end for
want of credit (04_stitchers.md R106). -/
def wordSend : Instr → Option (StId × SReg × SReg × SReg × BitVec 8 × Bool × Bool)
  | .send u rx rt rs ch => some (u, rx, rt, rs, ch, false, false)
  | .sendCtl u rx rt rs ch => some (u, rx, rt, rs, ch, true, false)
  | .trySend u rx rt rs ch => some (u, rx, rt, rs, ch, false, true)
  | .trySendCtl u rx rt rs ch => some (u, rx, rt, rs, ch, true, true)
  | _ => none

/-- What the send of a word carries: the pair s(rx+1):s(rx) and the tag in s(rt). -/
def wordOf (x : Stitcher) (rx rt : SReg) (ctl : Bool) : Payload :=
  .word ctl (x.s (rx + 1) ++ x.s rx) ((x.s rt).toNat % 4096)

/-- A send of a message from pocket memory or the leaf. -/
def messageSend : Instr → Option (StId × SReg × SReg × SReg × BitVec 8 × Space × Bool)
  | .msendP u rx rt rs ch => some (u, rx, rt, rs, ch, .pocket, false)
  | .msendL u rx rt rs ch => some (u, rx, rt, rs, ch, .leaf, false)
  | .tryMsendP u rx rt rs ch => some (u, rx, rt, rs, ch, .pocket, true)
  | .tryMsendL u rx rt rs ch => some (u, rx, rt, rs, ch, .leaf, true)
  | _ => none

/-- A message that lands in a ring. -/
def isRing : Landing → Bool
  | .ring .. => true
  | _ => false

/-- No ring message is on its way to a quire. -/
abbrev noRing (s : State) (q : QuireId) : Prop := ∀ m ∈ s.flights, m.dst = q → isRing m.landing = false

/-- The position at which a TICKDONE issues: when every register write of its firing has completed, no other firing of the
quire has just ended, and neither press has just become empty (R95, R108). -/
def tickdoneAt (s : State) (u : StId) : Nat :=
  max (s.st u).nextAt (max (max (s.st u).doneAt ((s.qu u.quire).lastEnd + 1))
    (max (if spGet 0 (s.qu u.quire).freedAt 1 = 0 then 0 else spGet 0 (s.qu u.quire).freedAt 1 + 1)
      (if spGet 0 (s.qu u.quire).freedAt 2 = 0 then 0 else spGet 0 (s.qu u.quire).freedAt 2 + 1)))

/-- Stitcher `u` has met a firing fault with a cause: the quire is suspect and shows the stitcher and the cause, its
counter is one more, the stitcher is in reset and stays stopped, in no firing, with its registers, match store and queues
empty, and the open tick has failed (R114, R115, R110). -/
def Faulted (u : StId) (cause : Nat) (s t : State) : Prop :=
  t.f (qb u.quire) F.ST_FAULT_suspect = 1 ∧ t.f (qb u.quire) F.ST_FAULT_cause = cause ∧
    t.f (qb u.quire) F.ST_FAULT_stitcher = u.st.val ∧
    (t.st u).inReset = true ∧ (t.st u).stopped = true ∧ (t.st u).firing = none ∧ (t.st u).store = [] ∧
    (t.st u).queues = [] ∧ (t.st u).sreg = [] ∧ (t.st u).pc = 0 ∧ (t.st u).pocket = (s.st u).pocket ∧
    ((s.part (partOf u.quire)).frameOpen = true → (t.part (partOf u.quire)).failed = true)

/-- The pocket range that an instruction reads, its address and length, where its queue has room for it (04_stitchers.md
R105 to R107, Table 6; 03_presses.md R63). -/
def pocketRead (s : State) : Instr → Option (StId × Nat × Nat)
  | .ldB u _ ra .pocket imm => some (u, memAddr (s.st u) ra imm 1, 1)
  | .ldH u _ ra .pocket imm => some (u, memAddr (s.st u) ra imm 2, 2)
  | .ldW u _ ra .pocket imm => some (u, memAddr (s.st u) ra imm 4, 4)
  | .ldBs u _ ra .pocket imm => some (u, memAddr (s.st u) ra imm 1, 1)
  | .ldHs u _ ra .pocket imm => some (u, memAddr (s.st u) ra imm 2, 2)
  | .vld u _ ra .pocket imm => some (u, memAddr (s.st u) ra imm 64, 64)
  | .collGen u ra rb _ .pocket => some (u, ((s.st u).s ra).toNat, ((s.st u).s rb).toNat)
  | .collChk u ra rb _ _ .pocket => some (u, ((s.st u).s ra).toNat, ((s.st u).s rb).toNat)
  | .pressGo u ra x .pocket => if (s.press u.quire x).places < 4 then some (u, ((s.st u).s ra).toNat, 64) else none
  | .leafFill u ra => if (s.qu u.quire).ops.length < 4 then some (u, ((s.st u).s ra).toNat, 64) else none
  | .leafCopy u ra => if (s.qu u.quire).ops.length < 4 then some (u, ((s.st u).s ra).toNat, 64) else none
  | _ => none

/-- The size that the address of such a range is aligned to (R114). -/
def pocketAlign : Instr → Nat
  | .ldB .. | .ldBs .. => 1
  | .ldH .. | .ldHs .. => 2
  | .ldW .. => 4
  | _ => 64

/-- The state in which no word of the stitcher's memories has an error. -/
def State.noErrors (s : State) (u : StId) : State := s.updSt u (fun x => { x with memErr := [] })

/-- A corrected single-bit error costs nothing: beside the same instruction in the state without errors, the stitcher has
the same registers, usable at the same positions, and ST_ECC.corrected counts `n` more (R113). -/
def CorrectedInTime (u : StId) (n : Nat) (i : Instr) (s t : State) : Prop :=
  ∃ t', exec i (s.noErrors u) = .next t' ∧ t.st u = { t'.st u with memErr := (t.st u).memErr } ∧
    t.f (sb u) F.ST_ECC_corrected = min 65535 (s.f (sb u) F.ST_ECC_corrected + n)

/-- The event code stands in the last record of a source that had room for it. -/
def Recorded (x : Src) (code : Nat) (s t : State) : Prop :=
  (s.src x).queue.length < 7 → ∃ e, (t.src x).last = some e ∧ e.code = code

/-- The other partitions are as they were. -/
def OthersKept (p : PartId) (s t : State) : Prop := ∀ r, r ≠ p → t.part r = s.part r

/-- Partition `p` has issued a stroke in cycle `c`: its frame is open, the tick counter is one more modulo 2^48, no pending
edge or late grid point is left, and the frame's budget is PW_BUDGET's (R16, R19, R22, 15_module_power_and_signals.md
R365). -/
def Stroked (p : PartId) (c : Nat) (s t : State) : Prop :=
  (t.part p).frameOpen = true ∧ (t.part p).strokeAt = c ∧ (t.part p).struck = true ∧
    t.cnt (pt p) R.TK_COUNT_LO R.TK_COUNT_HI = (s.cnt (pt p) R.TK_COUNT_LO R.TK_COUNT_HI + 1) % 2 ^ 48 ∧
    t.f (pt p) F.TK_STATUS_phase = 1 ∧ (t.part p).pendEdge = false ∧ (t.part p).gridLate = false ∧
    (t.part p).published = false ∧ (t.part p).doneMask = 0 ∧ (t.part p).budget = s.f (pt p) F.PW_BUDGET_watts

/-- The partition's clock runs, and its sub-cycle count is below the period. -/
abbrev clocked (s : State) (p : PartId) : Prop := s.clockStopped p = false ∧ (s.part p).sub < 1000 * s.period p

/-- A register write of `w` at a byte address is let through to a unit that answers (00_scope.md R9, 08_cord_mesh_and_spine.md
R218). -/
abbrev reaches (s : State) (w : Writer) (addr : Nat) : Prop := s.gateOf w addr = .pass ∧ s.asleepCause addr = none

/-- A token that its port takes in (04_stitchers.md R90, R97 to R99): its check and epoch fit, the stitcher is used, sealed
and in no reset, its port is valid with room, its tag is new there and the quire's tick is not over. -/
abbrev receivable (s : State) (u : StId) (k : Tok) : Prop :=
  (tokenCheck k.body u.st.val u.quire.val).toNat = k.check ∧ k.epoch % 4 = s.f (qb u.quire) F.CH_EPOCH_epoch ∧
    s.f (sb u) F.ST_STATUS_used = 1 ∧ s.f (sb u) F.ST_STATUS_sealed = 1 ∧ (s.st u).inReset = false ∧
    s.portValid u k.port = true ∧ (s.qu u.quire).done = false ∧
    (∀ w ∈ (s.st u).store, w.port ≠ k.port ∨ w.tag ≠ k.tag) ∧
    (k.port = 31 ∨ (s.st u).waitingAt k.port < s.f (sb u) (portFld F.ST_PORT_credits k.port))

/-- Stitcher `u` has taken token `k` in at a position: it stands last in the match store, and nothing else of any stitcher
has changed (R90). -/
def TookToken (u : StId) (k : Tok) (pos : Nat) (o : Origin) (s t : State) : Prop :=
  t.st u = { s.st u with store := (s.st u).store ++
    [{ data := k.data, tag := k.tag, port := k.port, ctl := k.ctl, at_ := pos, origin := o }] } ∧
  (∀ v, v ≠ u → t.st v = s.st v) ∧
  t.f (sb u) F.ST_MATCH_peak = max (s.f (sb u) F.ST_MATCH_peak) ((s.st u).store.length + 1) % 2 ^ F.ST_MATCH_peak.w

/-- Nothing waits in partition `p` for the end of a hold. -/
abbrev nothingPends (s : State) (p : PartId) : Prop :=
  (s.part p).pendStrike = false ∧ (s.part p).pendEdge = false ∧ (s.part p).gridLate = false ∧
    (s.part p).strikeDue = none

/-- A message of a class that stands in the spine: not lost, not yet accepted, not held (R207, R209). -/
abbrev underway (m : SpMsg) : Prop := m.lost = false ∧ m.got = false ∧ m.held = false

/-- A load of the partition with an image, in a round, waiting for the answers of some stitchers. -/
def loading (s : State) (p : PartId) (im : Image) (round : Nat) (waiting : List StId) : Prop :=
  ∃ l, (s.part p).load = some l ∧ l.image = im ∧ l.round = round ∧ l.waiting = waiting

/-- The completion of a notice with a status and a result. -/
def compOf (n : Notice) (status result : Nat) : Completion :=
  { ld := n.ld, mailbox := n.mailbox, bit := n.bit, tag := n.tag, status := status, result := result % 2 ^ 64, irq := n.irq,
    vec := n.vec, waited := false }

/-- LD `ld`, the owner of a device that is not withdrawn, has a command with an opcode before the steward, in notice `n`
(09 R232, R257). -/
abbrev commanded (s : State) (ld : LdId) (op : Nat) (n : Notice) : Prop :=
  s.cmdNotice ld op = some n ∧ s.withdrawn = false ∧ ld = s.owner

/-- One notice has ended: its completion, with a status and a result, stands last. -/
def Ended (n : Notice) (status result : Nat) (s t : State) : Prop :=
  t.comps = s.comps ++ [compOf n status result] ∧ t.notices.length + 1 = s.notices.length

end Sys2Proof.Machine
end

