-- ==== Sys2Proof/Certificates/Slice0/Obligations.lean ====
section
/-! DEFINITION. The statements for the provers. -/

open Sys2Proof Sys2Proof.Machine

/-! ## The stitchers' instructions (04_stitchers.md) -/

/-- A scalar instruction that may issue completes: its destination takes the value of Table 6, s0 stays zero, the issue is
counted, the next instruction is the next word, and nothing else of the block changes.
States completion, that exec answers a next state with the effect named, for: add, sub, mul, mulh, mulhu, and, or, xor, shl,
shr, sra, min, max, minu, maxu, addSat, subSat, sel, addi, andi, ori, xori, lui, shli, shri, srai, fadd, fsub, fmul, ffma,
fmin, fmax, fabs, fneg, fexp, frcp, frsqrt. -/
def Obligations.ScalarResults : Prop :=
  ∀ (i : Instr) (u : StId) (rd : SReg) (f : Stitcher → BitVec 32) (s : State),
    scalarValue i = some (u, rd, f) → s.canIssue u i = true →
    ∃ t, exec i s = .next t ∧ WroteScalar u rd (f (s.st u)) s t

/-- A scalar compare or a predicate operation that may issue completes: its destination takes the value of Table 6, every
bit of it for a compare (R89), p0 stays all ones, and nothing else of the block changes but what every issue counts.
States completion, that exec answers a next state with the effect named, for: cmpEq, cmpNe, cmpLt, cmpLe, cmpLtu, cmpLeu,
cmpi, fcmpEq, fcmpLt, fcmpLe, fcmpUn, pand, por, pnot, pany, pall. -/
def Obligations.PredicateResults : Prop :=
  ∀ (i : Instr) (u : StId) (pd : PReg) (f : Stitcher → BitVec 64) (s : State),
    predicateValue i = some (u, pd, f) → s.canIssue u i = true →
    ∃ t, exec i s = .next t ∧ WrotePredicate u pd (f (s.st u)) s t

/-- A register write to s0 or p0 is discarded and they read as zero and as all ones (R88); any other register reads the
value last written. -/
def Obligations.HardwiredRegisters : Prop :=
  (∀ x : Stitcher, x.s 0 = 0 ∧ x.p 0 = BitVec.allOnes 64) ∧
  (∀ (x : Stitcher) (v : BitVec 32) (r : SReg), x.setS 0 v = x ∧ (r ≠ 0 → (x.setS r v).s r = v)) ∧
  (∀ (x : Stitcher) (v : BitVec 64) (r : PReg), x.setP 0 v = x ∧ (r ≠ 0 → (x.setP r v).p r = v)) ∧
  (∀ (x : Stitcher) (v : BitVec 512) (r : VReg), (x.setV r v).v r = v)

/-- A branch that may issue completes: the next instruction is the branch's word plus its signed offset where it is taken,
else the next word; LOOP leaves rs one less where its guard holds, and every other register, memory and unit is
unchanged.
States completion, that exec answers a next state with the effect named, for: br, loop, brZ, brNz. -/
def Obligations.BranchResults : Prop :=
  ∀ (i : Instr) (u : StId) (off : BitVec 11) (s : State), branchOf i = some (u, off) → s.canIssue u i = true →
    (s.st u).pc < 1024 →
    ∃ t, exec i s = .next t ∧ OnlyStitcher u s t ∧ CountsIssue u s t ∧
      ((t.st u).pc : Int) = (if taken (s.st u) i then ((s.st u).pc + off.toInt) % 1024 else ((s.st u).pc + 1) % 1024) ∧
      { (t.st u).issueOf (s.st u) with sreg := (s.st u).sreg } = s.st u ∧
      (∀ r, (t.st u).s r = match i with
        | .loop _ pg pn rs _ => if r = rs ∧ rs ≠ 0 ∧ ((s.st u).p pg).getLsbD 0 ≠ pn then (s.st u).s rs - 1 else (s.st u).s r
        | _ => (s.st u).s r)

/-- A load that may issue, from an aligned address in range whose bytes hold no error to report, completes: the
destination takes the bytes, extended as Table 6 says, s0 stays zero; every other register of the stitcher, every other
stitcher and every memory is unchanged.
States completion, that exec answers a next state with the effect named, for: ldB, ldH, ldW, ldBs, ldHs, vld. -/
def Obligations.LoadResults : Prop :=
  (∀ (i : Instr) (u : StId) (rd ra : SReg) (sp : Space) (imm : BitVec 12) (n : Nat) (ext : Nat → BitVec 32) (s : State),
    loadOf i = some (u, rd, ra, sp, imm, n, ext) → s.canIssue u i = true → loadable s u sp (memAddr (s.st u) ra imm n) n →
    ∃ t, exec i s = .next t ∧ MemoriesKept s t ∧ Advances u s t ∧ (∀ v, v ≠ u → t.st v = s.st v) ∧
      { (t.st u).issueOf (s.st u) with sreg := (s.st u).sreg } = s.st u ∧
      (∀ r, (t.st u).s r = if r = rd ∧ rd ≠ 0 then ext (spaceValue s u sp (memAddr (s.st u) ra imm n) n)
        else (s.st u).s r)) ∧
  (∀ (u : StId) (vd : VReg) (ra : SReg) (sp : Space) (imm : BitVec 12) (s : State),
    s.canIssue u (.vld u vd ra sp imm) = true → loadable s u sp (memAddr (s.st u) ra imm 64) 64 →
    ∃ t, exec (.vld u vd ra sp imm) s = .next t ∧ MemoriesKept s t ∧ Advances u s t ∧ (∀ v, v ≠ u → t.st v = s.st v) ∧
      { (t.st u).issueOf (s.st u) with vreg := (s.st u).vreg } = s.st u ∧
      (t.st u).v vd = BitVec.ofNat 512 (spaceValue s u sp (memAddr (s.st u) ra imm 64) 64) ∧
      (∀ r, r ≠ vd → (t.st u).v r = (s.st u).v r))

/-- A store that may issue, to an aligned address in range and, where it is forwarded to a result slot, with room in the
outbound hold (03_presses.md R79), completes: byte k of the value stands at the address plus k,
every other byte of that space, the other space, every other leaf, every other stitcher and partition memory read as
before, and no register of the stitcher changes.
States completion, that exec answers a next state with the effect named, for: stB, stH, stW, vst. -/
def Obligations.StoreResults : Prop :=
  ∀ (i : Instr) (u : StId) (ra : SReg) (sp : Space) (imm : BitVec 12) (n : Nat) (val : Stitcher → Nat) (s : State),
    storeOf i = some (u, ra, sp, imm, n, val) → s.canIssue u i = true → loadable s u sp (memAddr (s.st u) ra imm n) n →
    (sp = .leaf → s.fwdFull u.quire (memAddr (s.st u) ra imm n) n = false) →
    ∃ t, exec i s = .next t ∧ Advances u s t ∧
      (∀ a, spaceByte t u sp a =
        if memAddr (s.st u) ra imm n ≤ a ∧ a < memAddr (s.st u) ra imm n + n then
          BitVec.ofNat 8 (val (s.st u) / 256 ^ (a - memAddr (s.st u) ra imm n))
        else spaceByte s u sp a) ∧
      t.mem = s.mem ∧ (∀ v, v ≠ u → t.st v = s.st v) ∧ (∀ q, q ≠ u.quire → (t.qu q).leaf = (s.qu q).leaf) ∧
      (sp = .pocket → (t.qu u.quire).leaf = (s.qu u.quire).leaf) ∧
      (sp = .leaf → (t.st u).pocket = (s.st u).pocket) ∧
      (∀ r, (t.st u).s r = (s.st u).s r) ∧ (∀ r, (t.st u).p r = (s.st u).p r) ∧ (∀ r, (t.st u).v r = (s.st u).v r)

/-- A vector shift that may issue completes: a governed lane whose amount is below the lane's width takes the shifted
lane, a lane that is not governed keeps its contents, and nothing else but the issue's counts and the model's counter of
free values changes. Of a lane whose amount is the width or more nothing is said (the spec states no result; the model's
free value, assumption log).

VSEL, VBCAST and VINS of a lane that exists complete with every lane of their destination as Table 6 says; VEXT of a
lane that exists completes with the lane in the low bits of its scalar, s0 excepted. Nothing else changes but the issue's
counts and the model's counter of free values.
States completion, that exec answers a next state with the effect named, for: vshl, vsra, vsel, vbcast, vext, vins. -/
def Obligations.VectorMoves : Prop :=
  (
    (∀ (u : StId) (vd va vb : VReg) (pg : PReg) (pn : Bool) (ty : IntTy) (s : State),
      s.canIssue u (.vshl u vd va vb pg pn ty) = true →
      ∃ t, exec (.vshl u vd va vb pg pn ty) s = .next t ∧ WroteVector u vd s { t with freeCount := s.freeCount } ∧
        ∀ k, k < ty.lane.lanes →
          ((((s.st u).p pg).getLsbD (ty.lane.bytes * k) = pn → lane ty.lane ((t.st u).v vd) k = lane ty.lane ((s.st u).v vd) k) ∧
           (((s.st u).p pg).getLsbD (ty.lane.bytes * k) ≠ pn → lane ty.lane ((s.st u).v vb) k < ty.lane.width →
            lane ty.lane ((t.st u).v vd) k =
              lane ty.lane ((s.st u).v va) k * 2 ^ lane ty.lane ((s.st u).v vb) k % 2 ^ ty.lane.width))) ∧
    (∀ (u : StId) (vd va vb : VReg) (pg : PReg) (pn : Bool) (ty : IntTy) (s : State),
      s.canIssue u (.vsra u vd va vb pg pn ty) = true →
      ∃ t, exec (.vsra u vd va vb pg pn ty) s = .next t ∧ WroteVector u vd s { t with freeCount := s.freeCount } ∧
        ∀ k, k < ty.lane.lanes →
          ((((s.st u).p pg).getLsbD (ty.lane.bytes * k) = pn → lane ty.lane ((t.st u).v vd) k = lane ty.lane ((s.st u).v vd) k) ∧
           (((s.st u).p pg).getLsbD (ty.lane.bytes * k) ≠ pn → lane ty.lane ((s.st u).v vb) k < ty.lane.width →
            intVal ty.lane.width (lane ty.lane ((t.st u).v vd) k) =
              intVal ty.lane.width (lane ty.lane ((s.st u).v va) k) / 2 ^ lane ty.lane ((s.st u).v vb) k)))) ∧
  (
    (∀ (u : StId) (vd va vb : VReg) (pg : PReg) (pn : Bool) (ty : LaneTy) (s : State),
      s.canIssue u (.vsel u vd va vb pg pn ty) = true →
      ∃ t, exec (.vsel u vd va vb pg pn ty) s = .next t ∧ WroteVector u vd s t ∧
        ∀ k, k < ty.lanes → lane ty ((t.st u).v vd) k =
          if ((s.st u).p pg).getLsbD (ty.bytes * k) != pn then lane ty ((s.st u).v va) k else lane ty ((s.st u).v vb) k) ∧
    (∀ (u : StId) (vd : VReg) (rs : SReg) (ty : LaneTy) (s : State), s.canIssue u (.vbcast u vd rs ty) = true →
      ∃ t, exec (.vbcast u vd rs ty) s = .next t ∧ WroteVector u vd s t ∧
        ∀ k, k < ty.lanes → lane ty ((t.st u).v vd) k = ((s.st u).s rs).toNat % 2 ^ ty.width) ∧
    (∀ (u : StId) (vd : VReg) (rs : SReg) (n : BitVec 6) (ty : LaneTy) (s : State), s.canIssue u (.vins u vd rs n ty) = true →
      n.toNat < ty.lanes →
      ∃ t, exec (.vins u vd rs n ty) s = .next t ∧ WroteVector u vd s t ∧
        ∀ k, k < ty.lanes → lane ty ((t.st u).v vd) k =
          if k = n.toNat then ((s.st u).s rs).toNat % 2 ^ ty.width else lane ty ((s.st u).v vd) k) ∧
    (∀ (u : StId) (va : VReg) (rs : SReg) (n : BitVec 6) (ty : LaneTy) (s : State), s.canIssue u (.vext u va rs n ty) = true →
      n.toNat < ty.lanes →
      ∃ t v, exec (.vext u va rs n ty) s = .next t ∧ WroteScalar u rs v s { t with freeCount := s.freeCount } ∧
        v.toNat % 2 ^ ty.width = lane ty ((s.st u).v va) n.toNat))

/-- A lanewise conversion that may issue, with a part that names a source lane, completes (04_stitchers.md R103,
02_number_formats.md R56 to R59): each governed target lane is its source converted with its own draw, each other lane of
the conversion keeps its contents, every bit above the converted lanes is zero, and the generator has drawn once for each
governed lane in stochastic mode and not at all in another.

CVT.BLK, CVT.UNBLK and CVT.S that may issue complete (04_stitchers.md R103, 02_number_formats.md R49 to R51, R56 to
R59): a block's elements are quantised under its scale, which is byte 63, with zeros between; an expanded block's elements
fill one register, or two for FP32; each element draws once in stochastic mode.
States completion, that exec answers a next state with the effect named, for: cvt, cvtBlk, cvtUnblk, cvtS. -/
def Obligations.FormatConversions : Prop :=
  (
    ∀ (u : StId) (vd va : VReg) (tf ff : CvtFmt) (rm : Rm) (spc : Bool) (pg : PReg) (part : BitVec 2) (s : State),
      s.canIssue u (.cvt u vd va tf ff rm spc pg part) = true →
      ∃ t, exec (.cvt u vd va tf ff rm spc pg part) s = .next t ∧ Advances u s t ∧ MemoriesKept s t ∧
        let tw := fmtBits (cvtCode tf)
        let fw := fmtBits (cvtCode ff)
        let n := 512 / max tw fw
        let on := fun i => ((s.st u).p pg).getLsbD (tw * i / 8)
        (∀ i k, i < n → cvtSource tw fw part i = some k → laneAt ((t.st u).v vd) tw i =
          if on i then fmtConvert (cvtCode tf) (rmOf rm) ((drawnAt rm (s.st u).lfsr on (i + 1)).toNat % 2 ^ 16) spc
            (fmtValue (cvtCode ff) (laneAt ((s.st u).v va) fw k)) % 2 ^ tw
          else laneAt ((s.st u).v vd) tw i) ∧
        ((t.st u).v vd).toNat / 2 ^ (tw * n) = 0 ∧
        (t.st u).lfsr = drawnAt rm (s.st u).lfsr on n ∧
        (∀ r, r ≠ vd → (t.st u).v r = (s.st u).v r) ∧ (∀ r, (t.st u).s r = (s.st u).s r) ∧
        (∀ r, (t.st u).p r = (s.st u).p r) ∧ (∀ v, v ≠ u → t.st v = s.st v)) ∧
  (
    (∀ (u : StId) (vd va : VReg) (tf : BlkFmt) (ff : BlkSrc) (rm : Rm) (s : State),
      s.canIssue u (.cvtBlk u vd va tf ff rm) = true →
      ∃ t, exec (.cvtBlk u vd va tf ff rm) s = .next t ∧ Advances u s t ∧ MemoriesKept s t ∧
        let w := fmtBits (blkCode tf)
        let xs := blkValues (s.st u) va ff
        (∀ i x, xs[i]? = some x → laneAt ((t.st u).v vd) w i =
          blockElem (blkCode tf) (blockScale (blkCode tf) xs) (rmOf rm)
            ((drawnAt rm (s.st u).lfsr (fun _ => true) (i + 1)).toNat % 2 ^ 16) x % 2 ^ w) ∧
        laneAt ((t.st u).v vd) 8 63 = blockScale (blkCode tf) xs % 256 ∧
        (∀ i, 4 * w ≤ i → i < 63 → laneAt ((t.st u).v vd) 8 i = 0) ∧
        (t.st u).lfsr = drawnAt rm (s.st u).lfsr (fun _ => true) 32 ∧
        (∀ r, r ≠ vd → (t.st u).v r = (s.st u).v r) ∧ (∀ r, (t.st u).s r = (s.st u).s r)) ∧
    (∀ (u : StId) (vd va : VReg) (tf : UnblkDst) (ff : BlkFmt) (rm : Rm) (s : State),
      s.canIssue u (.cvtUnblk u vd va tf ff rm) = true →
      ∃ t, exec (.cvtUnblk u vd va tf ff rm) s = .next t ∧ Advances u s t ∧ MemoriesKept s t ∧
        (∀ i, i < 32 →
          (if tf = .fp32 then laneAt ((t.st u).v (if i < 16 then vd else vd + 1)) 32 (i % 16)
            else laneAt ((t.st u).v vd) 16 i) =
          fmtConvert (unblkCode tf) (rmOf rm) ((drawnAt rm (s.st u).lfsr (fun _ => true) (i + 1)).toNat % 2 ^ 16) false
            (blockValue (blkCode ff) (laneAt ((s.st u).v va) 8 63) (laneAt ((s.st u).v va) (fmtBits (blkCode ff)) i)) %
            2 ^ fmtBits (unblkCode tf)) ∧
        (t.st u).lfsr = drawnAt rm (s.st u).lfsr (fun _ => true) 32 ∧
        (∀ r, r ≠ vd → (tf ≠ .fp32 ∨ r ≠ vd + 1) → (t.st u).v r = (s.st u).v r) ∧ (∀ r, (t.st u).s r = (s.st u).s r)) ∧
    (∀ (u : StId) (rd ra : SReg) (tf ff : ScalFmt) (rm : Rm) (s : State), s.canIssue u (.cvtS u rd ra tf ff rm) = true →
      ∃ t, exec (.cvtS u rd ra tf ff rm) s = .next t ∧ Advances u s t ∧ MemoriesKept s t ∧
        (∀ r, (t.st u).s r = if r = rd ∧ rd ≠ 0 then
          BitVec.ofNat 32 (fmtConvert (scalCode tf) (rmOf rm) ((drawnAt rm (s.st u).lfsr (fun _ => true) 1).toNat % 2 ^ 16)
            false (fmtValue (scalCode ff) (((s.st u).s ra).toNat % 2 ^ fmtBits (scalCode ff))))
          else (s.st u).s r) ∧
        (t.st u).lfsr = drawnAt rm (s.st u).lfsr (fun _ => true) 1 ∧ (∀ r, (t.st u).v r = (s.st u).v r)))

/-- A lanewise instruction that may issue completes: each governed lane takes its value, cut to the lane, each other lane
keeps its contents (R89, Table 4), and nothing else of the block changes but what every issue counts: the lane of w bytes
with number i is governed by bit w * i.

A vector compare that may issue completes: every bit of a governed lane's bytes is that lane's result, every other bit
of the destination keeps its value, p0 stays all ones, and nothing else changes but what every issue counts (R89).

A scalar compare that may issue writes all 64 bits of its destination with its result, p0 excepted. A branch that may
issue tests bit 0 of its guard: where it does not hold the next instruction is the next word; where it holds, BR goes to
its target.
States completion, that exec answers a next state with the effect named, for: br, vadd, vsub, vmul, vfma, vmin, vmax, vabs,
vneg, vand, vor, vxor, vcmpEq, vcmpLt, vcmpLe, vsum, vmaxi, vshuf, vmov, vexp, vrcp, vrsqrt. -/
def Obligations.PredicatesGovernLanes : Prop :=
  (
    ∀ (i : Instr) (u : StId) (vd : VReg) (pg : PReg) (pn : Bool) (ty : LaneTy) (f : Stitcher → Nat → Nat) (s : State),
      laneValue i = some (u, vd, pg, pn, ty, f) → s.canIssue u i = true →
      ∃ t, exec i s = .next t ∧ WroteVector u vd s t ∧
        ∀ k, k < ty.lanes → lane ty ((t.st u).v vd) k =
          if ((s.st u).p pg).getLsbD (ty.bytes * k) != pn then f (s.st u) k % 2 ^ ty.width else lane ty ((s.st u).v vd) k) ∧
  (
    ∀ (i : Instr) (u : StId) (pd pg : PReg) (pn : Bool) (ty : LaneTy) (f : Stitcher → Nat → Bool) (s : State),
      vectorCompare i = some (u, pd, pg, pn, ty, f) → s.canIssue u i = true →
      ∃ t v, exec i s = .next t ∧ WrotePredicate u pd v s t ∧
        ∀ k j, k < ty.lanes → j < ty.bytes → v.getLsbD (ty.bytes * k + j) =
          if ((s.st u).p pg).getLsbD (ty.bytes * k) != pn then f (s.st u) k else ((s.st u).p pd).getLsbD (ty.bytes * k + j)) ∧
  (
    (∀ (i : Instr) (u : StId) (pd : PReg) (f : Stitcher → BitVec 64) (s : State),
      predicateValue i = some (u, pd, f) → scalarCompare i = true → s.canIssue u i = true →
      ∃ t, exec i s = .next t ∧
        ∀ k, k < 64 → ((t.st u).p pd).getLsbD k = (decide (pd = 0) || (f (s.st u)).getLsbD 0)) ∧
    (∀ (i : Instr) (u : StId) (pg : PReg) (pn : Bool) (s : State), guardOf i = some (u, pg, pn) → s.canIssue u i = true →
      ((s.st u).p pg).getLsbD 0 = pn → ∃ t, exec i s = .next t ∧ (t.st u).pc = ((s.st u).pc + 1) % 1024) ∧
    (∀ (u : StId) (pg : PReg) (pn : Bool) (off : BitVec 11) (s : State), s.canIssue u (.br u pg pn off) = true →
      (s.st u).pc < 1024 → ((s.st u).p pg).getLsbD 0 ≠ pn →
      ∃ t, exec (.br u pg pn off) s = .next t ∧ ((t.st u).pc : Int) = ((s.st u).pc + off.toInt) % 1024))

/-- A send of one word that may issue completes (R106). On an entry that is valid for it and holds credit for it: status 0,
one credit less, and where the message leaves the quire's hold alone one more message in flight from this stitcher over
this entry. Without credit a TRY form ends with status 1 and sends nothing. On an entry of a fenced span: status 2, nothing
sent, the abort counted. On an entry that is not valid for it: status 3, nothing sent.

A send of a message that may issue, from an aligned range without error, completes (R106, R114): with credit its
status is 0 and its bytes go as one message over its entry; without credit a TRY form ends with status 1 and nothing
sent.
States completion, that exec answers a next state with the effect named, for: send, sendCtl, trySend, trySendCtl, msendP,
msendL, tryMsendP, tryMsendL. -/
def Obligations.ChannelSends : Prop :=
  (
    ∀ (i : Instr) (u : StId) (rx rt rs : SReg) (ch : BitVec 8) (ctl try_ : Bool) (s : State),
      wordSend i = some (u, rx, rt, rs, ch, ctl, try_) → s.canIssue u i = true →
      let m := wordOf (s.st u) rx rt ctl
      let e := ch.toNat
      (s.sendStatus u e m = 0 → s.sendBlocked u.quire e m = false →
        ∃ t, exec i s = .next t ∧ Advances u s t ∧ MemoriesKept s t ∧
          (∀ r, (t.st u).s r = if r = rs ∧ rs ≠ 0 then 0 else (s.st u).s r) ∧
          ((s.qu u.quire).discarding = false → (s.qu u.quire).behindFail = none →
            t.f (eb u.quire e) F.CH_ROUTE_D_held = s.f (eb u.quire e) F.CH_ROUTE_D_held - 1) ∧
          ((s.qu u.quire).discarding = false → (s.qu u.quire).behindFail = none → (s.qu u.quire).behind = false →
            ∃ f, t.flights = s.flights ++ [f] ∧ f.src = u.quire ∧ f.entry = e ∧ f.sender = u.st.val ∧
              f.dst = s.entryQuire u.quire e)) ∧
      (s.sendStatus u e m = 0 → s.sendBlocked u.quire e m = true → try_ = true →
        ∃ t, exec i s = .next t ∧ WroteScalar u rs 1 s t) ∧
      (s.sendStatus u e m = 2 →
        ∃ t, exec i s = .next t ∧ Advances u s t ∧ MemoriesKept s t ∧ t.flights = s.flights ∧
          (∀ r, (t.st u).s r = if r = rs ∧ rs ≠ 0 then 2 else (s.st u).s r) ∧
          t.f (qb u.quire) F.CH_STAT_aborted = min 65535 (s.f (qb u.quire) F.CH_STAT_aborted + 1)) ∧
      (s.sendStatus u e m = 3 →
        ∃ t, exec i s = .next t ∧ Advances u s t ∧ MemoriesKept s t ∧ t.flights = s.flights ∧
          (∀ r, (t.st u).s r = if r = rs ∧ rs ≠ 0 then 3 else (s.st u).s r) ∧
          ((s.part (partOf u.quire)).frameOpen = true → (t.part (partOf u.quire)).failed = true))) ∧
  (
    ∀ (i : Instr) (u : StId) (rx rt rs : SReg) (ch : BitVec 8) (sp : Space) (try_ : Bool) (s : State),
      messageSend i = some (u, rx, rt, rs, ch, sp, try_) → s.canIssue u i = true →
      let a := ((s.st u).s rx).toNat
      let n := ((s.st u).s rt).toNat
      let m := Payload.bytes sp a n
      let e := ch.toNat
      s.inRange u.quire sp a 64 n = true →
      readableAt s u sp a n →
      s.sendStatus u e m = 0 →
      (s.sendBlocked u.quire e m = false →
        ∃ t, exec i s = .next t ∧ Advances u s t ∧ MemoriesKept s t ∧
          (∀ r, (t.st u).s r = if r = rs ∧ rs ≠ 0 then 0 else (s.st u).s r) ∧
          ((s.qu u.quire).discarding = false → (s.qu u.quire).behindFail = none → (s.qu u.quire).behind = false →
            ∃ f, t.flights = s.flights ++ [f] ∧ f.src = u.quire ∧ f.entry = e ∧ f.sender = u.st.val ∧
              f.dst = s.entryQuire u.quire e)) ∧
      (s.sendBlocked u.quire e m = true → try_ = true → ∃ t, exec i s = .next t ∧ WroteScalar u rs 1 s t))

/-- QRECV and QRECV.TRY with a readable word complete (R144): the oldest word of the queue is taken and stands in
s(ra+1):s(ra), its credit starts back; QRECV.TRY on an empty queue completes with bit 0 of its predicate clear and takes
nothing. The ring write pointer (R146), after a release to the ring in the same cycle (R148), the credits of a channel and
each value of GETS (R109) go to their register; where no ring message is on its way nothing else changes.

RING.ADV by the ring's reader, of no more units than wait, completes, where no ring message is on its way to the quire
(a release in the same cycle comes first, R148): the read pointer advances by s(ra) modulo 2^32,
the units' credits start back, no memory and no scalar register changes (R148). By a stitcher that is not the reader it
completes with the pointer unchanged and the tick failed.

PRESS.GO, LEAF.FILL, LEAF.COPY and HINT that may issue, with an aligned readable descriptor and room in their queue,
complete (03_presses.md R63, 05_leaf_store.md R131, 07_catchword_paging.md R174): the descriptor's 64 bytes stand in the
queue they name with the stitcher that sent them, last where every other entered before, and no register of the stitcher and no memory changes; a HINT of no
entries has no effect but its issue.
States completion, that exec answers a next state with the effect named, for: qrecv, qrecvTry, ringAdv, ringWp, credits,
pressGo, hint, leafFill, leafCopy, gets. -/
def Obligations.Receives : Prop :=
  (
    (∀ (u : StId) (ra : SReg) (n : BitVec 2) (w : QWord) (l : List QWord) (s : State), s.canIssue u (.qrecv u ra n) = true →
      spGet [] (s.st u).queues n.toNat = w :: l →
      ∃ t, exec (.qrecv u ra n) s = .next t ∧ Advances u s t ∧ MemoriesKept s t ∧
        spGet [] (t.st u).queues n.toNat = l ∧ t.creditFlights.length = s.creditFlights.length + 1 ∧
        (∀ r, (t.st u).s r = if r = 0 then 0 else if r = ra + 1 then w.data.extractLsb' 32 32
          else if r = ra then w.data.extractLsb' 0 32 else (s.st u).s r)) ∧
    (∀ (u : StId) (ra : SReg) (pd : PReg) (n : BitVec 2) (s : State), s.canIssue u (.qrecvTry u ra pd n) = true →
      spGet [] (s.st u).queues n.toNat = [] →
      ∃ t, exec (.qrecvTry u ra pd n) s = .next t ∧ WrotePredicate u pd ((s.st u).p pd &&& ~~~ 1#64) s t) ∧
    (∀ (u : StId) (ra : SReg) (pd : PReg) (n : BitVec 2) (w : QWord) (l : List QWord) (s : State),
      s.canIssue u (.qrecvTry u ra pd n) = true → spGet [] (s.st u).queues n.toNat = w :: l →
      w.at_ ≤ (s.st u).nextAt →
      ∃ t, exec (.qrecvTry u ra pd n) s = .next t ∧ Advances u s t ∧ MemoriesKept s t ∧
        spGet [] (t.st u).queues n.toNat = l ∧ t.creditFlights.length = s.creditFlights.length + 1 ∧
        ((t.st u).p pd).getLsbD 0 = true) ∧
    (∀ (u : StId) (ra rb : SReg) (s : State), s.canIssue u (.ringWp u ra rb) = true → ((s.st u).s rb).toNat < 16 →
      ∃ t, exec (.ringWp u ra rb) s = .next t ∧
        (t.st u).s ra = if ra = 0 then 0 else t.rd (rb_ u.quire ((s.st u).s rb).toNat) R.CH_RING_WP) ∧
    (∀ (u : StId) (ra rb : SReg) (s : State), s.canIssue u (.ringWp u ra rb) = true → ((s.st u).s rb).toNat < 16 →
      noRing s u.quire →
      ∃ t, exec (.ringWp u ra rb) s = .next t ∧
        WroteScalar u ra (s.rd (rb_ u.quire ((s.st u).s rb).toNat) R.CH_RING_WP) s t) ∧
    (∀ (u : StId) (ra rb : SReg) (s : State), s.canIssue u (.credits u ra rb) = true →
      ∃ t, exec (.credits u ra rb) s = .next t ∧
        WroteScalar u ra (BitVec.ofNat 32 (s.f (eb u.quire (((s.st u).s rb).toNat % 256)) F.CH_ROUTE_D_held)) s t) ∧
    (∀ (u : StId) (ra : SReg) (sel : BitVec 5) (s : State), s.canIssue u (.gets u ra sel) = true →
      ∃ t v, exec (.gets u ra sel) s = .next t ∧ WroteScalar u ra v s t ∧
        (sel.toNat = 0 → v.toNat = u.st.val) ∧ (sel.toNat = 1 → v.toNat = u.quire.val % 8) ∧
        (sel.toNat = 2 → v.toNat = u.quire.val / 8) ∧ (sel.toNat = 5 → v.toNat = s.f (qb u.quire) F.CH_EPOCH_epoch) ∧
        (sel.toNat = 10 → v = (s.st u).lfsr) ∧ (10 < sel.toNat → v = 0))) ∧
  (
    ∀ (u : StId) (ra rb : SReg) (s : State), s.canIssue u (.ringAdv u ra rb) = true →
      let n := ((s.st u).s ra).toNat
      let b := rb_ u.quire ((s.st u).s rb).toNat
      ((s.st u).s rb).toNat < 16 → noRing s u.quire →
      (s.f b F.CH_RING_CFG_valid = 1 → s.f b F.CH_RING_CFG_reader = u.st.val →
        n ≤ (s.f b F.CH_RING_WP_wp + 2 ^ 32 - s.f b F.CH_RING_RP_rp) % 2 ^ 32 →
        ∃ t, exec (.ringAdv u ra rb) s = .next t ∧ Advances u s t ∧ MemoriesKept s t ∧
          t.f b F.CH_RING_RP_rp = (s.f b F.CH_RING_RP_rp + n) % 2 ^ 32 ∧
          t.f b F.CH_RING_WP_wp = s.f b F.CH_RING_WP_wp ∧
          t.creditFlights.length = s.creditFlights.length + (if n = 0 then 0 else 1) ∧
          (∀ r, (t.st u).s r = (s.st u).s r) ∧ t.parts = s.parts) ∧
      (s.f b F.CH_RING_CFG_reader ≠ u.st.val →
        ∃ t, exec (.ringAdv u ra rb) s = .next t ∧ Advances u s t ∧ MemoriesKept s t ∧
          t.f b F.CH_RING_RP_rp = s.f b F.CH_RING_RP_rp ∧ t.creditFlights = s.creditFlights ∧
          ((s.part (partOf u.quire)).frameOpen = true → (t.part (partOf u.quire)).failed = true))) ∧
  (
    (∀ (u : StId) (ra : SReg) (x : PressId) (sp : Space) (s : State), s.canIssue u (.pressGo u ra x sp) = true →
      let a := ((s.st u).s ra).toNat
      s.inRange u.quire sp a 64 64 = true → (s.press u.quire x).places < 4 →
      readableAt s u sp a 64 →
      ∃ t d, exec (.pressGo u ra x sp) s = .next t ∧ Advances u s t ∧ MemoriesKept s t ∧
        d ∈ (t.press u.quire x).queue ∧ (t.press u.quire x).queue.length = (s.press u.quire x).queue.length + 1 ∧
        ((∀ o ∈ (s.press u.quire x).queue, o.enterAt < d.enterAt) →
          (t.press u.quire x).queue = (s.press u.quire x).queue ++ [d]) ∧
        (s.st u).nextAt < d.enterAt ∧ (t.press u.quire x).run = (s.press u.quire x).run ∧
        d.bytes = (match sp with
          | .pocket => memRead (s.st u).pocket a 64
          | .leaf => memRead (s.qu u.quire).leaf a 64) ∧
        d.addr = a ∧ d.sender = u.st.val ∧ t.press u.quire (!x) = s.press u.quire (!x) ∧
        (∀ r, (t.st u).s r = (s.st u).s r)) ∧
    (∀ (u : StId) (ra : SReg) (s : State), s.canIssue u (.leafFill u ra) = true →
      let a := ((s.st u).s ra).toNat
      s.inRange u.quire .pocket a 64 64 = true → (s.qu u.quire).ops.length < 4 → readablePocket (s.st u) a 64 →
      ∃ t o, exec (.leafFill u ra) s = .next t ∧ Advances u s t ∧ MemoriesKept s t ∧
        (t.qu u.quire).ops = (s.qu u.quire).ops ++ [o] ∧ o.bytes = memRead (s.st u).pocket a 64 ∧ o.op = 0 ∧
        o.sender = u.st.val ∧ (∀ r, (t.st u).s r = (s.st u).s r)) ∧
    (∀ (u : StId) (ra : SReg) (s : State), s.canIssue u (.leafCopy u ra) = true →
      let a := ((s.st u).s ra).toNat
      s.inRange u.quire .pocket a 64 64 = true → (s.qu u.quire).ops.length < 4 → readablePocket (s.st u) a 64 →
      ∃ t o, exec (.leafCopy u ra) s = .next t ∧ Advances u s t ∧ MemoriesKept s t ∧
        (t.qu u.quire).ops = (s.qu u.quire).ops ++ [o] ∧ o.bytes = memRead (s.st u).pocket a 64 ∧ o.op = 1 ∧
        o.sender = u.st.val ∧ (∀ r, (t.st u).s r = (s.st u).s r)) ∧
    (∀ (u : StId) (ra rb : SReg) (s : State), s.canIssue u (.hint u ra rb) = true → (s.st u).s rb = 0 →
      ∃ t, exec (.hint u ra rb) s = .next t ∧ OnlyStitcher u s t ∧ Advances u s t) ∧
    (∀ (u : StId) (ra rb : SReg) (s : State), s.canIssue u (.hint u ra rb) = true →
      let a := ((s.st u).s ra).toNat
      let n := ((s.st u).s rb).toNat
      1 ≤ n → n ≤ 64 → s.inRange u.quire .pocket a 64 (16 * n) = true → readablePocket (s.st u) a (16 * n) →
      s.hintQueue u.quire + n ≤ 512 → (s.qu u.quire).discarding = false →
      ∃ t l, exec (.hint u ra rb) s = .next t ∧ Advances u s t ∧ MemoriesKept s t ∧
        (t.part (partOf u.quire)).hints = (s.part (partOf u.quire)).hints ++ l ∧ l.length = n ∧
        (∀ (k : Nat) (h : Hint), l[k]? = some h → h.owner = u.quire ∧ h.sender = u.st.val ∧ h.index = k ∧
          h.word = leNat (memRead (s.st u).pocket (a + 16 * k) 8))))

/-- COLL.GEN puts the CRC-32C of the block into its scalar; COLL.CHK completes with bit 0 of its predicate telling whether
the block's CRC-32C is s(rc), the other bits kept; a mismatch is recorded as EV_COLL_STITCH with the address, the length and
both codes, and fails the open tick (R107, 10_collation_and_checking.md R268). The firing goes on either way, and no memory
changes.
States completion, that exec answers a next state with the effect named, for: collChk, collGen. -/
def Obligations.CollationCodes : Prop :=
  (∀ (u : StId) (ra rb rc : SReg) (sp : Space) (s : State), s.canIssue u (.collGen u ra rb rc sp) = true →
    let a := ((s.st u).s ra).toNat
    let n := ((s.st u).s rb).toNat
    s.inRange u.quire sp a 64 n = true →
    readableAt s u sp a n →
    ∃ t, exec (.collGen u ra rb rc sp) s = .next t ∧ Advances u s t ∧ MemoriesKept s t ∧
      (∀ r, (t.st u).s r = if r = rc ∧ rc ≠ 0 then crc32c (match sp with
        | .pocket => memRead (s.st u).pocket a n
        | .leaf => memRead (s.qu u.quire).leaf a n) else (s.st u).s r)) ∧
  (∀ (u : StId) (ra rb rc : SReg) (pd : PReg) (sp : Space) (s : State), s.canIssue u (.collChk u ra rb rc pd sp) = true →
    let a := ((s.st u).s ra).toNat
    let n := ((s.st u).s rb).toNat
    s.inRange u.quire sp a 64 n = true →
    readableAt s u sp a n →
    let ok := decide (crc32c (match sp with
        | .pocket => memRead (s.st u).pocket a n
        | .leaf => memRead (s.qu u.quire).leaf a n) = (s.st u).s rc)
    ∃ t, exec (.collChk u ra rb rc pd sp) s = .next t ∧ Advances u s t ∧ MemoriesKept s t ∧
      (∀ r, (t.st u).s r = (s.st u).s r) ∧
      (∀ k, ((t.st u).p pd).getLsbD k = if pd = 0 then decide (k < 64) else if k = 0 then ok else ((s.st u).p pd).getLsbD k) ∧
      (t.st u).firing = (s.st u).firing ∧
      (ok = false → (s.part (partOf u.quire)).frameOpen = true → (t.part (partOf u.quire)).failed = true) ∧
      (ok = false → (s.src (.quire u.quire)).queue.length < 7 →
        ∃ e, (t.src (.quire u.quire)).last = some e ∧ e.code = Ev.COLL_STITCH ∧
          (e.rep = 0 → e.snap.take 5 = [u.st.val, a, n % 2 ^ 32, ((s.st u).s rc).toNat, (crc32c (match sp with
            | .pocket => memRead (s.st u).pocket a n
            | .leaf => memRead (s.qu u.quire).leaf a n)).toNat])) ∧
      (ok = true → t.parts = s.parts))

/-- NOP and FENCE that may issue complete with no effect but their issue; END ends the firing and nothing else of the
stitcher's registers or of any memory changes (R95).

TICKDONE that may issue, with no other stitcher of the quire in a firing and both presses empty, ends the firing; the
first of a tick ends the quire's tick at its position, with the ledger's run cycle and mismatch flag as the contract says
(R108, 01_the_tick.md R15, R29, R31), where it comes by the deadline; after the deadline the quire overruns, and under
FAIL it is flushed (R24); one more in the same tick counts a mismatch and leaves the quire as it is but for
when its last firing ended. No memory changes.
States completion, that exec answers a next state with the effect named, for: nop, endF, tickdone, fence. -/
def Obligations.EndsOfWork : Prop :=
  (
    (∀ (u : StId) (s : State), s.canIssue u (.nop u) = true →
      ∃ t, exec (.nop u) s = .next t ∧ OnlyStitcher u s t ∧ CountsIssue u s t ∧ Advances u s t ∧
        (t.st u).issueOf (s.st u) = s.st u) ∧
    (∀ (u : StId) (s : State), s.canIssue u (.fence u) = true →
      ∃ t, exec (.fence u) s = .next t ∧ OnlyStitcher u s t ∧ CountsIssue u s t ∧ Advances u s t ∧
        (t.st u).issueOf (s.st u) = s.st u ∧ (s.st u).acceptedAt + 1 ≤ (t.st u).nextAt) ∧
    (∀ (u : StId) (s : State), s.canIssue u (.endF u) = true →
      ∃ t, exec (.endF u) s = .next t ∧ MemoriesKept s t ∧ CountsIssue u s t ∧ Advances u s t ∧
        (t.st u).firing = none ∧ (∀ v, v ≠ u → t.st v = s.st v) ∧
        { (t.st u).issueOf (s.st u) with firing := (s.st u).firing } = s.st u ∧
        { t with quires := s.quires }.butStitchers = s.butStitchers)) ∧
  (
    ∀ (u : StId) (s : State), s.canIssue u (.tickdone u) = true → s.quireQuiet u = true →
      let run := (s.qu u.quire).runAt (tickdoneAt s u)
      ((s.qu u.quire).done = false → ((s.qu u.quire).overrun = true ∨ run ≤ s.deadlineOf u.quire) →
        ∃ t, exec (.tickdone u) s = .next t ∧ MemoriesKept s t ∧ (t.st u).firing = none ∧
          (t.qu u.quire).done = true ∧ (t.qu u.quire).open_ = false ∧ (t.qu u.quire).discarding = false ∧
          (∀ i, (t.st ⟨u.quire, i⟩).store = []) ∧
          t.f (qb u.quire) F.TK_LG_RUN_run = min (2 ^ 32 - 1) run ∧
            (t.qu u.quire).doneAt = (s.qu u.quire).start + run - 1 + 14 ∧
            t.f (qb u.quire) F.TK_LG_TICK_mismatch =
              (if run = s.f (qb u.quire) F.TK_LG_EXPECT_reported_run + (s.qu u.quire).slip + (s.qu u.quire).latePage
                then 0 else 1)) ∧
      ((s.qu u.quire).done = false → (s.qu u.quire).overrun = false → s.deadlineOf u.quire < run →
        (s.qu u.quire).open_ = true →
        ∃ t, exec (.tickdone u) s = .next t ∧ (t.st u).firing = none ∧ (t.qu u.quire).done = true ∧
          (t.part (partOf u.quire)).overMask / 2 ^ localOf u.quire % 2 = 1 ∧
          t.f (qb u.quire) F.TK_LG_TICK_overrun = 1 ∧
          (s.f (pt (partOf u.quire)) F.TK_CTRL_policy = 0 →
            t.f (qb u.quire) F.TK_LG_RUN_run = min (2 ^ 32 - 1) (s.deadlineOf u.quire) ∧ (t.qu u.quire).doneAt = 0 ∧
            (∀ i, (t.st ⟨u.quire, i⟩).inReset = true)) ∧
          (s.f (pt (partOf u.quire)) F.TK_CTRL_policy = 1 →
            t.f (qb u.quire) F.TK_LG_RUN_run = min (2 ^ 32 - 1) run)) ∧
      ((s.qu u.quire).done = true →
        ∃ t, exec (.tickdone u) s = .next t ∧ MemoriesKept s t ∧ (t.st u).firing = none ∧
          (t.qu u.quire).done = true ∧ (t.qu u.quire).doneAt = (s.qu u.quire).doneAt ∧
          t.f (qb u.quire) F.TK_LG_MISMATCH_mismatches =
            min (2 ^ 32 - 1) (s.f (qb u.quire) F.TK_LG_MISMATCH_mismatches + 1)))

/-- The errors of program memory and pocket memory (R113): an instruction whose program word has a single-bit error
completes as without it, in the same cycles, and the correction is counted; a double-bit error is a firing fault with
cause 2. A load or a collation code whose pocket words have single-bit errors completes as without them, in the same
cycles, and each corrected word is counted; an instruction that reads a pocket word with a double-bit error is a firing
fault with cause 2.

Where else an instruction traps instead of its own effect (R95, R114): a 257th instruction of a firing faults with cause 4,
and a load or a store at an address that is misaligned or outside its space with cause 5. -/
def Obligations.FiringFaults : Prop :=
  (∀ (i : Instr) (u : StId) (rd : SReg) (f : Stitcher → BitVec 32) (s : State), scalarValue i = some (u, rd, f) →
    s.canIssue u i = true → (s.st u).progErr (s.st u).pc = 1 →
    ∃ t, exec i s = .next t ∧ WroteScalar u rd (f (s.st u)) s t ∧ CorrectedInTime u 1 i s t) ∧
  (∀ (i : Instr) (u : StId) (rd : SReg) (f : Stitcher → BitVec 32) (s : State), scalarValue i = some (u, rd, f) →
    s.mayIssue u i = true → s.f (sb u) F.ST_PC_count < 256 → (s.st u).progErr (s.st u).pc = 2 →
    ∃ t, exec i s = .next t ∧ Faulted u 2 s t) ∧
  (∀ (i : Instr) (u : StId) (a n : Nat) (s : State), pocketRead s i = some (u, a, n) → s.canIssue u i = true →
    (s.st u).progErr (s.st u).pc = 0 → s.inRange u.quire .pocket a (pocketAlign i) n = true →
    readablePocket (s.st u) a n →
    ∃ t, exec i s = .next t ∧ CorrectedInTime u (((s.st u).pocketMarks a n).count 1) i s t) ∧
  (∀ (i : Instr) (u : StId) (a n : Nat) (s : State), pocketRead s i = some (u, a, n) → s.canIssue u i = true →
    s.inRange u.quire .pocket a (pocketAlign i) n = true → ¬ readablePocket (s.st u) a n →
    ∃ t, exec i s = .next t ∧ Faulted u 2 s t) ∧
  (∀ (u : StId) (s : State), s.mayIssue u (.nop u) = true → 256 ≤ s.f (sb u) F.ST_PC_count →
    ∃ t, exec (.nop u) s = .next t ∧ Faulted u 4 s t) ∧
  (∀ (i : Instr) (u : StId) (rd ra : SReg) (sp : Space) (imm : BitVec 12) (n : Nat) (ext : Nat → BitVec 32) (s : State),
    loadOf i = some (u, rd, ra, sp, imm, n, ext) → s.canIssue u i = true →
    s.inRange u.quire sp (memAddr (s.st u) ra imm n) n n = false →
    ∃ t, exec i s = .next t ∧ Faulted u 5 s t) ∧
  (∀ (i : Instr) (u : StId) (ra : SReg) (sp : Space) (imm : BitVec 12) (n : Nat) (val : Stitcher → Nat) (s : State),
    storeOf i = some (u, ra, sp, imm, n, val) → s.canIssue u i = true →
    s.inRange u.quire sp (memAddr (s.st u) ra imm n) n n = false →
    ∃ t, exec i s = .next t ∧ Faulted u 5 s t)

/-- Of every well-formed instruction, decoding its word at its stitcher gives it back, with every operand at every value
(R100 to R103). -/
def Obligations.DecodeOfEncode : Prop :=
  ∀ (i : Instr) (w : Word), i.wf = true → encode i = some w → ∃ u, decodeWord u w = some i

/-- A word that decodes is the word of its instruction: no bit of it is dropped (R100). -/
def Obligations.EncodeOfDecode : Prop :=
  ∀ (u : StId) (w : Word) (i : Instr), decodeWord u w = some i → encode i = some w ∧ i.wf = true

/-- A few words spell the instructions that the encodings of 04_stitchers.md (R100, Tables 4 to 6) give them. -/
def Obligations.EncodedWords : Prop :=
  ∀ u : StId,
    decodeWord u 0x04220800#32 = some (.add u 1 2 1) ∧
    decodeWord u 0x0861FFFF#32 = some (.addi u 3 1 0xFFFF) ∧
    decodeWord u 0x78200000#32 = some (.endF u) ∧
    decodeWord u 0x00000000#32 = none ∧
    decodeWord u 0xFFFFFFFF#32 = none

/-! ## The tick (01_the_tick.md) -/

/-- TK_CTRL written where the gate lets the write pass (R17, R18, R27): a start that nothing refuses runs the generator from
the next cycle's grid, a refused one leaves it stopped and is recorded; a stop with no frame open stops it, with a frame
open after the frame, until a start takes it back; a hold and its release show in TK_CTRL.hold, and in TK_STATUS.held where
no frame is open; a running partition whose check fails at the release stays held and records it. No memory and no other
partition changes.
States completion, that exec answers a next state with the effect named, for: tickRunStart, tickRunStop, tickHold,
tickHoldRelease. -/
def Obligations.TickControl : Prop :=
  (∀ (w : Writer) (p : PartId) (s : State), s.gateOf w (pt p + R.TK_CTRL.off) = .pass → s.running p = false →
    s.startRefused p = none →
    ∃ t, exec (.tickRunStart w p) s = .next t ∧ t.f (pt p) F.TK_STATUS_running = 1 ∧ t.f (pt p) F.TK_CTRL_run = 1 ∧
      (t.part p).gridAt = (s.part p).cyc + 1 ∧ MemoriesKept s t ∧ OthersKept p s t) ∧
  (∀ (w : Writer) (p : PartId) (c : Nat) (s : State), s.gateOf w (pt p + R.TK_CTRL.off) = .pass → s.running p = false →
    s.startRefused p = some c →
    ∃ t, exec (.tickRunStart w p) s = .next t ∧ t.f (pt p) F.TK_STATUS_running = 0 ∧ t.f (pt p) F.TK_CTRL_run = 0 ∧
      MemoriesKept s t ∧ t.parts = s.parts) ∧
  (∀ (w : Writer) (p : PartId) (s : State), s.gateOf w (pt p + R.TK_CTRL.off) = .pass → (s.part p).frameOpen = false →
    ∃ t, exec (.tickRunStop w p) s = .next t ∧ t.f (pt p) F.TK_STATUS_running = 0 ∧ t.f (pt p) F.TK_CTRL_run = 0 ∧
      MemoriesKept s t ∧ t.parts = s.parts) ∧
  (∀ (w : Writer) (p : PartId) (s : State), s.gateOf w (pt p + R.TK_CTRL.off) = .pass → (s.part p).frameOpen = true →
    ∃ t, exec (.tickRunStop w p) s = .next t ∧ t.f (pt p) F.TK_STATUS_running = s.f (pt p) F.TK_STATUS_running ∧
      t.f (pt p) F.TK_CTRL_run = 0 ∧ t.part p = { s.part p with stopping := true } ∧ MemoriesKept s t ∧ OthersKept p s t) ∧
  (∀ (w : Writer) (p : PartId) (s : State), s.gateOf w (pt p + R.TK_CTRL.off) = .pass →
    ∃ t, exec (.tickHold w p) s = .next t ∧ t.f (pt p) F.TK_CTRL_hold = 1 ∧
      t.f (pt p) F.TK_STATUS_held = (if (s.part p).frameOpen then 0 else 1) ∧ MemoriesKept s t ∧
      t.part p = { s.part p with spaceOnly := false } ∧ OthersKept p s t) ∧
  (∀ (w : Writer) (p : PartId) (s : State), s.gateOf w (pt p + R.TK_CTRL.off) = .pass → s.running p = true →
    (s.part p).stopping = true → s.startRefused p = none →
    ∃ t, exec (.tickRunStart w p) s = .next t ∧ t.f (pt p) F.TK_STATUS_running = 1 ∧ t.f (pt p) F.TK_CTRL_run = 1 ∧
      t.part p = { s.part p with stopping := false } ∧ MemoriesKept s t ∧ OthersKept p s t) ∧
  (∀ (w : Writer) (p : PartId) (s : State), s.gateOf w (pt p + R.TK_CTRL.off) = .pass → s.f (pt p) F.TK_CTRL_hold = 1 →
    s.running p = true → (s.badValue p = true ∨ s.badFrame p = true) →
    ∃ t, exec (.tickHoldRelease w p) s = .next t ∧ t.f (pt p) F.TK_CTRL_hold = 1 ∧ t.parts = s.parts ∧
      Recorded (.part p) Ev.TICK_CONFIG s t ∧ MemoriesKept s t) ∧
  (∀ (w : Writer) (p : PartId) (s : State), s.gateOf w (pt p + R.TK_CTRL.off) = .pass → s.f (pt p) F.TK_CTRL_hold = 1 →
    s.running p = false → (s.part p).pendStrike = false → (s.part p).pendEdge = false → (s.part p).gridLate = false →
    (s.part p).strikeDue = none →
    ∃ t, exec (.tickHoldRelease w p) s = .next t ∧ t.f (pt p) F.TK_CTRL_hold = 0 ∧
      t.f (pt p) F.TK_STATUS_held = (if (s.part p).holds = [] ∨ (s.part p).frameOpen = true then 0 else 1) ∧
      MemoriesKept s t ∧ OthersKept p s t)

/-- A strike by TK_STRIKE or by a doorbell's cycle (R19): in STRUCK mode, where a stroke may issue and its spacing allows
it, a stroke two cycles later, the same for every strike of the cycle; where it may not issue, one pending strike; with one
pending, one more merged strike and nothing else; in another mode nothing.

The other ways to a stroke (R19 to R21): a grid point that is due strokes where a stroke may issue, is deferred where it
may not, and is skipped while one is deferred; what is pending strokes in the first cycle that allows it, late for an edge
or a deferred grid point; an edge of TICK_IN is counted, moves the level, and is latched by a running partition in EXTERNAL
mode that waits for its direction and may not stroke.
States completion, that exec answers a next state with the effect named, for: tkStrikeWrite, timedGridPoint,
pendingStrikeStroke, tickInEdge. -/
def Obligations.StrikesAndStrokes : Prop :=
  (
    (∀ (w : Writer) (p : PartId) (s : State), s.gateOf w (pt p + R.TK_STRIKE.off) = .pass → s.mode p = 1 →
      (s.part p).pendStrike = false → (s.part p).strikeDue = none → s.mayStroke p = true →
      s.spacedAt p ≤ (s.part p).cyc + 2 →
      ∃ t, exec (.tkStrikeWrite w p) s = .next t ∧
        t.part p = { s.part p with strikeDue := some ((s.part p).cyc + 2) } ∧ OthersKept p s t ∧
        { t with parts := s.parts } = s) ∧
    (∀ (w : Writer) (p : PartId) (s : State), s.gateOf w (pt p + R.TK_STRIKE.off) = .pass →
      (s.part p).pendStrike = false → (s.part p).strikeDue = some ((s.part p).cyc + 2) →
      exec (.tkStrikeWrite w p) s = .next s) ∧
    (∀ (p : PartId) (c : Nat) (s : State), (s.part p).strikeDue = some c → (s.part p).cyc ≤ c → clocked s p →
      s.mayStroke p = true →
      ∃ t, exec (.pendingStrikeStroke p) s = .next t ∧ Stroked p c s t ∧ (t.part p).strikeDue = none ∧ t.mem = s.mem) ∧
    (∀ (w : Writer) (p : PartId) (s : State), s.gateOf w (pt p + R.TK_STRIKE.off) = .pass → s.mode p = 1 →
      s.running p = true → (s.part p).pendStrike = false → (s.part p).strikeDue = none → s.holdIn p = true →
      ∃ t, exec (.tkStrikeWrite w p) s = .next t ∧ (t.part p).pendStrike = true ∧ t.f (pt p) F.TK_STATUS_pending = 1 ∧
        (t.part p).frameOpen = (s.part p).frameOpen ∧ MemoriesKept s t ∧ OthersKept p s t) ∧
    (∀ (w : Writer) (p : PartId) (s : State), s.gateOf w (pt p + R.TK_STRIKE.off) = .pass → s.mode p = 1 →
      s.running p = true → (s.part p).pendStrike = true →
      ∃ t, exec (.tkStrikeWrite w p) s = .next t ∧
        t.f (pt p) F.TK_STRIKE_STATS_merged = min 65535 (s.f (pt p) F.TK_STRIKE_STATS_merged + 1) ∧
        { t with regs := s.regs } = s) ∧
    (∀ (w : Writer) (p : PartId) (s : State), s.gateOf w (pt p + R.TK_STRIKE.off) = .pass → s.mode p ≠ 1 →
      exec (.tkStrikeWrite w p) s = .next s)) ∧
  (
    (∀ (p : PartId) (s : State), s.mode p = 0 → s.running p = true → (s.part p).gridAt ≤ (s.part p).cyc →
      (s.part p).gridLate = false → s.mayStroke p = true → s.spacedAt p ≤ (s.part p).cyc →
      ∃ t, exec (.timedGridPoint p) s = .next t ∧ Stroked p (s.part p).cyc s t ∧
        (t.part p).gridAt = (s.part p).gridAt + s.periodOf p ∧ t.mem = s.mem) ∧
    (∀ (p : PartId) (s : State), s.mode p = 0 → s.running p = true → (s.part p).gridAt ≤ (s.part p).cyc →
      (s.part p).gridLate = false → s.holdIn p = true →
      ∃ t, exec (.timedGridPoint p) s = .next t ∧
        t.part p = { s.part p with gridAt := (s.part p).gridAt + s.periodOf p, gridLate := true } ∧ OthersKept p s t ∧
        MemoriesKept s t) ∧
    (∀ (p : PartId) (s : State), s.mode p = 0 → s.running p = true → (s.part p).gridAt ≤ (s.part p).cyc →
      (s.part p).gridLate = true →
      ∃ t, exec (.timedGridPoint p) s = .next t ∧
        t.f (pt p) F.TK_INTAKE_STATS_skipped = min 65535 (s.f (pt p) F.TK_INTAKE_STATS_skipped + 1) ∧
        t.part p = { s.part p with gridAt := (s.part p).gridAt + s.periodOf p } ∧ OthersKept p s t ∧ MemoriesKept s t) ∧
    (∀ (p : PartId) (s : State), s.mayStroke p = true → s.spacedAt p ≤ (s.part p).cyc → (s.part p).strikeDue = none →
      ((s.part p).pendStrike = true ∨ (s.part p).pendEdge = true ∨ (s.part p).gridLate = true) →
      ∃ t, exec (.pendingStrikeStroke p) s = .next t ∧ Stroked p (s.part p).cyc s t ∧ t.mem = s.mem) ∧
    (∀ (falling : Bool) (p : PartId) (s : State),
      (∀ r, (s.mode r = 2 ∧ s.running r = true ∧ s.f (pt r) F.TK_MODE_ext_edge = (if falling then 1 else 0)) ↔ r = p) →
      (s.part p).pendEdge = false → s.holdIn p = true →
      ∃ t, exec (.tickInEdge falling) s = .next t ∧ t.tickIn = !falling ∧
        t.f hub F.HB_TICK_IO_in_edges = (s.f hub F.HB_TICK_IO_in_edges + 1) % 2 ^ F.HB_TICK_IO_in_edges.w ∧
        t.part p = { s.part p with pendEdge := true } ∧ t.f (pt p) F.TK_STATUS_pending = 1 ∧ OthersKept p s t ∧
        MemoriesKept s t))

/-- The messages of an open tick. A STROKE that is due opens the tick of a present quire that is in no reset, with the
counter's value and every stitcher ready from cycle 1; one that fails parity opens nothing and is counted. A tick-done
token that is due marks its quire done; one that fails parity marks nothing (R15, R16, R210, R211, 04_stitchers.md R96).
States completion, that exec answers a next state with the effect named, for: spineStroke, spineTickdone. -/
def Obligations.TickMessages : Prop :=
  (∀ (q : QuireId) (s : State), (s.part (partOf q)).frameOpen = true →
    (s.part (partOf q)).strokeMask / 2 ^ localOf q % 2 = 0 → s.present q = true →
    (s.part (partOf q)).strokeAt + 14 ≤ (s.part (partOf q)).cyc → (s.qu q).inReset = false →
    s.cnt (pt (partOf q)) R.TK_COUNT_LO R.TK_COUNT_HI = ((s.qu q).tick + 1) % 2 ^ 48 → (s.qu q).tick < 2 ^ 48 →
    ∃ t, exec (.spineStroke q none) s = .next t ∧ (t.qu q).open_ = true ∧ (t.qu q).done = false ∧
      (t.qu q).tick = s.cnt (pt (partOf q)) R.TK_COUNT_LO R.TK_COUNT_HI ∧ (t.qu q).start = (s.part (partOf q)).cyc ∧
      (∀ i, (t.st ⟨q, i⟩).stopped = false ∧ (t.st ⟨q, i⟩).nextAt = 1 ∧
        (t.st ⟨q, i⟩).sreg = (s.st ⟨q, i⟩).sreg) ∧
      t.f (pt (partOf q)) F.TK_STATUS_phase = 2 ∧ MemoriesKept s t) ∧
  (∀ (q : QuireId) (h : Hop) (s : State), (s.part (partOf q)).frameOpen = true →
    (s.part (partOf q)).strokeMask / 2 ^ localOf q % 2 = 0 → s.present q = true →
    (s.part (partOf q)).strokeAt + 14 ≤ (s.part (partOf q)).cyc →
    ∃ t, exec (.spineStroke q (some h)) s = .next t ∧ t.quires = s.quires ∧ t.stitchers = s.stitchers ∧
      (t.part (partOf q)).strokeMask / 2 ^ localOf q % 2 = 1 ∧
      t.f (pt (partOf q)) F.SP_STAT_parity =
        min (2 ^ F.SP_STAT_parity.w - 1) (s.f (pt (partOf q)) F.SP_STAT_parity + 1)) ∧
  (∀ (q : QuireId) (s : State), (s.part (partOf q)).frameOpen = true → (s.qu q).done = true → (s.qu q).doneAt ≠ 0 →
    (s.qu q).doneAt ≤ (s.part (partOf q)).cyc → (s.part (partOf q)).doneMask / 2 ^ localOf q % 2 = 0 →
    ∃ t, exec (.spineTickdone q none) s = .next t ∧
      (t.part (partOf q)).doneMask = (s.part (partOf q)).doneMask + 2 ^ localOf q ∧
      t.f (pt (partOf q)) F.TK_STATUS_quires_done = (s.f (pt (partOf q)) F.TK_STATUS_quires_done + 1) % 256 ∧
      (t.qu q).doneAt = 0 ∧ MemoriesKept s t) ∧
  (∀ (q : QuireId) (h : Hop) (s : State), (s.part (partOf q)).frameOpen = true → (s.qu q).done = true →
    (s.qu q).doneAt ≠ 0 → (s.qu q).doneAt ≤ (s.part (partOf q)).cyc →
    ∃ t, exec (.spineTickdone q (some h)) s = .next t ∧ (t.qu q).doneAt = 0 ∧
      (t.part (partOf q)).doneMask = (s.part (partOf q)).doneMask ∧ MemoriesKept s t)

/-- The deadline of a quire of an open tick that has not finished, due by its time (R24): under STRETCH the quire overruns
and goes on, and the next stroke is late; under FAIL its tick ends, every stitcher of it resets and the partition's tick
fails. The first overrun of a tick counts once in TK_OVERRUNS.

The watchdogs, due by their time (R25, 06_channels.md R160): a quire that has overrun and hangs is put into reset with
every stitcher of it, unless its partition's reset is on its way, and the open tick fails; a send that has stalled for its
threshold is recorded once, past the quire's deadline without more effect; one stalled before it brings the deadline
forward, which under STRETCH is an overrun.

The frame of an open tick closes when it is due (R16, R17, R27): no frame is open, the phase is 0, the status shows
whether the tick failed and was late, a stop that was written stops the generator, and TK_STATUS.held shows a hold in
force.
States completion, that exec answers a next state with the effect named, for: runDeadline, hangWatchdog, sendStallWatchdog,
frameClose. -/
def Obligations.DeadlinesAndCloses : Prop :=
  (
    ∀ (q : QuireId) (s : State),
      let p := partOf q
      (s.part p).frameOpen = true → (s.part p).waitMask / 2 ^ localOf q % 2 = 1 →
      (s.part p).doneMask / 2 ^ localOf q % 2 = 0 → (s.part p).overMask / 2 ^ localOf q % 2 = 0 → (s.qu q).doneAt = 0 →
      (s.qu q).open_ = true → (s.part p).strokeAt + 14 + s.deadlineOf q ≤ (s.part p).cyc → (s.part p).overran = false →
      (s.f (pt p) F.TK_CTRL_policy = 1 →
        ∃ t, exec (.runDeadline q) s = .next t ∧ (t.qu q).overrun = true ∧ (t.qu q).open_ = true ∧
          (t.part p).lateNext = true ∧ (t.part p).failed = (s.part p).failed ∧ t.stitchers = s.stitchers ∧
          t.cnt (pt p) R.TK_OVERRUNS_LO R.TK_OVERRUNS_HI =
            (s.cnt (pt p) R.TK_OVERRUNS_LO R.TK_OVERRUNS_HI + 1) % 2 ^ 64 ∧ MemoriesKept s t) ∧
      (s.f (pt p) F.TK_CTRL_policy = 0 →
        ∃ t, exec (.runDeadline q) s = .next t ∧ (t.qu q).open_ = false ∧ (t.qu q).done = true ∧
          (t.part p).failed = true ∧ (t.part p).published = true ∧
          (∀ i, (t.st ⟨q, i⟩).inReset = true ∧ (t.st ⟨q, i⟩).firing = none) ∧
          t.cnt (pt p) R.TK_OVERRUNS_LO R.TK_OVERRUNS_HI =
            (s.cnt (pt p) R.TK_OVERRUNS_LO R.TK_OVERRUNS_HI + 1) % 2 ^ 64 ∧ MemoriesKept s t)) ∧
  (
    (∀ (q : QuireId) (s : State), s.f (pt (partOf q)) F.TK_CTRL_policy = 1 → (s.qu q).open_ = true →
      (s.qu q).overrun = true → (s.qu q).overrunNs + 1000 ≤ s.ns → s.partResets (partOf q) = false →
      (s.part (partOf q)).frameOpen = true →
      ∃ t, exec (.hangWatchdog q) s = .next t ∧ (t.qu q).inReset = true ∧ (t.part (partOf q)).failed = true ∧
        t.f (qb q) F.RS_QUIRE_in_reset = 1 ∧ (∀ i, (t.st ⟨q, i⟩).inReset = true ∧ (t.st ⟨q, i⟩).store = []) ∧
        MemoriesKept s t) ∧
    (∀ (q : QuireId) (c : Nat) (i : Fin 64) (s : State), s.f (pt (partOf q)) F.TK_CTRL_policy = 0 →
      (s.qu q).flushBy = some c → c ≤ (s.part (partOf q)).cyc → (s.st ⟨q, i⟩).inReset = true →
      s.partResets (partOf q) = false →
      ∃ t, exec (.hangWatchdog q) s = .next t ∧ (t.qu q).inReset = true ∧ t.f (qb q) F.RS_QUIRE_in_reset = 1 ∧
        (∀ i, (t.st ⟨q, i⟩).inReset = true ∧ (t.st ⟨q, i⟩).store = []) ∧ MemoriesKept s t) ∧
    (∀ (u : StId) (x : Stall) (e : Nat) (s : State),
      let q := u.quire
      let run := (s.qu q).runAt (x.since + s.f (pt (partOf q)) F.CH_WDOG_threshold)
      (s.st u).stall = some x → x.ch = some e → s.f (pt (partOf q)) F.CH_WDOG_threshold ≠ 0 → (s.qu q).open_ = true →
      x.fired = false → (s.qu q).start + run - 1 ≤ (s.part (partOf q)).cyc →
      ((s.qu q).overrun = true ∨ s.deadlineOf q ≤ run → ∃ t, exec (.sendStallWatchdog u) s = .next t ∧ Recorded (.quire q) Ev.SEND_STALL s t ∧
        t.parts = s.parts ∧ t.quires = s.quires ∧ t.mem = s.mem ∧ (∀ v, v ≠ u → t.st v = s.st v) ∧
        t.st u = { s.st u with stall := some { x with fired := true } }) ∧
      ((s.qu q).overrun = false → run < s.deadlineOf q → s.f (pt (partOf q)) F.TK_CTRL_policy = 1 →
        ∃ t, exec (.sendStallWatchdog u) s = .next t ∧ (t.qu q).deadline = some run ∧ (t.qu q).overrun = true ∧
          (t.part (partOf q)).lateNext = true ∧ (∀ v, v ≠ u → t.st v = s.st v) ∧
          t.st u = { s.st u with stall := some { x with fired := true } } ∧ MemoriesKept s t))) ∧
  (
    ∀ (p : PartId) (c : Nat) (s : State), (s.part p).closeAt = some c → (s.part p).frameOpen = true → c ≤ (s.part p).cyc →
      ∃ t, exec (.frameClose p) s = .next t ∧ (t.part p).frameOpen = false ∧ (t.part p).closeAt = none ∧
        t.f (pt p) F.TK_STATUS_phase = 0 ∧
        t.f (pt p) F.TK_STATUS_last_failed = (if (s.part p).failed then 1 else 0) ∧
        t.f (pt p) F.TK_STATUS_last_late = (if (s.part p).late then 1 else 0) ∧
        t.f (pt p) F.TK_STATUS_running = (if (s.part p).stopping then 0 else s.f (pt p) F.TK_STATUS_running) ∧
        t.f (pt p) F.TK_STATUS_held = (if s.f (pt p) F.TK_CTRL_hold = 1 ∨ (s.part p).holds ≠ [] then 1 else 0) ∧
        MemoriesKept s t ∧ OthersKept p s t)

/-- A token that its port takes in joins the match store and changes no register of the stitcher, no other stitcher and no
memory; one that fails its check joins nothing, is counted in ST_ERR.token_check and fails the open tick (R97, R99).

The first ready firing begins (R93): the handler, tag and entry point are its own, s23 and the slot registers hold the
tag, kinds, handler and data, its tokens leave the match store, the instruction count is 0 and the firing counted; no
memory, no other stitcher and no register below s23 changes.

What happens at a stitcher beside its instructions (R100, R110, R112, R114): a residue mismatch of an instruction
that the firing has issued and that the residue covers faults with cause 1, one of any other address changes nothing; an
illegal word that may issue faults with cause 3; a write of ST_CTRL.reset while the generator runs free is ignored and
recorded, otherwise, but for a partition reset on its way, it resets the stitcher; a reset that is due ends; ST_FAULT.suspect and PS_VOTE.suspect clear.
States completion, that exec answers a next state with the effect named, for: firingDispatch, tokenArrival, residueMismatch,
stitcherResetEnd, stCtrlReset, stFaultSuspectClear, psVoteSuspectClear, illegalInstruction. -/
def Obligations.TokensAndFirings : Prop :=
  (
    (∀ (u : StId) (w : BitVec 96) (o : Origin) (pos : Nat) (s : State), receivable s u (Tok.ofBits w) →
      ∃ t, exec (.tokenArrival u w o pos) s = .next t ∧ TookToken u (Tok.ofBits w) pos o s t ∧ t.quires = s.quires ∧
        t.mem = s.mem) ∧
    (∀ (u : StId) (w : BitVec 96) (o : Origin) (pos : Nat) (s : State),
      (tokenCheck (Tok.ofBits w).body u.st.val u.quire.val).toNat ≠ (Tok.ofBits w).check →
      ∃ t, exec (.tokenArrival u w o pos) s = .next t ∧ t.stitchers = s.stitchers ∧ t.quires = s.quires ∧ t.mem = s.mem ∧
        t.f (sb u) F.ST_ERR_token_check =
          min (2 ^ F.ST_ERR_token_check.w - 1) (s.f (sb u) F.ST_ERR_token_check + 1) ∧
        ((s.part (partOf u.quire)).frameOpen = true → (t.part (partOf u.quire)).failed = true))) ∧
  (
    ∀ (u : StId) (r : Ready) (s : State), s.mayFire u = true → s.nextReady u = some r → r.toks.length ≤ 4 →
      ∃ t, exec (.firingDispatch u) s = .next t ∧ (t.st u).firing = some ⟨r.handler, r.tag⟩ ∧
        (t.st u).pc = s.f (sb u) (F.ST_HANDLER_entry.nth r.handler) ∧ t.f (sb u) F.ST_PC_count = 0 ∧
        t.cnt (sb u) R.ST_FIRINGS_LO R.ST_FIRINGS_HI = (s.cnt (sb u) R.ST_FIRINGS_LO R.ST_FIRINGS_HI + 1) % 2 ^ 64 ∧
        (t.st u).s 23 = BitVec.ofNat 32 (r.tag % 4096 + 2 ^ 12 * kindBits 0 r.toks + 2 ^ 16 * r.handler) ∧
        (∀ j w, r.toks[j]? = some w → (t.st u).s (BitVec.ofNat 5 (24 + 2 * j)) = w.data.extractLsb' 0 32 ∧
          (t.st u).s (BitVec.ofNat 5 (25 + 2 * j)) = w.data.extractLsb' 32 32) ∧
        (∀ k : SReg, k.toNat < 23 → (t.st u).s k = (s.st u).s k) ∧
        (t.st u).store = (s.st u).store.filter
          (fun w => !(decide (w.tag = r.tag) && (r.toks.map (fun w => w.port)).contains w.port)) ∧
        (t.st u).vreg = (s.st u).vreg ∧ (t.st u).preg = (s.st u).preg ∧ (∀ v, v ≠ u → t.st v = s.st v) ∧ MemoriesKept s t) ∧
  (
    (∀ (u : StId) (pc : BitVec 10) (s : State), s.f (sb u) F.ST_STATUS_used = 1 → s.f (sb u) F.ST_STATUS_sealed = 1 →
      (s.st u).inReset = false → (∃ i ∈ (s.st u).issues, i.1 = pc.toNat) →
      residueChecks ((s.st u).progWord pc.toNat) = true →
      ∃ t, exec (.residueMismatch u pc) s = .next t ∧ Faulted u 1 s t) ∧
    (∀ (u : StId) (pc : BitVec 10) (s : State),
      ((∀ i ∈ (s.st u).issues, i.1 ≠ pc.toNat) ∨ residueChecks ((s.st u).progWord pc.toNat) = false) →
      exec (.residueMismatch u pc) s = .next s) ∧
    (∀ (u : StId) (s : State), s.executes u = true → decodeWord u ((s.st u).progWord (s.st u).pc) = none →
      s.f (sb u) F.ST_PC_count < 256 → (s.st u).progErr (s.st u).pc ≠ 2 →
      ∃ t, exec (.illegalInstruction u) s = .next t ∧ Faulted u 3 s t) ∧
    (∀ (w : Writer) (u : StId) (s : State), reaches s w (sb u + R.ST_CTRL.off) → s.runsFree (partOf u.quire) = true →
      ∃ t, exec (.stCtrlReset w u) s = .next t ∧ t.stitchers = s.stitchers ∧ t.quires = s.quires ∧ t.mem = s.mem) ∧
    (∀ (w : Writer) (u : StId) (s : State), reaches s w (sb u + R.ST_CTRL.off) → s.runsFree (partOf u.quire) = false →
      s.partResets (partOf u.quire) = false →
      ∃ t, exec (.stCtrlReset w u) s = .next t ∧ (t.st u).inReset = true ∧ (t.st u).sreg = [] ∧ (t.st u).vreg = [] ∧
        (t.st u).preg = [] ∧ (t.st u).pc = 0 ∧ (t.st u).store = [] ∧ (t.st u).queues = [] ∧ (t.st u).firing = none ∧
        (t.st u).pocket = (s.st u).pocket ∧ (t.st u).prog = (s.st u).prog ∧ (∀ v, v ≠ u → t.st v = s.st v) ∧
        t.quires = s.quires ∧ t.mem = s.mem) ∧
    (∀ (u : StId) (s : State), (s.st u).inReset = true → (s.st u).resetEnd ≤ (s.part (partOf u.quire)).cyc →
      ∃ t, exec (.stitcherResetEnd u) s = .next t ∧ (t.st u).inReset = false ∧ (t.st u).pocket = (s.st u).pocket ∧
        (∀ v, v ≠ u → t.st v = s.st v) ∧ { t with stitchers := s.stitchers } = s) ∧
    (∀ (w : Writer) (q : QuireId) (s : State), reaches s w (qb q + R.ST_FAULT.off) →
      ∃ t, exec (.stFaultSuspectClear w q) s = .next t ∧ t.f (qb q) F.ST_FAULT_suspect = 0 ∧
        t.f (qb q) F.ST_FAULT_cause = s.f (qb q) F.ST_FAULT_cause ∧ t.stitchers = s.stitchers ∧ t.quires = s.quires) ∧
    (∀ (w : Writer) (q : QuireId) (s : State), reaches s w (qb q + R.PS_VOTE.off) →
      ∃ t, exec (.psVoteSuspectClear w q) s = .next t ∧ t.f (qb q) F.PS_VOTE_suspect = 0 ∧
        t.f (qb q) F.PS_VOTE_checker = s.f (qb q) F.PS_VOTE_checker ∧ t.stitchers = s.stitchers ∧ t.quires = s.quires))

/-! ## The presses (03_presses.md) -/

/-- The command at the head of an idle press's queue is decoded (R63, R68): one that passes every check runs from its first
tile with nothing released, one that fails a check leaves the press idle; its place in the queue is taken up either way,
and the other press keeps its queue.

The next column tile of a running command, where no slot that it needs waits for delivery words (R73), is checked (R69,
R78, R80): the command stands at the tile after it, and a
command whose output is withheld releases nothing more.
States completion, that exec answers a next state with the effect named, for: pressCommandDecode, pressTileCheck. -/
def Obligations.PressCommands : Prop :=
  (
    ∀ (q : QuireId) (x : PressId) (d : PDesc) (l : List PDesc) (s : State), s.capped q = false →
      (s.press q x).run = none → (s.press q x).queue = d :: l → (s.press q x).frozen = false →
      (d.check (s.leafSize q) (s.f hub F.HB_FMT_CAPS_accept) = 0 →
        ∃ t r, exec (.pressCommandDecode q x) s = .next t ∧ (t.press q x).run = some r ∧ r.desc = d ∧ r.tile = 0 ∧
          r.out = [] ∧ r.deliver = [] ∧ (t.press q x).queue = l ∧ t.press q (!x) = s.press q (!x) ∧ MemoriesKept s t) ∧
      (d.check (s.leafSize q) (s.f hub F.HB_FMT_CAPS_accept) ≠ 0 →
        ∃ t, exec (.pressCommandDecode q x) s = .next t ∧ (t.press q x).run = none ∧ (t.press q x).queue = l ∧
          t.press q (!x) = s.press q (!x) ∧ MemoriesKept s t)) ∧
  (
    ∀ (q : QuireId) (x : PressId) (up : Option PressUpset) (r : PRun) (s : State), (s.press q x).run = some r →
      (s.press q x).frozen = false → r.tile < r.desc.colTiles → s.capped q = false →
      (∀ y ∈ (slotFree r.desc.slotUnits (s.press q x).slots).1, y.words = 0) →
      ∃ t r', exec (.pressTileCheck q x up) s = .next t ∧ (t.press q x).run = some r' ∧ r'.desc = r.desc ∧
        r'.tile = r.tile + 1 ∧ (t.press q x).queue = (s.press q x).queue ∧ t.mem = s.mem ∧
        (r.withheld = true → r'.withheld = true ∧ r'.out = r.out ∧ r'.deliver = r.deliver ∧ (t.press q x).frozen = false ∧
          (t.qu q).leaf = (s.qu q).leaf))

/-- A vote (R82 to R84): the head of the votes starts on the other press; when it is judged it leaves the votes, and its
press stays frozen only for another vote of its own.

Delivery and completion (R65, R72, R382): with room at the delivery port the next word leaves the run and is counted,
without room it waits; a command that has streamed every tile and delivered every word completes, leaving the press idle;
the oldest message of the outbound hold goes on its way.
States completion, that exec answers a next state with the effect named, for: pressVoteStart, pressVoteJudgement,
pressDeliveryToken, pressCompletion, outboundHoldRelease. -/
def Obligations.PressChecks : Prop :=
  (
    (∀ (q : QuireId) (v : Vote) (l : List Vote) (r : PRun) (s : State), (s.qu q).votes = v :: l →
      (s.press q v.press).run = some r → v.started = false →
      ∃ t v', exec (.pressVoteStart q) s = .next t ∧ (t.qu q).votes = v' :: l ∧ v'.started = true ∧ v'.press = v.press ∧
        v'.tile = v.tile ∧ v'.accs = v.accs ∧ v'.checks = v.checks ∧ t.press q v.press = s.press q v.press ∧
        MemoriesKept s t) ∧
    (∀ (q : QuireId) (up : Option PressUpset) (v : Vote) (l : List Vote) (r : PRun) (s : State),
      (s.qu q).votes = v :: l → (s.press q v.press).run = some r → v.started = true →
      ∃ t, exec (.pressVoteJudgement q up) s = .next t ∧ (t.qu q).votes = l ∧
        (t.press q v.press).frozen = l.any (fun w => w.press = v.press) ∧ (t.press q v.press).run.isSome = true ∧
        t.mem = s.mem)) ∧
  (
    (∀ (q : QuireId) (x : PressId) (r : PRun) (w : Nat × BitVec 64) (l : List (Nat × BitVec 64)) (s : State),
      (s.press q x).run = some r → r.deliver = w :: l → (s.press q x).frozen = false →
      let u : StId := ⟨q, ⟨r.desc.deliv % 64, by omega⟩⟩
      let port := r.desc.deliv / 64 % 32
      ((s.st u).waitingAt port < s.f (sb u) (portFld F.ST_PORT_credits port) →
        ∃ t r', exec (.pressDeliveryToken q x) s = .next t ∧ (t.press q x).run = some r' ∧ r'.deliver = l ∧
          r'.delivered = r.delivered + 1 ∧ r'.waiting = false ∧ MemoriesKept s t) ∧
      (s.f (sb u) (portFld F.ST_PORT_credits port) ≤ (s.st u).waitingAt port →
        ∃ t, exec (.pressDeliveryToken q x) s = .next t ∧ (t.press q x).run = some { r with waiting := true } ∧
          t.stitchers = s.stitchers ∧ MemoriesKept s t)) ∧
    (∀ (q : QuireId) (x : PressId) (r : PRun) (s : State), (s.press q x).run = some r → r.desc.colTiles ≤ r.tile →
      (s.press q x).frozen = false → r.deliver = [] →
      ∃ t, exec (.pressCompletion q x) s = .next t ∧ (t.press q x).run = none ∧
        (t.press q x).queue = (s.press q x).queue ∧ t.press q (!x) = s.press q (!x) ∧ t.mem = s.mem) ∧
    (∀ (q : QuireId) (c : Nat) (m : Flight) (l : List HeldOut) (s : State), (s.qu q).holding = ⟨c, .flight m⟩ :: l →
      ∃ t f, exec (.outboundHoldRelease q) s = .next t ∧ (t.qu q).holding = l ∧ t.flights = s.flights ++ [f] ∧
        f.src = m.src ∧ f.dst = m.dst ∧ f.landing = m.landing ∧ f.relPos = m.relPos ∧ MemoriesKept s t) ∧
    (∀ (q : QuireId) (c : Nat) (m : Fwd) (l : List HeldOut) (s : State), (s.qu q).holding = ⟨c, .fwd m⟩ :: l →
      ∃ t, exec (.outboundHoldRelease q) s = .next t ∧ (t.qu q).holding = l ∧
        (t.qu q).forwards = (s.qu q).forwards ++ [{ m with sentAt := c - 4 }] ∧ t.flights = s.flights ∧ MemoriesKept s t))

/-! ## The leaf store (05_leaf_store.md) -/

/-- The write buffer and the leaf operations (R128, R129, R131, R132). A held write with no earlier one to its row, an
access of the port and its bank to have (R126), and no read of its row lands: its bytes stand in the leaf and it leaves the buffer; with a read of its row it stays and the race
is counted. An operation that fails a check is refused and counted and fails the tick; a fill runs and its bytes stand in
the leaf; a running operation that completes leaves the queue and is counted unless it was refused.
States completion, that exec answers a next state with the effect named, for: writeBufferLand, leafOpStart, leafOpComplete. -/
def Obligations.LeafWork : Prop :=
  (∀ (q : QuireId) (w : HeldWrite) (s : State), (s.qu q).wbuf = [w] → w.poison = 0 → bandOf w.addr ∉ (s.qu q).filling →
    cleanLeaf s q w.addr w.bytes.length → (s.part (partOf q)).hints = [] → (s.qu q).wwait = [] →
    s.freeAccess q 6 w.addr = true → s.bulkWaits q w.writer = false →
    ∃ t, exec (.writeBufferLand q 0 none) s = .next t ∧ (t.qu q).wbuf = [] ∧
      (∀ a, spGet 0 (t.qu q).leaf a =
        if w.addr ≤ a ∧ a < w.addr + w.bytes.length then w.bytes.getD (a - w.addr) 0 else spGet 0 (s.qu q).leaf a) ∧
      (∀ r, r ≠ q → (t.qu r).leaf = (s.qu r).leaf) ∧ t.mem = s.mem) ∧
  (∀ (q : QuireId) (n r : Nat) (w : HeldWrite) (s : State), (s.qu q).wbuf[n]? = some w →
    (∀ v ∈ (s.qu q).wbuf.take n, v.addr / 512 ≠ w.addr / 512) → bandOf w.addr ∉ (s.qu q).filling →
    s.freeAccess q 6 w.addr = true → s.bulkWaits q w.writer = false →
    ∃ t, exec (.writeBufferLand q n (some r)) s = .next t ∧ t.quires = s.quires ∧ t.mem = s.mem ∧
      t.f (qb q) F.LF_RACE_races = min (2 ^ F.LF_RACE_races.w - 1) (s.f (qb q) F.LF_RACE_races + 1)) ∧
  (∀ (q : QuireId) (o : LeafOp) (l : List LeafOp) (s : State), (s.qu q).ops = o :: l → o.running = false →
    s.leafOpCheck q o ≠ 0 →
    ∃ t o', exec (.leafOpStart q) s = .next t ∧ (t.qu q).ops = o' :: l ∧ o'.running = true ∧ o'.refused = true ∧
      t.f (qb q) F.LF_OPS_refused = min (2 ^ F.LF_OPS_refused.w - 1) (s.f (qb q) F.LF_OPS_refused + 1) ∧
      ((s.part (partOf q)).frameOpen = true → (t.part (partOf q)).failed = true) ∧ MemoriesKept s t) ∧
  (∀ (q : QuireId) (o : LeafOp) (l : List LeafOp) (s : State), (s.qu q).ops = o :: l → o.running = false →
    s.leafOpCheck q o = 0 → o.op = 0 → cleanLeaf s q o.dst o.len →
    ∃ t o', exec (.leafOpStart q) s = .next t ∧ (t.qu q).ops = o' :: l ∧ o'.running = true ∧ o'.refused = false ∧
      (∀ a, spGet 0 (t.qu q).leaf a =
        if o.dst ≤ a ∧ a < o.dst + o.len then BitVec.ofNat 8 (o.src / 256 ^ ((a - o.dst) % 4)) else spGet 0 (s.qu q).leaf a) ∧
      t.mem = s.mem) ∧
  (∀ (q : QuireId) (o : LeafOp) (l : List LeafOp) (s : State), (s.qu q).ops = o :: l → o.running = true →
    ∃ t, exec (.leafOpComplete q) s = .next t ∧ (t.qu q).ops = l ∧ MemoriesKept s t ∧
      t.f (qb q) F.LF_OPS_done = (if o.refused then s.f (qb q) F.LF_OPS_done
        else min (2 ^ F.LF_OPS_done.w - 1) (s.f (qb q) F.LF_OPS_done + 1)))

/-- The class map (R124): while the generator runs free a write is ignored; otherwise the register takes the word, every
band whose class changes reads as zero and is filling, every other band keeps its bytes, and the end of a band's fill
leaves the next one filling, and none after the last.

The scrubber (R133 to R135): a pass that is due starts where none runs; a read of a row without error moves the position
on and changes no byte of the leaf; a corrected row is written back clean, or dropped and counted where another write has
reached it; the pass that has read its last row ends and is counted, and a start that fell due meanwhile is made then. Each
needs the clock of its half, each access a bank that no other rank wants (R126).
States completion, that exec answers a next state with the effect named, for: lfClassWrite, classFillDone, scrubPassStart,
scrubRead, scrubWriteBack, scrubPassEnd. -/
def Obligations.ClassesAndScrubber : Prop :=
  (
    (∀ (w : Writer) (q : QuireId) (i : Fin 32) (v : Word) (s : State), reaches s w (qb q + (R.LF_CLASS.nth i.val).off) →
      s.runsFree (partOf q) = true →
      ∃ t, exec (.lfClassWrite w q i v) s = .next t ∧ t.rd (qb q) (R.LF_CLASS.nth i.val) = s.rd (qb q) (R.LF_CLASS.nth i.val) ∧
        t.quires = s.quires ∧ t.stitchers = s.stitchers ∧ t.mem = s.mem) ∧
    (∀ (w : Writer) (q : QuireId) (i : Fin 32) (v : Word) (s : State), reaches s w (qb q + (R.LF_CLASS.nth i.val).off) →
      s.runsFree (partOf q) = false →
      ∃ t, exec (.lfClassWrite w q i v) s = .next t ∧ t.rd (qb q) (R.LF_CLASS.nth i.val) = v ∧
        (∀ j, j < 32 → (s.rd (qb q) (R.LF_CLASS.nth i.val)).getLsbD j ≠ v.getLsbD j →
          32 * i.val + j ∈ (t.qu q).filling ∧ ∀ a, bandOf a = 32 * i.val + j → spGet 0 (t.qu q).leaf a = 0) ∧
        (∀ a, (bandOf a / 32 ≠ i.val ∨
            (s.rd (qb q) (R.LF_CLASS.nth i.val)).getLsbD (bandOf a % 32) = v.getLsbD (bandOf a % 32)) →
          spGet 0 (t.qu q).leaf a = spGet 0 (s.qu q).leaf a) ∧
        t.stitchers = s.stitchers ∧ t.mem = s.mem) ∧
    (∀ (q : QuireId) (b : Nat) (l : List Nat) (s : State), (s.qu q).filling = b :: l →
      (s.qu q).fillAt ≤ (s.part (partOf q)).cyc →
      ∃ t, exec (.classFillDone q) s = .next t ∧ (t.qu q).filling = l ∧ MemoriesKept s t ∧ { t with quires := s.quires } = s) ∧
    (∀ (q : QuireId) (s : State), (s.qu q).filling = [] → exec (.classFillDone q) s = .next s)) ∧
  (
    (∀ (q : QuireId) (s : State), s.f (qb q) F.LF_CTRL_scrub_en = 1 → s.clockStopped (partOf q) = false →
      (s.qu q).scrubDue ≤ s.ns → (s.qu q).scrubOn = false →
      ∃ t, exec (.scrubPassStart q) s = .next t ∧ (t.qu q).scrubOn = true ∧ (t.qu q).scrubStart = s.ns ∧
        (t.qu q).scrubDue = (s.qu q).scrubDue + (s.ns - (s.qu q).scrubDue) / 250000000 * 250000000 + 250000000 ∧ (t.qu q).regionTorn = 0 ∧ MemoriesKept s t) ∧
    (∀ (q : QuireId) (s : State), (s.qu q).scrubOn = true → (s.qu q).scrubEnd = false → (s.qu q).writeBack = none →
      s.f (qb q) F.LF_SCRUB_POS_bank < 255 → s.clockStopped (partOf q) = false →
      s.freeAccess q 8 (s.f (qb q) F.LF_SCRUB_POS_band * 2 ^ 17 + s.f (qb q) F.LF_SCRUB_POS_bank * 512) = true →
      max (s.qu q).scrubNext ((s.qu q).copyPause (s.part (partOf q)).cyc) ≤ (s.part (partOf q)).cyc →
      cleanLeaf s q (s.f (qb q) F.LF_SCRUB_POS_band * 2 ^ 17 + s.f (qb q) F.LF_SCRUB_POS_bank * 512) 512 →
      ∃ t, exec (.scrubRead q) s = .next t ∧
        t.f (qb q) F.LF_SCRUB_POS_bank = s.f (qb q) F.LF_SCRUB_POS_bank + 1 ∧
        t.f (qb q) F.LF_SCRUB_POS_band = s.f (qb q) F.LF_SCRUB_POS_band ∧ (t.qu q).writeBack = none ∧ MemoriesKept s t) ∧
    (∀ (q : QuireId) (w : WriteBack) (s : State), (s.qu q).writeBack = some w →
      s.clockStopped (partOf q) = false → s.freeAccess q 8 w.addr = true →
      ∃ t, exec (.scrubWriteBack q) s = .next t ∧ (t.qu q).writeBack = none ∧ MemoriesKept s t ∧
        (w.stale = true → t.f (qb q) F.LF_SCRUB_dropped =
          min (2 ^ F.LF_SCRUB_dropped.w - 1) (s.f (qb q) F.LF_SCRUB_dropped + 1)) ∧
        (w.stale = false → ∀ a ∈ codeWords 64 w.addr 512, t.markAt q a ≠ 1)) ∧
    (∀ (q : QuireId) (s : State), (s.qu q).scrubOn = true → (s.qu q).scrubEnd = true → (s.qu q).writeBack = none →
      s.clockStopped (partOf q) = false →
      ∃ t, exec (.scrubPassEnd q) s = .next t ∧
        (t.qu q).scrubOn = ((s.qu q).scrubLate && decide (s.f (qb q) F.LF_CTRL_scrub_en = 1)) ∧ (t.qu q).scrubLate = false ∧
        t.f (qb q) F.LF_SCRUB_passes = (s.f (qb q) F.LF_SCRUB_passes + 1) % 2 ^ 16 ∧ MemoriesKept s t))

/-! ## Channels (06_channels.md) -/

/-- A message that has arrived at the tile that carries its quire is released (R154, R157): the first of those in flight to
it by position, sender and entry, or the first of its span messages where no fence aborts it, leaves the flights, and a token that its port takes in joins the
match store. A span message in a fenced span is discarded.

A credit return that has arrived at the tile that carries its sender becomes usable (R156, R157): of the entry's epoch it adds its units to the credits held, of an
older epoch it adds none (R163); it leaves the flights either way, and no message moves.
States completion, that exec answers a next state with the effect named, for: messageRelease, creditReturn,
spanMessageRelease. -/
def Obligations.ChannelArrivals : Prop :=
  (
    (∀ (q : QuireId) (m : Flight) (l : List Flight) (s : State),
      takeLeast Flight.key (s.flights.filter (fun m => decide (m.dst = q) && !m.span)) = some (m, l) →
      s.unitWaits m.src m.dst = false → s.addressed m.src m.dst = s.tileOf m.dst → m.arrive ≤ (s.qu q).runAt m.relPos →
      ∃ t, exec (.messageRelease q 0) s = .next t ∧ t.flights = s.flights.erase m ∧ t.mem = s.mem ∧
        ∀ port tag ctl data, m.landing = .token port tag ctl data → m.st < 64 → m.code < 256 → m.entry < 256 →
          let u : StId := ⟨q, ⟨m.st % 64, by omega⟩⟩
          let k : Tok := { data := data, tag := tag, port := port, epoch := m.epoch, ctl := ctl, check := m.code }
          receivable s u k → TookToken u k m.relPos (.entry m.src m.entry) s t) ∧
    (∀ (q : QuireId) (m : Flight) (l : List Flight) (s : State),
      takeLeast s.spanKey (s.flights.filter (fun m => decide (m.dst = q) && m.span && !s.unitWaits m.src m.dst)) =
        some (m, l) →
      s.spanAborted m.src m.entry = false → s.addressed m.src m.dst = s.tileOf m.dst →
      ∃ t, exec (.spanMessageRelease q 0) s = .next t ∧ t.flights = s.flights.erase m ∧ t.mem = s.mem ∧
        ∀ port tag ctl data, m.landing = .token port tag ctl data → m.st < 64 → m.code < 256 → m.entry < 256 →
          let u : StId := ⟨q, ⟨m.st % 64, by omega⟩⟩
          let k : Tok := { data := data, tag := tag, port := port, epoch := m.epoch, ctl := ctl, check := m.code }
          receivable s u k → ∃ pos, TookToken u k pos (.entry m.src m.entry) s t) ∧
    (∀ (q : QuireId) (m : Flight) (l : List Flight) (s : State),
      takeLeast s.spanKey (s.flights.filter (fun m => decide (m.dst = q) && m.span && !s.unitWaits m.src m.dst)) =
        some (m, l) →
      s.spanAborted m.src m.entry = true →
      ∃ t, exec (.spanMessageRelease q 0) s = .next t ∧ t.flights = s.flights.erase m ∧ t.stitchers = s.stitchers ∧
        t.quires = s.quires ∧ t.mem = s.mem)) ∧
  (
    ∀ (q : QuireId) (c : CreditFlight) (l : List CreditFlight) (s : State),
      takeLeast s.creditKey (s.creditFlights.filter (fun c => decide (c.src = q))) = some (c, l) →
      s.unitWaits c.from_ c.src = false → s.addressed c.from_ q = s.tileOf q →
      (s.creditSpan c = true ∨ c.arrive ≤ (s.qu q).runAt c.usePos) →
      ∃ t, exec (.creditReturn q) s = .next t ∧ t.creditFlights = s.creditFlights.erase c ∧ t.flights = s.flights ∧
        t.f (eb q c.entry) F.CH_ROUTE_D_held =
          (if c.epoch = s.f (eb q c.entry) F.CH_ROUTE_A_epoch then
            (s.f (eb q c.entry) F.CH_ROUTE_D_held + c.units) % 2 ^ 19
          else s.f (eb q c.entry) F.CH_ROUTE_D_held) ∧
        MemoriesKept s t)

/-- Reconfiguration (R162, R163): while held, a drain starts; with nothing in flight to the named quires it ends drained,
at its limit unsure. A commit while held, with no epoch to clash, advances each named quire's epoch, empties its match
stores and queues and returns every credit to its grant; one not held is refused and leaves every epoch.
States completion, that exec answers a next state with the effect named, for: reconfDrain, reconfDrainEnd, reconfCommit,
reconfRefusedClear. -/
def Obligations.Reconfiguration : Prop :=
  (∀ (w : Writer) (p : PartId) (s : State), s.gateOf w (pt p + R.CH_RECONF.off) = .pass → s.f (pt p) F.TK_STATUS_held = 1 →
    ∃ t, exec (.reconfDrain w p) s = .next t ∧ t.f (pt p) F.CH_RECONF_drain = 1 ∧ t.f (pt p) F.CH_RECONF_state = 1 ∧
      t.f (pt p) F.CH_RECONF_refused = 0 ∧ (t.part p).drainAt = s.ns ∧ MemoriesKept s t) ∧
  (∀ (w : Writer) (p : PartId) (s : State), s.gateOf w (pt p + R.CH_RECONF.off) = .pass → s.f (pt p) F.TK_STATUS_held = 0 →
    ∃ t, exec (.reconfDrain w p) s = .next t ∧ t.f (pt p) F.CH_RECONF_refused = 1 ∧
      t.f (pt p) F.CH_RECONF_drain = s.f (pt p) F.CH_RECONF_drain ∧ t.parts = s.parts ∧ MemoriesKept s t) ∧
  (∀ (p : PartId) (s : State), s.f (pt p) F.CH_RECONF_state = 1 →
    s.anyInFlight (maskQuires p (s.f (pt p) F.CH_RECONF_quires)) = false →
    ∃ t, exec (.reconfDrainEnd p) s = .next t ∧ t.f (pt p) F.CH_RECONF_drain = 0 ∧ t.f (pt p) F.CH_RECONF_state = 2 ∧
      t.f (pt p) F.CH_RECONF_unsure = s.f (pt p) F.CH_RECONF_unsure ∧ { t with regs := s.regs } = s) ∧
  (∀ (p : PartId) (s : State), s.f (pt p) F.CH_RECONF_state = 1 →
    s.anyInFlight (maskQuires p (s.f (pt p) F.CH_RECONF_quires)) = true → s.f (pt p) F.CH_DRAIN_limit_ns ≠ 0 →
    (s.part p).drainAt + s.f (pt p) F.CH_DRAIN_limit_ns ≤ s.ns →
    ∃ t, exec (.reconfDrainEnd p) s = .next t ∧ t.f (pt p) F.CH_RECONF_drain = 0 ∧ t.f (pt p) F.CH_RECONF_state = 3 ∧
      t.f (pt p) F.CH_RECONF_unsure = 1 ∧ MemoriesKept s t) ∧
  (∀ (w : Writer) (p : PartId) (s : State), s.gateOf w (pt p + R.CH_RECONF.off) = .pass → s.f (pt p) F.TK_STATUS_held = 1 →
    (∀ q ∈ maskQuires p (s.f (pt p) F.CH_RECONF_quires),
      s.inflight p ((s.f (qb q) F.CH_EPOCH_epoch + 1) % 4) = 0) →
    ∃ t, exec (.reconfCommit w p) s = .next t ∧ t.f (pt p) F.CH_RECONF_drain = 0 ∧ t.f (pt p) F.CH_RECONF_state = 0 ∧
      t.f (pt p) F.CH_RECONF_refused = 0 ∧ MemoriesKept s t ∧
      ∀ q ∈ maskQuires p (s.f (pt p) F.CH_RECONF_quires),
        t.f (qb q) F.CH_EPOCH_epoch = (s.f (qb q) F.CH_EPOCH_epoch + 1) % 4 ∧
        (∀ i, (t.st ⟨q, i⟩).store = [] ∧ ∀ n, n < 4 → (t.st ⟨q, i⟩).qlen n = 0) ∧
        ∀ e, e < 256 → t.f (eb q e) F.CH_ROUTE_D_held = s.f (eb q e) F.CH_ROUTE_C_grant) ∧
  (∀ (w : Writer) (p : PartId) (s : State), s.gateOf w (pt p + R.CH_RECONF.off) = .pass → s.f (pt p) F.TK_STATUS_held = 0 →
    ∃ t, exec (.reconfCommit w p) s = .next t ∧ t.f (pt p) F.CH_RECONF_refused = 1 ∧
      (∀ q, t.f (qb q) F.CH_EPOCH_epoch = s.f (qb q) F.CH_EPOCH_epoch) ∧ t.stitchers = s.stitchers ∧
      t.quires = s.quires) ∧
  (∀ (w : Writer) (p : PartId) (s : State), s.gateOf w (pt p + R.CH_RECONF.off) = .pass →
    ∃ t, exec (.reconfRefusedClear w p) s = .next t ∧ t.f (pt p) F.CH_RECONF_refused = 0 ∧
      t.f (pt p) F.CH_RECONF_state = s.f (pt p) F.CH_RECONF_state ∧ t.parts = s.parts ∧ MemoriesKept s t)

/-! ## The pager (07_catchword_paging.md) -/

/-- The pager starts the one entry that waits (R170, R182): a page-in of a linear table, in range and in memory without
error, with operations left for it, moves, with its address and its bytes; where the code word of a good page, or its table entry's word, lies past the end of
partition memory the model stops with the fault noPartitionMemory (assumption log); while the partition is fenced nothing starts (11 R286).

A page whose data has all moved completes (R178): a page-in keeps its status where the code it was stored with is its
bytes' CRC-32C and has status 3 where it is not; a page-out's bytes and code stand in partition memory, where no error
stood, and no other byte of it has changed.
States completion, that exec answers a next state with the effect named, for: pagerEntryStart, pageComplete. -/
def Obligations.PagerEntries : Prop :=
  (
    (∀ (p : PartId) (h : Hint) (s : State), (s.part p).hints = [h] → h.phase = .queued → h.part = p → h.isOut = false →
      s.f (pt p) F.RS_STATUS_fenced = 0 → h.code + 4 ≤ pmaEnd → s.outstanding p + h.size / 256 ≤ 2048 →
      s.f (tb p h.table) F.PG_TBL_CFG_mode = 0 →
      s.memMark = [] → (s.qu h.quire).wbuf.length ≤ 32 →
      s.f (tb p h.table) F.PG_TBL_BASE_pma * 64 + s.pageIndex p h.table h.pos * h.size + h.size ≤ progEnd →
      ∃ t h', exec (.pagerEntryStart p) s = .next t ∧ (t.part p).hints = [h'] ∧ h'.id = h.id ∧ h'.phase = .moving ∧
        h'.pma = s.f (tb p h.table) F.PG_TBL_BASE_pma * 64 + s.pageIndex p h.table h.pos * h.size ∧
        h'.data = memRead s.mem (memKey p h'.pma) h.size ∧ h'.status = 0 ∧ MemoriesKept s t) ∧
    (∀ (p : PartId) (h : Hint) (s : State), (s.part p).hints = [h] → h.phase = .queued →
      s.f (pt p) F.RS_STATUS_fenced = 0 → (s.findPage h).2.2.1 = 5 →
      exec (.pagerEntryStart p) s = .fault .noPartitionMemory) ∧
    (∀ (p : PartId) (s : State), s.f (pt p) F.RS_STATUS_fenced = 1 → exec (.pagerEntryStart p) s = .next s)) ∧
  (
    (∀ (p : PartId) (h : Hint) (s : State), (s.part p).hints = [h] → h.phase = .moving → h.part = p → h.isOut = false →
      h.size ≤ h.moved → (∀ w ∈ (s.qu h.quire).wbuf ++ (s.qu h.quire).wwait, w.page ≠ some h.id) → s.f (pt p) F.RS_STATUS_fenced = 0 →
      (s.part p).uploads = [] → h.status = 0 →
      ∃ t h', exec (.pageComplete p) s = .next t ∧ (t.part p).hints = [h'] ∧ h'.phase = .complete ∧
        h'.arrive = (s.part p).cyc + 3 ∧
        h'.status = (if leNat (memRead s.mem (memKey p h.code) 4) = (crc32c h.data).toNat then 0 else 3) ∧
        MemoriesKept s t) ∧
    (∀ (p : PartId) (h : Hint) (s : State), (s.part p).hints = [h] → h.phase = .moving → h.part = p → h.isOut = true →
      s.routeDown (toMem p (s.tileOf h.quire)) = false → s.f (pt p) F.RS_STATUS_fenced = 0 → (s.part p).uploads = [] → s.memMark = [] →
      h.pma + h.data.length ≤ h.code →
      ∃ t h', exec (.pageComplete p) s = .next t ∧ (t.part p).hints = [h'] ∧ h'.phase = .complete ∧
        h'.arrive = (s.part p).cyc + 24 ∧
        memRead t.mem (memKey p h.pma) h.data.length = h.data ∧
        leNat (memRead t.mem (memKey p h.code) 4) = (crc32c h.data).toNat ∧
        (∀ a, (a < memKey p h.pma ∨ memKey p h.pma + h.data.length ≤ a) → (a < memKey p h.code ∨ memKey p h.code + 4 ≤ a) →
          spGet 0 t.mem a = spGet 0 s.mem a) ∧ t.quires = s.quires ∧ t.stitchers = s.stitchers))

/-- The due point (R179, R181): an open quire whose next due entries are all done releases them, so that none is left at
that position; with one not done it pauses there; a completion that arrives while no quire waits for it is marked
arrived.

Uploads (R187, R188): a good host write through the window of the LD bound to the partition, aimed at memory that no
live page holds, stands in partition memory and changes no other byte of it; aimed at a leaf it waits in the write buffer;
a flush marks what waits, and reads 0 once nothing marked is left.
States completion, that exec answers a next state with the effect named, for: pageDuePosition, pageCompletionArrival,
uploadWrite, uploadFlush, uploadFlushDone. -/
def Obligations.PagesDue : Prop :=
  (
    (∀ (q : QuireId) (pos : Nat) (s : State), s.nextDue q = some pos → (s.qu q).open_ = true → (s.qu q).done = false →
      (s.qu q).inReset = false → (∀ h ∈ s.dueAt q pos, h.isDone = true) →
      ∃ t, exec (.pageDuePosition q) s = .next t ∧ t.dueAt q pos = [] ∧ (t.qu q).duePause = none ∧ MemoriesKept s t) ∧
    (∀ (q : QuireId) (pos : Nat) (h : Hint) (s : State), s.nextDue q = some pos → (s.qu q).open_ = true →
      (s.qu q).done = false → (s.qu q).inReset = false → h ∈ s.dueAt q pos → h.isDone = false →
      ∃ t, exec (.pageDuePosition q) s = .next t ∧ t.qu q = { s.qu q with duePause := some pos } ∧
        { t with quires := s.quires } = s) ∧
    (∀ (p : PartId) (h : Hint) (s : State), (s.part p).hints = [h] → h.phase = .complete → h.part = p → h.freed = false →
      h.arrive ≤ (s.part p).cyc → (s.qu h.quire).duePause = none →
      ∃ t, exec (.pageCompletionArrival p) s = .next t ∧ (t.part p).hints = [{ h with phase := .arrived }] ∧
        OthersKept p s t ∧ MemoriesKept s t)) ∧
  (
    (∀ (p : PartId) (ld : LdId) (off : BitVec 30) (bytes : List Byte) (s : State), s.takesMem = true → s.bound ld p = true →
      s.fenced p = false → s.halfUp p = true → s.f (pt p) F.PG_UPL_CTRL_target = 0 → s.part p = .init → s.memMark = [] →
      s.f (pt p) F.PG_UPL_BASE_pma * 64 + off.toNat + bytes.length ≤ progEnd →
      ∃ t, exec (.uploadWrite p ld off bytes false) s = .next t ∧
        (∀ a, spGet 0 t.mem a =
          if memKey p (s.f (pt p) F.PG_UPL_BASE_pma * 64 + off.toNat) ≤ a ∧
              a < memKey p (s.f (pt p) F.PG_UPL_BASE_pma * 64 + off.toNat) + bytes.length then
            bytes.getD (a - memKey p (s.f (pt p) F.PG_UPL_BASE_pma * 64 + off.toNat)) 0
          else spGet 0 s.mem a) ∧ t.quires = s.quires ∧ t.stitchers = s.stitchers) ∧
    (∀ (w : Writer) (p : PartId) (s : State), s.gateOf w (pt p + R.PG_UPL_FLUSH.off) = .pass →
      ∃ t, exec (.uploadFlush w p) s = .next t ∧ t.f (pt p) F.PG_UPL_FLUSH_flush = 1 ∧ MemoriesKept s t ∧
        (t.part p).uploads = (s.part p).uploads.map (fun w => { w with marked := true })) ∧
    (∀ (p : PartId) (s : State), s.f (pt p) F.PG_UPL_FLUSH_flush = 1 → s.flushPending p = false →
      ∃ t, exec (.uploadFlushDone p) s = .next t ∧ t.f (pt p) F.PG_UPL_FLUSH_flush = 0 ∧ { t with regs := s.regs } = s) ∧
    (∀ (p : PartId) (s : State), s.flushPending p = true → exec (.uploadFlushDone p) s = .next s))

/-! ## Clocks, temperature, power (01_the_tick.md, 08_cord_mesh_and_spine.md, 10_collation_and_checking.md,
15_module_power_and_signals.md) -/

/-- A half's clock steps (01 R35, 08 R214, 10 R274, 15 R375): with both partitions held, a due step brings both to its point
and ends the holds; a change of the spread makes a step at the present point due in both halves; the monitor's window finds
a clock out of its band, holds both partitions and fails their open ticks; 1 ms in its band ends those holds.
States completion, that exec answers a next state with the effect named, for: clockStep, clockMonitorWindow,
clockRelockRelease, pwClkWrite. -/
def Obligations.ClockSteps : Prop :=
  (∀ (h : Half) (c : Nat) (s : State), (s.therm h).stepTo = some c → c < 4 →
    (∀ p ∈ halfParts h, s.f (pt p) F.TK_STATUS_held = 1 ∧ nothingPends s p) →
    ∃ t, exec (.clockStep h) s = .next t ∧ (t.therm h).stepTo = none ∧ MemoriesKept s t ∧
      ∀ p ∈ halfParts h, t.f (pt p) F.TK_STATUS_clock = c ∧ (t.part p).holds = (s.part p).holds.erase .clockStep) ∧
  (∀ (w : Writer) (v : Word) (s : State), s.gateOf w R.PW_CLK.off = .pass → F.PW_CLK_spread.get v = s.f hub F.PW_CLK_spread →
    ∃ t, exec (.pwClkWrite w v) s = .next t ∧ t.f hub F.PW_CLK_spread = F.PW_CLK_spread.get v ∧ t.thermal = s.thermal ∧
      t.parts = s.parts ∧ MemoriesKept s t) ∧
  (∀ (w : Writer) (v : Word) (s : State), s.gateOf w R.PW_CLK.off = .pass → F.PW_CLK_spread.get v ≠ s.f hub F.PW_CLK_spread →
    (∀ h, s.halfState h = 0 ∧ s.halfClock h ≠ 3 ∧ (s.therm h).stepTo = none) →
    ∃ t, exec (.pwClkWrite w v) s = .next t ∧ t.f hub F.PW_CLK_spread = F.PW_CLK_spread.get v ∧ MemoriesKept s t ∧
      (∀ h, (t.therm h).stepTo = some (s.halfClock h)) ∧ ∀ p, .clockStep ∈ (t.part p).holds) ∧
  (∀ (h : Half) (kHz : BitVec 32) (s : State), s.halfState h ≠ 2 → s.stew.die = true → (s.therm h).faulty = false →
    inBand kHz.toNat (s.halfClock h) = false →
    ∃ t, exec (.clockMonitorWindow h kHz) s = .next t ∧ (t.therm h).faulty = true ∧ (t.therm h).goodSince = none ∧
      MemoriesKept s t ∧ ∀ p ∈ halfParts h, .clockMonitor ∈ (t.part p).holds ∧
        ((s.part p).frameOpen = true → (t.part p).failed = true)) ∧
  (∀ (h : Half) (b : Nat) (s : State), (s.therm h).goodSince = some b → b + 1000000 ≤ s.ns →
    (∀ p ∈ halfParts h, nothingPends s p) →
    ∃ t, exec (.clockRelockRelease h) s = .next t ∧ (t.therm h).faulty = false ∧ MemoriesKept s t ∧
      ∀ p ∈ halfParts h, (t.part p).holds = (s.part p).holds.erase .clockMonitor)

/-- Throttling (01 R35, 10 R279, 15 R367): a half with a sensor at 95 degrees becomes critical, is held and goes to the
retention clock; 10 ms below 87 degrees it steps up one point; 100 ms below 85 it comes back at 1.0 GHz; a sensor at 105
degrees trips the rails; a restriction is lifted 10 ms after the temperature has left its range.
States completion, that exec answers a next state with the effect named, for: tempSample, thermalStepUp, thermalCritEnd,
thermalTrip, restrictionLift. -/
def Obligations.Throttling : Prop :=
  (∀ (junctions hubs : List Int) (plate : Int) (h : Half) (s : State), junctions.length = 72 → hubs.length = 4 → s.stew.die = true →
    95 ≤ hottest ((halfSensors h).map (fun i => junctions.getD i (-40))) → (s.therm h).level ≠ 3 →
    ∃ t, exec (.tempSample junctions hubs plate) s = .next t ∧ t.stew.temps = junctions ++ hubs ∧ (t.therm h).level = 3 ∧
      MemoriesKept s t ∧ ∀ p ∈ halfParts h, t.f (pt p) F.TK_STATUS_clock = 3 ∧ .critical ∈ (t.part p).holds ∧
        ((s.part p).frameOpen = true → (t.part p).failed = true)) ∧
  (∀ (h : Half) (b : Nat) (s : State), (s.therm h).below87 = some b → (s.therm h).level ≠ 0 → (s.therm h).level < 3 →
    s.halfClock h = (s.therm h).level → s.capLevel h < (s.therm h).level → s.halfState h = 0 → b + 10000000 ≤ s.ns →
    ∃ t, exec (.thermalStepUp h) s = .next t ∧ (t.therm h).level = (s.therm h).level - 1 ∧ (t.therm h).below87 = some s.ns ∧
      (t.therm h).stepTo = some (t.wantClock h) ∧ MemoriesKept s t ∧ ∀ p ∈ halfParts h, .clockStep ∈ (t.part p).holds) ∧
  (∀ (h : Half) (b : Nat) (s : State), (s.therm h).below85 = some b → (s.therm h).level = 3 →
    hottest ((s.stew.temps.drop 72).take 4) < 95 → b + 100000000 ≤ s.ns → (∀ p ∈ halfParts h, nothingPends s p) →
    ∃ t, exec (.thermalCritEnd h) s = .next t ∧ (t.therm h).level = 2 ∧ MemoriesKept s t ∧
      ∀ p ∈ halfParts h, t.f (pt p) F.TK_STATUS_clock = 2 ∧ (t.part p).holds = (s.part p).holds.erase .critical) ∧
  (∀ (s : State), s.stew.die = true → s.hotSensor.isSome = true →
    ∃ t, exec .thermalTrip s = .next t ∧ t.stew.die = false ∧ t.stew.pwrGood = false ∧ t.stew.faultPin = true ∧ t.mem = []) ∧
  (∀ (i : Fin 16) (r : Restriction) (b : Nat) (s : State), s.stew.restrictions[i.val]? = some r → r.leftAt = some b →
    b + 10000000 ≤ s.ns →
    ∃ t, exec (.restrictionLift i) s = .next t ∧
      t.stew.restrictions[i.val]? = some { r with inForce := false, leftAt := none } ∧
      (∀ j, j ≠ i.val → t.stew.restrictions[j]? = s.stew.restrictions[j]?) ∧ MemoriesKept s t)

/-- The clock of a half by request (08 R216 to R218): up from a stop, down when nothing of it runs, refused while a partition
of it runs or a span needs it, answered where it is there; the end of a change shows the new state.
States completion, that exec answers a next state with the effect named, for: halfClockUp, halfRetention, halfStop,
halfClockUpDone, halfClockDownDone. -/
def Obligations.HalfRequests : Prop :=
  (∀ (w : Writer) (h : Half) (s : State), s.gateOf w R.MS_HALF_REQ.off = .pass → (s.halfState h = 1 ∨ s.halfState h = 2) →
    ∃ t, exec (.halfClockUp w h) s = .next t ∧ t.halfState h = 3 ∧ t.f hub F.MS_HALF_result = 4 ∧ MemoriesKept s t ∧
      ∃ c, t.halfChange h = some c ∧ c.target = 0 ∧ c.firstDone = false ∧
        c.readyAt = s.ns + (if s.halfState h = 1 then 40000 else 300000)) ∧
  (∀ (w : Writer) (h : Half) (s : State), s.gateOf w R.MS_HALF_REQ.off = .pass → s.halfState h = 0 → s.busyRun h = false →
    s.busySpan h = false →
    (∃ t c, exec (.halfRetention w h) s = .next t ∧ t.halfState h = 3 ∧ t.f hub F.MS_HALF_result = 4 ∧ MemoriesKept s t ∧
      t.halfChange h = some c ∧ c.target = 1) ∧
    ∃ t c, exec (.halfStop w h) s = .next t ∧ t.halfState h = 3 ∧ t.f hub F.MS_HALF_result = 4 ∧ MemoriesKept s t ∧
      t.halfChange h = some c ∧ c.target = 2) ∧
  (∀ (w : Writer) (h : Half) (s : State), s.gateOf w R.MS_HALF_REQ.off = .pass → s.halfState h = 0 →
    (s.busyRun h = true ∨ s.busySpan h = true) →
    ∀ c ∈ [Instr.halfRetention w h, Instr.halfStop w h], ∃ t, exec c s = .next t ∧ t.halfState h = 0 ∧
      t.f hub F.MS_HALF_result = (if s.busyRun h then 2 else 1) ∧ t.halfChg = s.halfChg ∧ MemoriesKept s t) ∧
  (∀ (h : Half) (c : HalfChange) (s : State), s.halfChange h = some c → (c.target = 1 ∨ c.target = 2) →
    ∃ t, exec (.halfClockDownDone h) s = .next t ∧ t.halfState h = c.target ∧ t.halfChange h = none ∧ MemoriesKept s t ∧
      t.f hub F.MS_HALF_result = 0 ∧ ∀ p ∈ halfParts h, (t.part p).memAsleep = true ∧ t.f (pt p) F.TK_STATUS_clock = 3) ∧
  (∀ (h : Half) (c : HalfChange) (s : State), s.halfChange h = some c → c.target = 0 → c.firstDone = true → c.secondAt ≤ s.ns →
    s.spine = [] →
    ∃ t, exec (.halfClockUpDone h) s = .next t ∧ t.halfState h = 0 ∧ t.halfChange h = none ∧ MemoriesKept s t ∧
      t.f hub F.MS_HALF_result = 0 ∧ ∀ p ∈ halfParts h, p ≠ c.first → (t.part p).memAsleep = false)

/-- Power (01 R33, R34, 15 R361, R362, R365, R366, R374): a sample above 105% of a partition's frame budget engages its cap;
the registers show the samples; a budget write within its limits stands, one outside them changes none; an input fault
takes the rails away; HB_TICK_IO takes a value once no pulse is driven.
States completion, that exec answers a next state with the effect named, for: inputSample, powerSample, pwBudgetWrite,
hbTickIoWrite. -/
def Obligations.PowerInputs : Prop :=
  (∀ (fast slow : List Nat) (input : Nat) (p : PartId) (s : State), fast.length = 4 → slow.length = 4 → s.stew.die = true →
    (s.part p).capOwn = false → 105 * (s.part p).budget < 100 * fast.getD p.val 0 → s.f (pt p) F.PW_PART_cap = 0 →
    ∃ t, exec (.powerSample fast slow input) s = .next t ∧ t.f (pt p) F.PW_PART_cap = 1 ∧ (t.part p).capOwn = true ∧
      (t.part p).capAt = some (s.part p).cyc ∧ t.f (pt p) F.PW_PART_watts = min 2047 (slow.getD p.val 0) ∧
      t.f hub F.PW_MODULE_watts = min 4095 input ∧ MemoriesKept s t) ∧
  (∀ (mv ca : BitVec 16) (s : State), s.stew.running = true → s.stew.die = true → inputBand mv.toNat ≠ 2 →
    ∃ t, exec (.inputSample mv ca) s = .next t ∧ t.f hub F.PW_INPUT_mv = mv.toNat ∧
      t.f hub F.PW_INPUT_centiamps = ca.toNat ∧ t.stew.band = inputBand mv.toNat ∧
      t.f hub F.PW_MODULE_out_of_rating = inputBand mv.toNat ∧ t.stew.die = true ∧ MemoriesKept s t) ∧
  (∀ (mv ca : BitVec 16) (s : State), s.stew.running = true → s.stew.devTest ≠ some 3 → inputBand mv.toNat = 2 →
    ∃ t, exec (.inputSample mv ca) s = .next t ∧ t.stew.die = false ∧ t.stew.running = false ∧ t.stew.faultPin = true ∧
      t.mem = [] ∧ t.stew.pwrGood = false) ∧
  (∀ (w : Writer) (p : PartId) (v : Word) (s : State), s.gateOf w (pt p + R.PW_BUDGET.off) = .pass →
    ∃ t, exec (.pwBudgetWrite w p v) s = .next t ∧ MemoriesKept s t ∧ t.parts = s.parts ∧
      t.budgetOf p = (if s.budgetCause p (F.PW_BUDGET_watts.get v) = 0x72 then F.PW_BUDGET_watts.get v else s.budgetOf p)) ∧
  (∀ (w : Writer) (v : Word) (s : State), s.gateOf w R.HB_TICK_IO.off = .pass → s.ioNext = none → s.pulseEnd ≤ s.now →
    ∃ t, exec (.hbTickIoWrite w v) s = .next t ∧ t.rd hub R.HB_TICK_IO = tickIoWord (s.rd hub R.HB_TICK_IO) v ∧
      t.ioNext = none ∧ t.parts = s.parts ∧ MemoriesKept s t)

/-! ## The mesh and the spine (08_cord_mesh_and_spine.md) -/

/-- Links (R198, R199, R200): a good flit ends a run of failures; a bad one is counted, the fourth in a row retrains the
link, and after a retraining the fourth takes it down and asks for the reset of the partitions it was home to; a retraining
ends; a failing lane is switched to a spare while everything that uses the link is held and nothing is in flight; a credit
late in transit is handed to its sender with the pause counted.

A map switch (R203, R204): with the span held, nothing in flight and no half clocked down, a new map of the partition's
block stands in the registers and in every copy, the generation advances, every quire owes the tip-in slip and the hold
ends; a map that leaves the block is not written (00_scope.md R4). A MAPSET message brings the map to one stop; into a
clocked-down half it is held (R218); dropped at a stop for parity, it leaves the map before to every stop that it would have
fed (R210).
States completion, that exec answers a next state with the effect named, for: linkFlit, linkRetrainDone, laneSpare,
lateTransitArrival, mapSwitch, spineMapset. -/
def Obligations.LinksAndMaps : Prop :=
  (
    (∀ (n : LinkId) (dir : Bool) (lane : Fin 1056) (s : State), (s.link n dir).down = false → (s.link n dir).retrainEnd = none →
      ∃ t, exec (.linkFlit n dir true lane) s = .next t ∧ t.link n dir = { s.link n dir with fails := 0, again := false } ∧
        (∀ m d, (m, d) ≠ (n, dir) → t.link m d = s.link m d) ∧ MemoriesKept s t ∧ t.parts = s.parts) ∧
    (∀ (n : LinkId) (dir : Bool) (lane : Fin 1056) (s : State), (s.link n dir).down = false → (s.link n dir).retrainEnd = none →
      ∃ t, exec (.linkFlit n dir false lane) s = .next t ∧ MemoriesKept s t ∧ t.parts = s.parts ∧
        (t.link n dir).crc = min 65535 ((s.link n dir).crc + 1) ∧
        (∀ m d, (m, d) ≠ (n, dir) → t.link m d = s.link m d) ∧
        ((s.link n dir).fails < 3 → (t.link n dir).fails = (s.link n dir).fails + 1 ∧ (t.link n dir).retrainEnd = none) ∧
        (3 ≤ (s.link n dir).fails → (s.link n dir).again = false → (t.link n dir).fails = 0 ∧ (t.link n dir).again = true ∧
          (t.link n dir).retrainEnd = some (s.ns + 2000)) ∧
        (3 ≤ (s.link n dir).fails → (s.link n dir).again = true → (t.link n dir).down = true ∧
          ∀ p ∈ homeParts n, (p, 4) ∈ t.stew.resetReqs)) ∧
    (∀ (n : LinkId) (dir : Bool) (e : Nat) (s : State), (s.link n dir).retrainEnd = some e → e ≤ s.ns →
      ∃ t, exec (.linkRetrainDone n dir) s = .next t ∧ t.link n dir = { s.link n dir with retrainEnd := none } ∧
        (∀ m d, (m, d) ≠ (n, dir) → t.link m d = s.link m d) ∧ { t with links := s.links } = s) ∧
    (∀ (n : LinkId) (dir : Bool) (lane : Nat) (rest : List Nat) (s : State), (s.link n dir).failing = lane :: rest → (s.link n dir).spared.length < 2 →
      (∀ p ∈ s.linkParts n, s.f (pt p) F.TK_STATUS_held = 1 ∧ (s.part p).uploads = [] ∧ (s.part p).hints = []) →
      s.flights = [] → s.creditFlights = [] →
      ∃ t, exec (.laneSpare n dir) s = .next t ∧ (t.link n dir).failing = rest ∧
        (t.link n dir).spared = (s.link n dir).spared ++ [lane] ∧ (linkKey n dir, lane) ∈ t.stew.lanes ∧
        (∀ m d, (m, d) ≠ (n, dir) → t.link m d = s.link m d) ∧ MemoriesKept s t) ∧
    (∀ (q : QuireId) (n : BitVec 16) (cause : LateCause) (upset : Word) (c : CreditFlight) (l : List CreditFlight) (s : State),
      takeLeast s.creditKey (s.creditFlights.filter (fun c => decide (c.src = q) && !s.creditSpan c)) = some (c, l) →
      s.unitWaits c.from_ c.src = false → s.addressed c.from_ q = s.tileOf q → c.arrive ≤ (s.qu q).runAt c.usePos →
      c.epoch = s.f (eb q c.entry) F.CH_ROUTE_A_epoch → n ≠ 0 →
      ∃ t, exec (.lateTransitArrival q true n cause upset) s = .next t ∧ t.creditFlights = s.creditFlights.erase c ∧
        t.flights = s.flights ∧ (t.qu q).transit = (s.qu q).transit + n.toNat ∧
        (t.qu q).transitUnits = (s.qu q).transitUnits + 1 ∧
        t.f (eb q c.entry) F.CH_ROUTE_D_held = (s.f (eb q c.entry) F.CH_ROUTE_D_held + c.units) % 2 ^ 19 ∧ MemoriesKept s t)) ∧
  (
    (∀ (p : PartId) (m : List (Option TileId)) (spare : Option TileId) (s : State), mapOk p m spare = true → (∀ r, s.halfDown r = false) → s.spanOf p = [p] →
      (s.part p).frameOpen = false → s.unitsOf p = 0 → nothingPends s p →
      ∃ t, exec (.mapSwitch p m spare) s = .next t ∧ MemoriesKept s t ∧
        (∀ i, i < 8 → t.rd (pt p) (R.MS_MAP.nth i) = mapWord (m.getD i none)) ∧
        t.rd (pt p) R.MS_SPARE = mapWord spare ∧
        t.f (pt p) F.MS_MAPGEN_gen = (s.f (pt p) F.MS_MAPGEN_gen + 1) % 2 ^ F.MS_MAPGEN_gen.w ∧
        (∀ i, i < 8 → (t.qu (quireOf p i)).tipinDue = (s.qu (quireOf p i)).tipinDue + 1) ∧
        (∀ stop, stop < 42 → spGet [] t.mapCopies (4 * stop + p.val) = t.mapWords p)) ∧
    (∀ (p : PartId) (m : List (Option TileId)) (spare : Option TileId) (s : State), mapOk p m spare = false →
      exec (.mapSwitch p m spare) s = .next s) ∧
    (∀ (p : PartId) (stop : Fin 42) (s : State), (stop.val < 36 → s.halfDown (tilePart stop.val) = false) →
      ∃ t, exec (.spineMapset p stop none) s = .next t ∧ spGet [] t.mapCopies (4 * stop.val + p.val) = s.mapWords p ∧
        (∀ k, k ≠ 4 * stop.val + p.val → spGet [] t.mapCopies k = spGet [] s.mapCopies k) ∧
        { t with mapCopies := s.mapCopies } = s) ∧
    (∀ (p : PartId) (stop : Fin 42) (s : State), stop.val < 36 → s.halfDown (tilePart stop.val) = true →
      ∃ t, exec (.spineMapset p stop none) s = .next t ∧ t.mapCopies = s.mapCopies ∧ t.parts = s.parts ∧ MemoriesKept s t ∧
        ∃ m, m ∈ t.spine ∧ m.held = true ∧ m.opcode = 0x09 ∧ m.arg = p.val) ∧
    (∀ (p : PartId) (stop : Fin 42) (h : Hop) (s : State),
      let d := (spineRoute 39 stop.val).getD (min h.val ((spineRoute 39 stop.val).length - 1)) 39
      ∃ t, exec (.spineMapset p stop (some h)) s = .next t ∧ MemoriesKept s t ∧
        (∀ i, i < 42 → spGet [] t.mapCopies (4 * i + p.val) =
          if feeds 39 d i then spGet [] s.mapBefore p.val else spGet [] s.mapCopies (4 * i + p.val)) ∧
        t.f (pt p) F.SP_STAT_parity = min (2 ^ F.SP_STAT_parity.w - 1) (s.f (pt p) F.SP_STAT_parity + 1)))

/-- The exchange of messages (R205, R207 to R210, R218): an ACK ends a message; the first timeout sends it again, the second
ends it, and a register read so lost answers zero; an ASLEEP notice ends the message it refuses; a RESET message that arrives
starts its reset; an INTAKE message that arrives stands at its quire, one that fails parity is gone. Every flit carries its
payload and passes the check of a stop, and one with any one bit changed fails it; a message has a head flit and one flit for
each word of its payload.
States completion, that exec answers a next state with the effect named, for: spineIntake, spineReset, spineAsleep, spineAck,
spineAckTimeout. -/
def Obligations.SpineExchange : Prop :=
  (∀ (payload : BitVec 32) (cls : Fin 5) (head tail wake : Bool),
    (flit payload cls.val head tail wake).extractLsb' 0 32 = payload ∧ flitOk (flit payload cls.val head tail wake) = true ∧
      ∀ i : Fin 48, flitOk (flit payload cls.val head tail wake ^^^ (1#48 <<< i.val)) = false) ∧
  (∀ (m : SpMsg) (s : State), (s.flits m).length = 1 + (s.payload m).length ∧ ∀ w ∈ s.flits m, flitOk w = true) ∧
  (∀ (stop : Fin 42) (cls : Fin 5) (seq : Byte) (m : SpMsg) (s : State), s.spine = [m] → m.stop = stop.val → m.cls = cls.val →
    m.seq = seq.toNat → m.opcode ≠ 0x7E → m.got = true →
    ∃ t, exec (.spineAck stop cls seq) s = .next t ∧ t.spine = [] ∧ { t with spine := s.spine } = s) ∧
  (∀ (stop : Fin 42) (cls : Fin 5) (seq : Byte) (m : SpMsg) (s : State), s.spine = [m] → m.stop = stop.val → m.cls = cls.val →
    m.seq = seq.toNat → m.opcode ≠ 0x7E → (m.held = false ∨ m.wake = false) → m.sentAt + 2000 ≤ s.ns → m.again = false →
    ∃ t, exec (.spineAckTimeout stop cls seq) s = .next t ∧
      t.spine = [{ m with again := true, lost := false, sentAt := s.ns }] ∧ MemoriesKept s t ∧ t.parts = s.parts ∧
      ∀ p, m.part = some p → t.f (pt p) F.SP_STAT_timeouts =
        min (2 ^ F.SP_STAT_timeouts.w - 1) (s.f (pt p) F.SP_STAT_timeouts + 1)) ∧
  (∀ (stop : Fin 42) (cls : Fin 5) (seq : Byte) (m : SpMsg) (s : State), s.spine = [m] → m.stop = stop.val → m.cls = cls.val →
    m.seq = seq.toNat → m.opcode = 0x20 → (m.held = false ∨ m.wake = false) → m.sentAt + 2000 ≤ s.ns → m.again = true →
    ∃ t, exec (.spineAckTimeout stop cls seq) s = .next t ∧ t.spine = [] ∧ t.regAns = s.regAns ++ [(m.arg, 0)] ∧
      MemoriesKept s t ∧ t.parts = s.parts) ∧
  (∀ (stop : Fin 42) (cls : Fin 5) (seq : Byte) (n m : SpMsg) (s : State), s.spine = [n, m] → n.opcode = 0x7E →
    n.dest = stop.val → n.cls = cls.val → n.arg = seq.toNat → m.stop = stop.val → m.cls = cls.val → m.seq = seq.toNat →
    n ≠ m → m.opcode = 0x20 →
    ∃ t, exec (.spineAsleep stop cls seq none) s = .next t ∧ t.spine = [] ∧ t.regAns = s.regAns ++ [(m.arg, 0)] ∧
      { t with spine := s.spine, regAns := s.regAns } = s) ∧
  (∀ (q : QuireId) (late : Bool) (s : State), s.present q = true → s.halfDown (partOf q) = false →
    s.partResets (partOf q) = false → s.spine = [] → (s.qu q).inReset = false →
    ∃ t, exec (.spineReset (.quire q late) none) s = .next t ∧ (t.qu q).inReset = true ∧
      (t.qu q).resetCause = (if late then 0xC1 else 0xC0) ∧ (t.qu q).open_ = false ∧ (t.qu q).ops = [] ∧
      t.f (qb q) F.RS_QUIRE_in_reset = 1 ∧ .quireReset ∈ (t.part (partOf q)).holds ∧ t.mem = s.mem ∧
      (∀ r, r ≠ q → (t.qu r).leaf = (s.qu r).leaf) ∧ ∀ i, (t.st ⟨q, i⟩).inReset = true) ∧
  (∀ (p : PartId) (cause : Nat) (s : State), s.spine = [] → s.stew.resetReqs = [(p, cause)] → (s.part p).recovery = none →
    s.f (pt p) F.RS_STATUS_withdrawn = 0 →
    ∃ t r, exec (.spineReset (.part p) none) s = .next t ∧ (t.part p).recovery = some r ∧ r.cause = cause ∧
      t.f (pt p) F.RS_STATUS_state = 1 ∧ t.stew.resetReqs = [] ∧ MemoriesKept s t) ∧
  (∀ (p : PartId) (r : Fin 4) (i : Intake) (s : State), (s.part p).intakes = [i] → i.ring = r.val → i.got = false →
    i.tick < 2 ^ 16 →
    (∃ t, exec (.spineIntake p r none 0) s = .next t ∧ (t.part p).intakes = [{ i with got := true }] ∧
      OthersKept p s t ∧ { t with parts := s.parts } = s) ∧
    ∀ h : Hop, ∃ t, exec (.spineIntake p r (some h) 0) s = .next t ∧ (t.part p).intakes = [] ∧ OthersKept p s t ∧ MemoriesKept s t)

/-- Register access (00_scope.md R9, R10; 08 R207): a write that is let through makes the writable bits of its register the
value's, in the hub's block, a partition's and a quire's; a read of the hub's block is answered with the register's value; a
read of a partition's block is answered by a REG.DATA message, which its requester takes when it arrives; a write of another
width than 32 bits has no effect.
States completion, that exec answers a next state with the effect named, for: regRd, regWr, regData, registerWrite. -/
def Obligations.RegisterAccess : Prop :=
  (∀ (w : Writer) (v : Word) (s : State), s.gateOf w R.EV_CFG.off = .pass →
    ∀ c ∈ [Instr.registerWrite w ⟨(BitVec.ofNat 28 R.EV_CFG.off), .w32⟩ v, Instr.regWr w ⟨(BitVec.ofNat 28 R.EV_CFG.off), .w32⟩ v ⟨false, none⟩],
    ∃ t, exec c s = .next t ∧ t.f hub F.EV_CFG_flood_us = F.EV_CFG_flood_us.get v ∧ MemoriesKept s t ∧ t.parts = s.parts) ∧
  (∀ (w : Writer) (p : PartId) (v : Word) (s : State), s.gateOf w (pt p + R.CH_DRAIN.off) = .pass → s.spine = [] →
    ∀ c ∈ [Instr.registerWrite w ⟨(BitVec.ofNat 28 (pt p + R.CH_DRAIN.off)), .w32⟩ v,
        Instr.regWr w ⟨(BitVec.ofNat 28 (pt p + R.CH_DRAIN.off)), .w32⟩ v ⟨false, none⟩],
    ∃ t, exec c s = .next t ∧ t.f (pt p) F.CH_DRAIN_limit_ns = F.CH_DRAIN_limit_ns.get v ∧ MemoriesKept s t ∧
      t.parts = s.parts) ∧
  (∀ (w : Writer) (q : QuireId) (i : Fin 64) (v : Word) (s : State),
    reaches s w (qb q + (R.ST_SR_SEED.nth i.val).off) → s.spine = [] →
    ∀ c ∈ [Instr.registerWrite w ⟨(BitVec.ofNat 28 (qb q + (R.ST_SR_SEED.nth i.val).off)), .w32⟩ v,
        Instr.regWr w ⟨(BitVec.ofNat 28 (qb q + (R.ST_SR_SEED.nth i.val).off)), .w32⟩ v ⟨false, none⟩],
    ∃ t, exec c s = .next t ∧ t.rd (qb q) (R.ST_SR_SEED.nth i.val) = v ∧ MemoriesKept s t ∧ t.parts = s.parts) ∧
  (∀ (addr : BitVec 28) (wake : Bool) (s : State), s.stew.die = true → (∀ p, (s.part p).pubs = []) → blockPart addr.toNat = none → addr.toNat % 4 = 0 →
    ∃ t, exec (.regRd .steward ⟨addr, .w32⟩ ⟨wake, none⟩) s = .next t ∧ MemoriesKept s t ∧ t.parts = s.parts ∧
      t.regAns = s.regAns ++ [(readKey .steward addr.toNat, (s.readReg 0xFF addr.toNat).2)]) ∧
  (∀ (addr : BitVec 28) (wake : Bool) (p : PartId) (s : State), s.stew.die = true → (∀ r, (s.part r).pubs = []) → blockPart addr.toNat = some p → addr.toNat % 4 = 0 →
    s.asleepCause addr.toNat = none → s.spine = [] →
    ∃ t m, exec (.regRd .steward ⟨addr, .w32⟩ ⟨wake, none⟩) s = .next t ∧ MemoriesKept s t ∧ t.parts = s.parts ∧ t.regAns = s.regAns ∧
      t.spine.getLast? = some m ∧ m.opcode = 0x22 ∧ m.dest = accessDest .steward ∧ m.arg = readKey .steward addr.toNat ∧
      m.data = (s.readReg 0xFF addr.toNat).2.toNat ∧ underway m) ∧
  (∀ (w : Writer) (addr : BitVec 28) (m : SpMsg) (s : State), s.spine = [m] → m.opcode = 0x22 →
    m.arg = readKey w addr.toNat → m.dest = accessDest w → underway m →
    ∃ t, exec (.regData w addr none) s = .next t ∧
      t.regAns = s.regAns ++ [(readKey w addr.toNat, BitVec.ofNat 32 m.data)] ∧ t.spine = [{ m with got := true }] ∧
      { t with spine := s.spine, regAns := s.regAns } = s) ∧
  (∀ (w : Writer) (r : RegAt) (v : Word) (way : RegWay) (s : State), r.width ≠ .w32 →
    exec (.registerWrite w r v) s = .next s ∧ exec (.regWr w r v way) s = .next s)

/-! ## Program load (08_cord_mesh_and_spine.md R212, R213) -/

/-- A program load (R32, R211 to R213): the doorbell starts it where the partition does not run and the image fits its
budget and the present quires; a header and a chunk reach their stitchers; LOAD.END asks every stitcher for its answer; an
answer that another one follows is taken, the last one of sealed stitchers ends the load done; a silent stitcher's whole
image is to be resent.
States completion, that exec answers a next state with the effect named, for: loadBegin, loadData, loadEnd, loadStat,
loadAnswerTimeout, doorbellProgramLoad. -/
def Obligations.ProgramLoads : Prop :=
  (∀ (p : PartId) (im : Image) (n : Notice) (s : State), s.delivered p 1 = some n → n.ptr / 64 = im.pma →
    s.running p = false → s.estimate p im ≤ s.f (pt p) F.PW_BUDGET_watts * 100 → s.badShape p im = false →
    ∃ t, exec (.doorbellProgramLoad p im) s = .next t ∧ loading t p im 0 [] ∧ t.f (pt p) F.SP_LOAD_state = 1) ∧
  (∀ (u : StId) (im : StImage) (l : Load) (s : State), s.imageOf u = some (l, im) → im.u = u → s.spine = [] →
    s.present u.quire = true → s.halfDown (partOf u.quire) = false →
    ∃ t, exec (.loadBegin u none) s = .next t ∧ (t.st u).loadHdr = some (imCount im 0, imCount im 1, im.crc) ∧
      (∀ v, v ≠ u → t.st v = s.st v) ∧ t.mem = s.mem ∧ t.quires = s.quires) ∧
  (∀ (p : PartId) (im : Image) (x : StImage) (chunk : Fin 512) (s : State), loading s p im 0 [] → im.stitchers = [x] →
    partOf x.u.quire = p → chunk.val < imCount x 1 →
    s.halfDown p = false →
    ∃ t, exec (.loadData p 255 (BitVec.allOnes 64) 1 chunk [] [] 0 0) s = .next t ∧ t.f (pt p) F.SP_LOAD_state = 2 ∧
      (t.st x.u).arrived (1, chunk.val) = true ∧
      memRead (t.st x.u).pocket (32 * chunk.val) 32 = chunkOf (imBytes x 1) chunk.val ∧
      (∀ v, v ≠ x.u → t.st v = s.st v) ∧ t.mem = s.mem ∧ t.quires = s.quires) ∧
  (∀ (p : PartId) (im : Image) (s : State), loading s p im 0 [] → im.stitchers ≠ [] → s.halfDown p = false →
    (∀ x ∈ im.stitchers, partOf x.u.quire = p) →
    ∃ t, exec (.loadEnd p [] []) s = .next t ∧ loading t p im 1 (im.stitchers.map (fun x => x.u)) ∧
      t.f (pt p) F.SP_LOAD_state = 3 ∧ MemoriesKept s t) ∧
  (∀ (u : StId) (im : Image) (x : StImage) (l : Load) (s : State), s.imageOf u = some (l, x) → u ∈ l.waiting → u ∉ l.deaf →
    l.waiting.erase u ≠ [] → s.f (sb u) F.ST_STATUS_sealed = 1 → s.spine = [] → l.image = im →
    ∃ t, exec (.loadStat u none) s = .next t ∧ loading t (partOf u.quire) im l.round (l.waiting.erase u) ∧
      t.f (pt (partOf u.quire)) F.SP_LOAD_state = 3 ∧ MemoriesKept s t) ∧
  (∀ (u : StId) (x : StImage) (l : Load) (s : State), s.imageOf u = some (l, x) → l.waiting = [u] → u ∉ l.deaf →
    (∀ y ∈ l.image.stitchers, s.f (sb y.u) F.ST_STATUS_sealed = 1) → s.spine = [] →
    s.f (sb u) F.ST_STATUS_sealed = 1 → nothingPends s (partOf u.quire) →
    ∃ t, exec (.loadStat u none) s = .next t ∧ (t.part (partOf u.quire)).load = none ∧
      (t.part (partOf u.quire)).image = some l.image ∧ t.f (pt (partOf u.quire)) F.SP_LOAD_state = 5 ∧ MemoriesKept s t) ∧
  (∀ (u : StId) (x : StImage) (l : Load) (s : State), s.imageOf u = some (l, x) → u ∈ l.waiting → l.waiting.erase u ≠ [] →
    l.endAt + 2000 ≤ s.ns →
    ∃ t l', exec (.loadAnswerTimeout u) s = .next t ∧ (t.part (partOf u.quire)).load = some l' ∧
      l'.waiting = l.waiting.erase u ∧ l'.gaps = l.gaps ++ (imChunks x).map (fun c => (u, c.1, c.2)) ∧ MemoriesKept s t)

/-! ## Inbox rings and results (09_host_attachment.md) -/

/-- Inbox rings (R236 to R245): a good line write stands in its ring; a head message that waits past its limit shows stale;
skip passes the head message, reset empties the ring; the next sealed message goes to its landing slot through the write
buffer; an intake token whose landing copy has landed is released.
States completion, that exec answers a next state with the effect named, for: inboxLineWrite, inboxStale, inboxSkip,
inboxReset, landingCopy, intakeTokenRelease. -/
def Obligations.InboxRings : Prop :=
  (∀ (ld : LdId) (p : PartId) (r : Fin 4) (l : Nat) (off : BitVec 20) (bytes : List Byte) (s : State), s.takesMem = true →
    s.bound ld p = true → s.fenced p = false → off.toNat = r.val * 0x40000 + 64 * l → l < s.ringSize p r → l < 4096 →
    bytes.length = 64 → s.f (ib p r) F.CX_IN_CFG_valid = 1 → s.f (ib p r) F.CX_IN_CFG_strike = 0 →
    linesOf ((s.ring p r).sealedBy (s.part p).cyc) ≤ (l + s.ringSize p r - s.f (ib p r) F.CX_IN_CONS_c % s.ringSize p r) % s.ringSize p r →
    ∃ t, exec (.inboxLineWrite ld p off bytes false) s = .next t ∧ (t.ring p r).line l = bytes ∧
      (∀ k, k ≠ l → (t.ring p r).line k = (s.ring p r).line k) ∧ spGet 0 (t.ring p r).came l ≠ 0 ∧ MemoriesKept s t ∧
      OthersKept p s t) ∧
  (∀ (p : PartId) (r : Fin 4) (s : State), s.f (ib p r) F.CX_IN_CFG_valid = 1 → s.f (ib p r) F.CX_IN_STAT_bad = 0 →
    (s.ring p r).msgs = [] → (s.ring p r).staleSeen = false → (s.headLines p r).1 ≠ 0 →
    (s.headLines p r).2 - 1 + 1000 * (if s.f (pt p) F.CX_IN_STALE_limit_us = 0 then 10000
      else s.f (pt p) F.CX_IN_STALE_limit_us) ≤ s.ns →
    ∃ t, exec (.inboxStale p r) s = .next t ∧ t.f (ib p r) F.CX_IN_STAT_stale = 1 ∧ (t.ring p r).staleSeen = true ∧
      MemoriesKept s t ∧ OthersKept p s t) ∧
  (∀ (w : Writer) (p : PartId) (r : Fin 4) (m : InMsg) (l : List InMsg) (s : State),
    s.gateOf w (ib p r + R.CX_IN_CTRL.off) = .pass → (s.ring p r).msgs = m :: l → s.f (ib p r) F.CX_IN_CFG_strike = 0 →
    ∃ t, exec (.inboxSkip w p r) s = .next t ∧ MemoriesKept s t ∧ OthersKept p s t ∧
      t.f (ib p r) F.CX_IN_CONS_c = (s.f (ib p r) F.CX_IN_CONS_c + m.lines) % 2 ^ 32 ∧
      t.f (ib p r) F.CX_IN_SEQ_next = (s.f (ib p r) F.CX_IN_SEQ_next + 1) % 2 ^ 32) ∧
  (∀ (w : Writer) (p : PartId) (r : Fin 4) (s : State), s.gateOf w (ib p r + R.CX_IN_CTRL.off) = .pass →
    ∃ t, exec (.inboxReset w p r) s = .next t ∧ (t.ring p r).msgs = [] ∧ (t.ring p r).came = [] ∧
      t.f (ib p r) F.CX_IN_CONS_c = 0 ∧ t.f (ib p r) F.CX_IN_SEQ_next = 0 ∧ t.f (ib p r) F.CX_IN_STAT_bad = 0 ∧
      t.f (ib p r) F.CX_IN_STAT_sealed = 0 ∧ MemoriesKept s t ∧ OthersKept p s t) ∧
  (∀ (p : PartId) (r : Fin 4) (m : InMsg) (s : State),
    nextCopy [] ((s.ring p r).bound ++ (s.ring p r).msgs) = some (m, []) →
    let q := quireOf p (s.f (ib p r) F.CX_IN_TGT_quire)
    let a := (s.landSlot p r m.seq).2
    (s.qu q).wwait = [] → (s.qu q).wbuf.length + (rowParts a m.landed.length).length ≤ 32 →
    ∃ t, exec (.landingCopy p r) s = .next t ∧ MemoriesKept s t ∧
      (t.qu q).wbuf = (s.qu q).wbuf ++ (rowParts a m.landed.length).map (fun v =>
        { addr := v.1, bytes := (m.landed.drop (v.1 - a)).take v.2, writer := unitWord 0x10 0, poison := 0, marked := false,
          page := none })) ∧
  (∀ (p : PartId) (r : Fin 4) (d : DueTok) (seq : Nat) (s : State), (s.part p).dueToks = [d] → d.msg = some (r.val, seq) →
    (s.qu d.u.quire).open_ = true → s.copyLanded p r seq = true → d.blocked = false → d.port < 32 → d.tag < 4096 →
    let k : Tok := { data := d.data, tag := d.tag, port := d.port, epoch := s.f (qb d.u.quire) F.CH_EPOCH_epoch, ctl := d.ctl,
                     check := 0 }
    receivable s d.u (k.sealed d.u) →
    ∃ t, exec (.intakeTokenRelease p r) s = .next t ∧ (t.part p).dueToks = [] ∧
      TookToken d.u (k.sealed d.u) d.pos .internal s t ∧ t.mem = s.mem ∧ t.quires = s.quires)

/-- Results (R246 to R251): a forwarded write of payload bytes stands in its slot's area; one of the control line makes its
tick's control line known; an acknowledge that does not go back or ahead is kept.
States completion, that exec answers a next state with the effect named, for: forwardedWrite, resultAckWrite. -/
def Obligations.ResultStore : Prop :=
  (∀ (q : QuireId) (w : Fwd) (l : List Fwd) (s : State), (s.qu q).forwards = w :: l →
    s.forwardAt q w ≤ (s.part (partOf q)).cyc → (s.part (partOf q)).pubs = [] →
    (s.slot (partOf q) w.slot).closed w.tick = false → (s.slot (partOf q) w.slot).ctl ≠ some w.tick → 64 ≤ w.off →
    w.bytes ≠ [] →
    ∃ t, exec (.forwardedWrite q) s = .next t ∧ (t.qu q).forwards = l ∧ MemoriesKept s t ∧
      memRead (t.part (partOf q)).result ((s.slotPlaces (partOf q) w.slot w.tick).2 + (w.off - 64)) w.bytes.length = w.bytes ∧
      (∀ a, (a < (s.slotPlaces (partOf q) w.slot w.tick).2 + (w.off - 64) ∨
          (s.slotPlaces (partOf q) w.slot w.tick).2 + (w.off - 64) + w.bytes.length ≤ a) →
        spGet 0 (t.part (partOf q)).result a = spGet 0 (s.part (partOf q)).result a) ∧ OthersKept (partOf q) s t) ∧
  (∀ (q : QuireId) (w : Fwd) (l : List Fwd) (s : State), (s.qu q).forwards = w :: l →
    s.forwardAt q w ≤ (s.part (partOf q)).cyc → (s.part (partOf q)).pubs = [] →
    (s.slot (partOf q) w.slot).closed w.tick = false → (s.slot (partOf q) w.slot).ctl ≠ some w.tick →
    w.off < 64 → w.off + w.bytes.length ≤ 64 →
    ∃ t, exec (.forwardedWrite q) s = .next t ∧ (t.qu q).forwards = l ∧ MemoriesKept s t ∧
      (t.slot (partOf q) w.slot).ctl = some w.tick ∧ (t.part (partOf q)).result = (s.part (partOf q)).result ∧
      (w.off = 0 → w.bytes.length = 8 → (t.slot (partOf q) w.slot).len = leAt w.bytes 0 2 ∧
        (t.slot (partOf q) w.slot).app = leAt w.bytes 4 4) ∧ OthersKept (partOf q) s t) ∧
  (∀ (ld : LdId) (p : PartId) (k : Fin 32) (v : DWord) (s : State), s.takesMem = true → s.bound ld p = true →
    s.fenced p = false → (s.part p).pubs = [] → s.f (lb p k) F.CX_SLOT_CFG_valid = 1 → s.f (lb p k) F.CX_SLOT_CFG_mode = 1 →
    (s.slot p k).ack ≤ v.toNat → v.toNat ≤ (s.slot p k).seq →
    ∃ t, exec (.resultAckWrite ld p k v) s = .next t ∧ (t.slot p k).ack = v.toNat ∧ (t.slot p k).seq = (s.slot p k).seq ∧
      memRead (t.part p).result (s.f (lb p k) F.CX_SLOT_CFG_base * 4096) 8 = leBytes 8 v.toNat ∧ OthersKept p s t ∧
      MemoriesKept s t)

/-! ## The host's window and the link (09_host_attachment.md) -/

/-- The window and the link (R224 to R231): a read is answered with its line, which the filter tracks; a write to the
command area stands there; a response to a back-invalidate frees the line; a failed integrity check makes the streams
insecure, programmed keys secure; a retraining shows in CX_LINK; the owner role moves to a presented LD; a function-level
reset clears the LD's notices, completions and control page and resets its partitions.
States completion, that exec answers a next state with the effect named, for: hostRead, hostWriteOther, cxlIdeFail,
setOwnerLd, functionLevelReset, cxlLinkRetrain, ideKeysProgrammed, backInvalidateResponse. -/
def Obligations.WindowAndLink : Prop :=
  (∀ (ld : LdId) (line : BitVec 35) (s : State), s.stew.die = true → s.insecure = false → s.filter.length < filterSize →
    (∀ p, (s.part p).pubs = []) →
    ∃ t, exec (.hostRead ld ⟨.window, line⟩) s = .next t ∧ t.hostData = (s.hostLine ld (64 * line.toNat)).2 ∧
      (ld.val, line.toNat) ∈ t.filter ∧ MemoriesKept s t ∧ (∀ p, t.part p = s.part p) ∧
      (s.withdrawn = false → line.toNat < 64 →
        t.hostData = memRead s.ctlPage (ld.val * 4096 + 64 * line.toNat) 64)) ∧
  (∀ (ld : LdId) (line : BitVec 35) (s : State), s.stew.die = true → s.insecure = false → s.withdrawn = false →
    64 * line.toNat + 64 ≤ 16384 → (∀ p, (s.part p).pubs = []) →
    ∃ t, exec (.hostRead ld ⟨.bar2, line⟩) s = .next t ∧ MemoriesKept s t ∧ (∀ p, t.part p = s.part p) ∧
      t.hostData = (List.range 64).map (fun i => s.bar2At (ld.val * 16384 + 64 * line.toNat + i))) ∧
  (∀ (ld : LdId) (off : BitVec 41) (bytes : List Byte) (s : State), s.takesMem = true → off.toNat % 4 = 0 →
    bytes.length % 4 = 0 → off.toNat + bytes.length ≤ 16384 →
    exec (.hostWriteOther ld ⟨.bar2, off⟩ bytes false) s = .next (s.bar2Write ld.val off.toNat bytes)) ∧
  (∀ (ld : LdId) (off : BitVec 41) (bytes : List Byte) (s : State), s.takesOwn ld = true → 0x10000 ≤ off.toNat →
    off.toNat + bytes.length ≤ 0x20000 →
    ∃ t, exec (.hostWriteOther ld ⟨.window, off⟩ bytes false) s = .next t ∧
      t.cmdArea = memWrite s.cmdArea (ld.val * 65536 + (off.toNat - 0x10000)) bytes ∧ { t with cmdArea := s.cmdArea } = s) ∧
  (∀ (ld : LdId) (line : BitVec 35) (s : State), s.snoops.contains (ld.val, line.toNat) = true → s.readWait = [] →
    ∃ t, exec (.backInvalidateResponse ld line none) s = .next t ∧ t.snoops = s.snoops.erase (ld.val, line.toNat) ∧
      t.filter = (if (ld.val, line.toNat) ∈ s.snoops.erase (ld.val, line.toNat) then s.filter
        else s.filter.erase (ld.val, line.toNat)) ∧ { t with snoops := s.snoops, filter := s.filter } = s) ∧
  (∀ (stream : Byte) (protocol : Fin 2) (s : State), s.f hub F.CX_LINK_ide = 1 →
    ∃ t, exec (.cxlIdeFail stream protocol) s = .next t ∧ t.insecure = true ∧ MemoriesKept s t ∧ t.parts = s.parts) ∧
  (∀ (s : State), s.stew.die = true →
    ∃ t, exec .ideKeysProgrammed s = .next t ∧ t.f hub F.CX_LINK_ide = 1 ∧ t.insecure = false ∧
      { t with regs := s.regs } = s) ∧
  (∀ (speed width : Fin 3) (lat : Bool) (s : State), s.stew.die = true →
    ∃ t, exec (.cxlLinkRetrain (some (speed, width, lat))) s = .next t ∧ t.f hub F.CX_LINK_speed = speed.val + 1 ∧
      t.f hub F.CX_LINK_width = 2 ^ (width.val + 1) ∧ t.f hub F.CX_LINK_lat_opt = (if lat then 1 else 0) ∧
      t.f hub F.CX_LINK_ide = s.f hub F.CX_LINK_ide ∧ MemoriesKept s t ∧ t.parts = s.parts) ∧
  (∀ (ld : LdId) (s : State), s.stew.die = true → s.f hub (F.CX_LD_BIND_present.nth ld.val) = 1 →
    ∃ t, exec (.setOwnerLd ld) s = .next t ∧ t.owner = ld ∧ MemoriesKept s t ∧ t.parts = s.parts) ∧
  (∀ (ld : LdId) (s : State), s.stew.die = true →
    ∃ t, exec (.functionLevelReset ld) s = .next t ∧ MemoriesKept s t ∧
      (∀ n ∈ t.notices, n.ld ≠ ld.val) ∧ (∀ a, a / 4096 = ld.val → spGet 0 t.ctlPage a = 0) ∧
      ∀ p, s.bound ld p = true → s.f (pt p) F.RS_STATUS_withdrawn = 0 → (t.part p).recovery.isSome = true)

/-! ## Notices and doorbells (09_host_attachment.md R252 to R259) -/

/-- The path of a notice (R252, R253, R257, R258): a whole record written to a masked bit that holds none waits there; a
delivered message delivers its notice to the steward or the sequencer; MB_MASK takes its value; a completion goes into the
LD's queue and the producer index advances; the host's consumer index is kept.
States completion, that exec answers a next state with the effect named, for: spineDoorbell, noticeRecordWrite, mbMaskWrite,
completionWrite, cqConsumerWrite. -/
def Obligations.NoticePath : Prop :=
  (∀ (ld : LdId) (p : PartId) (bit : Fin 32) (off : BitVec 12) (rcd : List Byte) (s : State),
    off.toNat = 0x200 * (p.val + 1) + 16 * bit.val → rcd.length = 16 → s.takesOwn ld = true → s.withdrawn = false →
    s.bound ld p = true → s.noticeAt (p.val + 1) bit.val = none → s.f (pt p) F.MB_MASK_mask / 2 ^ bit.val % 2 = 1 →
    ∃ t n, exec (.noticeRecordWrite ld off rcd false) s = .next t ∧ t.notices = s.notices ++ [n] ∧ n.ld = ld.val ∧
      n.mailbox = p.val + 1 ∧ n.bit = bit.val ∧ n.tag = leAt rcd 8 4 ∧ n.phase = .masked ∧
      t.f (pt p) F.MB_PEND_pending / 2 ^ bit.val % 2 = 1 ∧
      memRead t.ctlPage (ld.val * 4096 + off.toNat) 16 = rcd ∧ MemoriesKept s t ∧ t.parts = s.parts) ∧
  (∀ (ld : LdId) (bit : Fin 32) (n : Notice) (m : SpMsg) (s : State), s.spine = [m] → m.opcode = 0x10 →
    m.arg = noticeArg ld.val 0 bit.val → m.dest = boxDest 0 → underway m → s.notices = [n] → n.ld = ld.val → n.mailbox = 0 →
    n.bit = bit.val → bit.val = 0 → s.isCommand n = true →
    ∃ t, exec (.spineDoorbell 0 bit ld none) s = .next t ∧ t.notices = [{ n with phase := .delivered }] ∧
      t.spine = [{ m with got := true }] ∧ { t with spine := s.spine, notices := s.notices } = s) ∧
  (∀ (ld : LdId) (p : PartId) (bit : Fin 32) (n : Notice) (m : SpMsg) (s : State), s.spine = [m] → m.opcode = 0x10 →
    m.arg = noticeArg ld.val (p.val + 1) bit.val → m.dest = boxDest (p.val + 1) → underway m → s.notices = [n] →
    n.ld = ld.val → n.mailbox = p.val + 1 → n.bit = bit.val → s.fenced p = false →
    ∃ t, exec (.spineDoorbell ⟨p.val + 1, by omega⟩ bit ld none) s = .next t ∧
      t.notices = [{ n with phase := .delivered }] ∧ t.spine = [{ m with got := true }] ∧
      { t with spine := s.spine, notices := s.notices } = s) ∧
  (∀ (w : Writer) (p : PartId) (v : Word) (s : State), s.gateOf w (pt p + R.MB_MASK.off) = .pass →
    (∀ n ∈ s.notices, n.mailbox = p.val + 1 → n.phase = .masked → v.toNat / 2 ^ n.bit % 2 = 1) →
    ∃ t, exec (.mbMaskWrite w p v) s = .next t ∧ t.f (pt p) F.MB_MASK_mask = v.toNat ∧ t.notices = s.notices ∧
      MemoriesKept s t ∧ t.parts = s.parts) ∧
  (∀ (ld : LdId) (c : Completion) (s : State), s.comps.find? (fun c => decide (c.ld = ld.val)) = some c →
    (s.cqProd ld.val + 2 ^ 64 - s.cqCons ld.val) % 2 ^ 64 < 64 → c.irq = false →
    ∃ t, exec (.completionWrite ld) s = .next t ∧ t.comps = s.comps.erase c ∧
      t.cqProd ld.val = (s.cqProd ld.val + 1) % 2 ^ 64 ∧ t.cqCons ld.val = s.cqCons ld.val ∧
      memRead t.ctlPage (ld.val * 4096 + 0xC00 + 16 * (s.cqProd ld.val % 64)) 16 =
        leBytes 8 c.result ++ leBytes 4 c.tag ++ leBytes 1 c.mailbox ++ leBytes 1 c.bit ++ leBytes 1 c.status ++
          leBytes 1 (s.cqProd ld.val / 64 % 2) ∧ MemoriesKept s t ∧ t.parts = s.parts) ∧
  (∀ (ld : LdId) (v : DWord) (s : State), s.takesMem = true →
    ∃ t, exec (.cqConsumerWrite ld v) s = .next t ∧ t.cqCons ld.val = v.toNat ∧ t.cqProd ld.val = s.cqProd ld.val ∧
      { t with ctlPage := s.ctlPage } = s)

/-- The sequencer's doorbells (01 R19, R27, 06 R162, R253, R256): a strike in an open frame pends; a hold holds a partition
with no frame open and completes with the tick; a release ends the hold and completes; the reserved bits are refused; a
valid injection waits for the next tick, and its token, released, completes it; a reconfiguration of a partition between
frames advances the epochs of its quires and completes.
States completion, that exec answers a next state with the effect named, for: doorbellStrike, doorbellReconfiguration,
doorbellHold, doorbellRelease, doorbellReserved, doorbellInject, injectedTokenRelease. -/
def Obligations.Doorbells : Prop :=
  (∀ (p : PartId) (n : Notice) (s : State), s.delivered p 0 = some n → s.bellStrikes p = true →
    (s.part p).pendStrike = false → (s.part p).strikeDue = none → (s.part p).frameOpen = true →
    ∃ t, exec (.doorbellStrike p) s = .next t ∧ (t.part p).pendStrike = true ∧ { n with phase := .acting } ∈ t.notices ∧
      t.f (pt p) F.TK_STATUS_pending = 1 ∧ OthersKept p s t ∧ MemoriesKept s t) ∧
  (∀ (p : PartId) (n : Notice) (s : State), s.notices = [n] → s.delivered p 3 = some n → (s.part p).frameOpen = false →
    ∃ t, exec (.doorbellHold p) s = .next t ∧ t.f (pt p) F.TK_CTRL_hold = 1 ∧ t.f (pt p) F.TK_STATUS_held = 1 ∧
      t.comps = s.comps ++ [compOf n Cs.done (s.tickNow p)] ∧ t.notices = [] ∧
      t.part p = { s.part p with spaceOnly := false } ∧ OthersKept p s t ∧ MemoriesKept s t) ∧
  (∀ (p : PartId) (n : Notice) (s : State), s.notices = [n] → s.delivered p 4 = some n → s.f (pt p) F.TK_CTRL_hold = 1 →
    s.running p = false → (s.part p).holds = [] → nothingPends s p →
    ∃ t, exec (.doorbellRelease p) s = .next t ∧ t.f (pt p) F.TK_CTRL_hold = 0 ∧ t.f (pt p) F.TK_STATUS_held = 0 ∧
      t.comps = s.comps ++ [compOf n Cs.done (s.tickNow p)] ∧ t.notices = [] ∧ OthersKept p s t ∧ MemoriesKept s t) ∧
  (∀ (p : PartId) (bit : Fin 3) (n : Notice) (s : State), s.delivered p (5 + bit.val) = some n →
    ∃ t, exec (.doorbellReserved p bit) s = .next t ∧ t.comps = s.comps ++ [compOf n Cs.refused 0] ∧
      t.notices = s.notices.erase n ∧ t.parts = s.parts ∧ MemoriesKept s t) ∧
  (∀ (p : PartId) (i : Fin 24) (n : Notice) (s : State), s.delivered p (8 + i.val) = some n →
    s.f (pt p) (F.MB_INJ_valid.nth i.val) = 1 → 15 ≤ s.f (pt p) (F.MB_INJ_release.nth i.val) →
    s.f (pt p) (F.MB_INJ_strike.nth i.val) = 0 →
    ∃ t, exec (.doorbellInject p i) s = .next t ∧
      t.notices = s.notices.map (fun m => if m = n then { m with phase := .acting } else m) ∧
      { t with notices := s.notices } = s) ∧
  (∀ (p : PartId) (d : DueTok) (n : Notice) (s : State), (s.part p).dueToks = [d] → d.notice = some (n.ld, n.bit) →
    (s.qu d.u.quire).open_ = true → s.notices = [n] → n.mailbox = p.val + 1 →
    ∃ t, exec (.injectedTokenRelease p) s = .next t ∧ (t.part p).dueToks = [] ∧ t.notices = [] ∧
      t.comps = s.comps ++ [compOf n Cs.done (s.tickNow p)] ∧ t.mem = s.mem) ∧
  (∀ (p : PartId) (quires : BitVec 8) (n : Notice) (s : State), s.notices = [n] → n.mailbox = p.val + 1 → n.bit = 2 →
    n.phase = .delivered → (s.part p).frameOpen = false → nothingPends s p →
    s.anyInFlight (maskQuires p quires.toNat) = false →
    (∀ q ∈ maskQuires p quires.toNat, s.inflight p ((s.f (qb q) F.CH_EPOCH_epoch + 1) % 4) = 0) →
    ∃ t, exec (.doorbellReconfiguration p quires []) s = .next t ∧ t.notices = [] ∧
      (∀ q ∈ maskQuires p quires.toNat, t.f (qb q) F.CH_EPOCH_epoch = (s.f (qb q) F.CH_EPOCH_epoch + 1) % 4) ∧
      t.comps = s.comps ++ [compOf n Cs.done (t.rd (pt p) R.CH_RECONF).toNat] ∧ MemoriesKept s t)

/-! ## The steward's commands (09_host_attachment.md R229 to R233, 11_fences_resets_recovery.md, 13_bring_up_and_licences.md) -/

/-- Bindings (09 R230, R231, 11 R298, R299, 15 R365): BIND gives a free partition at rest to a presented LD and lowers its
fence; UNBIND fences a partition at rest, takes it away and, without retain, resets it; RETAIN keeps its flag; BUDGET sets
the budget within its limits.
States completion, that exec answers a next state with the effect named, for: bind, unbind, retain, budget. -/
def Obligations.Bindings : Prop :=
  (∀ (ld : LdId) (p : PartId) (target : LdId) (n : Notice) (s : State), commanded s ld 0x0101 n → s.recovering p = false →
    s.running p = false → s.enabled p = true → s.f (pt p) F.RS_STATUS_withdrawn = 0 → s.ldOf p = none →
    s.f hub (F.CX_LD_BIND_present.nth target.val) = 1 → (∀ e ∈ s.extents, e.part ≠ p) →
    ∃ t, exec (.bind ld p target) s = .next t ∧ Ended n Cs.done 0 s t ∧ t.bound target p = true ∧ t.fenced p = false ∧
      t.stew.retain = s.stew.retain.erase p ∧ (∀ l r, (l, r) ≠ (target, p) → t.bound l r = s.bound l r) ∧
      MemoriesKept s t ∧ t.parts = s.parts) ∧
  (∀ (ld : LdId) (p : PartId) (l : LdId) (n : Notice) (s : State), commanded s ld 0x0101 n → s.recovering p = false →
    s.running p = false → s.ldOf p = some l → s.f (pt p) F.RS_STATUS_withdrawn = 0 →
    ∃ t, exec (.unbind ld p) s = .next t ∧ compOf n Cs.done 0 ∈ t.comps ∧ t.bound l p = false ∧ t.fenced p = true ∧
      MemoriesKept s t ∧ (p ∈ s.stew.retain → t.f (pt p) F.TK_CTRL_hold = 1) ∧
      (p ∉ s.stew.retain → ∃ r, (t.part p).recovery = some r ∧ r.cause = 6)) ∧
  (∀ (ld : LdId) (p : PartId) (v : Bool) (n : Notice) (s : State), commanded s ld 0x0102 n → s.recovering p = false → s.enabled p = true →
    s.f (pt p) F.RS_STATUS_withdrawn = 0 →
    ∃ t, exec (.retain ld p v) s = .next t ∧ Ended n Cs.done 0 s t ∧ MemoriesKept s t ∧ t.parts = s.parts ∧
      t.stew.retain = (if v then s.stew.retain.erase p ++ [p] else s.stew.retain.erase p)) ∧
  (∀ (ld : LdId) (p : PartId) (w : Word) (n : Notice) (s : State), commanded s ld 0x0201 n →
    s.f (pt p) F.RS_STATUS_withdrawn = 0 →
    ∃ t, exec (.budget ld p w) s = .next t ∧ MemoriesKept s t ∧ t.parts = s.parts ∧
      (s.budgetCause p w.toNat = 0x72 → Ended n Cs.done 0 s t ∧ t.budgetOf p = w.toNat) ∧
      (s.budgetCause p w.toNat ≠ 0x72 → Ended n Cs.refused 0 s t ∧ t.budgetOf p = s.budgetOf p))

/-- Resets by command (11 R285, R295): RESET_PARTITION starts the recovery of a partition of the asker; RESET_DEVICE begins a
device reset, with every partition fenced; on a withdrawn device ACK_WITHDRAWN begins one, and the counts of resets restart.
States completion, that exec answers a next state with the effect named, for: resetDevice, ackWithdrawn, resetPartition. -/
def Obligations.ResetCommands : Prop :=
  (∀ (ld : LdId) (p : PartId) (n : Notice) (s : State), s.cmdNotice ld 0x0504 = some n → s.withdrawn = false →
    s.mayAsk ld p = true → s.f (pt p) F.RS_STATUS_withdrawn = 0 → s.enabled p = true → (s.part p).recovery = none →
    ∃ t r, exec (.resetPartition ld p) s = .next t ∧ (t.part p).recovery = some r ∧ r.cause = 1 ∧ r.requester = ld.val ∧
      r.notices = [(n.ld, n.bit)] ∧ r.startAt = s.ns ∧ t.f (pt p) F.RS_STATUS_state = 1 ∧ .recovery ∈ (t.part p).holds ∧
      MemoriesKept s t) ∧
  (∀ (ld : LdId) (n : Notice) (s : State), commanded s ld 0x0502 n → s.stew.devReq = none → s.stew.die = true →
    ∃ t, exec (.resetDevice ld) s = .next t ∧ t.stew.devReq = some (1, ld.val, s.ns) ∧
      t.f hub F.RS_DEVICE_last_cause = 1 ∧ (∀ p, t.fenced p = true ∧ .recovery ∈ (t.part p).holds) ∧ MemoriesKept s t) ∧
  (∀ (ld : LdId) (n : Notice) (s : State), s.cmdNotice ld 0x0503 = some n → s.f hub F.RS_DEVICE_withdrawn = 1 → ld = s.owner →
    s.stew.devReq = none → s.stew.die = true →
    ∃ t, exec (.ackWithdrawn ld) s = .next t ∧ t.stew.devReq = some (4, ld.val, s.ns) ∧
      t.f hub F.RS_DEVICE_last_cause = 4 ∧ (∀ p, (t.part p).resetTimes = []) ∧ MemoriesKept s t)

/-- Licences and firmware (13 R324, R330, R331): a licence that passes every check is pending, one that fails is refused
with the number of the check; a chunk of an image stands in the steward's memory; an image that is good and not too old
runs.
States completion, that exec answers a next state with the effect named, for: fwUpdate, fwActivate, licence. -/
def Obligations.LicenceAndFirmware : Prop :=
  (∀ (ld : LdId) (off : BitVec 16) (n : Notice) (s : State), commanded s ld 0x0401 n → s.f hub F.HB_BOOT_step = 9 →
    let l := s.areaBytes ld.val off.toNat (min 2948 (65536 - off.toNat))
    let c := s.licenceCheck l (some (max (licNumber s.stew.licence) (licNumber s.stew.licPending)))
    ∃ t, exec (.licence ld off) s = .next t ∧ t.stew.licence = s.stew.licence ∧ MemoriesKept s t ∧ t.parts = s.parts ∧
      (c = 0 → Ended n Cs.done 0 s t ∧ t.stew.licPending = some l ∧ t.f hub F.LC_FEATURES_pending = 1) ∧
      (c ≠ 0 → Ended n Cs.refused c s t ∧ t.stew.licPending = s.stew.licPending)) ∧
  (∀ (ld : LdId) (off n : BitVec 16) (at_ : BitVec 20) (k : Notice) (s : State), commanded s ld 0x0301 k →
    n.toNat ≤ 32768 → off.toNat + n.toNat ≤ 65536 → at_.toNat + n.toNat ≤ 1048576 →
    ∃ t, exec (.fwUpdate ld off n at_) s = .next t ∧ Ended k Cs.done 0 s t ∧ MemoriesKept s t ∧ t.parts = s.parts ∧
      memRead t.stew.fwRam at_.toNat n.toNat = s.areaBytes ld.val off.toNat n.toNat ∧
      ∀ a, (a < at_.toNat ∨ at_.toNat + n.toNat ≤ a) → spGet 0 t.stew.fwRam a = spGet 0 s.stew.fwRam a) ∧
  (∀ (ld : LdId) (version : BitVec 16) (digest : List Byte) (n : Notice) (s : State), commanded s ld 0x0302 n →
    (∀ p, (s.part p).recovery = none ∧ (s.part p).rot = none) → s.stew.store.minFw ≤ version.toNat →
    ∃ t, exec (.fwActivate ld none version digest) s = .next t ∧ compOf n Cs.done 0 ∈ t.comps ∧
      t.stew.version = version.toNat ∧ t.stew.imageDigest = digest ∧ t.stew.fwRam = [] ∧
      t.f hub F.LC_FW_running = version.toNat ∧ (∀ m ∈ t.notices, m.mailbox ≠ 0) ∧ MemoriesKept s t ∧ t.parts = s.parts)

/-- Capacity (09 R231): an extent at rest is offered; the host's answer takes it or returns it; a recall starts its ten
seconds, a release in them ends the loan, their end keeps it.
States completion, that exec answers a next state with the effect named, for: dcLend, dcRecall, dcRecallTimeout,
dcExtentResponse. -/
def Obligations.Capacity : Prop :=
  (∀ (ld target : LdId) (p : PartId) (slot : Fin 4096) (pma : BitVec 38) (n : Notice) (s : State), commanded s ld 0x0601 n →
    s.f hub F.LC_FEATURES_dc = 1 → s.recovering p = false → s.f hub (F.CX_LD_BIND_present.nth target.val) = 1 →
    s.enabled p = true → s.f (pt p) F.RS_STATUS_withdrawn = 0 → (s.ldOf p = none ∨ s.bound target p = true) →
    pma.toNat % extentBytes = 0 → pma.toNat + extentBytes ≤ progEnd → s.extentAt target.val slot.val = none →
    (∀ e ∈ s.extents, e.part = p → e.pma ≠ pma.toNat) →
    ∃ t e, exec (.dcLend ld target p slot pma) s = .next t ∧ t.extents = s.extents ++ [e] ∧ e.ld = target.val ∧ e.part = p ∧
      e.pma = pma.toNat ∧ e.slot = slot.val ∧ e.offered = true ∧ e.recallBy = none ∧ t.comps = s.comps ∧
      MemoriesKept s t ∧ t.parts = s.parts) ∧
  (∀ (ld : LdId) (slot : Fin 4096) (e : Extent) (s : State), s.extentAt ld.val slot.val = some e → e.offered = true →
    e.by_ = none →
    (∃ t, exec (.dcExtentResponse ld slot true) s = .next t ∧ MemoriesKept s t ∧ t.parts = s.parts ∧
      t.extents = s.extents.map (fun g => if g = e then { e with offered := false, by_ := none } else g)) ∧
    ∃ t, exec (.dcExtentResponse ld slot false) s = .next t ∧ t.extents = s.extents.erase e ∧ MemoriesKept s t ∧
      t.parts = s.parts) ∧
  (∀ (ld : LdId) (slot : Fin 4096) (e : Extent) (s : State), s.extentAt ld.val slot.val = some e → e.offered = false →
    e.recallBy.isSome = true → e.by_ = none →
    ∃ t, exec (.dcExtentResponse ld slot true) s = .next t ∧ t.extents = s.extents.erase e ∧ MemoriesKept s t ∧
      t.parts = s.parts) ∧
  (∀ (ld target : LdId) (slot : Fin 4096) (n : Notice) (e : Extent) (s : State), commanded s ld 0x0602 n →
    s.extentAt target.val slot.val = some e → e.offered = false → e.recallBy = none →
    ∃ t, exec (.dcRecall ld target slot) s = .next t ∧ t.comps = s.comps ∧ MemoriesKept s t ∧ t.parts = s.parts ∧
      t.extents = s.extents.map (fun g => if g = e then
        { e with recallBy := some (s.ns + 10000000000), by_ := some ld.val } else g)) ∧
  (∀ (ld : LdId) (slot : Fin 4096) (e : Extent) (b : Nat) (s : State), s.extentAt ld.val slot.val = some e →
    e.recallBy = some b → b ≤ s.ns → e.by_ = none →
    ∃ t, exec (.dcRecallTimeout ld slot) s = .next t ∧ MemoriesKept s t ∧ t.parts = s.parts ∧
      t.extents = s.extents.map (fun g => if g = e then { e with recallBy := none, by_ := none } else g))

/-- Attestation, the colophon, SMBus (13 R334 to R337, 14 R357, 15 R371): a request joins the gathering, whose end takes one
index of the identity key for all of it; a history section is read into the command area; SMBus answers a register of the
PW and LC groups and a history section and joins a request to the gathering; of anything else it changes nothing.
States completion, that exec answers a next state with the effect named, for: attest, attestGatherEnd, colophonRead,
smbusCommand. -/
def Obligations.Attestation : Prop :=
  (∀ (ld : LdId) (nonce : BitVec 256) (s : State), s.stew.running = true → s.stew.die = true → s.insecure = false →
    s.stew.attest.length < 16 →
    ∃ t, exec (.attest ld nonce none) s = .next t ∧
      t.stew.attest = s.stew.attest ++ [{ nonce := leBytes 32 nonce.toNat, ld := ld.val, cmd := none }] ∧
      { t with stew := s.stew } = s) ∧
  (∀ (ld : LdId) (nonce : BitVec 256) (off : BitVec 16) (n : Notice) (s : State), commanded s ld 0x0701 n →
    off.toNat + 4 + objectBytes ≤ 65536 → s.stew.attest.length < 16 →
    ∃ t, exec (.attest ld nonce (some off)) s = .next t ∧ MemoriesKept s t ∧ t.parts = s.parts ∧ t.comps = s.comps ∧
      t.stew.attest = s.stew.attest ++ [{ nonce := leBytes 32 nonce.toNat, ld := ld.val, cmd := some (n.bit, off.toNat) }]) ∧
  (∀ (s : State), s.stew.attest ≠ [] → s.stew.attestAt + 20000000 ≤ s.ns → s.stew.idNext < 65536 → s.idDay < 16 →
    ∃ t, exec .attestGatherEnd s = .next t ∧ t.stew.attest = [] ∧ t.stew.idNext = s.stew.idNext + 1 ∧
      t.f hub F.LC_ID_NEXT_next = (s.stew.idNext + 1) % 65536 ∧ MemoriesKept s t ∧ t.parts = s.parts) ∧
  (∀ (ld : LdId) (sec : BitVec 16) (off : DWord) (n dst : Word) (e : Nat × Nat) (k : Notice) (s : State),
    commanded s ld 0x0801 k → leAt (s.cmdBlock k) 4 2 = sec.toNat → leAt (s.cmdBlock k) 8 8 = off.toNat →
    leAt (s.cmdBlock k) 16 4 = n.toNat → leAt (s.cmdBlock k) 20 4 = dst.toNat → colSections[sec.toNat]? = some e → sec.toNat ∉ [0, 1, 3, 13] →
    off.toNat + n.toNat ≤ e.1 * e.2 → n.toNat ≤ 32768 → dst.toNat + n.toNat ≤ 65536 →
    ∃ t, exec (.colophonRead ld sec off n dst false) s = .next t ∧ Ended k Cs.done n.toNat s t ∧ MemoriesKept s t ∧
      t.parts = s.parts ∧ memRead t.cmdArea (ld.val * 65536 + dst.toNat) n.toNat =
        memRead s.stew.flash (colKey sec.toNat off.toNat) n.toNat) ∧
  (∀ (s : State), s.stew.running = true →
    (∀ off : BitVec 24, s.stew.die = true → smbusReg off.toNat = true →
      ∃ t, exec (.smbusCommand (.reg off)) s = .next t ∧ t.stew.smbus = leBytes 4 (s.peek off.toNat).toNat ∧
        { t with stew := s.stew } = s) ∧
    (∀ (sec : BitVec 8) (off n : BitVec 24) (e : Nat × Nat), colSections[sec.toNat]? = some e → sec.toNat ∉ [0, 1, 3, 13] →
      off.toNat + n.toNat ≤ e.1 * e.2 → n.toNat ≤ 32768 →
      ∃ t, exec (.smbusCommand (.colophon sec off n)) s = .next t ∧ MemoriesKept s t ∧ t.parts = s.parts ∧
        t.stew.smbus = memRead s.stew.flash (colKey sec.toNat off.toNat) n.toNat) ∧
    (∀ nonce : BitVec 256, s.stew.attest.length < 16 →
      ∃ t, exec (.smbusCommand (.attest nonce)) s = .next t ∧ MemoriesKept s t ∧ t.parts = s.parts ∧
        t.stew.attest = s.stew.attest ++ [{ nonce := leBytes 32 nonce.toNat, ld := 0xFF, cmd := none }]) ∧
    exec (.smbusCommand .other) s = .next s)

/-! ## Self-test and rotation (12_self_test_and_rotation.md) -/

/-- Tests (12 R303 to R309, R317 to R319): a device test begins with no partition active; a quire's test waits for its
rotation or, where that is blocked, for a window; the first waiting run starts and, at its end, leaves the list with its
verdict; holdoff and window take their times, and a window ends with its hold.
States completion, that exec answers a next state with the effect named, for: testDeviceShutdown, testDeviceService,
testQuire, testRunStart, testRunEnd, btHoldoffWrite, btWindowWrite, testWindowEnd. -/
def Obligations.TestsAndWindows : Prop :=
  (∀ (ld : LdId) (n : Notice) (s : State), commanded s ld 0x0501 n → (∀ p, s.active p = false) → s.stew.devTest = none →
    (∃ t, exec (.testDeviceShutdown ld) s = .next t ∧ t.stew.devTest = some 1 ∧ t.stew.devNotice = some (n.ld, n.bit) ∧
      t.runs.length = s.runs.length + 112 ∧ MemoriesKept s t ∧ t.parts = s.parts) ∧
    ∃ t, exec (.testDeviceService ld) s = .next t ∧ t.stew.devTest = some 0 ∧ t.stew.devNotice = some (n.ld, n.bit) ∧
      t.runs.length = s.runs.length + 111 ∧ MemoriesKept s t ∧ t.parts = s.parts) ∧
  (∀ (ld : LdId) (q : QuireId) (n : Notice) (s : State), s.cmdNotice ld 0x0505 = some n → s.withdrawn = false →
    s.mayAsk ld (partOf q) = true → s.f (pt (partOf q)) F.RS_STATUS_withdrawn = 0 → (s.part (partOf q)).rot = none →
    ∃ t, exec (.testQuire ld q) s = .next t ∧ MemoriesKept s t ∧ OthersKept (partOf q) s t ∧
      (s.rotBlocked q = none →
        (t.part (partOf q)).rotWant = (s.part (partOf q)).rotWant ++ [(q, n.ld, n.bit)]) ∧
      (s.rotBlocked q ≠ none →
        (t.part (partOf q)).heldTests = (s.part (partOf q)).heldTests ++ [(q, n.ld, n.bit)])) ∧
  (∀ (keys : Bool) (r : TestRun) (sig : BitVec 128) (s : State), s.stew.running = true → s.stew.die = true →
    (∀ p, (s.part p).window = none) → s.nextRun [] s.runs = some r → s.reference r.program = some sig →
    r.program ≠ 6 → r.quire = none →
    ∃ t, exec (.testRunStart keys) s = .next t ∧
      t.runs = s.runs.map (fun e => if e = r then { e with going := true, startAt := s.ns } else e) ∧
      { t with runs := s.runs } = s) ∧
  (∀ (r : TestRun) (sig : BitVec 128) (s : State), s.runs.find? (fun e => e.going && decide (e.unit = r.unit)) = some r →
    s.runs.any (fun e => decide (e ≠ r) && decide (e.unit = r.unit)) = true →
    r.unit < 36 → r.program < 7 → r.startAt + programNs r.program ≤ s.ns → s.stew.devTest = none →
    ∃ t, exec (.testRunEnd ⟨r.unit % 37, by omega⟩ sig 0 0 []) s = .next t ∧ t.runs = s.runs.erase r ∧ MemoriesKept s t ∧
      (spGet (0, 0, 0, (0 : BitVec 128)) t.tested r.unit) =
        (r.program, if s.reference r.program = some sig then 0 else 1, s.ns, sig) ∧ t.parts = s.parts) ∧
  (∀ (w : Writer) (p : PartId) (minutes : Byte) (s : State), s.gateOf w (pt p + R.BT_HOLDOFF.off) = .pass →
    ∃ t, exec (.btHoldoffWrite w p minutes) s = .next t ∧ OthersKept p s t ∧ MemoriesKept s t ∧
      t.part p = { s.part p with
        holdoff := if minutes.toNat = 0 then 0 else s.ns + min 240 minutes.toNat * 60000000000 }) ∧
  (∀ (w : Writer) (p : PartId) (ms : BitVec 16) (s : State), s.gateOf w (pt p + R.BT_WINDOW.off) = .pass → ms ≠ 0 →
    ∃ t, exec (.btWindowWrite w p ms) s = .next t ∧ (t.part p).window = some (s.ns + ms.toNat * 1000000) ∧
      ((s.part p).heldTests ≠ [] → .testWindow ∈ (t.part p).holds) ∧ OthersKept p s t ∧ MemoriesKept s t) ∧
  (∀ (p : PartId) (e : Nat) (s : State), (s.part p).window = some e → e ≤ s.ns → s.windowTest p = false → nothingPends s p →
    ∃ t, exec (.testWindowEnd p) s = .next t ∧ (t.part p).window = none ∧
      (t.part p).holds = (s.part p).holds.erase .testWindow ∧ OthersKept p s t ∧ MemoriesKept s t)

/-- Rotation (12 R311 to R314, R316): a rotation that is due announces itself and starts its copy, or is postponed by ten
minutes; with the partition held alone and nothing in flight its switch puts the quire on the spare and the old tile in the
spare's place; a hold of 120 µs without a switch abandons it.
States completion, that exec answers a next state with the effect named, for: rotationDue, rotationSwitch,
rotationAbandonTimeout. -/
def Obligations.TileRotation : Prop :=
  (∀ (p : PartId) (q : QuireId) (s : State), s.rotQuire p = some q → (s.part p).broughtUp = true → s.enabled p = true →
    (s.part p).rot = none → s.stew.devTest = none → (s.part p).rotDue ≤ s.ns → partOf q = p →
    (s.rotBlocked q = none →
      ∃ t r, exec (.rotationDue p) s = .next t ∧ (t.part p).rot = some r ∧ r.quire = q ∧
        r.planned = s.ns + max 1 (s.f (pt p) F.BT_ROT_CFG_lead_ms) * 1000000 ∧ (t.qu q).copying.isSome = true ∧
        t.f (pt p) F.BT_ROT_STATUS_state = 2 ∧ MemoriesKept s t ∧ OthersKept p s t) ∧
    (s.rotBlocked q ≠ none →
      ∃ t, exec (.rotationDue p) s = .next t ∧ (t.part p).rot = none ∧ (t.part p).rotDue = s.ns + 600000000000 ∧
        t.f (pt p) F.BT_ROT_STATUS_state = 5 ∧ MemoriesKept s t ∧ OthersKept p s t)) ∧
  (∀ (p : PartId) (r : Rotation) (s : State), (s.part p).tipins = [] → (s.part p).rot = some r → partOf r.quire = p →
    s.f (pt p) F.BT_ROT_STATUS_state = 2 → r.planned ≤ s.ns → (s.part p).holdoff ≤ s.ns → s.slowHalf p = false →
    s.tooLarge r.quire = false → s.spanOf p = [p] → (s.part p).frameOpen = false → s.unitsOf p = 0 → nothingPends s p →
    (s.part p).image = none →
    ∃ t, exec (.rotationSwitch p 0 false) s = .next t ∧ t.f (pt p) F.BT_ROT_STATUS_state = 4 ∧
      t.tileOf r.quire = (s.spareTile p).val ∧ t.f (pt p) F.MS_SPARE_tile = s.tileOf r.quire % 36 ∧
      t.f (pt p) F.MS_SPARE_testing = 1 ∧ t.mem = s.mem) ∧
  (∀ (p : PartId) (r : Rotation) (b : Nat) (s : State), (s.part p).rot = some r → r.holdAt = some b →
    s.f (pt p) F.BT_ROT_STATUS_state = 3 → b + 120000 ≤ s.ns → s.spanOf p = [p] → nothingPends s p →
    ∃ t, exec (.rotationAbandonTimeout p) s = .next t ∧ (t.part p).rot = none ∧ t.f (pt p) F.BT_ROT_STATUS_state = 0 ∧
      t.f (pt p) F.BT_ROT_STATUS_last = 2 ∧ (t.part p).holds = (s.part p).holds.erase .rotation ∧ MemoriesKept s t ∧
      OthersKept p s t)

/-! ## Checking and judgement (10_collation_and_checking.md) -/

/-- Digests, monitors, judgement (R270 to R280): `go` starts a run over a range that is allowed; a run over memory without
error ends with the SHAKE256 digest; a reading shows each monitor's droop and slack; a trip counts and fails the open tick,
and clears; the oldest charge is judged, and where it meets no rule no unit becomes permanent; a DRAM row with three corrections in a day is marked.
States completion, that exec answers a next state with the effect named, for: mdGo, mdRunEnd, marginRead, monitorTrip,
monitorClear, stewardJudgement. -/
def Obligations.IntegrityChecks : Prop :=
  (∀ (w : Writer) (p : PartId) (s : State), s.gateOf w (pt p + R.IN_MD_CTRL.off) = .pass → s.f (pt p) F.IN_MD_CTRL_busy = 0 →
    s.mdRefused p = false →
    ∃ t, exec (.mdGo w p) s = .next t ∧ t.f (pt p) F.IN_MD_CTRL_busy = 1 ∧ OthersKept p s t ∧ MemoriesKept s t ∧
      (t.part p).md = some { base := s.f (pt p) F.IN_MD_BASE_pma * 64, units := s.f (pt p) F.IN_MD_LEN_units,
                             startAt := s.ns, torn := false }) ∧
  (∀ (p : PartId) (r : MdRun) (s : State), (s.part p).md = some r → s.fenced p = false → s.memMark = [] → r.torn = false →
    (s.part p).memAsleep = false → r.startAt + (r.units * 64 / 136 + 1) * s.period p ≤ s.ns →
    ∃ t, exec (.mdRunEnd p) s = .next t ∧ (t.part p).md = none ∧ t.f (pt p) F.IN_MD_CTRL_busy = 0 ∧
      t.f (pt p) F.IN_MD_CTRL_status = 0 ∧ OthersKept p s t ∧ MemoriesKept s t ∧
      ∀ k, k < 8 → t.rd (pt p) (R.IN_MD_OUT.nth k) = wordAt (shake256 (memRead s.mem (memKey p r.base) (r.units * 64))) k) ∧
  (∀ (droop slack press issue : List Nat) (tile m : Nat) (s : State), s.stew.running = true → s.stew.die = true →
    s.stew.marginDue ≤ s.ns →
    tile < 36 → m < 4 →
    ∃ t, exec (.marginRead droop slack press issue) s = .next t ∧ (t.mgnOf tile m).1 = min 255 (droop.getD (4 * tile + m) 0) ∧
      (t.mgnOf tile m).2.1 = min 63 (slack.getD (4 * tile + m) 0) ∧ (t.mgnOf tile m).2.2 = (s.mgnOf tile m).2.2 ∧
      MemoriesKept s t ∧ t.parts = s.parts) ∧
  (∀ (tile : TileId) (m : Fin 4) (droop slack : Byte) (q : QuireId) (s : State), (s.mgnOf tile.val m.val).2.2.2 = false →
    s.stew.die = true → s.carrier tile.val = some q →
    ∃ t, exec (.monitorTrip tile m droop slack) s = .next t ∧ (t.mgnOf tile.val m.val).2.2.2 = true ∧
      (t.mgnOf tile.val m.val).2.2.1 = min 255 ((s.mgnOf tile.val m.val).2.2.1 + 1) ∧ MemoriesKept s t ∧
      OthersKept (partOf q) s t ∧
      ((s.part (partOf q)).frameOpen = true → (t.part (partOf q)).failed = true)) ∧
  (∀ (tile : TileId) (m : Fin 4) (s : State),
    ∃ t, exec (.monitorClear tile m) s = .next t ∧ (t.mgnOf tile.val m.val).2.2.2 = false ∧
      (t.mgnOf tile.val m.val).2.2.1 = (s.mgnOf tile.val m.val).2.2.1 ∧ { t with mgn := s.mgn } = s) ∧
  (∀ (c : Charge) (s : State), s.stew.running = true → s.stew.die = true → s.charges.find? (fun c => !c.judged) = some c →
    { s with charges := s.charges.map (fun e => if e = c then { e with judged := true } else e) }.ruleMet
      { c with judged := true } = none → c.code ≠ Ev.IN_DROOP →
    (∀ p ch row, c.unit ≠ .dramRow p ch row) →
    ∃ t, exec .stewardJudgement s = .next t ∧
      t.charges = s.charges.map (fun e => if e = c then { e with judged := true } else e) ∧
      t.stew.permanent = s.stew.permanent ∧ MemoriesKept s t ∧ t.parts = s.parts) ∧
  (∀ (k : Nat × Nat × Nat) (s : State), s.stew.running = true → s.stew.die = true → (∀ c ∈ s.charges, c.judged = true) →
    s.wornRow = some k → k.1 < 4 →
    ∃ t, exec .stewardJudgement s = .next t ∧ t.stew.pprMarked = s.stew.pprMarked ++ [(⟨k.1 % 4, by omega⟩, k.2.1, k.2.2)] ∧
      MemoriesKept s t ∧ t.parts = s.parts)

/-! ## Resets, recovery, bring-up (11_fences_resets_recovery.md, 13_bring_up_and_licences.md) -/

/-- Recovery (11 R285 to R294, R299): an asked-for partition reset begins; its second step raises the fence; its fourth
brings memory back and goes on to the reload; a quire's reset and its tile's power cycle end; one that hangs becomes a power
cycle; a wipe ends with the partition's memory zero and the fence down.
States completion, that exec answers a next state with the effect named, for: partitionReset, quireResetEnd,
tilePowerCycleEnd, resetHang, wipeDone. -/
def Obligations.RecoverySteps : Prop :=
  (∀ (p : PartId) (i : ResetInput) (cause : Nat) (s : State), (s.part p).recovery = none → s.stew.resetReqs = [(p, cause)] →
    s.f (pt p) F.RS_STATUS_withdrawn = 0 →
    ∃ t r, exec (.partitionReset p i) s = .next t ∧ (t.part p).recovery = some r ∧ r.cause = cause ∧
      t.f (pt p) F.RS_STATUS_state = 1 ∧ t.stew.resetReqs = [] ∧ MemoriesKept s t) ∧
  (∀ (p : PartId) (i : ResetInput) (s : State), (s.part p).recovery.isSome = true → s.f (pt p) F.RS_STATUS_state = 2 →
    ∃ t, exec (.partitionReset p i) s = .next t ∧ t.fenced p = true ∧ t.f (pt p) F.RS_STATUS_state = 3 ∧
      (t.part p).recovery = (s.part p).recovery ∧ MemoriesKept s t) ∧
  (∀ (p : PartId) (i : ResetInput) (r : Recovery) (s : State), (s.part p).recovery = some r →
    s.f (pt p) F.RS_STATUS_state = 4 → r.cause ≠ 6 →
    ∃ t r', exec (.partitionReset p i) s = .next t ∧ (t.part p).memAsleep = false ∧ (t.part p).recovery = some r' ∧
      r'.cause = r.cause ∧ t.f (pt p) F.RS_STATUS_state = (if (s.part p).image.isSome then 5 else 7) ∧ MemoriesKept s t) ∧
  (∀ (q : QuireId) (s : State), (s.qu q).inReset = true → (s.qu q).cycling = false → (s.qu q).wbuf = [] →
    nothingPends s (partOf q) →
    ∃ t, exec (.quireResetEnd q) s = .next t ∧ (t.qu q).inReset = false ∧ t.f (qb q) F.RS_QUIRE_in_reset = 0 ∧
      (∀ i, (t.st ⟨q, i⟩).inReset = false) ∧ MemoriesKept s t) ∧
  (∀ (q : QuireId) (s : State), (s.qu q).inReset = true → (s.qu q).cycling = true → (s.qu q).wbuf = [] →
    (s.qu q).resetFrom + 100000 ≤ s.ns → (s.part (partOf q)).image = none → nothingPends s (partOf q) →
    ∃ t, exec (.tilePowerCycleEnd q) s = .next t ∧ (t.qu q).inReset = false ∧ (t.qu q).cycling = false ∧
      t.f (qb q) F.RS_QUIRE_in_reset = 0 ∧ t.f (qb q) F.ST_FAULT_suspect = 1 ∧
      (∀ i, (t.st ⟨q, i⟩).inReset = false ∧ (t.st ⟨q, i⟩).pocket = []) ∧ t.mem = s.mem ∧
      ∀ r, (t.qu r).leaf = (s.qu r).leaf) ∧
  (∀ (q : QuireId) (s : State), (s.qu q).inReset = true → (s.qu q).cycling = false → (s.qu q).resetFrom + 20000 ≤ s.ns →
    ∃ t, exec (.resetHang (.quire q)) s = .next t ∧
      t.qu q = { s.qu q with cycling := true, resetFrom := s.ns, resetEnd := s.ns + 200000 } ∧
      (∀ r, r ≠ q → t.qu r = s.qu r) ∧ MemoriesKept s t ∧ t.parts = s.parts) ∧
  (∀ (p : PartId) (t0 ld : Nat) (s : State), s.stew.wipes = [(p, t0, ld)] → t0 + 1000000000 ≤ s.ns →
    (s.part p).recovery = none →
    ∃ t, exec (.wipeDone p) s = .next t ∧ t.stew.wipes = [] ∧ t.f (pt p) F.RS_STATUS_state = 0 ∧ t.fenced p = false ∧
      t.f (pt p) F.TK_CTRL_hold = 1 ∧
      (∀ a, a < 0x3BFA000000 → spGet 0 t.mem (memKey p a) = 0) ∧
      (∀ r a, r ≠ p → a < 2 ^ 38 → spGet 0 t.mem (memKey r a) = spGet 0 s.mem (memKey r a)) ∧
      t.quires = s.quires ∧ t.stitchers = s.stitchers)

/-- Bring-up (13 R322 to R328, 15 R371): a start that finds a bad image stays in the recovery loader, a good one reaches step
6 and waits for PERST#, or ends; so does a device reset; the release of PERST# ends the bring-up; its assertion begins a device
reset; a good block of a recovery image is kept and answered with K.
States completion, that exec answers a next state with the effect named, for: deviceReset, powerOn, perstAssert,
perstRelease, recoveryImageBlock. -/
def Obligations.BringUp : Prop :=
  (∀ (i : BootInput) (c : Nat) (s : State), s.stew.die = false → s.stew.devReq = none → i.image = some c →
    ∃ t, exec (.powerOn i) s = .next t ∧ t.stew.recovery = some c ∧ t.stew.die = false ∧ t.stew.running = false ∧
      t.stew.faultPin = true ∧ t.stew.band = 0 ∧ t.mem = []) ∧
  (∀ (i : BootInput) (s : State), s.stew.die = false → s.stew.devReq = none → i.image = none → i.copyA = none →
    i.copyB = none → i.store.minFw ≤ i.version →
    ∃ t, exec (.powerOn i) s = .next t ∧ (t.f hub F.HB_BOOT_step = 9 ∨
      t.f hub F.HB_BOOT_step = 6 ∧ t.stew.perst = true ∧ t.stew.pwrGood = true ∧ t.stew.clkreq = true)) ∧
  (∀ (i : TrainInput) (r : Nat × Nat × Nat) (s : State), s.stew.devReq = some r →
    ∃ t, exec (.deviceReset i) s = .next t ∧ (t.f hub F.HB_BOOT_step = 9 ∨
      t.f hub F.HB_BOOT_step = 6 ∧ t.stew.perst = true ∧ t.stew.pwrGood = true ∧ t.stew.clkreq = true)) ∧
  (∀ (i : TrainInput) (s : State), s.stew.die = true → s.stew.devReq = none → s.f hub F.HB_BOOT_step = 6 →
    ∃ t, exec (.perstRelease i) s = .next t ∧ t.f hub F.HB_BOOT_step = 9) ∧
  (∀ (s : State), s.stew.pwrGood = true → s.stew.devReq = none → s.stew.die = true →
    ∃ t, exec .perstAssert s = .next t ∧ t.stew.perst = true ∧ t.stew.devReq = some (2, 0xFF, s.ns) ∧
      (∀ p, t.fenced p = true) ∧ MemoriesKept s t) ∧
  (∀ (bytes : List Byte) (crc : Word) (s : State), s.stew.recovery.isSome = true → bytes.length = 1024 → crc32c bytes = crc →
    ∃ t, exec (.recoveryImageBlock bytes crc none) s = .next t ∧ t.stew.recImage = s.stew.recImage ++ bytes ∧
      t.stew.smbus = [0x4B] ∧ { t with stew := s.stew } = s)

/-! ## The recorder and the colophon (14_event_recorder_and_colophon.md) -/

/-- The recorder (R343 to R349, R351, R355, R356): an EVENT message takes the oldest record of its source to its ring, where
the ring's memory answers, or to the staging buffer; the update of a folded record joins its queue; a staged record is
written once its memory answers; an error record is copied to the colophon; a flush keeps what was counted; the owner's
addition to the trigger table stands.
States completion, that exec answers a next state with the effect named, for: spineEvent, floodUpdate, stagingDrain,
colophonCopy, colophonFlush, triggerTableWrite. -/
def Obligations.RecorderPath : Prop :=
  (∀ (k : Fin 38) (e : EvRec) (l : List EvRec) (p : PartId) (s : State), (s.src (srcOf k)).queue = e :: l → s.spine = [] →
    s.ringReady (srcOf k) = true → s.ringHome (srcOf k) = some p → s.recNext ≤ s.ns → e.update = false →
    s.memMark = [] →
    ∃ t, exec (.spineEvent k none) s = .next t ∧ (t.src (srcOf k)).queue = l ∧
      (t.src (srcOf k)).head = (s.src (srcOf k)).head + 1 ∧
      memRead t.mem (memKey p (slotPma (srcOf k) (s.src (srcOf k)).head)) 64 =
        e.bytes (((s.src (srcOf k)).seq + 2) % 2 ^ 32) ∧ t.quires = s.quires ∧ t.stitchers = s.stitchers) ∧
  (∀ (k : Fin 38) (e : EvRec) (l : List EvRec) (s : State), (s.src (srcOf k)).queue = e :: l → s.spine = [] →
    s.ringReady (srcOf k) = false → e.update = false → s.staging.length < 4096 →
    ∃ t, exec (.spineEvent k none) s = .next t ∧ (t.src (srcOf k)).queue = l ∧ MemoriesKept s t ∧
      t.staging = s.staging ++ [((srcOf k).key, { e with staged := true })] ∧ t.parts = s.parts) ∧
  (∀ (k : Fin 38) (e : EvRec) (s : State), (s.src (srcOf k)).folded = true → (s.src (srcOf k)).queue.length < 8 →
    (s.src (srcOf k)).last = some e → (s.src (srcOf k)).sentAt + 1000 ≤ s.ns →
    ∃ t, exec (.floodUpdate k) s = .next t ∧
      (t.src (srcOf k)).queue = (s.src (srcOf k)).queue ++ [{ e with update := true }] ∧
      (t.src (srcOf k)).folded = false ∧ { t with srcs := s.srcs } = s) ∧
  (∀ (p : PartId) (k : Fin 38) (e : EvRec) (s : State), s.staging = [(k.val, e)] → s.ringHome (srcOf k) = some p →
    s.ringReady (srcOf k) = true → s.recNext ≤ s.ns → e.update = false → s.memMark = [] →
    ∃ t, exec (.stagingDrain p) s = .next t ∧ t.staging = [] ∧ t.f hub F.EV_STAGE_staged = 0 ∧
      (t.src (srcOf k)).head = (s.src (srcOf k)).head + 1 ∧
      memRead t.mem (memKey p (slotPma (srcOf k) (s.src (srcOf k)).head)) 64 =
        e.bytes (((s.src (srcOf k)).seq + 2) % 2 ^ 32)) ∧
  (∀ (k : Fin 38) (i : Nat) (l : List (Nat × Nat)) (p : PartId) (s : State), s.stew.colPend = (k.val, i) :: l →
    s.stew.running = true → s.ringReady (srcOf k) = true → s.ringHome (srcOf k) = some p → s.stew.errors = [] →
    (s.src (srcOf k)).head ≤ i + (ringPlace (srcOf k)).2.1 → s.memMark = [] →
    (crc32c ((memRead s.mem (memKey p (slotPma (srcOf k) i)) 64).take 60)).toNat =
      leAt (memRead s.mem (memKey p (slotPma (srcOf k) i)) 64) 60 4 →
    ∃ t, exec (.colophonCopy false) s = .next t ∧ t.stew.colPend = l ∧ t.stew.colNext = s.stew.colNext + 1 ∧
      memRead t.stew.flash (colKey 2 (s.stew.colNext % 65536 * 64)) 64 = memRead s.mem (memKey p (slotPma (srcOf k) i)) 64 ∧
      MemoriesKept s t ∧ t.parts = s.parts) ∧
  (∀ (wear : Fin 101) (s : State), s.stew.running = true → wear.val < 90 →
    ∃ t, exec (.colophonFlush wear false) s = .next t ∧ t.f hub F.EV_COL_wear = wear.val ∧
      t.stew.flash = s.flushRam.stew.flash ∧ MemoriesKept s t ∧ t.parts = s.parts) ∧
  (∀ (w : Writer) (v : Word) (code sev caps : Nat) (s : State), s.gateOf w R.EV_TRIG_CODE.off = .pass →
    trigEntry (s.f hub F.EV_TRIG_SEL_entry) = some (code, sev, caps) → caps ≤ F.EV_TRIG_CODE_count.get v →
    F.EV_TRIG_CODE_count.get v ≤ 10 →
    ∃ t, exec (.triggerTableWrite w 0 v) s = .next t ∧
      (spGet Trig.init t.triggers code).count = F.EV_TRIG_CODE_count.get v ∧
      (∀ c, c ≠ code → spGet Trig.init t.triggers c = spGet Trig.init s.triggers c) ∧ MemoriesKept s t ∧ t.parts = s.parts)

/-! ## The block -/

/-- A step runs the command at the front of the queue on the state with the queue's rest. -/
def Obligations.StepRunsFront : Prop :=
  ∀ (c : Instr) (l : List Instr) (s : State), Sys2Proof.Machine.step { s with pending := c :: l } = exec c { s with pending := l }

/-- What the model does with time and with occasions (its own choices, assumption log): on an empty queue a step is a tick
of time, which advances device time by one unit and changes nothing but the clocks and the count of free values; a stitcher's instruction that is not the
one its stitcher may issue next changes nothing. -/
def Obligations.IdleStep : Prop :=
  (∀ (s : State), s.pending = [] → ∃ t, Sys2Proof.Machine.step s = .next t ∧ t.now = s.now + 1 ∧
    { t with now := s.now, parts := s.parts, freeCount := s.freeCount } = s ∧
    ∀ p, { t.part p with cyc := (s.part p).cyc, sub := (s.part p).sub } = s.part p) ∧
  (∀ (i : Instr) (u : StId) (rd : SReg) (f : Stitcher → BitVec 32) (s : State), scalarValue i = some (u, rd, f) →
    s.mayIssue u i = false → exec i s = .next s)

/-- Right after reset the queue is empty and well formed, the memories that hosts read are in canonical form, no partition
runs, has a frame open or is fenced, no command waits in a press, and no bank of a leaf is filling. -/
def Obligations.ResetState : Prop :=
  State.reset.pending = [] ∧ State.reset.queueOk = true ∧ State.reset.memOk = true ∧
    (∀ p, State.reset.running p = false ∧ (State.reset.part p).frameOpen = false ∧ State.reset.fenced p = false) ∧
    (∀ q, (State.reset.qu q).filling = [] ∧ (State.reset.qu q).pa.places = 0 ∧ (State.reset.qu q).pb.places = 0) ∧
    ∀ u, (State.reset.st u).firing = none ∧ (State.reset.st u).store = []

/-- Every command answers a next state in every state, but for the start of a pager entry past the end of partition memory
(assumption log). -/
def Obligations.NoCommandStops : Prop :=
  ∀ (c : Instr) (s : State), (∀ p, c ≠ .pagerEntryStart p) → ∃ t, exec c s = .next t

/-- A well-formed queue stays well formed: a step takes its front and leaves the rest as it is. -/
def Obligations.QueueInvariant : Prop :=
  ∀ (s t : State), s.queueOk = true → Sys2Proof.Machine.step s = .next t → t.queueOk = true ∧ t.pending = s.pending.drop 1

/-- Every step keeps the canonical form of the memories that hosts read: partition memory, the control pages and the command
areas. -/
def Obligations.MemoryInvariant : Prop :=
  ∀ (s t : State), s.memOk = true → Sys2Proof.Machine.step s = .next t → t.memOk = true
end

