-- ==== Sys2Proof/Laws/Sparse.lean ====
section
/-! SUPPORT. What a sparse table reads as after an update, and that every update keeps the canonical form. -/

namespace Sys2Proof.Machine

variable {α : Type}

@[simp] theorem spGet_nil (d : α) (k : Nat) : spGet d [] k = d := rfl

theorem spGet_spIns_same (d v : α) (k : Nat) (m : Sparse α) (h : ∀ c ∈ m, c.1 ≠ k) : spGet d (spIns k v m) k = v := by
  induction m with
  | nil => simp [spIns, spGet]
  | cons c t ih =>
    obtain ⟨i, w⟩ := c
    have hi : i ≠ k := h (i, w) (by simp)
    simp only [spIns]
    split
    · simp [spGet]
    · simp [spGet, hi, ih (fun c hc => h c (by simp [hc]))]

theorem spGet_spIns_ne (d v : α) {k j : Nat} (h : k ≠ j) (m : Sparse α) :
    spGet d (spIns k v m) j = spGet d m j := by
  induction m with
  | nil => simp [spIns, spGet, h]
  | cons c t ih =>
    obtain ⟨i, w⟩ := c
    simp only [spIns]
    split
    · simp [spGet, h]
    · simp [spGet, ih]

theorem spGet_spDel_same (d : α) (m : Sparse α) (k : Nat) : spGet d (spDel m k) k = d := by
  induction m with
  | nil => rfl
  | cons c t ih =>
    obtain ⟨i, w⟩ := c
    by_cases hi : i = k
    · simpa [spDel, hi] using ih
    · simpa [spDel, hi, spGet] using ih

theorem spGet_spDel_ne (d : α) (m : Sparse α) {k j : Nat} (h : k ≠ j) : spGet d (spDel m k) j = spGet d m j := by
  induction m with
  | nil => rfl
  | cons c t ih =>
    obtain ⟨i, w⟩ := c
    by_cases hi : i = k
    · subst hi
      simpa [spDel, spGet, h] using ih
    · simp only [spDel, List.filter_cons, hi, ne_eq, not_false_eq_true, decide_true, if_true, spGet]
      split
      · rfl
      · exact ih

/-- A table reads the value last written at a key. -/
@[simp] theorem spGet_spSet_same [DecidableEq α] (d : α) (m : Sparse α) (k : Nat) (v : α) : spGet d (spSet d m k v) k = v := by
  unfold spSet
  split
  · next h => rw [spGet_spDel_same, h]
  · exact spGet_spIns_same d v k _ (by intro c hc; simpa [spDel] using (List.mem_filter.mp hc).2)

/-- A write leaves every other key alone. -/
theorem spGet_spSet_ne [DecidableEq α] (d : α) (m : Sparse α) {k j : Nat} (v : α) (h : k ≠ j) :
    spGet d (spSet d m k v) j = spGet d m j := by
  unfold spSet
  split
  · exact spGet_spDel_ne d m h
  · rw [spGet_spIns_ne d v h, spGet_spDel_ne d m h]

theorem spGet_spSet [DecidableEq α] (d : α) (m : Sparse α) (k j : Nat) (v : α) :
    spGet d (spSet d m k v) j = if k = j then v else spGet d m j := by
  split
  · next h => subst h; simp
  · next h => exact spGet_spSet_ne d m v h

@[simp] theorem spGet_spUpd_same [DecidableEq α] (d : α) (m : Sparse α) (k : Nat) (f : α → α) :
    spGet d (spUpd d m k f) k = f (spGet d m k) := by
  simp [spUpd]

theorem spGet_spUpd_ne [DecidableEq α] (d : α) (m : Sparse α) {k j : Nat} (f : α → α) (h : k ≠ j) :
    spGet d (spUpd d m k f) j = spGet d m j :=
  spGet_spSet_ne d m _ h

/-! The canonical form. -/

theorem spWfFrom_mono [DecidableEq α] (d : α) {b c : Nat} (h : c ≤ b) (m : Sparse α) (w : spWfFrom d b m = true) :
    spWfFrom d c m = true := by
  cases m with
  | nil => rfl
  | cons p t =>
    obtain ⟨i, v⟩ := p
    simp only [spWfFrom, Bool.and_eq_true, decide_eq_true_eq] at w ⊢
    exact ⟨⟨by omega, w.1.2⟩, w.2⟩

theorem spWfFrom_spDel [DecidableEq α] (d : α) (k : Nat) (m : Sparse α) (b : Nat) (w : spWfFrom d b m = true) :
    spWfFrom d b (spDel m k) = true := by
  induction m generalizing b with
  | nil => rfl
  | cons p t ih =>
    obtain ⟨i, v⟩ := p
    simp only [spWfFrom, Bool.and_eq_true, decide_eq_true_eq] at w
    by_cases hi : i = k
    · simpa [spDel, hi] using spWfFrom_mono d (by omega) _ (ih (i + 1) w.2)
    · have := ih (i + 1) w.2
      simp only [spDel, List.filter_cons, hi, ne_eq, not_false_eq_true, decide_true, if_true, spWfFrom, Bool.and_eq_true,
        decide_eq_true_eq]
      exact ⟨w.1, this⟩

theorem spWfFrom_spIns [DecidableEq α] (d v : α) (k : Nat) (hv : v ≠ d) (m : Sparse α) (b : Nat) (hb : b ≤ k)
    (w : spWfFrom d b m = true) (h : ∀ c ∈ m, c.1 ≠ k) : spWfFrom d b (spIns k v m) = true := by
  induction m generalizing b with
  | nil => simp [spIns, spWfFrom, hb, hv]
  | cons p t ih =>
    obtain ⟨i, x⟩ := p
    have hi : i ≠ k := h (i, x) (by simp)
    simp only [spWfFrom, Bool.and_eq_true, decide_eq_true_eq] at w
    simp only [spIns]
    split
    · next hk =>
      simp only [spWfFrom, Bool.and_eq_true, decide_eq_true_eq]
      exact ⟨⟨hb, hv⟩, ⟨⟨by omega, w.1.2⟩, w.2⟩⟩
    · next hk =>
      simp only [spWfFrom, Bool.and_eq_true, decide_eq_true_eq]
      exact ⟨w.1, ih (i + 1) (by omega) w.2 (fun c hc => h c (by simp [hc]))⟩

/-- Every write keeps the canonical form. -/
theorem spWf_spSet [DecidableEq α] (d : α) (m : Sparse α) (k : Nat) (v : α) (w : spWf d m = true) : spWf d (spSet d m k v) = true := by
  unfold spSet
  split
  · exact spWfFrom_spDel d k m 0 w
  · next hv =>
    exact spWfFrom_spIns d v k hv _ 0 (by omega) (spWfFrom_spDel d k m 0 w)
      (by intro c hc; simpa [spDel] using (List.mem_filter.mp hc).2)

theorem spWf_spUpd [DecidableEq α] (d : α) (m : Sparse α) (k : Nat) (f : α → α) (w : spWf d m = true) :
    spWf d (spUpd d m k f) = true :=
  spWf_spSet d m k _ w

/-- A write of bytes keeps the canonical form of a memory. -/
theorem spWf_memWrite (l : List (BitVec 8)) (m : Sparse (BitVec 8)) (a : Nat) (w : spWf 0 m = true) :
    spWf 0 (memWrite m a l) = true := by
  induction l generalizing m a with
  | nil => exact w
  | cons b t ih => exact ih _ _ (spWf_spSet 0 m a b w)

/-! Bytes of memories. -/

/-- A write of bytes leaves every address outside them alone. -/
theorem spGet_memWrite_out (l : List (BitVec 8)) (m : Sparse (BitVec 8)) (a j : Nat) (h : j < a ∨ a + l.length ≤ j) :
    spGet 0 (memWrite m a l) j = spGet 0 m j := by
  induction l generalizing m a with
  | nil => rfl
  | cons b t ih =>
    simp only [List.length_cons] at h
    simp only [memWrite]
    rw [ih _ _ (by omega), spGet_spSet_ne 0 m b (by omega)]

/-- A write of bytes leaves its bytes at its addresses. -/
theorem spGet_memWrite_in (l : List (BitVec 8)) (m : Sparse (BitVec 8)) (a i : Nat) (h : i < l.length) :
    spGet 0 (memWrite m a l) (a + i) = l[i] := by
  induction l generalizing m a i with
  | nil => simp at h
  | cons b t ih =>
    simp only [memWrite]
    cases i with
    | zero => rw [spGet_memWrite_out _ _ _ _ (by omega)]; simp
    | succ i =>
      have := ih (spSet 0 m a b) (a + 1) i (by simpa using h)
      simpa [Nat.add_assoc, Nat.add_comm 1 i] using this

@[simp] theorem memRead_length (m : Sparse (BitVec 8)) (a n : Nat) : (memRead m a n).length = n := by
  induction n generalizing a with
  | zero => rfl
  | succ n ih => simp [memRead, ih]

@[simp] theorem leBytes_length (n x : Nat) : (leBytes n x).length = n := by
  induction n generalizing x with
  | zero => rfl
  | succ n ih => simp [leBytes, ih]

/-- The little-endian bytes of a number spell it, cut to their width. -/
theorem leNat_leBytes (n x : Nat) : leNat (leBytes n x) = x % 256 ^ n := by
  induction n generalizing x with
  | zero => simp [leBytes, leNat, Nat.mod_one]
  | succ n ih =>
    rw [Nat.pow_succ, Nat.mul_comm (256 ^ n) 256, Nat.mod_mul]
    simp [leBytes, leNat, ih]

end Sys2Proof.Machine
end

