-- ==== Sys2Proof/Laws/State.lean ====
section
/-! SUPPORT. What each field of the state reads as after each of the named updates, and what the units, registers and
fields read as. -/

namespace Sys2Proof.Machine

/-! `State.setSt` writes `stitchers` and nothing else. -/

@[simp] theorem State.setSt_pending (s : State) (u : StId) (x : Stitcher) : (s.setSt u x).pending = s.pending := (rfl)
@[simp] theorem State.setSt_now (s : State) (u : StId) (x : Stitcher) : (s.setSt u x).now = s.now := (rfl)
@[simp] theorem State.setSt_timeBase (s : State) (u : StId) (x : Stitcher) : (s.setSt u x).timeBase = s.timeBase := (rfl)
@[simp] theorem State.setSt_freeCount (s : State) (u : StId) (x : Stitcher) : (s.setSt u x).freeCount = s.freeCount := (rfl)
@[simp] theorem State.setSt_regs (s : State) (u : StId) (x : Stitcher) : (s.setSt u x).regs = s.regs := (rfl)
@[simp] theorem State.setSt_latches (s : State) (u : StId) (x : Stitcher) : (s.setSt u x).latches = s.latches := (rfl)
@[simp] theorem State.setSt_quires (s : State) (u : StId) (x : Stitcher) : (s.setSt u x).quires = s.quires := (rfl)
@[simp] theorem State.setSt_parts (s : State) (u : StId) (x : Stitcher) : (s.setSt u x).parts = s.parts := (rfl)
@[simp] theorem State.setSt_flights (s : State) (u : StId) (x : Stitcher) : (s.setSt u x).flights = s.flights := (rfl)
@[simp] theorem State.setSt_creditFlights (s : State) (u : StId) (x : Stitcher) : (s.setSt u x).creditFlights = s.creditFlights := (rfl)
@[simp] theorem State.setSt_srcs (s : State) (u : StId) (x : Stitcher) : (s.setSt u x).srcs = s.srcs := (rfl)
@[simp] theorem State.setSt_mem (s : State) (u : StId) (x : Stitcher) : (s.setSt u x).mem = s.mem := (rfl)
@[simp] theorem State.setSt_memMark (s : State) (u : StId) (x : Stitcher) : (s.setSt u x).memMark = s.memMark := (rfl)
@[simp] theorem State.setSt_triggers (s : State) (u : StId) (x : Stitcher) : (s.setSt u x).triggers = s.triggers := (rfl)
@[simp] theorem State.setSt_trackers (s : State) (u : StId) (x : Stitcher) : (s.setSt u x).trackers = s.trackers := (rfl)
@[simp] theorem State.setSt_charges (s : State) (u : StId) (x : Stitcher) : (s.setSt u x).charges = s.charges := (rfl)
@[simp] theorem State.setSt_mgn (s : State) (u : StId) (x : Stitcher) : (s.setSt u x).mgn = s.mgn := (rfl)
@[simp] theorem State.setSt_dramFixes (s : State) (u : StId) (x : Stitcher) : (s.setSt u x).dramFixes = s.dramFixes := (rfl)
@[simp] theorem State.setSt_sparesUsed (s : State) (u : StId) (x : Stitcher) : (s.setSt u x).sparesUsed = s.sparesUsed := (rfl)
@[simp] theorem State.setSt_remaps (s : State) (u : StId) (x : Stitcher) : (s.setSt u x).remaps = s.remaps := (rfl)
@[simp] theorem State.setSt_notices (s : State) (u : StId) (x : Stitcher) : (s.setSt u x).notices = s.notices := (rfl)
@[simp] theorem State.setSt_comps (s : State) (u : StId) (x : Stitcher) : (s.setSt u x).comps = s.comps := (rfl)
@[simp] theorem State.setSt_ctlPage (s : State) (u : StId) (x : Stitcher) : (s.setSt u x).ctlPage = s.ctlPage := (rfl)
@[simp] theorem State.setSt_cmdArea (s : State) (u : StId) (x : Stitcher) : (s.setSt u x).cmdArea = s.cmdArea := (rfl)
@[simp] theorem State.setSt_bar2 (s : State) (u : StId) (x : Stitcher) : (s.setSt u x).bar2 = s.bar2 := (rfl)
@[simp] theorem State.setSt_msix (s : State) (u : StId) (x : Stitcher) : (s.setSt u x).msix = s.msix := (rfl)
@[simp] theorem State.setSt_extents (s : State) (u : StId) (x : Stitcher) : (s.setSt u x).extents = s.extents := (rfl)
@[simp] theorem State.setSt_filter (s : State) (u : StId) (x : Stitcher) : (s.setSt u x).filter = s.filter := (rfl)
@[simp] theorem State.setSt_snoops (s : State) (u : StId) (x : Stitcher) : (s.setSt u x).snoops = s.snoops := (rfl)
@[simp] theorem State.setSt_readWait (s : State) (u : StId) (x : Stitcher) : (s.setSt u x).readWait = s.readWait := (rfl)
@[simp] theorem State.setSt_hostData (s : State) (u : StId) (x : Stitcher) : (s.setSt u x).hostData = s.hostData := (rfl)
@[simp] theorem State.setSt_links (s : State) (u : StId) (x : Stitcher) : (s.setSt u x).links = s.links := (rfl)
@[simp] theorem State.setSt_spine (s : State) (u : StId) (x : Stitcher) : (s.setSt u x).spine = s.spine := (rfl)
@[simp] theorem State.setSt_spNext (s : State) (u : StId) (x : Stitcher) : (s.setSt u x).spNext = s.spNext := (rfl)
@[simp] theorem State.setSt_regAns (s : State) (u : StId) (x : Stitcher) : (s.setSt u x).regAns = s.regAns := (rfl)
@[simp] theorem State.setSt_halfChg (s : State) (u : StId) (x : Stitcher) : (s.setSt u x).halfChg = s.halfChg := (rfl)
@[simp] theorem State.setSt_thermal (s : State) (u : StId) (x : Stitcher) : (s.setSt u x).thermal = s.thermal := (rfl)
@[simp] theorem State.setSt_staging (s : State) (u : StId) (x : Stitcher) : (s.setSt u x).staging = s.staging := (rfl)
@[simp] theorem State.setSt_stageLostAt (s : State) (u : StId) (x : Stitcher) : (s.setSt u x).stageLostAt = s.stageLostAt := (rfl)
@[simp] theorem State.setSt_stageLostN (s : State) (u : StId) (x : Stitcher) : (s.setSt u x).stageLostN = s.stageLostN := (rfl)
@[simp] theorem State.setSt_recNext (s : State) (u : StId) (x : Stitcher) : (s.setSt u x).recNext = s.recNext := (rfl)
@[simp] theorem State.setSt_mapCopies (s : State) (u : StId) (x : Stitcher) : (s.setSt u x).mapCopies = s.mapCopies := (rfl)
@[simp] theorem State.setSt_mapBefore (s : State) (u : StId) (x : Stitcher) : (s.setSt u x).mapBefore = s.mapBefore := (rfl)
@[simp] theorem State.setSt_runs (s : State) (u : StId) (x : Stitcher) : (s.setSt u x).runs = s.runs := (rfl)
@[simp] theorem State.setSt_tested (s : State) (u : StId) (x : Stitcher) : (s.setSt u x).tested = s.tested := (rfl)
@[simp] theorem State.setSt_pulseEnd (s : State) (u : StId) (x : Stitcher) : (s.setSt u x).pulseEnd = s.pulseEnd := (rfl)
@[simp] theorem State.setSt_ioNext (s : State) (u : StId) (x : Stitcher) : (s.setSt u x).ioNext = s.ioNext := (rfl)
@[simp] theorem State.setSt_tickIn (s : State) (u : StId) (x : Stitcher) : (s.setSt u x).tickIn = s.tickIn := (rfl)
@[simp] theorem State.setSt_stew (s : State) (u : StId) (x : Stitcher) : (s.setSt u x).stew = s.stew := (rfl)

/-! `State.updSt` writes `stitchers` and nothing else. -/

@[simp] theorem State.updSt_pending (s : State) (u : StId) (g : Stitcher → Stitcher) : (s.updSt u g).pending = s.pending := (rfl)
@[simp] theorem State.updSt_now (s : State) (u : StId) (g : Stitcher → Stitcher) : (s.updSt u g).now = s.now := (rfl)
@[simp] theorem State.updSt_timeBase (s : State) (u : StId) (g : Stitcher → Stitcher) : (s.updSt u g).timeBase = s.timeBase := (rfl)
@[simp] theorem State.updSt_freeCount (s : State) (u : StId) (g : Stitcher → Stitcher) : (s.updSt u g).freeCount = s.freeCount := (rfl)
@[simp] theorem State.updSt_regs (s : State) (u : StId) (g : Stitcher → Stitcher) : (s.updSt u g).regs = s.regs := (rfl)
@[simp] theorem State.updSt_latches (s : State) (u : StId) (g : Stitcher → Stitcher) : (s.updSt u g).latches = s.latches := (rfl)
@[simp] theorem State.updSt_quires (s : State) (u : StId) (g : Stitcher → Stitcher) : (s.updSt u g).quires = s.quires := (rfl)
@[simp] theorem State.updSt_parts (s : State) (u : StId) (g : Stitcher → Stitcher) : (s.updSt u g).parts = s.parts := (rfl)
@[simp] theorem State.updSt_flights (s : State) (u : StId) (g : Stitcher → Stitcher) : (s.updSt u g).flights = s.flights := (rfl)
@[simp] theorem State.updSt_creditFlights (s : State) (u : StId) (g : Stitcher → Stitcher) : (s.updSt u g).creditFlights = s.creditFlights := (rfl)
@[simp] theorem State.updSt_srcs (s : State) (u : StId) (g : Stitcher → Stitcher) : (s.updSt u g).srcs = s.srcs := (rfl)
@[simp] theorem State.updSt_mem (s : State) (u : StId) (g : Stitcher → Stitcher) : (s.updSt u g).mem = s.mem := (rfl)
@[simp] theorem State.updSt_memMark (s : State) (u : StId) (g : Stitcher → Stitcher) : (s.updSt u g).memMark = s.memMark := (rfl)
@[simp] theorem State.updSt_triggers (s : State) (u : StId) (g : Stitcher → Stitcher) : (s.updSt u g).triggers = s.triggers := (rfl)
@[simp] theorem State.updSt_trackers (s : State) (u : StId) (g : Stitcher → Stitcher) : (s.updSt u g).trackers = s.trackers := (rfl)
@[simp] theorem State.updSt_charges (s : State) (u : StId) (g : Stitcher → Stitcher) : (s.updSt u g).charges = s.charges := (rfl)
@[simp] theorem State.updSt_mgn (s : State) (u : StId) (g : Stitcher → Stitcher) : (s.updSt u g).mgn = s.mgn := (rfl)
@[simp] theorem State.updSt_dramFixes (s : State) (u : StId) (g : Stitcher → Stitcher) : (s.updSt u g).dramFixes = s.dramFixes := (rfl)
@[simp] theorem State.updSt_sparesUsed (s : State) (u : StId) (g : Stitcher → Stitcher) : (s.updSt u g).sparesUsed = s.sparesUsed := (rfl)
@[simp] theorem State.updSt_remaps (s : State) (u : StId) (g : Stitcher → Stitcher) : (s.updSt u g).remaps = s.remaps := (rfl)
@[simp] theorem State.updSt_notices (s : State) (u : StId) (g : Stitcher → Stitcher) : (s.updSt u g).notices = s.notices := (rfl)
@[simp] theorem State.updSt_comps (s : State) (u : StId) (g : Stitcher → Stitcher) : (s.updSt u g).comps = s.comps := (rfl)
@[simp] theorem State.updSt_ctlPage (s : State) (u : StId) (g : Stitcher → Stitcher) : (s.updSt u g).ctlPage = s.ctlPage := (rfl)
@[simp] theorem State.updSt_cmdArea (s : State) (u : StId) (g : Stitcher → Stitcher) : (s.updSt u g).cmdArea = s.cmdArea := (rfl)
@[simp] theorem State.updSt_bar2 (s : State) (u : StId) (g : Stitcher → Stitcher) : (s.updSt u g).bar2 = s.bar2 := (rfl)
@[simp] theorem State.updSt_msix (s : State) (u : StId) (g : Stitcher → Stitcher) : (s.updSt u g).msix = s.msix := (rfl)
@[simp] theorem State.updSt_extents (s : State) (u : StId) (g : Stitcher → Stitcher) : (s.updSt u g).extents = s.extents := (rfl)
@[simp] theorem State.updSt_filter (s : State) (u : StId) (g : Stitcher → Stitcher) : (s.updSt u g).filter = s.filter := (rfl)
@[simp] theorem State.updSt_snoops (s : State) (u : StId) (g : Stitcher → Stitcher) : (s.updSt u g).snoops = s.snoops := (rfl)
@[simp] theorem State.updSt_readWait (s : State) (u : StId) (g : Stitcher → Stitcher) : (s.updSt u g).readWait = s.readWait := (rfl)
@[simp] theorem State.updSt_hostData (s : State) (u : StId) (g : Stitcher → Stitcher) : (s.updSt u g).hostData = s.hostData := (rfl)
@[simp] theorem State.updSt_links (s : State) (u : StId) (g : Stitcher → Stitcher) : (s.updSt u g).links = s.links := (rfl)
@[simp] theorem State.updSt_spine (s : State) (u : StId) (g : Stitcher → Stitcher) : (s.updSt u g).spine = s.spine := (rfl)
@[simp] theorem State.updSt_spNext (s : State) (u : StId) (g : Stitcher → Stitcher) : (s.updSt u g).spNext = s.spNext := (rfl)
@[simp] theorem State.updSt_regAns (s : State) (u : StId) (g : Stitcher → Stitcher) : (s.updSt u g).regAns = s.regAns := (rfl)
@[simp] theorem State.updSt_halfChg (s : State) (u : StId) (g : Stitcher → Stitcher) : (s.updSt u g).halfChg = s.halfChg := (rfl)
@[simp] theorem State.updSt_thermal (s : State) (u : StId) (g : Stitcher → Stitcher) : (s.updSt u g).thermal = s.thermal := (rfl)
@[simp] theorem State.updSt_staging (s : State) (u : StId) (g : Stitcher → Stitcher) : (s.updSt u g).staging = s.staging := (rfl)
@[simp] theorem State.updSt_stageLostAt (s : State) (u : StId) (g : Stitcher → Stitcher) : (s.updSt u g).stageLostAt = s.stageLostAt := (rfl)
@[simp] theorem State.updSt_stageLostN (s : State) (u : StId) (g : Stitcher → Stitcher) : (s.updSt u g).stageLostN = s.stageLostN := (rfl)
@[simp] theorem State.updSt_recNext (s : State) (u : StId) (g : Stitcher → Stitcher) : (s.updSt u g).recNext = s.recNext := (rfl)
@[simp] theorem State.updSt_mapCopies (s : State) (u : StId) (g : Stitcher → Stitcher) : (s.updSt u g).mapCopies = s.mapCopies := (rfl)
@[simp] theorem State.updSt_mapBefore (s : State) (u : StId) (g : Stitcher → Stitcher) : (s.updSt u g).mapBefore = s.mapBefore := (rfl)
@[simp] theorem State.updSt_runs (s : State) (u : StId) (g : Stitcher → Stitcher) : (s.updSt u g).runs = s.runs := (rfl)
@[simp] theorem State.updSt_tested (s : State) (u : StId) (g : Stitcher → Stitcher) : (s.updSt u g).tested = s.tested := (rfl)
@[simp] theorem State.updSt_pulseEnd (s : State) (u : StId) (g : Stitcher → Stitcher) : (s.updSt u g).pulseEnd = s.pulseEnd := (rfl)
@[simp] theorem State.updSt_ioNext (s : State) (u : StId) (g : Stitcher → Stitcher) : (s.updSt u g).ioNext = s.ioNext := (rfl)
@[simp] theorem State.updSt_tickIn (s : State) (u : StId) (g : Stitcher → Stitcher) : (s.updSt u g).tickIn = s.tickIn := (rfl)
@[simp] theorem State.updSt_stew (s : State) (u : StId) (g : Stitcher → Stitcher) : (s.updSt u g).stew = s.stew := (rfl)

/-! `State.setQu` writes `quires` and nothing else. -/

@[simp] theorem State.setQu_pending (s : State) (q : QuireId) (x : Quire) : (s.setQu q x).pending = s.pending := (rfl)
@[simp] theorem State.setQu_now (s : State) (q : QuireId) (x : Quire) : (s.setQu q x).now = s.now := (rfl)
@[simp] theorem State.setQu_timeBase (s : State) (q : QuireId) (x : Quire) : (s.setQu q x).timeBase = s.timeBase := (rfl)
@[simp] theorem State.setQu_freeCount (s : State) (q : QuireId) (x : Quire) : (s.setQu q x).freeCount = s.freeCount := (rfl)
@[simp] theorem State.setQu_regs (s : State) (q : QuireId) (x : Quire) : (s.setQu q x).regs = s.regs := (rfl)
@[simp] theorem State.setQu_latches (s : State) (q : QuireId) (x : Quire) : (s.setQu q x).latches = s.latches := (rfl)
@[simp] theorem State.setQu_stitchers (s : State) (q : QuireId) (x : Quire) : (s.setQu q x).stitchers = s.stitchers := (rfl)
@[simp] theorem State.setQu_parts (s : State) (q : QuireId) (x : Quire) : (s.setQu q x).parts = s.parts := (rfl)
@[simp] theorem State.setQu_flights (s : State) (q : QuireId) (x : Quire) : (s.setQu q x).flights = s.flights := (rfl)
@[simp] theorem State.setQu_creditFlights (s : State) (q : QuireId) (x : Quire) : (s.setQu q x).creditFlights = s.creditFlights := (rfl)
@[simp] theorem State.setQu_srcs (s : State) (q : QuireId) (x : Quire) : (s.setQu q x).srcs = s.srcs := (rfl)
@[simp] theorem State.setQu_mem (s : State) (q : QuireId) (x : Quire) : (s.setQu q x).mem = s.mem := (rfl)
@[simp] theorem State.setQu_memMark (s : State) (q : QuireId) (x : Quire) : (s.setQu q x).memMark = s.memMark := (rfl)
@[simp] theorem State.setQu_triggers (s : State) (q : QuireId) (x : Quire) : (s.setQu q x).triggers = s.triggers := (rfl)
@[simp] theorem State.setQu_trackers (s : State) (q : QuireId) (x : Quire) : (s.setQu q x).trackers = s.trackers := (rfl)
@[simp] theorem State.setQu_charges (s : State) (q : QuireId) (x : Quire) : (s.setQu q x).charges = s.charges := (rfl)
@[simp] theorem State.setQu_mgn (s : State) (q : QuireId) (x : Quire) : (s.setQu q x).mgn = s.mgn := (rfl)
@[simp] theorem State.setQu_dramFixes (s : State) (q : QuireId) (x : Quire) : (s.setQu q x).dramFixes = s.dramFixes := (rfl)
@[simp] theorem State.setQu_sparesUsed (s : State) (q : QuireId) (x : Quire) : (s.setQu q x).sparesUsed = s.sparesUsed := (rfl)
@[simp] theorem State.setQu_remaps (s : State) (q : QuireId) (x : Quire) : (s.setQu q x).remaps = s.remaps := (rfl)
@[simp] theorem State.setQu_notices (s : State) (q : QuireId) (x : Quire) : (s.setQu q x).notices = s.notices := (rfl)
@[simp] theorem State.setQu_comps (s : State) (q : QuireId) (x : Quire) : (s.setQu q x).comps = s.comps := (rfl)
@[simp] theorem State.setQu_ctlPage (s : State) (q : QuireId) (x : Quire) : (s.setQu q x).ctlPage = s.ctlPage := (rfl)
@[simp] theorem State.setQu_cmdArea (s : State) (q : QuireId) (x : Quire) : (s.setQu q x).cmdArea = s.cmdArea := (rfl)
@[simp] theorem State.setQu_bar2 (s : State) (q : QuireId) (x : Quire) : (s.setQu q x).bar2 = s.bar2 := (rfl)
@[simp] theorem State.setQu_msix (s : State) (q : QuireId) (x : Quire) : (s.setQu q x).msix = s.msix := (rfl)
@[simp] theorem State.setQu_extents (s : State) (q : QuireId) (x : Quire) : (s.setQu q x).extents = s.extents := (rfl)
@[simp] theorem State.setQu_filter (s : State) (q : QuireId) (x : Quire) : (s.setQu q x).filter = s.filter := (rfl)
@[simp] theorem State.setQu_snoops (s : State) (q : QuireId) (x : Quire) : (s.setQu q x).snoops = s.snoops := (rfl)
@[simp] theorem State.setQu_readWait (s : State) (q : QuireId) (x : Quire) : (s.setQu q x).readWait = s.readWait := (rfl)
@[simp] theorem State.setQu_hostData (s : State) (q : QuireId) (x : Quire) : (s.setQu q x).hostData = s.hostData := (rfl)
@[simp] theorem State.setQu_links (s : State) (q : QuireId) (x : Quire) : (s.setQu q x).links = s.links := (rfl)
@[simp] theorem State.setQu_spine (s : State) (q : QuireId) (x : Quire) : (s.setQu q x).spine = s.spine := (rfl)
@[simp] theorem State.setQu_spNext (s : State) (q : QuireId) (x : Quire) : (s.setQu q x).spNext = s.spNext := (rfl)
@[simp] theorem State.setQu_regAns (s : State) (q : QuireId) (x : Quire) : (s.setQu q x).regAns = s.regAns := (rfl)
@[simp] theorem State.setQu_halfChg (s : State) (q : QuireId) (x : Quire) : (s.setQu q x).halfChg = s.halfChg := (rfl)
@[simp] theorem State.setQu_thermal (s : State) (q : QuireId) (x : Quire) : (s.setQu q x).thermal = s.thermal := (rfl)
@[simp] theorem State.setQu_staging (s : State) (q : QuireId) (x : Quire) : (s.setQu q x).staging = s.staging := (rfl)
@[simp] theorem State.setQu_stageLostAt (s : State) (q : QuireId) (x : Quire) : (s.setQu q x).stageLostAt = s.stageLostAt := (rfl)
@[simp] theorem State.setQu_stageLostN (s : State) (q : QuireId) (x : Quire) : (s.setQu q x).stageLostN = s.stageLostN := (rfl)
@[simp] theorem State.setQu_recNext (s : State) (q : QuireId) (x : Quire) : (s.setQu q x).recNext = s.recNext := (rfl)
@[simp] theorem State.setQu_mapCopies (s : State) (q : QuireId) (x : Quire) : (s.setQu q x).mapCopies = s.mapCopies := (rfl)
@[simp] theorem State.setQu_mapBefore (s : State) (q : QuireId) (x : Quire) : (s.setQu q x).mapBefore = s.mapBefore := (rfl)
@[simp] theorem State.setQu_runs (s : State) (q : QuireId) (x : Quire) : (s.setQu q x).runs = s.runs := (rfl)
@[simp] theorem State.setQu_tested (s : State) (q : QuireId) (x : Quire) : (s.setQu q x).tested = s.tested := (rfl)
@[simp] theorem State.setQu_pulseEnd (s : State) (q : QuireId) (x : Quire) : (s.setQu q x).pulseEnd = s.pulseEnd := (rfl)
@[simp] theorem State.setQu_ioNext (s : State) (q : QuireId) (x : Quire) : (s.setQu q x).ioNext = s.ioNext := (rfl)
@[simp] theorem State.setQu_tickIn (s : State) (q : QuireId) (x : Quire) : (s.setQu q x).tickIn = s.tickIn := (rfl)
@[simp] theorem State.setQu_stew (s : State) (q : QuireId) (x : Quire) : (s.setQu q x).stew = s.stew := (rfl)

/-! `State.updQu` writes `quires` and nothing else. -/

@[simp] theorem State.updQu_pending (s : State) (q : QuireId) (g : Quire → Quire) : (s.updQu q g).pending = s.pending := (rfl)
@[simp] theorem State.updQu_now (s : State) (q : QuireId) (g : Quire → Quire) : (s.updQu q g).now = s.now := (rfl)
@[simp] theorem State.updQu_timeBase (s : State) (q : QuireId) (g : Quire → Quire) : (s.updQu q g).timeBase = s.timeBase := (rfl)
@[simp] theorem State.updQu_freeCount (s : State) (q : QuireId) (g : Quire → Quire) : (s.updQu q g).freeCount = s.freeCount := (rfl)
@[simp] theorem State.updQu_regs (s : State) (q : QuireId) (g : Quire → Quire) : (s.updQu q g).regs = s.regs := (rfl)
@[simp] theorem State.updQu_latches (s : State) (q : QuireId) (g : Quire → Quire) : (s.updQu q g).latches = s.latches := (rfl)
@[simp] theorem State.updQu_stitchers (s : State) (q : QuireId) (g : Quire → Quire) : (s.updQu q g).stitchers = s.stitchers := (rfl)
@[simp] theorem State.updQu_parts (s : State) (q : QuireId) (g : Quire → Quire) : (s.updQu q g).parts = s.parts := (rfl)
@[simp] theorem State.updQu_flights (s : State) (q : QuireId) (g : Quire → Quire) : (s.updQu q g).flights = s.flights := (rfl)
@[simp] theorem State.updQu_creditFlights (s : State) (q : QuireId) (g : Quire → Quire) : (s.updQu q g).creditFlights = s.creditFlights := (rfl)
@[simp] theorem State.updQu_srcs (s : State) (q : QuireId) (g : Quire → Quire) : (s.updQu q g).srcs = s.srcs := (rfl)
@[simp] theorem State.updQu_mem (s : State) (q : QuireId) (g : Quire → Quire) : (s.updQu q g).mem = s.mem := (rfl)
@[simp] theorem State.updQu_memMark (s : State) (q : QuireId) (g : Quire → Quire) : (s.updQu q g).memMark = s.memMark := (rfl)
@[simp] theorem State.updQu_triggers (s : State) (q : QuireId) (g : Quire → Quire) : (s.updQu q g).triggers = s.triggers := (rfl)
@[simp] theorem State.updQu_trackers (s : State) (q : QuireId) (g : Quire → Quire) : (s.updQu q g).trackers = s.trackers := (rfl)
@[simp] theorem State.updQu_charges (s : State) (q : QuireId) (g : Quire → Quire) : (s.updQu q g).charges = s.charges := (rfl)
@[simp] theorem State.updQu_mgn (s : State) (q : QuireId) (g : Quire → Quire) : (s.updQu q g).mgn = s.mgn := (rfl)
@[simp] theorem State.updQu_dramFixes (s : State) (q : QuireId) (g : Quire → Quire) : (s.updQu q g).dramFixes = s.dramFixes := (rfl)
@[simp] theorem State.updQu_sparesUsed (s : State) (q : QuireId) (g : Quire → Quire) : (s.updQu q g).sparesUsed = s.sparesUsed := (rfl)
@[simp] theorem State.updQu_remaps (s : State) (q : QuireId) (g : Quire → Quire) : (s.updQu q g).remaps = s.remaps := (rfl)
@[simp] theorem State.updQu_notices (s : State) (q : QuireId) (g : Quire → Quire) : (s.updQu q g).notices = s.notices := (rfl)
@[simp] theorem State.updQu_comps (s : State) (q : QuireId) (g : Quire → Quire) : (s.updQu q g).comps = s.comps := (rfl)
@[simp] theorem State.updQu_ctlPage (s : State) (q : QuireId) (g : Quire → Quire) : (s.updQu q g).ctlPage = s.ctlPage := (rfl)
@[simp] theorem State.updQu_cmdArea (s : State) (q : QuireId) (g : Quire → Quire) : (s.updQu q g).cmdArea = s.cmdArea := (rfl)
@[simp] theorem State.updQu_bar2 (s : State) (q : QuireId) (g : Quire → Quire) : (s.updQu q g).bar2 = s.bar2 := (rfl)
@[simp] theorem State.updQu_msix (s : State) (q : QuireId) (g : Quire → Quire) : (s.updQu q g).msix = s.msix := (rfl)
@[simp] theorem State.updQu_extents (s : State) (q : QuireId) (g : Quire → Quire) : (s.updQu q g).extents = s.extents := (rfl)
@[simp] theorem State.updQu_filter (s : State) (q : QuireId) (g : Quire → Quire) : (s.updQu q g).filter = s.filter := (rfl)
@[simp] theorem State.updQu_snoops (s : State) (q : QuireId) (g : Quire → Quire) : (s.updQu q g).snoops = s.snoops := (rfl)
@[simp] theorem State.updQu_readWait (s : State) (q : QuireId) (g : Quire → Quire) : (s.updQu q g).readWait = s.readWait := (rfl)
@[simp] theorem State.updQu_hostData (s : State) (q : QuireId) (g : Quire → Quire) : (s.updQu q g).hostData = s.hostData := (rfl)
@[simp] theorem State.updQu_links (s : State) (q : QuireId) (g : Quire → Quire) : (s.updQu q g).links = s.links := (rfl)
@[simp] theorem State.updQu_spine (s : State) (q : QuireId) (g : Quire → Quire) : (s.updQu q g).spine = s.spine := (rfl)
@[simp] theorem State.updQu_spNext (s : State) (q : QuireId) (g : Quire → Quire) : (s.updQu q g).spNext = s.spNext := (rfl)
@[simp] theorem State.updQu_regAns (s : State) (q : QuireId) (g : Quire → Quire) : (s.updQu q g).regAns = s.regAns := (rfl)
@[simp] theorem State.updQu_halfChg (s : State) (q : QuireId) (g : Quire → Quire) : (s.updQu q g).halfChg = s.halfChg := (rfl)
@[simp] theorem State.updQu_thermal (s : State) (q : QuireId) (g : Quire → Quire) : (s.updQu q g).thermal = s.thermal := (rfl)
@[simp] theorem State.updQu_staging (s : State) (q : QuireId) (g : Quire → Quire) : (s.updQu q g).staging = s.staging := (rfl)
@[simp] theorem State.updQu_stageLostAt (s : State) (q : QuireId) (g : Quire → Quire) : (s.updQu q g).stageLostAt = s.stageLostAt := (rfl)
@[simp] theorem State.updQu_stageLostN (s : State) (q : QuireId) (g : Quire → Quire) : (s.updQu q g).stageLostN = s.stageLostN := (rfl)
@[simp] theorem State.updQu_recNext (s : State) (q : QuireId) (g : Quire → Quire) : (s.updQu q g).recNext = s.recNext := (rfl)
@[simp] theorem State.updQu_mapCopies (s : State) (q : QuireId) (g : Quire → Quire) : (s.updQu q g).mapCopies = s.mapCopies := (rfl)
@[simp] theorem State.updQu_mapBefore (s : State) (q : QuireId) (g : Quire → Quire) : (s.updQu q g).mapBefore = s.mapBefore := (rfl)
@[simp] theorem State.updQu_runs (s : State) (q : QuireId) (g : Quire → Quire) : (s.updQu q g).runs = s.runs := (rfl)
@[simp] theorem State.updQu_tested (s : State) (q : QuireId) (g : Quire → Quire) : (s.updQu q g).tested = s.tested := (rfl)
@[simp] theorem State.updQu_pulseEnd (s : State) (q : QuireId) (g : Quire → Quire) : (s.updQu q g).pulseEnd = s.pulseEnd := (rfl)
@[simp] theorem State.updQu_ioNext (s : State) (q : QuireId) (g : Quire → Quire) : (s.updQu q g).ioNext = s.ioNext := (rfl)
@[simp] theorem State.updQu_tickIn (s : State) (q : QuireId) (g : Quire → Quire) : (s.updQu q g).tickIn = s.tickIn := (rfl)
@[simp] theorem State.updQu_stew (s : State) (q : QuireId) (g : Quire → Quire) : (s.updQu q g).stew = s.stew := (rfl)

/-! `State.setPart` writes `parts` and nothing else. -/

@[simp] theorem State.setPart_pending (s : State) (p : PartId) (x : Part) : (s.setPart p x).pending = s.pending := (rfl)
@[simp] theorem State.setPart_now (s : State) (p : PartId) (x : Part) : (s.setPart p x).now = s.now := (rfl)
@[simp] theorem State.setPart_timeBase (s : State) (p : PartId) (x : Part) : (s.setPart p x).timeBase = s.timeBase := (rfl)
@[simp] theorem State.setPart_freeCount (s : State) (p : PartId) (x : Part) : (s.setPart p x).freeCount = s.freeCount := (rfl)
@[simp] theorem State.setPart_regs (s : State) (p : PartId) (x : Part) : (s.setPart p x).regs = s.regs := (rfl)
@[simp] theorem State.setPart_latches (s : State) (p : PartId) (x : Part) : (s.setPart p x).latches = s.latches := (rfl)
@[simp] theorem State.setPart_stitchers (s : State) (p : PartId) (x : Part) : (s.setPart p x).stitchers = s.stitchers := (rfl)
@[simp] theorem State.setPart_quires (s : State) (p : PartId) (x : Part) : (s.setPart p x).quires = s.quires := (rfl)
@[simp] theorem State.setPart_flights (s : State) (p : PartId) (x : Part) : (s.setPart p x).flights = s.flights := (rfl)
@[simp] theorem State.setPart_creditFlights (s : State) (p : PartId) (x : Part) : (s.setPart p x).creditFlights = s.creditFlights := (rfl)
@[simp] theorem State.setPart_srcs (s : State) (p : PartId) (x : Part) : (s.setPart p x).srcs = s.srcs := (rfl)
@[simp] theorem State.setPart_mem (s : State) (p : PartId) (x : Part) : (s.setPart p x).mem = s.mem := (rfl)
@[simp] theorem State.setPart_memMark (s : State) (p : PartId) (x : Part) : (s.setPart p x).memMark = s.memMark := (rfl)
@[simp] theorem State.setPart_triggers (s : State) (p : PartId) (x : Part) : (s.setPart p x).triggers = s.triggers := (rfl)
@[simp] theorem State.setPart_trackers (s : State) (p : PartId) (x : Part) : (s.setPart p x).trackers = s.trackers := (rfl)
@[simp] theorem State.setPart_charges (s : State) (p : PartId) (x : Part) : (s.setPart p x).charges = s.charges := (rfl)
@[simp] theorem State.setPart_mgn (s : State) (p : PartId) (x : Part) : (s.setPart p x).mgn = s.mgn := (rfl)
@[simp] theorem State.setPart_dramFixes (s : State) (p : PartId) (x : Part) : (s.setPart p x).dramFixes = s.dramFixes := (rfl)
@[simp] theorem State.setPart_sparesUsed (s : State) (p : PartId) (x : Part) : (s.setPart p x).sparesUsed = s.sparesUsed := (rfl)
@[simp] theorem State.setPart_remaps (s : State) (p : PartId) (x : Part) : (s.setPart p x).remaps = s.remaps := (rfl)
@[simp] theorem State.setPart_notices (s : State) (p : PartId) (x : Part) : (s.setPart p x).notices = s.notices := (rfl)
@[simp] theorem State.setPart_comps (s : State) (p : PartId) (x : Part) : (s.setPart p x).comps = s.comps := (rfl)
@[simp] theorem State.setPart_ctlPage (s : State) (p : PartId) (x : Part) : (s.setPart p x).ctlPage = s.ctlPage := (rfl)
@[simp] theorem State.setPart_cmdArea (s : State) (p : PartId) (x : Part) : (s.setPart p x).cmdArea = s.cmdArea := (rfl)
@[simp] theorem State.setPart_bar2 (s : State) (p : PartId) (x : Part) : (s.setPart p x).bar2 = s.bar2 := (rfl)
@[simp] theorem State.setPart_msix (s : State) (p : PartId) (x : Part) : (s.setPart p x).msix = s.msix := (rfl)
@[simp] theorem State.setPart_extents (s : State) (p : PartId) (x : Part) : (s.setPart p x).extents = s.extents := (rfl)
@[simp] theorem State.setPart_filter (s : State) (p : PartId) (x : Part) : (s.setPart p x).filter = s.filter := (rfl)
@[simp] theorem State.setPart_snoops (s : State) (p : PartId) (x : Part) : (s.setPart p x).snoops = s.snoops := (rfl)
@[simp] theorem State.setPart_readWait (s : State) (p : PartId) (x : Part) : (s.setPart p x).readWait = s.readWait := (rfl)
@[simp] theorem State.setPart_hostData (s : State) (p : PartId) (x : Part) : (s.setPart p x).hostData = s.hostData := (rfl)
@[simp] theorem State.setPart_links (s : State) (p : PartId) (x : Part) : (s.setPart p x).links = s.links := (rfl)
@[simp] theorem State.setPart_spine (s : State) (p : PartId) (x : Part) : (s.setPart p x).spine = s.spine := (rfl)
@[simp] theorem State.setPart_spNext (s : State) (p : PartId) (x : Part) : (s.setPart p x).spNext = s.spNext := (rfl)
@[simp] theorem State.setPart_regAns (s : State) (p : PartId) (x : Part) : (s.setPart p x).regAns = s.regAns := (rfl)
@[simp] theorem State.setPart_halfChg (s : State) (p : PartId) (x : Part) : (s.setPart p x).halfChg = s.halfChg := (rfl)
@[simp] theorem State.setPart_thermal (s : State) (p : PartId) (x : Part) : (s.setPart p x).thermal = s.thermal := (rfl)
@[simp] theorem State.setPart_staging (s : State) (p : PartId) (x : Part) : (s.setPart p x).staging = s.staging := (rfl)
@[simp] theorem State.setPart_stageLostAt (s : State) (p : PartId) (x : Part) : (s.setPart p x).stageLostAt = s.stageLostAt := (rfl)
@[simp] theorem State.setPart_stageLostN (s : State) (p : PartId) (x : Part) : (s.setPart p x).stageLostN = s.stageLostN := (rfl)
@[simp] theorem State.setPart_recNext (s : State) (p : PartId) (x : Part) : (s.setPart p x).recNext = s.recNext := (rfl)
@[simp] theorem State.setPart_mapCopies (s : State) (p : PartId) (x : Part) : (s.setPart p x).mapCopies = s.mapCopies := (rfl)
@[simp] theorem State.setPart_mapBefore (s : State) (p : PartId) (x : Part) : (s.setPart p x).mapBefore = s.mapBefore := (rfl)
@[simp] theorem State.setPart_runs (s : State) (p : PartId) (x : Part) : (s.setPart p x).runs = s.runs := (rfl)
@[simp] theorem State.setPart_tested (s : State) (p : PartId) (x : Part) : (s.setPart p x).tested = s.tested := (rfl)
@[simp] theorem State.setPart_pulseEnd (s : State) (p : PartId) (x : Part) : (s.setPart p x).pulseEnd = s.pulseEnd := (rfl)
@[simp] theorem State.setPart_ioNext (s : State) (p : PartId) (x : Part) : (s.setPart p x).ioNext = s.ioNext := (rfl)
@[simp] theorem State.setPart_tickIn (s : State) (p : PartId) (x : Part) : (s.setPart p x).tickIn = s.tickIn := (rfl)
@[simp] theorem State.setPart_stew (s : State) (p : PartId) (x : Part) : (s.setPart p x).stew = s.stew := (rfl)

/-! `State.updPart` writes `parts` and nothing else. -/

@[simp] theorem State.updPart_pending (s : State) (p : PartId) (g : Part → Part) : (s.updPart p g).pending = s.pending := (rfl)
@[simp] theorem State.updPart_now (s : State) (p : PartId) (g : Part → Part) : (s.updPart p g).now = s.now := (rfl)
@[simp] theorem State.updPart_timeBase (s : State) (p : PartId) (g : Part → Part) : (s.updPart p g).timeBase = s.timeBase := (rfl)
@[simp] theorem State.updPart_freeCount (s : State) (p : PartId) (g : Part → Part) : (s.updPart p g).freeCount = s.freeCount := (rfl)
@[simp] theorem State.updPart_regs (s : State) (p : PartId) (g : Part → Part) : (s.updPart p g).regs = s.regs := (rfl)
@[simp] theorem State.updPart_latches (s : State) (p : PartId) (g : Part → Part) : (s.updPart p g).latches = s.latches := (rfl)
@[simp] theorem State.updPart_stitchers (s : State) (p : PartId) (g : Part → Part) : (s.updPart p g).stitchers = s.stitchers := (rfl)
@[simp] theorem State.updPart_quires (s : State) (p : PartId) (g : Part → Part) : (s.updPart p g).quires = s.quires := (rfl)
@[simp] theorem State.updPart_flights (s : State) (p : PartId) (g : Part → Part) : (s.updPart p g).flights = s.flights := (rfl)
@[simp] theorem State.updPart_creditFlights (s : State) (p : PartId) (g : Part → Part) : (s.updPart p g).creditFlights = s.creditFlights := (rfl)
@[simp] theorem State.updPart_srcs (s : State) (p : PartId) (g : Part → Part) : (s.updPart p g).srcs = s.srcs := (rfl)
@[simp] theorem State.updPart_mem (s : State) (p : PartId) (g : Part → Part) : (s.updPart p g).mem = s.mem := (rfl)
@[simp] theorem State.updPart_memMark (s : State) (p : PartId) (g : Part → Part) : (s.updPart p g).memMark = s.memMark := (rfl)
@[simp] theorem State.updPart_triggers (s : State) (p : PartId) (g : Part → Part) : (s.updPart p g).triggers = s.triggers := (rfl)
@[simp] theorem State.updPart_trackers (s : State) (p : PartId) (g : Part → Part) : (s.updPart p g).trackers = s.trackers := (rfl)
@[simp] theorem State.updPart_charges (s : State) (p : PartId) (g : Part → Part) : (s.updPart p g).charges = s.charges := (rfl)
@[simp] theorem State.updPart_mgn (s : State) (p : PartId) (g : Part → Part) : (s.updPart p g).mgn = s.mgn := (rfl)
@[simp] theorem State.updPart_dramFixes (s : State) (p : PartId) (g : Part → Part) : (s.updPart p g).dramFixes = s.dramFixes := (rfl)
@[simp] theorem State.updPart_sparesUsed (s : State) (p : PartId) (g : Part → Part) : (s.updPart p g).sparesUsed = s.sparesUsed := (rfl)
@[simp] theorem State.updPart_remaps (s : State) (p : PartId) (g : Part → Part) : (s.updPart p g).remaps = s.remaps := (rfl)
@[simp] theorem State.updPart_notices (s : State) (p : PartId) (g : Part → Part) : (s.updPart p g).notices = s.notices := (rfl)
@[simp] theorem State.updPart_comps (s : State) (p : PartId) (g : Part → Part) : (s.updPart p g).comps = s.comps := (rfl)
@[simp] theorem State.updPart_ctlPage (s : State) (p : PartId) (g : Part → Part) : (s.updPart p g).ctlPage = s.ctlPage := (rfl)
@[simp] theorem State.updPart_cmdArea (s : State) (p : PartId) (g : Part → Part) : (s.updPart p g).cmdArea = s.cmdArea := (rfl)
@[simp] theorem State.updPart_bar2 (s : State) (p : PartId) (g : Part → Part) : (s.updPart p g).bar2 = s.bar2 := (rfl)
@[simp] theorem State.updPart_msix (s : State) (p : PartId) (g : Part → Part) : (s.updPart p g).msix = s.msix := (rfl)
@[simp] theorem State.updPart_extents (s : State) (p : PartId) (g : Part → Part) : (s.updPart p g).extents = s.extents := (rfl)
@[simp] theorem State.updPart_filter (s : State) (p : PartId) (g : Part → Part) : (s.updPart p g).filter = s.filter := (rfl)
@[simp] theorem State.updPart_snoops (s : State) (p : PartId) (g : Part → Part) : (s.updPart p g).snoops = s.snoops := (rfl)
@[simp] theorem State.updPart_readWait (s : State) (p : PartId) (g : Part → Part) : (s.updPart p g).readWait = s.readWait := (rfl)
@[simp] theorem State.updPart_hostData (s : State) (p : PartId) (g : Part → Part) : (s.updPart p g).hostData = s.hostData := (rfl)
@[simp] theorem State.updPart_links (s : State) (p : PartId) (g : Part → Part) : (s.updPart p g).links = s.links := (rfl)
@[simp] theorem State.updPart_spine (s : State) (p : PartId) (g : Part → Part) : (s.updPart p g).spine = s.spine := (rfl)
@[simp] theorem State.updPart_spNext (s : State) (p : PartId) (g : Part → Part) : (s.updPart p g).spNext = s.spNext := (rfl)
@[simp] theorem State.updPart_regAns (s : State) (p : PartId) (g : Part → Part) : (s.updPart p g).regAns = s.regAns := (rfl)
@[simp] theorem State.updPart_halfChg (s : State) (p : PartId) (g : Part → Part) : (s.updPart p g).halfChg = s.halfChg := (rfl)
@[simp] theorem State.updPart_thermal (s : State) (p : PartId) (g : Part → Part) : (s.updPart p g).thermal = s.thermal := (rfl)
@[simp] theorem State.updPart_staging (s : State) (p : PartId) (g : Part → Part) : (s.updPart p g).staging = s.staging := (rfl)
@[simp] theorem State.updPart_stageLostAt (s : State) (p : PartId) (g : Part → Part) : (s.updPart p g).stageLostAt = s.stageLostAt := (rfl)
@[simp] theorem State.updPart_stageLostN (s : State) (p : PartId) (g : Part → Part) : (s.updPart p g).stageLostN = s.stageLostN := (rfl)
@[simp] theorem State.updPart_recNext (s : State) (p : PartId) (g : Part → Part) : (s.updPart p g).recNext = s.recNext := (rfl)
@[simp] theorem State.updPart_mapCopies (s : State) (p : PartId) (g : Part → Part) : (s.updPart p g).mapCopies = s.mapCopies := (rfl)
@[simp] theorem State.updPart_mapBefore (s : State) (p : PartId) (g : Part → Part) : (s.updPart p g).mapBefore = s.mapBefore := (rfl)
@[simp] theorem State.updPart_runs (s : State) (p : PartId) (g : Part → Part) : (s.updPart p g).runs = s.runs := (rfl)
@[simp] theorem State.updPart_tested (s : State) (p : PartId) (g : Part → Part) : (s.updPart p g).tested = s.tested := (rfl)
@[simp] theorem State.updPart_pulseEnd (s : State) (p : PartId) (g : Part → Part) : (s.updPart p g).pulseEnd = s.pulseEnd := (rfl)
@[simp] theorem State.updPart_ioNext (s : State) (p : PartId) (g : Part → Part) : (s.updPart p g).ioNext = s.ioNext := (rfl)
@[simp] theorem State.updPart_tickIn (s : State) (p : PartId) (g : Part → Part) : (s.updPart p g).tickIn = s.tickIn := (rfl)
@[simp] theorem State.updPart_stew (s : State) (p : PartId) (g : Part → Part) : (s.updPart p g).stew = s.stew := (rfl)

/-! `State.setSrc` writes `srcs` and nothing else. -/

@[simp] theorem State.setSrc_pending (s : State) (c : Src) (x : SrcSt) : (s.setSrc c x).pending = s.pending := (rfl)
@[simp] theorem State.setSrc_now (s : State) (c : Src) (x : SrcSt) : (s.setSrc c x).now = s.now := (rfl)
@[simp] theorem State.setSrc_timeBase (s : State) (c : Src) (x : SrcSt) : (s.setSrc c x).timeBase = s.timeBase := (rfl)
@[simp] theorem State.setSrc_freeCount (s : State) (c : Src) (x : SrcSt) : (s.setSrc c x).freeCount = s.freeCount := (rfl)
@[simp] theorem State.setSrc_regs (s : State) (c : Src) (x : SrcSt) : (s.setSrc c x).regs = s.regs := (rfl)
@[simp] theorem State.setSrc_latches (s : State) (c : Src) (x : SrcSt) : (s.setSrc c x).latches = s.latches := (rfl)
@[simp] theorem State.setSrc_stitchers (s : State) (c : Src) (x : SrcSt) : (s.setSrc c x).stitchers = s.stitchers := (rfl)
@[simp] theorem State.setSrc_quires (s : State) (c : Src) (x : SrcSt) : (s.setSrc c x).quires = s.quires := (rfl)
@[simp] theorem State.setSrc_parts (s : State) (c : Src) (x : SrcSt) : (s.setSrc c x).parts = s.parts := (rfl)
@[simp] theorem State.setSrc_flights (s : State) (c : Src) (x : SrcSt) : (s.setSrc c x).flights = s.flights := (rfl)
@[simp] theorem State.setSrc_creditFlights (s : State) (c : Src) (x : SrcSt) : (s.setSrc c x).creditFlights = s.creditFlights := (rfl)
@[simp] theorem State.setSrc_mem (s : State) (c : Src) (x : SrcSt) : (s.setSrc c x).mem = s.mem := (rfl)
@[simp] theorem State.setSrc_memMark (s : State) (c : Src) (x : SrcSt) : (s.setSrc c x).memMark = s.memMark := (rfl)
@[simp] theorem State.setSrc_triggers (s : State) (c : Src) (x : SrcSt) : (s.setSrc c x).triggers = s.triggers := (rfl)
@[simp] theorem State.setSrc_trackers (s : State) (c : Src) (x : SrcSt) : (s.setSrc c x).trackers = s.trackers := (rfl)
@[simp] theorem State.setSrc_charges (s : State) (c : Src) (x : SrcSt) : (s.setSrc c x).charges = s.charges := (rfl)
@[simp] theorem State.setSrc_mgn (s : State) (c : Src) (x : SrcSt) : (s.setSrc c x).mgn = s.mgn := (rfl)
@[simp] theorem State.setSrc_dramFixes (s : State) (c : Src) (x : SrcSt) : (s.setSrc c x).dramFixes = s.dramFixes := (rfl)
@[simp] theorem State.setSrc_sparesUsed (s : State) (c : Src) (x : SrcSt) : (s.setSrc c x).sparesUsed = s.sparesUsed := (rfl)
@[simp] theorem State.setSrc_remaps (s : State) (c : Src) (x : SrcSt) : (s.setSrc c x).remaps = s.remaps := (rfl)
@[simp] theorem State.setSrc_notices (s : State) (c : Src) (x : SrcSt) : (s.setSrc c x).notices = s.notices := (rfl)
@[simp] theorem State.setSrc_comps (s : State) (c : Src) (x : SrcSt) : (s.setSrc c x).comps = s.comps := (rfl)
@[simp] theorem State.setSrc_ctlPage (s : State) (c : Src) (x : SrcSt) : (s.setSrc c x).ctlPage = s.ctlPage := (rfl)
@[simp] theorem State.setSrc_cmdArea (s : State) (c : Src) (x : SrcSt) : (s.setSrc c x).cmdArea = s.cmdArea := (rfl)
@[simp] theorem State.setSrc_bar2 (s : State) (c : Src) (x : SrcSt) : (s.setSrc c x).bar2 = s.bar2 := (rfl)
@[simp] theorem State.setSrc_msix (s : State) (c : Src) (x : SrcSt) : (s.setSrc c x).msix = s.msix := (rfl)
@[simp] theorem State.setSrc_extents (s : State) (c : Src) (x : SrcSt) : (s.setSrc c x).extents = s.extents := (rfl)
@[simp] theorem State.setSrc_filter (s : State) (c : Src) (x : SrcSt) : (s.setSrc c x).filter = s.filter := (rfl)
@[simp] theorem State.setSrc_snoops (s : State) (c : Src) (x : SrcSt) : (s.setSrc c x).snoops = s.snoops := (rfl)
@[simp] theorem State.setSrc_readWait (s : State) (c : Src) (x : SrcSt) : (s.setSrc c x).readWait = s.readWait := (rfl)
@[simp] theorem State.setSrc_hostData (s : State) (c : Src) (x : SrcSt) : (s.setSrc c x).hostData = s.hostData := (rfl)
@[simp] theorem State.setSrc_links (s : State) (c : Src) (x : SrcSt) : (s.setSrc c x).links = s.links := (rfl)
@[simp] theorem State.setSrc_spine (s : State) (c : Src) (x : SrcSt) : (s.setSrc c x).spine = s.spine := (rfl)
@[simp] theorem State.setSrc_spNext (s : State) (c : Src) (x : SrcSt) : (s.setSrc c x).spNext = s.spNext := (rfl)
@[simp] theorem State.setSrc_regAns (s : State) (c : Src) (x : SrcSt) : (s.setSrc c x).regAns = s.regAns := (rfl)
@[simp] theorem State.setSrc_halfChg (s : State) (c : Src) (x : SrcSt) : (s.setSrc c x).halfChg = s.halfChg := (rfl)
@[simp] theorem State.setSrc_thermal (s : State) (c : Src) (x : SrcSt) : (s.setSrc c x).thermal = s.thermal := (rfl)
@[simp] theorem State.setSrc_staging (s : State) (c : Src) (x : SrcSt) : (s.setSrc c x).staging = s.staging := (rfl)
@[simp] theorem State.setSrc_stageLostAt (s : State) (c : Src) (x : SrcSt) : (s.setSrc c x).stageLostAt = s.stageLostAt := (rfl)
@[simp] theorem State.setSrc_stageLostN (s : State) (c : Src) (x : SrcSt) : (s.setSrc c x).stageLostN = s.stageLostN := (rfl)
@[simp] theorem State.setSrc_recNext (s : State) (c : Src) (x : SrcSt) : (s.setSrc c x).recNext = s.recNext := (rfl)
@[simp] theorem State.setSrc_mapCopies (s : State) (c : Src) (x : SrcSt) : (s.setSrc c x).mapCopies = s.mapCopies := (rfl)
@[simp] theorem State.setSrc_mapBefore (s : State) (c : Src) (x : SrcSt) : (s.setSrc c x).mapBefore = s.mapBefore := (rfl)
@[simp] theorem State.setSrc_runs (s : State) (c : Src) (x : SrcSt) : (s.setSrc c x).runs = s.runs := (rfl)
@[simp] theorem State.setSrc_tested (s : State) (c : Src) (x : SrcSt) : (s.setSrc c x).tested = s.tested := (rfl)
@[simp] theorem State.setSrc_pulseEnd (s : State) (c : Src) (x : SrcSt) : (s.setSrc c x).pulseEnd = s.pulseEnd := (rfl)
@[simp] theorem State.setSrc_ioNext (s : State) (c : Src) (x : SrcSt) : (s.setSrc c x).ioNext = s.ioNext := (rfl)
@[simp] theorem State.setSrc_tickIn (s : State) (c : Src) (x : SrcSt) : (s.setSrc c x).tickIn = s.tickIn := (rfl)
@[simp] theorem State.setSrc_stew (s : State) (c : Src) (x : SrcSt) : (s.setSrc c x).stew = s.stew := (rfl)

/-! `State.wr` writes `regs` and nothing else. -/

@[simp] theorem State.wr_pending (s : State) (b : Nat) (r : Reg) (v : BitVec 32) : (s.wr b r v).pending = s.pending := (rfl)
@[simp] theorem State.wr_now (s : State) (b : Nat) (r : Reg) (v : BitVec 32) : (s.wr b r v).now = s.now := (rfl)
@[simp] theorem State.wr_timeBase (s : State) (b : Nat) (r : Reg) (v : BitVec 32) : (s.wr b r v).timeBase = s.timeBase := (rfl)
@[simp] theorem State.wr_freeCount (s : State) (b : Nat) (r : Reg) (v : BitVec 32) : (s.wr b r v).freeCount = s.freeCount := (rfl)
@[simp] theorem State.wr_latches (s : State) (b : Nat) (r : Reg) (v : BitVec 32) : (s.wr b r v).latches = s.latches := (rfl)
@[simp] theorem State.wr_stitchers (s : State) (b : Nat) (r : Reg) (v : BitVec 32) : (s.wr b r v).stitchers = s.stitchers := (rfl)
@[simp] theorem State.wr_quires (s : State) (b : Nat) (r : Reg) (v : BitVec 32) : (s.wr b r v).quires = s.quires := (rfl)
@[simp] theorem State.wr_parts (s : State) (b : Nat) (r : Reg) (v : BitVec 32) : (s.wr b r v).parts = s.parts := (rfl)
@[simp] theorem State.wr_flights (s : State) (b : Nat) (r : Reg) (v : BitVec 32) : (s.wr b r v).flights = s.flights := (rfl)
@[simp] theorem State.wr_creditFlights (s : State) (b : Nat) (r : Reg) (v : BitVec 32) : (s.wr b r v).creditFlights = s.creditFlights := (rfl)
@[simp] theorem State.wr_srcs (s : State) (b : Nat) (r : Reg) (v : BitVec 32) : (s.wr b r v).srcs = s.srcs := (rfl)
@[simp] theorem State.wr_mem (s : State) (b : Nat) (r : Reg) (v : BitVec 32) : (s.wr b r v).mem = s.mem := (rfl)
@[simp] theorem State.wr_memMark (s : State) (b : Nat) (r : Reg) (v : BitVec 32) : (s.wr b r v).memMark = s.memMark := (rfl)
@[simp] theorem State.wr_triggers (s : State) (b : Nat) (r : Reg) (v : BitVec 32) : (s.wr b r v).triggers = s.triggers := (rfl)
@[simp] theorem State.wr_trackers (s : State) (b : Nat) (r : Reg) (v : BitVec 32) : (s.wr b r v).trackers = s.trackers := (rfl)
@[simp] theorem State.wr_charges (s : State) (b : Nat) (r : Reg) (v : BitVec 32) : (s.wr b r v).charges = s.charges := (rfl)
@[simp] theorem State.wr_mgn (s : State) (b : Nat) (r : Reg) (v : BitVec 32) : (s.wr b r v).mgn = s.mgn := (rfl)
@[simp] theorem State.wr_dramFixes (s : State) (b : Nat) (r : Reg) (v : BitVec 32) : (s.wr b r v).dramFixes = s.dramFixes := (rfl)
@[simp] theorem State.wr_sparesUsed (s : State) (b : Nat) (r : Reg) (v : BitVec 32) : (s.wr b r v).sparesUsed = s.sparesUsed := (rfl)
@[simp] theorem State.wr_remaps (s : State) (b : Nat) (r : Reg) (v : BitVec 32) : (s.wr b r v).remaps = s.remaps := (rfl)
@[simp] theorem State.wr_notices (s : State) (b : Nat) (r : Reg) (v : BitVec 32) : (s.wr b r v).notices = s.notices := (rfl)
@[simp] theorem State.wr_comps (s : State) (b : Nat) (r : Reg) (v : BitVec 32) : (s.wr b r v).comps = s.comps := (rfl)
@[simp] theorem State.wr_ctlPage (s : State) (b : Nat) (r : Reg) (v : BitVec 32) : (s.wr b r v).ctlPage = s.ctlPage := (rfl)
@[simp] theorem State.wr_cmdArea (s : State) (b : Nat) (r : Reg) (v : BitVec 32) : (s.wr b r v).cmdArea = s.cmdArea := (rfl)
@[simp] theorem State.wr_bar2 (s : State) (b : Nat) (r : Reg) (v : BitVec 32) : (s.wr b r v).bar2 = s.bar2 := (rfl)
@[simp] theorem State.wr_msix (s : State) (b : Nat) (r : Reg) (v : BitVec 32) : (s.wr b r v).msix = s.msix := (rfl)
@[simp] theorem State.wr_extents (s : State) (b : Nat) (r : Reg) (v : BitVec 32) : (s.wr b r v).extents = s.extents := (rfl)
@[simp] theorem State.wr_filter (s : State) (b : Nat) (r : Reg) (v : BitVec 32) : (s.wr b r v).filter = s.filter := (rfl)
@[simp] theorem State.wr_snoops (s : State) (b : Nat) (r : Reg) (v : BitVec 32) : (s.wr b r v).snoops = s.snoops := (rfl)
@[simp] theorem State.wr_readWait (s : State) (b : Nat) (r : Reg) (v : BitVec 32) : (s.wr b r v).readWait = s.readWait := (rfl)
@[simp] theorem State.wr_hostData (s : State) (b : Nat) (r : Reg) (v : BitVec 32) : (s.wr b r v).hostData = s.hostData := (rfl)
@[simp] theorem State.wr_links (s : State) (b : Nat) (r : Reg) (v : BitVec 32) : (s.wr b r v).links = s.links := (rfl)
@[simp] theorem State.wr_spine (s : State) (b : Nat) (r : Reg) (v : BitVec 32) : (s.wr b r v).spine = s.spine := (rfl)
@[simp] theorem State.wr_spNext (s : State) (b : Nat) (r : Reg) (v : BitVec 32) : (s.wr b r v).spNext = s.spNext := (rfl)
@[simp] theorem State.wr_regAns (s : State) (b : Nat) (r : Reg) (v : BitVec 32) : (s.wr b r v).regAns = s.regAns := (rfl)
@[simp] theorem State.wr_halfChg (s : State) (b : Nat) (r : Reg) (v : BitVec 32) : (s.wr b r v).halfChg = s.halfChg := (rfl)
@[simp] theorem State.wr_thermal (s : State) (b : Nat) (r : Reg) (v : BitVec 32) : (s.wr b r v).thermal = s.thermal := (rfl)
@[simp] theorem State.wr_staging (s : State) (b : Nat) (r : Reg) (v : BitVec 32) : (s.wr b r v).staging = s.staging := (rfl)
@[simp] theorem State.wr_stageLostAt (s : State) (b : Nat) (r : Reg) (v : BitVec 32) : (s.wr b r v).stageLostAt = s.stageLostAt := (rfl)
@[simp] theorem State.wr_stageLostN (s : State) (b : Nat) (r : Reg) (v : BitVec 32) : (s.wr b r v).stageLostN = s.stageLostN := (rfl)
@[simp] theorem State.wr_recNext (s : State) (b : Nat) (r : Reg) (v : BitVec 32) : (s.wr b r v).recNext = s.recNext := (rfl)
@[simp] theorem State.wr_mapCopies (s : State) (b : Nat) (r : Reg) (v : BitVec 32) : (s.wr b r v).mapCopies = s.mapCopies := (rfl)
@[simp] theorem State.wr_mapBefore (s : State) (b : Nat) (r : Reg) (v : BitVec 32) : (s.wr b r v).mapBefore = s.mapBefore := (rfl)
@[simp] theorem State.wr_runs (s : State) (b : Nat) (r : Reg) (v : BitVec 32) : (s.wr b r v).runs = s.runs := (rfl)
@[simp] theorem State.wr_tested (s : State) (b : Nat) (r : Reg) (v : BitVec 32) : (s.wr b r v).tested = s.tested := (rfl)
@[simp] theorem State.wr_pulseEnd (s : State) (b : Nat) (r : Reg) (v : BitVec 32) : (s.wr b r v).pulseEnd = s.pulseEnd := (rfl)
@[simp] theorem State.wr_ioNext (s : State) (b : Nat) (r : Reg) (v : BitVec 32) : (s.wr b r v).ioNext = s.ioNext := (rfl)
@[simp] theorem State.wr_tickIn (s : State) (b : Nat) (r : Reg) (v : BitVec 32) : (s.wr b r v).tickIn = s.tickIn := (rfl)
@[simp] theorem State.wr_stew (s : State) (b : Nat) (r : Reg) (v : BitVec 32) : (s.wr b r v).stew = s.stew := (rfl)

/-! `State.setF` writes `regs` and nothing else. -/

@[simp] theorem State.setF_pending (s : State) (b : Nat) (g : Fld) (v : Nat) : (s.setF b g v).pending = s.pending := (rfl)
@[simp] theorem State.setF_now (s : State) (b : Nat) (g : Fld) (v : Nat) : (s.setF b g v).now = s.now := (rfl)
@[simp] theorem State.setF_timeBase (s : State) (b : Nat) (g : Fld) (v : Nat) : (s.setF b g v).timeBase = s.timeBase := (rfl)
@[simp] theorem State.setF_freeCount (s : State) (b : Nat) (g : Fld) (v : Nat) : (s.setF b g v).freeCount = s.freeCount := (rfl)
@[simp] theorem State.setF_latches (s : State) (b : Nat) (g : Fld) (v : Nat) : (s.setF b g v).latches = s.latches := (rfl)
@[simp] theorem State.setF_stitchers (s : State) (b : Nat) (g : Fld) (v : Nat) : (s.setF b g v).stitchers = s.stitchers := (rfl)
@[simp] theorem State.setF_quires (s : State) (b : Nat) (g : Fld) (v : Nat) : (s.setF b g v).quires = s.quires := (rfl)
@[simp] theorem State.setF_parts (s : State) (b : Nat) (g : Fld) (v : Nat) : (s.setF b g v).parts = s.parts := (rfl)
@[simp] theorem State.setF_flights (s : State) (b : Nat) (g : Fld) (v : Nat) : (s.setF b g v).flights = s.flights := (rfl)
@[simp] theorem State.setF_creditFlights (s : State) (b : Nat) (g : Fld) (v : Nat) : (s.setF b g v).creditFlights = s.creditFlights := (rfl)
@[simp] theorem State.setF_srcs (s : State) (b : Nat) (g : Fld) (v : Nat) : (s.setF b g v).srcs = s.srcs := (rfl)
@[simp] theorem State.setF_mem (s : State) (b : Nat) (g : Fld) (v : Nat) : (s.setF b g v).mem = s.mem := (rfl)
@[simp] theorem State.setF_memMark (s : State) (b : Nat) (g : Fld) (v : Nat) : (s.setF b g v).memMark = s.memMark := (rfl)
@[simp] theorem State.setF_triggers (s : State) (b : Nat) (g : Fld) (v : Nat) : (s.setF b g v).triggers = s.triggers := (rfl)
@[simp] theorem State.setF_trackers (s : State) (b : Nat) (g : Fld) (v : Nat) : (s.setF b g v).trackers = s.trackers := (rfl)
@[simp] theorem State.setF_charges (s : State) (b : Nat) (g : Fld) (v : Nat) : (s.setF b g v).charges = s.charges := (rfl)
@[simp] theorem State.setF_mgn (s : State) (b : Nat) (g : Fld) (v : Nat) : (s.setF b g v).mgn = s.mgn := (rfl)
@[simp] theorem State.setF_dramFixes (s : State) (b : Nat) (g : Fld) (v : Nat) : (s.setF b g v).dramFixes = s.dramFixes := (rfl)
@[simp] theorem State.setF_sparesUsed (s : State) (b : Nat) (g : Fld) (v : Nat) : (s.setF b g v).sparesUsed = s.sparesUsed := (rfl)
@[simp] theorem State.setF_remaps (s : State) (b : Nat) (g : Fld) (v : Nat) : (s.setF b g v).remaps = s.remaps := (rfl)
@[simp] theorem State.setF_notices (s : State) (b : Nat) (g : Fld) (v : Nat) : (s.setF b g v).notices = s.notices := (rfl)
@[simp] theorem State.setF_comps (s : State) (b : Nat) (g : Fld) (v : Nat) : (s.setF b g v).comps = s.comps := (rfl)
@[simp] theorem State.setF_ctlPage (s : State) (b : Nat) (g : Fld) (v : Nat) : (s.setF b g v).ctlPage = s.ctlPage := (rfl)
@[simp] theorem State.setF_cmdArea (s : State) (b : Nat) (g : Fld) (v : Nat) : (s.setF b g v).cmdArea = s.cmdArea := (rfl)
@[simp] theorem State.setF_bar2 (s : State) (b : Nat) (g : Fld) (v : Nat) : (s.setF b g v).bar2 = s.bar2 := (rfl)
@[simp] theorem State.setF_msix (s : State) (b : Nat) (g : Fld) (v : Nat) : (s.setF b g v).msix = s.msix := (rfl)
@[simp] theorem State.setF_extents (s : State) (b : Nat) (g : Fld) (v : Nat) : (s.setF b g v).extents = s.extents := (rfl)
@[simp] theorem State.setF_filter (s : State) (b : Nat) (g : Fld) (v : Nat) : (s.setF b g v).filter = s.filter := (rfl)
@[simp] theorem State.setF_snoops (s : State) (b : Nat) (g : Fld) (v : Nat) : (s.setF b g v).snoops = s.snoops := (rfl)
@[simp] theorem State.setF_readWait (s : State) (b : Nat) (g : Fld) (v : Nat) : (s.setF b g v).readWait = s.readWait := (rfl)
@[simp] theorem State.setF_hostData (s : State) (b : Nat) (g : Fld) (v : Nat) : (s.setF b g v).hostData = s.hostData := (rfl)
@[simp] theorem State.setF_links (s : State) (b : Nat) (g : Fld) (v : Nat) : (s.setF b g v).links = s.links := (rfl)
@[simp] theorem State.setF_spine (s : State) (b : Nat) (g : Fld) (v : Nat) : (s.setF b g v).spine = s.spine := (rfl)
@[simp] theorem State.setF_spNext (s : State) (b : Nat) (g : Fld) (v : Nat) : (s.setF b g v).spNext = s.spNext := (rfl)
@[simp] theorem State.setF_regAns (s : State) (b : Nat) (g : Fld) (v : Nat) : (s.setF b g v).regAns = s.regAns := (rfl)
@[simp] theorem State.setF_halfChg (s : State) (b : Nat) (g : Fld) (v : Nat) : (s.setF b g v).halfChg = s.halfChg := (rfl)
@[simp] theorem State.setF_thermal (s : State) (b : Nat) (g : Fld) (v : Nat) : (s.setF b g v).thermal = s.thermal := (rfl)
@[simp] theorem State.setF_staging (s : State) (b : Nat) (g : Fld) (v : Nat) : (s.setF b g v).staging = s.staging := (rfl)
@[simp] theorem State.setF_stageLostAt (s : State) (b : Nat) (g : Fld) (v : Nat) : (s.setF b g v).stageLostAt = s.stageLostAt := (rfl)
@[simp] theorem State.setF_stageLostN (s : State) (b : Nat) (g : Fld) (v : Nat) : (s.setF b g v).stageLostN = s.stageLostN := (rfl)
@[simp] theorem State.setF_recNext (s : State) (b : Nat) (g : Fld) (v : Nat) : (s.setF b g v).recNext = s.recNext := (rfl)
@[simp] theorem State.setF_mapCopies (s : State) (b : Nat) (g : Fld) (v : Nat) : (s.setF b g v).mapCopies = s.mapCopies := (rfl)
@[simp] theorem State.setF_mapBefore (s : State) (b : Nat) (g : Fld) (v : Nat) : (s.setF b g v).mapBefore = s.mapBefore := (rfl)
@[simp] theorem State.setF_runs (s : State) (b : Nat) (g : Fld) (v : Nat) : (s.setF b g v).runs = s.runs := (rfl)
@[simp] theorem State.setF_tested (s : State) (b : Nat) (g : Fld) (v : Nat) : (s.setF b g v).tested = s.tested := (rfl)
@[simp] theorem State.setF_pulseEnd (s : State) (b : Nat) (g : Fld) (v : Nat) : (s.setF b g v).pulseEnd = s.pulseEnd := (rfl)
@[simp] theorem State.setF_ioNext (s : State) (b : Nat) (g : Fld) (v : Nat) : (s.setF b g v).ioNext = s.ioNext := (rfl)
@[simp] theorem State.setF_tickIn (s : State) (b : Nat) (g : Fld) (v : Nat) : (s.setF b g v).tickIn = s.tickIn := (rfl)
@[simp] theorem State.setF_stew (s : State) (b : Nat) (g : Fld) (v : Nat) : (s.setF b g v).stew = s.stew := (rfl)

/-! `State.incF` writes `regs` and nothing else. -/

@[simp] theorem State.incF_pending (s : State) (b : Nat) (g : Fld) (n : Nat) : (s.incF b g n).pending = s.pending := (rfl)
@[simp] theorem State.incF_now (s : State) (b : Nat) (g : Fld) (n : Nat) : (s.incF b g n).now = s.now := (rfl)
@[simp] theorem State.incF_timeBase (s : State) (b : Nat) (g : Fld) (n : Nat) : (s.incF b g n).timeBase = s.timeBase := (rfl)
@[simp] theorem State.incF_freeCount (s : State) (b : Nat) (g : Fld) (n : Nat) : (s.incF b g n).freeCount = s.freeCount := (rfl)
@[simp] theorem State.incF_latches (s : State) (b : Nat) (g : Fld) (n : Nat) : (s.incF b g n).latches = s.latches := (rfl)
@[simp] theorem State.incF_stitchers (s : State) (b : Nat) (g : Fld) (n : Nat) : (s.incF b g n).stitchers = s.stitchers := (rfl)
@[simp] theorem State.incF_quires (s : State) (b : Nat) (g : Fld) (n : Nat) : (s.incF b g n).quires = s.quires := (rfl)
@[simp] theorem State.incF_parts (s : State) (b : Nat) (g : Fld) (n : Nat) : (s.incF b g n).parts = s.parts := (rfl)
@[simp] theorem State.incF_flights (s : State) (b : Nat) (g : Fld) (n : Nat) : (s.incF b g n).flights = s.flights := (rfl)
@[simp] theorem State.incF_creditFlights (s : State) (b : Nat) (g : Fld) (n : Nat) : (s.incF b g n).creditFlights = s.creditFlights := (rfl)
@[simp] theorem State.incF_srcs (s : State) (b : Nat) (g : Fld) (n : Nat) : (s.incF b g n).srcs = s.srcs := (rfl)
@[simp] theorem State.incF_mem (s : State) (b : Nat) (g : Fld) (n : Nat) : (s.incF b g n).mem = s.mem := (rfl)
@[simp] theorem State.incF_memMark (s : State) (b : Nat) (g : Fld) (n : Nat) : (s.incF b g n).memMark = s.memMark := (rfl)
@[simp] theorem State.incF_triggers (s : State) (b : Nat) (g : Fld) (n : Nat) : (s.incF b g n).triggers = s.triggers := (rfl)
@[simp] theorem State.incF_trackers (s : State) (b : Nat) (g : Fld) (n : Nat) : (s.incF b g n).trackers = s.trackers := (rfl)
@[simp] theorem State.incF_charges (s : State) (b : Nat) (g : Fld) (n : Nat) : (s.incF b g n).charges = s.charges := (rfl)
@[simp] theorem State.incF_mgn (s : State) (b : Nat) (g : Fld) (n : Nat) : (s.incF b g n).mgn = s.mgn := (rfl)
@[simp] theorem State.incF_dramFixes (s : State) (b : Nat) (g : Fld) (n : Nat) : (s.incF b g n).dramFixes = s.dramFixes := (rfl)
@[simp] theorem State.incF_sparesUsed (s : State) (b : Nat) (g : Fld) (n : Nat) : (s.incF b g n).sparesUsed = s.sparesUsed := (rfl)
@[simp] theorem State.incF_remaps (s : State) (b : Nat) (g : Fld) (n : Nat) : (s.incF b g n).remaps = s.remaps := (rfl)
@[simp] theorem State.incF_notices (s : State) (b : Nat) (g : Fld) (n : Nat) : (s.incF b g n).notices = s.notices := (rfl)
@[simp] theorem State.incF_comps (s : State) (b : Nat) (g : Fld) (n : Nat) : (s.incF b g n).comps = s.comps := (rfl)
@[simp] theorem State.incF_ctlPage (s : State) (b : Nat) (g : Fld) (n : Nat) : (s.incF b g n).ctlPage = s.ctlPage := (rfl)
@[simp] theorem State.incF_cmdArea (s : State) (b : Nat) (g : Fld) (n : Nat) : (s.incF b g n).cmdArea = s.cmdArea := (rfl)
@[simp] theorem State.incF_bar2 (s : State) (b : Nat) (g : Fld) (n : Nat) : (s.incF b g n).bar2 = s.bar2 := (rfl)
@[simp] theorem State.incF_msix (s : State) (b : Nat) (g : Fld) (n : Nat) : (s.incF b g n).msix = s.msix := (rfl)
@[simp] theorem State.incF_extents (s : State) (b : Nat) (g : Fld) (n : Nat) : (s.incF b g n).extents = s.extents := (rfl)
@[simp] theorem State.incF_filter (s : State) (b : Nat) (g : Fld) (n : Nat) : (s.incF b g n).filter = s.filter := (rfl)
@[simp] theorem State.incF_snoops (s : State) (b : Nat) (g : Fld) (n : Nat) : (s.incF b g n).snoops = s.snoops := (rfl)
@[simp] theorem State.incF_readWait (s : State) (b : Nat) (g : Fld) (n : Nat) : (s.incF b g n).readWait = s.readWait := (rfl)
@[simp] theorem State.incF_hostData (s : State) (b : Nat) (g : Fld) (n : Nat) : (s.incF b g n).hostData = s.hostData := (rfl)
@[simp] theorem State.incF_links (s : State) (b : Nat) (g : Fld) (n : Nat) : (s.incF b g n).links = s.links := (rfl)
@[simp] theorem State.incF_spine (s : State) (b : Nat) (g : Fld) (n : Nat) : (s.incF b g n).spine = s.spine := (rfl)
@[simp] theorem State.incF_spNext (s : State) (b : Nat) (g : Fld) (n : Nat) : (s.incF b g n).spNext = s.spNext := (rfl)
@[simp] theorem State.incF_regAns (s : State) (b : Nat) (g : Fld) (n : Nat) : (s.incF b g n).regAns = s.regAns := (rfl)
@[simp] theorem State.incF_halfChg (s : State) (b : Nat) (g : Fld) (n : Nat) : (s.incF b g n).halfChg = s.halfChg := (rfl)
@[simp] theorem State.incF_thermal (s : State) (b : Nat) (g : Fld) (n : Nat) : (s.incF b g n).thermal = s.thermal := (rfl)
@[simp] theorem State.incF_staging (s : State) (b : Nat) (g : Fld) (n : Nat) : (s.incF b g n).staging = s.staging := (rfl)
@[simp] theorem State.incF_stageLostAt (s : State) (b : Nat) (g : Fld) (n : Nat) : (s.incF b g n).stageLostAt = s.stageLostAt := (rfl)
@[simp] theorem State.incF_stageLostN (s : State) (b : Nat) (g : Fld) (n : Nat) : (s.incF b g n).stageLostN = s.stageLostN := (rfl)
@[simp] theorem State.incF_recNext (s : State) (b : Nat) (g : Fld) (n : Nat) : (s.incF b g n).recNext = s.recNext := (rfl)
@[simp] theorem State.incF_mapCopies (s : State) (b : Nat) (g : Fld) (n : Nat) : (s.incF b g n).mapCopies = s.mapCopies := (rfl)
@[simp] theorem State.incF_mapBefore (s : State) (b : Nat) (g : Fld) (n : Nat) : (s.incF b g n).mapBefore = s.mapBefore := (rfl)
@[simp] theorem State.incF_runs (s : State) (b : Nat) (g : Fld) (n : Nat) : (s.incF b g n).runs = s.runs := (rfl)
@[simp] theorem State.incF_tested (s : State) (b : Nat) (g : Fld) (n : Nat) : (s.incF b g n).tested = s.tested := (rfl)
@[simp] theorem State.incF_pulseEnd (s : State) (b : Nat) (g : Fld) (n : Nat) : (s.incF b g n).pulseEnd = s.pulseEnd := (rfl)
@[simp] theorem State.incF_ioNext (s : State) (b : Nat) (g : Fld) (n : Nat) : (s.incF b g n).ioNext = s.ioNext := (rfl)
@[simp] theorem State.incF_tickIn (s : State) (b : Nat) (g : Fld) (n : Nat) : (s.incF b g n).tickIn = s.tickIn := (rfl)
@[simp] theorem State.incF_stew (s : State) (b : Nat) (g : Fld) (n : Nat) : (s.incF b g n).stew = s.stew := (rfl)

/-! Units. -/

theorem StId.key_inj {u v : StId} (h : u.key = v.key) : u = v := by
  obtain ⟨q, i⟩ := u
  obtain ⟨r, j⟩ := v
  simp only [StId.key] at h
  have : q.val = r.val ∧ i.val = j.val := by omega
  exact congrArg₂ StId.mk (Fin.ext this.1) (Fin.ext this.2)

@[simp] theorem State.st_setSt_same (s : State) (u : StId) (x : Stitcher) : (s.setSt u x).st u = x := by
  simp [State.st, State.setSt]

theorem State.st_setSt_ne (s : State) {u v : StId} (x : Stitcher) (h : v ≠ u) : (s.setSt u x).st v = s.st v :=
  spGet_spSet_ne _ _ _ (fun e => h (StId.key_inj e).symm)

@[simp] theorem State.st_updSt_same (s : State) (u : StId) (g : Stitcher → Stitcher) : (s.updSt u g).st u = g (s.st u) :=
  s.st_setSt_same u _

theorem State.st_updSt_ne (s : State) {u v : StId} (g : Stitcher → Stitcher) (h : v ≠ u) :
    (s.updSt u g).st v = s.st v :=
  s.st_setSt_ne _ h

@[simp] theorem State.qu_setQu_same (s : State) (q : QuireId) (x : Quire) : (s.setQu q x).qu q = x := by
  simp [State.qu, State.setQu]

theorem State.qu_setQu_ne (s : State) {q r : QuireId} (x : Quire) (h : r ≠ q) : (s.setQu q x).qu r = s.qu r :=
  spGet_spSet_ne _ _ _ (fun e => h (Fin.ext e).symm)

@[simp] theorem State.qu_updQu_same (s : State) (q : QuireId) (g : Quire → Quire) : (s.updQu q g).qu q = g (s.qu q) :=
  s.qu_setQu_same q _

theorem State.qu_updQu_ne (s : State) {q r : QuireId} (g : Quire → Quire) (h : r ≠ q) : (s.updQu q g).qu r = s.qu r :=
  s.qu_setQu_ne _ h

@[simp] theorem State.part_setPart_same (s : State) (p : PartId) (x : Part) : (s.setPart p x).part p = x := by
  simp [State.part, State.setPart]

theorem State.part_setPart_ne (s : State) {p r : PartId} (x : Part) (h : r ≠ p) : (s.setPart p x).part r = s.part r :=
  spGet_spSet_ne _ _ _ (fun e => h (Fin.ext e).symm)

@[simp] theorem State.part_updPart_same (s : State) (p : PartId) (g : Part → Part) :
    (s.updPart p g).part p = g (s.part p) :=
  s.part_setPart_same p _

theorem State.part_updPart_ne (s : State) {p r : PartId} (g : Part → Part) (h : r ≠ p) :
    (s.updPart p g).part r = s.part r :=
  s.part_setPart_ne _ h

/-! A unit reads as before where its table is as before. -/

theorem State.st_congr {s t : State} (h : t.stitchers = s.stitchers) (u : StId) : t.st u = s.st u := by
  simp [State.st, h]

theorem State.qu_congr {s t : State} (h : t.quires = s.quires) (q : QuireId) : t.qu q = s.qu q := by
  simp [State.qu, h]

theorem State.part_congr {s t : State} (h : t.parts = s.parts) (p : PartId) : t.part p = s.part p := by
  simp [State.part, h]

theorem State.rd_congr {s t : State} (h : t.regs = s.regs) (b : Nat) (r : Reg) : t.rd b r = s.rd b r := by
  simp [State.rd, h]

theorem State.f_congr {s t : State} (h : t.regs = s.regs) (b : Nat) (g : Fld) : t.f b g = s.f b g := by
  simp [State.f, State.rd, h]

@[simp] theorem State.st_setQu (s : State) (q : QuireId) (x : Quire) (u : StId) : (s.setQu q x).st u = s.st u := (rfl)
@[simp] theorem State.st_updQu (s : State) (q : QuireId) (g : Quire → Quire) (u : StId) : (s.updQu q g).st u = s.st u :=
  (rfl)
@[simp] theorem State.st_setPart (s : State) (p : PartId) (x : Part) (u : StId) : (s.setPart p x).st u = s.st u := (rfl)
@[simp] theorem State.st_updPart (s : State) (p : PartId) (g : Part → Part) (u : StId) :
    (s.updPart p g).st u = s.st u := (rfl)
@[simp] theorem State.st_setSrc (s : State) (c : Src) (x : SrcSt) (u : StId) : (s.setSrc c x).st u = s.st u := (rfl)
@[simp] theorem State.st_wr (s : State) (b : Nat) (r : Reg) (v : BitVec 32) (u : StId) : (s.wr b r v).st u = s.st u := (rfl)
@[simp] theorem State.st_setF (s : State) (b : Nat) (g : Fld) (v : Nat) (u : StId) : (s.setF b g v).st u = s.st u := (rfl)
@[simp] theorem State.st_incF (s : State) (b : Nat) (g : Fld) (n : Nat) (u : StId) : (s.incF b g n).st u = s.st u := (rfl)

@[simp] theorem State.qu_setSt (s : State) (u : StId) (x : Stitcher) (q : QuireId) : (s.setSt u x).qu q = s.qu q := (rfl)
@[simp] theorem State.qu_updSt (s : State) (u : StId) (g : Stitcher → Stitcher) (q : QuireId) :
    (s.updSt u g).qu q = s.qu q := (rfl)
@[simp] theorem State.qu_setPart (s : State) (p : PartId) (x : Part) (q : QuireId) : (s.setPart p x).qu q = s.qu q := (rfl)
@[simp] theorem State.qu_updPart (s : State) (p : PartId) (g : Part → Part) (q : QuireId) :
    (s.updPart p g).qu q = s.qu q := (rfl)
@[simp] theorem State.qu_setSrc (s : State) (c : Src) (x : SrcSt) (q : QuireId) : (s.setSrc c x).qu q = s.qu q := (rfl)
@[simp] theorem State.qu_wr (s : State) (b : Nat) (r : Reg) (v : BitVec 32) (q : QuireId) : (s.wr b r v).qu q = s.qu q :=
  (rfl)
@[simp] theorem State.qu_setF (s : State) (b : Nat) (g : Fld) (v : Nat) (q : QuireId) : (s.setF b g v).qu q = s.qu q := (rfl)
@[simp] theorem State.qu_incF (s : State) (b : Nat) (g : Fld) (n : Nat) (q : QuireId) : (s.incF b g n).qu q = s.qu q := (rfl)

@[simp] theorem State.part_setSt (s : State) (u : StId) (x : Stitcher) (p : PartId) : (s.setSt u x).part p = s.part p :=
  (rfl)
@[simp] theorem State.part_updSt (s : State) (u : StId) (g : Stitcher → Stitcher) (p : PartId) :
    (s.updSt u g).part p = s.part p := (rfl)
@[simp] theorem State.part_setQu (s : State) (q : QuireId) (x : Quire) (p : PartId) : (s.setQu q x).part p = s.part p := (rfl)
@[simp] theorem State.part_updQu (s : State) (q : QuireId) (g : Quire → Quire) (p : PartId) :
    (s.updQu q g).part p = s.part p := (rfl)
@[simp] theorem State.part_setSrc (s : State) (c : Src) (x : SrcSt) (p : PartId) : (s.setSrc c x).part p = s.part p := (rfl)
@[simp] theorem State.part_wr (s : State) (b : Nat) (r : Reg) (v : BitVec 32) (p : PartId) :
    (s.wr b r v).part p = s.part p := (rfl)
@[simp] theorem State.part_setF (s : State) (b : Nat) (g : Fld) (v : Nat) (p : PartId) :
    (s.setF b g v).part p = s.part p := (rfl)
@[simp] theorem State.part_incF (s : State) (b : Nat) (g : Fld) (n : Nat) (p : PartId) :
    (s.incF b g n).part p = s.part p := (rfl)

/-! Registers and fields. -/

@[simp] theorem State.rd_wr_same (s : State) (b : Nat) (r : Reg) (v : BitVec 32) : (s.wr b r v).rd b r = v := by
  simp [State.rd, State.wr]

theorem State.rd_wr_ne (s : State) {b c : Nat} {r k : Reg} (v : BitVec 32) (h : b + r.off ≠ c + k.off) :
    (s.wr b r v).rd c k = s.rd c k :=
  spGet_spSet_ne' h
where
  spGet_spSet_ne' {b c : Nat} {r k : Reg} (h : b + r.off ≠ c + k.off) :
      spGet k.rst (spSet r.rst s.regs (b + r.off) v) (c + k.off) = spGet k.rst s.regs (c + k.off) := by
    unfold spSet
    split
    · exact spGet_spDel_ne _ _ h
    · rw [spGet_spIns_ne _ _ h, spGet_spDel_ne _ _ h]

/-- A word with a field written shows it there. -/
theorem Fld.get_put_same (g : Fld) (w : BitVec 32) (v : Nat) (hw : g.lo + g.w ≤ 32) :
    g.get (g.put w v) = v % 2 ^ g.w := by
  have hb := w.isLt
  simp only [Fld.get, Fld.put, BitVec.toNat_ofNat]
  have e : (2 : Nat) ^ (g.lo + g.w) = 2 ^ g.lo * 2 ^ g.w := Nat.pow_add ..
  have hdvd : (2 : Nat) ^ (g.lo + g.w) ∣ 2 ^ 32 := Nat.pow_dvd_pow 2 hw
  obtain ⟨c, hc⟩ := hdvd
  rw [hc, e]
  have h0 : 0 < 2 ^ g.lo := Nat.two_pow_pos _
  have h1 : 0 < 2 ^ g.w := Nat.two_pow_pos _
  have key : ∀ a x y : Nat, a < 2 ^ g.lo → x < 2 ^ g.w →
      (a + x * 2 ^ g.lo + y * (2 ^ g.lo * 2 ^ g.w)) % (2 ^ g.lo * 2 ^ g.w * c) / 2 ^ g.lo % 2 ^ g.w = x := by
    intro a x y ha hx
    rw [show 2 ^ g.lo * 2 ^ g.w * c = 2 ^ g.lo * (2 ^ g.w * c) by ring, ← Nat.mod_mul_right_div_self,
      Nat.mod_mod_of_dvd _ ⟨c, by ring⟩, Nat.mod_mul_right_div_self,
      show a + x * 2 ^ g.lo + y * (2 ^ g.lo * 2 ^ g.w) = a + 2 ^ g.lo * (x + 2 ^ g.w * y) by ring,
      Nat.add_mul_div_left _ _ h0, Nat.div_eq_of_lt ha]
    simp [Nat.mod_eq_of_lt hx]
  rw [key _ _ _ (Nat.mod_lt _ h0) (Nat.mod_lt _ h1)]

theorem State.f_setF_same (s : State) (b : Nat) (g : Fld) (v : Nat) (hw : g.lo + g.w ≤ 32) :
    (s.setF b g v).f b g = v % 2 ^ g.w := by
  simp [State.f, State.setF, Fld.get_put_same g _ v hw]

/-- A field of another register. -/
theorem State.f_setF_reg (s : State) {b c : Nat} {g k : Fld} (v : Nat) (h : b + g.reg.off ≠ c + k.reg.off) :
    (s.setF b g v).f c k = s.f c k := by
  simp [State.f, State.setF, State.rd_wr_ne s _ h]

theorem State.rd_setF_ne (s : State) {b c : Nat} {g : Fld} {k : Reg} (v : Nat) (h : b + g.reg.off ≠ c + k.off) :
    (s.setF b g v).rd c k = s.rd c k :=
  s.rd_wr_ne _ h

theorem State.rd_setF_same (s : State) (b : Nat) (g : Fld) (v : Nat) :
    (s.setF b g v).rd b g.reg = g.put (s.rd b g.reg) v := by
  simp [State.setF]

/-- A field above the one written, in the same word. -/
theorem Fld.get_put_above (g k : Fld) (w : BitVec 32) (v : Nat) (h : g.lo + g.w ≤ k.lo) (hk : k.lo + k.w ≤ 32) :
    k.get (g.put w v) = k.get w := by
  simp only [Fld.get, Fld.put, BitVec.toNat_ofNat]
  generalize w.toNat = x
  obtain ⟨m, hm⟩ := Nat.exists_eq_add_of_le h
  obtain ⟨n, hn⟩ := Nat.exists_eq_add_of_le hk
  have h0 : 0 < 2 ^ g.lo := Nat.two_pow_pos _
  have h1 : 0 < 2 ^ g.w := Nat.two_pow_pos _
  have e32 : (2 : Nat) ^ 32 = 2 ^ k.lo * (2 ^ k.w * 2 ^ n) := by rw [hn, Nat.pow_add, Nat.pow_add]; ring
  have ek : (2 : Nat) ^ k.lo = 2 ^ (g.lo + g.w) * 2 ^ m := by rw [hm, Nat.pow_add]
  have eg : (2 : Nat) ^ (g.lo + g.w) = 2 ^ g.lo * 2 ^ g.w := Nat.pow_add ..
  have lt : x % 2 ^ g.lo + v % 2 ^ g.w * 2 ^ g.lo < 2 ^ (g.lo + g.w) := by
    have a := Nat.mod_lt x h0
    have b := Nat.mod_lt v h1
    rw [eg]
    nlinarith
  rw [e32, Nat.mod_mul_right_div_self, Nat.mod_mod_of_dvd _ ⟨2 ^ n, rfl⟩, ek, ← Nat.div_div_eq_div_mul,
    ← Nat.div_div_eq_div_mul, Nat.add_mul_div_right _ _ (Nat.two_pow_pos _), Nat.div_eq_of_lt lt, Nat.zero_add]

/-- A field below the one written, in the same word. -/
theorem Fld.get_put_below (g k : Fld) (w : BitVec 32) (v : Nat) (h : k.lo + k.w ≤ g.lo) (hg : g.lo + g.w ≤ 32) :
    k.get (g.put w v) = k.get w := by
  simp only [Fld.get, Fld.put, BitVec.toNat_ofNat]
  generalize w.toNat = x
  obtain ⟨m, hm⟩ := Nat.exists_eq_add_of_le h
  obtain ⟨n, hn⟩ := Nat.exists_eq_add_of_le hg
  have e32 : (2 : Nat) ^ 32 = 2 ^ k.lo * 2 ^ k.w * (2 ^ m * 2 ^ g.w * 2 ^ n) := by
    rw [hn, hm, Nat.pow_add, Nat.pow_add, Nat.pow_add, Nat.pow_add]; ring
  have el : (2 : Nat) ^ g.lo = 2 ^ k.lo * 2 ^ k.w * 2 ^ m := by rw [hm, Nat.pow_add, Nat.pow_add]
  have eg : (2 : Nat) ^ (g.lo + g.w) = 2 ^ k.lo * 2 ^ k.w * (2 ^ m * 2 ^ g.w) := by rw [Nat.pow_add, el]; ring
  have red : ∀ y : Nat, y / 2 ^ k.lo % 2 ^ k.w = y % (2 ^ k.lo * 2 ^ k.w) / 2 ^ k.lo :=
    fun y => (Nat.mod_mul_right_div_self y _ _).symm
  rw [red, red x, e32, Nat.mod_mul_right_mod, el, eg]
  congr 1
  rw [show x % (2 ^ k.lo * 2 ^ k.w * 2 ^ m) + v % 2 ^ g.w * (2 ^ k.lo * 2 ^ k.w * 2 ^ m) +
      x / (2 ^ k.lo * 2 ^ k.w * (2 ^ m * 2 ^ g.w)) * (2 ^ k.lo * 2 ^ k.w * (2 ^ m * 2 ^ g.w)) =
      x % (2 ^ k.lo * 2 ^ k.w * 2 ^ m) + 2 ^ k.lo * 2 ^ k.w * (v % 2 ^ g.w * 2 ^ m +
      x / (2 ^ k.lo * 2 ^ k.w * (2 ^ m * 2 ^ g.w)) * (2 ^ m * 2 ^ g.w)) by ring, Nat.add_mul_mod_self_left,
    Nat.mod_mul_right_mod]

/-- Another field of the same register. -/
theorem State.f_setF_field (s : State) (b : Nat) {g k : Fld} (v : Nat) (hr : k.reg = g.reg)
    (h : (g.lo + g.w ≤ k.lo ∧ k.lo + k.w ≤ 32) ∨ (k.lo + k.w ≤ g.lo ∧ g.lo + g.w ≤ 32)) :
    (s.setF b g v).f b k = s.f b k := by
  simp only [State.f, hr, State.rd_setF_same]
  rcases h with h | h
  · exact Fld.get_put_above g k _ v h.1 h.2
  · exact Fld.get_put_below g k _ v h.1 h.2

end Sys2Proof.Machine
end

