-- ==== Sys2Proof/Laws/Issue.lean ====
section
/-! SUPPORT. The issue of a stitcher's instruction: when it is its own effect, and what every issue does. -/

namespace Sys2Proof.Machine

/-- An instruction that may issue and does not wait has its own effect on the state that every issue leaves. -/
theorem State.issue_next {s : State} {u : StId} {i : Instr} {g : Gate} (h : s.canIssue u i = true) (w : g.wait = none)
    (body : State → Nat → Nat → State) :
    s.issue u i g body =
      .next (body ((s.fetchFix u).issued u g ((s.st u).issueAt g)) ((s.st u).issueAt g) (s.st u).pc) := by
  simp only [State.canIssue, Bool.and_eq_true, decide_eq_true_eq] at h
  simp [State.issue, h.1.1, Nat.not_le.mpr h.1.2, h.2, w]

/-- An instruction without its occasion changes nothing. -/
theorem State.issue_without {s : State} {u : StId} {i : Instr} (h : s.mayIssue u i = false) (g : Gate)
    (body : State → Nat → Nat → State) : s.issue u i g body = .next s := by
  simp [State.issue, h]

/-- Whatever it is, an issue answers a next state. -/
theorem State.issue_total (s : State) (u : StId) (i : Instr) (g : Gate) (body : State → Nat → Nat → State) :
    ∃ t, s.issue u i g body = .next t := by
  simp only [State.issue]
  repeat' split
  all_goals exact ⟨_, rfl⟩

/-- The state that every issue leaves, before the instruction's own effect. -/
def State.afterIssue (s : State) (u : StId) (g : Gate) : State := (s.fetchFix u).issued u g ((s.st u).issueAt g)

@[simp] theorem State.butStitchers_setSt (s : State) (u : StId) (x : Stitcher) :
    (s.setSt u x).butStitchers = s.butStitchers := (rfl)
@[simp] theorem State.butStitchers_updSt (s : State) (u : StId) (g : Stitcher → Stitcher) :
    (s.updSt u g).butStitchers = s.butStitchers := (rfl)
@[simp] theorem State.butStitchers_wr (s : State) (b : Nat) (r : Reg) (v : BitVec 32) :
    (s.wr b r v).butStitchers = s.butStitchers := (rfl)
@[simp] theorem State.butStitchers_setF (s : State) (b : Nat) (g : Fld) (v : Nat) :
    (s.setF b g v).butStitchers = s.butStitchers := (rfl)
@[simp] theorem State.butStitchers_incF (s : State) (b : Nat) (g : Fld) (n : Nat) :
    (s.incF b g n).butStitchers = s.butStitchers := (rfl)

theorem State.afterIssue_rest (s : State) (u : StId) (g : Gate) :
    (s.afterIssue u g).butStitchers = s.butStitchers := by
  unfold State.afterIssue State.fetchFix State.issued
  split <;> simp

theorem State.afterIssue_st (s : State) (u : StId) (g : Gate) :
    (s.afterIssue u g).st u =
      { s.st u with pc := ((s.st u).pc + 1) % 1024, nextAt := (s.st u).issueAt g + g.occupy, stall := none,
                    issues := ((s.st u).pc, (s.st u).issueAt g) :: (s.st u).issues,
                    unitAt := if g.unit = 0 then (s.st u).unitAt else (s.st u).issueAt g + g.unit } := by
  unfold State.afterIssue State.fetchFix State.issued
  split <;> simp

theorem State.afterIssue_st_ne (s : State) {u v : StId} (g : Gate) (h : v ≠ u) : (s.afterIssue u g).st v = s.st v := by
  unfold State.afterIssue State.fetchFix State.issued
  split <;> simp [State.st_setSt_ne _ _ h]

theorem State.afterIssue_rd (s : State) (u : StId) (g : Gate) (b : Nat) (r : Reg)
    (h1 : b + r.off ≠ sb u + R.ST_PC.off) (h2 : b + r.off ≠ sb u + R.ST_ECC.off) :
    (s.afterIssue u g).rd b r = s.rd b r := by
  unfold State.afterIssue State.fetchFix State.issued
  have e1 : ∀ (t : State) (v : Nat), (t.setF (sb u) F.ST_PC_pc v).rd b r = t.rd b r :=
    fun t v => t.rd_setF_ne v (Ne.symm h1)
  have e2 : ∀ (t : State) (v : Nat), (t.setF (sb u) F.ST_PC_count v).rd b r = t.rd b r :=
    fun t v => t.rd_setF_ne v (Ne.symm h1)
  have e3 : ∀ (t : State) (n : Nat), (t.incF (sb u) F.ST_ECC_corrected n).rd b r = t.rd b r :=
    fun t n => t.rd_setF_ne _ (Ne.symm h2)
  have e4 : ∀ (t : State) (x : Stitcher), (t.setSt u x).rd b r = t.rd b r := fun t x => rfl
  split <;> simp only [e1, e2, e3, e4]

theorem State.afterIssue_only (s : State) (u : StId) (g : Gate) : OnlyStitcher u s (s.afterIssue u g) :=
  ⟨s.afterIssue_rest u g, fun _ h => s.afterIssue_st_ne g h, fun b r h1 h2 => s.afterIssue_rd u g b r h1 h2⟩

theorem State.afterIssue_counts (s : State) (u : StId) (g : Gate) (h : s.f (sb u) F.ST_PC_count < 256) :
    CountsIssue u s (s.afterIssue u g) := by
  have a1 : ∀ (t : State) (v : Nat), (t.setF (sb u) F.ST_PC_count v).f (sb u) F.ST_PC_pc = t.f (sb u) F.ST_PC_pc :=
    fun t v => t.f_setF_field _ v rfl (by decide)
  have a3 : ∀ (t : State) (v : Nat), (t.setF (sb u) F.ST_PC_pc v).f (sb u) F.ST_PC_pc = v % 2 ^ 10 :=
    fun t v => t.f_setF_same _ _ v (by decide)
  have a4 : ∀ (t : State) (v : Nat), (t.setF (sb u) F.ST_PC_count v).f (sb u) F.ST_PC_count = v % 2 ^ 9 :=
    fun t v => t.f_setF_same _ _ v (by decide)
  have a5 : ∀ (t : State) (v : Nat), (t.setF (sb u) F.ST_PC_pc v).f (sb u) F.ST_ECC_corrected = t.f (sb u) F.ST_ECC_corrected :=
    fun t v => t.f_setF_reg v (by simp [F.ST_PC_pc, F.ST_ECC_corrected, R.ST_PC, R.ST_ECC])
  have a6 : ∀ (t : State) (v : Nat), (t.setF (sb u) F.ST_PC_count v).f (sb u) F.ST_ECC_corrected = t.f (sb u) F.ST_ECC_corrected :=
    fun t v => t.f_setF_reg v (by simp [F.ST_PC_count, F.ST_ECC_corrected, R.ST_PC, R.ST_ECC])
  have a7 : ∀ (t : State) (v : Nat), (t.setF (sb u) F.ST_ECC_corrected v).f (sb u) F.ST_PC_count = t.f (sb u) F.ST_PC_count :=
    fun t v => t.f_setF_reg v (by simp [F.ST_PC_count, F.ST_ECC_corrected, R.ST_PC, R.ST_ECC])
  have a8 : ∀ (t : State) (v : Nat), (t.setF (sb u) F.ST_ECC_corrected v).f (sb u) F.ST_ECC_corrected = v % 2 ^ 16 :=
    fun t v => t.f_setF_same _ _ v (by decide)
  have b1 : ∀ (t : State) (x : Stitcher) (g : Fld), (t.setSt u x).f (sb u) g = t.f (sb u) g := fun _ _ _ => rfl
  have b2 : s.f (sb u) F.ST_ECC_corrected < 65536 := Nat.mod_lt _ (by decide)
  unfold CountsIssue State.afterIssue State.fetchFix State.issued
  split
  · next hp =>
    simp only [State.incF, a1, a3, a4, a5, a6, a7, a8, b1, State.st_setF]
    refine ⟨rfl, by omega, ?_⟩
    simp only [F.ST_ECC_corrected]
    omega
  · next hp =>
    simp only [a1, a3, a4, a5, a6, b1]
    exact ⟨rfl, by omega, by omega⟩

end Sys2Proof.Machine
end

