-- ==== Sys2Proof/Laws/Ops.lean ====
section
/-! SUPPORT. What each shared operation of Machine/Ops.lean and of the command path can change: the state without the parts
it may write is the state before without them. -/

namespace Sys2Proof.Machine

/-- The state without what an event writes: the recorder's sources, and registers. -/
def State.butEvents (s : State) : State := { s with srcs := [], regs := [] }

/-- The state without what a token's arrival may write. -/
def State.butTokens (s : State) : State :=
  { s with srcs := [], regs := [], creditFlights := [], charges := [], parts := [], quires := [], stitchers := [] }

/-- The state without its charges. -/
def State.butCharges (s : State) : State := { s with charges := [] }

/-- The state without what a firing fault may write. -/
def State.butFaults (s : State) : State :=
  { s with srcs := [], regs := [], creditFlights := [], charges := [], parts := [], quires := [], stitchers := [], flights := [], stew := .init }

/-- The state without what the completion of a notice may write. -/
def State.butNotices (s : State) : State := { s with srcs := [], regs := [], notices := [], comps := [] }

theorem State.butTokens_of {s t : State} (h : t.butEvents = s.butEvents) : t.butTokens = s.butTokens :=
  congrArg (fun x : State =>
    { x with creditFlights := [], charges := [], parts := [], quires := [], stitchers := [] }) h

theorem State.butFaults_of {s t : State} (h : t.butTokens = s.butTokens) : t.butFaults = s.butFaults :=
  congrArg (fun x : State => { x with flights := [], stew := .init }) h

theorem State.butNotices_of {s t : State} (h : t.butEvents = s.butEvents) : t.butNotices = s.butNotices :=
  congrArg (fun x : State => { x with notices := [], comps := [] }) h

/-! What states that agree so far have in common. -/

theorem State.pending_of_butEvents {s t : State} (h : t.butEvents = s.butEvents) : t.pending = s.pending :=
  (congrArg State.pending h :)
theorem State.quires_of_butEvents {s t : State} (h : t.butEvents = s.butEvents) : t.quires = s.quires :=
  (congrArg State.quires h :)
theorem State.stitchers_of_butEvents {s t : State} (h : t.butEvents = s.butEvents) : t.stitchers = s.stitchers :=
  (congrArg State.stitchers h :)
theorem State.parts_of_butEvents {s t : State} (h : t.butEvents = s.butEvents) : t.parts = s.parts :=
  (congrArg State.parts h :)
theorem State.mem_of_butEvents {s t : State} (h : t.butEvents = s.butEvents) : t.mem = s.mem :=
  (congrArg State.mem h :)
theorem State.ctlPage_of_butEvents {s t : State} (h : t.butEvents = s.butEvents) : t.ctlPage = s.ctlPage :=
  (congrArg State.ctlPage h :)
theorem State.cmdArea_of_butEvents {s t : State} (h : t.butEvents = s.butEvents) : t.cmdArea = s.cmdArea :=
  (congrArg State.cmdArea h :)
theorem State.stew_of_butEvents {s t : State} (h : t.butEvents = s.butEvents) : t.stew = s.stew :=
  (congrArg State.stew h :)
theorem State.now_of_butEvents {s t : State} (h : t.butEvents = s.butEvents) : t.now = s.now :=
  (congrArg State.now h :)
theorem State.timeBase_of_butEvents {s t : State} (h : t.butEvents = s.butEvents) : t.timeBase = s.timeBase :=
  (congrArg State.timeBase h :)
theorem State.notices_of_butEvents {s t : State} (h : t.butEvents = s.butEvents) : t.notices = s.notices :=
  (congrArg State.notices h :)
theorem State.comps_of_butEvents {s t : State} (h : t.butEvents = s.butEvents) : t.comps = s.comps :=
  (congrArg State.comps h :)
theorem State.spine_of_butEvents {s t : State} (h : t.butEvents = s.butEvents) : t.spine = s.spine :=
  (congrArg State.spine h :)
theorem State.flights_of_butEvents {s t : State} (h : t.butEvents = s.butEvents) : t.flights = s.flights :=
  (congrArg State.flights h :)
theorem State.creditFlights_of_butEvents {s t : State} (h : t.butEvents = s.butEvents) : t.creditFlights = s.creditFlights :=
  (congrArg State.creditFlights h :)
theorem State.freeCount_of_butEvents {s t : State} (h : t.butEvents = s.butEvents) : t.freeCount = s.freeCount :=
  (congrArg State.freeCount h :)
theorem State.memMark_of_butEvents {s t : State} (h : t.butEvents = s.butEvents) : t.memMark = s.memMark :=
  (congrArg State.memMark h :)

theorem State.pending_of_butTokens {s t : State} (h : t.butTokens = s.butTokens) : t.pending = s.pending :=
  (congrArg State.pending h :)
theorem State.mem_of_butTokens {s t : State} (h : t.butTokens = s.butTokens) : t.mem = s.mem :=
  (congrArg State.mem h :)
theorem State.ctlPage_of_butTokens {s t : State} (h : t.butTokens = s.butTokens) : t.ctlPage = s.ctlPage :=
  (congrArg State.ctlPage h :)
theorem State.cmdArea_of_butTokens {s t : State} (h : t.butTokens = s.butTokens) : t.cmdArea = s.cmdArea :=
  (congrArg State.cmdArea h :)
theorem State.stew_of_butTokens {s t : State} (h : t.butTokens = s.butTokens) : t.stew = s.stew :=
  (congrArg State.stew h :)
theorem State.now_of_butTokens {s t : State} (h : t.butTokens = s.butTokens) : t.now = s.now :=
  (congrArg State.now h :)
theorem State.notices_of_butTokens {s t : State} (h : t.butTokens = s.butTokens) : t.notices = s.notices :=
  (congrArg State.notices h :)
theorem State.comps_of_butTokens {s t : State} (h : t.butTokens = s.butTokens) : t.comps = s.comps :=
  (congrArg State.comps h :)
theorem State.spine_of_butTokens {s t : State} (h : t.butTokens = s.butTokens) : t.spine = s.spine :=
  (congrArg State.spine h :)
theorem State.flights_of_butTokens {s t : State} (h : t.butTokens = s.butTokens) : t.flights = s.flights :=
  (congrArg State.flights h :)
theorem State.freeCount_of_butTokens {s t : State} (h : t.butTokens = s.butTokens) : t.freeCount = s.freeCount :=
  (congrArg State.freeCount h :)
theorem State.memMark_of_butTokens {s t : State} (h : t.butTokens = s.butTokens) : t.memMark = s.memMark :=
  (congrArg State.memMark h :)

theorem State.pending_of_butFaults {s t : State} (h : t.butFaults = s.butFaults) : t.pending = s.pending :=
  (congrArg State.pending h :)
theorem State.mem_of_butFaults {s t : State} (h : t.butFaults = s.butFaults) : t.mem = s.mem :=
  (congrArg State.mem h :)
theorem State.ctlPage_of_butFaults {s t : State} (h : t.butFaults = s.butFaults) : t.ctlPage = s.ctlPage :=
  (congrArg State.ctlPage h :)
theorem State.cmdArea_of_butFaults {s t : State} (h : t.butFaults = s.butFaults) : t.cmdArea = s.cmdArea :=
  (congrArg State.cmdArea h :)
theorem State.now_of_butFaults {s t : State} (h : t.butFaults = s.butFaults) : t.now = s.now :=
  (congrArg State.now h :)
theorem State.notices_of_butFaults {s t : State} (h : t.butFaults = s.butFaults) : t.notices = s.notices :=
  (congrArg State.notices h :)
theorem State.comps_of_butFaults {s t : State} (h : t.butFaults = s.butFaults) : t.comps = s.comps :=
  (congrArg State.comps h :)
theorem State.spine_of_butFaults {s t : State} (h : t.butFaults = s.butFaults) : t.spine = s.spine :=
  (congrArg State.spine h :)
theorem State.freeCount_of_butFaults {s t : State} (h : t.butFaults = s.butFaults) : t.freeCount = s.freeCount :=
  (congrArg State.freeCount h :)
theorem State.memMark_of_butFaults {s t : State} (h : t.butFaults = s.butFaults) : t.memMark = s.memMark :=
  (congrArg State.memMark h :)

theorem State.pending_of_butNotices {s t : State} (h : t.butNotices = s.butNotices) : t.pending = s.pending :=
  (congrArg State.pending h :)
theorem State.quires_of_butNotices {s t : State} (h : t.butNotices = s.butNotices) : t.quires = s.quires :=
  (congrArg State.quires h :)
theorem State.stitchers_of_butNotices {s t : State} (h : t.butNotices = s.butNotices) : t.stitchers = s.stitchers :=
  (congrArg State.stitchers h :)
theorem State.parts_of_butNotices {s t : State} (h : t.butNotices = s.butNotices) : t.parts = s.parts :=
  (congrArg State.parts h :)
theorem State.mem_of_butNotices {s t : State} (h : t.butNotices = s.butNotices) : t.mem = s.mem :=
  (congrArg State.mem h :)
theorem State.ctlPage_of_butNotices {s t : State} (h : t.butNotices = s.butNotices) : t.ctlPage = s.ctlPage :=
  (congrArg State.ctlPage h :)
theorem State.cmdArea_of_butNotices {s t : State} (h : t.butNotices = s.butNotices) : t.cmdArea = s.cmdArea :=
  (congrArg State.cmdArea h :)
theorem State.stew_of_butNotices {s t : State} (h : t.butNotices = s.butNotices) : t.stew = s.stew :=
  (congrArg State.stew h :)
theorem State.now_of_butNotices {s t : State} (h : t.butNotices = s.butNotices) : t.now = s.now :=
  (congrArg State.now h :)
theorem State.spine_of_butNotices {s t : State} (h : t.butNotices = s.butNotices) : t.spine = s.spine :=
  (congrArg State.spine h :)
theorem State.flights_of_butNotices {s t : State} (h : t.butNotices = s.butNotices) : t.flights = s.flights :=
  (congrArg State.flights h :)
theorem State.creditFlights_of_butNotices {s t : State} (h : t.butNotices = s.butNotices) : t.creditFlights = s.creditFlights :=
  (congrArg State.creditFlights h :)
theorem State.freeCount_of_butNotices {s t : State} (h : t.butNotices = s.butNotices) : t.freeCount = s.freeCount :=
  (congrArg State.freeCount h :)
theorem State.memMark_of_butNotices {s t : State} (h : t.butNotices = s.butNotices) : t.memMark = s.memMark :=
  (congrArg State.memMark h :)

/-- A fold of operations that keep a part of the state keeps it. -/
theorem State.foldl_rest {α β : Type} (m : State → α) (f : State → β → State) (h : ∀ t b, m (f t b) = m t) (l : List β) (s : State) :
    m (l.foldl f s) = m s := by
  induction l generalizing s with
  | nil => rfl
  | cons b l ih => rw [List.foldl_cons, ih, h]

/-! The named updates. -/

@[simp] theorem State.butEvents_wr (s : State) (b : Nat) (r : Reg) (v : BitVec 32) :
    (s.wr b r v).butEvents = s.butEvents := (rfl)
@[simp] theorem State.butEvents_setF (s : State) (b : Nat) (g : Fld) (v : Nat) :
    (s.setF b g v).butEvents = s.butEvents := (rfl)
@[simp] theorem State.butEvents_incF (s : State) (b : Nat) (g : Fld) (n : Nat) :
    (s.incF b g n).butEvents = s.butEvents := (rfl)

@[simp] theorem State.butTokens_wr (s : State) (b : Nat) (r : Reg) (v : BitVec 32) :
    (s.wr b r v).butTokens = s.butTokens := (rfl)
@[simp] theorem State.butTokens_setF (s : State) (b : Nat) (g : Fld) (v : Nat) :
    (s.setF b g v).butTokens = s.butTokens := (rfl)
@[simp] theorem State.butTokens_incF (s : State) (b : Nat) (g : Fld) (n : Nat) :
    (s.incF b g n).butTokens = s.butTokens := (rfl)
@[simp] theorem State.butTokens_setSt (s : State) (u : StId) (x : Stitcher) :
    (s.setSt u x).butTokens = s.butTokens := (rfl)
@[simp] theorem State.butTokens_updSt (s : State) (u : StId) (k : Stitcher → Stitcher) :
    (s.updSt u k).butTokens = s.butTokens := (rfl)
@[simp] theorem State.butTokens_setQu (s : State) (q : QuireId) (x : Quire) :
    (s.setQu q x).butTokens = s.butTokens := (rfl)
@[simp] theorem State.butTokens_updQu (s : State) (q : QuireId) (k : Quire → Quire) :
    (s.updQu q k).butTokens = s.butTokens := (rfl)
@[simp] theorem State.butTokens_setPart (s : State) (p : PartId) (x : Part) :
    (s.setPart p x).butTokens = s.butTokens := (rfl)
@[simp] theorem State.butTokens_updPart (s : State) (p : PartId) (k : Part → Part) :
    (s.updPart p k).butTokens = s.butTokens := (rfl)

@[simp] theorem State.butFaults_wr (s : State) (b : Nat) (r : Reg) (v : BitVec 32) :
    (s.wr b r v).butFaults = s.butFaults := (rfl)
@[simp] theorem State.butFaults_setF (s : State) (b : Nat) (g : Fld) (v : Nat) :
    (s.setF b g v).butFaults = s.butFaults := (rfl)
@[simp] theorem State.butFaults_incF (s : State) (b : Nat) (g : Fld) (n : Nat) :
    (s.incF b g n).butFaults = s.butFaults := (rfl)
@[simp] theorem State.butFaults_setSt (s : State) (u : StId) (x : Stitcher) :
    (s.setSt u x).butFaults = s.butFaults := (rfl)
@[simp] theorem State.butFaults_updSt (s : State) (u : StId) (k : Stitcher → Stitcher) :
    (s.updSt u k).butFaults = s.butFaults := (rfl)
@[simp] theorem State.butFaults_setQu (s : State) (q : QuireId) (x : Quire) :
    (s.setQu q x).butFaults = s.butFaults := (rfl)
@[simp] theorem State.butFaults_updQu (s : State) (q : QuireId) (k : Quire → Quire) :
    (s.updQu q k).butFaults = s.butFaults := (rfl)
@[simp] theorem State.butFaults_setPart (s : State) (p : PartId) (x : Part) :
    (s.setPart p x).butFaults = s.butFaults := (rfl)
@[simp] theorem State.butFaults_updPart (s : State) (p : PartId) (k : Part → Part) :
    (s.updPart p k).butFaults = s.butFaults := (rfl)

@[simp] theorem State.butNotices_wr (s : State) (b : Nat) (r : Reg) (v : BitVec 32) :
    (s.wr b r v).butNotices = s.butNotices := (rfl)
@[simp] theorem State.butNotices_setF (s : State) (b : Nat) (g : Fld) (v : Nat) :
    (s.setF b g v).butNotices = s.butNotices := (rfl)
@[simp] theorem State.butNotices_incF (s : State) (b : Nat) (g : Fld) (n : Nat) :
    (s.incF b g n).butNotices = s.butNotices := (rfl)

/-! Events. -/

@[simp] theorem State.raise0_rest (s : State) (x : Src) (code sev : Nat) (cap : List Nat) :
    (s.raise0 x code sev cap).1.butEvents = s.butEvents := by
  unfold State.raise0
  dsimp only
  repeat' split
  all_goals try simp only [State.butEvents_incF]
  all_goals rfl

/-- An event changes the recorder's sources and, where a record is lost, registers. -/
@[simp] theorem State.raise_rest (s : State) (x : Src) (code sev : Nat) (cap : List Nat) :
    (s.raise x code sev cap).butEvents = s.butEvents := by
  unfold State.raise
  dsimp only
  split <;> simp

@[simp] theorem State.ev_rest (s : State) (x : Src) (code : Nat) (cap : List Nat) : (s.ev x code cap).butEvents = s.butEvents :=
  s.raise_rest x code (evSev code) cap

@[simp] theorem State.ev_pending (s : State) (x : Src) (c : Nat) (l : List Nat) : (s.ev x c l).pending = s.pending :=
  State.pending_of_butEvents (s.ev_rest x c l)
@[simp] theorem State.ev_quires (s : State) (x : Src) (c : Nat) (l : List Nat) : (s.ev x c l).quires = s.quires :=
  State.quires_of_butEvents (s.ev_rest x c l)
@[simp] theorem State.ev_stitchers (s : State) (x : Src) (c : Nat) (l : List Nat) : (s.ev x c l).stitchers = s.stitchers :=
  State.stitchers_of_butEvents (s.ev_rest x c l)
@[simp] theorem State.ev_parts (s : State) (x : Src) (c : Nat) (l : List Nat) : (s.ev x c l).parts = s.parts :=
  State.parts_of_butEvents (s.ev_rest x c l)
@[simp] theorem State.ev_mem (s : State) (x : Src) (c : Nat) (l : List Nat) : (s.ev x c l).mem = s.mem :=
  State.mem_of_butEvents (s.ev_rest x c l)
@[simp] theorem State.ev_ctlPage (s : State) (x : Src) (c : Nat) (l : List Nat) : (s.ev x c l).ctlPage = s.ctlPage :=
  State.ctlPage_of_butEvents (s.ev_rest x c l)
@[simp] theorem State.ev_cmdArea (s : State) (x : Src) (c : Nat) (l : List Nat) : (s.ev x c l).cmdArea = s.cmdArea :=
  State.cmdArea_of_butEvents (s.ev_rest x c l)
@[simp] theorem State.ev_stew (s : State) (x : Src) (c : Nat) (l : List Nat) : (s.ev x c l).stew = s.stew :=
  State.stew_of_butEvents (s.ev_rest x c l)
@[simp] theorem State.ev_now (s : State) (x : Src) (c : Nat) (l : List Nat) : (s.ev x c l).now = s.now :=
  State.now_of_butEvents (s.ev_rest x c l)
@[simp] theorem State.ev_notices (s : State) (x : Src) (c : Nat) (l : List Nat) : (s.ev x c l).notices = s.notices :=
  State.notices_of_butEvents (s.ev_rest x c l)
@[simp] theorem State.ev_comps (s : State) (x : Src) (c : Nat) (l : List Nat) : (s.ev x c l).comps = s.comps :=
  State.comps_of_butEvents (s.ev_rest x c l)
@[simp] theorem State.ev_spine (s : State) (x : Src) (c : Nat) (l : List Nat) : (s.ev x c l).spine = s.spine :=
  State.spine_of_butEvents (s.ev_rest x c l)

/-! The tick. -/

/-- A failing tick changes its own partition alone, and there, while a frame is open that has not failed, `failed` and the
cycle of the failure. -/
theorem State.failTick_rest (s : State) (p : PartId) : { s.failTick p with parts := s.parts } = s := (rfl)

theorem State.failTick_part (s : State) (p : PartId) :
    (s.failTick p).part p = if (s.part p).frameOpen && !(s.part p).failed then
      { s.part p with failed := true, failAt := (s.part p).cyc } else s.part p := by
  unfold State.failTick
  rw [State.part_updPart_same]

theorem State.failTick_part_ne (s : State) {p r : PartId} (h : r ≠ p) : (s.failTick p).part r = s.part r :=
  s.part_updPart_ne _ h

/-- A charge adds at most one entry to the charges. -/
theorem State.charge_rest (s : State) (p : PartId) (u : HwUnit) (code : Nat) (r : Bool) :
    (s.charge p u code r).butCharges = s.butCharges := by
  unfold State.charge
  dsimp only
  repeat' split
  all_goals rfl

/-! Credits and tokens. -/

/-- A freed credit is at most one more credit on its way. -/
theorem State.freeCredit_tokens (s : State) (q : QuireId) (pos : Nat) (o : Origin) (n : Nat) :
    (s.freeCredit q pos o n).butTokens = s.butTokens := by
  cases o <;> rfl

theorem State.freeCredits_tokens (l : List (Origin × Nat)) (s : State) (q : QuireId) (pos : Nat) :
    (s.freeCredits q pos l).butTokens = s.butTokens :=
  State.foldl_rest State.butTokens (fun t (o : Origin × Nat) => t.freeCredit q pos o.1 o.2)
    (fun t o => t.freeCredit_tokens q pos o.1 o.2) l s

theorem State.charge_tokens (s : State) (p : PartId) (u : HwUnit) (code : Nat) (r : Bool) :
    (s.charge p u code r).butTokens = s.butTokens :=
  congrArg (fun x : State =>
    { x with srcs := [], regs := [], creditFlights := [], parts := [], quires := [], stitchers := [] }) (s.charge_rest p u code r)

theorem State.orphan_tokens (s : State) (u : StId) (pos port tag : Nat) (o : Origin) :
    (s.orphan u pos port tag o).butTokens = s.butTokens := by
  unfold State.orphan
  dsimp only
  rw [State.butTokens_updQu, State.freeCredit_tokens, State.butTokens_incF]

theorem State.dropToken_tokens (s : State) (u : StId) (pos : Nat) (t : Tok) (o : Origin) (cnt : Fld) (code : Nat)
    (extra : List Nat) (fails : Bool) : (s.dropToken u pos t o cnt code extra fails).butTokens = s.butTokens := by
  have ft : ∀ (t : State) (p : PartId), (t.failTick p).butTokens = t.butTokens := fun t p => t.butTokens_updPart p _
  have h : (((s.incF (sb u) cnt).freeCredit u.quire pos o 1).raise (.quire u.quire) code (evSev code)
      ([u.st.val, t.port, t.tag] ++ extra)).butTokens = s.butTokens := by
    rw [State.butTokens_of (State.raise_rest _ _ _ _ _), State.freeCredit_tokens, State.butTokens_incF]
  unfold State.dropToken
  dsimp only
  generalize ((s.incF (sb u) cnt).freeCredit u.quire pos o 1).raise (.quire u.quire) code (evSev code)
    ([u.st.val, t.port, t.tag] ++ extra) = a at h ⊢
  split <;> split <;> simp only [ft, State.charge_tokens, h]

theorem State.recordOrphans_tokens (s : State) (q : QuireId) : (s.recordOrphans q).butTokens = s.butTokens := by
  unfold State.recordOrphans
  dsimp only
  split
  · rfl
  · rw [State.butTokens_of (State.raise_rest _ _ _ _ _), State.butTokens_incF, State.butTokens_setQu]

theorem State.lateOrphan_tokens (s : State) (q : QuireId) : (s.lateOrphan q).butTokens = s.butTokens := by
  unfold State.lateOrphan
  split
  · exact s.butTokens_updQu q _
  · exact s.recordOrphans_tokens q

/-- A token's arrival, whatever becomes of the token, writes registers, records, credits on their way, charges, and the units
of stitchers, quires and partitions; no memory, no message and nothing of the host's. -/
theorem State.arriveToken_rest (s : State) (u : StId) (t : Tok) (o : Origin) (pos : Nat) :
    (s.arriveToken u t o pos).butTokens = s.butTokens := by
  have e := fun (a : State) (x : Src) (c v : Nat) (l : List Nat) => State.butTokens_of (a.raise_rest x c v l)
  have ft : ∀ (t : State) (p : PartId), (t.failTick p).butTokens = t.butTokens := fun t p => t.butTokens_updPart p _
  unfold State.arriveToken
  simp only [apply_ite State.butTokens, State.dropToken_tokens, e, ft, State.freeCredit_tokens, State.lateOrphan_tokens,
    State.orphan_tokens, State.butTokens_incF, State.butTokens_updSt, State.butTokens_setSt, State.butTokens_setF, ite_self]

theorem State.internalToken_rest (s : State) (u : StId) (port tag : Nat) (ctl : Bool) (data : BitVec 64) (pos : Nat) :
    (s.internalToken u port tag ctl data pos).butTokens = s.butTokens := by
  unfold State.internalToken
  exact s.arriveToken_rest u _ _ pos

/-! Reset and fault of a stitcher. -/

theorem State.resetStitcher_rest (s : State) (u : StId) (pos : Nat) : (s.resetStitcher u pos).butFaults = s.butFaults := by
  unfold State.resetStitcher
  dsimp only
  rw [State.butFaults_incF, State.butFaults_setSt, State.butFaults_of (State.freeCredits_tokens _ _ _ _)]
  rfl

theorem State.refund_faults (s : State) (m : Flight) : (s.refund m).butFaults = s.butFaults := by
  unfold State.refund
  dsimp only
  split <;> simp only [State.butFaults_updQu, State.butFaults_setF]

theorem State.discardOutbound_rest (s : State) (q : QuireId) (pos : Nat) :
    (s.discardOutbound q pos).butFaults = s.butFaults := by
  unfold State.discardOutbound
  dsimp only
  rw [State.foldl_rest State.butFaults _ (fun t h => by split; exacts [t.refund_faults _, rfl]),
    State.foldl_rest State.butFaults _ (fun t m => t.refund_faults m), State.butFaults_incF, State.butFaults_updPart, State.butFaults_setQu]
  rfl

/-- A firing fault (R114, R115) writes what a token's arrival may, and messages in flight and the steward's log of resets;
no memory and nothing of the host's. -/
theorem State.firingFault_rest (s : State) (u : StId) (cause pos : Nat) (cap : List Nat) :
    (s.firingFault u cause pos cap).butFaults = s.butFaults := by
  have ft : ∀ (t : State) (p : PartId), (t.failTick p).butFaults = t.butFaults := fun t p => t.butFaults_updPart p _
  have e := fun (a : State) (x : Src) (c v : Nat) (l : List Nat) =>
    State.butFaults_of (State.butTokens_of (a.raise_rest x c v l))
  unfold State.firingFault
  dsimp only
  rw [State.butFaults_updSt, State.resetStitcher_rest, State.butFaults_updQu, State.discardOutbound_rest, ft, State.butFaults_setF,
    State.butFaults_incF, State.butFaults_setF, State.butFaults_setF]
  split
  · rw [State.butFaults_of (State.charge_tokens _ _ _ _ _), State.butFaults_incF, e]
  · rw [State.butFaults_incF, e]

@[simp] theorem State.firingFault_mem (s : State) (u : StId) (c pos : Nat) (l : List Nat) :
    (s.firingFault u c pos l).mem = s.mem :=
  State.mem_of_butFaults (s.firingFault_rest u c pos l)
@[simp] theorem State.firingFault_pending (s : State) (u : StId) (c pos : Nat) (l : List Nat) :
    (s.firingFault u c pos l).pending = s.pending :=
  State.pending_of_butFaults (s.firingFault_rest u c pos l)

/-! The command path. -/

theorem State.showPend_rest (s : State) (b : Nat) : (s.showPend b).butNotices = s.butNotices := by
  unfold State.showPend
  split <;> simp only [State.butNotices_setF]

theorem State.pushComp_rest (s : State) (n : Notice) (status result : Nat) :
    (s.pushComp n status result).butNotices = s.butNotices := by
  unfold State.pushComp
  dsimp only
  repeat' split
  all_goals try simp only [State.butNotices_incF]
  all_goals rfl

/-- A completion ends its notice; of the rest of the block it writes registers. -/
theorem State.complete_rest (s : State) (n : Notice) (status result : Nat) :
    (s.complete n status result).butNotices = s.butNotices :=
  (State.showPend_rest _ _).trans (State.pushComp_rest _ n status result)

@[simp] theorem State.complete_notices (s : State) (n : Notice) (status result : Nat) :
    (s.complete n status result).notices = s.notices.erase n := by
  unfold State.complete State.pushComp State.showPend
  dsimp only
  repeat' split
  all_goals simp only [State.setF_notices, State.incF_notices]

@[simp] theorem State.complete_comps (s : State) (n : Notice) (status result : Nat) :
    (s.complete n status result).comps = s.comps ++
      [{ ld := n.ld, mailbox := n.mailbox, bit := n.bit, tag := n.tag, status := status, result := result % 2 ^ 64,
         irq := n.irq, vec := n.vec, waited := false }] := by
  unfold State.complete State.pushComp State.showPend
  dsimp only
  repeat' split
  all_goals simp only [State.setF_comps, State.incF_comps]

theorem State.refuse_rest (s : State) (n : Notice) (status reason result : Nat) :
    (s.refuse n status reason result).butNotices = s.butNotices :=
  (State.butNotices_of (State.ev_rest _ _ _ _)).trans (s.complete_rest n status result)

/-- A register write that the gate lets pass and that no sleeping quire refuses is its effect on the state with the write
recorded. -/
theorem State.asWrite_pass (s : State) {w : Writer} {addr : Nat} (value : Nat) (k : State → State) (h : s.gateOf w addr = .pass)
    (hs : ¬ (addr % 0x1000000 = R.TK_STRIKE.off ∧ (blockPart addr).isSome = true))
    (ha : (s.ev (cfgSrc addr) Ev.CFG_WRITE [w.word, addr, value]).asleepCause addr = none) :
    s.asWrite w addr value k = k (s.ev (cfgSrc addr) Ev.CFG_WRITE [w.word, addr, value]) := by
  unfold State.asWrite
  rw [h]
  dsimp only
  rw [if_neg hs]
  split
  · next hc => simp [ha] at hc
  · rfl

end Sys2Proof.Machine
end

