-- ==== Sys2Proof/Laws/Memory.lean ====
section
/-! SUPPORT. Every memory operation keeps the canonical form of the memories that hosts read, and reset's have it. -/

namespace Sys2Proof.Machine

theorem reset_memOk : State.reset.memOk = true := by decide

/-- Right after reset no memory lists a byte. -/
theorem reset_memories : State.reset.mem = [] ∧ State.reset.ctlPage = [] ∧ State.reset.cmdArea = [] ∧
    (∀ q, (State.reset.qu q).leaf = []) ∧ ∀ u, (State.reset.st u).pocket = [] :=
  ⟨rfl, rfl, rfl, fun _ => rfl, fun _ => rfl⟩

theorem State.memOk_iff (s : State) :
    s.memOk = true ↔ spWf 0 s.mem = true ∧ spWf 0 s.ctlPage = true ∧ spWf 0 s.cmdArea = true := by
  simp [State.memOk, Memory.wf, and_assoc]

/-- What leaves the three memories as they are keeps their form. -/
theorem State.memOk_congr {s t : State} (hm : t.mem = s.mem) (hc : t.ctlPage = s.ctlPage) (ha : t.cmdArea = s.cmdArea) :
    t.memOk = s.memOk := by
  simp [State.memOk, hm, hc, ha]

theorem State.memOk_ev (s : State) (x : Src) (c : Nat) (l : List Nat) : (s.ev x c l).memOk = s.memOk :=
  State.memOk_congr (s.ev_mem x c l) (s.ev_ctlPage x c l) (s.ev_cmdArea x c l)

theorem State.memOk_raise (s : State) (x : Src) (c v : Nat) (l : List Nat) : (s.raise x c v l).memOk = s.memOk :=
  State.memOk_congr (State.mem_of_butEvents (s.raise_rest x c v l)) (State.ctlPage_of_butEvents (s.raise_rest x c v l))
    (State.cmdArea_of_butEvents (s.raise_rest x c v l))

theorem State.memOk_arriveToken (s : State) (u : StId) (t : Tok) (o : Origin) (pos : Nat) :
    (s.arriveToken u t o pos).memOk = s.memOk :=
  State.memOk_congr (State.mem_of_butTokens (s.arriveToken_rest u t o pos))
    (State.ctlPage_of_butTokens (s.arriveToken_rest u t o pos)) (State.cmdArea_of_butTokens (s.arriveToken_rest u t o pos))

theorem State.memOk_firingFault (s : State) (u : StId) (c pos : Nat) (l : List Nat) :
    (s.firingFault u c pos l).memOk = s.memOk :=
  State.memOk_congr (State.mem_of_butFaults (s.firingFault_rest u c pos l))
    (State.ctlPage_of_butFaults (s.firingFault_rest u c pos l)) (State.cmdArea_of_butFaults (s.firingFault_rest u c pos l))

theorem State.memOk_complete (s : State) (n : Notice) (status result : Nat) :
    (s.complete n status result).memOk = s.memOk :=
  State.memOk_congr (State.mem_of_butNotices (s.complete_rest n status result))
    (State.ctlPage_of_butNotices (s.complete_rest n status result))
    (State.cmdArea_of_butNotices (s.complete_rest n status result))

/-! Writes of partition memory. -/

/-- The error count of a read leaves every memory as it is. -/
theorem State.countEcc_mems (s : State) (p : PartId) (a : Nat) :
    (s.countEcc p a).mem = s.mem ∧ (s.countEcc p a).ctlPage = s.ctlPage ∧ (s.countEcc p a).cmdArea = s.cmdArea := by
  unfold State.countEcc State.colAdd
  dsimp only
  split <;> simp only [State.incF_mem, State.incF_ctlPage, State.incF_cmdArea, and_self]

theorem State.memOk_countEcc (s : State) (p : PartId) (a : Nat) : (s.countEcc p a).memOk = s.memOk :=
  State.memOk_congr (s.countEcc_mems p a).1 (s.countEcc_mems p a).2.1 (s.countEcc_mems p a).2.2

/-- A write of partition memory keeps the canonical form. -/
theorem State.memOk_pmWrite (s : State) (p : PartId) (a : Nat) (bytes : List (BitVec 8)) (h : s.memOk = true) :
    (s.pmWrite p a bytes).1.memOk = true := by
  unfold State.pmWrite
  dsimp only
  generalize codeWords 32 a bytes.length = l
  suffices k : ∀ (l : List Nat) (x : State × Bool), x.1.memOk = true → (l.foldl (fun (t : State × Bool) w =>
      if (!(decide (a ≤ w) && decide (w + 32 ≤ a + bytes.length)) && decide (t.1.memErr p w = 2)) = true then (t.1.countEcc p w, true)
      else
        ({ (if (decide (a ≤ w) && decide (w + 32 ≤ a + bytes.length)) = true then t.1 else t.1.countEcc p w) with
            mem := memWrite (if (decide (a ≤ w) && decide (w + 32 ≤ a + bytes.length)) = true then t.1 else t.1.countEcc p w).mem
              (memKey p (max w a)) ((bytes.drop (max w a - a)).take (min (w + 32) (a + bytes.length) - max w a)),
            memMark := spDel (if (decide (a ≤ w) && decide (w + 32 ≤ a + bytes.length)) = true then t.1
              else t.1.countEcc p w).memMark (markKey p w) }, t.2)) x).1.memOk = true from k l (s, false) h
  intro l
  induction l with
  | nil => intro x hx; exact hx
  | cons w l ih =>
    intro x hx
    rw [List.foldl_cons]
    apply ih
    split
    · exact (State.memOk_countEcc _ _ _).trans hx
    · have e : (if (decide (a ≤ w) && decide (w + 32 ≤ a + bytes.length)) = true then x.1 else x.1.countEcc p w).memOk = true := by
        split
        · exact hx
        · exact (State.memOk_countEcc _ _ _).trans hx
      generalize (if (decide (a ≤ w) && decide (w + 32 ≤ a + bytes.length)) = true then x.1 else x.1.countEcc p w) = y at e ⊢
      rw [State.memOk_iff] at e ⊢
      exact ⟨spWf_memWrite _ _ _ e.1, e.2.1, e.2.2⟩

/-- A device write to a control page keeps the canonical form. -/
theorem State.memOk_ctlWrite (s : State) (ld off : Nat) (bytes : List (BitVec 8)) (h : s.memOk = true) :
    (s.ctlWrite ld off bytes).memOk = true := by
  rw [State.memOk_iff] at h
  have k : ({ s with ctlPage := memWrite s.ctlPage (ld * 4096 + off) bytes } : State).memOk = true := by
    rw [State.memOk_iff]
    exact ⟨h.1, spWf_memWrite _ _ _ h.2.1, h.2.2⟩
  unfold State.ctlWrite State.devWrite
  dsimp only
  split
  · exact k
  · exact k

end Sys2Proof.Machine
end

