-- ==== Sys2Proof/Laws/Operands.lean ====
section
/-! SUPPORT. What a stitcher's registers read as after a write, and the lanes of a packed vector. -/

namespace Sys2Proof.Machine

/-! Registers (R88). -/

@[simp] theorem Stitcher.s_zero (x : Stitcher) : x.s 0 = 0 := (rfl)
@[simp] theorem Stitcher.p_zero (x : Stitcher) : x.p 0 = BitVec.allOnes 64 := (rfl)

theorem SReg.toNat_ne {r q : SReg} (h : r ≠ q) : r.toNat ≠ q.toNat := fun e => h (BitVec.eq_of_toNat_eq e)
theorem PReg.toNat_ne {r q : PReg} (h : r ≠ q) : r.toNat ≠ q.toNat := fun e => h (BitVec.eq_of_toNat_eq e)
theorem VReg.toNat_ne {r q : VReg} (h : r ≠ q) : r.toNat ≠ q.toNat := fun e => h (BitVec.eq_of_toNat_eq e)

theorem Stitcher.s_setS (x : Stitcher) (r q : SReg) (v : BitVec 32) :
    (x.setS r v).s q = if q = r ∧ r ≠ 0 then v else x.s q := by
  by_cases hr : r = 0
  · simp [Stitcher.setS, hr]
  · by_cases hq : q = r
    · subst hq
      rw [if_pos ⟨rfl, hr⟩, Stitcher.setS, Stitcher.s, if_neg hr, if_neg hr]
      exact spGet_spSet_same 0 x.sreg q.toNat v
    · simp only [Stitcher.setS, Stitcher.s, hr, hq, if_false, false_and]
      split
      · rfl
      · exact spGet_spSet_ne 0 x.sreg v (SReg.toNat_ne (Ne.symm hq))

theorem Stitcher.p_setP (x : Stitcher) (r q : PReg) (v : BitVec 64) :
    (x.setP r v).p q = if q = r ∧ r ≠ 0 then v else x.p q := by
  by_cases hr : r = 0
  · simp [Stitcher.setP, hr]
  · by_cases hq : q = r
    · subst hq
      rw [if_pos ⟨rfl, hr⟩, Stitcher.setP, Stitcher.p, if_neg hr, if_neg hr]
      exact spGet_spSet_same 0 x.preg q.toNat v
    · simp only [Stitcher.setP, Stitcher.p, hr, hq, if_false, false_and]
      split
      · rfl
      · exact spGet_spSet_ne 0 x.preg v (PReg.toNat_ne (Ne.symm hq))

theorem Stitcher.v_setV (x : Stitcher) (r q : VReg) (v : BitVec 512) :
    (x.setV r v).v q = if q = r then v else x.v q := by
  by_cases hq : q = r
  · subst hq
    simp [Stitcher.setV, Stitcher.v]
  · simp only [Stitcher.setV, Stitcher.v, hq, if_false]
    exact spGet_spSet_ne 0 x.vreg v (VReg.toNat_ne (Ne.symm hq))

@[simp] theorem Stitcher.s_usable (x : Stitcher) (k at_ : Nat) (r : SReg) : (x.usable k at_).s r = x.s r := (rfl)
@[simp] theorem Stitcher.p_usable (x : Stitcher) (k at_ : Nat) (r : PReg) : (x.usable k at_).p r = x.p r := (rfl)
@[simp] theorem Stitcher.v_usable (x : Stitcher) (k at_ : Nat) (r : VReg) : (x.usable k at_).v r = x.v r := (rfl)

/-- A result in a scalar register: that register reads it, s0 excepted, and every other one reads as before. -/
theorem State.putS_s (s : State) (u : StId) (r q : SReg) (v : BitVec 32) (at_ : Nat) :
    ((s.putS u r v at_).st u).s q = if q = r ∧ r ≠ 0 then v else (s.st u).s q := by
  unfold State.putS
  split
  · next h => simp [h]
  · rw [State.st_updSt_same, Stitcher.s_usable, Stitcher.s_setS]

theorem State.putP_p (s : State) (u : StId) (r q : PReg) (v : BitVec 64) (at_ : Nat) :
    ((s.putP u r v at_).st u).p q = if q = r ∧ r ≠ 0 then v else (s.st u).p q := by
  unfold State.putP
  split
  · next h => simp [h]
  · rw [State.st_updSt_same, Stitcher.p_usable, Stitcher.p_setP]

theorem State.putV_v (s : State) (u : StId) (r q : VReg) (v : BitVec 512) (at_ : Nat) :
    ((s.putV u r v at_).st u).v q = if q = r then v else (s.st u).v q := by
  unfold State.putV
  rw [State.st_updSt_same, Stitcher.v_usable, Stitcher.v_setV]

/-- A result changes the stitchers alone, and of them its own. -/
theorem State.putS_rest (s : State) (u : StId) (r : SReg) (v : BitVec 32) (at_ : Nat) :
    { s.putS u r v at_ with stitchers := s.stitchers } = s := by
  unfold State.putS
  split <;> rfl

theorem State.putP_rest (s : State) (u : StId) (r : PReg) (v : BitVec 64) (at_ : Nat) :
    { s.putP u r v at_ with stitchers := s.stitchers } = s := by
  unfold State.putP
  split <;> rfl

theorem State.putV_rest (s : State) (u : StId) (r : VReg) (v : BitVec 512) (at_ : Nat) :
    { s.putV u r v at_ with stitchers := s.stitchers } = s := (rfl)

theorem State.putS_ne (s : State) {u w : StId} (r : SReg) (v : BitVec 32) (at_ : Nat) (h : w ≠ u) :
    (s.putS u r v at_).st w = s.st w := by
  unfold State.putS
  split
  · rfl
  · exact s.st_updSt_ne _ h

theorem State.putP_ne (s : State) {u w : StId} (r : PReg) (v : BitVec 64) (at_ : Nat) (h : w ≠ u) :
    (s.putP u r v at_).st w = s.st w := by
  unfold State.putP
  split
  · rfl
  · exact s.st_updSt_ne _ h

theorem State.putV_ne (s : State) {u w : StId} (r : VReg) (v : BitVec 512) (at_ : Nat) (h : w ≠ u) :
    (s.putV u r v at_).st w = s.st w :=
  s.st_updSt_ne _ h

/-! Lanes. -/

theorem packNat_lt (w : Nat) (l : List Nat) : packNat w l < 2 ^ (w * l.length) := by
  induction l with
  | nil => simp [packNat]
  | cons c t ih =>
    have a := Nat.mod_lt c (Nat.two_pow_pos w)
    have e : 2 ^ (w * (t.length + 1)) = 2 ^ w * 2 ^ (w * t.length) := by rw [← Nat.pow_add]; congr 1; ring
    rw [List.length_cons, e, packNat]
    nlinarith [Nat.two_pow_pos w]

/-- Lane `i` of packed lanes is the `i`-th of them, cut to the lane; above the last the vector is zero. -/
theorem packNat_lane (w : Nat) (l : List Nat) (i : Nat) :
    packNat w l / 2 ^ (w * i) % 2 ^ w = l.getD i 0 % 2 ^ w := by
  induction l generalizing i with
  | nil => simp [packNat]
  | cons c t ih =>
    have p := Nat.two_pow_pos w
    cases i with
    | zero => simp [packNat]
    | succ i =>
      have e : 2 ^ (w * (i + 1)) = 2 ^ w * 2 ^ (w * i) := by rw [← Nat.pow_add]; congr 1; ring
      rw [packNat, e, ← Nat.div_div_eq_div_mul, Nat.add_mul_div_left _ _ p, Nat.div_eq_of_lt (Nat.mod_lt _ p), Nat.zero_add, ih i]
      simp

theorem laneAt_packVec (w : Nat) (l : List Nat) (i : Nat) (h : w * l.length ≤ 512) :
    laneAt (packVec w l) w i = l.getD i 0 % 2 ^ w := by
  have b := Nat.lt_of_lt_of_le (packNat_lt w l) (Nat.pow_le_pow_right (n := 2) (by decide) h)
  rw [laneAt, packVec, BitVec.toNat_ofNat, Nat.mod_eq_of_lt b, packNat_lane]

/-- A lane under a guard: the result where the guard governs it, its old contents where it does not (R89, Table 4). -/
theorem laneAt_guarded (ty : LaneTy) (g : BitVec 64) (pn : Bool) (old : BitVec 512) (new : Nat → Nat) (i : Nat)
    (h : i < ty.lanes) :
    laneAt (guarded ty g pn old new) ty.width i =
      if governs g pn ty.bytes i then new i % 2 ^ ty.width else laneAt old ty.width i := by
  have hl : ty.width * ((List.range ty.lanes).map (fun i =>
      if governs g pn ty.bytes i then new i else laneAt old ty.width i)).length ≤ 512 := by
    cases ty <;> simp [LaneTy.width, LaneTy.bytes, LaneTy.lanes]
  rw [guarded, laneAt_packVec _ _ _ hl, List.getD_eq_getElem?_getD, List.getElem?_map, List.getElem?_range h]
  simp only [Option.map_some, Option.getD_some]
  split
  · rfl
  · exact Nat.mod_mod _ _

end Sys2Proof.Machine
end

