-- ==== Sys2Proof/Laws/PerInstr.lean ====
section
/-! SUPPORT. Statements about every command as syntax, one lemma for each constructor. The family OpcodeOf: bits [31:26] of
an instruction's word are the opcode that Table 6 of 04_stitchers.md gives it, and a command that no stitcher issues has no
word. -/

namespace Sys2Proof.Laws

/-! The opcode field of each format (04_stitchers.md, Table 4). -/

/-- Bits above the low operand of a concatenation are the high operand's. -/
theorem bits_append {m n : Nat} (x : BitVec m) (y : BitVec n) (k len : Nat) :
    (x ++ y).extractLsb' (n + k) len = x.extractLsb' k len := by
  ext i hi
  simp only [BitVec.getElem_extractLsb', BitVec.getLsbD_append]
  rw [if_neg (by omega)]
  congr 1
  omega

theorem packR_opcode (op : BitVec 6) (rd ra rb : BitVec 5) (fn : BitVec 6) (pd : BitVec 3) :
    bits (packR op rd ra rb fn pd) 26 6 = op := by
  unfold bits packR
  rw [show 26 = 2 + (3 + (6 + (5 + (5 + (5 + 0))))) from rfl, bits_append, bits_append, bits_append, bits_append, bits_append, bits_append]
  exact BitVec.extractLsb'_eq_self

theorem packI_opcode (op : BitVec 6) (rd ra : BitVec 5) (imm : BitVec 16) :
    bits (packI op rd ra imm) 26 6 = op := by
  unfold bits packI
  rw [show 26 = 16 + (5 + (5 + 0)) from rfl, bits_append, bits_append, bits_append]
  exact BitVec.extractLsb'_eq_self

theorem packB_opcode (fn pg : BitVec 3) (pn : BitVec 1) (rs : BitVec 5) (off : BitVec 11) :
    bits (packB fn pg pn rs off) 26 6 = 0x0A#6 := by
  unfold bits packB
  rw [show 26 = 11 + (3 + (5 + (1 + (3 + (3 + 0))))) from rfl, bits_append, bits_append, bits_append, bits_append, bits_append, bits_append]
  exact BitVec.extractLsb'_eq_self

theorem packM_opcode (op : BitVec 6) (rd ra : BitVec 5) (sp : BitVec 1) (sz : BitVec 3) (imm : BitVec 12) :
    bits (packM op rd ra sp sz imm) 26 6 = op := by
  unfold bits packM
  rw [show 26 = 12 + (3 + (1 + (5 + (5 + 0)))) from rfl, bits_append, bits_append, bits_append, bits_append, bits_append]
  exact BitVec.extractLsb'_eq_self

theorem packV_opcode (op : BitVec 6) (vd va vb vc : BitVec 4) (pg : BitVec 3) (pn : BitVec 1) (ty : BitVec 2) (fn : BitVec 4) :
    bits (packV op vd va vb vc pg pn ty fn) 26 6 = op := by
  unfold bits packV
  rw [show 26 = 4 + (2 + (1 + (3 + (4 + (4 + (4 + (4 + 0))))))) from rfl, bits_append, bits_append, bits_append, bits_append, bits_append, bits_append, bits_append, bits_append]
  exact BitVec.extractLsb'_eq_self

theorem packVL_opcode (v : BitVec 4) (rs : BitVec 5) (lane : BitVec 6) (ty : BitVec 2) (fn : BitVec 4) :
    bits (packVL v rs lane ty fn) 26 6 = 0x11#6 := by
  unfold bits packVL
  rw [show 26 = 4 + (2 + (1 + (6 + (5 + (4 + (4 + 0)))))) from rfl, bits_append, bits_append, bits_append, bits_append, bits_append, bits_append, bits_append]
  exact BitVec.extractLsb'_eq_self

theorem packCV_opcode (vd va tf ff : BitVec 4) (rm : BitVec 2) (spc : BitVec 1) (pg : BitVec 3) (part : BitVec 2) (blk : BitVec 1) :
    bits (packCV vd va tf ff rm spc pg part blk) 26 6 = 0x13#6 := by
  unfold bits packCV
  rw [show 26 = 1 + (1 + (2 + (3 + (1 + (2 + (4 + (4 + (4 + (4 + 0))))))))) from rfl, bits_append, bits_append, bits_append, bits_append, bits_append, bits_append, bits_append, bits_append, bits_append, bits_append]
  exact BitVec.extractLsb'_eq_self

theorem packCS_opcode (rd ra : BitVec 5) (tf ff : BitVec 4) (rm : BitVec 2) :
    bits (packCS rd ra tf ff rm) 26 6 = 0x14#6 := by
  unfold bits packCS
  rw [show 26 = 6 + (2 + (4 + (4 + (5 + (5 + 0))))) from rfl, bits_append, bits_append, bits_append, bits_append, bits_append, bits_append]
  exact BitVec.extractLsb'_eq_self

theorem packC_opcode (fn : BitVec 3) (rx rt rs : BitVec 5) (ch : BitVec 8) :
    bits (packC fn rx rt rs ch) 26 6 = 0x18#6 := by
  unfold bits packC
  rw [show 26 = 8 + (5 + (5 + (5 + (3 + 0)))) from rfl, bits_append, bits_append, bits_append, bits_append, bits_append]
  exact BitVec.extractLsb'_eq_self

theorem packX_opcode (op : BitVec 6) (fn ra rb rc : BitVec 5) (pd f : BitVec 3) :
    bits (packX op fn ra rb rc pd f) 26 6 = op := by
  unfold bits packX
  rw [show 26 = 3 + (3 + (5 + (5 + (5 + (5 + 0))))) from rfl, bits_append, bits_append, bits_append, bits_append, bits_append, bits_append]
  exact BitVec.extractLsb'_eq_self

/-- The opcode of each instruction (04_stitchers.md, Tables 5 and 6). -/
def OpcodeOf.code : Instr → Option (BitVec 6)
  | .add .. | .sub .. | .mul .. | .mulh .. | .mulhu .. | .and .. | .or .. | .xor .. | .shl .. | .shr .. | .sra ..
  | .min .. | .max .. | .minu .. | .maxu .. | .addSat .. | .subSat .. | .sel .. | .cmpEq .. | .cmpNe .. | .cmpLt ..
  | .cmpLe .. | .cmpLtu .. | .cmpLeu .. => some 0x01
  | .addi .. => some 0x02
  | .andi .. => some 0x03
  | .ori .. => some 0x04
  | .xori .. => some 0x05
  | .lui .. => some 0x06
  | .shli .. | .shri .. | .srai .. => some 0x07
  | .cmpi .. => some 0x08
  | .fadd .. | .fsub .. | .fmul .. | .ffma .. | .fmin .. | .fmax .. | .fabs .. | .fneg .. | .fexp .. | .frcp ..
  | .frsqrt .. | .fcmpEq .. | .fcmpLt .. | .fcmpLe .. | .fcmpUn .. => some 0x09
  | .br .. | .loop .. | .brZ .. | .brNz .. => some 0x0A
  | .ldB .. | .ldH .. | .ldW .. | .ldBs .. | .ldHs .. | .vld .. => some 0x0B
  | .stB .. | .stH .. | .stW .. | .vst .. => some 0x0C
  | .vadd .. | .vsub .. | .vmul .. | .vmin .. | .vmax .. | .vand .. | .vor .. | .vxor .. | .vshl .. | .vsra ..
  | .vfma .. | .vabs .. | .vneg .. | .vcmpEq .. | .vcmpLt .. | .vcmpLe .. => some 0x10
  | .vsel .. | .vshuf .. | .vbcast .. | .vext .. | .vins .. | .vsum .. | .vmaxi .. | .vmov .. => some 0x11
  | .vexp .. | .vrcp .. | .vrsqrt .. => some 0x12
  | .cvt .. | .cvtBlk .. | .cvtUnblk .. => some 0x13
  | .cvtS .. => some 0x14
  | .send .. | .sendCtl .. | .trySend .. | .trySendCtl .. | .msendP .. | .msendL .. | .tryMsendP .. | .tryMsendL .. => some 0x18
  | .qrecv .. | .qrecvTry .. | .ringAdv .. | .ringWp .. | .credits .. => some 0x19
  | .pressGo .. | .hint .. | .leafFill .. | .leafCopy .. => some 0x1C
  | .collChk .. | .collGen .. => some 0x1D
  | .nop .. | .endF .. | .tickdone .. | .gets .. | .pand .. | .por .. | .pnot .. | .pany .. | .pall .. | .fence .. => some 0x1E
  | _ => none

/-- The word of a command, where it has one, carries the command's opcode. -/
def OpcodeOf.Statement (i : Instr) : Prop := (encode i).map (fun w => bits w 26 6) = OpcodeOf.code i

theorem OpcodeOf.tickRunStart (w : Writer) (p : PartId) : OpcodeOf.Statement (.tickRunStart w p) :=
  rfl
theorem OpcodeOf.tickRunStop (w : Writer) (p : PartId) : OpcodeOf.Statement (.tickRunStop w p) :=
  rfl
theorem OpcodeOf.tickHold (w : Writer) (p : PartId) : OpcodeOf.Statement (.tickHold w p) :=
  rfl
theorem OpcodeOf.tickHoldRelease (w : Writer) (p : PartId) : OpcodeOf.Statement (.tickHoldRelease w p) :=
  rfl
theorem OpcodeOf.tkStrikeWrite (w : Writer) (p : PartId) : OpcodeOf.Statement (.tkStrikeWrite w p) :=
  rfl
theorem OpcodeOf.timedGridPoint (p : PartId) : OpcodeOf.Statement (.timedGridPoint p) :=
  rfl
theorem OpcodeOf.pendingStrikeStroke (p : PartId) : OpcodeOf.Statement (.pendingStrikeStroke p) :=
  rfl
theorem OpcodeOf.tickInEdge (falling : Bool) : OpcodeOf.Statement (.tickInEdge falling) :=
  rfl
theorem OpcodeOf.spineStroke (q : QuireId) (drop : Option Hop) : OpcodeOf.Statement (.spineStroke q drop) :=
  rfl
theorem OpcodeOf.spineIntake (p : PartId) (r : Fin 4) (drop : Option Hop) (flip : BitVec 16) :
    OpcodeOf.Statement (.spineIntake p r drop flip) := rfl
theorem OpcodeOf.spineTickdone (q : QuireId) (drop : Option Hop) : OpcodeOf.Statement (.spineTickdone q drop) :=
  rfl
theorem OpcodeOf.runDeadline (q : QuireId) : OpcodeOf.Statement (.runDeadline q) :=
  rfl
theorem OpcodeOf.hangWatchdog (q : QuireId) : OpcodeOf.Statement (.hangWatchdog q) :=
  rfl
theorem OpcodeOf.sendStallWatchdog (u : StId) : OpcodeOf.Statement (.sendStallWatchdog u) :=
  rfl
theorem OpcodeOf.tempSample (junctions : List Int) (hubs : List Int) (plate : Int) :
    OpcodeOf.Statement (.tempSample junctions hubs plate) := rfl
theorem OpcodeOf.thermalStepUp (h : Half) : OpcodeOf.Statement (.thermalStepUp h) :=
  rfl
theorem OpcodeOf.thermalCritEnd (h : Half) : OpcodeOf.Statement (.thermalCritEnd h) :=
  rfl
theorem OpcodeOf.thermalTrip : OpcodeOf.Statement .thermalTrip :=
  rfl
theorem OpcodeOf.clockStep (h : Half) : OpcodeOf.Statement (.clockStep h) :=
  rfl
theorem OpcodeOf.add (u : StId) (rd : SReg) (ra : SReg) (rb : SReg) :
    OpcodeOf.Statement (.add u rd ra rb) := congrArg some (packR_opcode ..)
theorem OpcodeOf.sub (u : StId) (rd : SReg) (ra : SReg) (rb : SReg) :
    OpcodeOf.Statement (.sub u rd ra rb) := congrArg some (packR_opcode ..)
theorem OpcodeOf.mul (u : StId) (rd : SReg) (ra : SReg) (rb : SReg) :
    OpcodeOf.Statement (.mul u rd ra rb) := congrArg some (packR_opcode ..)
theorem OpcodeOf.mulh (u : StId) (rd : SReg) (ra : SReg) (rb : SReg) :
    OpcodeOf.Statement (.mulh u rd ra rb) := congrArg some (packR_opcode ..)
theorem OpcodeOf.mulhu (u : StId) (rd : SReg) (ra : SReg) (rb : SReg) :
    OpcodeOf.Statement (.mulhu u rd ra rb) := congrArg some (packR_opcode ..)
theorem OpcodeOf.and (u : StId) (rd : SReg) (ra : SReg) (rb : SReg) :
    OpcodeOf.Statement (.and u rd ra rb) := congrArg some (packR_opcode ..)
theorem OpcodeOf.or (u : StId) (rd : SReg) (ra : SReg) (rb : SReg) :
    OpcodeOf.Statement (.or u rd ra rb) := congrArg some (packR_opcode ..)
theorem OpcodeOf.xor (u : StId) (rd : SReg) (ra : SReg) (rb : SReg) :
    OpcodeOf.Statement (.xor u rd ra rb) := congrArg some (packR_opcode ..)
theorem OpcodeOf.shl (u : StId) (rd : SReg) (ra : SReg) (rb : SReg) :
    OpcodeOf.Statement (.shl u rd ra rb) := congrArg some (packR_opcode ..)
theorem OpcodeOf.shr (u : StId) (rd : SReg) (ra : SReg) (rb : SReg) :
    OpcodeOf.Statement (.shr u rd ra rb) := congrArg some (packR_opcode ..)
theorem OpcodeOf.sra (u : StId) (rd : SReg) (ra : SReg) (rb : SReg) :
    OpcodeOf.Statement (.sra u rd ra rb) := congrArg some (packR_opcode ..)
theorem OpcodeOf.min (u : StId) (rd : SReg) (ra : SReg) (rb : SReg) :
    OpcodeOf.Statement (.min u rd ra rb) := congrArg some (packR_opcode ..)
theorem OpcodeOf.max (u : StId) (rd : SReg) (ra : SReg) (rb : SReg) :
    OpcodeOf.Statement (.max u rd ra rb) := congrArg some (packR_opcode ..)
theorem OpcodeOf.minu (u : StId) (rd : SReg) (ra : SReg) (rb : SReg) :
    OpcodeOf.Statement (.minu u rd ra rb) := congrArg some (packR_opcode ..)
theorem OpcodeOf.maxu (u : StId) (rd : SReg) (ra : SReg) (rb : SReg) :
    OpcodeOf.Statement (.maxu u rd ra rb) := congrArg some (packR_opcode ..)
theorem OpcodeOf.addSat (u : StId) (rd : SReg) (ra : SReg) (rb : SReg) :
    OpcodeOf.Statement (.addSat u rd ra rb) := congrArg some (packR_opcode ..)
theorem OpcodeOf.subSat (u : StId) (rd : SReg) (ra : SReg) (rb : SReg) :
    OpcodeOf.Statement (.subSat u rd ra rb) := congrArg some (packR_opcode ..)
theorem OpcodeOf.sel (u : StId) (rd : SReg) (ra : SReg) (rb : SReg) (pd : PReg) :
    OpcodeOf.Statement (.sel u rd ra rb pd) := congrArg some (packR_opcode ..)
theorem OpcodeOf.cmpEq (u : StId) (pd : PReg) (ra : SReg) (rb : SReg) :
    OpcodeOf.Statement (.cmpEq u pd ra rb) := congrArg some (packR_opcode ..)
theorem OpcodeOf.cmpNe (u : StId) (pd : PReg) (ra : SReg) (rb : SReg) :
    OpcodeOf.Statement (.cmpNe u pd ra rb) := congrArg some (packR_opcode ..)
theorem OpcodeOf.cmpLt (u : StId) (pd : PReg) (ra : SReg) (rb : SReg) :
    OpcodeOf.Statement (.cmpLt u pd ra rb) := congrArg some (packR_opcode ..)
theorem OpcodeOf.cmpLe (u : StId) (pd : PReg) (ra : SReg) (rb : SReg) :
    OpcodeOf.Statement (.cmpLe u pd ra rb) := congrArg some (packR_opcode ..)
theorem OpcodeOf.cmpLtu (u : StId) (pd : PReg) (ra : SReg) (rb : SReg) :
    OpcodeOf.Statement (.cmpLtu u pd ra rb) := congrArg some (packR_opcode ..)
theorem OpcodeOf.cmpLeu (u : StId) (pd : PReg) (ra : SReg) (rb : SReg) :
    OpcodeOf.Statement (.cmpLeu u pd ra rb) := congrArg some (packR_opcode ..)
theorem OpcodeOf.addi (u : StId) (rd : SReg) (ra : SReg) (imm : BitVec 16) :
    OpcodeOf.Statement (.addi u rd ra imm) := congrArg some (packI_opcode ..)
theorem OpcodeOf.andi (u : StId) (rd : SReg) (ra : SReg) (imm : BitVec 16) :
    OpcodeOf.Statement (.andi u rd ra imm) := congrArg some (packI_opcode ..)
theorem OpcodeOf.ori (u : StId) (rd : SReg) (ra : SReg) (imm : BitVec 16) :
    OpcodeOf.Statement (.ori u rd ra imm) := congrArg some (packI_opcode ..)
theorem OpcodeOf.xori (u : StId) (rd : SReg) (ra : SReg) (imm : BitVec 16) :
    OpcodeOf.Statement (.xori u rd ra imm) := congrArg some (packI_opcode ..)
theorem OpcodeOf.lui (u : StId) (rd : SReg) (imm : BitVec 16) :
    OpcodeOf.Statement (.lui u rd imm) := congrArg some (packI_opcode ..)
theorem OpcodeOf.shli (u : StId) (rd : SReg) (ra : SReg) (amt : BitVec 5) :
    OpcodeOf.Statement (.shli u rd ra amt) := congrArg some (packI_opcode ..)
theorem OpcodeOf.shri (u : StId) (rd : SReg) (ra : SReg) (amt : BitVec 5) :
    OpcodeOf.Statement (.shri u rd ra amt) := congrArg some (packI_opcode ..)
theorem OpcodeOf.srai (u : StId) (rd : SReg) (ra : SReg) (amt : BitVec 5) :
    OpcodeOf.Statement (.srai u rd ra amt) := congrArg some (packI_opcode ..)
theorem OpcodeOf.cmpi (u : StId) (pd : PReg) (cond : CondI) (ra : SReg) (imm : BitVec 16) :
    OpcodeOf.Statement (.cmpi u pd cond ra imm) := congrArg some (packI_opcode ..)
theorem OpcodeOf.fadd (u : StId) (rd : SReg) (ra : SReg) (rb : SReg) :
    OpcodeOf.Statement (.fadd u rd ra rb) := congrArg some (packR_opcode ..)
theorem OpcodeOf.fsub (u : StId) (rd : SReg) (ra : SReg) (rb : SReg) :
    OpcodeOf.Statement (.fsub u rd ra rb) := congrArg some (packR_opcode ..)
theorem OpcodeOf.fmul (u : StId) (rd : SReg) (ra : SReg) (rb : SReg) :
    OpcodeOf.Statement (.fmul u rd ra rb) := congrArg some (packR_opcode ..)
theorem OpcodeOf.ffma (u : StId) (rd : SReg) (ra : SReg) (rb : SReg) :
    OpcodeOf.Statement (.ffma u rd ra rb) := congrArg some (packR_opcode ..)
theorem OpcodeOf.fmin (u : StId) (rd : SReg) (ra : SReg) (rb : SReg) :
    OpcodeOf.Statement (.fmin u rd ra rb) := congrArg some (packR_opcode ..)
theorem OpcodeOf.fmax (u : StId) (rd : SReg) (ra : SReg) (rb : SReg) :
    OpcodeOf.Statement (.fmax u rd ra rb) := congrArg some (packR_opcode ..)
theorem OpcodeOf.fabs (u : StId) (rd : SReg) (ra : SReg) : OpcodeOf.Statement (.fabs u rd ra) :=
  congrArg some (packR_opcode ..)
theorem OpcodeOf.fneg (u : StId) (rd : SReg) (ra : SReg) : OpcodeOf.Statement (.fneg u rd ra) :=
  congrArg some (packR_opcode ..)
theorem OpcodeOf.fexp (u : StId) (rd : SReg) (ra : SReg) : OpcodeOf.Statement (.fexp u rd ra) :=
  congrArg some (packR_opcode ..)
theorem OpcodeOf.frcp (u : StId) (rd : SReg) (ra : SReg) : OpcodeOf.Statement (.frcp u rd ra) :=
  congrArg some (packR_opcode ..)
theorem OpcodeOf.frsqrt (u : StId) (rd : SReg) (ra : SReg) : OpcodeOf.Statement (.frsqrt u rd ra) :=
  congrArg some (packR_opcode ..)
theorem OpcodeOf.fcmpEq (u : StId) (pd : PReg) (ra : SReg) (rb : SReg) :
    OpcodeOf.Statement (.fcmpEq u pd ra rb) := congrArg some (packR_opcode ..)
theorem OpcodeOf.fcmpLt (u : StId) (pd : PReg) (ra : SReg) (rb : SReg) :
    OpcodeOf.Statement (.fcmpLt u pd ra rb) := congrArg some (packR_opcode ..)
theorem OpcodeOf.fcmpLe (u : StId) (pd : PReg) (ra : SReg) (rb : SReg) :
    OpcodeOf.Statement (.fcmpLe u pd ra rb) := congrArg some (packR_opcode ..)
theorem OpcodeOf.fcmpUn (u : StId) (pd : PReg) (ra : SReg) (rb : SReg) :
    OpcodeOf.Statement (.fcmpUn u pd ra rb) := congrArg some (packR_opcode ..)
theorem OpcodeOf.br (u : StId) (pg : PReg) (pn : Bool) (off : BitVec 11) :
    OpcodeOf.Statement (.br u pg pn off) := congrArg some (packB_opcode ..)
theorem OpcodeOf.loop (u : StId) (pg : PReg) (pn : Bool) (rs : SReg) (off : BitVec 11) :
    OpcodeOf.Statement (.loop u pg pn rs off) := congrArg some (packB_opcode ..)
theorem OpcodeOf.brZ (u : StId) (pg : PReg) (pn : Bool) (rs : SReg) (off : BitVec 11) :
    OpcodeOf.Statement (.brZ u pg pn rs off) := congrArg some (packB_opcode ..)
theorem OpcodeOf.brNz (u : StId) (pg : PReg) (pn : Bool) (rs : SReg) (off : BitVec 11) :
    OpcodeOf.Statement (.brNz u pg pn rs off) := congrArg some (packB_opcode ..)
theorem OpcodeOf.ldB (u : StId) (rd : SReg) (ra : SReg) (sp : Space) (imm : BitVec 12) :
    OpcodeOf.Statement (.ldB u rd ra sp imm) := congrArg some (packM_opcode ..)
theorem OpcodeOf.ldH (u : StId) (rd : SReg) (ra : SReg) (sp : Space) (imm : BitVec 12) :
    OpcodeOf.Statement (.ldH u rd ra sp imm) := congrArg some (packM_opcode ..)
theorem OpcodeOf.ldW (u : StId) (rd : SReg) (ra : SReg) (sp : Space) (imm : BitVec 12) :
    OpcodeOf.Statement (.ldW u rd ra sp imm) := congrArg some (packM_opcode ..)
theorem OpcodeOf.ldBs (u : StId) (rd : SReg) (ra : SReg) (sp : Space) (imm : BitVec 12) :
    OpcodeOf.Statement (.ldBs u rd ra sp imm) := congrArg some (packM_opcode ..)
theorem OpcodeOf.ldHs (u : StId) (rd : SReg) (ra : SReg) (sp : Space) (imm : BitVec 12) :
    OpcodeOf.Statement (.ldHs u rd ra sp imm) := congrArg some (packM_opcode ..)
theorem OpcodeOf.vld (u : StId) (vd : VReg) (ra : SReg) (sp : Space) (imm : BitVec 12) :
    OpcodeOf.Statement (.vld u vd ra sp imm) := congrArg some (packM_opcode ..)
theorem OpcodeOf.stB (u : StId) (rd : SReg) (ra : SReg) (sp : Space) (imm : BitVec 12) :
    OpcodeOf.Statement (.stB u rd ra sp imm) := congrArg some (packM_opcode ..)
theorem OpcodeOf.stH (u : StId) (rd : SReg) (ra : SReg) (sp : Space) (imm : BitVec 12) :
    OpcodeOf.Statement (.stH u rd ra sp imm) := congrArg some (packM_opcode ..)
theorem OpcodeOf.stW (u : StId) (rd : SReg) (ra : SReg) (sp : Space) (imm : BitVec 12) :
    OpcodeOf.Statement (.stW u rd ra sp imm) := congrArg some (packM_opcode ..)
theorem OpcodeOf.vst (u : StId) (vd : VReg) (ra : SReg) (sp : Space) (imm : BitVec 12) :
    OpcodeOf.Statement (.vst u vd ra sp imm) := congrArg some (packM_opcode ..)
theorem OpcodeOf.vadd (u : StId) (vd : VReg) (va : VReg) (vb : VReg) (pg : PReg) (pn : Bool) (ty : LaneTy) :
    OpcodeOf.Statement (.vadd u vd va vb pg pn ty) := congrArg some (packV_opcode ..)
theorem OpcodeOf.vsub (u : StId) (vd : VReg) (va : VReg) (vb : VReg) (pg : PReg) (pn : Bool) (ty : LaneTy) :
    OpcodeOf.Statement (.vsub u vd va vb pg pn ty) := congrArg some (packV_opcode ..)
theorem OpcodeOf.vmul (u : StId) (vd : VReg) (va : VReg) (vb : VReg) (pg : PReg) (pn : Bool) (ty : LaneTy) :
    OpcodeOf.Statement (.vmul u vd va vb pg pn ty) := congrArg some (packV_opcode ..)
theorem OpcodeOf.vfma (u : StId) (vd : VReg) (va : VReg) (vb : VReg) (vc : VReg) (pg : PReg) (pn : Bool) (ty : LaneTy) :
    OpcodeOf.Statement (.vfma u vd va vb vc pg pn ty) := congrArg some (packV_opcode ..)
theorem OpcodeOf.vmin (u : StId) (vd : VReg) (va : VReg) (vb : VReg) (pg : PReg) (pn : Bool) (ty : LaneTy) :
    OpcodeOf.Statement (.vmin u vd va vb pg pn ty) := congrArg some (packV_opcode ..)
theorem OpcodeOf.vmax (u : StId) (vd : VReg) (va : VReg) (vb : VReg) (pg : PReg) (pn : Bool) (ty : LaneTy) :
    OpcodeOf.Statement (.vmax u vd va vb pg pn ty) := congrArg some (packV_opcode ..)
theorem OpcodeOf.vabs (u : StId) (vd : VReg) (va : VReg) (pg : PReg) (pn : Bool) (ty : LaneTy) :
    OpcodeOf.Statement (.vabs u vd va pg pn ty) := congrArg some (packV_opcode ..)
theorem OpcodeOf.vneg (u : StId) (vd : VReg) (va : VReg) (pg : PReg) (pn : Bool) (ty : LaneTy) :
    OpcodeOf.Statement (.vneg u vd va pg pn ty) := congrArg some (packV_opcode ..)
theorem OpcodeOf.vand (u : StId) (vd : VReg) (va : VReg) (vb : VReg) (pg : PReg) (pn : Bool) (ty : IntTy) :
    OpcodeOf.Statement (.vand u vd va vb pg pn ty) := congrArg some (packV_opcode ..)
theorem OpcodeOf.vor (u : StId) (vd : VReg) (va : VReg) (vb : VReg) (pg : PReg) (pn : Bool) (ty : IntTy) :
    OpcodeOf.Statement (.vor u vd va vb pg pn ty) := congrArg some (packV_opcode ..)
theorem OpcodeOf.vxor (u : StId) (vd : VReg) (va : VReg) (vb : VReg) (pg : PReg) (pn : Bool) (ty : IntTy) :
    OpcodeOf.Statement (.vxor u vd va vb pg pn ty) := congrArg some (packV_opcode ..)
theorem OpcodeOf.vshl (u : StId) (vd : VReg) (va : VReg) (vb : VReg) (pg : PReg) (pn : Bool) (ty : IntTy) :
    OpcodeOf.Statement (.vshl u vd va vb pg pn ty) := congrArg some (packV_opcode ..)
theorem OpcodeOf.vsra (u : StId) (vd : VReg) (va : VReg) (vb : VReg) (pg : PReg) (pn : Bool) (ty : IntTy) :
    OpcodeOf.Statement (.vsra u vd va vb pg pn ty) := congrArg some (packV_opcode ..)
theorem OpcodeOf.vcmpEq (u : StId) (pd : PReg) (va : VReg) (vb : VReg) (pg : PReg) (pn : Bool) (ty : LaneTy) :
    OpcodeOf.Statement (.vcmpEq u pd va vb pg pn ty) := congrArg some (packV_opcode ..)
theorem OpcodeOf.vcmpLt (u : StId) (pd : PReg) (va : VReg) (vb : VReg) (pg : PReg) (pn : Bool) (ty : LaneTy) :
    OpcodeOf.Statement (.vcmpLt u pd va vb pg pn ty) := congrArg some (packV_opcode ..)
theorem OpcodeOf.vcmpLe (u : StId) (pd : PReg) (va : VReg) (vb : VReg) (pg : PReg) (pn : Bool) (ty : LaneTy) :
    OpcodeOf.Statement (.vcmpLe u pd va vb pg pn ty) := congrArg some (packV_opcode ..)
theorem OpcodeOf.vsel (u : StId) (vd : VReg) (va : VReg) (vb : VReg) (pg : PReg) (pn : Bool) (ty : LaneTy) :
    OpcodeOf.Statement (.vsel u vd va vb pg pn ty) := congrArg some (packV_opcode ..)
theorem OpcodeOf.vbcast (u : StId) (vd : VReg) (rs : SReg) (ty : LaneTy) :
    OpcodeOf.Statement (.vbcast u vd rs ty) := congrArg some (packVL_opcode ..)
theorem OpcodeOf.vext (u : StId) (va : VReg) (rs : SReg) (lane : BitVec 6) (ty : LaneTy) :
    OpcodeOf.Statement (.vext u va rs lane ty) := congrArg some (packVL_opcode ..)
theorem OpcodeOf.vins (u : StId) (vd : VReg) (rs : SReg) (lane : BitVec 6) (ty : LaneTy) :
    OpcodeOf.Statement (.vins u vd rs lane ty) := congrArg some (packVL_opcode ..)
theorem OpcodeOf.vsum (u : StId) (vd : VReg) (va : VReg) (pg : PReg) (pn : Bool) (ty : LaneTy) :
    OpcodeOf.Statement (.vsum u vd va pg pn ty) := congrArg some (packV_opcode ..)
theorem OpcodeOf.vmaxi (u : StId) (vd : VReg) (va : VReg) (pg : PReg) (pn : Bool) (ty : LaneTy) :
    OpcodeOf.Statement (.vmaxi u vd va pg pn ty) := congrArg some (packV_opcode ..)
theorem OpcodeOf.vshuf (u : StId) (vd : VReg) (va : VReg) (vb : VReg) (pg : PReg) (pn : Bool) (ty : LaneTy) :
    OpcodeOf.Statement (.vshuf u vd va vb pg pn ty) := congrArg some (packV_opcode ..)
theorem OpcodeOf.vmov (u : StId) (vd : VReg) (va : VReg) (pg : PReg) (pn : Bool) (ty : LaneTy) :
    OpcodeOf.Statement (.vmov u vd va pg pn ty) := congrArg some (packV_opcode ..)
theorem OpcodeOf.vexp (u : StId) (vd : VReg) (va : VReg) (pg : PReg) (pn : Bool) (ty : FloatTy) :
    OpcodeOf.Statement (.vexp u vd va pg pn ty) := congrArg some (packV_opcode ..)
theorem OpcodeOf.vrcp (u : StId) (vd : VReg) (va : VReg) (pg : PReg) (pn : Bool) (ty : FloatTy) :
    OpcodeOf.Statement (.vrcp u vd va pg pn ty) := congrArg some (packV_opcode ..)
theorem OpcodeOf.vrsqrt (u : StId) (vd : VReg) (va : VReg) (pg : PReg) (pn : Bool) (ty : FloatTy) :
    OpcodeOf.Statement (.vrsqrt u vd va pg pn ty) := congrArg some (packV_opcode ..)
theorem OpcodeOf.cvt (u : StId) (vd : VReg) (va : VReg) (tf : CvtFmt) (ff : CvtFmt) (rm : Rm) (spc : Bool) (pg : PReg) (part : BitVec 2) :
    OpcodeOf.Statement (.cvt u vd va tf ff rm spc pg part) := congrArg some (packCV_opcode ..)
theorem OpcodeOf.cvtBlk (u : StId) (vd : VReg) (va : VReg) (tf : BlkFmt) (ff : BlkSrc) (rm : Rm) :
    OpcodeOf.Statement (.cvtBlk u vd va tf ff rm) := congrArg some (packCV_opcode ..)
theorem OpcodeOf.cvtUnblk (u : StId) (vd : VReg) (va : VReg) (tf : UnblkDst) (ff : BlkFmt) (rm : Rm) :
    OpcodeOf.Statement (.cvtUnblk u vd va tf ff rm) := congrArg some (packCV_opcode ..)
theorem OpcodeOf.cvtS (u : StId) (rd : SReg) (ra : SReg) (tf : ScalFmt) (ff : ScalFmt) (rm : Rm) :
    OpcodeOf.Statement (.cvtS u rd ra tf ff rm) := congrArg some (packCS_opcode ..)
theorem OpcodeOf.send (u : StId) (rx : SReg) (rt : SReg) (rs : SReg) (ch : BitVec 8) :
    OpcodeOf.Statement (.send u rx rt rs ch) := congrArg some (packC_opcode ..)
theorem OpcodeOf.sendCtl (u : StId) (rx : SReg) (rt : SReg) (rs : SReg) (ch : BitVec 8) :
    OpcodeOf.Statement (.sendCtl u rx rt rs ch) := congrArg some (packC_opcode ..)
theorem OpcodeOf.trySend (u : StId) (rx : SReg) (rt : SReg) (rs : SReg) (ch : BitVec 8) :
    OpcodeOf.Statement (.trySend u rx rt rs ch) := congrArg some (packC_opcode ..)
theorem OpcodeOf.trySendCtl (u : StId) (rx : SReg) (rt : SReg) (rs : SReg) (ch : BitVec 8) :
    OpcodeOf.Statement (.trySendCtl u rx rt rs ch) := congrArg some (packC_opcode ..)
theorem OpcodeOf.msendP (u : StId) (rx : SReg) (rt : SReg) (rs : SReg) (ch : BitVec 8) :
    OpcodeOf.Statement (.msendP u rx rt rs ch) := congrArg some (packC_opcode ..)
theorem OpcodeOf.msendL (u : StId) (rx : SReg) (rt : SReg) (rs : SReg) (ch : BitVec 8) :
    OpcodeOf.Statement (.msendL u rx rt rs ch) := congrArg some (packC_opcode ..)
theorem OpcodeOf.tryMsendP (u : StId) (rx : SReg) (rt : SReg) (rs : SReg) (ch : BitVec 8) :
    OpcodeOf.Statement (.tryMsendP u rx rt rs ch) := congrArg some (packC_opcode ..)
theorem OpcodeOf.tryMsendL (u : StId) (rx : SReg) (rt : SReg) (rs : SReg) (ch : BitVec 8) :
    OpcodeOf.Statement (.tryMsendL u rx rt rs ch) := congrArg some (packC_opcode ..)
theorem OpcodeOf.qrecv (u : StId) (ra : SReg) (queue : BitVec 2) :
    OpcodeOf.Statement (.qrecv u ra queue) := congrArg some (packX_opcode ..)
theorem OpcodeOf.qrecvTry (u : StId) (ra : SReg) (pd : PReg) (queue : BitVec 2) :
    OpcodeOf.Statement (.qrecvTry u ra pd queue) := congrArg some (packX_opcode ..)
theorem OpcodeOf.ringAdv (u : StId) (ra : SReg) (rb : SReg) : OpcodeOf.Statement (.ringAdv u ra rb) :=
  congrArg some (packX_opcode ..)
theorem OpcodeOf.ringWp (u : StId) (ra : SReg) (rb : SReg) : OpcodeOf.Statement (.ringWp u ra rb) :=
  congrArg some (packX_opcode ..)
theorem OpcodeOf.credits (u : StId) (ra : SReg) (rb : SReg) : OpcodeOf.Statement (.credits u ra rb) :=
  congrArg some (packX_opcode ..)
theorem OpcodeOf.pressGo (u : StId) (ra : SReg) (press : PressId) (sp : Space) :
    OpcodeOf.Statement (.pressGo u ra press sp) := congrArg some (packX_opcode ..)
theorem OpcodeOf.hint (u : StId) (ra : SReg) (rb : SReg) : OpcodeOf.Statement (.hint u ra rb) :=
  congrArg some (packX_opcode ..)
theorem OpcodeOf.leafFill (u : StId) (ra : SReg) : OpcodeOf.Statement (.leafFill u ra) :=
  congrArg some (packX_opcode ..)
theorem OpcodeOf.leafCopy (u : StId) (ra : SReg) : OpcodeOf.Statement (.leafCopy u ra) :=
  congrArg some (packX_opcode ..)
theorem OpcodeOf.collChk (u : StId) (ra : SReg) (rb : SReg) (rc : SReg) (pd : PReg) (sp : Space) :
    OpcodeOf.Statement (.collChk u ra rb rc pd sp) := congrArg some (packX_opcode ..)
theorem OpcodeOf.collGen (u : StId) (ra : SReg) (rb : SReg) (rc : SReg) (sp : Space) :
    OpcodeOf.Statement (.collGen u ra rb rc sp) := congrArg some (packX_opcode ..)
theorem OpcodeOf.nop (u : StId) : OpcodeOf.Statement (.nop u) :=
  congrArg some (packX_opcode ..)
theorem OpcodeOf.endF (u : StId) : OpcodeOf.Statement (.endF u) :=
  congrArg some (packX_opcode ..)
theorem OpcodeOf.tickdone (u : StId) : OpcodeOf.Statement (.tickdone u) :=
  congrArg some (packX_opcode ..)
theorem OpcodeOf.gets (u : StId) (ra : SReg) (sel : BitVec 5) : OpcodeOf.Statement (.gets u ra sel) :=
  congrArg some (packX_opcode ..)
theorem OpcodeOf.pand (u : StId) (pd : PReg) (ra : PReg) (rb : PReg) :
    OpcodeOf.Statement (.pand u pd ra rb) := congrArg some (packX_opcode ..)
theorem OpcodeOf.por (u : StId) (pd : PReg) (ra : PReg) (rb : PReg) :
    OpcodeOf.Statement (.por u pd ra rb) := congrArg some (packX_opcode ..)
theorem OpcodeOf.pnot (u : StId) (pd : PReg) (ra : PReg) : OpcodeOf.Statement (.pnot u pd ra) :=
  congrArg some (packX_opcode ..)
theorem OpcodeOf.pany (u : StId) (pd : PReg) (ra : PReg) : OpcodeOf.Statement (.pany u pd ra) :=
  congrArg some (packX_opcode ..)
theorem OpcodeOf.pall (u : StId) (pd : PReg) (ra : PReg) : OpcodeOf.Statement (.pall u pd ra) :=
  congrArg some (packX_opcode ..)
theorem OpcodeOf.fence (u : StId) : OpcodeOf.Statement (.fence u) :=
  congrArg some (packX_opcode ..)
theorem OpcodeOf.firingDispatch (u : StId) : OpcodeOf.Statement (.firingDispatch u) :=
  rfl
theorem OpcodeOf.tokenArrival (u : StId) (w : BitVec 96) (o : Origin) (pos : Nat) :
    OpcodeOf.Statement (.tokenArrival u w o pos) := rfl
theorem OpcodeOf.residueMismatch (u : StId) (pc : BitVec 10) : OpcodeOf.Statement (.residueMismatch u pc) :=
  rfl
theorem OpcodeOf.stitcherResetEnd (u : StId) : OpcodeOf.Statement (.stitcherResetEnd u) :=
  rfl
theorem OpcodeOf.stCtrlReset (w : Writer) (u : StId) : OpcodeOf.Statement (.stCtrlReset w u) :=
  rfl
theorem OpcodeOf.stFaultSuspectClear (w : Writer) (q : QuireId) : OpcodeOf.Statement (.stFaultSuspectClear w q) :=
  rfl
theorem OpcodeOf.pressCommandDecode (q : QuireId) (x : PressId) : OpcodeOf.Statement (.pressCommandDecode q x) :=
  rfl
theorem OpcodeOf.pressTileCheck (q : QuireId) (x : PressId) (upset : Option PressUpset) :
    OpcodeOf.Statement (.pressTileCheck q x upset) := rfl
theorem OpcodeOf.pressVoteStart (q : QuireId) : OpcodeOf.Statement (.pressVoteStart q) :=
  rfl
theorem OpcodeOf.pressVoteJudgement (q : QuireId) (upset : Option PressUpset) :
    OpcodeOf.Statement (.pressVoteJudgement q upset) := rfl
theorem OpcodeOf.pressDeliveryToken (q : QuireId) (x : PressId) : OpcodeOf.Statement (.pressDeliveryToken q x) :=
  rfl
theorem OpcodeOf.pressCompletion (q : QuireId) (x : PressId) : OpcodeOf.Statement (.pressCompletion q x) :=
  rfl
theorem OpcodeOf.outboundHoldRelease (q : QuireId) : OpcodeOf.Statement (.outboundHoldRelease q) :=
  rfl
theorem OpcodeOf.psVoteSuspectClear (w : Writer) (q : QuireId) : OpcodeOf.Statement (.psVoteSuspectClear w q) :=
  rfl
theorem OpcodeOf.lfClassWrite (w : Writer) (q : QuireId) (i : Fin 32) (v : Word) :
    OpcodeOf.Statement (.lfClassWrite w q i v) := rfl
theorem OpcodeOf.classFillDone (q : QuireId) : OpcodeOf.Statement (.classFillDone q) :=
  rfl
theorem OpcodeOf.writeBufferLand (q : QuireId) (n : Nat) (reader : Option Nat) :
    OpcodeOf.Statement (.writeBufferLand q n reader) := rfl
theorem OpcodeOf.leafOpStart (q : QuireId) : OpcodeOf.Statement (.leafOpStart q) :=
  rfl
theorem OpcodeOf.leafOpComplete (q : QuireId) : OpcodeOf.Statement (.leafOpComplete q) :=
  rfl
theorem OpcodeOf.scrubPassStart (q : QuireId) : OpcodeOf.Statement (.scrubPassStart q) :=
  rfl
theorem OpcodeOf.scrubRead (q : QuireId) : OpcodeOf.Statement (.scrubRead q) :=
  rfl
theorem OpcodeOf.scrubWriteBack (q : QuireId) : OpcodeOf.Statement (.scrubWriteBack q) :=
  rfl
theorem OpcodeOf.scrubPassEnd (q : QuireId) : OpcodeOf.Statement (.scrubPassEnd q) :=
  rfl
theorem OpcodeOf.messageRelease (q : QuireId) (upset : Word) : OpcodeOf.Statement (.messageRelease q upset) :=
  rfl
theorem OpcodeOf.creditReturn (q : QuireId) : OpcodeOf.Statement (.creditReturn q) :=
  rfl
theorem OpcodeOf.spanMessageRelease (q : QuireId) (upset : Word) : OpcodeOf.Statement (.spanMessageRelease q upset) :=
  rfl
theorem OpcodeOf.reconfDrain (w : Writer) (p : PartId) : OpcodeOf.Statement (.reconfDrain w p) :=
  rfl
theorem OpcodeOf.reconfDrainEnd (p : PartId) : OpcodeOf.Statement (.reconfDrainEnd p) :=
  rfl
theorem OpcodeOf.reconfCommit (w : Writer) (p : PartId) : OpcodeOf.Statement (.reconfCommit w p) :=
  rfl
theorem OpcodeOf.reconfRefusedClear (w : Writer) (p : PartId) : OpcodeOf.Statement (.reconfRefusedClear w p) :=
  rfl
theorem OpcodeOf.pagerEntryStart (p : PartId) : OpcodeOf.Statement (.pagerEntryStart p) :=
  rfl
theorem OpcodeOf.pageComplete (p : PartId) : OpcodeOf.Statement (.pageComplete p) :=
  rfl
theorem OpcodeOf.pageDuePosition (q : QuireId) : OpcodeOf.Statement (.pageDuePosition q) :=
  rfl
theorem OpcodeOf.pageCompletionArrival (p : PartId) : OpcodeOf.Statement (.pageCompletionArrival p) :=
  rfl
theorem OpcodeOf.uploadWrite (p : PartId) (ld : LdId) (off : BitVec 30) (bytes : List Byte) (poison : Bool) :
    OpcodeOf.Statement (.uploadWrite p ld off bytes poison) := rfl
theorem OpcodeOf.uploadFlush (w : Writer) (p : PartId) : OpcodeOf.Statement (.uploadFlush w p) :=
  rfl
theorem OpcodeOf.uploadFlushDone (p : PartId) : OpcodeOf.Statement (.uploadFlushDone p) :=
  rfl
theorem OpcodeOf.linkFlit (n : LinkId) (dir : Bool) (ok : Bool) (lane : Fin 1056) :
    OpcodeOf.Statement (.linkFlit n dir ok lane) := rfl
theorem OpcodeOf.linkRetrainDone (n : LinkId) (dir : Bool) : OpcodeOf.Statement (.linkRetrainDone n dir) :=
  rfl
theorem OpcodeOf.laneSpare (n : LinkId) (dir : Bool) : OpcodeOf.Statement (.laneSpare n dir) :=
  rfl
theorem OpcodeOf.lateTransitArrival (q : QuireId) (credit : Bool) (n : BitVec 16) (cause : LateCause) (upset : Word) :
    OpcodeOf.Statement (.lateTransitArrival q credit n cause upset) := rfl
theorem OpcodeOf.mapSwitch (p : PartId) (m : List (Option TileId)) (spare : Option TileId) :
    OpcodeOf.Statement (.mapSwitch p m spare) := rfl
theorem OpcodeOf.spineReset (t : ResetTarget) (drop : Option Hop) : OpcodeOf.Statement (.spineReset t drop) :=
  rfl
theorem OpcodeOf.spineMapset (p : PartId) (stop : Fin 42) (drop : Option Hop) :
    OpcodeOf.Statement (.spineMapset p stop drop) := rfl
theorem OpcodeOf.spineDoorbell (mailbox : Fin 5) (bit : Fin 32) (ld : LdId) (drop : Option Hop) :
    OpcodeOf.Statement (.spineDoorbell mailbox bit ld drop) := rfl
theorem OpcodeOf.spineEvent (k : Fin 38) (drop : Option Hop) : OpcodeOf.Statement (.spineEvent k drop) :=
  rfl
theorem OpcodeOf.regRd (w : Writer) (r : RegAt) (way : RegWay) : OpcodeOf.Statement (.regRd w r way) :=
  rfl
theorem OpcodeOf.regWr (w : Writer) (r : RegAt) (v : Word) (way : RegWay) :
    OpcodeOf.Statement (.regWr w r v way) := rfl
theorem OpcodeOf.regData (w : Writer) (addr : BitVec 28) (drop : Option Hop) :
    OpcodeOf.Statement (.regData w addr drop) := rfl
theorem OpcodeOf.loadBegin (u : StId) (drop : Option Hop) : OpcodeOf.Statement (.loadBegin u drop) :=
  rfl
theorem OpcodeOf.loadData (p : PartId) (quires : BitVec 8) (stitchers : BitVec 64) (space : Fin 3) (chunk : Fin 512) (drops : List (Fin 36)) (hubDrops : List (Fin 6)) (flip : BitVec 256) (flipped : BitVec 8) :
    OpcodeOf.Statement (.loadData p quires stitchers space chunk drops hubDrops flip flipped) := rfl
theorem OpcodeOf.loadEnd (p : PartId) (drops : List (Fin 36)) (hubDrops : List (Fin 6)) :
    OpcodeOf.Statement (.loadEnd p drops hubDrops) := rfl
theorem OpcodeOf.loadStat (u : StId) (drop : Option Hop) : OpcodeOf.Statement (.loadStat u drop) :=
  rfl
theorem OpcodeOf.loadAnswerTimeout (u : StId) : OpcodeOf.Statement (.loadAnswerTimeout u) :=
  rfl
theorem OpcodeOf.spineAsleep (stop : Fin 42) (cls : Fin 5) (seq : Byte) (drop : Option Hop) :
    OpcodeOf.Statement (.spineAsleep stop cls seq drop) := rfl
theorem OpcodeOf.spineAck (stop : Fin 42) (cls : Fin 5) (seq : Byte) :
    OpcodeOf.Statement (.spineAck stop cls seq) := rfl
theorem OpcodeOf.spineAckTimeout (stop : Fin 42) (cls : Fin 5) (seq : Byte) :
    OpcodeOf.Statement (.spineAckTimeout stop cls seq) := rfl
theorem OpcodeOf.halfClockUp (w : Writer) (h : Half) : OpcodeOf.Statement (.halfClockUp w h) :=
  rfl
theorem OpcodeOf.halfRetention (w : Writer) (h : Half) : OpcodeOf.Statement (.halfRetention w h) :=
  rfl
theorem OpcodeOf.halfStop (w : Writer) (h : Half) : OpcodeOf.Statement (.halfStop w h) :=
  rfl
theorem OpcodeOf.halfClockUpDone (h : Half) : OpcodeOf.Statement (.halfClockUpDone h) :=
  rfl
theorem OpcodeOf.inboxLineWrite (ld : LdId) (p : PartId) (off : BitVec 20) (bytes : List Byte) (poison : Bool) :
    OpcodeOf.Statement (.inboxLineWrite ld p off bytes poison) := rfl
theorem OpcodeOf.inboxStale (p : PartId) (r : Fin 4) : OpcodeOf.Statement (.inboxStale p r) :=
  rfl
theorem OpcodeOf.inboxSkip (w : Writer) (p : PartId) (r : Fin 4) : OpcodeOf.Statement (.inboxSkip w p r) :=
  rfl
theorem OpcodeOf.inboxReset (w : Writer) (p : PartId) (r : Fin 4) : OpcodeOf.Statement (.inboxReset w p r) :=
  rfl
theorem OpcodeOf.landingCopy (p : PartId) (r : Fin 4) : OpcodeOf.Statement (.landingCopy p r) :=
  rfl
theorem OpcodeOf.intakeTokenRelease (p : PartId) (r : Fin 4) : OpcodeOf.Statement (.intakeTokenRelease p r) :=
  rfl
theorem OpcodeOf.forwardedWrite (q : QuireId) : OpcodeOf.Statement (.forwardedWrite q) :=
  rfl
theorem OpcodeOf.resultAckWrite (ld : LdId) (p : PartId) (k : Fin 32) (v : DWord) :
    OpcodeOf.Statement (.resultAckWrite ld p k v) := rfl
theorem OpcodeOf.hostRead (ld : LdId) (at_ : HostLine) : OpcodeOf.Statement (.hostRead ld at_) :=
  rfl
theorem OpcodeOf.hostWriteOther (ld : LdId) (at_ : HostAt) (bytes : List Byte) (poison : Bool) :
    OpcodeOf.Statement (.hostWriteOther ld at_ bytes poison) := rfl
theorem OpcodeOf.cxlIdeFail (stream : Byte) (protocol : Fin 2) : OpcodeOf.Statement (.cxlIdeFail stream protocol) :=
  rfl
theorem OpcodeOf.setOwnerLd (ld : LdId) : OpcodeOf.Statement (.setOwnerLd ld) :=
  rfl
theorem OpcodeOf.functionLevelReset (ld : LdId) : OpcodeOf.Statement (.functionLevelReset ld) :=
  rfl
theorem OpcodeOf.noticeRecordWrite (ld : LdId) (off : BitVec 12) (bytes : List Byte) (poison : Bool) :
    OpcodeOf.Statement (.noticeRecordWrite ld off bytes poison) := rfl
theorem OpcodeOf.doorbellStrike (p : PartId) : OpcodeOf.Statement (.doorbellStrike p) :=
  rfl
theorem OpcodeOf.doorbellProgramLoad (p : PartId) (image : Image) : OpcodeOf.Statement (.doorbellProgramLoad p image) :=
  rfl
theorem OpcodeOf.doorbellReconfiguration (p : PartId) (quires : BitVec 8) (l : List EntryWrite) :
    OpcodeOf.Statement (.doorbellReconfiguration p quires l) := rfl
theorem OpcodeOf.doorbellHold (p : PartId) : OpcodeOf.Statement (.doorbellHold p) :=
  rfl
theorem OpcodeOf.doorbellRelease (p : PartId) : OpcodeOf.Statement (.doorbellRelease p) :=
  rfl
theorem OpcodeOf.doorbellReserved (p : PartId) (bit : Fin 3) : OpcodeOf.Statement (.doorbellReserved p bit) :=
  rfl
theorem OpcodeOf.doorbellInject (p : PartId) (i : Fin 24) : OpcodeOf.Statement (.doorbellInject p i) :=
  rfl
theorem OpcodeOf.injectedTokenRelease (p : PartId) : OpcodeOf.Statement (.injectedTokenRelease p) :=
  rfl
theorem OpcodeOf.mbMaskWrite (w : Writer) (p : PartId) (v : Word) : OpcodeOf.Statement (.mbMaskWrite w p v) :=
  rfl
theorem OpcodeOf.completionWrite (ld : LdId) : OpcodeOf.Statement (.completionWrite ld) :=
  rfl
theorem OpcodeOf.cqConsumerWrite (ld : LdId) (v : DWord) : OpcodeOf.Statement (.cqConsumerWrite ld v) :=
  rfl
theorem OpcodeOf.bind (ld : LdId) (p : PartId) (target : LdId) :
    OpcodeOf.Statement (.bind ld p target) := rfl
theorem OpcodeOf.unbind (ld : LdId) (p : PartId) : OpcodeOf.Statement (.unbind ld p) :=
  rfl
theorem OpcodeOf.retain (ld : LdId) (p : PartId) (v : Bool) : OpcodeOf.Statement (.retain ld p v) :=
  rfl
theorem OpcodeOf.budget (ld : LdId) (p : PartId) (w : Word) : OpcodeOf.Statement (.budget ld p w) :=
  rfl
theorem OpcodeOf.fwUpdate (ld : LdId) (off : BitVec 16) (n : BitVec 16) (at_ : BitVec 20) :
    OpcodeOf.Statement (.fwUpdate ld off n at_) := rfl
theorem OpcodeOf.fwActivate (ld : LdId) (bad : Option (Fin 256)) (version : BitVec 16) (digest : List Byte) :
    OpcodeOf.Statement (.fwActivate ld bad version digest) := rfl
theorem OpcodeOf.licence (ld : LdId) (off : BitVec 16) : OpcodeOf.Statement (.licence ld off) :=
  rfl
theorem OpcodeOf.testDeviceShutdown (ld : LdId) : OpcodeOf.Statement (.testDeviceShutdown ld) :=
  rfl
theorem OpcodeOf.testDeviceService (ld : LdId) : OpcodeOf.Statement (.testDeviceService ld) :=
  rfl
theorem OpcodeOf.resetDevice (ld : LdId) : OpcodeOf.Statement (.resetDevice ld) :=
  rfl
theorem OpcodeOf.ackWithdrawn (ld : LdId) : OpcodeOf.Statement (.ackWithdrawn ld) :=
  rfl
theorem OpcodeOf.resetPartition (ld : LdId) (p : PartId) : OpcodeOf.Statement (.resetPartition ld p) :=
  rfl
theorem OpcodeOf.testQuire (ld : LdId) (q : QuireId) : OpcodeOf.Statement (.testQuire ld q) :=
  rfl
theorem OpcodeOf.dcLend (ld : LdId) (target : LdId) (p : PartId) (slot : Fin 4096) (pma : BitVec 38) :
    OpcodeOf.Statement (.dcLend ld target p slot pma) := rfl
theorem OpcodeOf.dcRecall (ld : LdId) (target : LdId) (slot : Fin 4096) :
    OpcodeOf.Statement (.dcRecall ld target slot) := rfl
theorem OpcodeOf.dcRecallTimeout (ld : LdId) (slot : Fin 4096) : OpcodeOf.Statement (.dcRecallTimeout ld slot) :=
  rfl
theorem OpcodeOf.attest (ld : LdId) (nonce : BitVec 256) (via : Option (BitVec 16)) :
    OpcodeOf.Statement (.attest ld nonce via) := rfl
theorem OpcodeOf.attestGatherEnd : OpcodeOf.Statement .attestGatherEnd :=
  rfl
theorem OpcodeOf.colophonRead (ld : LdId) (sec : BitVec 16) (off : DWord) (n : Word) (dst : Word) (bad : Bool) :
    OpcodeOf.Statement (.colophonRead ld sec off n dst bad) := rfl
theorem OpcodeOf.mdGo (w : Writer) (p : PartId) : OpcodeOf.Statement (.mdGo w p) :=
  rfl
theorem OpcodeOf.mdRunEnd (p : PartId) : OpcodeOf.Statement (.mdRunEnd p) :=
  rfl
theorem OpcodeOf.marginRead (droop : List Nat) (slack : List Nat) (press : List Nat) (issue : List Nat) :
    OpcodeOf.Statement (.marginRead droop slack press issue) := rfl
theorem OpcodeOf.monitorTrip (tile : TileId) (m : Fin 4) (droop : Byte) (slack : Byte) :
    OpcodeOf.Statement (.monitorTrip tile m droop slack) := rfl
theorem OpcodeOf.monitorClear (tile : TileId) (m : Fin 4) : OpcodeOf.Statement (.monitorClear tile m) :=
  rfl
theorem OpcodeOf.clockMonitorWindow (h : Half) (kHz : BitVec 32) : OpcodeOf.Statement (.clockMonitorWindow h kHz) :=
  rfl
theorem OpcodeOf.clockRelockRelease (h : Half) : OpcodeOf.Statement (.clockRelockRelease h) :=
  rfl
theorem OpcodeOf.stewardJudgement : OpcodeOf.Statement .stewardJudgement :=
  rfl
theorem OpcodeOf.restrictionLift (i : Fin 16) : OpcodeOf.Statement (.restrictionLift i) :=
  rfl
theorem OpcodeOf.partitionReset (p : PartId) (i : ResetInput) : OpcodeOf.Statement (.partitionReset p i) :=
  rfl
theorem OpcodeOf.quireResetEnd (q : QuireId) : OpcodeOf.Statement (.quireResetEnd q) :=
  rfl
theorem OpcodeOf.tilePowerCycleEnd (q : QuireId) : OpcodeOf.Statement (.tilePowerCycleEnd q) :=
  rfl
theorem OpcodeOf.resetHang (h : HangOf) : OpcodeOf.Statement (.resetHang h) :=
  rfl
theorem OpcodeOf.deviceReset (i : TrainInput) : OpcodeOf.Statement (.deviceReset i) :=
  rfl
theorem OpcodeOf.wipeDone (p : PartId) : OpcodeOf.Statement (.wipeDone p) :=
  rfl
theorem OpcodeOf.rotationDue (p : PartId) : OpcodeOf.Statement (.rotationDue p) :=
  rfl
theorem OpcodeOf.rotationSwitch (p : PartId) (drain : BitVec 14) (crc : Bool) :
    OpcodeOf.Statement (.rotationSwitch p drain crc) := rfl
theorem OpcodeOf.rotationAbandonTimeout (p : PartId) : OpcodeOf.Statement (.rotationAbandonTimeout p) :=
  rfl
theorem OpcodeOf.testRunStart (keys : Bool) : OpcodeOf.Statement (.testRunStart keys) :=
  rfl
theorem OpcodeOf.testRunEnd (unit : Fin 37) (sig : BitVec 128) (raise : Fin 6) (slack : BitVec 6) (bad : List (Fin 264192)) :
    OpcodeOf.Statement (.testRunEnd unit sig raise slack bad) := rfl
theorem OpcodeOf.btHoldoffWrite (w : Writer) (p : PartId) (minutes : Byte) :
    OpcodeOf.Statement (.btHoldoffWrite w p minutes) := rfl
theorem OpcodeOf.btWindowWrite (w : Writer) (p : PartId) (ms : BitVec 16) :
    OpcodeOf.Statement (.btWindowWrite w p ms) := rfl
theorem OpcodeOf.testWindowEnd (p : PartId) : OpcodeOf.Statement (.testWindowEnd p) :=
  rfl
theorem OpcodeOf.powerOn (i : BootInput) : OpcodeOf.Statement (.powerOn i) :=
  rfl
theorem OpcodeOf.perstAssert : OpcodeOf.Statement .perstAssert :=
  rfl
theorem OpcodeOf.perstRelease (i : TrainInput) : OpcodeOf.Statement (.perstRelease i) :=
  rfl
theorem OpcodeOf.recoveryImageBlock (bytes : List Byte) (crc : Word) (last : Option BootInput) :
    OpcodeOf.Statement (.recoveryImageBlock bytes crc last) := rfl
theorem OpcodeOf.smbusCommand (r : SmbusReq) : OpcodeOf.Statement (.smbusCommand r) :=
  rfl
theorem OpcodeOf.inputSample (mv : BitVec 16) (ca : BitVec 16) : OpcodeOf.Statement (.inputSample mv ca) :=
  rfl
theorem OpcodeOf.powerSample (fast : List Nat) (slow : List Nat) (input : Nat) :
    OpcodeOf.Statement (.powerSample fast slow input) := rfl
theorem OpcodeOf.pwBudgetWrite (w : Writer) (p : PartId) (v : Word) : OpcodeOf.Statement (.pwBudgetWrite w p v) :=
  rfl
theorem OpcodeOf.pwClkWrite (w : Writer) (v : Word) : OpcodeOf.Statement (.pwClkWrite w v) :=
  rfl
theorem OpcodeOf.hbTickIoWrite (w : Writer) (v : Word) : OpcodeOf.Statement (.hbTickIoWrite w v) :=
  rfl
theorem OpcodeOf.floodUpdate (k : Fin 38) : OpcodeOf.Statement (.floodUpdate k) :=
  rfl
theorem OpcodeOf.stagingDrain (p : PartId) : OpcodeOf.Statement (.stagingDrain p) :=
  rfl
theorem OpcodeOf.colophonCopy (fail : Bool) : OpcodeOf.Statement (.colophonCopy fail) :=
  rfl
theorem OpcodeOf.colophonFlush (wear : Fin 101) (fail : Bool) : OpcodeOf.Statement (.colophonFlush wear fail) :=
  rfl
theorem OpcodeOf.triggerTableWrite (w : Writer) (reg : Fin 11) (v : Word) : OpcodeOf.Statement (.triggerTableWrite w reg v) :=
  rfl
theorem OpcodeOf.registerWrite (w : Writer) (r : RegAt) (v : Word) : OpcodeOf.Statement (.registerWrite w r v) :=
  rfl
theorem OpcodeOf.frameClose (p : PartId) : OpcodeOf.Statement (.frameClose p) :=
  rfl
theorem OpcodeOf.halfClockDownDone (h : Half) : OpcodeOf.Statement (.halfClockDownDone h) :=
  rfl
theorem OpcodeOf.illegalInstruction (u : StId) : OpcodeOf.Statement (.illegalInstruction u) :=
  rfl
theorem OpcodeOf.cxlLinkRetrain (t : LinkUp) : OpcodeOf.Statement (.cxlLinkRetrain t) :=
  rfl
theorem OpcodeOf.ideKeysProgrammed : OpcodeOf.Statement .ideKeysProgrammed :=
  rfl
theorem OpcodeOf.dcExtentResponse (ld : LdId) (slot : Fin 4096) (accept : Bool) :
    OpcodeOf.Statement (.dcExtentResponse ld slot accept) := rfl
theorem OpcodeOf.backInvalidateResponse (ld : LdId) (line : BitVec 35) (data : Option (BitVec 512)) :
    OpcodeOf.Statement (.backInvalidateResponse ld line data) := rfl

end Sys2Proof.Laws
end

