-- ==== Sys2Proof/Laws/Time.lean ====
section
/-! SUPPORT. What the passage of time can change: the device's time, the count of free values, and of each partition its
cycle and the rest of it; and what a write that is handed to the write buffer can change. -/

namespace Sys2Proof.Machine

/-- The state without what time changes. -/
def State.butTime (s : State) : State := { s with now := 0, parts := [], freeCount := 0 }

/-- A partition without its clock. -/
def Part.butClock (x : Part) : Part := { x with cyc := 0, sub := 0 }

theorem State.advPart_rest (s : State) (n : Nat) (p : PartId) : (s.advPart n p).butTime = s.butTime := by
  unfold State.advPart
  dsimp only
  split <;> rfl

theorem State.advPart_part (s : State) (n : Nat) (p r : PartId) : ((s.advPart n p).part r).butClock = (s.part r).butClock := by
  unfold State.advPart
  dsimp only
  split
  · rfl
  · by_cases h : r = p
    · subst h
      rw [State.part_updPart_same]
      rfl
    · rw [State.part_updPart_ne _ _ h]

/-- Time moves the clocks and the count of free values alone. -/
@[simp] theorem State.advance_rest (s : State) (n : Nat) : (s.advance n).butTime = s.butTime := by
  have h := State.foldl_rest State.butTime (fun t p => t.advPart n p) (fun t p => t.advPart_rest n p) allParts
    { s with now := s.now + n }
  exact h

theorem State.advance_part (s : State) (n : Nat) (r : PartId) : ((s.advance n).part r).butClock = (s.part r).butClock :=
  State.foldl_rest (fun t => (t.part r).butClock) (fun t p => t.advPart n p) (fun t p => t.advPart_part n p r) allParts
    { s with now := s.now + n }

@[simp] theorem State.waitNs_rest (s : State) (t : Nat) : (s.waitNs t).butTime = s.butTime := by
  unfold State.waitNs
  split
  · rfl
  · exact s.advance_rest _

theorem State.waitNs_part (s : State) (t : Nat) (r : PartId) : ((s.waitNs t).part r).butClock = (s.part r).butClock := by
  unfold State.waitNs
  split
  · rfl
  · exact s.advance_part _ r

@[simp] theorem State.waitCycle_rest (s : State) (p : PartId) (c : Nat) : (s.waitCycle p c).butTime = s.butTime := by
  unfold State.waitCycle
  dsimp only
  split
  · rfl
  · exact s.advance_rest _

theorem State.waitCycle_part (s : State) (p r : PartId) (c : Nat) : ((s.waitCycle p c).part r).butClock = (s.part r).butClock := by
  unfold State.waitCycle
  dsimp only
  split
  · rfl
  · by_cases h : r = p
    · subst h
      rw [State.part_updPart_same]
      exact s.advance_part _ r
    · rw [State.part_updPart_ne _ _ h]
      exact s.advance_part _ r

/-- A wait for a time that has come is none. -/
theorem State.waitNs_of_le (s : State) {t : Nat} (h : t ≤ s.ns) : s.waitNs t = s := if_pos h

theorem State.waitCycle_of_le (s : State) {p : PartId} {c : Nat} (h : c ≤ (s.part p).cyc) : s.waitCycle p c = s :=
  if_pos (Or.inl h)

/-! What states that agree but for time have in common. -/

theorem State.regs_of_butTime {s t : State} (h : t.butTime = s.butTime) : t.regs = s.regs := (congrArg State.regs h :)
theorem State.quires_of_butTime {s t : State} (h : t.butTime = s.butTime) : t.quires = s.quires := (congrArg State.quires h :)
theorem State.stitchers_of_butTime {s t : State} (h : t.butTime = s.butTime) : t.stitchers = s.stitchers :=
  (congrArg State.stitchers h :)
theorem State.mem_of_butTime {s t : State} (h : t.butTime = s.butTime) : t.mem = s.mem := (congrArg State.mem h :)
theorem State.ctlPage_of_butTime {s t : State} (h : t.butTime = s.butTime) : t.ctlPage = s.ctlPage :=
  (congrArg State.ctlPage h :)
theorem State.cmdArea_of_butTime {s t : State} (h : t.butTime = s.butTime) : t.cmdArea = s.cmdArea :=
  (congrArg State.cmdArea h :)
theorem State.pending_of_butTime {s t : State} (h : t.butTime = s.butTime) : t.pending = s.pending :=
  (congrArg State.pending h :)
theorem State.stew_of_butTime {s t : State} (h : t.butTime = s.butTime) : t.stew = s.stew := (congrArg State.stew h :)
theorem State.srcs_of_butTime {s t : State} (h : t.butTime = s.butTime) : t.srcs = s.srcs := (congrArg State.srcs h :)
theorem State.notices_of_butTime {s t : State} (h : t.butTime = s.butTime) : t.notices = s.notices :=
  (congrArg State.notices h :)
theorem State.spine_of_butTime {s t : State} (h : t.butTime = s.butTime) : t.spine = s.spine := (congrArg State.spine h :)
theorem State.flights_of_butTime {s t : State} (h : t.butTime = s.butTime) : t.flights = s.flights :=
  (congrArg State.flights h :)

/-! The write buffer. -/

/-- The state without its quires and its registers. -/
def State.butQuires (s : State) : State := { s with quires := [], regs := [] }

@[simp] theorem State.setQu_butQuires (s : State) (q : QuireId) (x : Quire) : (s.setQu q x).butQuires = s.butQuires := (rfl)
@[simp] theorem State.setF_butQuires (s : State) (b : Nat) (g : Fld) (v : Nat) : (s.setF b g v).butQuires = s.butQuires := (rfl)

/-- A register write leaves every quire as it is. -/
@[simp] theorem State.setF_qu (s : State) (b : Nat) (g : Fld) (v : Nat) (q : QuireId) : (s.setF b g v).qu q = s.qu q := (rfl)

/-- A quire without its write buffer. -/
def Quire.butBuffer (x : Quire) : Quire := { x with wbuf := [], wwait := [] }

/-- A write handed to a quire's write buffer changes that buffer, its withheld part and its peak count. -/
theorem State.holdWrite_rest (s : State) (q : QuireId) (w : HeldWrite) : (s.holdWrite q w).butQuires = s.butQuires := by
  unfold State.holdWrite
  apply State.foldl_rest State.butQuires
  intro t v
  dsimp only
  split
  · rw [State.setF_butQuires, State.setQu_butQuires]
  · rw [State.setQu_butQuires]

theorem State.holdWrite_qu (s : State) (q r : QuireId) (w : HeldWrite) :
    ((s.holdWrite q w).qu r).butBuffer = (s.qu r).butBuffer := by
  unfold State.holdWrite
  apply State.foldl_rest (fun t => (t.qu r).butBuffer)
  intro t v
  dsimp only
  by_cases h : r = q
  · subst h
    split
    · rw [State.setF_qu, State.qu_setQu_same]; rfl
    · rw [State.qu_setQu_same]; rfl
  · split
    · rw [State.setF_qu, State.qu_setQu_ne _ _ h]
    · rw [State.qu_setQu_ne _ _ h]

end Sys2Proof.Machine
end

