-- ==== Sys2Proof/Tests/Slice0.lean ====
section
/-! SUPPORT. The tests of the model: ill-formed commands, words written out from the spec's encodings, values of the spec's
worked examples, and for every statement with hypotheses states and operands that meet them. -/

set_option maxRecDepth 10000
set_option Elab.async false

namespace Sys2Proof.Tests

open Sys2Proof Sys2Proof.Machine

/-- The units of the tests: stitcher 3 of local quire 1 of PT1. -/
def u1 : StId := ⟨9, 3⟩

/-- A stitcher with some registers set: s1 and s2 name pocket addresses 64 and lengths. -/
def x1 : Stitcher :=
  { Stitcher.init with
    sreg := [(1, 64), (2, 128), (3, 0x80000003), (4, 7), (5, 0x3F800000), (6, 0xC0490FDB), (8, 0xFFFFFFFF), (9, 0x7FFFFFFF)],
    vreg := [(1, 0x40000000C00000003F800000FF80017F020304050607), (2, 0x3F8000003F80000000000001000000027FFFFFFF01), (3, 9)],
    preg := [(1, 0x11), (2, 0), (3, 0xFFFFFFFFFFFFFFFE)], pocket := memWrite [] 64 [0xF1, 0x82, 0x03, 0x84, 0x05] }

/-- Stitcher `u1` in a firing with `i` as its next instruction, in the state `s`. -/
def fireIn (s : State) (x : Stitcher) (i : Instr) : State :=
  ((s.setF (sb u1) F.ST_STATUS_used 1).setF (sb u1) F.ST_STATUS_sealed 1).setSt u1
    { x with firing := some ⟨2, 7⟩, prog := spSet 0 [] 0 ((encode i).getD 0) }

def fire (i : Instr) : State := fireIn .reset x1 i

/-- The first map of PT1: the tiles of its eight quires. -/
def tiles1 : List (BitVec 32) := [3, 4, 5, 9, 11, 15, 16, 17]

/-- The device with power, Clearason running, every partition enabled, PT1 with its first map, its copies and the spare 10,
bound to LD 1. -/
def on : State :=
  let s : State := { State.reset with
    stew := { Steward.init with running := true, die := true }, mapCopies := (List.range 42).map (fun i => (4 * i + 1, tiles1 ++ [10])) }
  tiles1.zipIdx.foldl (fun s e => s.wr (pt 1) (R.MS_MAP.nth e.2) e.1)
    ((((s.setF hub F.LC_FEATURES_parts 15).setF hub (F.CX_LD_BIND_parts.nth 1) 2).setF hub (F.CX_LD_BIND_present.nth 1) 1).wr
      (pt 1) R.MS_SPARE 10)

def q1 (f : Quire → Quire) (s : State) : State := s.updQu 9 f
def p1 (f : Part → Part) (s : State) : State := s.updPart 1 f
def pf (f : Fld) (v : Nat) (s : State) : State := s.setF (pt 1) f v
def qf (f : Fld) (v : Nat) (s : State) : State := s.setF (qb 9) f v
def hf (f : Fld) (v : Nat) (s : State) : State := s.setF hub f v

/-- Channel entry 3 of quire 9: valid for stitcher 3, to queue 2 or port 2 of stitcher 5 of local quire 0, with so much credit. -/
def route (landing held : Nat) (s : State) : State :=
  let b := eb 9 3
  ((((((s.setF b F.CH_ROUTE_A_valid 1).setF b F.CH_ROUTE_A_landing landing).setF b F.CH_ROUTE_A_src 3).setF b
    F.CH_ROUTE_A_stitcher 5).setF b F.CH_ROUTE_A_target 2).setF b F.CH_ROUTE_C_grant 16).setF b F.CH_ROUTE_D_held held

/-- Ring 2 of quire 9, valid, read by stitcher 3, with 8 units written. -/
def ring2 (s : State) : State :=
  let b := rb_ 9 2
  ((s.setF b F.CH_RING_CFG_valid 1).setF b F.CH_RING_CFG_reader 3).setF b F.CH_RING_WP_wp 8

/-- `x1` with a queue of two words. -/
def x2 : Stitcher := { x1 with queues := [(1, [⟨0x1122334455667788, 9, 3, 0⟩, ⟨7, 9, 3, 4⟩])] }

/-- PT1 running, its tick counter at 5, its frames of 100 cycles with a budget of 50. -/
def run1 (s : State) : State := pf F.TK_BUDGET_run_budget 50 (pf F.TK_STATUS_running 1 (pf F.TK_CTRL_run 1 s))

/-- A frame of PT1 is open since cycle 100, its cycle count at `c`; quire 9's tick 5 is open from cycle 114 on. -/
def frame (c : Nat) (s : State) : State :=
  (q1 (fun x => { x with open_ := true, start := 114, tick := 5 })
    (p1 (fun x => { x with frameOpen := true, struck := true, strokeAt := 100, cyc := c, strokeMask := 0xFF, waitMask := 0xFF }) (run1 s))).wr
      (pt 1) R.TK_COUNT_LO 5

/-- Stitcher `u1` used and sealed, with port 2 in slot 0 of handler 1, entry point 0x40, and so many credits. -/
def ported (credits : Nat) (s : State) : State :=
  let b := sb u1
  (((((((s.setF b F.ST_STATUS_used 1).setF b F.ST_STATUS_sealed 1).setF b (portFld F.ST_PORT_valid 2) 1).setF b
    (portFld F.ST_PORT_handler 2) 1).setF b (portFld F.ST_PORT_credits 2) credits).setF b (F.ST_HANDLER_entry.nth 1) 0x40).setF b
      (F.ST_HANDLER_valid.nth 1) 1)

/-- The bits of a token as its destination takes it. -/
def tokBits (k : Tok) : BitVec 96 := BitVec.ofNat 96 (k.body + (tokenCheck k.body 3 9).toNat * 2 ^ 84)

def tok1 : Tok := ⟨0x1122334455667788, 9, 2, 0, false, 0⟩
def wait1 : Waiting := ⟨0x1122334455667788, 9, 2, false, 4, .internal⟩

/-- A press descriptor: INT8 by INT8 into INT32, one row of 32, 64 columns, output to the leaf at 0x40000. -/
def desc1 (oBase : Nat) : PDesc :=
  { bytes := leBytes 4 0x000788 ++ leBytes 2 0x0100 ++ leBytes 2 1 ++ leBytes 2 1 ++ leBytes 6 0 ++ leBytes 4 0x10000 ++ leBytes 4 0 ++
      leBytes 4 0x20000 ++ leBytes 4 0x30000 ++ leBytes 12 0 ++ leBytes 4 oBase ++ leBytes 4 0x50000 ++ leBytes 12 0,
    addr := 64, leaf := false, sender := 3, enterAt := 0 }

/-- The run of `desc1` before its first tile. -/
def prun1 : PRun :=
  { desc := desc1 0x40000, tile := 0, withheld := false, status := 0, wrap := false, acts := [List.replicate 32 2],
    scales := [[]], codes := [none], out := [], deliver := [], delivered := 0, readAt := 4, writeAt := 0, sendAt := 0, frozeAt := 0,
    floor := 0, trnBad := false, waiting := false, streamed := 0 }

def pa1 (f : Press → Press) (s : State) : State := q1 (fun x => { x with pa := f x.pa }) s

def vote1 : Vote :=
  { press := false, tile := 0, at_ := 9, accs := List.replicate 64 0, outs := [List.replicate 256 0], checks := [0], started := false,
    acts := [List.replicate 32 0], scales := [[]], startAt := 0, span := 0 }

def flight1 : Flight :=
  { src := 9, entry := 3, sender := 3, dst := 8, st := 5, landing := .token 2 9 false 7, epoch := 0, span := false, relPos := 30,
    arrive := 30, code := 0, sentAt := 4 }

def held1 (addr n : Nat) : HeldWrite :=
  { addr := addr, bytes := (List.range n).map (BitVec.ofNat 8), writer := 0x1000, poison := 0, marked := false, page := none }

/-- A fill of 64 bytes at `dst` with the pattern 0x04030201. -/
def fill1 (dst : Nat) : LeafOp :=
  { bytes := leBytes 4 0 ++ leBytes 4 dst ++ leBytes 4 0x04030201 ++ leBytes 4 64 ++ leBytes 48 0, op := 0, sender := 3, addr := 64,
    at_ := 4, running := false, refused := false, poison := false, doneAt := 0 }

/-- A flight to quire 9, and a credit on its way to it. -/
def in1 : Flight := { flight1 with src := 8, dst := 9, st := 3, relPos := 12, arrive := 10 }
def credit1 : CreditFlight := ⟨9, 3, 2, 0, 8, 30, 30⟩

/-- An entry of the pager for quire 9: page 2 of table 0, due at position 40 of tick 5. -/
def hint1 (phase : HintPhase) (out : Bool) : Hint :=
  { id := 7, owner := 9, sender := 3, quire := 9, word := 2 + (if out then 2 ^ 30 else 0), tag := 1, index := 0, dueTick := 5, duePos := 40,
    phase := phase, status := 0, pma := 0x3000, code := 0x8008, size := 256, land_ := 0x2000,
    data := (if out then [1, 2, 3] else []), moved := 256, bad := [], arrive := 150, quiet := false, freed := false, waited := false, sentAt := 4,
    accepted := 110 }

def hints1 (l : List Hint) (s : State) : State := p1 (fun x => { x with hints := l }) s
def therm1 (f : Thermal → Thermal) (s : State) : State := { s with thermal := spSet .init s.thermal 1 (f .init) }

/-- A notice delivered to PT1's sequencer by LD 1, and one delivered to the steward by the owner. -/
def note1 (bit : Nat) : Notice := ⟨1, 2, bit, 0x10000, 77, false, 3, .delivered⟩
def cmd1 : Notice := ⟨0, 0, 0, 0x10000, 77, false, 3, .delivered⟩
def notes (l : List Notice) (s : State) : State := { s with notices := l }

/-- A state in which `cmd1` names a command block with an opcode. -/
def cmd (op : Nat) (s : State) : State := { notes [cmd1] s with cmdArea := memWrite s.cmdArea 0 (leBytes 2 op) }

def msg1 (opcode dest cls arg : Nat) : SpMsg :=
  { part := some 1, stop := 9, dest := dest, cls := cls, opcode := opcode, seq := 6, sentAt := 0, again := false, arg := arg, data := 0x55,
    lost := false, got := false, held := false, wake := false }
def spine (l : List SpMsg) (s : State) : State := { s with spine := l }

/-- An image of stitcher `u1` and another one, 64 program bytes and 40 pocket bytes each. -/
def stim (u : StId) : StImage :=
  { u := u, prog := (List.range 64).map (BitVec.ofNat 8), pocket := (List.range 40).map (fun k => BitVec.ofNat 8 (k + 7)),
    cfg := List.replicate 160 3, crc := 0x1234 }
def image1 : Image := ⟨0x400, [20, 15, 10, 5], 2, [], [stim u1, stim ⟨9, 4⟩], [], [], []⟩
def load1 (im : Image) (waiting : List StId) : Load :=
  { image := im, waiting := waiting, deaf := [], gaps := [], faulty := 0, round := 1, endAt := 0 }
def loadOn (l : Load) (s : State) : State := p1 (fun x => { x with load := some l, holds := [.load] }) s

def extent1 (offered : Bool) : Extent := ⟨2, 1, 0x10000000, 5, offered, none, none⟩
def recov1 : Recovery := ⟨3, 0, false, false, true, 0xFF, []⟩
def rot1 : Rotation := ⟨9, 1000, 0, none, []⟩
def st (f : Steward → Steward) (s : State) : State := { s with stew := f s.stew }
def train1 : TrainInput := ⟨0, [], [], some (1, 2, false), []⟩
def boot1 : BootInput :=
  { rtc := 0, image := none, version := 0x100, imageDigest := [], copyA := none, copyB := none, store := .empty, train := train1, failed := [],
    baseline := [] }
def rec1 : EvRec := ⟨5, 0x1234, 77, 0, 1, false, false, 1, [9], false⟩
def rin : ResetInput := ⟨1000, 0, [], [], true, true⟩
def inmsg1 (copied : Bool) : InMsg := ⟨3, 40, 1, false, 500, 20, List.replicate 64 5, copied⟩

/-- Inbox ring 1 of PT1: valid, of 16 lines, its landing slots at leaf address 0x2000 of quire 2. -/
def inring (f : InRing → InRing) (s : State) : State :=
  let b := ib 1 1
  let s := ((((s.setF b F.CX_IN_CFG_valid 1).setF b F.CX_IN_CFG_size_log2 4).setF b F.CX_IN_CFG_max_lines 2).setF b
    F.CX_IN_LAND_base 2).setF b F.CX_IN_TGT_quire 2
  s.setRing 1 1 (f InRing.init)

/-- Slot 2 of PT1 valid. -/
def slot2 (s : State) : State := (s.setF (lb 1 2) F.CX_SLOT_CFG_valid 1).setF (lb 1 2) F.CX_SLOT_CFG_base 3
def fwd1 (off n : Nat) : Fwd := { slot := 2, off := off, bytes := List.replicate n 0x41, tick := 5, sentAt := 4 }

/-! An ill-formed term for each check of `Instr.wf`, which the check refuses. -/

/-- `VX` of 31 has no second register to pair (04_stitchers.md R106): the last scalar register starts no pair. -/
theorem test_wf_pairs :
    [Instr.send u1 31 0 0 0, .sendCtl u1 31 0 0 0, .trySend u1 31 0 0 0, .trySendCtl u1 31 0 0 0, .qrecv u1 31 0,
      .qrecvTry u1 31 1 0].all (fun i => !i.wf) ∧
    [Instr.send u1 30 0 0 0, .sendCtl u1 30 0 0 0, .trySend u1 30 0 0 0, .trySendCtl u1 30 0 0 0, .qrecv u1 30 0,
      .qrecvTry u1 30 1 0].all Instr.wf := by decide +kernel

theorem test_wf_vectors :
    [Instr.cvt u1 1 2 .fp32 .fp32 .rne false 0 1, .cvtBlk u1 1 15 .mxfp4 .fp32 .rne, .cvtUnblk u1 15 1 .fp32 .mxfp4 .rne].all
      (fun i => !i.wf) ∧
    [Instr.cvt u1 1 2 .fp32 .int8 .rne false 0 1, .cvtBlk u1 1 14 .mxfp4 .fp32 .rne, .cvtUnblk u1 14 1 .fp32 .mxfp4 .rne].all
      Instr.wf := by decide +kernel

/-- Samples name every sensor, and a map every place once. -/
theorem test_wf_samples :
    (Instr.tempSample [] [] 20).wf = false ∧ (Instr.powerSample [1] [1, 2, 3, 4] 0).wf = false ∧
    (Instr.marginRead [] [] [] []).wf = false ∧ mapOk 1 ((List.range 8).map (fun _ => some 9)) none = false ∧
    mapOk 1 [some 9] none = false ∧ mapOk 1 [none, none, none, none, none, none, none, some 9] (some 10) = true ∧
    mapOk 0 [none, none, none, none, none, none, none, some 9] (some 10) = false := by
  decide +kernel

/-- A write crosses no line. -/
theorem test_wf_lines :
    [Instr.uploadWrite 1 1 60 (List.replicate 5 0) false, .inboxLineWrite 1 1 0 [] false,
      .hostWriteOther 1 ⟨.window, 1⟩ (List.replicate 64 0) false, .noticeRecordWrite 1 63 [0, 0] false].all (fun i => !i.wf) ∧
    (Instr.uploadWrite 1 1 60 (List.replicate 4 0) false).wf = true := by decide +kernel

theorem test_wf_images :
    image1.wf = true ∧ Image.wf { image1 with pma := 2 ^ 32 } = false ∧
    Image.wf { image1 with watts := List.replicate 5 1 } = false ∧
    Image.wf { image1 with stitchers := [stim u1, stim u1] } = false ∧
    Image.wf { image1 with stitchers := [{ stim u1 with prog := [0, 0, 0] }] } = false ∧
    (Instr.doorbellProgramLoad 1 { image1 with shape := 256 }).wf = false := by decide +kernel

theorem test_wf_inputs :
    (Instr.powerOn boot1).wf = false ∧ (Instr.recoveryImageBlock [] 0 (some boot1)).wf = false ∧
    (Instr.recoveryImageBlock [] 0 none).wf = true ∧ (Instr.fwActivate 0 none 1 []).wf = false ∧
    (Instr.fwActivate 0 none 1 (List.replicate 32 0)).wf = true ∧ (Instr.tokenArrival u1 0 (.entry 8 256) 4).wf = false := by
  decide +kernel

/-! Words written out from the spec's encodings (04_stitchers.md Tables 4 to 6); the first eight are those of its Table 9. -/

theorem test_words_worked_program :
    decodeWord u1 0x0439C020#32 = some (.sub u1 1 25 24) ∧ decodeWord u1 0x0459C000#32 = some (.add u1 2 25 24) ∧
    decodeWord u1 0x0462D020#32 = some (.sub u1 3 2 26) ∧ decodeWord u1 0x50830700#32 = some (.cvtS u1 4 3 .fp32 .int32 .rne) ∧
    decodeWord u1 0x50A10700#32 = some (.cvtS u1 5 1 .fp32 .int32 .rne) ∧ decodeWord u1 0x2484D840#32 = some (.fmul u1 4 4 27) ∧
    decodeWord u1 0x6012E005#32 = some (.send u1 4 23 0 5) ∧ decodeWord u1 0x78200000#32 = some (.endF u1) := by
  decide +kernel

/-- One word of each opcode of Table 5, laid out by Table 4. -/
theorem test_words_families :
    decodeWord u1 0x0405334C#32 = some (.cmpLt u1 3 5 6) ∧
    decodeWord u1 0x18E01234#32 = some (.lui u1 7 0x1234) ∧
    decodeWord u1 0x1C220025#32 = some (.shri u1 1 2 5) ∧
    decodeWord u1 0x22A4FFFF#32 = some (.cmpi u1 5 .lt 4 0xFFFF) ∧
    decodeWord u1 0x24221860#32 = some (.ffma u1 1 2 3) ∧
    decodeWord u1 0x28A987FF#32 = some (.loop u1 2 true 6 0x7FF) ∧
    decodeWord u1 0x2C22D003#32 = some (.ldHs u1 1 2 .leaf 3) ∧
    decodeWord u1 0x30221007#32 = some (.stH u1 1 2 .pocket 7) ∧
    decodeWord u1 0x4048D2D3#32 = some (.vfma u1 1 2 3 4 5 true .bf16) ∧
    decodeWord u1 0x450130A3#32 = some (.vins u1 4 9 33 .int8) ∧
    decodeWord u1 0x44480004#32 = some (.vsum u1 1 2 0 false .fp32) ∧
    decodeWord u1 0x48480281#32 = some (.vrcp u1 1 2 5 false .fp32) ∧
    decodeWord u1 0x4C482138#32 = some (.cvt u1 1 2 .fp32 .int8 .rtz false 3 2) ∧
    decodeWord u1 0x4C498602#32 = some (.cvtBlk u1 1 2 .mxfp4 .bf16 .sr) ∧
    decodeWord u1 0x63844380#32 = some (.tryMsendL u1 1 2 3 0x80) ∧
    decodeWord u1 0x64240013#32 = some (.qrecvTry u1 4 2 3) ∧
    decodeWord u1 0x70040003#32 = some (.pressGo u1 4 true .leaf) ∧
    decodeWord u1 0x740110E1#32 = some (.collChk u1 1 2 3 4 .leaf) ∧
    decodeWord u1 0x78614800#32 = some (.gets u1 1 9) ∧
    decodeWord u1 0x78A11018#32 = some (.por u1 3 1 2) := by decide +kernel

/-- A reserved bit that is not zero, a function without a mnemonic, a signed store, a shift without a code. -/
theorem test_words_illegal :
    decodeWord u1 0x0405334D#32 = none ∧ decodeWord u1 0x2A000000#32 = none ∧ decodeWord u1 0x30224000#32 = none ∧ decodeWord u1 0x1C220060#32 = none := by decide +kernel

/-! Values that the spec's worked examples give. -/

/-- What a command's next state shows. -/
def after {α : Type} (o : Out) (f : State → α) : Option α :=
  match o with
  | .next t => some (f t)
  | _ => none

/-- `x1` with the registers of the worked firing (04_stitchers.md Table 10): the event's bid and ask, and the token 40,497
and 0.25. -/
def x10 : Stitcher :=
  { x1 with sreg := [(1, 3), (2, 40501), (3, 4), (4, 0x40800000), (24, 20249), (25, 20252), (26, 40497), (27, 0x3E800000)] }

theorem test_worked_integers :
    after (exec (.sub u1 1 25 24) (fireIn .reset x10 (.sub u1 1 25 24))) (fun t => (t.st u1).s 1) = some 3 ∧
    after (exec (.add u1 2 25 24) (fireIn .reset x10 (.add u1 2 25 24))) (fun t => (t.st u1).s 2) = some 40501 ∧
    after (exec (.sub u1 3 2 26) (fireIn .reset x10 (.sub u1 3 2 26))) (fun t => (t.st u1).s 3) = some 4 := by
  decide +kernel

theorem test_worked_floats :
    after (exec (.cvtS u1 4 3 .fp32 .int32 .rne) (fireIn .reset x10 (.cvtS u1 4 3 .fp32 .int32 .rne))) (fun t => (t.st u1).s 4) =
      some 0x40800000 ∧
    after (exec (.cvtS u1 5 1 .fp32 .int32 .rne) (fireIn .reset x10 (.cvtS u1 5 1 .fp32 .int32 .rne))) (fun t => (t.st u1).s 5) =
      some 0x40400000 ∧
    after (exec (.fmul u1 4 4 27) (fireIn .reset x10 (.fmul u1 4 4 27))) (fun t => (t.st u1).s 4) = some 0x3F800000 := by
  decide +kernel

/-- The MXFP4 block of 02_number_formats.md: a largest magnitude of 47 gives scale 0x82; 47, 40 and -1.1 give 7, 6, 8. -/
theorem test_mxfp4_block :
    blockScale 6 [.ofInt 47, .ofInt 40, ofFp32 0xBF8CCCCD#32] = 0x82 ∧ blockElem 6 0x82 .rne 0 (.ofInt 47) = 0x7 ∧
    blockElem 6 0x82 .rne 0 (.ofInt 40) = 0x6 ∧ blockElem 6 0x82 .rne 0 (ofFp32 0xBF8CCCCD#32) = 0x8 ∧
    blockElem 6 0x82 .rne 0 (.ofInt 63) = 0x7 := by decide +kernel

/-- The TRN group of 02_number_formats.md, Table 3: with its activations and ref = 120 it adds 284. -/
theorem test_trn_group :
    let g : List Byte := [0x58] ++ List.replicate 11 0 ++ [0x28, 0x7A]
    let a : List Int := [17, -40, 99, -3, 6] ++ List.replicate 55 0 ++ [2, -5, 10, 1]
    (trnWeights g).take 5 = [1, -1, 0, 0, 1] ∧ (List.zipWith (· * ·) (trnWeights g) a).sum = 71 ∧
    (List.zipWith (· * ·) (trnIntRow 120 g) a).sum = 284 := by decide +kernel

/-- The check of 03_presses.md: A = 2,891,777 against C = 1,843,201 fails, A = C passes. -/
theorem test_press_check :
    (desc1 0x40000).rowPasses 0 [2891777] 1843201 = false ∧ (desc1 0x40000).rowPasses 0 [1843201] 1843201 = true := by
  decide +kernel

/-- 05_leaf_store.md: address 0x0345_6A40 is in band 418, bank 181; 00_scope.md: Q13's block; 12_self_test_and_rotation.md: the
copy of 6,352 KiB. -/
theorem test_places :
    bandOf 0x03456A40 = 418 ∧ bankOf 0x03456A40 = 181 ∧ qb 13 = 0x02850000 ∧ copyCycles (6352 * 1024) = 52404 := by
  decide +kernel

/-- 15_module_power_and_signals.md: 330 W for PT0 beside 300 W for the others is refused; beside 150 W for PT3 it stands. -/
theorem test_power_budget :
    after (exec (.pwBudgetWrite (.ld 0) 0 0x14A) on) (fun t => t.f (pt 0) F.PW_BUDGET_watts) = some 300 ∧
    after (exec (.pwBudgetWrite (.ld 0) 0 0x14A) (on.setF (pt 3) F.PW_BUDGET_watts 150)) (fun t => t.f (pt 0) F.PW_BUDGET_watts) =
      some 330 := by decide +kernel

/-! For every statement with hypotheses, states and operands that meet all of them together, clause by clause. -/

theorem witness_HardwiredRegisters : ∃ (r : SReg) (q : PReg), r ≠ 0 ∧ q ≠ 0 := ⟨31, 7, by decide, by decide⟩

theorem witness_DecodeOfEncode : ∃ (i : Instr) (w : Word), i.wf = true ∧ encode i = some w :=
  ⟨.send u1 30 31 31 255, 0x607BFFFF#32, by decide +kernel, by decide +kernel⟩

theorem witness_EncodeOfDecode : ∃ (u : StId) (w : Word) (i : Instr), decodeWord u w = some i :=
  ⟨u1, 0x0439C020#32, .sub u1 1 25 24, by decide +kernel⟩

theorem witness_IdleStep :
    (∃ s : State, s.pending = []) ∧
    ∃ (i : Instr) (u : StId) (rd : SReg) (f : Stitcher → BitVec 32) (s : State),
      scalarValue i = some (u, rd, f) ∧ s.mayIssue u i = false :=
  ⟨⟨.reset, rfl⟩, .add u1 10 3 4, _, _, _, fire (.sub u1 10 3 4), rfl, by decide +kernel⟩

theorem witness_NoCommandStops : ∃ c : Instr, ∀ p, c ≠ .pagerEntryStart p := ⟨.nop u1, nofun⟩

theorem witness_QueueInvariant :
    ∃ s t : State, s.queueOk = true ∧ Sys2Proof.Machine.step s = .next t ∧ s.pending = [.perstAssert] :=
  ⟨{ State.reset with pending := [.perstAssert] }, _, by decide +kernel, rfl, rfl⟩

theorem witness_MemoryInvariant :
    ∃ s t : State, s.memOk = true ∧ Sys2Proof.Machine.step s = .next t ∧ s.mem ≠ [] :=
  ⟨{ State.reset with mem := [(64, 1)], pending := [.perstAssert] }, _, by decide +kernel, rfl, by decide⟩


/-! Each form of the statements that name several in one: the instruction, as the next of a firing, completes. -/

/-- `i` advances its stitcher in the state `s`. -/
def completes (s : State) (i : Instr) : Bool := after (exec i s) (fun t => decide ((t.st u1).pc ≠ 0)) == some true

theorem witness_scalar_forms :
    ([.add u1 10 3 4, .sub u1 10 3 4, .mul u1 10 3 4, .mulh u1 10 3 4, .mulhu u1 10 3 4, .and u1 10 3 4, .or
     u1 10 3 4, .xor u1 10 3 4, .shl u1 10 3 4, .shr u1 10 3 4, .sra u1 10 3 4, .min u1 10 3 4, .max u1 10 3
     4, .minu u1 10 3 4, .maxu u1 10 3 4, .addSat u1 10 3 4, .subSat u1 10 3 4, .sel u1 10 3 4 4, .addi u1
     10 3 0xFFFF, .andi u1 10 3 0xFFFF, .ori u1 10 3 0xFFFF, .xori u1 10 3 0xFFFF, .lui u1 10 0xFFFF, .shli
     u1 10 3 31, .shri u1 10 3 31, .srai u1 10 3 31, .fadd u1 10 3 4, .fsub u1 10 3 4, .fmul u1 10 3 4,
     .ffma u1 10 3 4, .fmin u1 10 3 4, .fmax u1 10 3 4, .fabs u1 10 3, .fneg u1 10 3, .fexp u1 10 3, .frcp
     u1 10 3, .frsqrt u1 10 3, .cmpEq u1 4 3 4, .cmpNe u1 4 3 4, .cmpLt u1 4 3 4, .cmpLe u1 4 3 4, .cmpLtu
     u1 4 3 4, .cmpLeu u1 4 3 4, .cmpi u1 4 .eq 3 0xFFFF, .fcmpEq u1 4 3 4, .fcmpLt u1 4 3 4, .fcmpLe u1 4 3
     4, .fcmpUn u1 4 3 4, .pand u1 4 3 4, .por u1 4 3 4, .pnot u1 4 3, .pany u1 4 3, .pall u1 4 3, .br u1 1
     false 0x7FE, .loop u1 1 false 10 0x7FE, .brZ u1 1 false 10 0x7FE, .brNz u1 1 false 10 0x7FE] : List Instr).all
      (fun i => (fire i).canIssue u1 i && completes (fire i) i) = true := by decide +kernel

theorem witness_vector_forms :
    ([.vadd u1 5 1 2 1 false .fp32, .vsub u1 5 1 2 1 false .fp32, .vmul u1 5 1 2 1 false .fp32, .vmin u1 5 1
     2 1 false .fp32, .vmax u1 5 1 2 1 false .fp32, .vfma u1 5 1 2 3 1 false .fp32, .vabs u1 5 1 1 false
     .fp32, .vneg u1 5 1 1 false .fp32, .vand u1 5 1 2 1 false .int8, .vor u1 5 1 2 1 false .int8, .vxor u1
     5 1 2 1 false .int8, .vshuf u1 5 1 2 1 false .fp32, .vmov u1 5 1 1 false .fp32, .vsum u1 5 1 1 false
     .fp32, .vmaxi u1 5 1 1 false .fp32, .vexp u1 5 1 1 false .fp32, .vrcp u1 5 1 1 false .fp32, .vrsqrt u1
     5 1 1 false .fp32, .vcmpEq u1 4 1 2 1 false .fp32, .vcmpLt u1 4 1 2 1 false .fp32, .vcmpLe u1 4 1 2 1
     false .fp32] : List Instr).all
      (fun i => (fire i).canIssue u1 i && completes (fire i) i) = true := by decide +kernel

theorem witness_memory_forms :
    ([.ldB u1 10 1 .pocket 0, .ldH u1 10 1 .pocket 0, .ldW u1 10 1 .pocket 0, .ldBs u1 10 1 .pocket 0, .ldHs
     u1 10 1 .pocket 0, .stB u1 10 1 .pocket 0, .stH u1 10 1 .pocket 0, .stW u1 10 1 .pocket 0, .vst u1 1 1
     .pocket 0] : List Instr).all
      (fun i => (fire i).canIssue u1 i && completes (fire i) i) = true := by decide +kernel

theorem witness_send_forms :
    ([.send u1 1 4 10 3, .sendCtl u1 1 4 10 3, .trySend u1 1 4 10 3, .trySendCtl u1 1 4 10 3] : List Instr).all
      (fun i => (route 0 2 (fire i)).canIssue u1 i && completes (route 0 2 (fire i)) i) = true ∧
    ([.msendP u1 1 1 10 3, .msendL u1 1 1 10 3, .tryMsendP u1 1 1 10 3, .tryMsendL u1 1 1 10 3] : List Instr).all
      (fun i => (route 1 8 (fire i)).canIssue u1 i && completes (route 1 8 (fire i)) i) = true := by decide +kernel

theorem witness_ScalarResults :
    (∃ (i : Instr) (u : StId) (rd : SReg) (f : Stitcher → BitVec 32) (s : State), scalarValue i = some (u, rd, f) ∧
      s.canIssue u i = true) :=
  ⟨.add u1 10 3 4, _, _, _, fire (.add u1 10 3 4), rfl, by decide +kernel⟩

theorem witness_PredicateResults :
    (∃ (i : Instr) (u : StId) (pd : PReg) (f : Stitcher → BitVec 64) (s : State), predicateValue i = some (u, pd, f)
      ∧ s.canIssue u i = true) :=
  ⟨.cmpEq u1 4 3 4, _, _, _, fire (.cmpEq u1 4 3 4), rfl, by decide +kernel⟩

theorem witness_BranchResults :
    (∃ (i : Instr) (u : StId) (off : BitVec 11) (s : State), branchOf i = some (u, off) ∧ s.canIssue u i = true ∧
      (s.st u).pc < 1024) :=
  ⟨.br u1 1 false 0x7FE, _, _, fire (.br u1 1 false 0x7FE), rfl, by decide +kernel, by decide +kernel⟩

theorem witness_LoadResults :
    (∃ (i : Instr) (u : StId) (rd : SReg) (ra : SReg) (sp : Space) (imm : BitVec 12) (n : Nat) (ext : Nat → BitVec
      32) (s : State), loadOf i = some (u, rd, ra, sp, imm, n, ext) ∧ s.canIssue u i = true ∧ loadable s u sp
      (memAddr (s.st u) ra imm n) n) ∧
    (∃ (u : StId) (vd : VReg) (ra : SReg) (sp : Space) (imm : BitVec 12) (s : State), s.canIssue u (.vld u vd ra sp
      imm) = true ∧ loadable s u sp (memAddr (s.st u) ra imm 64) 64) :=
  ⟨⟨.ldB u1 10 1 .pocket 0, _, _, _, _, _, _, _, fire (.ldB u1 10 1 .pocket 0), rfl, by decide +kernel,
     by decide +kernel⟩,
   ⟨u1, 4, 1, .pocket, 0, fire (.vld u1 4 1 .pocket 0), by decide +kernel, by decide +kernel⟩⟩

theorem witness_StoreResults :
    (∃ (i : Instr) (u : StId) (ra : SReg) (sp : Space) (imm : BitVec 12) (n : Nat) (val : Stitcher → Nat)
      (s : State), storeOf i = some (u, ra, sp, imm, n, val) ∧ s.canIssue u i = true ∧ loadable s u sp (memAddr (s.st
      u) ra imm n) n ∧ ((sp = .leaf → s.fwdFull u.quire (memAddr (s.st u) ra imm n) n = false))) :=
  ⟨.stB u1 3 1 .pocket 0, _, _, _, _, _, _, fire (.stB u1 3 1 .pocket 0), rfl, by decide +kernel, by decide +kernel,
    by decide +kernel⟩

theorem witness_VectorMoves :
    (∃ (u : StId) (vd : VReg) (va : VReg) (vb : VReg) (pg : PReg) (pn : Bool) (ty : IntTy) (s : State), s.canIssue u
      (.vshl u vd va vb pg pn ty) = true) ∧
    (∃ (u : StId) (vd : VReg) (va : VReg) (vb : VReg) (pg : PReg) (pn : Bool) (ty : IntTy) (s : State), s.canIssue u
      (.vsra u vd va vb pg pn ty) = true) ∧
    (∃ (u : StId) (vd : VReg) (va : VReg) (vb : VReg) (pg : PReg) (pn : Bool) (ty : LaneTy) (s : State), s.canIssue u
      (.vsel u vd va vb pg pn ty) = true) ∧
    (∃ (u : StId) (vd : VReg) (rs : SReg) (ty : LaneTy) (s : State), s.canIssue u (.vbcast u vd rs ty) = true) ∧
    (∃ (u : StId) (vd : VReg) (rs : SReg) (n : BitVec 6) (ty : LaneTy) (s : State), s.canIssue u (.vins u vd rs n ty)
      = true ∧ n.toNat < ty.lanes) ∧
    (∃ (u : StId) (va : VReg) (rs : SReg) (n : BitVec 6) (ty : LaneTy) (s : State), s.canIssue u (.vext u va rs n ty)
      = true ∧ n.toNat < ty.lanes) :=
  ⟨⟨u1, 5, 1, 3, 1, false, .int8, fire (.vshl u1 5 1 3 1 false .int8), by decide +kernel⟩,
   ⟨u1, 5, 1, 3, 1, true, .int32, fire (.vsra u1 5 1 3 1 true .int32), by decide +kernel⟩,
   ⟨u1, 5, 1, 2, 1, false, .bf16, fire (.vsel u1 5 1 2 1 false .bf16), by decide +kernel⟩,
   ⟨u1, 5, 3, .int8, fire (.vbcast u1 5 3 .int8), by decide +kernel⟩,
   ⟨u1, 1, 3, 15, .fp32, fire (.vins u1 1 3 15 .fp32), by decide +kernel, by decide +kernel⟩,
   ⟨u1, 1, 0, 15, .fp32, fire (.vext u1 1 0 15 .fp32), by decide +kernel, by decide +kernel⟩⟩

theorem witness_FormatConversions :
    (∃ (u : StId) (vd : VReg) (va : VReg) (tf : CvtFmt) (ff : CvtFmt) (rm : Rm) (spc : Bool) (pg : PReg)
      (part : BitVec 2) (s : State), s.canIssue u (.cvt u vd va tf ff rm spc pg part) = true) ∧
    (∃ (u : StId) (vd : VReg) (va : VReg) (tf : BlkFmt) (ff : BlkSrc) (rm : Rm) (s : State), s.canIssue u (.cvtBlk u
      vd va tf ff rm) = true) ∧
    (∃ (u : StId) (vd : VReg) (va : VReg) (tf : UnblkDst) (ff : BlkFmt) (rm : Rm) (s : State), s.canIssue u
      (.cvtUnblk u vd va tf ff rm) = true) ∧
    (∃ (u : StId) (rd : SReg) (ra : SReg) (tf : ScalFmt) (ff : ScalFmt) (rm : Rm) (s : State), s.canIssue u (.cvtS u
      rd ra tf ff rm) = true) :=
  ⟨⟨u1, 5, 1, .bf16, .fp32, .sr, false, 1, 0, fire (.cvt u1 5 1 .bf16 .fp32 .sr false 1 0), by decide +kernel⟩,
   ⟨u1, 5, 1, .mxfp6, .bf16, .sr, fire (.cvtBlk u1 5 1 .mxfp6 .bf16 .sr), by decide +kernel⟩,
   ⟨u1, 5, 1, .fp32, .mxfp4, .rne, fire (.cvtUnblk u1 5 1 .fp32 .mxfp4 .rne), by decide +kernel⟩,
   ⟨u1, 10, 6, .fp16, .fp32, .sr, fire (.cvtS u1 10 6 .fp16 .fp32 .sr), by decide +kernel⟩⟩

theorem witness_PredicatesGovernLanes :
    (∃ (i : Instr) (u : StId) (vd : VReg) (pg : PReg) (pn : Bool) (ty : LaneTy) (f : Stitcher → Nat → Nat)
      (s : State), laneValue i = some (u, vd, pg, pn, ty, f) ∧ s.canIssue u i = true) ∧
    (∃ (i : Instr) (u : StId) (pd : PReg) (pg : PReg) (pn : Bool) (ty : LaneTy) (f : Stitcher → Nat → Bool)
      (s : State), vectorCompare i = some (u, pd, pg, pn, ty, f) ∧ s.canIssue u i = true) ∧
    (∃ (i : Instr) (u : StId) (pd : PReg) (f : Stitcher → BitVec 64) (s : State), predicateValue i = some (u, pd, f)
      ∧ scalarCompare i = true ∧ s.canIssue u i = true) ∧
    (∃ (i : Instr) (u : StId) (pg : PReg) (pn : Bool) (s : State), guardOf i = some (u, pg, pn) ∧ s.canIssue u i =
      true ∧ ((s.st u).p pg).getLsbD 0 = pn) ∧
    (∃ (u : StId) (pg : PReg) (pn : Bool) (off : BitVec 11) (s : State), s.canIssue u (.br u pg pn off) = true ∧
      (s.st u).pc < 1024 ∧ ((s.st u).p pg).getLsbD 0 ≠ pn) :=
  ⟨⟨.vadd u1 5 1 2 1 false .fp32, _, _, _, _, _, _, fire (.vadd u1 5 1 2 1 false .fp32), rfl, by decide +kernel⟩,
   ⟨.vcmpEq u1 4 1 2 1 false .fp32, _, _, _, _, _, _, fire (.vcmpEq u1 4 1 2 1 false .fp32), rfl, by decide +kernel⟩,
   ⟨.cmpEq u1 1 3 3, _, _, _, fire (.cmpEq u1 1 3 3), rfl, by decide +kernel, by decide +kernel⟩,
   ⟨.br u1 0 true 5, _, _, _, fire (.br u1 0 true 5), rfl, by decide +kernel, by decide +kernel⟩,
   ⟨u1, 1, false, 0x7FE, fire (.br u1 1 false 0x7FE), by decide +kernel, by decide +kernel, by decide +kernel⟩⟩

theorem witness_ChannelSends :
    (∃ (i : Instr) (u : StId) (rx : SReg) (rt : SReg) (rs : SReg) (ch : BitVec 8) (ctl : Bool) (try_ : Bool)
      (s : State), wordSend i = some (u, rx, rt, rs, ch, ctl, try_) ∧ s.canIssue u i = true ∧ s.sendStatus u
      (ch.toNat) (wordOf (s.st u) rx rt ctl) = 0 ∧ s.sendBlocked u.quire (ch.toNat) (wordOf (s.st u) rx rt ctl) =
      false) ∧
    (∃ (i : Instr) (u : StId) (rx : SReg) (rt : SReg) (rs : SReg) (ch : BitVec 8) (ctl : Bool) (try_ : Bool)
      (s : State), wordSend i = some (u, rx, rt, rs, ch, ctl, try_) ∧ s.canIssue u i = true ∧ s.sendStatus u
      (ch.toNat) (wordOf (s.st u) rx rt ctl) = 0 ∧ s.sendBlocked u.quire (ch.toNat) (wordOf (s.st u) rx rt ctl) =
      true ∧ try_ = true) ∧
    (∃ (i : Instr) (u : StId) (rx : SReg) (rt : SReg) (rs : SReg) (ch : BitVec 8) (ctl : Bool) (try_ : Bool)
      (s : State), wordSend i = some (u, rx, rt, rs, ch, ctl, try_) ∧ s.canIssue u i = true ∧ s.sendStatus u
      (ch.toNat) (wordOf (s.st u) rx rt ctl) = 2) ∧
    (∃ (i : Instr) (u : StId) (rx : SReg) (rt : SReg) (rs : SReg) (ch : BitVec 8) (ctl : Bool) (try_ : Bool)
      (s : State), wordSend i = some (u, rx, rt, rs, ch, ctl, try_) ∧ s.canIssue u i = true ∧ s.sendStatus u
      (ch.toNat) (wordOf (s.st u) rx rt ctl) = 3) ∧
    (∃ (i : Instr) (u : StId) (rx : SReg) (rt : SReg) (rs : SReg) (ch : BitVec 8) (sp : Space) (try_ : Bool)
      (s : State), messageSend i = some (u, rx, rt, rs, ch, sp, try_) ∧ s.canIssue u i = true ∧ s.inRange u.quire sp
      (((s.st u).s rx).toNat) 64 (((s.st u).s rt).toNat) = true ∧ readableAt s u sp (((s.st u).s rx).toNat) (((s.st
      u).s rt).toNat) ∧ s.sendStatus u (ch.toNat) (Payload.bytes sp (((s.st u).s rx).toNat) (((s.st u).s rt).toNat))
      = 0 ∧ s.sendBlocked u.quire (ch.toNat) (Payload.bytes sp (((s.st u).s rx).toNat) (((s.st u).s rt).toNat)) =
      false) ∧
    (∃ (i : Instr) (u : StId) (rx : SReg) (rt : SReg) (rs : SReg) (ch : BitVec 8) (sp : Space) (try_ : Bool)
      (s : State), messageSend i = some (u, rx, rt, rs, ch, sp, try_) ∧ s.canIssue u i = true ∧ s.inRange u.quire sp
      (((s.st u).s rx).toNat) 64 (((s.st u).s rt).toNat) = true ∧ readableAt s u sp (((s.st u).s rx).toNat) (((s.st
      u).s rt).toNat) ∧ s.sendStatus u (ch.toNat) (Payload.bytes sp (((s.st u).s rx).toNat) (((s.st u).s rt).toNat))
      = 0 ∧ s.sendBlocked u.quire (ch.toNat) (Payload.bytes sp (((s.st u).s rx).toNat) (((s.st u).s rt).toNat)) =
      true ∧ try_ = true) :=
  ⟨⟨.send u1 1 4 10 3, _, _, _, _, _, _, _, route 0 2 (fire (.send u1 1 4 10 3)), rfl, by decide +kernel,
     by decide +kernel, by decide +kernel⟩,
   ⟨.trySend u1 1 4 10 3, _, _, _, _, _, _, _, route 0 0 (fire (.trySend u1 1 4 10 3)), rfl, by decide +kernel,
     by decide +kernel, by decide +kernel, by decide +kernel⟩,
   ⟨.send u1 1 4 10 3, _, _, _, _, _, _, _, ((route 0 2 (fire (.send u1 1 4 10 3))).setF (eb 9 3) F.CH_ROUTE_A_span
     1).updQu 9 (fun x => { x with aborted := [3] }), rfl, by decide +kernel, by decide +kernel⟩,
   ⟨.send u1 1 4 10 3, _, _, _, _, _, _, _, fire (.send u1 1 4 10 3), rfl, by decide +kernel, by decide +kernel⟩,
   ⟨.msendP u1 1 1 10 3, _, _, _, _, _, _, _, route 1 8 (fire (.msendP u1 1 1 10 3)), rfl, by decide +kernel,
     by decide +kernel, by decide +kernel, by decide +kernel, by decide +kernel⟩,
   ⟨.tryMsendP u1 1 1 10 3, _, _, _, _, _, _, _, route 1 7 (fire (.tryMsendP u1 1 1 10 3)), rfl, by decide +kernel,
     by decide +kernel, by decide +kernel, by decide +kernel, by decide +kernel, by decide +kernel⟩⟩

theorem witness_Receives :
    (∃ (u : StId) (ra : SReg) (n : BitVec 2) (w : QWord) (l : List QWord) (s : State), s.canIssue u (.qrecv u ra n) =
      true ∧ spGet [] (s.st u).queues n.toNat = w :: l) ∧
    (∃ (u : StId) (ra : SReg) (pd : PReg) (n : BitVec 2) (s : State), s.canIssue u (.qrecvTry u ra pd n) = true ∧
      spGet [] (s.st u).queues n.toNat = []) ∧
    (∃ (u : StId) (ra : SReg) (pd : PReg) (n : BitVec 2) (w : QWord) (l : List QWord) (s : State), s.canIssue u
      (.qrecvTry u ra pd n) = true ∧ spGet [] (s.st u).queues n.toNat = w :: l ∧ w.at_ ≤ (s.st u).nextAt) ∧
    (∃ (u : StId) (ra : SReg) (rb : SReg) (s : State), s.canIssue u (.ringWp u ra rb) = true ∧ ((s.st u).s rb).toNat
      < 16) ∧
    (∃ (u : StId) (ra : SReg) (rb : SReg) (s : State), s.canIssue u (.ringWp u ra rb) = true ∧ ((s.st u).s rb).toNat
      < 16 ∧ noRing s u.quire) ∧
    (∃ (u : StId) (ra : SReg) (rb : SReg) (s : State), s.canIssue u (.credits u ra rb) = true) ∧
    (∃ (u : StId) (ra : SReg) (sel : BitVec 5) (s : State), s.canIssue u (.gets u ra sel) = true) ∧
    (∃ (u : StId) (ra : SReg) (rb : SReg) (s : State), s.canIssue u (.ringAdv u ra rb) = true ∧ ((s.st u).s rb).toNat
      < 16 ∧ noRing s u.quire ∧ s.f (rb_ u.quire ((s.st u).s rb).toNat) F.CH_RING_CFG_valid = 1 ∧ s.f (rb_ u.quire
      ((s.st u).s rb).toNat) F.CH_RING_CFG_reader = u.st.val ∧ (((s.st u).s ra).toNat) ≤ (s.f (rb_ u.quire ((s.st
      u).s rb).toNat) F.CH_RING_WP_wp + 2 ^ 32 - s.f (rb_ u.quire ((s.st u).s rb).toNat) F.CH_RING_RP_rp) % 2 ^ 32) ∧
    (∃ (u : StId) (ra : SReg) (rb : SReg) (s : State), s.canIssue u (.ringAdv u ra rb) = true ∧ ((s.st u).s rb).toNat
      < 16 ∧ noRing s u.quire ∧ s.f (rb_ u.quire ((s.st u).s rb).toNat) F.CH_RING_CFG_reader ≠ u.st.val) ∧
    (∃ (u : StId) (ra : SReg) (x : PressId) (sp : Space) (s : State), s.canIssue u (.pressGo u ra x sp) = true ∧
      s.inRange u.quire sp (((s.st u).s ra).toNat) 64 64 = true ∧ (s.press u.quire x).places < 4 ∧ readableAt s u sp
      (((s.st u).s ra).toNat) 64) ∧
    (∃ (u : StId) (ra : SReg) (s : State), s.canIssue u (.leafFill u ra) = true ∧ s.inRange u.quire .pocket (((s.st
      u).s ra).toNat) 64 64 = true ∧ (s.qu u.quire).ops.length < 4 ∧ readablePocket (s.st u) (((s.st u).s ra).toNat)
      64) ∧
    (∃ (u : StId) (ra : SReg) (s : State), s.canIssue u (.leafCopy u ra) = true ∧ s.inRange u.quire .pocket (((s.st
      u).s ra).toNat) 64 64 = true ∧ (s.qu u.quire).ops.length < 4 ∧ readablePocket (s.st u) (((s.st u).s ra).toNat)
      64) ∧
    (∃ (u : StId) (ra : SReg) (rb : SReg) (s : State), s.canIssue u (.hint u ra rb) = true ∧ (s.st u).s rb = 0) ∧
    (∃ (u : StId) (ra : SReg) (rb : SReg) (s : State), s.canIssue u (.hint u ra rb) = true ∧ 1 ≤ (((s.st u).s
      rb).toNat) ∧ (((s.st u).s rb).toNat) ≤ 64 ∧ s.inRange u.quire .pocket (((s.st u).s ra).toNat) 64 (16 * (((s.st
      u).s rb).toNat)) = true ∧ readablePocket (s.st u) (((s.st u).s ra).toNat) (16 * (((s.st u).s rb).toNat)) ∧
      s.hintQueue u.quire + (((s.st u).s rb).toNat) ≤ 512 ∧ (s.qu u.quire).discarding = false) :=
  ⟨⟨u1, 10, 1, ⟨0x1122334455667788, 9, 3, 0⟩, [⟨7, 9, 3, 4⟩], fireIn .reset x2 (.qrecv u1 10 1), by decide +kernel,
     by decide +kernel⟩,
   ⟨u1, 10, 1, 2, fireIn .reset x2 (.qrecvTry u1 10 1 2), by decide +kernel, by decide +kernel⟩,
   ⟨u1, 10, 1, 1, ⟨0x1122334455667788, 9, 3, 0⟩, [⟨7, 9, 3, 4⟩], fireIn .reset x2 (.qrecvTry u1 10 1 1),
     by decide +kernel, by decide +kernel, by decide +kernel⟩,
   ⟨u1, 10, 4, fireIn (ring2 .reset) { x1 with sreg := [(4, 2)] } (.ringWp u1 10 4), by decide +kernel,
     by decide +kernel⟩,
   ⟨u1, 10, 4, fireIn (ring2 .reset) { x1 with sreg := [(4, 2)] } (.ringWp u1 10 4), by decide +kernel,
     by decide +kernel, by decide +kernel⟩,
   ⟨u1, 10, 4, route 0 9 (fireIn .reset { x1 with sreg := [(4, 0x103)] } (.credits u1 10 4)), by decide +kernel⟩,
   ⟨u1, 10, 1, fire (.gets u1 10 1), by decide +kernel⟩,
   ⟨u1, 3, 4, fireIn (ring2 .reset) { x1 with sreg := [(3, 8), (4, 2)] } (.ringAdv u1 3 4), by decide +kernel,
     by decide +kernel, by decide +kernel, by decide +kernel, by decide +kernel, by decide +kernel⟩,
   ⟨u1, 3, 4, (fireIn (ring2 .reset) { x1 with sreg := [(3, 8), (4, 2)] } (.ringAdv u1 3 4)).setF (rb_ 9 2)
     F.CH_RING_CFG_reader 4, by decide +kernel, by decide +kernel, by decide +kernel, by decide +kernel⟩,
   ⟨u1, 1, false, .pocket, fire (.pressGo u1 1 false .pocket), by decide +kernel, by decide +kernel,
     by decide +kernel, by decide +kernel⟩,
   ⟨u1, 1, fire (.leafFill u1 1), by decide +kernel, by decide +kernel, by decide +kernel, by decide +kernel⟩,
   ⟨u1, 1, fire (.leafCopy u1 1), by decide +kernel, by decide +kernel, by decide +kernel, by decide +kernel⟩,
   ⟨u1, 1, 7, fire (.hint u1 1 7), by decide +kernel, by decide +kernel⟩,
   ⟨u1, 1, 4, fire (.hint u1 1 4), by decide +kernel, by decide +kernel, by decide +kernel, by decide +kernel,
     by decide +kernel, by decide +kernel, by decide +kernel⟩⟩

theorem witness_CollationCodes :
    (∃ (u : StId) (ra : SReg) (rb : SReg) (rc : SReg) (sp : Space) (s : State), s.canIssue u (.collGen u ra rb rc sp)
      = true ∧ s.inRange u.quire sp (((s.st u).s ra).toNat) 64 (((s.st u).s rb).toNat) = true ∧ readableAt s u sp
      (((s.st u).s ra).toNat) (((s.st u).s rb).toNat)) ∧
    (∃ (u : StId) (ra : SReg) (rb : SReg) (rc : SReg) (pd : PReg) (sp : Space) (s : State), s.canIssue u (.collChk u
      ra rb rc pd sp) = true ∧ s.inRange u.quire sp (((s.st u).s ra).toNat) 64 (((s.st u).s rb).toNat) = true ∧
      readableAt s u sp (((s.st u).s ra).toNat) (((s.st u).s rb).toNat)) :=
  ⟨⟨u1, 1, 2, 10, .pocket, fire (.collGen u1 1 2 10 .pocket), by decide +kernel, by decide +kernel,
     by decide +kernel⟩,
   ⟨u1, 1, 2, 3, 1, .leaf, fire (.collChk u1 1 2 3 1 .leaf), by decide +kernel, by decide +kernel, by decide +kernel⟩⟩

theorem witness_EndsOfWork :
    (∃ (u : StId) (s : State), s.canIssue u (.nop u) = true) ∧
    (∃ (u : StId) (s : State), s.canIssue u (.fence u) = true) ∧
    (∃ (u : StId) (s : State), s.canIssue u (.endF u) = true) ∧
    (∃ (u : StId) (s : State), s.canIssue u (.tickdone u) = true ∧ s.quireQuiet u = true ∧ (s.qu u.quire).done =
      false ∧ (((s.qu u.quire).overrun = true ∨ ((s.qu u.quire).runAt (tickdoneAt s u)) ≤ s.deadlineOf u.quire))) ∧
    (∃ (u : StId) (s : State), s.canIssue u (.tickdone u) = true ∧ s.quireQuiet u = true ∧ (s.qu u.quire).done =
      false ∧ (s.qu u.quire).overrun = false ∧ s.deadlineOf u.quire < ((s.qu u.quire).runAt (tickdoneAt s u)) ∧ (s.qu
      u.quire).open_ = true) ∧
    (∃ (u : StId) (s : State), s.canIssue u (.tickdone u) = true ∧ s.quireQuiet u = true ∧ (s.qu u.quire).done =
      true) :=
  ⟨⟨u1, fire (.nop u1), by decide +kernel⟩,
   ⟨u1, fireIn .reset { x1 with acceptedAt := 9 } (.fence u1), by decide +kernel⟩,
   ⟨u1, fire (.endF u1), by decide +kernel⟩,
   ⟨u1, pf F.TK_BUDGET_run_budget 5000 (q1 (fun x => { x with open_ := true, start := 20 }) (fire (.tickdone u1))),
     by decide +kernel, by decide +kernel, by decide +kernel, by decide +kernel⟩,
   ⟨u1, pf F.TK_BUDGET_run_budget 3 (q1 (fun x => { x with open_ := true, start := 20 }) (fireIn on
     { x1 with nextAt := 40 } (.tickdone u1))), by decide +kernel, by decide +kernel, by decide +kernel,
     by decide +kernel, by decide +kernel, by decide +kernel⟩,
   ⟨u1, q1 (fun x => { x with done := true, doneAt := 30 }) (fire (.tickdone u1)), by decide +kernel,
     by decide +kernel, by decide +kernel⟩⟩

theorem witness_FiringFaults :
    (∃ (i : Instr) (u : StId) (rd : SReg) (f : Stitcher → BitVec 32) (s : State), scalarValue i = some (u, rd, f) ∧
      s.canIssue u i = true ∧ (s.st u).progErr (s.st u).pc = 1) ∧
    (∃ (i : Instr) (u : StId) (rd : SReg) (f : Stitcher → BitVec 32) (s : State), scalarValue i = some (u, rd, f) ∧
      s.mayIssue u i = true ∧ s.f (sb u) F.ST_PC_count < 256 ∧ (s.st u).progErr (s.st u).pc = 2) ∧
    (∃ (i : Instr) (u : StId) (a : Nat) (n : Nat) (s : State), pocketRead s i = some (u, a, n) ∧ s.canIssue u i =
      true ∧ (s.st u).progErr (s.st u).pc = 0 ∧ s.inRange u.quire .pocket a (pocketAlign i) n = true ∧ readablePocket
      (s.st u) a n) ∧
    (∃ (i : Instr) (u : StId) (a : Nat) (n : Nat) (s : State), pocketRead s i = some (u, a, n) ∧ s.canIssue u i =
      true ∧ s.inRange u.quire .pocket a (pocketAlign i) n = true ∧ ¬ readablePocket (s.st u) a n) ∧
    (∃ (u : StId) (s : State), s.mayIssue u (.nop u) = true ∧ 256 ≤ s.f (sb u) F.ST_PC_count) ∧
    (∃ (i : Instr) (u : StId) (rd : SReg) (ra : SReg) (sp : Space) (imm : BitVec 12) (n : Nat) (ext : Nat → BitVec
      32) (s : State), loadOf i = some (u, rd, ra, sp, imm, n, ext) ∧ s.canIssue u i = true ∧ s.inRange u.quire sp
      (memAddr (s.st u) ra imm n) n n = false) ∧
    (∃ (i : Instr) (u : StId) (ra : SReg) (sp : Space) (imm : BitVec 12) (n : Nat) (val : Stitcher → Nat)
      (s : State), storeOf i = some (u, ra, sp, imm, n, val) ∧ s.canIssue u i = true ∧ s.inRange u.quire sp (memAddr
      (s.st u) ra imm n) n n = false) :=
  ⟨⟨.add u1 10 3 4, _, _, _, fireIn .reset { x1 with memErr := [(2048, 1)] } (.add u1 10 3 4), rfl,
     by decide +kernel, by decide +kernel⟩,
   ⟨.add u1 10 3 4, _, _, _, p1 (fun x => { x with frameOpen := true }) (fireIn .reset
     { x1 with memErr := [(2048, 2)] } (.add u1 10 3 4)), rfl, by decide +kernel, by decide +kernel,
     by decide +kernel⟩,
   ⟨.ldW u1 10 1 .pocket 0, _, _, _, fireIn .reset { x1 with memErr := [(8, 1), (9, 1)] } (.ldW u1 10 1 .pocket 0),
     rfl, by decide +kernel, by decide +kernel, by decide +kernel, by decide +kernel⟩,
   ⟨.ldW u1 10 1 .pocket 0, _, _, _, p1 (fun x => { x with frameOpen := true }) (fireIn .reset
     { x1 with memErr := [(8, 2)] } (.ldW u1 10 1 .pocket 0)), rfl, by decide +kernel, by decide +kernel,
     by decide +kernel⟩,
   ⟨u1, p1 (fun x => { x with frameOpen := true }) ((fire (.nop u1)).setF (sb u1) F.ST_PC_count 256),
     by decide +kernel, by decide +kernel⟩,
   ⟨.ldW u1 10 4 .pocket 3, _, _, _, _, _, _, _, fire (.ldW u1 10 4 .pocket 3), rfl, by decide +kernel,
     by decide +kernel⟩,
   ⟨.stW u1 10 4 .pocket 2, _, _, _, _, _, _, fire (.stW u1 10 4 .pocket 2), rfl, by decide +kernel,
     by decide +kernel⟩⟩

theorem witness_TickControl :
    (∃ (w : Writer) (p : PartId) (s : State), s.gateOf w (pt p + R.TK_CTRL.off) = .pass ∧ s.running p = false ∧
      s.startRefused p = none) ∧
    (∃ (w : Writer) (p : PartId) (c : Nat) (s : State), s.gateOf w (pt p + R.TK_CTRL.off) = .pass ∧ s.running p =
      false ∧ s.startRefused p = some c) ∧
    (∃ (w : Writer) (p : PartId) (s : State), s.gateOf w (pt p + R.TK_CTRL.off) = .pass ∧ (s.part p).frameOpen =
      false) ∧
    (∃ (w : Writer) (p : PartId) (s : State), s.gateOf w (pt p + R.TK_CTRL.off) = .pass ∧ (s.part p).frameOpen =
      true) ∧
    (∃ (w : Writer) (p : PartId) (s : State), s.gateOf w (pt p + R.TK_CTRL.off) = .pass) ∧
    (∃ (w : Writer) (p : PartId) (s : State), s.gateOf w (pt p + R.TK_CTRL.off) = .pass ∧ s.running p = true ∧
      (s.part p).stopping = true ∧ s.startRefused p = none) ∧
    (∃ (w : Writer) (p : PartId) (s : State), s.gateOf w (pt p + R.TK_CTRL.off) = .pass ∧ s.f (pt p) F.TK_CTRL_hold =
      1 ∧ s.running p = true ∧ ((s.badValue p = true ∨ s.badFrame p = true))) ∧
    (∃ (w : Writer) (p : PartId) (s : State), s.gateOf w (pt p + R.TK_CTRL.off) = .pass ∧ s.f (pt p) F.TK_CTRL_hold =
      1 ∧ s.running p = false ∧ (s.part p).pendStrike = false ∧ (s.part p).pendEdge = false ∧ (s.part p).gridLate =
      false ∧ (s.part p).strikeDue = none) :=
  ⟨⟨.ld 0, 1, pf F.TK_FRAME_publish_len 16 (pf F.TK_BUDGET_run_budget 50 on), by decide +kernel, by decide +kernel,
     by decide +kernel⟩,
   ⟨.ld 0, 1, 10, pf F.TK_BUDGET_run_budget 50 on, by decide +kernel, by decide +kernel, by decide +kernel⟩,
   ⟨.ld 0, 1, run1 on, by decide +kernel, by decide +kernel⟩,
   ⟨.ld 0, 1, frame 200 on, by decide +kernel, by decide +kernel⟩,
   ⟨.ld 0, 1, frame 200 on, by decide +kernel⟩,
   ⟨.ld 0, 1, p1 (fun x => { x with stopping := true }) (pf F.TK_FRAME_publish_len 16 (frame 200 on)),
     by decide +kernel, by decide +kernel, by decide +kernel, by decide +kernel⟩,
   ⟨.ld 0, 1, pf F.TK_CTRL_hold 1 (pf F.TK_BUDGET_run_budget 0 (run1 on)), by decide +kernel, by decide +kernel,
     by decide +kernel, by decide +kernel⟩,
   ⟨.ld 0, 1, pf F.TK_CTRL_hold 1 (pf F.TK_STATUS_held 1 on), by decide +kernel, by decide +kernel,
     by decide +kernel, by decide +kernel, by decide +kernel, by decide +kernel, by decide +kernel⟩⟩

theorem witness_StrikesAndStrokes :
    (∃ (w : Writer) (p : PartId) (s : State), s.gateOf w (pt p + R.TK_STRIKE.off) = .pass ∧ s.mode p = 1 ∧ (s.part
      p).pendStrike = false ∧ (s.part p).strikeDue = none ∧ s.mayStroke p = true ∧ s.spacedAt p ≤ (s.part p).cyc + 2) ∧
    (∃ (w : Writer) (p : PartId) (s : State), s.gateOf w (pt p + R.TK_STRIKE.off) = .pass ∧ (s.part p).pendStrike =
      false ∧ (s.part p).strikeDue = some ((s.part p).cyc + 2)) ∧
    (∃ (p : PartId) (c : Nat) (s : State), (s.part p).strikeDue = some c ∧ (s.part p).cyc ≤ c ∧ clocked s p ∧
      s.mayStroke p = true) ∧
    (∃ (w : Writer) (p : PartId) (s : State), s.gateOf w (pt p + R.TK_STRIKE.off) = .pass ∧ s.mode p = 1 ∧ s.running
      p = true ∧ (s.part p).pendStrike = false ∧ (s.part p).strikeDue = none ∧ s.holdIn p = true) ∧
    (∃ (w : Writer) (p : PartId) (s : State), s.gateOf w (pt p + R.TK_STRIKE.off) = .pass ∧ s.mode p = 1 ∧ s.running
      p = true ∧ (s.part p).pendStrike = true) ∧
    (∃ (w : Writer) (p : PartId) (s : State), s.gateOf w (pt p + R.TK_STRIKE.off) = .pass ∧ s.mode p ≠ 1) ∧
    (∃ (p : PartId) (s : State), s.mode p = 0 ∧ s.running p = true ∧ (s.part p).gridAt ≤ (s.part p).cyc ∧ (s.part
      p).gridLate = false ∧ s.mayStroke p = true ∧ s.spacedAt p ≤ (s.part p).cyc) ∧
    (∃ (p : PartId) (s : State), s.mode p = 0 ∧ s.running p = true ∧ (s.part p).gridAt ≤ (s.part p).cyc ∧ (s.part
      p).gridLate = false ∧ s.holdIn p = true) ∧
    (∃ (p : PartId) (s : State), s.mode p = 0 ∧ s.running p = true ∧ (s.part p).gridAt ≤ (s.part p).cyc ∧ (s.part
      p).gridLate = true) ∧
    (∃ (p : PartId) (s : State), s.mayStroke p = true ∧ s.spacedAt p ≤ (s.part p).cyc ∧ (s.part p).strikeDue = none ∧
      (((s.part p).pendStrike = true ∨ (s.part p).pendEdge = true ∨ (s.part p).gridLate = true))) ∧
    (∃ (falling : Bool) (p : PartId) (s : State), ((∀ r, (s.mode r = 2 ∧ s.running r = true ∧ s.f (pt r)
      F.TK_MODE_ext_edge = (if falling then 1 else 0)) ↔ r = p)) ∧ (s.part p).pendEdge = false ∧ s.holdIn p = true) :=
  ⟨⟨.ld 0, 1, pf F.TK_MODE_mode 1 (run1 on), by decide +kernel, by decide +kernel, by decide +kernel,
     by decide +kernel, by decide +kernel, by decide +kernel⟩,
   ⟨.ld 0, 1, p1 (fun x => { x with strikeDue := some 2 }) (pf F.TK_MODE_mode 1 (run1 on)), by decide +kernel,
     by decide +kernel, by decide +kernel⟩,
   ⟨1, 2, p1 (fun x => { x with strikeDue := some 2 }) (pf F.TK_MODE_mode 1 (run1 on)), by decide +kernel,
     by decide +kernel, by decide +kernel, by decide +kernel⟩,
   ⟨.ld 0, 1, pf F.TK_CTRL_hold 1 (pf F.TK_MODE_mode 1 (run1 on)), by decide +kernel, by decide +kernel,
     by decide +kernel, by decide +kernel, by decide +kernel, by decide +kernel⟩,
   ⟨.ld 0, 1, p1 (fun x => { x with pendStrike := true }) (pf F.TK_MODE_mode 1 (run1 on)), by decide +kernel,
     by decide +kernel, by decide +kernel, by decide +kernel⟩,
   ⟨.ld 0, 1, run1 on, by decide +kernel, by decide +kernel⟩,
   ⟨1, run1 on, by decide +kernel, by decide +kernel, by decide +kernel, by decide +kernel, by decide +kernel,
     by decide +kernel⟩,
   ⟨1, pf F.TK_CTRL_hold 1 (run1 on), by decide +kernel, by decide +kernel, by decide +kernel, by decide +kernel,
     by decide +kernel⟩,
   ⟨1, p1 (fun x => { x with gridLate := true }) (run1 on), by decide +kernel, by decide +kernel, by decide +kernel,
     by decide +kernel⟩,
   ⟨1, p1 (fun x => { x with gridLate := true }) (run1 on), by decide +kernel, by decide +kernel, by decide +kernel,
     by decide +kernel⟩,
   ⟨true, 1, pf F.TK_MODE_ext_edge 1 (pf F.TK_CTRL_hold 1 (pf F.TK_MODE_mode 2 (run1 on))), by decide +kernel,
     by decide +kernel, by decide +kernel⟩⟩

theorem witness_TickMessages :
    (∃ (q : QuireId) (s : State), (s.part (partOf q)).frameOpen = true ∧ (s.part (partOf q)).strokeMask / 2 ^ localOf
      q % 2 = 0 ∧ s.present q = true ∧ (s.part (partOf q)).strokeAt + 14 ≤ (s.part (partOf q)).cyc ∧ (s.qu q).inReset
      = false ∧ s.cnt (pt (partOf q)) R.TK_COUNT_LO R.TK_COUNT_HI = ((s.qu q).tick + 1) % 2 ^ 48 ∧ (s.qu q).tick < 2
      ^ 48) ∧
    (∃ (q : QuireId) (s : State), (s.part (partOf q)).frameOpen = true ∧ (s.part (partOf q)).strokeMask / 2 ^ localOf
      q % 2 = 0 ∧ s.present q = true ∧ (s.part (partOf q)).strokeAt + 14 ≤ (s.part (partOf q)).cyc) ∧
    (∃ (q : QuireId) (s : State), (s.part (partOf q)).frameOpen = true ∧ (s.qu q).done = true ∧ (s.qu q).doneAt ≠ 0 ∧
      (s.qu q).doneAt ≤ (s.part (partOf q)).cyc ∧ (s.part (partOf q)).doneMask / 2 ^ localOf q % 2 = 0) ∧
    (∃ (q : QuireId) (s : State), (s.part (partOf q)).frameOpen = true ∧ (s.qu q).done = true ∧ (s.qu q).doneAt ≠ 0 ∧
      (s.qu q).doneAt ≤ (s.part (partOf q)).cyc) :=
  ⟨⟨9, q1 (fun x => { x with open_ := false, tick := 4 }) (p1 (fun x => { x with strokeMask := 0 }) (frame 114 on)),
     by decide +kernel, by decide +kernel, by decide +kernel, by decide +kernel, by decide +kernel,
     by decide +kernel, by decide +kernel⟩,
   ⟨9, q1 (fun x => { x with open_ := false, tick := 4 }) (p1 (fun x => { x with strokeMask := 0 }) (frame 114 on)),
     by decide +kernel, by decide +kernel, by decide +kernel, by decide +kernel⟩,
   ⟨9, q1 (fun x => { x with done := true, doneAt := 140 }) (frame 140 on), by decide +kernel, by decide +kernel,
     by decide +kernel, by decide +kernel, by decide +kernel⟩,
   ⟨9, q1 (fun x => { x with done := true, doneAt := 140 }) (frame 140 on), by decide +kernel, by decide +kernel,
     by decide +kernel, by decide +kernel⟩⟩

theorem witness_DeadlinesAndCloses :
    (∃ (q : QuireId) (s : State), (s.part (partOf q)).frameOpen = true ∧ (s.part (partOf q)).waitMask / 2 ^ localOf q
      % 2 = 1 ∧ (s.part (partOf q)).doneMask / 2 ^ localOf q % 2 = 0 ∧ (s.part (partOf q)).overMask / 2 ^ localOf q %
      2 = 0 ∧ (s.qu q).doneAt = 0 ∧ (s.qu q).open_ = true ∧ (s.part (partOf q)).strokeAt + 14 + s.deadlineOf q ≤
      (s.part (partOf q)).cyc ∧ (s.part (partOf q)).overran = false ∧ s.f (pt (partOf q)) F.TK_CTRL_policy = 1) ∧
    (∃ (q : QuireId) (s : State), (s.part (partOf q)).frameOpen = true ∧ (s.part (partOf q)).waitMask / 2 ^ localOf q
      % 2 = 1 ∧ (s.part (partOf q)).doneMask / 2 ^ localOf q % 2 = 0 ∧ (s.part (partOf q)).overMask / 2 ^ localOf q %
      2 = 0 ∧ (s.qu q).doneAt = 0 ∧ (s.qu q).open_ = true ∧ (s.part (partOf q)).strokeAt + 14 + s.deadlineOf q ≤
      (s.part (partOf q)).cyc ∧ (s.part (partOf q)).overran = false ∧ s.f (pt (partOf q)) F.TK_CTRL_policy = 0) ∧
    (∃ (q : QuireId) (s : State), s.f (pt (partOf q)) F.TK_CTRL_policy = 1 ∧ (s.qu q).open_ = true ∧ (s.qu q).overrun
      = true ∧ (s.qu q).overrunNs + 1000 ≤ s.ns ∧ s.partResets (partOf q) = false ∧ (s.part (partOf q)).frameOpen =
      true) ∧
    (∃ (q : QuireId) (c : Nat) (i : Fin 64) (s : State), s.f (pt (partOf q)) F.TK_CTRL_policy = 0 ∧ (s.qu q).flushBy
      = some c ∧ c ≤ (s.part (partOf q)).cyc ∧ (s.st ⟨q, i⟩).inReset = true ∧ s.partResets (partOf q) = false) ∧
    (∃ (u : StId) (x : Stall) (e : Nat) (s : State), (s.st u).stall = some x ∧ x.ch = some e ∧ s.f (pt (partOf
      (u.quire))) F.CH_WDOG_threshold ≠ 0 ∧ (s.qu (u.quire)).open_ = true ∧ x.fired = false ∧ (s.qu (u.quire)).start
      + ((s.qu (u.quire)).runAt (x.since + s.f (pt (partOf (u.quire))) F.CH_WDOG_threshold)) - 1 ≤ (s.part (partOf
      (u.quire))).cyc ∧ ((s.qu (u.quire)).overrun = true ∨ s.deadlineOf (u.quire) ≤ ((s.qu (u.quire)).runAt (x.since
      + s.f (pt (partOf (u.quire))) F.CH_WDOG_threshold)))) ∧
    (∃ (u : StId) (x : Stall) (e : Nat) (s : State), (s.st u).stall = some x ∧ x.ch = some e ∧ s.f (pt (partOf
      (u.quire))) F.CH_WDOG_threshold ≠ 0 ∧ (s.qu (u.quire)).open_ = true ∧ x.fired = false ∧ (s.qu (u.quire)).start
      + ((s.qu (u.quire)).runAt (x.since + s.f (pt (partOf (u.quire))) F.CH_WDOG_threshold)) - 1 ≤ (s.part (partOf
      (u.quire))).cyc ∧ (s.qu (u.quire)).overrun = false ∧ ((s.qu (u.quire)).runAt (x.since + s.f (pt (partOf
      (u.quire))) F.CH_WDOG_threshold)) < s.deadlineOf (u.quire) ∧ s.f (pt (partOf (u.quire))) F.TK_CTRL_policy = 1) ∧
    (∃ (p : PartId) (c : Nat) (s : State), (s.part p).closeAt = some c ∧ (s.part p).frameOpen = true ∧ c ≤ (s.part
      p).cyc) :=
  ⟨⟨9, pf F.TK_CTRL_policy 1 (frame 164 on), by decide +kernel, by decide +kernel, by decide +kernel,
     by decide +kernel, by decide +kernel, by decide +kernel, by decide +kernel, by decide +kernel,
     by decide +kernel⟩,
   ⟨9, frame 164 on, by decide +kernel, by decide +kernel, by decide +kernel, by decide +kernel, by decide +kernel,
     by decide +kernel, by decide +kernel, by decide +kernel, by decide +kernel⟩,
   ⟨9, q1 (fun x => { x with overrun := true }) (pf F.TK_CTRL_policy 1 { frame 2200 on with now := 10000 }),
     by decide +kernel, by decide +kernel, by decide +kernel, by decide +kernel, by decide +kernel,
     by decide +kernel⟩,
   ⟨9, 150, 3, q1 (fun x => { x with flushBy := some 150 }) ((frame 164 on).updSt u1 (fun x =>
     { x with inReset := true })), by decide +kernel, by decide +kernel, by decide +kernel, by decide +kernel,
     by decide +kernel⟩,
   ⟨u1, ⟨4, 0, some 3, 0, false, false⟩, 3, pf F.CH_WDOG_threshold 60 ((frame 200 on).updSt u1 (fun x =>
     { x with stall := some ⟨4, 0, some 3, 0, false, false⟩ })), by decide +kernel, by decide +kernel,
     by decide +kernel, by decide +kernel, by decide +kernel, by decide +kernel, by decide +kernel⟩,
   ⟨u1, ⟨4, 0, some 3, 0, false, false⟩, 3, pf F.TK_CTRL_policy 1 (pf F.CH_WDOG_threshold 40 ((frame 200 on).updSt u1
     (fun x => { x with stall := some ⟨4, 0, some 3, 0, false, false⟩ }))), by decide +kernel, by decide +kernel,
     by decide +kernel, by decide +kernel, by decide +kernel, by decide +kernel, by decide +kernel,
     by decide +kernel, by decide +kernel⟩,
   ⟨1, 200, p1 (fun x => { x with closeAt := some 200, failed := true }) (frame 200 on), by decide +kernel,
     by decide +kernel, by decide +kernel⟩⟩

theorem witness_TokensAndFirings :
    (∃ (u : StId) (w : BitVec 96) (s : State), receivable s u (Tok.ofBits w)) ∧
    (∃ (u : StId) (w : BitVec 96), (tokenCheck (Tok.ofBits w).body u.st.val u.quire.val).toNat ≠ (Tok.ofBits
      w).check) ∧
    (∃ (u : StId) (r : Ready) (s : State), s.mayFire u = true ∧ s.nextReady u = some r ∧ r.toks.length ≤ 4) ∧
    (∃ (u : StId) (pc : BitVec 10) (s : State), s.f (sb u) F.ST_STATUS_used = 1 ∧ s.f (sb u) F.ST_STATUS_sealed = 1 ∧
      (s.st u).inReset = false ∧ ((∃ i ∈ (s.st u).issues, i.1 = pc.toNat)) ∧ residueChecks ((s.st u).progWord
      pc.toNat) = true) ∧
    (∃ (u : StId) (pc : BitVec 10) (s : State), (((∀ i ∈ (s.st u).issues, i.1 ≠ pc.toNat) ∨ residueChecks ((s.st
      u).progWord pc.toNat) = false))) ∧
    (∃ (u : StId) (s : State), s.executes u = true ∧ decodeWord u ((s.st u).progWord (s.st u).pc) = none ∧ s.f (sb u)
      F.ST_PC_count < 256 ∧ (s.st u).progErr (s.st u).pc ≠ 2) ∧
    (∃ (w : Writer) (u : StId) (s : State), reaches s w (sb u + R.ST_CTRL.off) ∧ s.runsFree (partOf u.quire) = true) ∧
    (∃ (w : Writer) (u : StId) (s : State), reaches s w (sb u + R.ST_CTRL.off) ∧ s.runsFree (partOf u.quire) = false
      ∧ s.partResets (partOf u.quire) = false) ∧
    (∃ (u : StId) (s : State), (s.st u).inReset = true ∧ (s.st u).resetEnd ≤ (s.part (partOf u.quire)).cyc) ∧
    (∃ (w : Writer) (q : QuireId) (s : State), reaches s w (qb q + R.ST_FAULT.off)) ∧
    (∃ (w : Writer) (q : QuireId) (s : State), reaches s w (qb q + R.PS_VOTE.off)) :=
  ⟨⟨u1, tokBits tok1, ported 8 State.reset, by decide +kernel⟩,
   ⟨u1, tokBits tok1 ^^^ 1, by decide +kernel⟩,
   ⟨u1, ⟨1, 9, [wait1], 4⟩, (ported 8 (frame 150 on)).updSt u1 (fun x => { x with store := [wait1] }),
     by decide +kernel, by decide +kernel, by decide +kernel⟩,
   ⟨u1, 3, (frame 150 (fire (.nop u1))).updSt u1 (fun x =>
     { x with issues := [(3, 16)], prog := spSet 0 [] 3 ((encode (.add u1 10 3 4)).getD 0) }), by decide +kernel,
     by decide +kernel, by decide +kernel, by decide +kernel, by decide +kernel⟩,
   ⟨u1, 3, frame 150 (fire (.nop u1)), by decide +kernel⟩,
   ⟨u1, (frame 150 (fire (.nop u1))).updSt u1 (fun x => { x with prog := [] }), by decide +kernel, by decide +kernel,
     by decide +kernel, by decide +kernel⟩,
   ⟨.ld 0, u1, run1 on, by decide +kernel, by decide +kernel⟩,
   ⟨.ld 0, u1, (on).setSt u1 { x1 with store := [wait1] }, by decide +kernel, by decide +kernel, by decide +kernel⟩,
   ⟨u1, (frame 150 on).setSt u1 { x1 with inReset := true, resetEnd := 150 }, by decide +kernel, by decide +kernel⟩,
   ⟨.ld 0, 9, qf F.ST_FAULT_suspect 1 (qf F.ST_FAULT_cause 4 on), by decide +kernel⟩,
   ⟨.ld 0, 9, qf F.PS_VOTE_suspect 1 on, by decide +kernel⟩⟩

theorem witness_PressCommands :
    (∃ (q : QuireId) (x : PressId) (d : PDesc) (l : List PDesc) (s : State), s.capped q = false ∧ (s.press q x).run =
      none ∧ (s.press q x).queue = d :: l ∧ (s.press q x).frozen = false ∧ d.check (s.leafSize q) (s.f hub
      F.HB_FMT_CAPS_accept) = 0) ∧
    (∃ (q : QuireId) (x : PressId) (d : PDesc) (l : List PDesc) (s : State), s.capped q = false ∧ (s.press q x).run =
      none ∧ (s.press q x).queue = d :: l ∧ (s.press q x).frozen = false ∧ d.check (s.leafSize q) (s.f hub
      F.HB_FMT_CAPS_accept) ≠ 0) ∧
    (∃ (q : QuireId) (x : PressId) (r : PRun) (s : State), (s.press q x).run = some r ∧ (s.press q x).frozen = false
      ∧ r.tile < r.desc.colTiles ∧ s.capped q = false ∧ ((∀ y ∈ (slotFree r.desc.slotUnits (s.press q x).slots).1,
      y.words = 0))) :=
  ⟨⟨9, false, desc1 0x40000, [desc1 1], pa1 (fun x => { x with queue := [desc1 0x40000, desc1 1] }) on,
     by decide +kernel, by decide +kernel, by decide +kernel, by decide +kernel, by decide +kernel⟩,
   ⟨9, false, desc1 1, [desc1 0x40000], pa1 (fun x => { x with queue := [desc1 1, desc1 0x40000] }) on,
     by decide +kernel, by decide +kernel, by decide +kernel, by decide +kernel, by decide +kernel⟩,
   ⟨9, false, prun1, pa1 (fun x => { x with run := some prun1 }) on, by decide +kernel, by decide +kernel,
     by decide +kernel, by decide +kernel, by decide +kernel⟩⟩

theorem witness_PressChecks :
    (∃ (q : QuireId) (v : Vote) (l : List Vote) (r : PRun) (s : State), (s.qu q).votes = v :: l ∧ (s.press q
      v.press).run = some r ∧ v.started = false) ∧
    (∃ (q : QuireId) (v : Vote) (l : List Vote) (r : PRun) (s : State), (s.qu q).votes = v :: l ∧ (s.press q
      v.press).run = some r ∧ v.started = true) ∧
    (∃ (q : QuireId) (x : PressId) (r : PRun) (w : Nat × BitVec 64) (l : List (Nat × BitVec 64)) (s : State),
      (s.press q x).run = some r ∧ r.deliver = w :: l ∧ (s.press q x).frozen = false ∧ (s.st (⟨q, ⟨r.desc.deliv % 64,
      by omega⟩⟩ : StId)).waitingAt (r.desc.deliv / 64 % 32) < s.f (sb (⟨q, ⟨r.desc.deliv % 64, by omega⟩⟩ : StId))
      (portFld F.ST_PORT_credits (r.desc.deliv / 64 % 32))) ∧
    (∃ (q : QuireId) (x : PressId) (r : PRun) (w : Nat × BitVec 64) (l : List (Nat × BitVec 64)) (s : State),
      (s.press q x).run = some r ∧ r.deliver = w :: l ∧ (s.press q x).frozen = false ∧ s.f (sb (⟨q, ⟨r.desc.deliv %
      64, by omega⟩⟩ : StId)) (portFld F.ST_PORT_credits (r.desc.deliv / 64 % 32)) ≤ (s.st (⟨q, ⟨r.desc.deliv % 64,
      by omega⟩⟩ : StId)).waitingAt (r.desc.deliv / 64 % 32)) ∧
    (∃ (q : QuireId) (x : PressId) (r : PRun) (s : State), (s.press q x).run = some r ∧ r.desc.colTiles ≤ r.tile ∧
      (s.press q x).frozen = false ∧ r.deliver = []) ∧
    (∃ (q : QuireId) (c : Nat) (m : Flight) (l : List HeldOut) (s : State), (s.qu q).holding = ⟨c, .flight m⟩ :: l) ∧
    (∃ (q : QuireId) (c : Nat) (m : Fwd) (l : List HeldOut) (s : State), (s.qu q).holding = ⟨c, .fwd m⟩ :: l) :=
  ⟨⟨9, vote1, [], prun1, q1 (fun x => { x with votes := [vote1] }) (pa1 (fun x => { x with run := some prun1 }) on),
     by decide +kernel, by decide +kernel, by decide +kernel⟩,
   ⟨9, { vote1 with started := true, at_ := 2 }, [], prun1, q1 (fun x =>
     { x with votes := [{ vote1 with started := true, at_ := 2 }] }) (pa1 (fun x =>
     { x with run := some prun1, frozen := true }) on), by decide +kernel, by decide +kernel, by decide +kernel⟩,
   ⟨9, false, { prun1 with tile := 1, deliver := [(20, 7), (21, 8)] }, (20, 7), [(21, 8)], (pa1 (fun x =>
     { x with run := some { prun1 with tile := 1, deliver := [(20, 7), (21, 8)] } }) on).setF (sb ⟨9, 0⟩) (portFld
     F.ST_PORT_credits 0) 1, by decide +kernel, by decide +kernel, by decide +kernel, by decide +kernel⟩,
   ⟨9, false, { prun1 with tile := 1, deliver := [(20, 7), (21, 8)] }, (20, 7), [(21, 8)], pa1 (fun x =>
     { x with run := some { prun1 with tile := 1, deliver := [(20, 7), (21, 8)] } }) on, by decide +kernel,
     by decide +kernel, by decide +kernel, by decide +kernel⟩,
   ⟨9, false, { prun1 with tile := 1 }, pa1 (fun x => { x with run := some { prun1 with tile := 1 } }) on,
     by decide +kernel, by decide +kernel, by decide +kernel, by decide +kernel⟩,
   ⟨9, 20, flight1, [], q1 (fun x => { x with holding := [⟨20, .flight flight1⟩] }) on, by decide +kernel⟩,
   ⟨9, 20, ⟨0, 64, [1, 2], 5, 4⟩, [], q1 (fun x => { x with holding := [⟨20, .fwd ⟨0, 64, [1, 2], 5, 4⟩⟩] }) on,
     by decide +kernel⟩⟩

theorem witness_LeafWork :
    (∃ (q : QuireId) (w : HeldWrite) (s : State), (s.qu q).wbuf = [w] ∧ w.poison = 0 ∧ bandOf w.addr ∉ (s.qu
      q).filling ∧ cleanLeaf s q w.addr w.bytes.length ∧ (s.part (partOf q)).hints = [] ∧ (s.qu q).wwait = [] ∧
      s.freeAccess q 6 w.addr = true ∧ s.bulkWaits q w.writer = false) ∧
    (∃ (q : QuireId) (n : Nat) (w : HeldWrite) (s : State), (s.qu q).wbuf[n]? = some w ∧ ((∀ v ∈ (s.qu q).wbuf.take
      n, v.addr / 512 ≠ w.addr / 512)) ∧ bandOf w.addr ∉ (s.qu q).filling ∧ s.freeAccess q 6 w.addr = true ∧
      s.bulkWaits q w.writer = false) ∧
    (∃ (q : QuireId) (o : LeafOp) (l : List LeafOp) (s : State), (s.qu q).ops = o :: l ∧ o.running = false ∧
      s.leafOpCheck q o ≠ 0) ∧
    (∃ (q : QuireId) (o : LeafOp) (l : List LeafOp) (s : State), (s.qu q).ops = o :: l ∧ o.running = false ∧
      s.leafOpCheck q o = 0 ∧ o.op = 0 ∧ cleanLeaf s q o.dst o.len) ∧
    (∃ (q : QuireId) (o : LeafOp) (l : List LeafOp) (s : State), (s.qu q).ops = o :: l ∧ o.running = true) :=
  ⟨⟨9, held1 512 5, q1 (fun x => { x with wbuf := [held1 512 5] }) on, by decide +kernel, by decide +kernel,
     by decide +kernel, by decide +kernel, by decide +kernel, by decide +kernel, by decide +kernel,
     by decide +kernel⟩,
   ⟨9, 1, held1 512 5, q1 (fun x => { x with wbuf := [held1 1024 5, held1 512 5] }) on, by decide +kernel,
     by decide +kernel, by decide +kernel, by decide +kernel, by decide +kernel⟩,
   ⟨9, fill1 65, [], q1 (fun x => { x with ops := [fill1 65] }) on, by decide +kernel, by decide +kernel,
     by decide +kernel⟩,
   ⟨9, fill1 64, [], q1 (fun x => { x with ops := [fill1 64] }) on, by decide +kernel, by decide +kernel,
     by decide +kernel, by decide +kernel, by decide +kernel⟩,
   ⟨9, { fill1 64 with running := true }, [fill1 128], q1 (fun x =>
     { x with ops := [{ fill1 64 with running := true }, fill1 128] }) on, by decide +kernel, by decide +kernel⟩⟩

theorem witness_ClassesAndScrubber :
    (∃ (w : Writer) (q : QuireId) (i : Fin 32) (s : State), reaches s w (qb q + (R.LF_CLASS.nth i.val).off) ∧
      s.runsFree (partOf q) = true) ∧
    (∃ (w : Writer) (q : QuireId) (i : Fin 32) (s : State), reaches s w (qb q + (R.LF_CLASS.nth i.val).off) ∧
      s.runsFree (partOf q) = false) ∧
    (∃ (q : QuireId) (b : Nat) (l : List Nat) (s : State), (s.qu q).filling = b :: l ∧ (s.qu q).fillAt ≤ (s.part
      (partOf q)).cyc) ∧
    (∃ (q : QuireId) (s : State), (s.qu q).filling = []) ∧
    (∃ (q : QuireId) (s : State), s.f (qb q) F.LF_CTRL_scrub_en = 1 ∧ s.clockStopped (partOf q) = false ∧ (s.qu
      q).scrubDue ≤ s.ns ∧ (s.qu q).scrubOn = false) ∧
    (∃ (q : QuireId) (s : State), (s.qu q).scrubOn = true ∧ (s.qu q).scrubEnd = false ∧ (s.qu q).writeBack = none ∧
      s.f (qb q) F.LF_SCRUB_POS_bank < 255 ∧ s.clockStopped (partOf q) = false ∧ s.freeAccess q 8 (s.f (qb q)
      F.LF_SCRUB_POS_band * 2 ^ 17 + s.f (qb q) F.LF_SCRUB_POS_bank * 512) = true ∧ max (s.qu q).scrubNext ((s.qu
      q).copyPause (s.part (partOf q)).cyc) ≤ (s.part (partOf q)).cyc ∧ cleanLeaf s q (s.f (qb q) F.LF_SCRUB_POS_band
      * 2 ^ 17 + s.f (qb q) F.LF_SCRUB_POS_bank * 512) 512) ∧
    (∃ (q : QuireId) (w : WriteBack) (s : State), (s.qu q).writeBack = some w ∧ s.clockStopped (partOf q) = false ∧
      s.freeAccess q 8 w.addr = true) ∧
    (∃ (q : QuireId) (s : State), (s.qu q).scrubOn = true ∧ (s.qu q).scrubEnd = true ∧ (s.qu q).writeBack = none ∧
      s.clockStopped (partOf q) = false) :=
  ⟨⟨.ld 0, 9, 31, run1 on, by decide +kernel, by decide +kernel⟩,
   ⟨.ld 0, 9, 0, q1 (fun x => { x with leaf := memWrite [] 131071 [1, 2] }) on, by decide +kernel, by decide +kernel⟩,
   ⟨9, 3, [], q1 (fun x => { x with filling := [3] }) on, by decide +kernel, by decide +kernel⟩,
   ⟨9, on, by decide +kernel⟩,
   ⟨9, qf F.LF_CTRL_scrub_en 1 on, by decide +kernel, by decide +kernel, by decide +kernel, by decide +kernel⟩,
   ⟨9, qf F.LF_SCRUB_POS_bank 254 (q1 (fun x => { x with scrubOn := true }) on), by decide +kernel,
     by decide +kernel, by decide +kernel, by decide +kernel, by decide +kernel, by decide +kernel,
     by decide +kernel, by decide +kernel⟩,
   ⟨9, ⟨512, false⟩, q1 (fun x => { x with writeBack := some ⟨512, false⟩, leafMark := [(8, 1)] }) on,
     by decide +kernel, by decide +kernel, by decide +kernel⟩,
   ⟨9, q1 (fun x => { x with scrubOn := true, scrubEnd := true }) on, by decide +kernel, by decide +kernel,
     by decide +kernel, by decide +kernel⟩⟩

theorem witness_ChannelArrivals :
    (∃ (q : QuireId) (m : Flight) (l : List Flight) (s : State), takeLeast Flight.key (s.flights.filter (fun m =>
      decide (m.dst = q) && !m.span)) = some (m, l) ∧ s.unitWaits m.src m.dst = false ∧ s.addressed m.src m.dst =
      s.tileOf m.dst ∧ m.arrive ≤ (s.qu q).runAt m.relPos) ∧
    (∃ (q : QuireId) (m : Flight) (l : List Flight) (s : State), takeLeast s.spanKey (s.flights.filter (fun m =>
      decide (m.dst = q) && m.span && !s.unitWaits m.src m.dst)) = some (m, l) ∧ s.spanAborted m.src m.entry = false
      ∧ s.addressed m.src m.dst = s.tileOf m.dst) ∧
    (∃ (q : QuireId) (m : Flight) (l : List Flight) (s : State), takeLeast s.spanKey (s.flights.filter (fun m =>
      decide (m.dst = q) && m.span && !s.unitWaits m.src m.dst)) = some (m, l) ∧ s.spanAborted m.src m.entry = true) ∧
    (∃ (q : QuireId) (c : CreditFlight) (l : List CreditFlight) (s : State), takeLeast s.creditKey
      (s.creditFlights.filter (fun c => decide (c.src = q))) = some (c, l) ∧ s.unitWaits c.from_ c.src = false ∧
      s.addressed c.from_ q = s.tileOf q ∧ ((s.creditSpan c = true ∨ c.arrive ≤ (s.qu q).runAt c.usePos))) :=
  ⟨⟨9, in1, [], ported 8 { frame 150 on with flights := [flight1, in1] }, by decide +kernel, by decide +kernel,
     by decide +kernel, by decide +kernel⟩,
   ⟨9, { in1 with span := true }, [], ported 8 { frame 150 on with flights := [{ in1 with span := true }] },
     by decide +kernel, by decide +kernel, by decide +kernel⟩,
   ⟨9, { in1 with span := true }, [], (pf F.RS_STATUS_fenced 1 (ported 8
     { frame 150 on with flights := [{ in1 with span := true }] })).setF (eb 8 3) F.CH_ROUTE_A_span 1,
     by decide +kernel, by decide +kernel⟩,
   ⟨9, credit1, [], route 0 3 { frame 150 on with creditFlights := [credit1] }, by decide +kernel, by decide +kernel,
     by decide +kernel, by decide +kernel⟩⟩

theorem witness_Reconfiguration :
    (∃ (w : Writer) (p : PartId) (s : State), s.gateOf w (pt p + R.CH_RECONF.off) = .pass ∧ s.f (pt p)
      F.TK_STATUS_held = 1) ∧
    (∃ (w : Writer) (p : PartId) (s : State), s.gateOf w (pt p + R.CH_RECONF.off) = .pass ∧ s.f (pt p)
      F.TK_STATUS_held = 0) ∧
    (∃ (p : PartId) (s : State), s.f (pt p) F.CH_RECONF_state = 1 ∧ s.anyInFlight (maskQuires p (s.f (pt p)
      F.CH_RECONF_quires)) = false) ∧
    (∃ (p : PartId) (s : State), s.f (pt p) F.CH_RECONF_state = 1 ∧ s.anyInFlight (maskQuires p (s.f (pt p)
      F.CH_RECONF_quires)) = true ∧ s.f (pt p) F.CH_DRAIN_limit_ns ≠ 0 ∧ (s.part p).drainAt + s.f (pt p)
      F.CH_DRAIN_limit_ns ≤ s.ns) ∧
    (∃ (w : Writer) (p : PartId) (s : State), s.gateOf w (pt p + R.CH_RECONF.off) = .pass ∧ s.f (pt p)
      F.TK_STATUS_held = 1 ∧ ((∀ q ∈ maskQuires p (s.f (pt p) F.CH_RECONF_quires), s.inflight p ((s.f (qb q)
      F.CH_EPOCH_epoch + 1) % 4) = 0))) ∧
    (∃ (w : Writer) (p : PartId) (s : State), s.gateOf w (pt p + R.CH_RECONF.off) = .pass ∧ s.f (pt p)
      F.TK_STATUS_held = 0) ∧
    (∃ (w : Writer) (p : PartId) (s : State), s.gateOf w (pt p + R.CH_RECONF.off) = .pass) :=
  ⟨⟨.ld 0, 1, pf F.TK_STATUS_held 1 (pf F.CH_RECONF_quires 3 on), by decide +kernel, by decide +kernel⟩,
   ⟨.ld 0, 1, pf F.CH_RECONF_quires 3 on, by decide +kernel, by decide +kernel⟩,
   ⟨1, pf F.CH_RECONF_state 1 (pf F.CH_RECONF_quires 3 on), by decide +kernel, by decide +kernel⟩,
   ⟨1, pf F.CH_DRAIN_limit_ns 100 (pf F.CH_RECONF_state 1 (pf F.CH_RECONF_quires 3
     { on with flights := [in1], now := 800 })), by decide +kernel, by decide +kernel, by decide +kernel,
     by decide +kernel⟩,
   ⟨.ld 0, 1, route 0 3 (pf F.TK_STATUS_held 1 (pf F.CH_RECONF_quires 3 ((on).setSt u1
     { x2 with store := [wait1] }))), by decide +kernel, by decide +kernel, by decide +kernel⟩,
   ⟨.ld 0, 1, pf F.CH_RECONF_quires 3 on, by decide +kernel, by decide +kernel⟩,
   ⟨.ld 0, 1, pf F.CH_RECONF_refused 1 on, by decide +kernel⟩⟩

theorem witness_PagerEntries :
    (∃ (p : PartId) (h : Hint) (s : State), (s.part p).hints = [h] ∧ h.phase = .queued ∧ h.part = p ∧ h.isOut = false
      ∧ s.f (pt p) F.RS_STATUS_fenced = 0 ∧ h.code + 4 ≤ pmaEnd ∧ s.outstanding p + h.size / 256 ≤ 2048 ∧ s.f (tb p
      h.table) F.PG_TBL_CFG_mode = 0 ∧ s.memMark = [] ∧ (s.qu h.quire).wbuf.length ≤ 32 ∧ s.f (tb p h.table)
      F.PG_TBL_BASE_pma * 64 + s.pageIndex p h.table h.pos * h.size + h.size ≤ progEnd) ∧
    (∃ (p : PartId) (h : Hint) (s : State), (s.part p).hints = [h] ∧ h.phase = .queued ∧ s.f (pt p)
      F.RS_STATUS_fenced = 0 ∧ (s.findPage h).2.2.1 = 5) ∧
    (∃ (p : PartId) (s : State), s.f (pt p) F.RS_STATUS_fenced = 1) ∧
    (∃ (p : PartId) (h : Hint) (s : State), (s.part p).hints = [h] ∧ h.phase = .moving ∧ h.part = p ∧ h.isOut = false
      ∧ h.size ≤ h.moved ∧ ((∀ w ∈ (s.qu h.quire).wbuf ++ (s.qu h.quire).wwait, w.page ≠ some h.id)) ∧ s.f (pt p)
      F.RS_STATUS_fenced = 0 ∧ (s.part p).uploads = [] ∧ h.status = 0) ∧
    (∃ (p : PartId) (h : Hint) (s : State), (s.part p).hints = [h] ∧ h.phase = .moving ∧ h.part = p ∧ h.isOut = true
      ∧ s.routeDown (toMem p (s.tileOf h.quire)) = false ∧ s.f (pt p) F.RS_STATUS_fenced = 0 ∧ (s.part p).uploads =
      [] ∧ s.memMark = [] ∧ h.pma + h.data.length ≤ h.code) :=
  ⟨⟨1, hint1 .queued false, { hints1 [hint1 .queued false] on with mem := memWrite [] (2 ^ 38 + 512) [9, 8, 7] },
     by decide +kernel, by decide +kernel, by decide +kernel, by decide +kernel, by decide +kernel,
     by decide +kernel, by decide +kernel, by decide +kernel, by decide +kernel, by decide +kernel,
     by decide +kernel⟩,
   ⟨1, { hint1 .queued false with code := pmaEnd }, hints1 [{ hint1 .queued false with code := pmaEnd }] on,
     by decide +kernel, by decide +kernel, by decide +kernel, by decide +kernel⟩,
   ⟨1, pf F.RS_STATUS_fenced 1 on, by decide +kernel⟩,
   ⟨1, { hint1 .moving false with data := [1, 2] }, hints1 [{ hint1 .moving false with data := [1, 2] }] on,
     by decide +kernel, by decide +kernel, by decide +kernel, by decide +kernel, by decide +kernel,
     by decide +kernel, by decide +kernel, by decide +kernel, by decide +kernel⟩,
   ⟨1, hint1 .moving true, hints1 [hint1 .moving true] on, by decide +kernel, by decide +kernel, by decide +kernel,
     by decide +kernel, by decide +kernel, by decide +kernel, by decide +kernel, by decide +kernel,
     by decide +kernel⟩⟩

theorem witness_PagesDue :
    (∃ (q : QuireId) (pos : Nat) (s : State), s.nextDue q = some pos ∧ (s.qu q).open_ = true ∧ (s.qu q).done = false
      ∧ (s.qu q).inReset = false ∧ ((∀ h ∈ s.dueAt q pos, h.isDone = true))) ∧
    (∃ (q : QuireId) (pos : Nat) (h : Hint) (s : State), s.nextDue q = some pos ∧ (s.qu q).open_ = true ∧ (s.qu
      q).done = false ∧ (s.qu q).inReset = false ∧ h ∈ s.dueAt q pos ∧ h.isDone = false) ∧
    (∃ (p : PartId) (h : Hint) (s : State), (s.part p).hints = [h] ∧ h.phase = .complete ∧ h.part = p ∧ h.freed =
      false ∧ h.arrive ≤ (s.part p).cyc ∧ (s.qu h.quire).duePause = none) ∧
    (∃ (p : PartId) (ld : LdId) (off : BitVec 30) (bytes : List Byte) (s : State), s.takesMem = true ∧ s.bound ld p =
      true ∧ s.fenced p = false ∧ s.halfUp p = true ∧ s.f (pt p) F.PG_UPL_CTRL_target = 0 ∧ s.part p = .init ∧
      s.memMark = [] ∧ s.f (pt p) F.PG_UPL_BASE_pma * 64 + off.toNat + bytes.length ≤ progEnd) ∧
    (∃ (w : Writer) (p : PartId) (s : State), s.gateOf w (pt p + R.PG_UPL_FLUSH.off) = .pass) ∧
    (∃ (p : PartId) (s : State), s.f (pt p) F.PG_UPL_FLUSH_flush = 1 ∧ s.flushPending p = false) ∧
    (∃ (p : PartId) (s : State), s.flushPending p = true) :=
  ⟨⟨9, 40, hints1 [hint1 .complete false] (frame 160 on), by decide +kernel, by decide +kernel, by decide +kernel,
     by decide +kernel, by decide +kernel⟩,
   ⟨9, 40, hint1 .moving false, hints1 [hint1 .moving false] (frame 160 on), by decide +kernel, by decide +kernel,
     by decide +kernel, by decide +kernel, by decide +kernel, by decide +kernel⟩,
   ⟨1, hint1 .complete false, hints1 [hint1 .complete false] (frame 160 on), by decide +kernel, by decide +kernel,
     by decide +kernel, by decide +kernel, by decide +kernel, by decide +kernel⟩,
   ⟨1, 1, 0x1040, [1, 2, 3, 4], { on with mem := memWrite [] (2 ^ 38 + 0x1040) [9, 8, 7, 6, 5] }, by decide +kernel,
     by decide +kernel, by decide +kernel, by decide +kernel, by decide +kernel, by decide +kernel,
     by decide +kernel, by decide +kernel⟩,
   ⟨.ld 0, 1, p1 (fun x => { x with uploads := [⟨64, [1], 1, false⟩] }) on, by decide +kernel⟩,
   ⟨1, pf F.PG_UPL_FLUSH_flush 1 on, by decide +kernel, by decide +kernel⟩,
   ⟨1, p1 (fun x => { x with uploads := [⟨64, [1], 1, true⟩] }) (pf F.PG_UPL_FLUSH_flush 1 on), by decide +kernel⟩⟩

theorem witness_ClockSteps :
    (∃ (h : Half) (c : Nat) (s : State), (s.therm h).stepTo = some c ∧ c < 4 ∧ ((∀ p ∈ halfParts h, s.f (pt p)
      F.TK_STATUS_held = 1 ∧ nothingPends s p))) ∧
    (∃ (w : Writer) (v : Word) (s : State), s.gateOf w R.PW_CLK.off = .pass ∧ F.PW_CLK_spread.get v = s.f hub
      F.PW_CLK_spread) ∧
    (∃ (w : Writer) (v : Word) (s : State), s.gateOf w R.PW_CLK.off = .pass ∧ F.PW_CLK_spread.get v ≠ s.f hub
      F.PW_CLK_spread ∧ ((∀ h, s.halfState h = 0 ∧ s.halfClock h ≠ 3 ∧ (s.therm h).stepTo = none))) ∧
    (∃ (h : Half) (kHz : BitVec 32) (s : State), s.halfState h ≠ 2 ∧ s.stew.die = true ∧ (s.therm h).faulty = false ∧
      inBand kHz.toNat (s.halfClock h) = false) ∧
    (∃ (h : Half) (b : Nat) (s : State), (s.therm h).goodSince = some b ∧ b + 1000000 ≤ s.ns ∧ ((∀ p ∈ halfParts h,
      nothingPends s p))) :=
  ⟨⟨true, 2, p1 (fun x => { x with holds := [.clockStep] }) (therm1 (fun x => { x with stepTo := some 2 })
     (((on).setF (pt 1) F.TK_STATUS_held 1).setF (pt 3) F.TK_STATUS_held 1)), by decide +kernel, by decide +kernel,
     by decide +kernel⟩,
   ⟨.ld 0, 0x11, on, by decide +kernel, by decide +kernel⟩,
   ⟨.ld 0, 0, on, by decide +kernel, by decide +kernel, by decide +kernel⟩,
   ⟨true, 1970000, frame 150 on, by decide +kernel, by decide +kernel, by decide +kernel, by decide +kernel⟩,
   ⟨true, 0, p1 (fun x => { x with holds := [.clockMonitor] }) (therm1 (fun x =>
     { x with faulty := true, goodSince := some 0 }) { on with now := 8000000 }), by decide +kernel,
     by decide +kernel, by decide +kernel⟩⟩

theorem witness_Throttling :
    (∃ (junctions : List Int) (hubs : List Int) (h : Half) (s : State), junctions.length = 72 ∧ hubs.length = 4 ∧
      s.stew.die = true ∧ 95 ≤ hottest ((halfSensors h).map (fun i => junctions.getD i (-40))) ∧ (s.therm h).level ≠
      3) ∧
    (∃ (h : Half) (b : Nat) (s : State), (s.therm h).below87 = some b ∧ (s.therm h).level ≠ 0 ∧ (s.therm h).level < 3
      ∧ s.halfClock h = (s.therm h).level ∧ s.capLevel h < (s.therm h).level ∧ s.halfState h = 0 ∧ b + 10000000 ≤
      s.ns) ∧
    (∃ (h : Half) (b : Nat) (s : State), (s.therm h).below85 = some b ∧ (s.therm h).level = 3 ∧ hottest
      ((s.stew.temps.drop 72).take 4) < 95 ∧ b + 100000000 ≤ s.ns ∧ ((∀ p ∈ halfParts h, nothingPends s p))) ∧
    (∃ (s : State), s.stew.die = true ∧ s.hotSensor.isSome = true) ∧
    (∃ (i : Fin 16) (r : Restriction) (b : Nat) (s : State), s.stew.restrictions[i.val]? = some r ∧ r.leftAt = some b
      ∧ b + 10000000 ≤ s.ns) :=
  ⟨⟨List.replicate 19 40 ++ 95 :: List.replicate 52 40, [40, 40, 40, 40], true, frame 150 on, by decide +kernel,
     by decide +kernel, by decide +kernel, by decide +kernel, by decide +kernel⟩,
   ⟨true, 0, ((therm1 (fun x => { x with level := 1, below87 := some 0 }) { on with now := 80000000 }).setF (pt 1)
     F.TK_STATUS_clock 1).setF (pt 3) F.TK_STATUS_clock 1, by decide +kernel, by decide +kernel, by decide +kernel,
     by decide +kernel, by decide +kernel, by decide +kernel, by decide +kernel⟩,
   ⟨true, 0, p1 (fun x => { x with holds := [.critical] }) (therm1 (fun x =>
     { x with level := 3, below85 := some 0 })
     { on with now := 800000000, stew := { on.stew with temps := List.replicate 76 40 } }), by decide +kernel,
     by decide +kernel, by decide +kernel, by decide +kernel, by decide +kernel⟩,
   ⟨{ on with mem := [(5, 1)], stew := { on.stew with temps := 105 :: List.replicate 75 40 } }, by decide +kernel,
     by decide +kernel⟩,
   ⟨0, ⟨0x18, .tile 9, 0, true, some 0⟩, 0,
     { on with now := 80000000, stew := { on.stew with restrictions := [⟨0x18, .tile 9, 0, true, some 0⟩] } },
     by decide +kernel, by decide +kernel, by decide +kernel⟩⟩

theorem witness_HalfRequests :
    (∃ (w : Writer) (h : Half) (s : State), s.gateOf w R.MS_HALF_REQ.off = .pass ∧ ((s.halfState h = 1 ∨ s.halfState
      h = 2))) ∧
    (∃ (w : Writer) (h : Half) (s : State), s.gateOf w R.MS_HALF_REQ.off = .pass ∧ s.halfState h = 0 ∧ s.busyRun h =
      false ∧ s.busySpan h = false) ∧
    (∃ (w : Writer) (h : Half) (s : State), s.gateOf w R.MS_HALF_REQ.off = .pass ∧ s.halfState h = 0 ∧ s.busyRun h =
      false ∧ s.busySpan h = false) ∧
    (∃ (w : Writer) (h : Half) (s : State), s.gateOf w R.MS_HALF_REQ.off = .pass ∧ s.halfState h = 0 ∧ ((s.busyRun h
      = true ∨ s.busySpan h = true))) ∧
    (∃ (w : Writer) (h : Half) (s : State), s.gateOf w R.MS_HALF_REQ.off = .pass ∧ s.halfState h = 0 ∧ ((s.busyRun h
      = true ∨ s.busySpan h = true))) ∧
    (∃ (h : Half) (c : HalfChange) (s : State), s.halfChange h = some c ∧ ((c.target = 1 ∨ c.target = 2))) ∧
    (∃ (h : Half) (c : HalfChange) (s : State), s.halfChange h = some c ∧ c.target = 0 ∧ c.firstDone = true ∧
      c.secondAt ≤ s.ns ∧ s.spine = []) :=
  ⟨⟨.ld 0, true, hf F.MS_HALF_east 1 on, by decide +kernel, by decide +kernel⟩,
   ⟨.ld 0, true, on, by decide +kernel, by decide +kernel, by decide +kernel, by decide +kernel⟩,
   ⟨.ld 0, true, on, by decide +kernel, by decide +kernel, by decide +kernel, by decide +kernel⟩,
   ⟨.ld 0, true, run1 on, by decide +kernel, by decide +kernel, by decide +kernel⟩,
   ⟨.ld 0, true, ((on.setF (pt 1) F.MS_SPAN_seam 1).setF (pt 1) F.MS_SPAN_members 3).setF (pt 0) F.TK_STATUS_running
     1, by decide +kernel, by decide +kernel, by decide +kernel⟩,
   ⟨true, ⟨2, 1, 0, 0, false, 0, 1⟩, hf F.MS_HALF_east 3
     { on with halfChg := [(1, some ⟨2, 1, 0, 0, false, 0, 1⟩)] }, by decide +kernel, by decide +kernel⟩,
   ⟨true, ⟨0, 1, 0, 0, true, 0, 1⟩, hf F.MS_HALF_east 3 { on with halfChg := [(1, some ⟨0, 1, 0, 0, true, 0, 1⟩)] },
     by decide +kernel, by decide +kernel, by decide +kernel, by decide +kernel, by decide +kernel⟩⟩

theorem witness_PowerInputs :
    (∃ (fast : List Nat) (slow : List Nat) (p : PartId) (s : State), fast.length = 4 ∧ slow.length = 4 ∧ s.stew.die =
      true ∧ (s.part p).capOwn = false ∧ 105 * (s.part p).budget < 100 * fast.getD p.val 0 ∧ s.f (pt p) F.PW_PART_cap
      = 0) ∧
    (∃ (mv : BitVec 16) (s : State), s.stew.running = true ∧ s.stew.die = true ∧ inputBand mv.toNat ≠ 2) ∧
    (∃ (mv : BitVec 16) (s : State), s.stew.running = true ∧ s.stew.devTest ≠ some 3 ∧ inputBand mv.toNat = 2) ∧
    (∃ (w : Writer) (p : PartId) (s : State), s.gateOf w (pt p + R.PW_BUDGET.off) = .pass) ∧
    (∃ (w : Writer) (s : State), s.gateOf w R.HB_TICK_IO.off = .pass ∧ s.ioNext = none ∧ s.pulseEnd ≤ s.now) :=
  ⟨⟨[0, 316, 0, 0], [0, 310, 0, 0], 1, run1 on, by decide +kernel, by decide +kernel, by decide +kernel,
     by decide +kernel, by decide +kernel, by decide +kernel⟩,
   ⟨43000, on, by decide +kernel, by decide +kernel, by decide +kernel⟩,
   ⟨41999, { on with mem := [(5, 1)] }, by decide +kernel, by decide +kernel, by decide +kernel⟩,
   ⟨.ld 0, 1, on, by decide +kernel⟩,
   ⟨.ld 0, on, by decide +kernel, by decide +kernel, by decide +kernel⟩⟩

theorem witness_LinksAndMaps :
    (∃ (n : LinkId) (dir : Bool) (s : State), (s.link n dir).down = false ∧ (s.link n dir).retrainEnd = none) ∧
    (∃ (n : LinkId) (dir : Bool) (s : State), (s.link n dir).down = false ∧ (s.link n dir).retrainEnd = none) ∧
    (∃ (n : LinkId) (dir : Bool) (e : Nat) (s : State), (s.link n dir).retrainEnd = some e ∧ e ≤ s.ns) ∧
    (∃ (n : LinkId) (dir : Bool) (lane : Nat) (rest : List Nat) (s : State), (s.link n dir).failing = lane :: rest ∧
      (s.link n dir).spared.length < 2 ∧ ((∀ p ∈ s.linkParts n, s.f (pt p) F.TK_STATUS_held = 1 ∧ (s.part p).uploads
      = [] ∧ (s.part p).hints = [])) ∧ s.flights = [] ∧ s.creditFlights = []) ∧
    (∃ (q : QuireId) (n : BitVec 16) (c : CreditFlight) (l : List CreditFlight) (s : State), takeLeast s.creditKey
      (s.creditFlights.filter (fun c => decide (c.src = q) && !s.creditSpan c)) = some (c, l) ∧ s.unitWaits c.from_
      c.src = false ∧ s.addressed c.from_ q = s.tileOf q ∧ c.arrive ≤ (s.qu q).runAt c.usePos ∧ c.epoch = s.f (eb q
      c.entry) F.CH_ROUTE_A_epoch ∧ n ≠ 0) ∧
    (∃ (p : PartId) (m : List (Option TileId)) (spare : Option TileId) (s : State), mapOk p m spare = true ∧ ((∀ r,
      s.halfDown r = false)) ∧ s.spanOf p = [p] ∧ (s.part p).frameOpen = false ∧ s.unitsOf p = 0 ∧ nothingPends s p) ∧
    (∃ (p : PartId) (m : List (Option TileId)) (spare : Option TileId), mapOk p m spare = false) ∧
    (∃ (stop : Fin 42) (s : State), ((stop.val < 36 → s.halfDown (tilePart stop.val) = false))) ∧
    (∃ (stop : Fin 42) (s : State), stop.val < 36 ∧ s.halfDown (tilePart stop.val) = true) :=
  ⟨⟨5, true, { on with links := spSet .init [] (linkKey 5 true) { LinkSt.init with fails := 2 } }, by decide +kernel,
     by decide +kernel⟩,
   ⟨5, true, { on with links := spSet .init [] (linkKey 5 true) { LinkSt.init with fails := 2 } }, by decide +kernel,
     by decide +kernel⟩,
   ⟨5, true, 0, { on with links := spSet .init [] (linkKey 5 true) { LinkSt.init with retrainEnd := some 0 } },
     by decide +kernel, by decide +kernel⟩,
   ⟨5, true, 40, [], (List.range 4).foldl (fun s i => s.setF (pt (Fin.ofNat 4 i)) F.TK_STATUS_held 1)
     ({ on with links := spSet .init [] (linkKey 5 true) { LinkSt.init with failing := [40], spared := [3] } }),
     by decide +kernel, by decide +kernel, by decide +kernel, by decide +kernel, by decide +kernel⟩,
   ⟨9, 5, credit1, [], route 0 3 { frame 150 on with creditFlights := [credit1] }, by decide +kernel,
     by decide +kernel, by decide +kernel, by decide +kernel, by decide +kernel, by decide +kernel⟩,
   ⟨1, [10, 3, 4, 5, 9, 11, 15, 16].map some, some 17, on, by decide +kernel, by decide +kernel, by decide +kernel,
     by decide +kernel, by decide +kernel, by decide +kernel⟩,
   ⟨1, (List.range 8).map (fun i => some (Fin.ofNat 36 (18 + i))), some 9, by decide +kernel⟩,
   ⟨40, on, by decide +kernel⟩,
   ⟨10, hf F.MS_HALF_east 1 on, by decide +kernel, by decide +kernel⟩⟩

theorem witness_SpineExchange :
    (∃ (stop : Fin 42) (cls : Fin 5) (seq : Byte) (m : SpMsg) (s : State), s.spine = [m] ∧ m.stop = stop.val ∧ m.cls
      = cls.val ∧ m.seq = seq.toNat ∧ m.opcode ≠ 0x7E ∧ m.got = true) ∧
    (∃ (stop : Fin 42) (cls : Fin 5) (seq : Byte) (m : SpMsg) (s : State), s.spine = [m] ∧ m.stop = stop.val ∧ m.cls
      = cls.val ∧ m.seq = seq.toNat ∧ m.opcode ≠ 0x7E ∧ ((m.held = false ∨ m.wake = false)) ∧ m.sentAt + 2000 ≤ s.ns
      ∧ m.again = false) ∧
    (∃ (stop : Fin 42) (cls : Fin 5) (seq : Byte) (m : SpMsg) (s : State), s.spine = [m] ∧ m.stop = stop.val ∧ m.cls
      = cls.val ∧ m.seq = seq.toNat ∧ m.opcode = 0x20 ∧ ((m.held = false ∨ m.wake = false)) ∧ m.sentAt + 2000 ≤ s.ns
      ∧ m.again = true) ∧
    (∃ (stop : Fin 42) (cls : Fin 5) (seq : Byte) (n : SpMsg) (m : SpMsg) (s : State), s.spine = [n, m] ∧ n.opcode =
      0x7E ∧ n.dest = stop.val ∧ n.cls = cls.val ∧ n.arg = seq.toNat ∧ m.stop = stop.val ∧ m.cls = cls.val ∧ m.seq =
      seq.toNat ∧ n ≠ m ∧ m.opcode = 0x20) ∧
    (∃ (q : QuireId) (s : State), s.present q = true ∧ s.halfDown (partOf q) = false ∧ s.partResets (partOf q) =
      false ∧ s.spine = [] ∧ (s.qu q).inReset = false) ∧
    (∃ (p : PartId) (cause : Nat) (s : State), s.spine = [] ∧ s.stew.resetReqs = [(p, cause)] ∧ (s.part p).recovery =
      none ∧ s.f (pt p) F.RS_STATUS_withdrawn = 0) ∧
    (∃ (p : PartId) (r : Fin 4) (i : Intake) (s : State), (s.part p).intakes = [i] ∧ i.ring = r.val ∧ i.got = false ∧
      i.tick < 2 ^ 16) ∧
    (∃ (p : PartId) (r : Fin 4) (i : Intake) (s : State), (s.part p).intakes = [i] ∧ i.ring = r.val ∧ i.got = false ∧
      i.tick < 2 ^ 16) :=
  ⟨⟨9, 4, 6, { msg1 0x20 3 4 77 with got := true }, spine [{ msg1 0x20 3 4 77 with got := true }] on,
     by decide +kernel, by decide +kernel, by decide +kernel, by decide +kernel, by decide +kernel,
     by decide +kernel⟩,
   ⟨9, 4, 6, msg1 0x20 3 4 77, spine [msg1 0x20 3 4 77] { on with now := 80000 }, by decide +kernel,
     by decide +kernel, by decide +kernel, by decide +kernel, by decide +kernel, by decide +kernel,
     by decide +kernel, by decide +kernel⟩,
   ⟨9, 4, 6, { msg1 0x20 3 4 77 with again := true }, spine [{ msg1 0x20 3 4 77 with again := true }]
     { on with now := 80000 }, by decide +kernel, by decide +kernel, by decide +kernel, by decide +kernel,
     by decide +kernel, by decide +kernel, by decide +kernel, by decide +kernel⟩,
   ⟨9, 4, 6, { msg1 0x7E 9 4 6 with seq := 0 }, msg1 0x20 3 4 77, spine [{ msg1 0x7E 9 4 6 with seq := 0 }, msg1 0x20
     3 4 77] on, by decide +kernel, by decide +kernel, by decide +kernel, by decide +kernel, by decide +kernel,
     by decide +kernel, by decide +kernel, by decide +kernel, by decide +kernel, by decide +kernel⟩,
   ⟨9, frame 150 (fireIn on x1 (.nop u1)), by decide +kernel, by decide +kernel, by decide +kernel,
     by decide +kernel, by decide +kernel⟩,
   ⟨1, 3, st (fun x => { x with resetReqs := [(1, 3)] }) on, by decide +kernel, by decide +kernel, by decide +kernel,
     by decide +kernel⟩,
   ⟨1, 1, ⟨1, false, 5, [], false⟩, p1 (fun x => { x with intakes := [⟨1, false, 5, [], false⟩] }) on,
     by decide +kernel, by decide +kernel, by decide +kernel, by decide +kernel⟩,
   ⟨1, 1, ⟨1, false, 5, [], false⟩, p1 (fun x => { x with intakes := [⟨1, false, 5, [], false⟩] }) on,
     by decide +kernel, by decide +kernel, by decide +kernel, by decide +kernel⟩⟩

theorem witness_RegisterAccess :
    (∃ (w : Writer) (s : State), s.gateOf w R.EV_CFG.off = .pass) ∧
    (∃ (w : Writer) (s : State), s.gateOf w R.EV_CFG.off = .pass) ∧
    (∃ (w : Writer) (p : PartId) (s : State), s.gateOf w (pt p + R.CH_DRAIN.off) = .pass ∧ s.spine = []) ∧
    (∃ (w : Writer) (p : PartId) (s : State), s.gateOf w (pt p + R.CH_DRAIN.off) = .pass ∧ s.spine = []) ∧
    (∃ (w : Writer) (q : QuireId) (i : Fin 64) (s : State), reaches s w (qb q + (R.ST_SR_SEED.nth i.val).off) ∧
      s.spine = []) ∧
    (∃ (w : Writer) (q : QuireId) (i : Fin 64) (s : State), reaches s w (qb q + (R.ST_SR_SEED.nth i.val).off) ∧
      s.spine = []) ∧
    (∃ (addr : BitVec 28) (s : State), s.stew.die = true ∧ ((∀ p, (s.part p).pubs = [])) ∧ blockPart addr.toNat =
      none ∧ addr.toNat % 4 = 0) ∧
    (∃ (addr : BitVec 28) (p : PartId) (s : State), s.stew.die = true ∧ ((∀ r, (s.part r).pubs = [])) ∧ blockPart
      addr.toNat = some p ∧ addr.toNat % 4 = 0 ∧ s.asleepCause addr.toNat = none ∧ s.spine = []) ∧
    (∃ (w : Writer) (addr : BitVec 28) (m : SpMsg) (s : State), s.spine = [m] ∧ m.opcode = 0x22 ∧ m.arg = readKey w
      addr.toNat ∧ m.dest = accessDest w ∧ underway m) ∧
    (∃ (r : RegAt), r.width ≠ .w32) ∧
    (∃ (r : RegAt), r.width ≠ .w32) :=
  ⟨⟨.ld 0, on, by decide +kernel⟩,
   ⟨.ld 0, on, by decide +kernel⟩,
   ⟨.ld 0, 1, on, by decide +kernel, by decide +kernel⟩,
   ⟨.ld 0, 1, on, by decide +kernel, by decide +kernel⟩,
   ⟨.ld 0, 9, 7, on, by decide +kernel, by decide +kernel⟩,
   ⟨.ld 0, 9, 7, on, by decide +kernel, by decide +kernel⟩,
   ⟨BitVec.ofNat 28 R.PW_CLK.off, on, by decide +kernel, by decide +kernel, by decide +kernel, by decide +kernel⟩,
   ⟨BitVec.ofNat 28 (pt 1 + R.TK_MODE.off), 1, on, by decide +kernel, by decide +kernel, by decide +kernel,
     by decide +kernel, by decide +kernel, by decide +kernel⟩,
   ⟨.ld 0, 0x40, msg1 0x22 39 4 (readKey (.ld 0) 0x40), spine [msg1 0x22 39 4 (readKey (.ld 0) 0x40)] on,
     by decide +kernel, by decide +kernel, by decide +kernel, by decide +kernel, by decide +kernel⟩,
   ⟨⟨BitVec.ofNat 28 R.EV_CFG.off, .w16⟩, by decide +kernel⟩,
   ⟨⟨BitVec.ofNat 28 R.EV_CFG.off, .w16⟩, by decide +kernel⟩⟩

theorem witness_ProgramLoads :
    (∃ (p : PartId) (im : Image) (n : Notice) (s : State), s.delivered p 1 = some n ∧ n.ptr / 64 = im.pma ∧ s.running
      p = false ∧ s.estimate p im ≤ s.f (pt p) F.PW_BUDGET_watts * 100 ∧ s.badShape p im = false) ∧
    (∃ (u : StId) (im : StImage) (l : Load) (s : State), s.imageOf u = some (l, im) ∧ im.u = u ∧ s.spine = [] ∧
      s.present u.quire = true ∧ s.halfDown (partOf u.quire) = false) ∧
    (∃ (p : PartId) (im : Image) (x : StImage) (chunk : Fin 512) (s : State), loading s p im 0 [] ∧ im.stitchers =
      [x] ∧ partOf x.u.quire = p ∧ chunk.val < imCount x 1 ∧ s.halfDown p = false) ∧
    (∃ (p : PartId) (im : Image) (s : State), loading s p im 0 [] ∧ im.stitchers ≠ [] ∧ s.halfDown p = false ∧ ((∀ x
      ∈ im.stitchers, partOf x.u.quire = p))) ∧
    (∃ (u : StId) (im : Image) (x : StImage) (l : Load) (s : State), s.imageOf u = some (l, x) ∧ u ∈ l.waiting ∧ u ∉
      l.deaf ∧ l.waiting.erase u ≠ [] ∧ s.f (sb u) F.ST_STATUS_sealed = 1 ∧ s.spine = [] ∧ l.image = im) ∧
    (∃ (u : StId) (x : StImage) (l : Load) (s : State), s.imageOf u = some (l, x) ∧ l.waiting = [u] ∧ u ∉ l.deaf ∧
      ((∀ y ∈ l.image.stitchers, s.f (sb y.u) F.ST_STATUS_sealed = 1)) ∧ s.spine = [] ∧ s.f (sb u) F.ST_STATUS_sealed
      = 1 ∧ nothingPends s (partOf u.quire)) ∧
    (∃ (u : StId) (x : StImage) (l : Load) (s : State), s.imageOf u = some (l, x) ∧ u ∈ l.waiting ∧ l.waiting.erase u
      ≠ [] ∧ l.endAt + 2000 ≤ s.ns) :=
  ⟨⟨1, image1, { note1 1 with ptr := 0x10000 }, notes [note1 1] on, by decide +kernel, by decide +kernel,
     by decide +kernel, by decide +kernel, by decide +kernel⟩,
   ⟨u1, stim u1, load1 image1 [], loadOn (load1 image1 []) on, by decide +kernel, by decide +kernel,
     by decide +kernel, by decide +kernel, by decide +kernel⟩,
   ⟨1, { image1 with stitchers := [stim u1] }, stim u1, 1, loadOn
     { load1 { image1 with stitchers := [stim u1] } [] with round := 0 } on, ⟨_, rfl, rfl, rfl, rfl⟩,
     by decide +kernel, by decide +kernel, by decide +kernel, by decide +kernel⟩,
   ⟨1, image1, loadOn { load1 image1 [] with round := 0 } on, ⟨_, rfl, rfl, rfl, rfl⟩, by decide +kernel,
     by decide +kernel, by decide +kernel⟩,
   ⟨u1, image1, stim u1, load1 image1 [u1, ⟨9, 4⟩], (List.range 2).foldl (fun s i => s.setF (sb ⟨9, Fin.ofNat 64 (3 +
     i)⟩) F.ST_STATUS_sealed 1) (loadOn (load1 image1 [u1, ⟨9, 4⟩]) on), by decide +kernel, by decide +kernel,
     by decide +kernel, by decide +kernel, by decide +kernel, by decide +kernel, by decide +kernel⟩,
   ⟨u1, stim u1, load1 image1 [u1], (List.range 2).foldl (fun s i => s.setF (sb ⟨9, Fin.ofNat 64 (3 + i)⟩)
     F.ST_STATUS_sealed 1) (loadOn (load1 image1 [u1]) on), by decide +kernel, by decide +kernel, by decide +kernel,
     by decide +kernel, by decide +kernel, by decide +kernel, by decide +kernel⟩,
   ⟨u1, stim u1, load1 image1 [u1, ⟨9, 4⟩], loadOn (load1 image1 [u1, ⟨9, 4⟩]) { on with now := 80000 },
     by decide +kernel, by decide +kernel, by decide +kernel, by decide +kernel⟩⟩

theorem witness_InboxRings :
    (∃ (ld : LdId) (p : PartId) (r : Fin 4) (l : Nat) (off : BitVec 20) (bytes : List Byte) (s : State), s.takesMem =
      true ∧ s.bound ld p = true ∧ s.fenced p = false ∧ off.toNat = r.val * 0x40000 + 64 * l ∧ l < s.ringSize p r ∧ l
      < 4096 ∧ bytes.length = 64 ∧ s.f (ib p r) F.CX_IN_CFG_valid = 1 ∧ s.f (ib p r) F.CX_IN_CFG_strike = 0 ∧ linesOf
      ((s.ring p r).sealedBy (s.part p).cyc) ≤ (l + s.ringSize p r - s.f (ib p r) F.CX_IN_CONS_c % s.ringSize p r) %
      s.ringSize p r) ∧
    (∃ (p : PartId) (r : Fin 4) (s : State), s.f (ib p r) F.CX_IN_CFG_valid = 1 ∧ s.f (ib p r) F.CX_IN_STAT_bad = 0 ∧
      (s.ring p r).msgs = [] ∧ (s.ring p r).staleSeen = false ∧ (s.headLines p r).1 ≠ 0 ∧ (s.headLines p r).2 - 1 +
      1000 * (if s.f (pt p) F.CX_IN_STALE_limit_us = 0 then 10000 else s.f (pt p) F.CX_IN_STALE_limit_us) ≤ s.ns) ∧
    (∃ (w : Writer) (p : PartId) (r : Fin 4) (m : InMsg) (l : List InMsg) (s : State), s.gateOf w (ib p r +
      R.CX_IN_CTRL.off) = .pass ∧ (s.ring p r).msgs = m :: l ∧ s.f (ib p r) F.CX_IN_CFG_strike = 0) ∧
    (∃ (w : Writer) (p : PartId) (r : Fin 4) (s : State), s.gateOf w (ib p r + R.CX_IN_CTRL.off) = .pass) ∧
    (∃ (p : PartId) (r : Fin 4) (m : InMsg) (s : State), nextCopy [] ((s.ring p r).bound ++ (s.ring p r).msgs) = some
      (m, []) ∧ (s.qu (quireOf p (s.f (ib p r) F.CX_IN_TGT_quire))).wwait = [] ∧ (s.qu (quireOf p (s.f (ib p r)
      F.CX_IN_TGT_quire))).wbuf.length + (rowParts ((s.landSlot p r m.seq).2) m.landed.length).length ≤ 32) ∧
    (∃ (p : PartId) (r : Fin 4) (d : DueTok) (seq : Nat) (s : State), (s.part p).dueToks = [d] ∧ d.msg = some (r.val,
      seq) ∧ (s.qu d.u.quire).open_ = true ∧ s.copyLanded p r seq = true ∧ d.blocked = false ∧ d.port < 32 ∧ d.tag <
      4096 ∧ receivable s d.u
      (({ data := d.data, tag := d.tag, port := d.port, epoch := s.f (qb d.u.quire) F.CH_EPOCH_epoch, ctl := d.ctl, check := 0 }
      : Tok).sealed d.u)) :=
  ⟨⟨1, 1, 1, 5, 0x40140, List.replicate 64 0x5A, inring id on, by decide +kernel, by decide +kernel,
     by decide +kernel, by decide +kernel, by decide +kernel, by decide +kernel, by decide +kernel,
     by decide +kernel, by decide +kernel, by decide +kernel⟩,
   ⟨1, 1, inring (fun x => { x with cells := memWrite [] 0 (leBytes 4 0 ++ leBytes 2 40), came := [(0, 1)] })
     { on with now := 800000000 }, by decide +kernel, by decide +kernel, by decide +kernel, by decide +kernel,
     by decide +kernel, by decide +kernel⟩,
   ⟨.ld 0, 1, 1, inmsg1 false, [], inring (fun x => { x with msgs := [inmsg1 false] }) on, by decide +kernel,
     by decide +kernel, by decide +kernel⟩,
   ⟨.ld 0, 1, 1, inring (fun x => { x with msgs := [inmsg1 false] }) on, by decide +kernel⟩,
   ⟨1, 1, inmsg1 false, inring (fun x => { x with msgs := [inmsg1 false] }) on, by decide +kernel, by decide +kernel,
     by decide +kernel⟩,
   ⟨1, 1, ⟨12, u1, 2, 9, false, 0x55, some (1, 3), none, false⟩, 3, inring (fun x =>
     { x with bound := [inmsg1 true] }) (p1 (fun x =>
     { x with dueToks := [⟨12, u1, 2, 9, false, 0x55, some (1, 3), none, false⟩] }) (ported 8 (frame 150 on))),
     by decide +kernel, by decide +kernel, by decide +kernel, by decide +kernel, by decide +kernel,
     by decide +kernel, by decide +kernel, by decide +kernel⟩⟩

theorem witness_ResultStore :
    (∃ (q : QuireId) (w : Fwd) (l : List Fwd) (s : State), (s.qu q).forwards = w :: l ∧ s.forwardAt q w ≤ (s.part
      (partOf q)).cyc ∧ (s.part (partOf q)).pubs = [] ∧ (s.slot (partOf q) w.slot).closed w.tick = false ∧ (s.slot
      (partOf q) w.slot).ctl ≠ some w.tick ∧ 64 ≤ w.off ∧ w.bytes ≠ []) ∧
    (∃ (q : QuireId) (w : Fwd) (l : List Fwd) (s : State), (s.qu q).forwards = w :: l ∧ s.forwardAt q w ≤ (s.part
      (partOf q)).cyc ∧ (s.part (partOf q)).pubs = [] ∧ (s.slot (partOf q) w.slot).closed w.tick = false ∧ (s.slot
      (partOf q) w.slot).ctl ≠ some w.tick ∧ w.off < 64 ∧ w.off + w.bytes.length ≤ 64) ∧
    (∃ (ld : LdId) (p : PartId) (k : Fin 32) (v : DWord) (s : State), s.takesMem = true ∧ s.bound ld p = true ∧
      s.fenced p = false ∧ (s.part p).pubs = [] ∧ s.f (lb p k) F.CX_SLOT_CFG_valid = 1 ∧ s.f (lb p k)
      F.CX_SLOT_CFG_mode = 1 ∧ (s.slot p k).ack ≤ v.toNat ∧ v.toNat ≤ (s.slot p k).seq) :=
  ⟨⟨9, fwd1 64 20, [], slot2 (q1 (fun x => { x with forwards := [fwd1 64 20] }) (frame 150 on)), by decide +kernel,
     by decide +kernel, by decide +kernel, by decide +kernel, by decide +kernel, by decide +kernel,
     by decide +kernel⟩,
   ⟨9, fwd1 0 8, [], slot2 (q1 (fun x => { x with forwards := [fwd1 0 8] }) (frame 150 on)), by decide +kernel,
     by decide +kernel, by decide +kernel, by decide +kernel, by decide +kernel, by decide +kernel,
     by decide +kernel⟩,
   ⟨1, 1, 2, 3, ((slot2 on).setF (lb 1 2) F.CX_SLOT_CFG_mode 1).setSlot 1 2 { SlotSt.init with seq := 5, ack := 2 },
     by decide +kernel, by decide +kernel, by decide +kernel, by decide +kernel, by decide +kernel,
     by decide +kernel, by decide +kernel, by decide +kernel⟩⟩

theorem witness_WindowAndLink :
    (∃ (s : State), s.stew.die = true ∧ s.insecure = false ∧ s.filter.length < filterSize ∧ ((∀ p, (s.part p).pubs =
      []))) ∧
    (∃ (line : BitVec 35) (s : State), s.stew.die = true ∧ s.insecure = false ∧ s.withdrawn = false ∧ 64 * line.toNat
      + 64 ≤ 16384 ∧ ((∀ p, (s.part p).pubs = []))) ∧
    (∃ (off : BitVec 41) (bytes : List Byte) (s : State), s.takesMem = true ∧ off.toNat % 4 = 0 ∧ bytes.length % 4 =
      0 ∧ off.toNat + bytes.length ≤ 16384) ∧
    (∃ (ld : LdId) (off : BitVec 41) (bytes : List Byte) (s : State), s.takesOwn ld = true ∧ 0x10000 ≤ off.toNat ∧
      off.toNat + bytes.length ≤ 0x20000) ∧
    (∃ (ld : LdId) (line : BitVec 35) (s : State), s.snoops.contains (ld.val, line.toNat) = true ∧ s.readWait = []) ∧
    (∃ (s : State), s.f hub F.CX_LINK_ide = 1) ∧
    (∃ (s : State), s.stew.die = true) ∧
    (∃ (s : State), s.stew.die = true) ∧
    (∃ (ld : LdId) (s : State), s.stew.die = true ∧ s.f hub (F.CX_LD_BIND_present.nth ld.val) = 1) ∧
    (∃ (s : State), s.stew.die = true) :=
  ⟨⟨{ on with ctlPage := memWrite [] 0x1140 [1, 2, 3] }, by decide +kernel, by decide +kernel, by decide +kernel,
     by decide +kernel⟩,
   ⟨5, on, by decide +kernel, by decide +kernel, by decide +kernel, by decide +kernel, by decide +kernel⟩,
   ⟨0x40, [1, 2, 3, 4], on, by decide +kernel, by decide +kernel, by decide +kernel, by decide +kernel⟩,
   ⟨1, 0x10040, [1, 2], on, by decide +kernel, by decide +kernel, by decide +kernel⟩,
   ⟨1, 5, { on with snoops := [(1, 5)], filter := [(1, 5), (1, 6)] }, by decide +kernel, by decide +kernel⟩,
   ⟨hf F.CX_LINK_ide 1 on, by decide +kernel⟩,
   ⟨hf F.CX_LINK_ide 2 on, by decide +kernel⟩,
   ⟨on, by decide +kernel⟩,
   ⟨1, on, by decide +kernel, by decide +kernel⟩,
   ⟨notes [note1 3] { on with ctlPage := [(4096, 3)] }, by decide +kernel⟩⟩

theorem witness_NoticePath :
    (∃ (ld : LdId) (p : PartId) (bit : Fin 32) (off : BitVec 12) (rcd : List Byte) (s : State), off.toNat = 0x200 *
      (p.val + 1) + 16 * bit.val ∧ rcd.length = 16 ∧ s.takesOwn ld = true ∧ s.withdrawn = false ∧ s.bound ld p = true
      ∧ s.noticeAt (p.val + 1) bit.val = none ∧ s.f (pt p) F.MB_MASK_mask / 2 ^ bit.val % 2 = 1) ∧
    (∃ (ld : LdId) (bit : Fin 32) (n : Notice) (m : SpMsg) (s : State), s.spine = [m] ∧ m.opcode = 0x10 ∧ m.arg =
      noticeArg ld.val 0 bit.val ∧ m.dest = boxDest 0 ∧ underway m ∧ s.notices = [n] ∧ n.ld = ld.val ∧ n.mailbox = 0
      ∧ n.bit = bit.val ∧ bit.val = 0 ∧ s.isCommand n = true) ∧
    (∃ (ld : LdId) (p : PartId) (bit : Fin 32) (n : Notice) (m : SpMsg) (s : State), s.spine = [m] ∧ m.opcode = 0x10
      ∧ m.arg = noticeArg ld.val (p.val + 1) bit.val ∧ m.dest = boxDest (p.val + 1) ∧ underway m ∧ s.notices = [n] ∧
      n.ld = ld.val ∧ n.mailbox = p.val + 1 ∧ n.bit = bit.val ∧ s.fenced p = false) ∧
    (∃ (w : Writer) (p : PartId) (v : Word) (s : State), s.gateOf w (pt p + R.MB_MASK.off) = .pass ∧ ((∀ n ∈
      s.notices, n.mailbox = p.val + 1 → n.phase = .masked → v.toNat / 2 ^ n.bit % 2 = 1))) ∧
    (∃ (ld : LdId) (c : Completion) (s : State), s.comps.find? (fun c => decide (c.ld = ld.val)) = some c ∧ (s.cqProd
      ld.val + 2 ^ 64 - s.cqCons ld.val) % 2 ^ 64 < 64 ∧ c.irq = false) ∧
    (∃ (s : State), s.takesMem = true) :=
  ⟨⟨1, 1, 9, 0x490, (List.range 16).map (BitVec.ofNat 8), pf F.MB_MASK_mask 0x200 on, by decide +kernel,
     by decide +kernel, by decide +kernel, by decide +kernel, by decide +kernel, by decide +kernel,
     by decide +kernel⟩,
   ⟨1, 0, { note1 0 with mailbox := 0, phase := .travelling }, msg1 0x10 (boxDest 0) 2 (noticeArg 1 0 0),
     { spine [msg1 0x10 (boxDest 0) 2 (noticeArg 1 0 0)] (notes [{ note1 0 with mailbox := 0, phase := .travelling }] on) with cmdArea := memWrite [] 65536 (leBytes 2 0x0101) },
     by decide +kernel, by decide +kernel, by decide +kernel, by decide +kernel, by decide +kernel,
     by decide +kernel, by decide +kernel, by decide +kernel, by decide +kernel, by decide +kernel,
     by decide +kernel⟩,
   ⟨1, 1, 7, { note1 7 with phase := .travelling }, msg1 0x10 (boxDest 2) 2 (noticeArg 1 2 7), spine [msg1 0x10
     (boxDest 2) 2 (noticeArg 1 2 7)] (notes [{ note1 7 with phase := .travelling }] on), by decide +kernel,
     by decide +kernel, by decide +kernel, by decide +kernel, by decide +kernel, by decide +kernel,
     by decide +kernel, by decide +kernel, by decide +kernel, by decide +kernel⟩,
   ⟨.ld 0, 1, 0x83, notes [{ note1 7 with phase := .masked }] on, by decide +kernel, by decide +kernel⟩,
   ⟨1, ⟨1, 2, 3, 77, 0, 0x1234, false, 3, false⟩, { on with comps := [⟨1, 2, 3, 77, 0, 0x1234, false, 3, false⟩] },
     by decide +kernel, by decide +kernel, by decide +kernel⟩,
   ⟨on, by decide +kernel⟩⟩

theorem witness_Doorbells :
    (∃ (p : PartId) (n : Notice) (s : State), s.delivered p 0 = some n ∧ s.bellStrikes p = true ∧ (s.part
      p).pendStrike = false ∧ (s.part p).strikeDue = none ∧ (s.part p).frameOpen = true) ∧
    (∃ (p : PartId) (n : Notice) (s : State), s.notices = [n] ∧ s.delivered p 3 = some n ∧ (s.part p).frameOpen =
      false) ∧
    (∃ (p : PartId) (n : Notice) (s : State), s.notices = [n] ∧ s.delivered p 4 = some n ∧ s.f (pt p) F.TK_CTRL_hold
      = 1 ∧ s.running p = false ∧ (s.part p).holds = [] ∧ nothingPends s p) ∧
    (∃ (p : PartId) (bit : Fin 3) (n : Notice) (s : State), s.delivered p (5 + bit.val) = some n) ∧
    (∃ (p : PartId) (i : Fin 24) (n : Notice) (s : State), s.delivered p (8 + i.val) = some n ∧ s.f (pt p)
      (F.MB_INJ_valid.nth i.val) = 1 ∧ 15 ≤ s.f (pt p) (F.MB_INJ_release.nth i.val) ∧ s.f (pt p) (F.MB_INJ_strike.nth
      i.val) = 0) ∧
    (∃ (p : PartId) (d : DueTok) (n : Notice) (s : State), (s.part p).dueToks = [d] ∧ d.notice = some (n.ld, n.bit) ∧
      (s.qu d.u.quire).open_ = true ∧ s.notices = [n] ∧ n.mailbox = p.val + 1) ∧
    (∃ (p : PartId) (quires : BitVec 8) (n : Notice) (s : State), s.notices = [n] ∧ n.mailbox = p.val + 1 ∧ n.bit = 2
      ∧ n.phase = .delivered ∧ (s.part p).frameOpen = false ∧ nothingPends s p ∧ s.anyInFlight (maskQuires p
      quires.toNat) = false ∧ ((∀ q ∈ maskQuires p quires.toNat, s.inflight p ((s.f (qb q) F.CH_EPOCH_epoch + 1) % 4)
      = 0))) :=
  ⟨⟨1, note1 0, notes [note1 0] (pf F.TK_MODE_strike_doorbell 1 (pf F.TK_MODE_mode 1 (frame 150 on))),
     by decide +kernel, by decide +kernel, by decide +kernel, by decide +kernel, by decide +kernel⟩,
   ⟨1, note1 3, notes [note1 3] on, by decide +kernel, by decide +kernel, by decide +kernel⟩,
   ⟨1, note1 4, notes [note1 4] (pf F.TK_STATUS_held 1 (pf F.TK_CTRL_hold 1 on)), by decide +kernel,
     by decide +kernel, by decide +kernel, by decide +kernel, by decide +kernel, by decide +kernel⟩,
   ⟨1, 2, note1 7, notes [note1 7] on, by decide +kernel⟩,
   ⟨1, 4, note1 12, notes [note1 12] (pf (F.MB_INJ_valid.nth 4) 1 (pf (F.MB_INJ_release.nth 4) 20 on)),
     by decide +kernel, by decide +kernel, by decide +kernel, by decide +kernel⟩,
   ⟨1, ⟨12, u1, 2, 9, false, 0x55, none, some (1, 12), false⟩, { note1 12 with phase := .acting }, notes
     [{ note1 12 with phase := .acting }] (p1 (fun x =>
     { x with dueToks := [⟨12, u1, 2, 9, false, 0x55, none, some (1, 12), false⟩] }) (ported 8 (frame 150 on))),
     by decide +kernel, by decide +kernel, by decide +kernel, by decide +kernel, by decide +kernel⟩,
   ⟨1, 3, note1 2, notes [note1 2] on, by decide +kernel, by decide +kernel, by decide +kernel, by decide +kernel,
     by decide +kernel, by decide +kernel, by decide +kernel, by decide +kernel⟩⟩

theorem witness_Bindings :
    (∃ (ld : LdId) (p : PartId) (target : LdId) (n : Notice) (s : State), commanded s ld 0x0101 n ∧ s.recovering p =
      false ∧ s.running p = false ∧ s.enabled p = true ∧ s.f (pt p) F.RS_STATUS_withdrawn = 0 ∧ s.ldOf p = none ∧ s.f
      hub (F.CX_LD_BIND_present.nth target.val) = 1 ∧ ((∀ e ∈ s.extents, e.part ≠ p))) ∧
    (∃ (ld : LdId) (p : PartId) (l : LdId) (n : Notice) (s : State), commanded s ld 0x0101 n ∧ s.recovering p = false
      ∧ s.running p = false ∧ s.ldOf p = some l ∧ s.f (pt p) F.RS_STATUS_withdrawn = 0) ∧
    (∃ (ld : LdId) (p : PartId) (n : Notice) (s : State), commanded s ld 0x0102 n ∧ s.recovering p = false ∧
      s.enabled p = true ∧ s.f (pt p) F.RS_STATUS_withdrawn = 0) ∧
    (∃ (ld : LdId) (p : PartId) (n : Notice) (s : State), commanded s ld 0x0201 n ∧ s.f (pt p) F.RS_STATUS_withdrawn
      = 0) :=
  ⟨⟨0, 1, 2, cmd1, cmd 0x0101 (hf (F.CX_LD_BIND_present.nth 2) 1 ((hf (F.CX_LD_BIND_parts.nth 1) 0 on).setF (pt 1)
     F.RS_STATUS_fenced 1)), by decide +kernel, by decide +kernel, by decide +kernel, by decide +kernel,
     by decide +kernel, by decide +kernel, by decide +kernel, by decide +kernel⟩,
   ⟨0, 1, 1, cmd1, cmd 0x0101 on, by decide +kernel, by decide +kernel, by decide +kernel, by decide +kernel,
     by decide +kernel⟩,
   ⟨0, 1, cmd1, cmd 0x0102 on, by decide +kernel, by decide +kernel, by decide +kernel, by decide +kernel⟩,
   ⟨0, 1, cmd1, cmd 0x0201 on, by decide +kernel, by decide +kernel⟩⟩

theorem witness_ResetCommands :
    (∃ (ld : LdId) (p : PartId) (n : Notice) (s : State), s.cmdNotice ld 0x0504 = some n ∧ s.withdrawn = false ∧
      s.mayAsk ld p = true ∧ s.f (pt p) F.RS_STATUS_withdrawn = 0 ∧ s.enabled p = true ∧ (s.part p).recovery = none) ∧
    (∃ (ld : LdId) (n : Notice) (s : State), commanded s ld 0x0502 n ∧ s.stew.devReq = none ∧ s.stew.die = true) ∧
    (∃ (ld : LdId) (n : Notice) (s : State), s.cmdNotice ld 0x0503 = some n ∧ s.f hub F.RS_DEVICE_withdrawn = 1 ∧ ld
      = s.owner ∧ s.stew.devReq = none ∧ s.stew.die = true) :=
  ⟨⟨0, 1, cmd1, cmd 0x0504 on, by decide +kernel, by decide +kernel, by decide +kernel, by decide +kernel,
     by decide +kernel, by decide +kernel⟩,
   ⟨0, cmd1, cmd 0x0502 on, by decide +kernel, by decide +kernel, by decide +kernel⟩,
   ⟨0, cmd1, cmd 0x0503 (hf F.RS_DEVICE_withdrawn 1 on), by decide +kernel, by decide +kernel, by decide +kernel,
     by decide +kernel, by decide +kernel⟩⟩

theorem witness_LicenceAndFirmware :
    (∃ (ld : LdId) (n : Notice) (s : State), commanded s ld 0x0401 n ∧ s.f hub F.HB_BOOT_step = 9) ∧
    (∃ (ld : LdId) (off : BitVec 16) (n : BitVec 16) (at_ : BitVec 20) (k : Notice) (s : State), commanded s ld
      0x0301 k ∧ n.toNat ≤ 32768 ∧ off.toNat + n.toNat ≤ 65536 ∧ at_.toNat + n.toNat ≤ 1048576) ∧
    (∃ (ld : LdId) (version : BitVec 16) (n : Notice) (s : State), commanded s ld 0x0302 n ∧ ((∀ p, (s.part
      p).recovery = none ∧ (s.part p).rot = none)) ∧ s.stew.store.minFw ≤ version.toNat) :=
  ⟨⟨0, cmd1, cmd 0x0401 (hf F.HB_BOOT_step 9 on), by decide +kernel, by decide +kernel⟩,
   ⟨0, 0x40, 8, 0x100, cmd1, cmd 0x0301 { on with cmdArea := memWrite [] 0x40 [1,2,3,4] }, by decide +kernel,
     by decide +kernel, by decide +kernel, by decide +kernel⟩,
   ⟨0, 0x200, cmd1, cmd 0x0302 on, by decide +kernel, by decide +kernel, by decide +kernel⟩⟩

theorem witness_Capacity :
    (∃ (ld : LdId) (target : LdId) (p : PartId) (slot : Fin 4096) (pma : BitVec 38) (n : Notice) (s : State),
      commanded s ld 0x0601 n ∧ s.f hub F.LC_FEATURES_dc = 1 ∧ s.recovering p = false ∧ s.f hub
      (F.CX_LD_BIND_present.nth target.val) = 1 ∧ s.enabled p = true ∧ s.f (pt p) F.RS_STATUS_withdrawn = 0 ∧
      ((s.ldOf p = none ∨ s.bound target p = true)) ∧ pma.toNat % extentBytes = 0 ∧ pma.toNat + extentBytes ≤ progEnd
      ∧ s.extentAt target.val slot.val = none ∧ ((∀ e ∈ s.extents, e.part = p → e.pma ≠ pma.toNat))) ∧
    (∃ (ld : LdId) (slot : Fin 4096) (e : Extent) (s : State), s.extentAt ld.val slot.val = some e ∧ e.offered = true
      ∧ e.by_ = none) ∧
    (∃ (ld : LdId) (slot : Fin 4096) (e : Extent) (s : State), s.extentAt ld.val slot.val = some e ∧ e.offered = true
      ∧ e.by_ = none) ∧
    (∃ (ld : LdId) (slot : Fin 4096) (e : Extent) (s : State), s.extentAt ld.val slot.val = some e ∧ e.offered =
      false ∧ e.recallBy.isSome = true ∧ e.by_ = none) ∧
    (∃ (ld : LdId) (target : LdId) (slot : Fin 4096) (n : Notice) (e : Extent) (s : State), commanded s ld 0x0602 n ∧
      s.extentAt target.val slot.val = some e ∧ e.offered = false ∧ e.recallBy = none) ∧
    (∃ (ld : LdId) (slot : Fin 4096) (e : Extent) (b : Nat) (s : State), s.extentAt ld.val slot.val = some e ∧
      e.recallBy = some b ∧ b ≤ s.ns ∧ e.by_ = none) :=
  ⟨⟨0, 2, 1, 5, 0x10000000, cmd1, cmd 0x0601 (hf F.LC_FEATURES_dc 1 (hf (F.CX_LD_BIND_present.nth 2) 1 (hf
     (F.CX_LD_BIND_parts.nth 1) 0 on))), by decide +kernel, by decide +kernel, by decide +kernel, by decide +kernel,
     by decide +kernel, by decide +kernel, by decide +kernel, by decide +kernel, by decide +kernel,
     by decide +kernel, by decide +kernel⟩,
   ⟨2, 5, extent1 true, { on with extents := [extent1 true] }, by decide +kernel, by decide +kernel,
     by decide +kernel⟩,
   ⟨2, 5, extent1 true, { on with extents := [extent1 true] }, by decide +kernel, by decide +kernel,
     by decide +kernel⟩,
   ⟨2, 5, { extent1 false with recallBy := some 900 },
     { on with extents := [{ extent1 false with recallBy := some 900 }] }, by decide +kernel, by decide +kernel,
     by decide +kernel, by decide +kernel⟩,
   ⟨0, 2, 5, cmd1, extent1 false, cmd 0x0602 { on with extents := [extent1 false] }, by decide +kernel,
     by decide +kernel, by decide +kernel, by decide +kernel⟩,
   ⟨2, 5, { extent1 false with recallBy := some 900 }, 900,
     { on with extents := [{ extent1 false with recallBy := some 900 }], now := 80000 }, by decide +kernel,
     by decide +kernel, by decide +kernel, by decide +kernel⟩⟩

theorem witness_Attestation :
    (∃ (s : State), s.stew.running = true ∧ s.stew.die = true ∧ s.insecure = false ∧ s.stew.attest.length < 16) ∧
    (∃ (ld : LdId) (off : BitVec 16) (n : Notice) (s : State), commanded s ld 0x0701 n ∧ off.toNat + 4 + objectBytes
      ≤ 65536 ∧ s.stew.attest.length < 16) ∧
    (∃ (s : State), s.stew.attest ≠ [] ∧ s.stew.attestAt + 20000000 ≤ s.ns ∧ s.stew.idNext < 65536 ∧ s.idDay < 16) ∧
    (∃ (ld : LdId) (sec : BitVec 16) (off : DWord) (n : Word) (dst : Word) (e : Nat × Nat) (k : Notice) (s : State),
      commanded s ld 0x0801 k ∧ leAt (s.cmdBlock k) 4 2 = sec.toNat ∧ leAt (s.cmdBlock k) 8 8 = off.toNat ∧ leAt
      (s.cmdBlock k) 16 4 = n.toNat ∧ leAt (s.cmdBlock k) 20 4 = dst.toNat ∧ colSections[sec.toNat]? = some e ∧
      sec.toNat ∉ [0, 1, 3, 13] ∧ off.toNat + n.toNat ≤ e.1 * e.2 ∧ n.toNat ≤ 32768 ∧ dst.toNat + n.toNat ≤ 65536) ∧
    (∃ (s : State) (off : BitVec 24), s.stew.running = true ∧ s.stew.die = true ∧ smbusReg off.toNat = true) ∧
    (∃ (s : State) (sec : BitVec 8) (off : BitVec 24) (n : BitVec 24) (e : Nat × Nat), s.stew.running = true ∧
      colSections[sec.toNat]? = some e ∧ sec.toNat ∉ [0, 1, 3, 13] ∧ off.toNat + n.toNat ≤ e.1 * e.2 ∧ n.toNat ≤
      32768) ∧
    (∃ (s : State), s.stew.running = true ∧ s.stew.attest.length < 16) ∧
    (∃ (s : State), s.stew.running = true) :=
  ⟨⟨on, by decide +kernel, by decide +kernel, by decide +kernel, by decide +kernel⟩,
   ⟨0, 0x40, cmd1, cmd 0x0701 on, by decide +kernel, by decide +kernel, by decide +kernel⟩,
   ⟨st (fun x => { x with attest := [⟨[], 1, none⟩], idNext := 0x100, idRsv := 0x200 }) { on with now := 800000000 },
     by decide +kernel, by decide +kernel, by decide +kernel, by decide +kernel⟩,
   ⟨0, 2, 64, 64, 0x100, (64, 65536), cmd1,
     { cmd 0x0801 (st (fun x => { x with flash := memWrite [] (colKey 2 64) [1,2,3] }) on) with cmdArea := memWrite [] 0 (leBytes 4 0x0801 ++ leBytes 4 2 ++ leBytes 8 64 ++ leBytes 4 64 ++ leBytes 4 0x100) },
     by decide +kernel, by decide +kernel, by decide +kernel, by decide +kernel, by decide +kernel,
     by decide +kernel, by decide +kernel, by decide +kernel, by decide +kernel, by decide +kernel⟩,
   ⟨on, BitVec.ofNat 24 R.PW_CLK.off, by decide +kernel, by decide +kernel, by decide +kernel⟩,
   ⟨st (fun x => { x with flash := memWrite [] (colKey 2 64) [1,2,3] }) on, 2, 64, 64, (64, 65536),
     by decide +kernel, by decide +kernel, by decide +kernel, by decide +kernel, by decide +kernel⟩,
   ⟨on, by decide +kernel, by decide +kernel⟩,
   ⟨on, by decide +kernel⟩⟩

theorem witness_TestsAndWindows :
    (∃ (ld : LdId) (n : Notice) (s : State), commanded s ld 0x0501 n ∧ ((∀ p, s.active p = false)) ∧ s.stew.devTest =
      none) ∧
    (∃ (ld : LdId) (n : Notice) (s : State), commanded s ld 0x0501 n ∧ ((∀ p, s.active p = false)) ∧ s.stew.devTest =
      none) ∧
    (∃ (ld : LdId) (q : QuireId) (n : Notice) (s : State), s.cmdNotice ld 0x0505 = some n ∧ s.withdrawn = false ∧
      s.mayAsk ld (partOf q) = true ∧ s.f (pt (partOf q)) F.RS_STATUS_withdrawn = 0 ∧ (s.part (partOf q)).rot = none) ∧
    (∃ (r : TestRun) (sig : BitVec 128) (s : State), s.stew.running = true ∧ s.stew.die = true ∧ ((∀ p, (s.part
      p).window = none)) ∧ s.nextRun [] s.runs = some r ∧ s.reference r.program = some sig ∧ r.program ≠ 6 ∧ r.quire
      = none) ∧
    (∃ (r : TestRun) (s : State), s.runs.find? (fun e => e.going && decide (e.unit = r.unit)) = some r ∧ s.runs.any
      (fun e => decide (e ≠ r) && decide (e.unit = r.unit)) = true ∧ r.unit < 36 ∧ r.program < 7 ∧ r.startAt +
      programNs r.program ≤ s.ns ∧ s.stew.devTest = none) ∧
    (∃ (w : Writer) (p : PartId) (s : State), s.gateOf w (pt p + R.BT_HOLDOFF.off) = .pass) ∧
    (∃ (w : Writer) (p : PartId) (ms : BitVec 16) (s : State), s.gateOf w (pt p + R.BT_WINDOW.off) = .pass ∧ ms ≠ 0) ∧
    (∃ (p : PartId) (e : Nat) (s : State), (s.part p).window = some e ∧ e ≤ s.ns ∧ s.windowTest p = false ∧
      nothingPends s p) :=
  ⟨⟨0, cmd1, cmd 0x0501 on, by decide +kernel, by decide +kernel, by decide +kernel⟩,
   ⟨0, cmd1, cmd 0x0501 on, by decide +kernel, by decide +kernel, by decide +kernel⟩,
   ⟨0, 9, cmd1, cmd 0x0505 on, by decide +kernel, by decide +kernel, by decide +kernel, by decide +kernel,
     by decide +kernel⟩,
   ⟨⟨2, 5, none, false, 0⟩, 0x77, st (fun x => { x with store := { x.store with misr := [(2, 0x77)] } })
     { on with runs := [⟨2, 5, none, false, 0⟩] }, by decide +kernel, by decide +kernel, by decide +kernel,
     by decide +kernel, by decide +kernel, by decide +kernel, by decide +kernel⟩,
   ⟨⟨2, 5, none, true, 0⟩, st (fun x => { x with store := { x.store with misr := [(2, 0x77)] } })
     { on with runs := [⟨2, 5, none, true, 0⟩, ⟨3, 5, none, false, 0⟩], now := 8000000000000000 }, by decide +kernel,
     by decide +kernel, by decide +kernel, by decide +kernel, by decide +kernel, by decide +kernel⟩,
   ⟨.ld 0, 1, on, by decide +kernel⟩,
   ⟨.ld 0, 1, 30, p1 (fun x => { x with heldTests := [(9, 1, 0)] }) on, by decide +kernel, by decide +kernel⟩,
   ⟨1, 0, p1 (fun x => { x with window := some 0, holds := [.testWindow] }) on, by decide +kernel, by decide +kernel,
     by decide +kernel, by decide +kernel⟩⟩

theorem witness_TileRotation :
    (∃ (p : PartId) (q : QuireId) (s : State), s.rotQuire p = some q ∧ (s.part p).broughtUp = true ∧ s.enabled p =
      true ∧ (s.part p).rot = none ∧ s.stew.devTest = none ∧ (s.part p).rotDue ≤ s.ns ∧ partOf q = p ∧ s.rotBlocked q
      = none) ∧
    (∃ (p : PartId) (q : QuireId) (s : State), s.rotQuire p = some q ∧ (s.part p).broughtUp = true ∧ s.enabled p =
      true ∧ (s.part p).rot = none ∧ s.stew.devTest = none ∧ (s.part p).rotDue ≤ s.ns ∧ partOf q = p ∧ s.rotBlocked q
      ≠ none) ∧
    (∃ (p : PartId) (r : Rotation) (s : State), (s.part p).tipins = [] ∧ (s.part p).rot = some r ∧ partOf r.quire = p
      ∧ s.f (pt p) F.BT_ROT_STATUS_state = 2 ∧ r.planned ≤ s.ns ∧ (s.part p).holdoff ≤ s.ns ∧ s.slowHalf p = false ∧
      s.tooLarge r.quire = false ∧ s.spanOf p = [p] ∧ (s.part p).frameOpen = false ∧ s.unitsOf p = 0 ∧ nothingPends s
      p ∧ (s.part p).image = none) ∧
    (∃ (p : PartId) (r : Rotation) (b : Nat) (s : State), (s.part p).rot = some r ∧ r.holdAt = some b ∧ s.f (pt p)
      F.BT_ROT_STATUS_state = 3 ∧ b + 120000 ≤ s.ns ∧ s.spanOf p = [p] ∧ nothingPends s p) :=
  ⟨⟨1, 8, p1 (fun x => { x with broughtUp := true }) (pf F.BT_ROT_CFG_enable 1 on), by decide +kernel,
     by decide +kernel, by decide +kernel, by decide +kernel, by decide +kernel, by decide +kernel,
     by decide +kernel, by decide +kernel⟩,
   ⟨1, 8, p1 (fun x => { x with broughtUp := true }) (pf F.BT_ROT_CFG_enable 0 on), by decide +kernel,
     by decide +kernel, by decide +kernel, by decide +kernel, by decide +kernel, by decide +kernel,
     by decide +kernel, by decide +kernel⟩,
   ⟨1, rot1, p1 (fun x => { x with rot := some rot1 }) (pf F.BT_ROT_STATUS_state 2 { on with now := 80000 }),
     by decide +kernel, by decide +kernel, by decide +kernel, by decide +kernel, by decide +kernel,
     by decide +kernel, by decide +kernel, by decide +kernel, by decide +kernel, by decide +kernel,
     by decide +kernel, by decide +kernel, by decide +kernel⟩,
   ⟨1, { rot1 with holdAt := some 0 }, 0, p1 (fun x =>
     { x with rot := some { rot1 with holdAt := some 0 }, holds := [.rotation] }) (pf F.BT_ROT_STATUS_state 3
     { on with now := 8000000 }), by decide +kernel, by decide +kernel, by decide +kernel, by decide +kernel,
     by decide +kernel, by decide +kernel⟩⟩

theorem witness_IntegrityChecks :
    (∃ (w : Writer) (p : PartId) (s : State), s.gateOf w (pt p + R.IN_MD_CTRL.off) = .pass ∧ s.f (pt p)
      F.IN_MD_CTRL_busy = 0 ∧ s.mdRefused p = false) ∧
    (∃ (p : PartId) (r : MdRun) (s : State), (s.part p).md = some r ∧ s.fenced p = false ∧ s.memMark = [] ∧ r.torn =
      false ∧ (s.part p).memAsleep = false ∧ r.startAt + (r.units * 64 / 136 + 1) * s.period p ≤ s.ns) ∧
    (∃ (tile : Nat) (m : Nat) (s : State), s.stew.running = true ∧ s.stew.die = true ∧ s.stew.marginDue ≤ s.ns ∧ tile
      < 36 ∧ m < 4) ∧
    (∃ (tile : TileId) (m : Fin 4) (q : QuireId) (s : State), (s.mgnOf tile.val m.val).2.2.2 = false ∧ s.stew.die =
      true ∧ s.carrier tile.val = some q) ∧
    (∃ (c : Charge) (s : State), s.stew.running = true ∧ s.stew.die = true ∧ s.charges.find? (fun c => !c.judged) =
      some c ∧ { s with charges := s.charges.map (fun e => if e = c then { e with judged := true } else e) }.ruleMet
      { c with judged := true } = none ∧ c.code ≠ Ev.IN_DROOP ∧ ((∀ p ch row, c.unit ≠ .dramRow p ch row))) ∧
    (∃ (k : Nat × Nat × Nat) (s : State), s.stew.running = true ∧ s.stew.die = true ∧ ((∀ c ∈ s.charges, c.judged =
      true)) ∧ s.wornRow = some k ∧ k.1 < 4) :=
  ⟨⟨.ld 0, 1, pf F.IN_MD_LEN_units 4 on, by decide +kernel, by decide +kernel, by decide +kernel⟩,
   ⟨1, ⟨0x1000, 1, 0, false⟩, p1 (fun x => { x with md := some ⟨0x1000, 1, 0, false⟩ })
     { on with mem := memWrite [] (2^38 + 0x1000) [1,2,3], now := 80000 }, by decide +kernel, by decide +kernel,
     by decide +kernel, by decide +kernel, by decide +kernel, by decide +kernel⟩,
   ⟨9, 2, on, by decide +kernel, by decide +kernel, by decide +kernel, by decide +kernel, by decide +kernel⟩,
   ⟨4, 2, 9, frame 150 on, by decide +kernel, by decide +kernel, by decide +kernel⟩,
   ⟨⟨.stitcher 4 3, 0x101, false, 5, none, 2, 0, false⟩,
     { on with charges := [⟨.stitcher 4 3, 0x101, false, 5, none, 2, 0, false⟩] }, by decide +kernel,
     by decide +kernel, by decide +kernel, by decide +kernel, by decide +kernel, nofun⟩,
   ⟨(1, 3, 77), { on with dramFixes := [(1,3,77,0),(1,3,77,0),(1,3,77,0)] }, by decide +kernel, by decide +kernel,
     by decide +kernel, by decide +kernel, by decide +kernel⟩⟩

theorem witness_RecoverySteps :
    (∃ (p : PartId) (cause : Nat) (s : State), (s.part p).recovery = none ∧ s.stew.resetReqs = [(p, cause)] ∧ s.f (pt
      p) F.RS_STATUS_withdrawn = 0) ∧
    (∃ (p : PartId) (s : State), (s.part p).recovery.isSome = true ∧ s.f (pt p) F.RS_STATUS_state = 2) ∧
    (∃ (p : PartId) (r : Recovery) (s : State), (s.part p).recovery = some r ∧ s.f (pt p) F.RS_STATUS_state = 4 ∧
      r.cause ≠ 6) ∧
    (∃ (q : QuireId) (s : State), (s.qu q).inReset = true ∧ (s.qu q).cycling = false ∧ (s.qu q).wbuf = [] ∧
      nothingPends s (partOf q)) ∧
    (∃ (q : QuireId) (s : State), (s.qu q).inReset = true ∧ (s.qu q).cycling = true ∧ (s.qu q).wbuf = [] ∧ (s.qu
      q).resetFrom + 100000 ≤ s.ns ∧ (s.part (partOf q)).image = none ∧ nothingPends s (partOf q)) ∧
    (∃ (q : QuireId) (s : State), (s.qu q).inReset = true ∧ (s.qu q).cycling = false ∧ (s.qu q).resetFrom + 20000 ≤
      s.ns) ∧
    (∃ (p : PartId) (t0 : Nat) (ld : Nat) (s : State), s.stew.wipes = [(p, t0, ld)] ∧ t0 + 1000000000 ≤ s.ns ∧
      (s.part p).recovery = none) :=
  ⟨⟨1, 3, st (fun x => { x with resetReqs := [(1, 3)] }) on, by decide +kernel, by decide +kernel, by decide +kernel⟩,
   ⟨1, p1 (fun x => { x with recovery := some recov1, holds := [.recovery] }) (pf F.RS_STATUS_state 2 (frame 150
     on)), by decide +kernel, by decide +kernel⟩,
   ⟨1, recov1, p1 (fun x => { x with recovery := some recov1, holds := [.recovery] }) (pf F.RS_STATUS_state 4 on),
     by decide +kernel, by decide +kernel, by decide +kernel⟩,
   ⟨9, q1 (fun x => { x with inReset := true }) (qf F.RS_QUIRE_in_reset 1 on), by decide +kernel, by decide +kernel,
     by decide +kernel, by decide +kernel⟩,
   ⟨9, q1 (fun x => { x with inReset := true, cycling := true }) (qf F.RS_QUIRE_in_reset 1
     { on with now := 8000000 }), by decide +kernel, by decide +kernel, by decide +kernel, by decide +kernel,
     by decide +kernel, by decide +kernel⟩,
   ⟨9, q1 (fun x => { x with inReset := true }) (qf F.RS_QUIRE_in_reset 1 { on with now := 8000000 }),
     by decide +kernel, by decide +kernel, by decide +kernel⟩,
   ⟨1, 0, 1, st (fun x => { x with wipes := [(1, 0, 1)] })
     { on with now := 8000000000000, mem := [(2^38 + 9, 3), (2^39 + 5, 1)] }, by decide +kernel, by decide +kernel,
     by decide +kernel⟩⟩

theorem witness_BringUp :
    (∃ (i : BootInput) (c : Nat) (s : State), s.stew.die = false ∧ s.stew.devReq = none ∧ i.image = some c) ∧
    (∃ (i : BootInput) (s : State), s.stew.die = false ∧ s.stew.devReq = none ∧ i.image = none ∧ i.copyA = none ∧
      i.copyB = none ∧ i.store.minFw ≤ i.version) ∧
    (∃ (r : Nat × Nat × Nat) (s : State), s.stew.devReq = some r) ∧
    (∃ (s : State), s.stew.die = true ∧ s.stew.devReq = none ∧ s.f hub F.HB_BOOT_step = 6) ∧
    (∃ (s : State), s.stew.pwrGood = true ∧ s.stew.devReq = none ∧ s.stew.die = true) ∧
    (∃ (bytes : List Byte) (crc : Word) (s : State), s.stew.recovery.isSome = true ∧ bytes.length = 1024 ∧ crc32c
      bytes = crc) :=
  ⟨⟨{ boot1 with image := some 3 }, 3, .reset, by decide +kernel, by decide +kernel, by decide +kernel⟩,
   ⟨boot1, .reset, by decide +kernel, by decide +kernel, by decide +kernel, by decide +kernel, by decide +kernel,
     by decide +kernel⟩,
   ⟨(1, 0, 0), st (fun x => { x with devReq := some (1, 0, 0) }) on, by decide +kernel⟩,
   ⟨hf F.HB_BOOT_step 6 on, by decide +kernel, by decide +kernel, by decide +kernel⟩,
   ⟨st (fun x => { x with pwrGood := true }) on, by decide +kernel, by decide +kernel, by decide +kernel⟩,
   ⟨List.replicate 1024 3, crc32c (List.replicate 1024 3), st (fun x => { x with recovery := some 3 }) .reset,
     by decide +kernel, by decide +kernel, by decide +kernel⟩⟩

theorem witness_RecorderPath :
    (∃ (k : Fin 38) (e : EvRec) (l : List EvRec) (p : PartId) (s : State), (s.src (srcOf k)).queue = e :: l ∧ s.spine
      = [] ∧ s.ringReady (srcOf k) = true ∧ s.ringHome (srcOf k) = some p ∧ s.recNext ≤ s.ns ∧ e.update = false ∧
      s.memMark = []) ∧
    (∃ (k : Fin 38) (e : EvRec) (l : List EvRec) (s : State), (s.src (srcOf k)).queue = e :: l ∧ s.spine = [] ∧
      s.ringReady (srcOf k) = false ∧ e.update = false ∧ s.staging.length < 4096) ∧
    (∃ (k : Fin 38) (e : EvRec) (s : State), (s.src (srcOf k)).folded = true ∧ (s.src (srcOf k)).queue.length < 8 ∧
      (s.src (srcOf k)).last = some e ∧ (s.src (srcOf k)).sentAt + 1000 ≤ s.ns) ∧
    (∃ (p : PartId) (k : Fin 38) (e : EvRec) (s : State), s.staging = [(k.val, e)] ∧ s.ringHome (srcOf k) = some p ∧
      s.ringReady (srcOf k) = true ∧ s.recNext ≤ s.ns ∧ e.update = false ∧ s.memMark = []) ∧
    (∃ (k : Fin 38) (i : Nat) (l : List (Nat × Nat)) (p : PartId) (s : State), s.stew.colPend = (k.val, i) :: l ∧
      s.stew.running = true ∧ s.ringReady (srcOf k) = true ∧ s.ringHome (srcOf k) = some p ∧ s.stew.errors = [] ∧
      (s.src (srcOf k)).head ≤ i + (ringPlace (srcOf k)).2.1 ∧ s.memMark = [] ∧ (crc32c ((memRead s.mem (memKey p
      (slotPma (srcOf k) i)) 64).take 60)).toNat = leAt (memRead s.mem (memKey p (slotPma (srcOf k) i)) 64) 60 4) ∧
    (∃ (wear : Fin 101) (s : State), s.stew.running = true ∧ wear.val < 90) ∧
    (∃ (w : Writer) (v : Word) (code : Nat) (sev : Nat) (caps : Nat) (s : State), s.gateOf w R.EV_TRIG_CODE.off =
      .pass ∧ trigEntry (s.f hub F.EV_TRIG_SEL_entry) = some (code, sev, caps) ∧ caps ≤ F.EV_TRIG_CODE_count.get v ∧
      F.EV_TRIG_CODE_count.get v ≤ 10) :=
  ⟨⟨15, rec1, [rec1], 1, { on with srcs := spSet SrcSt.init [] 15 { SrcSt.init with queue := [rec1, rec1] } },
     by decide +kernel, by decide +kernel, by decide +kernel, by decide +kernel, by decide +kernel,
     by decide +kernel, by decide +kernel⟩,
   ⟨15, rec1, [rec1], p1 (fun x => { x with memAsleep := true })
     { on with srcs := spSet SrcSt.init [] 15 { SrcSt.init with queue := [rec1, rec1] } }, by decide +kernel,
     by decide +kernel, by decide +kernel, by decide +kernel, by decide +kernel⟩,
   ⟨15, rec1,
     { on with now := 80000, srcs := spSet SrcSt.init [] 15 { SrcSt.init with folded := true, last := some rec1, queue := [rec1] } },
     by decide +kernel, by decide +kernel, by decide +kernel, by decide +kernel⟩,
   ⟨1, 15, rec1, { on with staging := [(15, rec1)] }, by decide +kernel, by decide +kernel, by decide +kernel,
     by decide +kernel, by decide +kernel, by decide +kernel⟩,
   ⟨15, 0, [], 1, st (fun x => { x with colPend := [(15, 0)] })
     { on with mem := memWrite [] (memKey 1 (slotPma (srcOf 15) 0)) (rec1.bytes 2) }, by decide +kernel,
     by decide +kernel, by decide +kernel, by decide +kernel, by decide +kernel, by decide +kernel,
     by decide +kernel, by decide +kernel⟩,
   ⟨50, on, by decide +kernel, by decide +kernel⟩,
   ⟨.ld 0, 0x50000, (evTable.getD 3 (0,0,0)).1, (evTable.getD 3 (0,0,0)).2.1, (evTable.getD 3 (0,0,0)).2.2, hf
     F.EV_TRIG_SEL_entry 3 on, by decide +kernel, by decide +kernel, by decide +kernel, by decide +kernel⟩⟩

end Sys2Proof.Tests
end

section
namespace Sys2Proof.Machine

/-! ## The values of Table 6

The model computes some results in another form than the statements give them. -/

theorem mulh_value (a b : BitVec 32) :
    BitVec.ofInt 32 (a.toInt * b.toInt / 2 ^ 32) = ((a.signExtend 64 * b.signExtend 64) >>> 32).setWidth 32 := by
  apply BitVec.eq_of_toNat_eq
  have e : a.signExtend 64 * b.signExtend 64 = BitVec.ofInt 64 (a.toInt * b.toInt) := by
    rw [BitVec.ofInt_mul]
    simp [BitVec.signExtend]
  rw [e]
  simp only [BitVec.toNat_setWidth, BitVec.toNat_ushiftRight, BitVec.toNat_ofInt, Nat.shiftRight_eq_div_pow]
  omega

theorem mulhu_value (a b : BitVec 32) :
    BitVec.ofNat 32 (a.toNat * b.toNat / 2 ^ 32) = ((a.setWidth 64 * b.setWidth 64) >>> 32).setWidth 32 := by
  apply BitVec.eq_of_toNat_eq
  have h : a.toNat * b.toNat < 2 ^ 64 := lt_of_lt_of_eq (Nat.mul_lt_mul'' a.isLt b.isLt) (by norm_num)
  simp only [BitVec.toNat_ofNat, BitVec.toNat_setWidth, BitVec.toNat_ushiftRight, BitVec.toNat_mul,
    Nat.shiftRight_eq_div_pow]
  rw [Nat.mod_eq_of_lt (a := a.toNat) (by omega), Nat.mod_eq_of_lt (a := b.toNat) (by omega), Nat.mod_eq_of_lt h]

/-- Choices by `<` and by `≤` differ only between equal keys, where both choose the same. -/
theorem ite_lt_eq_ite_le {α β : Type} [LinearOrder β] {k : α → β} (hk : ∀ {x y}, k x = k y → x = y) (a b : α) :
    (if k a < k b then a else b) = (if k a ≤ k b then a else b) ∧
      (if k a < k b then b else a) = if k a ≤ k b then b else a := by
  rcases lt_trichotomy (k a) (k b) with h | h | h
  · simp [h, h.le]
  · simp [hk h]
  · simp [h.not_gt, h.not_ge]

theorem min_value (a b : BitVec 32) : (if a.slt b then a else b) = if a.toInt ≤ b.toInt then a else b := by
  simpa [BitVec.slt_eq_decide] using (ite_lt_eq_ite_le BitVec.eq_of_toInt_eq a b).1

theorem max_value (a b : BitVec 32) : (if a.slt b then b else a) = if a.toInt ≤ b.toInt then b else a := by
  simpa [BitVec.slt_eq_decide] using (ite_lt_eq_ite_le BitVec.eq_of_toInt_eq a b).2

theorem minu_value (a b : BitVec 32) : (if a.ult b then a else b) = if a.toNat ≤ b.toNat then a else b := by
  simpa [BitVec.ult_eq_decide] using (ite_lt_eq_ite_le BitVec.eq_of_toNat_eq a b).1

theorem maxu_value (a b : BitVec 32) : (if a.ult b then b else a) = if a.toNat ≤ b.toNat then b else a := by
  simpa [BitVec.ult_eq_decide] using (ite_lt_eq_ite_le BitVec.eq_of_toNat_eq a b).2

theorem sat32_value (x : Int) : sat32 x = BitVec.ofInt 32 (max (-2147483648) (min 2147483647 x)) := by
  unfold sat32 clampInt
  rw [min_comm]
  norm_num

theorem lui_value (imm : BitVec 16) : zext16 imm <<< 16 = imm ++ 0#16 := by
  apply BitVec.eq_of_toNat_eq
  have h := imm.isLt
  rw [BitVec.toNat_append, BitVec.toNat_shiftLeft, zext16, BitVec.toNat_setWidth]
  simp [Nat.shiftLeft_eq]
  omega

theorem fabs_value (a : BitVec 32) : a &&& 0x7FFFFFFF = 0#1 ++ a.extractLsb' 0 31 := by
  apply BitVec.eq_of_toNat_eq
  rw [BitVec.toNat_and, BitVec.toNat_append]
  exact (Nat.and_two_pow_sub_one_eq_mod a.toNat 31).trans (by simp)

theorem fneg_value (a : BitVec 32) : a ^^^ 0x80000000 = ~~~ a.extractLsb' 31 1 ++ a.extractLsb' 0 31 := by
  ext i hi
  rw [show (0x80000000 : BitVec 32) = BitVec.twoPow 32 31 from rfl, BitVec.getElem_append, BitVec.getElem_xor,
    BitVec.getElem_twoPow]
  by_cases h : i < 31
  · simp [h, h.ne, BitVec.getLsbD_eq_getElem (show i < 32 by omega)]
  · obtain rfl : i = 31 := by omega
    simp

/-! ## Instructions that write one register

Each row of Table 6 that writes a register from registers runs as one issue, with one write of one result. -/

/-- `f` reads no more of a stitcher than its registers. -/
def ReadsRegs {α : Type} (f : Stitcher → α) : Prop :=
  ∀ x, f { Stitcher.init with sreg := x.sreg, vreg := x.vreg, preg := x.preg } = f x

theorem ReadsRegs.congr {α : Type} {f : Stitcher → α} (hf : ReadsRegs f) {x y : Stitcher} (hs : x.sreg = y.sreg)
    (hv : x.vreg = y.vreg) (hp : x.preg = y.preg) : f x = f y := by
  rw [← hf x, ← hf y, hs, hv, hp]

/-- An issue reads registers as they were before it. -/
theorem ReadsRegs.afterIssue {α : Type} {f : Stitcher → α} (hf : ReadsRegs f) (s : State) (u : StId) (g : Gate) :
    f ((s.afterIssue u g).st u) = f (s.st u) := by
  rw [State.afterIssue_st]
  exact hf.congr rfl rfl rfl

/-- Instruction `i` of stitcher `u` waits for nothing but its sources, and then has its effect at its position. -/
def IssuesAs (i : Instr) (u : StId) (effect : State → Nat → State) : Prop :=
  ∃ g : Gate, g.wait = none ∧ ∀ s, exec i s = s.issue u i g (fun s t _ => effect s t)

theorem IssuesAs.next {i : Instr} {u : StId} {effect : State → Nat → State} (h : IssuesAs i u effect) :
    ∃ g : Gate, g.wait = none ∧ ∀ s, s.canIssue u i = true →
      exec i s = .next (effect (s.afterIssue u g) ((s.st u).issueAt g)) := by
  obtain ⟨g, hw, he⟩ := h
  exact ⟨g, hw, fun s hs => (he s).trans (State.issue_next hs hw _)⟩

/-- The instruction puts `f` of the registers into scalar register `rd`. -/
def PutsScalar (i : Instr) (u : StId) (rd : SReg) (f : Stitcher → BitVec 32) : Prop :=
  ReadsRegs f ∧ ∃ lat, IssuesAs i u (fun s t => s.putS u rd (f (s.st u)) (t + lat))

theorem PutsScalar.of_issue {i : Instr} {u : StId} {rd : SReg} {f : Stitcher → BitVec 32} {lat : Nat} {g : Gate}
    (he : ∀ s, exec i s = s.issue u i g (fun s t _ => s.putS u rd (f (s.st u)) (t + lat)))
    (hf : ReadsRegs f) (hw : g.wait = none) : PutsScalar i u rd f :=
  ⟨hf, lat, g, hw, he⟩

theorem PutsScalar.of_scalar2 {i : Instr} {u : StId} {rd ra rb : SReg} {f : Stitcher → BitVec 32} {lat : Nat}
    {k : BitVec 32 → BitVec 32 → BitVec 32} (he : ∀ s, exec i s = s.scalar2 u i rd ra rb lat k)
    (hv : ∀ x, f x = k (x.s ra) (x.s rb)) : PutsScalar i u rd f := by
  obtain rfl : f = fun x => k (x.s ra) (x.s rb) := funext hv
  exact .of_issue he (fun _ => rfl) rfl

theorem PutsScalar.of_scalar1 {i : Instr} {u : StId} {rd ra : SReg} {f : Stitcher → BitVec 32} {lat : Nat}
    {k : BitVec 32 → BitVec 32} (he : ∀ s, exec i s = s.scalar1 u i rd ra lat k) (hv : ∀ x, f x = k (x.s ra)) :
    PutsScalar i u rd f := by
  obtain rfl : f = fun x => k (x.s ra) := funext hv
  exact .of_issue he (fun _ => rfl) rfl

theorem PutsScalar.of_scalarT {i : Instr} {u : StId} {rd ra : SReg} {f : Stitcher → BitVec 32}
    {k : FVal → FVal} (he : ∀ s, exec i s = s.scalarT u i rd ra k) (hv : ∀ x, f x = toFp32 (k (ofFp32 (x.s ra)))) :
    PutsScalar i u rd f := by
  obtain rfl : f = fun x => toFp32 (k (ofFp32 (x.s ra))) := funext hv
  exact .of_issue he (fun _ => rfl) rfl

theorem putsScalar_of_scalarValue {i : Instr} {u : StId} {rd : SReg} {f : Stitcher → BitVec 32}
    (h : scalarValue i = some (u, rd, f)) : PutsScalar i u rd f := by
  unfold scalarValue at h
  split at h <;> cases h
  -- add, sub, mul, mulh, mulhu
  · apply PutsScalar.of_scalar2; exacts [fun s => show execAdd _ _ _ _ s = _ from rfl, fun _ => rfl]
  · apply PutsScalar.of_scalar2; exacts [fun s => show execSub _ _ _ _ s = _ from rfl, fun _ => rfl]
  · apply PutsScalar.of_scalar2; exacts [fun s => show execMul _ _ _ _ s = _ from rfl, fun _ => rfl]
  · apply PutsScalar.of_scalar2; exacts [fun s => show execMulh _ _ _ _ s = _ from rfl, fun _ => (mulh_value _ _).symm]
  · apply PutsScalar.of_scalar2; exacts [fun s => show execMulhu _ _ _ _ s = _ from rfl, fun _ => (mulhu_value _ _).symm]
  -- and, or, xor, shl, shr, sra
  · apply PutsScalar.of_scalar2; exacts [fun s => show execAnd _ _ _ _ s = _ from rfl, fun _ => rfl]
  · apply PutsScalar.of_scalar2; exacts [fun s => show execOr _ _ _ _ s = _ from rfl, fun _ => rfl]
  · apply PutsScalar.of_scalar2; exacts [fun s => show execXor _ _ _ _ s = _ from rfl, fun _ => rfl]
  · apply PutsScalar.of_scalar2; exacts [fun s => show execShl _ _ _ _ s = _ from rfl, fun _ => rfl]
  · apply PutsScalar.of_scalar2; exacts [fun s => show execShr _ _ _ _ s = _ from rfl, fun _ => rfl]
  · apply PutsScalar.of_scalar2; exacts [fun s => show execSra _ _ _ _ s = _ from rfl, fun _ => rfl]
  -- min, max, minu, maxu, addSat, subSat
  · apply PutsScalar.of_scalar2; exacts [fun s => show execMin _ _ _ _ s = _ from rfl, fun _ => (min_value _ _).symm]
  · apply PutsScalar.of_scalar2; exacts [fun s => show execMax _ _ _ _ s = _ from rfl, fun _ => (max_value _ _).symm]
  · apply PutsScalar.of_scalar2; exacts [fun s => show execMinu _ _ _ _ s = _ from rfl, fun _ => (minu_value _ _).symm]
  · apply PutsScalar.of_scalar2; exacts [fun s => show execMaxu _ _ _ _ s = _ from rfl, fun _ => (maxu_value _ _).symm]
  · apply PutsScalar.of_scalar2; exacts [fun s => show execAddSat _ _ _ _ s = _ from rfl, fun _ => (sat32_value _).symm]
  · apply PutsScalar.of_scalar2; exacts [fun s => show execSubSat _ _ _ _ s = _ from rfl, fun _ => (sat32_value _).symm]
  -- sel
  · apply PutsScalar.of_issue; exacts [fun s => show execSel _ _ _ _ _ s = _ from rfl, fun _ => rfl, rfl]
  -- addi, andi, ori, xori
  · apply PutsScalar.of_scalar1; exacts [fun s => show execAddi _ _ _ _ s = _ from rfl, fun _ => rfl]
  · apply PutsScalar.of_scalar1; exacts [fun s => show execAndi _ _ _ _ s = _ from rfl, fun _ => rfl]
  · apply PutsScalar.of_scalar1; exacts [fun s => show execOri _ _ _ _ s = _ from rfl, fun _ => rfl]
  · apply PutsScalar.of_scalar1; exacts [fun s => show execXori _ _ _ _ s = _ from rfl, fun _ => rfl]
  -- lui
  · simp only [← lui_value]
    apply PutsScalar.of_issue; exacts [fun s => show execLui _ _ _ s = _ from rfl, fun _ => rfl, rfl]
  -- shli, shri, srai
  · apply PutsScalar.of_scalar1; exacts [fun s => show execShli _ _ _ _ s = _ from rfl, fun _ => rfl]
  · apply PutsScalar.of_scalar1; exacts [fun s => show execShri _ _ _ _ s = _ from rfl, fun _ => rfl]
  · apply PutsScalar.of_scalar1; exacts [fun s => show execSrai _ _ _ _ s = _ from rfl, fun _ => rfl]
  -- fadd, fsub, fmul, ffma, fmin, fmax
  · apply PutsScalar.of_scalar2; exacts [fun s => show execFadd _ _ _ _ s = _ from rfl, fun _ => rfl]
  · apply PutsScalar.of_scalar2; exacts [fun s => show execFsub _ _ _ _ s = _ from rfl, fun _ => rfl]
  · apply PutsScalar.of_scalar2; exacts [fun s => show execFmul _ _ _ _ s = _ from rfl, fun _ => rfl]
  · apply PutsScalar.of_issue; exacts [fun s => show execFfma _ _ _ _ s = _ from rfl, fun _ => rfl, rfl]
  · apply PutsScalar.of_scalar2; exacts [fun s => show execFmin _ _ _ _ s = _ from rfl, fun _ => rfl]
  · apply PutsScalar.of_scalar2; exacts [fun s => show execFmax _ _ _ _ s = _ from rfl, fun _ => rfl]
  -- fabs, fneg
  · apply PutsScalar.of_scalar1; exacts [fun s => show execFabs _ _ _ s = _ from rfl, fun _ => (fabs_value _).symm]
  · apply PutsScalar.of_scalar1; exacts [fun s => show execFneg _ _ _ s = _ from rfl, fun _ => (fneg_value _).symm]
  -- fexp, frcp, frsqrt
  · apply PutsScalar.of_scalarT; exacts [fun s => show execFexp _ _ _ s = _ from rfl, fun _ => rfl]
  · apply PutsScalar.of_scalarT; exacts [fun s => show execFrcp _ _ _ s = _ from rfl, fun _ => rfl]
  · apply PutsScalar.of_scalarT; exacts [fun s => show execFrsqrt _ _ _ s = _ from rfl, fun _ => rfl]

end Sys2Proof.Machine
end

section
namespace Sys2Proof.Machine

/-- The instruction puts `f` of the registers into predicate `pd`. -/
def PutsPredicate (i : Instr) (u : StId) (pd : PReg) (f : Stitcher → BitVec 64) : Prop :=
  ReadsRegs f ∧ ∃ lat, IssuesAs i u (fun s t => s.putP u pd (f (s.st u)) (t + lat))

/-- A scalar compare puts one bit everywhere (R89). -/
def PutsBit (i : Instr) (u : StId) (pd : PReg) (f : Stitcher → BitVec 64) : Prop :=
  PutsPredicate i u pd f ∧ ∀ x, ∃ b, f x = allBits b

theorem PutsBit.of_issue {i : Instr} {u : StId} {pd : PReg} {f : Stitcher → BitVec 64} {c : Stitcher → Bool} {lat : Nat}
    {g : Gate} (he : ∀ s, exec i s = s.issue u i g (fun s t _ => s.putP u pd (allBits (c (s.st u))) (t + lat)))
    (hv : ∀ x, f x = allBits (c x)) (hc : ReadsRegs c) (hw : g.wait = none) : PutsBit i u pd f := by
  obtain rfl : f = fun x => allBits (c x) := funext hv
  exact ⟨⟨fun x => congrArg allBits (hc x), lat, g, hw, he⟩, fun x => ⟨_, rfl⟩⟩

theorem PutsBit.of_scalarCmp {i : Instr} {u : StId} {pd : PReg} {ra rb : SReg} {f : Stitcher → BitVec 64} {lat : Nat}
    {k : BitVec 32 → BitVec 32 → Bool} (he : ∀ s, exec i s = s.scalarCmp u i pd ra rb lat k)
    (hv : ∀ x, f x = allBits (k (x.s ra) (x.s rb))) : PutsBit i u pd f :=
  .of_issue (c := fun x => k (x.s ra) (x.s rb)) he hv (fun _ => rfl) rfl

theorem PutsBit.of_cmpi {u : StId} {pd : PReg} {ra : SReg} {cond : CondI} {imm : BitVec 16} {f : Stitcher → BitVec 64}
    (hv : ∀ x, f x = allBits (CondI.holds cond (x.s ra) (sext16 imm))) : PutsBit (.cmpi u pd cond ra imm) u pd f :=
  .of_issue (c := fun x => CondI.holds cond (x.s ra) (sext16 imm)) (lat := 1) (g := { srcs := [sK ra] })
    (fun s => show execCmpi _ _ _ _ _ s = _ from rfl) hv (fun _ => rfl) rfl

/-- Every scalar compare of `predicateValue` puts its one bit into its destination. -/
theorem putsBit_of_scalarCompare {i : Instr} {u : StId} {pd : PReg} {f : Stitcher → BitVec 64}
    (h : predicateValue i = some (u, pd, f)) (hc : scalarCompare i = true) : PutsBit i u pd f := by
  unfold predicateValue at h
  split at h <;> cases h
  -- cmpEq, cmpNe, cmpLt, cmpLe, cmpLtu, cmpLeu
  · apply PutsBit.of_scalarCmp
    exacts [fun s => show execCmpEq _ _ _ _ s = _ from rfl, fun _ => congrArg allBits (beq_eq_decide ..).symm]
  · apply PutsBit.of_scalarCmp
    exacts [fun s => show execCmpNe _ _ _ _ s = _ from rfl, fun _ => congrArg allBits (by simp [bne, beq_eq_decide])]
  · apply PutsBit.of_scalarCmp
    exacts [fun s => show execCmpLt _ _ _ _ s = _ from rfl, fun _ => congrArg allBits BitVec.slt_eq_decide.symm]
  · apply PutsBit.of_scalarCmp
    exacts [fun s => show execCmpLe _ _ _ _ s = _ from rfl, fun _ => congrArg allBits BitVec.sle_eq_decide.symm]
  · apply PutsBit.of_scalarCmp
    exacts [fun s => show execCmpLtu _ _ _ _ s = _ from rfl, fun _ => congrArg allBits (BitVec.ult_eq_decide ..).symm]
  · apply PutsBit.of_scalarCmp
    exacts [fun s => show execCmpLeu _ _ _ _ s = _ from rfl, fun _ => congrArg allBits (BitVec.ule_eq_decide ..).symm]
  -- cmpi with each condition
  · exact .of_cmpi fun _ => congrArg allBits (beq_eq_decide ..).symm
  · exact .of_cmpi fun _ => congrArg allBits (by simp [CondI.holds, bne, beq_eq_decide, sext16])
  · refine .of_cmpi fun x => congrArg allBits ?_
    show _ = (x.s _).slt (sext16 _)
    rw [BitVec.slt_eq_decide, sext16, BitVec.toInt_signExtend_of_le (by decide)]
  · exact .of_cmpi fun _ => congrArg allBits (BitVec.ult_eq_decide ..).symm
  -- fcmpEq, fcmpLt, fcmpLe, fcmpUn
  · apply PutsBit.of_scalarCmp; exacts [fun s => show execFcmpEq _ _ _ _ s = _ from rfl, fun _ => rfl]
  · apply PutsBit.of_scalarCmp; exacts [fun s => show execFcmpLt _ _ _ _ s = _ from rfl, fun _ => rfl]
  · apply PutsBit.of_scalarCmp; exacts [fun s => show execFcmpLe _ _ _ _ s = _ from rfl, fun _ => rfl]
  · apply PutsBit.of_scalarCmp; exacts [fun s => show execFcmpUn _ _ _ _ s = _ from rfl, fun _ => rfl]
  -- pand, por, pnot, pany, pall are no compares
  all_goals cases hc

/-- The instruction puts the lanes `f` of the registers into vector register `vd` under its guard (R89). -/
def PutsLanes (i : Instr) (u : StId) (vd : VReg) (pg : PReg) (pn : Bool) (ty : LaneTy) (f : Stitcher → Nat → Nat) : Prop :=
  ReadsRegs f ∧ ∃ lat, IssuesAs i u (fun s t => s.putLanes u vd (governsAll ty ((s.st u).p pg) pn)
    (guarded ty ((s.st u).p pg) pn ((s.st u).v vd) (f (s.st u))) (t + lat))

theorem PutsLanes.of_vecOp {i : Instr} {u : StId} {vd : VReg} {srcs : List Nat} {pg : PReg} {pn : Bool} {ty : LaneTy}
    {lat : Nat} {f : Stitcher → Nat → Nat} (he : ∀ s, exec i s = s.vecOp u i vd srcs pg pn ty lat f) (hf : ReadsRegs f) :
    PutsLanes i u vd pg pn ty f :=
  ⟨hf, lat, _, rfl, he⟩

theorem PutsLanes.of_vecT {i : Instr} {u : StId} {vd va : VReg} {pg : PReg} {pn : Bool} {ty : FloatTy} {k : FVal → FVal}
    (he : ∀ s, exec i s = s.vecT u i vd va pg pn ty k) :
    PutsLanes i u vd pg pn ty.lane (fun x n => laneT ty k (lane ty.lane (x.v va) n)) :=
  ⟨fun _ => rfl, 12, _, rfl, he⟩

/-- Every row of `laneValue` puts its lanes into its destination. -/
theorem putsLanes_of_laneValue {i : Instr} {u : StId} {vd : VReg} {pg : PReg} {pn : Bool} {ty : LaneTy}
    {f : Stitcher → Nat → Nat} (h : laneValue i = some (u, vd, pg, pn, ty, f)) : PutsLanes i u vd pg pn ty f := by
  unfold laneValue at h
  split at h <;> cases h
  -- vadd, vsub, vmul, vmin, vmax, vfma
  · apply PutsLanes.of_vecOp; exacts [fun s => show execVadd _ _ _ _ _ _ _ s = _ from rfl, fun _ => rfl]
  · apply PutsLanes.of_vecOp; exacts [fun s => show execVsub _ _ _ _ _ _ _ s = _ from rfl, fun _ => rfl]
  · apply PutsLanes.of_vecOp; exacts [fun s => show execVmul _ _ _ _ _ _ _ s = _ from rfl, fun _ => rfl]
  · apply PutsLanes.of_vecOp; exacts [fun s => show execVmin _ _ _ _ _ _ _ s = _ from rfl, fun _ => rfl]
  · apply PutsLanes.of_vecOp; exacts [fun s => show execVmax _ _ _ _ _ _ _ s = _ from rfl, fun _ => rfl]
  · apply PutsLanes.of_vecOp; exacts [fun s => show execVfma _ _ _ _ _ _ _ _ s = _ from rfl, fun _ => rfl]
  -- vabs, vneg
  · apply PutsLanes.of_vecOp; exacts [fun s => show execVabs _ _ _ _ _ _ s = _ from rfl, fun _ => rfl]
  · apply PutsLanes.of_vecOp; exacts [fun s => show execVneg _ _ _ _ _ _ s = _ from rfl, fun _ => rfl]
  -- vand, vor, vxor
  · apply PutsLanes.of_vecOp; exacts [fun s => show execVand _ _ _ _ _ _ _ s = _ from rfl, fun _ => rfl]
  · apply PutsLanes.of_vecOp; exacts [fun s => show execVor _ _ _ _ _ _ _ s = _ from rfl, fun _ => rfl]
  · apply PutsLanes.of_vecOp; exacts [fun s => show execVxor _ _ _ _ _ _ _ s = _ from rfl, fun _ => rfl]
  -- vshuf, vmov, vsum, vmaxi
  · apply PutsLanes.of_vecOp; exacts [fun s => show execVshuf _ _ _ _ _ _ _ s = _ from rfl, fun _ => rfl]
  · apply PutsLanes.of_vecOp; exacts [fun s => show execVmov _ _ _ _ _ _ s = _ from rfl, fun _ => rfl]
  · apply PutsLanes.of_vecOp; exacts [fun s => show execVsum _ _ _ _ _ _ s = _ from rfl, fun _ => rfl]
  · apply PutsLanes.of_vecOp; exacts [fun s => show execVmaxi _ _ _ _ _ _ s = _ from rfl, fun _ => rfl]
  -- vexp, vrcp, vrsqrt
  · exact .of_vecT fun s => show execVexp _ _ _ _ _ _ s = _ from rfl
  · exact .of_vecT fun s => show execVrcp _ _ _ _ _ _ s = _ from rfl
  · exact .of_vecT fun s => show execVrsqrt _ _ _ _ _ _ s = _ from rfl

/-- The instruction puts the results `f` of the lanes into predicate `pd`, a lane's bits at its bytes (R89). -/
def PutsLaneBits (i : Instr) (u : StId) (pd pg : PReg) (pn : Bool) (ty : LaneTy) (f : Stitcher → Nat → Bool) : Prop :=
  ReadsRegs f ∧ ∃ lat, IssuesAs i u (fun s t => s.putBits u pd (governsAll ty ((s.st u).p pg) pn)
    (predLanes ty ((s.st u).p pg) pn ((s.st u).p pd) (f (s.st u))) (t + lat))

theorem PutsLaneBits.of_vecCmp {i : Instr} {u : StId} {pd pg : PReg} {va vb : VReg} {pn : Bool} {ty : LaneTy}
    {k : Nat → Nat → Bool} (he : ∀ s, exec i s = s.vecCmp u i pd va vb pg pn ty k) :
    PutsLaneBits i u pd pg pn ty (fun x n => k (lane ty (x.v va) n) (lane ty (x.v vb) n)) :=
  ⟨fun _ => rfl, _, _, rfl, he⟩

theorem putsLaneBits_of_vectorCompare {i : Instr} {u : StId} {pd pg : PReg} {pn : Bool} {ty : LaneTy}
    {f : Stitcher → Nat → Bool} (h : vectorCompare i = some (u, pd, pg, pn, ty, f)) : PutsLaneBits i u pd pg pn ty f := by
  unfold vectorCompare at h
  split at h <;> cases h
  · exact .of_vecCmp fun s => show execVcmpEq _ _ _ _ _ _ _ s = _ from rfl
  · exact .of_vecCmp fun s => show execVcmpLt _ _ _ _ _ _ _ s = _ from rfl
  · exact .of_vecCmp fun s => show execVcmpLe _ _ _ _ _ _ _ s = _ from rfl

end Sys2Proof.Machine
end

section
namespace Sys2Proof.Machine

/-! ## What an issue and one register write leave as they are -/

/-- Where the stitchers alone differ from those after an issue, and of them only `u`, the issue's frame holds. -/
theorem issue_frame {s t : State} {u : StId} {g : Gate} (hc : s.f (sb u) F.ST_PC_count < 256)
    (hr : { t with stitchers := (s.afterIssue u g).stitchers } = s.afterIssue u g)
    (hne : ∀ v, v ≠ u → t.st v = (s.afterIssue u g).st v) : OnlyStitcher u s t ∧ CountsIssue u s t := by
  obtain ⟨hb, hv, hrd⟩ := s.afterIssue_only u g
  have hregs : t.regs = (s.afterIssue u g).regs := (congrArg State.regs hr :)
  have hcount := s.afterIssue_counts u g hc
  refine ⟨⟨?_, fun v h => (hne v h).trans (hv v h), fun b r h1 h2 => (State.rd_congr hregs b r).trans (hrd b r h1 h2)⟩, ?_⟩
  · exact (congrArg State.butStitchers hr :).trans hb
  · simpa only [CountsIssue, State.f_congr hregs] using hcount

theorem State.canIssue_count {s : State} {u : StId} {i : Instr} (h : s.canIssue u i = true) :
    s.f (sb u) F.ST_PC_count < 256 := by
  simp only [State.canIssue, Bool.and_eq_true, decide_eq_true_eq] at h
  exact h.1.2

theorem wroteScalar_afterIssue {s : State} {u : StId} {g : Gate} (hc : s.f (sb u) F.ST_PC_count < 256) (rd : SReg)
    (v : BitVec 32) (at_ : Nat) : WroteScalar u rd v s ((s.afterIssue u g).putS u rd v at_) := by
  obtain ⟨ho, hn⟩ := issue_frame hc (State.putS_rest _ u rd v at_) fun w h => State.putS_ne _ rd v at_ h
  refine ⟨ho, hn, ?_, fun r => ?_, ?_⟩
  · unfold Advances State.putS
    split
    · rw [State.afterIssue_st]
    · rw [State.st_updSt_same, State.afterIssue_st, Stitcher.setS, if_neg ‹_›]; rfl
  · rw [State.putS_s, State.afterIssue_st]; rfl
  · unfold State.putS
    split
    · rw [State.afterIssue_st]; rfl
    · rw [State.st_updSt_same, State.afterIssue_st, Stitcher.setS, if_neg ‹_›]; rfl

theorem wrotePredicate_afterIssue {s : State} {u : StId} {g : Gate} (hc : s.f (sb u) F.ST_PC_count < 256) (pd : PReg)
    (v : BitVec 64) (at_ : Nat) : WrotePredicate u pd v s ((s.afterIssue u g).putP u pd v at_) := by
  obtain ⟨ho, hn⟩ := issue_frame hc (State.putP_rest _ u pd v at_) fun w h => State.putP_ne _ pd v at_ h
  refine ⟨ho, hn, ?_, fun r => ?_, ?_⟩
  · unfold Advances State.putP
    split
    · rw [State.afterIssue_st]
    · rw [State.st_updSt_same, State.afterIssue_st, Stitcher.setP, if_neg ‹_›]; rfl
  · rw [State.putP_p, State.afterIssue_st]; rfl
  · unfold State.putP
    split
    · rw [State.afterIssue_st]; rfl
    · rw [State.st_updSt_same, State.afterIssue_st, Stitcher.setP, if_neg ‹_›]; rfl

theorem wroteVector_afterIssue {s : State} {u : StId} {g : Gate} (hc : s.f (sb u) F.ST_PC_count < 256) (vd : VReg)
    (v : BitVec 512) (at_ : Nat) : WroteVector u vd s ((s.afterIssue u g).putV u vd v at_) := by
  obtain ⟨ho, hn⟩ := issue_frame hc (State.putV_rest _ u vd v at_) fun w h => State.putV_ne _ vd v at_ h
  refine ⟨ho, hn, ?_, fun r h => ?_, ?_⟩
  · rw [Advances, State.putV, State.st_updSt_same, State.afterIssue_st]; rfl
  · rw [State.putV_v, if_neg h, State.afterIssue_st]; rfl
  · rw [State.putV, State.st_updSt_same, State.afterIssue_st]; rfl

/-! ## Predicates and the lanes they govern (R89) -/

theorem governs_eq_bne (g : BitVec 64) (pn : Bool) (w i : Nat) : governs g pn w i = (g.getLsbD (w * i) != pn) := by
  cases pn <;> cases h : g.getLsbD (w * i) <;> simp [governs, h]

theorem getLsbD_allBits (b : Bool) {k : Nat} (h : k < 64) : (allBits b).getLsbD k = b := by
  cases b
  · exact BitVec.getLsbD_zero
  · exact (BitVec.getLsbD_allOnes ..).trans (decide_eq_true h)

/-- The bits of a lane's bytes after a vector compare: its result where the guard governs it, else as they were. -/
theorem getLsbD_predLanes (ty : LaneTy) (g : BitVec 64) (pn : Bool) (old : BitVec 64) (r : Nat → Bool) {k j : Nat}
    (hk : k < ty.lanes) (hj : j < ty.bytes) :
    (predLanes ty g pn old r).getLsbD (ty.bytes * k + j) =
      if governs g pn ty.bytes k then r k else old.getLsbD (ty.bytes * k + j) := by
  have bit : ∀ x : Nat, x.testBit (ty.bytes * k + j) = (x / 2 ^ (ty.bytes * k) % 2 ^ ty.bytes).testBit j := fun x => by
    simp [Nat.testBit_mod_two_pow, Nat.testBit_div_two_pow, hj, Nat.add_comm]
  have hlt : ty.bytes * k + j < 64 := by
    cases ty <;> simp only [LaneTy.bytes, LaneTy.lanes] at hk hj ⊢ <;> omega
  rw [predLanes, BitVec.getLsbD_ofNat, decide_eq_true hlt, Bool.true_and, bit, packNat_lane, List.getD_eq_getElem?_getD,
    List.getElem?_map, List.getElem?_range hk, Option.map_some, Option.getD_some, Nat.testBit_mod_two_pow]
  simp only [hj, decide_true, Bool.true_and]
  split
  · cases r k <;> simp [hj]
  · rw [← bit]; rfl

/-! ## Branches -/

theorem guardOk_afterIssue (s : State) (u : StId) (g : Gate) (pg : PReg) (pn : Bool) :
    ((s.afterIssue u g).st u).guardOk pg pn = (((s.st u).p pg).getLsbD 0 != pn) := by
  rw [State.afterIssue_st, Bool.bne_eq_xor]
  rfl

/-- A branch whose guard does not hold issues and does nothing more. -/
theorem branch_not_taken {i : Instr} {u : StId} {pg : PReg} {pn : Bool} {s : State} (h : guardOf i = some (u, pg, pn))
    (hs : s.canIssue u i = true) (hg : ((s.st u).p pg).getLsbD 0 = pn) :
    ∃ g, exec i s = .next (s.afterIssue u g) := by
  have no : ∀ g : Gate, ((s.afterIssue u g).st u).guardOk pg pn = false := fun g => by
    rw [guardOk_afterIssue, hg, bne_self_eq_false]
  simp only [State.afterIssue] at no ⊢
  unfold guardOf at h
  split at h <;> cases h
  · refine ⟨{ srcs := [pK pg] }, (State.issue_next hs rfl _ : execBr _ _ _ _ s = _).trans ?_⟩
    simp [State.jumpIf, no]
  · rename_i rs _
    refine ⟨{ srcs := [pK pg, sK rs] }, (State.issue_next hs rfl _ : execBrZ _ _ _ _ _ s = _).trans ?_⟩
    simp [State.jumpIf, no]
  · rename_i rs _
    refine ⟨{ srcs := [pK pg, sK rs] }, (State.issue_next hs rfl _ : execBrNz _ _ _ _ _ s = _).trans ?_⟩
    simp [State.jumpIf, no]
  · rename_i rs _
    refine ⟨{ srcs := [pK pg, sK rs] }, (State.issue_next hs rfl _ : execLoop _ _ _ _ _ s = _).trans ?_⟩
    simp [no]

theorem branchTo_eq {pc : Nat} (off : BitVec 11) : (branchTo pc off : Int) = (pc + off.toInt) % 1024 := by
  have h : -1024 ≤ off.toInt := by simpa using BitVec.le_toInt off
  unfold branchTo
  omega

theorem br_taken {u : StId} {pg : PReg} {pn : Bool} {off : BitVec 11} {s : State}
    (hs : s.canIssue u (.br u pg pn off) = true) (hg : ((s.st u).p pg).getLsbD 0 ≠ pn) :
    ∃ t, exec (.br u pg pn off) s = .next t ∧ (t.st u).pc = branchTo (s.st u).pc off := by
  refine ⟨_, (State.issue_next hs rfl _ : execBr _ _ _ _ s = _), ?_⟩
  have yes : ((s.afterIssue u { srcs := [pK pg] }).st u).guardOk pg pn = true := by
    rw [guardOk_afterIssue, bne_iff_ne.mpr hg]
  rw [State.afterIssue] at yes
  rw [yes, State.jumpIf, if_pos rfl, State.jump, State.st_updSt_same]

/-- Settles O9: the rows of Table 6 that write lanes, compares and branches, each by the one write that it makes. -/
theorem predicatesGovernLanes : Obligations.PredicatesGovernLanes := by
  unfold Obligations.PredicatesGovernLanes
  refine ⟨?lanes, ?compares, ?scalarCompares, ?notTaken, ?taken⟩
  case lanes =>
    intro i u vd pg pn ty f s hi hs
    obtain ⟨hf, lat, hrun⟩ := putsLanes_of_laneValue hi
    obtain ⟨g, -, he⟩ := hrun.next
    refine ⟨_, he s hs, wroteVector_afterIssue (State.canIssue_count hs) .., fun k hk => ?_⟩
    rw [State.putLanes, State.putV_v, if_pos rfl, lane, laneAt_guarded _ _ _ _ _ _ hk, hf.afterIssue, governs_eq_bne,
      State.afterIssue_st]
    rfl
  case compares =>
    intro i u pd pg pn ty f s hi hs
    obtain ⟨hf, lat, hrun⟩ := putsLaneBits_of_vectorCompare hi
    obtain ⟨g, -, he⟩ := hrun.next
    refine ⟨_, _, he s hs, wrotePredicate_afterIssue (State.canIssue_count hs) .., fun k j hk hj => ?_⟩
    rw [getLsbD_predLanes _ _ _ _ _ hk hj, hf.afterIssue, governs_eq_bne, State.afterIssue_st]
    rfl
  case scalarCompares =>
    intro i u pd f s hi hc hs
    obtain ⟨⟨hf, lat, hrun⟩, hbit⟩ := putsBit_of_scalarCompare hi hc
    obtain ⟨g, -, he⟩ := hrun.next
    refine ⟨_, he s hs, fun k hk => ?_⟩
    obtain ⟨b, hb⟩ := hbit (s.st u)
    rw [State.putP_p, hf.afterIssue, hb, getLsbD_allBits b (by decide)]
    by_cases h0 : pd = 0
    · subst h0
      rw [if_neg (by simp), Stitcher.p_zero, BitVec.getLsbD_allOnes, decide_eq_true hk, decide_eq_true rfl, Bool.true_or]
    · rw [if_pos ⟨rfl, h0⟩, getLsbD_allBits b hk, decide_eq_false h0, Bool.false_or]
  case notTaken =>
    intro i u pg pn s hi hs hg
    obtain ⟨g, he⟩ := branch_not_taken hi hs hg
    exact ⟨_, he, by rw [State.afterIssue_st]⟩
  case taken =>
    intro u pg pn off s hs _ hg
    obtain ⟨t, he, hpc⟩ := br_taken hs hg
    exact ⟨t, he, by rw [hpc, branchTo_eq]⟩

/-- Settles O3. -/
theorem hardwiredRegisters : Obligations.HardwiredRegisters := by
  unfold Obligations.HardwiredRegisters
  refine ⟨fun x => ⟨x.s_zero, x.p_zero⟩, fun x v r => ⟨if_pos rfl, fun hr => ?_⟩,
    fun x v r => ⟨if_pos rfl, fun hr => ?_⟩, fun x v r => ?_⟩
  · rw [Stitcher.s_setS, if_pos ⟨rfl, hr⟩]
  · rw [Stitcher.p_setP, if_pos ⟨rfl, hr⟩]
  · rw [Stitcher.v_setV, if_pos rfl]

end Sys2Proof.Machine
end

section
namespace Sys2Proof.Machine

/-! ## A firing fault (R114, R115) -/

/-- A quire's own registers lie below its stitchers' and below every channel table. -/
theorem eb_ne_qb {q r : QuireId} {e o c : Nat} (ho : o < 0x1000) (hc : c < 16) : eb r e + c ≠ qb q + o := by
  simp only [eb, qb, pt, partOf, localOf]
  omega

theorem sb_ne_qb {u : StId} {o c : Nat} (ho : o < 0x1000) : sb u + c ≠ qb u.quire + o := by
  simp only [sb]
  omega

/-- A field of ST_FAULT beside `discarded`. -/
def FaultField (g : Fld) : Prop := g.reg = R.ST_FAULT ∧ (g.lo + g.w ≤ 24 ∨ 31 ≤ g.lo ∧ g.lo + g.w ≤ 32)

theorem State.refund_stitchers (s : State) (m : Flight) : (s.refund m).stitchers = s.stitchers := by
  unfold State.refund
  cases m.landing <;> simp only [State.updQu_stitchers, State.setF_stitchers]

theorem State.refund_parts (s : State) (m : Flight) : (s.refund m).parts = s.parts := by
  unfold State.refund
  cases m.landing <;> simp only [State.updQu_parts, State.setF_parts]

theorem State.refund_regs (s : State) (m : Flight) :
    (s.refund m).regs = (s.setF (eb m.src m.entry) F.CH_ROUTE_D_held
      (s.f (eb m.src m.entry) F.CH_ROUTE_D_held + m.landing.units)).regs := by
  unfold State.refund
  cases m.landing <;> simp only [State.updQu_regs]

theorem State.refund_f {g : Fld} (hg : FaultField g) (s : State) (m : Flight) (q : QuireId) :
    (s.refund m).f (qb q) g = s.f (qb q) g :=
  (State.f_congr (s.refund_regs m) _ _).trans (s.f_setF_reg _ (eb_ne_qb (by rw [hg.1]; decide) (by decide)))

/-- What every refund keeps, the discard of a quire's messages changes by its own writes alone: of the quire, of the hints
and of the count in ST_FAULT. -/
theorem State.discardOutbound_of_refund {α : Type} {k : State → α} (hk : ∀ s m, k (State.refund s m) = k s) (s : State)
    (q : QuireId) (pos : Nat) :
    ∃ (l : List Flight) (x : Quire) (y : List Hint → List Hint) (n : Nat), k (s.discardOutbound q pos) =
      k (State.incF (State.updPart (State.setQu { s with flights := l } q x) (partOf q)
        (fun z => { z with hints := y z.hints })) (qb q) F.ST_FAULT_discarded n) := by
  have held : ∀ (t : State) (h : HeldOut), k (match h.msg with | .flight m => t.refund m | .fwd _ => t) = k t := fun t h => by
    split
    exacts [hk t _, rfl]
  exact ⟨_, _, List.filter _, _, (State.foldl_rest k _ held _ _).trans (State.foldl_rest k _ hk _ _)⟩

theorem State.discardOutbound_stitchers (s : State) (q : QuireId) (pos : Nat) :
    (s.discardOutbound q pos).stitchers = s.stitchers := by
  obtain ⟨l, x, y, n, h⟩ := State.discardOutbound_of_refund State.refund_stitchers s q pos
  rw [h, State.incF_stitchers, State.updPart_stitchers, State.setQu_stitchers]

theorem State.discardOutbound_f {g : Fld} (hg : FaultField g) (s : State) (q : QuireId) (pos : Nat) :
    (s.discardOutbound q pos).f (qb q) g = s.f (qb q) g := by
  obtain ⟨l, x, y, n, h⟩ := State.discardOutbound_of_refund (k := fun t => t.f (qb q) g) (fun t m => t.refund_f hg m q) s q pos
  have disjoint : (24 + 7 ≤ g.lo ∧ g.lo + g.w ≤ 32) ∨ (g.lo + g.w ≤ 24 ∧ 24 + 7 ≤ 32) := by
    rcases hg.2 with h | h <;> omega
  refine h.trans ?_
  rw [State.incF, State.f_setF_field _ _ _ hg.1 disjoint, State.f_congr (State.updPart_regs ..),
    State.f_congr (State.setQu_regs ..)]
  rfl

theorem State.failTick_failed (s : State) (p : PartId) (h : (s.part p).frameOpen = true) :
    ((s.failTick p).part p).failed = true := by
  rw [State.failTick_part, h]
  cases hf : (s.part p).failed <;> simp [hf]

theorem State.discardOutbound_part (s : State) (q : QuireId) (pos : Nat) :
    ∃ l, (s.discardOutbound q pos).part (partOf q) = { s.part (partOf q) with hints := l } := by
  obtain ⟨l, x, y, n, h⟩ := State.discardOutbound_of_refund State.refund_parts s q pos
  exact ⟨_, (State.part_congr h _).trans ((State.part_incF ..).trans (State.part_updPart_same ..))⟩

/-! The reset of the stitcher. -/

theorem State.freeCredits_of_credits {α : Type} {k : State → α} (hk : ∀ (s : State) l, k { s with creditFlights := l } = k s)
    (l : List (Origin × Nat)) (s : State) (q : QuireId) (pos : Nat) : k (s.freeCredits q pos l) = k s :=
  State.foldl_rest k (fun t (o : Origin × Nat) => t.freeCredit q pos o.1 o.2)
    (fun t o => by
      unfold State.freeCredit
      cases o.1 with
      | internal => rfl
      | entry => exact hk t _) l s

theorem State.resetStitcher_parts (s : State) (u : StId) (pos : Nat) : (s.resetStitcher u pos).parts = s.parts := by
  unfold State.resetStitcher
  dsimp only
  rw [State.incF_parts, State.setSt_parts, State.freeCredits_of_credits (k := State.parts) fun _ _ => rfl]
  rfl

theorem State.resetStitcher_st (s : State) (u : StId) (pos : Nat) :
    ∃ (n : Nat) (g : BitVec 32) (e : Nat), (s.resetStitcher u pos).st u =
      { s.st u with sreg := [], vreg := [], preg := [], pc := 0, firing := none, store := [], queues := [], lfsr := g,
                    score := [], issues := [], stall := none, inReset := true, resetEnd := e, resets := n } := by
  unfold State.resetStitcher
  dsimp only
  rw [State.st_incF, State.st_setSt_same]
  exact ⟨_, _, _, rfl⟩

theorem State.resetStitcher_f {g : Fld} (hg : g.reg.off < 0x1000) (s : State) (u : StId) (pos : Nat) :
    (s.resetStitcher u pos).f (qb u.quire) g = s.f (qb u.quire) g := by
  unfold State.resetStitcher
  dsimp only
  rw [State.incF, State.f_setF_reg _ _ (sb_ne_qb hg), State.f_congr (State.setSt_regs ..),
    State.f_congr (State.freeCredits_of_credits (k := State.regs) (fun _ _ => rfl) ..)]
  rfl

/-! The fault itself. -/

/-- What a firing fault does before it fails the tick: the record, the counters, the charge and the fields of ST_FAULT. -/
def State.noteFault (s : State) (u : StId) (cause : Nat) (cap : List Nat) : State :=
  let q := u.quire
  let s := (s.raise (.quire q) (faultCause cause).2 2 (u.st.val :: cap)).incF (sb u) (faultCause cause).1
  let s := if cause = 1 ∨ cause = 2 then s.charge (partOf q) (.stitcher (s.tileOf q) u.st.val) (faultCause cause).2 false
    else s
  (((s.setF (qb q) F.ST_FAULT_stitcher u.st.val).setF (qb q) F.ST_FAULT_cause cause).incF (qb q) F.ST_FAULT_count).setF
    (qb q) F.ST_FAULT_suspect 1

theorem State.firingFault_eq (s : State) (u : StId) (cause pos : Nat) (cap : List Nat) :
    s.firingFault u cause pos cap =
      ((((((s.noteFault u cause cap).failTick (partOf u.quire)).discardOutbound u.quire pos).updQu u.quire
        (fun x => { x with discarding := x.open_ })).resetStitcher u pos).updSt u (fun x => { x with stopped := true })) :=
  (rfl)

theorem State.charge_stitchers (s : State) (p : PartId) (w : HwUnit) (code : Nat) (r : Bool) :
    (s.charge p w code r).stitchers = s.stitchers :=
  (congrArg State.stitchers (s.charge_rest p w code r) :)

theorem State.charge_parts (s : State) (p : PartId) (w : HwUnit) (code : Nat) (r : Bool) :
    (s.charge p w code r).parts = s.parts :=
  (congrArg State.parts (s.charge_rest p w code r) :)

theorem State.noteFault_stitchers (s : State) (u : StId) (cause : Nat) (cap : List Nat) :
    (s.noteFault u cause cap).stitchers = s.stitchers := by
  unfold State.noteFault
  dsimp only
  simp only [State.setF_stitchers, State.incF_stitchers, apply_ite State.stitchers, State.charge_stitchers, ite_self]
  exact State.stitchers_of_butEvents (s.raise_rest ..)

theorem State.noteFault_parts (s : State) (u : StId) (cause : Nat) (cap : List Nat) :
    (s.noteFault u cause cap).parts = s.parts := by
  unfold State.noteFault
  dsimp only
  simp only [State.setF_parts, State.incF_parts, apply_ite State.parts, State.charge_parts, ite_self]
  exact State.parts_of_butEvents (s.raise_rest ..)

/-- ST_FAULT shows the fault. -/
theorem State.noteFault_f (s : State) (u : StId) {cause : Nat} (hc : cause < 16) (cap : List Nat) :
    (s.noteFault u cause cap).f (qb u.quire) F.ST_FAULT_suspect = 1 ∧
      (s.noteFault u cause cap).f (qb u.quire) F.ST_FAULT_cause = cause ∧
      (s.noteFault u cause cap).f (qb u.quire) F.ST_FAULT_stitcher = u.st.val := by
  have other : ∀ (t : State) (v : Nat) {g k : Fld}, g.reg = R.ST_FAULT → k.reg = R.ST_FAULT →
      (g.lo + g.w ≤ k.lo ∧ k.lo + k.w ≤ 32) ∨ (k.lo + k.w ≤ g.lo ∧ g.lo + g.w ≤ 32) →
      (t.setF (qb u.quire) g v).f (qb u.quire) k = t.f (qb u.quire) k :=
    fun t v g k hg hk h => t.f_setF_field _ v (hk.trans hg.symm) h
  have stit := u.st.isLt
  unfold State.noteFault State.incF
  dsimp only
  refine ⟨?_, ?_, ?_⟩
  · rw [State.f_setF_same _ _ _ _ (by decide)]; rfl
  · rw [other _ _ rfl rfl (by decide), other _ _ rfl rfl (by decide), State.f_setF_same _ _ _ _ (by decide)]
    exact Nat.mod_eq_of_lt hc
  · rw [other _ _ rfl rfl (by decide), other _ _ rfl rfl (by decide), other _ _ rfl rfl (by decide),
      State.f_setF_same _ _ _ _ (by decide)]
    exact Nat.mod_eq_of_lt stit

theorem State.firingFault_f {g : Fld} (hg : FaultField g) (s : State) (u : StId) (cause pos : Nat) (cap : List Nat) :
    (s.firingFault u cause pos cap).f (qb u.quire) g = (s.noteFault u cause cap).f (qb u.quire) g := by
  rw [State.firingFault_eq, State.f_congr (State.updSt_regs ..), State.resetStitcher_f (by rw [hg.1]; decide),
    State.f_congr (State.updQu_regs ..), State.discardOutbound_f hg, State.failTick, State.f_congr (State.updPart_regs ..)]

/-- The stitcher is as its reset leaves it, and stays stopped. -/
theorem State.firingFault_st (s : State) (u : StId) (cause pos : Nat) (cap : List Nat) :
    ∃ (n : Nat) (g : BitVec 32) (e : Nat), (s.firingFault u cause pos cap).st u =
      { s.st u with sreg := [], vreg := [], preg := [], pc := 0, firing := none, store := [], queues := [], lfsr := g,
                    score := [], issues := [], stall := none, inReset := true, resetEnd := e, resets := n,
                    stopped := true } := by
  rw [State.firingFault_eq, State.st_updSt_same]
  obtain ⟨n, g, e, h⟩ := State.resetStitcher_st (State.updQu _ u.quire _) u pos
  rw [h, State.st_updQu, State.st_congr (State.discardOutbound_stitchers ..), State.failTick, State.st_updPart,
    State.st_congr (s.noteFault_stitchers u cause cap)]
  exact ⟨n, g, e, rfl⟩

theorem State.firingFault_tickFailed (s : State) (u : StId) (cause pos : Nat) (cap : List Nat)
    (h : (s.part (partOf u.quire)).frameOpen = true) :
    ((s.firingFault u cause pos cap).part (partOf u.quire)).failed = true := by
  rw [State.firingFault_eq, State.part_updSt, State.part_congr (State.resetStitcher_parts ..), State.part_updQu]
  obtain ⟨l, hl⟩ := State.discardOutbound_part ((s.noteFault u cause cap).failTick (partOf u.quire)) u.quire pos
  rw [hl]
  refine State.failTick_failed _ _ ?_
  rw [State.part_congr (s.noteFault_parts u cause cap), h]

/-- A firing fault leaves what the statements say of one. -/
theorem faulted_firingFault (s : State) (u : StId) {cause : Nat} (hc : cause < 16) (pos : Nat) (cap : List Nat) :
    Faulted u cause s (s.firingFault u cause pos cap) := by
  obtain ⟨hsuspect, hcause, hstitcher⟩ := s.noteFault_f u hc cap
  obtain ⟨n, g, e, hst⟩ := s.firingFault_st u cause pos cap
  unfold Faulted
  rw [State.firingFault_f ⟨rfl, by decide⟩, State.firingFault_f ⟨rfl, by decide⟩, State.firingFault_f ⟨rfl, by decide⟩, hst]
  exact ⟨hsuspect, hcause, hstitcher, rfl, rfl, rfl, rfl, rfl, rfl, rfl, rfl, s.firingFault_tickFailed u cause pos cap⟩

/-- What an instruction does before it faults leaves pocket memory and the open tick as they were. -/
theorem Faulted.of_before {u : StId} {cause : Nat} {r s t : State} (h : Faulted u cause s t)
    (hp : (s.st u).pocket = (r.st u).pocket)
    (ho : (s.part (partOf u.quire)).frameOpen = (r.part (partOf u.quire)).frameOpen) : Faulted u cause r t := by
  unfold Faulted at h ⊢
  rwa [hp, ho] at h

end Sys2Proof.Machine
end

section
namespace Sys2Proof.Machine

/-! ## Where an instruction faults at its issue (R95, R113, R114) -/

theorem State.canIssue_iff (s : State) (u : StId) (i : Instr) :
    s.canIssue u i = true ↔
      s.mayIssue u i = true ∧ s.f (sb u) F.ST_PC_count < 256 ∧ (s.st u).progErr (s.st u).pc ≠ 2 := by
  simp [State.canIssue, and_assoc]

theorem issue_long {s : State} {u : StId} {i : Instr} (h : s.mayIssue u i = true) (hc : 256 ≤ s.f (sb u) F.ST_PC_count)
    (g : Gate) (body : State → Nat → Nat → State) :
    s.issue u i g body = .next (s.firingFault u 4 ((s.st u).issueAt g) (s.st u).handlerTag) := by
  simp [State.issue, h, hc]

theorem issue_uncorrectable {s : State} {u : StId} {i : Instr} (h : s.mayIssue u i = true)
    (hc : s.f (sb u) F.ST_PC_count < 256) (he : (s.st u).progErr (s.st u).pc = 2) (g : Gate)
    (body : State → Nat → Nat → State) :
    s.issue u i g body = .next (s.firingFault u 2 ((s.st u).issueAt g) [1, 4 * (s.st u).pc]) := by
  simp [State.issue, h, Nat.not_le.mpr hc, he]

theorem State.parts_of_butStitchers {s t : State} (h : t.butStitchers = s.butStitchers) : t.parts = s.parts :=
  (congrArg State.parts h :)

theorem State.quires_of_butStitchers {s t : State} (h : t.butStitchers = s.butStitchers) : t.quires = s.quires :=
  (congrArg State.quires h :)

theorem State.afterIssue_pocket (s : State) (u : StId) (g : Gate) :
    ((s.afterIssue u g).st u).pocket = (s.st u).pocket := by
  rw [State.afterIssue_st]

theorem State.afterIssue_part (s : State) (u : StId) (g : Gate) (p : PartId) : (s.afterIssue u g).part p = s.part p :=
  State.part_congr (State.parts_of_butStitchers (s.afterIssue_rest u g)) p

theorem State.afterIssue_quires (s : State) (u : StId) (g : Gate) : (s.afterIssue u g).quires = s.quires :=
  State.quires_of_butStitchers (s.afterIssue_rest u g)

/-- An issue keeps the registers of a quire's own block. -/
theorem State.afterIssue_f_qb (s : State) (u : StId) (g : Gate) {k : Fld} (hk : k.reg.off < 0x1000) :
    (s.afterIssue u g).f (qb u.quire) k = s.f (qb u.quire) k := by
  rw [State.f, State.afterIssue_rd _ _ _ _ _ (Ne.symm (sb_ne_qb hk)) (Ne.symm (sb_ne_qb hk)), State.f]

theorem State.afterIssue_inRange (s : State) (u : StId) (g : Gate) (sp : Space) (a al n : Nat) :
    (s.afterIssue u g).inRange u.quire sp a al n = s.inRange u.quire sp a al n := by
  have size : (s.afterIssue u g).spaceSize u.quire sp = s.spaceSize u.quire sp := by
    cases sp with
    | pocket => rfl
    | leaf => exact s.afterIssue_f_qb u g (by decide)
  rw [State.inRange, size, State.inRange]

theorem afterIssue_memAddr (s : State) (u : StId) (g : Gate) (ra : SReg) (imm : BitVec 12) (n : Nat) :
    memAddr ((s.afterIssue u g).st u) ra imm n = memAddr (s.st u) ra imm n := by
  rw [State.afterIssue_st]; rfl

/-- A fault after an issue, in terms of the state before it. -/
theorem faulted_afterIssue (s : State) (u : StId) (g : Gate) {cause : Nat} (hc : cause < 16) (pos : Nat) (cap : List Nat) :
    Faulted u cause s ((s.afterIssue u g).firingFault u cause pos cap) :=
  (faulted_firingFault _ u hc pos cap).of_before (s.afterIssue_pocket u g)
    (congrArg Part.frameOpen (s.afterIssue_part u g _))

/-! ### Addresses -/

/-- A scalar load is `State.load` with a write of its destination. -/
theorem exec_of_loadOf {i : Instr} {u : StId} {rd ra : SReg} {sp : Space} {imm : BitVec 12} {n : Nat}
    {ext : Nat → BitVec 32} (h : loadOf i = some (u, rd, ra, sp, imm, n, ext)) :
    ∃ v : BitVec 512 → BitVec 32, ∀ s, exec i s = s.load u i ra sp imm n (fun s b t => s.putS u rd (v b) t) := by
  unfold loadOf at h
  split at h <;> cases h
  · exact ⟨_, fun s => show execLdB _ _ _ _ _ s = _ from rfl⟩
  · exact ⟨_, fun s => show execLdH _ _ _ _ _ s = _ from rfl⟩
  · exact ⟨_, fun s => show execLdW _ _ _ _ _ s = _ from rfl⟩
  · exact ⟨_, fun s => show execLdBs _ _ _ _ _ s = _ from rfl⟩
  · exact ⟨_, fun s => show execLdHs _ _ _ _ _ s = _ from rfl⟩

theorem exec_of_storeOf {i : Instr} {u : StId} {ra : SReg} {sp : Space} {imm : BitVec 12} {n : Nat}
    {val : Stitcher → Nat} (h : storeOf i = some (u, ra, sp, imm, n, val)) :
    ∃ src v, ∀ s, exec i s = s.store u i ra src sp imm n v := by
  unfold storeOf at h
  split at h <;> cases h
  · exact ⟨_, _, fun s => show execStB _ _ _ _ _ s = _ from rfl⟩
  · exact ⟨_, _, fun s => show execStH _ _ _ _ _ s = _ from rfl⟩
  · exact ⟨_, _, fun s => show execStW _ _ _ _ _ s = _ from rfl⟩
  · exact ⟨_, _, fun s => show execVst _ _ _ _ _ s = _ from rfl⟩

theorem load_outOfRange {s : State} {u : StId} {i : Instr} {ra : SReg} {sp : Space} {imm : BitVec 12} {n : Nat}
    (hs : s.canIssue u i = true) (h : s.inRange u.quire sp (memAddr (s.st u) ra imm n) n n = false)
    (put : State → BitVec 512 → Nat → State) :
    ∃ t, s.load u i ra sp imm n put = .next t ∧ Faulted u 5 s t := by
  refine ⟨_, State.issue_next hs rfl _, ?_⟩
  dsimp only
  rw [← State.afterIssue, if_pos (by rw [State.afterIssue_inRange, afterIssue_memAddr, h])]
  exact faulted_afterIssue s u _ (by decide) _ _

/-- Such a store does not wait for the outbound hold: only one in range is forwarded. -/
theorem store_outOfRange {s : State} {u : StId} {i : Instr} {ra : SReg} {sp : Space} {imm : BitVec 12} {n : Nat}
    (hs : s.canIssue u i = true) (h : s.inRange u.quire sp (memAddr (s.st u) ra imm n) n n = false) (src : Nat)
    (v : Stitcher → BitVec 512) :
    ∃ t, s.store u i ra src sp imm n v = .next t ∧ Faulted u 5 s t := by
  unfold State.store
  refine ⟨_, State.issue_next hs (if_neg (by simp [h])) _, ?_⟩
  dsimp only
  rw [← State.afterIssue, if_pos (by rw [State.afterIssue_inRange, afterIssue_memAddr, h])]
  exact faulted_afterIssue s u _ (by decide) _ _

/-! ### Corrected errors cost nothing (R113) -/

/-- `s'` is `s` but for the errors in the memories of stitcher `u`. -/
def SameButErrors (u : StId) (s s' : State) : Prop :=
  s'.regs = s.regs ∧ s'.quires = s.quires ∧ ∃ e, s'.st u = { s.st u with memErr := e }

theorem SameButErrors.refl (u : StId) (s : State) : SameButErrors u s s := ⟨rfl, rfl, _, rfl⟩

theorem State.noErrors_st (s : State) (u : StId) : (s.noErrors u).st u = { s.st u with memErr := [] } :=
  State.st_updSt_same ..

theorem SameButErrors.noErrors (u : StId) (s : State) : SameButErrors u s (s.noErrors u) :=
  ⟨State.updSt_regs .., State.updSt_quires .., _, s.noErrors_st u⟩

theorem SameButErrors.mayIssue {u : StId} {s s' : State} (h : SameButErrors u s s') (i : Instr) :
    s'.mayIssue u i = s.mayIssue u i := by
  obtain ⟨hr, hq, e, he⟩ := h
  unfold State.mayIssue State.executes
  dsimp only
  rw [State.f_congr hr, State.f_congr hr, State.qu_congr hq, he]
  rfl

theorem SameButErrors.issueAt {u : StId} {s s' : State} (h : SameButErrors u s s') (g : Gate) :
    (s'.st u).issueAt g = (s.st u).issueAt g := by
  obtain ⟨-, -, e, he⟩ := h
  rw [he]
  rfl

theorem State.canIssue_noErrors {s : State} {u : StId} {i : Instr} (h : s.canIssue u i = true) :
    (s.noErrors u).canIssue u i = true := by
  obtain ⟨hm, hc, -⟩ := (s.canIssue_iff u i).mp h
  refine (State.canIssue_iff ..).mpr ⟨((SameButErrors.noErrors u s).mayIssue i).trans hm, ?_, ?_⟩
  · rwa [State.f_congr (SameButErrors.noErrors u s).1]
  · rw [State.noErrors_st]
    simp [Stitcher.progErr]

/-- The state after an issue, without the marks of errors, is that after the issue without errors. -/
theorem State.afterIssue_noErrors_st (s : State) (u : StId) (g : Gate) :
    ((s.noErrors u).afterIssue u g).st u = { (s.afterIssue u g).st u with memErr := [] } := by
  rw [State.afterIssue_st, State.afterIssue_st, State.noErrors_st]
  rfl

/-- What stitcher `u` does with work `k`: a change `h` of its own state that does not look at the marks of errors. -/
structure WorksAs (u : StId) (k : State → State) (h : Stitcher → Stitcher) : Prop where
  st : ∀ s, (k s).st u = h (s.st u)
  blind : ∀ x e, h { x with memErr := e } = { h x with memErr := e }
  ecc : ∀ s, (k s).f (sb u) F.ST_ECC_corrected = s.f (sb u) F.ST_ECC_corrected

/-- Of work that does not look at errors, on a state with corrected errors and on one without, the stitcher's part is the
same. -/
theorem correctedInTime_of_work {u : StId} {i : Instr} {n : Nat} {k : State → State} {h : Stitcher → Stitcher}
    (hk : WorksAs u k h) {s a b : State} (hx : (b.st u) = { a.st u with memErr := [] })
    (he : exec i (s.noErrors u) = .next (k b))
    (hn : a.f (sb u) F.ST_ECC_corrected = min 65535 (s.f (sb u) F.ST_ECC_corrected + n)) :
    CorrectedInTime u n i s (k a) := by
  refine ⟨k b, he, ?_, (hk.ecc a).trans hn⟩
  have split : h (a.st u) = { h (b.st u) with memErr := (a.st u).memErr } := by rw [← hk.blind, hx]
  rw [hk.st, hk.st, split]

end Sys2Proof.Machine
end

section
namespace Sys2Proof.Machine

/-! ### The work of instructions -/

theorem WorksAs.comp {u : StId} {k k' : State → State} {h h' : Stitcher → Stitcher} (hk : WorksAs u k h)
    (hk' : WorksAs u k' h') : WorksAs u (fun s => k' (k s)) (fun x => h' (h x)) :=
  ⟨fun s => by rw [hk'.st, hk.st], fun x e => by rw [hk.blind, hk'.blind], fun s => (hk'.ecc _).trans (hk.ecc s)⟩

theorem WorksAs.updSt (u : StId) {h : Stitcher → Stitcher} (hb : ∀ x e, h { x with memErr := e } = { h x with memErr := e }) :
    WorksAs u (fun s => s.updSt u h) h :=
  ⟨fun s => s.st_updSt_same u h, hb, fun _ => State.f_congr (State.updSt_regs ..) ..⟩

/-- Work elsewhere. -/
theorem WorksAs.elsewhere {u : StId} {k : State → State} (hs : ∀ s, (k s).stitchers = s.stitchers)
    (he : ∀ s, (k s).f (sb u) F.ST_ECC_corrected = s.f (sb u) F.ST_ECC_corrected) : WorksAs u k id :=
  ⟨fun s => State.st_congr (hs s) u, fun _ _ => rfl, he⟩

theorem WorksAs.ite {u : StId} {c : Stitcher → Prop} [DecidablePred c] {k k' : State → State} {h h' : Stitcher → Stitcher}
    (hc : ∀ x e, c { x with memErr := e } ↔ c x) (hk : WorksAs u k h) (hk' : WorksAs u k' h') :
    WorksAs u (fun s => if c (s.st u) then k s else k' s) (fun x => if c x then h x else h' x) := by
  refine ⟨fun s => ?_, fun x e => ?_, fun s => ?_⟩
  · rw [apply_ite (State.st · u), hk.st, hk'.st]
  · by_cases hx : c x
    · rw [if_pos ((hc x e).mpr hx), if_pos hx, hk.blind]
    · rw [if_neg (mt (hc x e).mp hx), if_neg hx, hk'.blind]
  · split
    exacts [hk.ecc s, hk'.ecc s]

theorem worksAs_putS (u : StId) (r : SReg) (v : BitVec 32) (at_ : Nat) :
    ∃ h, WorksAs u (fun s => s.putS u r v at_) h := by
  unfold State.putS Stitcher.setS
  split
  · exact ⟨id, .elsewhere (fun _ => rfl) fun _ => rfl⟩
  · exact ⟨_, .updSt u fun _ _ => rfl⟩

theorem worksAs_putV (u : StId) (r : VReg) (v : BitVec 512) (at_ : Nat) : ∃ h, WorksAs u (fun s => s.putV u r v at_) h :=
  ⟨_, .updSt u fun _ _ => rfl⟩

/-- A write of bit 0 of a predicate. -/
theorem worksAs_putBit (u : StId) (r : PReg) (b : Bool) (at_ : Nat) :
    ∃ h, WorksAs u (fun s => s.putP u r (predBit0 ((s.st u).p r) b) at_) h := by
  unfold State.putP Stitcher.setP
  split
  · exact ⟨id, .elsewhere (fun _ => rfl) fun _ => rfl⟩
  · next hr =>
    refine ⟨fun x => (({ x with preg := spSet 0 x.preg r.toNat (predBit0 (x.p r) b) } : Stitcher).usable (pK r) at_),
      fun s => ?_, fun _ _ => rfl, fun _ => State.f_congr (State.updSt_regs ..) ..⟩
    rw [State.st_updSt_same]

/-- A record may be lost, which its partition counts; no stitcher's register changes. -/
theorem State.raise0_ecc (s : State) (x : Src) (code sev : Nat) (cap : List Nat) (u : StId) :
    (s.raise0 x code sev cap).1.f (sb u) F.ST_ECC_corrected = s.f (sb u) F.ST_ECC_corrected := by
  have lost : ∀ (t : State) (p : PartId), (t.incF (pt p) F.EV_PSTAT_lost).f (sb u) F.ST_ECC_corrected =
      t.f (sb u) F.ST_ECC_corrected := fun t p => t.f_setF_reg _ (by
    simp only [sb, qb, pt, partOf, localOf, F.EV_PSTAT_lost, F.ST_ECC_corrected, R.EV_PSTAT, R.ST_ECC]
    omega)
  unfold State.raise0
  extract_lets now r us fold sendUpd q1 r1 snap e t
  split
  · rfl
  · split
    · rfl
    · cases x.part? with
      | none => rfl
      | some p => exact lost t p

theorem State.raise_ecc (s : State) (x : Src) (code sev : Nat) (cap : List Nat) (u : StId) :
    (s.raise x code sev cap).f (sb u) F.ST_ECC_corrected = s.f (sb u) F.ST_ECC_corrected := by
  unfold State.raise
  dsimp only
  split
  · rw [State.raise0_ecc, State.raise0_ecc]
  · exact s.raise0_ecc x code sev cap u

end Sys2Proof.Machine
end

section
namespace Sys2Proof.Machine

/-! ### Instructions that read pocket memory (R105 to R107, R113) -/

/-- What a read of pocket memory finds, and the words it corrects. -/
theorem State.pocketRead_eq (s : State) (u : StId) (a n : Nat) :
    s.pocketRead u a n = (s.incF (sb u) F.ST_ECC_corrected (((s.st u).pocketMarks a n).count 1),
      if 2 ∈ (s.st u).pocketMarks a n then none else some (memRead (s.st u).pocket a n)) := by
  have count : ((s.st u).pocketMarks a n).count 1 = (((s.st u).pocketMarks a n).filter (fun v => decide (v = 1))).length := by
    rw [List.count, List.countP_eq_length_filter]
    rfl
  unfold State.pocketRead
  rw [count]
  dsimp only
  split <;> rfl

/-- An instruction's work `use` on the bytes it reads from pocket memory at position `t`, or, where a word of them is
uncorrectable, the firing fault after `stop`. -/
def State.onPocket (s : State) (u : StId) (a n t : Nat) (stop : State → State) (use : State → List (BitVec 8) → State) :
    State :=
  match (s.pocketRead u a n).2 with
  | none => (stop (s.pocketRead u a n).1).firingFault u 2 t [0, a]
  | some b => use (s.pocketRead u a n).1 b

/-- In state `s`, whatever errors the words of `u` have, instruction `i` reads `n` bytes of pocket memory from `a` on and
then does its work. -/
def ReadsPocket (i : Instr) (u : StId) (a n : Nat) (s : State) : Prop :=
  ∃ (g : Gate) (stop : State → State) (use : State → List (BitVec 8) → State),
    (∀ x, ((stop x).st u).pocket = (x.st u).pocket ∧ (stop x).parts = x.parts) ∧
    (∀ b, ∃ h, WorksAs u (fun x => use x b) h) ∧
    ∀ s', SameButErrors u s s' → s'.canIssue u i = true →
      exec i s' = .next ((s'.afterIssue u g).onPocket u a n ((s.st u).issueAt g) stop use)

theorem SameButErrors.s {u : StId} {s s' : State} (h : SameButErrors u s s') (r : SReg) : (s'.st u).s r = (s.st u).s r := by
  obtain ⟨-, -, e, he⟩ := h
  rw [he]
  rfl

theorem afterIssue_s (s : State) (u : StId) (g : Gate) (r : SReg) : ((s.afterIssue u g).st u).s r = (s.st u).s r := by
  rw [State.afterIssue_st]
  rfl

theorem readsPocket_load {i : Instr} {u : StId} {ra : SReg} {imm : BitVec 12} {n : Nat} {put : State → BitVec 512 → Nat → State}
    (he : ∀ s, exec i s = s.load u i ra .pocket imm n put) (hput : ∀ v t, ∃ h, WorksAs u (fun x => put x v t) h) {s : State}
    (hr : s.inRange u.quire .pocket (memAddr (s.st u) ra imm n) n n = true) :
    ReadsPocket i u (memAddr (s.st u) ra imm n) n s := by
  refine ⟨{ srcs := [sK ra] }, id, fun x b => put x (BitVec.ofNat 512 (leNat b)) ((s.st u).issueAt { srcs := [sK ra] } + 2),
    fun _ => ⟨rfl, rfl⟩, fun b => hput _ _, fun s' hs' hi => ?_⟩
  have addr : memAddr (((s'.afterIssue u { srcs := [sK ra] }).st u)) ra imm n = memAddr (s.st u) ra imm n := by
    rw [memAddr, afterIssue_s, hs'.s, memAddr]
  rw [he, State.load, State.issue_next hi rfl, ← State.afterIssue]
  dsimp only
  rw [addr, if_neg fun h => Bool.false_ne_true (h.symm.trans hr), hs'.issueAt]
  rfl

/-- The gate of an instruction that copies a descriptor into a queue with room: it issues no earlier than the place that it
has waited for. -/
def copyGate (s : State) (u : StId) (ra : SReg) (occupy key : Nat) : Gate :=
  { srcs := [sK ra], occupy := occupy, notBefore := if (s.st u).stall.isSome then spGet 0 (s.qu u.quire).freedAt key else 0 }

theorem SameButErrors.stall {u : StId} {s s' : State} (h : SameButErrors u s s') : (s'.st u).stall = (s.st u).stall := by
  obtain ⟨-, -, e, he⟩ := h
  rw [he]

theorem SameButErrors.qu {u : StId} {s s' : State} (h : SameButErrors u s s') (q : QuireId) : s'.qu q = s.qu q :=
  State.qu_congr h.2.1 q

/-- A descriptor's bytes, copied at a position into the leaf operation queue of the quire. -/
def copyLeafOp (u : StId) (a op t : Nat) (s : State) (b : List (BitVec 8)) : State :=
  let o : LeafOp := { bytes := b, op := op, sender := u.st.val, addr := a, at_ := t, running := false, refused := false,
                      poison := false, doneAt := 0 }
  (s.updQu u.quire (fun y => { y with ops := y.ops ++ [o] })).updSt u (fun y => { y with acceptedAt := max y.acceptedAt t })

/-- The same for the queue of a press. -/
def copyDesc (u : StId) (p : PressId) (a t : Nat) (s : State) (b : List (BitVec 8)) : State :=
  (s.queueDesc u.quire p { bytes := b, addr := a, leaf := false, sender := u.st.val, enterAt := t + 4 }).updSt u
    (fun y => { y with acceptedAt := max y.acceptedAt t })

/-- Work of a quire's queue, after which the stitcher has its descriptor accepted. -/
theorem worksAs_copy (u : StId) (q : Quire → Quire) (t : Nat) :
    ∃ h, WorksAs u (fun s => (s.updQu u.quire q).updSt u (fun y => { y with acceptedAt := max y.acceptedAt t })) h := by
  have queue : WorksAs u (fun s => s.updQu u.quire q) id :=
    .elsewhere (State.updQu_stitchers · u.quire q) fun s => State.f_congr (s.updQu_regs u.quire q) ..
  exact ⟨_, queue.comp (.updSt u (h := fun y => { y with acceptedAt := max y.acceptedAt t }) fun _ _ => rfl)⟩

theorem readsPocket_leafOp {i : Instr} {u : StId} {ra : SReg} {op : Nat} (he : ∀ s, exec i s = s.leafOpIssue u i ra op)
    {s : State} (hr : s.inRange u.quire .pocket ((s.st u).s ra).toNat 64 64 = true) (hq : (s.qu u.quire).ops.length < 4) :
    ReadsPocket i u ((s.st u).s ra).toNat 64 s := by
  refine ⟨copyGate s u ra 1 3, id, copyLeafOp u ((s.st u).s ra).toNat op ((s.st u).issueAt (copyGate s u ra 1 3)),
    fun _ => ⟨rfl, rfl⟩, fun b => worksAs_copy u _ _, fun s' hs' hi => ?_⟩
  rw [he, State.leafOpIssue]
  dsimp only
  rw [hs'.s, hs'.stall, hs'.qu, if_neg (α := Option (Nat × Option Nat)) fun h => by omega, State.issue_next hi rfl,
    ← State.afterIssue, if_neg fun h => Bool.false_ne_true (h.symm.trans hr), hs'.issueAt]
  rfl

theorem readsPocket_pressGo {u : StId} {ra : SReg} {p : PressId} {s : State}
    (hr : s.inRange u.quire .pocket ((s.st u).s ra).toNat 64 64 = true) (hq : (s.press u.quire p).places < 4) :
    ReadsPocket (.pressGo u ra p .pocket) u ((s.st u).s ra).toNat 64 s := by
  refine ⟨copyGate s u ra 4 (pressKey p), id,
    copyDesc u p ((s.st u).s ra).toNat ((s.st u).issueAt (copyGate s u ra 4 (pressKey p))),
    fun _ => ⟨rfl, rfl⟩, fun b => worksAs_copy u _ _, fun s' hs' hi => ?_⟩
  have places : ¬ 4 ≤ (s'.press u.quire p).places := by
    rw [State.press, hs'.qu]
    exact Nat.not_le.mpr hq
  rw [show exec (.pressGo u ra p .pocket) s' = execPressGo u ra p .pocket s' from rfl, execPressGo]
  dsimp only
  rw [hs'.s, hs'.stall, hs'.qu, if_neg (α := Option (Nat × Option Nat)) fun h => places h.2, State.issue_next hi rfl,
    ← State.afterIssue, if_neg fun h => Bool.false_ne_true (h.symm.trans hr), hs'.issueAt]
  rfl

/-- The gate of a collation instruction, and the position at which it has read its last bytes. -/
def collGate (ra rb : SReg) (srcs : List Nat) : Gate := { srcs := [sK ra, sK rb] ++ srcs }
def collLast (x : Stitcher) (ra rb : SReg) (srcs : List Nat) : Nat :=
  x.issueAt (collGate ra rb srcs) + ((x.s rb).toNat + 63) / 64 - 1

/-- The stitcher issues nothing before a position. -/
def State.holdIssue (s : State) (u : StId) (at_ : Nat) : State := s.updSt u (fun x => { x with nextAt := max x.nextAt at_ })

theorem readsPocket_coll {i : Instr} {u : StId} {ra rb : SReg} {srcs : List Nat}
    {k : State → Option (BitVec 32) → Nat → State} {s : State}
    (he : ∀ s', SameButErrors u s s' → exec i s' = s'.coll u i ra rb .pocket srcs k)
    (hk : ∀ c t, ∃ h, WorksAs u (fun x => k x (some c) t) h)
    (hr : s.inRange u.quire .pocket ((s.st u).s ra).toNat 64 ((s.st u).s rb).toNat = true) :
    ReadsPocket i u ((s.st u).s ra).toNat ((s.st u).s rb).toNat s := by
  refine ⟨collGate ra rb srcs, fun x => x.holdIssue u (collLast (s.st u) ra rb srcs + 1), fun x b =>
    k (x.holdIssue u (collLast (s.st u) ra rb srcs + 1)) (some (crc32c b)) (collLast (s.st u) ra rb srcs + 4),
    fun x => ⟨?_, rfl⟩, fun b => ?_, fun s' hs' hi => ?_⟩
  · beta_reduce
    rw [State.holdIssue, State.st_updSt_same]
  · obtain ⟨h, hh⟩ := hk (crc32c b) (collLast (s.st u) ra rb srcs + 4)
    exact ⟨_, (WorksAs.updSt u fun _ _ => rfl).comp hh⟩
  · rw [he s' hs', State.coll, State.issue_next hi rfl, ← State.afterIssue]
    dsimp only
    rw [hs'.s, hs'.s, if_neg fun h => Bool.false_ne_true (h.symm.trans hr), hs'.issueAt, State.collRead, State.onPocket,
      collGate]
    dsimp only
    cases ((s'.afterIssue u { srcs := [sK ra, sK rb] ++ srcs }).pocketRead u ((s.st u).s ra).toNat
        ((s.st u).s rb).toNat).2 with
    | none => rfl
    | some b => rfl

/-- What COLL.CHK does with the code of a block, of which it records the address and the length. -/
def checkCode (u : StId) (rc : SReg) (pd : PReg) (a n : Nat) (s : State) (code : Option (BitVec 32)) (t : Nat) : State :=
  match code with
  | none => s.putP u pd (predBit0 ((s.st u).p pd) false) t
  | some c =>
    if c = (s.st u).s rc then s.putP u pd (predBit0 ((s.st u).p pd) true) t
    else ((s.putP u pd (predBit0 ((s.st u).p pd) false) t).raise (.quire u.quire) Ev.COLL_STITCH (evSev Ev.COLL_STITCH)
      [u.st.val, a, n, ((s.st u).s rc).toNat, c.toNat]).failTick (partOf u.quire)

theorem exec_collChk (u : StId) (ra rb rc : SReg) (pd : PReg) (sp : Space) (s : State) :
    exec (.collChk u ra rb rc pd sp) s = s.coll u (.collChk u ra rb rc pd sp) ra rb sp [sK rc, pK pd]
      (checkCode u rc pd ((s.st u).s ra).toNat ((s.st u).s rb).toNat) :=
  show execCollChk u ra rb rc pd sp s = _ from rfl

/-- The record of a mismatch and the failed tick change no stitcher. -/
theorem WorksAs.record {u : StId} {k : State → State} {h : Stitcher → Stitcher} (hk : WorksAs u k h) (x : Src)
    (code sev : Nat) (f : State → List Nat) (p : PartId) :
    WorksAs u (fun s => ((k s).raise x code sev (f s)).failTick p) h := by
  refine ⟨fun s => ?_, hk.blind, fun s => ?_⟩
  · rw [State.failTick, State.st_updPart, State.st_congr (State.stitchers_of_butEvents (State.raise_rest ..)), hk.st]
  · rw [State.failTick, State.f_congr (State.updPart_regs ..), State.raise_ecc, hk.ecc]

theorem worksAs_checkCode (u : StId) (rc : SReg) (pd : PReg) (a n : Nat) (c : BitVec 32) (t : Nat) :
    ∃ h, WorksAs u (fun s => checkCode u rc pd a n s (some c) t) h := by
  obtain ⟨_, hset⟩ := worksAs_putBit u pd true t
  obtain ⟨_, hclear⟩ := worksAs_putBit u pd false t
  exact ⟨_, .ite (c := fun x => c = x.s rc) (fun _ _ => Iff.rfl) hset (hclear.record ..)⟩

/-- Every row of `pocketRead` reads the range that it names. -/
theorem readsPocket_of_pocketRead {i : Instr} {u : StId} {a n : Nat} {s : State} (h : pocketRead s i = some (u, a, n))
    (hr : s.inRange u.quire .pocket a (pocketAlign i) n = true) : ReadsPocket i u a n s := by
  unfold pocketRead at h
  split at h
  -- ldB, ldH, ldW, ldBs, ldHs, vld
  · cases h; exact readsPocket_load (i := .ldB _ _ _ _ _) (fun s => show execLdB _ _ _ _ _ s = _ from rfl) (fun _ _ => worksAs_putS ..) hr
  · cases h; exact readsPocket_load (i := .ldH _ _ _ _ _) (fun s => show execLdH _ _ _ _ _ s = _ from rfl) (fun _ _ => worksAs_putS ..) hr
  · cases h; exact readsPocket_load (i := .ldW _ _ _ _ _) (fun s => show execLdW _ _ _ _ _ s = _ from rfl) (fun _ _ => worksAs_putS ..) hr
  · cases h; exact readsPocket_load (i := .ldBs _ _ _ _ _) (fun s => show execLdBs _ _ _ _ _ s = _ from rfl) (fun _ _ => worksAs_putS ..) hr
  · cases h; exact readsPocket_load (i := .ldHs _ _ _ _ _) (fun s => show execLdHs _ _ _ _ _ s = _ from rfl) (fun _ _ => worksAs_putS ..) hr
  · cases h; exact readsPocket_load (i := .vld _ _ _ _ _) (fun s => show execVld _ _ _ _ _ s = _ from rfl) (fun _ _ => worksAs_putV ..) hr
  -- collGen, collChk
  · cases h
    exact readsPocket_coll (fun s _ => show execCollGen _ _ _ _ _ s = _ from rfl) (fun _ _ => worksAs_putS ..) hr
  · cases h
    exact readsPocket_coll (fun s' hs' => by rw [exec_collChk, hs'.s, hs'.s]) (fun _ _ => worksAs_checkCode ..) hr
  -- pressGo, leafFill, leafCopy
  · split at h <;> cases h
    exact readsPocket_pressGo hr ‹_›
  · split at h <;> cases h
    exact readsPocket_leafOp (i := .leafFill _ _) (fun s => show execLeafFill _ _ s = _ from rfl) hr ‹_›
  · split at h <;> cases h
    exact readsPocket_leafOp (i := .leafCopy _ _) (fun s => show execLeafCopy _ _ s = _ from rfl) hr ‹_›
  · cases h

/-! ### What the statements say of the reads -/

theorem State.afterIssue_ecc {s : State} {u : StId} {i : Instr} (hs : s.canIssue u i = true)
    (hp : (s.st u).progErr (s.st u).pc = 0) (g : Gate) :
    (s.afterIssue u g).f (sb u) F.ST_ECC_corrected = min 65535 (s.f (sb u) F.ST_ECC_corrected) := by
  obtain ⟨-, -, h⟩ := s.afterIssue_counts u g (State.canIssue_count hs)
  rw [h, hp]
  rfl

theorem State.incF_ecc (s : State) (u : StId) (n : Nat) :
    (s.incF (sb u) F.ST_ECC_corrected n).f (sb u) F.ST_ECC_corrected = min 65535 (s.f (sb u) F.ST_ECC_corrected + n) := by
  rw [State.incF, State.f_setF_same _ _ _ _ (by decide)]
  exact Nat.mod_eq_of_lt (Nat.lt_of_le_of_lt (Nat.min_le_left ..) (by decide))

theorem State.onPocket_readable {s : State} {u : StId} {a n : Nat} (h : readablePocket (s.st u) a n) (t : Nat)
    (stop : State → State) (use : State → List (BitVec 8) → State) :
    s.onPocket u a n t stop use =
      use (s.incF (sb u) F.ST_ECC_corrected (((s.st u).pocketMarks a n).count 1)) (memRead (s.st u).pocket a n) := by
  rw [State.onPocket, State.pocketRead_eq, if_neg h]

theorem State.onPocket_uncorrectable {s : State} {u : StId} {a n : Nat} (h : ¬ readablePocket (s.st u) a n) (t : Nat)
    (stop : State → State) (use : State → List (BitVec 8) → State) :
    s.onPocket u a n t stop use = (stop (s.incF (sb u) F.ST_ECC_corrected
      (((s.st u).pocketMarks a n).count 1))).firingFault u 2 t [0, a] := by
  rw [State.onPocket, State.pocketRead_eq, if_pos (not_not.mp h)]

theorem afterIssue_pocketMarks (s : State) (u : StId) (g : Gate) (a n : Nat) :
    ((s.afterIssue u g).st u).pocketMarks a n = (s.st u).pocketMarks a n := by
  rw [State.afterIssue_st]
  rfl

/-- Without errors every word of pocket memory is readable. -/
theorem noErrors_readable (s : State) (u : StId) (a n : Nat) : readablePocket ((s.noErrors u).st u) a n := by
  rw [State.noErrors_st]
  simp [readablePocket, Stitcher.pocketMarks]

/-- Single-bit errors of the words that an instruction reads are corrected in time. -/
theorem correctedInTime_of_readsPocket {i : Instr} {u : StId} {a n : Nat} {s : State} (h : ReadsPocket i u a n s)
    (hs : s.canIssue u i = true) (hp : (s.st u).progErr (s.st u).pc = 0) (hr : readablePocket (s.st u) a n) :
    ∃ t, exec i s = .next t ∧ CorrectedInTime u (((s.st u).pocketMarks a n).count 1) i s t := by
  obtain ⟨g, stop, use, -, huse, he⟩ := h
  obtain ⟨k, hk⟩ := huse (memRead (s.st u).pocket a n)
  refine ⟨_, he s (.refl u s) hs, ?_⟩
  have he' := he _ (.noErrors u s) (State.canIssue_noErrors hs)
  have bytes : (((s.noErrors u).afterIssue u g).st u).pocket = (s.st u).pocket := by
    rw [State.afterIssue_pocket, State.noErrors_st]
  rw [State.onPocket_readable (by rw [readablePocket, afterIssue_pocketMarks]; exact noErrors_readable s u a n), bytes] at he'
  rw [State.onPocket_readable (by rw [readablePocket, afterIssue_pocketMarks]; exact hr), State.afterIssue_pocket,
    afterIssue_pocketMarks]
  refine correctedInTime_of_work hk ?_ he' ?_
  · rw [State.st_incF, State.st_incF, State.afterIssue_noErrors_st]
  · rw [State.incF_ecc, State.afterIssue_ecc hs hp]
    omega

/-- A double-bit error in one of them is a firing fault with cause 2. -/
theorem faulted_of_readsPocket {i : Instr} {u : StId} {a n : Nat} {s : State} (h : ReadsPocket i u a n s)
    (hs : s.canIssue u i = true) (hr : ¬ readablePocket (s.st u) a n) : ∃ t, exec i s = .next t ∧ Faulted u 2 s t := by
  obtain ⟨g, stop, use, hstop, -, he⟩ := h
  refine ⟨_, he s (.refl u s) hs, ?_⟩
  rw [State.onPocket_uncorrectable (by rw [readablePocket, afterIssue_pocketMarks]; exact hr)]
  refine (faulted_firingFault _ u (by decide) _ _).of_before ?_ ?_
  · rw [(hstop _).1, State.st_incF, State.afterIssue_pocket]
  · rw [State.part_congr (hstop _).2, State.part_incF, State.afterIssue_part]

/-- A single-bit error of the program word is corrected in time too. -/
theorem correctedInTime_of_putsScalar {i : Instr} {u : StId} {rd : SReg} {f : Stitcher → BitVec 32} {s : State}
    (h : PutsScalar i u rd f) (hs : s.canIssue u i = true) (hp : (s.st u).progErr (s.st u).pc = 1) :
    ∃ t, exec i s = .next t ∧ WroteScalar u rd (f (s.st u)) s t ∧ CorrectedInTime u 1 i s t := by
  obtain ⟨hf, lat, hrun⟩ := h
  obtain ⟨g, -, he⟩ := hrun.next
  obtain ⟨k, hk⟩ := worksAs_putS u rd (f (s.st u)) ((s.st u).issueAt g + lat)
  have he' := he _ (State.canIssue_noErrors hs)
  have value : f ((s.noErrors u).st u) = f (s.st u) := by
    rw [State.noErrors_st]
    exact hf.congr rfl rfl rfl
  rw [hf.afterIssue, value, (SameButErrors.noErrors u s).issueAt] at he'
  refine ⟨_, he s hs, ?_, ?_⟩
  · rw [hf.afterIssue]
    exact wroteScalar_afterIssue (State.canIssue_count hs) ..
  · rw [hf.afterIssue]
    refine correctedInTime_of_work hk (State.afterIssue_noErrors_st ..) he' ?_
    obtain ⟨-, -, hc⟩ := s.afterIssue_counts u g (State.canIssue_count hs)
    rw [hc, if_pos hp]

/-- Settles O14, from what an issue, a read of pocket memory and a firing fault do. -/
theorem firingFaults : Obligations.FiringFaults := by
  unfold Obligations.FiringFaults
  refine ⟨?corrected, ?program, ?pocket, ?uncorrectable, ?long, ?load, ?store⟩
  case corrected =>
    intro i u rd f s hi hs hp
    exact correctedInTime_of_putsScalar (putsScalar_of_scalarValue hi) hs hp
  case program =>
    intro i u rd f s hi hm hc hp
    obtain ⟨-, lat, g, -, he⟩ := putsScalar_of_scalarValue hi
    exact ⟨_, (he s).trans (issue_uncorrectable hm hc hp g _), faulted_firingFault s u (by decide) _ _⟩
  case pocket =>
    intro i u a n s hi hs hp hr
    exact correctedInTime_of_readsPocket (readsPocket_of_pocketRead hi hr) hs hp
  case uncorrectable =>
    intro i u a n s hi hs hr
    exact faulted_of_readsPocket (readsPocket_of_pocketRead hi hr) hs
  case long =>
    intro u s hm hc
    exact ⟨_, (issue_long hm hc _ _ : execNop u s = _), faulted_firingFault s u (by decide) _ _⟩
  case load =>
    intro i u rd ra sp imm n ext s hi hs hr
    obtain ⟨v, he⟩ := exec_of_loadOf hi
    rw [he]
    exact load_outOfRange hs hr _
  case store =>
    intro i u ra sp imm n val s hi hs hr
    obtain ⟨src, v, he⟩ := exec_of_storeOf hi
    rw [he]
    exact store_outOfRange hs hr src v

end Sys2Proof.Machine
end

section
namespace Sys2Proof.Machine

/-- The stitcher of the counterexample to `CollationCodes`: stitcher 0 of quire 0. -/
def aliasUnit : StId := ⟨0, 0⟩

/-- The first byte of band 27712 of a leaf. The class register of that band is the word at `0x1008` of the quire's
block, where `ST_PC` of stitcher 0 stands. -/
def aliasAddr : BitVec 32 := 0xD8800000

/-- COLL.GEN of the 64 bytes at `aliasAddr`, into s10. -/
def aliasGen : Instr := .collGen aliasUnit 1 2 10 .leaf

/-- A stitcher at `pc` = 1 about to issue `aliasGen`, in a quire whose leaf is as large as the 32 bits of `LF_SIZE` can
say. The band's class bit is the low bit of `pc`: the codes stand over 64 bytes before the issue, over 8 bytes after it.
Of the block's second word the 8-byte code is beyond correction. -/
def aliasState : State :=
  let s := State.reset.setF (sb aliasUnit) F.ST_STATUS_used 1
  let s := s.setF (sb aliasUnit) F.ST_STATUS_sealed 1
  let s := s.setF (sb aliasUnit) F.ST_PC_pc 1
  let s := s.setF (qb 0) F.LF_SIZE_bytes 0xFFFFFFFF
  let s := s.setQu 0 { Quire.init with leafMark := [(aliasAddr.toNat / 8 + 1, 2)] }
  s.setSt aliasUnit
    { Stitcher.init with
      sreg := [(1, aliasAddr), (2, 64)], firing := some ⟨0, 0⟩, prog := [(0, (encode aliasGen).getD 0)] }

theorem aliasState_canIssue : aliasState.canIssue aliasUnit aliasGen = true := by decide +kernel

theorem aliasState_inRange :
    aliasState.inRange 0 .leaf ((aliasState.st aliasUnit).s 1).toNat 64 ((aliasState.st aliasUnit).s 2).toNat = true := by
  decide +kernel

theorem aliasState_readableAt :
    readableAt aliasState aliasUnit .leaf ((aliasState.st aliasUnit).s 1).toNat ((aliasState.st aliasUnit).s 2).toNat := by
  decide +kernel

/-- The issue moves the class bit, so the read meets the word beyond correction and the code is not computed. -/
theorem aliasGen_result :
    (match exec aliasGen aliasState with | .next t => (t.st aliasUnit).s 10 | _ => 1) = 0 := by decide +kernel

theorem aliasBlock_crc :
    crc32c (memRead (aliasState.qu 0).leaf ((aliasState.st aliasUnit).s 1).toNat ((aliasState.st aliasUnit).s 2).toNat)
      = 63499111#32 := by decide +kernel

/-- Refutes O12: a COLL.GEN in the leaf whose own issue changes the class of the band it reads. The block is readable
before the issue; after it the codes stand over 8 bytes, one of them is beyond correction, and s(rc) becomes 0 and not
the block's CRC-32C. -/
theorem not_collationCodes : ¬ Obligations.CollationCodes := by
  rintro ⟨gen, -⟩
  obtain ⟨t, ht, -, -, hs⟩ := gen aliasUnit 1 2 10 .leaf aliasState aliasState_canIssue aliasState_inRange
    aliasState_readableAt
  have hzero : (t.st aliasUnit).s 10 = 0 := by
    have h := aliasGen_result
    rwa [show exec aliasGen aliasState = .next t from ht] at h
  have hcrc : (t.st aliasUnit).s 10 = 63499111#32 :=
    (hs 10).trans ((if_pos ⟨rfl, by decide⟩).trans aliasBlock_crc)
  exact absurd (hzero.symm.trans hcrc) (by decide)

end Sys2Proof.Machine
end

section
namespace Sys2Proof.Machine

-- Proved in parallel, these proofs hold a thread each, whose stacks pass the check's memory.
set_option Elab.async false
open Sys2Proof.Laws

/-! ## Instruction words (04_stitchers.md R100 to R103, Tables 4 to 6)

Of each format: the fields of a packed word, and the word that its fields pack to. -/

theorem bits_append_above {m n : Nat} (x : BitVec m) (y : BitVec n) {lo : Nat} (len : Nat) (h : n ≤ lo) :
    (x ++ y).extractLsb' lo len = x.extractLsb' (lo - n) len :=
  BitVec.extractLsb'_append_eq_of_le h

theorem bits_append_at {m n : Nat} (x : BitVec m) (y : BitVec n) {lo : Nat} (h : lo = 0) :
    (x ++ y).extractLsb' lo n = y := by
  subst h
  exact BitVec.extractLsb'_append_eq_right

theorem packR_fields (op : BitVec 6) (rd ra rb : BitVec 5) (fn : BitVec 6) (pd : BitVec 3) :
    let w := packR op rd ra rb fn pd
    bits w 21 5 = rd ∧ bits w 16 5 = ra ∧ bits w 11 5 = rb ∧ bits w 5 6 = fn ∧ bits w 2 3 = pd ∧ bits w 0 2 = 0#2 := by
  unfold bits packR
  refine ⟨?_, ?_, ?_, ?_, ?_, ?_⟩ <;> simp (disch := decide) only [bits_append_above, bits_append_at]

theorem packI_fields (op : BitVec 6) (rd ra : BitVec 5) (imm : BitVec 16) :
    let w := packI op rd ra imm
    bits w 21 5 = rd ∧ bits w 16 5 = ra ∧ bits w 0 16 = imm := by
  unfold bits packI
  refine ⟨?_, ?_, ?_⟩ <;> simp (disch := decide) only [bits_append_above, bits_append_at]

theorem packB_fields (fn pg : BitVec 3) (pn : BitVec 1) (rs : BitVec 5) (off : BitVec 11) :
    let w := packB fn pg pn rs off
    bits w 23 3 = fn ∧ bits w 20 3 = pg ∧ bits w 19 1 = pn ∧ bits w 14 5 = rs ∧ bits w 11 3 = 0#3 ∧ bits w 0 11 = off := by
  unfold bits packB
  refine ⟨?_, ?_, ?_, ?_, ?_, ?_⟩ <;> simp (disch := decide) only [bits_append_above, bits_append_at]

theorem packM_fields (op : BitVec 6) (rd ra : BitVec 5) (sp : BitVec 1) (sz : BitVec 3) (imm : BitVec 12) :
    let w := packM op rd ra sp sz imm
    bits w 21 5 = rd ∧ bits w 16 5 = ra ∧ bits w 15 1 = sp ∧ bits w 12 3 = sz ∧ bits w 0 12 = imm := by
  unfold bits packM
  refine ⟨?_, ?_, ?_, ?_, ?_⟩ <;> simp (disch := decide) only [bits_append_above, bits_append_at]

theorem packV_fields (op : BitVec 6) (vd va vb vc : BitVec 4) (pg : BitVec 3) (pn : BitVec 1) (ty : BitVec 2) (fn : BitVec 4) :
    let w := packV op vd va vb vc pg pn ty fn
    bits w 22 4 = vd ∧ bits w 18 4 = va ∧ bits w 14 4 = vb ∧ bits w 10 4 = vc ∧ bits w 7 3 = pg ∧ bits w 6 1 = pn ∧
      bits w 4 2 = ty ∧ bits w 0 4 = fn := by
  unfold bits packV
  refine ⟨?_, ?_, ?_, ?_, ?_, ?_, ?_, ?_⟩ <;> simp (disch := decide) only [bits_append_above, bits_append_at]

theorem packVL_fields (v : BitVec 4) (rs : BitVec 5) (lane : BitVec 6) (ty : BitVec 2) (fn : BitVec 4) :
    let w := packVL v rs lane ty fn
    bits w 22 4 = v ∧ bits w 18 4 = 0#4 ∧ bits w 13 5 = rs ∧ bits w 7 6 = lane ∧ bits w 6 1 = 0#1 ∧ bits w 4 2 = ty ∧
      bits w 0 4 = fn := by
  unfold bits packVL
  refine ⟨?_, ?_, ?_, ?_, ?_, ?_, ?_⟩ <;> simp (disch := decide) only [bits_append_above, bits_append_at]

theorem packCV_fields (vd va tf ff : BitVec 4) (rm : BitVec 2) (spc : BitVec 1) (pg : BitVec 3) (part : BitVec 2) (blk : BitVec 1) :
    let w := packCV vd va tf ff rm spc pg part blk
    bits w 22 4 = vd ∧ bits w 18 4 = va ∧ bits w 14 4 = tf ∧ bits w 10 4 = ff ∧ bits w 8 2 = rm ∧ bits w 7 1 = spc ∧
      bits w 4 3 = pg ∧ bits w 2 2 = part ∧ bits w 1 1 = blk ∧ bits w 0 1 = 0#1 := by
  unfold bits packCV
  refine ⟨?_, ?_, ?_, ?_, ?_, ?_, ?_, ?_, ?_, ?_⟩ <;> simp (disch := decide) only [bits_append_above, bits_append_at]

theorem packCS_fields (rd ra : BitVec 5) (tf ff : BitVec 4) (rm : BitVec 2) :
    let w := packCS rd ra tf ff rm
    bits w 21 5 = rd ∧ bits w 16 5 = ra ∧ bits w 12 4 = tf ∧ bits w 8 4 = ff ∧ bits w 6 2 = rm ∧ bits w 0 6 = 0#6 := by
  unfold bits packCS
  refine ⟨?_, ?_, ?_, ?_, ?_, ?_⟩ <;> simp (disch := decide) only [bits_append_above, bits_append_at]

theorem packC_fields (fn : BitVec 3) (rx rt rs : BitVec 5) (ch : BitVec 8) :
    let w := packC fn rx rt rs ch
    bits w 23 3 = fn ∧ bits w 18 5 = rx ∧ bits w 13 5 = rt ∧ bits w 8 5 = rs ∧ bits w 0 8 = ch := by
  unfold bits packC
  refine ⟨?_, ?_, ?_, ?_, ?_⟩ <;> simp (disch := decide) only [bits_append_above, bits_append_at]

theorem packX_fields (op : BitVec 6) (fn ra rb rc : BitVec 5) (pd f : BitVec 3) :
    let w := packX op fn ra rb rc pd f
    bits w 21 5 = fn ∧ bits w 16 5 = ra ∧ bits w 11 5 = rb ∧ bits w 6 5 = rc ∧ bits w 3 3 = pd ∧ bits w 0 3 = f := by
  unfold bits packX
  refine ⟨?_, ?_, ?_, ?_, ?_, ?_⟩ <;> simp (disch := decide) only [bits_append_above, bits_append_at]

/-! Codes of fields. -/

@[simp] theorem Space.ofBit_bit (sp : Space) : Space.ofBit sp.bit = sp := by cases sp <;> rfl
@[simp] theorem bitBool_boolBit (b : Bool) : bitBool (boolBit b) = b := by cases b <;> rfl
@[simp] theorem CondI.ofCode_code (c : CondI) : CondI.ofCode c.code = c := by cases c <;> rfl
@[simp] theorem LaneTy.ofCode_code (t : LaneTy) : LaneTy.ofCode t.code = t := by cases t <;> rfl
@[simp] theorem IntTy.ofCode_code (t : IntTy) : IntTy.ofCode? t.code = some t := by cases t <;> rfl
@[simp] theorem FloatTy.ofCode_code (t : FloatTy) : FloatTy.ofCode? t.code = some t := by cases t <;> rfl
@[simp] theorem Rm.ofCode_code (m : Rm) : Rm.ofCode? m.code = some m := by cases m <;> rfl
@[simp] theorem CvtFmt.ofCode_code (t : CvtFmt) : CvtFmt.ofCode? t.code = some t := by cases t <;> rfl
@[simp] theorem BlkFmt.ofCode_code (t : BlkFmt) : BlkFmt.ofCode? t.code = some t := by cases t <;> rfl
@[simp] theorem BlkSrc.ofCode_code (t : BlkSrc) : BlkSrc.ofCode? t.code = some t := by cases t <;> rfl
@[simp] theorem UnblkDst.ofCode_code (t : UnblkDst) : UnblkDst.ofCode? t.code = some t := by cases t <;> rfl
@[simp] theorem ScalFmt.ofCode_code (t : ScalFmt) : ScalFmt.ofCode? t.code = some t := by cases t <;> rfl

@[simp] theorem Space.bit_ofBit (b : BitVec 1) : (Space.ofBit b).bit = b := by revert b; decide
@[simp] theorem boolBit_bitBool (b : BitVec 1) : boolBit (bitBool b) = b := by revert b; decide
@[simp] theorem CondI.code_ofCode (c : BitVec 2) : (CondI.ofCode c).code = c := by revert c; decide
@[simp] theorem LaneTy.code_ofCode (c : BitVec 2) : (LaneTy.ofCode c).code = c := by revert c; decide
theorem IntTy.code_of_ofCode {c : BitVec 2} {t : IntTy} (h : IntTy.ofCode? c = some t) : t.code = c := by
  revert c t; decide
theorem FloatTy.code_of_ofCode {c : BitVec 2} {t : FloatTy} (h : FloatTy.ofCode? c = some t) : t.code = c := by
  revert c t; decide
theorem Rm.code_of_ofCode {c : BitVec 2} {m : Rm} (h : Rm.ofCode? c = some m) : m.code = c := by
  revert c m; decide
theorem CvtFmt.code_of_ofCode {c : BitVec 4} {t : CvtFmt} (h : CvtFmt.ofCode? c = some t) : t.code = c := by
  revert c t; decide
theorem BlkFmt.code_of_ofCode {c : BitVec 4} {t : BlkFmt} (h : BlkFmt.ofCode? c = some t) : t.code = c := by
  revert c t; decide
theorem BlkSrc.code_of_ofCode {c : BitVec 4} {t : BlkSrc} (h : BlkSrc.ofCode? c = some t) : t.code = c := by
  revert c t; decide
theorem UnblkDst.code_of_ofCode {c : BitVec 4} {t : UnblkDst} (h : UnblkDst.ofCode? c = some t) : t.code = c := by
  revert c t; decide
theorem ScalFmt.code_of_ofCode {c : BitVec 4} {t : ScalFmt} (h : ScalFmt.ofCode? c = some t) : t.code = c := by
  revert c t; decide

/-- The formats of a block of one direction are none of the other (R103). -/
theorem BlkFmt.ofCode_unblkDst (t : UnblkDst) : BlkFmt.ofCode? t.code = none := by cases t <;> rfl

end Sys2Proof.Machine
end

section
namespace Sys2Proof.Machine

-- Proved in parallel, these proofs hold a thread each, whose stacks pass the check's memory.
set_option Elab.async false

open Sys2Proof.Laws

/-! ## Decoding: the table of each opcode, and what its words are -/

section Tables
variable (u : StId)

theorem decodeWord_int (rd ra rb : BitVec 5) (fn : BitVec 6) (pd : BitVec 3) :
    decodeWord u (packR 0x01 rd ra rb fn pd) = decInt u rd ra rb fn pd := by
  simp [decodeWord, packR_opcode, packR_fields]

theorem decodeWord_float (rd ra rb : BitVec 5) (fn : BitVec 6) (pd : BitVec 3) :
    decodeWord u (packR 0x09 rd ra rb fn pd) = decFloat u rd ra rb fn pd := by
  simp [decodeWord, packR_opcode, packR_fields]

theorem decodeWord_branch (fn pg : BitVec 3) (pn : BitVec 1) (rs : BitVec 5) (off : BitVec 11) :
    decodeWord u (packB fn pg pn rs off) = decBranch u fn pg (bitBool pn) rs off := by
  simp [decodeWord, packB_opcode, packB_fields]

theorem decodeWord_load (rd ra : BitVec 5) (sp : BitVec 1) (sz : BitVec 3) (imm : BitVec 12) :
    decodeWord u (packM 0x0B rd ra sp sz imm) = decLoad u rd ra (.ofBit sp) sz imm := by
  simp [decodeWord, packM_opcode, packM_fields]

theorem decodeWord_store (rd ra : BitVec 5) (sp : BitVec 1) (sz : BitVec 3) (imm : BitVec 12) :
    decodeWord u (packM 0x0C rd ra sp sz imm) = decStore u rd ra (.ofBit sp) sz imm := by
  simp [decodeWord, packM_opcode, packM_fields]

theorem decodeWord_vec (vd va vb vc : BitVec 4) (pg : BitVec 3) (pn : BitVec 1) (ty : BitVec 2) (fn : BitVec 4) :
    decodeWord u (packV 0x10 vd va vb vc pg pn ty fn) = decVec u vd va vb vc pg (bitBool pn) ty fn := by
  simp [decodeWord, packV_opcode, packV_fields]

theorem decodeWord_vtrans (vd va vb vc : BitVec 4) (pg : BitVec 3) (pn : BitVec 1) (ty : BitVec 2) (fn : BitVec 4) :
    decodeWord u (packV 0x12 vd va vb vc pg pn ty fn) = decVTrans u vd va vb vc pg (bitBool pn) ty fn := by
  simp [decodeWord, packV_opcode, packV_fields]

theorem decodeWord_lane {w : Word} (h : bits w 26 6 = 0x11#6) : decodeWord u w = decLane u w := by
  simp [decodeWord, h]

theorem decodeWord_cvt (vd va tf ff : BitVec 4) (rm : BitVec 2) (spc : BitVec 1) (pg : BitVec 3) (part : BitVec 2) :
    decodeWord u (packCV vd va tf ff rm spc pg part 0) = decCvt u vd va tf ff rm spc pg part := by
  simp [decodeWord, packCV_opcode, packCV_fields]

theorem decodeWord_cvtBlk (vd va tf ff : BitVec 4) (rm : BitVec 2) :
    decodeWord u (packCV vd va tf ff rm 0 0 0 1) = decCvtBlk u vd va tf ff rm := by
  simp [decodeWord, packCV_opcode, packCV_fields]

theorem decodeWord_cvtS (rd ra : BitVec 5) (tf ff : BitVec 4) (rm : BitVec 2) :
    decodeWord u (packCS rd ra tf ff rm) = decCvtS u rd ra tf ff rm := by
  simp [decodeWord, packCS_opcode, packCS_fields]

theorem decodeWord_send (fn : BitVec 3) (rx rt rs : BitVec 5) (ch : BitVec 8) :
    decodeWord u (packC fn rx rt rs ch) = decSend u fn rx rt rs ch := by
  simp [decodeWord, packC_opcode, packC_fields]

theorem decodeWord_recv (fn ra rb rc : BitVec 5) (pd f : BitVec 3) :
    decodeWord u (packX 0x19 fn ra rb rc pd f) = decRecv u fn ra rb rc pd f := by
  simp [decodeWord, packX_opcode, packX_fields]

theorem decodeWord_press (fn ra rb rc : BitVec 5) (pd f : BitVec 3) :
    decodeWord u (packX 0x1C fn ra rb rc pd f) = decPress u fn ra rb rc pd f := by
  simp [decodeWord, packX_opcode, packX_fields]

theorem decodeWord_coll (fn ra rb rc : BitVec 5) (pd f : BitVec 3) :
    decodeWord u (packX 0x1D fn ra rb rc pd f) = decColl u fn ra rb rc pd f := by
  simp [decodeWord, packX_opcode, packX_fields]

theorem decodeWord_ctl (fn ra rb rc : BitVec 5) (pd f : BitVec 3) :
    decodeWord u (packX 0x1E fn ra rb rc pd f) = decCtl u fn ra rb rc pd f := by
  simp [decodeWord, packX_opcode, packX_fields]

/-- The shift amount and the kind of shift stand in the immediate (Table 5). -/
theorem shiftImm_fields (k : BitVec 2) (amt : BitVec 5) :
    let imm : BitVec 16 := 0#9 ++ k ++ amt
    imm.extractLsb' 7 9 = 0#9 ∧ imm.extractLsb' 5 2 = k ∧ imm.extractLsb' 0 5 = amt := by
  refine ⟨?_, ?_, ?_⟩
  · rw [bits_append_above _ _ _ (by decide)]
    exact BitVec.extractLsb'_append_eq_left
  · rw [bits_append_above _ _ _ (by decide), bits_append_at _ _ (by decide)]
  · exact bits_append_at _ _ rfl

theorem decodeWord_shift (rd ra : BitVec 5) (k : BitVec 2) (amt : BitVec 5) :
    decodeWord u (packI 7 rd ra (0#9 ++ k ++ amt)) = match k.toNat with
      | 0 => some (.shli u rd ra amt)
      | 1 => some (.shri u rd ra amt)
      | 2 => some (.srai u rd ra amt)
      | _ => none := by
  obtain ⟨hz, hk, ha⟩ := shiftImm_fields k amt
  obtain ⟨hrd, hra, himm⟩ := packI_fields 7 rd ra (0#9 ++ k ++ amt)
  have h : decodeWord u (packI 7 rd ra (0#9 ++ k ++ amt)) = decShiftI u rd ra (0#9 ++ k ++ amt) := by
    simp only [decodeWord, packI_opcode, hrd, hra, himm]
    rfl
  rw [h, decShiftI, hz, hk, ha]
  rfl

theorem decodeWord_cmpi (pd : PReg) (c : CondI) (ra : BitVec 5) (imm : BitVec 16) :
    decodeWord u (packI 8 (c.code ++ pd) ra imm) = some (.cmpi u pd c ra imm) := by
  obtain ⟨hrd, hra, himm⟩ := packI_fields 8 (c.code ++ pd) ra imm
  have sub : ∀ (w : Word) (k n : Nat), k + n ≤ 5 → bits w (21 + k) n = (bits w 21 5).extractLsb' k n := fun w k n h => by
    ext i hi
    simp [bits, Nat.add_assoc, show k + i < 5 by omega]
  have hpd : bits (packI 8 (c.code ++ pd) ra imm) 21 3 = pd := by
    rw [show (21 : Nat) = 21 + 0 from rfl, sub _ _ _ (by decide), hrd, bits_append_at _ _ rfl]
  have hc : bits (packI 8 (c.code ++ pd) ra imm) 24 2 = c.code := by
    rw [show 24 = 21 + 3 from rfl, sub _ _ _ (by decide), hrd]
    exact BitVec.extractLsb'_append_eq_left
  simp only [decodeWord, packI_opcode, hra, himm, hpd, hc, CondI.ofCode_code]
  rfl

end Tables

/-! A narrow operand in a wide field, zeros above it. -/

@[simp] theorem vreg_field (v : VReg) :
    (0#1 ++ v : BitVec 5).extractLsb' 0 4 = v ∧ (0#1 ++ v : BitVec 5).extractLsb' 4 1 = 0#1 :=
  ⟨bits_append_at _ _ rfl, BitVec.extractLsb'_append_eq_left⟩

@[simp] theorem preg_field4 (p : PReg) :
    (0#1 ++ p : BitVec 4).extractLsb' 0 3 = p ∧ (0#1 ++ p : BitVec 4).extractLsb' 3 1 = 0#1 :=
  ⟨bits_append_at _ _ rfl, BitVec.extractLsb'_append_eq_left⟩

@[simp] theorem preg_field5 (p : PReg) :
    (0#2 ++ p : BitVec 5).extractLsb' 0 3 = p ∧ (0#2 ++ p : BitVec 5).extractLsb' 3 2 = 0#2 :=
  ⟨bits_append_at _ _ rfl, BitVec.extractLsb'_append_eq_left⟩

@[simp] theorem queue_field (n : BitVec 2) :
    (0#1 ++ n : BitVec 3).extractLsb' 0 2 = n ∧ (0#1 ++ n : BitVec 3).extractLsb' 2 1 = 0#1 :=
  ⟨bits_append_at _ _ rfl, BitVec.extractLsb'_append_eq_left⟩

@[simp] theorem space_field (b : BitVec 1) :
    (0#2 ++ b : BitVec 3).extractLsb' 0 1 = b ∧ (0#2 ++ b : BitVec 3).extractLsb' 1 2 = 0#2 :=
  ⟨bits_append_at _ _ rfl, BitVec.extractLsb'_append_eq_left⟩

@[simp] theorem press_field (b c : BitVec 1) :
    (0#1 ++ b ++ c : BitVec 3).extractLsb' 0 1 = c ∧ (0#1 ++ b ++ c : BitVec 3).extractLsb' 1 1 = b ∧
      (0#1 ++ b ++ c : BitVec 3).extractLsb' 2 1 = 0#1 := by
  revert b c
  decide

/-- Settles O15: every word of an instruction is looked up in the table of its opcode. -/
theorem decodeOfEncode : Obligations.DecodeOfEncode := by
  unfold Obligations.DecodeOfEncode
  intro i w hi h
  unfold encode at h
  split at h <;> cases h
  -- scalar integer, opcode 0x01
  iterate 24 exact ⟨_, decodeWord_int ..⟩
  -- immediates, shifts and compares with them, opcodes 0x02 to 0x08
  iterate 4 exact ⟨_, by simp [decodeWord, packI_opcode, packI_fields]; rfl⟩
  · exact ⟨_, by simp [decodeWord, packI_opcode, packI_fields, ifZero]; rfl⟩
  iterate 3 exact ⟨_, decodeWord_shift ..⟩
  · exact ⟨_, decodeWord_cmpi ..⟩
  -- scalar FP32, opcode 0x09
  iterate 15 exact ⟨_, decodeWord_float ..⟩
  -- branches, opcode 0x0A
  iterate 4 exact ⟨_, (decodeWord_branch ..).trans (by simp only [bitBool_boolBit]; rfl)⟩
  -- loads and stores, opcodes 0x0B and 0x0C
  iterate 5 exact ⟨_, (decodeWord_load ..).trans (by simp only [Space.ofBit_bit]; rfl)⟩
  · exact ⟨_, (decodeWord_load ..).trans (by simp [decLoad, ifZero]; rfl)⟩
  iterate 3 exact ⟨_, (decodeWord_store ..).trans (by simp only [Space.ofBit_bit]; rfl)⟩
  · exact ⟨_, (decodeWord_store ..).trans (by simp [decStore, ifZero]; rfl)⟩
  -- vector arithmetic, opcode 0x10
  iterate 13 exact ⟨_, (decodeWord_vec ..).trans (by simp [decVec, ifZero]; rfl)⟩
  iterate 3 exact ⟨_, (decodeWord_vec ..).trans (by simp [decVec, ifZero]; rfl)⟩
  -- lanes, opcode 0x11
  iterate 2 exact ⟨_, (decodeWord_lane _ (packV_opcode ..)).trans (by simp [decLane, packV_fields, ifZero]; rfl)⟩
  iterate 3 exact ⟨_, (decodeWord_lane _ (packVL_opcode ..)).trans (by simp [decLane, packVL_fields, ifZero]; rfl)⟩
  iterate 3 exact ⟨_, (decodeWord_lane _ (packV_opcode ..)).trans (by simp [decLane, packV_fields, ifZero]; rfl)⟩
  -- vector transcendental, opcode 0x12
  iterate 3 exact ⟨_, (decodeWord_vtrans ..).trans (by simp [decVTrans]; rfl)⟩
  -- conversions, opcodes 0x13 and 0x14
  · exact ⟨_, (decodeWord_cvt ..).trans (by simp [decCvt, ifZero]; exact ⟨hi, rfl⟩)⟩
  · exact ⟨_, (decodeWord_cvtBlk ..).trans (by simp [decCvtBlk, ifZero]; exact ⟨by simpa [Instr.wf] using hi, rfl⟩)⟩
  · exact ⟨_, (decodeWord_cvtBlk ..).trans (by simp [decCvtBlk, BlkFmt.ofCode_unblkDst, ifZero]; exact ⟨by simpa [Instr.wf] using hi, rfl⟩)⟩
  · exact ⟨_, (decodeWord_cvtS ..).trans (by simp [decCvtS]; rfl)⟩
  -- sends and receives, opcodes 0x18 and 0x19
  iterate 4 exact ⟨_, (decodeWord_send ..).trans (if_pos hi)⟩
  iterate 4 exact ⟨_, decodeWord_send ..⟩
  iterate 2 exact ⟨_, (decodeWord_recv ..).trans (by simp [decRecv, ifZero]; exact ⟨by simpa [Instr.wf] using hi, rfl⟩)⟩
  iterate 3 exact ⟨_, decodeWord_recv ..⟩
  -- presses, pages and leaf operations, collation, opcodes 0x1C and 0x1D
  · exact ⟨_, (decodeWord_press ..).trans (by simp [decPress, ifZero]; rfl)⟩
  iterate 3 exact ⟨_, decodeWord_press ..⟩
  iterate 2 exact ⟨_, (decodeWord_coll ..).trans (by simp [decColl, ifZero]; rfl)⟩
  -- control and predicates, opcode 0x1E
  iterate 4 exact ⟨_, decodeWord_ctl ..⟩
  iterate 5 exact ⟨_, (decodeWord_ctl ..).trans (by simp [decCtl, ifZero]; rfl)⟩
  · exact ⟨_, decodeWord_ctl ..⟩
end Sys2Proof.Machine
end

section
namespace Sys2Proof.Machine

-- Proved in parallel, these proofs hold a thread each, whose stacks pass the check's memory.
set_option Elab.async false

open Sys2Proof.Laws

/-! ## Encoding what a word decodes to

Of each format: the word that the fields of a word pack to is that word. -/

section Words
variable (w : Word)

theorem packR_bits (h : bits w 0 2 = 0#2) :
    packR (bits w 26 6) (bits w 21 5) (bits w 16 5) (bits w 11 5) (bits w 5 6) (bits w 2 3) = w := by
  unfold packR
  rw [← h]
  simp only [bits, BitVec.extractLsb'_append_extractLsb'_eq_extractLsb']
  exact BitVec.extractLsb'_eq_self

theorem packI_bits : packI (bits w 26 6) (bits w 21 5) (bits w 16 5) (bits w 0 16) = w := by
  unfold packI
  simp only [bits, BitVec.extractLsb'_append_extractLsb'_eq_extractLsb']
  exact BitVec.extractLsb'_eq_self

theorem packB_bits (ho : bits w 26 6 = 0x0A#6) (h : bits w 11 3 = 0#3) :
    packB (bits w 23 3) (bits w 20 3) (bits w 19 1) (bits w 14 5) (bits w 0 11) = w := by
  unfold packB
  rw [← ho, ← h]
  simp only [bits, BitVec.extractLsb'_append_extractLsb'_eq_extractLsb']
  exact BitVec.extractLsb'_eq_self

theorem packM_bits : packM (bits w 26 6) (bits w 21 5) (bits w 16 5) (bits w 15 1) (bits w 12 3) (bits w 0 12) = w := by
  unfold packM
  simp only [bits, BitVec.extractLsb'_append_extractLsb'_eq_extractLsb']
  exact BitVec.extractLsb'_eq_self

theorem packV_bits : packV (bits w 26 6) (bits w 22 4) (bits w 18 4) (bits w 14 4) (bits w 10 4) (bits w 7 3) (bits w 6 1)
    (bits w 4 2) (bits w 0 4) = w := by
  unfold packV
  simp only [bits, BitVec.extractLsb'_append_extractLsb'_eq_extractLsb']
  exact BitVec.extractLsb'_eq_self

theorem packVL_bits (ho : bits w 26 6 = 0x11#6) (ha : bits w 18 4 = 0#4) (hn : bits w 6 1 = 0#1) :
    packVL (bits w 22 4) (bits w 13 5) (bits w 7 6) (bits w 4 2) (bits w 0 4) = w := by
  unfold packVL
  rw [← ho, ← ha, ← hn]
  simp only [bits, BitVec.extractLsb'_append_extractLsb'_eq_extractLsb']
  exact BitVec.extractLsb'_eq_self

theorem packCV_bits (ho : bits w 26 6 = 0x13#6) (h : bits w 0 1 = 0#1) :
    packCV (bits w 22 4) (bits w 18 4) (bits w 14 4) (bits w 10 4) (bits w 8 2) (bits w 7 1) (bits w 4 3) (bits w 2 2)
      (bits w 1 1) = w := by
  unfold packCV
  rw [← ho, ← h]
  simp only [bits, BitVec.extractLsb'_append_extractLsb'_eq_extractLsb']
  exact BitVec.extractLsb'_eq_self

theorem packCS_bits (ho : bits w 26 6 = 0x14#6) (h : bits w 0 6 = 0#6) :
    packCS (bits w 21 5) (bits w 16 5) (bits w 12 4) (bits w 8 4) (bits w 6 2) = w := by
  unfold packCS
  rw [← ho, ← h]
  simp only [bits, BitVec.extractLsb'_append_extractLsb'_eq_extractLsb']
  exact BitVec.extractLsb'_eq_self

theorem packC_bits (ho : bits w 26 6 = 0x18#6) :
    packC (bits w 23 3) (bits w 18 5) (bits w 13 5) (bits w 8 5) (bits w 0 8) = w := by
  unfold packC
  rw [← ho]
  simp only [bits, BitVec.extractLsb'_append_extractLsb'_eq_extractLsb']
  exact BitVec.extractLsb'_eq_self

theorem packX_bits : packX (bits w 26 6) (bits w 21 5) (bits w 16 5) (bits w 11 5) (bits w 6 5) (bits w 3 3) (bits w 0 3) = w := by
  unfold packX
  simp only [bits, BitVec.extractLsb'_append_extractLsb'_eq_extractLsb']
  exact BitVec.extractLsb'_eq_self

end Words

/-- `i` is an instruction that its word spells. -/
def Spells (i : Instr) (w : Word) : Prop := encode i = some w ∧ i.wf = true

theorem eq_ofNat_of_toNat {n k : Nat} {x : BitVec n} (h : x.toNat = k) : x = BitVec.ofNat n k := by
  rw [← h, BitVec.ofNat_toNat, BitVec.setWidth_eq]

theorem spells_of_ifZero {c : Bool} {a i : Instr} {w : Word} (h : ifZero c a = some i) (k : c = true → Spells a w) :
    Spells i w := by
  unfold ifZero at h
  split at h
  · next hc =>
    cases h
    exact k hc
  · cases h

theorem spells_of_map {α : Type} {o : Option α} {f : α → Instr} {i : Instr} {w : Word} (h : o.map f = some i)
    (k : ∀ t, o = some t → Spells (f t) w) : Spells i w := by
  obtain ⟨t, ht, rfl⟩ := Option.map_eq_some_iff.mp h
  exact k t ht

/-- A field whose upper bits are zero is its lower bits with zeros above them. -/
theorem zeroAbove_low {m n : Nat} (x : BitVec (m + n)) (h : x.extractLsb' n m = 0#m) : 0#m ++ x.extractLsb' 0 n = x := by
  rw [← h, BitVec.extractLsb'_append_extractLsb'_eq_extractLsb' (by omega)]
  exact BitVec.extractLsb'_eq_self

section Rows
variable {u : StId} {i : Instr}

theorem spells_of_decInt {rd ra rb : BitVec 5} {fn : BitVec 6} {pd : BitVec 3} (h : decInt u rd ra rb fn pd = some i) :
    Spells i (packR 0x01 rd ra rb fn pd) := by
  unfold decInt at h
  split at h
  case h_25 => cases h
  all_goals rename_i hfn; obtain rfl := eq_ofNat_of_toNat hfn
  iterate 17 exact spells_of_ifZero h fun hz => ⟨by rw [eq_of_beq hz]; rfl, rfl⟩
  · cases h; exact ⟨rfl, rfl⟩
  iterate 6 exact spells_of_ifZero h fun hz => ⟨by rw [eq_of_beq hz]; rfl, rfl⟩

theorem spells_of_decFloat {rd ra rb : BitVec 5} {fn : BitVec 6} {pd : BitVec 3} (h : decFloat u rd ra rb fn pd = some i) :
    Spells i (packR 0x09 rd ra rb fn pd) := by
  unfold decFloat at h
  split at h
  case h_16 => cases h
  all_goals rename_i hfn; obtain rfl := eq_ofNat_of_toNat hfn
  iterate 6 exact spells_of_ifZero h fun hz => ⟨by rw [eq_of_beq hz]; rfl, rfl⟩
  iterate 5
    refine spells_of_ifZero h fun hz => ?_
    obtain ⟨hpd, hrb⟩ := Bool.and_eq_true_iff.mp hz
    exact ⟨by rw [eq_of_beq hpd, eq_of_beq hrb]; rfl, rfl⟩
  iterate 4 exact spells_of_ifZero h fun hz => ⟨by rw [eq_of_beq hz]; rfl, rfl⟩

theorem spells_of_decShiftI {rd ra : BitVec 5} {imm : BitVec 16} (h : decShiftI u rd ra imm = some i) :
    Spells i (packI 7 rd ra imm) := by
  unfold decShiftI at h
  split at h
  · cases h
  · next hz =>
    have himm : 0#9 ++ imm.extractLsb' 5 2 ++ imm.extractLsb' 0 5 = imm := by
      rw [← (show _ = 0#9 from not_not.mp hz)]
      simp only [BitVec.extractLsb'_append_extractLsb'_eq_extractLsb']
      exact BitVec.extractLsb'_eq_self
    split at h
    case h_4 => cases h
    all_goals
      rename_i hk
      cases h
      refine ⟨?_, rfl⟩
      conv_rhs => rw [← himm, eq_ofNat_of_toNat hk]
      rfl

theorem spells_of_decBranch {fn pg : BitVec 3} {pn : BitVec 1} {rs : BitVec 5} {off : BitVec 11}
    (h : decBranch u fn pg (bitBool pn) rs off = some i) : Spells i (packB fn pg pn rs off) := by
  have code := boolBit_bitBool pn
  unfold decBranch at h
  split at h
  case h_5 => cases h
  all_goals rename_i hfn; obtain rfl := eq_ofNat_of_toNat hfn
  · exact spells_of_ifZero h fun hz => ⟨by rw [eq_of_beq hz, encode, code]; rfl, rfl⟩
  all_goals cases h; exact ⟨by rw [encode, code]; rfl, rfl⟩

theorem spells_of_decLoad {rd ra : BitVec 5} {sp : BitVec 1} {sz : BitVec 3} {imm : BitVec 12}
    (h : decLoad u rd ra (.ofBit sp) sz imm = some i) : Spells i (packM 0x0B rd ra sp sz imm) := by
  have code := Space.bit_ofBit sp
  unfold decLoad at h
  split at h
  case h_7 => cases h
  all_goals rename_i hsz; obtain rfl := eq_ofNat_of_toNat hsz
  case h_4 =>
    exact spells_of_ifZero h fun hz => ⟨by rw [encode, code, zeroAbove_low (m := 1) (n := 4) rd (eq_of_beq hz)]; rfl, rfl⟩
  all_goals cases h; exact ⟨by rw [encode, code]; rfl, rfl⟩

theorem spells_of_decStore {rd ra : BitVec 5} {sp : BitVec 1} {sz : BitVec 3} {imm : BitVec 12}
    (h : decStore u rd ra (.ofBit sp) sz imm = some i) : Spells i (packM 0x0C rd ra sp sz imm) := by
  have code := Space.bit_ofBit sp
  unfold decStore at h
  split at h
  case h_5 => cases h
  all_goals rename_i hsz; obtain rfl := eq_ofNat_of_toNat hsz
  case h_4 =>
    exact spells_of_ifZero h fun hz => ⟨by rw [encode, code, zeroAbove_low (m := 1) (n := 4) rd (eq_of_beq hz)]; rfl, rfl⟩
  all_goals cases h; exact ⟨by rw [encode, code]; rfl, rfl⟩

theorem spells_of_decVec {vd va vb vc : BitVec 4} {pg : BitVec 3} {pn : BitVec 1} {ty : BitVec 2} {fn : BitVec 4}
    (h : decVec u vd va vb vc pg (bitBool pn) ty fn = some i) : Spells i (packV 0x10 vd va vb vc pg pn ty fn) := by
  have code := boolBit_bitBool pn
  have lane := LaneTy.code_ofCode ty
  unfold decVec at h
  split at h
  case h_17 => cases h
  all_goals rename_i hfn; obtain rfl := eq_ofNat_of_toNat hfn
  -- vadd, vsub, vmul, vmin, vmax, vfma, vabs, vneg
  iterate 5 exact spells_of_ifZero h fun hz => ⟨by rw [encode, code, lane, eq_of_beq hz]; rfl, rfl⟩
  · cases h; exact ⟨by rw [encode, code, lane]; rfl, rfl⟩
  iterate 2
    refine spells_of_ifZero h fun hz => ?_
    obtain ⟨hvb, hvc⟩ := Bool.and_eq_true_iff.mp hz
    exact ⟨by rw [encode, code, lane, eq_of_beq hvb, eq_of_beq hvc]; rfl, rfl⟩
  -- vand, vor, vxor, vshl, vsra
  iterate 5
    split at h
    case isTrue hvc =>
      exact spells_of_map h fun t ht => ⟨by rw [encode, code, IntTy.code_of_ofCode ht, hvc]; rfl, rfl⟩
    case isFalse => cases h
  -- vcmpEq, vcmpLt, vcmpLe
  iterate 3
    refine spells_of_ifZero h fun hz => ?_
    obtain ⟨hvc, hvd⟩ := Bool.and_eq_true_iff.mp hz
    exact ⟨by rw [encode, code, lane, zeroAbove_low (m := 1) (n := 3) vd (eq_of_beq hvd), eq_of_beq hvc]; rfl, rfl⟩

theorem spells_of_decVTrans {vd va vb vc : BitVec 4} {pg : BitVec 3} {pn : BitVec 1} {ty : BitVec 2} {fn : BitVec 4}
    (h : decVTrans u vd va vb vc pg (bitBool pn) ty fn = some i) : Spells i (packV 0x12 vd va vb vc pg pn ty fn) := by
  have code := boolBit_bitBool pn
  unfold decVTrans at h
  split at h
  case isFalse => cases h
  case isTrue hz =>
    obtain ⟨rfl, rfl⟩ := hz
    split at h
    case h_4 => cases h
    all_goals
      rename_i hfn
      obtain rfl := eq_ofNat_of_toNat hfn
      exact spells_of_map h fun t ht => ⟨by rw [encode, code, FloatTy.code_of_ofCode ht]; rfl, rfl⟩

theorem spells_of_decCvt {vd va tf ff : BitVec 4} {rm : BitVec 2} {spc : BitVec 1} {pg : BitVec 3} {part : BitVec 2}
    (h : decCvt u vd va tf ff rm spc pg part = some i) : Spells i (packCV vd va tf ff rm spc pg part 0) := by
  unfold decCvt at h
  split at h
  · next t f m ht hf hm =>
    exact spells_of_ifZero h fun hp => ⟨by
      rw [encode, CvtFmt.code_of_ofCode ht, CvtFmt.code_of_ofCode hf, Rm.code_of_ofCode hm, boolBit_bitBool], hp⟩
  · cases h

theorem spells_of_decCvtBlk {vd va tf ff : BitVec 4} {rm : BitVec 2} (h : decCvtBlk u vd va tf ff rm = some i) :
    Spells i (packCV vd va tf ff rm 0 0 0 1) := by
  unfold decCvtBlk at h
  split at h
  · cases h
  · next m hm =>
    split at h
    · next t f ht hf =>
      exact spells_of_ifZero h fun hp => ⟨by
        rw [encode, BlkFmt.code_of_ofCode ht, BlkSrc.code_of_ofCode hf, Rm.code_of_ofCode hm], hp⟩
    · split at h
      · next t f ht hf =>
        exact spells_of_ifZero h fun hp => ⟨by
          rw [encode, UnblkDst.code_of_ofCode ht, BlkFmt.code_of_ofCode hf, Rm.code_of_ofCode hm], hp⟩
      · cases h

theorem spells_of_decCvtS {rd ra : BitVec 5} {tf ff : BitVec 4} {rm : BitVec 2} (h : decCvtS u rd ra tf ff rm = some i) :
    Spells i (packCS rd ra tf ff rm) := by
  unfold decCvtS at h
  split at h
  · next t f m ht hf hm =>
    cases h
    exact ⟨by rw [encode, ScalFmt.code_of_ofCode ht, ScalFmt.code_of_ofCode hf, Rm.code_of_ofCode hm], rfl⟩
  · cases h

theorem spells_of_decSend {fn : BitVec 3} {rx rt rs : BitVec 5} {ch : BitVec 8} (h : decSend u fn rx rt rs ch = some i) :
    Spells i (packC fn rx rt rs ch) := by
  unfold decSend at h
  split at h
  case h_8 h0 h1 h2 h3 h4 h5 h6 =>
    obtain rfl : fn = 7#3 := by
      have hlt := fn.isLt
      simp only [imp_false] at h0 h1 h2 h3 h4 h5 h6
      exact eq_ofNat_of_toNat (by omega)
    cases h
    exact ⟨rfl, rfl⟩
  all_goals rename_i hfn; obtain rfl := eq_ofNat_of_toNat hfn
  iterate 4 exact spells_of_ifZero h fun hz => ⟨rfl, hz⟩
  all_goals cases h; exact ⟨rfl, rfl⟩

theorem spells_of_decRecv {fn ra rb rc : BitVec 5} {pd f : BitVec 3} (h : decRecv u fn ra rb rc pd f = some i) :
    Spells i (packX 0x19 fn ra rb rc pd f) := by
  unfold decRecv at h
  split at h
  case h_6 => cases h
  all_goals
    rename_i hfn
    obtain rfl := eq_ofNat_of_toNat hfn
    refine spells_of_ifZero h fun hz => ?_
    simp only [Bool.and_eq_true, beq_iff_eq] at hz
  · obtain ⟨⟨⟨⟨hra, rfl⟩, rfl⟩, rfl⟩, hf⟩ := hz
    exact ⟨by rw [encode, zeroAbove_low (m := 1) (n := 2) f hf]; rfl, hra⟩
  · obtain ⟨⟨⟨hra, rfl⟩, rfl⟩, hf⟩ := hz
    exact ⟨by rw [encode, zeroAbove_low (m := 1) (n := 2) f hf]; rfl, hra⟩
  all_goals
    obtain ⟨⟨rfl, rfl⟩, rfl⟩ := hz
    exact ⟨rfl, rfl⟩

theorem spells_of_decPress {fn ra rb rc : BitVec 5} {pd f : BitVec 3} (h : decPress u fn ra rb rc pd f = some i) :
    Spells i (packX 0x1C fn ra rb rc pd f) := by
  unfold decPress at h
  split at h
  case h_5 => cases h
  all_goals
    rename_i hfn
    obtain rfl := eq_ofNat_of_toNat hfn
    refine spells_of_ifZero h fun hz => ?_
    simp only [Bool.and_eq_true, beq_iff_eq] at hz
  · obtain ⟨⟨⟨rfl, rfl⟩, rfl⟩, hf⟩ := hz
    have word : 0#1 ++ f.extractLsb' 1 1 ++ f.extractLsb' 0 1 = f := by
      rw [← (show _ = 0#1 from hf)]
      simp only [BitVec.extractLsb'_append_extractLsb'_eq_extractLsb']
      exact BitVec.extractLsb'_eq_self
    exact ⟨by rw [encode, Space.bit_ofBit, boolBit_bitBool, word]; rfl, rfl⟩
  · obtain ⟨⟨rfl, rfl⟩, rfl⟩ := hz
    exact ⟨rfl, rfl⟩
  all_goals
    obtain ⟨⟨⟨rfl, rfl⟩, rfl⟩, rfl⟩ := hz
    exact ⟨rfl, rfl⟩

theorem spells_of_decColl {fn ra rb rc : BitVec 5} {pd f : BitVec 3} (h : decColl u fn ra rb rc pd f = some i) :
    Spells i (packX 0x1D fn ra rb rc pd f) := by
  have space : f.extractLsb' 1 2 = 0 → 0#2 ++ (Space.ofBit (f.extractLsb' 0 1)).bit = f := fun hz => by
    rw [Space.bit_ofBit, zeroAbove_low (m := 2) (n := 1) f hz]
  unfold decColl at h
  split at h
  case h_3 => cases h
  all_goals
    rename_i hfn
    obtain rfl := eq_ofNat_of_toNat hfn
    refine spells_of_ifZero h fun hz => ?_
    simp only [Bool.and_eq_true, beq_iff_eq] at hz
  · exact ⟨by rw [encode, space hz]; rfl, rfl⟩
  · obtain ⟨rfl, hf⟩ := hz
    exact ⟨by rw [encode, space hf]; rfl, rfl⟩

theorem spells_of_decCtl {fn ra rb rc : BitVec 5} {pd f : BitVec 3} (h : decCtl u fn ra rb rc pd f = some i) :
    Spells i (packX 0x1E fn ra rb rc pd f) := by
  have wide : ∀ x : BitVec 5, x.extractLsb' 3 2 = 0 → 0#2 ++ x.extractLsb' 0 3 = x := zeroAbove_low (m := 2) (n := 3)
  unfold decCtl at h
  dsimp only at h
  split at h
  case h_11 => cases h
  all_goals
    rename_i hfn
    obtain rfl := eq_ofNat_of_toNat hfn
    refine spells_of_ifZero h fun hz => ?_
    simp only [Bool.and_eq_true, beq_iff_eq] at hz
  -- nop, endF, tickdone, gets
  iterate 3
    obtain ⟨⟨⟨⟨rfl, rfl⟩, rfl⟩, rfl⟩, rfl⟩ := hz
    exact ⟨rfl, rfl⟩
  · obtain ⟨⟨rfl, rfl⟩, rfl⟩ := hz
    exact ⟨rfl, rfl⟩
  -- pand, por, pnot, pany, pall
  iterate 2
    obtain ⟨⟨⟨hra, hrb⟩, rfl⟩, rfl⟩ := hz
    exact ⟨by rw [encode, wide ra hra, wide rb hrb]; rfl, rfl⟩
  iterate 3
    obtain ⟨⟨⟨hra, rfl⟩, rfl⟩, rfl⟩ := hz
    exact ⟨by rw [encode, wide ra hra]; rfl, rfl⟩
  -- fence
  · obtain ⟨⟨⟨⟨rfl, rfl⟩, rfl⟩, rfl⟩, rfl⟩ := hz
    exact ⟨rfl, rfl⟩

theorem spells_of_decLane {w : Word} (ho : bits w 26 6 = 0x11#6) (h : decLane u w = some i) : Spells i w := by
  have word := packV_bits w
  rw [ho] at word
  have code := boolBit_bitBool (bits w 6 1)
  have lane := LaneTy.code_ofCode (bits w 4 2)
  have wordL := packVL_bits w ho
  unfold decLane at h
  dsimp only at h
  split at h
  case h_9 => cases h
  all_goals
    rename_i hfn
    rw [eq_ofNat_of_toNat hfn] at word wordL
    refine spells_of_ifZero h fun hz => ?_
    simp only [Bool.and_eq_true, beq_iff_eq] at hz
  · rw [hz] at word
    exact ⟨by rw [encode, code, lane]; exact congrArg some word, rfl⟩
  · obtain ⟨⟨ha, hn⟩, hl⟩ := hz
    exact ⟨by rw [encode, lane, ← hl]; exact congrArg some (wordL ha hn), rfl⟩
  iterate 2
    obtain ⟨ha, hn⟩ := hz
    exact ⟨by rw [encode, lane]; exact congrArg some (wordL ha hn), rfl⟩
  iterate 2
    obtain ⟨hb, hc⟩ := hz
    rw [hb, hc] at word
    exact ⟨by rw [encode, code, lane]; exact congrArg some word, rfl⟩
  · rw [hz] at word
    exact ⟨by rw [encode, code, lane]; exact congrArg some word, rfl⟩
  · obtain ⟨hb, hc⟩ := hz
    rw [hb, hc] at word
    exact ⟨by rw [encode, code, lane]; exact congrArg some word, rfl⟩

/-- What a word decodes to spells it, whichever opcode it has. -/
theorem spells_of_decodeWord {w : Word} (h : decodeWord u w = some i) : Spells i w := by
  have wordR := packR_bits w
  have wordI := packI_bits w
  have wordM := packM_bits w
  have wordV := packV_bits w
  have wordX := packX_bits w
  unfold decodeWord at h
  dsimp only at h
  split at h
  case h_23 => cases h
  all_goals
    rename_i hop
    have ho := eq_ofNat_of_toNat hop
    rw [ho] at wordR wordI wordM wordV wordX
  -- scalar integer, opcode 0x01
  · split at h
    case isTrue hz => exact wordR hz ▸ spells_of_decInt h
    case isFalse => cases h
  -- immediates, opcodes 0x02 to 0x08
  iterate 4
    cases h
    exact ⟨congrArg some wordI, rfl⟩
  · exact spells_of_ifZero h fun hz => ⟨(congrArg (fun x => some (packI 6 _ x _)) (eq_of_beq hz).symm).trans (congrArg some wordI), rfl⟩
  · exact wordI ▸ spells_of_decShiftI h
  · cases h
    have field : bits w 24 2 ++ bits w 21 3 = bits w 21 5 := BitVec.extractLsb'_append_extractLsb'_eq_extractLsb' rfl
    exact ⟨by rw [encode, CondI.code_ofCode, field]; exact congrArg some wordI, rfl⟩
  -- scalar FP32, opcode 0x09
  · split at h
    case isTrue hz => exact wordR hz ▸ spells_of_decFloat h
    case isFalse => cases h
  -- branches, opcode 0x0A
  · split at h
    case isTrue hz => exact packB_bits w ho hz ▸ spells_of_decBranch h
    case isFalse => cases h
  -- loads, stores, vector arithmetic and lanes, opcodes 0x0B to 0x12
  · exact wordM ▸ spells_of_decLoad h
  · exact wordM ▸ spells_of_decStore h
  · exact wordV ▸ spells_of_decVec h
  · exact spells_of_decLane ho h
  · exact wordV ▸ spells_of_decVTrans h
  -- conversions, opcodes 0x13 and 0x14
  · split at h
    case isFalse => cases h
    case isTrue hz =>
      have word := packCV_bits w ho hz
      split at h
      case isTrue hb => exact word ▸ hb ▸ spells_of_decCvt h
      case isFalse hb =>
        split at h
        case isFalse => cases h
        case isTrue hs =>
          obtain ⟨h7, h4, h2⟩ := hs
          have h1 : bits w 1 1 = 1 := by revert hb; generalize bits w 1 1 = b; revert b; decide
          rw [h7, h4, h2, h1] at word
          exact word ▸ spells_of_decCvtBlk h
  · split at h
    case isTrue hz => exact packCS_bits w ho hz ▸ spells_of_decCvtS h
    case isFalse => cases h
  -- opcodes 0x18 to 0x1E
  · exact packC_bits w ho ▸ spells_of_decSend h
  · exact wordX ▸ spells_of_decRecv h
  · exact wordX ▸ spells_of_decPress h
  · exact wordX ▸ spells_of_decColl h
  · exact wordX ▸ spells_of_decCtl h

end Rows

/-- Settles O16, from what each table of the decoder answers. -/
theorem encodeOfDecode : Obligations.EncodeOfDecode := by
  unfold Obligations.EncodeOfDecode
  exact fun u w i h => spells_of_decodeWord h

/-- Settles O17: the decoder evaluated at each word. -/
theorem encodedWords : Obligations.EncodedWords := by
  unfold Obligations.EncodedWords
  exact fun u => ⟨rfl, rfl, rfl, rfl, rfl⟩

end Sys2Proof.Machine
end

section
namespace Sys2Proof.Machine

-- Proved in parallel, these proofs hold a thread each, whose stacks pass the check's memory.
set_option Elab.async false

/-! ## Scalars, predicates and branches -/

/-- Settles O1: every row of `scalarValue` is one issue with one write. -/
theorem scalarResults : Obligations.ScalarResults := by
  unfold Obligations.ScalarResults
  intro i u rd f s hi hs
  obtain ⟨hf, lat, hrun⟩ := putsScalar_of_scalarValue hi
  obtain ⟨g, -, he⟩ := hrun.next
  refine ⟨_, he s hs, ?_⟩
  rw [hf.afterIssue]
  exact wroteScalar_afterIssue (State.canIssue_count hs) ..

theorem PutsPredicate.of_predOp {i : Instr} {u : StId} {pd : PReg} {srcs : List PReg} {f k : Stitcher → BitVec 64}
    (he : ∀ s, exec i s = s.predOp u i pd srcs k) (hv : ∀ x, f x = k x) (hk : ReadsRegs k) : PutsPredicate i u pd f := by
  obtain rfl : f = k := funext hv
  exact ⟨hk, 1, _, rfl, he⟩

/-- The operations on predicates beside the compares. -/
theorem putsPredicate_of_predicateValue {i : Instr} {u : StId} {pd : PReg} {f : Stitcher → BitVec 64}
    (h : predicateValue i = some (u, pd, f)) : PutsPredicate i u pd f := by
  by_cases hc : scalarCompare i = true
  · exact (putsBit_of_scalarCompare h hc).1
  unfold predicateValue at h
  split at h <;> cases h
  iterate 14 exact absurd rfl hc
  · apply PutsPredicate.of_predOp; exacts [fun s => show execPand _ _ _ _ s = _ from rfl, fun _ => rfl, fun _ => rfl]
  · apply PutsPredicate.of_predOp; exacts [fun s => show execPor _ _ _ _ s = _ from rfl, fun _ => rfl, fun _ => rfl]
  · apply PutsPredicate.of_predOp; exacts [fun s => show execPnot _ _ _ s = _ from rfl, fun _ => rfl, fun _ => rfl]
  · apply PutsPredicate.of_predOp
    exacts [fun s => show execPany _ _ _ s = _ from rfl, fun _ => congrArg allBits (by simp [bne, beq_eq_decide]), fun _ => rfl]
  · apply PutsPredicate.of_predOp
    exacts [fun s => show execPall _ _ _ s = _ from rfl, fun _ => congrArg allBits (beq_eq_decide ..).symm, fun _ => rfl]

/-- Settles O2. -/
theorem predicateResults : Obligations.PredicateResults := by
  unfold Obligations.PredicateResults
  intro i u pd f s hi hs
  obtain ⟨hf, lat, hrun⟩ := putsPredicate_of_predicateValue hi
  obtain ⟨g, -, he⟩ := hrun.next
  refine ⟨_, he s hs, ?_⟩
  rw [hf.afterIssue]
  exact wrotePredicate_afterIssue (State.canIssue_count hs) ..

end Sys2Proof.Machine
end

section
namespace Sys2Proof.Machine

-- Proved in parallel, these proofs hold a thread each, whose stacks pass the check's memory.
set_option Elab.async false

/-! ## Branches (04_stitchers.md R89, Table 6) -/

theorem State.jumpIf_rest (s : State) (u : StId) (t target : Nat) (c : Bool) :
    { s.jumpIf u t target c with stitchers := s.stitchers } = s := by
  cases c <;> rfl

theorem State.jumpIf_st_ne (s : State) {u v : StId} (t target : Nat) (c : Bool) (h : v ≠ u) :
    (s.jumpIf u t target c).st v = s.st v := by
  cases c
  · rfl
  · rw [State.jumpIf, if_pos rfl, State.jump, State.st_updSt_ne _ _ h]

theorem State.jumpIf_st (s : State) (u : StId) (t target : Nat) (c : Bool) :
    (s.jumpIf u t target c).st u = if c then { s.st u with pc := target, nextAt := t + 2 } else s.st u := by
  cases c
  · rfl
  · rw [State.jumpIf, if_pos rfl, State.jump, State.st_updSt_same, if_pos rfl]

/-- The scalar register that a branch counts down, with its new value: LOOP's where its guard holds. -/
def loopWrite (x : Stitcher) : Instr → Option (SReg × BitVec 32)
  | .loop _ pg pn rs _ => if (x.p pg).getLsbD 0 != pn then some (rs, x.s rs - 1) else none
  | _ => none

/-- The work of a branch at its position: the count of LOOP, then the jump where it is taken. -/
def State.branchWork (s : State) (u : StId) (t target : Nat) (c : Bool) (w : Option (SReg × BitVec 32)) : State :=
  match w with
  | some (r, v) => (s.putS u r v (t + 1)).jumpIf u t target c
  | none => s.jumpIf u t target c

theorem State.branchWork_rest (s : State) (u : StId) (t target : Nat) (c : Bool) (w : Option (SReg × BitVec 32)) :
    { s.branchWork u t target c w with stitchers := s.stitchers } = s := by
  cases w with
  | none => exact s.jumpIf_rest u t target c
  | some w => exact (congrArg (fun x : State => { x with stitchers := s.stitchers }) (State.jumpIf_rest ..)).trans (s.putS_rest ..)

theorem State.branchWork_st_ne (s : State) {u v : StId} (t target : Nat) (c : Bool) (w : Option (SReg × BitVec 32))
    (h : v ≠ u) : (s.branchWork u t target c w).st v = s.st v := by
  cases w with
  | none => exact s.jumpIf_st_ne t target c h
  | some w => exact (State.jumpIf_st_ne _ t target c h).trans (s.putS_ne _ _ _ h)

/-- Every branch that may issue does the work of one. -/
theorem exec_branch {i : Instr} {u : StId} {off : BitVec 11} {s : State} (h : branchOf i = some (u, off))
    (hs : s.canIssue u i = true) :
    ∃ g, exec i s = .next ((s.afterIssue u g).branchWork u ((s.st u).issueAt g) (branchTo (s.st u).pc off)
      (taken (s.st u) i) (loopWrite (s.st u) i)) := by
  have differ : ∀ a b : BitVec 32, (a != b) = decide (a ≠ b) := fun a b => by rw [bne, beq_eq_decide, decide_not]
  unfold branchOf at h
  split at h <;> cases h
  · next pg pn =>
    refine ⟨{ srcs := [pK pg] }, (State.issue_next hs rfl _ : execBr _ _ _ _ s = _).trans ?_⟩
    rw [← State.afterIssue, guardOk_afterIssue]
    rfl
  · next pg pn rs =>
    refine ⟨{ srcs := [pK pg, sK rs] }, (State.issue_next hs rfl _ : execBrZ _ _ _ _ _ s = _).trans ?_⟩
    rw [← State.afterIssue, guardOk_afterIssue, afterIssue_s, beq_eq_decide]
    rfl
  · next pg pn rs =>
    refine ⟨{ srcs := [pK pg, sK rs] }, (State.issue_next hs rfl _ : execBrNz _ _ _ _ _ s = _).trans ?_⟩
    rw [← State.afterIssue, guardOk_afterIssue, afterIssue_s, differ]
    rfl
  · next pg pn rs =>
    refine ⟨{ srcs := [pK pg, sK rs] }, (State.issue_next hs rfl _ : execLoop _ _ _ _ _ s = _).trans ?_⟩
    rw [← State.afterIssue, guardOk_afterIssue, afterIssue_s]
    dsimp only
    rw [differ]
    unfold loopWrite taken
    dsimp only
    cases ((s.st u).p pg).getLsbD 0 != pn <;> rfl

/-- What a branch leaves of its stitcher. -/
theorem branchWork_st (s : State) (u : StId) (g : Gate) (t target : Nat) (c : Bool) (w : Option (SReg × BitVec 32)) :
    let x := ((s.afterIssue u g).branchWork u t target c w).st u
    x.pc = (if c then target else ((s.st u).pc + 1) % 1024) ∧
      { x.issueOf (s.st u) with sreg := (s.st u).sreg } = s.st u ∧
      ∀ r, x.s r = match w with
        | some (q, v) => if r = q ∧ q ≠ 0 then v else (s.st u).s r
        | none => (s.st u).s r := by
  cases w with
  | none =>
    simp only [State.branchWork, State.jumpIf_st, State.afterIssue_st]
    cases c <;> exact ⟨rfl, rfl, fun _ => rfl⟩
  | some w =>
    obtain ⟨q, v⟩ := w
    have hs := fun r => (s.afterIssue u g).putS_s u q r v (t + 1)
    simp only [afterIssue_s] at hs
    have hpc : ((s.afterIssue u g).putS u q v (t + 1)).st u =
        { (s.afterIssue u g).st u with sreg := (((s.afterIssue u g).putS u q v (t + 1)).st u).sreg,
                                       score := (((s.afterIssue u g).putS u q v (t + 1)).st u).score,
                                       doneAt := (((s.afterIssue u g).putS u q v (t + 1)).st u).doneAt } := by
      unfold State.putS
      split
      · rfl
      · rw [State.st_updSt_same, Stitcher.setS, if_neg ‹_›]
        rfl
    simp only [State.branchWork, State.jumpIf_st]
    rw [hpc, State.afterIssue_st] at hs ⊢
    cases c <;> exact ⟨rfl, rfl, hs⟩

/-- Settles O4. -/
theorem branchResults : Obligations.BranchResults := by
  unfold Obligations.BranchResults
  intro i u off s hi hs _
  obtain ⟨g, he⟩ := exec_branch hi hs
  obtain ⟨ho, hc⟩ := issue_frame (State.canIssue_count hs) (State.branchWork_rest (s.afterIssue u g) u
    ((s.st u).issueAt g) (branchTo (s.st u).pc off) (taken (s.st u) i) (loopWrite (s.st u) i))
    fun v hv => State.branchWork_st_ne _ _ _ _ _ hv
  obtain ⟨hpc, hrest, hreg⟩ := branchWork_st s u g ((s.st u).issueAt g) (branchTo (s.st u).pc off) (taken (s.st u) i)
    (loopWrite (s.st u) i)
  refine ⟨_, he, ho, hc, ?_, hrest, fun r => (hreg r).trans ?_⟩
  · rw [hpc, apply_ite (Nat.cast : Nat → Int), branchTo_eq]
    push_cast
    rfl
  · unfold branchOf at hi
    split at hi <;> cases hi
    iterate 3 rfl
    unfold loopWrite
    dsimp only
    rename_i pg pn rs
    by_cases hg : ((s.st u).p pg).getLsbD 0 = pn
    · rw [if_neg (fun h => bne_iff_ne.mp h hg), if_neg (fun h => h.2.2 hg)]
    · rw [if_pos (bne_iff_ne.mpr hg)]
      exact if_congr (by rw [and_iff_left hg]) rfl rfl

end Sys2Proof.Machine
end

section
namespace Sys2Proof.Machine

-- Proved in parallel, these proofs hold a thread each, whose stacks pass the check's memory.
set_option Elab.async false

/-! ## Loads and stores of a leaf whose class bits the issue itself moves

As for `CollationCodes`: the class register of band 27712 is the word of `ST_PC` of stitcher 0. -/

/-- VLD of the 64 bytes at `aliasAddr`, into v1. -/
def aliasLoad : Instr := .vld aliasUnit 1 1 .leaf 0

/-- `aliasState` with `aliasLoad` as the next instruction, and a leaf whose block at `aliasAddr` begins with a byte 1. -/
def aliasLoadState : State :=
  (aliasState.updQu 0 fun x => { x with leaf := [(aliasAddr.toNat, 1)] }).updSt aliasUnit fun x =>
    { x with prog := [(0, (encode aliasLoad).getD 0)] }

theorem aliasLoadState_canIssue : aliasLoadState.canIssue aliasUnit aliasLoad = true := by decide +kernel

theorem aliasLoadState_loadable :
    loadable aliasLoadState aliasUnit .leaf (memAddr (aliasLoadState.st aliasUnit) 1 0 64) 64 := by decide +kernel

theorem aliasLoadState_value :
    spaceValue aliasLoadState aliasUnit .leaf (memAddr (aliasLoadState.st aliasUnit) 1 0 64) 64 = 1 := by decide +kernel

/-- The issue moves the class bit, so the read meets the word beyond correction and is poisoned. -/
theorem aliasLoad_result :
    (match exec aliasLoad aliasLoadState with | .next t => (t.st aliasUnit).v 1 | _ => 1) = 0 := by decide +kernel

/-- Refutes O5: a VLD from the leaf whose own issue changes the class of the band it reads. Its bytes are readable before
the issue; after it the codes stand over 8 bytes, one of them is beyond correction, and the vector becomes zero. -/
theorem not_loadResults : ¬ Obligations.LoadResults := by
  rintro ⟨-, vload⟩
  obtain ⟨t, ht, -, -, -, -, hv, -⟩ := vload aliasUnit 1 1 .leaf 0 aliasLoadState aliasLoadState_canIssue
    aliasLoadState_loadable
  have hzero : (t.st aliasUnit).v 1 = 0 := by
    have h := aliasLoad_result
    rwa [show exec aliasLoad aliasLoadState = .next t from ht] at h
  rw [aliasLoadState_value] at hv
  have hbit := congrArg (BitVec.getLsbD · 0) (hzero.symm.trans hv)
  simp at hbit

/-- ST.W of s1 to the word at `aliasAddr` + 8. -/
def aliasStore : Instr := .stW aliasUnit 1 1 .leaf 2

/-- `aliasState` with `aliasStore` as the next instruction. -/
def aliasStoreState : State :=
  aliasState.updSt aliasUnit fun x => { x with prog := [(0, (encode aliasStore).getD 0)] }

theorem aliasStoreState_addr : memAddr (aliasStoreState.st aliasUnit) 1 2 4 = 3632267272 := by decide +kernel

theorem aliasStoreState_canIssue : aliasStoreState.canIssue aliasUnit aliasStore = true := by decide +kernel

theorem aliasStoreState_loadable :
    loadable aliasStoreState aliasUnit .leaf (memAddr (aliasStoreState.st aliasUnit) 1 2 4) 4 := by decide +kernel

theorem aliasStoreState_room : aliasStoreState.fwdFull 0 (memAddr (aliasStoreState.st aliasUnit) 1 2 4) 4 = false := by
  decide +kernel

theorem aliasStoreState_byte : BitVec.ofNat 8 (((aliasStoreState.st aliasUnit).s 1).toNat / 256 ^ 3) = 0xD8#8 := by
  decide +kernel

/-- The issue moves the class bit, so the merge meets the word beyond correction and the write is dropped. -/
theorem aliasStore_result :
    (match exec aliasStore aliasStoreState with | .next t => spaceByte t aliasUnit .leaf 3632267275 | _ => 1) = 0 := by
  decide +kernel

/-- Refutes O6: a store to the leaf whose own issue changes the class of the band it writes. The word is without error
before the issue; after it the code over its 8 bytes is one beyond correction, and the merge drops the write. -/
theorem not_storeResults : ¬ Obligations.StoreResults := by
  intro store
  obtain ⟨t, ht, -, hb, -⟩ := store aliasStore aliasUnit 1 .leaf 2 4 (fun x => (x.s 1).toNat) aliasStoreState rfl
    aliasStoreState_canIssue aliasStoreState_loadable fun _ => aliasStoreState_room
  have hzero : spaceByte t aliasUnit .leaf 3632267275 = 0 := by
    have h := aliasStore_result
    rwa [show exec aliasStore aliasStoreState = .next t from ht] at h
  have hbyte := hb 3632267275
  rw [aliasStoreState_addr, if_pos (by decide), aliasStoreState_byte] at hbyte
  exact absurd (hzero.symm.trans hbyte) (by decide)

end Sys2Proof.Machine
end

section
namespace Sys2Proof.Machine

-- Proved in parallel, these proofs hold a thread each, whose stacks pass the check's memory.
set_option Elab.async false

/-! ## Vector shifts and lane moves (04_stitchers.md R89, Table 6) -/

/-- Nothing that is said of a write of a vector register speaks of the count of free values. -/
theorem WroteVector.freeCount {u : StId} {vd : VReg} {s t : State}
    (h : WroteVector u vd s t) : WroteVector u vd s { t with freeCount := s.freeCount } := by
  obtain ⟨⟨hb, hst, hrd⟩, hc, ha, hv, hx⟩ := h
  exact ⟨⟨(congrArg (fun x : State => { x with freeCount := s.freeCount }) hb :), hst, hrd⟩, hc, ha, hv, hx⟩

theorem WroteScalar.freeCount {u : StId} {rd : SReg} {v : BitVec 32} {s t : State}
    (h : WroteScalar u rd v s t) :
    WroteScalar u rd v s { t with freeCount := s.freeCount } := by
  obtain ⟨⟨hb, hst, hrd⟩, hc, ha, hv, hx⟩ := h
  exact ⟨⟨(congrArg (fun x : State => { x with freeCount := s.freeCount }) hb :), hst, hrd⟩, hc, ha, hv, hx⟩

theorem afterIssue_v (s : State) (u : StId) (g : Gate) (r : VReg) : ((s.afterIssue u g).st u).v r = (s.st u).v r := by
  rw [State.afterIssue_st]
  rfl

theorem afterIssue_p (s : State) (u : StId) (g : Gate) (r : PReg) : ((s.afterIssue u g).st u).p r = (s.st u).p r := by
  rw [State.afterIssue_st]
  rfl

theorem laneAt_lt (v : BitVec 512) (w i : Nat) : laneAt v w i < 2 ^ w := Nat.mod_lt _ (Nat.two_pow_pos w)

/-- A use of the model's free values shows only in their count. -/
theorem State.putV_useFree (s : State) (u : StId) (r : VReg) (v : BitVec 512) (at_ n : Nat) :
    { s.useFree.putV u r v at_ with freeCount := n } = { s.putV u r v at_ with freeCount := n } := (rfl)

theorem State.putS_useFree (s : State) (u : StId) (r : SReg) (v : BitVec 32) (at_ n : Nat) :
    { s.useFree.putS u r v at_ with freeCount := n } = { s.putS u r v at_ with freeCount := n } := by
  unfold State.putS
  split <;> rfl

/-- An issued instruction that wrote a vector register, of a value that may have taken the model's free ones. -/
theorem wroteVector_useFree {s : State} {u : StId} {g : Gate} (hc : s.f (sb u) F.ST_PC_count < 256) (vd : VReg)
    (v : BitVec 512) (at_ : Nat) (c : Prop) [Decidable c] : WroteVector u vd s
      { (if c then s.afterIssue u g else (s.afterIssue u g).useFree).putV u vd v at_ with freeCount := s.freeCount } := by
  have wrote := (wroteVector_afterIssue (g := g) hc vd v at_).freeCount
  by_cases h : c
  · rw [if_pos h]
    exact wrote
  · rw [if_neg h, State.putV_useFree]
    exact wrote

theorem wroteScalar_useFree {s : State} {u : StId} {g : Gate} (hc : s.f (sb u) F.ST_PC_count < 256) (rd : SReg)
    (v : BitVec 32) (at_ : Nat) (c : Prop) [Decidable c] : WroteScalar u rd v s
      { (if c then s.afterIssue u g else (s.afterIssue u g).useFree).putS u rd v at_ with freeCount := s.freeCount } := by
  have wrote := (wroteScalar_afterIssue (g := g) hc rd v at_).freeCount
  by_cases h : c
  · rw [if_pos h]
    exact wrote
  · rw [if_neg h, State.putS_useFree]
    exact wrote

/-- A vector shift writes under its guard the lanes shifted by amounts below the lane's width. -/
theorem vecShift_lanes {s : State} {u : StId} {i : Instr} {vd va vb : VReg} {pg : PReg} {pn : Bool} {ty : LaneTy}
    (hs : s.canIssue u i = true) (f : Nat → Nat → Nat) :
    ∃ t, s.vecShift u i vd va vb pg pn ty f = .next t ∧ WroteVector u vd s { t with freeCount := s.freeCount } ∧
      ∀ k, k < ty.lanes →
        (((s.st u).p pg).getLsbD (ty.bytes * k) = pn → lane ty ((t.st u).v vd) k = lane ty ((s.st u).v vd) k) ∧
        (((s.st u).p pg).getLsbD (ty.bytes * k) ≠ pn → lane ty ((s.st u).v vb) k < ty.width →
          lane ty ((t.st u).v vd) k = f (lane ty ((s.st u).v va) k) (lane ty ((s.st u).v vb) k) % 2 ^ ty.width) := by
  have run : s.vecShift u i vd va vb pg pn ty f = _ := State.issue_next hs rfl _
  rw [← State.afterIssue] at run
  refine ⟨_, run, wroteVector_useFree (State.canIssue_count hs) .., fun k hk => ⟨fun hg => ?_, fun hg hn => ?_⟩⟩
  · rw [State.putLanes, State.putV_v, if_pos rfl, lane, laneAt_guarded _ _ _ _ _ _ hk, governs_eq_bne, afterIssue_p, hg,
      bne_self_eq_false, if_neg Bool.false_ne_true, afterIssue_v, lane]
  · rw [State.putLanes, State.putV_v, if_pos rfl, lane, laneAt_guarded _ _ _ _ _ _ hk, governs_eq_bne, afterIssue_p,
      if_pos (bne_iff_ne.mpr hg)]
    simp only [afterIssue_v]
    rw [if_pos (show laneAt _ _ _ < _ from hn)]
    rfl

theorem intVal_intCode {w : Nat} (hw : 0 < w) {x : Int} (hlo : -2 ^ (w - 1) ≤ x) (hhi : x < 2 ^ (w - 1)) :
    intVal w (intCode w x) = x := by
  obtain ⟨m, rfl⟩ : ∃ m, w = m + 1 := ⟨w - 1, by omega⟩
  have half : (2 : Int) ^ (m + 1) = 2 ^ m + 2 ^ m := by ring
  have pos : (0 : Int) < 2 ^ m := by positivity
  simp only [Nat.add_sub_cancel] at hlo hhi ⊢
  have hmod : ((x % 2 ^ (m + 1)).toNat : Int) = x % 2 ^ (m + 1) := Int.toNat_of_nonneg (Int.emod_nonneg _ (by omega))
  have hlt : x % 2 ^ (m + 1) < 2 ^ (m + 1) := Int.emod_lt_of_pos _ (by omega)
  have hcode : (x % 2 ^ (m + 1)).toNat % 2 ^ (m + 1) = (x % 2 ^ (m + 1)).toNat :=
    Nat.mod_eq_of_lt (by zify; rw [hmod]; exact_mod_cast hlt)
  unfold intVal intCode
  dsimp only
  rw [hcode, Nat.add_sub_cancel]
  by_cases hx : 0 ≤ x
  · have hxm : x % 2 ^ (m + 1) = x := Int.emod_eq_of_lt hx (by omega)
    rw [if_neg (by zify; rw [hmod, hxm]; omega), hmod, hxm]
  · have hxm : x % 2 ^ (m + 1) = x + 2 ^ (m + 1) := by
      rw [← Int.add_emod_right, Int.emod_eq_of_lt (by omega) (by omega)]
    rw [if_pos (by zify; rw [hmod, hxm]; omega), hmod, hxm]
    omega

theorem intVal_bounds {w : Nat} (hw : 0 < w) (c : Nat) : -2 ^ (w - 1) ≤ intVal w c ∧ intVal w c < 2 ^ (w - 1) := by
  obtain ⟨m, rfl⟩ : ∃ m, w = m + 1 := ⟨w - 1, by omega⟩
  have half : (2 : Nat) ^ (m + 1) = 2 ^ m + 2 ^ m := by ring
  have hc : c % 2 ^ (m + 1) < 2 ^ (m + 1) := Nat.mod_lt _ (Nat.two_pow_pos _)
  unfold intVal
  dsimp only
  rw [Nat.add_sub_cancel]
  split
  all_goals
    zify at *
    constructor <;> omega

/-- An arithmetic shift of a value stays within its width. -/
theorem shifted_bounds {x b : Int} (hb : 0 < b) (hlo : -b ≤ x) (hhi : x < b) (n : Nat) : -b ≤ x / 2 ^ n ∧ x / 2 ^ n < b := by
  have pos : (1 : Int) ≤ 2 ^ n := by exact_mod_cast Nat.one_le_two_pow
  constructor
  · rw [Int.le_ediv_iff_mul_le (by omega)]
    nlinarith
  · rw [Int.ediv_lt_iff_lt_mul (by omega)]
    nlinarith

theorem vsra_value {w n : Nat} (hw : 0 < w) (c : Nat) :
    intVal w (intCode w (intVal w c / 2 ^ n) % 2 ^ w) = intVal w c / 2 ^ n := by
  obtain ⟨hlo, hhi⟩ := intVal_bounds hw c
  obtain ⟨h1, h2⟩ := shifted_bounds (by positivity) hlo hhi n
  have code : intVal w (intCode w (intVal w c / 2 ^ n) % 2 ^ w) = intVal w (intCode w (intVal w c / 2 ^ n)) := by
    unfold intVal
    rw [Nat.mod_mod]
  rw [code, intVal_intCode hw h1 h2]

theorem width_mul_lanes (ty : LaneTy) : ty.width * ty.lanes = 512 := by cases ty <;> rfl

/-- The lanes of a vector packed from one value for each lane. -/
theorem lane_packVec (ty : LaneTy) (f : Nat → Nat) {k : Nat} (hk : k < ty.lanes) :
    lane ty (packVec ty.width ((List.range ty.lanes).map f)) k = f k % 2 ^ ty.width := by
  rw [lane, laneAt_packVec _ _ _ (by rw [List.length_map, List.length_range, width_mul_lanes]), List.getD_eq_getElem?_getD,
    List.getElem?_map, List.getElem?_range hk]
  rfl

/-- The bits above a lane of a scalar do not change the lane. -/
theorem vext_value {w v : Nat} (hv : v < 2 ^ w) (x : BitVec 32) (hw : w ≤ 32) :
    (BitVec.ofNat 32 (v + x.toNat / 2 ^ w * 2 ^ w)).toNat % 2 ^ w = v := by
  rw [BitVec.toNat_ofNat, Nat.mod_mod_of_dvd _ (Nat.pow_dvd_pow 2 hw), Nat.add_mul_mod_self_right, Nat.mod_eq_of_lt hv]

/-- Settles O7. -/
theorem vectorMoves : Obligations.VectorMoves := by
  unfold Obligations.VectorMoves
  refine ⟨⟨?vshl, ?vsra⟩, ?vsel, ?vbcast, ?vins, ?vext⟩
  case vshl =>
    intro u vd va vb pg pn ty s hs
    exact vecShift_lanes hs fun a n => a * 2 ^ n
  case vsra =>
    intro u vd va vb pg pn ty s hs
    obtain ⟨t, he, hw, hl⟩ := vecShift_lanes (vd := vd) (va := va) (vb := vb) (pg := pg) (pn := pn) (ty := ty.lane) hs
      fun a n => intCode ty.lane.width (intVal ty.lane.width a / 2 ^ n)
    refine ⟨t, he, hw, fun k hk => ⟨(hl k hk).1, fun hg hn => ?_⟩⟩
    rw [(hl k hk).2 hg hn]
    exact vsra_value (by cases ty <;> decide) _
  case vsel =>
    intro u vd va vb pg pn ty s hs
    have run : execVsel u vd va vb pg pn ty s = _ := State.issue_next hs rfl _
    rw [← State.afterIssue] at run
    refine ⟨_, run, wroteVector_afterIssue (State.canIssue_count hs) .., fun k hk => ?_⟩
    rw [State.putV_v, if_pos rfl, lane, laneAt_guarded _ _ _ _ _ _ hk, governs_eq_bne, afterIssue_p, afterIssue_v,
      afterIssue_v, Nat.mod_eq_of_lt (laneAt_lt ..)]
    rfl
  case vbcast =>
    intro u vd rs ty s hs
    have run : execVbcast u vd rs ty s = _ := State.issue_next hs rfl _
    rw [← State.afterIssue] at run
    refine ⟨_, run, wroteVector_afterIssue (State.canIssue_count hs) .., fun k hk => ?_⟩
    rw [State.putV_v, if_pos rfl, afterIssue_s, ← List.length_range (n := ty.lanes), ← List.map_const', lane_packVec ty _ hk]
  case vins =>
    intro u vd rs n ty s hs hn
    have run : execVins u vd rs n ty s = _ := State.issue_next hs rfl _
    rw [← State.afterIssue] at run
    simp only [if_pos hn] at run
    refine ⟨_, run, wroteVector_afterIssue (State.canIssue_count hs) .., fun k hk => ?_⟩
    rw [State.putLanes, State.putV_v, if_pos rfl, lane_packVec ty _ hk, afterIssue_s, afterIssue_v]
    split
    · rfl
    · exact Nat.mod_eq_of_lt (laneAt_lt ..)
  case vext =>
    intro u va rs n ty s hs hn
    have run : execVext u va rs n ty s = _ := State.issue_next hs rfl _
    rw [← State.afterIssue] at run
    refine ⟨_, _, run, wroteScalar_useFree (State.canIssue_count hs) .., ?_⟩
    rw [if_pos hn, afterIssue_v]
    exact vext_value (laneAt_lt ..) _ (by cases ty <;> decide)

end Sys2Proof.Machine
end

section
namespace Sys2Proof.Machine

-- Proved in parallel, these proofs hold a thread each, whose stacks pass the check's memory.
set_option Elab.async false

/-! ## What a command keeps: the rest of the queue, and the canonical form of the memories that hosts read

`State.host` is what a step leaves alone but where the meaning of a command writes it. A function of the model that writes
none of it has a lemma `host_<name>`: its result has the same `host`. One that may write partition memory, a control page or
a command area has a lemma `kept_<name>`: it keeps `Kept`, the queue and the canonical form; the lemma of a command also
says that it answers a next state. -/

/-- The queue of commands and the memories that hosts read. -/
abbrev HostView := List Instr × Sparse (BitVec 8) × Sparse (BitVec 8) × Sparse (BitVec 8)

def State.host (s : State) : HostView := (s.pending, s.mem, s.ctlPage, s.cmdArea)

/-- The queue is `ks`, and where `mp` holds the memories that hosts read are in canonical form. -/
def Kept (ks : List Instr) (mp : Prop) (h : HostView) : Prop :=
  h.1 = ks ∧ (mp → spWf 0 h.2.1 = true ∧ spWf 0 h.2.2.1 = true ∧ spWf 0 h.2.2.2 = true)

/-- An outcome that is a next state which keeps the queue and the canonical form. -/
def KeptOut (ks : List Instr) (mp : Prop) (o : Out) : Prop := ∃ t, o = .next t ∧ Kept ks mp t.host

variable {ks : List Instr} {mp : Prop}

theorem State.host_mk {s : State} {now timeBase freeCount : Nat} {regs latches stitchers quires parts flights creditFlights
    srcs memMark triggers trackers charges mgn dramFixes sparesUsed remaps notices comps bar2 msix extents filter snoops
    readWait hostData links spine spNext regAns halfChg thermal staging stageLostAt stageLostN recNext mapCopies mapBefore runs
    tested pulseEnd ioNext tickIn stew} :
    State.host ⟨s.pending, now, timeBase, freeCount, regs, latches, stitchers, quires, parts, flights, creditFlights, srcs,
      s.mem, memMark, triggers, trackers, charges, mgn, dramFixes, sparesUsed, remaps, notices, comps, s.ctlPage, s.cmdArea,
      bar2, msix, extents, filter, snoops, readWait, hostData, links, spine, spNext, regAns, halfChg, thermal, staging,
      stageLostAt, stageLostN, recNext, mapCopies, mapBefore, runs, tested, pulseEnd, ioNext, tickIn, stew⟩ = s.host := (rfl)

theorem State.host_ite {c : Prop} [Decidable c] {a b : State} :
    State.host (if c then a else b) = if c then a.host else b.host := by
  split <;> rfl

theorem State.host_fst_ite {α : Type} {c : Prop} [Decidable c] {a b : State × α} :
    State.host (if c then a else b).1 = if c then a.1.host else b.1.host := by
  split <;> rfl

theorem kept_ite {c : Prop} [Decidable c] {a b : HostView} :
    Kept ks mp (if c then a else b) ↔ if c then Kept ks mp a else Kept ks mp b := by
  split <;> rfl

theorem keptOut_next {s : State} : KeptOut ks mp (.next s) ↔ Kept ks mp s.host :=
  ⟨fun ⟨_, e, h⟩ => by cases e; exact h, fun h => ⟨s, rfl, h⟩⟩

theorem keptOut_ite {c : Prop} [Decidable c] {a b : Out} :
    KeptOut ks mp (if c then a else b) ↔ if c then KeptOut ks mp a else KeptOut ks mp b := by
  split <;> rfl

theorem keptOut_when {c : Bool} {s t : State} :
    KeptOut ks mp (when_ c s t) ↔ if c = true then Kept ks mp t.host else Kept ks mp s.host := by
  rw [when_, keptOut_ite, keptOut_next, keptOut_next]

theorem kept_outState {s : State} {o : Out} (h : KeptOut ks mp o) : Kept ks mp (outState s o).host := by
  obtain ⟨t, rfl, ht⟩ := h
  exact ht

/-- A fold keeps what its step keeps, of whatever carries the state. -/
theorem host_foldl_of {α β : Type} (v : β → State) {g : β → α → β} {x : β} (step : ∀ x a, (v (g x a)).host = (v x).host)
    (xs : List α) : (v (xs.foldl g x)).host = (v x).host := by
  induction xs generalizing x with
  | nil => rfl
  | cons a xs ih => exact (ih ..).trans (step x a)

theorem State.host_foldl {α : Type} {g : State → α → State} {s : State} (step : ∀ s a, (g s a).host = s.host)
    (xs : List α) : (xs.foldl g s).host = s.host := host_foldl_of id step xs

theorem State.host_fst_foldl {α β : Type} {g : State × β → α → State × β} {x : State × β}
    (step : ∀ x a, (g x a).1.host = x.1.host) (xs : List α) : (xs.foldl g x).1.host = x.1.host :=
  host_foldl_of Prod.fst step xs

theorem kept_foldl_of {α β : Type} (v : β → State) {g : β → α → β} {x : β}
    (step : ∀ x a, Kept ks mp (v x).host → Kept ks mp (v (g x a)).host) (xs : List α) (h : Kept ks mp (v x).host) :
    Kept ks mp (v (xs.foldl g x)).host := by
  induction xs generalizing x with
  | nil => exact h
  | cons a xs ih => exact ih (step x a h)

theorem State.kept_foldl {α : Type} {g : State → α → State} {s : State}
    (step : ∀ s a, Kept ks mp s.host → Kept ks mp (g s a).host) (xs : List α) (h : Kept ks mp s.host) :
    Kept ks mp (xs.foldl g s).host := kept_foldl_of id step xs h

theorem Kept.mem_of {s : State} {x : Sparse (BitVec 8)} (hk : Kept ks mp s.host) (h : spWf 0 s.mem = true → spWf 0 x = true)
    {y : Sparse Nat} : Kept ks mp ({ s with mem := x, memMark := y } : State).host := by
  obtain ⟨hp, hw⟩ := hk
  exact ⟨hp, fun hm => ⟨h (hw hm).1, (hw hm).2⟩⟩

theorem Kept.ctlPage_of {s : State} {x : Sparse (BitVec 8)} (hk : Kept ks mp s.host)
    (h : spWf 0 s.ctlPage = true → spWf 0 x = true) : Kept ks mp ({ s with ctlPage := x } : State).host := by
  obtain ⟨hp, hw⟩ := hk
  exact ⟨hp, fun hm => ⟨(hw hm).1, h (hw hm).2.1, (hw hm).2.2⟩⟩

theorem Kept.cmdArea_of {s : State} {x : Sparse (BitVec 8)} (hk : Kept ks mp s.host)
    (h : spWf 0 s.cmdArea = true → spWf 0 x = true) : Kept ks mp ({ s with cmdArea := x } : State).host := by
  obtain ⟨hp, hw⟩ := hk
  exact ⟨hp, fun hm => ⟨(hw hm).1, (hw hm).2.1, h (hw hm).2.2⟩⟩

theorem spWfFrom_filter {α : Type} [DecidableEq α] (d : α) (p : Nat × α → Bool) (x : Sparse α) (b : Nat)
    (h : spWfFrom d b x = true) : spWfFrom d b (x.filter p) = true := by
  induction x generalizing b with
  | nil => rfl
  | cons c x ih =>
    obtain ⟨k, v⟩ := c
    simp only [spWfFrom, Bool.and_eq_true, decide_eq_true_eq] at h
    obtain ⟨⟨hb, hv⟩, hx⟩ := h
    rw [List.filter_cons]
    split
    · simp only [spWfFrom, Bool.and_eq_true, decide_eq_true_eq]
      exact ⟨⟨hb, hv⟩, ih _ hx⟩
    · exact ih b (spWfFrom_mono d (by omega) x hx)

theorem spWf_filter {α : Type} [DecidableEq α] {d : α} (p : Nat × α → Bool) {x : Sparse α} (h : spWf d x = true) :
    spWf d (x.filter p) = true := spWfFrom_filter d p x 0 h

theorem spWf_foldl_spSet {α β : Type} [DecidableEq α] {d : α} (key : β → Nat) (val : β → α) (xs : List β) {x : Sparse α}
    (h : spWf d x = true) : spWf d (xs.foldl (fun a c => spSet d a (key c) (val c)) x) = true := by
  induction xs generalizing x with
  | nil => exact h
  | cons c xs ih => exact ih (spWf_spSet d x _ _ h)

/-! ### Of Machine/Regs.lean -/

theorem State.host_setSt (s : State) (u : StId) (x : Stitcher) : (s.setSt u x).host = s.host := (rfl)

theorem State.host_updSt (s : State) (u : StId) (f : Stitcher → Stitcher) : (s.updSt u f).host = s.host := (rfl)

theorem State.host_setQu (s : State) (q : QuireId) (x : Quire) : (s.setQu q x).host = s.host := (rfl)

theorem State.host_updQu (s : State) (q : QuireId) (f : Quire → Quire) : (s.updQu q f).host = s.host := (rfl)

theorem State.host_setPart (s : State) (p : PartId) (x : Part) : (s.setPart p x).host = s.host := (rfl)

theorem State.host_updPart (s : State) (p : PartId) (f : Part → Part) : (s.updPart p f).host = s.host := (rfl)

theorem State.host_setSrc (s : State) (x : Src) (v : SrcSt) : (s.setSrc x v).host = s.host := (rfl)

theorem State.host_updSrc (s : State) (x : Src) (f : SrcSt → SrcSt) : (s.updSrc x f).host = s.host := (rfl)

theorem State.host_wr (s : State) (base : Nat) (r : Reg) (v : BitVec 32) : (s.wr base r v).host = s.host := (rfl)

theorem State.host_setF (s : State) (base : Nat) (f : Fld) (v : Nat) : (s.setF base f v).host = s.host := (rfl)

theorem State.host_incF (s : State) (base : Nat) (f : Fld) (n : Nat) : (s.incF base f n).host = s.host := (rfl)

theorem State.host_setCnt (s : State) (base : Nat) (lo hi : Reg) (v : Nat) : (s.setCnt base lo hi v).host = s.host := (rfl)

theorem State.host_wrAddr (s : State) (a : RegAcc) (addr : Nat) (v : BitVec 32) : (s.wrAddr a addr v).host = s.host := (rfl)

theorem State.host_clearLatches (s : State) (lo hi : Nat) : (s.clearLatches lo hi).host = s.host := (rfl)

theorem State.host_clearRegs (s : State) (lo hi : Nat) : (s.clearRegs lo hi).host = s.host := (rfl)

theorem State.host_updTherm (s : State) (h : Half) (f : Thermal → Thermal) : (s.updTherm h f).host = s.host := by
  simp only [State.updTherm, State.host_mk]

theorem State.host_advPart (s : State) (n : Nat) (p : PartId) : (s.advPart n p).host = s.host := by
  simp only [State.advPart, State.host_ite, ite_self, State.host_updPart]

theorem State.host_advance (s : State) (n : Nat) : (s.advance n).host = s.host := by
  simp only [State.advance, State.host_mk, implies_true, State.host_foldl, State.host_advPart]

theorem State.host_waitCycle (s : State) (p : PartId) (c : Nat) : (s.waitCycle p c).host = s.host := by
  simp only [State.waitCycle, State.host_ite, ite_self, State.host_updPart, State.host_advance]

theorem State.host_waitNs (s : State) (t : Nat) : (s.waitNs t).host = s.host := by
  simp only [State.waitNs, State.host_ite, ite_self, State.host_advance]

theorem State.host_useFree (s : State)  : (s.useFree).host = s.host := (rfl)

/-! ### Of Machine/RegRead.lean -/

theorem State.host_readReg (s : State) (reader addr : Nat) : (s.readReg reader addr).1.host = s.host := by
  simp only [State.readReg, State.host_mk, State.host_fst_ite, ite_self]

/-! ### Of Machine/Ops.lean -/

theorem State.host_raise0 (s : State) (x : Src) (code sev : Nat) (cap : List Nat) :
    (s.raise0 x code sev cap).1.host = s.host := by
  unfold State.raise0
  split <;> simp only [State.host_fst_ite, ite_self, State.host_setSrc, State.host_incF]

theorem State.host_raise (s : State) (x : Src) (code sev : Nat) (cap : List Nat) :
    (s.raise x code sev cap).host = s.host := by
  simp only [State.raise, State.host_ite, ite_self, State.host_raise0]

theorem State.host_noteFeature (s : State) (p : PartId) (feature ld : Nat) :
    (s.noteFeature p feature ld).host = s.host := by
  simp only [State.noteFeature, State.host_raise]

theorem State.host_charge (s : State) (p : PartId) (unit : HwUnit) (code : Nat) (resolved : Bool) :
    (s.charge p unit code resolved).host = s.host := by
  simp only [State.charge, State.host_mk, State.host_ite, ite_self]

theorem State.host_failTick (s : State) (p : PartId) : (s.failTick p).host = s.host := by
  simp only [State.failTick, State.host_updPart]

theorem State.host_delayFrom (s : State) (q : QuireId) (pos n : Nat) : (s.delayFrom q pos n).host = s.host := by
  simp only [State.delayFrom, State.host_mk]

theorem State.host_pauseCorrection (s : State) (q : QuireId) (pos : Nat) : (s.pauseCorrection q pos).host = s.host := by
  simp only [State.pauseCorrection, State.host_ite, ite_self, State.host_updQu, State.host_delayFrom]

theorem State.host_pauseInherit (s : State) (q : QuireId) (pos n : Nat) : (s.pauseInherit q pos n).host = s.host := by
  simp only [State.pauseInherit, State.host_ite, ite_self, State.host_updQu, State.host_delayFrom]

theorem State.host_chargeStall (s : State) (u : StId) (old : Option Stall) (t : Nat) :
    (s.chargeStall u old t).host = s.host := by
  unfold State.chargeStall
  split <;> simp only [State.host_updQu]

theorem State.host_endRefusals (s : State) (q : QuireId) (toward : Nat → Bool) :
    (s.endRefusals q toward).host = s.host := by
  unfold State.endRefusals
  refine State.host_foldl (fun t a => ?_) _
  repeat' split
  all_goals simp only [State.host_updSt, State.host_chargeStall]

theorem State.host_pauseTransit (s : State) (q src : QuireId) (entry pos n cause : Nat) :
    (s.pauseTransit q src entry pos n cause).host = s.host := by
  simp only [State.pauseTransit, State.host_ite, ite_self, implies_true, State.host_foldl, State.host_updSt,
    State.host_updQu, State.host_raise]

theorem State.host_freeCredit (s : State) (q : QuireId) (pos : Nat) (o : Origin) (n : Nat) :
    (s.freeCredit q pos o n).host = s.host := by
  unfold State.freeCredit
  split <;> simp only [State.host_mk]

theorem State.host_freeCredits (s : State) (q : QuireId) (pos : Nat) (l : List (Origin × Nat)) :
    (s.freeCredits q pos l).host = s.host := by
  simp only [State.freeCredits, implies_true, State.host_foldl, State.host_freeCredit]

theorem State.host_orphan (s : State) (u : StId) (pos port tag : Nat) (o : Origin) :
    (s.orphan u pos port tag o).host = s.host := by
  simp only [State.orphan, State.host_updQu, State.host_incF, State.host_freeCredit]

theorem State.host_recordOrphans (s : State) (q : QuireId) : (s.recordOrphans q).host = s.host := by
  simp only [State.recordOrphans, State.host_ite, ite_self, State.host_setQu, State.host_incF, State.host_raise]

theorem State.host_lateOrphan (s : State) (q : QuireId) : (s.lateOrphan q).host = s.host := by
  simp only [State.lateOrphan, State.host_ite, ite_self, State.host_updQu, State.host_recordOrphans]

theorem State.host_dropToken (s : State) (u : StId) (pos : Nat) (t : Tok) (o : Origin) (cnt : Fld) (code : Nat)
    (extra : List Nat) (fails : Bool) :
    (s.dropToken u pos t o cnt code extra fails).host = s.host := by
  simp only [State.dropToken, State.host_ite, ite_self, State.host_incF, State.host_raise, State.host_charge,
    State.host_failTick, State.host_freeCredit]

theorem State.host_arriveToken (s : State) (u : StId) (t : Tok) (o : Origin) (pos : Nat) :
    (s.arriveToken u t o pos).host = s.host := by
  simp only [State.arriveToken, State.host_ite, ite_self, State.host_setSt, State.host_updSt, State.host_setF,
    State.host_incF, State.host_raise, State.host_failTick, State.host_freeCredit, State.host_orphan,
    State.host_lateOrphan, State.host_dropToken]

theorem State.host_internalToken (s : State) (u : StId) (port tag : Nat) (ctl : Bool) (data : BitVec 64) (pos : Nat) :
    (s.internalToken u port tag ctl data pos).host = s.host := by
  simp only [State.internalToken, State.host_arriveToken]

theorem State.host_logReset (s : State) (scope target : Nat) : (s.logReset scope target).host = s.host := (rfl)

theorem State.host_resetStitcher (s : State) (u : StId) (pos : Nat) : (s.resetStitcher u pos).host = s.host := by
  simp only [State.resetStitcher, State.host_setSt, State.host_incF, State.host_freeCredits, State.host_logReset]

theorem State.host_refund (s : State) (m : Flight) : (s.refund m).host = s.host := by
  unfold State.refund
  split <;> simp only [State.host_updQu, State.host_setF]

theorem State.host_discardOutbound (s : State) (q : QuireId) (pos : Nat) : (s.discardOutbound q pos).host = s.host := by
  unfold State.discardOutbound
  have held (t : State) (h : HeldOut) : (match h.msg with | .flight m => t.refund m | .fwd _ => t).host = t.host := by
    split
    · exact State.host_refund ..
    · rfl
  exact ((State.host_foldl held _).trans (State.host_foldl (fun _ _ => State.host_refund ..) _)).trans (by simp only
    [State.host_mk, State.host_setQu, State.host_updPart, State.host_incF])

theorem State.host_firingFault (s : State) (u : StId) (cause pos : Nat) (cap : List Nat) :
    (s.firingFault u cause pos cap).host = s.host := by
  simp only [State.firingFault, State.host_ite, ite_self, State.host_updSt, State.host_updQu, State.host_setF,
    State.host_incF, State.host_raise, State.host_charge, State.host_failTick, State.host_resetStitcher,
    State.host_discardOutbound]

/-! ### Of Machine/LeafStore.lean -/

theorem State.host_grant (s : State) (q : QuireId) (pos addr : Nat) : (s.grant q pos addr).1.host = s.host := by
  simp only [State.grant, State.host_setQu]

theorem State.host_pressGrant (s : State) (q : QuireId) (rank pos : Nat) (addrs : List Nat) :
    (s.pressGrant q rank pos addrs).1.host = s.host := by
  simp only [State.pressGrant, State.host_setQu]

theorem State.host_takeFree (s : State) (q : QuireId) (rank addr : Nat) : (s.takeFree q rank addr).host = s.host := by
  simp only [State.takeFree, State.host_ite, ite_self, State.host_updQu]

theorem State.host_holdBank (s : State) (q : QuireId) (sched : Option Nat) (addr : Nat) (merged fixed : Bool) :
    (s.holdBank q sched addr merged fixed).host = s.host := by
  simp only [State.holdBank, State.host_ite, ite_self, State.host_updQu]

theorem State.host_setTracker (s : State) (q : QuireId) (l : List Track) : (s.setTracker q l).host = s.host := (rfl)

theorem State.host_trackRow (s : State) (q : QuireId) (addr : Nat) : (s.trackRow q addr).host = s.host := by
  unfold State.trackRow
  simp only []
  split <;> simp only [State.host_ite, ite_self, State.host_incF, State.host_raise, State.host_setTracker]

theorem State.host_setMark (s : State) (q : QuireId) (a m : Nat) : (s.setMark q a m).host = s.host := (rfl)

theorem State.host_leafUncorr (s : State) (q : QuireId) (addr reader cause : Nat) :
    (s.leafUncorr q addr reader cause).host = s.host := by
  simp only [State.leafUncorr, State.host_ite, ite_self, State.host_incF, State.host_raise, State.host_charge]

theorem State.host_rowRead (s : State) (q : QuireId) (reader addr n : Nat) :
    (s.rowRead q reader addr n).state.host = s.host := by
  unfold State.rowRead
  split <;> simp only [State.host_ite, ite_self, State.host_incF, State.host_useFree, State.host_trackRow,
    State.host_leafUncorr]

theorem State.host_portAccess (s : State) (q : QuireId) (reader : Nat) (sched : Option Nat) (parts : List (Nat × Nat)) :
    (s.portAccess q reader sched parts).state.host = s.host := by
  unfold State.portAccess
  extract_lets +onlyGivenNames r s1 s2
  have kept0 : r.state.host = s.host := host_foldl_of LeafRead.state (fun r v => by exact State.host_rowRead ..) parts
  have kept1 : s1.host = s.host := by
    simp only [s1, State.host_ite, State.host_incF, kept0, ite_self]
  clear_value s1 r
  simp only [s2]
  split
  · simp only [State.host_ite, State.host_pauseCorrection, kept1, ite_self]
  · exact kept1

theorem State.host_leafRead (s : State) (q : QuireId) (addr n reader : Nat) (sched : Option Nat) :
    (s.leafRead q addr n reader sched).state.host = s.host := by
  simp only [State.leafRead, State.host_portAccess]

theorem State.host_leafReads (s : State) (q : QuireId) (reader : Nat) (l : List (Nat × Nat × Option Nat)) :
    (s.leafReads q reader l).state.host = s.host := by
  unfold State.leafReads
  exact host_foldl_of LeafRead.state (fun r v => by exact State.host_leafRead ..) l

theorem State.host_touchRow (s : State) (q : QuireId) (addr : Nat) : (s.touchRow q addr).host = s.host := by
  unfold State.touchRow
  have torn (t : State) (x : Quire) (posn i : Nat) : (match x.regions[i]? with
      | some (first, count) =>
        if count ≠ 0 ∧ first ≤ bandOf addr ∧ bandOf addr < first + count ∧ (first * 256 < posn ∨ x.scrubEnd) ∧
            x.regionTorn / 2 ^ i % 2 = 0 then
          (t.updQu q (fun y => { y with regionTorn := y.regionTorn + 2 ^ i })).raise (.quire q) Ev.SCRUB_TORN 0 [i, addr]
        else t
      | none => t).host = t.host := by
    split <;> simp only [State.host_ite, ite_self, State.host_updQu, State.host_raise]
  dsimp only
  split
  · exact (State.host_foldl (fun t i => torn t _ _ i) _).trans (State.host_updQu ..)
  · exact State.host_updQu ..

theorem State.host_holdWrite (s : State) (q : QuireId) (w : HeldWrite) : (s.holdWrite q w).host = s.host := by
  simp only [State.holdWrite, State.host_ite, ite_self, implies_true, State.host_foldl, State.host_setQu, State.host_setF]

theorem State.host_holdFilling (s : State) (q : QuireId) (addr : Nat) (bytes : List (BitVec 8)) (writer poison : Nat) :
    (s.holdFilling q addr bytes writer poison).host = s.host := by
  simp only [State.holdFilling, State.host_holdWrite]

theorem State.host_writeWord (s : State) (q : QuireId) (size a addr : Nat) (bytes : List (BitVec 8)) :
    (s.writeWord q size a addr bytes).state.host = s.host := by
  unfold State.writeWord
  simp only []
  repeat' split
  all_goals simp only [State.host_updQu, State.host_setMark]

theorem State.host_rowWrite (s : State) (q : QuireId) (addr : Nat) (bytes : List (BitVec 8)) (writer : Nat)
    (sched : Option Nat) :
    (s.rowWrite q addr bytes writer sched).1.host = s.host := by
  unfold State.rowWrite
  repeat' split
  all_goals simp only [State.host_ite, ite_self, implies_true, State.host_fst_foldl, State.host_incF, State.host_useFree,
    State.host_pauseCorrection, State.host_holdBank, State.host_trackRow, State.host_touchRow, State.host_holdFilling,
    State.host_writeWord]

theorem State.host_sendFwd (s : State) (q : QuireId) (w : Fwd) : (s.sendFwd q w).host = s.host := by
  simp only [State.sendFwd, State.host_ite, ite_self, State.host_setQu, State.host_setF, State.host_incF]

theorem State.host_forwardWrite (s : State) (q : QuireId) (addr : Nat) (bytes : List (BitVec 8)) (pos : Nat) :
    (s.forwardWrite q addr bytes pos).host = s.host := by
  unfold State.forwardWrite
  refine State.host_foldl (fun t a => ?_) _
  repeat' split
  all_goals simp only [State.host_sendFwd]

theorem State.host_leafWrite (s : State) (q : QuireId) (addr : Nat) (bytes : List (BitVec 8)) (writer : Nat)
    (sched : Option Nat) :
    (s.leafWrite q addr bytes writer sched).host = s.host := by
  unfold State.leafWrite
  split <;> simp only [State.host_ite, ite_self, implies_true, State.host_fst_foldl, State.host_leafUncorr,
    State.host_rowWrite, State.host_forwardWrite]

theorem State.host_leafPoison (s : State) (q : QuireId) (addr n : Nat) : (s.leafPoison q addr n).host = s.host := by
  simp only [State.leafPoison, State.host_ite, ite_self, implies_true, State.host_foldl, State.host_updQu,
    State.host_setMark, State.host_touchRow, State.host_holdFilling]

/-! ### Of Machine/Operands.lean -/

theorem State.host_putS (s : State) (u : StId) (r : SReg) (v : BitVec 32) (at_ : Nat) :
    (s.putS u r v at_).host = s.host := by
  simp only [State.putS, State.host_ite, ite_self, State.host_updSt]

theorem State.host_putP (s : State) (u : StId) (r : PReg) (v : BitVec 64) (at_ : Nat) :
    (s.putP u r v at_).host = s.host := by
  simp only [State.putP, State.host_ite, ite_self, State.host_updSt]

theorem State.host_putV (s : State) (u : StId) (r : VReg) (v : BitVec 512) (at_ : Nat) :
    (s.putV u r v at_).host = s.host := (rfl)

theorem State.host_putLanes (s : State) (u : StId) (r : VReg) (all : Bool) (v : BitVec 512) (at_ : Nat) :
    (s.putLanes u r all v at_).host = s.host := by
  simp only [State.putLanes, State.host_putV]

theorem State.host_putBits (s : State) (u : StId) (r : PReg) (all : Bool) (v : BitVec 64) (at_ : Nat) :
    (s.putBits u r all v at_).host = s.host := by
  simp only [State.putBits, State.host_putP]

theorem State.host_putPair (s : State) (u : StId) (r : SReg) (v : BitVec 64) (at_ : Nat) :
    (s.putPair u r v at_).host = s.host := by
  simp only [State.putPair, State.host_putS]

/-! ### Of Machine/Issue.lean -/

theorem State.host_issued (s : State) (u : StId) (g : Gate) (t : Nat) : (s.issued u g t).host = s.host := by
  simp only [State.issued, State.host_setSt, State.host_setF]

theorem State.host_stallOn (s : State) (u : StId) (g : Gate) (code : Nat) (ch : Option Nat) :
    (s.stallOn u g code ch).host = s.host := by
  simp only [State.stallOn, State.host_updSt]

theorem State.host_fetchFix (s : State) (u : StId) : (s.fetchFix u).host = s.host := by
  simp only [State.fetchFix, State.host_ite, ite_self, State.host_incF]

theorem State.kept_issue {s : State} (hk : Kept ks mp s.host) (u : StId) (i : Instr) (g : Gate)
    (body : State → Nat → Nat → State) (hb : ∀ s t pc, Kept ks mp s.host → Kept ks mp (body s t pc).host) :
    KeptOut ks mp (s.issue u i g body) := by
  unfold State.issue
  repeat' split
  all_goals simp only [ite_self, hk, keptOut_next, keptOut_ite, State.host_firingFault, State.host_issued,
    State.host_stallOn, State.host_fetchFix, hb]

/-! ### Of Machine/Branch.lean -/

theorem State.host_jump (s : State) (u : StId) (t target : Nat) : (s.jump u t target).host = s.host := (rfl)

theorem State.host_jumpIf (s : State) (u : StId) (t target : Nat) (c : Bool) : (s.jumpIf u t target c).host = s.host := by
  simp only [State.jumpIf, State.host_ite, ite_self, State.host_jump]

theorem kept_execBr {s : State} (hk : Kept ks mp s.host) (u : StId) (pg : PReg) (pn : Bool) (off : BitVec 11) :
    KeptOut ks mp (execBr u pg pn off s) := by
  simp +contextual only [execBr, implies_true, hk, State.kept_issue, State.host_jumpIf]

theorem kept_execLoop {s : State} (hk : Kept ks mp s.host) (u : StId) (pg : PReg) (pn : Bool) (rs : SReg)
    (off : BitVec 11) :
    KeptOut ks mp (execLoop u pg pn rs off s) := by
  simp +contextual only [execLoop, State.host_ite, ite_self, implies_true, hk, State.host_putS, State.kept_issue,
    State.host_jumpIf]

theorem kept_execBrZ {s : State} (hk : Kept ks mp s.host) (u : StId) (pg : PReg) (pn : Bool) (rs : SReg)
    (off : BitVec 11) :
    KeptOut ks mp (execBrZ u pg pn rs off s) := by
  simp +contextual only [execBrZ, implies_true, hk, State.kept_issue, State.host_jumpIf]

theorem kept_execBrNz {s : State} (hk : Kept ks mp s.host) (u : StId) (pg : PReg) (pn : Bool) (rs : SReg)
    (off : BitVec 11) :
    KeptOut ks mp (execBrNz u pg pn rs off s) := by
  simp +contextual only [execBrNz, implies_true, hk, State.kept_issue, State.host_jumpIf]

/-! ### Of Machine/Memory.lean -/

theorem State.host_pocketRead (s : State) (u : StId) (addr n : Nat) : (s.pocketRead u addr n).1.host = s.host := by
  simp only [State.pocketRead, State.host_fst_ite, ite_self, State.host_incF]

theorem State.host_leafGrant (s : State) (u : StId) (t addr : Nat) : (s.leafGrant u t addr).1.host = s.host := by
  simp only [State.leafGrant, State.host_updSt, State.host_grant]

theorem State.kept_load {s : State} (hk : Kept ks mp s.host) (u : StId) (i : Instr) (ra : SReg) (sp : Space)
    (imm : BitVec 12) (n : Nat) (put : State → BitVec 512 → Nat → State) (hb : ∀ s v t, Kept ks mp s.host → Kept ks mp
    (put s v t).host) :
    KeptOut ks mp (s.load u i ra sp imm n put) := by
  unfold State.load
  refine State.kept_issue hk _ _ _ _ fun s t pc hk => ?_
  dsimp only
  split
  · simp only [hk, State.host_firingFault]
  · cases sp with
    | pocket =>
      dsimp only
      split
      · simp only [hk, State.host_firingFault, State.host_pocketRead]
      · exact hb _ _ _ (by simp only [hk, State.host_pocketRead])
    | leaf =>
      dsimp only
      split
      all_goals exact hb _ _ _ (by simp only [hk, State.host_failTick, State.host_leafRead, State.host_leafGrant])

theorem State.kept_store {s : State} (hk : Kept ks mp s.host) (u : StId) (i : Instr) (ra : SReg) (src : Nat)
    (sp : Space) (imm : BitVec 12) (n : Nat) (val : Stitcher → BitVec 512) :
    KeptOut ks mp (s.store u i ra src sp imm n val) := by
  unfold State.store
  refine State.kept_issue hk _ _ _ _ fun s t pc hk => ?_
  dsimp only
  split
  · simp only [hk, State.host_firingFault]
  · cases sp with
    | pocket =>
      dsimp only
      split
      · split <;> simp only [hk, State.host_updSt, State.host_firingFault, State.host_pocketRead]
      · simp only [hk, State.host_updSt]
    | leaf => simp only [hk, State.host_updSt, State.host_leafWrite, State.host_leafGrant]

theorem kept_execLdB {s : State} (hk : Kept ks mp s.host) (u : StId) (rd ra : SReg) (sp : Space) (imm : BitVec 12) :
    KeptOut ks mp (execLdB u rd ra sp imm s) := by
  simp +contextual only [execLdB, implies_true, hk, State.host_putS, State.kept_load]

theorem kept_execLdH {s : State} (hk : Kept ks mp s.host) (u : StId) (rd ra : SReg) (sp : Space) (imm : BitVec 12) :
    KeptOut ks mp (execLdH u rd ra sp imm s) := by
  simp +contextual only [execLdH, implies_true, hk, State.host_putS, State.kept_load]

theorem kept_execLdW {s : State} (hk : Kept ks mp s.host) (u : StId) (rd ra : SReg) (sp : Space) (imm : BitVec 12) :
    KeptOut ks mp (execLdW u rd ra sp imm s) := by
  simp +contextual only [execLdW, implies_true, hk, State.host_putS, State.kept_load]

theorem kept_execLdBs {s : State} (hk : Kept ks mp s.host) (u : StId) (rd ra : SReg) (sp : Space) (imm : BitVec 12) :
    KeptOut ks mp (execLdBs u rd ra sp imm s) := by
  simp +contextual only [execLdBs, implies_true, hk, State.host_putS, State.kept_load]

theorem kept_execLdHs {s : State} (hk : Kept ks mp s.host) (u : StId) (rd ra : SReg) (sp : Space) (imm : BitVec 12) :
    KeptOut ks mp (execLdHs u rd ra sp imm s) := by
  simp +contextual only [execLdHs, implies_true, hk, State.host_putS, State.kept_load]

theorem kept_execVld {s : State} (hk : Kept ks mp s.host) (u : StId) (vd : VReg) (ra : SReg) (sp : Space)
    (imm : BitVec 12) :
    KeptOut ks mp (execVld u vd ra sp imm s) := by
  simp +contextual only [execVld, implies_true, hk, State.host_putV, State.kept_load]

theorem kept_execStB {s : State} (hk : Kept ks mp s.host) (u : StId) (rd ra : SReg) (sp : Space) (imm : BitVec 12) :
    KeptOut ks mp (execStB u rd ra sp imm s) := by
  simp only [execStB, hk, State.kept_store]

theorem kept_execStH {s : State} (hk : Kept ks mp s.host) (u : StId) (rd ra : SReg) (sp : Space) (imm : BitVec 12) :
    KeptOut ks mp (execStH u rd ra sp imm s) := by
  simp only [execStH, hk, State.kept_store]

theorem kept_execStW {s : State} (hk : Kept ks mp s.host) (u : StId) (rd ra : SReg) (sp : Space) (imm : BitVec 12) :
    KeptOut ks mp (execStW u rd ra sp imm s) := by
  simp only [execStW, hk, State.kept_store]

theorem kept_execVst {s : State} (hk : Kept ks mp s.host) (u : StId) (vd : VReg) (ra : SReg) (sp : Space)
    (imm : BitVec 12) :
    KeptOut ks mp (execVst u vd ra sp imm s) := by
  simp only [execVst, hk, State.kept_store]

/-! ### Of Machine/PartMem.lean -/

theorem State.host_colAdd (s : State) (sec off n : Nat) : (s.colAdd sec off n).host = s.host := by
  simp only [State.colAdd, State.host_mk]

theorem State.host_countEcc (s : State) (p : PartId) (a : Nat) : (s.countEcc p a).host = s.host := by
  unfold State.countEcc
  split <;> simp only [State.host_mk, State.host_incF, State.host_colAdd]

theorem State.host_pmRead (s : State) (p : PartId) (a n : Nat) : (s.pmRead p a n).1.host = s.host := by
  simp only [State.pmRead, implies_true, State.host_foldl, State.host_countEcc]

theorem State.host_memUncorr (s : State) (p : PartId) (a table pos : Nat) : (s.memUncorr p a table pos).host = s.host := by
  simp only [State.memUncorr, State.host_raise, State.host_charge]

theorem State.kept_pmWrite {s : State} (hk : Kept ks mp s.host) (p : PartId) (a : Nat) (bytes : List (BitVec 8)) :
    Kept ks mp (s.pmWrite p a bytes).1.host := by
  refine kept_foldl_of Prod.fst (fun x w hx => ?_) _ hk
  dsimp only
  split
  · rwa [State.host_countEcc]
  · refine Kept.mem_of ?_ fun h => spWf_memWrite _ _ _ h
    split
    · exact hx
    · rwa [State.host_countEcc]

theorem State.host_devWrite (s : State) (ld : Nat) (off : Nat) : (s.devWrite ld off).host = s.host := by
  simp only [State.devWrite, State.host_mk, State.host_ite, ite_self]

theorem State.host_devWriteP (s : State) (p : PartId) (off : Nat) : (s.devWriteP p off).host = s.host := by
  unfold State.devWriteP
  split <;> simp only [State.host_devWrite]

theorem State.host_devWriteMem (s : State) (p : PartId) (a n : Nat) : (s.devWriteMem p a n).host = s.host := by
  simp only [State.devWriteMem, State.host_ite, ite_self, implies_true, State.host_foldl, State.host_devWrite,
    State.host_devWriteP]

/-! ### Of Machine/Routes.lean -/

theorem State.host_noteAbsent (s : State) (q : QuireId) (tile units : Nat) : (s.noteAbsent q tile units).host = s.host := by
  simp only [State.noteAbsent, State.host_ite, ite_self, State.host_raise]

/-! ### Of Machine/Pager.lean -/

theorem State.host_updHints (s : State) (p : PartId) (f : List Hint → List Hint) : (s.updHints p f).host = s.host := (rfl)

theorem State.host_countPage (s : State) (h : Hint) : (s.countPage h).host = s.host := by
  simp only [State.countPage, State.host_setCnt]

theorem State.host_acceptHint (s : State) (u : StId) (pos index w0 w1 : Nat) :
    (s.acceptHint u pos index w0 w1).host = s.host := by
  simp only [State.acceptHint, State.host_ite, ite_self, State.host_setPart, State.host_setF, State.host_incF,
    State.host_raise, State.host_countPage]

theorem host_acceptAll (u : StId) (pos : Nat) (xs : List (BitVec 8)) (i n : Nat) (s : State) :
    (acceptAll u pos xs i n s).host = s.host := by
  induction n generalizing xs i s with
  | zero => rfl
  | succ n ih => exact (ih ..).trans (State.host_acceptHint ..)

theorem kept_execHint {s : State} (hk : Kept ks mp s.host) (u : StId) (ra rb : SReg) :
    KeptOut ks mp (execHint u ra rb s) := by
  unfold execHint
  refine State.kept_issue hk _ _ _ _ fun s t pc hk => ?_
  dsimp only
  split
  · exact hk
  · split
    · simp only [hk, State.host_raise, State.host_failTick]
    · split
      · simp only [hk, State.host_firingFault]
      · split <;> simp only [State.host_ite, ite_self, hk, State.host_incF, State.host_firingFault, State.host_pocketRead,
          host_acceptAll]

theorem State.host_findPage (s : State) (h : Hint) : (s.findPage h).1.host = s.host := by
  simp only [State.findPage, State.host_fst_ite, ite_self, State.host_pmRead]

theorem State.host_noteWait (s : State) (h : Hint) (why : Nat) : (s.noteWait h why).host = s.host := by
  simp only [State.noteWait, State.host_ite, ite_self, State.host_incF, State.host_raise, State.host_updHints]

theorem State.host_setHint (s : State) (h : Hint) : (s.setHint h).host = s.host := by
  simp only [State.setHint, State.host_updHints]

theorem State.host_pagerMemErr (s : State) (h : Hint) (a : Nat) : (s.pagerMemErr h a).host = s.host := by
  simp only [State.pagerMemErr, State.host_incF, State.host_memUncorr]

theorem State.host_pushRows (s : State) (h : Hint) (n : Nat) : (s.pushRows h n).host = s.host := by
  induction n generalizing s h with
  | zero => rfl
  | succ n ih =>
    unfold State.pushRows
    split
    · rfl
    · simp only [ih, State.host_ite, ite_self, State.host_setQu, State.host_setF, State.host_setHint]

theorem State.host_refill (s : State) (q : QuireId) : (s.refill q).host = s.host := by
  unfold State.refill
  exact (State.host_foldl (fun t h => State.host_pushRows t h 32) _).trans (State.host_updQu ..)

theorem State.kept_landUpload {s : State} (hk : Kept ks mp s.host) (p : PartId) (w : Upload) :
    Kept ks mp (s.landUpload p w).host := by
  simp only [State.landUpload, State.host_ite, ite_self, hk, State.host_updPart, State.host_incF, State.host_raise,
    State.kept_pmWrite]

theorem State.kept_landUploads {s : State} (hk : Kept ks mp s.host) (p : PartId) : Kept ks mp (s.landUploads p).host := by
  simp +contextual only [State.landUploads, implies_true, hk, State.kept_foldl, State.host_updPart, State.kept_landUpload]

theorem State.kept_endHint {s : State} (hk : Kept ks mp s.host) (h : Hint) (status : Nat) :
    Kept ks mp (s.endHint h status).host := by
  simp only [State.endHint, hk, State.host_countPage, State.host_setHint, State.kept_landUploads]

theorem State.kept_startHint {s : State} (hk : Kept ks mp s.host) (h : Hint) : Kept ks mp (s.startHint h).host := by
  unfold State.startHint
  simp only [State.host_ite, ite_self, implies_true, kept_ite, hk, State.host_foldl, State.host_incF, State.host_raise,
    State.host_leafReads, State.host_pmRead, State.host_memUncorr, State.host_findPage, State.host_setHint,
    State.host_pagerMemErr, State.host_pushRows, State.kept_endHint]

theorem State.kept_completeHint {s : State} (hk : Kept ks mp s.host) (h : Hint) : Kept ks mp (s.completeHint h).host := by
  simp only [State.completeHint, State.host_ite, ite_self, kept_ite, hk, State.host_incF, State.host_raise,
    State.kept_pmWrite, State.host_devWriteMem, State.host_countPage, State.host_setHint]

theorem kept_execPageComplete {s : State} (hk : Kept ks mp s.host) (p : PartId) : KeptOut ks mp (execPageComplete p s) := by
  unfold execPageComplete
  simp only [hk, keptOut_next, keptOut_ite]
  repeat' split
  all_goals simp only [hk, keptOut_next, State.kept_landUploads, State.kept_completeHint]

theorem State.host_releaseHint (s : State) (h : Hint) (late : Bool) : (s.releaseHint h late).host = s.host := by
  simp only [State.releaseHint, State.host_ite, ite_self, State.host_updQu, State.host_failTick, State.host_internalToken,
    State.host_updHints, State.host_setHint]

theorem State.host_releaseDue (s : State) (q : QuireId) (pos : Nat) : (s.releaseDue q pos).host = s.host := by
  simp only [State.releaseDue, State.host_ite, ite_self, implies_true, State.host_foldl, State.host_updQu, State.host_incF,
    State.host_raise, State.host_delayFrom, State.host_releaseHint]

theorem kept_execPageDuePosition {s : State} (hk : Kept ks mp s.host) (q : QuireId) :
    KeptOut ks mp (execPageDuePosition q s) := by
  unfold execPageDuePosition
  split <;> simp only [ite_self, hk, keptOut_next, keptOut_ite, State.host_setQu, State.host_releaseDue]

theorem kept_execPageCompletionArrival {s : State} (hk : Kept ks mp s.host) (p : PartId) :
    KeptOut ks mp (execPageCompletionArrival p s) := by
  unfold execPageCompletionArrival
  simp only []
  repeat' split
  all_goals simp only [hk, keptOut_next, State.host_waitCycle, State.host_updHints, State.host_setHint,
    State.host_releaseDue]

theorem State.host_dropDue (s : State) (q : QuireId) : (s.dropDue q).host = s.host := by
  simp only [State.dropDue, State.host_updQu, State.host_incF, State.host_updHints]

theorem State.host_chargePause (s : State) (q : QuireId) (run : Nat) : (s.chargePause q run).host = s.host := by
  unfold State.chargePause
  split <;> simp only [State.host_ite, ite_self, State.host_updQu]

theorem State.kept_cancelHints {s : State} (hk : Kept ks mp s.host) (p : PartId) (sel : Hint → Bool) (mask : Nat) :
    Kept ks mp (s.cancelHints p sel mask).host := by
  simp only [State.cancelHints, State.host_ite, ite_self, kept_ite, hk, State.host_incF, State.host_raise,
    State.host_updHints, State.kept_landUploads]

theorem State.kept_uploadOp {s : State} (hk : Kept ks mp s.host) (p : PartId) (ld : LdId) (off : Nat)
    (bytes : List Byte) :
    Kept ks mp (s.uploadOp p ld off bytes).host := by
  unfold State.uploadOp
  simp only [State.host_ite, kept_ite, hk, State.host_incF, State.host_raise, State.host_holdWrite]
  repeat' split
  all_goals simp only [hk, State.host_updPart, State.host_incF, State.host_raise, State.kept_landUpload]

theorem State.host_uploadFlush (s : State) (p : PartId) : (s.uploadFlush p).host = s.host := by
  simp only [State.uploadFlush, implies_true, State.host_foldl, State.host_updQu, State.host_updPart, State.host_setF]

theorem kept_execUploadFlushDone {s : State} (hk : Kept ks mp s.host) (p : PartId) :
    KeptOut ks mp (execUploadFlushDone p s) := by
  simp only [execUploadFlushDone, ite_self, hk, keptOut_when, State.host_setF]

/-! ### Of Machine/LeafOps.lean -/

theorem State.kept_leafOpIssue {s : State} (hk : Kept ks mp s.host) (u : StId) (i : Instr) (ra : SReg) (op : Nat) :
    KeptOut ks mp (s.leafOpIssue u i ra op) := by
  unfold State.leafOpIssue
  refine State.kept_issue hk _ _ _ _ fun s t pc hk => ?_
  dsimp only
  split
  · simp only [hk, State.host_firingFault]
  · split <;> simp only [hk, State.host_updSt, State.host_updQu, State.host_firingFault, State.host_pocketRead]

theorem kept_execLeafFill {s : State} (hk : Kept ks mp s.host) (u : StId) (ra : SReg) :
    KeptOut ks mp (execLeafFill u ra s) := by
  simp only [execLeafFill, hk, State.kept_leafOpIssue]

theorem kept_execLeafCopy {s : State} (hk : Kept ks mp s.host) (u : StId) (ra : SReg) :
    KeptOut ks mp (execLeafCopy u ra s) := by
  simp only [execLeafCopy, hk, State.kept_leafOpIssue]

theorem State.host_copyPart (s : State) (q : QuireId) (src dst n read write : Nat) :
    (s.copyPart q src dst n read write).1.host = s.host := by
  simp only [State.copyPart, State.host_ite, State.host_fst_ite, ite_self, implies_true, State.host_foldl,
    State.host_leafRead, State.host_leafWrite, State.host_leafPoison]

theorem State.host_fillGrants (s : State) (q : QuireId) (a dst n : Nat) : (s.fillGrants q a dst n).1.host = s.host := by
  simp only [State.fillGrants, implies_true, State.host_fst_foldl, State.host_grant]

theorem State.host_copyGrants (s : State) (q : QuireId) (a src dst n : Nat) :
    (s.copyGrants q a src dst n).1.host = s.host := by
  simp only [State.copyGrants, implies_true, State.host_fst_foldl, State.host_grant]

theorem State.host_copyRows (s : State) (q : QuireId) (a src dst n : Nat) : (s.copyRows q a src dst n).1.host = s.host := by
  simp only [State.copyRows, implies_true, State.host_fst_foldl, State.host_copyPart]

theorem kept_execLeafOpStart {s : State} (hk : Kept ks mp s.host) (q : QuireId) : KeptOut ks mp (execLeafOpStart q s) := by
  unfold execLeafOpStart
  simp only []
  split <;> simp only [State.host_ite, ite_self, hk, keptOut_next, keptOut_ite, State.host_setQu, State.host_updQu,
    State.host_incF, State.host_raise, State.host_failTick, State.host_leafWrite, State.host_fillGrants,
    State.host_copyGrants, State.host_copyRows]

theorem kept_execLeafOpComplete {s : State} (hk : Kept ks mp s.host) (q : QuireId) :
    KeptOut ks mp (execLeafOpComplete q s) := by
  unfold execLeafOpComplete
  simp only []
  split <;> simp only [State.host_ite, ite_self, hk, keptOut_next, keptOut_ite, State.host_setQu, State.host_incF,
    State.host_internalToken]

theorem State.host_classWrite (s : State) (w : Writer) (q : QuireId) (i : Nat) (v : BitVec 32) :
    (s.classWrite w q i v).host = s.host := by
  simp only [State.classWrite, State.host_ite, ite_self, implies_true, State.host_foldl, State.host_updQu, State.host_wr,
    State.host_raise, State.host_touchRow]

theorem kept_execClassFillDone {s : State} (hk : Kept ks mp s.host) (q : QuireId) :
    KeptOut ks mp (execClassFillDone q s) := by
  unfold execClassFillDone
  simp only []
  split <;> simp only [hk, keptOut_next, State.host_updQu, State.host_waitCycle]

theorem State.host_landSegs (s : State) (q : QuireId) (w : HeldWrite) : (s.landSegs q w).host = s.host := by
  simp only [State.landSegs, State.host_ite, ite_self, implies_true, State.host_foldl, State.host_leafWrite,
    State.host_leafPoison]

theorem kept_execWriteBufferLand {s : State} (hk : Kept ks mp s.host) (q : QuireId) (n : Nat) (reader : Option Nat) :
    KeptOut ks mp (execWriteBufferLand q n reader s) := by
  unfold execWriteBufferLand
  simp only []
  repeat' split
  all_goals simp only [hk, keptOut_next, State.host_setQu, State.host_incF, State.host_raise, State.host_takeFree,
    State.host_refill, State.host_landSegs]

theorem State.host_scrubAt (s : State) (q : QuireId) (b bank : Nat) : (s.scrubAt q b bank).host = s.host := by
  unfold State.scrubAt
  split <;> simp only [State.host_setF]

theorem State.host_beginPass (s : State) (q : QuireId) : (s.beginPass q).host = s.host := by
  simp only [State.beginPass, State.host_updQu, State.host_scrubAt]

theorem kept_execScrubPassStart {s : State} (hk : Kept ks mp s.host) (q : QuireId) :
    KeptOut ks mp (execScrubPassStart q s) := by
  simp only [execScrubPassStart, ite_self, hk, keptOut_next, keptOut_ite, State.host_updQu, State.host_waitNs,
    State.host_raise, State.host_beginPass]

theorem kept_execScrubRead {s : State} (hk : Kept ks mp s.host) (q : QuireId) : KeptOut ks mp (execScrubRead q s) := by
  simp only [execScrubRead, State.host_ite, ite_self, hk, keptOut_next, keptOut_ite, State.host_updQu, State.host_setF,
    State.host_waitCycle, State.host_takeFree, State.host_leafRead, State.host_scrubAt]

theorem kept_execScrubWriteBack {s : State} (hk : Kept ks mp s.host) (q : QuireId) :
    KeptOut ks mp (execScrubWriteBack q s) := by
  unfold execScrubWriteBack
  simp only []
  split <;> simp only [State.host_ite, ite_self, implies_true, hk, keptOut_next, keptOut_ite, State.host_foldl,
    State.host_updQu, State.host_incF, State.host_takeFree, State.host_setMark]

theorem State.host_writeDigest (s : State) (q : QuireId) (pass r : Nat) : (s.writeDigest q pass r).host = s.host := by
  unfold State.writeDigest
  simp only []
  split <;> simp only [State.host_ite, ite_self, implies_true, State.host_foldl, State.host_wr, State.host_useFree]

theorem kept_execScrubPassEnd {s : State} (hk : Kept ks mp s.host) (q : QuireId) :
    KeptOut ks mp (execScrubPassEnd q s) := by
  simp only [execScrubPassEnd, State.host_ite, ite_self, implies_true, hk, keptOut_next, keptOut_ite, State.host_foldl,
    State.host_updQu, State.host_setF, State.host_beginPass, State.host_writeDigest]

theorem State.host_remapTile (s : State) (q : QuireId) (tile : Nat) (t : Track) :
    (s.remapTile q tile t).1.host = s.host := by
  simp only [State.remapTile, State.host_mk, State.host_fst_ite, ite_self, State.host_raise, State.host_charge]

theorem State.host_remapRow (s : State) (q : QuireId) (t : Track) : (s.remapRow q t).host = s.host := by
  simp only [State.remapRow, State.host_ite, ite_self, implies_true, State.host_foldl, State.host_updQu,
    State.host_setMark, State.host_remapTile]

theorem State.host_applyRemaps (s : State) (q : QuireId) (weightToo : Bool) :
    (s.applyRemaps q weightToo).host = s.host := by
  simp only [State.applyRemaps, implies_true, State.host_foldl, State.host_remapRow]

/-! ### Of Machine/Landing.lean -/

theorem State.host_dropEpoch (s : State) (q : QuireId) (tokens words epoch : Nat) :
    (s.dropEpoch q tokens words epoch).host = s.host := by
  simp only [State.dropEpoch, State.host_incF, State.host_raise]

theorem State.host_msgCheck (s : State) (m : Flight) (landing seq expected got : Nat) :
    (s.msgCheck m landing seq expected got).host = s.host := by
  simp only [State.msgCheck, State.host_incF, State.host_raise, State.host_charge, State.host_failTick]

theorem State.host_landQueue (s : State) (m : Flight) (n : Nat) (ws : List (BitVec 64)) (upset : BitVec 32)
    (pos : Nat) :
    (s.landQueue m n ws upset pos).host = s.host := by
  simp only [State.landQueue, State.host_ite, ite_self, State.host_updSt, State.host_incF, State.host_raise,
    State.host_failTick, State.host_freeCredit, State.host_dropEpoch, State.host_msgCheck]

theorem State.host_ringWrites (s : State) (q : QuireId) (addrs : List Nat) (pos : Nat) :
    (s.ringWrites q addrs pos).1.host = s.host := by
  simp only [State.ringWrites, implies_true, State.host_fst_foldl, State.host_grant]

theorem State.host_landRing (s : State) (m : Flight) (n : Nat) (bytes : List (BitVec 8)) (pad units seq : Nat)
    (upset : BitVec 32) (pos : Nat) :
    (s.landRing m n bytes pad units seq upset pos).host = s.host := by
  simp only [State.landRing, State.host_ite, ite_self, State.host_setF, State.host_pauseTransit, State.host_leafWrite,
    State.host_dropEpoch, State.host_msgCheck, State.host_ringWrites]

theorem State.host_land (s : State) (m : Flight) (upset : BitVec 32) (pos : Nat) : (s.land m upset pos).host = s.host := by
  unfold State.land
  split <;> simp only [State.host_arriveToken, State.host_landQueue, State.host_landRing]

theorem State.host_settle (s : State) (p : PartId) : (s.settle p).host = s.host := by
  simp only [State.settle, State.host_ite, ite_self, State.host_updPart, State.host_setF]

theorem State.host_settleAll (s : State)  : (s.settleAll).host = s.host := by
  simp only [State.settleAll, implies_true, State.host_foldl, State.host_settle]

theorem State.host_receive (s : State) (m : Flight) (upset : BitVec 32) (pos : Nat) :
    (s.receive m upset pos).host = s.host := by
  simp only [State.receive, State.host_ite, ite_self, State.host_noteAbsent, State.host_land]

theorem State.host_releaseFlight (s : State) (m : Flight) (late cause : Nat) (upset : BitVec 32) :
    (s.releaseFlight m late cause upset).host = s.host := by
  simp only [State.releaseFlight, State.host_mk, State.host_pauseInherit, State.host_pauseTransit, State.host_settleAll,
    State.host_receive]

theorem State.host_waitRun (s : State) (q : QuireId) (run : Nat) : (s.waitRun q run).host = s.host := by
  simp only [State.waitRun, State.host_waitCycle]

theorem State.host_releaseSpan (s : State) (m : Flight) (upset : BitVec 32) : (s.releaseSpan m upset).host = s.host := by
  simp only [State.releaseSpan, State.host_mk, State.host_ite, ite_self, State.host_settleAll, State.host_receive,
    State.host_waitRun]

theorem State.host_releaseCredit (s : State) (c : CreditFlight) (late cause : Nat) :
    (s.releaseCredit c late cause).host = s.host := by
  simp only [State.releaseCredit, State.host_mk, State.host_ite, ite_self, State.host_updQu, State.host_setF,
    State.host_pauseInherit, State.host_pauseTransit, State.host_noteAbsent, State.host_settleAll, State.host_waitRun]

theorem State.host_releaseRing (s : State) (q : QuireId) (n pos : Nat) : (s.releaseRing q n pos).host = s.host := by
  simp only [State.releaseRing, State.host_ite, ite_self, implies_true, State.host_foldl, State.host_releaseFlight,
    State.host_releaseSpan]

theorem State.host_landAll (s : State) (l : List QuireId) : (s.landAll l).host = s.host := by
  simp only [State.landAll, implies_true, State.host_foldl, State.host_releaseFlight, State.host_releaseSpan,
    State.host_releaseCredit]

/-! ### Of Machine/SendRecv.lean -/

theorem State.host_launch (s : State) (m : Flight) (lat : Nat) : (s.launch m lat).host = s.host := by
  simp only [State.launch, State.host_mk, State.host_ite, ite_self, State.host_setQu, State.host_setF, State.host_incF,
    State.host_refund]

theorem State.host_dispatchSend (s : State) (u : StId) (e : Nat) (m : Payload) (bytes : List (BitVec 8)) (t : Nat) :
    (s.dispatchSend u e m bytes t).host = s.host := by
  unfold State.dispatchSend
  simp only [State.host_launch]
  split <;> simp only [State.host_updQu, State.host_setF]

theorem State.host_grantParts (s : State) (q : QuireId) (t : Nat) (xs : List (Nat × Nat)) :
    (s.grantParts q t xs).1.host = s.host := by
  induction xs generalizing s t with
  | nil => rfl
  | cons x xs ih =>
    unfold State.grantParts
    split
    · exact State.host_grant ..
    · exact (ih ..).trans (State.host_grant ..)

theorem State.host_sendRefused (s : State) (u : StId) (e pc st : Nat) : (s.sendRefused u e pc st).host = s.host := by
  simp only [State.sendRefused, State.host_ite, ite_self, State.host_incF, State.host_raise, State.host_failTick,
    State.host_noteAbsent]

theorem State.kept_sendWord {s : State} (hk : Kept ks mp s.host) (u : StId) (i : Instr) (rx rt rs : SReg)
    (ch : BitVec 8) (ctl try_ : Bool) :
    KeptOut ks mp (s.sendWord u i rx rt rs ch ctl try_) := by
  simp +contextual only [State.sendWord, State.host_ite, ite_self, implies_true, hk, State.host_updSt,
    State.host_chargeStall, State.host_putS, State.kept_issue, State.host_dispatchSend, State.host_sendRefused]

theorem State.kept_sendMsg {s : State} (hk : Kept ks mp s.host) (u : StId) (i : Instr) (rx rt rs : SReg)
    (ch : BitVec 8) (sp : Space) (try_ : Bool) :
    KeptOut ks mp (s.sendMsg u i rx rt rs ch sp try_) := by
  unfold State.sendMsg
  refine State.kept_issue hk _ _ _ _ fun s t pc hk => ?_
  dsimp only
  split
  · simp only [hk, State.host_firingFault]
  · split
    · simp only [hk, State.host_putS, State.host_sendRefused]
    · split
      · simp only [hk, State.host_putS]
      · cases sp with
        | pocket =>
          dsimp only
          split <;> simp only [hk, State.host_updSt, State.host_chargeStall, State.host_firingFault, State.host_putS,
            State.host_pocketRead, State.host_dispatchSend]
        | leaf =>
          dsimp only
          simp only [State.host_ite, ite_self, hk, State.host_updSt, State.host_failTick, State.host_chargeStall,
            State.host_leafReads, State.host_putS, State.host_dispatchSend, State.host_grantParts]

theorem kept_execSend {s : State} (hk : Kept ks mp s.host) (u : StId) (rx rt rs : SReg) (ch : BitVec 8) :
    KeptOut ks mp (execSend u rx rt rs ch s) := by
  simp only [execSend, hk, State.kept_sendWord]

theorem kept_execSendCtl {s : State} (hk : Kept ks mp s.host) (u : StId) (rx rt rs : SReg) (ch : BitVec 8) :
    KeptOut ks mp (execSendCtl u rx rt rs ch s) := by
  simp only [execSendCtl, hk, State.kept_sendWord]

theorem kept_execTrySend {s : State} (hk : Kept ks mp s.host) (u : StId) (rx rt rs : SReg) (ch : BitVec 8) :
    KeptOut ks mp (execTrySend u rx rt rs ch s) := by
  simp only [execTrySend, hk, State.kept_sendWord]

theorem kept_execTrySendCtl {s : State} (hk : Kept ks mp s.host) (u : StId) (rx rt rs : SReg) (ch : BitVec 8) :
    KeptOut ks mp (execTrySendCtl u rx rt rs ch s) := by
  simp only [execTrySendCtl, hk, State.kept_sendWord]

theorem kept_execMsendP {s : State} (hk : Kept ks mp s.host) (u : StId) (rx rt rs : SReg) (ch : BitVec 8) :
    KeptOut ks mp (execMsendP u rx rt rs ch s) := by
  simp only [execMsendP, hk, State.kept_sendMsg]

theorem kept_execMsendL {s : State} (hk : Kept ks mp s.host) (u : StId) (rx rt rs : SReg) (ch : BitVec 8) :
    KeptOut ks mp (execMsendL u rx rt rs ch s) := by
  simp only [execMsendL, hk, State.kept_sendMsg]

theorem kept_execTryMsendP {s : State} (hk : Kept ks mp s.host) (u : StId) (rx rt rs : SReg) (ch : BitVec 8) :
    KeptOut ks mp (execTryMsendP u rx rt rs ch s) := by
  simp only [execTryMsendP, hk, State.kept_sendMsg]

theorem kept_execTryMsendL {s : State} (hk : Kept ks mp s.host) (u : StId) (rx rt rs : SReg) (ch : BitVec 8) :
    KeptOut ks mp (execTryMsendL u rx rt rs ch s) := by
  simp only [execTryMsendL, hk, State.kept_sendMsg]

theorem State.host_takeWord (s : State) (u : StId) (n : Nat) (ra : SReg) (w : QWord) (t : Nat) :
    (s.takeWord u n ra w t).host = s.host := by
  simp only [State.takeWord, State.host_updSt, State.host_freeCredit, State.host_putPair]

theorem kept_execQrecv {s : State} (hk : Kept ks mp s.host) (u : StId) (ra : SReg) (queue : BitVec 2) :
    KeptOut ks mp (execQrecv u ra queue s) := by
  unfold execQrecv
  simp +contextual only []
  split <;> simp +contextual only [implies_true, hk, State.kept_issue, State.host_takeWord]

theorem kept_execQrecvTry {s : State} (hk : Kept ks mp s.host) (u : StId) (ra : SReg) (pd : PReg) (queue : BitVec 2) :
    KeptOut ks mp (execQrecvTry u ra pd queue s) := by
  unfold execQrecvTry
  refine State.kept_issue hk _ _ _ _ fun s t pc hk => ?_
  dsimp only
  split <;> simp only [State.host_ite, ite_self, hk, State.host_putP, State.host_takeWord]

theorem kept_execRingAdv {s : State} (hk : Kept ks mp s.host) (u : StId) (ra rb : SReg) :
    KeptOut ks mp (execRingAdv u ra rb s) := by
  simp +contextual only [execRingAdv, State.host_ite, ite_self, implies_true, hk, State.host_setF, State.host_incF,
    State.host_raise, State.host_failTick, State.host_freeCredit, State.kept_issue, State.host_releaseRing]

theorem kept_execRingWp {s : State} (hk : Kept ks mp s.host) (u : StId) (ra rb : SReg) :
    KeptOut ks mp (execRingWp u ra rb s) := by
  simp +contextual only [execRingWp, State.host_ite, ite_self, implies_true, hk, State.host_useFree, State.host_putS,
    State.kept_issue, State.host_releaseRing]

theorem kept_execCredits {s : State} (hk : Kept ks mp s.host) (u : StId) (ra rb : SReg) :
    KeptOut ks mp (execCredits u ra rb s) := by
  simp +contextual only [execCredits, implies_true, hk, State.host_putS, State.kept_issue]

/-! ### Of Machine/Press.lean -/

theorem State.host_updPress (s : State) (q : QuireId) (p : PressId) (f : Press → Press) :
    (s.updPress q p f).host = s.host := (rfl)

theorem State.host_updRun (s : State) (q : QuireId) (p : PressId) (f : PRun → PRun) :
    (s.updRun q p f).host = s.host := (rfl)

theorem State.host_queueDesc (s : State) (q : QuireId) (p : PressId) (d : PDesc) :
    (s.queueDesc q p d).host = s.host := (rfl)

theorem kept_execPressGo {s : State} (hk : Kept ks mp s.host) (u : StId) (ra : SReg) (press : PressId) (sp : Space) :
    KeptOut ks mp (execPressGo u ra press sp s) := by
  unfold execPressGo
  refine State.kept_issue hk _ _ _ _ fun s t pc hk => ?_
  dsimp only
  split
  · simp only [hk, State.host_firingFault]
  · cases sp with
    | pocket =>
      dsimp only
      split <;> simp only [hk, State.host_updSt, State.host_firingFault, State.host_pocketRead, State.host_queueDesc]
    | leaf =>
      dsimp only
      simp only [hk, State.host_updSt, State.host_grant, State.host_leafRead, State.host_queueDesc]

theorem State.host_portRead (s : State) (q : QuireId) (p : PressId) (pos : Nat) (segs : List Nat) :
    (s.portRead q p pos segs).state.host = s.host := by
  simp only [State.portRead, State.host_pressGrant, State.host_portAccess]

theorem State.host_portReads (s : State) (q : QuireId) (p : PressId) (pos : Nat) (cycles : List (List Nat)) :
    (s.portReads q p pos cycles).state.host = s.host := by
  unfold State.portReads
  exact host_foldl_of PortReads.state (fun r c => by exact State.host_portRead ..) cycles

theorem State.host_loadActs (s : State) (q : QuireId) (p : PressId) (d : PDesc) (pos : Nat) :
    (s.loadActs q p d pos).state.host = s.host := by
  simp only [State.loadActs, State.host_portReads]

theorem State.host_pressEvent (s : State) (q : QuireId) (p : PressId) (code : Nat) (cap : List Nat) :
    (s.pressEvent q p code cap).host = s.host := by
  simp only [State.pressEvent, State.host_raise]

theorem State.host_collMismatch (s : State) (q : QuireId) (p : PressId) (d : PDesc) (operand expected computed : Nat) :
    (s.collMismatch q p d operand expected computed).host = s.host := by
  simp only [State.collMismatch, State.host_incF, State.host_updRun, State.host_pressEvent]

theorem State.host_endCommand (s : State) (q : QuireId) (p : PressId) (d : PDesc) (status outCode pos : Nat)
    (wrap bound : Bool) :
    (s.endCommand q p d status outCode pos wrap bound).host = s.host := by
  simp only [State.endCommand, State.host_ite, ite_self, State.host_updQu, State.host_setF, State.host_setCnt,
    State.host_failTick, State.host_internalToken]

theorem State.host_refuseCommand (s : State) (q : QuireId) (p : PressId) (d : PDesc) (check : Nat) :
    (s.refuseCommand q p d check).host = s.host := by
  unfold State.refuseCommand
  split <;> simp only [State.host_incF, State.host_useFree, State.host_noteFeature, State.host_pressEvent,
    State.host_endCommand]

theorem State.host_readCodes (s : State) (q : QuireId) (p : PressId) (d : PDesc) : (s.readCodes q p d).1.host = s.host := by
  unfold State.readCodes
  exact (host_foldl_of Prod.fst (fun _ _ => State.host_leafRead ..) _).trans (State.host_grantParts ..)

theorem State.host_nanScales (s : State) (q : QuireId) (p : PressId) (base : Nat) (bytes : List (BitVec 8)) :
    (s.nanScales q p base bytes).host = s.host := by
  simp only [State.nanScales, State.host_ite, ite_self, implies_true, State.host_foldl, State.host_pressEvent]

theorem State.host_nanRows (s : State) (q : QuireId) (p : PressId) (d : PDesc) (scales : List (List (BitVec 8))) :
    (s.nanRows q p d scales).host = s.host := by
  simp only [State.nanRows, implies_true, State.host_foldl, State.host_nanScales]

theorem kept_execPressCommandDecode {s : State} (hk : Kept ks mp s.host) (q : QuireId) (p : PressId) :
    KeptOut ks mp (execPressCommandDecode q p s) := by
  unfold execPressCommandDecode
  simp only [hk, keptOut_next, keptOut_ite]
  repeat' split
  all_goals simp only [hk, keptOut_next, State.host_setF, State.host_updPress, State.host_loadActs,
    State.host_collMismatch, State.host_refuseCommand, State.host_readCodes, State.host_nanRows]

theorem State.host_trnDecode (s : State) (q : QuireId) (p : PressId) (d : PDesc) (j : Nat) (elems : List (BitVec 8))
    (own : Bool) :
    (s.trnDecode q p d j elems own).host = s.host := by
  simp only [State.trnDecode, State.host_ite, ite_self, implies_true, State.host_foldl, State.host_incF, State.host_updRun,
    State.host_pressEvent]

theorem Stream.host_tile (r : Stream) (q : QuireId) (p : PressId) (d : PDesc) (j : Nat) (own : Bool) (t : Nat) :
    (r.tile q p d j own t).state.host = r.state.host := by
  simp only [Stream.tile, State.host_portRead]

theorem State.host_readTile (s : State) (q : QuireId) (p : PressId) (d : PDesc) (j : Nat) (acts ascales : List (List
    (BitVec 8))) (own : Bool) (init start streamed : Nat) :
    (s.readTile q p d j acts ascales own init start streamed).state.host = s.host := by
  unfold State.readTile
  have tiles (w : Stream) (n : Nat) : ((List.range n).foldl (fun r t => r.tile q p d j own t) w).state.host = w.state.host
    :=
    host_foldl_of Stream.state (fun _ _ => Stream.host_tile ..) _
  simp only [tiles, State.host_ite, ite_self, State.host_portReads, State.host_nanScales, State.host_trnDecode]

theorem State.host_openWindow (s : State) (q : QuireId) (rel : Nat) : (s.openWindow q rel).host = s.host := by
  simp only [State.openWindow, State.host_mk, State.host_setQu, State.host_setF]

theorem State.host_releaseTile (s : State) (q : QuireId) (p writer : PressId) (j : Nat) (outs : List (List
    (BitVec 8))) (rel : Nat) :
    (s.releaseTile q p writer j outs rel).host = s.host := by
  unfold State.releaseTile
  split <;> simp only [State.host_ite, ite_self, implies_true, State.host_foldl, State.host_pressGrant,
    State.host_leafWrite, State.host_updRun, State.host_openWindow]

theorem State.host_stageTile (s : State) (q : QuireId) (p : PressId) (j rel : Nat) :
    (s.stageTile q p j rel).host = s.host := by
  simp only [State.stageTile, State.host_updPress]

theorem State.host_discardHeld (s : State) (q : QuireId) (gone : List HeldOut) : (s.discardHeld q gone).host = s.host := by
  unfold State.discardHeld
  have held (t : State) (h : HeldOut) : (match h.msg with | .flight m => t.refund m | .fwd _ => t).host = t.host := by
    split
    · exact State.host_refund ..
    · rfl
  exact (State.host_foldl held _).trans (State.host_incF ..)

theorem State.host_behindMismatch (s : State) (q : QuireId) (p : PressId) (rel : Nat) :
    (s.behindMismatch q p rel).host = s.host := by
  simp only [State.behindMismatch, State.host_setQu, State.host_setF, State.host_raise, State.host_updRun,
    State.host_discardHeld]

theorem kept_execPressTileCheck {s : State} (hk : Kept ks mp s.host) (q : QuireId) (p : PressId)
    (upset : Option PressUpset) :
    KeptOut ks mp (execPressTileCheck q p upset s) := by
  unfold execPressTileCheck
  extract_lets +onlyGivenNames x
  split
  · exact keptOut_next.mpr hk
  · rename_i r _
    extract_lets +onlyGivenNames d j sl
    split
    · exact keptOut_next.mpr hk
    · extract_lets +onlyGivenNames behind free initCyc begin0 begin1 rd last check rel o s1 off s2 s3 s4 s5 code expected
        s6 held bad
      have kept1 : Kept ks mp s1.host := by rwa [State.host_readTile]
      have kept4 : Kept ks mp s4.host := by
        simp only [s4, s3, s2, State.host_updRun, State.host_updPress, State.host_setCnt, kept1]
      have kept5 : Kept ks mp s5.host := by
        simp only [s5, State.host_ite, State.host_pressEvent, State.host_updRun, kept4, ite_self]
      have kept6 : Kept ks mp s6.host := by
        simp only [s6, State.host_ite, State.host_collMismatch, kept5, ite_self]
      clear_value held bad s6
      split
      · simp only [keptOut_next, State.host_stageTile, State.host_ite, State.host_releaseTile, kept6, ite_self]
      · extract_lets +onlyGivenNames s7 s8 s9 v s10 s11
        have kept8 : Kept ks mp s8.host := by rwa [State.host_pressEvent, State.host_incF]
        have kept9 : Kept ks mp s9.host := by
          simp only [s9, State.host_ite, State.host_stageTile, State.host_releaseTile, kept8, ite_self]
        have kept11 : Kept ks mp s11.host := by rwa [State.host_updPress, State.host_updQu]
        simp only [keptOut_ite, keptOut_next, State.host_ite, State.host_stageTile, State.host_behindMismatch, kept8,
          kept11, ite_self]

theorem kept_execPressVoteStart {s : State} (hk : Kept ks mp s.host) (q : QuireId) :
    KeptOut ks mp (execPressVoteStart q s) := by
  unfold execPressVoteStart
  repeat' split
  all_goals simp only [hk, keptOut_next, State.host_updQu, State.host_loadActs, State.host_nanRows]

theorem kept_execPressVoteJudgement {s : State} (hk : Kept ks mp s.host) (q : QuireId) (upset : Option PressUpset) :
    KeptOut ks mp (execPressVoteJudgement q upset s) := by
  unfold execPressVoteJudgement
  split
  · exact keptOut_next.mpr hk
  · split
    · exact keptOut_next.mpr hk
    · split
      · exact keptOut_next.mpr hk
      · extract_lets +onlyGivenNames d p y start rd judge o same passes judgement behind tile s1 s2 s3 s4 s5 s6 s7 s8
        have kept1 : Kept ks mp s1.host := by rwa [State.host_readTile]
        have kept3 : Kept ks mp s3.host := by simp only [s3, s2, State.host_pressEvent, State.host_incF, kept1]
        clear_value s3 judgement
        have kept4 : Kept ks mp s4.host := by
          simp only [s4]
          split
          · exact kept3
          · split <;> simp only [State.host_charge, kept3]
        have kept8 : Kept ks mp s8.host := by
          simp only [s8, s7, s6, s5, State.host_updPress, State.host_updRun, State.host_updQu, kept4]
        clear_value s8
        simp only [keptOut_ite, keptOut_next, State.host_stageTile, State.host_ite, State.host_releaseTile,
          State.host_updRun, kept8, ite_self]

theorem kept_execPressDeliveryToken {s : State} (hk : Kept ks mp s.host) (q : QuireId) (p : PressId) :
    KeptOut ks mp (execPressDeliveryToken q p s) := by
  unfold execPressDeliveryToken
  simp only []
  repeat' split
  all_goals simp only [hk, keptOut_next, State.host_internalToken, State.host_updPress, State.host_updRun]

theorem kept_execPressCompletion {s : State} (hk : Kept ks mp s.host) (q : QuireId) (p : PressId) :
    KeptOut ks mp (execPressCompletion q p s) := by
  unfold execPressCompletion
  simp only []
  split <;> simp only [State.host_ite, ite_self, hk, keptOut_next, keptOut_ite, State.host_incF, State.host_useFree,
    State.host_pressGrant, State.host_leafWrite, State.host_updPress, State.host_endCommand]

theorem kept_execOutboundHoldRelease {s : State} (hk : Kept ks mp s.host) (q : QuireId) :
    KeptOut ks mp (execOutboundHoldRelease q s) := by
  unfold execOutboundHoldRelease
  simp only []
  repeat' split
  all_goals simp only [State.host_mk, hk, keptOut_next, State.host_setQu, State.host_updQu]

theorem State.host_abandonPresses (s : State) (q : QuireId) : (s.abandonPresses q).host = s.host := by
  unfold State.abandonPresses
  have held (t : State) (h : HeldOut) : (match h.msg with | .flight m => t.refund m | .fwd _ => t).host = t.host := by
    split
    · exact State.host_refund ..
    · rfl
  extract_lets x na nb voting gone press0 s1 s2 s3
  have kept1 : s1.host = s.host := State.host_setQu ..
  have kept2 : s2.host = s.host := (State.host_foldl held _).trans kept1
  have kept3 : s3.host = s.host := by
    simp only [s3, State.host_ite, State.host_incF, kept2, ite_self]
  simp only [State.host_ite, State.host_raise, kept3, ite_self]

/-! ### Of Machine/Control.lean -/

theorem State.host_collRead (s : State) (u : StId) (sp : Space) (a n t : Nat) :
    (s.collRead u sp a n t).state.host = s.host := by
  unfold State.collRead
  cases sp <;> simp only [State.host_ite, ite_self, State.host_updSt, State.host_failTick, State.host_leafReads,
    State.host_pocketRead, State.host_grantParts]

theorem State.kept_coll {s : State} (hk : Kept ks mp s.host) (u : StId) (i : Instr) (ra rb : SReg) (sp : Space)
    (srcs : List Nat) (k : State → Option (BitVec 32) → Nat → State) (hb : ∀ s v t, Kept ks mp s.host → Kept ks mp
    (k s v t).host) :
    KeptOut ks mp (s.coll u i ra rb sp srcs k) := by
  simp +contextual only [State.coll, State.host_ite, ite_self, implies_true, kept_ite, hk, State.host_firingFault,
    State.kept_issue, State.host_collRead, hb]

theorem kept_execCollChk {s : State} (hk : Kept ks mp s.host) (u : StId) (ra rb rc : SReg) (pd : PReg) (sp : Space) :
    KeptOut ks mp (execCollChk u ra rb rc pd sp s) := by
  unfold execCollChk
  refine State.kept_coll hk _ _ _ _ _ _ _ fun s v t hk => ?_
  dsimp only
  split <;> simp only [State.host_ite, ite_self, hk, State.host_raise, State.host_failTick, State.host_putP]

theorem kept_execCollGen {s : State} (hk : Kept ks mp s.host) (u : StId) (ra rb rc : SReg) (sp : Space) :
    KeptOut ks mp (execCollGen u ra rb rc sp s) := by
  simp +contextual only [execCollGen, implies_true, hk, State.host_putS, State.kept_coll]

theorem State.kept_predOp {s : State} (hk : Kept ks mp s.host) (u : StId) (i : Instr) (pd : PReg) (srcs : List PReg)
    (f : Stitcher → BitVec 64) :
    KeptOut ks mp (s.predOp u i pd srcs f) := by
  simp +contextual only [State.predOp, implies_true, hk, State.host_putP, State.kept_issue]

theorem kept_execPand {s : State} (hk : Kept ks mp s.host) (u : StId) (pd ra rb : PReg) :
    KeptOut ks mp (execPand u pd ra rb s) := by
  simp only [execPand, hk, State.kept_predOp]

theorem kept_execPor {s : State} (hk : Kept ks mp s.host) (u : StId) (pd ra rb : PReg) :
    KeptOut ks mp (execPor u pd ra rb s) := by
  simp only [execPor, hk, State.kept_predOp]

theorem kept_execPnot {s : State} (hk : Kept ks mp s.host) (u : StId) (pd ra : PReg) :
    KeptOut ks mp (execPnot u pd ra s) := by
  simp only [execPnot, hk, State.kept_predOp]

theorem kept_execPany {s : State} (hk : Kept ks mp s.host) (u : StId) (pd ra : PReg) :
    KeptOut ks mp (execPany u pd ra s) := by
  simp only [execPany, hk, State.kept_predOp]

theorem kept_execPall {s : State} (hk : Kept ks mp s.host) (u : StId) (pd ra : PReg) :
    KeptOut ks mp (execPall u pd ra s) := by
  simp only [execPall, hk, State.kept_predOp]

theorem kept_execNop {s : State} (hk : Kept ks mp s.host) (u : StId) : KeptOut ks mp (execNop u s) := by
  simp +contextual only [execNop, implies_true, hk, State.kept_issue]

theorem kept_execFence {s : State} (hk : Kept ks mp s.host) (u : StId) : KeptOut ks mp (execFence u s) := by
  simp +contextual only [execFence, implies_true, hk, State.kept_issue]

theorem kept_execGets {s : State} (hk : Kept ks mp s.host) (u : StId) (ra : SReg) (sel : BitVec 5) :
    KeptOut ks mp (execGets u ra sel s) := by
  simp +contextual only [execGets, implies_true, hk, State.host_putS, State.kept_issue]

theorem State.host_endFiring (s : State) (u : StId) (t : Nat) : (s.endFiring u t).host = s.host := (rfl)

theorem kept_execEndF {s : State} (hk : Kept ks mp s.host) (u : StId) : KeptOut ks mp (execEndF u s) := by
  simp +contextual only [execEndF, implies_true, hk, State.kept_issue, State.host_endFiring]

theorem State.host_purgeQuire (s : State) (q : QuireId) (pos : Nat) : (s.purgeQuire q pos).host = s.host := by
  simp only [State.purgeQuire, State.host_ite, ite_self, implies_true, State.host_foldl, State.host_updSt,
    State.host_orphan]

theorem State.host_writeLedger (s : State) (q : QuireId) (tick run : Nat) (overrun mismatch : Bool) :
    (s.writeLedger q tick run overrun mismatch).host = s.host := by
  simp only [State.writeLedger, State.host_setF]

theorem State.host_writeInherit (s : State) (q : QuireId) : (s.writeInherit q).host = s.host := by
  simp only [State.writeInherit, State.host_setF]

theorem State.host_contractMismatch (s : State) (q : QuireId) : (s.contractMismatch q).host = s.host := by
  simp only [State.contractMismatch, State.host_incF, State.host_raise]

theorem State.host_endQuireTick (s : State) (q : QuireId) (t : Nat) : (s.endQuireTick q t).host = s.host := by
  simp only [State.endQuireTick, State.host_ite, ite_self, State.host_updQu, State.host_raise, State.host_failTick,
    State.host_recordOrphans, State.host_dropDue, State.host_purgeQuire, State.host_writeLedger, State.host_writeInherit,
    State.host_contractMismatch]

/-! ### Of Machine/Stitch.lean -/

theorem kept_execFiringDispatch {s : State} (hk : Kept ks mp s.host) (u : StId) :
    KeptOut ks mp (execFiringDispatch u s) := by
  unfold execFiringDispatch
  repeat' split
  all_goals simp only [hk, keptOut_next, State.host_setSt, State.host_setF, State.host_setCnt, State.host_freeCredits]

theorem kept_execTokenArrival {s : State} (hk : Kept ks mp s.host) (u : StId) (w : BitVec 96) (o : Origin) (pos : Nat) :
    KeptOut ks mp (execTokenArrival u w o pos s) := by
  simp only [execTokenArrival, hk, keptOut_next, State.host_arriveToken]

theorem kept_execResidueMismatch {s : State} (hk : Kept ks mp s.host) (u : StId) (pc : BitVec 10) :
    KeptOut ks mp (execResidueMismatch u pc s) := by
  unfold execResidueMismatch
  simp only []
  split <;> simp only [ite_self, hk, keptOut_next, keptOut_ite, State.host_firingFault]

theorem kept_execIllegalInstruction {s : State} (hk : Kept ks mp s.host) (u : StId) :
    KeptOut ks mp (execIllegalInstruction u s) := by
  simp only [execIllegalInstruction, ite_self, hk, keptOut_next, keptOut_ite, State.host_firingFault, State.host_issued,
    State.host_fetchFix]

theorem kept_execStitcherResetEnd {s : State} (hk : Kept ks mp s.host) (u : StId) :
    KeptOut ks mp (execStitcherResetEnd u s) := by
  simp only [execStitcherResetEnd, ite_self, hk, keptOut_next, keptOut_ite, State.host_updSt, State.host_waitCycle]

theorem State.host_stCtrlReset (s : State) (w : Writer) (u : StId) : (s.stCtrlReset w u).host = s.host := by
  simp only [State.stCtrlReset, State.host_ite, ite_self, State.host_raise, State.host_resetStitcher]

/-! ### Of Machine/Channel.lean -/

theorem kept_execMessageRelease {s : State} (hk : Kept ks mp s.host) (q : QuireId) (upset : Word) :
    KeptOut ks mp (execMessageRelease q upset s) := by
  unfold execMessageRelease
  split <;> simp only [ite_self, hk, keptOut_next, keptOut_ite, State.host_releaseFlight]

theorem kept_execCreditReturn {s : State} (hk : Kept ks mp s.host) (q : QuireId) :
    KeptOut ks mp (execCreditReturn q s) := by
  unfold execCreditReturn
  split <;> simp only [ite_self, hk, keptOut_next, keptOut_ite, State.host_releaseCredit]

theorem kept_execSpanMessageRelease {s : State} (hk : Kept ks mp s.host) (q : QuireId) (upset : Word) :
    KeptOut ks mp (execSpanMessageRelease q upset s) := by
  unfold execSpanMessageRelease
  split <;> simp only [hk, keptOut_next, State.host_releaseSpan]

theorem State.kept_startDrain {s : State} (hk : Kept ks mp s.host) (p : PartId) : Kept ks mp (s.startDrain p).host := by
  simp only [State.startDrain, State.host_ite, ite_self, kept_ite, hk, State.host_updPart, State.host_setF,
    State.kept_cancelHints]

theorem State.host_endDrain (s : State) (p : PartId) : (s.endDrain p).host = s.host := by
  simp only [State.endDrain, State.host_ite, ite_self, State.host_updPart, State.host_setF, State.host_waitNs,
    State.host_raise]

theorem kept_execReconfDrainEnd {s : State} (hk : Kept ks mp s.host) (p : PartId) :
    KeptOut ks mp (execReconfDrainEnd p s) := by
  simp only [execReconfDrainEnd, hk, keptOut_next, State.host_endDrain]

theorem State.host_commitQuire (s : State) (q : QuireId) : (s.commitQuire q).host = s.host := by
  simp only [State.commitQuire, State.host_ite, State.host_fst_ite, ite_self, implies_true, State.host_foldl,
    State.host_fst_foldl, State.host_setSt, State.host_updQu, State.host_setF, State.host_incF, State.host_raise]

theorem State.host_commit (s : State) (p : PartId) : (s.commit p).host = s.host := by
  simp only [State.commit, State.host_ite, ite_self, implies_true, State.host_foldl, State.host_setF,
    State.host_commitQuire]

/-! ### Of Machine/Gate.lean -/

theorem State.host_ev (s : State) (x : Src) (code : Nat) (cap : List Nat) : (s.ev x code cap).host = s.host := by
  simp only [State.ev, State.host_raise]

theorem State.host_noteAsleep (s : State) (p : PartId) (dest cls opcode cause : Nat) :
    (s.noteAsleep p dest cls opcode cause).host = s.host := by
  simp only [State.noteAsleep, State.host_ite, ite_self, State.host_incF, State.host_noteAbsent, State.host_ev]

theorem State.kept_asWrite {s : State} (hk : Kept ks mp s.host) (w : Writer) (addr value : Nat) (k : State → State)
    (hb : ∀ s, Kept ks mp s.host → Kept ks mp (k s).host) :
    Kept ks mp (s.asWrite w addr value k).host := by
  unfold State.asWrite
  simp only []
  repeat' split
  all_goals simp only [hk, State.host_ev, State.host_noteAsleep, hb]

theorem State.host_writeDrop (s : State) (x : Src) (ld : Nat) (off cause : Nat) :
    (s.writeDrop x ld off cause).host = s.host := by
  simp only [State.writeDrop, State.host_ev]

theorem State.host_linkUp (s : State) (t : LinkUp) : (s.linkUp t).host = s.host := by
  unfold State.linkUp
  split <;> simp only [State.host_setF]

theorem State.host_devClearLd (s : State) (l : LdId) (lo hi : Nat) : (s.devClearLd l lo hi).host = s.host := by
  simp only [State.devClearLd, State.host_mk]

theorem State.host_devClear (s : State) (p : PartId) (lo hi : Nat) : (s.devClear p lo hi).host = s.host := by
  unfold State.devClear
  split <;> simp only [State.host_devClearLd]

theorem State.host_setBar2 (s : State) (a : Nat) (v : BitVec 8) : (s.setBar2 a v).host = s.host := (rfl)

theorem State.host_msi (s : State) (ld vec : Nat) : (s.msi ld vec).host = s.host := by
  simp only [State.msi, State.host_mk, State.host_ite, ite_self, State.host_setBar2]

theorem State.host_bar2Write (s : State) (ld off : Nat) (bytes : List (BitVec 8)) :
    (s.bar2Write ld off bytes).host = s.host := by
  simp only [State.bar2Write, State.host_ite, ite_self, implies_true, State.host_foldl, State.host_setBar2, State.host_msi]

theorem State.kept_ctlWrite {s : State} (hk : Kept ks mp s.host) (ld off : Nat) (bytes : List (BitVec 8)) :
    Kept ks mp (s.ctlWrite ld off bytes).host := by
  unfold State.ctlWrite
  rw [State.host_devWrite]
  exact hk.ctlPage_of fun h => spWf_memWrite _ _ _ h

/-! ### Of Machine/Mailbox.lean -/

theorem State.host_pushComp (s : State) (n : Notice) (status result : Nat) :
    (s.pushComp n status result).host = s.host := by
  unfold State.pushComp
  split <;> simp only [State.host_mk, State.host_ite, ite_self, State.host_incF]

theorem State.host_showPend (s : State) (mailbox : Nat) : (s.showPend mailbox).host = s.host := by
  unfold State.showPend
  split <;> simp only [State.host_setF]

theorem State.host_complete (s : State) (n : Notice) (status result : Nat) :
    (s.complete n status result).host = s.host := by
  simp only [State.complete, State.host_mk, State.host_pushComp, State.host_showPend]

theorem State.host_refuse (s : State) (n : Notice) (status reason : Nat) (result : Nat) :
    (s.refuse n status reason result).host = s.host := by
  simp only [State.refuse, State.host_ev, State.host_complete]

theorem State.host_setPhase (s : State) (n : Notice) (ph : NoticePhase) : (s.setPhase n ph).host = s.host := by
  simp only [State.setPhase, State.host_mk]

theorem State.host_completeActing (s : State) (p : PartId) (bit result : Nat) :
    (s.completeActing p bit result).host = s.host := by
  simp only [State.completeActing, implies_true, State.host_foldl, State.host_complete]

theorem State.host_abortBox (s : State) (mailbox : Nat) : (s.abortBox mailbox).host = s.host := by
  simp only [State.abortBox, implies_true, State.host_foldl, State.host_ev, State.host_complete]

theorem State.kept_writeComp {s : State} (hk : Kept ks mp s.host) (ld : Nat) : Kept ks mp (s.writeComp ld).host := by
  unfold State.writeComp
  repeat' split
  all_goals simp only [State.host_mk, State.host_ite, ite_self, kept_ite, hk, State.host_incF, State.host_ev,
    State.host_msi, State.kept_ctlWrite]

theorem kept_execCompletionWrite {s : State} (hk : Kept ks mp s.host) (ld : LdId) :
    KeptOut ks mp (execCompletionWrite ld s) := by
  simp only [execCompletionWrite, hk, keptOut_next, State.kept_writeComp]

theorem kept_execCqConsumerWrite {s : State} (hk : Kept ks mp s.host) (ld : LdId) (v : DWord) :
    KeptOut ks mp (execCqConsumerWrite ld v s) := by
  unfold execCqConsumerWrite
  split
  · exact keptOut_next.mpr (hk.ctlPage_of fun h => spWf_memWrite _ _ _ h)
  · exact keptOut_next.mpr hk

/-! ### Of Machine/Stroke.lean -/

theorem State.host_showHeld (s : State) (p : PartId) : (s.showHeld p).host = s.host := by
  simp only [State.showHeld, State.host_ite, ite_self, State.host_setF, State.host_completeActing]

theorem State.host_noteHold (s : State) (p : PartId) : (s.noteHold p).host = s.host := by
  simp only [State.noteHold, State.host_updPart, State.host_showHeld]

theorem State.host_addHold (s : State) (p : PartId) (c : HoldCause) : (s.addHold p c).host = s.host := by
  simp only [State.addHold, State.host_updPart, State.host_noteHold]

theorem State.host_catchGrid (s : State) (p : PartId) : (s.catchGrid p).host = s.host := by
  simp only [State.catchGrid, State.host_ite, ite_self, State.host_updPart, State.host_incF]

theorem State.host_recheck (s : State) (p : PartId) : (s.recheck p).host = s.host := by
  simp only [State.recheck, State.host_ite, ite_self, State.host_setF, State.host_ev]

theorem State.host_holdEnded (s : State) (p : PartId) : (s.holdEnded p).host = s.host := by
  simp only [State.holdEnded, State.host_ite, ite_self, State.host_showHeld, State.host_catchGrid, State.host_recheck]

theorem State.host_dropHold (s : State) (p : PartId) (c : HoldCause) : (s.dropHold p c).host = s.host := by
  simp only [State.dropHold, State.host_ite, ite_self, State.host_updPart, State.host_holdEnded]

theorem State.host_showPending (s : State) (p : PartId) : (s.showPending p).host = s.host := by
  simp only [State.showPending, State.host_setF]

theorem State.host_noteFull (s : State) (p : PartId) : (s.noteFull p).host = s.host := by
  unfold State.noteFull
  split <;> simp only [State.host_ite, ite_self, State.host_updPart, State.host_incF, State.host_ev]

theorem State.host_setRing (s : State) (p : PartId) (r : Nat) (x : InRing) : (s.setRing p r x).host = s.host := (rfl)

theorem State.kept_setCons {s : State} (hk : Kept ks mp s.host) (p : PartId) (r c : Nat) :
    Kept ks mp (s.setCons p r c).host := by
  obtain ⟨f, body⟩ : ∃ f, State.setCons = f := ⟨_, rfl⟩
  rw [body]
  delta State.setCons at body
  subst body
  dsimp only
  split <;> simp only [hk, State.host_setF, State.kept_ctlWrite]

theorem State.kept_passLines {s : State} (hk : Kept ks mp s.host) (p : PartId) (r lines : Nat) :
    Kept ks mp (s.passLines p r lines).host := by
  simp only [State.passLines, hk, State.host_setRing, State.kept_setCons]

theorem State.kept_bindRing {s : State} (hk : Kept ks mp s.host) (p : PartId) (tick : Nat) (r : Nat) :
    Kept ks mp (s.bindRing p tick r).host := by
  simp +contextual only [State.bindRing, State.host_ite, ite_self, implies_true, kept_ite, hk, State.kept_foldl,
    State.host_updPart, State.host_setF, State.host_incF, State.host_setRing, State.kept_passLines]

theorem State.host_settleIo (s : State)  : (s.settleIo).host = s.host := by
  unfold State.settleIo
  split <;> simp only [State.host_mk, State.host_ite, ite_self, State.host_wr]

theorem State.host_tickOut (s : State) (p : PartId) : (s.tickOut p).host = s.host := by
  simp only [State.tickOut, State.host_mk, State.host_ite, ite_self, State.host_incF, State.host_settleIo]

theorem State.kept_issueStroke {s : State} (hk : Kept ks mp s.host) (p : PartId) (late : Bool) :
    Kept ks mp (s.issueStroke p late).host := by
  simp +contextual only [State.issueStroke, State.host_ite, ite_self, implies_true, hk, State.kept_foldl,
    State.host_updPart, State.host_setF, State.host_setCnt, State.host_ev, State.host_completeActing, State.host_showHeld,
    State.host_showPending, State.kept_bindRing, State.host_tickOut]

theorem State.kept_tryStrike {s : State} (hk : Kept ks mp s.host) (p : PartId) (at_ : Nat) (wait : Bool) :
    Kept ks mp (s.tryStrike p at_ wait).host := by
  simp only [State.tryStrike, State.host_ite, ite_self, kept_ite, hk, State.host_updPart, State.host_waitCycle,
    State.host_showPending, State.kept_issueStroke]

theorem State.kept_tryPending {s : State} (hk : Kept ks mp s.host) (p : PartId) (wait : Bool) :
    Kept ks mp (s.tryPending p wait).host := by
  unfold State.tryPending
  simp only []
  split <;> simp only [State.host_ite, ite_self, kept_ite, hk, State.host_incF, State.host_waitCycle, State.host_noteFull,
    State.kept_issueStroke, State.kept_tryStrike]

theorem State.host_strike (s : State) (p : PartId) : (s.strike p).host = s.host := by
  unfold State.strike
  simp only [State.host_ite, State.host_incF]
  repeat' split
  all_goals simp only [State.host_updPart, State.host_showPending, State.host_noteFull]

theorem State.host_runStart (s : State) (p : PartId) (ld : Nat) : (s.runStart p ld).host = s.host := by
  unfold State.runStart
  repeat' split
  all_goals simp only [State.host_updPart, State.host_setF, State.host_noteFeature, State.host_ev, State.host_showHeld]

theorem State.host_runStop (s : State) (p : PartId) : (s.runStop p).host = s.host := by
  simp only [State.runStop, State.host_ite, ite_self, State.host_updPart, State.host_setF]

theorem State.host_holdOn (s : State) (p : PartId) : (s.holdOn p).host = s.host := by
  simp only [State.holdOn, State.host_setF, State.host_noteHold]

theorem State.kept_holdOff {s : State} (hk : Kept ks mp s.host) (p : PartId) : Kept ks mp (s.holdOff p).host := by
  simp only [State.holdOff, State.host_ite, ite_self, kept_ite, hk, State.host_setF, State.host_recheck,
    State.host_holdEnded, State.kept_tryPending]

theorem State.kept_writeCtrl {s : State} (hk : Kept ks mp s.host) (p : PartId) (ld : Nat) (v : BitVec 32) :
    Kept ks mp (s.writeCtrl p ld v).host := by
  simp only [State.writeCtrl, State.host_ite, ite_self, kept_ite, hk, State.host_setF, State.host_runStart,
    State.host_runStop, State.host_holdOn, State.kept_holdOff]

theorem State.kept_writeTkCtrl {s : State} (hk : Kept ks mp s.host) (w : Writer) (p : PartId) (f : Fld) (v : Nat)
    (k : State → State) (hb : ∀ s, Kept ks mp s.host → Kept ks mp (k s).host) :
    Kept ks mp (s.writeTkCtrl w p f v k).host := by
  simp +contextual only [State.writeTkCtrl, implies_true, hk, State.kept_asWrite, hb]

theorem kept_execTickRunStart {s : State} (hk : Kept ks mp s.host) (w : Writer) (p : PartId) :
    KeptOut ks mp (execTickRunStart w p s) := by
  simp +contextual only [execTickRunStart, implies_true, hk, keptOut_next, State.host_runStart, State.kept_writeTkCtrl]

theorem kept_execTickRunStop {s : State} (hk : Kept ks mp s.host) (w : Writer) (p : PartId) :
    KeptOut ks mp (execTickRunStop w p s) := by
  simp +contextual only [execTickRunStop, implies_true, hk, keptOut_next, State.host_runStop, State.kept_writeTkCtrl]

theorem kept_execTickHold {s : State} (hk : Kept ks mp s.host) (w : Writer) (p : PartId) :
    KeptOut ks mp (execTickHold w p s) := by
  simp +contextual only [execTickHold, implies_true, hk, keptOut_next, State.host_holdOn, State.kept_writeTkCtrl]

theorem kept_execTickHoldRelease {s : State} (hk : Kept ks mp s.host) (w : Writer) (p : PartId) :
    KeptOut ks mp (execTickHoldRelease w p s) := by
  simp +contextual only [execTickHoldRelease, implies_true, hk, keptOut_next, State.kept_holdOff, State.kept_writeTkCtrl]

theorem kept_execTkStrikeWrite {s : State} (hk : Kept ks mp s.host) (w : Writer) (p : PartId) :
    KeptOut ks mp (execTkStrikeWrite w p s) := by
  simp +contextual only [execTkStrikeWrite, implies_true, hk, keptOut_next, State.kept_asWrite, State.host_strike]

theorem kept_execTimedGridPoint {s : State} (hk : Kept ks mp s.host) (p : PartId) :
    KeptOut ks mp (execTimedGridPoint p s) := by
  simp only [execTimedGridPoint, State.host_ite, ite_self, hk, keptOut_next, keptOut_ite, State.host_updPart,
    State.host_incF, State.host_waitCycle, State.host_noteFull, State.kept_issueStroke]

theorem State.kept_strokeNow {s : State} (hk : Kept ks mp s.host) (p : PartId) : Kept ks mp (s.strokeNow p).host := by
  simp only [State.strokeNow, State.host_ite, ite_self, kept_ite, hk, State.host_updPart, State.kept_issueStroke,
    State.kept_tryPending]

theorem kept_execPendingStrikeStroke {s : State} (hk : Kept ks mp s.host) (p : PartId) :
    KeptOut ks mp (execPendingStrikeStroke p s) := by
  simp only [execPendingStrikeStroke, hk, keptOut_next, State.kept_tryPending]

theorem State.kept_edge {s : State} (hk : Kept ks mp s.host) (p : PartId) (at_ : Nat) : Kept ks mp (s.edge p at_).host := by
  simp only [State.edge, State.host_ite, ite_self, kept_ite, hk, State.host_updPart, State.host_incF, State.host_waitCycle,
    State.host_showPending, State.host_noteFull, State.kept_issueStroke]

theorem kept_execTickInEdge {s : State} (hk : Kept ks mp s.host) (falling : Bool) :
    KeptOut ks mp (execTickInEdge falling s) := by
  simp +contextual only [execTickInEdge, State.host_mk, implies_true, hk, keptOut_next, State.kept_foldl, State.host_setF,
    State.kept_edge]

/-! ### Of Machine/Inbox.lean -/

theorem State.host_sealOne (s : State) (p : PartId) (r : Nat) : (s.sealOne p r).1.host = s.host := by
  simp only [State.sealOne, State.host_ite, State.host_fst_ite, ite_self, State.host_setF, State.host_ev,
    State.host_setRing]

theorem State.host_sealAll (s : State) (p : PartId) (r : Nat) (n : Nat) : (s.sealAll p r n).1.host = s.host := by
  induction n generalizing s with
  | zero => rfl
  | succ n ih =>
    unfold State.sealAll
    simp only [ih, State.host_fst_ite, ite_self, State.host_sealOne]

theorem State.host_sealStrike (s : State) (p : PartId) (r : Nat) : (s.sealStrike p r).host = s.host := by
  unfold State.sealStrike
  simp only [State.host_ite, ite_self, State.host_waitCycle, State.host_strike, State.host_sealAll]

theorem State.host_inboxDrop (s : State) (ld : LdId) (p : PartId) (off cause : Nat) :
    (s.inboxDrop ld p off cause).host = s.host := by
  simp only [State.inboxDrop, State.host_ite, ite_self, State.host_incF, State.host_writeDrop]

theorem kept_execInboxLineWrite {s : State} (hk : Kept ks mp s.host) (ld : LdId) (p : PartId) (off : BitVec 20)
    (bytes : List Byte) (poison : Bool) :
    KeptOut ks mp (execInboxLineWrite ld p off bytes poison s) := by
  simp only [execInboxLineWrite, State.host_ite, ite_self, hk, keptOut_next, keptOut_ite, State.host_incF,
    State.host_setRing, State.host_sealStrike, State.host_inboxDrop]

theorem kept_execInboxStale {s : State} (hk : Kept ks mp s.host) (p : PartId) (r : Fin 4) :
    KeptOut ks mp (execInboxStale p r s) := by
  simp only [execInboxStale, ite_self, hk, keptOut_next, keptOut_ite, State.host_updPart, State.host_setF,
    State.host_waitNs, State.host_ev]

theorem State.kept_skipHead {s : State} (hk : Kept ks mp s.host) (p : PartId) (r : Nat) :
    Kept ks mp (s.skipHead p r).host := by
  unfold State.skipHead
  simp only []
  split <;> simp only [State.host_ite, ite_self, kept_ite, hk, State.host_setF, State.host_ev, State.host_setRing,
    State.kept_passLines, State.host_sealStrike]

theorem State.kept_resetRing {s : State} (hk : Kept ks mp s.host) (p : PartId) (r : Nat) :
    Kept ks mp (s.resetRing p r).host := by
  simp only [State.resetRing, hk, State.host_setF, State.host_ev, State.host_setRing, State.kept_setCons]

theorem kept_execInboxSkip {s : State} (hk : Kept ks mp s.host) (w : Writer) (p : PartId) (r : Fin 4) :
    KeptOut ks mp (execInboxSkip w p r s) := by
  simp +contextual only [execInboxSkip, implies_true, hk, keptOut_next, State.kept_asWrite, State.kept_skipHead]

theorem kept_execInboxReset {s : State} (hk : Kept ks mp s.host) (w : Writer) (p : PartId) (r : Fin 4) :
    KeptOut ks mp (execInboxReset w p r s) := by
  simp (maxDischargeDepth := 99) +contextual only [execInboxReset, implies_true, hk, keptOut_next, State.kept_asWrite,
    State.kept_strokeNow, State.kept_resetRing]

theorem kept_execLandingCopy {s : State} (hk : Kept ks mp s.host) (p : PartId) (r : Fin 4) :
    KeptOut ks mp (execLandingCopy p r s) := by
  unfold execLandingCopy
  simp only []
  split <;> simp only [ite_self, hk, keptOut_next, keptOut_ite, State.host_waitCycle, State.host_holdWrite,
    State.host_setRing]

theorem State.host_parityDrop (s : State) (p : PartId) (stop cls opcode : Nat) :
    (s.parityDrop p stop cls opcode).host = s.host := by
  simp only [State.parityDrop, State.host_incF, State.host_charge, State.host_ev]

theorem kept_execSpineIntake {s : State} (hk : Kept ks mp s.host) (p : PartId) (r : Fin 4) (drop : Option Hop)
    (flip : BitVec 16) :
    KeptOut ks mp (execSpineIntake p r drop flip s) := by
  unfold execSpineIntake
  repeat' split
  all_goals simp only [hk, keptOut_next, State.host_updPart, State.host_parityDrop]

theorem State.host_checkIntakes (s : State) (q : QuireId) (tick : Nat) : (s.checkIntakes q tick).host = s.host := by
  unfold State.checkIntakes
  refine State.host_foldl (fun t a => ?_) _
  split
  · rfl
  · split <;> simp only [State.host_ite, ite_self, State.host_updPart, State.host_failTick, State.host_ev]

theorem kept_execIntakeTokenRelease {s : State} (hk : Kept ks mp s.host) (p : PartId) (r : Fin 4) :
    KeptOut ks mp (execIntakeTokenRelease p r s) := by
  unfold execIntakeTokenRelease
  simp only []
  split <;> simp only [ite_self, hk, keptOut_next, keptOut_ite, State.host_updPart, State.host_pauseTransit,
    State.host_internalToken]

theorem kept_execInjectedTokenRelease {s : State} (hk : Kept ks mp s.host) (p : PartId) :
    KeptOut ks mp (execInjectedTokenRelease p s) := by
  have tail (t : State) (ht : Kept ks mp t.host) (d : DueTok) : KeptOut ks mp (match d.notice with
      | none => .next t
      | some (ld, bit) => match t.noticeAt (p.val + 1) bit (some ld) with
        | some n => .next (t.complete n Cs.done (t.cnt (pt p) R.TK_COUNT_LO R.TK_COUNT_HI))
        | none => .next t) := by
    split
    · exact keptOut_next.mpr ht
    · split <;> simp only [keptOut_next, State.host_complete, ht]
  unfold execInjectedTokenRelease
  split
  · exact keptOut_next.mpr hk
  · exact tail _ (by simp only [hk, State.host_updPart, State.host_internalToken]) _

/-! ### Of Machine/Result.lean -/

theorem State.host_setSlot (s : State) (p : PartId) (k : Nat) (x : SlotSt) : (s.setSlot p k x).host = s.host := (rfl)

theorem State.host_resultWrite (s : State) (p : PartId) (off : Nat) (bytes : List (BitVec 8)) :
    (s.resultWrite p off bytes).host = s.host := by
  simp only [State.resultWrite, implies_true, State.host_foldl, State.host_updPart, State.host_devWriteP]

theorem State.host_landForward (s : State) (p : PartId) (w : Fwd) : (s.landForward p w).host = s.host := by
  simp only [State.landForward, State.host_ite, ite_self, State.host_incF, State.host_ev, State.host_setSlot,
    State.host_resultWrite]

theorem State.host_landForwards (s : State) (q : QuireId) (cyc : Nat) : (s.landForwards q cyc).host = s.host := by
  simp only [State.landForwards, implies_true, State.host_foldl, State.host_updQu, State.host_landForward]

theorem State.host_publishSlot (r : State) (p : PartId) (g : PubHeader) : (r.publishSlot p g).host = r.host := by
  unfold State.publishSlot
  simp only [State.host_ite, ite_self, State.host_incF, State.host_ev, State.host_setSlot, State.host_resultWrite]
  repeat' split
  all_goals simp only [State.host_incF, State.host_ev, State.host_msi, State.host_setSlot, State.host_resultWrite]

theorem State.host_settlePubs (s : State) (p : PartId) : (s.settlePubs p).host = s.host := by
  simp only [State.settlePubs, implies_true, State.host_foldl, State.host_updPart, State.host_landForwards,
    State.host_publishSlot]

theorem State.host_settleAllPubs (s : State)  : (s.settleAllPubs).host = s.host := by
  simp only [State.settleAllPubs, implies_true, State.host_foldl, State.host_settlePubs]

theorem State.host_publish (s : State) (p : PartId) (first : Nat) : (s.publish p first).host = s.host := by
  simp only [State.publish, State.host_ite, ite_self, State.host_updPart, State.host_setF, State.host_settlePubs]

theorem State.host_publishIfDone (s : State) (p : PartId) : (s.publishIfDone p).host = s.host := by
  simp only [State.publishIfDone, State.host_ite, ite_self, State.host_publish]

theorem kept_execForwardedWrite {s : State} (hk : Kept ks mp s.host) (q : QuireId) :
    KeptOut ks mp (execForwardedWrite q s) := by
  unfold execForwardedWrite
  split <;> simp only [ite_self, hk, keptOut_next, keptOut_ite, State.host_setQu, State.host_waitCycle,
    State.host_landForward, State.host_settlePubs]

theorem kept_execResultAckWrite {s : State} (hk : Kept ks mp s.host) (ld : LdId) (p : PartId) (k : Fin 32) (v : DWord) :
    KeptOut ks mp (execResultAckWrite ld p k v s) := by
  simp only [execResultAckWrite, State.host_ite, ite_self, hk, keptOut_next, keptOut_ite, State.host_updPart,
    State.host_ev, State.host_writeDrop, State.host_setSlot, State.host_settlePubs]

/-! ### Of Machine/Tick.lean -/

theorem kept_execSpineStroke {s : State} (hk : Kept ks mp s.host) (q : QuireId) (drop : Option Hop) :
    KeptOut ks mp (execSpineStroke q drop s) := by
  unfold execSpineStroke
  dsimp only
  split
  · exact keptOut_next.mpr hk
  · split <;> simp only [State.host_mk, State.host_ite, ite_self, implies_true, hk, keptOut_next, keptOut_ite,
      State.host_foldl, State.host_updSt, State.host_updQu, State.host_updPart, State.host_setF, State.host_waitCycle,
      State.host_useFree, State.host_internalToken, State.host_ev, State.host_parityDrop, State.host_checkIntakes]

theorem kept_execSpineTickdone {s : State} (hk : Kept ks mp s.host) (q : QuireId) (drop : Option Hop) :
    KeptOut ks mp (execSpineTickdone q drop s) := by
  unfold execSpineTickdone
  split <;> simp only [ite_self, implies_true, hk, keptOut_next, keptOut_ite, State.host_foldl, State.host_updQu,
    State.host_updPart, State.host_setF, State.host_waitCycle, State.host_parityDrop, State.host_publishIfDone]

theorem State.host_clearPressRegs (s : State) (q : QuireId) : (s.clearPressRegs q).host = s.host := (rfl)

theorem State.kept_startQuireReset {s : State} (hk : Kept ks mp s.host) (q : QuireId) (cause : Nat) :
    Kept ks mp (s.startQuireReset q cause).host := by
  simp only [State.startQuireReset, State.host_ite, ite_self, implies_true, kept_ite, hk, State.host_foldl,
    State.host_updQu, State.host_updPart, State.host_setF, State.host_incF, State.host_failTick, State.host_logReset,
    State.host_resetStitcher, State.kept_cancelHints, State.host_abandonPresses, State.host_addHold,
    State.host_publishIfDone, State.host_clearPressRegs]

theorem State.host_sendStall (s : State) (u : StId) (e cycles : Nat) : (s.sendStall u e cycles).host = s.host := by
  simp only [State.sendStall, State.host_ev]

theorem State.host_recordStalls (s : State) (q : QuireId) (pos : Nat) (fired : Option StId) :
    (s.recordStalls q pos fired).host = s.host := by
  unfold State.recordStalls
  refine State.host_foldl (fun t a => ?_) _
  repeat' split
  all_goals simp only [State.host_sendStall]

theorem State.host_chargeStalls (s : State) (q : QuireId) (pos : Nat) : (s.chargeStalls q pos).host = s.host := by
  unfold State.chargeStalls
  refine State.host_foldl (fun t a => ?_) _
  repeat' split
  all_goals simp only [State.host_updSt, State.host_chargeStall]

theorem State.host_failFlush (s : State) (q : QuireId) (tick deadline : Nat) :
    (s.failFlush q tick deadline).host = s.host := by
  simp only [State.failFlush, State.host_ite, ite_self, implies_true, State.host_foldl, State.host_updQu,
    State.host_failTick, State.host_recordOrphans, State.host_resetStitcher, State.host_dropDue, State.host_chargePause,
    State.host_abandonPresses, State.host_writeLedger, State.host_writeInherit, State.host_ev, State.host_publish,
    State.host_chargeStalls]

theorem State.host_overrunQuire (s : State) (q : QuireId) (fired : Option StId) :
    (s.overrunQuire q fired).host = s.host := by
  simp only [State.overrunQuire, State.host_ite, ite_self, State.host_updQu, State.host_updPart, State.host_setCnt,
    State.host_raise, State.host_failTick, State.host_publish, State.host_publishIfDone, State.host_recordStalls,
    State.host_failFlush]

theorem kept_execTickdone {s : State} (hk : Kept ks mp s.host) (u : StId) : KeptOut ks mp (execTickdone u s) := by
  simp +contextual only [execTickdone, State.host_ite, ite_self, implies_true, hk, State.host_waitCycle, State.kept_issue,
    State.host_endFiring, State.host_contractMismatch, State.host_endQuireTick, State.host_overrunQuire]

theorem kept_execRunDeadline {s : State} (hk : Kept ks mp s.host) (q : QuireId) : KeptOut ks mp (execRunDeadline q s) := by
  simp only [execRunDeadline, ite_self, hk, keptOut_next, keptOut_ite, State.host_waitCycle, State.host_overrunQuire]

theorem kept_execHangWatchdog {s : State} (hk : Kept ks mp s.host) (q : QuireId) :
    KeptOut ks mp (execHangWatchdog q s) := by
  unfold execHangWatchdog
  simp only [ite_self, hk, keptOut_next, keptOut_ite, State.host_updQu, State.host_waitNs, State.host_failTick,
    State.host_ev, State.kept_startQuireReset]
  repeat' split
  all_goals simp only [hk, keptOut_next, State.host_waitCycle, State.host_failTick, State.host_ev,
    State.kept_startQuireReset]

theorem kept_execSendStallWatchdog {s : State} (hk : Kept ks mp s.host) (u : StId) :
    KeptOut ks mp (execSendStallWatchdog u s) := by
  unfold execSendStallWatchdog
  repeat' split
  all_goals simp only [ite_self, hk, keptOut_next, keptOut_ite, State.host_updSt, State.host_updQu, State.host_waitCycle,
    State.host_sendStall, State.host_overrunQuire]

theorem State.host_endInjected (s : State) (p : PartId) : (s.endInjected p).host = s.host := by
  unfold State.endInjected
  refine State.host_foldl (fun t a => ?_) _
  repeat' split
  all_goals simp only [State.host_complete]

theorem kept_execFrameClose {s : State} (hk : Kept ks mp s.host) (p : PartId) : KeptOut ks mp (execFrameClose p s) := by
  unfold execFrameClose
  split <;> simp only [State.host_ite, ite_self, hk, keptOut_next, keptOut_ite, State.host_updPart, State.host_setF,
    State.host_waitCycle, State.host_showHeld, State.host_settlePubs, State.host_endInjected]

end Sys2Proof.Machine
end

section
namespace Sys2Proof.Machine

-- Proved in parallel, these proofs hold a thread each, whose stacks pass the check's memory.
set_option Elab.async false

variable {ks : List Instr} {mp : Prop}

/-! ### Of Machine/Recorder.lean -/

theorem State.kept_areaWrite {s : State} (hk : Kept ks mp s.host) (x : Src) (off : Nat) (bytes : List (BitVec 8)) :
    Kept ks mp (s.areaWrite x off bytes).host := by
  unfold State.areaWrite
  repeat' split
  all_goals simp only [hk, State.kept_pmWrite, State.host_devWrite, State.host_devWriteP, State.host_devWriteMem]

theorem State.host_vector0 (s : State) (x : Src) : (s.vector0 x).host = s.host := by
  unfold State.vector0
  repeat' split
  all_goals simp only [State.host_msi]

theorem State.host_showCol (s : State)  : (s.showCol).host = s.host := (rfl)

theorem State.host_pendCopy (s : State) (x : Src) (i : Nat) : (s.pendCopy x i).host = s.host := by
  simp only [State.pendCopy, State.host_mk, State.host_ite, ite_self, State.host_showCol]

theorem State.kept_writeRecord {s : State} (hk : Kept ks mp s.host) (x : Src) (e : EvRec) :
    Kept ks mp (s.writeRecord x e).host := by
  unfold State.writeRecord
  repeat' split
  all_goals simp only [State.host_mk, hk, State.host_setSrc, State.host_incF, State.host_waitNs, State.kept_areaWrite,
    State.host_vector0, State.host_pendCopy]

theorem State.host_showStage (s : State)  : (s.showStage).host = s.host := (rfl)

theorem State.host_stageLost (s : State) (x : Src) : (s.stageLost x).host = s.host := by
  simp only [State.stageLost, State.host_mk, State.host_ite, ite_self, State.host_updSrc, State.host_incF, State.host_ev]

theorem State.host_stage (s : State) (x : Src) (e : EvRec) : (s.stage x e).host = s.host := by
  unfold State.stage
  repeat' split
  all_goals simp only [State.host_mk, State.host_showStage, State.host_stageLost]

theorem State.host_parityAt (s : State) (p : Option PartId) (stop cls opcode : Nat) :
    (s.parityAt p stop cls opcode).host = s.host := by
  unfold State.parityAt
  split <;> simp only [State.host_ev, State.host_parityDrop]

theorem State.host_nextSeq (s : State) (stop cls : Nat) : (s.nextSeq stop cls).1.host = s.host := by
  simp only [State.nextSeq, State.host_mk]

theorem State.host_spSend (s : State) (m : SpMsg) : (s.spSend m).host = s.host := by
  simp only [State.spSend, State.host_mk, State.host_nextSeq]

theorem State.host_spArrive (s : State) (part : Option PartId) (stop dest cls opcode arg : Nat) (drop : Option Hop) :
    (s.spArrive part stop dest cls opcode arg drop).1.host = s.host := by
  unfold State.spArrive
  repeat' split
  all_goals simp only [State.host_mk, State.host_parityAt, State.host_nextSeq]

theorem State.kept_drainStage {s : State} (hk : Kept ks mp s.host) (p : PartId) : Kept ks mp (s.drainStage p).host := by
  simp +contextual only [State.drainStage, State.host_mk, State.host_ite, ite_self, implies_true, kept_ite, hk,
    State.kept_foldl, State.kept_writeRecord, State.host_showStage]

theorem State.kept_record {s : State} (hk : Kept ks mp s.host) (x : Src) (e : EvRec) : Kept ks mp (s.record x e).host := by
  unfold State.record
  repeat' split
  all_goals simp only [hk, State.kept_writeRecord, State.host_stage, State.kept_drainStage]

theorem kept_execSpineEvent {s : State} (hk : Kept ks mp s.host) (k : Fin 38) (drop : Option Hop) :
    KeptOut ks mp (execSpineEvent k drop s) := by
  unfold execSpineEvent
  simp only []
  split <;> simp only [ite_self, hk, keptOut_next, keptOut_ite, State.host_updSrc, State.host_spArrive, State.kept_record]

theorem kept_execFloodUpdate {s : State} (hk : Kept ks mp s.host) (k : Fin 38) : KeptOut ks mp (execFloodUpdate k s) := by
  simp only [execFloodUpdate, State.host_ite, ite_self, hk, keptOut_next, keptOut_ite, State.host_updSrc, State.host_waitNs]

theorem kept_execStagingDrain {s : State} (hk : Kept ks mp s.host) (p : PartId) : KeptOut ks mp (execStagingDrain p s) := by
  simp only [execStagingDrain, hk, keptOut_next, State.kept_drainStage]

theorem State.host_writeTrig (s : State) (reg : Nat) (v : BitVec 32) : (s.writeTrig reg v).host = s.host := by
  unfold State.writeTrig
  simp only []
  split <;> simp only [State.host_mk, State.host_ev]

theorem kept_execTriggerTableWrite {s : State} (hk : Kept ks mp s.host) (w : Writer) (reg : Fin 11) (v : Word) :
    KeptOut ks mp (execTriggerTableWrite w reg v s) := by
  simp +contextual only [execTriggerTableWrite, implies_true, hk, keptOut_next, State.kept_asWrite, State.host_writeTrig]

theorem State.host_colWrite (s : State) (sec off : Nat) (bytes : List (BitVec 8)) :
    (s.colWrite sec off bytes).host = s.host := (rfl)

theorem State.host_colAppend (s : State) (sec size kept : Nat) (bytes : List (BitVec 8)) :
    (s.colAppend sec size kept bytes).host = s.host := by
  simp only [State.colAppend, State.host_colWrite]

theorem State.host_flashFail (s : State) (fail : Bool) (sec off : Nat) : (s.flashFail fail sec off).host = s.host := by
  simp only [State.flashFail, State.host_ite, ite_self, State.host_ev]

theorem kept_execColophonCopy {s : State} (hk : Kept ks mp s.host) (fail : Bool) :
    KeptOut ks mp (execColophonCopy fail s) := by
  unfold execColophonCopy
  simp only []
  repeat' split
  all_goals simp only [State.host_mk, hk, keptOut_next, State.host_incF, State.host_waitNs, State.host_pmRead,
    State.host_ev, State.host_showCol, State.host_colWrite, State.host_flashFail]

theorem State.host_flushRam (s : State)  : (s.flushRam).host = s.host := by
  simp only [State.flushRam, State.host_mk]

theorem kept_execColophonFlush {s : State} (hk : Kept ks mp s.host) (wear : Fin 101) (fail : Bool) :
    KeptOut ks mp (execColophonFlush wear fail s) := by
  simp only [execColophonFlush, State.host_mk, State.host_ite, ite_self, hk, keptOut_next, keptOut_ite, State.host_setF,
    State.host_waitNs, State.host_ev, State.host_flashFail, State.host_flushRam]

/-! ### Of Machine/Clock.lean -/

theorem State.host_evalShield (s : State) (p : PartId) (writer : Nat) : (s.evalShield p writer).host = s.host := by
  simp only [State.evalShield, State.host_ite, ite_self, State.host_setF, State.host_incF, State.host_ev]

theorem State.host_evalShields (s : State)  : (s.evalShields).host = s.host := by
  simp only [State.evalShields, implies_true, State.host_foldl, State.host_evalShield]

theorem State.host_dueStep (s : State) (h : Half) (c : Nat) : (s.dueStep h c).host = s.host := by
  simp only [State.dueStep, implies_true, State.host_foldl, State.host_updTherm, State.host_addHold]

theorem State.host_retarget (s : State) (h : Half) : (s.retarget h).host = s.host := by
  simp only [State.retarget, State.host_ite, ite_self, implies_true, State.host_foldl, State.host_updTherm,
    State.host_dropHold, State.host_dueStep]

theorem State.host_recentre (s : State)  : (s.recentre).host = s.host := by
  simp only [State.recentre, State.host_ite, ite_self, implies_true, State.host_foldl, State.host_updQu]

theorem State.host_setClock (s : State) (h : Half) (c : Nat) : (s.setClock h c).host = s.host := by
  simp only [State.setClock, implies_true, State.host_foldl, State.host_setF, State.host_ev, State.host_recentre]

theorem State.kept_releaseHalf {s : State} (hk : Kept ks mp s.host) (h : Half) (c : HoldCause) :
    Kept ks mp (s.releaseHalf h c).host := by
  simp +contextual only [State.releaseHalf, implies_true, hk, State.kept_foldl, State.host_dropHold, State.kept_tryPending]

theorem State.host_showLevel (s : State) (h : Half) : (s.showLevel h).host = s.host := by
  simp only [State.showLevel, State.host_setF]

theorem kept_execClockStep {s : State} (hk : Kept ks mp s.host) (h : Half) : KeptOut ks mp (execClockStep h s) := by
  unfold execClockStep
  split <;> simp only [ite_self, hk, keptOut_next, keptOut_ite, State.host_updTherm, State.host_waitNs,
    State.host_setClock, State.kept_releaseHalf, State.host_showLevel]

theorem State.host_critical (s : State) (h : Half) (sensor : Nat) (t : Int) : (s.critical h sensor t).host = s.host := by
  simp only [State.critical, implies_true, State.host_foldl, State.host_incF, State.host_updTherm, State.host_failTick,
    State.host_ev, State.host_addHold, State.host_dropHold, State.host_setClock, State.host_showLevel]

theorem State.host_sampleHalf (s : State) (l : List Int) (h : Half) : (s.sampleHalf l h).host = s.host := by
  simp only [State.sampleHalf, State.host_mk, State.host_ite, ite_self, State.host_setF, State.host_updTherm,
    State.host_retarget, State.host_critical]

theorem kept_execTempSample {s : State} (hk : Kept ks mp s.host) (junctions : List Int) (hubs : List Int)
    (plate : Int) :
    KeptOut ks mp (execTempSample junctions hubs plate s) := by
  simp only [execTempSample, State.host_mk, State.host_ite, ite_self, hk, keptOut_next, keptOut_ite, State.host_setF,
    State.host_incF, State.host_ev, State.host_evalShields, State.host_sampleHalf]

theorem kept_execThermalStepUp {s : State} (hk : Kept ks mp s.host) (h : Half) : KeptOut ks mp (execThermalStepUp h s) := by
  unfold execThermalStepUp
  simp only []
  split <;> simp only [ite_self, hk, keptOut_next, keptOut_ite, State.host_updTherm, State.host_waitNs, State.host_retarget]

theorem kept_execThermalCritEnd {s : State} (hk : Kept ks mp s.host) (h : Half) :
    KeptOut ks mp (execThermalCritEnd h s) := by
  unfold execThermalCritEnd
  simp only []
  split <;> simp only [ite_self, hk, keptOut_next, keptOut_ite, State.host_updTherm, State.host_waitNs,
    State.host_evalShields, State.host_setClock, State.kept_releaseHalf, State.host_showLevel]

theorem kept_execRestrictionLift {s : State} (hk : Kept ks mp s.host) (i : Fin 16) :
    KeptOut ks mp (execRestrictionLift i s) := by
  unfold execRestrictionLift
  repeat' split
  all_goals simp only [State.host_mk, hk, keptOut_next, State.host_waitNs, State.host_retarget]

theorem kept_execClockMonitorWindow {s : State} (hk : Kept ks mp s.host) (h : Half) (kHz : BitVec 32) :
    KeptOut ks mp (execClockMonitorWindow h kHz s) := by
  unfold execClockMonitorWindow
  repeat' split
  all_goals simp only [State.host_ite, ite_self, implies_true, hk, keptOut_next, keptOut_ite, State.host_foldl,
    State.host_updTherm, State.host_charge, State.host_failTick, State.host_ev, State.host_addHold]

theorem kept_execClockRelockRelease {s : State} (hk : Kept ks mp s.host) (h : Half) :
    KeptOut ks mp (execClockRelockRelease h s) := by
  unfold execClockRelockRelease
  split <;> simp only [hk, keptOut_next, State.host_updTherm, State.host_waitNs, State.kept_releaseHalf]

theorem State.host_setHalf (s : State) (h : Half) (v : Nat) : (s.setHalf h v).host = s.host := (rfl)

theorem State.host_noteHalf (s : State) (h : Half) (old new result ld : Nat) :
    (s.noteHalf h old new result ld).host = s.host := by
  simp only [State.noteHalf, State.host_raise]

theorem State.host_halfAnswer (s : State) (h : Half) (target result ld : Nat) :
    (s.halfAnswer h target result ld).host = s.host := by
  simp only [State.halfAnswer, State.host_ite, ite_self, State.host_setF, State.host_noteHalf]

theorem State.host_startUp (s : State) (h : Half) (first : PartId) (ld : Nat) : (s.startUp h first ld).host = s.host := by
  simp only [State.startUp, State.host_mk, State.host_setF, State.host_setHalf]

theorem State.host_halfReq (s : State) (h : Half) (target ld : Nat) : (s.halfReq h target ld).host = s.host := by
  simp only [State.halfReq, State.host_mk, State.host_ite, ite_self, State.host_setF, State.host_setHalf,
    State.host_halfAnswer, State.host_startUp]

theorem State.kept_halfCmd {s : State} (hk : Kept ks mp s.host) (w : Writer) (h : Half) (target : Nat) :
    Kept ks mp (s.halfCmd w h target).host := by
  simp +contextual only [State.halfCmd, implies_true, hk, State.kept_asWrite, State.host_halfReq]

theorem kept_execHalfClockUp {s : State} (hk : Kept ks mp s.host) (w : Writer) (h : Half) :
    KeptOut ks mp (execHalfClockUp w h s) := by
  simp only [execHalfClockUp, hk, keptOut_next, State.kept_halfCmd]

theorem kept_execHalfRetention {s : State} (hk : Kept ks mp s.host) (w : Writer) (h : Half) :
    KeptOut ks mp (execHalfRetention w h s) := by
  simp only [execHalfRetention, hk, keptOut_next, State.kept_halfCmd]

theorem kept_execHalfStop {s : State} (hk : Kept ks mp s.host) (w : Writer) (h : Half) :
    KeptOut ks mp (execHalfStop w h s) := by
  simp only [execHalfStop, hk, keptOut_next, State.kept_halfCmd]

theorem kept_execHalfClockDownDone {s : State} (hk : Kept ks mp s.host) (h : Half) :
    KeptOut ks mp (execHalfClockDownDone h s) := by
  unfold execHalfClockDownDone
  split <;> simp only [State.host_mk, ite_self, implies_true, hk, keptOut_next, keptOut_ite, State.host_foldl,
    State.host_updPart, State.host_setF, State.host_evalShields, State.host_setHalf, State.host_noteHalf]

theorem State.host_wakeHalf (s : State) (p : PartId) (ld : Nat) : (s.wakeHalf p ld).host = s.host := by
  simp only [State.wakeHalf, State.host_ite, ite_self, State.host_incF, State.host_noteHalf, State.host_startUp]

theorem State.host_upDone (s : State) (h : Half) : (s.upDone h).1.host = s.host := by
  unfold State.upDone
  split <;> simp only [State.host_mk, State.host_fst_ite, ite_self, implies_true, State.host_foldl, State.host_updPart,
    State.host_setF, State.host_waitNs, State.host_endRefusals, State.host_evalShields, State.host_setHalf,
    State.host_noteHalf]

/-! ### Of Machine/Mesh.lean -/

theorem State.host_setLink (s : State) (n : LinkId) (dir : Bool) (x : LinkSt) : (s.setLink n dir x).host = s.host := (rfl)

theorem State.host_colDefectOf (s : State) (origin kind unit pos : Nat) :
    (s.colDefectOf origin kind unit pos).host = s.host := by
  simp only [State.colDefectOf, State.host_colAppend]

theorem State.host_colDefect (s : State) (kind unit pos : Nat) : (s.colDefect kind unit pos).host = s.host := by
  simp only [State.colDefect, State.host_colDefectOf]

theorem State.host_blame (s : State) (n : LinkId) (dir : Bool) (lane : Nat) : (s.blame n dir lane).host = s.host := by
  simp only [State.blame, State.host_ite, ite_self, State.host_charge, State.host_ev, State.host_setLink]

theorem kept_execLinkFlit {s : State} (hk : Kept ks mp s.host) (n : LinkId) (dir ok : Bool) (lane : Fin 1056) :
    KeptOut ks mp (execLinkFlit n dir ok lane s) := by
  simp only [execLinkFlit, State.host_mk, ite_self, hk, keptOut_next, keptOut_ite, State.host_charge, State.host_colAdd,
    State.host_ev, State.host_setLink, State.host_blame]

theorem kept_execLinkRetrainDone {s : State} (hk : Kept ks mp s.host) (n : LinkId) (dir : Bool) :
    KeptOut ks mp (execLinkRetrainDone n dir s) := by
  unfold execLinkRetrainDone
  simp only []
  split <;> simp only [hk, keptOut_next, State.host_waitNs, State.host_setLink]

theorem kept_execLaneSpare {s : State} (hk : Kept ks mp s.host) (n : LinkId) (dir : Bool) :
    KeptOut ks mp (execLaneSpare n dir s) := by
  unfold execLaneSpare
  simp only []
  split <;> simp only [State.host_mk, ite_self, hk, keptOut_next, keptOut_ite, State.host_waitCycle, State.host_ev,
    State.host_setLink, State.host_colDefect]

theorem kept_execLateTransitArrival {s : State} (hk : Kept ks mp s.host) (q : QuireId) (credit : Bool) (n : BitVec 16)
    (cause : LateCause) (upset : Word) :
    KeptOut ks mp (execLateTransitArrival q credit n cause upset s) := by
  unfold execLateTransitArrival
  repeat' split
  all_goals simp only [hk, keptOut_next, State.host_releaseFlight, State.host_releaseCredit]

theorem State.host_checkEntries (s : State) (q : QuireId) : (s.checkEntries q).host = s.host := by
  unfold State.checkEntries
  refine State.host_foldl (fun t a => ?_) _
  repeat' split
  all_goals simp only [State.host_setF, State.host_ev]

theorem State.host_copyTo (s : State) (p : PartId) (stops : List Nat) (ws : List (BitVec 32)) :
    (s.copyTo p stops ws).host = s.host := by
  simp only [State.copyTo, State.host_mk]

theorem State.host_copyMap (s : State) (p : PartId) (ws : List (BitVec 32)) : (s.copyMap p ws).host = s.host := (rfl)

theorem State.host_holdMapset (s : State) (p r : PartId) : (s.holdMapset p r).host = s.host := by
  simp only [State.holdMapset, State.host_ite, ite_self, State.host_spSend, State.host_wakeHalf]

theorem State.host_sendMap (s : State) (p : PartId) : (s.sendMap p).host = s.host := by
  simp only [State.sendMap, State.host_mk, implies_true, State.host_foldl, State.host_copyTo, State.host_holdMapset]

theorem State.host_putMap (s : State) (p : PartId) (m : List (Option TileId)) (spare : Option TileId) :
    (s.putMap p m spare).host = s.host := by
  simp only [State.putMap, implies_true, State.host_foldl, State.host_wr, State.host_setF]

theorem State.host_writeMap (s : State) (p : PartId) (m : List (Option TileId)) (spare : Option TileId) :
    (s.writeMap p m spare).host = s.host := by
  simp only [State.writeMap, State.host_copyMap, State.host_putMap]

theorem State.host_mapErrors (s : State) (p : PartId) : (s.mapErrors p).host = s.host := by
  simp only [State.mapErrors, State.host_ite, ite_self, implies_true, State.host_foldl, State.host_setF]

theorem State.host_applyMap (s : State) (p : PartId) (m : List (Option TileId)) (spare : Option TileId) (gone : Nat) :
    (s.applyMap p m spare gone).host = s.host := by
  simp only [State.applyMap, State.host_mk, implies_true, State.host_foldl, State.host_updQu, State.host_setF,
    State.host_incF, State.host_ev, State.host_sendMap, State.host_putMap, State.host_mapErrors]

theorem State.host_dropUnits (s : State) (p : PartId) : (s.dropUnits p).host = s.host := by
  simp only [State.dropUnits, State.host_mk, State.host_settleAll]

theorem State.host_drainUnits (s : State) (p : PartId) : (s.drainUnits p).1.host = s.host := by
  simp only [State.drainUnits, State.host_fst_ite, ite_self, State.host_waitNs, State.host_landAll, State.host_dropUnits]

theorem kept_execMapSwitch {s : State} (hk : Kept ks mp s.host) (p : PartId) (m : List (Option TileId))
    (spare : Option TileId) :
    KeptOut ks mp (execMapSwitch p m spare s) := by
  simp +contextual only [execMapSwitch, ite_self, implies_true, hk, keptOut_next, keptOut_ite, State.host_foldl,
    State.kept_foldl, State.host_waitCycle, State.host_addHold, State.host_dropHold, State.kept_tryPending,
    State.host_applyMap, State.host_drainUnits]

theorem kept_execSpineMapset {s : State} (hk : Kept ks mp s.host) (p : PartId) (stop : Fin 42) (drop : Option Hop) :
    KeptOut ks mp (execSpineMapset p stop drop s) := by
  unfold execSpineMapset
  split <;> simp only [ite_self, hk, keptOut_next, keptOut_ite, State.host_parityDrop, State.host_copyTo,
    State.host_holdMapset]

/-! ### Of Machine/Notices.lean -/

theorem State.host_spHold (s : State) (p : PartId) (stop dest cls opcode arg : Nat) :
    (s.spHold p stop dest cls opcode arg).host = s.host := (rfl)

theorem State.host_spRefuse (s : State) (p : PartId) (stop dest cls opcode arg cause : Nat) :
    (s.spRefuse p stop dest cls opcode arg cause).host = s.host := by
  simp only [State.spRefuse, State.host_mk, State.host_noteAsleep, State.host_spSend]

theorem State.host_sendNotice (s : State) (n : Notice) (held : Bool) : (s.sendNotice n held).host = s.host := by
  simp only [State.sendNotice, State.host_setPhase, State.host_spSend]

theorem State.host_forwardNotice (s : State) (n : Notice) : (s.forwardNotice n).host = s.host := by
  unfold State.forwardNotice
  split <;> simp only [State.host_ite, ite_self, State.host_ev, State.host_complete, State.host_wakeHalf,
    State.host_sendNotice]

theorem State.host_ringBit (s : State) (ld mailbox bit : Nat) (rcd : List (BitVec 8)) :
    (s.ringBit ld mailbox bit rcd).host = s.host := by
  unfold State.ringBit
  repeat' split
  all_goals simp only [State.host_mk, State.host_ite, ite_self, State.host_pushComp, State.host_showPend,
    State.host_forwardNotice]

theorem kept_execNoticeRecordWrite {s : State} (hk : Kept ks mp s.host) (ld : LdId) (off : BitVec 12)
    (bytes : List Byte) (poison : Bool) :
    KeptOut ks mp (execNoticeRecordWrite ld off bytes poison s) := by
  unfold execNoticeRecordWrite
  have ring (t : State) (a m n : Nat) (b : List (BitVec 8)) (ht : Kept ks mp t.host) :
      Kept ks mp (({ t with ctlPage := memWrite t.ctlPage a b }).ringBit ld.val m n b).host := by
    rw [State.host_ringBit]
    exact ht.ctlPage_of fun h => spWf_memWrite _ _ _ h
  have drop {t : State} (ht : Kept ks mp t.host) (o c : Nat) : Kept ks mp (t.writeDrop .hub ld.val o c).host := by
    rwa [State.host_writeDrop]
  extract_lets o n first s1
  have kept1 : Kept ks mp s1.host := by
    simp only [s1, State.host_ite, State.host_writeDrop, ite_self, hk]
  split
  · exact keptOut_next.mpr hk
  · split
    · exact keptOut_next.mpr (drop hk ..)
    · split
      · exact keptOut_next.mpr (drop hk ..)
      · refine keptOut_next.mpr (State.kept_foldl (fun t i ht => ?_) _ kept1)
        extract_lets a rcd m' ok
        split
        · exact drop ht ..
        · exact ring _ _ _ _ _ ht

theorem State.host_deliverNotice (s : State) (ld mailbox bit : Nat) : (s.deliverNotice ld mailbox bit).host = s.host := by
  unfold State.deliverNotice
  repeat' split
  all_goals simp only [State.host_ev, State.host_complete, State.host_refuse, State.host_setPhase]

theorem State.host_writeMask (s : State) (p : PartId) (v : BitVec 32) : (s.writeMask p v).host = s.host := by
  simp only [State.writeMask, implies_true, State.host_foldl, State.host_setF, State.host_forwardNotice]

theorem kept_execMbMaskWrite {s : State} (hk : Kept ks mp s.host) (w : Writer) (p : PartId) (v : Word) :
    KeptOut ks mp (execMbMaskWrite w p v s) := by
  simp +contextual only [execMbMaskWrite, implies_true, hk, keptOut_next, State.kept_asWrite, State.host_writeMask]

theorem kept_execDoorbellStrike {s : State} (hk : Kept ks mp s.host) (p : PartId) :
    KeptOut ks mp (execDoorbellStrike p s) := by
  unfold execDoorbellStrike
  split <;> simp only [ite_self, hk, keptOut_next, keptOut_ite, State.host_refuse, State.host_setPhase, State.host_strike]

theorem kept_execDoorbellHold {s : State} (hk : Kept ks mp s.host) (p : PartId) : KeptOut ks mp (execDoorbellHold p s) := by
  unfold execDoorbellHold
  split <;> simp only [hk, keptOut_next, State.host_setPhase, State.host_holdOn]

theorem kept_execDoorbellRelease {s : State} (hk : Kept ks mp s.host) (p : PartId) :
    KeptOut ks mp (execDoorbellRelease p s) := by
  unfold execDoorbellRelease
  split <;> simp only [hk, keptOut_next, State.host_complete, State.kept_holdOff]

theorem kept_execDoorbellReserved {s : State} (hk : Kept ks mp s.host) (p : PartId) (bit : Fin 3) :
    KeptOut ks mp (execDoorbellReserved p bit s) := by
  unfold execDoorbellReserved
  split <;> simp only [hk, keptOut_next, State.host_refuse]

theorem kept_execDoorbellInject {s : State} (hk : Kept ks mp s.host) (p : PartId) (i : Fin 24) :
    KeptOut ks mp (execDoorbellInject p i s) := by
  unfold execDoorbellInject
  split <;> simp only [State.host_ite, ite_self, hk, keptOut_next, keptOut_ite, State.host_refuse, State.host_setPhase,
    State.host_strike]

theorem State.host_writeEntries (s : State) (l : List EntryWrite) : (s.writeEntries l).host = s.host := by
  simp only [State.writeEntries, implies_true, State.host_foldl, State.host_wr]

theorem kept_execDoorbellReconfiguration {s : State} (hk : Kept ks mp s.host) (p : PartId) (quires : BitVec 8)
    (l : List EntryWrite) :
    KeptOut ks mp (execDoorbellReconfiguration p quires l s) := by
  unfold execDoorbellReconfiguration
  simp only []
  repeat' split
  all_goals simp only [hk, keptOut_next, State.host_setF, State.kept_startDrain, State.host_endDrain, State.host_commit,
    State.host_complete, State.host_setPhase, State.host_addHold, State.host_dropHold, State.kept_tryPending,
    State.host_writeEntries]

/-! ### Of Machine/Rails.lean -/

theorem State.host_colRecord (s : State) (x : Src) (code : Nat) (cap : List Nat) :
    (s.colRecord x code cap).host = s.host := by
  simp only [State.colRecord, State.host_mk, State.host_colWrite]

theorem State.kept_dieClear {s : State} (hk : Kept ks mp s.host) (keepMem : Bool) :
    Kept ks mp (s.dieClear keepMem).host := by
  obtain ⟨hp, hw⟩ := hk
  refine ⟨hp, fun h => ⟨?_, rfl, rfl⟩⟩
  cases keepMem
  · rfl
  · exact (hw h).1

theorem State.kept_dieOff {s : State} (hk : Kept ks mp s.host) (keepMem : Bool) : Kept ks mp (s.dieOff keepMem).host := by
  simp only [State.dieOff, State.host_mk, hk, State.kept_dieClear]

theorem State.host_keepDevice (s : State) (old : State) : (s.keepDevice old).host = s.host := (rfl)

/-! ### Of Machine/Power.lean -/

theorem State.host_setBudget (s : State) (p : PartId) (v ld : Nat) : (s.setBudget p v ld).host = s.host := by
  simp only [State.setBudget, State.host_mk, State.host_ite, ite_self, State.host_setF, State.host_raise, State.host_ev]

theorem kept_execPwBudgetWrite {s : State} (hk : Kept ks mp s.host) (w : Writer) (p : PartId) (v : Word) :
    KeptOut ks mp (execPwBudgetWrite w p v s) := by
  simp +contextual only [execPwBudgetWrite, implies_true, hk, keptOut_next, State.kept_asWrite, State.host_setBudget]

theorem State.host_capOn (s : State) (p : PartId) : (s.capOn p).host = s.host := by
  simp only [State.capOn, State.host_updPart, State.host_setF, State.host_incF, State.host_ev]

theorem State.host_capOff (s : State) (p : PartId) : (s.capOff p).host = s.host := by
  simp only [State.capOff, implies_true, State.host_foldl, State.host_updQu, State.host_updPart, State.host_setF]

theorem kept_execPowerSample {s : State} (hk : Kept ks mp s.host) (fast slow : List Nat) (input : Nat) :
    KeptOut ks mp (execPowerSample fast slow input s) := by
  simp only [execPowerSample, State.host_ite, ite_self, implies_true, hk, keptOut_next, keptOut_ite, State.host_foldl,
    State.host_updPart, State.host_setF, State.host_incF, State.host_ev, State.host_capOn, State.host_capOff]

theorem State.host_setSpread (s : State) (v : Nat) : (s.setSpread v).host = s.host := by
  simp only [State.setSpread, State.host_mk, State.host_ite, ite_self, implies_true, State.host_foldl, State.host_setF,
    State.host_updTherm, State.host_dueStep]

theorem kept_execPwClkWrite {s : State} (hk : Kept ks mp s.host) (w : Writer) (v : Word) :
    KeptOut ks mp (execPwClkWrite w v s) := by
  simp +contextual only [execPwClkWrite, implies_true, hk, keptOut_next, State.kept_asWrite, State.host_setSpread]

theorem State.host_writeTickIo (s : State) (v : BitVec 32) : (s.writeTickIo v).host = s.host := by
  simp only [State.writeTickIo, State.host_mk, State.host_settleIo]

theorem kept_execHbTickIoWrite {s : State} (hk : Kept ks mp s.host) (w : Writer) (v : Word) :
    KeptOut ks mp (execHbTickIoWrite w v s) := by
  simp +contextual only [execHbTickIoWrite, implies_true, hk, keptOut_next, State.kept_asWrite, State.host_writeTickIo]

theorem State.kept_inputFault {s : State} (hk : Kept ks mp s.host) (mv ca : Nat) :
    Kept ks mp (s.inputFault mv ca).host := by
  simp only [State.inputFault, State.host_mk, State.host_ite, ite_self, hk, State.host_flushRam, State.host_colRecord,
    State.kept_dieOff]

theorem kept_execInputSample {s : State} (hk : Kept ks mp s.host) (mv ca : BitVec 16) :
    KeptOut ks mp (execInputSample mv ca s) := by
  simp only [execInputSample, State.host_mk, State.host_ite, ite_self, hk, keptOut_next, keptOut_ite, State.host_setF,
    State.host_ev, State.host_evalShields, State.kept_inputFault]

theorem State.kept_trip {s : State} (hk : Kept ks mp s.host) (sensor : Nat) (t : Int) (hot : Option Nat) :
    Kept ks mp (s.trip sensor t hot).host := by
  simp only [State.trip, State.host_mk, hk, State.host_colRecord, State.kept_dieOff]

theorem kept_execThermalTrip {s : State} (hk : Kept ks mp s.host)  : KeptOut ks mp (execThermalTrip s) := by
  unfold execThermalTrip
  simp only [hk, keptOut_next, keptOut_ite]
  repeat' split
  all_goals simp only [hk, keptOut_next, State.host_waitNs, State.kept_trip]

/-! ### Of Machine/RegWrite.lean -/

theorem State.host_mdGo (s : State) (p : PartId) : (s.mdGo p).host = s.host := by
  simp only [State.mdGo, State.host_ite, ite_self, State.host_updPart, State.host_setF]

theorem State.host_setHoldoff (s : State) (p : PartId) (minutes : Nat) : (s.setHoldoff p minutes).host = s.host := by
  simp only [State.setHoldoff, State.host_updPart]

theorem State.kept_closeWindow {s : State} (hk : Kept ks mp s.host) (p : PartId) : Kept ks mp (s.closeWindow p).host := by
  simp only [State.closeWindow, State.host_ite, ite_self, kept_ite, hk, State.host_updPart, State.host_dropHold,
    State.kept_tryPending]

theorem State.kept_setWindow {s : State} (hk : Kept ks mp s.host) (p : PartId) (ms : Nat) :
    Kept ks mp (s.setWindow p ms).host := by
  simp only [State.setWindow, State.host_ite, ite_self, kept_ite, hk, State.host_updPart, State.host_addHold,
    State.kept_closeWindow]

theorem State.host_plainWrite (s : State) (addr : Nat) (v : BitVec 32) : (s.plainWrite addr v).host = s.host := by
  unfold State.plainWrite
  split <;> simp only [State.host_wrAddr]

theorem State.host_hubWrite (s : State) (w : Writer) (off : Nat) (v : BitVec 32) : (s.hubWrite w off v).host = s.host := by
  simp only [State.hubWrite, State.host_ite, ite_self, State.host_writeTrig, State.host_halfReq, State.host_setSpread,
    State.host_writeTickIo, State.host_plainWrite]

theorem State.kept_writeReconf {s : State} (hk : Kept ks mp s.host) (p : PartId) (v : BitVec 32) :
    Kept ks mp (s.writeReconf p v).host := by
  simp only [State.writeReconf, State.host_ite, ite_self, kept_ite, hk, State.host_setF, State.kept_startDrain,
    State.host_commit]

theorem State.kept_inboxWrite {s : State} (hk : Kept ks mp s.host) (p : PartId) (off : Nat) (v : BitVec 32) :
    Kept ks mp (s.inboxWrite p off v).host := by
  simp only [State.inboxWrite, State.host_ite, ite_self, kept_ite, hk, State.kept_skipHead, State.kept_resetRing,
    State.host_plainWrite]

theorem State.kept_partWrite {s : State} (hk : Kept ks mp s.host) (w : Writer) (p : PartId) (off : Nat)
    (v : BitVec 32) :
    Kept ks mp (s.partWrite w p off v).host := by
  simp only [State.partWrite, State.host_ite, ite_self, kept_ite, hk, State.host_uploadFlush, State.host_ev,
    State.host_strike, State.kept_writeCtrl, State.host_writeMask, State.host_setBudget, State.host_mdGo,
    State.host_setHoldoff, State.kept_setWindow, State.host_plainWrite, State.kept_writeReconf, State.kept_inboxWrite]

theorem State.host_writePsMode (s : State) (w : Writer) (q : QuireId) (v : BitVec 32) :
    (s.writePsMode w q v).host = s.host := by
  simp only [State.writePsMode, State.host_ite, ite_self, State.host_noteFeature, State.host_evalShield,
    State.host_plainWrite]

theorem State.host_quireWrite (s : State) (w : Writer) (q : QuireId) (off : Nat) (v : BitVec 32) :
    (s.quireWrite w q off v).host = s.host := by
  simp only [State.quireWrite, State.host_ite, ite_self, State.host_classWrite, State.host_stCtrlReset, State.host_ev,
    State.host_evalShield, State.host_plainWrite, State.host_writePsMode]

theorem State.kept_regEffect {s : State} (hk : Kept ks mp s.host) (w : Writer) (addr : Nat) (v : BitVec 32) :
    Kept ks mp (s.regEffect w addr v).host := by
  unfold State.regEffect
  repeat' split
  all_goals simp only [State.host_ite, ite_self, kept_ite, hk, State.host_hubWrite, State.kept_partWrite,
    State.host_quireWrite]

theorem State.kept_regWrite {s : State} (hk : Kept ks mp s.host) (w : Writer) (addr : Nat) (v : BitVec 32) :
    Kept ks mp (s.regWrite w addr v).host := by
  simp +contextual only [State.regWrite, State.host_ite, ite_self, implies_true, kept_ite, hk, State.host_ev,
    State.kept_asWrite, State.kept_regEffect]

theorem kept_execRegisterWrite {s : State} (hk : Kept ks mp s.host) (w : Writer) (r : RegAt) (v : Word) :
    KeptOut ks mp (execRegisterWrite w r v s) := by
  simp only [execRegisterWrite, State.host_ite, ite_self, kept_ite, hk, keptOut_next, State.kept_regWrite]

theorem kept_execLfClassWrite {s : State} (hk : Kept ks mp s.host) (w : Writer) (q : QuireId) (i : Fin 32) (v : Word) :
    KeptOut ks mp (execLfClassWrite w q i v s) := by
  simp +contextual only [execLfClassWrite, implies_true, hk, keptOut_next, State.host_classWrite, State.kept_asWrite]

theorem kept_execStCtrlReset {s : State} (hk : Kept ks mp s.host) (w : Writer) (u : StId) :
    KeptOut ks mp (execStCtrlReset w u s) := by
  simp +contextual only [execStCtrlReset, implies_true, hk, keptOut_next, State.host_stCtrlReset, State.kept_asWrite]

theorem kept_execStFaultSuspectClear {s : State} (hk : Kept ks mp s.host) (w : Writer) (q : QuireId) :
    KeptOut ks mp (execStFaultSuspectClear w q s) := by
  simp +contextual only [execStFaultSuspectClear, implies_true, hk, keptOut_next, State.host_setF, State.kept_asWrite]

theorem kept_execPsVoteSuspectClear {s : State} (hk : Kept ks mp s.host) (w : Writer) (q : QuireId) :
    KeptOut ks mp (execPsVoteSuspectClear w q s) := by
  simp +contextual only [execPsVoteSuspectClear, implies_true, hk, keptOut_next, State.host_setF, State.kept_asWrite]

theorem kept_execReconfDrain {s : State} (hk : Kept ks mp s.host) (w : Writer) (p : PartId) :
    KeptOut ks mp (execReconfDrain w p s) := by
  simp +contextual only [execReconfDrain, implies_true, hk, keptOut_next, State.kept_startDrain, State.kept_asWrite]

theorem kept_execReconfCommit {s : State} (hk : Kept ks mp s.host) (w : Writer) (p : PartId) :
    KeptOut ks mp (execReconfCommit w p s) := by
  simp +contextual only [execReconfCommit, implies_true, hk, keptOut_next, State.host_commit, State.kept_asWrite]

theorem kept_execReconfRefusedClear {s : State} (hk : Kept ks mp s.host) (w : Writer) (p : PartId) :
    KeptOut ks mp (execReconfRefusedClear w p s) := by
  simp +contextual only [execReconfRefusedClear, implies_true, hk, keptOut_next, State.host_setF, State.kept_asWrite]

theorem kept_execUploadFlush {s : State} (hk : Kept ks mp s.host) (w : Writer) (p : PartId) :
    KeptOut ks mp (execUploadFlush w p s) := by
  simp +contextual only [execUploadFlush, implies_true, hk, keptOut_next, State.host_uploadFlush, State.kept_asWrite]

theorem kept_execMdGo {s : State} (hk : Kept ks mp s.host) (w : Writer) (p : PartId) : KeptOut ks mp (execMdGo w p s) := by
  simp +contextual only [execMdGo, implies_true, hk, keptOut_next, State.kept_asWrite, State.host_mdGo]

theorem kept_execBtHoldoffWrite {s : State} (hk : Kept ks mp s.host) (w : Writer) (p : PartId) (minutes : Byte) :
    KeptOut ks mp (execBtHoldoffWrite w p minutes s) := by
  simp +contextual only [execBtHoldoffWrite, implies_true, hk, keptOut_next, State.kept_asWrite, State.host_setHoldoff]

theorem kept_execBtWindowWrite {s : State} (hk : Kept ks mp s.host) (w : Writer) (p : PartId) (ms : BitVec 16) :
    KeptOut ks mp (execBtWindowWrite w p ms s) := by
  simp +contextual only [execBtWindowWrite, implies_true, hk, keptOut_next, State.kept_asWrite, State.kept_setWindow]

/-! ### Of Machine/Load.lean -/

theorem State.host_putConfig (s : State) (u : StId) (i : Nat) (b : List (BitVec 8)) :
    (s.putConfig u i b).host = s.host := by
  simp only [State.putConfig, State.host_ite, ite_self, implies_true, State.host_foldl, State.host_wr]

theorem State.host_putChunk (s : State) (u : StId) (sp i : Nat) (b : List (BitVec 8)) :
    (s.putChunk u sp i b).host = s.host := by
  simp only [State.putChunk, State.host_ite, ite_self, State.host_updSt, State.host_putConfig]

theorem State.host_seal (s : State) (u : StId) : (s.seal u).host = s.host := by
  unfold State.seal
  repeat' split
  all_goals simp only [State.host_updSt, State.host_setF, State.host_ev]

theorem State.host_begin (s : State) (im : StImage) : (s.begin im).host = s.host := (rfl)

theorem State.host_openStitcher (s : State) (u : StId) (used : Bool) : (s.openStitcher u used).host = s.host := by
  simp only [State.openStitcher, State.host_updSt, State.host_setF]

theorem State.host_freshStitcher (s : State) (u : StId) (used : Bool) : (s.freshStitcher u used).host = s.host := by
  simp only [State.freshStitcher, State.host_updSt, State.host_setF, State.host_setCnt, State.host_openStitcher]

theorem State.kept_imageReg {s : State} (hk : Kept ks mp s.host) (p : PartId) (off : Nat) (v : BitVec 32) :
    Kept ks mp (s.imageReg p off v).host := by
  unfold State.imageReg
  simp only [State.host_ite, kept_ite, hk, State.host_setF]
  repeat' split
  all_goals simp only [hk, State.host_wrAddr, State.kept_regEffect]

theorem State.kept_prepare {s : State} (hk : Kept ks mp s.host) (p : PartId) (im : Image) :
    Kept ks mp (s.prepare p im).host := by
  simp +contextual only [State.prepare, implies_true, hk, State.host_foldl, State.kept_foldl, State.host_updQu,
    State.host_setF, State.host_clearRegs, State.host_landAll, State.kept_startDrain, State.host_endDrain,
    State.host_commit, State.host_evalShield, State.host_freshStitcher, State.kept_imageReg]

theorem State.host_setLoad (s : State) (p : PartId) (l : Option Load) : (s.setLoad p l).host = s.host := (rfl)

theorem State.host_showLoad (s : State) (p : PartId) (im : Image) (st round : Nat) :
    (s.showLoad p im st round).host = s.host := (rfl)

theorem State.kept_endLoad {s : State} (hk : Kept ks mp s.host) (p : PartId) : Kept ks mp (s.endLoad p).host := by
  simp only [State.endLoad, hk, State.host_completeActing, State.host_dropHold, State.kept_tryPending, State.host_setLoad]

theorem State.host_imageDone (s : State) (p : PartId) (im : Image) : (s.imageDone p im).host = s.host := by
  simp only [State.imageDone, implies_true, State.host_foldl, State.host_updPart, State.host_wr, State.host_checkEntries]

theorem State.kept_loadDone {s : State} (hk : Kept ks mp s.host) (p : PartId) (l : Load) :
    Kept ks mp (s.loadDone p l).host := by
  simp only [State.loadDone, hk, State.host_showLoad, State.kept_endLoad, State.host_imageDone]

theorem State.kept_loadFail {s : State} (hk : Kept ks mp s.host) (p : PartId) (im : Image) (round cause : Nat) :
    Kept ks mp (s.loadFail p im round cause).host := by
  simp only [State.loadFail, hk, State.host_ev, State.host_showLoad, State.kept_endLoad]

theorem State.kept_startLoad {s : State} (hk : Kept ks mp s.host) (p : PartId) (im : Image) :
    Kept ks mp (s.startLoad p im).host := by
  simp only [State.startLoad, State.host_ite, ite_self, kept_ite, hk, State.host_wr, State.host_setF, State.host_ev,
    State.host_addHold, State.kept_prepare, State.host_setLoad, State.host_showLoad, State.kept_endLoad,
    State.kept_loadFail]

theorem kept_execDoorbellProgramLoad {s : State} (hk : Kept ks mp s.host) (p : PartId) (im : Image) :
    KeptOut ks mp (execDoorbellProgramLoad p im s) := by
  unfold execDoorbellProgramLoad
  split <;> simp only [ite_self, hk, keptOut_next, keptOut_ite, State.host_refuse, State.host_setPhase,
    State.kept_startLoad]

theorem kept_execLoadBegin {s : State} (hk : Kept ks mp s.host) (u : StId) (drop : Option Hop) :
    KeptOut ks mp (execLoadBegin u drop s) := by
  unfold execLoadBegin
  split <;> simp only [State.host_ite, ite_self, hk, keptOut_next, keptOut_ite, State.host_spArrive, State.host_spRefuse,
    State.host_begin]

theorem State.host_dropAt (s : State) (p : PartId) (drops : List (Fin 42)) (opcode : Nat) :
    (s.dropAt p drops opcode).host = s.host := by
  simp only [State.dropAt, implies_true, State.host_foldl, State.host_parityDrop]

theorem State.host_loadAsleep (s : State) (p : PartId) (opcode : Nat) : (s.loadAsleep p opcode).host = s.host := by
  simp only [State.loadAsleep, State.host_noteAsleep]

theorem kept_execLoadData {s : State} (hk : Kept ks mp s.host) (p : PartId) (quires : BitVec 8)
    (stitchers : BitVec 64) (space : Fin 3) (chunk : Fin 512) (drops : List (Fin 36)) (hubDrops : List (Fin 6))
    (flip : BitVec 256) (flipped : BitVec 8) :
    KeptOut ks mp (execLoadData p quires stitchers space chunk drops hubDrops flip flipped s) := by
  unfold execLoadData
  simp only []
  repeat' split
  all_goals simp only [implies_true, hk, keptOut_next, State.host_foldl, State.host_setF, State.host_incF,
    State.host_putChunk, State.host_dropAt, State.host_loadAsleep]

theorem State.kept_endRound {s : State} (hk : Kept ks mp s.host) (p : PartId) : Kept ks mp (s.endRound p).host := by
  unfold State.endRound
  split <;> simp only [State.host_ite, ite_self, kept_ite, hk, State.host_ev, State.host_setLoad, State.host_showLoad,
    State.kept_loadDone, State.kept_loadFail]

theorem kept_execLoadEnd {s : State} (hk : Kept ks mp s.host) (p : PartId) (drops : List (Fin 36)) (hubDrops : List
    (Fin 6)) :
    KeptOut ks mp (execLoadEnd p drops hubDrops s) := by
  unfold execLoadEnd
  split <;> simp only [ite_self, implies_true, hk, keptOut_next, keptOut_ite, State.host_foldl, State.host_seal,
    State.host_setLoad, State.host_dropAt, State.host_loadAsleep, State.kept_endRound]

theorem State.kept_answered {s : State} (hk : Kept ks mp s.host) (l : Load) (u : StId) (gaps : List (Nat × Nat))
    (faulty : Nat) :
    Kept ks mp (s.answered l u gaps faulty).host := by
  simp only [State.answered, hk, State.host_setLoad, State.kept_endRound]

theorem kept_execLoadStat {s : State} (hk : Kept ks mp s.host) (u : StId) (drop : Option Hop) :
    KeptOut ks mp (execLoadStat u drop s) := by
  unfold execLoadStat
  split <;> simp only [ite_self, hk, keptOut_next, keptOut_ite, State.host_incF, State.host_spArrive, State.kept_answered]

theorem kept_execLoadAnswerTimeout {s : State} (hk : Kept ks mp s.host) (u : StId) :
    KeptOut ks mp (execLoadAnswerTimeout u s) := by
  unfold execLoadAnswerTimeout
  split <;> simp only [ite_self, hk, keptOut_next, keptOut_ite, State.host_waitNs, State.kept_answered]

theorem State.host_installStitcher (s : State) (im : StImage) : (s.installStitcher im).host = s.host := by
  simp only [State.installStitcher, implies_true, State.host_foldl, State.host_updSt, State.host_putChunk, State.host_seal,
    State.host_begin, State.host_openStitcher]

theorem State.host_installQuire (s : State) (im : Image) (q : QuireId) : (s.installQuire im q).host = s.host := by
  simp only [State.installQuire, implies_true, State.host_foldl, State.host_installStitcher]

theorem State.kept_reloadRegs {s : State} (hk : Kept ks mp s.host) (im : Image) (q : QuireId) :
    Kept ks mp (s.reloadRegs im q).host := by
  simp +contextual only [State.reloadRegs, implies_true, hk, State.kept_foldl, State.kept_imageReg]

theorem State.host_reloadBand (s : State) (q : QuireId) (addr pma n : Nat) : (s.reloadBand q addr pma n).host = s.host := by
  simp only [State.reloadBand, implies_true, State.host_foldl, State.host_leafWrite, State.host_leafPoison,
    State.host_pmRead, State.host_memUncorr]

theorem State.host_reloadWeights (s : State) (im : Image) (q : QuireId) : (s.reloadWeights im q).host = s.host := by
  simp only [State.reloadWeights, implies_true, State.host_foldl, State.host_reloadBand]

theorem State.host_reloadActs (s : State) (im : Image) (q : QuireId) : (s.reloadActs im q).host = s.host := by
  simp only [State.reloadActs, implies_true, State.host_foldl, State.host_leafWrite]

/-! ### Of Machine/Fences.lean -/

theorem State.host_abortSpans (s : State) (p : PartId) : (s.abortSpans p).host = s.host := by
  simp only [State.abortSpans, State.host_mk, State.host_ite, ite_self, implies_true, State.host_foldl, State.host_updQu,
    State.host_settleAll]

theorem State.host_showFences (s : State) (p : PartId) : (s.showFences p).host = s.host := by
  simp only [State.showFences, implies_true, State.host_foldl, State.host_setF]

theorem State.host_showSpans (s : State)  : (s.showSpans).host = s.host := by
  simp only [State.showSpans, implies_true, State.host_foldl, State.host_setF]

theorem State.host_raiseFence (s : State) (p : PartId) (reason : Nat) : (s.raiseFence p reason).host = s.host := by
  simp only [State.raiseFence, State.host_ite, ite_self, State.host_setF, State.host_ev, State.host_abortSpans,
    State.host_showFences]

theorem State.host_dropFence (s : State) (p : PartId) (reason : Nat) : (s.dropFence p reason).host = s.host := by
  simp only [State.dropFence, State.host_ite, ite_self, State.host_setF, State.host_ev, State.host_showFences]

theorem State.host_endCmd (s : State) (k : Nat × Nat) (status result : Nat) : (s.endCmd k status result).host = s.host := by
  unfold State.endCmd
  split <;> simp only [State.host_complete]

theorem State.kept_dropRotation {s : State} (hk : Kept ks mp s.host) (p : PartId) (cause : Nat) :
    Kept ks mp (s.dropRotation p cause).host := by
  unfold State.dropRotation
  split <;> simp only [State.host_ite, ite_self, hk, State.host_updQu, State.host_updPart, State.host_setF,
    State.host_setCnt, State.host_ev]

theorem State.host_abortTests (s : State) (p : PartId) : (s.abortTests p).host = s.host := by
  simp only [State.abortTests, implies_true, State.host_foldl, State.host_updPart, State.host_endCmd]

theorem State.host_cutLoad (s : State) (p : PartId) : (s.cutLoad p).host = s.host := by
  unfold State.cutLoad
  split <;> simp only [State.host_setF, State.host_dropHold, State.host_setLoad]

theorem State.kept_startReset {s : State} (hk : Kept ks mp s.host) (p : PartId) (cause ld : Nat) (cycled : Bool)
    (notice : Option (Nat × Nat)) :
    Kept ks mp (s.startReset p cause ld cycled notice).host := by
  unfold State.startReset
  split <;> simp only [State.host_ite, ite_self, kept_ite, hk, State.host_updPart, State.host_setF, State.host_incF,
    State.host_logReset, State.host_ev, State.host_addHold, State.kept_dropRotation, State.host_abortTests]

theorem State.host_saveTraining (s : State) (l : List (Fin 64)) : (s.saveTraining l).host = s.host := by
  simp only [State.saveTraining, State.host_mk]

theorem State.host_withdrawDevice (s : State) (reason : Nat) : (s.withdrawDevice reason).host = s.host := by
  simp only [State.withdrawDevice, State.host_ite, ite_self, implies_true, State.host_foldl, State.host_setF,
    State.host_ev, State.host_msi, State.host_addHold, State.host_raiseFence]

theorem State.host_withdrawPart (s : State) (p : PartId) : (s.withdrawPart p).host = s.host := by
  simp only [State.withdrawPart, State.host_ite, ite_self, State.host_updPart, State.host_setF, State.host_ev,
    State.host_addHold, State.host_raiseFence, State.host_withdrawDevice]

theorem State.host_startDevice (s : State) (cause ld : Nat) : (s.startDevice cause ld).host = s.host := by
  simp only [State.startDevice, State.host_mk, State.host_ite, ite_self, implies_true, State.host_foldl, State.host_setF,
    State.host_ev, State.host_addHold, State.host_raiseFence, State.host_withdrawDevice]

/-! ### Of Machine/Integrity.lean -/

theorem State.host_mdOut (s : State) (p : PartId) (d : List (BitVec 8)) : (s.mdOut p d).host = s.host := by
  simp only [State.mdOut, implies_true, State.host_foldl, State.host_wr]

theorem State.host_mdNone (s : State) (p : PartId) : (s.mdNone p).host = s.host := by
  simp only [State.mdNone, implies_true, State.host_foldl, State.host_wr, State.host_useFree]

theorem State.host_mdEnd (s : State) (p : PartId) (status : Nat) : (s.mdEnd p status).host = s.host := by
  simp only [State.mdEnd, State.host_updPart, State.host_setF]

theorem kept_execMdRunEnd {s : State} (hk : Kept ks mp s.host) (p : PartId) : KeptOut ks mp (execMdRunEnd p s) := by
  unfold execMdRunEnd
  simp only []
  repeat' split
  all_goals simp only [hk, keptOut_next, State.host_waitNs, State.host_pmRead, State.host_memUncorr, State.host_ev,
    State.host_mdOut, State.host_mdNone, State.host_mdEnd]

theorem State.host_setMgn (s : State) (tile m : Nat) (v : Nat × Nat × Nat × Bool) :
    (s.setMgn tile m v).host = s.host := (rfl)

theorem State.host_colMargin (s : State) (unit kind bin slack raise result : Nat) :
    (s.colMargin unit kind bin slack raise result).host = s.host := by
  simp only [State.colMargin, State.host_colAppend]

theorem State.host_readMonitor (s : State) (tile m droop slack : Nat) :
    (s.readMonitor tile m droop slack).host = s.host := by
  unfold State.readMonitor
  simp only []
  split <;> simp only [State.host_ite, ite_self, State.host_colAdd, State.host_ev, State.host_setMgn]

theorem State.host_addHour (s : State) (k : Nat) : (s.addHour k).host = s.host := by
  simp only [State.addHour, State.host_mk]

theorem State.host_marginTile (s : State) (droop slack press issue : List Nat) (tile : Nat) :
    (s.marginTile droop slack press issue tile).host = s.host := by
  unfold State.marginTile
  simp only []
  split <;> simp only [State.host_mk, implies_true, State.host_foldl, State.host_colAdd, State.host_colMargin,
    State.host_readMonitor, State.host_addHour]

theorem kept_execMarginRead {s : State} (hk : Kept ks mp s.host) (droop slack press issue : List Nat) :
    KeptOut ks mp (execMarginRead droop slack press issue s) := by
  simp only [execMarginRead, State.host_mk, ite_self, implies_true, hk, keptOut_next, keptOut_ite, State.host_foldl,
    State.host_waitNs, State.host_colAdd, State.host_marginTile]

theorem kept_execMonitorTrip {s : State} (hk : Kept ks mp s.host) (tile : TileId) (m : Fin 4) (droop slack : Byte) :
    KeptOut ks mp (execMonitorTrip tile m droop slack s) := by
  unfold execMonitorTrip
  simp only [hk, keptOut_next, keptOut_ite]
  repeat' split
  all_goals simp only [hk, keptOut_next, State.host_charge, State.host_failTick, State.host_ev, State.host_setMgn]

theorem kept_execMonitorClear {s : State} (hk : Kept ks mp s.host) (tile : TileId) (m : Fin 4) :
    KeptOut ks mp (execMonitorClear tile m s) := by
  simp only [execMonitorClear, hk, keptOut_next, State.host_setMgn]

theorem State.kept_queueTipin {s : State} (hk : Kept ks mp s.host) (q : QuireId) (tile : Nat) :
    Kept ks mp (s.queueTipin q tile).host := by
  simp only [State.queueTipin, hk, State.host_updPart, State.host_addHold, State.kept_dropRotation]

theorem State.kept_fenceTile {s : State} (hk : Kept ks mp s.host) (tile : Nat) : Kept ks mp (s.fenceTile tile).host := by
  unfold State.fenceTile
  simp only [State.host_ite, kept_ite, hk]
  repeat' split
  all_goals simp only [State.host_mk, hk, State.host_setF, State.host_colDefect, State.kept_queueTipin]

theorem State.host_markRow (s : State) (tile bank row : Nat) : (s.markRow tile bank row).host = s.host := by
  simp only [State.markRow, State.host_mk]

theorem State.host_markDram (s : State) (p : PartId) (ch row : Nat) : (s.markDram p ch row).host = s.host := by
  simp only [State.markDram, State.host_mk, State.host_ite, ite_self, State.host_ev]

theorem State.kept_takeOut {s : State} (hk : Kept ks mp s.host) (u : HwUnit) : Kept ks mp (s.takeOut u).host := by
  unfold State.takeOut
  split <;> simp only [hk, State.host_withdrawDevice, State.kept_fenceTile, State.host_markRow, State.host_markDram]

theorem State.kept_judgePermanent {s : State} (hk : Kept ks mp s.host) (u : HwUnit) (rule events : Nat) :
    Kept ks mp (s.judgePermanent u rule events).host := by
  simp only [State.judgePermanent, State.host_mk, State.host_ite, ite_self, kept_ite, hk, State.host_ev, State.kept_takeOut]

theorem State.host_setRestriction (s : State) (i : Nat) (u : HwUnit) (w : BitVec 32) :
    (s.setRestriction i u w).host = s.host := by
  simp only [State.setRestriction, State.host_mk, State.host_ev, State.host_colWrite, State.host_retarget]

theorem State.host_dueSweep (s : State) (tile : Nat) (u : HwUnit) : (s.dueSweep tile u).host = s.host := by
  simp only [State.dueSweep, State.host_mk, State.host_ite, ite_self]

theorem State.kept_judge {s : State} (hk : Kept ks mp s.host) (c : Charge) : Kept ks mp (s.judge c).host := by
  unfold State.judge
  simp only []
  repeat' split
  all_goals simp only [State.host_mk, hk, State.host_withdrawPart, State.kept_judgePermanent, State.host_setRestriction,
    State.host_dueSweep]

theorem kept_execStewardJudgement {s : State} (hk : Kept ks mp s.host)  : KeptOut ks mp (execStewardJudgement s) := by
  unfold execStewardJudgement
  repeat' split
  all_goals simp only [hk, keptOut_next, State.host_markDram, State.kept_judge]

/-! ### Of Machine/Command.lean -/

theorem State.kept_command {s : State} (hk : Kept ks mp s.host) (ld : LdId) (op arg : Nat) (own : Bool)
    (k : Notice → State → State) (hb : ∀ n s, Kept ks mp s.host → Kept ks mp (k n s).host) :
    KeptOut ks mp (s.command ld op arg own k) := by
  unfold State.command
  split <;> simp only [ite_self, hk, keptOut_next, keptOut_ite, State.host_ev, State.host_refuse, State.host_setPhase, hb]

/-! ### Of Machine/SelfTest.lean -/

theorem State.host_askRun (s : State) (program unit : Nat) (quire : Option QuireId) :
    (s.askRun program unit quire).host = s.host := (rfl)

theorem State.host_askTile (s : State) (tile : Nat) (quire : Option QuireId) : (s.askTile tile quire).host = s.host := by
  simp only [State.askTile, State.host_mk, State.host_ite, ite_self, implies_true, State.host_foldl, State.host_askRun]

theorem State.host_colRun (s : State) (program unit verdict : Nat) (ms : Nat) (sig : BitVec 128) :
    (s.colRun program unit verdict ms sig).host = s.host := by
  simp only [State.colRun, State.host_colAppend]

theorem State.host_closeRun (s : State) (r : TestRun) (verdict cause : Nat) (sig : BitVec 128) :
    (s.closeRun r verdict cause sig).host = s.host := by
  simp only [State.closeRun, State.host_mk, State.host_ite, ite_self, State.host_ev, State.host_colRun]

theorem State.kept_saveQuire {s : State} (hk : Kept ks mp s.host) (q : QuireId) : Kept ks mp (s.saveQuire q).host := by
  unfold State.saveQuire
  refine Kept.mem_of hk fun hm => ?_
  exact spWf_foldl_spSet (fun c : Nat × BitVec 8 => memKey (partOf q) 0x3BF2000000 + c.1) (fun c => c.2) _ (spWf_filter _
    hm)

theorem State.host_badRow (s : State) (q : QuireId) (row : Nat) : (s.badRow q row).host = s.host := by
  simp only [State.badRow, State.host_ite, ite_self, State.host_updSt, State.host_updQu, State.host_setF,
    State.host_useFree, State.host_ev]

theorem State.host_restoreQuire (s : State) (q : QuireId) (bad : List (Fin 264192)) :
    (s.restoreQuire q bad).host = s.host := by
  unfold State.restoreQuire
  simp only [implies_true, State.host_foldl, State.host_badRow]
  split <;> simp only [implies_true, State.host_foldl, State.host_updSt, State.host_updQu, State.host_waitNs]

theorem State.kept_endRelease {s : State} (hk : Kept ks mp s.host) (p : PartId) (tile : Nat) :
    Kept ks mp (s.endRelease p tile).host := by
  simp only [State.endRelease, State.host_ite, ite_self, implies_true, kept_ite, hk, State.host_foldl, State.host_updPart,
    State.host_setF, State.host_copyMap, State.host_endCmd, State.kept_judgePermanent]

theorem State.kept_endHeld {s : State} (hk : Kept ks mp s.host) (q : QuireId) (tile : Nat) :
    Kept ks mp (s.endHeld q tile).host := by
  unfold State.endHeld
  simp only []
  repeat' split
  all_goals simp only [hk, State.host_updPart, State.host_dropHold, State.kept_tryPending, State.kept_closeWindow,
    State.host_endCmd, State.kept_judgePermanent]

theorem State.host_endDevice (s : State) (mode : Nat) : (s.endDevice mode).host = s.host := by
  unfold State.endDevice
  simp only []
  split <;> simp only [State.host_mk, State.host_ite, ite_self, State.host_flushRam, State.host_endCmd]

theorem State.kept_afterRun {s : State} (hk : Kept ks mp s.host) (r : TestRun) (bad : List (Fin 264192)) :
    Kept ks mp (s.afterRun r bad).host := by
  unfold State.afterRun
  simp only [State.host_ite, kept_ite, hk]
  repeat' split
  all_goals simp only [hk, State.kept_judgePermanent, State.host_restoreQuire, State.kept_endRelease, State.kept_endHeld,
    State.host_endDevice]

theorem State.host_clearKeys (s : State)  : (s.clearKeys).host = s.host := by
  simp only [State.clearKeys, State.host_ite, ite_self, State.host_setF, State.host_ev]

theorem State.host_dropAbsentTests (s : State) (p : PartId) : (s.dropAbsentTests p).host = s.host := by
  simp only [State.dropAbsentTests, implies_true, State.host_foldl, State.host_updPart, State.host_endCmd]

theorem State.host_openTests (s : State)  : (s.openTests).host = s.host := by
  unfold State.openTests
  refine State.host_foldl (fun t a => ?_) _
  dsimp only
  split
  · simp only [State.host_ite, ite_self, State.host_askTile, State.host_dropAbsentTests]
  · simp only [State.host_dropAbsentTests]

theorem kept_execTestRunStart {s : State} (hk : Kept ks mp s.host) (keys : Bool) :
    KeptOut ks mp (execTestRunStart keys s) := by
  unfold execTestRunStart
  simp only [hk, keptOut_next, keptOut_ite]
  repeat' split
  all_goals simp only [State.host_mk, hk, keptOut_next, State.host_closeRun, State.kept_saveQuire, State.kept_afterRun,
    State.host_clearKeys, State.host_openTests]

theorem State.kept_endSweep {s : State} (hk : Kept ks mp s.host) (tile raise slack : Nat) :
    Kept ks mp (s.endSweep tile raise slack).host := by
  unfold State.endSweep
  simp only []
  repeat' split
  all_goals simp only [State.host_mk, hk, State.host_ev, State.host_colMargin, State.kept_judgePermanent,
    State.host_setRestriction]

theorem kept_execTestRunEnd {s : State} (hk : Kept ks mp s.host) (unit : Fin 37) (sig : BitVec 128) (raise : Fin 6)
    (slack : BitVec 6) (bad : List (Fin 264192)) :
    KeptOut ks mp (execTestRunEnd unit sig raise slack bad s) := by
  unfold execTestRunEnd
  have cleared (t : State) (ht : Kept ks mp t.host) : Kept ks mp ({ t with mem := [], memMark := [] } : State).host :=
    ht.mem_of fun _ => rfl
  split
  · simp only [hk, keptOut_next]
  · refine keptOut_next.mpr (State.kept_afterRun ?_ ..)
    simp only [cleared, State.host_mk, State.host_ite, ite_self, kept_ite, hk, State.host_waitNs, State.host_closeRun,
      State.kept_endSweep]

theorem kept_execTestWindowEnd {s : State} (hk : Kept ks mp s.host) (p : PartId) :
    KeptOut ks mp (execTestWindowEnd p s) := by
  unfold execTestWindowEnd
  split <;> simp only [hk, keptOut_next, State.host_waitNs, State.kept_closeWindow]

theorem State.host_postpone (s : State) (q : QuireId) (cause : Nat) : (s.postpone q cause).host = s.host := by
  simp only [State.postpone, State.host_ite, ite_self, State.host_updQu, State.host_updPart, State.host_setF,
    State.host_setCnt, State.host_raise, State.host_ev]

theorem kept_execRotationDue {s : State} (hk : Kept ks mp s.host) (p : PartId) : KeptOut ks mp (execRotationDue p s) := by
  unfold execRotationDue
  extract_lets +onlyGivenNames x
  split
  · exact keptOut_next.mpr hk
  · split
    · exact keptOut_next.mpr hk
    · extract_lets +onlyGivenNames s1 volume s2 s3
      have kept3 : Kept ks mp s3.host := by simp only [s3, s2, s1, State.host_setF, State.host_waitNs, hk]
      clear_value s3
      split
      · simp only [keptOut_next, State.host_postpone, kept3]
      · extract_lets +onlyGivenNames lead planned mine r s4 s5 s6 s7
        have kept6 : Kept ks mp s6.host := by
          simp only [s6, s5, s4, State.host_ev, State.host_setCnt, State.host_setF, State.host_updPart, kept3]
        clear_value s6
        have kept7 : Kept ks mp s7.host := by
          simp only [s7]
          split
          · split
            · rwa [State.host_msi]
            · exact kept6
          · exact kept6
        rwa [keptOut_next, State.host_updQu]

theorem State.host_carryLeaf (s : State) (q : QuireId) : (s.carryLeaf q).host = s.host := by
  unfold State.carryLeaf
  split <;> simp only [implies_true, State.host_foldl, State.host_updQu, State.host_leafWrite]

theorem State.kept_releaseRot {s : State} (hk : Kept ks mp s.host) (p : PartId) : Kept ks mp (s.releaseRot p).host := by
  simp +contextual only [State.releaseRot, implies_true, hk, State.kept_foldl, State.host_dropHold, State.kept_tryPending]

theorem State.host_stopOnRoute (s : State) (p : PartId) : (s.stopOnRoute p).host = s.host := by
  simp only [State.stopOnRoute, State.host_ite, ite_self, State.host_setF]

theorem State.host_testReleased (s : State) (q : QuireId) (tile : Nat) : (s.testReleased q tile).host = s.host := by
  simp only [State.testReleased, State.host_ite, ite_self, implies_true, State.host_foldl, State.host_remapTile,
    State.host_colDefect, State.host_askTile]

theorem State.kept_switchMap {s : State} (hk : Kept ks mp s.host) (p : PartId) (r : Rotation) (gone : Nat) :
    Kept ks mp (s.switchMap p r gone).host := by
  simp only [State.switchMap, State.host_mk, implies_true, hk, State.host_foldl, State.host_updSt, State.host_updQu,
    State.host_setF, State.host_incF, State.host_setCnt, State.host_waitCycle, State.host_ev, State.host_copyMap,
    State.host_applyMap, State.host_carryLeaf, State.kept_releaseRot, State.host_stopOnRoute, State.host_testReleased]

theorem State.kept_abandonSwitch {s : State} (hk : Kept ks mp s.host) (p : PartId) (cause : Nat) :
    Kept ks mp (s.abandonSwitch p cause).host := by
  simp only [State.abandonSwitch, hk, State.kept_dropRotation, State.kept_releaseRot]

theorem State.kept_switchQuire {s : State} (hk : Kept ks mp s.host) (p : PartId) (r : Rotation) (drain : Nat) :
    Kept ks mp (s.switchQuire p r drain).host := by
  simp only [State.switchQuire, State.host_ite, ite_self, kept_ite, hk, State.host_waitCycle, State.host_waitNs,
    State.host_landAll, State.host_dropUnits, State.kept_switchMap, State.kept_abandonSwitch]

theorem State.kept_rebuildQuire {s : State} (hk : Kept ks mp s.host) (q : QuireId) :
    Kept ks mp (s.rebuildQuire q).host := by
  unfold State.rebuildQuire
  simp only [State.host_setF]
  split <;> simp only [implies_true, hk, State.host_foldl, State.host_setSt, State.host_updQu, State.host_freeCredits,
    State.host_installQuire, State.kept_reloadRegs, State.host_reloadWeights, State.host_reloadActs]

theorem State.host_markAbsent (s : State) (q : QuireId) (tile gone : Nat) : (s.markAbsent q tile gone).host = s.host := by
  simp only [State.markAbsent, State.host_ev, State.host_evalShield, State.host_applyMap]

theorem State.host_absorbFailed (s : State) (p : PartId) (tile : Nat) : (s.absorbFailed p tile).host = s.host := by
  unfold State.absorbFailed
  simp only []
  split <;> simp only [State.host_mk, State.host_noteAbsent, State.host_settleAll]

theorem State.host_tipInMap (s : State) (q : QuireId) (tile gone : Nat) : (s.tipInMap q tile gone).host = s.host := by
  simp only [State.tipInMap, State.host_ite, ite_self, State.host_setF, State.host_copyMap, State.host_applyMap,
    State.host_markAbsent]

theorem State.kept_tipIn {s : State} (hk : Kept ks mp s.host) (p : PartId) (k : QuireId × Nat × Nat) (drain : Nat) :
    Kept ks mp (s.tipIn p k drain).host := by
  simp only [State.tipIn, State.host_ite, ite_self, kept_ite, hk, State.host_updPart, State.host_waitNs,
    State.host_landAll, State.host_ev, State.host_dropUnits, State.kept_releaseRot, State.host_stopOnRoute,
    State.kept_rebuildQuire, State.host_absorbFailed, State.host_tipInMap]

theorem kept_execRotationSwitch {s : State} (hk : Kept ks mp s.host) (p : PartId) (drain : BitVec 14) (crc : Bool) :
    KeptOut ks mp (execRotationSwitch p drain crc s) := by
  unfold execRotationSwitch
  repeat' split
  all_goals simp only [ite_self, implies_true, hk, keptOut_next, keptOut_ite, State.host_foldl, State.host_updPart,
    State.host_setF, State.host_waitNs, State.host_addHold, State.host_postpone, State.kept_abandonSwitch,
    State.kept_switchQuire, State.kept_tipIn]

theorem kept_execRotationAbandonTimeout {s : State} (hk : Kept ks mp s.host) (p : PartId) :
    KeptOut ks mp (execRotationAbandonTimeout p s) := by
  unfold execRotationAbandonTimeout
  repeat' split
  all_goals simp only [hk, keptOut_next, State.host_waitNs, State.kept_abandonSwitch]

theorem State.host_askDevice (s : State) (mode : Nat) : (s.askDevice mode).host = s.host := by
  simp only [State.askDevice, State.host_mk, State.host_ite, ite_self, implies_true, State.host_foldl, State.host_askRun]

theorem State.kept_testDevice {s : State} (hk : Kept ks mp s.host) (ld : LdId) (mode : Nat) :
    KeptOut ks mp (s.testDevice ld mode) := by
  simp +contextual only [State.testDevice, State.host_mk, State.host_ite, ite_self, implies_true, hk, State.host_ev,
    State.host_complete, State.kept_command, State.host_askDevice]

theorem kept_execTestDeviceShutdown {s : State} (hk : Kept ks mp s.host) (ld : LdId) :
    KeptOut ks mp (execTestDeviceShutdown ld s) := by
  simp only [execTestDeviceShutdown, hk, State.kept_testDevice]

theorem kept_execTestDeviceService {s : State} (hk : Kept ks mp s.host) (ld : LdId) :
    KeptOut ks mp (execTestDeviceService ld s) := by
  simp only [execTestDeviceService, hk, State.kept_testDevice]

theorem kept_execTestQuire {s : State} (hk : Kept ks mp s.host) (ld : LdId) (q : QuireId) :
    KeptOut ks mp (execTestQuire ld q s) := by
  simp +contextual only [execTestQuire, State.host_ite, ite_self, implies_true, hk, State.host_updPart, State.host_ev,
    State.host_refuse, State.host_addHold, State.kept_command]

/-! ### Of Machine/Resets.lean -/

theorem State.host_colReset (s : State) (scope target cause path ms set : Nat) :
    (s.colReset scope target cause path ms set).host = s.host := by
  simp only [State.colReset, State.host_colAppend]

theorem State.kept_endQuireHold {s : State} (hk : Kept ks mp s.host) (p : PartId) : Kept ks mp (s.endQuireHold p).host := by
  simp only [State.endQuireHold, State.host_ite, ite_self, kept_ite, hk, State.host_dropHold, State.kept_tryPending]

theorem State.host_landBuffer (s : State) (q : QuireId) : (s.landBuffer q).host = s.host := by
  simp only [State.landBuffer, implies_true, State.host_foldl, State.host_updQu, State.host_landSegs]

theorem State.kept_quireBack {s : State} (hk : Kept ks mp s.host) (q : QuireId) : Kept ks mp (s.quireBack q).host := by
  simp only [State.quireBack, implies_true, hk, State.host_foldl, State.host_updSt, State.host_updQu, State.host_setF,
    State.kept_endQuireHold]

theorem kept_execQuireResetEnd {s : State} (hk : Kept ks mp s.host) (q : QuireId) :
    KeptOut ks mp (execQuireResetEnd q s) := by
  simp only [execQuireResetEnd, ite_self, hk, keptOut_next, keptOut_ite, State.host_ev, State.host_landBuffer,
    State.kept_quireBack]

theorem State.kept_repower {s : State} (hk : Kept ks mp s.host) (q : QuireId) : Kept ks mp (s.repower q).host := by
  unfold State.repower
  simp only [State.host_setF]
  split <;> simp only [implies_true, hk, State.host_foldl, State.host_updSt, State.host_clearRegs, State.host_installQuire,
    State.kept_reloadRegs]

theorem kept_execTilePowerCycleEnd {s : State} (hk : Kept ks mp s.host) (q : QuireId) :
    KeptOut ks mp (execTilePowerCycleEnd q s) := by
  simp only [execTilePowerCycleEnd, ite_self, hk, keptOut_next, keptOut_ite, State.host_incF, State.host_waitNs,
    State.host_ev, State.host_landBuffer, State.kept_quireBack, State.kept_repower]

theorem State.kept_takeSample {s : State} (hk : Kept ks mp s.host) (p : PartId) (cause skipped : Nat) :
    Kept ks mp (s.takeSample p cause skipped).host := by
  simp only [State.takeSample, hk, State.host_setF, State.host_useFree, State.kept_pmWrite]

theorem State.kept_tearPage {s : State} (hk : Kept ks mp s.host) (h : Hint) : Kept ks mp (s.tearPage h).host := by
  simp only [State.tearPage, State.host_ite, ite_self, kept_ite, hk, State.host_useFree, State.kept_pmWrite]

theorem State.host_repairRows (s : State) (p : PartId) (beyond : List (Nat × Nat)) :
    (s.repairRows p beyond).host = s.host := by
  simp only [State.repairRows, State.host_mk, State.host_ite, ite_self, implies_true, State.host_foldl, State.host_ev,
    State.host_colDefect]

theorem State.host_keepRemaps (s : State) (tile before : Nat) : (s.keepRemaps tile before).host = s.host := by
  simp only [State.keepRemaps, State.host_mk, implies_true, State.host_foldl, State.host_colDefect]

theorem State.host_remapForReset (s : State) (q : QuireId) : (s.remapForReset q).host = s.host := by
  simp only [State.remapForReset, State.host_applyRemaps, State.host_keepRemaps]

theorem State.host_remapSpare (s : State) (p : PartId) : (s.remapSpare p).host = s.host := by
  simp only [State.remapSpare, State.host_ite, ite_self, implies_true, State.host_foldl, State.host_remapTile,
    State.host_keepRemaps]

theorem State.host_remapTiles (s : State) (p : PartId) : (s.remapTiles p).host = s.host := by
  simp only [State.remapTiles, State.host_ite, ite_self, implies_true, State.host_foldl, State.host_remapForReset,
    State.host_remapSpare]

theorem State.host_clearQuire (s : State) (q : QuireId) : (s.clearQuire q).host = s.host := by
  simp only [State.clearQuire, implies_true, State.host_foldl, State.host_setSt, State.host_setQu, State.host_clearRegs]

theorem State.kept_clearHost {s : State} (hk : Kept ks mp s.host) (p : PartId) : Kept ks mp (s.clearHost p).host := by
  simp +contextual only [State.clearHost, implies_true, hk, State.host_foldl, State.kept_foldl, State.host_updPart,
    State.host_wr, State.host_setF, State.host_devClear, State.host_abortBox, State.kept_resetRing, State.host_settlePubs]

theorem State.host_keepTicks (s : State) (p : PartId) : (s.keepTicks p).host = s.host := (rfl)

theorem State.kept_clearPartition {s : State} (hk : Kept ks mp s.host) (p : PartId) :
    Kept ks mp (s.clearPartition p).host := by
  simp only [State.clearPartition, implies_true, hk, State.host_foldl, State.host_setPart, State.host_wr, State.host_setF,
    State.host_clearLatches, State.host_clearRegs, State.host_showHeld, State.host_dropUnits, State.host_clearQuire,
    State.kept_clearHost, State.host_keepTicks]

theorem State.kept_deadTiles {s : State} (hk : Kept ks mp s.host) (p : PartId) (dead : List (Fin 36)) :
    Kept ks mp (s.deadTiles p dead).host := by
  simp +contextual only [State.deadTiles, implies_true, hk, State.host_foldl, State.kept_foldl, State.host_updPart,
    State.host_dropHold, State.kept_judgePermanent, State.host_tipInMap]

theorem State.host_dropRuns (s : State) (p : PartId) : (s.dropRuns p).host = s.host := (rfl)

theorem State.kept_resetPartition {s : State} (hk : Kept ks mp s.host) (p : PartId) (cycled : Bool) (i : ResetInput) :
    Kept ks mp (s.resetPartition p cycled i).host := by
  simp (maxDischargeDepth := 99) +contextual only [State.resetPartition, State.host_ite, ite_self, implies_true, hk,
    State.kept_foldl, State.host_updPart, State.host_setF, State.host_wakeHalf, State.host_cutLoad, State.kept_tearPage,
    State.host_repairRows, State.host_remapTiles, State.kept_clearPartition, State.kept_deadTiles, State.host_dropRuns]

theorem State.host_setRecovery (s : State) (p : PartId) (r : Recovery) (state : Nat) :
    (s.setRecovery p r state).host = s.host := (rfl)

theorem State.kept_reloadPartition {s : State} (hk : Kept ks mp s.host) (p : PartId) (im : Image) :
    Kept ks mp (s.reloadPartition p im).host := by
  simp only [State.reloadPartition, implies_true, hk, State.host_foldl, State.host_setF, State.host_checkEntries,
    State.kept_prepare, State.host_installQuire, State.host_reloadWeights, State.host_reloadActs]

theorem State.host_passQuire (s : State) (q : QuireId) : (s.passQuire q).host = s.host := by
  simp only [State.passQuire, implies_true, State.host_foldl, State.host_updQu, State.host_setF, State.host_writeDigest]

theorem State.host_verifyEvent (s : State) (p : PartId) (d : QuireId × Nat × List (BitVec 8)) :
    (s.verifyEvent p d).host = s.host := by
  simp only [State.verifyEvent, State.host_ev]

theorem State.host_endRecovery (s : State) (p : PartId) (r : Recovery) (verified : Bool) :
    (s.endRecovery p r verified).host = s.host := by
  simp only [State.endRecovery, implies_true, State.host_foldl, State.host_updPart, State.host_wr, State.host_setF,
    State.host_endCmd, State.host_colReset]

theorem State.host_leaveHeld (s : State) (p : PartId) : (s.leaveHeld p).host = s.host := by
  simp only [State.leaveHeld, State.host_setF, State.host_dropHold]

theorem State.kept_handBack {s : State} (hk : Kept ks mp s.host) (p : PartId) (r : Recovery) :
    Kept ks mp (s.handBack p r).host := by
  unfold State.handBack
  simp only [State.host_ite, kept_ite, State.host_runStart]
  split <;> simp only [ite_self, hk, State.host_updPart, State.host_setF, State.host_ev, State.host_runStart,
    State.kept_holdOff, State.host_evalShield, State.host_dropFence, State.host_askTile, State.host_endRecovery,
    State.host_leaveHeld]

theorem State.host_startWipe (s : State) (p : PartId) (ld : Nat) : (s.startWipe p ld).host = s.host := by
  simp only [State.startWipe, State.host_mk, State.host_setF]

theorem kept_execPartitionReset {s : State} (hk : Kept ks mp s.host) (p : PartId) (i : ResetInput) :
    KeptOut ks mp (execPartitionReset p i s) := by
  unfold execPartitionReset
  simp only []
  repeat' split
  all_goals simp only [State.host_mk, implies_true, hk, keptOut_next, State.host_foldl, State.host_updPart,
    State.host_setF, State.host_incF, State.host_waitNs, State.host_raiseFence, State.kept_startReset,
    State.host_saveTraining, State.host_withdrawPart, State.kept_takeSample, State.kept_resetPartition,
    State.host_setRecovery, State.kept_reloadPartition, State.host_passQuire, State.host_verifyEvent,
    State.host_endRecovery, State.kept_handBack, State.host_startWipe]

theorem State.kept_wipeMem {s : State} (hk : Kept ks mp s.host) (p : PartId) : Kept ks mp (s.wipeMem p).host := by
  unfold State.wipeMem
  extract_lets +onlyGivenNames keep srcs s1
  have kept1 : Kept ks mp s1.host := hk.mem_of (fun hm => spWf_filter _ hm) (y := s1.memMark)
  rwa [State.host_foldl fun t x => State.host_setSrc ..]

theorem State.host_wipedBack (s : State) (p : PartId) : (s.wipedBack p).host = s.host := by
  simp only [State.wipedBack, State.host_ite, ite_self, State.host_updPart, State.host_setF, State.host_evalShield,
    State.host_dropFence, State.host_leaveHeld]

theorem kept_execWipeDone {s : State} (hk : Kept ks mp s.host) (p : PartId) : KeptOut ks mp (execWipeDone p s) := by
  have recovered (t : State) (ht : Kept ks mp t.host) : Kept ks mp (match (t.part p).recovery with
      | some r => t.endRecovery p r false
      | none => t).host := by
    split
    · rwa [State.host_endRecovery]
    · exact ht
  unfold execWipeDone
  split
  · exact keptOut_next.mpr hk
  · refine keptOut_next.mpr (recovered _ ?_)
    simp only [State.host_mk, hk, State.host_waitNs, State.host_ev, State.kept_wipeMem, State.host_wipedBack]

theorem kept_execResetHang {s : State} (hk : Kept ks mp s.host) (h : HangOf) : KeptOut ks mp (execResetHang h s) := by
  unfold execResetHang
  repeat' split
  all_goals simp only [State.host_mk, ite_self, hk, keptOut_next, keptOut_ite, State.host_updQu, State.host_setF,
    State.host_waitNs, State.host_ev, State.host_colRecord, State.kept_dieOff, State.host_keepDevice,
    State.kept_startReset, State.host_startDevice, State.host_colReset]

theorem kept_execResetPartition {s : State} (hk : Kept ks mp s.host) (ld : LdId) (p : PartId) :
    KeptOut ks mp (execResetPartition ld p s) := by
  simp +contextual only [execResetPartition, State.host_ite, ite_self, implies_true, kept_ite, hk, State.host_ev,
    State.host_refuse, State.kept_startReset, State.kept_command]

theorem kept_execFunctionLevelReset {s : State} (hk : Kept ks mp s.host) (ld : LdId) :
    KeptOut ks mp (execFunctionLevelReset ld s) := by
  unfold execFunctionLevelReset
  split
  · exact keptOut_next.mpr hk
  · refine keptOut_next.mpr (State.kept_foldl (fun t p ht => State.kept_startReset ht ..) _ ?_)
    rw [State.host_devClearLd, State.host_foldl fun t m => State.host_showPend ..]
    exact hk.ctlPage_of fun hm => spWf_filter _ hm

/-! ### Of Machine/BringUp.lean -/

theorem State.host_later (s : State) (n : Nat) : (s.later n).host = s.host := by
  simp only [State.later, State.host_waitNs]

theorem State.host_bootEv (s : State) (x : Src) (code : Nat) (cap : List Nat) : (s.bootEv x code cap).host = s.host := by
  simp only [State.bootEv, implies_true, State.host_foldl, State.host_updSrc, State.host_ev, State.host_stage]

theorem State.host_enable (s : State) (parts lds features : Nat) (licensed : Bool) :
    (s.enable parts lds features licensed).host = s.host := by
  simp only [State.enable, State.host_wr, State.host_setF]

theorem State.host_evaluate (s : State)  : (s.evaluate).host = s.host := by
  unfold State.evaluate
  simp only []
  repeat' split
  all_goals simp only [State.host_mk, State.host_wr, State.host_bootEv, State.host_enable]

theorem State.host_showIds (s : State)  : (s.showIds).host = s.host := by
  simp only [State.showIds, State.host_setF]

theorem State.host_resumeIds (s : State)  : (s.resumeIds).host = s.host := (rfl)

theorem State.host_bootRegs (s : State)  : (s.bootRegs).host = s.host := by
  simp only [State.bootRegs, implies_true, State.host_foldl, State.host_updPart, State.host_wr, State.host_setF,
    State.host_showCol, State.host_showIds]

theorem State.host_bootMap (s : State) (p : PartId) : (s.bootMap p).host = s.host := by
  simp only [State.bootMap, State.host_mk, State.host_ite, ite_self, implies_true, State.host_foldl, State.host_writeMap,
    State.host_bootEv]

theorem State.host_bootLanes (s : State)  : (s.bootLanes).host = s.host := by
  simp only [State.bootLanes, State.host_mk, implies_true, State.host_foldl]

theorem State.host_bootRows (s : State)  : (s.bootRows).host = s.host := by
  simp only [State.bootRows, State.host_mk, implies_true, State.host_foldl]

theorem State.host_bootRemaps (s : State)  : (s.bootRemaps).host = s.host := by
  simp only [State.bootRemaps, implies_true, State.host_foldl, State.host_remapTiles]

theorem State.host_step4 (s : State)  : (s.step4).host = s.host := by
  simp only [State.step4, implies_true, State.host_foldl, State.host_bootMap, State.host_bootLanes, State.host_bootRows,
    State.host_bootRemaps]

theorem State.host_train (s : State) (i : TrainInput) : (s.train i).host = s.host := by
  simp only [State.train, implies_true, State.host_foldl, State.host_setF, State.host_saveTraining, State.host_bootEv]

theorem State.kept_coldRun {s : State} (hk : Kept ks mp s.host) (l : List (Nat × Nat × BitVec 128))
    (program unit : Nat) :
    Kept ks mp (s.coldRun l program unit).host := by
  unfold State.coldRun
  simp only [State.host_ite, implies_true, kept_ite, State.host_foldl, State.host_updSrc, State.host_stage]
  repeat' split
  all_goals simp only [implies_true, hk, State.host_foldl, State.host_updSrc, State.host_stage, State.kept_judgePermanent,
    State.host_closeRun]

theorem State.kept_coldTest {s : State} (hk : Kept ks mp s.host) (l : List (Nat × Nat × BitVec 128))
    (slack : List Nat) :
    Kept ks mp (s.coldTest l slack).host := by
  simp (maxDischargeDepth := 99) +contextual only [State.coldTest, implies_true, hk, State.host_foldl, State.kept_foldl,
    State.host_colMargin, State.kept_deadTiles, State.host_later, State.kept_coldRun]

theorem State.host_colLanes (s : State) (l : List Nat) : (s.colLanes l).host = s.host := by
  simp only [State.colLanes, implies_true, State.host_foldl, State.host_colMargin]

theorem State.host_bindAll (s : State)  : (s.bindAll).host = s.host := by
  simp only [State.bindAll, State.host_mk, implies_true, State.host_foldl, State.host_setF, State.host_showSpans]

theorem State.host_wakePin (s : State)  : (s.wakePin).host = s.host := by
  simp only [State.wakePin, State.host_mk, State.host_ite, ite_self]

theorem State.host_ready (s : State)  : (s.ready).host = s.host := by
  simp only [State.ready, State.host_ite, ite_self, implies_true, State.host_foldl, State.host_updPart, State.host_setF,
    State.host_ev, State.host_addHold, State.host_evalShield, State.host_raiseFence, State.host_bindAll, State.host_wakePin]

theorem State.kept_finishBoot {s : State} (hk : Kept ks mp s.host) (i : TrainInput) (wipe : State → State)
    (hb : ∀ s, Kept ks mp s.host → Kept ks mp (wipe s).host) :
    Kept ks mp (s.finishBoot i wipe).host := by
  unfold State.finishBoot
  rw [State.host_ready]
  exact hb _ (by simp only [hk, State.host_linkUp, State.host_later, State.host_evaluate, State.host_colLanes])

theorem State.kept_step6 {s : State} (hk : Kept ks mp s.host) (i : TrainInput) (wipe : State → State)
    (hb : ∀ s, Kept ks mp s.host → Kept ks mp (wipe s).host) :
    Kept ks mp (s.step6 i wipe).host := by
  unfold State.step6
  dsimp only
  split
  · simp only [State.host_mk, hk, State.host_setF]
  · exact State.kept_finishBoot (by simp only [State.host_mk, hk, State.host_setF]) _ _ hb

theorem State.host_recover (s : State) (cause : Nat) (evs : List (Nat × List Nat)) :
    (s.recover cause evs).host = s.host := by
  simp only [State.recover, State.host_mk, implies_true, State.host_foldl, State.host_colRecord]

theorem State.host_factoryDefects (s : State)  : (s.factoryDefects).host = s.host := by
  simp only [State.factoryDefects, implies_true, State.host_foldl, State.host_colDefectOf]

theorem State.kept_boot {s : State} (hk : Kept ks mp s.host) (i : BootInput) : Kept ks mp (s.boot i).host := by
  unfold State.boot
  dsimp only
  split
  · simp only [State.host_mk, hk, State.kept_dieClear, State.host_recover]
  · split
    · simp only [State.host_mk, hk, State.kept_dieClear, State.host_recover]
    · split
      · simp only [State.host_mk, hk, State.kept_dieClear, State.host_recover]
      · refine State.kept_step6 ?_ _ _ fun t ht => ht
        simp only [State.host_mk, State.host_ite, ite_self, implies_true, kept_ite, hk, State.host_foldl, State.host_setF,
          State.host_colRecord, State.kept_dieClear, State.host_later, State.host_bootEv, State.host_resumeIds,
          State.host_bootRegs, State.host_step4, State.host_train, State.kept_coldTest, State.host_factoryDefects]

theorem kept_execPowerOn {s : State} (hk : Kept ks mp s.host) (i : BootInput) : KeptOut ks mp (execPowerOn i s) := by
  simp only [execPowerOn, State.host_mk, ite_self, hk, keptOut_next, keptOut_ite, State.kept_boot]

theorem kept_execRecoveryImageBlock {s : State} (hk : Kept ks mp s.host) (bytes : List Byte) (crc : Word)
    (last : Option BootInput) :
    KeptOut ks mp (execRecoveryImageBlock bytes crc last s) := by
  unfold execRecoveryImageBlock
  repeat' split
  all_goals simp only [State.host_mk, hk, keptOut_next, State.kept_boot]

theorem kept_wipeFor {new : State} (hk : Kept ks mp new.host) (old : State) : Kept ks mp (wipeFor old new).host := by
  unfold wipeFor
  dsimp only
  split
  · exact hk
  · refine State.kept_foldl (fun t p ht => ?_) _ (by simp only [hk, State.host_later])
    rw [State.host_ev]
    exact State.kept_wipeMem ht ..

theorem State.host_keepBinds (s : State) (old : State) : (s.keepBinds old).host = s.host := by
  simp only [State.keepBinds, implies_true, State.host_foldl, State.host_wr, State.host_setF]

theorem kept_execDeviceReset {s : State} (hk : Kept ks mp s.host) (i : TrainInput) :
    KeptOut ks mp (execDeviceReset i s) := by
  unfold execDeviceReset
  split
  · exact keptOut_next.mpr hk
  · refine keptOut_next.mpr (State.kept_step6 ?_ _ _ fun t ht => kept_wipeFor ht _)
    simp only [State.host_mk, State.host_ite, ite_self, implies_true, hk, State.host_foldl, State.host_setF,
      State.host_logReset, State.kept_dieClear, State.host_keepDevice, State.host_colReset, State.host_keepTicks,
      State.host_later, State.host_bootRegs, State.host_step4, State.host_train, State.host_keepBinds]

theorem kept_execPerstAssert {s : State} (hk : Kept ks mp s.host)  : KeptOut ks mp (execPerstAssert s) := by
  simp only [execPerstAssert, State.host_mk, ite_self, hk, keptOut_next, keptOut_ite, State.host_startDevice]

theorem kept_execPerstRelease {s : State} (hk : Kept ks mp s.host) (i : TrainInput) :
    KeptOut ks mp (execPerstRelease i s) := by
  unfold execPerstRelease
  dsimp only
  split
  · exact keptOut_next.mpr (State.kept_finishBoot (by simp only [State.host_mk, hk]) _ _ fun t ht => kept_wipeFor ht _)
  · simp only [State.host_mk, hk, keptOut_next]

theorem kept_execResetDevice {s : State} (hk : Kept ks mp s.host) (ld : LdId) : KeptOut ks mp (execResetDevice ld s) := by
  simp +contextual only [execResetDevice, implies_true, hk, State.host_startDevice, State.kept_command]

theorem kept_execAckWithdrawn {s : State} (hk : Kept ks mp s.host) (ld : LdId) : KeptOut ks mp (execAckWithdrawn ld s) := by
  simp +contextual only [execAckWithdrawn, State.host_mk, State.host_ite, ite_self, implies_true, hk, State.host_foldl,
    State.host_updPart, State.host_refuse, State.host_startDevice, State.kept_command]

theorem kept_execLicence {s : State} (hk : Kept ks mp s.host) (ld : LdId) (off : BitVec 16) :
    KeptOut ks mp (execLicence ld off s) := by
  unfold execLicence
  refine State.kept_command hk _ _ _ _ _ fun n s hk => ?_
  dsimp only
  split
  · simp only [hk, State.host_complete]
  · split <;> simp only [State.host_mk, hk, State.host_wr, State.host_setF, State.host_ev, State.host_complete]

theorem kept_execFwUpdate {s : State} (hk : Kept ks mp s.host) (ld : LdId) (off n : BitVec 16) (at_ : BitVec 20) :
    KeptOut ks mp (execFwUpdate ld off n at_ s) := by
  simp +contextual only [execFwUpdate, State.host_mk, State.host_ite, ite_self, implies_true, hk, State.host_complete,
    State.host_refuse, State.kept_command]

theorem State.host_restart (s : State)  : (s.restart).host = s.host := by
  simp only [State.restart, State.host_mk, State.host_abortBox, State.host_showIds, State.host_resumeIds]

theorem kept_execFwActivate {s : State} (hk : Kept ks mp s.host) (ld : LdId) (bad : Option (Fin 256))
    (version : BitVec 16) (digest : List Byte) :
    KeptOut ks mp (execFwActivate ld bad version digest s) := by
  unfold execFwActivate
  split <;> simp +contextual only [State.host_mk, State.host_ite, ite_self, implies_true, hk, State.host_setF,
    State.host_ev, State.host_complete, State.host_evalShields, State.kept_command, State.host_restart]

/-! ### Of Machine/Scalar.lean -/

theorem State.kept_scalar2 {s : State} (hk : Kept ks mp s.host) (u : StId) (i : Instr) (rd ra rb : SReg) (lat : Nat)
    (f : BitVec 32 → BitVec 32 → BitVec 32) :
    KeptOut ks mp (s.scalar2 u i rd ra rb lat f) := by
  simp +contextual only [State.scalar2, implies_true, hk, State.host_putS, State.kept_issue]

theorem State.kept_scalar1 {s : State} (hk : Kept ks mp s.host) (u : StId) (i : Instr) (rd ra : SReg) (lat : Nat)
    (f : BitVec 32 → BitVec 32) :
    KeptOut ks mp (s.scalar1 u i rd ra lat f) := by
  simp +contextual only [State.scalar1, implies_true, hk, State.host_putS, State.kept_issue]

theorem State.kept_scalarCmp {s : State} (hk : Kept ks mp s.host) (u : StId) (i : Instr) (pd : PReg) (ra rb : SReg)
    (lat : Nat) (f : BitVec 32 → BitVec 32 → Bool) :
    KeptOut ks mp (s.scalarCmp u i pd ra rb lat f) := by
  simp +contextual only [State.scalarCmp, implies_true, hk, State.host_putP, State.kept_issue]

theorem kept_execAdd {s : State} (hk : Kept ks mp s.host) (u : StId) (rd ra rb : SReg) :
    KeptOut ks mp (execAdd u rd ra rb s) := by
  simp only [execAdd, hk, State.kept_scalar2]

theorem kept_execSub {s : State} (hk : Kept ks mp s.host) (u : StId) (rd ra rb : SReg) :
    KeptOut ks mp (execSub u rd ra rb s) := by
  simp only [execSub, hk, State.kept_scalar2]

theorem kept_execMul {s : State} (hk : Kept ks mp s.host) (u : StId) (rd ra rb : SReg) :
    KeptOut ks mp (execMul u rd ra rb s) := by
  simp only [execMul, hk, State.kept_scalar2]

theorem kept_execMulh {s : State} (hk : Kept ks mp s.host) (u : StId) (rd ra rb : SReg) :
    KeptOut ks mp (execMulh u rd ra rb s) := by
  simp only [execMulh, hk, State.kept_scalar2]

theorem kept_execMulhu {s : State} (hk : Kept ks mp s.host) (u : StId) (rd ra rb : SReg) :
    KeptOut ks mp (execMulhu u rd ra rb s) := by
  simp only [execMulhu, hk, State.kept_scalar2]

theorem kept_execAnd {s : State} (hk : Kept ks mp s.host) (u : StId) (rd ra rb : SReg) :
    KeptOut ks mp (execAnd u rd ra rb s) := by
  simp only [execAnd, hk, State.kept_scalar2]

theorem kept_execOr {s : State} (hk : Kept ks mp s.host) (u : StId) (rd ra rb : SReg) :
    KeptOut ks mp (execOr u rd ra rb s) := by
  simp only [execOr, hk, State.kept_scalar2]

theorem kept_execXor {s : State} (hk : Kept ks mp s.host) (u : StId) (rd ra rb : SReg) :
    KeptOut ks mp (execXor u rd ra rb s) := by
  simp only [execXor, hk, State.kept_scalar2]

theorem kept_execShl {s : State} (hk : Kept ks mp s.host) (u : StId) (rd ra rb : SReg) :
    KeptOut ks mp (execShl u rd ra rb s) := by
  simp only [execShl, hk, State.kept_scalar2]

theorem kept_execShr {s : State} (hk : Kept ks mp s.host) (u : StId) (rd ra rb : SReg) :
    KeptOut ks mp (execShr u rd ra rb s) := by
  simp only [execShr, hk, State.kept_scalar2]

theorem kept_execSra {s : State} (hk : Kept ks mp s.host) (u : StId) (rd ra rb : SReg) :
    KeptOut ks mp (execSra u rd ra rb s) := by
  simp only [execSra, hk, State.kept_scalar2]

theorem kept_execMin {s : State} (hk : Kept ks mp s.host) (u : StId) (rd ra rb : SReg) :
    KeptOut ks mp (execMin u rd ra rb s) := by
  simp only [execMin, hk, State.kept_scalar2]

theorem kept_execMax {s : State} (hk : Kept ks mp s.host) (u : StId) (rd ra rb : SReg) :
    KeptOut ks mp (execMax u rd ra rb s) := by
  simp only [execMax, hk, State.kept_scalar2]

theorem kept_execMinu {s : State} (hk : Kept ks mp s.host) (u : StId) (rd ra rb : SReg) :
    KeptOut ks mp (execMinu u rd ra rb s) := by
  simp only [execMinu, hk, State.kept_scalar2]

theorem kept_execMaxu {s : State} (hk : Kept ks mp s.host) (u : StId) (rd ra rb : SReg) :
    KeptOut ks mp (execMaxu u rd ra rb s) := by
  simp only [execMaxu, hk, State.kept_scalar2]

theorem kept_execAddSat {s : State} (hk : Kept ks mp s.host) (u : StId) (rd ra rb : SReg) :
    KeptOut ks mp (execAddSat u rd ra rb s) := by
  simp only [execAddSat, hk, State.kept_scalar2]

theorem kept_execSubSat {s : State} (hk : Kept ks mp s.host) (u : StId) (rd ra rb : SReg) :
    KeptOut ks mp (execSubSat u rd ra rb s) := by
  simp only [execSubSat, hk, State.kept_scalar2]

theorem kept_execSel {s : State} (hk : Kept ks mp s.host) (u : StId) (rd ra rb : SReg) (pd : PReg) :
    KeptOut ks mp (execSel u rd ra rb pd s) := by
  simp +contextual only [execSel, implies_true, hk, State.host_putS, State.kept_issue]

theorem kept_execCmpEq {s : State} (hk : Kept ks mp s.host) (u : StId) (pd : PReg) (ra rb : SReg) :
    KeptOut ks mp (execCmpEq u pd ra rb s) := by
  simp only [execCmpEq, hk, State.kept_scalarCmp]

theorem kept_execCmpNe {s : State} (hk : Kept ks mp s.host) (u : StId) (pd : PReg) (ra rb : SReg) :
    KeptOut ks mp (execCmpNe u pd ra rb s) := by
  simp only [execCmpNe, hk, State.kept_scalarCmp]

theorem kept_execCmpLt {s : State} (hk : Kept ks mp s.host) (u : StId) (pd : PReg) (ra rb : SReg) :
    KeptOut ks mp (execCmpLt u pd ra rb s) := by
  simp only [execCmpLt, hk, State.kept_scalarCmp]

theorem kept_execCmpLe {s : State} (hk : Kept ks mp s.host) (u : StId) (pd : PReg) (ra rb : SReg) :
    KeptOut ks mp (execCmpLe u pd ra rb s) := by
  simp only [execCmpLe, hk, State.kept_scalarCmp]

theorem kept_execCmpLtu {s : State} (hk : Kept ks mp s.host) (u : StId) (pd : PReg) (ra rb : SReg) :
    KeptOut ks mp (execCmpLtu u pd ra rb s) := by
  simp only [execCmpLtu, hk, State.kept_scalarCmp]

theorem kept_execCmpLeu {s : State} (hk : Kept ks mp s.host) (u : StId) (pd : PReg) (ra rb : SReg) :
    KeptOut ks mp (execCmpLeu u pd ra rb s) := by
  simp only [execCmpLeu, hk, State.kept_scalarCmp]

theorem kept_execAddi {s : State} (hk : Kept ks mp s.host) (u : StId) (rd ra : SReg) (imm : BitVec 16) :
    KeptOut ks mp (execAddi u rd ra imm s) := by
  simp only [execAddi, hk, State.kept_scalar1]

theorem kept_execAndi {s : State} (hk : Kept ks mp s.host) (u : StId) (rd ra : SReg) (imm : BitVec 16) :
    KeptOut ks mp (execAndi u rd ra imm s) := by
  simp only [execAndi, hk, State.kept_scalar1]

theorem kept_execOri {s : State} (hk : Kept ks mp s.host) (u : StId) (rd ra : SReg) (imm : BitVec 16) :
    KeptOut ks mp (execOri u rd ra imm s) := by
  simp only [execOri, hk, State.kept_scalar1]

theorem kept_execXori {s : State} (hk : Kept ks mp s.host) (u : StId) (rd ra : SReg) (imm : BitVec 16) :
    KeptOut ks mp (execXori u rd ra imm s) := by
  simp only [execXori, hk, State.kept_scalar1]

theorem kept_execLui {s : State} (hk : Kept ks mp s.host) (u : StId) (rd : SReg) (imm : BitVec 16) :
    KeptOut ks mp (execLui u rd imm s) := by
  simp +contextual only [execLui, implies_true, hk, State.host_putS, State.kept_issue]

theorem kept_execShli {s : State} (hk : Kept ks mp s.host) (u : StId) (rd ra : SReg) (amt : BitVec 5) :
    KeptOut ks mp (execShli u rd ra amt s) := by
  simp only [execShli, hk, State.kept_scalar1]

theorem kept_execShri {s : State} (hk : Kept ks mp s.host) (u : StId) (rd ra : SReg) (amt : BitVec 5) :
    KeptOut ks mp (execShri u rd ra amt s) := by
  simp only [execShri, hk, State.kept_scalar1]

theorem kept_execSrai {s : State} (hk : Kept ks mp s.host) (u : StId) (rd ra : SReg) (amt : BitVec 5) :
    KeptOut ks mp (execSrai u rd ra amt s) := by
  simp only [execSrai, hk, State.kept_scalar1]

theorem kept_execCmpi {s : State} (hk : Kept ks mp s.host) (u : StId) (pd : PReg) (cond : CondI) (ra : SReg)
    (imm : BitVec 16) :
    KeptOut ks mp (execCmpi u pd cond ra imm s) := by
  simp +contextual only [execCmpi, implies_true, hk, State.host_putP, State.kept_issue]

/-! ### Of Machine/FloatInstr.lean -/

theorem kept_execFadd {s : State} (hk : Kept ks mp s.host) (u : StId) (rd ra rb : SReg) :
    KeptOut ks mp (execFadd u rd ra rb s) := by
  simp only [execFadd, hk, State.kept_scalar2]

theorem kept_execFsub {s : State} (hk : Kept ks mp s.host) (u : StId) (rd ra rb : SReg) :
    KeptOut ks mp (execFsub u rd ra rb s) := by
  simp only [execFsub, hk, State.kept_scalar2]

theorem kept_execFmul {s : State} (hk : Kept ks mp s.host) (u : StId) (rd ra rb : SReg) :
    KeptOut ks mp (execFmul u rd ra rb s) := by
  simp only [execFmul, hk, State.kept_scalar2]

theorem kept_execFfma {s : State} (hk : Kept ks mp s.host) (u : StId) (rd ra rb : SReg) :
    KeptOut ks mp (execFfma u rd ra rb s) := by
  simp +contextual only [execFfma, implies_true, hk, State.host_putS, State.kept_issue]

theorem kept_execFmin {s : State} (hk : Kept ks mp s.host) (u : StId) (rd ra rb : SReg) :
    KeptOut ks mp (execFmin u rd ra rb s) := by
  simp only [execFmin, hk, State.kept_scalar2]

theorem kept_execFmax {s : State} (hk : Kept ks mp s.host) (u : StId) (rd ra rb : SReg) :
    KeptOut ks mp (execFmax u rd ra rb s) := by
  simp only [execFmax, hk, State.kept_scalar2]

theorem kept_execFabs {s : State} (hk : Kept ks mp s.host) (u : StId) (rd ra : SReg) :
    KeptOut ks mp (execFabs u rd ra s) := by
  simp only [execFabs, hk, State.kept_scalar1]

theorem kept_execFneg {s : State} (hk : Kept ks mp s.host) (u : StId) (rd ra : SReg) :
    KeptOut ks mp (execFneg u rd ra s) := by
  simp only [execFneg, hk, State.kept_scalar1]

theorem State.kept_scalarT {s : State} (hk : Kept ks mp s.host) (u : StId) (i : Instr) (rd ra : SReg)
    (f : FVal → FVal) :
    KeptOut ks mp (s.scalarT u i rd ra f) := by
  simp +contextual only [State.scalarT, implies_true, hk, State.host_putS, State.kept_issue]

theorem kept_execFexp {s : State} (hk : Kept ks mp s.host) (u : StId) (rd ra : SReg) :
    KeptOut ks mp (execFexp u rd ra s) := by
  simp only [execFexp, hk, State.kept_scalarT]

theorem kept_execFrcp {s : State} (hk : Kept ks mp s.host) (u : StId) (rd ra : SReg) :
    KeptOut ks mp (execFrcp u rd ra s) := by
  simp only [execFrcp, hk, State.kept_scalarT]

theorem kept_execFrsqrt {s : State} (hk : Kept ks mp s.host) (u : StId) (rd ra : SReg) :
    KeptOut ks mp (execFrsqrt u rd ra s) := by
  simp only [execFrsqrt, hk, State.kept_scalarT]

theorem kept_execFcmpEq {s : State} (hk : Kept ks mp s.host) (u : StId) (pd : PReg) (ra rb : SReg) :
    KeptOut ks mp (execFcmpEq u pd ra rb s) := by
  simp only [execFcmpEq, hk, State.kept_scalarCmp]

theorem kept_execFcmpLt {s : State} (hk : Kept ks mp s.host) (u : StId) (pd : PReg) (ra rb : SReg) :
    KeptOut ks mp (execFcmpLt u pd ra rb s) := by
  simp only [execFcmpLt, hk, State.kept_scalarCmp]

theorem kept_execFcmpLe {s : State} (hk : Kept ks mp s.host) (u : StId) (pd : PReg) (ra rb : SReg) :
    KeptOut ks mp (execFcmpLe u pd ra rb s) := by
  simp only [execFcmpLe, hk, State.kept_scalarCmp]

theorem kept_execFcmpUn {s : State} (hk : Kept ks mp s.host) (u : StId) (pd : PReg) (ra rb : SReg) :
    KeptOut ks mp (execFcmpUn u pd ra rb s) := by
  simp only [execFcmpUn, hk, State.kept_scalarCmp]

theorem State.host_cvtNan (s : State) (u : StId) (pc : Nat) : (s.cvtNan u pc).host = s.host := by
  simp only [State.cvtNan, State.host_raise]

theorem kept_execCvtS {s : State} (hk : Kept ks mp s.host) (u : StId) (rd ra : SReg) (tf ff : ScalFmt) (rm : Rm) :
    KeptOut ks mp (execCvtS u rd ra tf ff rm s) := by
  simp +contextual only [execCvtS, State.host_ite, ite_self, implies_true, hk, State.host_setSt, State.host_putS,
    State.kept_issue, State.host_cvtNan]

/-! ### Of Machine/VectorInstr.lean -/

theorem State.kept_vecOp {s : State} (hk : Kept ks mp s.host) (u : StId) (i : Instr) (vd : VReg) (srcs : List Nat)
    (pg : PReg) (pn : Bool) (ty : LaneTy) (lat : Nat) (f : Stitcher → Nat → Nat) :
    KeptOut ks mp (s.vecOp u i vd srcs pg pn ty lat f) := by
  simp +contextual only [State.vecOp, implies_true, hk, State.host_putLanes, State.kept_issue]

theorem State.kept_vec2 {s : State} (hk : Kept ks mp s.host) (u : StId) (i : Instr) (vd va vb : VReg) (pg : PReg)
    (pn : Bool) (ty : LaneTy) (f : Nat → Nat → Nat) :
    KeptOut ks mp (s.vec2 u i vd va vb pg pn ty f) := by
  simp only [State.vec2, hk, State.kept_vecOp]

theorem State.kept_vec1 {s : State} (hk : Kept ks mp s.host) (u : StId) (i : Instr) (vd va : VReg) (pg : PReg)
    (pn : Bool) (ty : LaneTy) (lat : Nat) (f : Nat → Nat) :
    KeptOut ks mp (s.vec1 u i vd va pg pn ty lat f) := by
  simp only [State.vec1, hk, State.kept_vecOp]

theorem State.kept_vecCmp {s : State} (hk : Kept ks mp s.host) (u : StId) (i : Instr) (pd : PReg) (va vb : VReg)
    (pg : PReg) (pn : Bool) (ty : LaneTy) (f : Nat → Nat → Bool) :
    KeptOut ks mp (s.vecCmp u i pd va vb pg pn ty f) := by
  simp +contextual only [State.vecCmp, implies_true, hk, State.host_putBits, State.kept_issue]

theorem kept_execVadd {s : State} (hk : Kept ks mp s.host) (u : StId) (vd va vb : VReg) (pg : PReg) (pn : Bool)
    (ty : LaneTy) :
    KeptOut ks mp (execVadd u vd va vb pg pn ty s) := by
  simp only [execVadd, hk, State.kept_vec2]

theorem kept_execVsub {s : State} (hk : Kept ks mp s.host) (u : StId) (vd va vb : VReg) (pg : PReg) (pn : Bool)
    (ty : LaneTy) :
    KeptOut ks mp (execVsub u vd va vb pg pn ty s) := by
  simp only [execVsub, hk, State.kept_vec2]

theorem kept_execVmul {s : State} (hk : Kept ks mp s.host) (u : StId) (vd va vb : VReg) (pg : PReg) (pn : Bool)
    (ty : LaneTy) :
    KeptOut ks mp (execVmul u vd va vb pg pn ty s) := by
  simp only [execVmul, hk, State.kept_vec2]

theorem kept_execVmin {s : State} (hk : Kept ks mp s.host) (u : StId) (vd va vb : VReg) (pg : PReg) (pn : Bool)
    (ty : LaneTy) :
    KeptOut ks mp (execVmin u vd va vb pg pn ty s) := by
  simp only [execVmin, hk, State.kept_vec2]

theorem kept_execVmax {s : State} (hk : Kept ks mp s.host) (u : StId) (vd va vb : VReg) (pg : PReg) (pn : Bool)
    (ty : LaneTy) :
    KeptOut ks mp (execVmax u vd va vb pg pn ty s) := by
  simp only [execVmax, hk, State.kept_vec2]

theorem kept_execVfma {s : State} (hk : Kept ks mp s.host) (u : StId) (vd va vb vc : VReg) (pg : PReg) (pn : Bool)
    (ty : LaneTy) :
    KeptOut ks mp (execVfma u vd va vb vc pg pn ty s) := by
  simp only [execVfma, hk, State.kept_vecOp]

theorem kept_execVabs {s : State} (hk : Kept ks mp s.host) (u : StId) (vd va : VReg) (pg : PReg) (pn : Bool)
    (ty : LaneTy) :
    KeptOut ks mp (execVabs u vd va pg pn ty s) := by
  simp only [execVabs, hk, State.kept_vec1]

theorem kept_execVneg {s : State} (hk : Kept ks mp s.host) (u : StId) (vd va : VReg) (pg : PReg) (pn : Bool)
    (ty : LaneTy) :
    KeptOut ks mp (execVneg u vd va pg pn ty s) := by
  simp only [execVneg, hk, State.kept_vec1]

theorem kept_execVand {s : State} (hk : Kept ks mp s.host) (u : StId) (vd va vb : VReg) (pg : PReg) (pn : Bool)
    (ty : IntTy) :
    KeptOut ks mp (execVand u vd va vb pg pn ty s) := by
  simp only [execVand, hk, State.kept_vec2]

theorem kept_execVor {s : State} (hk : Kept ks mp s.host) (u : StId) (vd va vb : VReg) (pg : PReg) (pn : Bool)
    (ty : IntTy) :
    KeptOut ks mp (execVor u vd va vb pg pn ty s) := by
  simp only [execVor, hk, State.kept_vec2]

theorem kept_execVxor {s : State} (hk : Kept ks mp s.host) (u : StId) (vd va vb : VReg) (pg : PReg) (pn : Bool)
    (ty : IntTy) :
    KeptOut ks mp (execVxor u vd va vb pg pn ty s) := by
  simp only [execVxor, hk, State.kept_vec2]

theorem State.kept_vecShift {s : State} (hk : Kept ks mp s.host) (u : StId) (i : Instr) (vd va vb : VReg) (pg : PReg)
    (pn : Bool) (ty : LaneTy) (f : Nat → Nat → Nat) :
    KeptOut ks mp (s.vecShift u i vd va vb pg pn ty f) := by
  simp +contextual only [State.vecShift, State.host_ite, ite_self, implies_true, hk, State.host_useFree,
    State.host_putLanes, State.kept_issue]

theorem kept_execVshl {s : State} (hk : Kept ks mp s.host) (u : StId) (vd va vb : VReg) (pg : PReg) (pn : Bool)
    (ty : IntTy) :
    KeptOut ks mp (execVshl u vd va vb pg pn ty s) := by
  simp only [execVshl, hk, State.kept_vecShift]

theorem kept_execVsra {s : State} (hk : Kept ks mp s.host) (u : StId) (vd va vb : VReg) (pg : PReg) (pn : Bool)
    (ty : IntTy) :
    KeptOut ks mp (execVsra u vd va vb pg pn ty s) := by
  simp only [execVsra, hk, State.kept_vecShift]

theorem kept_execVcmpEq {s : State} (hk : Kept ks mp s.host) (u : StId) (pd : PReg) (va vb : VReg) (pg : PReg)
    (pn : Bool) (ty : LaneTy) :
    KeptOut ks mp (execVcmpEq u pd va vb pg pn ty s) := by
  simp only [execVcmpEq, hk, State.kept_vecCmp]

theorem kept_execVcmpLt {s : State} (hk : Kept ks mp s.host) (u : StId) (pd : PReg) (va vb : VReg) (pg : PReg)
    (pn : Bool) (ty : LaneTy) :
    KeptOut ks mp (execVcmpLt u pd va vb pg pn ty s) := by
  simp only [execVcmpLt, hk, State.kept_vecCmp]

theorem kept_execVcmpLe {s : State} (hk : Kept ks mp s.host) (u : StId) (pd : PReg) (va vb : VReg) (pg : PReg)
    (pn : Bool) (ty : LaneTy) :
    KeptOut ks mp (execVcmpLe u pd va vb pg pn ty s) := by
  simp only [execVcmpLe, hk, State.kept_vecCmp]

theorem kept_execVsel {s : State} (hk : Kept ks mp s.host) (u : StId) (vd va vb : VReg) (pg : PReg) (pn : Bool)
    (ty : LaneTy) :
    KeptOut ks mp (execVsel u vd va vb pg pn ty s) := by
  simp +contextual only [execVsel, implies_true, hk, State.host_putV, State.kept_issue]

theorem kept_execVbcast {s : State} (hk : Kept ks mp s.host) (u : StId) (vd : VReg) (rs : SReg) (ty : LaneTy) :
    KeptOut ks mp (execVbcast u vd rs ty s) := by
  simp +contextual only [execVbcast, implies_true, hk, State.host_putV, State.kept_issue]

theorem kept_execVext {s : State} (hk : Kept ks mp s.host) (u : StId) (va : VReg) (rs : SReg) (lane : BitVec 6)
    (ty : LaneTy) :
    KeptOut ks mp (execVext u va rs lane ty s) := by
  simp +contextual only [execVext, State.host_ite, ite_self, implies_true, hk, State.host_useFree, State.host_putS,
    State.kept_issue]

theorem kept_execVins {s : State} (hk : Kept ks mp s.host) (u : StId) (vd : VReg) (rs : SReg) (lane : BitVec 6)
    (ty : LaneTy) :
    KeptOut ks mp (execVins u vd rs lane ty s) := by
  simp +contextual only [execVins, State.host_ite, ite_self, implies_true, hk, State.host_useFree, State.host_putV,
    State.host_putLanes, State.kept_issue]

theorem kept_execVsum {s : State} (hk : Kept ks mp s.host) (u : StId) (vd va : VReg) (pg : PReg) (pn : Bool)
    (ty : LaneTy) :
    KeptOut ks mp (execVsum u vd va pg pn ty s) := by
  simp only [execVsum, hk, State.kept_vecOp]

theorem kept_execVmaxi {s : State} (hk : Kept ks mp s.host) (u : StId) (vd va : VReg) (pg : PReg) (pn : Bool)
    (ty : LaneTy) :
    KeptOut ks mp (execVmaxi u vd va pg pn ty s) := by
  simp only [execVmaxi, hk, State.kept_vecOp]

theorem kept_execVshuf {s : State} (hk : Kept ks mp s.host) (u : StId) (vd va vb : VReg) (pg : PReg) (pn : Bool)
    (ty : LaneTy) :
    KeptOut ks mp (execVshuf u vd va vb pg pn ty s) := by
  simp only [execVshuf, hk, State.kept_vecOp]

theorem kept_execVmov {s : State} (hk : Kept ks mp s.host) (u : StId) (vd va : VReg) (pg : PReg) (pn : Bool)
    (ty : LaneTy) :
    KeptOut ks mp (execVmov u vd va pg pn ty s) := by
  simp only [execVmov, hk, State.kept_vec1]

theorem State.kept_vecT {s : State} (hk : Kept ks mp s.host) (u : StId) (i : Instr) (vd va : VReg) (pg : PReg)
    (pn : Bool) (ty : FloatTy) (f : FVal → FVal) :
    KeptOut ks mp (s.vecT u i vd va pg pn ty f) := by
  simp +contextual only [State.vecT, implies_true, hk, State.host_putLanes, State.kept_issue]

theorem kept_execVexp {s : State} (hk : Kept ks mp s.host) (u : StId) (vd va : VReg) (pg : PReg) (pn : Bool)
    (ty : FloatTy) :
    KeptOut ks mp (execVexp u vd va pg pn ty s) := by
  simp only [execVexp, hk, State.kept_vecT]

theorem kept_execVrcp {s : State} (hk : Kept ks mp s.host) (u : StId) (vd va : VReg) (pg : PReg) (pn : Bool)
    (ty : FloatTy) :
    KeptOut ks mp (execVrcp u vd va pg pn ty s) := by
  simp only [execVrcp, hk, State.kept_vecT]

theorem kept_execVrsqrt {s : State} (hk : Kept ks mp s.host) (u : StId) (vd va : VReg) (pg : PReg) (pn : Bool)
    (ty : FloatTy) :
    KeptOut ks mp (execVrsqrt u vd va pg pn ty s) := by
  simp only [execVrsqrt, hk, State.kept_vecT]

/-! ### Of Machine/Convert.lean -/

theorem kept_execCvt {s : State} (hk : Kept ks mp s.host) (u : StId) (vd va : VReg) (tf ff : CvtFmt) (rm : Rm)
    (spc : Bool) (pg : PReg) (part : BitVec 2) :
    KeptOut ks mp (execCvt u vd va tf ff rm spc pg part s) := by
  simp +contextual only [execCvt, State.host_ite, ite_self, implies_true, hk, State.host_setSt, State.host_useFree,
    State.host_putV, State.kept_issue, State.host_cvtNan]

theorem kept_execCvtBlk {s : State} (hk : Kept ks mp s.host) (u : StId) (vd va : VReg) (tf : BlkFmt) (ff : BlkSrc)
    (rm : Rm) :
    KeptOut ks mp (execCvtBlk u vd va tf ff rm s) := by
  simp +contextual only [execCvtBlk, implies_true, hk, State.host_setSt, State.host_putV, State.kept_issue]

theorem kept_execCvtUnblk {s : State} (hk : Kept ks mp s.host) (u : StId) (vd va : VReg) (tf : UnblkDst) (ff : BlkFmt)
    (rm : Rm) :
    KeptOut ks mp (execCvtUnblk u vd va tf ff rm s) := by
  unfold execCvtUnblk
  split <;> simp +contextual only [implies_true, hk, State.host_setSt, State.host_putV, State.kept_issue]

/-! ### Of Machine/Steward.lean -/

theorem State.host_noteBind (s : State) (l : LdId) (owner : Nat) : (s.noteBind l owner).host = s.host := by
  simp only [State.noteBind, State.host_ev]

theorem kept_execSetOwnerLd {s : State} (hk : Kept ks mp s.host) (ld : LdId) : KeptOut ks mp (execSetOwnerLd ld s) := by
  simp only [execSetOwnerLd, ite_self, hk, keptOut_next, keptOut_ite, State.host_setF, State.host_noteBind]

theorem State.host_setBound (s : State) (l : LdId) (p : PartId) (b : Bool) : (s.setBound l p b).host = s.host := by
  simp only [State.setBound, State.host_setF]

theorem State.host_showAllFences (s : State)  : (s.showAllFences).host = s.host := by
  simp only [State.showAllFences, implies_true, State.host_foldl, State.host_showFences]

theorem State.host_devClearAll (s : State) (p : PartId) : (s.devClearAll p).host = s.host := by
  simp only [State.devClearAll, State.host_devClear]

theorem State.kept_unbindFrom {s : State} (hk : Kept ks mp s.host) (p : PartId) (l : LdId) :
    Kept ks mp (s.unbindFrom p l).host := by
  simp only [State.unbindFrom, hk, State.host_showSpans, State.host_raiseFence, State.host_abortTests,
    State.kept_clearHost, State.host_noteBind, State.host_setBound, State.host_showAllFences, State.host_devClearAll]

theorem kept_execBind {s : State} (hk : Kept ks mp s.host) (ld : LdId) (p : PartId) (target : LdId) :
    KeptOut ks mp (execBind ld p target s) := by
  unfold execBind
  refine State.kept_command hk _ _ _ _ _ fun n s hk => ?_
  dsimp only
  split
  · simp only [hk, State.host_complete]
  · split
    · simp only [hk, State.host_refuse]
    · split <;> simp only [State.host_mk, hk, State.host_complete, State.host_showSpans, State.host_dropFence,
        State.host_leaveHeld, State.host_noteBind, State.host_setBound, State.host_showAllFences, State.kept_unbindFrom]

theorem kept_execUnbind {s : State} (hk : Kept ks mp s.host) (ld : LdId) (p : PartId) :
    KeptOut ks mp (execUnbind ld p s) := by
  unfold execUnbind
  refine State.kept_command hk _ _ _ _ _ fun n s hk => ?_
  dsimp only
  split
  · simp only [hk, State.host_refuse]
  · simp only [State.host_ite, ite_self, kept_ite, hk, State.host_complete, State.host_refuse, State.kept_startReset,
      State.host_leaveHeld, State.kept_unbindFrom]

theorem kept_execRetain {s : State} (hk : Kept ks mp s.host) (ld : LdId) (p : PartId) (v : Bool) :
    KeptOut ks mp (execRetain ld p v s) := by
  simp +contextual only [execRetain, State.host_mk, State.host_ite, ite_self, implies_true, hk, State.host_complete,
    State.host_refuse, State.kept_command]

theorem kept_execBudget {s : State} (hk : Kept ks mp s.host) (ld : LdId) (p : PartId) (w : Word) :
    KeptOut ks mp (execBudget ld p w s) := by
  simp +contextual only [execBudget, State.host_ite, ite_self, implies_true, hk, State.host_complete, State.host_refuse,
    State.host_setBudget, State.kept_command]

theorem State.host_countExtents (s : State) (l : Nat) : (s.countExtents l).host = s.host := by
  simp only [State.countExtents, State.host_setF]

theorem State.host_setExtent (s : State) (e f : Extent) : (s.setExtent e f).host = s.host := by
  simp only [State.setExtent, State.host_mk]

theorem kept_execDcLend {s : State} (hk : Kept ks mp s.host) (ld : LdId) (target : LdId) (p : PartId)
    (slot : Fin 4096) (pma : BitVec 38) :
    KeptOut ks mp (execDcLend ld target p slot pma s) := by
  simp +contextual only [execDcLend, State.host_mk, State.host_ite, ite_self, implies_true, hk, State.host_noteFeature,
    State.host_complete, State.host_refuse, State.kept_command]

theorem State.host_endExtent (s : State) (e : Extent) (status : Nat) : (s.endExtent e status).host = s.host := by
  unfold State.endExtent
  split <;> simp only [State.host_endCmd]

theorem kept_execDcExtentResponse {s : State} (hk : Kept ks mp s.host) (ld : LdId) (slot : Fin 4096) (accept : Bool) :
    KeptOut ks mp (execDcExtentResponse ld slot accept s) := by
  unfold execDcExtentResponse
  split <;> simp only [State.host_mk, ite_self, hk, keptOut_next, keptOut_ite, State.host_countExtents,
    State.host_setExtent, State.host_endExtent]

theorem kept_execDcRecall {s : State} (hk : Kept ks mp s.host) (ld : LdId) (target : LdId) (slot : Fin 4096) :
    KeptOut ks mp (execDcRecall ld target slot s) := by
  unfold execDcRecall
  refine State.kept_command hk _ _ _ _ _ fun n s hk => ?_
  split
  · simp only [hk, State.host_refuse]
  · simp only [State.host_ite, ite_self, hk, State.host_refuse, State.host_setExtent]

theorem kept_execDcRecallTimeout {s : State} (hk : Kept ks mp s.host) (ld : LdId) (slot : Fin 4096) :
    KeptOut ks mp (execDcRecallTimeout ld slot s) := by
  unfold execDcRecallTimeout
  repeat' split
  all_goals simp only [hk, keptOut_next, State.host_waitNs, State.host_setExtent, State.host_endExtent]

theorem State.kept_areaPut {s : State} (hk : Kept ks mp s.host) (ld off : Nat) (b : List (BitVec 8)) :
    Kept ks mp (s.areaPut ld off b).host := by
  unfold State.areaPut
  rw [State.host_foldl fun t i => State.host_devWrite ..]
  exact hk.cmdArea_of fun h => spWf_memWrite _ _ _ h

theorem State.kept_answerAttest {s : State} (hk : Kept ks mp s.host) (r : AttestReq) (word : Nat) (object : List
    (BitVec 8)) :
    Kept ks mp (s.answerAttest r word object).host := by
  unfold State.answerAttest
  split <;> simp only [State.host_mk, State.host_ite, ite_self, hk, State.host_endCmd, State.kept_areaPut]

theorem State.kept_gather {s : State} (hk : Kept ks mp s.host) (r : AttestReq) : Kept ks mp (s.gather r).host := by
  simp only [State.gather, State.host_mk, State.host_ite, ite_self, kept_ite, hk, State.kept_answerAttest]

theorem kept_execAttest {s : State} (hk : Kept ks mp s.host) (ld : LdId) (nonce : BitVec 256) (via : Option
    (BitVec 16)) :
    KeptOut ks mp (execAttest ld nonce via s) := by
  unfold execAttest
  split <;> simp +contextual only [State.host_ite, ite_self, implies_true, kept_ite, hk, keptOut_next, keptOut_ite,
    State.host_refuse, State.kept_command, State.kept_gather]

theorem State.host_takeIndex (s : State)  : (s.takeIndex).1.host = s.host := by
  simp only [State.takeIndex, State.host_mk, State.host_showIds]

theorem State.host_noteIdLow (s : State)  : (s.noteIdLow).host = s.host := by
  simp only [State.noteIdLow, State.host_mk, State.host_ite, ite_self, State.host_ev]

theorem kept_execAttestGatherEnd {s : State} (hk : Kept ks mp s.host)  : KeptOut ks mp (execAttestGatherEnd s) := by
  have told (l : List AttestReq) (word : Nat) (b : List (BitVec 8)) (t : State) (ht : Kept ks mp t.host) :
      Kept ks mp (l.foldl (fun u r => u.answerAttest r word b) t).host :=
    State.kept_foldl (fun _ _ hu => State.kept_answerAttest hu ..) l ht
  unfold execAttestGatherEnd
  split
  · exact keptOut_next.mpr hk
  · have kept1 : Kept ks mp (s.waitNs (s.stew.attestAt + 20000000)).host := by rwa [State.host_waitNs]
    generalize s.waitNs (s.stew.attestAt + 20000000) = s1 at kept1
    extract_lets s2 l stew s3 tell a o free stew' s4 lds s5
    have kept3 : Kept ks mp s3.host := by rwa [State.host_mk]
    clear_value s3
    have kepta : Kept ks mp a.1.host := by rwa [State.host_takeIndex]
    clear_value a
    have kept4 : Kept ks mp s4.host := by simp only [s4, free, State.host_mk, State.host_useFree, kepta]
    have kept5 : Kept ks mp s5.host := by rwa [State.host_noteIdLow, State.host_ev]
    clear_value s5
    split
    · exact keptOut_next.mpr (told _ _ _ _ (by rwa [State.host_ev]))
    · split
      · exact keptOut_next.mpr (told _ _ _ _ kept3)
      · exact keptOut_next.mpr (told _ _ _ _ kept5)

theorem kept_execColophonRead {s : State} (hk : Kept ks mp s.host) (ld : LdId) (sec : BitVec 16) (off : DWord)
    (n dst : Word) (bad : Bool) :
    KeptOut ks mp (execColophonRead ld sec off n dst bad s) := by
  unfold execColophonRead
  dsimp only
  split
  · split
    · exact keptOut_next.mpr hk
    · refine State.kept_command hk _ _ _ _ _ fun n s hk => ?_
      split <;> simp only [State.host_ite, ite_self, kept_ite, hk, State.host_complete, State.host_refuse,
        State.kept_areaPut]
  · exact keptOut_next.mpr hk

theorem kept_execSmbusCommand {s : State} (hk : Kept ks mp s.host) (r : SmbusReq) :
    KeptOut ks mp (execSmbusCommand r s) := by
  unfold execSmbusCommand
  simp only [hk, keptOut_next, keptOut_ite]
  repeat' split
  all_goals simp only [State.host_mk, hk, keptOut_next, State.host_ev, State.kept_gather]

/-! ### Of Machine/Spine.lean -/

theorem State.kept_resetTarget {s : State} (hk : Kept ks mp s.host) (t : ResetTarget) :
    Kept ks mp (s.resetTarget t).host := by
  unfold State.resetTarget
  repeat' split
  all_goals simp only [State.host_mk, hk, State.host_resetStitcher, State.kept_startQuireReset, State.kept_startReset]

theorem kept_execSpineReset {s : State} (hk : Kept ks mp s.host) (t : ResetTarget) (drop : Option Hop) :
    KeptOut ks mp (execSpineReset t drop s) := by
  simp only [execSpineReset, State.host_ite, ite_self, kept_ite, hk, keptOut_next, keptOut_ite, State.host_spArrive,
    State.host_wakeHalf, State.host_spHold, State.host_spRefuse, State.kept_resetTarget]

theorem kept_execSpineDoorbell {s : State} (hk : Kept ks mp s.host) (mailbox : Fin 5) (bit : Fin 32) (ld : LdId)
    (drop : Option Hop) :
    KeptOut ks mp (execSpineDoorbell mailbox bit ld drop s) := by
  simp only [execSpineDoorbell, State.host_ite, ite_self, hk, keptOut_next, keptOut_ite, State.host_spArrive,
    State.host_deliverNotice]

theorem State.host_answerRead (s : State) (key : Nat) (v : BitVec 32) : (s.answerRead key v).host = s.host := (rfl)

theorem State.host_readAt (s : State) (w : Writer) (p : PartId) (a : Nat) : (s.readAt w p a).host = s.host := by
  simp only [State.readAt, State.host_readReg, State.host_spSend]

theorem kept_execRegRd {s : State} (hk : Kept ks mp s.host) (w : Writer) (r : RegAt) (way : RegWay) :
    KeptOut ks mp (execRegRd w r way s) := by
  unfold execRegRd
  simp only [hk, keptOut_next, keptOut_ite, State.host_settleAllPubs, State.host_answerRead]
  repeat' split
  all_goals simp only [hk, keptOut_next, State.host_readReg, State.host_settleAllPubs, State.host_spArrive,
    State.host_wakeHalf, State.host_spHold, State.host_spRefuse, State.host_answerRead, State.host_readAt]

theorem kept_execRegData {s : State} (hk : Kept ks mp s.host) (w : Writer) (addr : BitVec 28) (drop : Option Hop) :
    KeptOut ks mp (execRegData w addr drop s) := by
  unfold execRegData
  simp only []
  split <;> simp only [State.host_ite, ite_self, hk, keptOut_next, State.host_spArrive, State.host_answerRead]

theorem kept_execRegWr {s : State} (hk : Kept ks mp s.host) (w : Writer) (r : RegAt) (v : Word) (way : RegWay) :
    KeptOut ks mp (execRegWr w r v way s) := by
  unfold execRegWr
  simp only [hk, keptOut_next, keptOut_ite]
  repeat' split
  all_goals simp only [hk, keptOut_next, State.host_spArrive, State.host_wakeHalf, State.host_spHold, State.host_spRefuse,
    State.kept_regWrite]

theorem kept_execSpineAsleep {s : State} (hk : Kept ks mp s.host) (stop : Fin 42) (cls : Fin 5) (seq : Byte)
    (drop : Option Hop) :
    KeptOut ks mp (execSpineAsleep stop cls seq drop s) := by
  unfold execSpineAsleep
  simp only []
  repeat' split
  all_goals simp only [State.host_mk, hk, keptOut_next, State.host_parityAt, State.host_answerRead]

theorem kept_execSpineAck {s : State} (hk : Kept ks mp s.host) (stop : Fin 42) (cls : Fin 5) (seq : Byte) :
    KeptOut ks mp (execSpineAck stop cls seq s) := by
  unfold execSpineAck
  split <;> simp only [State.host_mk, hk, keptOut_next]

theorem State.host_noteLost (s : State) (m : SpMsg) : (s.noteLost m).host = s.host := by
  simp only [State.noteLost, State.host_ev]

theorem State.kept_lostReset {s : State} (hk : Kept ks mp s.host) (t : ResetTarget) : Kept ks mp (s.lostReset t).host := by
  unfold State.lostReset
  split <;> simp only [State.host_mk, State.host_ite, ite_self, kept_ite, hk, State.host_ev, State.kept_startQuireReset,
    State.host_startDevice]

theorem State.kept_lostMsg {s : State} (hk : Kept ks mp s.host) (m : SpMsg) : Kept ks mp (s.lostMsg m).host := by
  unfold State.lostMsg
  repeat' split
  all_goals simp only [hk, State.host_updSrc, State.host_complete, State.host_answerRead, State.host_noteLost,
    State.kept_lostReset]

theorem kept_execSpineAckTimeout {s : State} (hk : Kept ks mp s.host) (stop : Fin 42) (cls : Fin 5) (seq : Byte) :
    KeptOut ks mp (execSpineAckTimeout stop cls seq s) := by
  unfold execSpineAckTimeout
  repeat' split
  all_goals simp only [State.host_mk, hk, keptOut_next, State.host_incF, State.host_waitNs, State.host_ev,
    State.kept_lostMsg]

theorem kept_execHalfClockUpDone {s : State} (hk : Kept ks mp s.host) (h : Half) :
    KeptOut ks mp (execHalfClockUpDone h s) := by
  simp +contextual only [execHalfClockUpDone, State.host_mk, State.host_ite, ite_self, implies_true, kept_ite, hk,
    keptOut_next, State.kept_foldl, State.host_upDone, State.host_copyTo, State.host_deliverNotice, State.kept_regWrite,
    State.kept_resetTarget, State.host_readAt]

/-! ### Of Machine/HostAccess.lean -/

theorem State.host_hostMem (s : State) (ld : LdId) (p : PartId) (a : Nat) : (s.hostMem ld p a).1.host = s.host := by
  unfold State.hostMem
  simp only [State.host_fst_ite, State.host_useFree]
  repeat' split
  all_goals simp only [State.host_charge, State.host_pmRead, State.host_ev, State.host_msi]

theorem State.host_mirrorLine (s : State) (ld : LdId) (x : Src) (o : Nat) : (s.mirrorLine ld x o).1.host = s.host := by
  unfold State.mirrorLine
  split <;> simp only [State.host_fst_ite, ite_self, State.host_hostMem]

theorem State.host_partLine (s : State) (ld : LdId) (p : PartId) (o : Nat) : (s.partLine ld p o).1.host = s.host := by
  simp only [State.partLine, State.host_fst_ite, ite_self, State.host_hostMem, State.host_mirrorLine]

theorem State.host_hostLine (s : State) (ld : LdId) (o : Nat) : (s.hostLine ld o).1.host = s.host := by
  unfold State.hostLine
  repeat' split
  all_goals simp only [State.host_hostMem, State.host_mirrorLine, State.host_partLine]

theorem State.host_answerLine (s : State) (ld : LdId) (line : Nat) : (s.answerLine ld line).host = s.host := by
  simp only [State.answerLine, State.host_mk, State.host_hostLine]

theorem kept_execHostRead {s : State} (hk : Kept ks mp s.host) (ld : LdId) (at_ : HostLine) :
    KeptOut ks mp (execHostRead ld at_ s) := by
  unfold execHostRead
  split <;> simp only [State.host_mk, ite_self, hk, keptOut_next, keptOut_ite, State.host_settleAllPubs,
    State.host_answerLine]

theorem State.kept_uploadWrite {s : State} (hk : Kept ks mp s.host) (p : PartId) (ld : LdId) (off : Nat) (bytes : List
    (BitVec 8)) (poison : Bool) :
    Kept ks mp (s.uploadWrite p ld off bytes poison).host := by
  simp only [State.uploadWrite, State.host_ite, ite_self, kept_ite, hk, State.kept_uploadOp, State.host_writeDrop]

theorem kept_execUploadWrite {s : State} (hk : Kept ks mp s.host) (p : PartId) (ld : LdId) (off : BitVec 30)
    (bytes : List Byte) (poison : Bool) :
    KeptOut ks mp (execUploadWrite p ld off bytes poison s) := by
  simp only [execUploadWrite, hk, keptOut_next, State.kept_uploadWrite]

theorem State.kept_writeAck {s : State} (hk : Kept ks mp s.host) (ld : LdId) (p : PartId) (x : Nat) (bytes : List
    (BitVec 8)) :
    Kept ks mp (s.writeAck ld p x bytes).host := by
  unfold State.writeAck
  dsimp only
  split
  · simp only [hk, State.host_writeDrop]
  · split
    · simp only [hk, State.host_writeDrop]
    · split
      · simp only [hk, State.host_writeDrop]
      · split
        · exact kept_outState (kept_execResultAckWrite (by simp only [hk, State.host_updPart]) ..)
        · simp only [hk, State.host_updPart]

theorem State.kept_hostWrite {s : State} (hk : Kept ks mp s.host) (ld : LdId) (o : Nat) (bytes : List (BitVec 8))
    (poison : Bool) :
    Kept ks mp (s.hostWrite ld o bytes poison).host := by
  unfold State.hostWrite
  dsimp only
  split
  · split
    · exact kept_outState (kept_execCqConsumerWrite hk ..)
    · exact kept_outState (kept_execNoticeRecordWrite hk ..)
  · split
    · split
      · exact hk
      · split
        · simp only [hk, State.host_writeDrop]
        · exact hk.cmdArea_of fun h => spWf_memWrite _ _ _ h
    · split
      · split
        · simp only [hk, State.kept_uploadWrite]
        · split
          · exact kept_outState (kept_execInboxLineWrite hk ..)
          · simp only [State.host_ite, ite_self, kept_ite, hk, State.host_writeDrop, State.kept_writeAck]
      · split
        · exact hk
        · split
          · split <;> simp only [State.host_ite, ite_self, kept_ite, hk, State.kept_pmWrite, State.host_writeDrop]
          · simp only [hk, State.host_writeDrop]

theorem kept_execHostWriteOther {s : State} (hk : Kept ks mp s.host) (ld : LdId) (at_ : HostAt) (bytes : List Byte)
    (poison : Bool) :
    KeptOut ks mp (execHostWriteOther ld at_ bytes poison s) := by
  unfold execHostWriteOther
  split <;> simp only [ite_self, hk, keptOut_next, keptOut_ite, State.host_writeDrop, State.host_bar2Write,
    State.kept_hostWrite]

theorem State.host_answerWaiting (s : State)  : (s.answerWaiting).host = s.host := by
  unfold State.answerWaiting
  split <;> simp only [State.host_mk, State.host_ite, ite_self, State.host_answerLine]

theorem kept_execBackInvalidateResponse {s : State} (hk : Kept ks mp s.host) (ld : LdId) (line : BitVec 35)
    (data : Option (BitVec 512)) :
    KeptOut ks mp (execBackInvalidateResponse ld line data s) := by
  unfold execBackInvalidateResponse
  split <;> simp only [State.host_mk, ite_self, hk, keptOut_next, keptOut_ite, State.kept_hostWrite,
    State.host_answerWaiting]

theorem kept_execCxlIdeFail {s : State} (hk : Kept ks mp s.host) (stream : Byte) (protocol : Fin 2) :
    KeptOut ks mp (execCxlIdeFail stream protocol s) := by
  simp only [execCxlIdeFail, ite_self, hk, keptOut_next, keptOut_ite, State.host_setF, State.host_ev]

theorem kept_execIdeKeysProgrammed {s : State} (hk : Kept ks mp s.host)  : KeptOut ks mp (execIdeKeysProgrammed s) := by
  simp only [execIdeKeysProgrammed, ite_self, hk, keptOut_next, keptOut_ite, State.host_setF]

theorem kept_execCxlLinkRetrain {s : State} (hk : Kept ks mp s.host) (t : LinkUp) :
    KeptOut ks mp (execCxlLinkRetrain t s) := by
  simp only [execCxlLinkRetrain, State.host_ite, ite_self, hk, keptOut_next, keptOut_ite, State.host_incF, State.host_ev,
    State.host_linkUp]

end Sys2Proof.Machine
end

section
namespace Sys2Proof.Machine

-- Proved in parallel, these proofs hold a thread each, whose stacks pass the check's memory.
set_option Elab.async false

/-! ## Every command answers a next state, keeps the rest of the queue and the canonical form (O58 to O60) -/

variable {ks : List Instr} {mp : Prop}

theorem exec_kept {c : Instr} {s : State} (hc : ∀ p, c ≠ .pagerEntryStart p) (hk : Kept ks mp s.host) :
    KeptOut ks mp (exec c s) := by
  cases c with
  | tickRunStart w p => exact kept_execTickRunStart hk w p
  | tickRunStop w p => exact kept_execTickRunStop hk w p
  | tickHold w p => exact kept_execTickHold hk w p
  | tickHoldRelease w p => exact kept_execTickHoldRelease hk w p
  | tkStrikeWrite w p => exact kept_execTkStrikeWrite hk w p
  | timedGridPoint p => exact kept_execTimedGridPoint hk p
  | pendingStrikeStroke p => exact kept_execPendingStrikeStroke hk p
  | tickInEdge falling => exact kept_execTickInEdge hk falling
  | spineStroke q drop => exact kept_execSpineStroke hk q drop
  | spineIntake p r drop flip => exact kept_execSpineIntake hk p r drop flip
  | spineTickdone q drop => exact kept_execSpineTickdone hk q drop
  | runDeadline q => exact kept_execRunDeadline hk q
  | hangWatchdog q => exact kept_execHangWatchdog hk q
  | sendStallWatchdog u => exact kept_execSendStallWatchdog hk u
  | tempSample junctions hubs plate => exact kept_execTempSample hk junctions hubs plate
  | thermalStepUp h => exact kept_execThermalStepUp hk h
  | thermalCritEnd h => exact kept_execThermalCritEnd hk h
  | thermalTrip => exact kept_execThermalTrip hk
  | clockStep h => exact kept_execClockStep hk h
  | add u rd ra rb => exact kept_execAdd hk u rd ra rb
  | sub u rd ra rb => exact kept_execSub hk u rd ra rb
  | mul u rd ra rb => exact kept_execMul hk u rd ra rb
  | mulh u rd ra rb => exact kept_execMulh hk u rd ra rb
  | mulhu u rd ra rb => exact kept_execMulhu hk u rd ra rb
  | and u rd ra rb => exact kept_execAnd hk u rd ra rb
  | or u rd ra rb => exact kept_execOr hk u rd ra rb
  | xor u rd ra rb => exact kept_execXor hk u rd ra rb
  | shl u rd ra rb => exact kept_execShl hk u rd ra rb
  | shr u rd ra rb => exact kept_execShr hk u rd ra rb
  | sra u rd ra rb => exact kept_execSra hk u rd ra rb
  | min u rd ra rb => exact kept_execMin hk u rd ra rb
  | max u rd ra rb => exact kept_execMax hk u rd ra rb
  | minu u rd ra rb => exact kept_execMinu hk u rd ra rb
  | maxu u rd ra rb => exact kept_execMaxu hk u rd ra rb
  | addSat u rd ra rb => exact kept_execAddSat hk u rd ra rb
  | subSat u rd ra rb => exact kept_execSubSat hk u rd ra rb
  | sel u rd ra rb pd => exact kept_execSel hk u rd ra rb pd
  | cmpEq u pd ra rb => exact kept_execCmpEq hk u pd ra rb
  | cmpNe u pd ra rb => exact kept_execCmpNe hk u pd ra rb
  | cmpLt u pd ra rb => exact kept_execCmpLt hk u pd ra rb
  | cmpLe u pd ra rb => exact kept_execCmpLe hk u pd ra rb
  | cmpLtu u pd ra rb => exact kept_execCmpLtu hk u pd ra rb
  | cmpLeu u pd ra rb => exact kept_execCmpLeu hk u pd ra rb
  | addi u rd ra imm => exact kept_execAddi hk u rd ra imm
  | andi u rd ra imm => exact kept_execAndi hk u rd ra imm
  | ori u rd ra imm => exact kept_execOri hk u rd ra imm
  | xori u rd ra imm => exact kept_execXori hk u rd ra imm
  | lui u rd imm => exact kept_execLui hk u rd imm
  | shli u rd ra amt => exact kept_execShli hk u rd ra amt
  | shri u rd ra amt => exact kept_execShri hk u rd ra amt
  | srai u rd ra amt => exact kept_execSrai hk u rd ra amt
  | cmpi u pd cond ra imm => exact kept_execCmpi hk u pd cond ra imm
  | fadd u rd ra rb => exact kept_execFadd hk u rd ra rb
  | fsub u rd ra rb => exact kept_execFsub hk u rd ra rb
  | fmul u rd ra rb => exact kept_execFmul hk u rd ra rb
  | ffma u rd ra rb => exact kept_execFfma hk u rd ra rb
  | fmin u rd ra rb => exact kept_execFmin hk u rd ra rb
  | fmax u rd ra rb => exact kept_execFmax hk u rd ra rb
  | fabs u rd ra => exact kept_execFabs hk u rd ra
  | fneg u rd ra => exact kept_execFneg hk u rd ra
  | fexp u rd ra => exact kept_execFexp hk u rd ra
  | frcp u rd ra => exact kept_execFrcp hk u rd ra
  | frsqrt u rd ra => exact kept_execFrsqrt hk u rd ra
  | fcmpEq u pd ra rb => exact kept_execFcmpEq hk u pd ra rb
  | fcmpLt u pd ra rb => exact kept_execFcmpLt hk u pd ra rb
  | fcmpLe u pd ra rb => exact kept_execFcmpLe hk u pd ra rb
  | fcmpUn u pd ra rb => exact kept_execFcmpUn hk u pd ra rb
  | br u pg pn off => exact kept_execBr hk u pg pn off
  | loop u pg pn rs off => exact kept_execLoop hk u pg pn rs off
  | brZ u pg pn rs off => exact kept_execBrZ hk u pg pn rs off
  | brNz u pg pn rs off => exact kept_execBrNz hk u pg pn rs off
  | ldB u rd ra sp imm => exact kept_execLdB hk u rd ra sp imm
  | ldH u rd ra sp imm => exact kept_execLdH hk u rd ra sp imm
  | ldW u rd ra sp imm => exact kept_execLdW hk u rd ra sp imm
  | ldBs u rd ra sp imm => exact kept_execLdBs hk u rd ra sp imm
  | ldHs u rd ra sp imm => exact kept_execLdHs hk u rd ra sp imm
  | vld u vd ra sp imm => exact kept_execVld hk u vd ra sp imm
  | stB u rd ra sp imm => exact kept_execStB hk u rd ra sp imm
  | stH u rd ra sp imm => exact kept_execStH hk u rd ra sp imm
  | stW u rd ra sp imm => exact kept_execStW hk u rd ra sp imm
  | vst u vd ra sp imm => exact kept_execVst hk u vd ra sp imm
  | vadd u vd va vb pg pn ty => exact kept_execVadd hk u vd va vb pg pn ty
  | vsub u vd va vb pg pn ty => exact kept_execVsub hk u vd va vb pg pn ty
  | vmul u vd va vb pg pn ty => exact kept_execVmul hk u vd va vb pg pn ty
  | vfma u vd va vb vc pg pn ty => exact kept_execVfma hk u vd va vb vc pg pn ty
  | vmin u vd va vb pg pn ty => exact kept_execVmin hk u vd va vb pg pn ty
  | vmax u vd va vb pg pn ty => exact kept_execVmax hk u vd va vb pg pn ty
  | vabs u vd va pg pn ty => exact kept_execVabs hk u vd va pg pn ty
  | vneg u vd va pg pn ty => exact kept_execVneg hk u vd va pg pn ty
  | vand u vd va vb pg pn ty => exact kept_execVand hk u vd va vb pg pn ty
  | vor u vd va vb pg pn ty => exact kept_execVor hk u vd va vb pg pn ty
  | vxor u vd va vb pg pn ty => exact kept_execVxor hk u vd va vb pg pn ty
  | vshl u vd va vb pg pn ty => exact kept_execVshl hk u vd va vb pg pn ty
  | vsra u vd va vb pg pn ty => exact kept_execVsra hk u vd va vb pg pn ty
  | vcmpEq u pd va vb pg pn ty => exact kept_execVcmpEq hk u pd va vb pg pn ty
  | vcmpLt u pd va vb pg pn ty => exact kept_execVcmpLt hk u pd va vb pg pn ty
  | vcmpLe u pd va vb pg pn ty => exact kept_execVcmpLe hk u pd va vb pg pn ty
  | vsel u vd va vb pg pn ty => exact kept_execVsel hk u vd va vb pg pn ty
  | vbcast u vd rs ty => exact kept_execVbcast hk u vd rs ty
  | vext u va rs lane ty => exact kept_execVext hk u va rs lane ty
  | vins u vd rs lane ty => exact kept_execVins hk u vd rs lane ty
  | vsum u vd va pg pn ty => exact kept_execVsum hk u vd va pg pn ty
  | vmaxi u vd va pg pn ty => exact kept_execVmaxi hk u vd va pg pn ty
  | vshuf u vd va vb pg pn ty => exact kept_execVshuf hk u vd va vb pg pn ty
  | vmov u vd va pg pn ty => exact kept_execVmov hk u vd va pg pn ty
  | vexp u vd va pg pn ty => exact kept_execVexp hk u vd va pg pn ty
  | vrcp u vd va pg pn ty => exact kept_execVrcp hk u vd va pg pn ty
  | vrsqrt u vd va pg pn ty => exact kept_execVrsqrt hk u vd va pg pn ty
  | cvt u vd va tf ff rm spc pg part => exact kept_execCvt hk u vd va tf ff rm spc pg part
  | cvtBlk u vd va tf ff rm => exact kept_execCvtBlk hk u vd va tf ff rm
  | cvtUnblk u vd va tf ff rm => exact kept_execCvtUnblk hk u vd va tf ff rm
  | cvtS u rd ra tf ff rm => exact kept_execCvtS hk u rd ra tf ff rm
  | send u rx rt rs ch => exact kept_execSend hk u rx rt rs ch
  | sendCtl u rx rt rs ch => exact kept_execSendCtl hk u rx rt rs ch
  | trySend u rx rt rs ch => exact kept_execTrySend hk u rx rt rs ch
  | trySendCtl u rx rt rs ch => exact kept_execTrySendCtl hk u rx rt rs ch
  | msendP u rx rt rs ch => exact kept_execMsendP hk u rx rt rs ch
  | msendL u rx rt rs ch => exact kept_execMsendL hk u rx rt rs ch
  | tryMsendP u rx rt rs ch => exact kept_execTryMsendP hk u rx rt rs ch
  | tryMsendL u rx rt rs ch => exact kept_execTryMsendL hk u rx rt rs ch
  | qrecv u ra queue => exact kept_execQrecv hk u ra queue
  | qrecvTry u ra pd queue => exact kept_execQrecvTry hk u ra pd queue
  | ringAdv u ra rb => exact kept_execRingAdv hk u ra rb
  | ringWp u ra rb => exact kept_execRingWp hk u ra rb
  | credits u ra rb => exact kept_execCredits hk u ra rb
  | pressGo u ra press sp => exact kept_execPressGo hk u ra press sp
  | hint u ra rb => exact kept_execHint hk u ra rb
  | leafFill u ra => exact kept_execLeafFill hk u ra
  | leafCopy u ra => exact kept_execLeafCopy hk u ra
  | collChk u ra rb rc pd sp => exact kept_execCollChk hk u ra rb rc pd sp
  | collGen u ra rb rc sp => exact kept_execCollGen hk u ra rb rc sp
  | nop u => exact kept_execNop hk u
  | endF u => exact kept_execEndF hk u
  | tickdone u => exact kept_execTickdone hk u
  | gets u ra sel => exact kept_execGets hk u ra sel
  | pand u pd ra rb => exact kept_execPand hk u pd ra rb
  | por u pd ra rb => exact kept_execPor hk u pd ra rb
  | pnot u pd ra => exact kept_execPnot hk u pd ra
  | pany u pd ra => exact kept_execPany hk u pd ra
  | pall u pd ra => exact kept_execPall hk u pd ra
  | fence u => exact kept_execFence hk u
  | firingDispatch u => exact kept_execFiringDispatch hk u
  | tokenArrival u w o pos => exact kept_execTokenArrival hk u w o pos
  | residueMismatch u pc => exact kept_execResidueMismatch hk u pc
  | stitcherResetEnd u => exact kept_execStitcherResetEnd hk u
  | stCtrlReset w u => exact kept_execStCtrlReset hk w u
  | stFaultSuspectClear w q => exact kept_execStFaultSuspectClear hk w q
  | pressCommandDecode q x => exact kept_execPressCommandDecode hk q x
  | pressTileCheck q x upset => exact kept_execPressTileCheck hk q x upset
  | pressVoteStart q => exact kept_execPressVoteStart hk q
  | pressVoteJudgement q upset => exact kept_execPressVoteJudgement hk q upset
  | pressDeliveryToken q x => exact kept_execPressDeliveryToken hk q x
  | pressCompletion q x => exact kept_execPressCompletion hk q x
  | outboundHoldRelease q => exact kept_execOutboundHoldRelease hk q
  | psVoteSuspectClear w q => exact kept_execPsVoteSuspectClear hk w q
  | lfClassWrite w q ix v => exact kept_execLfClassWrite hk w q ix v
  | classFillDone q => exact kept_execClassFillDone hk q
  | writeBufferLand q n reader => exact kept_execWriteBufferLand hk q n reader
  | leafOpStart q => exact kept_execLeafOpStart hk q
  | leafOpComplete q => exact kept_execLeafOpComplete hk q
  | scrubPassStart q => exact kept_execScrubPassStart hk q
  | scrubRead q => exact kept_execScrubRead hk q
  | scrubWriteBack q => exact kept_execScrubWriteBack hk q
  | scrubPassEnd q => exact kept_execScrubPassEnd hk q
  | messageRelease q upset => exact kept_execMessageRelease hk q upset
  | creditReturn q => exact kept_execCreditReturn hk q
  | spanMessageRelease q upset => exact kept_execSpanMessageRelease hk q upset
  | reconfDrain w p => exact kept_execReconfDrain hk w p
  | reconfDrainEnd p => exact kept_execReconfDrainEnd hk p
  | reconfCommit w p => exact kept_execReconfCommit hk w p
  | reconfRefusedClear w p => exact kept_execReconfRefusedClear hk w p
  | pagerEntryStart p => exact absurd rfl (hc p)
  | pageComplete p => exact kept_execPageComplete hk p
  | pageDuePosition q => exact kept_execPageDuePosition hk q
  | pageCompletionArrival p => exact kept_execPageCompletionArrival hk p
  | uploadWrite p ld off bytes poison => exact kept_execUploadWrite hk p ld off bytes poison
  | uploadFlush w p => exact kept_execUploadFlush hk w p
  | uploadFlushDone p => exact kept_execUploadFlushDone hk p
  | linkFlit n dir ok lane => exact kept_execLinkFlit hk n dir ok lane
  | linkRetrainDone n dir => exact kept_execLinkRetrainDone hk n dir
  | laneSpare n dir => exact kept_execLaneSpare hk n dir
  | lateTransitArrival q credit n cause upset => exact kept_execLateTransitArrival hk q credit n cause upset
  | mapSwitch p m spare => exact kept_execMapSwitch hk p m spare
  | spineReset t drop => exact kept_execSpineReset hk t drop
  | spineMapset p stop drop => exact kept_execSpineMapset hk p stop drop
  | spineDoorbell mailbox bit ld drop => exact kept_execSpineDoorbell hk mailbox bit ld drop
  | spineEvent k drop => exact kept_execSpineEvent hk k drop
  | regRd w r way => exact kept_execRegRd hk w r way
  | regWr w r v way => exact kept_execRegWr hk w r v way
  | regData w addr drop => exact kept_execRegData hk w addr drop
  | loadBegin u drop => exact kept_execLoadBegin hk u drop
  | loadData p quires stitchers space chunk drops hubDrops flip flipped => exact kept_execLoadData hk p quires stitchers space chunk drops hubDrops flip flipped
  | loadEnd p drops hubDrops => exact kept_execLoadEnd hk p drops hubDrops
  | loadStat u drop => exact kept_execLoadStat hk u drop
  | loadAnswerTimeout u => exact kept_execLoadAnswerTimeout hk u
  | spineAsleep stop cls seq drop => exact kept_execSpineAsleep hk stop cls seq drop
  | spineAck stop cls seq => exact kept_execSpineAck hk stop cls seq
  | spineAckTimeout stop cls seq => exact kept_execSpineAckTimeout hk stop cls seq
  | halfClockUp w h => exact kept_execHalfClockUp hk w h
  | halfRetention w h => exact kept_execHalfRetention hk w h
  | halfStop w h => exact kept_execHalfStop hk w h
  | halfClockUpDone h => exact kept_execHalfClockUpDone hk h
  | inboxLineWrite ld p off bytes poison => exact kept_execInboxLineWrite hk ld p off bytes poison
  | inboxStale p r => exact kept_execInboxStale hk p r
  | inboxSkip w p r => exact kept_execInboxSkip hk w p r
  | inboxReset w p r => exact kept_execInboxReset hk w p r
  | landingCopy p r => exact kept_execLandingCopy hk p r
  | intakeTokenRelease p r => exact kept_execIntakeTokenRelease hk p r
  | forwardedWrite q => exact kept_execForwardedWrite hk q
  | resultAckWrite ld p k v => exact kept_execResultAckWrite hk ld p k v
  | hostRead ld at_ => exact kept_execHostRead hk ld at_
  | hostWriteOther ld at_ bytes poison => exact kept_execHostWriteOther hk ld at_ bytes poison
  | cxlIdeFail stream protocol => exact kept_execCxlIdeFail hk stream protocol
  | setOwnerLd ld => exact kept_execSetOwnerLd hk ld
  | functionLevelReset ld => exact kept_execFunctionLevelReset hk ld
  | noticeRecordWrite ld off bytes poison => exact kept_execNoticeRecordWrite hk ld off bytes poison
  | doorbellStrike p => exact kept_execDoorbellStrike hk p
  | doorbellProgramLoad p image => exact kept_execDoorbellProgramLoad hk p image
  | doorbellReconfiguration p quires l => exact kept_execDoorbellReconfiguration hk p quires l
  | doorbellHold p => exact kept_execDoorbellHold hk p
  | doorbellRelease p => exact kept_execDoorbellRelease hk p
  | doorbellReserved p bit => exact kept_execDoorbellReserved hk p bit
  | doorbellInject p ix => exact kept_execDoorbellInject hk p ix
  | injectedTokenRelease p => exact kept_execInjectedTokenRelease hk p
  | mbMaskWrite w p v => exact kept_execMbMaskWrite hk w p v
  | completionWrite ld => exact kept_execCompletionWrite hk ld
  | cqConsumerWrite ld v => exact kept_execCqConsumerWrite hk ld v
  | bind ld p target => exact kept_execBind hk ld p target
  | unbind ld p => exact kept_execUnbind hk ld p
  | retain ld p v => exact kept_execRetain hk ld p v
  | budget ld p w => exact kept_execBudget hk ld p w
  | fwUpdate ld off n at_ => exact kept_execFwUpdate hk ld off n at_
  | fwActivate ld bad version digest => exact kept_execFwActivate hk ld bad version digest
  | licence ld off => exact kept_execLicence hk ld off
  | testDeviceShutdown ld => exact kept_execTestDeviceShutdown hk ld
  | testDeviceService ld => exact kept_execTestDeviceService hk ld
  | resetDevice ld => exact kept_execResetDevice hk ld
  | ackWithdrawn ld => exact kept_execAckWithdrawn hk ld
  | resetPartition ld p => exact kept_execResetPartition hk ld p
  | testQuire ld q => exact kept_execTestQuire hk ld q
  | dcLend ld target p slot pma => exact kept_execDcLend hk ld target p slot pma
  | dcRecall ld target slot => exact kept_execDcRecall hk ld target slot
  | dcRecallTimeout ld slot => exact kept_execDcRecallTimeout hk ld slot
  | attest ld nonce via => exact kept_execAttest hk ld nonce via
  | attestGatherEnd => exact kept_execAttestGatherEnd hk
  | colophonRead ld sec off n dst bad => exact kept_execColophonRead hk ld sec off n dst bad
  | mdGo w p => exact kept_execMdGo hk w p
  | mdRunEnd p => exact kept_execMdRunEnd hk p
  | marginRead droop slack press issue => exact kept_execMarginRead hk droop slack press issue
  | monitorTrip tile m droop slack => exact kept_execMonitorTrip hk tile m droop slack
  | monitorClear tile m => exact kept_execMonitorClear hk tile m
  | clockMonitorWindow h kHz => exact kept_execClockMonitorWindow hk h kHz
  | clockRelockRelease h => exact kept_execClockRelockRelease hk h
  | stewardJudgement => exact kept_execStewardJudgement hk
  | restrictionLift ix => exact kept_execRestrictionLift hk ix
  | partitionReset p ix => exact kept_execPartitionReset hk p ix
  | quireResetEnd q => exact kept_execQuireResetEnd hk q
  | tilePowerCycleEnd q => exact kept_execTilePowerCycleEnd hk q
  | resetHang h => exact kept_execResetHang hk h
  | deviceReset ix => exact kept_execDeviceReset hk ix
  | wipeDone p => exact kept_execWipeDone hk p
  | rotationDue p => exact kept_execRotationDue hk p
  | rotationSwitch p drain crc => exact kept_execRotationSwitch hk p drain crc
  | rotationAbandonTimeout p => exact kept_execRotationAbandonTimeout hk p
  | testRunStart keys => exact kept_execTestRunStart hk keys
  | testRunEnd unit sig raise slack bad => exact kept_execTestRunEnd hk unit sig raise slack bad
  | btHoldoffWrite w p minutes => exact kept_execBtHoldoffWrite hk w p minutes
  | btWindowWrite w p ms => exact kept_execBtWindowWrite hk w p ms
  | testWindowEnd p => exact kept_execTestWindowEnd hk p
  | powerOn ix => exact kept_execPowerOn hk ix
  | perstAssert => exact kept_execPerstAssert hk
  | perstRelease ix => exact kept_execPerstRelease hk ix
  | recoveryImageBlock bytes crc last => exact kept_execRecoveryImageBlock hk bytes crc last
  | smbusCommand r => exact kept_execSmbusCommand hk r
  | inputSample mv ca => exact kept_execInputSample hk mv ca
  | powerSample fast slow input => exact kept_execPowerSample hk fast slow input
  | pwBudgetWrite w p v => exact kept_execPwBudgetWrite hk w p v
  | pwClkWrite w v => exact kept_execPwClkWrite hk w v
  | hbTickIoWrite w v => exact kept_execHbTickIoWrite hk w v
  | floodUpdate k => exact kept_execFloodUpdate hk k
  | stagingDrain p => exact kept_execStagingDrain hk p
  | colophonCopy fail => exact kept_execColophonCopy hk fail
  | colophonFlush wear fail => exact kept_execColophonFlush hk wear fail
  | triggerTableWrite w reg v => exact kept_execTriggerTableWrite hk w reg v
  | registerWrite w r v => exact kept_execRegisterWrite hk w r v
  | frameClose p => exact kept_execFrameClose hk p
  | halfClockDownDone h => exact kept_execHalfClockDownDone hk h
  | illegalInstruction u => exact kept_execIllegalInstruction hk u
  | cxlLinkRetrain t => exact kept_execCxlLinkRetrain hk t
  | ideKeysProgrammed => exact kept_execIdeKeysProgrammed hk
  | dcExtentResponse ld slot accept => exact kept_execDcExtentResponse hk ld slot accept
  | backInvalidateResponse ld line data => exact kept_execBackInvalidateResponse hk ld line data

/-- The one command that may stop, on a page past the end of partition memory, keeps them where it answers a state. -/
theorem execPagerEntryStart_kept {s t : State} (hk : Kept ks mp s.host) (p : PartId)
    (h : execPagerEntryStart p s = .next t) : Kept ks mp t.host := by
  have noted (l : List Hint) (f : Hint → Nat) : Kept ks mp (l.foldl (fun t h => t.noteWait h (f h)) s).host := by
    rwa [State.host_foldl fun t h => State.host_noteWait ..]
  have next {x : State} (hx : Kept ks mp x.host) (e : (Host.Outcome.next x : Out) = .next t) : Kept ks mp t.host := by
    cases e
    exact hx
  unfold execPagerEntryStart at h
  split at h
  · exact next hk h
  · dsimp only at h
    split at h
    · split at h
      · cases h
      · split at h
        · exact next (noted ..) h
        · exact next (State.kept_startHint (noted ..) _) h
    · exact next (noted ..) h

theorem exec_next_kept {c : Instr} {s t : State} (hk : Kept ks mp s.host) (h : exec c s = .next t) : Kept ks mp t.host := by
  by_cases hc : ∀ p, c ≠ .pagerEntryStart p
  · obtain ⟨x, e, hx⟩ := exec_kept hc hk
    rw [h] at e
    cases e
    exact hx
  · obtain ⟨p, rfl⟩ := not_forall_not.mp hc
    exact execPagerEntryStart_kept hk p h

/-- A step takes the front of the queue and keeps the canonical form. -/
theorem step_kept {s t : State} (hm : mp → s.memOk = true) (h : Sys2Proof.Machine.step s = .next t) :
    Kept (s.pending.drop 1) mp t.host := by
  have ok : mp → spWf 0 s.mem = true ∧ spWf 0 s.ctlPage = true ∧ spWf 0 s.cmdArea = true := fun h => s.memOk_iff.mp (hm h)
  unfold Sys2Proof.Machine.step at h
  split at h
  case h_1 empty =>
    cases h
    rw [State.host_advance, empty]
    exact ⟨empty, ok⟩
  case h_2 c rest queue =>
    have kept : Kept rest mp ({ s with pending := rest } : State).host := ⟨rfl, ok⟩
    rw [queue, List.drop_one, List.tail_cons]
    exact exec_next_kept kept h

end Sys2Proof.Machine

namespace Sys2Proof.Machine

/-- Settles O58. -/
theorem noCommandStops : Obligations.NoCommandStops := by
  unfold Obligations.NoCommandStops
  intro c s hc
  obtain ⟨t, h, -⟩ := exec_kept (ks := s.pending) (mp := False) (s := s) hc ⟨rfl, False.elim⟩
  exact ⟨t, h⟩

/-- Settles O59. -/
theorem queueInvariant : Obligations.QueueInvariant := by
  unfold Obligations.QueueInvariant
  intro s t hq h
  obtain ⟨pending, -⟩ : Kept (s.pending.drop 1) False t.host := step_kept False.elim h
  have rest : t.pending = s.pending.drop 1 := pending
  refine ⟨?_, rest⟩
  rw [State.queueOk, rest]
  exact List.all_eq_true.mpr fun c hc => List.all_eq_true.mp hq c (List.mem_of_mem_drop hc)

/-- Settles O60. -/
theorem memoryInvariant : Obligations.MemoryInvariant := by
  unfold Obligations.MemoryInvariant
  intro s t hm h
  obtain ⟨-, ok⟩ : Kept (s.pending.drop 1) True t.host := step_kept (fun _ => hm) h
  exact t.memOk_iff.mpr (ok trivial)

/-- Settles O55. -/
theorem stepRunsFront : Obligations.StepRunsFront := by
  unfold Obligations.StepRunsFront
  intro c l s
  rfl

end Sys2Proof.Machine
end

section
namespace Sys2Proof.Machine

-- Proved in parallel, these proofs hold a thread each, whose stacks pass the check's memory.
set_option Elab.async false

/-! ## The idle step and the state at reset (O56, O57) -/

theorem State.advPart_now (s : State) (n : Nat) (p : PartId) : (s.advPart n p).now = s.now := by
  unfold State.advPart
  dsimp only
  split <;> rfl

theorem State.advance_now (s : State) (n : Nat) : (s.advance n).now = s.now + n :=
  State.foldl_rest State.now (fun t p => t.advPart n p) (fun t p => t.advPart_now n p) allParts { s with now := s.now + n }

/-- States that agree but for time agree once the time is put back. -/
theorem State.eq_of_butTime {s t : State} (h : t.butTime = s.butTime) :
    { t with now := s.now, parts := s.parts, freeCount := s.freeCount } = s :=
  (congrArg (fun x : State => { x with now := s.now, parts := s.parts, freeCount := s.freeCount }) h :)

theorem Part.eq_of_butClock {x y : Part} (h : x.butClock = y.butClock) : { x with cyc := y.cyc, sub := y.sub } = y :=
  (congrArg (fun z : Part => { z with cyc := y.cyc, sub := y.sub }) h :)

/-- Settles O56. -/
theorem idleStep : Obligations.IdleStep := by
  unfold Obligations.IdleStep
  constructor
  · intro s empty
    refine ⟨s.advance 1, ?_, s.advance_now 1, State.eq_of_butTime (s.advance_rest 1), fun p => ?_⟩
    · rw [Sys2Proof.Machine.step, empty]
    · exact Part.eq_of_butClock (s.advance_part 1 p)
  · intro i u rd f s hi hs
    obtain ⟨-, lat, g, -, he⟩ := putsScalar_of_scalarValue hi
    exact (he s).trans (State.issue_without hs g _)

/-- Settles O57. -/
theorem resetState : Obligations.ResetState := by
  unfold Obligations.ResetState
  refine ⟨rfl, rfl, reset_memOk, ?_, fun q => ⟨rfl, rfl, rfl⟩, fun u => ⟨rfl, rfl⟩⟩
  decide

end Sys2Proof.Machine
end

section
namespace Sys2Proof.Machine

-- Proved in parallel, these proofs hold a thread each, whose stacks pass the check's memory.
set_option Elab.async false

/-! ## A release whose failed check finds no room for its record (O18)

The source of a partition holds eight records (14_event_recorder_and_colophon.md R343). With six waiting and an update of the
folded one due, the record of the write itself fills the queue, and the record of the failed check is lost. -/

/-- A record of another event. -/
def waitingRecord : EvRec :=
  { code := 0, source := 0, time := 0, rep := 0, sev := 0, gap := false, staged := false, words := 0, snap := [],
    update := false }

/-- Six records wait at partition 0, and the last one has folded others into it. -/
def crowdedSrc : SrcSt :=
  { SrcSt.init with queue := List.replicate 6 waitingRecord, last := some waitingRecord, folded := true }

/-- Partition 0 runs and is held, with a budget of 0 as at reset, and its source is crowded. -/
def crowdedHold : State :=
  ((State.reset.setF (pt 0) F.TK_CTRL_hold 1).setF (pt 0) F.TK_STATUS_running 1).setSrc (.part 0) crowdedSrc

theorem crowdedHold_start : crowdedHold.f (pt 0) F.TK_CTRL_hold = 1 ∧ crowdedHold.running 0 = true ∧
    crowdedHold.badValue 0 = true ∧ (crowdedHold.src (.part 0)).queue.length < 7 := by decide +kernel

/-- The last record after the release is that of the write. -/
theorem crowdedHold_release : (match execTickHoldRelease .steward 0 crowdedHold with
    | .next t => (t.src (.part 0)).last.map (fun e => e.code)
    | _ => none) = some Ev.CFG_WRITE := by decide +kernel

/-- Refutes O18: the record of a check that fails at the release of a hold is lost where the record of the write and the
update of a folded record have filled the queue of the source, though fewer than seven records stood in it. -/
theorem not_tickControl : ¬ Obligations.TickControl := by
  rintro ⟨-, -, -, -, -, -, release, -⟩
  obtain ⟨hold, running, bad, room⟩ := crowdedHold_start
  obtain ⟨t, ht, -, -, recorded, -⟩ := release .steward 0 crowdedHold rfl hold running (.inl bad)
  obtain ⟨e, last, code⟩ := recorded room
  have h := crowdedHold_release
  rw [show execTickHoldRelease .steward 0 crowdedHold = .next t from ht] at h
  simp only [last, Option.map_some, Option.some.injEq] at h
  exact absurd (code.symm.trans h) (by decide)

end Sys2Proof.Machine
end

section
namespace Sys2Proof.Machine

-- Proved in parallel, these proofs hold a thread each, whose stacks pass the check's memory.
set_option Elab.async false

/-! ## Statements that a concrete state refutes

Each state below is that of reset but for a few fields, and meets the hypotheses of one clause; what the command then leaves
is evaluated, and is not what the clause says. -/

/-- A command has answered a next state with a property. -/
def Answers (o : Out) (p : State → Bool) : Bool :=
  match o with
  | .next t => p t
  | _ => false

theorem answers_next {o : Out} {p : State → Bool} {t : State} (h : Answers o p = true) (ht : o = .next t) : p t = true := by
  subst ht
  exact h

theorem part_of_parts {s t : State} (h : t.parts = s.parts) (p : PartId) : t.part p = s.part p := by
  simp only [State.part, h]

/-! ### A notice to a fenced partition (O42) -/

/-- LD 0 is bound to partition 0, which is fenced and masks bit 0 of its mailbox. -/
def fencedBox : State :=
  let s := ((State.reset.setF hub (F.CX_LD_BIND_parts.nth 0) 1).setF (pt 0) F.RS_STATUS_fenced 1).setF (pt 0) F.MB_MASK_mask 1
  { s with stew := { s.stew with die := true } }

theorem fencedBox_start : fencedBox.takesOwn 0 = true ∧ fencedBox.withdrawn = false ∧ fencedBox.bound 0 0 = true ∧
    fencedBox.noticeAt 1 0 = none ∧ fencedBox.f (pt 0) F.MB_MASK_mask / 2 ^ 0 % 2 = 1 := by decide +kernel

theorem fencedBox_write : Answers (execNoticeRecordWrite 0 0x200#12 (List.replicate 16 0#8) false fencedBox)
    (fun t => t.notices.isEmpty) = true := by decide +kernel

/-- Refutes O42: a notice of a masked bit of a fenced partition does not wait: it completes aborted at once. -/
theorem not_noticePath : ¬ Obligations.NoticePath := by
  rintro ⟨record, -⟩
  obtain ⟨takes, there, bound, free, masked⟩ := fencedBox_start
  obtain ⟨t, n, ht, waits, -⟩ := record 0 0 0 0x200#12 (List.replicate 16 0#8) fencedBox rfl rfl takes there bound free masked
  have h := answers_next fencedBox_write ht
  simp [waits] at h

/-! ### A test of an absent quire (O49) -/

/-- The command TEST_QUIRE stands before the steward. -/
def testNotice : Notice :=
  { ld := 0, mailbox := 0, bit := 0, ptr := 0x10000, tag := 0, irq := false, vec := 0, phase := .delivered }

/-- The owner, LD 0, asks for the test of quire 0, which is absent. -/
def absentTest : State :=
  let s := State.reset.setF (pt 0) (F.MS_MAP_absent.nth 0) 1
  { s with notices := [testNotice], cmdArea := [(0, 0x05), (1, 0x05)] }

theorem absentTest_start : absentTest.cmdNotice 0 0x0505 = some testNotice ∧ absentTest.withdrawn = false ∧
    absentTest.mayAsk 0 (partOf 0) = true ∧ absentTest.f (pt (partOf 0)) F.RS_STATUS_withdrawn = 0 ∧
    (absentTest.part (partOf 0)).rot = none ∧ absentTest.rotBlocked 0 ≠ none ∧
    (absentTest.part (partOf 0)).heldTests = [] := by decide +kernel

theorem absentTest_ask : Answers (execTestQuire 0 0 absentTest) (fun t => (t.part (partOf 0)).heldTests.isEmpty) = true := by
  decide +kernel

/-- Refutes O49: a test of an absent quire is refused: it waits for no window. -/
theorem not_testsAndWindows : ¬ Obligations.TestsAndWindows := by
  rintro ⟨-, test, -⟩
  obtain ⟨asked, there, may, up, still, blocked, -⟩ := absentTest_start
  obtain ⟨t, ht, -, -, -, held⟩ := test 0 0 testNotice absentTest asked there may up still
  have h := answers_next absentTest_ask ht
  simp [held blocked] at h

/-! ### A switch after a long hold (O50) -/

/-- The rotation of quire 0, held since the start of device time. -/
def longRotation : Rotation := { quire := 0, planned := 0, volume := 0, holdAt := some 0, notices := [] }

/-- 1 ms after the start of device time the rotation of partition 0 stands before its switch. -/
def longHold : State :=
  let s := (State.reset.setF (pt 0) F.BT_ROT_STATUS_state 2).updPart 0 (fun x => { x with rot := some longRotation })
  { s with timeBase := 1000000 }

theorem longHold_start : (longHold.part 0).tipins = [] ∧ (longHold.part 0).rot = some longRotation ∧
    partOf longRotation.quire = 0 ∧ longHold.f (pt 0) F.BT_ROT_STATUS_state = 2 ∧ longRotation.planned ≤ longHold.ns ∧
    (longHold.part 0).holdoff ≤ longHold.ns ∧ longHold.slowHalf 0 = false ∧ longHold.tooLarge longRotation.quire = false ∧
    longHold.spanOf 0 = [0] ∧ (longHold.part 0).frameOpen = false ∧ longHold.unitsOf 0 = 0 ∧ nothingPends longHold 0 ∧
    (longHold.part 0).image = none := by decide +kernel

theorem longHold_switch : Answers (execRotationSwitch 0 0 false longHold)
    (fun t => decide (t.f (pt 0) F.BT_ROT_STATUS_state = 0)) = true := by decide +kernel

/-- Refutes O50: a switch whose hold has lasted more than 120 µs is abandoned. -/
theorem not_tileRotation : ¬ Obligations.TileRotation := by
  rintro ⟨-, switch, -⟩
  obtain ⟨none_, rot, own, step, due, off, fast, small, alone, closed, empty, still, image⟩ := longHold_start
  obtain ⟨t, ht, done, -⟩ := switch 0 longRotation longHold none_ rot own step due off fast small alone closed empty still image
  have h := answers_next longHold_switch ht
  simp [done] at h

/-! ### The first charge of a restricted unit (O51) -/

/-- A wrong value charged to the clock of the west half. -/
def clockCharge : Charge :=
  { unit := .clock false, code := 0, resolved := false, time := 0, tick := none, bin := 0, act := 0, judged := false }

/-- The charge stands before the steward; its unit is under a restriction. -/
def restrictedClock : State :=
  { State.reset with
    charges := [clockCharge],
    stew := { State.reset.stew with
      running := true, die := true,
      restrictions := [{ word := capWord 0 0, unit := .clock false, changed := 0, inForce := false, leftAt := none }] } }

theorem restrictedClock_start : restrictedClock.stew.running = true ∧ restrictedClock.stew.die = true ∧
    restrictedClock.charges.find? (fun c => !c.judged) = some clockCharge ∧
    State.ruleMet
      { restrictedClock with
        charges := restrictedClock.charges.map (fun e => if e = clockCharge then { e with judged := true } else e) }
      { clockCharge with judged := true } = none ∧
    clockCharge.code ≠ Ev.IN_DROOP ∧ restrictedClock.stew.permanent = [] := by decide +kernel

theorem restrictedClock_judgement : Answers (execStewardJudgement restrictedClock) (fun t => !t.stew.permanent.isEmpty) = true := by
  decide +kernel

/-- Refutes O51: a wrong value charged to a unit under a restriction makes it permanent, though no rule is met. -/
theorem not_integrityChecks : ¬ Obligations.IntegrityChecks := by
  rintro ⟨-, -, -, -, -, judged, -⟩
  obtain ⟨runs, die, first, rule, code, none_⟩ := restrictedClock_start
  obtain ⟨t, ht, -, kept, -⟩ := judged clockCharge restrictedClock runs die first rule code (fun _ _ _ h => nomatch h)
  have h := answers_next restrictedClock_judgement ht
  simp [kept, none_] at h

/-! ### The wipe of a withdrawn partition (O52) -/

/-- A second after its start the wipe of partition 0, which is withdrawn, ends. -/
def withdrawnWipe : State :=
  let s := State.reset.setF (pt 0) F.RS_STATUS_withdrawn 1
  { s with timeBase := 1000000000, stew := { s.stew with wipes := [(0, 0, 0)] } }

theorem withdrawnWipe_start : withdrawnWipe.stew.wipes = [(0, 0, 0)] ∧ 0 + 1000000000 ≤ withdrawnWipe.ns ∧
    (withdrawnWipe.part 0).recovery = none := by decide +kernel

theorem withdrawnWipe_done : Answers (execWipeDone 0 withdrawnWipe) (fun t => decide (t.f (pt 0) F.RS_STATUS_state = 9)) = true := by
  decide +kernel

/-- Refutes O52: a withdrawn partition stays withdrawn at the end of its wipe. -/
theorem not_recoverySteps : ¬ Obligations.RecoverySteps := by
  rintro ⟨-, -, -, -, -, -, wipe⟩
  obtain ⟨only, due, still⟩ := withdrawnWipe_start
  obtain ⟨t, ht, -, state, -⟩ := wipe 0 0 0 withdrawnWipe only due still
  have h := answers_next withdrawnWipe_done ht
  simp [state] at h

/-! ### A flush that is not yet due (O54) -/

/-- The next flush of the colophon is due in 1 µs; no clock is spread. -/
def earlyFlush : State :=
  let s := State.reset.setF hub F.PW_CLK_spread 0
  { s with stew := { s.stew with running := true, flushDue := s.ns + 1000 } }

theorem earlyFlush_start : earlyFlush.stew.running = true ∧ (earlyFlush.part 0).cyc = 0 := by decide +kernel

theorem earlyFlush_flush : Answers (execColophonFlush 0 false earlyFlush) (fun t => decide ((t.part 0).cyc ≠ 0)) = true := by
  decide +kernel

/-- Refutes O54: a flush waits until it is due, and the cycles of the partitions go on meanwhile. -/
theorem not_recorderPath : ¬ Obligations.RecorderPath := by
  rintro ⟨-, -, -, -, -, flush, -⟩
  obtain ⟨runs, cyc⟩ := earlyFlush_start
  obtain ⟨t, ht, -, -, -, parts⟩ := flush 0 earlyFlush runs (by decide)
  have same : (t.part 0).cyc = 0 := by rw [part_of_parts parts, cyc]
  have h := answers_next earlyFlush_flush ht
  simp [same] at h

end Sys2Proof.Machine
end

section
namespace Sys2Proof.Machine

-- Proved in parallel, these proofs hold a thread each, whose stacks pass the check's memory.
set_option Elab.async false

/-! ## What events, completions and commands leave of the registers and the memories -/

/-! Memories. -/

theorem memoriesKept_of_lists {s t : State} (hm : t.mem = s.mem) (hq : t.quires = s.quires) (hs : t.stitchers = s.stitchers) :
    MemoriesKept s t :=
  ⟨hm, fun q => congrArg (fun l => (spGet Quire.init l q.val).leaf) hq,
    fun u => congrArg (fun l => (spGet Stitcher.init l u.key).pocket) hs⟩

theorem MemoriesKept.refl (s : State) : MemoriesKept s s := ⟨rfl, fun _ => rfl, fun _ => rfl⟩

theorem MemoriesKept.trans {s t u : State} (a : MemoriesKept s t) (b : MemoriesKept t u) : MemoriesKept s u :=
  ⟨b.1.trans a.1, fun q => (b.2.1 q).trans (a.2.1 q), fun x => (b.2.2 x).trans (a.2.2 x)⟩

theorem memoriesKept_of_butNotices {s t : State} (h : t.butNotices = s.butNotices) : MemoriesKept s t :=
  memoriesKept_of_lists (State.mem_of_butNotices h) (State.quires_of_butNotices h) (State.stitchers_of_butNotices h)

theorem memoriesKept_of_butEvents {s t : State} (h : t.butEvents = s.butEvents) : MemoriesKept s t :=
  memoriesKept_of_butNotices (State.butNotices_of h)

theorem memoriesKept_of_butTime {s t : State} (h : t.butTime = s.butTime) : MemoriesKept s t :=
  memoriesKept_of_lists (State.mem_of_butTime h) (State.quires_of_butTime h) (State.stitchers_of_butTime h)

/-- The bytes of partition memory, of every leaf and of every pocket memory. -/
def State.memories (s : State) : Sparse (BitVec 8) × (QuireId → Sparse (BitVec 8)) × (StId → Sparse (BitVec 8)) :=
  (s.mem, fun q => (s.qu q).leaf, fun u => (s.st u).pocket)

theorem memoriesKept_iff {s t : State} : MemoriesKept s t ↔ t.memories = s.memories := by
  simp only [MemoriesKept, State.memories, Prod.mk.injEq, funext_iff]

theorem memoriesKept_of {s t : State} (h : t.memories = s.memories) : MemoriesKept s t := memoriesKept_iff.mpr h

theorem State.memories_of_butNotices {s t : State} (h : t.butNotices = s.butNotices) : t.memories = s.memories :=
  memoriesKept_iff.mp (memoriesKept_of_butNotices h)

theorem State.memories_of_butEvents {s t : State} (h : t.butEvents = s.butEvents) : t.memories = s.memories :=
  memoriesKept_iff.mp (memoriesKept_of_butEvents h)

theorem State.memories_mk {s : State} {pending now timeBase freeCount regs latches parts flights creditFlights
    srcs memMark triggers trackers charges mgn dramFixes sparesUsed remaps notices comps ctlPage cmdArea bar2 msix extents
    filter snoops readWait hostData links spine spNext regAns halfChg thermal staging stageLostAt stageLostN recNext mapCopies
    mapBefore runs tested pulseEnd ioNext tickIn stew} :
    State.memories ⟨pending, now, timeBase, freeCount, regs, latches, s.stitchers, s.quires, parts, flights, creditFlights,
      srcs, s.mem, memMark, triggers, trackers, charges, mgn, dramFixes, sparesUsed, remaps, notices, comps, ctlPage, cmdArea,
      bar2, msix, extents, filter, snoops, readWait, hostData, links, spine, spNext, regAns, halfChg, thermal, staging,
      stageLostAt, stageLostN, recNext, mapCopies, mapBefore, runs, tested, pulseEnd, ioNext, tickIn, stew⟩ = s.memories :=
  (rfl)

theorem State.memories_ite {c : Prop} [Decidable c] {a b : State} :
    State.memories (if c then a else b) = if c then a.memories else b.memories := by
  split <;> rfl

theorem State.memories_foldl {α : Type} {g : State → α → State} {s : State} (step : ∀ s a, (g s a).memories = s.memories)
    (xs : List α) : (xs.foldl g s).memories = s.memories :=
  State.foldl_rest State.memories g step xs s

theorem State.memories_wr (s : State) (b : Nat) (r : Reg) (v : BitVec 32) : (s.wr b r v).memories = s.memories := (rfl)

theorem State.memories_setF (s : State) (b : Nat) (g : Fld) (v : Nat) : (s.setF b g v).memories = s.memories := (rfl)

theorem State.memories_incF (s : State) (b : Nat) (g : Fld) (n : Nat) : (s.incF b g n).memories = s.memories := (rfl)

theorem State.memories_updPart (s : State) (p : PartId) (k : Part → Part) : (s.updPart p k).memories = s.memories := (rfl)

theorem State.memories_setPart (s : State) (p : PartId) (x : Part) : (s.setPart p x).memories = s.memories := (rfl)

theorem State.memories_failTick (s : State) (p : PartId) : (s.failTick p).memories = s.memories := (rfl)

/-- A change of a quire that leaves its leaf. -/
theorem State.memories_updQu (s : State) (q : QuireId) (k : Quire → Quire) (h : (k (s.qu q)).leaf = (s.qu q).leaf) :
    (s.updQu q k).memories = s.memories := by
  refine memoriesKept_iff.mp ⟨rfl, fun r => ?_, fun _ => rfl⟩
  by_cases e : r = q
  · rw [e, State.qu_updQu_same, h]
  · rw [State.qu_updQu_ne _ _ e]

/-- A change of a stitcher that leaves its pocket memory. -/
theorem State.memories_updSt (s : State) (u : StId) (k : Stitcher → Stitcher) (h : (k (s.st u)).pocket = (s.st u).pocket) :
    (s.updSt u k).memories = s.memories := by
  refine memoriesKept_iff.mp ⟨rfl, fun _ => rfl, fun v => ?_⟩
  by_cases e : v = u
  · rw [e, State.st_updSt_same, h]
  · rw [State.st_updSt_ne _ _ e]

theorem State.memories_raise (s : State) (x : Src) (code sev : Nat) (cap : List Nat) :
    (s.raise x code sev cap).memories = s.memories :=
  State.memories_of_butEvents (s.raise_rest x code sev cap)

theorem State.memories_ev (s : State) (x : Src) (code : Nat) (cap : List Nat) : (s.ev x code cap).memories = s.memories :=
  s.memories_raise x code (evSev code) cap

theorem State.memories_complete (s : State) (n : Notice) (status result : Nat) :
    (s.complete n status result).memories = s.memories :=
  State.memories_of_butNotices (s.complete_rest n status result)

theorem State.memories_refuse (s : State) (n : Notice) (status reason result : Nat) :
    (s.refuse n status reason result).memories = s.memories :=
  State.memories_of_butNotices (s.refuse_rest n status reason result)

theorem State.memories_waitNs (s : State) (n : Nat) : (s.waitNs n).memories = s.memories :=
  memoriesKept_iff.mp (memoriesKept_of_butTime (s.waitNs_rest n))

theorem State.memories_waitCycle (s : State) (p : PartId) (c : Nat) : (s.waitCycle p c).memories = s.memories :=
  memoriesKept_iff.mp (memoriesKept_of_butTime (s.waitCycle_rest p c))

theorem getElem?_memRead (m : Sparse (BitVec 8)) (a n i : Nat) (h : i < n) :
    (memRead m a n)[i]? = some (spGet 0 m (a + i)) := by
  induction n generalizing a i with
  | zero => omega
  | succ n ih =>
    cases i with
    | zero => rfl
    | succ i =>
      rw [memRead, List.getElem?_cons_succ, ih (a + 1) i (by omega)]
      congr 2
      omega

/-- What has been written is read back. -/
theorem memRead_memWrite (m : Sparse (BitVec 8)) (a : Nat) (l : List (BitVec 8)) :
    memRead (memWrite m a l) a l.length = l := by
  refine List.ext_getElem? fun i => ?_
  by_cases h : i < l.length
  · rw [getElem?_memRead _ _ _ _ h, spGet_memWrite_in l m a i h, List.getElem?_eq_getElem h]
  · rw [List.getElem?_eq_none (by rw [memRead_length]; omega), List.getElem?_eq_none (by omega)]

/-! Registers. -/

/-- An address is that of a partition's register at an offset. -/
abbrev atBlockOffset (a off : Nat) : Prop := 0x1000000 ≤ a ∧ a % 0x1000000 = off

/-- A field of a partition's own register and one at another offset stand in different words. -/
theorem State.setF_pt_f (s : State) (p : PartId) {g : Fld} (v b : Nat) (k : Fld) (hg : g.reg.off < 0x1000000)
    (h : ¬ atBlockOffset (b + k.reg.off) g.reg.off) : (s.setF (pt p) g v).f b k = s.f b k :=
  s.f_setF_reg v (by unfold pt; omega)

theorem State.raise0_f (s : State) (x : Src) (code sev : Nat) (cap : List Nat) (b : Nat) (k : Fld)
    (h : ¬ atBlockOffset (b + k.reg.off) 0xB00) : (s.raise0 x code sev cap).1.f b k = s.f b k := by
  unfold State.raise0
  extract_lets now r us fold sendUpd q1 r1 snap e t
  split
  · rfl
  · split
    · rfl
    · cases x.part? with
      | none => rfl
      | some p => exact t.setF_pt_f p _ b k (by decide) h

/-- An event leaves every register but the partitions' counts of lost records. -/
theorem State.raise_f (s : State) (x : Src) (code sev : Nat) (cap : List Nat) (b : Nat) (k : Fld)
    (h : ¬ atBlockOffset (b + k.reg.off) 0xB00) : (s.raise x code sev cap).f b k = s.f b k := by
  unfold State.raise
  dsimp only
  split
  · rw [State.raise0_f _ _ _ _ _ _ _ h, State.raise0_f _ _ _ _ _ _ _ h]
  · exact s.raise0_f x code sev cap b k h

theorem State.ev_f (s : State) (x : Src) (code : Nat) (cap : List Nat) (b : Nat) (k : Fld)
    (h : ¬ atBlockOffset (b + k.reg.off) 0xB00) : (s.ev x code cap).f b k = s.f b k :=
  s.raise_f x code (evSev code) cap b k h

theorem not_atBlockOffset_hub {g : Fld} (off : Nat) (h : g.reg.off < 0x1000000) : ¬ atBlockOffset (hub + g.reg.off) off :=
  fun ⟨a, _⟩ => by unfold hub at a; omega

theorem State.ev_hub (s : State) (x : Src) (code : Nat) (cap : List Nat) {g : Fld} (h : g.reg.off < 0x1000000) :
    (s.ev x code cap).f hub g = s.f hub g :=
  s.ev_f x code cap hub g (not_atBlockOffset_hub _ h)

/-- A field of one of a table of the hub's registers. -/
theorem Fld.nth_off_lt {g : Fld} (k : Fin 256) (h : g.reg.off < 0x10000) : (g.nth k.val).reg.off < 0x1000000 := by
  simp only [Fld.nth, Reg.nth]
  omega

@[simp] theorem State.ev_CX_LD_BIND_present (s : State) (x : Src) (c : Nat) (l : List Nat) (ld : LdId) :
    (s.ev x c l).f hub (F.CX_LD_BIND_present.nth ld.val) = s.f hub (F.CX_LD_BIND_present.nth ld.val) :=
  s.ev_hub x c l (Fld.nth_off_lt ⟨ld.val, by omega⟩ (by decide))

@[simp] theorem State.ev_CX_LD_BIND_parts (s : State) (x : Src) (c : Nat) (l : List Nat) (ld : LdId) :
    (s.ev x c l).f hub (F.CX_LD_BIND_parts.nth ld.val) = s.f hub (F.CX_LD_BIND_parts.nth ld.val) :=
  s.ev_hub x c l (Fld.nth_off_lt ⟨ld.val, by omega⟩ (by decide))

theorem not_atBlockOffset_pt {g : Fld} {off : Nat} (p : PartId) (h : g.reg.off < 0x1000000) (hne : g.reg.off ≠ off) :
    ¬ atBlockOffset (pt p + g.reg.off) off :=
  fun ⟨_, a⟩ => by unfold pt at a; omega

theorem State.ev_pt (s : State) (x : Src) (code : Nat) (cap : List Nat) (p : PartId) {g : Fld} (h : g.reg.off < 0x1000000)
    (hne : g.reg.off ≠ 0xB00) : (s.ev x code cap).f (pt p) g = s.f (pt p) g :=
  s.ev_f x code cap (pt p) g (not_atBlockOffset_pt p h hne)

theorem State.incF_pt_f (s : State) (p : PartId) {g : Fld} (n b : Nat) (k : Fld) (hg : g.reg.off < 0x1000000)
    (h : ¬ atBlockOffset (b + k.reg.off) g.reg.off) : (s.incF (pt p) g n).f b k = s.f b k :=
  s.setF_pt_f p _ b k hg h

/-- A completion leaves every register but the two that a partition's mailbox shows it in. -/
theorem State.complete_f (s : State) (n : Notice) (status result b : Nat) (k : Fld)
    (h : ¬ atBlockOffset (b + k.reg.off) R.MB_STAT.off) (h' : ¬ atBlockOffset (b + k.reg.off) R.MB_PEND.off) :
    (s.complete n status result).f b k = s.f b k := by
  unfold State.complete State.pushComp State.showPend
  cases boxPart n.mailbox with
  | none => rfl
  | some p =>
    have pend : ∀ (t : State) (v : Nat), (t.setF (pt p) F.MB_PEND_pending v).f b k = t.f b k :=
      fun t v => t.setF_pt_f p v b k (by decide) h'
    dsimp only
    rw [pend]
    repeat' split
    · exact State.incF_pt_f _ p 1 b k (by decide) h
    · exact State.incF_pt_f _ p 1 b k (by decide) h
    · exact State.incF_pt_f _ p 1 b k (by decide) h
    · rfl

theorem State.complete_hub (s : State) (n : Notice) (status result : Nat) {g : Fld} (h : g.reg.off < 0x1000000) :
    (s.complete n status result).f hub g = s.f hub g :=
  s.complete_f n status result hub g (not_atBlockOffset_hub _ h) (not_atBlockOffset_hub _ h)

/-! Predicates of the device's registers and of the steward that an event leaves. -/

theorem State.withdrawn_of_eq {s t : State} (hf : t.f hub F.RS_DEVICE_withdrawn = s.f hub F.RS_DEVICE_withdrawn)
    (hs : t.stew = s.stew) : t.withdrawn = s.withdrawn := by
  unfold State.withdrawn
  rw [hf, hs]

@[simp] theorem State.ev_withdrawn (s : State) (x : Src) (c : Nat) (l : List Nat) : (s.ev x c l).withdrawn = s.withdrawn :=
  State.withdrawn_of_eq (s.ev_hub x c l (by decide)) (s.ev_stew x c l)

@[simp] theorem State.ev_owner (s : State) (x : Src) (c : Nat) (l : List Nat) : (s.ev x c l).owner = s.owner := by
  simp only [State.owner, s.ev_hub x c l (g := F.CX_OWNER_ld) (by decide)]

@[simp] theorem State.ev_ns (s : State) (x : Src) (c : Nat) (l : List Nat) : (s.ev x c l).ns = s.ns := by
  unfold State.ns
  rw [State.ev_now, State.timeBase_of_butEvents (s.ev_rest x c l)]

@[simp] theorem State.ev_extents (s : State) (x : Src) (c : Nat) (l : List Nat) : (s.ev x c l).extents = s.extents :=
  (congrArg State.extents (s.ev_rest x c l) :)

@[simp] theorem State.ev_part (s : State) (x : Src) (c : Nat) (l : List Nat) (p : PartId) :
    (s.ev x c l).part p = s.part p := by
  simp only [State.part, State.ev_parts]

@[simp] theorem State.ev_bound (s : State) (x : Src) (c : Nat) (l : List Nat) (ld : LdId) (p : PartId) :
    (s.ev x c l).bound ld p = s.bound ld p := by
  simp only [State.bound, State.ev_CX_LD_BIND_parts]

@[simp] theorem State.ev_ldOf (s : State) (x : Src) (c : Nat) (l : List Nat) (p : PartId) :
    (s.ev x c l).ldOf p = s.ldOf p := by
  simp only [State.ldOf, State.ev_CX_LD_BIND_parts]

@[simp] theorem State.ev_enabled (s : State) (x : Src) (c : Nat) (l : List Nat) (p : PartId) :
    (s.ev x c l).enabled p = s.enabled p := by
  simp only [State.enabled, s.ev_hub x c l (g := F.LC_FEATURES_parts) (by decide)]

@[simp] theorem State.ev_recovering (s : State) (x : Src) (c : Nat) (l : List Nat) (p : PartId) :
    (s.ev x c l).recovering p = s.recovering p := by
  simp only [State.recovering, State.ev_part, State.ev_stew]

/-! The command path. -/

/-- The state in which a command is carried out: it is recorded, and its notice is acting. -/
def State.acting (s : State) (ld : LdId) (op arg : Nat) (n : Notice) : State :=
  (s.ev .hub Ev.CFG_WRITE [ld.val, op, arg % 2 ^ 32]).setPhase n .acting

theorem State.acting_rest (s : State) (ld : LdId) (op arg : Nat) (n : Notice) :
    (s.acting ld op arg n).butNotices = s.butNotices :=
  (State.butNotices_of (s.ev_rest .hub Ev.CFG_WRITE [ld.val, op, arg % 2 ^ 32]) :)

theorem State.acting_f (s : State) (ld : LdId) (op arg : Nat) (n : Notice) (b : Nat) (g : Fld) :
    (s.acting ld op arg n).f b g = (s.ev .hub Ev.CFG_WRITE [ld.val, op, arg % 2 ^ 32]).f b g := (rfl)

theorem State.acting_hub (s : State) (ld : LdId) (op arg : Nat) (n : Notice) {g : Fld} (h : g.reg.off < 0x1000000) :
    (s.acting ld op arg n).f hub g = s.f hub g :=
  (s.acting_f ld op arg n hub g).trans (s.ev_hub _ _ _ h)

@[simp] theorem State.acting_CX_LD_BIND_present (s : State) (ld : LdId) (op arg : Nat) (n : Notice) (l : LdId) :
    (s.acting ld op arg n).f hub (F.CX_LD_BIND_present.nth l.val) = s.f hub (F.CX_LD_BIND_present.nth l.val) :=
  s.ev_CX_LD_BIND_present _ _ _ l

@[simp] theorem State.acting_extentAt (s : State) (ld : LdId) (op arg : Nat) (n : Notice) (l slot : Nat) :
    (s.acting ld op arg n).extentAt l slot = s.extentAt l slot := by
  simp only [State.extentAt, State.acting, State.setPhase, State.ev_extents]

theorem State.acting_pt (s : State) (ld : LdId) (op arg : Nat) (n : Notice) (p : PartId) {g : Fld}
    (h : g.reg.off < 0x1000000) (hne : g.reg.off ≠ 0xB00) : (s.acting ld op arg n).f (pt p) g = s.f (pt p) g :=
  (s.acting_f ld op arg n (pt p) g).trans (s.ev_pt _ _ _ p h hne)

@[simp] theorem State.acting_stew (s : State) (ld : LdId) (op arg : Nat) (n : Notice) : (s.acting ld op arg n).stew = s.stew :=
  State.stew_of_butNotices (s.acting_rest ld op arg n)

@[simp] theorem State.acting_parts (s : State) (ld : LdId) (op arg : Nat) (n : Notice) : (s.acting ld op arg n).parts = s.parts :=
  State.parts_of_butNotices (s.acting_rest ld op arg n)

theorem State.memories_acting (s : State) (ld : LdId) (op arg : Nat) (n : Notice) :
    (s.acting ld op arg n).memories = s.memories :=
  State.memories_of_butNotices (s.acting_rest ld op arg n)

@[simp] theorem State.acting_comps (s : State) (ld : LdId) (op arg : Nat) (n : Notice) : (s.acting ld op arg n).comps = s.comps :=
  s.ev_comps .hub Ev.CFG_WRITE [ld.val, op, arg % 2 ^ 32]

@[simp] theorem State.acting_extents (s : State) (ld : LdId) (op arg : Nat) (n : Notice) :
    (s.acting ld op arg n).extents = s.extents :=
  s.ev_extents .hub Ev.CFG_WRITE [ld.val, op, arg % 2 ^ 32]

@[simp] theorem State.acting_ns (s : State) (ld : LdId) (op arg : Nat) (n : Notice) : (s.acting ld op arg n).ns = s.ns :=
  s.ev_ns .hub Ev.CFG_WRITE [ld.val, op, arg % 2 ^ 32]

@[simp] theorem State.acting_recovering (s : State) (ld : LdId) (op arg : Nat) (n : Notice) (p : PartId) :
    (s.acting ld op arg n).recovering p = s.recovering p :=
  s.ev_recovering .hub Ev.CFG_WRITE [ld.val, op, arg % 2 ^ 32] p

@[simp] theorem State.acting_enabled (s : State) (ld : LdId) (op arg : Nat) (n : Notice) (p : PartId) :
    (s.acting ld op arg n).enabled p = s.enabled p :=
  s.ev_enabled .hub Ev.CFG_WRITE [ld.val, op, arg % 2 ^ 32] p

@[simp] theorem State.acting_ldOf (s : State) (ld : LdId) (op arg : Nat) (n : Notice) (p : PartId) :
    (s.acting ld op arg n).ldOf p = s.ldOf p :=
  s.ev_ldOf .hub Ev.CFG_WRITE [ld.val, op, arg % 2 ^ 32] p

@[simp] theorem State.acting_bound (s : State) (ld : LdId) (op arg : Nat) (n : Notice) (l : LdId) (p : PartId) :
    (s.acting ld op arg n).bound l p = s.bound l p :=
  s.ev_bound .hub Ev.CFG_WRITE [ld.val, op, arg % 2 ^ 32] l p

/-- A command of the owner on a device that is not withdrawn is carried out. -/
theorem State.command_of_commanded {s : State} {ld : LdId} {op : Nat} {n : Notice} (h : commanded s ld op n) (arg : Nat)
    (own : Bool) (k : Notice → State → State) :
    s.command ld op arg own k = .next (k { n with phase := .acting } (s.acting ld op arg n)) := by
  obtain ⟨found, live, owner⟩ := h
  unfold State.command
  rw [found]
  dsimp only
  rw [if_neg (by simp [live]), if_neg (by simp [owner])]
  rfl

end Sys2Proof.Machine
end

section
namespace Sys2Proof.Machine

-- Proved in parallel, these proofs hold a thread each, whose stacks pass the check's memory.
set_option Elab.async false

/-! ## What leaves the memories as they are

A function of the model that writes no byte of partition memory, of a leaf or of a pocket memory has a lemma
`memories_<name>`: its result has the same `memories`. -/

theorem State.memories_setQu (s : State) (q : QuireId) (x : Quire) (h : x.leaf = (s.qu q).leaf) :
    (s.setQu q x).memories = s.memories :=
  s.memories_updQu q (fun _ => x) h

theorem State.memories_setSt (s : State) (u : StId) (x : Stitcher) (h : x.pocket = (s.st u).pocket) :
    (s.setSt u x).memories = s.memories :=
  s.memories_updSt u (fun _ => x) h

/-! What the changes of a quire or a stitcher leave of its memory. -/

@[simp] theorem Quire.leaf_takeBank (x : Quire) (v pos bank n : Nat) : (x.takeBank v pos bank n).leaf = x.leaf := by
  induction n generalizing x pos with
  | zero => rfl
  | succ n ih => exact ih _ _

@[simp] theorem Quire.leaf_takePort (x : Quire) (rank pos bank : Nat) : (x.takePort rank pos bank).leaf = x.leaf := by
  unfold Quire.takePort
  rw [Quire.leaf_takeBank]

@[simp] theorem Quire.leaf_unused (x : Quire) : x.unused.leaf = x.leaf := (rfl)

theorem Quire.leaf_takeBanks (x : Quire) (v pos : Nat) (l : List Nat) :
    (l.foldl (fun y b => y.takeBank v pos b 1) x).leaf = x.leaf := by
  induction l generalizing x with
  | nil => rfl
  | cons b l ih => exact (ih _).trans (x.leaf_takeBank v pos b 1)

@[simp] theorem Quire.leaf_setPress (x : Quire) (p : PressId) (v : Press) : (x.setPress p v).leaf = x.leaf := by
  unfold Quire.setPress
  split <;> rfl

@[simp] theorem Stitcher.pocket_setS (x : Stitcher) (r : SReg) (v : BitVec 32) : (x.setS r v).pocket = x.pocket := by
  unfold Stitcher.setS
  split <;> rfl

@[simp] theorem Stitcher.pocket_setP (x : Stitcher) (r : PReg) (v : BitVec 64) : (x.setP r v).pocket = x.pocket := by
  unfold Stitcher.setP
  split <;> rfl

theorem State.memories_fst_ite {α : Type} {c : Prop} [Decidable c] {a b : State × α} :
    State.memories (if c then a else b).1 = if c then a.1.memories else b.1.memories := by
  split <;> rfl

/-- A fold keeps what its step keeps, of whatever carries the state. -/
theorem memories_foldl_of {α β : Type} (v : β → State) {g : β → α → β} {x : β} (step : ∀ x a, (v (g x a)).memories = (v x).memories)
    (xs : List α) : (v (xs.foldl g x)).memories = (v x).memories := by
  induction xs generalizing x with
  | nil => rfl
  | cons a xs ih => exact (ih ..).trans (step x a)

theorem State.memories_fst_foldl {α β : Type} {g : State × β → α → State × β} {x : State × β}
    (step : ∀ x a, (g x a).1.memories = x.1.memories) (xs : List α) : (xs.foldl g x).1.memories = x.1.memories :=
  memories_foldl_of Prod.fst step xs

theorem State.memories_setSrc (s : State) (x : Src) (v : SrcSt) : (s.setSrc x v).memories = s.memories := (rfl)

theorem State.memories_updSrc (s : State) (x : Src) (f : SrcSt → SrcSt) : (s.updSrc x f).memories = s.memories := (rfl)

theorem State.memories_setCnt (s : State) (base : Nat) (lo hi : Reg) (v : Nat) : (s.setCnt base lo hi v).memories = s.memories := (rfl)

theorem State.memories_wrAddr (s : State) (a : RegAcc) (addr : Nat) (v : BitVec 32) : (s.wrAddr a addr v).memories = s.memories := (rfl)

theorem State.memories_clearLatches (s : State) (lo hi : Nat) : (s.clearLatches lo hi).memories = s.memories := (rfl)

theorem State.memories_clearRegs (s : State) (lo hi : Nat) : (s.clearRegs lo hi).memories = s.memories := (rfl)

theorem State.memories_updTherm (s : State) (h : Half) (f : Thermal → Thermal) : (s.updTherm h f).memories = s.memories := by
  simp only [State.updTherm, State.memories_mk]

theorem State.memories_advPart (s : State) (n : Nat) (p : PartId) : (s.advPart n p).memories = s.memories := by
  simp only [State.advPart, State.memories_ite, ite_self, State.memories_updPart]

theorem State.memories_advance (s : State) (n : Nat) : (s.advance n).memories = s.memories := by
  simp only [State.advance, State.memories_mk, implies_true, State.memories_foldl, State.memories_advPart]

theorem State.memories_useFree (s : State)  : (s.useFree).memories = s.memories := (rfl)

theorem State.memories_readReg (s : State) (reader addr : Nat) : (s.readReg reader addr).1.memories = s.memories := by
  simp only [State.readReg, State.memories_mk, State.memories_fst_ite, ite_self]

theorem State.memories_raise0 (s : State) (x : Src) (code sev : Nat) (cap : List Nat) :
    (s.raise0 x code sev cap).1.memories = s.memories := by
  unfold State.raise0
  split <;> simp only [State.memories_fst_ite, ite_self, State.memories_setSrc, State.memories_incF]

theorem State.memories_noteFeature (s : State) (p : PartId) (feature ld : Nat) :
    (s.noteFeature p feature ld).memories = s.memories := by
  simp only [State.noteFeature, State.memories_raise]

theorem State.memories_charge (s : State) (p : PartId) (unit : HwUnit) (code : Nat) (resolved : Bool) :
    (s.charge p unit code resolved).memories = s.memories := by
  simp only [State.charge, State.memories_mk, State.memories_ite, ite_self]

theorem State.memories_delayFrom (s : State) (q : QuireId) (pos n : Nat) : (s.delayFrom q pos n).memories = s.memories := by
  simp only [State.delayFrom, State.memories_mk]

theorem State.memories_pauseCorrection (s : State) (q : QuireId) (pos : Nat) : (s.pauseCorrection q pos).memories = s.memories := by
  simp only [State.pauseCorrection, State.memories_ite, ite_self, State.memories_updQu, State.memories_delayFrom]

theorem State.memories_pauseInherit (s : State) (q : QuireId) (pos n : Nat) : (s.pauseInherit q pos n).memories = s.memories := by
  simp only [State.pauseInherit, State.memories_ite, ite_self, State.memories_updQu, State.memories_delayFrom]

theorem State.memories_chargeStall (s : State) (u : StId) (old : Option Stall) (t : Nat) :
    (s.chargeStall u old t).memories = s.memories := by
  unfold State.chargeStall
  split
  · exact s.memories_updQu _ _ (by split <;> rfl)
  · rfl

theorem State.memories_endRefusals (s : State) (q : QuireId) (toward : Nat → Bool) :
    (s.endRefusals q toward).memories = s.memories := by
  unfold State.endRefusals
  refine State.memories_foldl (fun t a => ?_) _
  repeat' split
  all_goals simp only [State.memories_updSt, State.memories_chargeStall]

theorem State.memories_pauseTransit (s : State) (q src : QuireId) (entry pos n cause : Nat) :
    (s.pauseTransit q src entry pos n cause).memories = s.memories := by
  unfold State.pauseTransit
  split
  · rfl
  · exact (State.memories_raise ..).trans ((State.memories_foldl (fun t _ => t.memories_updSt _ _ rfl) _).trans
      (s.memories_updQu q _ rfl))

theorem State.memories_freeCredit (s : State) (q : QuireId) (pos : Nat) (o : Origin) (n : Nat) :
    (s.freeCredit q pos o n).memories = s.memories := by
  unfold State.freeCredit
  split <;> simp only [State.memories_mk]

theorem State.memories_freeCredits (s : State) (q : QuireId) (pos : Nat) (l : List (Origin × Nat)) :
    (s.freeCredits q pos l).memories = s.memories := by
  simp only [State.freeCredits, implies_true, State.memories_foldl, State.memories_freeCredit]

theorem State.memories_orphan (s : State) (u : StId) (pos port tag : Nat) (o : Origin) :
    (s.orphan u pos port tag o).memories = s.memories := by
  simp only [State.orphan, State.memories_updQu, State.memories_incF, State.memories_freeCredit]

theorem State.memories_recordOrphans (s : State) (q : QuireId) : (s.recordOrphans q).memories = s.memories := by
  simp only [State.recordOrphans, State.memories_ite, ite_self, State.memories_setQu, State.memories_incF, State.memories_raise]

theorem State.memories_lateOrphan (s : State) (q : QuireId) : (s.lateOrphan q).memories = s.memories := by
  simp only [State.lateOrphan, State.memories_ite, ite_self, State.memories_updQu, State.memories_recordOrphans]

theorem State.memories_dropToken (s : State) (u : StId) (pos : Nat) (t : Tok) (o : Origin) (cnt : Fld) (code : Nat)
    (extra : List Nat) (fails : Bool) :
    (s.dropToken u pos t o cnt code extra fails).memories = s.memories := by
  simp only [State.dropToken, State.memories_ite, ite_self, State.memories_incF, State.memories_raise, State.memories_charge,
    State.memories_failTick, State.memories_freeCredit]

theorem State.memories_arriveToken (s : State) (u : StId) (t : Tok) (o : Origin) (pos : Nat) :
    (s.arriveToken u t o pos).memories = s.memories := by
  simp only [State.arriveToken, State.memories_ite, ite_self, State.memories_setSt, State.memories_updSt, State.memories_setF,
    State.memories_incF, State.memories_raise, State.memories_failTick, State.memories_freeCredit, State.memories_orphan,
    State.memories_lateOrphan, State.memories_dropToken]

theorem State.memories_internalToken (s : State) (u : StId) (port tag : Nat) (ctl : Bool) (data : BitVec 64) (pos : Nat) :
    (s.internalToken u port tag ctl data pos).memories = s.memories := by
  simp only [State.internalToken, State.memories_arriveToken]

theorem State.memories_logReset (s : State) (scope target : Nat) : (s.logReset scope target).memories = s.memories := (rfl)

theorem State.memories_resetStitcher (s : State) (u : StId) (pos : Nat) : (s.resetStitcher u pos).memories = s.memories := by
  unfold State.resetStitcher
  have same : ((s.logReset 1 (64 * s.tileOf u.quire + u.st.val)).freeCredits u.quire (pos + 1) (s.st u).heldCredits).memories =
      s.memories := (State.memories_freeCredits ..).trans (State.memories_logReset ..)
  dsimp only
  generalize (s.logReset 1 (64 * s.tileOf u.quire + u.st.val)).freeCredits u.quire (pos + 1) (s.st u).heldCredits = t at same ⊢
  exact (State.memories_incF ..).trans ((t.memories_setSt u _ (congrFun (congrArg (·.2.2) same) u).symm).trans same)

theorem State.memories_refund (s : State) (m : Flight) : (s.refund m).memories = s.memories := by
  unfold State.refund
  split <;> simp only [State.memories_updQu, State.memories_setF]

theorem State.memories_discardOutbound (s : State) (q : QuireId) (pos : Nat) :
    (s.discardOutbound q pos).memories = s.memories := by
  unfold State.discardOutbound
  have held (t : State) (h : HeldOut) : (match h.msg with | .flight m => t.refund m | .fwd _ => t).memories = t.memories := by
    split
    · exact State.memories_refund ..
    · rfl
  refine ((State.memories_foldl held _).trans (State.memories_foldl (fun _ _ => State.memories_refund ..) _)).trans ?_
  rw [State.memories_incF, State.memories_updPart, State.memories_setQu]
  · exact State.memories_mk
  · rfl

theorem State.memories_firingFault (s : State) (u : StId) (cause pos : Nat) (cap : List Nat) :
    (s.firingFault u cause pos cap).memories = s.memories := by
  simp only [State.firingFault, State.memories_ite, ite_self, State.memories_updSt, State.memories_updQu, State.memories_setF,
    State.memories_incF, State.memories_raise, State.memories_charge, State.memories_failTick, State.memories_resetStitcher,
    State.memories_discardOutbound]

theorem State.memories_grant (s : State) (q : QuireId) (pos addr : Nat) : (s.grant q pos addr).1.memories = s.memories :=
  s.memories_setQu q _ (Quire.leaf_takePort ..)

theorem State.memories_pressGrant (s : State) (q : QuireId) (rank pos : Nat) (addrs : List Nat) :
    (s.pressGrant q rank pos addrs).1.memories = s.memories :=
  s.memories_setQu q _ (Quire.leaf_takeBanks ..)

theorem State.memories_takeFree (s : State) (q : QuireId) (rank addr : Nat) : (s.takeFree q rank addr).memories = s.memories := by
  unfold State.takeFree
  split
  · exact s.memories_updQu q _ (Quire.leaf_takePort ..)
  · rfl

theorem State.memories_holdBank (s : State) (q : QuireId) (sched : Option Nat) (addr : Nat) (merged fixed : Bool) :
    (s.holdBank q sched addr merged fixed).memories = s.memories := by
  unfold State.holdBank
  split
  · exact s.memories_updQu q _ (Quire.leaf_takeBank ..)
  · rfl

theorem State.memories_setTracker (s : State) (q : QuireId) (l : List Track) : (s.setTracker q l).memories = s.memories := (rfl)

theorem State.memories_trackRow (s : State) (q : QuireId) (addr : Nat) : (s.trackRow q addr).memories = s.memories := by
  unfold State.trackRow
  simp only []
  split <;> simp only [State.memories_ite, ite_self, State.memories_incF, State.memories_raise, State.memories_setTracker]

theorem State.memories_setMark (s : State) (q : QuireId) (a m : Nat) : (s.setMark q a m).memories = s.memories :=
  s.memories_updQu q _ rfl

theorem State.memories_leafUncorr (s : State) (q : QuireId) (addr reader cause : Nat) :
    (s.leafUncorr q addr reader cause).memories = s.memories := by
  simp only [State.leafUncorr, State.memories_ite, ite_self, State.memories_incF, State.memories_raise, State.memories_charge]

theorem State.memories_rowRead (s : State) (q : QuireId) (reader addr n : Nat) :
    (s.rowRead q reader addr n).state.memories = s.memories := by
  unfold State.rowRead
  split <;> simp only [State.memories_ite, ite_self, State.memories_incF, State.memories_useFree, State.memories_trackRow,
    State.memories_leafUncorr]

theorem State.memories_portAccess (s : State) (q : QuireId) (reader : Nat) (sched : Option Nat) (parts : List (Nat × Nat)) :
    (s.portAccess q reader sched parts).state.memories = s.memories := by
  unfold State.portAccess
  extract_lets +onlyGivenNames r s1 s2
  have kept0 : r.state.memories = s.memories := memories_foldl_of LeafRead.state (fun r v => by exact State.memories_rowRead ..) parts
  have kept1 : s1.memories = s.memories := by
    simp only [s1, State.memories_ite, State.memories_incF, kept0, ite_self]
  clear_value s1 r
  simp only [s2]
  split
  · simp only [State.memories_ite, State.memories_pauseCorrection, kept1, ite_self]
  · exact kept1

theorem State.memories_leafRead (s : State) (q : QuireId) (addr n reader : Nat) (sched : Option Nat) :
    (s.leafRead q addr n reader sched).state.memories = s.memories := by
  simp only [State.leafRead, State.memories_portAccess]

theorem State.memories_leafReads (s : State) (q : QuireId) (reader : Nat) (l : List (Nat × Nat × Option Nat)) :
    (s.leafReads q reader l).state.memories = s.memories := by
  unfold State.leafReads
  exact memories_foldl_of LeafRead.state (fun r v => by exact State.memories_leafRead ..) l

theorem State.memories_touchRow (s : State) (q : QuireId) (addr : Nat) : (s.touchRow q addr).memories = s.memories := by
  unfold State.touchRow
  have torn (t : State) (x : Quire) (posn i : Nat) : (match x.regions[i]? with
      | some (first, count) =>
        if count ≠ 0 ∧ first ≤ bandOf addr ∧ bandOf addr < first + count ∧ (first * 256 < posn ∨ x.scrubEnd) ∧
            x.regionTorn / 2 ^ i % 2 = 0 then
          (t.updQu q (fun y => { y with regionTorn := y.regionTorn + 2 ^ i })).raise (.quire q) Ev.SCRUB_TORN 0 [i, addr]
        else t
      | none => t).memories = t.memories := by
    split
    · split
      · exact (State.memories_raise ..).trans (t.memories_updQu q _ rfl)
      · rfl
    · rfl
  dsimp only
  split
  · exact (State.memories_foldl (fun t i => torn t _ _ i) _).trans (s.memories_updQu q _ rfl)
  · exact s.memories_updQu q _ rfl

theorem State.memories_holdWrite (s : State) (q : QuireId) (w : HeldWrite) : (s.holdWrite q w).memories = s.memories := by
  simp only [State.holdWrite, State.memories_ite, ite_self, implies_true, State.memories_foldl, State.memories_setQu, State.memories_setF]

theorem State.memories_holdFilling (s : State) (q : QuireId) (addr : Nat) (bytes : List (BitVec 8)) (writer poison : Nat) :
    (s.holdFilling q addr bytes writer poison).memories = s.memories := by
  simp only [State.holdFilling, State.memories_holdWrite]

theorem State.memories_sendFwd (s : State) (q : QuireId) (w : Fwd) : (s.sendFwd q w).memories = s.memories := by
  simp only [State.sendFwd, State.memories_ite, ite_self, State.memories_setQu, State.memories_setF, State.memories_incF]

theorem State.memories_forwardWrite (s : State) (q : QuireId) (addr : Nat) (bytes : List (BitVec 8)) (pos : Nat) :
    (s.forwardWrite q addr bytes pos).memories = s.memories := by
  unfold State.forwardWrite
  refine State.memories_foldl (fun t a => ?_) _
  repeat' split
  all_goals simp only [State.memories_sendFwd]

theorem State.memories_putS (s : State) (u : StId) (r : SReg) (v : BitVec 32) (at_ : Nat) :
    (s.putS u r v at_).memories = s.memories := by
  unfold State.putS
  split
  · rfl
  · exact s.memories_updSt u _ (Stitcher.pocket_setS ..)

theorem State.memories_putP (s : State) (u : StId) (r : PReg) (v : BitVec 64) (at_ : Nat) :
    (s.putP u r v at_).memories = s.memories := by
  unfold State.putP
  split
  · rfl
  · exact s.memories_updSt u _ (Stitcher.pocket_setP ..)

theorem State.memories_putV (s : State) (u : StId) (r : VReg) (v : BitVec 512) (at_ : Nat) :
    (s.putV u r v at_).memories = s.memories :=
  s.memories_updSt u _ rfl

theorem State.memories_putLanes (s : State) (u : StId) (r : VReg) (all : Bool) (v : BitVec 512) (at_ : Nat) :
    (s.putLanes u r all v at_).memories = s.memories := by
  simp only [State.putLanes, State.memories_putV]

theorem State.memories_putBits (s : State) (u : StId) (r : PReg) (all : Bool) (v : BitVec 64) (at_ : Nat) :
    (s.putBits u r all v at_).memories = s.memories := by
  simp only [State.putBits, State.memories_putP]

theorem State.memories_putPair (s : State) (u : StId) (r : SReg) (v : BitVec 64) (at_ : Nat) :
    (s.putPair u r v at_).memories = s.memories := by
  simp only [State.putPair, State.memories_putS]

theorem State.memories_issued (s : State) (u : StId) (g : Gate) (t : Nat) : (s.issued u g t).memories = s.memories := by
  simp only [State.issued, State.memories_setSt, State.memories_setF]

theorem State.memories_stallOn (s : State) (u : StId) (g : Gate) (code : Nat) (ch : Option Nat) :
    (s.stallOn u g code ch).memories = s.memories := by
  simp only [State.stallOn, State.memories_updSt]

theorem State.memories_fetchFix (s : State) (u : StId) : (s.fetchFix u).memories = s.memories := by
  simp only [State.fetchFix, State.memories_ite, ite_self, State.memories_incF]

theorem State.memories_jump (s : State) (u : StId) (t target : Nat) : (s.jump u t target).memories = s.memories :=
  s.memories_updSt u _ rfl

theorem State.memories_jumpIf (s : State) (u : StId) (t target : Nat) (c : Bool) : (s.jumpIf u t target c).memories = s.memories := by
  simp only [State.jumpIf, State.memories_ite, ite_self, State.memories_jump]

theorem State.memories_pocketRead (s : State) (u : StId) (addr n : Nat) : (s.pocketRead u addr n).1.memories = s.memories := by
  simp only [State.pocketRead, State.memories_fst_ite, ite_self, State.memories_incF]

theorem State.memories_leafGrant (s : State) (u : StId) (t addr : Nat) : (s.leafGrant u t addr).1.memories = s.memories := by
  simp only [State.leafGrant, State.memories_updSt, State.memories_grant]

theorem State.memories_colAdd (s : State) (sec off n : Nat) : (s.colAdd sec off n).memories = s.memories := by
  simp only [State.colAdd, State.memories_mk]

theorem State.memories_countEcc (s : State) (p : PartId) (a : Nat) : (s.countEcc p a).memories = s.memories := by
  unfold State.countEcc
  split <;> simp only [State.memories_mk, State.memories_incF, State.memories_colAdd]

theorem State.memories_pmRead (s : State) (p : PartId) (a n : Nat) : (s.pmRead p a n).1.memories = s.memories := by
  simp only [State.pmRead, implies_true, State.memories_foldl, State.memories_countEcc]

theorem State.memories_memUncorr (s : State) (p : PartId) (a table pos : Nat) : (s.memUncorr p a table pos).memories = s.memories := by
  simp only [State.memUncorr, State.memories_raise, State.memories_charge]

theorem State.memories_devWrite (s : State) (ld : Nat) (off : Nat) : (s.devWrite ld off).memories = s.memories := by
  simp only [State.devWrite, State.memories_mk, State.memories_ite, ite_self]

theorem State.memories_devWriteP (s : State) (p : PartId) (off : Nat) : (s.devWriteP p off).memories = s.memories := by
  unfold State.devWriteP
  split <;> simp only [State.memories_devWrite]

theorem State.memories_devWriteMem (s : State) (p : PartId) (a n : Nat) : (s.devWriteMem p a n).memories = s.memories := by
  simp only [State.devWriteMem, State.memories_ite, ite_self, implies_true, State.memories_foldl, State.memories_devWrite,
    State.memories_devWriteP]

theorem State.memories_noteAbsent (s : State) (q : QuireId) (tile units : Nat) : (s.noteAbsent q tile units).memories = s.memories := by
  simp only [State.noteAbsent, State.memories_ite, ite_self, State.memories_raise]

theorem State.memories_updHints (s : State) (p : PartId) (f : List Hint → List Hint) : (s.updHints p f).memories = s.memories := (rfl)

theorem State.memories_countPage (s : State) (h : Hint) : (s.countPage h).memories = s.memories := by
  simp only [State.countPage, State.memories_setCnt]

theorem State.memories_acceptHint (s : State) (u : StId) (pos index w0 w1 : Nat) :
    (s.acceptHint u pos index w0 w1).memories = s.memories := by
  simp only [State.acceptHint, State.memories_ite, ite_self, State.memories_setPart, State.memories_setF, State.memories_incF,
    State.memories_raise, State.memories_countPage]

theorem memories_acceptAll (u : StId) (pos : Nat) (xs : List (BitVec 8)) (i n : Nat) (s : State) :
    (acceptAll u pos xs i n s).memories = s.memories := by
  induction n generalizing xs i s with
  | zero => rfl
  | succ n ih => exact (ih ..).trans (State.memories_acceptHint ..)

theorem State.memories_findPage (s : State) (h : Hint) : (s.findPage h).1.memories = s.memories := by
  simp only [State.findPage, State.memories_fst_ite, ite_self, State.memories_pmRead]

theorem State.memories_noteWait (s : State) (h : Hint) (why : Nat) : (s.noteWait h why).memories = s.memories := by
  simp only [State.noteWait, State.memories_ite, ite_self, State.memories_incF, State.memories_raise, State.memories_updHints]

theorem State.memories_setHint (s : State) (h : Hint) : (s.setHint h).memories = s.memories := by
  simp only [State.setHint, State.memories_updHints]

theorem State.memories_pagerMemErr (s : State) (h : Hint) (a : Nat) : (s.pagerMemErr h a).memories = s.memories := by
  simp only [State.pagerMemErr, State.memories_incF, State.memories_memUncorr]

theorem State.memories_pushRows (s : State) (h : Hint) (n : Nat) : (s.pushRows h n).memories = s.memories := by
  induction n generalizing s h with
  | zero => rfl
  | succ n ih =>
    unfold State.pushRows
    split
    · rfl
    · simp only [ih, State.memories_ite, ite_self, State.memories_setQu, State.memories_setF, State.memories_setHint]

theorem State.memories_refill (s : State) (q : QuireId) : (s.refill q).memories = s.memories := by
  unfold State.refill
  exact (State.memories_foldl (fun t h => State.memories_pushRows t h 32) _).trans (s.memories_updQu q _ rfl)

theorem State.memories_releaseHint (s : State) (h : Hint) (late : Bool) : (s.releaseHint h late).memories = s.memories := by
  simp only [State.releaseHint, State.memories_ite, ite_self, State.memories_updQu, State.memories_failTick, State.memories_internalToken,
    State.memories_updHints, State.memories_setHint]

theorem State.memories_releaseDue (s : State) (q : QuireId) (pos : Nat) : (s.releaseDue q pos).memories = s.memories := by
  simp only [State.releaseDue, State.memories_ite, ite_self, implies_true, State.memories_foldl, State.memories_updQu, State.memories_incF,
    State.memories_raise, State.memories_delayFrom, State.memories_releaseHint]

theorem State.memories_dropDue (s : State) (q : QuireId) : (s.dropDue q).memories = s.memories := by
  simp only [State.dropDue, State.memories_updQu, State.memories_incF, State.memories_updHints]

theorem State.memories_chargePause (s : State) (q : QuireId) (run : Nat) : (s.chargePause q run).memories = s.memories := by
  unfold State.chargePause
  split <;> simp only [State.memories_ite, ite_self, State.memories_updQu]

theorem State.memories_uploadFlush (s : State) (p : PartId) : (s.uploadFlush p).memories = s.memories := by
  simp only [State.uploadFlush, implies_true, State.memories_foldl, State.memories_updQu, State.memories_updPart, State.memories_setF]

theorem State.memories_fillGrants (s : State) (q : QuireId) (a dst n : Nat) : (s.fillGrants q a dst n).1.memories = s.memories := by
  simp only [State.fillGrants, implies_true, State.memories_fst_foldl, State.memories_grant]

theorem State.memories_copyGrants (s : State) (q : QuireId) (a src dst n : Nat) :
    (s.copyGrants q a src dst n).1.memories = s.memories := by
  simp only [State.copyGrants, implies_true, State.memories_fst_foldl, State.memories_grant]

theorem State.memories_scrubAt (s : State) (q : QuireId) (b bank : Nat) : (s.scrubAt q b bank).memories = s.memories := by
  unfold State.scrubAt
  split <;> simp only [State.memories_setF]

theorem State.memories_beginPass (s : State) (q : QuireId) : (s.beginPass q).memories = s.memories := by
  simp only [State.beginPass, State.memories_updQu, State.memories_scrubAt]

theorem State.memories_writeDigest (s : State) (q : QuireId) (pass r : Nat) : (s.writeDigest q pass r).memories = s.memories := by
  unfold State.writeDigest
  simp only []
  split <;> simp only [State.memories_ite, ite_self, implies_true, State.memories_foldl, State.memories_wr, State.memories_useFree]

theorem State.memories_remapTile (s : State) (q : QuireId) (tile : Nat) (t : Track) :
    (s.remapTile q tile t).1.memories = s.memories := by
  simp only [State.remapTile, State.memories_mk, State.memories_fst_ite, ite_self, State.memories_raise, State.memories_charge]

theorem State.memories_dropEpoch (s : State) (q : QuireId) (tokens words epoch : Nat) :
    (s.dropEpoch q tokens words epoch).memories = s.memories := by
  simp only [State.dropEpoch, State.memories_incF, State.memories_raise]

theorem State.memories_msgCheck (s : State) (m : Flight) (landing seq expected got : Nat) :
    (s.msgCheck m landing seq expected got).memories = s.memories := by
  simp only [State.msgCheck, State.memories_incF, State.memories_raise, State.memories_charge, State.memories_failTick]

theorem State.memories_landQueue (s : State) (m : Flight) (n : Nat) (ws : List (BitVec 64)) (upset : BitVec 32)
    (pos : Nat) :
    (s.landQueue m n ws upset pos).memories = s.memories := by
  simp only [State.landQueue, State.memories_ite, ite_self, State.memories_updSt, State.memories_incF, State.memories_raise,
    State.memories_failTick, State.memories_freeCredit, State.memories_dropEpoch, State.memories_msgCheck]

theorem State.memories_ringWrites (s : State) (q : QuireId) (addrs : List Nat) (pos : Nat) :
    (s.ringWrites q addrs pos).1.memories = s.memories := by
  simp only [State.ringWrites, implies_true, State.memories_fst_foldl, State.memories_grant]

theorem State.memories_settle (s : State) (p : PartId) : (s.settle p).memories = s.memories := by
  simp only [State.settle, State.memories_ite, ite_self, State.memories_updPart, State.memories_setF]

theorem State.memories_settleAll (s : State)  : (s.settleAll).memories = s.memories := by
  simp only [State.settleAll, implies_true, State.memories_foldl, State.memories_settle]

theorem State.memories_waitRun (s : State) (q : QuireId) (run : Nat) : (s.waitRun q run).memories = s.memories := by
  simp only [State.waitRun, State.memories_waitCycle]

theorem State.memories_releaseCredit (s : State) (c : CreditFlight) (late cause : Nat) :
    (s.releaseCredit c late cause).memories = s.memories := by
  simp only [State.releaseCredit, State.memories_mk, State.memories_ite, ite_self, State.memories_updQu, State.memories_setF,
    State.memories_pauseInherit, State.memories_pauseTransit, State.memories_noteAbsent, State.memories_settleAll, State.memories_waitRun]

theorem State.memories_launch (s : State) (m : Flight) (lat : Nat) : (s.launch m lat).memories = s.memories := by
  simp only [State.launch, State.memories_mk, State.memories_ite, ite_self, State.memories_setQu, State.memories_setF, State.memories_incF,
    State.memories_refund]

theorem State.memories_dispatchSend (s : State) (u : StId) (e : Nat) (m : Payload) (bytes : List (BitVec 8)) (t : Nat) :
    (s.dispatchSend u e m bytes t).memories = s.memories := by
  unfold State.dispatchSend
  simp only [State.memories_launch]
  split <;> simp only [State.memories_updQu, State.memories_setF]

theorem State.memories_grantParts (s : State) (q : QuireId) (t : Nat) (xs : List (Nat × Nat)) :
    (s.grantParts q t xs).1.memories = s.memories := by
  induction xs generalizing s t with
  | nil => rfl
  | cons x xs ih =>
    unfold State.grantParts
    split
    · exact State.memories_grant ..
    · exact (ih ..).trans (State.memories_grant ..)

theorem State.memories_sendRefused (s : State) (u : StId) (e pc st : Nat) : (s.sendRefused u e pc st).memories = s.memories := by
  simp only [State.sendRefused, State.memories_ite, ite_self, State.memories_incF, State.memories_raise, State.memories_failTick,
    State.memories_noteAbsent]

theorem State.memories_takeWord (s : State) (u : StId) (n : Nat) (ra : SReg) (w : QWord) (t : Nat) :
    (s.takeWord u n ra w t).memories = s.memories := by
  simp only [State.takeWord, State.memories_updSt, State.memories_freeCredit, State.memories_putPair]

theorem State.memories_updPress (s : State) (q : QuireId) (p : PressId) (f : Press → Press) :
    (s.updPress q p f).memories = s.memories :=
  s.memories_updQu q _ (Quire.leaf_setPress ..)

theorem State.memories_updRun (s : State) (q : QuireId) (p : PressId) (f : PRun → PRun) :
    (s.updRun q p f).memories = s.memories :=
  s.memories_updPress q p _

theorem State.memories_queueDesc (s : State) (q : QuireId) (p : PressId) (d : PDesc) :
    (s.queueDesc q p d).memories = s.memories :=
  s.memories_updPress q p _

theorem State.memories_portRead (s : State) (q : QuireId) (p : PressId) (pos : Nat) (segs : List Nat) :
    (s.portRead q p pos segs).state.memories = s.memories := by
  simp only [State.portRead, State.memories_pressGrant, State.memories_portAccess]

theorem State.memories_portReads (s : State) (q : QuireId) (p : PressId) (pos : Nat) (cycles : List (List Nat)) :
    (s.portReads q p pos cycles).state.memories = s.memories := by
  unfold State.portReads
  exact memories_foldl_of PortReads.state (fun r c => by exact State.memories_portRead ..) cycles

theorem State.memories_loadActs (s : State) (q : QuireId) (p : PressId) (d : PDesc) (pos : Nat) :
    (s.loadActs q p d pos).state.memories = s.memories := by
  simp only [State.loadActs, State.memories_portReads]

theorem State.memories_pressEvent (s : State) (q : QuireId) (p : PressId) (code : Nat) (cap : List Nat) :
    (s.pressEvent q p code cap).memories = s.memories := by
  simp only [State.pressEvent, State.memories_raise]

theorem State.memories_collMismatch (s : State) (q : QuireId) (p : PressId) (d : PDesc) (operand expected computed : Nat) :
    (s.collMismatch q p d operand expected computed).memories = s.memories := by
  simp only [State.collMismatch, State.memories_incF, State.memories_updRun, State.memories_pressEvent]

theorem State.memories_endCommand (s : State) (q : QuireId) (p : PressId) (d : PDesc) (status outCode pos : Nat)
    (wrap bound : Bool) :
    (s.endCommand q p d status outCode pos wrap bound).memories = s.memories := by
  simp only [State.endCommand, State.memories_ite, ite_self, State.memories_updQu, State.memories_setF, State.memories_setCnt,
    State.memories_failTick, State.memories_internalToken]

theorem State.memories_refuseCommand (s : State) (q : QuireId) (p : PressId) (d : PDesc) (check : Nat) :
    (s.refuseCommand q p d check).memories = s.memories := by
  unfold State.refuseCommand
  split <;> simp only [State.memories_incF, State.memories_useFree, State.memories_noteFeature, State.memories_pressEvent,
    State.memories_endCommand]

theorem State.memories_readCodes (s : State) (q : QuireId) (p : PressId) (d : PDesc) : (s.readCodes q p d).1.memories = s.memories := by
  unfold State.readCodes
  exact (memories_foldl_of Prod.fst (fun _ _ => State.memories_leafRead ..) _).trans (State.memories_grantParts ..)

theorem State.memories_nanScales (s : State) (q : QuireId) (p : PressId) (base : Nat) (bytes : List (BitVec 8)) :
    (s.nanScales q p base bytes).memories = s.memories := by
  simp only [State.nanScales, State.memories_ite, ite_self, implies_true, State.memories_foldl, State.memories_pressEvent]

theorem State.memories_nanRows (s : State) (q : QuireId) (p : PressId) (d : PDesc) (scales : List (List (BitVec 8))) :
    (s.nanRows q p d scales).memories = s.memories := by
  simp only [State.nanRows, implies_true, State.memories_foldl, State.memories_nanScales]

theorem State.memories_trnDecode (s : State) (q : QuireId) (p : PressId) (d : PDesc) (j : Nat) (elems : List (BitVec 8))
    (own : Bool) :
    (s.trnDecode q p d j elems own).memories = s.memories := by
  simp only [State.trnDecode, State.memories_ite, ite_self, implies_true, State.memories_foldl, State.memories_incF, State.memories_updRun,
    State.memories_pressEvent]

theorem Stream.memories_tile (r : Stream) (q : QuireId) (p : PressId) (d : PDesc) (j : Nat) (own : Bool) (t : Nat) :
    (r.tile q p d j own t).state.memories = r.state.memories := by
  simp only [Stream.tile, State.memories_portRead]

theorem State.memories_readTile (s : State) (q : QuireId) (p : PressId) (d : PDesc) (j : Nat) (acts ascales : List (List
    (BitVec 8))) (own : Bool) (init start streamed : Nat) :
    (s.readTile q p d j acts ascales own init start streamed).state.memories = s.memories := by
  unfold State.readTile
  have tiles (w : Stream) (n : Nat) : ((List.range n).foldl (fun r t => r.tile q p d j own t) w).state.memories = w.state.memories
    :=
    memories_foldl_of Stream.state (fun _ _ => Stream.memories_tile ..) _
  simp only [tiles, State.memories_ite, ite_self, State.memories_portReads, State.memories_nanScales, State.memories_trnDecode]

theorem State.memories_openWindow (s : State) (q : QuireId) (rel : Nat) : (s.openWindow q rel).memories = s.memories := by
  unfold State.openWindow
  dsimp only
  rw [State.memories_setQu, State.memories_mk, State.memories_setF]
  rfl

theorem State.memories_stageTile (s : State) (q : QuireId) (p : PressId) (j rel : Nat) :
    (s.stageTile q p j rel).memories = s.memories := by
  simp only [State.stageTile, State.memories_updPress]

theorem State.memories_discardHeld (s : State) (q : QuireId) (gone : List HeldOut) : (s.discardHeld q gone).memories = s.memories := by
  unfold State.discardHeld
  have held (t : State) (h : HeldOut) : (match h.msg with | .flight m => t.refund m | .fwd _ => t).memories = t.memories := by
    split
    · exact State.memories_refund ..
    · rfl
  exact (State.memories_foldl held _).trans (State.memories_incF ..)

theorem State.memories_behindMismatch (s : State) (q : QuireId) (p : PressId) (rel : Nat) :
    (s.behindMismatch q p rel).memories = s.memories := by
  simp only [State.behindMismatch, State.memories_setQu, State.memories_setF, State.memories_raise, State.memories_updRun,
    State.memories_discardHeld]

theorem State.memories_abandonPresses (s : State) (q : QuireId) : (s.abandonPresses q).memories = s.memories := by
  unfold State.abandonPresses
  have refunds (t : State) (h : HeldOut) :
      (match h.msg with | .flight m => t.refund m | .fwd _ => t).memories = t.memories := by
    split
    · exact State.memories_refund ..
    · rfl
  have emptied (l : List HeldOut) (x : Quire) (h : x.leaf = (s.qu q).leaf) :
      (l.foldl (fun t h => match h.msg with | .flight m => t.refund m | .fwd _ => t) (s.setQu q x)).memories = s.memories :=
    (State.memories_foldl refunds l).trans (s.memories_setQu q x h)
  simp only [State.memories_ite, State.memories_raise, State.memories_incF, ite_self]
  exact emptied _ _ rfl

theorem State.memories_collRead (s : State) (u : StId) (sp : Space) (a n t : Nat) :
    (s.collRead u sp a n t).state.memories = s.memories := by
  unfold State.collRead
  cases sp <;> simp only [State.memories_ite, ite_self, State.memories_updSt, State.memories_failTick, State.memories_leafReads,
    State.memories_pocketRead, State.memories_grantParts]

theorem State.memories_endFiring (s : State) (u : StId) (t : Nat) : (s.endFiring u t).memories = s.memories :=
  (State.memories_updQu _ _ _ rfl).trans (s.memories_updSt u _ rfl)

theorem State.memories_purgeQuire (s : State) (q : QuireId) (pos : Nat) : (s.purgeQuire q pos).memories = s.memories := by
  simp only [State.purgeQuire, State.memories_ite, ite_self, implies_true, State.memories_foldl, State.memories_updSt,
    State.memories_orphan]

theorem State.memories_writeLedger (s : State) (q : QuireId) (tick run : Nat) (overrun mismatch : Bool) :
    (s.writeLedger q tick run overrun mismatch).memories = s.memories := by
  simp only [State.writeLedger, State.memories_setF]

theorem State.memories_writeInherit (s : State) (q : QuireId) : (s.writeInherit q).memories = s.memories := by
  simp only [State.writeInherit, State.memories_setF]

theorem State.memories_contractMismatch (s : State) (q : QuireId) : (s.contractMismatch q).memories = s.memories := by
  simp only [State.contractMismatch, State.memories_incF, State.memories_raise]

theorem State.memories_endQuireTick (s : State) (q : QuireId) (t : Nat) : (s.endQuireTick q t).memories = s.memories := by
  simp only [State.endQuireTick, State.memories_ite, ite_self, State.memories_updQu, State.memories_raise, State.memories_failTick,
    State.memories_recordOrphans, State.memories_dropDue, State.memories_purgeQuire, State.memories_writeLedger, State.memories_writeInherit,
    State.memories_contractMismatch]

theorem State.memories_stCtrlReset (s : State) (w : Writer) (u : StId) : (s.stCtrlReset w u).memories = s.memories := by
  simp only [State.stCtrlReset, State.memories_ite, ite_self, State.memories_raise, State.memories_resetStitcher]

theorem State.memories_endDrain (s : State) (p : PartId) : (s.endDrain p).memories = s.memories := by
  simp only [State.endDrain, State.memories_ite, ite_self, State.memories_updPart, State.memories_setF, State.memories_waitNs,
    State.memories_raise]

theorem State.memories_commitQuire (s : State) (q : QuireId) : (s.commitQuire q).memories = s.memories := by
  simp only [State.commitQuire, State.memories_ite, State.memories_fst_ite, ite_self, implies_true, State.memories_foldl,
    State.memories_fst_foldl, State.memories_setSt, State.memories_updQu, State.memories_setF, State.memories_incF, State.memories_raise]

theorem State.memories_commit (s : State) (p : PartId) : (s.commit p).memories = s.memories := by
  simp only [State.commit, State.memories_ite, ite_self, implies_true, State.memories_foldl, State.memories_setF,
    State.memories_commitQuire]

theorem State.memories_noteAsleep (s : State) (p : PartId) (dest cls opcode cause : Nat) :
    (s.noteAsleep p dest cls opcode cause).memories = s.memories := by
  simp only [State.noteAsleep, State.memories_ite, ite_self, State.memories_incF, State.memories_noteAbsent, State.memories_ev]

theorem State.memories_writeDrop (s : State) (x : Src) (ld : Nat) (off cause : Nat) :
    (s.writeDrop x ld off cause).memories = s.memories := by
  simp only [State.writeDrop, State.memories_ev]

theorem State.memories_linkUp (s : State) (t : LinkUp) : (s.linkUp t).memories = s.memories := by
  unfold State.linkUp
  split <;> simp only [State.memories_setF]

theorem State.memories_devClearLd (s : State) (l : LdId) (lo hi : Nat) : (s.devClearLd l lo hi).memories = s.memories := by
  simp only [State.devClearLd, State.memories_mk]

theorem State.memories_devClear (s : State) (p : PartId) (lo hi : Nat) : (s.devClear p lo hi).memories = s.memories := by
  unfold State.devClear
  split <;> simp only [State.memories_devClearLd]

theorem State.memories_setBar2 (s : State) (a : Nat) (v : BitVec 8) : (s.setBar2 a v).memories = s.memories := (rfl)

theorem State.memories_msi (s : State) (ld vec : Nat) : (s.msi ld vec).memories = s.memories := by
  simp only [State.msi, State.memories_mk, State.memories_ite, ite_self, State.memories_setBar2]

theorem State.memories_bar2Write (s : State) (ld off : Nat) (bytes : List (BitVec 8)) :
    (s.bar2Write ld off bytes).memories = s.memories := by
  simp only [State.bar2Write, State.memories_ite, ite_self, implies_true, State.memories_foldl, State.memories_setBar2, State.memories_msi]

theorem State.memories_pushComp (s : State) (n : Notice) (status result : Nat) :
    (s.pushComp n status result).memories = s.memories := by
  unfold State.pushComp
  split <;> simp only [State.memories_mk, State.memories_ite, ite_self, State.memories_incF]

theorem State.memories_showPend (s : State) (mailbox : Nat) : (s.showPend mailbox).memories = s.memories := by
  unfold State.showPend
  split <;> simp only [State.memories_setF]

theorem State.memories_setPhase (s : State) (n : Notice) (ph : NoticePhase) : (s.setPhase n ph).memories = s.memories := by
  simp only [State.setPhase, State.memories_mk]

theorem State.memories_completeActing (s : State) (p : PartId) (bit result : Nat) :
    (s.completeActing p bit result).memories = s.memories := by
  simp only [State.completeActing, implies_true, State.memories_foldl, State.memories_complete]

theorem State.memories_abortBox (s : State) (mailbox : Nat) : (s.abortBox mailbox).memories = s.memories := by
  simp only [State.abortBox, implies_true, State.memories_foldl, State.memories_ev, State.memories_complete]

theorem State.memories_showHeld (s : State) (p : PartId) : (s.showHeld p).memories = s.memories := by
  simp only [State.showHeld, State.memories_ite, ite_self, State.memories_setF, State.memories_completeActing]

theorem State.memories_noteHold (s : State) (p : PartId) : (s.noteHold p).memories = s.memories := by
  simp only [State.noteHold, State.memories_updPart, State.memories_showHeld]

theorem State.memories_addHold (s : State) (p : PartId) (c : HoldCause) : (s.addHold p c).memories = s.memories := by
  simp only [State.addHold, State.memories_updPart, State.memories_noteHold]

theorem State.memories_catchGrid (s : State) (p : PartId) : (s.catchGrid p).memories = s.memories := by
  simp only [State.catchGrid, State.memories_ite, ite_self, State.memories_updPart, State.memories_incF]

theorem State.memories_recheck (s : State) (p : PartId) : (s.recheck p).memories = s.memories := by
  simp only [State.recheck, State.memories_ite, ite_self, State.memories_setF, State.memories_ev]

theorem State.memories_holdEnded (s : State) (p : PartId) : (s.holdEnded p).memories = s.memories := by
  simp only [State.holdEnded, State.memories_ite, ite_self, State.memories_showHeld, State.memories_catchGrid, State.memories_recheck]

theorem State.memories_dropHold (s : State) (p : PartId) (c : HoldCause) : (s.dropHold p c).memories = s.memories := by
  simp only [State.dropHold, State.memories_ite, ite_self, State.memories_updPart, State.memories_holdEnded]

theorem State.memories_showPending (s : State) (p : PartId) : (s.showPending p).memories = s.memories := by
  simp only [State.showPending, State.memories_setF]

theorem State.memories_noteFull (s : State) (p : PartId) : (s.noteFull p).memories = s.memories := by
  unfold State.noteFull
  split <;> simp only [State.memories_ite, ite_self, State.memories_updPart, State.memories_incF, State.memories_ev]

theorem State.memories_setRing (s : State) (p : PartId) (r : Nat) (x : InRing) : (s.setRing p r x).memories = s.memories := (rfl)

theorem State.memories_settleIo (s : State)  : (s.settleIo).memories = s.memories := by
  unfold State.settleIo
  split <;> simp only [State.memories_mk, State.memories_ite, ite_self, State.memories_wr]

theorem State.memories_tickOut (s : State) (p : PartId) : (s.tickOut p).memories = s.memories := by
  simp only [State.tickOut, State.memories_mk, State.memories_ite, ite_self, State.memories_incF, State.memories_settleIo]

theorem State.memories_strike (s : State) (p : PartId) : (s.strike p).memories = s.memories := by
  unfold State.strike
  simp only [State.memories_ite, State.memories_incF]
  repeat' split
  all_goals simp only [State.memories_updPart, State.memories_showPending, State.memories_noteFull]

theorem State.memories_runStart (s : State) (p : PartId) (ld : Nat) : (s.runStart p ld).memories = s.memories := by
  unfold State.runStart
  repeat' split
  all_goals simp only [State.memories_updPart, State.memories_setF, State.memories_noteFeature, State.memories_ev, State.memories_showHeld]

theorem State.memories_runStop (s : State) (p : PartId) : (s.runStop p).memories = s.memories := by
  simp only [State.runStop, State.memories_ite, ite_self, State.memories_updPart, State.memories_setF]

theorem State.memories_holdOn (s : State) (p : PartId) : (s.holdOn p).memories = s.memories := by
  simp only [State.holdOn, State.memories_setF, State.memories_noteHold]

theorem State.memories_sealOne (s : State) (p : PartId) (r : Nat) : (s.sealOne p r).1.memories = s.memories := by
  simp only [State.sealOne, State.memories_ite, State.memories_fst_ite, ite_self, State.memories_setF, State.memories_ev,
    State.memories_setRing]

theorem State.memories_sealAll (s : State) (p : PartId) (r : Nat) (n : Nat) : (s.sealAll p r n).1.memories = s.memories := by
  induction n generalizing s with
  | zero => rfl
  | succ n ih =>
    unfold State.sealAll
    simp only [ih, State.memories_fst_ite, ite_self, State.memories_sealOne]

theorem State.memories_sealStrike (s : State) (p : PartId) (r : Nat) : (s.sealStrike p r).memories = s.memories := by
  unfold State.sealStrike
  simp only [State.memories_ite, ite_self, State.memories_waitCycle, State.memories_strike, State.memories_sealAll]

theorem State.memories_inboxDrop (s : State) (ld : LdId) (p : PartId) (off cause : Nat) :
    (s.inboxDrop ld p off cause).memories = s.memories := by
  simp only [State.inboxDrop, State.memories_ite, ite_self, State.memories_incF, State.memories_writeDrop]

theorem State.memories_parityDrop (s : State) (p : PartId) (stop cls opcode : Nat) :
    (s.parityDrop p stop cls opcode).memories = s.memories := by
  simp only [State.parityDrop, State.memories_incF, State.memories_charge, State.memories_ev]

theorem State.memories_checkIntakes (s : State) (q : QuireId) (tick : Nat) : (s.checkIntakes q tick).memories = s.memories := by
  unfold State.checkIntakes
  refine State.memories_foldl (fun t a => ?_) _
  split
  · rfl
  · split <;> simp only [State.memories_ite, ite_self, State.memories_updPart, State.memories_failTick, State.memories_ev]

theorem State.memories_setSlot (s : State) (p : PartId) (k : Nat) (x : SlotSt) : (s.setSlot p k x).memories = s.memories := (rfl)

theorem State.memories_resultWrite (s : State) (p : PartId) (off : Nat) (bytes : List (BitVec 8)) :
    (s.resultWrite p off bytes).memories = s.memories := by
  simp only [State.resultWrite, implies_true, State.memories_foldl, State.memories_updPart, State.memories_devWriteP]

theorem State.memories_landForward (s : State) (p : PartId) (w : Fwd) : (s.landForward p w).memories = s.memories := by
  simp only [State.landForward, State.memories_ite, ite_self, State.memories_incF, State.memories_ev, State.memories_setSlot,
    State.memories_resultWrite]

theorem State.memories_landForwards (s : State) (q : QuireId) (cyc : Nat) : (s.landForwards q cyc).memories = s.memories := by
  simp only [State.landForwards, implies_true, State.memories_foldl, State.memories_updQu, State.memories_landForward]

theorem State.memories_publishSlot (r : State) (p : PartId) (g : PubHeader) : (r.publishSlot p g).memories = r.memories := by
  unfold State.publishSlot
  simp only [State.memories_ite, ite_self, State.memories_incF, State.memories_ev, State.memories_setSlot, State.memories_resultWrite]
  repeat' split
  all_goals simp only [State.memories_incF, State.memories_ev, State.memories_msi, State.memories_setSlot, State.memories_resultWrite]

theorem State.memories_settlePubs (s : State) (p : PartId) : (s.settlePubs p).memories = s.memories := by
  simp only [State.settlePubs, implies_true, State.memories_foldl, State.memories_updPart, State.memories_landForwards,
    State.memories_publishSlot]

theorem State.memories_settleAllPubs (s : State)  : (s.settleAllPubs).memories = s.memories := by
  simp only [State.settleAllPubs, implies_true, State.memories_foldl, State.memories_settlePubs]

theorem State.memories_publish (s : State) (p : PartId) (first : Nat) : (s.publish p first).memories = s.memories := by
  simp only [State.publish, State.memories_ite, ite_self, State.memories_updPart, State.memories_setF, State.memories_settlePubs]

theorem State.memories_publishIfDone (s : State) (p : PartId) : (s.publishIfDone p).memories = s.memories := by
  simp only [State.publishIfDone, State.memories_ite, ite_self, State.memories_publish]

theorem State.memories_clearPressRegs (s : State) (q : QuireId) : (s.clearPressRegs q).memories = s.memories := (rfl)

theorem State.memories_sendStall (s : State) (u : StId) (e cycles : Nat) : (s.sendStall u e cycles).memories = s.memories := by
  simp only [State.sendStall, State.memories_ev]

theorem State.memories_recordStalls (s : State) (q : QuireId) (pos : Nat) (fired : Option StId) :
    (s.recordStalls q pos fired).memories = s.memories := by
  unfold State.recordStalls
  refine State.memories_foldl (fun t a => ?_) _
  repeat' split
  all_goals simp only [State.memories_sendStall]

theorem State.memories_chargeStalls (s : State) (q : QuireId) (pos : Nat) : (s.chargeStalls q pos).memories = s.memories := by
  unfold State.chargeStalls
  refine State.memories_foldl (fun t a => ?_) _
  repeat' split
  all_goals simp only [State.memories_updSt, State.memories_chargeStall]

theorem State.memories_failFlush (s : State) (q : QuireId) (tick deadline : Nat) :
    (s.failFlush q tick deadline).memories = s.memories := by
  have flushing (t : State) (f : Option Nat) : (t.updQu q (fun x => { x with open_ := false, flushBy := f })).memories =
      t.memories := t.memories_updQu q _ rfl
  have ended (t : State) : (t.updQu q (fun x => { x with done := true, doneAt := 0, discarding := false })).memories =
      t.memories := t.memories_updQu q _ rfl
  unfold State.failFlush
  extract_lets +onlyGivenNames p pos s1 s2 s3 s4 s5 s6 s7 s8 s9
  have same2 : s2.memories = s.memories := by
    exact (flushing s1 _).trans ((State.memories_chargeStalls ..).trans (State.memories_failTick ..))
  have same5 : s5.memories = s2.memories := by
    simp only [s5, s4, s3, implies_true, State.memories_foldl, State.memories_resetStitcher, State.memories_chargePause,
      State.memories_writeInherit, State.memories_writeLedger]
  have same7 : s7.memories = s5.memories := by
    simp only [s7, s6, State.memories_ite, State.memories_ev, ite_self, State.memories_recordOrphans,
      State.memories_abandonPresses]
  have same9 : s9.memories = s7.memories := by
    exact (ended s8).trans (State.memories_dropDue ..)
  rw [State.memories_publish, same9, same7, same5, same2]

theorem State.memories_overrunQuire (s : State) (q : QuireId) (fired : Option StId) :
    (s.overrunQuire q fired).memories = s.memories := by
  unfold State.overrunQuire
  extract_lets +onlyGivenNames p x fail d s1 s2 s3 s4
  have same1 : s1.memories = s.memories := by
    simp only [s1, State.memories_ite, State.memories_setCnt, State.memories_updPart, ite_self]
  have same : s4.memories = s.memories := by
    simp only [s4, s3, s2, State.memories_raise, State.memories_updPart, same1,
      State.memories_updQu _ _ (fun y => { y with overrunNs := s2.ns }) rfl]
  clear_value s4
  simp only [State.memories_ite, ite_self, State.memories_updQu, State.memories_updPart, State.memories_failTick,
    State.memories_publish, State.memories_publishIfDone, State.memories_recordStalls, State.memories_failFlush, Quire.leaf_unused,
    same]

theorem State.memories_endInjected (s : State) (p : PartId) : (s.endInjected p).memories = s.memories := by
  unfold State.endInjected
  refine State.memories_foldl (fun t a => ?_) _
  repeat' split
  all_goals simp only [State.memories_complete]

theorem State.memories_vector0 (s : State) (x : Src) : (s.vector0 x).memories = s.memories := by
  unfold State.vector0
  repeat' split
  all_goals simp only [State.memories_msi]

theorem State.memories_showCol (s : State)  : (s.showCol).memories = s.memories := (rfl)

theorem State.memories_pendCopy (s : State) (x : Src) (i : Nat) : (s.pendCopy x i).memories = s.memories := by
  simp only [State.pendCopy, State.memories_mk, State.memories_ite, ite_self, State.memories_showCol]

theorem State.memories_showStage (s : State)  : (s.showStage).memories = s.memories := (rfl)

theorem State.memories_stageLost (s : State) (x : Src) : (s.stageLost x).memories = s.memories := by
  simp only [State.stageLost, State.memories_mk, State.memories_ite, ite_self, State.memories_updSrc, State.memories_incF, State.memories_ev]

theorem State.memories_stage (s : State) (x : Src) (e : EvRec) : (s.stage x e).memories = s.memories := by
  unfold State.stage
  repeat' split
  all_goals simp only [State.memories_mk, State.memories_showStage, State.memories_stageLost]

theorem State.memories_parityAt (s : State) (p : Option PartId) (stop cls opcode : Nat) :
    (s.parityAt p stop cls opcode).memories = s.memories := by
  unfold State.parityAt
  split <;> simp only [State.memories_ev, State.memories_parityDrop]

theorem State.memories_nextSeq (s : State) (stop cls : Nat) : (s.nextSeq stop cls).1.memories = s.memories := by
  simp only [State.nextSeq, State.memories_mk]

theorem State.memories_spSend (s : State) (m : SpMsg) : (s.spSend m).memories = s.memories := by
  simp only [State.spSend, State.memories_mk, State.memories_nextSeq]

theorem State.memories_spArrive (s : State) (part : Option PartId) (stop dest cls opcode arg : Nat) (drop : Option Hop) :
    (s.spArrive part stop dest cls opcode arg drop).1.memories = s.memories := by
  unfold State.spArrive
  repeat' split
  all_goals simp only [State.memories_mk, State.memories_parityAt, State.memories_nextSeq]

theorem State.memories_writeTrig (s : State) (reg : Nat) (v : BitVec 32) : (s.writeTrig reg v).memories = s.memories := by
  unfold State.writeTrig
  simp only []
  split <;> simp only [State.memories_mk, State.memories_ev]

theorem State.memories_colWrite (s : State) (sec off : Nat) (bytes : List (BitVec 8)) :
    (s.colWrite sec off bytes).memories = s.memories := (rfl)

theorem State.memories_colAppend (s : State) (sec size kept : Nat) (bytes : List (BitVec 8)) :
    (s.colAppend sec size kept bytes).memories = s.memories := by
  simp only [State.colAppend, State.memories_colWrite]

theorem State.memories_flashFail (s : State) (fail : Bool) (sec off : Nat) : (s.flashFail fail sec off).memories = s.memories := by
  simp only [State.flashFail, State.memories_ite, ite_self, State.memories_ev]

theorem State.memories_flushRam (s : State)  : (s.flushRam).memories = s.memories := by
  simp only [State.flushRam, State.memories_mk]

theorem State.memories_evalShield (s : State) (p : PartId) (writer : Nat) : (s.evalShield p writer).memories = s.memories := by
  simp only [State.evalShield, State.memories_ite, ite_self, State.memories_setF, State.memories_incF, State.memories_ev]

theorem State.memories_evalShields (s : State)  : (s.evalShields).memories = s.memories := by
  simp only [State.evalShields, implies_true, State.memories_foldl, State.memories_evalShield]

theorem State.memories_dueStep (s : State) (h : Half) (c : Nat) : (s.dueStep h c).memories = s.memories := by
  simp only [State.dueStep, implies_true, State.memories_foldl, State.memories_updTherm, State.memories_addHold]

theorem State.memories_retarget (s : State) (h : Half) : (s.retarget h).memories = s.memories := by
  simp only [State.retarget, State.memories_ite, ite_self, implies_true, State.memories_foldl, State.memories_updTherm,
    State.memories_dropHold, State.memories_dueStep]

theorem State.memories_recentre (s : State)  : (s.recentre).memories = s.memories := by
  simp only [State.recentre, State.memories_ite, ite_self, implies_true, State.memories_foldl, State.memories_updQu]

theorem State.memories_setClock (s : State) (h : Half) (c : Nat) : (s.setClock h c).memories = s.memories := by
  simp only [State.setClock, implies_true, State.memories_foldl, State.memories_setF, State.memories_ev, State.memories_recentre]

theorem State.memories_showLevel (s : State) (h : Half) : (s.showLevel h).memories = s.memories := by
  simp only [State.showLevel, State.memories_setF]

theorem State.memories_critical (s : State) (h : Half) (sensor : Nat) (t : Int) : (s.critical h sensor t).memories = s.memories := by
  simp only [State.critical, implies_true, State.memories_foldl, State.memories_incF, State.memories_updTherm, State.memories_failTick,
    State.memories_ev, State.memories_addHold, State.memories_dropHold, State.memories_setClock, State.memories_showLevel]

theorem State.memories_sampleHalf (s : State) (l : List Int) (h : Half) : (s.sampleHalf l h).memories = s.memories := by
  simp only [State.sampleHalf, State.memories_mk, State.memories_ite, ite_self, State.memories_setF, State.memories_updTherm,
    State.memories_retarget, State.memories_critical]

theorem State.memories_setHalf (s : State) (h : Half) (v : Nat) : (s.setHalf h v).memories = s.memories := (rfl)

theorem State.memories_noteHalf (s : State) (h : Half) (old new result ld : Nat) :
    (s.noteHalf h old new result ld).memories = s.memories := by
  simp only [State.noteHalf, State.memories_raise]

theorem State.memories_halfAnswer (s : State) (h : Half) (target result ld : Nat) :
    (s.halfAnswer h target result ld).memories = s.memories := by
  simp only [State.halfAnswer, State.memories_ite, ite_self, State.memories_setF, State.memories_noteHalf]

theorem State.memories_startUp (s : State) (h : Half) (first : PartId) (ld : Nat) : (s.startUp h first ld).memories = s.memories := by
  simp only [State.startUp, State.memories_mk, State.memories_setF, State.memories_setHalf]

theorem State.memories_halfReq (s : State) (h : Half) (target ld : Nat) : (s.halfReq h target ld).memories = s.memories := by
  simp only [State.halfReq, State.memories_mk, State.memories_ite, ite_self, State.memories_setF, State.memories_setHalf,
    State.memories_halfAnswer, State.memories_startUp]

theorem State.memories_wakeHalf (s : State) (p : PartId) (ld : Nat) : (s.wakeHalf p ld).memories = s.memories := by
  simp only [State.wakeHalf, State.memories_ite, ite_self, State.memories_incF, State.memories_noteHalf, State.memories_startUp]

theorem State.memories_upDone (s : State) (h : Half) : (s.upDone h).1.memories = s.memories := by
  unfold State.upDone
  split <;> simp only [State.memories_mk, State.memories_fst_ite, ite_self, implies_true, State.memories_foldl, State.memories_updPart,
    State.memories_setF, State.memories_waitNs, State.memories_endRefusals, State.memories_evalShields, State.memories_setHalf,
    State.memories_noteHalf]

theorem State.memories_setLink (s : State) (n : LinkId) (dir : Bool) (x : LinkSt) : (s.setLink n dir x).memories = s.memories := (rfl)

theorem State.memories_colDefectOf (s : State) (origin kind unit pos : Nat) :
    (s.colDefectOf origin kind unit pos).memories = s.memories := by
  simp only [State.colDefectOf, State.memories_colAppend]

theorem State.memories_colDefect (s : State) (kind unit pos : Nat) : (s.colDefect kind unit pos).memories = s.memories := by
  simp only [State.colDefect, State.memories_colDefectOf]

theorem State.memories_blame (s : State) (n : LinkId) (dir : Bool) (lane : Nat) : (s.blame n dir lane).memories = s.memories := by
  simp only [State.blame, State.memories_ite, ite_self, State.memories_charge, State.memories_ev, State.memories_setLink]

theorem State.memories_checkEntries (s : State) (q : QuireId) : (s.checkEntries q).memories = s.memories := by
  unfold State.checkEntries
  refine State.memories_foldl (fun t a => ?_) _
  repeat' split
  all_goals simp only [State.memories_setF, State.memories_ev]

theorem State.memories_copyTo (s : State) (p : PartId) (stops : List Nat) (ws : List (BitVec 32)) :
    (s.copyTo p stops ws).memories = s.memories := by
  simp only [State.copyTo, State.memories_mk]

theorem State.memories_copyMap (s : State) (p : PartId) (ws : List (BitVec 32)) : (s.copyMap p ws).memories = s.memories := (rfl)

theorem State.memories_holdMapset (s : State) (p r : PartId) : (s.holdMapset p r).memories = s.memories := by
  simp only [State.holdMapset, State.memories_ite, ite_self, State.memories_spSend, State.memories_wakeHalf]

theorem State.memories_sendMap (s : State) (p : PartId) : (s.sendMap p).memories = s.memories := by
  simp only [State.sendMap, State.memories_mk, implies_true, State.memories_foldl, State.memories_copyTo, State.memories_holdMapset]

theorem State.memories_putMap (s : State) (p : PartId) (m : List (Option TileId)) (spare : Option TileId) :
    (s.putMap p m spare).memories = s.memories := by
  simp only [State.putMap, implies_true, State.memories_foldl, State.memories_wr, State.memories_setF]

theorem State.memories_writeMap (s : State) (p : PartId) (m : List (Option TileId)) (spare : Option TileId) :
    (s.writeMap p m spare).memories = s.memories := by
  simp only [State.writeMap, State.memories_copyMap, State.memories_putMap]

theorem State.memories_mapErrors (s : State) (p : PartId) : (s.mapErrors p).memories = s.memories := by
  simp only [State.mapErrors, State.memories_ite, ite_self, implies_true, State.memories_foldl, State.memories_setF]

theorem State.memories_applyMap (s : State) (p : PartId) (m : List (Option TileId)) (spare : Option TileId) (gone : Nat) :
    (s.applyMap p m spare gone).memories = s.memories := by
  simp only [State.applyMap, State.memories_mk, implies_true, State.memories_foldl, State.memories_updQu, State.memories_setF,
    State.memories_incF, State.memories_ev, State.memories_sendMap, State.memories_putMap, State.memories_mapErrors]

theorem State.memories_dropUnits (s : State) (p : PartId) : (s.dropUnits p).memories = s.memories := by
  simp only [State.dropUnits, State.memories_mk, State.memories_settleAll]

theorem State.memories_spHold (s : State) (p : PartId) (stop dest cls opcode arg : Nat) :
    (s.spHold p stop dest cls opcode arg).memories = s.memories := (rfl)

theorem State.memories_spRefuse (s : State) (p : PartId) (stop dest cls opcode arg cause : Nat) :
    (s.spRefuse p stop dest cls opcode arg cause).memories = s.memories := by
  simp only [State.spRefuse, State.memories_mk, State.memories_noteAsleep, State.memories_spSend]

theorem State.memories_sendNotice (s : State) (n : Notice) (held : Bool) : (s.sendNotice n held).memories = s.memories := by
  simp only [State.sendNotice, State.memories_setPhase, State.memories_spSend]

theorem State.memories_forwardNotice (s : State) (n : Notice) : (s.forwardNotice n).memories = s.memories := by
  unfold State.forwardNotice
  split <;> simp only [State.memories_ite, ite_self, State.memories_ev, State.memories_complete, State.memories_wakeHalf,
    State.memories_sendNotice]

theorem State.memories_ringBit (s : State) (ld mailbox bit : Nat) (rcd : List (BitVec 8)) :
    (s.ringBit ld mailbox bit rcd).memories = s.memories := by
  unfold State.ringBit
  repeat' split
  all_goals simp only [State.memories_mk, State.memories_ite, ite_self, State.memories_pushComp, State.memories_showPend,
    State.memories_forwardNotice]

theorem State.memories_deliverNotice (s : State) (ld mailbox bit : Nat) : (s.deliverNotice ld mailbox bit).memories = s.memories := by
  unfold State.deliverNotice
  repeat' split
  all_goals simp only [State.memories_ev, State.memories_complete, State.memories_refuse, State.memories_setPhase]

theorem State.memories_writeMask (s : State) (p : PartId) (v : BitVec 32) : (s.writeMask p v).memories = s.memories := by
  simp only [State.writeMask, implies_true, State.memories_foldl, State.memories_setF, State.memories_forwardNotice]

theorem State.memories_writeEntries (s : State) (l : List EntryWrite) : (s.writeEntries l).memories = s.memories := by
  simp only [State.writeEntries, implies_true, State.memories_foldl, State.memories_wr]

theorem State.memories_colRecord (s : State) (x : Src) (code : Nat) (cap : List Nat) :
    (s.colRecord x code cap).memories = s.memories := by
  simp only [State.colRecord, State.memories_mk, State.memories_colWrite]

theorem State.memories_keepDevice (s : State) (old : State) : (s.keepDevice old).memories = s.memories := (rfl)

theorem State.memories_setBudget (s : State) (p : PartId) (v ld : Nat) : (s.setBudget p v ld).memories = s.memories := by
  simp only [State.setBudget, State.memories_mk, State.memories_ite, ite_self, State.memories_setF, State.memories_raise, State.memories_ev]

theorem State.memories_capOn (s : State) (p : PartId) : (s.capOn p).memories = s.memories := by
  simp only [State.capOn, State.memories_updPart, State.memories_setF, State.memories_incF, State.memories_ev]

theorem State.memories_capOff (s : State) (p : PartId) : (s.capOff p).memories = s.memories := by
  unfold State.capOff
  refine (State.memories_updPart ..).trans ((State.memories_foldl (fun t q => ?_) _).trans (State.memories_setF ..))
  exact t.memories_updQu q _ (by split <;> rfl)

theorem State.memories_setSpread (s : State) (v : Nat) : (s.setSpread v).memories = s.memories := by
  simp only [State.setSpread, State.memories_mk, State.memories_ite, ite_self, implies_true, State.memories_foldl, State.memories_setF,
    State.memories_updTherm, State.memories_dueStep]

theorem State.memories_writeTickIo (s : State) (v : BitVec 32) : (s.writeTickIo v).memories = s.memories := by
  simp only [State.writeTickIo, State.memories_mk, State.memories_settleIo]

theorem State.memories_mdGo (s : State) (p : PartId) : (s.mdGo p).memories = s.memories := by
  simp only [State.mdGo, State.memories_ite, ite_self, State.memories_updPart, State.memories_setF]

theorem State.memories_setHoldoff (s : State) (p : PartId) (minutes : Nat) : (s.setHoldoff p minutes).memories = s.memories := by
  simp only [State.setHoldoff, State.memories_updPart]

theorem State.memories_plainWrite (s : State) (addr : Nat) (v : BitVec 32) : (s.plainWrite addr v).memories = s.memories := by
  unfold State.plainWrite
  split <;> simp only [State.memories_wrAddr]

theorem State.memories_hubWrite (s : State) (w : Writer) (off : Nat) (v : BitVec 32) : (s.hubWrite w off v).memories = s.memories := by
  simp only [State.hubWrite, State.memories_ite, ite_self, State.memories_writeTrig, State.memories_halfReq, State.memories_setSpread,
    State.memories_writeTickIo, State.memories_plainWrite]

theorem State.memories_writePsMode (s : State) (w : Writer) (q : QuireId) (v : BitVec 32) :
    (s.writePsMode w q v).memories = s.memories := by
  simp only [State.writePsMode, State.memories_ite, ite_self, State.memories_noteFeature, State.memories_evalShield,
    State.memories_plainWrite]

theorem State.memories_putConfig (s : State) (u : StId) (i : Nat) (b : List (BitVec 8)) :
    (s.putConfig u i b).memories = s.memories := by
  simp only [State.putConfig, State.memories_ite, ite_self, implies_true, State.memories_foldl, State.memories_wr]

theorem State.memories_seal (s : State) (u : StId) : (s.seal u).memories = s.memories := by
  unfold State.seal
  repeat' split
  all_goals simp only [State.memories_updSt, State.memories_setF, State.memories_ev]

theorem State.memories_openStitcher (s : State) (u : StId) (used : Bool) : (s.openStitcher u used).memories = s.memories := by
  simp only [State.openStitcher, State.memories_updSt, State.memories_setF]

theorem State.memories_freshStitcher (s : State) (u : StId) (used : Bool) : (s.freshStitcher u used).memories = s.memories := by
  simp only [State.freshStitcher, State.memories_updSt, State.memories_setF, State.memories_setCnt, State.memories_openStitcher]

theorem State.memories_setLoad (s : State) (p : PartId) (l : Option Load) : (s.setLoad p l).memories = s.memories := (rfl)

theorem State.memories_showLoad (s : State) (p : PartId) (im : Image) (st round : Nat) :
    (s.showLoad p im st round).memories = s.memories := (rfl)

theorem State.memories_imageDone (s : State) (p : PartId) (im : Image) : (s.imageDone p im).memories = s.memories := by
  simp only [State.imageDone, implies_true, State.memories_foldl, State.memories_updPart, State.memories_wr, State.memories_checkEntries]

theorem State.memories_dropAt (s : State) (p : PartId) (drops : List (Fin 42)) (opcode : Nat) :
    (s.dropAt p drops opcode).memories = s.memories := by
  simp only [State.dropAt, implies_true, State.memories_foldl, State.memories_parityDrop]

theorem State.memories_loadAsleep (s : State) (p : PartId) (opcode : Nat) : (s.loadAsleep p opcode).memories = s.memories := by
  simp only [State.loadAsleep, State.memories_noteAsleep]

theorem State.memories_abortSpans (s : State) (p : PartId) : (s.abortSpans p).memories = s.memories := by
  simp only [State.abortSpans, State.memories_mk, State.memories_ite, ite_self, implies_true, State.memories_foldl, State.memories_updQu,
    State.memories_settleAll]

theorem State.memories_showFences (s : State) (p : PartId) : (s.showFences p).memories = s.memories := by
  simp only [State.showFences, implies_true, State.memories_foldl, State.memories_setF]

theorem State.memories_showSpans (s : State)  : (s.showSpans).memories = s.memories := by
  simp only [State.showSpans, implies_true, State.memories_foldl, State.memories_setF]

theorem State.memories_raiseFence (s : State) (p : PartId) (reason : Nat) : (s.raiseFence p reason).memories = s.memories := by
  simp only [State.raiseFence, State.memories_ite, ite_self, State.memories_setF, State.memories_ev, State.memories_abortSpans,
    State.memories_showFences]

theorem State.memories_dropFence (s : State) (p : PartId) (reason : Nat) : (s.dropFence p reason).memories = s.memories := by
  simp only [State.dropFence, State.memories_ite, ite_self, State.memories_setF, State.memories_ev, State.memories_showFences]

theorem State.memories_endCmd (s : State) (k : Nat × Nat) (status result : Nat) : (s.endCmd k status result).memories = s.memories := by
  unfold State.endCmd
  split <;> simp only [State.memories_complete]

theorem State.memories_abortTests (s : State) (p : PartId) : (s.abortTests p).memories = s.memories := by
  simp only [State.abortTests, implies_true, State.memories_foldl, State.memories_updPart, State.memories_endCmd]

theorem State.memories_cutLoad (s : State) (p : PartId) : (s.cutLoad p).memories = s.memories := by
  unfold State.cutLoad
  split <;> simp only [State.memories_setF, State.memories_dropHold, State.memories_setLoad]

theorem State.memories_saveTraining (s : State) (l : List (Fin 64)) : (s.saveTraining l).memories = s.memories := by
  simp only [State.saveTraining, State.memories_mk]

theorem State.memories_withdrawDevice (s : State) (reason : Nat) : (s.withdrawDevice reason).memories = s.memories := by
  simp only [State.withdrawDevice, State.memories_ite, ite_self, implies_true, State.memories_foldl, State.memories_setF,
    State.memories_ev, State.memories_msi, State.memories_addHold, State.memories_raiseFence]

theorem State.memories_withdrawPart (s : State) (p : PartId) : (s.withdrawPart p).memories = s.memories := by
  simp only [State.withdrawPart, State.memories_ite, ite_self, State.memories_updPart, State.memories_setF, State.memories_ev,
    State.memories_addHold, State.memories_raiseFence, State.memories_withdrawDevice]

theorem State.memories_startDevice (s : State) (cause ld : Nat) : (s.startDevice cause ld).memories = s.memories := by
  simp only [State.startDevice, State.memories_mk, State.memories_ite, ite_self, implies_true, State.memories_foldl, State.memories_setF,
    State.memories_ev, State.memories_addHold, State.memories_raiseFence, State.memories_withdrawDevice]

theorem State.memories_mdOut (s : State) (p : PartId) (d : List (BitVec 8)) : (s.mdOut p d).memories = s.memories := by
  simp only [State.mdOut, implies_true, State.memories_foldl, State.memories_wr]

theorem State.memories_mdNone (s : State) (p : PartId) : (s.mdNone p).memories = s.memories := by
  simp only [State.mdNone, implies_true, State.memories_foldl, State.memories_wr, State.memories_useFree]

theorem State.memories_mdEnd (s : State) (p : PartId) (status : Nat) : (s.mdEnd p status).memories = s.memories := by
  simp only [State.mdEnd, State.memories_updPart, State.memories_setF]

theorem State.memories_setMgn (s : State) (tile m : Nat) (v : Nat × Nat × Nat × Bool) :
    (s.setMgn tile m v).memories = s.memories := (rfl)

theorem State.memories_colMargin (s : State) (unit kind bin slack raise result : Nat) :
    (s.colMargin unit kind bin slack raise result).memories = s.memories := by
  simp only [State.colMargin, State.memories_colAppend]

theorem State.memories_readMonitor (s : State) (tile m droop slack : Nat) :
    (s.readMonitor tile m droop slack).memories = s.memories := by
  unfold State.readMonitor
  simp only []
  split <;> simp only [State.memories_ite, ite_self, State.memories_colAdd, State.memories_ev, State.memories_setMgn]

theorem State.memories_addHour (s : State) (k : Nat) : (s.addHour k).memories = s.memories := by
  simp only [State.addHour, State.memories_mk]

theorem State.memories_marginTile (s : State) (droop slack press issue : List Nat) (tile : Nat) :
    (s.marginTile droop slack press issue tile).memories = s.memories := by
  unfold State.marginTile
  simp only []
  split <;> simp only [State.memories_mk, implies_true, State.memories_foldl, State.memories_colAdd, State.memories_colMargin,
    State.memories_readMonitor, State.memories_addHour]

theorem State.memories_markRow (s : State) (tile bank row : Nat) : (s.markRow tile bank row).memories = s.memories := by
  simp only [State.markRow, State.memories_mk]

theorem State.memories_markDram (s : State) (p : PartId) (ch row : Nat) : (s.markDram p ch row).memories = s.memories := by
  simp only [State.markDram, State.memories_mk, State.memories_ite, ite_self, State.memories_ev]

theorem State.memories_setRestriction (s : State) (i : Nat) (u : HwUnit) (w : BitVec 32) :
    (s.setRestriction i u w).memories = s.memories := by
  simp only [State.setRestriction, State.memories_mk, State.memories_ev, State.memories_colWrite, State.memories_retarget]

theorem State.memories_dueSweep (s : State) (tile : Nat) (u : HwUnit) : (s.dueSweep tile u).memories = s.memories := by
  simp only [State.dueSweep, State.memories_mk, State.memories_ite, ite_self]

theorem State.memories_askRun (s : State) (program unit : Nat) (quire : Option QuireId) :
    (s.askRun program unit quire).memories = s.memories := (rfl)

theorem State.memories_askTile (s : State) (tile : Nat) (quire : Option QuireId) : (s.askTile tile quire).memories = s.memories := by
  simp only [State.askTile, State.memories_mk, State.memories_ite, ite_self, implies_true, State.memories_foldl, State.memories_askRun]

theorem State.memories_colRun (s : State) (program unit verdict : Nat) (ms : Nat) (sig : BitVec 128) :
    (s.colRun program unit verdict ms sig).memories = s.memories := by
  simp only [State.colRun, State.memories_colAppend]

theorem State.memories_closeRun (s : State) (r : TestRun) (verdict cause : Nat) (sig : BitVec 128) :
    (s.closeRun r verdict cause sig).memories = s.memories := by
  simp only [State.closeRun, State.memories_mk, State.memories_ite, ite_self, State.memories_ev, State.memories_colRun]

theorem State.memories_endDevice (s : State) (mode : Nat) : (s.endDevice mode).memories = s.memories := by
  unfold State.endDevice
  simp only []
  split <;> simp only [State.memories_mk, State.memories_ite, ite_self, State.memories_flushRam, State.memories_endCmd]

theorem State.memories_clearKeys (s : State)  : (s.clearKeys).memories = s.memories := by
  simp only [State.clearKeys, State.memories_ite, ite_self, State.memories_setF, State.memories_ev]

theorem State.memories_dropAbsentTests (s : State) (p : PartId) : (s.dropAbsentTests p).memories = s.memories := by
  simp only [State.dropAbsentTests, implies_true, State.memories_foldl, State.memories_updPart, State.memories_endCmd]

theorem State.memories_openTests (s : State)  : (s.openTests).memories = s.memories := by
  unfold State.openTests
  refine State.memories_foldl (fun t a => ?_) _
  dsimp only
  split
  · simp only [State.memories_ite, ite_self, State.memories_askTile, State.memories_dropAbsentTests]
  · simp only [State.memories_dropAbsentTests]

theorem State.memories_postpone (s : State) (q : QuireId) (cause : Nat) : (s.postpone q cause).memories = s.memories := by
  simp only [State.postpone, State.memories_ite, ite_self, State.memories_updQu, State.memories_updPart, State.memories_setF,
    State.memories_setCnt, State.memories_raise, State.memories_ev]

theorem State.memories_stopOnRoute (s : State) (p : PartId) : (s.stopOnRoute p).memories = s.memories := by
  simp only [State.stopOnRoute, State.memories_ite, ite_self, State.memories_setF]

theorem State.memories_testReleased (s : State) (q : QuireId) (tile : Nat) : (s.testReleased q tile).memories = s.memories := by
  simp only [State.testReleased, State.memories_ite, ite_self, implies_true, State.memories_foldl, State.memories_remapTile,
    State.memories_colDefect, State.memories_askTile]

theorem State.memories_markAbsent (s : State) (q : QuireId) (tile gone : Nat) : (s.markAbsent q tile gone).memories = s.memories := by
  simp only [State.markAbsent, State.memories_ev, State.memories_evalShield, State.memories_applyMap]

theorem State.memories_absorbFailed (s : State) (p : PartId) (tile : Nat) : (s.absorbFailed p tile).memories = s.memories := by
  unfold State.absorbFailed
  simp only []
  split <;> simp only [State.memories_mk, State.memories_noteAbsent, State.memories_settleAll]

theorem State.memories_tipInMap (s : State) (q : QuireId) (tile gone : Nat) : (s.tipInMap q tile gone).memories = s.memories := by
  simp only [State.tipInMap, State.memories_ite, ite_self, State.memories_setF, State.memories_copyMap, State.memories_applyMap,
    State.memories_markAbsent]

theorem State.memories_askDevice (s : State) (mode : Nat) : (s.askDevice mode).memories = s.memories := by
  simp only [State.askDevice, State.memories_mk, State.memories_ite, ite_self, implies_true, State.memories_foldl, State.memories_askRun]

theorem State.memories_colReset (s : State) (scope target cause path ms set : Nat) :
    (s.colReset scope target cause path ms set).memories = s.memories := by
  simp only [State.colReset, State.memories_colAppend]

theorem State.memories_repairRows (s : State) (p : PartId) (beyond : List (Nat × Nat)) :
    (s.repairRows p beyond).memories = s.memories := by
  simp only [State.repairRows, State.memories_mk, State.memories_ite, ite_self, implies_true, State.memories_foldl, State.memories_ev,
    State.memories_colDefect]

theorem State.memories_keepRemaps (s : State) (tile before : Nat) : (s.keepRemaps tile before).memories = s.memories := by
  simp only [State.keepRemaps, State.memories_mk, implies_true, State.memories_foldl, State.memories_colDefect]

theorem State.memories_remapSpare (s : State) (p : PartId) : (s.remapSpare p).memories = s.memories := by
  simp only [State.remapSpare, State.memories_ite, ite_self, implies_true, State.memories_foldl, State.memories_remapTile,
    State.memories_keepRemaps]

theorem State.memories_keepTicks (s : State) (p : PartId) : (s.keepTicks p).memories = s.memories := (rfl)

theorem State.memories_dropRuns (s : State) (p : PartId) : (s.dropRuns p).memories = s.memories := (rfl)

theorem State.memories_setRecovery (s : State) (p : PartId) (r : Recovery) (state : Nat) :
    (s.setRecovery p r state).memories = s.memories := (rfl)

theorem State.memories_passQuire (s : State) (q : QuireId) : (s.passQuire q).memories = s.memories := by
  simp only [State.passQuire, implies_true, State.memories_foldl, State.memories_updQu, State.memories_setF, State.memories_writeDigest]

theorem State.memories_verifyEvent (s : State) (p : PartId) (d : QuireId × Nat × List (BitVec 8)) :
    (s.verifyEvent p d).memories = s.memories := by
  simp only [State.verifyEvent, State.memories_ev]

theorem State.memories_endRecovery (s : State) (p : PartId) (r : Recovery) (verified : Bool) :
    (s.endRecovery p r verified).memories = s.memories := by
  simp only [State.endRecovery, implies_true, State.memories_foldl, State.memories_updPart, State.memories_wr, State.memories_setF,
    State.memories_endCmd, State.memories_colReset]

theorem State.memories_leaveHeld (s : State) (p : PartId) : (s.leaveHeld p).memories = s.memories := by
  simp only [State.leaveHeld, State.memories_setF, State.memories_dropHold]

theorem State.memories_startWipe (s : State) (p : PartId) (ld : Nat) : (s.startWipe p ld).memories = s.memories := by
  simp only [State.startWipe, State.memories_mk, State.memories_setF]

theorem State.memories_wipedBack (s : State) (p : PartId) : (s.wipedBack p).memories = s.memories := by
  simp only [State.wipedBack, State.memories_ite, ite_self, State.memories_updPart, State.memories_setF, State.memories_evalShield,
    State.memories_dropFence, State.memories_leaveHeld]

theorem State.memories_later (s : State) (n : Nat) : (s.later n).memories = s.memories := by
  simp only [State.later, State.memories_waitNs]

theorem State.memories_bootEv (s : State) (x : Src) (code : Nat) (cap : List Nat) : (s.bootEv x code cap).memories = s.memories := by
  simp only [State.bootEv, implies_true, State.memories_foldl, State.memories_updSrc, State.memories_ev, State.memories_stage]

theorem State.memories_enable (s : State) (parts lds features : Nat) (licensed : Bool) :
    (s.enable parts lds features licensed).memories = s.memories := by
  simp only [State.enable, State.memories_wr, State.memories_setF]

theorem State.memories_evaluate (s : State)  : (s.evaluate).memories = s.memories := by
  unfold State.evaluate
  simp only []
  repeat' split
  all_goals simp only [State.memories_mk, State.memories_wr, State.memories_bootEv, State.memories_enable]

theorem State.memories_showIds (s : State)  : (s.showIds).memories = s.memories := by
  simp only [State.showIds, State.memories_setF]

theorem State.memories_resumeIds (s : State)  : (s.resumeIds).memories = s.memories := (rfl)

theorem State.memories_bootRegs (s : State)  : (s.bootRegs).memories = s.memories := by
  simp only [State.bootRegs, implies_true, State.memories_foldl, State.memories_updPart, State.memories_wr, State.memories_setF,
    State.memories_showCol, State.memories_showIds]

theorem State.memories_bootMap (s : State) (p : PartId) : (s.bootMap p).memories = s.memories := by
  simp only [State.bootMap, State.memories_mk, State.memories_ite, ite_self, implies_true, State.memories_foldl, State.memories_writeMap,
    State.memories_bootEv]

theorem State.memories_bootLanes (s : State)  : (s.bootLanes).memories = s.memories := by
  simp only [State.bootLanes, State.memories_mk, implies_true, State.memories_foldl]

theorem State.memories_bootRows (s : State)  : (s.bootRows).memories = s.memories := by
  simp only [State.bootRows, State.memories_mk, implies_true, State.memories_foldl]

theorem State.memories_train (s : State) (i : TrainInput) : (s.train i).memories = s.memories := by
  simp only [State.train, implies_true, State.memories_foldl, State.memories_setF, State.memories_saveTraining, State.memories_bootEv]

theorem State.memories_colLanes (s : State) (l : List Nat) : (s.colLanes l).memories = s.memories := by
  simp only [State.colLanes, implies_true, State.memories_foldl, State.memories_colMargin]

theorem State.memories_bindAll (s : State)  : (s.bindAll).memories = s.memories := by
  simp only [State.bindAll, State.memories_mk, implies_true, State.memories_foldl, State.memories_setF, State.memories_showSpans]

theorem State.memories_wakePin (s : State)  : (s.wakePin).memories = s.memories := by
  simp only [State.wakePin, State.memories_mk, State.memories_ite, ite_self]

theorem State.memories_ready (s : State)  : (s.ready).memories = s.memories := by
  simp only [State.ready, State.memories_ite, ite_self, implies_true, State.memories_foldl, State.memories_updPart, State.memories_setF,
    State.memories_ev, State.memories_addHold, State.memories_evalShield, State.memories_raiseFence, State.memories_bindAll, State.memories_wakePin]

theorem State.memories_recover (s : State) (cause : Nat) (evs : List (Nat × List Nat)) :
    (s.recover cause evs).memories = s.memories := by
  simp only [State.recover, State.memories_mk, implies_true, State.memories_foldl, State.memories_colRecord]

theorem State.memories_factoryDefects (s : State)  : (s.factoryDefects).memories = s.memories := by
  simp only [State.factoryDefects, implies_true, State.memories_foldl, State.memories_colDefectOf]

theorem State.memories_keepBinds (s : State) (old : State) : (s.keepBinds old).memories = s.memories := by
  simp only [State.keepBinds, implies_true, State.memories_foldl, State.memories_wr, State.memories_setF]

theorem State.memories_restart (s : State)  : (s.restart).memories = s.memories := by
  simp only [State.restart, State.memories_mk, State.memories_abortBox, State.memories_showIds, State.memories_resumeIds]

theorem State.memories_cvtNan (s : State) (u : StId) (pc : Nat) : (s.cvtNan u pc).memories = s.memories := by
  simp only [State.cvtNan, State.memories_raise]

theorem State.memories_noteBind (s : State) (l : LdId) (owner : Nat) : (s.noteBind l owner).memories = s.memories := by
  simp only [State.noteBind, State.memories_ev]

theorem State.memories_setBound (s : State) (l : LdId) (p : PartId) (b : Bool) : (s.setBound l p b).memories = s.memories := by
  simp only [State.setBound, State.memories_setF]

theorem State.memories_showAllFences (s : State)  : (s.showAllFences).memories = s.memories := by
  simp only [State.showAllFences, implies_true, State.memories_foldl, State.memories_showFences]

theorem State.memories_devClearAll (s : State) (p : PartId) : (s.devClearAll p).memories = s.memories := by
  simp only [State.devClearAll, State.memories_devClear]

theorem State.memories_countExtents (s : State) (l : Nat) : (s.countExtents l).memories = s.memories := by
  simp only [State.countExtents, State.memories_setF]

theorem State.memories_setExtent (s : State) (e f : Extent) : (s.setExtent e f).memories = s.memories := by
  simp only [State.setExtent, State.memories_mk]

theorem State.memories_endExtent (s : State) (e : Extent) (status : Nat) : (s.endExtent e status).memories = s.memories := by
  unfold State.endExtent
  split <;> simp only [State.memories_endCmd]

theorem State.memories_takeIndex (s : State)  : (s.takeIndex).1.memories = s.memories := by
  simp only [State.takeIndex, State.memories_mk, State.memories_showIds]

theorem State.memories_noteIdLow (s : State)  : (s.noteIdLow).memories = s.memories := by
  simp only [State.noteIdLow, State.memories_mk, State.memories_ite, ite_self, State.memories_ev]

theorem State.memories_answerRead (s : State) (key : Nat) (v : BitVec 32) : (s.answerRead key v).memories = s.memories := (rfl)

theorem State.memories_readAt (s : State) (w : Writer) (p : PartId) (a : Nat) : (s.readAt w p a).memories = s.memories := by
  simp only [State.readAt, State.memories_readReg, State.memories_spSend]

theorem State.memories_noteLost (s : State) (m : SpMsg) : (s.noteLost m).memories = s.memories := by
  simp only [State.noteLost, State.memories_ev]

theorem State.memories_hostMem (s : State) (ld : LdId) (p : PartId) (a : Nat) : (s.hostMem ld p a).1.memories = s.memories := by
  unfold State.hostMem
  simp only [State.memories_fst_ite, State.memories_useFree]
  repeat' split
  all_goals simp only [State.memories_charge, State.memories_pmRead, State.memories_ev, State.memories_msi]

theorem State.memories_mirrorLine (s : State) (ld : LdId) (x : Src) (o : Nat) : (s.mirrorLine ld x o).1.memories = s.memories := by
  unfold State.mirrorLine
  split <;> simp only [State.memories_fst_ite, ite_self, State.memories_hostMem]

theorem State.memories_partLine (s : State) (ld : LdId) (p : PartId) (o : Nat) : (s.partLine ld p o).1.memories = s.memories := by
  simp only [State.partLine, State.memories_fst_ite, ite_self, State.memories_hostMem, State.memories_mirrorLine]

theorem State.memories_hostLine (s : State) (ld : LdId) (o : Nat) : (s.hostLine ld o).1.memories = s.memories := by
  unfold State.hostLine
  repeat' split
  all_goals simp only [State.memories_hostMem, State.memories_mirrorLine, State.memories_partLine]

theorem State.memories_answerLine (s : State) (ld : LdId) (line : Nat) : (s.answerLine ld line).memories = s.memories := by
  simp only [State.answerLine, State.memories_mk, State.memories_hostLine]

theorem State.memories_answerWaiting (s : State)  : (s.answerWaiting).memories = s.memories := by
  unfold State.answerWaiting
  split <;> simp only [State.memories_mk, State.memories_ite, ite_self, State.memories_answerLine]

end Sys2Proof.Machine
end

section
namespace Sys2Proof.Machine

-- Proved in parallel, these proofs hold a thread each, whose stacks pass the check's memory.
set_option Elab.async false

/-! ## Registers of different blocks

The kind of its block and the offset that it has there, the `site` of its address, tell a register from those at every other
site. A function of the model that writes registers at the sites `W` alone has a lemma `f_<name>`: a field at another site
keeps its value. -/

/-- Where a register stands: the kind of its block, and its offset in a block of that kind. -/
def site (a : Nat) : Nat × Nat :=
  if a < 0x1000000 then (0, a)
  else
    let o := a % 0x1000000
    if o < 0x800000 then
      if 0x640 ≤ o ∧ o < 0x6C0 then (2, o % 0x20)
      else if 0x1000 ≤ o ∧ o < 0x1800 then (3, o % 0x20)
      else if 0x2000 ≤ o ∧ o < 0x2200 then (4, o % 0x10)
      else (1, o)
    else
      let x := o % 0x10000
      if 0x1000 ≤ x ∧ x < 0x5000 then (6, x % 0x100)
      else if 0x5000 ≤ x ∧ x < 0x5200 then (7, x % 0x40)
      else if 0x6000 ≤ x ∧ x < 0x7000 then (8, x % 16)
      else if 0x7000 ≤ x ∧ x < 0x7100 then (9, x % 16)
      else (5, x)

theorem site_hub {x : Nat} (h : x < 0x1000000) : site (hub + x) = (0, x) := by
  simp only [site, hub, Nat.zero_add, if_pos h]

theorem site_pt (p : PartId) {x : Nat}
    (h : x < 0x640 ∨ 0x6C0 ≤ x ∧ x < 0x1000 ∨ 0x1800 ≤ x ∧ x < 0x2000 ∨ 0x2200 ≤ x ∧ x < 0x800000) :
    site (pt p + x) = (1, x) := by
  have e : (pt p + x) % 0x1000000 = x := by unfold pt; omega
  simp only [site, e]
  rw [if_neg (by unfold pt; omega), if_pos (by omega), if_neg (by omega), if_neg (by omega), if_neg (by omega)]

theorem site_ib (p : PartId) (i : Nat) {x : Nat} (h : x < 0x20) : site (ib p i + x) = (2, x) := by
  have e : (ib p i + x) % 0x1000000 = 0x640 + 0x20 * (i % 4) + x := by unfold ib pt; omega
  simp only [site, e]
  rw [if_neg (by unfold ib pt; omega), if_pos (by omega), if_pos (by omega)]
  simp only [Prod.mk.injEq, true_and]
  omega

theorem site_tb (p : PartId) (i : Nat) {x : Nat} (h : x < 0x20) : site (tb p i + x) = (3, x) := by
  have e : (tb p i + x) % 0x1000000 = 0x1000 + 0x20 * (i % 64) + x := by unfold tb pt; omega
  simp only [site, e]
  rw [if_neg (by unfold tb pt; omega), if_pos (by omega), if_neg (by omega), if_pos (by omega)]
  simp only [Prod.mk.injEq, true_and]
  omega

theorem site_lb (p : PartId) (i : Nat) {x : Nat} (h : x < 0x10) : site (lb p i + x) = (4, x) := by
  have e : (lb p i + x) % 0x1000000 = 0x2000 + 0x10 * (i % 32) + x := by unfold lb pt; omega
  simp only [site, e]
  rw [if_neg (by unfold lb pt; omega), if_pos (by omega), if_neg (by omega), if_neg (by omega), if_pos (by omega)]
  simp only [Prod.mk.injEq, true_and]
  omega

/-- An address in a quire's block. -/
theorem site_quire (q : QuireId) {y : Nat} (h : y < 0x10000) : site (qb q + y) =
    if 0x1000 ≤ y ∧ y < 0x5000 then (6, y % 0x100) else if 0x5000 ≤ y ∧ y < 0x5200 then (7, y % 0x40)
    else if 0x6000 ≤ y ∧ y < 0x7000 then (8, y % 16) else if 0x7000 ≤ y ∧ y < 0x7100 then (9, y % 16) else (5, y) := by
  have e : (qb q + y) % 0x1000000 = 0x800000 + 0x10000 * localOf q + y := by unfold qb pt localOf; omega
  have e' : (0x800000 + 0x10000 * localOf q + y) % 0x10000 = y := by omega
  simp only [site, e, e']
  rw [if_neg (by unfold qb pt; omega), if_neg (by omega)]

theorem site_qb (q : QuireId) {x : Nat} (h : x < 0x1000 ∨ 0x5200 ≤ x ∧ x < 0x6000 ∨ 0x7100 ≤ x ∧ x < 0x10000) :
    site (qb q + x) = (5, x) := by
  rw [site_quire q (by omega), if_neg (by omega), if_neg (by omega), if_neg (by omega), if_neg (by omega)]

theorem site_sb (u : StId) {x : Nat} (h : x < 0x100) : site (sb u + x) = (6, x) := by
  have e : sb u + x = qb u.quire + (0x1000 + 0x100 * u.st.val + x) := by unfold sb; omega
  rw [e, site_quire _ (by omega), if_pos (by omega), Prod.mk.injEq]
  omega

theorem site_db (q : QuireId) (i : Nat) {x : Nat} (h : x < 0x40) : site (db q i + x) = (7, x) := by
  have e : db q i + x = qb q + (0x5000 + 0x40 * (i % 8) + x) := by unfold db; omega
  rw [e, site_quire _ (by omega), if_neg (by omega), if_pos (by omega), Prod.mk.injEq]
  omega

theorem site_eb (q : QuireId) (i : Nat) {x : Nat} (h : x < 16) : site (eb q i + x) = (8, x) := by
  have e : eb q i + x = qb q + (0x6000 + 16 * (i % 256) + x) := by unfold eb; omega
  rw [e, site_quire _ (by omega), if_neg (by omega), if_neg (by omega), if_pos (by omega), Prod.mk.injEq]
  omega

theorem site_rb (q : QuireId) (i : Nat) {x : Nat} (h : x < 16) : site (rb_ q i + x) = (9, x) := by
  have e : rb_ q i + x = qb q + (0x7000 + 16 * (i % 16) + x) := by unfold rb_; omega
  rw [e, site_quire _ (by omega), if_neg (by omega), if_neg (by omega), if_neg (by omega), if_pos (by omega), Prod.mk.injEq]
  omega

/-! The site of a register given by its block is none of a list, where its offset there is none of them. -/

section
variable {W : List (Nat × Nat)} {x : Nat}

theorem hub_notMem (h : x < 0x1000000 ∧ (0, x) ∉ W) : site (hub + x) ∉ W := site_hub h.1 ▸ h.2

theorem pt_notMem (p : PartId)
    (h : (x < 0x640 ∨ 0x6C0 ≤ x ∧ x < 0x1000 ∨ 0x1800 ≤ x ∧ x < 0x2000 ∨ 0x2200 ≤ x ∧ x < 0x800000) ∧ (1, x) ∉ W) :
    site (pt p + x) ∉ W := site_pt p h.1 ▸ h.2

theorem qb_notMem (q : QuireId) (h : (x < 0x1000 ∨ 0x5200 ≤ x ∧ x < 0x6000 ∨ 0x7100 ≤ x ∧ x < 0x10000) ∧ (5, x) ∉ W) :
    site (qb q + x) ∉ W := site_qb q h.1 ▸ h.2

theorem sb_notMem (u : StId) (h : x < 0x100 ∧ (6, x) ∉ W) : site (sb u + x) ∉ W := site_sb u h.1 ▸ h.2

theorem eb_notMem (q : QuireId) (i : Nat) (h : x < 16 ∧ (8, x) ∉ W) : site (eb q i + x) ∉ W := site_eb q i h.1 ▸ h.2

theorem lb_notMem (p : PartId) (i : Nat) (h : x < 0x10 ∧ (4, x) ∉ W) : site (lb p i + x) ∉ W := site_lb p i h.1 ▸ h.2

end

theorem notMem_of_subset {a : Nat × Nat} {W V : List (Nat × Nat)} (h : a ∉ W) (hs : ∀ x ∈ V, x ∈ W) : a ∉ V :=
  fun m => h (hs a m)

/-! A write at one of the sites `W` leaves a field elsewhere. -/

section
variable {W : List (Nat × Nat)} {s : State} {c : Nat} {k : Fld}

theorem State.f_setF_site (h : site (c + k.reg.off) ∉ W) {b : Nat} {g : Fld} (v : Nat) (hw : site (b + g.reg.off) ∈ W) :
    (s.setF b g v).f c k = s.f c k :=
  s.f_setF_reg v (fun e => h (e ▸ hw))

theorem State.f_wr_site (h : site (c + k.reg.off) ∉ W) {b : Nat} {r : Reg} (v : BitVec 32) (hw : site (b + r.off) ∈ W) :
    (s.wr b r v).f c k = s.f c k := by
  unfold State.f
  rw [s.rd_wr_ne v (fun e => h (e ▸ hw))]

theorem State.f_setF_hub (h : site (c + k.reg.off) ∉ W) {g : Fld} (v : Nat)
    (hw : g.reg.off < 0x1000000 ∧ (0, g.reg.off) ∈ W) :
    (s.setF (hub) g v).f c k = s.f c k :=
  State.f_setF_site h v (site_hub hw.1 ▸ hw.2)

theorem State.f_incF_hub (h : site (c + k.reg.off) ∉ W) {g : Fld} (n : Nat)
    (hw : g.reg.off < 0x1000000 ∧ (0, g.reg.off) ∈ W) :
    (s.incF (hub) g n).f c k = s.f c k :=
  State.f_setF_hub h _ hw

theorem State.f_setF_pt (h : site (c + k.reg.off) ∉ W) (p : PartId) {g : Fld} (v : Nat)
    (hw : (g.reg.off < 0x640 ∨ 0x6C0 ≤ g.reg.off ∧ g.reg.off < 0x1000 ∨ 0x1800 ≤ g.reg.off ∧ g.reg.off < 0x2000 ∨ 0x2200 ≤ g.reg.off ∧ g.reg.off < 0x800000) ∧ (1, g.reg.off) ∈ W) :
    (s.setF (pt p) g v).f c k = s.f c k :=
  State.f_setF_site h v (site_pt p hw.1 ▸ hw.2)

theorem State.f_incF_pt (h : site (c + k.reg.off) ∉ W) (p : PartId) {g : Fld} (n : Nat)
    (hw : (g.reg.off < 0x640 ∨ 0x6C0 ≤ g.reg.off ∧ g.reg.off < 0x1000 ∨ 0x1800 ≤ g.reg.off ∧ g.reg.off < 0x2000 ∨ 0x2200 ≤ g.reg.off ∧ g.reg.off < 0x800000) ∧ (1, g.reg.off) ∈ W) :
    (s.incF (pt p) g n).f c k = s.f c k :=
  State.f_setF_pt h p  _ hw

theorem State.f_setF_ib (h : site (c + k.reg.off) ∉ W) (p : PartId) (i : Nat) {g : Fld} (v : Nat)
    (hw : g.reg.off < 0x20 ∧ (2, g.reg.off) ∈ W) :
    (s.setF (ib p i) g v).f c k = s.f c k :=
  State.f_setF_site h v (site_ib p i hw.1 ▸ hw.2)

theorem State.f_incF_ib (h : site (c + k.reg.off) ∉ W) (p : PartId) (i : Nat) {g : Fld} (n : Nat)
    (hw : g.reg.off < 0x20 ∧ (2, g.reg.off) ∈ W) :
    (s.incF (ib p i) g n).f c k = s.f c k :=
  State.f_setF_ib h p  i  _ hw

theorem State.f_setF_tb (h : site (c + k.reg.off) ∉ W) (p : PartId) (i : Nat) {g : Fld} (v : Nat)
    (hw : g.reg.off < 0x20 ∧ (3, g.reg.off) ∈ W) :
    (s.setF (tb p i) g v).f c k = s.f c k :=
  State.f_setF_site h v (site_tb p i hw.1 ▸ hw.2)

theorem State.f_incF_tb (h : site (c + k.reg.off) ∉ W) (p : PartId) (i : Nat) {g : Fld} (n : Nat)
    (hw : g.reg.off < 0x20 ∧ (3, g.reg.off) ∈ W) :
    (s.incF (tb p i) g n).f c k = s.f c k :=
  State.f_setF_tb h p  i  _ hw

theorem State.f_setF_lb (h : site (c + k.reg.off) ∉ W) (p : PartId) (i : Nat) {g : Fld} (v : Nat)
    (hw : g.reg.off < 0x10 ∧ (4, g.reg.off) ∈ W) :
    (s.setF (lb p i) g v).f c k = s.f c k :=
  State.f_setF_site h v (site_lb p i hw.1 ▸ hw.2)

theorem State.f_incF_lb (h : site (c + k.reg.off) ∉ W) (p : PartId) (i : Nat) {g : Fld} (n : Nat)
    (hw : g.reg.off < 0x10 ∧ (4, g.reg.off) ∈ W) :
    (s.incF (lb p i) g n).f c k = s.f c k :=
  State.f_setF_lb h p  i  _ hw

theorem State.f_setF_qb (h : site (c + k.reg.off) ∉ W) (q : QuireId) {g : Fld} (v : Nat)
    (hw : (g.reg.off < 0x1000 ∨ 0x5200 ≤ g.reg.off ∧ g.reg.off < 0x6000 ∨ 0x7100 ≤ g.reg.off ∧ g.reg.off < 0x10000) ∧ (5, g.reg.off) ∈ W) :
    (s.setF (qb q) g v).f c k = s.f c k :=
  State.f_setF_site h v (site_qb q hw.1 ▸ hw.2)

theorem State.f_incF_qb (h : site (c + k.reg.off) ∉ W) (q : QuireId) {g : Fld} (n : Nat)
    (hw : (g.reg.off < 0x1000 ∨ 0x5200 ≤ g.reg.off ∧ g.reg.off < 0x6000 ∨ 0x7100 ≤ g.reg.off ∧ g.reg.off < 0x10000) ∧ (5, g.reg.off) ∈ W) :
    (s.incF (qb q) g n).f c k = s.f c k :=
  State.f_setF_qb h q  _ hw

theorem State.f_setF_sb (h : site (c + k.reg.off) ∉ W) (u : StId) {g : Fld} (v : Nat)
    (hw : g.reg.off < 0x100 ∧ (6, g.reg.off) ∈ W) :
    (s.setF (sb u) g v).f c k = s.f c k :=
  State.f_setF_site h v (site_sb u hw.1 ▸ hw.2)

theorem State.f_incF_sb (h : site (c + k.reg.off) ∉ W) (u : StId) {g : Fld} (n : Nat)
    (hw : g.reg.off < 0x100 ∧ (6, g.reg.off) ∈ W) :
    (s.incF (sb u) g n).f c k = s.f c k :=
  State.f_setF_sb h u  _ hw

theorem State.f_setF_eb (h : site (c + k.reg.off) ∉ W) (q : QuireId) (i : Nat) {g : Fld} (v : Nat)
    (hw : g.reg.off < 16 ∧ (8, g.reg.off) ∈ W) :
    (s.setF (eb q i) g v).f c k = s.f c k :=
  State.f_setF_site h v (site_eb q i hw.1 ▸ hw.2)

theorem State.f_incF_eb (h : site (c + k.reg.off) ∉ W) (q : QuireId) (i : Nat) {g : Fld} (n : Nat)
    (hw : g.reg.off < 16 ∧ (8, g.reg.off) ∈ W) :
    (s.incF (eb q i) g n).f c k = s.f c k :=
  State.f_setF_eb h q  i  _ hw

theorem State.f_wr_hub (h : site (c + k.reg.off) ∉ W) {r : Reg} (v : BitVec 32)
    (hw : r.off < 0x1000000 ∧ (0, r.off) ∈ W) :
    (s.wr (hub) r v).f c k = s.f c k :=
  State.f_wr_site h v (site_hub hw.1 ▸ hw.2)

theorem State.f_wr_pt (h : site (c + k.reg.off) ∉ W) (p : PartId) {r : Reg} (v : BitVec 32)
    (hw : (r.off < 0x640 ∨ 0x6C0 ≤ r.off ∧ r.off < 0x1000 ∨ 0x1800 ≤ r.off ∧ r.off < 0x2000 ∨ 0x2200 ≤ r.off ∧ r.off < 0x800000) ∧ (1, r.off) ∈ W) :
    (s.wr (pt p) r v).f c k = s.f c k :=
  State.f_wr_site h v (site_pt p hw.1 ▸ hw.2)

theorem State.f_wr_qb (h : site (c + k.reg.off) ∉ W) (q : QuireId) {r : Reg} (v : BitVec 32)
    (hw : (r.off < 0x1000 ∨ 0x5200 ≤ r.off ∧ r.off < 0x6000 ∨ 0x7100 ≤ r.off ∧ r.off < 0x10000) ∧ (5, r.off) ∈ W) :
    (s.wr (qb q) r v).f c k = s.f c k :=
  State.f_wr_site h v (site_qb q hw.1 ▸ hw.2)

theorem State.f_wr_lb (h : site (c + k.reg.off) ∉ W) (p : PartId) (i : Nat) {r : Reg} (v : BitVec 32)
    (hw : r.off < 0x10 ∧ (4, r.off) ∈ W) :
    (s.wr (lb p i) r v).f c k = s.f c k :=
  State.f_wr_site h v (site_lb p i hw.1 ▸ hw.2)

theorem State.f_wr_tb (h : site (c + k.reg.off) ∉ W) (p : PartId) (i : Nat) {r : Reg} (v : BitVec 32)
    (hw : r.off < 0x20 ∧ (3, r.off) ∈ W) :
    (s.wr (tb p i) r v).f c k = s.f c k :=
  State.f_wr_site h v (site_tb p i hw.1 ▸ hw.2)

end

theorem State.f_updPart (s : State) (p : PartId) (g : Part → Part) (b : Nat) (k : Fld) :
    (s.updPart p g).f b k = s.f b k := (rfl)

theorem State.f_updQu (s : State) (q : QuireId) (g : Quire → Quire) (b : Nat) (k : Fld) :
    (s.updQu q g).f b k = s.f b k := (rfl)

theorem State.f_updSt (s : State) (u : StId) (g : Stitcher → Stitcher) (b : Nat) (k : Fld) :
    (s.updSt u g).f b k = s.f b k := (rfl)

theorem State.f_mk {s : State} {pending now timeBase freeCount latches stitchers quires parts flights creditFlights
    srcs mem memMark triggers trackers charges mgn dramFixes sparesUsed remaps notices comps ctlPage cmdArea bar2 msix extents
    filter snoops readWait hostData links spine spNext regAns halfChg thermal staging stageLostAt stageLostN recNext mapCopies
    mapBefore runs tested pulseEnd ioNext tickIn stew} (b : Nat) (k : Fld) :
    State.f ⟨pending, now, timeBase, freeCount, s.regs, latches, stitchers, quires, parts, flights, creditFlights,
      srcs, mem, memMark, triggers, trackers, charges, mgn, dramFixes, sparesUsed, remaps, notices, comps, ctlPage, cmdArea,
      bar2, msix, extents, filter, snoops, readWait, hostData, links, spine, spNext, regAns, halfChg, thermal, staging,
      stageLostAt, stageLostN, recNext, mapCopies, mapBefore, runs, tested, pulseEnd, ioNext, tickIn, stew⟩ b k = s.f b k :=
  (rfl)

theorem State.f_ite {c : Prop} [Decidable c] {x y : State} (b : Nat) (k : Fld) :
    State.f (if c then x else y) b k = if c then x.f b k else y.f b k := by
  split <;> rfl

theorem State.f_foldl {α : Type} {g : State → α → State} {s : State} {b : Nat} {k : Fld}
    (step : ∀ s a, (g s a).f b k = s.f b k) (xs : List α) : (xs.foldl g s).f b k = s.f b k :=
  State.foldl_rest (fun t => t.f b k) g step xs s

theorem State.f_waitNs (s : State) (n b : Nat) (k : Fld) : (s.waitNs n).f b k = s.f b k := by
  simp only [State.f, State.rd, State.regs_of_butTime (s.waitNs_rest n)]

theorem State.f_waitCycle (s : State) (p : PartId) (c b : Nat) (k : Fld) : (s.waitCycle p c).f b k = s.f b k := by
  simp only [State.f, State.rd, State.regs_of_butTime (s.waitCycle_rest p c)]

/-- The site of the partitions' counts of lost records, which an event may change. -/
theorem State.f_raise (s : State) (x : Src) (code sev : Nat) (cap : List Nat) {b : Nat} {k : Fld}
    (h : site (b + k.reg.off) ∉ [(1, 0xB00)]) : (s.raise x code sev cap).f b k = s.f b k :=
  s.raise_f x code sev cap b k fun ⟨a, e⟩ => h (by
    unfold site
    rw [if_neg (by omega)]
    simp only [e]
    decide)

theorem State.f_ev (s : State) (x : Src) (code : Nat) (cap : List Nat) {b : Nat} {k : Fld}
    (h : site (b + k.reg.off) ∉ [(1, 0xB00)]) : (s.ev x code cap).f b k = s.f b k :=
  s.f_raise x code (evSev code) cap h

theorem State.f_complete (s : State) (n : Notice) (status result : Nat) {b : Nat} {k : Fld}
    (h : site (b + k.reg.off) ∉ [(1, R.MB_STAT.off), (1, R.MB_PEND.off)]) :
    (s.complete n status result).f b k = s.f b k := by
  have at_ {off : Nat} (ho : off = R.MB_STAT.off ∨ off = R.MB_PEND.off) (a : atBlockOffset (b + k.reg.off) off) :
      site (b + k.reg.off) = (1, off) := by
    obtain ⟨a, e⟩ := a
    unfold site
    rw [if_neg (by omega)]
    simp only [e]
    rcases ho with rfl | rfl <;> decide
  exact s.complete_f n status result b k (fun a => h (by rw [at_ (.inl rfl) a]; decide))
    (fun a => h (by rw [at_ (.inr rfl) a]; decide))

end Sys2Proof.Machine
end

section
namespace Sys2Proof.Machine

-- Proved in parallel, these proofs hold a thread each, whose stacks pass the check's memory.
set_option Elab.async false

/-! ## What leaves the steward, the holds and the recoveries of the partitions as they are -/

theorem State.stew_mk {s : State} {pending now timeBase freeCount regs latches stitchers quires parts flights creditFlights
    srcs mem memMark triggers trackers charges mgn dramFixes sparesUsed remaps notices comps ctlPage cmdArea bar2 msix extents
    filter snoops readWait hostData links spine spNext regAns halfChg thermal staging stageLostAt stageLostN recNext mapCopies
    mapBefore runs tested pulseEnd ioNext tickIn} :
State.stew ⟨pending, now, timeBase, freeCount, regs, latches, stitchers, quires, parts, flights, creditFlights, srcs, mem,
      memMark, triggers, trackers, charges, mgn, dramFixes, sparesUsed, remaps, notices, comps, ctlPage, cmdArea, bar2, msix,
      extents, filter, snoops, readWait, hostData, links, spine, spNext, regAns, halfChg, thermal, staging, stageLostAt,
      stageLostN, recNext, mapCopies, mapBefore, runs, tested, pulseEnd, ioNext, tickIn, s.stew⟩ = s.stew := (rfl)

theorem State.stew_ite {c : Prop} [Decidable c] {a b : State} :
    State.stew (if c then a else b) = if c then a.stew else b.stew := by
  split <;> rfl

theorem State.stew_foldl {α : Type} {g : State → α → State} {s : State} (step : ∀ s a, (g s a).stew = s.stew)
    (xs : List α) : (xs.foldl g s).stew = s.stew :=
  State.foldl_rest State.stew g step xs s

theorem State.stew_setSt (s : State) (u : StId) (x : Stitcher) : (s.setSt u x).stew = s.stew := (rfl)

theorem State.stew_updSt (s : State) (u : StId) (f : Stitcher → Stitcher) : (s.updSt u f).stew = s.stew := (rfl)

theorem State.stew_setQu (s : State) (q : QuireId) (x : Quire) : (s.setQu q x).stew = s.stew := (rfl)

theorem State.stew_updQu (s : State) (q : QuireId) (f : Quire → Quire) : (s.updQu q f).stew = s.stew := (rfl)

theorem State.stew_setPart (s : State) (p : PartId) (x : Part) : (s.setPart p x).stew = s.stew := (rfl)

theorem State.stew_updPart (s : State) (p : PartId) (f : Part → Part) : (s.updPart p f).stew = s.stew := (rfl)

theorem State.stew_setSrc (s : State) (x : Src) (v : SrcSt) : (s.setSrc x v).stew = s.stew := (rfl)

theorem State.stew_updSrc (s : State) (x : Src) (f : SrcSt → SrcSt) : (s.updSrc x f).stew = s.stew := (rfl)

theorem State.stew_wr (s : State) (b : Nat) (r : Reg) (v : BitVec 32) : (s.wr b r v).stew = s.stew := (rfl)

theorem State.stew_setF (s : State) (b : Nat) (g : Fld) (v : Nat) : (s.setF b g v).stew = s.stew := (rfl)

theorem State.stew_incF (s : State) (b : Nat) (g : Fld) (n : Nat) : (s.incF b g n).stew = s.stew := (rfl)

theorem State.stew_setCnt (s : State) (b : Nat) (lo hi : Reg) (v : Nat) : (s.setCnt b lo hi v).stew = s.stew := (rfl)

theorem State.stew_raise (s : State) (x : Src) (code sev : Nat) (cap : List Nat) : (s.raise x code sev cap).stew = s.stew :=
  State.stew_of_butEvents (s.raise_rest x code sev cap)

theorem State.stew_ev (s : State) (x : Src) (code : Nat) (cap : List Nat) : (s.ev x code cap).stew = s.stew :=
  s.stew_raise x code (evSev code) cap

theorem State.stew_complete (s : State) (n : Notice) (status result : Nat) : (s.complete n status result).stew = s.stew :=
  State.stew_of_butNotices (s.complete_rest n status result)

theorem State.stew_settle (s : State) (p : PartId) : (s.settle p).stew = s.stew := by
  simp only [State.settle, State.stew_ite, ite_self, implies_true, State.stew_updPart, State.stew_setF]

theorem State.stew_settleAll (s : State)  : (s.settleAll).stew = s.stew := by
  simp only [State.settleAll, implies_true, State.stew_foldl, State.stew_settle]

theorem State.stew_completeActing (s : State) (p : PartId) (bit result : Nat) :
    (s.completeActing p bit result).stew = s.stew := by
  simp only [State.completeActing, implies_true, State.stew_foldl, State.stew_complete]

theorem State.stew_showHeld (s : State) (p : PartId) : (s.showHeld p).stew = s.stew := by
  simp only [State.showHeld, State.stew_ite, ite_self, State.stew_setF, State.stew_completeActing]

theorem State.stew_noteHold (s : State) (p : PartId) : (s.noteHold p).stew = s.stew := by
  simp only [State.noteHold, implies_true, State.stew_updPart, State.stew_showHeld]

theorem State.stew_addHold (s : State) (p : PartId) (c : HoldCause) : (s.addHold p c).stew = s.stew := by
  simp only [State.addHold, implies_true, State.stew_updPart, State.stew_noteHold]

theorem State.stew_abortSpans (s : State) (p : PartId) : (s.abortSpans p).stew = s.stew := by
  simp only [State.abortSpans, State.stew_mk, State.stew_ite, ite_self, implies_true, State.stew_foldl, State.stew_updQu,
    State.stew_settleAll]

theorem State.stew_showFences (s : State) (p : PartId) : (s.showFences p).stew = s.stew := by
  simp only [State.showFences, implies_true, State.stew_foldl, State.stew_setF]

theorem State.stew_raiseFence (s : State) (p : PartId) (reason : Nat) : (s.raiseFence p reason).stew = s.stew := by
  simp only [State.raiseFence, State.stew_ite, ite_self, State.stew_setF, State.stew_ev, State.stew_abortSpans,
    State.stew_showFences]

theorem State.stew_endCmd (s : State) (k : Nat × Nat) (status result : Nat) : (s.endCmd k status result).stew = s.stew := by
  unfold State.endCmd
  split <;> simp only [State.stew_complete]

theorem State.stew_abortTests (s : State) (p : PartId) : (s.abortTests p).stew = s.stew := by
  simp only [State.abortTests, implies_true, State.stew_foldl, State.stew_updPart, State.stew_endCmd]
/-- The `holds` of every partition. -/
def State.holdsOf (s : State) (r : PartId) := (s.part r).holds

theorem State.holds_mk {s : State} {pending now timeBase freeCount regs latches stitchers quires flights creditFlights srcs
    mem memMark triggers trackers charges mgn dramFixes sparesUsed remaps notices comps ctlPage cmdArea bar2 msix extents
    filter snoops readWait hostData links spine spNext regAns halfChg thermal staging stageLostAt stageLostN recNext mapCopies
    mapBefore runs tested pulseEnd ioNext tickIn stew} :
State.holdsOf ⟨pending, now, timeBase, freeCount, regs, latches, stitchers, quires, s.parts, flights, creditFlights, srcs,
      mem, memMark, triggers, trackers, charges, mgn, dramFixes, sparesUsed, remaps, notices, comps, ctlPage, cmdArea, bar2,
      msix, extents, filter, snoops, readWait, hostData, links, spine, spNext, regAns, halfChg, thermal, staging, stageLostAt,
      stageLostN, recNext, mapCopies, mapBefore, runs, tested, pulseEnd, ioNext, tickIn, stew⟩ = s.holdsOf := (rfl)

theorem State.holds_ite {c : Prop} [Decidable c] {a b : State} :
    State.holdsOf (if c then a else b) = if c then a.holdsOf else b.holdsOf := by
  split <;> rfl

theorem State.holds_foldl {α : Type} {g : State → α → State} {s : State} (step : ∀ s a, (g s a).holdsOf = s.holdsOf)
    (xs : List α) : (xs.foldl g s).holdsOf = s.holdsOf :=
  State.foldl_rest State.holdsOf g step xs s

theorem State.holds_setSt (s : State) (u : StId) (x : Stitcher) : (s.setSt u x).holdsOf = s.holdsOf := (rfl)

theorem State.holds_updSt (s : State) (u : StId) (f : Stitcher → Stitcher) : (s.updSt u f).holdsOf = s.holdsOf := (rfl)

theorem State.holds_setQu (s : State) (q : QuireId) (x : Quire) : (s.setQu q x).holdsOf = s.holdsOf := (rfl)

theorem State.holds_updQu (s : State) (q : QuireId) (f : Quire → Quire) : (s.updQu q f).holdsOf = s.holdsOf := (rfl)

theorem State.holds_setSrc (s : State) (x : Src) (v : SrcSt) : (s.setSrc x v).holdsOf = s.holdsOf := (rfl)

theorem State.holds_updSrc (s : State) (x : Src) (f : SrcSt → SrcSt) : (s.updSrc x f).holdsOf = s.holdsOf := (rfl)

theorem State.holds_wr (s : State) (b : Nat) (r : Reg) (v : BitVec 32) : (s.wr b r v).holdsOf = s.holdsOf := (rfl)

theorem State.holds_setF (s : State) (b : Nat) (g : Fld) (v : Nat) : (s.setF b g v).holdsOf = s.holdsOf := (rfl)

theorem State.holds_incF (s : State) (b : Nat) (g : Fld) (n : Nat) : (s.incF b g n).holdsOf = s.holdsOf := (rfl)

theorem State.holds_setCnt (s : State) (b : Nat) (lo hi : Reg) (v : Nat) : (s.setCnt b lo hi v).holdsOf = s.holdsOf := (rfl)

theorem State.holds_updPart (s : State) (p : PartId) (k : Part → Part) (h : ∀ x, (k x).holds = x.holds) :
    (s.updPart p k).holdsOf = s.holdsOf := by
  funext r
  unfold State.holdsOf
  by_cases e : r = p
  · rw [e, State.part_updPart_same, h]
  · rw [State.part_updPart_ne _ _ e]

theorem State.holds_of_parts {s t : State} (h : t.parts = s.parts) : t.holdsOf = s.holdsOf := by
  funext r
  unfold State.holdsOf State.part
  rw [h]

theorem State.holds_raise (s : State) (x : Src) (code sev : Nat) (cap : List Nat) : (s.raise x code sev cap).holdsOf = s.holdsOf :=
  State.holds_of_parts (State.parts_of_butEvents (s.raise_rest x code sev cap))

theorem State.holds_ev (s : State) (x : Src) (code : Nat) (cap : List Nat) : (s.ev x code cap).holdsOf = s.holdsOf :=
  s.holds_raise x code (evSev code) cap

theorem State.holds_complete (s : State) (n : Notice) (status result : Nat) : (s.complete n status result).holdsOf = s.holdsOf :=
  State.holds_of_parts (State.parts_of_butNotices (s.complete_rest n status result))

theorem State.holds_settle (s : State) (p : PartId) : (s.settle p).holdsOf = s.holdsOf := by
  simp only [State.settle, State.holds_ite, ite_self, implies_true, State.holds_updPart, State.holds_setF]

theorem State.holds_settleAll (s : State)  : (s.settleAll).holdsOf = s.holdsOf := by
  simp only [State.settleAll, implies_true, State.holds_foldl, State.holds_settle]

theorem State.holds_completeActing (s : State) (p : PartId) (bit result : Nat) :
    (s.completeActing p bit result).holdsOf = s.holdsOf := by
  simp only [State.completeActing, implies_true, State.holds_foldl, State.holds_complete]

theorem State.holds_showHeld (s : State) (p : PartId) : (s.showHeld p).holdsOf = s.holdsOf := by
  simp only [State.showHeld, State.holds_ite, ite_self, State.holds_setF, State.holds_completeActing]

theorem State.holds_noteHold (s : State) (p : PartId) : (s.noteHold p).holdsOf = s.holdsOf := by
  simp only [State.noteHold, implies_true, State.holds_updPart, State.holds_showHeld]

theorem State.holds_abortSpans (s : State) (p : PartId) : (s.abortSpans p).holdsOf = s.holdsOf := by
  simp only [State.abortSpans, State.holds_mk, State.holds_ite, ite_self, implies_true, State.holds_foldl, State.holds_updQu,
    State.holds_settleAll]

theorem State.holds_showFences (s : State) (p : PartId) : (s.showFences p).holdsOf = s.holdsOf := by
  simp only [State.showFences, implies_true, State.holds_foldl, State.holds_setF]

theorem State.holds_raiseFence (s : State) (p : PartId) (reason : Nat) : (s.raiseFence p reason).holdsOf = s.holdsOf := by
  simp only [State.raiseFence, State.holds_ite, ite_self, State.holds_setF, State.holds_ev, State.holds_abortSpans,
    State.holds_showFences]

theorem State.holds_endCmd (s : State) (k : Nat × Nat) (status result : Nat) : (s.endCmd k status result).holdsOf = s.holdsOf := by
  unfold State.endCmd
  split <;> simp only [State.holds_complete]

theorem State.holds_abortTests (s : State) (p : PartId) : (s.abortTests p).holdsOf = s.holdsOf := by
  simp only [State.abortTests, implies_true, State.holds_foldl, State.holds_updPart, State.holds_endCmd]
/-- The `recovery` of every partition. -/
def State.recoveries (s : State) (r : PartId) := (s.part r).recovery

theorem State.recov_mk {s : State} {pending now timeBase freeCount regs latches stitchers quires flights creditFlights srcs
    mem memMark triggers trackers charges mgn dramFixes sparesUsed remaps notices comps ctlPage cmdArea bar2 msix extents
    filter snoops readWait hostData links spine spNext regAns halfChg thermal staging stageLostAt stageLostN recNext mapCopies
    mapBefore runs tested pulseEnd ioNext tickIn stew} :
State.recoveries ⟨pending, now, timeBase, freeCount, regs, latches, stitchers, quires, s.parts, flights, creditFlights, srcs,
      mem, memMark, triggers, trackers, charges, mgn, dramFixes, sparesUsed, remaps, notices, comps, ctlPage, cmdArea, bar2,
      msix, extents, filter, snoops, readWait, hostData, links, spine, spNext, regAns, halfChg, thermal, staging, stageLostAt,
      stageLostN, recNext, mapCopies, mapBefore, runs, tested, pulseEnd, ioNext, tickIn, stew⟩ = s.recoveries := (rfl)

theorem State.recov_ite {c : Prop} [Decidable c] {a b : State} :
    State.recoveries (if c then a else b) = if c then a.recoveries else b.recoveries := by
  split <;> rfl

theorem State.recov_foldl {α : Type} {g : State → α → State} {s : State} (step : ∀ s a, (g s a).recoveries = s.recoveries)
    (xs : List α) : (xs.foldl g s).recoveries = s.recoveries :=
  State.foldl_rest State.recoveries g step xs s

theorem State.recov_setSt (s : State) (u : StId) (x : Stitcher) : (s.setSt u x).recoveries = s.recoveries := (rfl)

theorem State.recov_updSt (s : State) (u : StId) (f : Stitcher → Stitcher) : (s.updSt u f).recoveries = s.recoveries := (rfl)

theorem State.recov_setQu (s : State) (q : QuireId) (x : Quire) : (s.setQu q x).recoveries = s.recoveries := (rfl)

theorem State.recov_updQu (s : State) (q : QuireId) (f : Quire → Quire) : (s.updQu q f).recoveries = s.recoveries := (rfl)

theorem State.recov_setSrc (s : State) (x : Src) (v : SrcSt) : (s.setSrc x v).recoveries = s.recoveries := (rfl)

theorem State.recov_updSrc (s : State) (x : Src) (f : SrcSt → SrcSt) : (s.updSrc x f).recoveries = s.recoveries := (rfl)

theorem State.recov_wr (s : State) (b : Nat) (r : Reg) (v : BitVec 32) : (s.wr b r v).recoveries = s.recoveries := (rfl)

theorem State.recov_setF (s : State) (b : Nat) (g : Fld) (v : Nat) : (s.setF b g v).recoveries = s.recoveries := (rfl)

theorem State.recov_incF (s : State) (b : Nat) (g : Fld) (n : Nat) : (s.incF b g n).recoveries = s.recoveries := (rfl)

theorem State.recov_setCnt (s : State) (b : Nat) (lo hi : Reg) (v : Nat) : (s.setCnt b lo hi v).recoveries = s.recoveries := (rfl)

theorem State.recov_updPart (s : State) (p : PartId) (k : Part → Part) (h : ∀ x, (k x).recovery = x.recovery) :
    (s.updPart p k).recoveries = s.recoveries := by
  funext r
  unfold State.recoveries
  by_cases e : r = p
  · rw [e, State.part_updPart_same, h]
  · rw [State.part_updPart_ne _ _ e]

theorem State.recov_of_parts {s t : State} (h : t.parts = s.parts) : t.recoveries = s.recoveries := by
  funext r
  unfold State.recoveries State.part
  rw [h]

theorem State.recov_raise (s : State) (x : Src) (code sev : Nat) (cap : List Nat) : (s.raise x code sev cap).recoveries = s.recoveries :=
  State.recov_of_parts (State.parts_of_butEvents (s.raise_rest x code sev cap))

theorem State.recov_ev (s : State) (x : Src) (code : Nat) (cap : List Nat) : (s.ev x code cap).recoveries = s.recoveries :=
  s.recov_raise x code (evSev code) cap

theorem State.recov_complete (s : State) (n : Notice) (status result : Nat) : (s.complete n status result).recoveries = s.recoveries :=
  State.recov_of_parts (State.parts_of_butNotices (s.complete_rest n status result))

theorem State.recov_settle (s : State) (p : PartId) : (s.settle p).recoveries = s.recoveries := by
  simp only [State.settle, State.recov_ite, ite_self, implies_true, State.recov_updPart, State.recov_setF]

theorem State.recov_settleAll (s : State)  : (s.settleAll).recoveries = s.recoveries := by
  simp only [State.settleAll, implies_true, State.recov_foldl, State.recov_settle]

theorem State.recov_completeActing (s : State) (p : PartId) (bit result : Nat) :
    (s.completeActing p bit result).recoveries = s.recoveries := by
  simp only [State.completeActing, implies_true, State.recov_foldl, State.recov_complete]

theorem State.recov_showHeld (s : State) (p : PartId) : (s.showHeld p).recoveries = s.recoveries := by
  simp only [State.showHeld, State.recov_ite, ite_self, State.recov_setF, State.recov_completeActing]

theorem State.recov_noteHold (s : State) (p : PartId) : (s.noteHold p).recoveries = s.recoveries := by
  simp only [State.noteHold, implies_true, State.recov_updPart, State.recov_showHeld]

theorem State.recov_addHold (s : State) (p : PartId) (c : HoldCause) : (s.addHold p c).recoveries = s.recoveries := by
  simp only [State.addHold, implies_true, State.recov_updPart, State.recov_noteHold]

theorem State.recov_abortSpans (s : State) (p : PartId) : (s.abortSpans p).recoveries = s.recoveries := by
  simp only [State.abortSpans, State.recov_mk, State.recov_ite, ite_self, implies_true, State.recov_foldl, State.recov_updQu,
    State.recov_settleAll]

theorem State.recov_showFences (s : State) (p : PartId) : (s.showFences p).recoveries = s.recoveries := by
  simp only [State.showFences, implies_true, State.recov_foldl, State.recov_setF]

theorem State.recov_raiseFence (s : State) (p : PartId) (reason : Nat) : (s.raiseFence p reason).recoveries = s.recoveries := by
  simp only [State.raiseFence, State.recov_ite, ite_self, State.recov_setF, State.recov_ev, State.recov_abortSpans,
    State.recov_showFences]

theorem State.recov_endCmd (s : State) (k : Nat × Nat) (status result : Nat) : (s.endCmd k status result).recoveries = s.recoveries := by
  unfold State.endCmd
  split <;> simp only [State.recov_complete]

theorem State.recov_abortTests (s : State) (p : PartId) : (s.abortTests p).recoveries = s.recoveries := by
  simp only [State.abortTests, implies_true, State.recov_foldl, State.recov_updPart, State.recov_endCmd]

end Sys2Proof.Machine
end

section
namespace Sys2Proof.Machine

-- Proved in parallel, these proofs hold a thread each, whose stacks pass the check's memory.
set_option Elab.async false

/-! ## Extents of dynamic capacity (O47) -/

/-- An extent that nobody waits for ends without a completion. -/
theorem State.endExtent_of_none (s : State) {e : Extent} (h : e.by_ = none) (status : Nat) : s.endExtent e status = s := by
  unfold State.endExtent
  rw [h]

/-- The extent that DC_LEND offers. -/
def lentExtent (ld target : LdId) (p : PartId) (slot : Fin 4096) (pma : BitVec 38) : Extent :=
  { ld := target.val, part := p, pma := pma.toNat, slot := slot.val, offered := true, recallBy := none, by_ := some ld.val }

/-- DC_LEND offers an extent at rest. -/
theorem execDcLend_offers {ld target : LdId} {p : PartId} {slot : Fin 4096} {pma : BitVec 38} {n : Notice} {s : State}
    (h : commanded s ld 0x0601 n) (dc : s.f hub F.LC_FEATURES_dc = 1) (rest : s.recovering p = false)
    (present : s.f hub (F.CX_LD_BIND_present.nth target.val) = 1) (enabled : s.enabled p = true)
    (live : s.f (pt p) F.RS_STATUS_withdrawn = 0) (holder : s.ldOf p = none ∨ s.bound target p = true)
    (aligned : pma.toNat % extentBytes = 0) (inside : pma.toNat + extentBytes ≤ progEnd)
    (free : s.extentAt target.val slot.val = none) (unlent : ∀ e ∈ s.extents, e.part = p → e.pma ≠ pma.toNat) :
    execDcLend ld target p slot pma s = .next { s.acting ld 0x0601 target.val n with
      extents := s.extents ++ [lentExtent ld target p slot pma] } := by
  have hlive := (s.acting_pt ld 0x0601 target.val n p (g := F.RS_STATUS_withdrawn) (by decide) (by decide)).trans live
  have hany : s.extents.any (fun e => decide (e.part = p) && decide (e.pma = pma.toNat)) = false := by
    simpa using unlent
  have hholder : ¬ ((s.ldOf p).isSome = true ∧ s.bound target p = false) := by
    rcases holder with h | h <;> simp [h]
  unfold execDcLend
  rw [State.command_of_commanded h]
  simp only [s.acting_hub ld 0x0601 target.val n (g := F.LC_FEATURES_dc) (by decide), dc, State.acting_recovering, rest,
    State.acting_CX_LD_BIND_present, present, State.acting_enabled, enabled, hlive, State.acting_ldOf, State.acting_bound,
    hholder, aligned, Nat.not_lt.mpr inside, State.acting_extentAt, free, State.acting_extents, hany]
  simp [lentExtent]

theorem execDcRecall_recalls {ld target : LdId} {slot : Fin 4096} {n : Notice} {e : Extent} {s : State}
    (h : commanded s ld 0x0602 n) (found : s.extentAt target.val slot.val = some e) (taken : e.offered = false)
    (quiet : e.recallBy = none) :
    execDcRecall ld target slot s = .next ((s.acting ld 0x0602 target.val n).setExtent e
      { e with recallBy := some (s.ns + 10000000000), by_ := some ld.val }) := by
  unfold execDcRecall
  rw [State.command_of_commanded h]
  simp only [State.acting_extentAt, found, taken, quiet, State.acting_ns]
  simp

/-- What an operation on an extent keeps: the memories and the partitions. -/
theorem setExtent_keeps (s : State) (e f : Extent) : MemoriesKept s (s.setExtent e f) ∧ (s.setExtent e f).parts = s.parts :=
  ⟨memoriesKept_of_lists rfl rfl rfl, rfl⟩

/-- A count of extents changes a register alone. -/
theorem countExtents_keeps (s : State) (l : Nat) : MemoriesKept s (s.countExtents l) ∧ (s.countExtents l).parts = s.parts ∧
    (s.countExtents l).extents = s.extents :=
  ⟨memoriesKept_of (State.memories_setF ..), State.setF_parts .., State.setF_extents ..⟩

/-- The acceptance of an offer that nobody waits for: the extent stands. -/
theorem execDcExtentResponse_accept {ld : LdId} {slot : Fin 4096} {e : Extent} {s : State}
    (found : s.extentAt ld.val slot.val = some e) (offered : e.offered = true) (alone : e.by_ = none) :
    execDcExtentResponse ld slot true s =
      .next ((s.setExtent e { e with offered := false, by_ := none }).countExtents ld.val) := by
  unfold execDcExtentResponse
  rw [found]
  dsimp only
  rw [if_pos offered, if_pos rfl, State.endExtent_of_none _ alone]

/-- An offer that is declined: the extent is gone. -/
theorem execDcExtentResponse_decline {ld : LdId} {slot : Fin 4096} {e : Extent} {s : State}
    (found : s.extentAt ld.val slot.val = some e) (offered : e.offered = true) (alone : e.by_ = none) :
    execDcExtentResponse ld slot false s = .next { s with extents := s.extents.erase e } := by
  unfold execDcExtentResponse
  rw [found]
  dsimp only
  rw [if_pos offered, if_neg (by decide), State.endExtent_of_none _ alone]

/-- The release of a recalled extent: the extent and the tracked lines of its window are gone. -/
theorem execDcExtentResponse_release {ld : LdId} {slot : Fin 4096} {e : Extent} {s : State}
    (found : s.extentAt ld.val slot.val = some e) (taken : e.offered = false) (recalled : e.recallBy.isSome = true)
    (alone : e.by_ = none) :
    ∃ lines, execDcExtentResponse ld slot true s =
      .next ({ s with extents := s.extents.erase e, filter := lines }.countExtents ld.val) := by
  have hr : ¬ (e.recallBy.isNone = true ∨ true = false) := by
    simpa using Option.isSome_iff_ne_none.mp recalled
  unfold execDcExtentResponse
  rw [found]
  dsimp only
  rw [if_neg (by simp [taken]), if_neg hr, State.endExtent_of_none _ alone]
  exact ⟨_, rfl⟩

/-- A recall whose ten seconds have passed leaves the extent lent. -/
theorem execDcRecallTimeout_keeps {ld : LdId} {slot : Fin 4096} {e : Extent} {b : Nat} {s : State}
    (found : s.extentAt ld.val slot.val = some e) (recalled : e.recallBy = some b) (due : b ≤ s.ns) (alone : e.by_ = none) :
    execDcRecallTimeout ld slot s = .next (s.setExtent e { e with recallBy := none, by_ := none }) := by
  unfold execDcRecallTimeout
  rw [found]
  dsimp only
  rw [recalled]
  dsimp only
  rw [State.waitNs_of_le s due, State.endExtent_of_none _ alone]

/-- Settles O47. -/
theorem capacity : Obligations.Capacity := by
  unfold Obligations.Capacity
  refine ⟨?lend, ?answer, ?release, ?called, ?timeout⟩
  case lend =>
    intro ld target p slot pma n s h dc rest present enabled live holder aligned inside free unlent
    exact ⟨_, _, execDcLend_offers h dc rest present enabled live holder aligned inside free unlent, rfl, rfl, rfl, rfl, rfl,
      rfl, rfl, s.acting_comps ld 0x0601 target.val n, memoriesKept_of (s.memories_acting ld 0x0601 target.val n), s.acting_parts ld 0x0601 target.val n⟩
  case answer =>
    intro ld slot e s found offered alone
    obtain ⟨kept, parts, extents⟩ := countExtents_keeps (s.setExtent e { e with offered := false, by_ := none }) ld.val
    obtain ⟨kept', parts'⟩ := setExtent_keeps s e { e with offered := false, by_ := none }
    exact ⟨⟨_, execDcExtentResponse_accept found offered alone, kept'.trans kept, parts.trans parts', extents⟩,
      ⟨_, execDcExtentResponse_decline found offered alone, rfl, memoriesKept_of_lists rfl rfl rfl, rfl⟩⟩
  case release =>
    intro ld slot e s found taken recalled alone
    obtain ⟨lines, run⟩ := execDcExtentResponse_release found taken recalled alone
    obtain ⟨kept, parts, extents⟩ := countExtents_keeps { s with extents := s.extents.erase e, filter := lines } ld.val
    exact ⟨_, run, extents, kept, parts⟩
  case called =>
    intro ld target slot n e s h found taken quiet
    have kept := setExtent_keeps (s.acting ld 0x0602 target.val n) e
      { e with recallBy := some (s.ns + 10000000000), by_ := some ld.val }
    refine ⟨_, execDcRecall_recalls h found taken quiet, s.acting_comps ld 0x0602 target.val n,
      (memoriesKept_of (s.memories_acting ld 0x0602 target.val n)).trans kept.1, kept.2.trans (s.acting_parts ld 0x0602 target.val n), ?_⟩
    unfold State.setExtent
    rw [State.acting_extents]
  case timeout =>
    intro ld slot e b s found recalled due alone
    obtain ⟨kept, parts⟩ := setExtent_keeps s e { e with recallBy := none, by_ := none }
    exact ⟨_, execDcRecallTimeout_keeps found recalled due alone, kept, parts, rfl⟩

end Sys2Proof.Machine
end

section
namespace Sys2Proof.Machine

-- Proved in parallel, these proofs hold a thread each, whose stacks pass the check's memory.
set_option Elab.async false

/-! ## Licences and firmware (O46) -/

/-! What the end of a command leaves. -/

theorem mem_of_cmdNotice {s : State} {ld : LdId} {op : Nat} {n : Notice} (h : s.cmdNotice ld op = some n) :
    n ∈ s.notices ∧ n.mailbox = 0 := by
  have holds := List.find?_some h
  simp only [Bool.and_eq_true, decide_eq_true_eq] at holds
  exact ⟨List.mem_of_find?_eq_some h, holds.1.1.1.1⟩

theorem acting_mem {s : State} (ld : LdId) (op arg : Nat) {n : Notice} (h : n ∈ s.notices) :
    ({ n with phase := .acting } : Notice) ∈ (s.acting ld op arg n).notices := by
  have e : (s.acting ld op arg n).notices = s.notices.map (fun m => if m = n then { m with phase := .acting } else m) := by
    simp only [State.acting, State.setPhase, State.ev_notices]
  rw [e]
  exact List.mem_map.mpr ⟨n, h, if_pos rfl⟩

theorem acting_notices_length (s : State) (ld : LdId) (op arg : Nat) (n : Notice) :
    (s.acting ld op arg n).notices.length = s.notices.length := by
  simp only [State.acting, State.setPhase, State.ev_notices, List.length_map]

/-- The completion of a command that is carried out ends its notice. -/
theorem ended_of_acting {s t : State} (ld : LdId) (op arg : Nat) {n : Notice} (h : n ∈ s.notices) (status result : Nat)
    (comps : t.comps = s.comps ++ [compOf n status result])
    (notices : t.notices = (s.acting ld op arg n).notices.erase { n with phase := .acting }) : Ended n status result s t := by
  have pos : 0 < s.notices.length := List.length_pos_of_mem h
  refine ⟨comps, ?_⟩
  rw [notices, List.length_erase_of_mem (acting_mem ld op arg h), acting_notices_length]
  omega

theorem State.areaBytes_of_cmdArea {s t : State} (h : t.cmdArea = s.cmdArea) (ld off n : Nat) :
    t.areaBytes ld off n = s.areaBytes ld off n := by
  unfold State.areaBytes
  rw [h]

theorem State.licenceCheck_of_stew {s t : State} (h : t.stew.store = s.stew.store) (l : Licence) (above : Option Nat) :
    t.licenceCheck l above = s.licenceCheck l above := by
  unfold State.licenceCheck
  rw [h]

/-! LICENCE. -/

/-- The state in which a good licence waits for the next start. -/
def State.pendLicence (s : State) (l : Licence) : State :=
  ({ s with stew := { s.stew with licPending := some l } }.setF hub F.LC_FEATURES_pending 1).wr hub R.LC_LIC_PEND
    (BitVec.ofNat 32 (leAt l 72 4))

/-- The bytes that LICENCE takes from the command area. -/
def State.licenceBytes (s : State) (ld : LdId) (off : BitVec 16) : Licence :=
  s.areaBytes ld.val off.toNat (min 2948 (65536 - off.toNat))

/-- The number of the check that a licence fails, or 0, beside the numbers of the licences that the device holds. -/
def State.licenceVerdict (s : State) (l : Licence) : Nat :=
  s.licenceCheck l (some (max (licNumber s.stew.licence) (licNumber s.stew.licPending)))

theorem State.acting_licenceBytes (s : State) (l : LdId) (op arg : Nat) (n : Notice) (ld : LdId) (off : BitVec 16) :
    (s.acting l op arg n).licenceBytes ld off = s.licenceBytes ld off :=
  State.areaBytes_of_cmdArea (State.cmdArea_of_butNotices (s.acting_rest l op arg n)) _ _ _

theorem State.acting_licenceVerdict (s : State) (ld : LdId) (op arg : Nat) (n : Notice) (l : Licence) :
    (s.acting ld op arg n).licenceVerdict l = s.licenceVerdict l := by
  unfold State.licenceVerdict
  rw [State.licenceCheck_of_stew (congrArg Steward.store (s.acting_stew ld op arg n)), s.acting_stew ld op arg n]

theorem State.pendLicence_stew (s : State) (l : Licence) :
    (s.pendLicence l).stew = { s.stew with licPending := some l } := by
  unfold State.pendLicence
  rw [State.wr_stew, State.setF_stew]

theorem State.memories_pendLicence (s : State) (l : Licence) : (s.pendLicence l).memories = s.memories := by
  simp only [State.pendLicence, State.memories_wr, State.memories_setF, State.memories_mk]

theorem State.pendLicence_pending (s : State) (l : Licence) : (s.pendLicence l).f hub F.LC_FEATURES_pending = 1 := by
  unfold State.pendLicence State.f
  rw [State.rd_wr_ne _ _ (by decide)]
  exact State.f_setF_same _ hub F.LC_FEATURES_pending 1 (by decide)

theorem execLicence_good {ld : LdId} {off : BitVec 16} {n : Notice} {s : State} (h : commanded s ld 0x0401 n)
    (ready : s.f hub F.HB_BOOT_step = 9) (good : s.licenceVerdict (s.licenceBytes ld off) = 0) :
    ∃ cap, execLicence ld off s = .next ((((s.acting ld 0x0401 off.toNat n).pendLicence (s.licenceBytes ld off)).complete
      { n with phase := .acting } Cs.done 0).ev .hub Ev.LC_INSTALLED cap) := by
  have hready := (s.acting_hub ld 0x0401 off.toNat n (g := F.HB_BOOT_step) (by decide)).trans ready
  have hgood := (s.acting_licenceVerdict ld 0x0401 off.toNat n _).trans good
  rw [← s.acting_licenceBytes ld 0x0401 off.toNat n ld off] at hgood ⊢
  unfold State.licenceVerdict State.licenceBytes at hgood
  unfold execLicence
  rw [State.command_of_commanded h]
  simp only [hready, hgood]
  exact ⟨_, rfl⟩

theorem execLicence_bad {ld : LdId} {off : BitVec 16} {n : Notice} {s : State} (h : commanded s ld 0x0401 n)
    (ready : s.f hub F.HB_BOOT_step = 9) (bad : s.licenceVerdict (s.licenceBytes ld off) ≠ 0) :
    ∃ cap, execLicence ld off s = .next (((s.acting ld 0x0401 off.toNat n).complete
      { n with phase := .acting } Cs.refused (s.licenceVerdict (s.licenceBytes ld off))).ev .hub Ev.LC_REFUSED cap) := by
  obtain ⟨c, hc⟩ := Nat.exists_eq_succ_of_ne_zero bad
  have hready := (s.acting_hub ld 0x0401 off.toNat n (g := F.HB_BOOT_step) (by decide)).trans ready
  have hbad := (s.acting_licenceVerdict ld 0x0401 off.toNat n _).trans hc
  rw [← s.acting_licenceBytes ld 0x0401 off.toNat n ld off] at hbad hc ⊢
  rw [hc]
  unfold State.licenceVerdict State.licenceBytes at hbad
  unfold execLicence
  rw [State.command_of_commanded h]
  simp only [hready, hbad]
  exact ⟨_, rfl⟩

/-! FW_UPDATE. -/

/-- The state with bytes of an image in the steward's memory. -/
def State.putImage (s : State) (at_ : Nat) (l : List (BitVec 8)) : State :=
  { s with stew := { s.stew with fwRam := memWrite s.stew.fwRam at_ l } }

theorem execFwUpdate_writes {ld : LdId} {off n : BitVec 16} {at_ : BitVec 20} {k : Notice} {s : State}
    (h : commanded s ld 0x0301 k) (short : n.toNat ≤ 32768) (inArea : off.toNat + n.toNat ≤ 65536)
    (inRam : at_.toNat + n.toNat ≤ 1048576) :
    execFwUpdate ld off n at_ s = .next (((s.acting ld 0x0301 at_.toNat k).putImage at_.toNat
      (s.areaBytes ld.val off.toNat n.toNat)).complete { k with phase := .acting } Cs.done 0) := by
  have bytes := State.areaBytes_of_cmdArea (State.cmdArea_of_butNotices (s.acting_rest ld 0x0301 at_.toNat k)) ld.val
    off.toNat n.toNat
  unfold execFwUpdate
  rw [State.command_of_commanded h]
  dsimp only
  rw [if_neg (by omega), bytes]
  rfl

/-! FW_ACTIVATE. -/

theorem State.abortBox_rest (s : State) (mailbox : Nat) : (s.abortBox mailbox).butNotices = s.butNotices := by
  unfold State.abortBox
  extract_lets l t lds
  have ht : t.butNotices = s.butNotices :=
    State.foldl_rest State.butNotices (fun t n => t.complete n Cs.aborted 0) (fun t n => t.complete_rest n _ _) l s
  exact (State.butNotices_of (t.ev_rest ..)).trans ht

theorem State.abortBox_hub (s : State) (mailbox : Nat) {g : Fld} (h : g.reg.off < 0x1000000) :
    (s.abortBox mailbox).f hub g = s.f hub g := by
  unfold State.abortBox
  extract_lets l t lds
  have ht : t.f hub g = s.f hub g :=
    State.foldl_rest (fun t => t.f hub g) (fun t n => t.complete n Cs.aborted 0) (fun t n => t.complete_hub n _ _ h) l s
  exact (t.ev_hub _ _ _ h).trans ht

theorem completeAll_notices (l : List Notice) (s : State) :
    (l.foldl (fun t n => t.complete n Cs.aborted 0) s).notices = s.notices.diff l := by
  induction l generalizing s with
  | nil => rfl
  | cons n l ih => rw [List.foldl_cons, ih, State.complete_notices, List.diff_cons]

/-- No notice of an aborted mailbox is left. -/
theorem State.abortBox_notices (s : State) (mailbox : Nat) : ∀ m ∈ (s.abortBox mailbox).notices, m.mailbox ≠ mailbox := by
  intro m hm e
  unfold State.abortBox at hm
  rw [State.ev_notices, completeAll_notices] at hm
  have counted := List.count_pos_iff.mpr hm
  rw [List.count_diff, List.count_filter (by simpa using e)] at counted
  omega

theorem completeAll_comps (l : List Notice) (s : State) :
    s.comps <+: (l.foldl (fun t n => t.complete n Cs.aborted 0) s).comps := by
  induction l generalizing s with
  | nil => exact List.prefix_refl _
  | cons n l ih => exact (s.complete_comps n Cs.aborted 0 ▸ List.prefix_append _ _).trans (ih _)

theorem State.abortBox_comps (s : State) (mailbox : Nat) : s.comps <+: (s.abortBox mailbox).comps := by
  unfold State.abortBox
  rw [State.ev_comps]
  exact completeAll_comps _ s

theorem State.showIds_hub (s : State) {g : Fld} (h : g.reg.off ≠ R.LC_ID_NEXT.off) (h' : g.reg.off ≠ R.LC_ID_RSV.off) :
    s.showIds.f hub g = s.f hub g := by
  unfold State.showIds
  rw [State.f_setF_reg _ _ (by unfold hub; exact fun e => h' (by simpa [F.LC_ID_RSV_reserved_to] using e.symm)),
    State.f_setF_reg _ _ (by unfold hub; exact fun e => h (by simpa [F.LC_ID_NEXT_exhausted] using e.symm)),
    State.f_setF_reg _ _ (by unfold hub; exact fun e => h (by simpa [F.LC_ID_NEXT_next] using e.symm))]

theorem State.showIds_rest (s : State) : s.showIds.butEvents = s.butEvents := by
  unfold State.showIds
  simp only [State.butEvents_setF]

/-- The steward's memory of attestations, which a restart empties. -/
def Steward.forgetAttest (k : Steward) : Steward :=
  { k with attest := [], doe := k.attest.foldl (fun m r => if r.cmd.isNone then spSet 0 m r.ld 2 else m) k.doe,
           idNext := k.idRsv }

theorem State.restart_eq (s : State) :
    s.restart = { s.abortBox 0 with stew := (s.abortBox 0).stew.forgetAttest }.showIds := (rfl)

/-- A restart of the steward's image aborts its commands and forgets its gathering. -/
theorem State.restart_keeps (s : State) : MemoriesKept s s.restart ∧ s.restart.parts = s.parts ∧
    s.restart.stew = s.stew.forgetAttest ∧ s.restart.f hub F.LC_FW_running = s.f hub F.LC_FW_running := by
  have kept := State.memories_of_butNotices (s.abortBox_rest 0)
  have parts : (s.abortBox 0).parts = s.parts := State.parts_of_butNotices (s.abortBox_rest 0)
  have stew : (s.abortBox 0).stew = s.stew := State.stew_of_butNotices (s.abortBox_rest 0)
  have running := s.abortBox_hub 0 (g := F.LC_FW_running) (by decide)
  rw [State.restart_eq, stew]
  generalize s.abortBox 0 = a at kept parts running ⊢
  have shown := State.showIds_rest { a with stew := s.stew.forgetAttest }
  exact ⟨memoriesKept_of ((State.memories_of_butEvents shown).trans kept), (State.parts_of_butEvents shown).trans parts,
    State.stew_of_butEvents shown, (State.showIds_hub _ (by decide) (by decide)).trans running⟩

theorem State.restart_notices (s : State) : ∀ m ∈ s.restart.notices, m.mailbox ≠ 0 := by
  rw [State.restart_eq, State.notices_of_butEvents (State.showIds_rest _)]
  exact s.abortBox_notices 0

theorem State.restart_comps (s : State) : s.comps <+: s.restart.comps := by
  rw [State.restart_eq, State.comps_of_butEvents (State.showIds_rest _)]
  exact s.abortBox_comps 0

/-! The shield bits. -/

theorem State.evalShield_rest (s : State) (p : PartId) (writer : Nat) : (s.evalShield p writer).butEvents = s.butEvents := by
  unfold State.evalShield
  split
  · rfl
  · dsimp only
    split
    · simp only [State.ev_rest, State.butEvents_incF, State.butEvents_setF]
    · simp only [State.butEvents_setF]

theorem State.evalShield_f (s : State) (p : PartId) (writer b : Nat) (k : Fld)
    (h : ¬ atBlockOffset (b + k.reg.off) R.IN_SHIELD.off) (h' : ¬ atBlockOffset (b + k.reg.off) 0xB00) :
    (s.evalShield p writer).f b k = s.f b k := by
  have shield : ∀ (t : State) (g : Fld) (v : Nat), g.reg = R.IN_SHIELD → (t.setF (pt p) g v).f b k = t.f b k :=
    fun t g v e => t.setF_pt_f p v b k (by rw [e]; decide) (by rw [e]; exact h)
  unfold State.evalShield
  split
  · rfl
  · extract_lets qs bit c sc fw ra was t1 all t2 t3
    have h2 : t2.f b k = s.f b k := by
      simp only [t2, t1]
      rw [shield _ _ _ rfl, shield _ _ _ rfl, shield _ _ _ rfl, shield _ _ _ rfl, shield _ _ _ rfl]
    split
    · exact (State.ev_f _ _ _ _ b k h').trans ((shield t2 _ _ rfl).trans h2)
    · exact h2

theorem State.evalShields_rest (s : State) : s.evalShields.butEvents = s.butEvents :=
  State.foldl_rest State.butEvents (fun t p => t.evalShield p) (fun t p => t.evalShield_rest p _) allParts s

theorem State.evalShields_hub (s : State) {g : Fld} (h : g.reg.off < 0x1000000) : s.evalShields.f hub g = s.f hub g :=
  State.foldl_rest (fun t => t.f hub g) (fun t p => t.evalShield p)
    (fun t p => t.evalShield_f p _ hub g (not_atBlockOffset_hub _ h) (not_atBlockOffset_hub _ h)) allParts s

/-- The state in which the steward takes up an image. -/
def State.takeImage (s : State) (version : Nat) (digest : List Byte) : State :=
  ({ s with stew := { s.stew with version := version, imageDigest := digest, fwRam := [] } }.setF hub F.LC_FW_running
    version).ev .hub Ev.FW_UPDATE [s.stew.version, version]

theorem execFwActivate_runs {ld : LdId} {version : BitVec 16} {digest : List Byte} {n : Notice} {s : State}
    (h : commanded s ld 0x0302 n) (rest : ∀ p, (s.part p).recovery = none ∧ (s.part p).rot = none)
    (young : s.stew.store.minFw ≤ version.toNat) :
    ∃ a : State, a.butNotices = s.butNotices ∧ compOf n Cs.done 0 ∈ a.comps ∧
      execFwActivate ld none version digest s = .next (a.takeImage version.toNat digest).restart.evalShields := by
  have idle : allParts.any (fun p => ((s.acting ld 0x0302 0 n).part p).recovery.isSome ||
      ((s.acting ld 0x0302 0 n).part p).rot.isSome) = false := by
    have same : ∀ p, (s.acting ld 0x0302 0 n).part p = s.part p := fun p => by
      simp only [State.part, State.acting_parts]
    refine List.any_eq_false.mpr fun p _ => ?_
    rw [same, (rest p).1, (rest p).2]
    decide
  refine ⟨(s.acting ld 0x0302 0 n).complete { n with phase := .acting } Cs.done 0,
    (State.complete_rest ..).trans (s.acting_rest ld 0x0302 0 n), ?_, ?_⟩
  · rw [State.complete_comps]
    exact List.mem_append_right _ (List.mem_singleton.mpr rfl)
  · unfold execFwActivate
    rw [State.command_of_commanded h]
    dsimp only
    rw [if_neg (by rw [idle]; decide), if_neg (by rw [State.acting_stew]; omega)]
    unfold State.takeImage
    rw [State.stew_of_butNotices (State.complete_rest ..)]

/-- LICENCE with a licence that passes every check. -/
theorem licence_pends {ld : LdId} {off : BitVec 16} {n : Notice} {s : State} (h : commanded s ld 0x0401 n)
    (ready : s.f hub F.HB_BOOT_step = 9) (good : s.licenceVerdict (s.licenceBytes ld off) = 0) :
    ∃ t, execLicence ld off s = .next t ∧ MemoriesKept s t ∧ t.parts = s.parts ∧ Ended n Cs.done 0 s t ∧
      t.stew = { s.stew with licPending := some (s.licenceBytes ld off) } ∧ t.f hub F.LC_FEATURES_pending = 1 := by
  obtain ⟨cap, run⟩ := execLicence_good h ready good
  generalize ha : (s.acting ld 0x0401 off.toNat n).pendLicence (s.licenceBytes ld off) = a at run
  have parts : a.parts = s.parts := by
    rw [← ha]
    unfold State.pendLicence
    rw [State.wr_parts, State.setF_parts]
    exact s.acting_parts ld 0x0401 off.toNat n
  have notices : a.notices = (s.acting ld 0x0401 off.toNat n).notices := by
    rw [← ha]
    unfold State.pendLicence
    rw [State.wr_notices, State.setF_notices]
  have comps : a.comps = s.comps := by
    rw [← ha]
    unfold State.pendLicence
    rw [State.wr_comps, State.setF_comps]
    exact s.acting_comps ld 0x0401 off.toNat n
  have rest := State.complete_rest a { n with phase := .acting } Cs.done 0
  refine ⟨_, run, memoriesKept_of ?memories, ?parts, ended_of_acting ld 0x0401 off.toNat (mem_of_cmdNotice h.1).1 _ _ ?comps
    ?notices, ?stew, ?pending⟩
  case memories =>
    rw [State.memories_ev, State.memories_complete, ← ha, State.memories_pendLicence, State.memories_acting]
  case parts => rw [State.ev_parts, State.parts_of_butNotices rest, parts]
  case comps =>
    rw [State.ev_comps, State.complete_comps, comps]
    rfl
  case notices => rw [State.ev_notices, State.complete_notices, notices]
  case stew =>
    rw [State.ev_stew, State.stew_of_butNotices rest, ← ha, State.pendLicence_stew, State.acting_stew]
  case pending =>
    rw [State.ev_hub _ _ _ _ (by decide), State.complete_hub _ _ _ _ (by decide), ← ha, State.pendLicence_pending]

/-- LICENCE with a licence that fails a check. -/
theorem licence_refused {ld : LdId} {off : BitVec 16} {n : Notice} {s : State} (h : commanded s ld 0x0401 n)
    (ready : s.f hub F.HB_BOOT_step = 9) (bad : s.licenceVerdict (s.licenceBytes ld off) ≠ 0) :
    ∃ t, execLicence ld off s = .next t ∧ MemoriesKept s t ∧ t.parts = s.parts ∧
      Ended n Cs.refused (s.licenceVerdict (s.licenceBytes ld off)) s t ∧ t.stew = s.stew := by
  obtain ⟨cap, run⟩ := execLicence_bad h ready bad
  have rest := State.complete_rest (s.acting ld 0x0401 off.toNat n) { n with phase := .acting } Cs.refused
    (s.licenceVerdict (s.licenceBytes ld off))
  refine ⟨_, run, memoriesKept_of ?memories, ?parts, ended_of_acting ld 0x0401 off.toNat (mem_of_cmdNotice h.1).1 _ _ ?comps
    ?notices, ?stew⟩
  case memories => rw [State.memories_ev, State.memories_complete, State.memories_acting]
  case parts => rw [State.ev_parts, State.parts_of_butNotices rest, State.acting_parts]
  case comps =>
    rw [State.ev_comps, State.complete_comps, State.acting_comps]
    rfl
  case notices => rw [State.ev_notices, State.complete_notices]
  case stew => rw [State.ev_stew, State.stew_of_butNotices rest, State.acting_stew]

/-- What the state after FW_ACTIVATE is. -/
theorem takeImage_restart (a : State) (version : Nat) (digest : List Byte) :
    let t := (a.takeImage version digest).restart.evalShields
    MemoriesKept a t ∧ t.parts = a.parts ∧ a.comps <+: t.comps ∧ (∀ m ∈ t.notices, m.mailbox ≠ 0) ∧
      t.stew = Steward.forgetAttest { a.stew with version := version, imageDigest := digest, fwRam := [] } ∧
      t.f hub F.LC_FW_running = version % 65536 := by
  intro t
  have shields := State.evalShields_rest (a.takeImage version digest).restart
  obtain ⟨kept, parts, stew, running⟩ := (a.takeImage version digest).restart_keeps
  refine ⟨?memories, ?parts, ?comps, ?notices, ?stew, ?running⟩
  case memories =>
    refine memoriesKept_of ((State.memories_of_butEvents shields).trans ((memoriesKept_iff.mp kept).trans ?_))
    unfold State.takeImage
    rw [State.memories_ev, State.memories_setF, State.memories_mk]
  case parts =>
    refine (State.parts_of_butEvents shields).trans (parts.trans ?_)
    unfold State.takeImage
    rw [State.ev_parts, State.setF_parts]
  case comps =>
    have same : (a.takeImage version digest).comps = a.comps := by
      unfold State.takeImage
      rw [State.ev_comps, State.setF_comps]
    have later : t.comps = (a.takeImage version digest).restart.comps := State.comps_of_butEvents shields
    rw [later, ← same]
    exact State.restart_comps _
  case notices =>
    have later : t.notices = (a.takeImage version digest).restart.notices := State.notices_of_butEvents shields
    rw [later]
    exact State.restart_notices _
  case stew =>
    refine (State.stew_of_butEvents shields).trans (stew.trans (congrArg Steward.forgetAttest ?_))
    unfold State.takeImage
    rw [State.ev_stew, State.setF_stew]
  case running =>
    refine (State.evalShields_hub _ (by decide)).trans (running.trans ?_)
    unfold State.takeImage
    rw [State.ev_hub _ _ _ _ (by decide), State.f_setF_same _ _ _ _ (by decide)]
    rfl

/-- Settles O46. -/
theorem licenceAndFirmware : Obligations.LicenceAndFirmware := by
  unfold Obligations.LicenceAndFirmware
  refine ⟨?licence, ?update, ?activate⟩
  case licence =>
    intro ld off n s h ready
    extract_lets l c
    by_cases good : c = 0
    · obtain ⟨t, run, kept, parts, ended, stew, pending⟩ := licence_pends h ready good
      exact ⟨t, run, by rw [stew], kept, parts, fun _ => ⟨ended, by rw [stew]; rfl, pending⟩, fun bad => absurd good bad⟩
    · obtain ⟨t, run, kept, parts, ended, stew⟩ := licence_refused h ready good
      exact ⟨t, run, by rw [stew], kept, parts, fun g => absurd g good, fun _ => ⟨ended, by rw [stew]⟩⟩
  case update =>
    intro ld off n at_ k s h short inArea inRam
    have len : (s.areaBytes ld.val off.toNat n.toNat).length = n.toNat := memRead_length ..
    have run := execFwUpdate_writes h short inArea inRam
    generalize ha : (s.acting ld 0x0301 at_.toNat k).putImage at_.toNat (s.areaBytes ld.val off.toNat n.toNat) = a at run
    have rest := State.complete_rest a { k with phase := .acting } Cs.done 0
    have ram : (a.complete { k with phase := .acting } Cs.done 0).stew.fwRam =
        memWrite s.stew.fwRam at_.toNat (s.areaBytes ld.val off.toNat n.toNat) := by
      rw [State.stew_of_butNotices rest, ← ha]
      exact congrArg (fun w : Steward => memWrite w.fwRam _ _) (s.acting_stew ld 0x0301 at_.toNat k)
    refine ⟨_, run, ended_of_acting ld 0x0301 at_.toNat (mem_of_cmdNotice h.1).1 _ _ ?comps ?notices, memoriesKept_of ?memories,
      ?parts, ?written, ?others⟩
    case comps =>
      rw [State.complete_comps, ← ha]
      exact congrArg (· ++ _) (s.acting_comps ld 0x0301 at_.toNat k)
    case notices =>
      rw [State.complete_notices, ← ha]
      rfl
    case memories =>
      rw [State.memories_complete, ← ha]
      exact s.memories_acting ld 0x0301 at_.toNat k
    case parts =>
      rw [State.parts_of_butNotices rest, ← ha]
      exact s.acting_parts ld 0x0301 at_.toNat k
    case written =>
      have back := memRead_memWrite s.stew.fwRam at_.toNat (s.areaBytes ld.val off.toNat n.toNat)
      rw [len] at back
      rw [ram, back]
    case others =>
      intro a out
      rw [ram, spGet_memWrite_out _ _ _ _ (by rw [len]; exact out)]
  case activate =>
    intro ld version digest n s h rest young
    obtain ⟨a, kept, ended, run⟩ := execFwActivate_runs (digest := digest) h rest young
    obtain ⟨memories, parts, comps, notices, stew, running⟩ := takeImage_restart a version.toNat digest
    refine ⟨_, run, comps.subset ended, ?_, ?_, ?_, ?_, notices, (memoriesKept_of_butNotices kept).trans memories,
      parts.trans (State.parts_of_butNotices kept)⟩
    · rw [stew]
      rfl
    · rw [stew]
      rfl
    · rw [stew]
      rfl
    · exact running.trans (Nat.mod_eq_of_lt version.isLt)

end Sys2Proof.Machine
end

section
namespace Sys2Proof.Machine

-- Proved in parallel, these proofs hold a thread each, whose stacks pass the check's memory.
set_option Elab.async false

/-! ## Resets by command (O45) -/

theorem State.f_settle (s : State) (p : PartId) {adr : Nat} {fld : Fld}
    (h : site (adr + fld.reg.off) ∉ [(1, R.CH_RECONF.off)]) :
    (s.settle p).f adr fld = s.f adr fld := by
  simp only [State.settle, State.f_ite, ite_self, State.f_updPart, State.f_setF_pt (g := F.CH_RECONF_unsure) (h := h) (hw :=
    by decide)]

theorem State.f_settleAll (s : State) {adr : Nat} {fld : Fld}
    (h : site (adr + fld.reg.off) ∉ [(1, R.CH_RECONF.off)]) :
    (s.settleAll).f adr fld = s.f adr fld := by
  simp only [State.settleAll, implies_true, State.f_foldl, State.f_settle (h := h)]

theorem State.f_completeActing (s : State) (p : PartId) (bit result : Nat) {adr : Nat} {fld : Fld}
    (h : site (adr + fld.reg.off) ∉ [(1, R.MB_STAT.off), (1, R.MB_PEND.off)]) :
    (s.completeActing p bit result).f adr fld = s.f adr fld := by
  simp only [State.completeActing, implies_true, State.f_foldl, State.f_complete (h := h)]

theorem State.f_showHeld (s : State) (p : PartId) {adr : Nat} {fld : Fld}
    (h : site (adr + fld.reg.off) ∉ [(1, R.TK_STATUS.off), (1, R.MB_STAT.off), (1, R.MB_PEND.off)]) :
    (s.showHeld p).f adr fld = s.f adr fld := by
  simp only [State.showHeld, State.f_ite, ite_self, State.f_setF_pt (g := F.TK_STATUS_held) (h := h) (hw := by decide),
    State.f_completeActing (h := notMem_of_subset h (by decide))]

theorem State.f_noteHold (s : State) (p : PartId) {adr : Nat} {fld : Fld}
    (h : site (adr + fld.reg.off) ∉ [(1, R.TK_STATUS.off), (1, R.MB_STAT.off), (1, R.MB_PEND.off)]) :
    (s.noteHold p).f adr fld = s.f adr fld := by
  simp only [State.noteHold, State.f_updPart, State.f_showHeld (h := h)]

theorem State.f_addHold (s : State) (p : PartId) (c : HoldCause) {adr : Nat} {fld : Fld}
    (h : site (adr + fld.reg.off) ∉ [(1, R.TK_STATUS.off), (1, R.MB_STAT.off), (1, R.MB_PEND.off)]) :
    (s.addHold p c).f adr fld = s.f adr fld := by
  simp only [State.addHold, State.f_updPart, State.f_noteHold (h := h)]

theorem State.f_abortSpans (s : State) (p : PartId) {adr : Nat} {fld : Fld}
    (h : site (adr + fld.reg.off) ∉ [(1, R.CH_RECONF.off)]) :
    (s.abortSpans p).f adr fld = s.f adr fld := by
  simp only [State.abortSpans, State.f_mk, State.f_ite, ite_self, implies_true, State.f_foldl, State.f_updQu,
    State.f_settleAll (h := h)]

theorem State.f_showFences (s : State) (p : PartId) {adr : Nat} {fld : Fld}
    (h : site (adr + fld.reg.off) ∉ [(1, R.MS_SPAN.off)]) :
    (s.showFences p).f adr fld = s.f adr fld := by
  simp only [State.showFences, implies_true, State.f_foldl, State.f_setF_pt (g := F.MS_SPAN_fenced) (h := h) (hw := by decide)]

theorem State.f_raiseFence (s : State) (p : PartId) (reason : Nat) {adr : Nat} {fld : Fld}
    (h : site (adr + fld.reg.off) ∉ [(1, R.RS_STATUS.off), (1, 0xB00), (1, R.CH_RECONF.off), (1, R.MS_SPAN.off)]) :
    (s.raiseFence p reason).f adr fld = s.f adr fld := by
  simp only [State.raiseFence, State.f_ite, ite_self, State.f_setF_pt (g := F.RS_STATUS_fenced) (h := h) (hw := by decide),
    State.f_ev (h := notMem_of_subset h (by decide)), State.f_abortSpans (h := notMem_of_subset h (by decide)),
    State.f_showFences (h := notMem_of_subset h (by decide))]

theorem State.f_endCmd (s : State) (k : Nat × Nat) (status result : Nat) {adr : Nat} {fld : Fld}
    (h : site (adr + fld.reg.off) ∉ [(1, R.MB_STAT.off), (1, R.MB_PEND.off)]) :
    (s.endCmd k status result).f adr fld = s.f adr fld := by
  unfold State.endCmd
  split <;> simp only [State.f_complete (h := h)]

theorem State.f_abortTests (s : State) (p : PartId) {adr : Nat} {fld : Fld}
    (h : site (adr + fld.reg.off) ∉ [(1, R.MB_STAT.off), (1, R.MB_PEND.off)]) :
    (s.abortTests p).f adr fld = s.f adr fld := by
  simp only [State.abortTests, implies_true, State.f_foldl, State.f_updPart, State.f_endCmd (h := h)]

/-- The `resetTimes` of every partition. -/
def State.resetTimesOf (s : State) (r : PartId) := (s.part r).resetTimes

theorem State.times_mk {s : State} {pending now timeBase freeCount regs latches stitchers quires flights creditFlights srcs
    mem memMark triggers trackers charges mgn dramFixes sparesUsed remaps notices comps ctlPage cmdArea bar2 msix extents
    filter snoops readWait hostData links spine spNext regAns halfChg thermal staging stageLostAt stageLostN recNext mapCopies
    mapBefore runs tested pulseEnd ioNext tickIn stew} :
State.resetTimesOf ⟨pending, now, timeBase, freeCount, regs, latches, stitchers, quires, s.parts, flights, creditFlights,
      srcs, mem, memMark, triggers, trackers, charges, mgn, dramFixes, sparesUsed, remaps, notices, comps, ctlPage, cmdArea,
      bar2, msix, extents, filter, snoops, readWait, hostData, links, spine, spNext, regAns, halfChg, thermal, staging,
      stageLostAt, stageLostN, recNext, mapCopies, mapBefore, runs, tested, pulseEnd, ioNext, tickIn, stew⟩ = s.resetTimesOf
      := (rfl)

theorem State.times_ite {c : Prop} [Decidable c] {a b : State} :
    State.resetTimesOf (if c then a else b) = if c then a.resetTimesOf else b.resetTimesOf := by
  split <;> rfl

theorem State.times_foldl {α : Type} {g : State → α → State} {s : State} (step : ∀ s a, (g s a).resetTimesOf = s.resetTimesOf)
    (xs : List α) : (xs.foldl g s).resetTimesOf = s.resetTimesOf :=
  State.foldl_rest State.resetTimesOf g step xs s

theorem State.times_setSt (s : State) (u : StId) (x : Stitcher) : (s.setSt u x).resetTimesOf = s.resetTimesOf := (rfl)

theorem State.times_updSt (s : State) (u : StId) (f : Stitcher → Stitcher) : (s.updSt u f).resetTimesOf = s.resetTimesOf := (rfl)

theorem State.times_setQu (s : State) (q : QuireId) (x : Quire) : (s.setQu q x).resetTimesOf = s.resetTimesOf := (rfl)

theorem State.times_updQu (s : State) (q : QuireId) (f : Quire → Quire) : (s.updQu q f).resetTimesOf = s.resetTimesOf := (rfl)

theorem State.times_setSrc (s : State) (x : Src) (v : SrcSt) : (s.setSrc x v).resetTimesOf = s.resetTimesOf := (rfl)

theorem State.times_updSrc (s : State) (x : Src) (f : SrcSt → SrcSt) : (s.updSrc x f).resetTimesOf = s.resetTimesOf := (rfl)

theorem State.times_wr (s : State) (b : Nat) (r : Reg) (v : BitVec 32) : (s.wr b r v).resetTimesOf = s.resetTimesOf := (rfl)

theorem State.times_setF (s : State) (b : Nat) (g : Fld) (v : Nat) : (s.setF b g v).resetTimesOf = s.resetTimesOf := (rfl)

theorem State.times_incF (s : State) (b : Nat) (g : Fld) (n : Nat) : (s.incF b g n).resetTimesOf = s.resetTimesOf := (rfl)

theorem State.times_setCnt (s : State) (b : Nat) (lo hi : Reg) (v : Nat) : (s.setCnt b lo hi v).resetTimesOf = s.resetTimesOf := (rfl)

theorem State.times_updPart (s : State) (p : PartId) (k : Part → Part) (h : ∀ x, (k x).resetTimes = x.resetTimes) :
    (s.updPart p k).resetTimesOf = s.resetTimesOf := by
  funext r
  unfold State.resetTimesOf
  by_cases e : r = p
  · rw [e, State.part_updPart_same, h]
  · rw [State.part_updPart_ne _ _ e]

theorem State.times_of_parts {s t : State} (h : t.parts = s.parts) : t.resetTimesOf = s.resetTimesOf := by
  funext r
  unfold State.resetTimesOf State.part
  rw [h]

theorem State.times_raise (s : State) (x : Src) (code sev : Nat) (cap : List Nat) : (s.raise x code sev cap).resetTimesOf = s.resetTimesOf :=
  State.times_of_parts (State.parts_of_butEvents (s.raise_rest x code sev cap))

theorem State.times_ev (s : State) (x : Src) (code : Nat) (cap : List Nat) : (s.ev x code cap).resetTimesOf = s.resetTimesOf :=
  s.times_raise x code (evSev code) cap

theorem State.times_complete (s : State) (n : Notice) (status result : Nat) : (s.complete n status result).resetTimesOf = s.resetTimesOf :=
  State.times_of_parts (State.parts_of_butNotices (s.complete_rest n status result))

theorem State.times_settle (s : State) (p : PartId) : (s.settle p).resetTimesOf = s.resetTimesOf := by
  simp only [State.settle, State.times_ite, ite_self, implies_true, State.times_updPart, State.times_setF]

theorem State.times_settleAll (s : State)  : (s.settleAll).resetTimesOf = s.resetTimesOf := by
  simp only [State.settleAll, implies_true, State.times_foldl, State.times_settle]

theorem State.times_completeActing (s : State) (p : PartId) (bit result : Nat) :
    (s.completeActing p bit result).resetTimesOf = s.resetTimesOf := by
  simp only [State.completeActing, implies_true, State.times_foldl, State.times_complete]

theorem State.times_showHeld (s : State) (p : PartId) : (s.showHeld p).resetTimesOf = s.resetTimesOf := by
  simp only [State.showHeld, State.times_ite, ite_self, State.times_setF, State.times_completeActing]

theorem State.times_noteHold (s : State) (p : PartId) : (s.noteHold p).resetTimesOf = s.resetTimesOf := by
  simp only [State.noteHold, implies_true, State.times_updPart, State.times_showHeld]

theorem State.times_addHold (s : State) (p : PartId) (c : HoldCause) : (s.addHold p c).resetTimesOf = s.resetTimesOf := by
  simp only [State.addHold, implies_true, State.times_updPart, State.times_noteHold]

theorem State.times_abortSpans (s : State) (p : PartId) : (s.abortSpans p).resetTimesOf = s.resetTimesOf := by
  simp only [State.abortSpans, State.times_mk, State.times_ite, ite_self, implies_true, State.times_foldl, State.times_updQu,
    State.times_settleAll]

theorem State.times_showFences (s : State) (p : PartId) : (s.showFences p).resetTimesOf = s.resetTimesOf := by
  simp only [State.showFences, implies_true, State.times_foldl, State.times_setF]

theorem State.times_raiseFence (s : State) (p : PartId) (reason : Nat) : (s.raiseFence p reason).resetTimesOf = s.resetTimesOf := by
  simp only [State.raiseFence, State.times_ite, ite_self, State.times_setF, State.times_ev, State.times_abortSpans,
    State.times_showFences]

theorem State.recov_logReset (s : State) (scope target : Nat) : (s.logReset scope target).recoveries = s.recoveries := (rfl)

theorem State.holds_logReset (s : State) (scope target : Nat) : (s.logReset scope target).holdsOf = s.holdsOf := (rfl)

theorem State.f_logReset (s : State) (scope target adr : Nat) (fld : Fld) :
    (s.logReset scope target).f adr fld = s.f adr fld := (rfl)

/-! A rotation that is dropped. -/

theorem State.memories_dropRotation (s : State) (p : PartId) (cause : Nat) :
    (s.dropRotation p cause).memories = s.memories := by
  unfold State.dropRotation
  split
  · rfl
  · simp only [State.memories_ite, State.memories_ev, State.memories_setCnt, State.memories_setF, State.memories_updQu,
      State.memories_updPart, ite_self]

theorem State.stew_dropRotation (s : State) (p : PartId) (cause : Nat) : (s.dropRotation p cause).stew = s.stew := by
  unfold State.dropRotation
  split
  · rfl
  · simp only [State.stew_ite, State.stew_ev, State.stew_setCnt, State.stew_setF, State.stew_updQu, State.stew_updPart,
      ite_self]

theorem State.holds_dropRotation (s : State) (p : PartId) (cause : Nat) : (s.dropRotation p cause).holdsOf = s.holdsOf := by
  unfold State.dropRotation
  split
  · rfl
  · simp only [State.holds_ite, State.holds_ev, State.holds_setF, State.setCnt, State.holds_wr, State.holds_updQu,
      State.holds_updPart, implies_true, ite_self]

theorem State.recov_dropRotation (s : State) (p : PartId) (cause : Nat) :
    (s.dropRotation p cause).recoveries = s.recoveries := by
  unfold State.dropRotation
  split
  · rfl
  · simp only [State.recov_ite, State.recov_ev, State.recov_setF, State.setCnt, State.recov_wr, State.recov_updQu,
      State.recov_updPart, implies_true, ite_self]

theorem State.f_dropRotation (s : State) (p : PartId) (cause : Nat) {adr : Nat} {fld : Fld}
    (h : site (adr + fld.reg.off) ∉ [(1, R.BT_ROT_STATUS.off), (1, R.BT_ROT_NEXT_LO.off), (1, R.BT_ROT_NEXT_HI.off),
      (1, 0xB00)]) : (s.dropRotation p cause).f adr fld = s.f adr fld := by
  unfold State.dropRotation
  split
  · rfl
  · simp only [State.f_ite, State.f_ev (h := notMem_of_subset h (by decide)), State.setCnt,
      State.f_wr_pt (r := R.BT_ROT_NEXT_LO) (h := h) (hw := by decide),
      State.f_wr_pt (r := R.BT_ROT_NEXT_HI) (h := h) (hw := by decide),
      State.f_setF_pt (g := F.BT_ROT_STATUS_state) (h := h) (hw := by decide),
      State.f_setF_pt (g := F.BT_ROT_STATUS_last) (h := h) (hw := by decide), State.f_updQu, State.f_updPart, ite_self]

/-! A fence and a hold. -/

/-- A fence that is up. -/
theorem State.raiseFence_fenced (s : State) (p : PartId) (reason : Nat) : (s.raiseFence p reason).fenced p = true := by
  unfold State.raiseFence
  split
  · next up => exact up
  · have kept : ∀ t : State, (((t.setF (pt p) F.RS_STATUS_fenced 1).abortSpans p).showFences p).f (pt p) F.RS_STATUS_fenced = 1 := by
      intro t
      rw [State.f_showFences _ _ (pt_notMem p (by decide)), State.f_abortSpans _ _ (pt_notMem p (by decide)),
        State.f_setF_same _ _ _ _ (by decide)]
      rfl
    unfold State.fenced
    dsimp only
    rw [State.f_ev _ _ _ _ (pt_notMem p (by decide)), kept, decide_eq_true rfl]

/-- A fence leaves every other fence. -/
theorem State.raiseFence_fenced_ne (s : State) {p r : PartId} (h : r ≠ p) (reason : Nat) :
    (s.raiseFence p reason).fenced r = s.fenced r := by
  unfold State.raiseFence
  split
  · rfl
  · unfold State.fenced
    dsimp only
    rw [State.f_ev _ _ _ _ (pt_notMem r (by decide)), State.f_showFences _ _ (pt_notMem r (by decide)),
      State.f_abortSpans _ _ (pt_notMem r (by decide)), State.f_setF_reg _ _ (by
        have apart := Fin.val_ne_of_ne h
        simp only [pt, F.RS_STATUS_fenced]
        omega)]

theorem State.addHold_fenced (s : State) (p r : PartId) (c : HoldCause) : (s.addHold p c).fenced r = s.fenced r := by
  unfold State.fenced
  rw [State.f_addHold _ _ _ (pt_notMem r (by decide))]

theorem State.addHold_holds (s : State) (p : PartId) (c : HoldCause) : c ∈ ((s.addHold p c).part p).holds := by
  have kept := congrFun (State.holds_noteHold (s.updPart p (fun x => { x with holds := c :: x.holds.erase c })) p) p
  unfold State.holdsOf at kept
  rw [State.part_updPart_same] at kept
  unfold State.addHold
  rw [kept]
  exact List.mem_cons_self

theorem State.addHold_holds_ne (s : State) {p r : PartId} (h : r ≠ p) (c : HoldCause) :
    ((s.addHold p c).part r).holds = (s.part r).holds := by
  have kept := congrFun (State.holds_noteHold (s.updPart p (fun x => { x with holds := c :: x.holds.erase c })) p) r
  unfold State.holdsOf at kept
  rw [State.part_updPart_ne _ _ h] at kept
  exact kept

/-- A partition fenced and held for a recovery. -/
def State.shutOff (s : State) (p : PartId) : State := (s.raiseFence p 0x5A).addHold p .recovery

/-- The partition is fenced and held for a recovery. -/
abbrev isShutOff (s : State) (p : PartId) : Prop := s.fenced p = true ∧ .recovery ∈ (s.part p).holds

theorem isShutOff_shutOff (s : State) (p : PartId) : isShutOff (s.shutOff p) p :=
  ⟨(State.addHold_fenced ..).trans (s.raiseFence_fenced p _), State.addHold_holds _ p _⟩

theorem isShutOff_shutOff_of (s : State) {p r : PartId} (h : isShutOff s r) : isShutOff (s.shutOff p) r := by
  by_cases e : r = p
  · exact e ▸ isShutOff_shutOff s r
  · refine ⟨(State.addHold_fenced ..).trans ((s.raiseFence_fenced_ne e _).trans h.1), ?_⟩
    have kept : ((s.raiseFence p 0x5A).part r).holds = (s.part r).holds := congrFun (s.holds_raiseFence p 0x5A) r
    unfold State.shutOff
    rw [State.addHold_holds_ne _ e, kept]
    exact h.2

theorem isShutOff_all (s : State) : ∀ p, isShutOff (allParts.foldl State.shutOff s) p
  | 0 => isShutOff_shutOff_of _ (isShutOff_shutOff_of _ (isShutOff_shutOff_of _ (isShutOff_shutOff s 0)))
  | 1 => isShutOff_shutOff_of _ (isShutOff_shutOff_of _ (isShutOff_shutOff _ 1))
  | 2 => isShutOff_shutOff_of _ (isShutOff_shutOff _ 2)
  | 3 => isShutOff_shutOff _ 3

theorem State.memories_shutOff (s : State) (p : PartId) : (s.shutOff p).memories = s.memories :=
  (State.memories_addHold ..).trans (State.memories_raiseFence ..)

theorem State.stew_shutOff (s : State) (p : PartId) : (s.shutOff p).stew = s.stew :=
  (State.stew_addHold ..).trans (State.stew_raiseFence ..)

theorem State.hub_shutOff (s : State) (p : PartId) {g : Fld} (h : g.reg.off < 0x1000000) :
    (s.shutOff p).f hub g = s.f hub g := by
  unfold State.shutOff
  rw [State.f_addHold _ _ _ (by rw [site_hub h]; simp), State.f_raiseFence _ _ _ (by rw [site_hub h]; simp)]

theorem State.resetTimes_shutOff (s : State) (p r : PartId) : ((s.shutOff p).part r).resetTimes = (s.part r).resetTimes :=
  congrFun ((State.times_addHold ..).trans (s.times_raiseFence p 0x5A)) r

/-- A device reset that is asked for by a command begins: every partition is fenced and held. -/
theorem startDevice_begins (s : State) (cause ld : Nat) (hc : cause = 1 ∨ cause = 2 ∨ cause = 4)
    (idle : s.stew.devReq = none) (die : s.stew.die = true) :
    let t := s.startDevice cause ld
    t.stew.devReq = some (cause, ld, s.ns) ∧ t.f hub F.RS_DEVICE_last_cause = cause ∧ (∀ p, isShutOff t p) ∧
      t.memories = s.memories ∧ (∀ p, (t.part p).resetTimes = (s.part p).resetTimes) ∧ t.stew.perst = s.stew.perst := by
  intro t
  obtain ⟨times, h⟩ : ∃ times, t = allParts.foldl State.shutOff ((({ s with stew := { s.stew with
      devResets := times, devReq := some (cause, ld, s.ns) } } : State).setF hub F.RS_DEVICE_last_cause cause).ev .hub
      Ev.RS_DEVICE [cause, ld]) := by
    have uncounted : (decide (cause = 3) || decide (cause = 6)) = false := by rcases hc with rfl | rfl | rfl <;> rfl
    refine ⟨s.stew.devResets.filter (fun t => decide (s.ns < t + 86400000000000)), ?_⟩
    simp only [t, State.startDevice, idle, die, uncounted]
    rfl
  rw [h]
  refine ⟨?_, ?_, isShutOff_all _, ?_, fun p => ?_, ?_⟩
  · rw [State.foldl_rest State.stew _ State.stew_shutOff, State.stew_ev, State.stew_setF]
  · rw [State.foldl_rest (fun t => t.f hub F.RS_DEVICE_last_cause) _ (fun t p => t.hub_shutOff p (by decide)),
      State.ev_hub _ _ _ _ (by decide), State.f_setF_same _ _ _ _ (by decide)]
    rcases hc with rfl | rfl | rfl <;> rfl
  · rw [State.foldl_rest State.memories _ State.memories_shutOff, State.memories_ev, State.memories_setF, State.memories_mk]
  · rw [State.foldl_rest (fun t => (t.part p).resetTimes) _ (fun t r => t.resetTimes_shutOff r p), State.ev_part,
      State.part, State.setF_parts]
    rfl
  · rw [State.foldl_rest State.stew _ State.stew_shutOff, State.stew_ev, State.stew_setF]

/-- RESET_PARTITION's reset: the recovery stands with its request, its state and its hold. -/
theorem startReset_begins (s : State) (p : PartId) (ld : Nat) (notice : Nat × Nat) (idle : (s.part p).recovery = none)
    (live : s.f (pt p) F.RS_STATUS_withdrawn = 0) :
    let t := s.startReset p 1 ld false (some notice)
    (∃ r, (t.part p).recovery = some r ∧ r.cause = 1 ∧ r.requester = ld ∧ r.notices = [notice] ∧ r.startAt = s.ns) ∧
      t.f (pt p) F.RS_STATUS_state = 1 ∧ .recovery ∈ (t.part p).holds ∧ t.memories = s.memories := by
  intro t
  obtain ⟨r, times, cap, hr, h⟩ : ∃ (r : Recovery) (times : List Nat) (cap : List Nat),
      (r.cause = 1 ∧ r.requester = ld ∧ r.notices = [notice] ∧ r.startAt = s.ns) ∧
      t = (((((((s.updPart p (fun x => { x with recovery := some r, resetTimes := times })).setF (pt p) F.RS_STATUS_state
        1).incF (pt p) F.RS_COUNT_resets).addHold p .recovery).logReset 3 p.val).dropRotation p 0x5A).abortTests p).ev
        (.part p) Ev.RS_PARTITION cap := by
    simp only [t, State.startReset, idle, live]
    exact ⟨_, _, _, ⟨rfl, rfl, rfl, rfl⟩, rfl⟩
  rw [h]
  refine ⟨⟨r, ?recovery, hr⟩, ?state, ?hold, ?memories⟩
  case recovery =>
    have kept : ∀ a b : State, b.recoveries = a.recoveries → (b.part p).recovery = (a.part p).recovery :=
      fun a b e => congrFun e p
    rw [kept (s.updPart p (fun x => { x with recovery := some r, resetTimes := times })) _ (by
      rw [State.recov_ev, State.recov_abortTests, State.recov_dropRotation, State.recov_logReset, State.recov_addHold,
        State.recov_incF, State.recov_setF]), State.part_updPart_same]
  case state =>
    rw [State.f_ev _ _ _ _ (pt_notMem p (by decide)), State.f_abortTests _ _ (pt_notMem p (by decide)),
      State.f_dropRotation _ _ _ (pt_notMem p (by decide)), State.f_logReset, State.f_addHold _ _ _ (pt_notMem p (by decide)),
      State.f_incF_pt (W := [(1, R.RS_COUNT.off)]) (pt_notMem p (by decide)) p 1 (by decide),
      State.f_setF_same _ _ _ _ (by decide)]
    rfl
  case hold =>
    have kept : ∀ a b : State, b.holdsOf = a.holdsOf → (b.part p).holds = (a.part p).holds := fun a b e => congrFun e p
    rw [kept _ _ ((State.holds_ev ..).trans ((State.holds_abortTests ..).trans ((State.holds_dropRotation ..).trans
      (State.holds_logReset ..))))]
    exact State.addHold_holds _ p _
  case memories =>
    rw [State.memories_ev, State.memories_abortTests, State.memories_dropRotation, State.memories_logReset,
      State.memories_addHold, State.memories_incF, State.memories_setF, State.memories_updPart]

/-- A command that a withdrawn device still answers, of the owner, is carried out. -/
theorem State.command_of_answered {s : State} {ld : LdId} {op : Nat} {n : Notice} (found : s.cmdNotice ld op = some n)
    (answered : answersWithdrawn op = true) (owner : ld = s.owner) (arg : Nat) (k : Notice → State → State) :
    s.command ld op arg true k = .next (k { n with phase := .acting } (s.acting ld op arg n)) := by
  unfold State.command
  rw [found]
  dsimp only
  rw [if_neg (by simp [answered]), if_neg (by simp [owner])]
  rfl

/-- A command of any LD on a device that is not withdrawn is carried out. -/
theorem State.command_of_any {s : State} {ld : LdId} {op : Nat} {n : Notice} (found : s.cmdNotice ld op = some n)
    (live : s.withdrawn = false) (arg : Nat) (k : Notice → State → State) :
    s.command ld op arg false k = .next (k { n with phase := .acting } (s.acting ld op arg n)) := by
  unfold State.command
  rw [found]
  dsimp only
  rw [if_neg (by simp [live]), if_neg (by simp [live])]
  rfl

theorem State.acting_mayAsk (s : State) (l : LdId) (op arg : Nat) (n : Notice) (ld : LdId) (p : PartId) :
    (s.acting l op arg n).mayAsk ld p = s.mayAsk ld p := by
  have owner : (s.acting l op arg n).owner = s.owner := s.ev_owner .hub Ev.CFG_WRITE [l.val, op, arg % 2 ^ 32]
  unfold State.mayAsk
  rw [owner, State.acting_bound]

theorem execResetPartition_starts {ld : LdId} {p : PartId} {n : Notice} {s : State} (found : s.cmdNotice ld 0x0504 = some n)
    (live : s.withdrawn = false) (asks : s.mayAsk ld p = true) (here : s.f (pt p) F.RS_STATUS_withdrawn = 0)
    (enabled : s.enabled p = true) :
    execResetPartition ld p s = .next ((s.acting ld 0x0504 p.val n).startReset p 1 ld.val false (some (n.ld, n.bit))) := by
  have here' := (s.acting_pt ld 0x0504 p.val n p (g := F.RS_STATUS_withdrawn) (by decide) (by decide)).trans here
  unfold execResetPartition
  rw [State.command_of_any found live]
  simp [State.acting_mayAsk, asks, here', enabled]

/-- The resets that count towards a withdrawal forgotten (R295). -/
def State.forgetResets (s : State) : State :=
  allParts.foldl (fun t p => t.updPart p (fun x => { x with resetTimes := [] }))
    { s with stew := { s.stew with devResets := [] } }

theorem resetTimes_updPart_nil (t : State) {p r : PartId} (h : r = p ∨ (t.part r).resetTimes = []) :
    ((t.updPart p (fun x => { x with resetTimes := [] })).part r).resetTimes = [] := by
  by_cases e : r = p
  · rw [e, State.part_updPart_same]
  · rw [State.part_updPart_ne _ _ e]
    exact h.resolve_left e

theorem forgetResets_times (s : State) : ∀ p, (s.forgetResets.part p).resetTimes = []
  | 0 => resetTimes_updPart_nil _ (.inr (resetTimes_updPart_nil _ (.inr (resetTimes_updPart_nil _ (.inr
      (resetTimes_updPart_nil _ (.inl rfl)))))))
  | 1 => resetTimes_updPart_nil _ (.inr (resetTimes_updPart_nil _ (.inr (resetTimes_updPart_nil _ (.inl rfl)))))
  | 2 => resetTimes_updPart_nil _ (.inr (resetTimes_updPart_nil _ (.inl rfl)))
  | 3 => resetTimes_updPart_nil _ (.inl rfl)

theorem forgetResets_stew (s : State) : s.forgetResets.stew = { s.stew with devResets := [] } :=
  State.foldl_rest State.stew _ (fun t p => t.stew_updPart p _) allParts _

theorem memories_forgetResets (s : State) : s.forgetResets.memories = s.memories :=
  (State.memories_foldl (fun t p => t.memories_updPart p _) allParts).trans State.memories_mk

theorem State.ns_updPart (s : State) (p : PartId) (k : Part → Part) : (s.updPart p k).ns = s.ns := (rfl)

theorem forgetResets_ns (s : State) : s.forgetResets.ns = s.ns := by
  unfold State.forgetResets
  rw [State.foldl_rest State.ns (fun t p => t.updPart p (fun x => { x with resetTimes := [] })) (fun t p => t.ns_updPart p _)]
  rfl

theorem execAckWithdrawn_restarts {ld : LdId} {n : Notice} {s : State} (found : s.cmdNotice ld 0x0503 = some n)
    (withdrawn : s.f hub F.RS_DEVICE_withdrawn = 1) (owner : ld = s.owner) :
    execAckWithdrawn ld s = .next ((s.acting ld 0x0503 0 n).forgetResets.startDevice 4 ld.val) := by
  unfold execAckWithdrawn
  rw [State.command_of_answered found rfl owner]
  dsimp only
  rw [s.acting_hub ld 0x0503 0 n (g := F.RS_DEVICE_withdrawn) (by decide), if_neg (by rw [withdrawn]; decide)]
  rfl

/-- Settles O45. -/
theorem resetCommands : Obligations.ResetCommands := by
  unfold Obligations.ResetCommands
  refine ⟨?partition, ?device, ?withdrawn⟩
  case partition =>
    intro ld p n s found live asks here enabled idle
    have idle' : ((s.acting ld 0x0504 p.val n).part p).recovery = none := by
      simp only [State.part, State.acting_parts]
      exact idle
    have here' := (s.acting_pt ld 0x0504 p.val n p (g := F.RS_STATUS_withdrawn) (by decide) (by decide)).trans here
    obtain ⟨⟨r, some_, cause, requester, notices, start⟩, state, hold, kept⟩ :=
      startReset_begins (s.acting ld 0x0504 p.val n) p ld.val (n.ld, n.bit) idle' here'
    exact ⟨_, r, execResetPartition_starts found live asks here enabled, some_, cause, requester, notices,
      start.trans (s.acting_ns ld 0x0504 p.val n), state, hold,
      memoriesKept_of (kept.trans (s.memories_acting ld 0x0504 p.val n))⟩
  case device =>
    intro ld n s h idle die
    have stew := s.acting_stew ld 0x0502 0 n
    obtain ⟨req, cause, off, kept, -⟩ := startDevice_begins (s.acting ld 0x0502 0 n) 1 ld.val (.inl rfl)
      ((congrArg Steward.devReq stew).trans idle) ((congrArg Steward.die stew).trans die)
    have run : execResetDevice ld s = .next _ := State.command_of_commanded h 0 true _
    exact ⟨_, run, req.trans (by rw [State.acting_ns]), cause, off,
      memoriesKept_of (kept.trans (s.memories_acting ld 0x0502 0 n))⟩
  case withdrawn =>
    intro ld n s found withdrawn owner idle die
    have stew := s.acting_stew ld 0x0503 0 n
    have same := forgetResets_stew (s.acting ld 0x0503 0 n)
    obtain ⟨req, cause, off, kept, times, -⟩ := startDevice_begins (s.acting ld 0x0503 0 n).forgetResets 4 ld.val (.inr (.inr rfl))
      (by rw [same, stew]; exact idle) (by rw [same, stew]; exact die)
    exact ⟨_, execAckWithdrawn_restarts found withdrawn owner, req.trans (by rw [forgetResets_ns, State.acting_ns]), cause,
      fun p => (times p).trans (forgetResets_times _ p),
      memoriesKept_of (kept.trans ((memories_forgetResets _).trans (s.memories_acting ld 0x0503 0 n)))⟩

end Sys2Proof.Machine
end

section
namespace Sys2Proof.Machine

-- Proved in parallel, these proofs hold a thread each, whose stacks pass the check's memory.
set_option Elab.async false

/-! ## Attestation, history reads and SMBus (O48) -/

theorem State.parts_mk {s : State} {pending now timeBase freeCount regs latches stitchers quires flights creditFlights srcs
    mem memMark triggers trackers charges mgn dramFixes sparesUsed remaps notices comps ctlPage cmdArea bar2 msix extents
    filter snoops readWait hostData links spine spNext regAns halfChg thermal staging stageLostAt stageLostN recNext mapCopies
    mapBefore runs tested pulseEnd ioNext tickIn stew} :
State.parts ⟨pending, now, timeBase, freeCount, regs, latches, stitchers, quires, s.parts, flights, creditFlights, srcs, mem,
      memMark, triggers, trackers, charges, mgn, dramFixes, sparesUsed, remaps, notices, comps, ctlPage, cmdArea, bar2, msix,
      extents, filter, snoops, readWait, hostData, links, spine, spNext, regAns, halfChg, thermal, staging, stageLostAt,
      stageLostN, recNext, mapCopies, mapBefore, runs, tested, pulseEnd, ioNext, tickIn, stew⟩ = s.parts := (rfl)

theorem State.parts_ite {c : Prop} [Decidable c] {a b : State} :
    State.parts (if c then a else b) = if c then a.parts else b.parts := by
  split <;> rfl

theorem State.parts_foldl {α : Type} {g : State → α → State} {s : State} (step : ∀ s a, (g s a).parts = s.parts)
    (xs : List α) : (xs.foldl g s).parts = s.parts :=
  State.foldl_rest State.parts g step xs s

theorem State.parts_setSt (s : State) (u : StId) (x : Stitcher) : (s.setSt u x).parts = s.parts := (rfl)

theorem State.parts_updSt (s : State) (u : StId) (f : Stitcher → Stitcher) : (s.updSt u f).parts = s.parts := (rfl)

theorem State.parts_setQu (s : State) (q : QuireId) (x : Quire) : (s.setQu q x).parts = s.parts := (rfl)

theorem State.parts_updQu (s : State) (q : QuireId) (f : Quire → Quire) : (s.updQu q f).parts = s.parts := (rfl)

theorem State.parts_setSrc (s : State) (x : Src) (v : SrcSt) : (s.setSrc x v).parts = s.parts := (rfl)

theorem State.parts_updSrc (s : State) (x : Src) (f : SrcSt → SrcSt) : (s.updSrc x f).parts = s.parts := (rfl)

theorem State.parts_wr (s : State) (b : Nat) (r : Reg) (v : BitVec 32) : (s.wr b r v).parts = s.parts := (rfl)

theorem State.parts_setF (s : State) (b : Nat) (g : Fld) (v : Nat) : (s.setF b g v).parts = s.parts := (rfl)

theorem State.parts_incF (s : State) (b : Nat) (g : Fld) (n : Nat) : (s.incF b g n).parts = s.parts := (rfl)

theorem State.parts_setCnt (s : State) (b : Nat) (lo hi : Reg) (v : Nat) : (s.setCnt b lo hi v).parts = s.parts := (rfl)

theorem State.parts_raise (s : State) (x : Src) (code sev : Nat) (cap : List Nat) : (s.raise x code sev cap).parts = s.parts :=
  (congrArg State.parts (s.raise_rest x code sev cap) :)

theorem State.parts_ev (s : State) (x : Src) (code : Nat) (cap : List Nat) : (s.ev x code cap).parts = s.parts :=
  s.parts_raise x code (evSev code) cap

theorem State.parts_complete (s : State) (n : Notice) (status result : Nat) : (s.complete n status result).parts = s.parts :=
  (congrArg State.parts (s.complete_rest n status result) :)

theorem State.parts_devWrite (s : State) (ld : Nat) (off : Nat) : (s.devWrite ld off).parts = s.parts := by
  simp only [State.devWrite, State.parts_ite, ite_self]

theorem State.parts_refuse (s : State) (n : Notice) (status reason : Nat) (result : Nat) :
    (s.refuse n status reason result).parts = s.parts := by
  simp only [State.refuse, State.parts_ev, State.parts_complete]

theorem State.parts_endCmd (s : State) (k : Nat × Nat) (status result : Nat) : (s.endCmd k status result).parts = s.parts := by
  unfold State.endCmd
  split <;> simp only [State.parts_complete]

theorem State.f_devWrite (s : State) (ld : Nat) (off : Nat) (adr : Nat) (fld : Fld) :
    (s.devWrite ld off).f adr fld = s.f adr fld := by
  simp only [State.devWrite, State.f_mk, State.f_ite, ite_self]

/-! What an answer to an attestation keeps. -/

/-- The memories, the partitions, and of the steward the gathering and its next index, with the register that shows it. -/
def State.attestation (s : State) := (s.memories, s.parts, s.stew.attest, s.stew.idNext, s.f hub F.LC_ID_NEXT_next)

/-- A write of the device to a line of the host asks, where the host holds the line, for it back. -/
theorem State.devWrite_rest (s : State) (ld off : Nat) : ({ s.devWrite ld off with snoops := s.snoops } : State) = s := by
  unfold State.devWrite
  dsimp only
  split <;> rfl

theorem State.areaPut_rest {α : Type} (s : State) (ld off : Nat) (b : List (BitVec 8)) (v : State → α)
    (hv : ∀ (t : State) ld off, v (t.devWrite ld off) = v t) :
    v (s.areaPut ld off b) = v { s with cmdArea := memWrite s.cmdArea (ld * 65536 + off) b } :=
  State.foldl_rest v (fun t i => t.devWrite ld (0x10000 + off / 64 * 64 + 64 * i)) (fun t _ => hv t _ _) _ _

theorem State.areaPut_memories (s : State) (ld off : Nat) (b : List (BitVec 8)) : (s.areaPut ld off b).memories = s.memories :=
  (s.areaPut_rest ld off b State.memories State.memories_devWrite).trans State.memories_mk

theorem State.areaPut_parts (s : State) (ld off : Nat) (b : List (BitVec 8)) : (s.areaPut ld off b).parts = s.parts :=
  s.areaPut_rest ld off b State.parts State.parts_devWrite

theorem State.areaPut_comps (s : State) (ld off : Nat) (b : List (BitVec 8)) : (s.areaPut ld off b).comps = s.comps :=
  s.areaPut_rest ld off b State.comps (fun t ld off => (congrArg State.comps (t.devWrite_rest ld off) :))

theorem State.areaPut_notices (s : State) (ld off : Nat) (b : List (BitVec 8)) : (s.areaPut ld off b).notices = s.notices :=
  s.areaPut_rest ld off b State.notices (fun t ld off => (congrArg State.notices (t.devWrite_rest ld off) :))

theorem State.areaPut_cmdArea (s : State) (ld off : Nat) (b : List (BitVec 8)) :
    (s.areaPut ld off b).cmdArea = memWrite s.cmdArea (ld * 65536 + off) b :=
  s.areaPut_rest ld off b State.cmdArea (fun t ld off => congrArg (·.2.2.2) (t.host_devWrite ld off))

theorem State.devWrite_stew (s : State) (ld off : Nat) : (s.devWrite ld off).stew = s.stew :=
  (congrArg State.stew (s.devWrite_rest ld off) :)

theorem State.areaPut_stew (s : State) (ld off : Nat) (b : List (BitVec 8)) : (s.areaPut ld off b).stew = s.stew :=
  s.areaPut_rest ld off b State.stew State.devWrite_stew

theorem State.areaPut_f (s : State) (ld off : Nat) (b : List (BitVec 8)) (adr : Nat) (fld : Fld) :
    (s.areaPut ld off b).f adr fld = s.f adr fld :=
  s.areaPut_rest ld off b (fun t => t.f adr fld) (fun t ld off => t.f_devWrite ld off adr fld)

theorem State.attestation_endCmd (s : State) (k : Nat × Nat) (status result : Nat) :
    (s.endCmd k status result).attestation = s.attestation := by
  simp only [State.attestation, State.memories_endCmd, State.parts_endCmd, State.stew_endCmd,
    State.f_endCmd _ _ _ _ (hub_notMem (x := F.LC_ID_NEXT_next.reg.off) (by decide))]

theorem State.attestation_answerAttest (s : State) (r : AttestReq) (word : Nat) (object : List (BitVec 8)) :
    (s.answerAttest r word object).attestation = s.attestation := by
  unfold State.answerAttest
  dsimp only
  split
  · rw [State.attestation_endCmd]
    simp only [State.attestation, State.areaPut_memories, State.areaPut_parts, State.areaPut_stew, State.areaPut_f]
  · split <;> simp only [State.attestation, State.memories_mk, State.f_mk]

/-- The answers of a gathering. -/
theorem State.attestation_answerAll (s : State) (l : List AttestReq) (word : Nat) (object : List (BitVec 8)) :
    (l.foldl (fun u r => u.answerAttest r word object) s).attestation = s.attestation :=
  State.foldl_rest State.attestation _ (fun t r => t.attestation_answerAttest r word object) l s

theorem State.attestation_noteIdLow (s : State) : s.noteIdLow.attestation = s.attestation := by
  unfold State.noteIdLow
  dsimp only
  split
  · rfl
  · simp only [State.attestation, State.memories_ev, State.memories_mk, State.parts_ev, State.stew_ev,
      State.f_ev _ _ _ _ (hub_notMem (x := F.LC_ID_NEXT_next.reg.off) (by decide)), State.f_mk]

/-- The state whose gathering is taken, with its index used. -/
def State.taken (s : State) : State := ({ s with stew := { s.stew with attest := [] } } : State).takeIndex.1

theorem State.taken_attestation (s : State) : s.taken.attestation =
    (s.memories, s.parts, [], s.stew.idNext + 1, (s.stew.idNext + 1) % 65536) := by
  unfold State.taken State.takeIndex
  dsimp only
  rw [State.attestation, State.memories_of_butEvents (State.showIds_rest _), State.parts_of_butEvents (State.showIds_rest _),
    State.stew_of_butEvents (State.showIds_rest _), State.memories_mk]
  simp only [Prod.mk.injEq, true_and]
  unfold State.showIds
  dsimp only
  rw [State.f_setF_reg _ _ (by decide), State.f_setF_field _ _ _ (by decide) (by decide), State.f_setF_same _ _ _ _ (by decide)]
  rfl

theorem execAttestGatherEnd_answers {s : State} (some_ : s.stew.attest ≠ []) (due : s.stew.attestAt + 20000000 ≤ s.ns)
    (left : s.stew.idNext < 65536) (today : s.idDay < 16) :
    ∃ (o : List (BitVec 8)) (cap : List Nat), execAttestGatherEnd s = .next (s.stew.attest.foldl
      (fun u r => u.answerAttest r 0 o)
      (({ s.taken.useFree with stew := { s.taken.stew with object := o } } : State).ev .hub Ev.ATTEST cap).noteIdLow) := by
  have today' : ({ s with stew := { s.stew with attest := [] } } : State).idDay < 16 := today
  unfold execAttestGatherEnd
  rw [if_neg (by simpa using some_), State.waitNs_of_le s due]
  dsimp only
  rw [if_neg (Nat.not_le.mpr left), if_neg (Nat.not_le.mpr today')]
  exact ⟨_, _, rfl⟩

/-! A request that joins the gathering. -/

theorem State.gather_joins (s : State) (r : AttestReq) (room : s.stew.attest.length < 16) :
    s.gather r = { s with
      stew := { s.stew with
        attest := s.stew.attest ++ [r], attestAt := if s.stew.attest.isEmpty then s.ns else s.stew.attestAt } } := by
  unfold State.gather
  dsimp only
  rw [if_neg (Nat.not_le.mpr room)]

/-- What the request leaves as it is. -/
theorem State.gather_keeps (s : State) (r : AttestReq) (room : s.stew.attest.length < 16) :
    (s.gather r).memories = s.memories ∧ (s.gather r).parts = s.parts ∧ (s.gather r).comps = s.comps ∧
      (s.gather r).stew.attest = s.stew.attest ++ [r] := by
  rw [s.gather_joins r room]
  exact ⟨State.memories_mk, rfl, rfl, rfl⟩

theorem execAttest_joins {ld : LdId} {nonce : BitVec 256} {s : State} (running : s.stew.running = true)
    (die : s.stew.die = true) (secure : s.insecure = false) :
    execAttest ld nonce none s = .next (s.gather { nonce := leBytes 32 nonce.toNat, ld := ld.val, cmd := none }) := by
  unfold execAttest
  dsimp only
  rw [if_neg (by simp [running, die, secure])]

theorem execAttest_command {ld : LdId} {nonce : BitVec 256} {off : BitVec 16} {n : Notice} {s : State}
    (h : commanded s ld 0x0701 n) (fits : off.toNat + 4 + objectBytes ≤ 65536) :
    execAttest ld nonce (some off) s = .next ((s.acting ld 0x0701 off.toNat n).gather
      { nonce := leBytes 32 nonce.toNat, ld := ld.val, cmd := some (n.bit, off.toNat) }) := by
  unfold execAttest
  dsimp only
  rw [State.command_of_commanded h]
  dsimp only
  rw [if_neg (Nat.not_lt.mpr fits)]

/-! The history. -/

/-- A section of the history that stands in the flash as it is read. -/
theorem State.colRead_flash (s : State) {sec off n : Nat} {e : Nat × Nat} (section_ : colSections[sec]? = some e)
    (stored : sec ∉ [0, 1, 3, 13]) (inside : off + n ≤ e.1 * e.2) :
    s.colRead sec off n = some (memRead s.stew.flash (colKey sec off) n) := by
  simp only [List.mem_cons, List.not_mem_nil, or_false, not_or] at stored
  obtain ⟨index, summary, units, maps⟩ := stored
  unfold State.colRead
  rw [section_]
  dsimp only
  rw [if_neg (Nat.not_lt.mpr inside), if_neg index, if_neg summary, if_neg units, if_neg maps]

/-- The words of a command block that COLOPHON_READ takes. -/
theorem execColophonRead_reads {ld : LdId} {sec : BitVec 16} {off : DWord} {n dst : Word} {e : Nat × Nat} {k : Notice}
    {s : State} (h : commanded s ld 0x0801 k) (hsec : leAt (s.cmdBlock k) 4 2 = sec.toNat)
    (hoff : leAt (s.cmdBlock k) 8 8 = off.toNat) (hn : leAt (s.cmdBlock k) 16 4 = n.toNat)
    (hdst : leAt (s.cmdBlock k) 20 4 = dst.toNat) (section_ : colSections[sec.toNat]? = some e)
    (stored : sec.toNat ∉ [0, 1, 3, 13]) (inside : off.toNat + n.toNat ≤ e.1 * e.2) (short : n.toNat ≤ 32768)
    (fits : dst.toNat + n.toNat ≤ 65536) :
    execColophonRead ld sec off n dst false s = .next (((s.acting ld 0x0801 sec.toNat k).areaPut ld.val dst.toNat
      (memRead s.stew.flash (colKey sec.toNat off.toNat) n.toNat)).complete { k with phase := .acting } Cs.done n.toNat) := by
  have read := (s.acting ld 0x0801 sec.toNat k).colRead_flash section_ stored inside
  rw [State.acting_stew] at read
  unfold execColophonRead
  simp only [h.1, hsec, hoff, hn, hdst, decide_true, Bool.and_self]
  rw [if_neg (by decide), State.command_of_commanded h]
  rw [read]
  dsimp only
  rw [if_neg (by omega), if_neg (by decide)]

/-- Settles O48. -/
theorem attestation : Obligations.Attestation := by
  unfold Obligations.Attestation
  refine ⟨?joins, ?command, ?gathered, ?history, fun s running => ⟨?register, ?section_, ?nonce, ?other⟩⟩
  case joins =>
    intro ld nonce s running die secure room
    refine ⟨_, execAttest_joins running die secure, (s.gather_keeps _ room).2.2.2, ?_⟩
    rw [s.gather_joins _ room]
  case command =>
    intro ld nonce off n s h fits room
    have room' : (s.acting ld 0x0701 off.toNat n).stew.attest.length < 16 := by rw [State.acting_stew]; exact room
    obtain ⟨memories, parts, comps, joined⟩ := State.gather_keeps (s.acting ld 0x0701 off.toNat n)
      { nonce := leBytes 32 nonce.toNat, ld := ld.val, cmd := some (n.bit, off.toNat) } room'
    exact ⟨_, execAttest_command h fits, memoriesKept_of (memories.trans (s.memories_acting ld 0x0701 off.toNat n)),
      parts.trans (s.acting_parts ld 0x0701 off.toNat n), comps.trans (s.acting_comps ld 0x0701 off.toNat n),
      joined.trans (by rw [State.acting_stew])⟩
  case gathered =>
    intro s some_ due left today
    obtain ⟨o, cap, run⟩ := execAttestGatherEnd_answers some_ due left today
    refine ⟨_, run, ?_⟩
    have view := (State.attestation_answerAll (({ s.taken.useFree with stew := { s.taken.stew with object := o } } :
      State).ev .hub Ev.ATTEST cap).noteIdLow s.stew.attest 0 o).trans (State.attestation_noteIdLow _)
    have mid : (({ s.taken.useFree with stew := { s.taken.stew with object := o } } : State).ev .hub Ev.ATTEST
        cap).attestation = s.taken.attestation := by
      simp only [State.attestation, State.memories_ev, State.memories_mk, State.memories_useFree, State.parts_ev,
        State.stew_ev, State.f_ev _ _ _ _ (hub_notMem (x := F.LC_ID_NEXT_next.reg.off) (by decide)), State.f_mk]
      rfl
    rw [mid, State.taken_attestation] at view
    simp only [State.attestation, Prod.mk.injEq] at view
    obtain ⟨memories, parts, attest, next, shown⟩ := view
    exact ⟨attest, next, shown, memoriesKept_of memories, parts⟩
  case history =>
    intro ld sec off n dst e k s h hsec hoff hn hdst section_ stored inside short fits
    have run := execColophonRead_reads h hsec hoff hn hdst section_ stored inside short fits
    have len : (memRead s.stew.flash (colKey sec.toNat off.toNat) n.toNat).length = n.toNat := memRead_length ..
    generalize hb : memRead s.stew.flash (colKey sec.toNat off.toNat) n.toNat = b at run len
    have rest := State.complete_rest ((s.acting ld 0x0801 sec.toNat k).areaPut ld.val dst.toNat b) { k with phase := .acting }
      Cs.done n.toNat
    refine ⟨_, run, ended_of_acting ld 0x0801 sec.toNat (mem_of_cmdNotice h.1).1 _ _ ?comps ?notices, memoriesKept_of ?memories,
      ?parts, ?read⟩
    case comps =>
      rw [State.complete_comps, State.areaPut_comps, State.acting_comps]
      rfl
    case notices => rw [State.complete_notices, State.areaPut_notices]
    case memories => rw [State.memories_complete, State.areaPut_memories, State.memories_acting]
    case parts => rw [State.parts_complete, State.areaPut_parts, State.acting_parts]
    case read =>
      rw [State.cmdArea_of_butNotices rest, State.areaPut_cmdArea, ← len, memRead_memWrite]
  case register =>
    intro off die shown
    have run : execSmbusCommand (.reg off) s =
        .next { s with stew := { s.stew with smbus := leBytes 4 (s.peek off.toNat).toNat } } := by
      unfold execSmbusCommand
      dsimp only
      rw [if_neg (by simp [running]), if_pos ⟨die, shown⟩]
    exact ⟨_, run, rfl, rfl⟩
  case section_ =>
    intro sec off n e section_ stored inside short
    have read := (s.ev .hub Ev.CFG_WRITE [0xFF, 0x0801, sec.toNat]).colRead_flash section_ stored inside
    rw [State.ev_stew] at read
    have run : execSmbusCommand (.colophon sec off n) s = .next { s.ev .hub Ev.CFG_WRITE [0xFF, 0x0801, sec.toNat] with
        stew := { s.stew with smbus := memRead s.stew.flash (colKey sec.toNat off.toNat) n.toNat } } := by
      unfold execSmbusCommand
      dsimp only
      rw [if_neg (by simp [running]), if_neg (Nat.not_lt.mpr short), read, State.ev_stew]
    refine ⟨_, run, memoriesKept_of ?_, State.parts_ev .., rfl⟩
    rw [State.memories_mk, State.memories_ev]
  case nonce =>
    intro nonce room
    have room' : (s.ev .hub Ev.CFG_WRITE [0xFF, 0x0701, nonce.toNat % 2 ^ 32]).stew.attest.length < 16 := by
      rw [State.ev_stew]
      exact room
    obtain ⟨memories, parts, -, joined⟩ := State.gather_keeps _
      { nonce := leBytes 32 nonce.toNat, ld := 0xFF, cmd := none } room'
    have run : execSmbusCommand (.attest nonce) s = .next ((s.ev .hub Ev.CFG_WRITE [0xFF, 0x0701,
        nonce.toNat % 2 ^ 32]).gather { nonce := leBytes 32 nonce.toNat, ld := 0xFF, cmd := none }) := by
      unfold execSmbusCommand
      dsimp only
      rw [if_neg (by simp [running])]
    exact ⟨_, run, memoriesKept_of (memories.trans (State.memories_ev ..)), parts.trans (State.parts_ev ..),
      joined.trans (by rw [State.ev_stew])⟩
  case other =>
    have run : execSmbusCommand .other s = .next s := by
      unfold execSmbusCommand
      dsimp only
      split <;> rfl
    exact run

end Sys2Proof.Machine
end

section
namespace Sys2Proof.Machine

-- Proved in parallel, these proofs hold a thread each, whose stacks pass the check's memory.
set_option Elab.async false

/-! ## Power samples, budgets and the input (O34) -/

/-- The state with a partition's budget set. -/
def State.putBudget (s : State) (p : PartId) (v : Nat) : State :=
  { s.setF (pt p) F.PW_BUDGET_watts v with
    stew := { s.stew with keepBudget := spSet 300 s.stew.keepBudget p.val v } }

theorem State.f_putBudget (s : State) (p : PartId) (v adr : Nat) (fld : Fld) :
    (s.putBudget p v).f adr fld = (s.setF (pt p) F.PW_BUDGET_watts v).f adr fld := State.f_mk adr fld

/-- A budget is set with one event or two, or refused with one. -/
theorem setBudget_cases (s : State) (p : PartId) (v ld : Nat) :
    (s.budgetCause p v ≠ 0x72 ∧ ∃ cap, s.setBudget p v ld = s.raise (.part p) Ev.PW_BUDGET 1 cap) ∨
    (s.budgetCause p v = 0x72 ∧ ∃ cap, s.setBudget p v ld = (s.putBudget p v).ev (.part p) Ev.PW_BUDGET cap ∨
      s.setBudget p v ld = ((s.putBudget p v).ev (.part p) Ev.PW_BUDGET cap).ev (.part p) Ev.BUDGET_BELOW_SCHEDULE []) := by
  unfold State.setBudget
  extract_lets old sum c
  by_cases accepted : c = 0x72
  · refine .inr ⟨accepted, [old, v, sum, c, ld], ?_⟩
    rw [if_neg (not_not.mpr accepted)]
    split
    · exact .inr rfl
    · exact .inl rfl
  · exact .inl ⟨accepted, _, if_pos accepted⟩

theorem State.f_setBudget (s : State) (p : PartId) (v ld : Nat) {adr : Nat} {fld : Fld}
    (h : site (adr + fld.reg.off) ∉ [(1, R.PW_BUDGET.off), (1, 0xB00)]) :
    (s.setBudget p v ld).f adr fld = s.f adr fld := by
  have noted : ∀ (t : State) x code cap, (t.ev x code cap).f adr fld = t.f adr fld :=
    fun t x code cap => t.f_ev x code cap (notMem_of_subset h (by decide))
  have set_ : (s.putBudget p v).f adr fld = s.f adr fld := (s.f_putBudget p v adr fld).trans (State.f_setF_pt h p v (by decide))
  obtain ⟨-, cap, e⟩ | ⟨-, cap, e | e⟩ := setBudget_cases s p v ld
  · rw [e, s.f_raise _ _ _ _ (notMem_of_subset h (by decide))]
  · rw [e, noted, set_]
  · rw [e, noted, noted, set_]

theorem State.f_capOn (s : State) (p : PartId) {adr : Nat} {fld : Fld}
    (h : site (adr + fld.reg.off) ∉ [(1, R.PW_PART.off), (1, 0xB00)]) :
    (s.capOn p).f adr fld = s.f adr fld := by
  simp only [State.capOn, State.f_updPart, State.f_setF_pt (g := F.PW_PART_cap) (h := h) (hw := by decide), State.f_incF_pt
    (g := F.PW_PART_cap_events) (h := h) (hw := by decide), State.f_ev (h := notMem_of_subset h (by decide))]

theorem State.f_capOff (s : State) (p : PartId) {adr : Nat} {fld : Fld}
    (h : site (adr + fld.reg.off) ∉ [(1, R.PW_PART.off)]) :
    (s.capOff p).f adr fld = s.f adr fld := by
  simp only [State.capOff, implies_true, State.f_foldl, State.f_updQu, State.f_updPart, State.f_setF_pt (g := F.PW_PART_cap)
    (h := h) (hw := by decide)]

/-- The whole word of a register, as a field. -/
theorem State.rd_of_f {s t : State} {b : Nat} {r : Reg} (h : t.f b ⟨r, 0, 32⟩ = s.f b ⟨r, 0, 32⟩) : t.rd b r = s.rd b r := by
  have whole : ∀ w : BitVec 32, Fld.get ⟨r, 0, 32⟩ w = w.toNat := fun w => by
    simp only [Fld.get, Nat.pow_zero, Nat.div_one]
    exact Nat.mod_eq_of_lt w.isLt
  simp only [State.f, whole] at h
  exact BitVec.eq_of_toNat_eq h

/-! Register writes that pass, of a partition's own registers and of the hub's. -/

theorem State.asleepCause_of_low (s : State) {a : Nat} (h : a % 0x1000000 < 0x800000) : s.asleepCause a = none := by
  unfold State.asleepCause
  cases blockPart a with
  | none => rfl
  | some r => exact if_pos (.inl h)

theorem asleepCause_pt (s : State) (p : PartId) {x : Nat} (h : x < 0x800000) : s.asleepCause (pt p + x) = none :=
  s.asleepCause_of_low (by unfold pt; omega)

theorem asleepCause_hub (s : State) {x : Nat} (h : x < 0x1000000) : s.asleepCause x = none := by
  unfold State.asleepCause blockPart
  rw [if_pos (.inl h)]

/-- The state with a register write recorded. -/
def State.noted (s : State) (w : Writer) (addr value : Nat) : State := s.ev (cfgSrc addr) Ev.CFG_WRITE [w.word, addr, value]

theorem asWrite_pt {s : State} {w : Writer} {p : PartId} {x : Nat} (value : Nat) (k : State → State)
    (pass : s.gateOf w (pt p + x) = .pass) (h : x < 0x800000) (hs : x ≠ R.TK_STRIKE.off) :
    s.asWrite w (pt p + x) value k = k (s.noted w (pt p + x) value) := by
  have e : (pt p + x) % 0x1000000 = x := by unfold pt; omega
  exact s.asWrite_pass value k pass (fun ⟨a, _⟩ => hs (by rw [← e]; exact a)) (asleepCause_pt _ p h)

theorem asWrite_hub {s : State} {w : Writer} {x : Nat} (value : Nat) (k : State → State)
    (pass : s.gateOf w x = .pass) (h : x < 0x1000000) : s.asWrite w x value k = k (s.noted w x value) := by
  have none_ : blockPart x = none := by
    unfold blockPart
    rw [if_pos (.inl h)]
  exact s.asWrite_pass value k pass (fun ⟨_, a⟩ => by simp [none_] at a) (asleepCause_hub _ h)

theorem State.noted_rest (s : State) (w : Writer) (addr value : Nat) : (s.noted w addr value).butEvents = s.butEvents :=
  s.ev_rest ..

theorem State.noted_f (s : State) (w : Writer) (addr value : Nat) {b : Nat} {k : Fld}
    (h : site (b + k.reg.off) ∉ [(1, 0xB00)]) : (s.noted w addr value).f b k = s.f b k := s.f_ev _ _ _ h

/-! Budgets. -/

theorem budgetCause_of_budgets {s t : State} (h : ∀ p, t.budgetOf p = s.budgetOf p) (p : PartId) (v : Nat) :
    t.budgetCause p v = s.budgetCause p v := by
  have sum : t.budgetSum p v = s.budgetSum p v := by
    unfold State.budgetSum
    congr
    funext a r
    rw [h]
  unfold State.budgetCause
  rw [sum]

/-- A budget within its limits stands; another one changes none. -/
theorem setBudget_budgetOf (s : State) (p : PartId) (v ld : Nat) :
    (s.setBudget p v ld).budgetOf p = if s.budgetCause p v = 0x72 then v % 2048 else s.budgetOf p := by
  have noted : ∀ (t : State) x code cap, (t.ev x code cap).budgetOf p = t.budgetOf p :=
    fun t x code cap => t.f_ev x code cap (pt_notMem p (by decide))
  have set_ : (s.putBudget p v).budgetOf p = v % 2048 := (s.f_putBudget p v _ _).trans (State.f_setF_same _ _ _ _ (by decide))
  obtain ⟨refused, cap, e⟩ | ⟨accepted, cap, e | e⟩ := setBudget_cases s p v ld
  · rw [e, if_neg refused]
    exact s.f_raise _ _ _ _ (pt_notMem p (by decide))
  · rw [e, if_pos accepted, noted, set_]
  · rw [e, if_pos accepted, noted, noted, set_]

theorem setBudget_parts (s : State) (p : PartId) (v ld : Nat) : (s.setBudget p v ld).parts = s.parts := by
  simp only [State.setBudget, State.parts_ite, State.parts_ev, State.parts_raise, State.parts_setF, ite_self]

/-! A value that depends on a partition's units alone, through a step for each partition. -/

/-- Of the steps for the four partitions only the one for `p` changes what `v` is of. -/
theorem foldl_allParts_at {α : Type} (step : State → PartId → State) (v : State → α) (p : PartId)
    (others : ∀ t r, r ≠ p → v (step t r) = v t) (s : State) :
    ∃ s', v s' = v s ∧ v (allParts.foldl step s) = v (step s' p) := by
  match p with
  | 0 => exact ⟨s, rfl, (others _ 3 (by decide)).trans ((others _ 2 (by decide)).trans (others _ 1 (by decide)))⟩
  | 1 => exact ⟨_, others s 0 (by decide), (others _ 3 (by decide)).trans (others _ 2 (by decide))⟩
  | 2 => exact ⟨_, (others _ 1 (by decide)).trans (others s 0 (by decide)), others _ 3 (by decide)⟩
  | 3 => exact ⟨_, (others _ 2 (by decide)).trans ((others _ 1 (by decide)).trans (others s 0 (by decide))), rfl⟩

/-! Caps. -/

/-- What a power sample does to a partition (R366), with the module's cap on or not. -/
def State.capStep (fast : List Nat) (mod : Bool) (t : State) (p : PartId) : State :=
  let x := t.part p
  let w := fast.getD p.val 0
  let own := if x.capOwn then decide (x.budget < w) else decide (105 * x.budget < 100 * w)
  let t := t.updPart p (fun y => { y with capOwn := own })
  let on := own || (mod && t.running p)
  let is := decide (t.f (pt p) F.PW_PART_cap = 1)
  if on && !is then t.capOn p else if is && !on then t.capOff p else t

/-- What a cap is decided by and shown in. -/
def State.capView (s : State) (p : PartId) := (s.part p, s.f (pt p) F.PW_PART_cap, s.f (pt p) F.PW_PART_watts)

theorem setF_pt_ne (s : State) {p r : PartId} (h : r ≠ p) {g k : Fld} (v : Nat) (hr : k.reg = g.reg) :
    (s.setF (pt p) g v).f (pt r) k = s.f (pt r) k := by
  refine s.f_setF_reg v ?_
  have apart := Fin.val_ne_of_ne h
  rw [hr]
  unfold pt
  omega

theorem capView_updPart (s : State) {p r : PartId} (h : p ≠ r) (k : Part → Part) :
    (s.updPart r k).capView p = s.capView p := by
  simp only [State.capView, State.part_updPart_ne _ _ h, State.f_updPart]

theorem capView_updQu (s : State) (p : PartId) (q : QuireId) (k : Quire → Quire) :
    (s.updQu q k).capView p = s.capView p := (rfl)

theorem capView_capOn (s : State) {p r : PartId} (h : p ≠ r) : (s.capOn r).capView p = s.capView p := by
  have part : (s.capOn r).part p = s.part p := by
    unfold State.capOn
    rw [State.ev_part, State.part_updPart_ne _ _ h]
    simp only [State.part, State.incF_parts, State.setF_parts]
  have field : ∀ k : Fld, k.reg = R.PW_PART → (s.capOn r).f (pt p) k = s.f (pt p) k := fun k hk => by
    unfold State.capOn
    dsimp only
    rw [State.f_ev _ _ _ _ (hk ▸ pt_notMem p (by decide)), State.f_updPart]
    exact (setF_pt_ne _ h _ hk).trans (setF_pt_ne _ h _ hk)
  unfold State.capView
  rw [part, field _ rfl, field _ rfl]

theorem capView_capOff (s : State) {p r : PartId} (h : p ≠ r) : (s.capOff r).capView p = s.capView p := by
  unfold State.capOff
  refine (capView_updPart _ h _).trans ((State.foldl_rest (fun t => t.capView p) _ (fun t q => capView_updQu t p q _) _ _).trans ?_)
  unfold State.capView
  rw [setF_pt_ne (g := F.PW_PART_cap) (k := F.PW_PART_cap) _ h _ rfl,
    setF_pt_ne (g := F.PW_PART_cap) (k := F.PW_PART_watts) _ h _ rfl]
  simp only [State.part, State.setF_parts]

theorem capView_capStep (fast : List Nat) (mod : Bool) (s : State) {p r : PartId} (h : p ≠ r) :
    (s.capStep fast mod r).capView p = s.capView p := by
  unfold State.capStep
  extract_lets x w own t on is
  have same : t.capView p = s.capView p := capView_updPart s h _
  split
  · rw [capView_capOn _ h, same]
  · split
    · rw [capView_capOff _ h, same]
    · exact same

/-- A sample above 105% of the frame's budget engages the cap of a partition that had none. -/
theorem capStep_engages (fast : List Nat) (mod : Bool) (s : State) (p : PartId) (free : (s.part p).capOwn = false)
    (past : 105 * (s.part p).budget < 100 * fast.getD p.val 0) (open_ : s.f (pt p) F.PW_PART_cap = 0) :
    let t := s.capStep fast mod p
    t.f (pt p) F.PW_PART_cap = 1 ∧ (t.part p).capOwn = true ∧ (t.part p).capAt = some (s.part p).cyc ∧
      t.f (pt p) F.PW_PART_watts = s.f (pt p) F.PW_PART_watts := by
  have on : s.capStep fast mod p = (s.updPart p (fun y => { y with capOwn := true })).capOn p := by
    unfold State.capStep
    simp only [free, past, State.f_updPart, open_]
    rfl
  intro t
  have other : ∀ k : Fld, k.reg = R.PW_PART → k.lo + k.w ≤ 16 → t.f (pt p) k =
      ((s.updPart p (fun y => { y with capOwn := true })).setF (pt p) F.PW_PART_cap 1).f (pt p) k := fun k hk below => by
    simp only [t, on, State.capOn]
    rw [State.f_ev _ _ _ _ (hk ▸ pt_notMem p (by decide)), State.f_updPart]
    exact State.f_setF_field _ _ _ hk (.inr ⟨below, by decide⟩)
  have part : t.part p = { s.part p with capOwn := true, capAt := some (s.part p).cyc } := by
    simp only [t, on, State.capOn]
    rw [State.ev_part, State.part_updPart_same]
    have same : ∀ (u : State) b g v b' g' n, ((u.setF b g v).incF b' g' n).part p = u.part p := fun u b g v b' g' n => by
      simp only [State.part, State.incF_parts, State.setF_parts]
    rw [same, State.part_updPart_same]
  refine ⟨?_, ?_, ?_, ?_⟩
  · rw [other _ rfl (by decide), State.f_setF_same _ _ _ _ (by decide)]
    rfl
  · rw [part]
  · rw [part]
  · rw [other _ rfl (by decide), State.f_setF_field (g := F.PW_PART_cap) (k := F.PW_PART_watts) _ _ _ rfl (by decide),
      State.f_updPart]

theorem memories_capStep (fast : List Nat) (mod : Bool) (s : State) (p : PartId) :
    (s.capStep fast mod p).memories = s.memories := by
  simp only [State.capStep, State.memories_ite, State.memories_capOn, State.memories_capOff, State.memories_updPart, ite_self]

theorem hub_capStep (fast : List Nat) (mod : Bool) (s : State) (p : PartId) {g : Fld} (h : g.reg.off < 0x1000000) :
    (s.capStep fast mod p).f hub g = s.f hub g := by
  have out : ∀ W : List (Nat × Nat), (∀ x ∈ W, x.1 = 1) → site (hub + g.reg.off) ∉ W := fun W hW m => by
    rw [site_hub h] at m
    exact absurd (hW _ m) (by simp)
  simp only [State.capStep, State.f_ite, State.f_capOn (h := out _ (by decide)), State.f_capOff (h := out _ (by decide)),
    State.f_updPart, ite_self]

/-- The state in which a power sample's registers stand. -/
def State.sampled (s : State) (slow : List Nat) (input : Nat) : State :=
  (allParts.foldl (fun t p => t.setF (pt p) F.PW_PART_watts (min 2047 (slow.getD p.val 0))) s).setF hub F.PW_MODULE_watts
    (min 4095 input)

/-- What the registers of a sample leave of a partition, and what they show. -/
theorem sampled_keeps (s : State) (slow : List Nat) (input : Nat) (p : PartId) :
    let t := s.sampled slow input
    t.part p = s.part p ∧ t.f (pt p) F.PW_PART_cap = s.f (pt p) F.PW_PART_cap ∧
      t.f (pt p) F.PW_PART_watts = min 2047 (slow.getD p.val 0) ∧ t.f hub F.PW_MODULE_watts = min 4095 input ∧
      t.memories = s.memories := by
  let step := fun (t : State) (r : PartId) => t.setF (pt r) F.PW_PART_watts (min 2047 (slow.getD r.val 0))
  have others : ∀ (t : State) r, r ≠ p → (step t r).f (pt p) F.PW_PART_watts = t.f (pt p) F.PW_PART_watts :=
    fun t r h => setF_pt_ne t h.symm _ rfl
  obtain ⟨s', -, shown⟩ := foldl_allParts_at step (fun t => t.f (pt p) F.PW_PART_watts) p others s
  have cap : ∀ (t : State) r, (step t r).f (pt p) F.PW_PART_cap = t.f (pt p) F.PW_PART_cap := fun t r => by
    by_cases h : r = p
    · rw [h]
      exact State.f_setF_field _ _ _ rfl (.inl ⟨by decide, by decide⟩)
    · exact setF_pt_ne t (Ne.symm h) _ rfl
  have off : ∀ (t : State) k, k.reg = R.PW_PART → (t.setF hub F.PW_MODULE_watts (min 4095 input)).f (pt p) k = t.f (pt p) k :=
    fun t k hk => State.f_setF_hub (W := [(0, R.PW_MODULE.off)]) (hk ▸ pt_notMem p (by decide)) _ (by decide)
  refine ⟨?_, ?_, ?_, ?_, ?_⟩
  · have parts : (s.sampled slow input).parts = s.parts :=
      (State.setF_parts ..).trans (State.foldl_rest State.parts step (fun t r => State.setF_parts ..) allParts s)
    exact State.part_congr parts p
  · exact (off _ _ rfl).trans (State.foldl_rest (fun t => t.f (pt p) F.PW_PART_cap) step cap allParts s)
  · refine (off _ _ rfl).trans (shown.trans ((State.f_setF_same _ _ _ _ (by decide)).trans ?_))
    exact Nat.mod_eq_of_lt (show min 2047 (slow.getD p.val 0) < 2 ^ 11 by omega)
  · refine (State.f_setF_same _ _ _ _ (by decide)).trans ?_
    exact Nat.mod_eq_of_lt (show min 4095 input < 2 ^ 12 by omega)
  · exact (State.memories_setF ..).trans (State.memories_foldl (fun t r => State.memories_setF ..) allParts)

/-- What the module's cap is shown in. -/
def State.moduleCap (s : State) (on count : Bool) (cap : List Nat) : State :=
  let t := s.setF hub F.PW_MODULE_cap (if on then 1 else 0)
  if count then (t.incF hub F.PW_MODULE_cap_events).ev .hub Ev.PW_MODULE_CAP cap else t

theorem moduleCap_keeps (s : State) (on count : Bool) (cap : List Nat) :
    (∀ p, (s.moduleCap on count cap).capView p = s.capView p) ∧
      (s.moduleCap on count cap).f hub F.PW_MODULE_watts = s.f hub F.PW_MODULE_watts ∧
      (s.moduleCap on count cap).memories = s.memories := by
  have part : (s.moduleCap on count cap).parts = s.parts := by
    simp only [State.moduleCap, State.parts_ite, State.parts_ev, State.parts_incF, State.parts_setF, ite_self]
  have pt_ : ∀ p k, k.reg = R.PW_PART → (s.moduleCap on count cap).f (pt p) k = s.f (pt p) k := fun p k hk => by
    have h : site (pt p + k.reg.off) ∉ [(0, R.PW_MODULE.off), (1, 0xB00)] := hk ▸ pt_notMem p (by decide)
    simp only [State.moduleCap, State.f_ite, State.f_ev (h := notMem_of_subset h (by decide)),
      State.f_setF_hub (g := F.PW_MODULE_cap) (h := h) (hw := by decide),
      State.f_incF_hub (g := F.PW_MODULE_cap_events) (h := h) (hw := by decide), ite_self]
  refine ⟨fun p => ?_, ?_, ?_⟩
  · unfold State.capView
    rw [State.part_congr part, pt_ p _ rfl, pt_ p _ rfl]
  · have below : ∀ (t : State) g v, g.reg = R.PW_MODULE → 12 ≤ g.lo → g.lo + g.w ≤ 32 →
        (t.setF hub g v).f hub F.PW_MODULE_watts = t.f hub F.PW_MODULE_watts := fun t g v hg lo hi =>
      State.f_setF_field _ _ _ hg.symm (.inr ⟨lo, hi⟩)
    unfold State.moduleCap
    dsimp only
    split
    · rw [State.ev_hub _ _ _ _ (by decide), State.incF, below _ _ _ rfl (by decide) (by decide),
        below _ _ _ rfl (by decide) (by decide)]
    · exact below _ _ _ rfl (by decide) (by decide)
  · simp only [State.moduleCap, State.memories_ite, State.memories_ev, State.memories_incF, State.memories_setF, ite_self]

/-- A power sample: the registers, the module's cap, then the caps of the partitions. -/
theorem execPowerSample_steps {s : State} (fast slow : List Nat) (input : Nat) (die : s.stew.die = true) :
    ∃ mod count cap, execPowerSample fast slow input s =
      .next (allParts.foldl (State.capStep fast mod) ((s.sampled slow input).moduleCap mod count cap)) := by
  unfold execPowerSample
  rw [if_neg (by simp [die])]
  exact ⟨_, _, _, rfl⟩

theorem powerSample_engages {fast slow : List Nat} {input : Nat} {p : PartId} {s : State} (die : s.stew.die = true)
    (free : (s.part p).capOwn = false) (past : 105 * (s.part p).budget < 100 * fast.getD p.val 0)
    (open_ : s.f (pt p) F.PW_PART_cap = 0) :
    ∃ t, execPowerSample fast slow input s = .next t ∧ t.f (pt p) F.PW_PART_cap = 1 ∧ (t.part p).capOwn = true ∧
      (t.part p).capAt = some (s.part p).cyc ∧ t.f (pt p) F.PW_PART_watts = min 2047 (slow.getD p.val 0) ∧
      t.f hub F.PW_MODULE_watts = min 4095 input ∧ MemoriesKept s t := by
  obtain ⟨mod, count, cap, run⟩ := execPowerSample_steps fast slow input die
  obtain ⟨part, closed, watts, total, kept⟩ := sampled_keeps s slow input p
  obtain ⟨view, total', kept'⟩ := moduleCap_keeps (s.sampled slow input) mod count cap
  obtain ⟨u, hu, ht⟩ := foldl_allParts_at (State.capStep fast mod) (fun t => t.capView p) p
    (fun t r h => capView_capStep fast mod t h.symm) ((s.sampled slow input).moduleCap mod count cap)
  have same := hu.trans (view p)
  simp only [State.capView, Prod.mk.injEq] at same ht
  obtain ⟨upart, ucap, uwatts⟩ := same
  obtain ⟨tpart, tcap, twatts⟩ := ht
  rw [part] at upart
  obtain ⟨on, own, at_, shown⟩ := capStep_engages fast mod u p (upart ▸ free) (upart ▸ past) (ucap.trans (closed.trans open_))
  refine ⟨_, run, tcap.trans on, tpart ▸ own, ?_, twatts.trans (shown.trans (uwatts.trans watts)), ?_, memoriesKept_of ?_⟩
  · rw [tpart, at_, upart]
  · exact (State.foldl_rest (fun t => t.f hub F.PW_MODULE_watts) _ (fun t r => hub_capStep fast mod t r (by decide)) _ _).trans
      (total'.trans total)
  · exact (State.memories_foldl (fun t r => memories_capStep fast mod t r) _).trans (kept'.trans kept)

/-! The input. -/

/-- The band as the steward keeps it. -/
def State.inBand (s : State) (b : Nat) : State := if b = s.stew.band then s else { s with stew := { s.stew with band := b } }

theorem inBand_keeps (s : State) (b : Nat) : (s.inBand b).stew = { s.stew with band := b } ∧
    (s.inBand b).memories = s.memories := by
  unfold State.inBand
  split
  · next e =>
    subst e
    exact ⟨rfl, rfl⟩
  · exact ⟨rfl, State.memories_mk⟩

/-- The registers of an input sample within or outside the ratings. -/
def State.inputShown (s : State) (mv ca b : Nat) : State :=
  ((s.setF hub F.PW_INPUT_mv mv).setF hub F.PW_INPUT_centiamps ca).setF hub F.PW_MODULE_out_of_rating (if b = 0 then 0 else 1)

theorem execInputSample_shows {mv ca : BitVec 16} {s : State} (running : s.stew.running = true) (die : s.stew.die = true)
    (noFault : inputBand mv.toNat ≠ 2) :
    ∃ changed cap, execInputSample mv ca s = .next (State.evalShields (if changed = true then
      (s.inBand (inputBand mv.toNat)).inputShown mv.toNat ca.toNat (inputBand mv.toNat) else
      ((s.inBand (inputBand mv.toNat)).inputShown mv.toNat ca.toNat (inputBand mv.toNat)).ev .steward Ev.PW_INPUT cap)) := by
  have stew := (inBand_keeps s (inputBand mv.toNat)).1
  refine ⟨decide (inputBand mv.toNat = s.stew.band), [mv.toNat, ca.toNat, bandCause (inputBand mv.toNat)], ?_⟩
  unfold execInputSample
  change ite ((s.inBand (inputBand mv.toNat)).stew.running = false) _ _ = _
  rw [if_neg (by rw [stew]; simp [running]), if_neg noFault]
  change ite ((s.inBand (inputBand mv.toNat)).stew.die = false) _ _ = _
  rw [if_neg (by rw [stew]; simp [die])]
  simp only [decide_eq_true_eq]
  rfl

theorem inputShown_f (s : State) (mv ca b : Nat) :
    (s.inputShown mv ca b).f hub F.PW_INPUT_mv = mv % 65536 ∧ (s.inputShown mv ca b).f hub F.PW_INPUT_centiamps = ca % 65536 ∧
      (s.inputShown mv ca b).f hub F.PW_MODULE_out_of_rating = (if b = 0 then 0 else 1) := by
  unfold State.inputShown
  refine ⟨?_, ?_, ?_⟩
  · rw [State.f_setF_reg _ _ (by decide), State.f_setF_field (g := F.PW_INPUT_centiamps) _ _ _ (by decide) (by decide),
      State.f_setF_same _ _ _ _ (by decide)]
    rfl
  · rw [State.f_setF_reg _ _ (by decide), State.f_setF_same _ _ _ _ (by decide)]
    rfl
  · rw [State.f_setF_same _ _ _ _ (by decide)]
    split <;> rfl

theorem inputBand_lt {mv : Nat} (h : inputBand mv ≠ 2) : (if inputBand mv = 0 then 0 else 1) = inputBand mv := by
  unfold inputBand at h ⊢
  split
  · rfl
  · split
    · rfl
    · next a b => simp [a, b] at h

/-- The fault of the input of a module that is not ready for removal. -/
theorem inputFault_off (s : State) (mv ca : Nat) (unready : s.stew.devTest ≠ some 3) :
    let t := s.inputFault mv ca
    t.stew.die = false ∧ t.stew.running = false ∧ t.stew.faultPin = true ∧ t.mem = [] ∧ t.stew.pwrGood = false := by
  intro t
  have pin : (t.stew.faultPin : Bool) = true := by
    simp only [t, State.inputFault, unready, decide_false, Bool.not_false, Bool.or_true]
  exact ⟨rfl, rfl, pin, rfl, rfl⟩

theorem execInputSample_fault {mv ca : BitVec 16} {s : State} (running : s.stew.running = true)
    (fault : inputBand mv.toNat = 2) :
    execInputSample mv ca s = .next ((s.inBand 2).inputFault mv.toNat ca.toNat) := by
  have stew := (inBand_keeps s 2).1
  unfold execInputSample
  rw [fault]
  change ite ((s.inBand 2).stew.running = false) _ _ = _
  rw [if_neg (by rw [stew]; simp [running])]
  rfl

/-! The tick pins. -/

/-- HB_TICK_IO takes its value at once where no pulse is driven and no earlier value waits. -/
theorem writeTickIo_stands (s : State) (v : BitVec 32) (idle : s.ioNext = none) (quiet : s.pulseEnd ≤ s.now) :
    (s.writeTickIo v).rd hub R.HB_TICK_IO = tickIoWord (s.rd hub R.HB_TICK_IO) v ∧ (s.writeTickIo v).ioNext = none ∧
      (s.writeTickIo v).parts = s.parts := by
  have first : s.settleIo = s := by
    unfold State.settleIo
    rw [idle]
  unfold State.writeTickIo
  rw [first]
  unfold State.settleIo
  dsimp only
  rw [if_neg (Nat.not_lt.mpr quiet)]
  exact ⟨State.rd_wr_same .., rfl, rfl⟩

/-- Settles O34. -/
theorem powerInputs : Obligations.PowerInputs := by
  unfold Obligations.PowerInputs
  refine ⟨?sample, ?input, ?fault, ?budget, ?pins⟩
  case sample =>
    intro fast slow input p s _ _ die free past open_
    exact powerSample_engages die free past open_
  case input =>
    intro mv ca s running die noFault
    obtain ⟨changed, cap, run⟩ := execInputSample_shows (ca := ca) running die noFault
    obtain ⟨stew, kept⟩ := inBand_keeps s (inputBand mv.toNat)
    obtain ⟨shownMv, shownCa, shownBand⟩ := inputShown_f (s.inBand (inputBand mv.toNat)) mv.toNat ca.toNat (inputBand mv.toNat)
    have stew' : ((s.inBand (inputBand mv.toNat)).inputShown mv.toNat ca.toNat (inputBand mv.toNat)).stew =
        { s.stew with band := inputBand mv.toNat } := by
      unfold State.inputShown
      rw [State.setF_stew, State.setF_stew, State.setF_stew, stew]
    have kept' : ((s.inBand (inputBand mv.toNat)).inputShown mv.toNat ca.toNat (inputBand mv.toNat)).memories = s.memories := by
      unfold State.inputShown
      rw [State.memories_setF, State.memories_setF, State.memories_setF, kept]
    generalize (s.inBand (inputBand mv.toNat)).inputShown mv.toNat ca.toNat (inputBand mv.toNat) = u at *
    have field : ∀ g : Fld, g.reg.off < 0x1000000 → (State.evalShields (if changed = true then u else
        u.ev .steward Ev.PW_INPUT cap)).f hub g = u.f hub g := fun g h => by
      rw [State.evalShields_hub _ h, State.f_ite, State.ev_hub _ _ _ _ h, ite_self]
    have steward : (State.evalShields (if changed = true then u else u.ev .steward Ev.PW_INPUT cap)).stew = u.stew := by
      rw [State.stew_of_butEvents (State.evalShields_rest _), State.stew_ite, State.stew_ev, ite_self]
    refine ⟨_, run, ?_, ?_, ?_, ?_, ?_, memoriesKept_of ?_⟩
    · rw [field _ (by decide), shownMv]
      exact Nat.mod_eq_of_lt mv.isLt
    · rw [field _ (by decide), shownCa]
      exact Nat.mod_eq_of_lt ca.isLt
    · rw [steward, stew']
    · rw [field _ (by decide), shownBand, inputBand_lt noFault]
    · rw [steward, stew']
      exact die
    · rw [State.memories_of_butEvents (State.evalShields_rest _), State.memories_ite, State.memories_ev, ite_self, kept']
  case fault =>
    intro mv ca s running unready fault
    obtain ⟨die, run, pin, mem, good⟩ := inputFault_off (s.inBand 2) mv.toNat ca.toNat (by
      rw [(inBand_keeps s 2).1]
      exact unready)
    exact ⟨_, execInputSample_fault running fault, die, run, pin, mem, good⟩
  case budget =>
    intro w p v s pass
    let u := s.noted w (pt p + R.PW_BUDGET.off) v.toNat
    have run : execPwBudgetWrite w p v s = .next (u.setBudget p (cut F.PW_BUDGET_watts v) w.word) := by
      unfold execPwBudgetWrite
      rw [asWrite_pt _ _ pass (by decide) (by decide)]
    have budgets : ∀ r, u.budgetOf r = s.budgetOf r := fun r => s.noted_f w _ _ (pt_notMem r (by decide))
    refine ⟨_, run, memoriesKept_of ?_, ?_, ?_⟩
    · rw [State.memories_setBudget]
      exact State.memories_of_butEvents (s.noted_rest ..)
    · rw [setBudget_parts]
      exact State.parts_of_butEvents (s.noted_rest ..)
    · rw [setBudget_budgetOf, budgetCause_of_budgets budgets, budgets]
      have small : cut F.PW_BUDGET_watts v % 2048 = cut F.PW_BUDGET_watts v := Nat.mod_eq_of_lt (Nat.mod_lt _ (by decide))
      rw [small]
      rfl
  case pins =>
    intro w v s pass idle quiet
    let u := s.noted w R.HB_TICK_IO.off v.toNat
    have rest := s.noted_rest w R.HB_TICK_IO.off v.toNat
    have run : execHbTickIoWrite w v s = .next (u.writeTickIo v) := by
      unfold execHbTickIoWrite
      rw [asWrite_hub _ _ pass (by decide)]
    have word : u.rd hub R.HB_TICK_IO = s.rd hub R.HB_TICK_IO := State.rd_of_f (s.noted_f w _ _ (hub_notMem (by decide)))
    obtain ⟨stands, none_, parts⟩ := writeTickIo_stands u v ((congrArg State.ioNext rest :).trans idle)
      ((congrArg State.pulseEnd rest :).trans_le (quiet.trans (State.now_of_butEvents rest).ge))
    refine ⟨_, run, stands.trans (by rw [word]), none_, parts.trans (State.parts_of_butEvents rest), memoriesKept_of ?_⟩
    rw [State.memories_writeTickIo]
    exact State.memories_of_butEvents rest

end Sys2Proof.Machine
end

section
namespace Sys2Proof.Machine

-- Proved in parallel, these proofs hold a thread each, whose stacks pass the check's memory.
set_option Elab.async false

/-! ## The result store (O40) -/

/-- A partition written back as it was. -/
theorem State.part_updPart_self {s : State} {p : PartId} {k : Part → Part} (h : k (s.part p) = s.part p) (r : PartId) :
    (s.updPart p k).part r = s.part r := by
  by_cases e : r = p
  · rw [e, State.part_updPart_same, h]
  · rw [State.part_updPart_ne _ _ e]

theorem Part.drop_pubs {x : Part} (none : x.pubs = []) (n : Nat) : { x with pubs := x.pubs.drop n } = x := by
  rw [none, List.drop_nil, ← none]

/-- With no header to write, the headers that are due leave the state as it is, partition by partition. -/
theorem settlePubs_of_none {s : State} {p : PartId} (none : (s.part p).pubs = []) :
    ({ s.settlePubs p with parts := s.parts } : State) = s ∧ ∀ r, (s.settlePubs p).part r = s.part r := by
  unfold State.settlePubs
  rw [none]
  exact ⟨rfl, fun r => State.part_updPart_self (Part.drop_pubs none _) r⟩

/-- The state without the lines that are being taken back from hosts. -/
def State.butSnoops (s : State) : State := { s with snoops := [] }

theorem State.devWriteP_rest (s : State) (p : PartId) (off : Nat) : (s.devWriteP p off).butSnoops = s.butSnoops := by
  unfold State.devWriteP
  split
  · next l _ => exact (congrArg State.butSnoops (s.devWrite_rest l.val off) :)
  · rfl

theorem slot_updPart (s : State) (p : PartId) (n : Nat) {k : Part → Part} (h : ∀ x, (k x).slots = x.slots) :
    (s.updPart p k).slot p n = s.slot p n := by
  unfold State.slot
  rw [State.part_updPart_same, h]

/-- The state with bytes of a partition's result area in place. -/
def State.withResult (s : State) (p : PartId) (off : Nat) (bytes : List (BitVec 8)) : State :=
  s.updPart p (fun x => { x with result := memWrite x.result off bytes })

theorem slot_withResult (s : State) (p : PartId) (off : Nat) (bytes : List (BitVec 8)) (n : Nat) :
    (s.withResult p off bytes).slot p n = s.slot p n :=
  slot_updPart s p n (k := fun x => { x with result := memWrite x.result off bytes }) (fun _ => rfl)

theorem part_withResult_ne (s : State) {p r : PartId} (off : Nat) (bytes : List (BitVec 8)) (h : r ≠ p) :
    (s.withResult p off bytes).part r = s.part r :=
  State.part_updPart_ne _ _ h

/-- A write of the result area changes its bytes, and takes back the lines that hosts hold of them. -/
theorem resultWrite_rest (s : State) (p : PartId) (off : Nat) (bytes : List (BitVec 8)) :
    (s.resultWrite p off bytes).butSnoops = (s.withResult p off bytes).butSnoops :=
  State.foldl_rest State.butSnoops _ (fun t _ => t.devWriteP_rest p _) _ _

/-- The state after the first forwarded write of a quire has left it. -/
def State.forwarding (s : State) (q : QuireId) (l : List Fwd) : State :=
  (s.settlePubs (partOf q)).setQu q { s.qu q with forwards := l }

/-- The first forwarded write of a quire lands where no header is due before it. -/
theorem execForwardedWrite_lands {q : QuireId} {w : Fwd} {l : List Fwd} {s : State} (first : (s.qu q).forwards = w :: l)
    (now : s.forwardAt q w ≤ (s.part (partOf q)).cyc) (none : (s.part (partOf q)).pubs = []) :
    execForwardedWrite q s = .next ((s.forwarding q l).landForward (partOf q) w) := by
  obtain ⟨rest, parts⟩ := settlePubs_of_none none
  have quire : (s.settlePubs (partOf q)).qu q = s.qu q := (congrArg (State.qu · q) rest :)
  unfold execForwardedWrite
  rw [first]
  dsimp only
  rw [State.waitCycle_of_le _ (by omega), quire, first, if_neg (by simp)]
  rw [State.waitCycle_of_le]
  · rfl
  · exact now.trans_eq (congrArg Part.cyc (parts (partOf q))).symm

/-- A write of payload bytes whose slot is open in its tick stands in the slot's area. -/
theorem landForward_payload {s : State} {p : PartId} {w : Fwd} (still : (s.slot p w.slot).closed w.tick = false)
    (before : (s.slot p w.slot).ctl ≠ some w.tick) (payload : 64 ≤ w.off) (some_ : w.bytes ≠ []) :
    s.landForward p w = s.resultWrite p ((s.slotPlaces p w.slot w.tick).2 + (w.off - 64)) w.bytes := by
  have length := List.length_pos_of_ne_nil some_
  have all : 64 - w.off = 0 := by omega
  unfold State.landForward
  dsimp only
  rw [still, if_neg Bool.false_ne_true, if_neg before, if_pos (show 64 < w.off + w.bytes.length by omega),
    if_neg (show ¬ w.off < 64 by omega), all, List.drop_zero]

/-- A write of the control line whose slot is open in its tick makes the line known. -/
theorem landForward_ctl {s : State} {p : PartId} {w : Fwd} (still : (s.slot p w.slot).closed w.tick = false)
    (before : (s.slot p w.slot).ctl ≠ some w.tick) (ctl : w.off < 64) (inside : w.off + w.bytes.length ≤ 64) :
    s.landForward p w = s.setSlot p w.slot { s.slot p w.slot with
        ctl := some w.tick
        len := (ctlWith (s.slot p w.slot) w.off w.bytes).1
        app := (ctlWith (s.slot p w.slot) w.off w.bytes).2 } := by
  unfold State.landForward
  dsimp only
  rw [still, if_neg Bool.false_ne_true, if_neg before, if_neg (show ¬ 64 < w.off + w.bytes.length by omega), if_pos ctl,
    List.take_of_length_le (by omega)]

/-- A write of the control line's first eight bytes gives its length and its application word. -/
theorem ctlWith_first (x : SlotSt) {bytes : List (BitVec 8)} (eight : bytes.length = 8) :
    ctlWith x 0 bytes = (leAt bytes 0 2, leAt bytes 4 4) := by
  have old : (leBytes 2 x.len ++ [0, 0] ++ leBytes 4 x.app : List (BitVec 8)).length = 8 := by simp
  unfold ctlWith
  dsimp only
  rw [eight, List.take_zero, List.nil_append, List.drop_of_length_le (by omega), List.append_nil]

@[simp] theorem slot_setSlot (s : State) (p : PartId) (k : Nat) (x : SlotSt) : (s.setSlot p k x).slot p k = x := by
  unfold State.slot State.setSlot
  rw [State.part_updPart_same]
  exact spGet_spSet_same ..

theorem forwarding_keeps {q : QuireId} {s : State} (none : (s.part (partOf q)).pubs = []) (l : List Fwd) :
    (s.forwarding q l).memories = s.memories ∧ (∀ r, (s.forwarding q l).part r = s.part r) ∧
      (s.forwarding q l).regs = s.regs ∧ ((s.forwarding q l).qu q).forwards = l := by
  obtain ⟨rest, parts⟩ := settlePubs_of_none none
  refine ⟨?_, parts, (congrArg State.regs rest :), ?_⟩
  · unfold State.forwarding
    rw [State.memories_setQu _ _ _ (by rw [show (s.settlePubs (partOf q)).qu q = s.qu q from (congrArg (State.qu · q) rest :)]),
      State.memories_settlePubs]
  · exact congrArg Quire.forwards (State.qu_setQu_same ..)

theorem othersKept_updPart (s : State) (p : PartId) (k : Part → Part) : OthersKept p s (s.updPart p k) :=
  fun _ h => State.part_updPart_ne _ _ h

theorem slotPlaces_of {s t : State} {p : PartId} (parts : ∀ r, t.part r = s.part r) (regs : t.regs = s.regs) (k tick : Nat) :
    t.slotPlaces p k tick = s.slotPlaces p k tick := by
  have field : ∀ b g, t.f b g = s.f b g := fun b g => by
    unfold State.f State.rd
    rw [regs]
  simp only [State.slotPlaces, State.slotPay, State.slot, slotDepth, field, parts]

/-- Bytes of a result area in place are read back, and every other byte of it is as it was. -/
theorem withResult_bytes (s : State) (p : PartId) (a : Nat) (bytes : List (BitVec 8)) :
    memRead ((s.withResult p a bytes).part p).result a bytes.length = bytes ∧
      ∀ b, (b < a ∨ a + bytes.length ≤ b) →
        spGet 0 ((s.withResult p a bytes).part p).result b = spGet 0 (s.part p).result b := by
  unfold State.withResult
  rw [State.part_updPart_same]
  exact ⟨memRead_memWrite .., fun b h => spGet_memWrite_out _ _ _ _ h⟩

/-- An acknowledge of a streaming slot that does not go back or ahead is kept and shown. -/
theorem execResultAckWrite_kept {ld : LdId} {p : PartId} {k : Fin 32} {v : DWord} {s : State} (mem : s.takesMem = true)
    (bound : s.bound ld p = true) (up : s.fenced p = false) (none : (s.part p).pubs = [])
    (valid : s.f (lb p k) F.CX_SLOT_CFG_valid = 1) (mode : s.f (lb p k) F.CX_SLOT_CFG_mode = 1)
    (back : (s.slot p k).ack ≤ v.toNat) (ahead : v.toNat ≤ (s.slot p k).seq) :
    let u := ((s.settlePubs p).setSlot p k { s.slot p k with ack := v.toNat }).withResult p
      (s.f (lb p k) F.CX_SLOT_CFG_base * 4096) (leBytes 8 v.toNat)
    execResultAckWrite ld p k v s = .next u ∨
      execResultAckWrite ld p k v s = .next (u.updPart p (fun x => { x with ringFull := false })) := by
  obtain ⟨rest, parts⟩ := settlePubs_of_none none
  have field : ∀ b g, (s.settlePubs p).f b g = s.f b g := fun b g => (congrArg (State.f · b g) rest :)
  have slot : (s.settlePubs p).slot p k = s.slot p k := by
    unfold State.slot
    rw [parts]
  unfold execResultAckWrite
  dsimp only
  rw [show (s.settlePubs p).takesMem = s.takesMem from (congrArg State.takesMem rest :), mem,
    show (s.settlePubs p).bound ld p = s.bound ld p from (congrArg (State.bound · ld p) rest :), bound,
    show (s.settlePubs p).fenced p = s.fenced p from (congrArg (State.fenced · p) rest :), up, field, field, valid, mode, slot,
    if_neg (by decide), if_neg (by decide), if_neg (by decide), if_neg (by decide), if_neg (by omega)]
  split
  · exact Or.inr rfl
  · exact Or.inl rfl

/-- Settles O40. -/
theorem resultStore : Obligations.ResultStore := by
  unfold Obligations.ResultStore
  refine ⟨?payload, ?ctl, ?ack⟩
  case payload =>
    intro q w l s first now none still before payload some_
    obtain ⟨mem, parts, regs, forwards⟩ := forwarding_keeps none l
    have slot : (s.forwarding q l).slot (partOf q) w.slot = s.slot (partOf q) w.slot := by
      unfold State.slot
      rw [parts]
    have lands := landForward_payload (s := s.forwarding q l) (w := w) (slot ▸ still) (slot ▸ before) payload some_
    rw [slotPlaces_of parts regs] at lands
    have run := execForwardedWrite_lands first now none
    rw [lands] at run
    have written := resultWrite_rest (s.forwarding q l) (partOf q)
      ((s.slotPlaces (partOf q) w.slot w.tick).2 + (w.off - 64)) w.bytes
    obtain ⟨bytes, others⟩ := withResult_bytes (s.forwarding q l) (partOf q)
      ((s.slotPlaces (partOf q) w.slot w.tick).2 + (w.off - 64)) w.bytes
    have part : ∀ r, ((s.forwarding q l).resultWrite (partOf q) _ w.bytes).part r = _ := fun r =>
      (congrArg (State.part · r) written :)
    have quire : ((s.forwarding q l).resultWrite (partOf q) _ w.bytes).qu q = _ := (congrArg (State.qu · q) written :)
    refine ⟨_, run, ?_, memoriesKept_of ?_, ?_, ?_, fun r h => ?_⟩
    · rw [quire]
      exact forwards
    · rw [State.memories_resultWrite, mem]
    · rw [part]
      exact bytes
    · intro a h
      rw [part, ← parts]
      exact others a h
    · rw [part, ← parts]
      exact part_withResult_ne (s.forwarding q l) _ _ h
  case ctl =>
    intro q w l s first now none still before ctl inside
    obtain ⟨mem, parts, regs, forwards⟩ := forwarding_keeps none l
    have slot : (s.forwarding q l).slot (partOf q) w.slot = s.slot (partOf q) w.slot := by
      unfold State.slot
      rw [parts]
    have lands := landForward_ctl (s := s.forwarding q l) (w := w) (slot ▸ still) (slot ▸ before) ctl inside
    have run := execForwardedWrite_lands first now none
    rw [lands] at run
    refine ⟨_, run, forwards, memoriesKept_of ?_, ?_, ?_, fun start eight => ?_, fun r h => ?_⟩
    · rw [State.memories_setSlot, mem]
    · rw [slot_setSlot]
    · rw [← parts]
      unfold State.setSlot
      rw [State.part_updPart_same]
    · rw [slot_setSlot, start, ctlWith_first _ eight]
      exact ⟨rfl, rfl⟩
    · rw [← parts]
      exact othersKept_updPart _ _ _ r h
  case ack =>
    intro ld p k v s mem bound up none valid mode back ahead
    have run := execResultAckWrite_kept mem bound up none valid mode back ahead
    obtain ⟨rest, parts⟩ := settlePubs_of_none none
    let u := (s.settlePubs p).setSlot p k { s.slot p k with ack := v.toNat }
    let y := u.withResult p (s.f (lb p k) F.CX_SLOT_CFG_base * 4096) (leBytes 8 v.toNat)
    have slot : y.slot p k = { s.slot p k with ack := v.toNat } :=
      (slot_withResult u p _ _ k).trans (slot_setSlot ..)
    have bytes : memRead (y.part p).result (s.f (lb p k) F.CX_SLOT_CFG_base * 4096) 8 = leBytes 8 v.toNat :=
      (withResult_bytes u p _ (leBytes 8 v.toNat)).1
    have others : OthersKept p s y := fun r h => by
      rw [← parts]
      exact (part_withResult_ne u _ _ h).trans (othersKept_updPart _ p _ r h)
    have kept : y.memories = s.memories := by
      unfold y State.withResult u
      rw [State.memories_updPart, State.memories_setSlot, State.memories_settlePubs]
    change execResultAckWrite ld p k v s = .next y ∨ execResultAckWrite ld p k v s = .next (y.updPart p _) at run
    clear_value y
    obtain run | run := run
    · exact ⟨y, run, congrArg SlotSt.ack slot, (congrArg SlotSt.seq slot :), bytes, others, memoriesKept_of kept⟩
    · have slot' := (slot_updPart y p k (k := fun x => { x with ringFull := false }) (fun _ => rfl)).trans slot
      refine ⟨_, run, congrArg SlotSt.ack slot', (congrArg SlotSt.seq slot' :), ?_, fun r h => ?_,
        memoriesKept_of ((State.memories_updPart ..).trans kept)⟩
      · rw [State.part_updPart_same]
        exact bytes
      · exact (othersKept_updPart y p _ r h).trans (others r h)

end Sys2Proof.Machine
end

section
namespace Sys2Proof.Machine

-- Proved in parallel, these proofs hold a thread each, whose stacks pass the check's memory.
set_option Elab.async false

/-! ## Bindings (O44)

The registers, the memories, the recoveries and the retained partitions through the steps that take a partition away. -/

theorem hub_notMem_of {W : List (Nat × Nat)} {x : Nat} (h : x < 0x1000000) (hw : ∀ w ∈ W, w.1 ≠ 0) : site (hub + x) ∉ W :=
  hub_notMem ⟨h, fun m => hw _ m rfl⟩

theorem State.f_setBound (s : State) (l : LdId) (p : PartId) (b : Bool) {adr : Nat} {fld : Fld}
    (h : site (adr + fld.reg.off) ∉ (List.finRange 16).map (fun l => (0, (F.CX_LD_BIND_parts.nth l.val).reg.off))) :
    (s.setBound l p b).f adr fld = s.f adr fld :=
  State.f_setF_hub h _ (by revert l; decide)

theorem State.f_devWriteP (s : State) (p : PartId) (off : Nat) (adr : Nat) (fld : Fld) :
    (s.devWriteP p off).f adr fld = s.f adr fld := by
  unfold State.devWriteP
  split <;> simp only [State.f_devWrite]

theorem State.f_devClearLd (s : State) (l : LdId) (lo hi : Nat) (adr : Nat) (fld : Fld) :
    (s.devClearLd l lo hi).f adr fld = s.f adr fld := by
  simp only [State.devClearLd, State.f_mk]

theorem State.f_devClear (s : State) (p : PartId) (lo hi : Nat) (adr : Nat) (fld : Fld) :
    (s.devClear p lo hi).f adr fld = s.f adr fld := by
  unfold State.devClear
  split <;> simp only [State.f_devClearLd]

theorem State.f_setBar2 (s : State) (a : Nat) (v : BitVec 8) (adr : Nat) (fld : Fld) :
    (s.setBar2 a v).f adr fld = s.f adr fld := (rfl)

theorem State.f_msi (s : State) (ld vec : Nat) (adr : Nat) (fld : Fld) :
    (s.msi ld vec).f adr fld = s.f adr fld := by
  simp only [State.msi, State.f_mk, State.f_ite, ite_self, State.f_setBar2]

theorem State.f_ctlWrite (s : State) (ld off : Nat) (bytes : List (BitVec 8)) (adr : Nat) (fld : Fld) :
    (s.ctlWrite ld off bytes).f adr fld = s.f adr fld := by
  unfold State.ctlWrite
  rw [State.f_devWrite]
  rfl

theorem State.f_abortBox (s : State) (mailbox : Nat) {adr : Nat} {fld : Fld}
    (h : site (adr + fld.reg.off) ∉ [(1, 0xB00), (1, R.MB_STAT.off), (1, R.MB_PEND.off)]) :
    (s.abortBox mailbox).f adr fld = s.f adr fld := by
  simp only [State.abortBox, implies_true, State.f_foldl, State.f_ev (h := notMem_of_subset h (by decide)), State.f_complete
    (h := notMem_of_subset h (by decide))]

theorem State.f_setRing (s : State) (p : PartId) (r : Nat) (x : InRing) (adr : Nat) (fld : Fld) :
    (s.setRing p r x).f adr fld = s.f adr fld := (rfl)

theorem State.f_setCons (s : State) (p : PartId) (r c : Nat) {adr : Nat} {fld : Fld}
    (h : site (adr + fld.reg.off) ∉ [(2, R.CX_IN_CONS.off)]) :
    (s.setCons p r c).f adr fld = s.f adr fld := by
  obtain ⟨f, body⟩ : ∃ f, State.setCons = f := ⟨_, rfl⟩
  rw [body]
  delta State.setCons at body
  subst body
  dsimp only
  split <;> simp only [State.f_setF_ib (g := F.CX_IN_CONS_c) (h := h) (hw := by decide), State.f_ctlWrite]

theorem State.f_resetRing (s : State) (p : PartId) (r : Nat) {adr : Nat} {fld : Fld}
    (h : site (adr + fld.reg.off) ∉ [(2, R.CX_IN_SEQ.off), (2, R.CX_IN_STAT.off), (1, 0xB00), (2, R.CX_IN_CONS.off)]) :
    (s.resetRing p r).f adr fld = s.f adr fld := by
  simp only [State.resetRing, State.f_setF_ib (g := F.CX_IN_SEQ_next) (h := h) (hw := by decide), State.f_setF_ib (g :=
    F.CX_IN_STAT_bad) (h := h) (hw := by decide), State.f_setF_ib (g := F.CX_IN_STAT_sealed) (h := h) (hw := by decide),
    State.f_setF_ib (g := F.CX_IN_STAT_stale) (h := h) (hw := by decide), State.f_ev (h := notMem_of_subset h (by decide)),
    State.f_setRing, State.f_setCons (h := notMem_of_subset h (by decide))]

theorem State.f_setSlot (s : State) (p : PartId) (k : Nat) (x : SlotSt) (adr : Nat) (fld : Fld) :
    (s.setSlot p k x).f adr fld = s.f adr fld := (rfl)

theorem State.f_resultWrite (s : State) (p : PartId) (off : Nat) (bytes : List (BitVec 8)) (adr : Nat) (fld : Fld) :
    (s.resultWrite p off bytes).f adr fld = s.f adr fld := by
  simp only [State.resultWrite, implies_true, State.f_foldl, State.f_updPart, State.f_devWriteP]

theorem State.f_landForward (s : State) (p : PartId) (w : Fwd) {adr : Nat} {fld : Fld}
    (h : site (adr + fld.reg.off) ∉ [(4, R.CX_SLOT_STAT.off), (1, 0xB00)]) :
    (s.landForward p w).f adr fld = s.f adr fld := by
  simp only [State.landForward, State.f_ite, ite_self, State.f_incF_lb (g := F.CX_SLOT_STAT_late) (h := h) (hw := by decide),
    State.f_incF_lb (g := F.CX_SLOT_STAT_order) (h := h) (hw := by decide), State.f_ev (h := notMem_of_subset h (by decide)),
    State.f_setSlot,
    State.f_resultWrite]

theorem State.f_landForwards (s : State) (q : QuireId) (cyc : Nat) {adr : Nat} {fld : Fld}
    (h : site (adr + fld.reg.off) ∉ [(4, R.CX_SLOT_STAT.off), (1, 0xB00)]) :
    (s.landForwards q cyc).f adr fld = s.f adr fld := by
  simp only [State.landForwards, implies_true, State.f_foldl, State.f_updQu, State.f_landForward (h := h)]

theorem State.f_publishSlot (r : State) (p : PartId) (g : PubHeader) {adr : Nat} {fld : Fld}
    (h : site (adr + fld.reg.off) ∉ [(4, R.CX_SLOT_STAT.off), (1, 0xB00)]) :
    (r.publishSlot p g).f adr fld = r.f adr fld := by
  unfold State.publishSlot
  simp only [State.f_ite, ite_self, State.f_incF_lb (g := F.CX_SLOT_STAT_incomplete) (h := h) (hw := by decide), State.f_ev
    (h := notMem_of_subset h (by decide)), State.f_setSlot, State.f_resultWrite]
  repeat' split
  all_goals simp only [State.f_incF_lb (g := F.CX_SLOT_STAT_incomplete) (h := h) (hw := by decide), State.f_ev (h :=
    notMem_of_subset h (by decide)), State.f_msi, State.f_setSlot, State.f_resultWrite]

theorem State.f_settlePubs (s : State) (p : PartId) {adr : Nat} {fld : Fld}
    (h : site (adr + fld.reg.off) ∉ [(4, R.CX_SLOT_STAT.off), (1, 0xB00)]) :
    (s.settlePubs p).f adr fld = s.f adr fld := by
  simp only [State.settlePubs, implies_true, State.f_foldl, State.f_updPart, State.f_landForwards (h := h),
    State.f_publishSlot (h := h)]

theorem State.f_showSpans (s : State) {adr : Nat} {fld : Fld}
    (h : site (adr + fld.reg.off) ∉ [(1, R.MS_SPAN.off)]) :
    (s.showSpans).f adr fld = s.f adr fld := by
  simp only [State.showSpans, implies_true, State.f_foldl, State.f_setF_pt (g := F.MS_SPAN_members) (h := h) (hw := by
    decide), State.f_setF_pt (g := F.MS_SPAN_seam) (h := h) (hw := by decide)]

theorem State.f_dropFence (s : State) (p : PartId) (reason : Nat) {adr : Nat} {fld : Fld}
    (h : site (adr + fld.reg.off) ∉ [(1, R.RS_STATUS.off), (1, 0xB00), (1, R.MS_SPAN.off)]) :
    (s.dropFence p reason).f adr fld = s.f adr fld := by
  simp only [State.dropFence, State.f_ite, ite_self, State.f_setF_pt (g := F.RS_STATUS_fenced) (h := h) (hw := by decide),
    State.f_ev (h := notMem_of_subset h (by decide)), State.f_showFences (h := notMem_of_subset h (by decide))]

theorem State.f_clearHost (s : State) (p : PartId) {adr : Nat} {fld : Fld}
    (h : site (adr + fld.reg.off) ∉ [(2, R.CX_IN_SEQ.off), (4, R.CX_SLOT_STAT.off), (1, 0xB00), (1, R.MB_STAT.off), (1,
    R.MB_PEND.off), (2, R.CX_IN_STAT.off), (2, R.CX_IN_CONS.off)]) :
    (s.clearHost p).f adr fld = s.f adr fld := by
  simp only [State.clearHost, implies_true, State.f_foldl, State.f_foldl, State.f_updPart, State.f_wr_lb (r :=
    R.CX_SLOT_STAT) (h := h) (hw := by decide), State.f_setF_ib (g := F.CX_IN_SEQ_next) (h := h) (hw := by decide),
    State.f_devClear, State.f_abortBox (h := notMem_of_subset h (by decide)), State.f_resetRing (h := notMem_of_subset h (by
    decide)), State.f_settlePubs (h := notMem_of_subset h (by decide))]

theorem State.f_noteBind (s : State) (l : LdId) (owner : Nat) {adr : Nat} {fld : Fld}
    (h : site (adr + fld.reg.off) ∉ [(1, 0xB00)]) :
    (s.noteBind l owner).f adr fld = s.f adr fld := by
  simp only [State.noteBind, State.f_ev (h := h)]

theorem State.f_showAllFences (s : State) {adr : Nat} {fld : Fld}
    (h : site (adr + fld.reg.off) ∉ [(1, R.MS_SPAN.off)]) :
    (s.showAllFences).f adr fld = s.f adr fld := by
  simp only [State.showAllFences, implies_true, State.f_foldl, State.f_showFences (h := h)]

theorem State.f_devClearAll (s : State) (p : PartId) (adr : Nat) (fld : Fld) :
    (s.devClearAll p).f adr fld = s.f adr fld := by
  simp only [State.devClearAll, State.f_devClear]

theorem State.memories_ctlWrite (s : State) (ld off : Nat) (bytes : List (BitVec 8)) :
    (s.ctlWrite ld off bytes).memories = s.memories := by
  unfold State.ctlWrite
  rw [State.memories_devWrite]
  rfl

theorem State.memories_setCons (s : State) (p : PartId) (r c : Nat) :
    (s.setCons p r c).memories = s.memories := by
  obtain ⟨f, body⟩ : ∃ f, State.setCons = f := ⟨_, rfl⟩
  rw [body]
  delta State.setCons at body
  subst body
  dsimp only
  split <;> simp only [State.memories_setF, State.memories_ctlWrite]

theorem State.memories_resetRing (s : State) (p : PartId) (r : Nat) :
    (s.resetRing p r).memories = s.memories := by
  simp only [State.resetRing, State.memories_setF, State.memories_ev, State.memories_setRing, State.memories_setCons]

theorem State.memories_clearHost (s : State) (p : PartId) :
    (s.clearHost p).memories = s.memories := by
  simp only [State.clearHost, implies_true, State.memories_foldl, State.memories_updPart, State.memories_wr,
    State.memories_setF, State.memories_devClear, State.memories_abortBox, State.memories_resetRing,
    State.memories_settlePubs]

theorem State.memories_unbindFrom (s : State) (p : PartId) (l : LdId) :
    (s.unbindFrom p l).memories = s.memories := by
  simp only [State.unbindFrom, State.memories_showSpans, State.memories_raiseFence, State.memories_abortTests,
    State.memories_clearHost, State.memories_noteBind, State.memories_setBound, State.memories_showAllFences,
    State.memories_devClearAll]

theorem State.recov_devWrite (s : State) (ld : Nat) (off : Nat) : (s.devWrite ld off).recoveries = s.recoveries := by
  simp only [State.devWrite, State.recov_mk, State.recov_ite, ite_self]

theorem State.recov_devWriteP (s : State) (p : PartId) (off : Nat) : (s.devWriteP p off).recoveries = s.recoveries := by
  unfold State.devWriteP
  split <;> simp only [State.recov_devWrite]

theorem State.recov_devClearLd (s : State) (l : LdId) (lo hi : Nat) : (s.devClearLd l lo hi).recoveries = s.recoveries := by
  simp only [State.devClearLd, State.recov_mk]

theorem State.recov_devClear (s : State) (p : PartId) (lo hi : Nat) : (s.devClear p lo hi).recoveries = s.recoveries := by
  unfold State.devClear
  split <;> simp only [State.recov_devClearLd]

theorem State.recov_setBar2 (s : State) (a : Nat) (v : BitVec 8) : (s.setBar2 a v).recoveries = s.recoveries := (rfl)

theorem State.recov_msi (s : State) (ld vec : Nat) : (s.msi ld vec).recoveries = s.recoveries := by
  simp only [State.msi, State.recov_mk, State.recov_ite, ite_self, State.recov_setBar2]

theorem State.recov_ctlWrite (s : State) (ld off : Nat) (bytes : List (BitVec 8)) :
    (s.ctlWrite ld off bytes).recoveries = s.recoveries := by
  unfold State.ctlWrite
  rw [State.recov_devWrite]
  rfl

theorem State.recov_abortBox (s : State) (mailbox : Nat) : (s.abortBox mailbox).recoveries = s.recoveries := by
  simp only [State.abortBox, implies_true, State.recov_foldl, State.recov_ev, State.recov_complete]

theorem State.recov_setRing (s : State) (p : PartId) (r : Nat) (x : InRing) : (s.setRing p r x).recoveries = s.recoveries :=
  State.recov_updPart _ _ _ (fun _ => rfl)

theorem State.recov_setCons (s : State) (p : PartId) (r c : Nat) :
    (s.setCons p r c).recoveries = s.recoveries := by
  obtain ⟨f, body⟩ : ∃ f, State.setCons = f := ⟨_, rfl⟩
  rw [body]
  delta State.setCons at body
  subst body
  dsimp only
  split <;> simp only [State.recov_setF, State.recov_ctlWrite]

theorem State.recov_resetRing (s : State) (p : PartId) (r : Nat) :
    (s.resetRing p r).recoveries = s.recoveries := by
  simp only [State.resetRing, State.recov_setF, State.recov_ev, State.recov_setRing, State.recov_setCons]

theorem State.recov_setSlot (s : State) (p : PartId) (k : Nat) (x : SlotSt) : (s.setSlot p k x).recoveries = s.recoveries :=
  State.recov_updPart _ _ _ (fun _ => rfl)

theorem State.recov_resultWrite (s : State) (p : PartId) (off : Nat) (bytes : List (BitVec 8)) :
    (s.resultWrite p off bytes).recoveries = s.recoveries := by
  simp only [State.resultWrite, implies_true, State.recov_foldl, State.recov_updPart, State.recov_devWriteP]

theorem State.recov_landForward (s : State) (p : PartId) (w : Fwd) : (s.landForward p w).recoveries = s.recoveries := by
  simp only [State.landForward, State.recov_ite, ite_self, State.recov_incF, State.recov_ev, State.recov_setSlot,
    State.recov_resultWrite]

theorem State.recov_landForwards (s : State) (q : QuireId) (cyc : Nat) : (s.landForwards q cyc).recoveries = s.recoveries := by
  simp only [State.landForwards, implies_true, State.recov_foldl, State.recov_updQu, State.recov_landForward]

theorem State.recov_publishSlot (r : State) (p : PartId) (g : PubHeader) : (r.publishSlot p g).recoveries = r.recoveries := by
  unfold State.publishSlot
  simp only [State.recov_ite, ite_self, State.recov_incF, State.recov_ev, State.recov_setSlot, State.recov_resultWrite]
  repeat' split
  all_goals simp only [State.recov_incF, State.recov_ev, State.recov_msi, State.recov_setSlot, State.recov_resultWrite]

theorem State.recov_settlePubs (s : State) (p : PartId) : (s.settlePubs p).recoveries = s.recoveries := by
  simp only [State.settlePubs, implies_true, State.recov_foldl, State.recov_updPart, State.recov_landForwards,
    State.recov_publishSlot]

theorem State.recov_showSpans (s : State)  : (s.showSpans).recoveries = s.recoveries := by
  simp only [State.showSpans, implies_true, State.recov_foldl, State.recov_setF]

theorem State.recov_clearHost (s : State) (p : PartId) :
    (s.clearHost p).recoveries = s.recoveries := by
  simp only [State.clearHost, implies_true, State.recov_foldl, State.recov_updPart, State.recov_wr, State.recov_setF,
    State.recov_devClear, State.recov_abortBox, State.recov_resetRing, State.recov_settlePubs]

theorem State.recov_noteBind (s : State) (l : LdId) (owner : Nat) : (s.noteBind l owner).recoveries = s.recoveries := by
  simp only [State.noteBind, State.recov_ev]

theorem State.recov_setBound (s : State) (l : LdId) (p : PartId) (b : Bool) : (s.setBound l p b).recoveries = s.recoveries := by
  simp only [State.setBound, State.recov_setF]

theorem State.recov_showAllFences (s : State)  : (s.showAllFences).recoveries = s.recoveries := by
  simp only [State.showAllFences, implies_true, State.recov_foldl, State.recov_showFences]

theorem State.recov_devClearAll (s : State) (p : PartId) : (s.devClearAll p).recoveries = s.recoveries := by
  simp only [State.devClearAll, State.recov_devClear]

theorem State.recov_unbindFrom (s : State) (p : PartId) (l : LdId) :
    (s.unbindFrom p l).recoveries = s.recoveries := by
  simp only [State.unbindFrom, State.recov_showSpans, State.recov_raiseFence, State.recov_abortTests, State.recov_clearHost,
    State.recov_noteBind, State.recov_setBound, State.recov_showAllFences, State.recov_devClearAll]

/-- The partitions that keep their state while unbound. -/
def State.retained (s : State) := s.stew.retain

theorem State.retained_eq (s : State) : s.retained = s.stew.retain := rfl

theorem State.ret_mk {s : State} {pending now timeBase freeCount regs latches stitchers quires parts flights creditFlights
    srcs mem memMark triggers trackers charges mgn dramFixes sparesUsed remaps notices comps ctlPage cmdArea bar2 msix extents
    filter snoops readWait hostData links spine spNext regAns halfChg thermal staging stageLostAt stageLostN recNext mapCopies
    mapBefore runs tested pulseEnd ioNext tickIn} :
    State.retained ⟨pending, now, timeBase, freeCount, regs, latches, stitchers, quires, parts, flights, creditFlights, srcs,
      mem, memMark, triggers, trackers, charges, mgn, dramFixes, sparesUsed, remaps, notices, comps, ctlPage, cmdArea, bar2,
      msix, extents, filter, snoops, readWait, hostData, links, spine, spNext, regAns, halfChg, thermal, staging, stageLostAt,
      stageLostN, recNext, mapCopies, mapBefore, runs, tested, pulseEnd, ioNext, tickIn, s.stew⟩ = s.retained := (rfl)

theorem State.ret_ite {c : Prop} [Decidable c] {a b : State} :
    State.retained (if c then a else b) = if c then a.retained else b.retained := by
  split <;> rfl

theorem State.ret_foldl {α : Type} {g : State → α → State} {s : State} (step : ∀ s a, (g s a).retained = s.retained)
    (xs : List α) : (xs.foldl g s).retained = s.retained :=
  State.foldl_rest State.retained g step xs s

theorem State.ret_setSt (s : State) (u : StId) (x : Stitcher) : (s.setSt u x).retained = s.retained := (rfl)

theorem State.ret_updSt (s : State) (u : StId) (f : Stitcher → Stitcher) : (s.updSt u f).retained = s.retained := (rfl)

theorem State.ret_setQu (s : State) (q : QuireId) (x : Quire) : (s.setQu q x).retained = s.retained := (rfl)

theorem State.ret_updQu (s : State) (q : QuireId) (f : Quire → Quire) : (s.updQu q f).retained = s.retained := (rfl)

theorem State.ret_setPart (s : State) (p : PartId) (x : Part) : (s.setPart p x).retained = s.retained := (rfl)

theorem State.ret_updPart (s : State) (p : PartId) (f : Part → Part) : (s.updPart p f).retained = s.retained := (rfl)

theorem State.ret_setSrc (s : State) (x : Src) (v : SrcSt) : (s.setSrc x v).retained = s.retained := (rfl)

theorem State.ret_updSrc (s : State) (x : Src) (f : SrcSt → SrcSt) : (s.updSrc x f).retained = s.retained := (rfl)

theorem State.ret_wr (s : State) (b : Nat) (r : Reg) (v : BitVec 32) : (s.wr b r v).retained = s.retained := (rfl)

theorem State.ret_setF (s : State) (b : Nat) (g : Fld) (v : Nat) : (s.setF b g v).retained = s.retained := (rfl)

theorem State.ret_incF (s : State) (b : Nat) (g : Fld) (n : Nat) : (s.incF b g n).retained = s.retained := (rfl)

theorem State.ret_setCnt (s : State) (b : Nat) (lo hi : Reg) (v : Nat) : (s.setCnt b lo hi v).retained = s.retained := (rfl)

theorem State.ret_raise (s : State) (x : Src) (code sev : Nat) (cap : List Nat) : (s.raise x code sev cap).retained = s.retained :=
  (congrArg State.retained (s.raise_rest x code sev cap) :)

theorem State.ret_ev (s : State) (x : Src) (code : Nat) (cap : List Nat) : (s.ev x code cap).retained = s.retained :=
  s.ret_raise x code (evSev code) cap

theorem State.ret_complete (s : State) (n : Notice) (status result : Nat) : (s.complete n status result).retained = s.retained :=
  (congrArg State.retained (s.complete_rest n status result) :)

theorem State.ret_devWrite (s : State) (ld : Nat) (off : Nat) : (s.devWrite ld off).retained = s.retained := by
  simp only [State.devWrite, State.ret_mk, State.ret_ite, ite_self]

theorem State.ret_devWriteP (s : State) (p : PartId) (off : Nat) : (s.devWriteP p off).retained = s.retained := by
  unfold State.devWriteP
  split <;> simp only [State.ret_devWrite]

theorem State.ret_settle (s : State) (p : PartId) : (s.settle p).retained = s.retained := by
  simp only [State.settle, State.ret_ite, ite_self, implies_true, State.ret_updPart, State.ret_setF]

theorem State.ret_settleAll (s : State)  : (s.settleAll).retained = s.retained := by
  simp only [State.settleAll, implies_true, State.ret_foldl, State.ret_settle]

theorem State.ret_devClearLd (s : State) (l : LdId) (lo hi : Nat) : (s.devClearLd l lo hi).retained = s.retained := by
  simp only [State.devClearLd, State.ret_mk]

theorem State.ret_devClear (s : State) (p : PartId) (lo hi : Nat) : (s.devClear p lo hi).retained = s.retained := by
  unfold State.devClear
  split <;> simp only [State.ret_devClearLd]

theorem State.ret_setBar2 (s : State) (a : Nat) (v : BitVec 8) : (s.setBar2 a v).retained = s.retained := (rfl)

theorem State.ret_msi (s : State) (ld vec : Nat) : (s.msi ld vec).retained = s.retained := by
  simp only [State.msi, State.ret_mk, State.ret_ite, ite_self, State.ret_setBar2]

theorem State.ret_ctlWrite (s : State) (ld off : Nat) (bytes : List (BitVec 8)) :
    (s.ctlWrite ld off bytes).retained = s.retained := by
  unfold State.ctlWrite
  rw [State.ret_devWrite]
  rfl

theorem State.ret_abortBox (s : State) (mailbox : Nat) : (s.abortBox mailbox).retained = s.retained := by
  simp only [State.abortBox, implies_true, State.ret_foldl, State.ret_ev, State.ret_complete]

theorem State.ret_setRing (s : State) (p : PartId) (r : Nat) (x : InRing) : (s.setRing p r x).retained = s.retained := (rfl)

theorem State.ret_setCons (s : State) (p : PartId) (r c : Nat) :
    (s.setCons p r c).retained = s.retained := by
  obtain ⟨f, body⟩ : ∃ f, State.setCons = f := ⟨_, rfl⟩
  rw [body]
  delta State.setCons at body
  subst body
  dsimp only
  split <;> simp only [State.ret_setF, State.ret_ctlWrite]

theorem State.ret_resetRing (s : State) (p : PartId) (r : Nat) :
    (s.resetRing p r).retained = s.retained := by
  simp only [State.resetRing, State.ret_setF, State.ret_ev, State.ret_setRing, State.ret_setCons]

theorem State.ret_setSlot (s : State) (p : PartId) (k : Nat) (x : SlotSt) : (s.setSlot p k x).retained = s.retained := (rfl)

theorem State.ret_resultWrite (s : State) (p : PartId) (off : Nat) (bytes : List (BitVec 8)) :
    (s.resultWrite p off bytes).retained = s.retained := by
  simp only [State.resultWrite, implies_true, State.ret_foldl, State.ret_updPart, State.ret_devWriteP]

theorem State.ret_landForward (s : State) (p : PartId) (w : Fwd) : (s.landForward p w).retained = s.retained := by
  simp only [State.landForward, State.ret_ite, ite_self, State.ret_incF, State.ret_ev, State.ret_setSlot, State.ret_resultWrite]

theorem State.ret_landForwards (s : State) (q : QuireId) (cyc : Nat) : (s.landForwards q cyc).retained = s.retained := by
  simp only [State.landForwards, implies_true, State.ret_foldl, State.ret_updQu, State.ret_landForward]

theorem State.ret_publishSlot (r : State) (p : PartId) (g : PubHeader) : (r.publishSlot p g).retained = r.retained := by
  unfold State.publishSlot
  simp only [State.ret_ite, ite_self, State.ret_incF, State.ret_ev, State.ret_setSlot, State.ret_resultWrite]
  repeat' split
  all_goals simp only [State.ret_incF, State.ret_ev, State.ret_msi, State.ret_setSlot, State.ret_resultWrite]

theorem State.ret_settlePubs (s : State) (p : PartId) : (s.settlePubs p).retained = s.retained := by
  simp only [State.settlePubs, implies_true, State.ret_foldl, State.ret_updPart, State.ret_landForwards, State.ret_publishSlot]

theorem State.ret_abortSpans (s : State) (p : PartId) : (s.abortSpans p).retained = s.retained := by
  simp only [State.abortSpans, State.ret_mk, State.ret_ite, ite_self, implies_true, State.ret_foldl, State.ret_updQu,
    State.ret_settleAll]

theorem State.ret_showFences (s : State) (p : PartId) : (s.showFences p).retained = s.retained := by
  simp only [State.showFences, implies_true, State.ret_foldl, State.ret_setF]

theorem State.ret_showSpans (s : State)  : (s.showSpans).retained = s.retained := by
  simp only [State.showSpans, implies_true, State.ret_foldl, State.ret_setF]

theorem State.ret_raiseFence (s : State) (p : PartId) (reason : Nat) : (s.raiseFence p reason).retained = s.retained := by
  simp only [State.raiseFence, State.ret_ite, ite_self, State.ret_setF, State.ret_ev, State.ret_abortSpans,
    State.ret_showFences]

theorem State.ret_dropFence (s : State) (p : PartId) (reason : Nat) : (s.dropFence p reason).retained = s.retained := by
  simp only [State.dropFence, State.ret_ite, ite_self, State.ret_setF, State.ret_ev, State.ret_showFences]

theorem State.ret_endCmd (s : State) (k : Nat × Nat) (status result : Nat) : (s.endCmd k status result).retained = s.retained
    := by
  unfold State.endCmd
  split <;> simp only [State.ret_complete]

theorem State.ret_abortTests (s : State) (p : PartId) : (s.abortTests p).retained = s.retained := by
  simp only [State.abortTests, implies_true, State.ret_foldl, State.ret_updPart, State.ret_endCmd]

theorem State.ret_clearHost (s : State) (p : PartId) :
    (s.clearHost p).retained = s.retained := by
  simp only [State.clearHost, implies_true, State.ret_foldl, State.ret_updPart, State.ret_wr, State.ret_setF,
    State.ret_devClear, State.ret_abortBox, State.ret_resetRing, State.ret_settlePubs]

theorem State.ret_noteBind (s : State) (l : LdId) (owner : Nat) : (s.noteBind l owner).retained = s.retained := by
  simp only [State.noteBind, State.ret_ev]

theorem State.ret_setBound (s : State) (l : LdId) (p : PartId) (b : Bool) : (s.setBound l p b).retained = s.retained := by
  simp only [State.setBound, State.ret_setF]

theorem State.ret_showAllFences (s : State)  : (s.showAllFences).retained = s.retained := by
  simp only [State.showAllFences, implies_true, State.ret_foldl, State.ret_showFences]

theorem State.ret_devClearAll (s : State) (p : PartId) : (s.devClearAll p).retained = s.retained := by
  simp only [State.devClearAll, State.ret_devClear]

theorem State.ret_unbindFrom (s : State) (p : PartId) (l : LdId) :
    (s.unbindFrom p l).retained = s.retained := by
  simp only [State.unbindFrom, State.ret_showSpans, State.ret_raiseFence, State.ret_abortTests, State.ret_clearHost,
    State.ret_noteBind, State.ret_setBound, State.ret_showAllFences, State.ret_devClearAll]

/-! The bits of CX_LD_BIND. -/

theorem nat_testBit_eq (m i : Nat) : decide (m / 2 ^ i % 2 = 1) = m.testBit i := by
  rw [Nat.testBit_eq_decide_div_mod_eq]

theorem State.bound_testBit (s : State) (l : LdId) (p : PartId) :
    s.bound l p = (s.f hub (F.CX_LD_BIND_parts.nth l.val)).testBit p.val := nat_testBit_eq ..

theorem bound_of_f {s t : State} (h : ∀ l : LdId, t.f hub (F.CX_LD_BIND_parts.nth l.val) = s.f hub (F.CX_LD_BIND_parts.nth l.val))
    (l : LdId) (p : PartId) : t.bound l p = s.bound l p := by
  unfold State.bound
  rw [h]

/-- Setting a partition's bit changes it alone. -/
theorem setBit_testBit (old : Nat) (p r : PartId) (b : Bool) :
    ((if b then old ||| 2 ^ p.val else old &&& (15 - 2 ^ p.val)) % 16).testBit r.val = if r = p then b else old.testBit r.val := by
  have low : (2 ^ 4 : Nat) = 16 := rfl
  rw [← low, Nat.testBit_mod_two_pow, decide_eq_true r.isLt, Bool.true_and]
  cases b with
  | true =>
    rw [if_pos rfl, Nat.testBit_or, Nat.testBit_two_pow]
    by_cases e : r = p
    · simp [e]
    · simp [e, Fin.val_ne_of_ne (Ne.symm e)]
  | false =>
    rw [if_neg Bool.false_ne_true, Nat.testBit_and]
    have mask : (15 - 2 ^ p.val).testBit r.val = decide (r ≠ p) := by revert p r; decide
    rw [mask]
    by_cases e : r = p <;> simp [e]

theorem setBound_bound (s : State) (l m : LdId) (p r : PartId) (b : Bool) :
    (s.setBound l p b).bound m r = if m = l ∧ r = p then b else s.bound m r := by
  rw [State.bound_testBit, State.bound_testBit]
  by_cases e : m = l
  · subst e
    unfold State.setBound
    rw [State.f_setF_same _ _ _ _ (by revert m; decide)]
    exact (setBit_testBit _ p r b).trans (by simp)
  · unfold State.setBound
    rw [State.f_setF_reg _ _ (by
      have apart := Fin.val_ne_of_ne e
      simp only [hub, Fld.nth, Reg.nth, F.CX_LD_BIND_parts, R.CX_LD_BIND]
      omega), if_neg (fun h => e h.1)]

/-- The steps of a binding after the bits. -/
theorem bindTail_bound (s : State) (l m : LdId) (p r : PartId) (o reason : Nat) :
    (((s.showSpans.dropFence p reason).showAllFences).noteBind l o).bound m r = s.bound m r := by
  refine bound_of_f (fun l => ?_) m r
  have off : (F.CX_LD_BIND_parts.nth l.val).reg.off < 0x1000000 := by revert l; decide
  rw [State.f_noteBind _ _ _ (hub_notMem_of off (by decide)), State.f_showAllFences _ (hub_notMem_of off (by decide)),
    State.f_dropFence _ _ _ (hub_notMem_of off (by decide)), State.f_showSpans _ (hub_notMem_of off (by decide))]

theorem State.dropFence_fenced (s : State) (p : PartId) (reason : Nat) : (s.dropFence p reason).fenced p = false := by
  unfold State.dropFence
  split
  · next down => exact down
  · unfold State.fenced
    dsimp only
    rw [State.f_ev _ _ _ _ (pt_notMem p (by decide)), State.f_showFences _ _ (pt_notMem p (by decide)),
      State.f_setF_same _ _ _ _ (by decide)]
    rfl

theorem State.parts_showFences (s : State) (p : PartId) : (s.showFences p).parts = s.parts := by
  simp only [State.showFences, implies_true, State.parts_foldl, State.parts_setF]

theorem State.parts_showSpans (s : State)  : (s.showSpans).parts = s.parts := by
  simp only [State.showSpans, implies_true, State.parts_foldl, State.parts_setF]

theorem State.parts_dropFence (s : State) (p : PartId) (reason : Nat) : (s.dropFence p reason).parts = s.parts := by
  simp only [State.dropFence, State.parts_ite, ite_self, State.parts_setF, State.parts_ev, State.parts_showFences]

theorem State.parts_noteBind (s : State) (l : LdId) (owner : Nat) : (s.noteBind l owner).parts = s.parts := by
  simp only [State.noteBind, State.parts_ev]

theorem State.parts_setBound (s : State) (l : LdId) (p : PartId) (b : Bool) : (s.setBound l p b).parts = s.parts := by
  simp only [State.setBound, State.parts_setF]

theorem State.parts_showAllFences (s : State)  : (s.showAllFences).parts = s.parts := by
  simp only [State.showAllFences, implies_true, State.parts_foldl, State.parts_showFences]
/-- The completions and the notices. -/
def State.calls (s : State) := (s.comps, s.notices)

theorem State.calls_mk {s : State} {pending now timeBase freeCount regs latches stitchers quires parts flights creditFlights
    srcs mem memMark triggers trackers charges mgn dramFixes sparesUsed remaps ctlPage cmdArea bar2 msix extents filter snoops
    readWait hostData links spine spNext regAns halfChg thermal staging stageLostAt stageLostN recNext mapCopies mapBefore
    runs tested pulseEnd ioNext tickIn stew} :
    State.calls ⟨pending, now, timeBase, freeCount, regs, latches, stitchers, quires, parts, flights, creditFlights, srcs,
      mem, memMark, triggers, trackers, charges, mgn, dramFixes, sparesUsed, remaps, s.notices, s.comps, ctlPage, cmdArea,
      bar2, msix, extents, filter, snoops, readWait, hostData, links, spine, spNext, regAns, halfChg, thermal, staging,
      stageLostAt, stageLostN, recNext, mapCopies, mapBefore, runs, tested, pulseEnd, ioNext, tickIn, stew⟩ = s.calls := (rfl)

theorem State.calls_ite {c : Prop} [Decidable c] {a b : State} :
    State.calls (if c then a else b) = if c then a.calls else b.calls := by
  split <;> rfl

theorem State.calls_foldl {α : Type} {g : State → α → State} {s : State} (step : ∀ s a, (g s a).calls = s.calls)
    (xs : List α) : (xs.foldl g s).calls = s.calls :=
  State.foldl_rest State.calls g step xs s

theorem State.calls_setSt (s : State) (u : StId) (x : Stitcher) : (s.setSt u x).calls = s.calls := (rfl)

theorem State.calls_updSt (s : State) (u : StId) (f : Stitcher → Stitcher) : (s.updSt u f).calls = s.calls := (rfl)

theorem State.calls_setQu (s : State) (q : QuireId) (x : Quire) : (s.setQu q x).calls = s.calls := (rfl)

theorem State.calls_updQu (s : State) (q : QuireId) (f : Quire → Quire) : (s.updQu q f).calls = s.calls := (rfl)

theorem State.calls_setPart (s : State) (p : PartId) (x : Part) : (s.setPart p x).calls = s.calls := (rfl)

theorem State.calls_updPart (s : State) (p : PartId) (f : Part → Part) : (s.updPart p f).calls = s.calls := (rfl)

theorem State.calls_setSrc (s : State) (x : Src) (v : SrcSt) : (s.setSrc x v).calls = s.calls := (rfl)

theorem State.calls_updSrc (s : State) (x : Src) (f : SrcSt → SrcSt) : (s.updSrc x f).calls = s.calls := (rfl)

theorem State.calls_wr (s : State) (b : Nat) (r : Reg) (v : BitVec 32) : (s.wr b r v).calls = s.calls := (rfl)

theorem State.calls_setF (s : State) (b : Nat) (g : Fld) (v : Nat) : (s.setF b g v).calls = s.calls := (rfl)

theorem State.calls_incF (s : State) (b : Nat) (g : Fld) (n : Nat) : (s.incF b g n).calls = s.calls := (rfl)

theorem State.calls_setCnt (s : State) (b : Nat) (lo hi : Reg) (v : Nat) : (s.setCnt b lo hi v).calls = s.calls := (rfl)

theorem State.calls_raise (s : State) (x : Src) (code sev : Nat) (cap : List Nat) : (s.raise x code sev cap).calls = s.calls :=
  (congrArg State.calls (s.raise_rest x code sev cap) :)

theorem State.calls_ev (s : State) (x : Src) (code : Nat) (cap : List Nat) : (s.ev x code cap).calls = s.calls :=
  s.calls_raise x code (evSev code) cap

theorem State.calls_setBudget (s : State) (p : PartId) (v ld : Nat) : (s.setBudget p v ld).calls = s.calls := by
  simp only [State.setBudget, State.calls_mk, State.calls_ite, ite_self, State.calls_setF, State.calls_raise, State.calls_ev]

theorem State.calls_showFences (s : State) (p : PartId) : (s.showFences p).calls = s.calls := by
  simp only [State.showFences, implies_true, State.calls_foldl, State.calls_setF]

theorem State.calls_showSpans (s : State)  : (s.showSpans).calls = s.calls := by
  simp only [State.showSpans, implies_true, State.calls_foldl, State.calls_setF]

theorem State.calls_dropFence (s : State) (p : PartId) (reason : Nat) : (s.dropFence p reason).calls = s.calls := by
  simp only [State.dropFence, State.calls_ite, ite_self, State.calls_setF, State.calls_ev, State.calls_showFences]

theorem State.calls_noteBind (s : State) (l : LdId) (owner : Nat) : (s.noteBind l owner).calls = s.calls := by
  simp only [State.noteBind, State.calls_ev]

theorem State.calls_setBound (s : State) (l : LdId) (p : PartId) (b : Bool) : (s.setBound l p b).calls = s.calls := by
  simp only [State.setBound, State.calls_setF]

theorem State.calls_showAllFences (s : State)  : (s.showAllFences).calls = s.calls := by
  simp only [State.showAllFences, implies_true, State.calls_foldl, State.calls_showFences]

/-- The state in which a partition no longer keeps its state while unbound. -/
def State.unretained (s : State) (p : PartId) : State := { s with stew := { s.stew with retain := s.stew.retain.erase p } }

theorem State.f_unretained (s : State) (p : PartId) (b : Nat) (g : Fld) : (s.unretained p).f b g = s.f b g := State.f_mk ..

theorem State.unretained_keeps (s : State) (p : PartId) :
    (s.unretained p).memories = s.memories ∧ (s.unretained p).parts = s.parts ∧ (s.unretained p).calls = s.calls :=
  ⟨State.memories_mk, rfl, rfl⟩

/-- The state with the partitions that keep their state. -/
def State.retaining (s : State) (l : List PartId) : State := { s with stew := { s.stew with retain := l } }

theorem retaining_keeps (s : State) (l : List PartId) :
    (s.retaining l).memories = s.memories ∧ (s.retaining l).parts = s.parts ∧ (s.retaining l).calls = s.calls ∧
      (s.retaining l).retained = l :=
  ⟨State.memories_mk, rfl, rfl, rfl⟩

/-- The owner takes a free partition for a logical device: the steps of BIND. -/
def State.bindTo (s : State) (target : LdId) (p : PartId) : State :=
  let s := ((((s.setBound target p true).showSpans).unretained p).dropFence p 0xA9).showAllFences
  s.noteBind target s.owner.val

theorem bindTo_fenced (s : State) (target : LdId) (p : PartId) : (s.bindTo target p).fenced p = false := by
  have down := (((s.setBound target p true).showSpans).unretained p).dropFence_fenced p 0xA9
  unfold State.fenced at down ⊢
  unfold State.bindTo
  dsimp only
  rw [State.f_noteBind _ _ _ (pt_notMem p (by decide)), State.f_showAllFences _ (pt_notMem p (by decide))]
  exact down

theorem bindTo_bound (s : State) (target l : LdId) (p r : PartId) :
    (s.bindTo target p).bound l r = if l = target ∧ r = p then true else s.bound l r := by
  rw [← setBound_bound s target l p r true]
  refine bound_of_f (fun l => ?_) l r
  have off : (F.CX_LD_BIND_parts.nth l.val).reg.off < 0x1000000 := by revert l; decide
  unfold State.bindTo
  dsimp only
  rw [State.f_noteBind _ _ _ (hub_notMem_of off (by decide)), State.f_showAllFences _ (hub_notMem_of off (by decide)),
    State.f_dropFence _ _ _ (hub_notMem_of off (by decide)), State.f_unretained, State.f_showSpans _ (hub_notMem_of off (by decide))]

theorem bindTo_keeps (s : State) (target : LdId) (p : PartId) :
    (s.bindTo target p).memories = s.memories ∧ (s.bindTo target p).parts = s.parts ∧
      (s.bindTo target p).retained = s.retained.erase p ∧ (s.bindTo target p).calls = s.calls := by
  obtain ⟨memories, parts, calls⟩ := ((s.setBound target p true).showSpans).unretained_keeps p
  unfold State.bindTo
  dsimp only
  refine ⟨?_, ?_, ?_, ?_⟩
  · rw [State.memories_noteBind, State.memories_showAllFences, State.memories_dropFence, memories, State.memories_showSpans,
      State.memories_setBound]
  · rw [State.parts_noteBind, State.parts_showAllFences, State.parts_dropFence, parts, State.parts_showSpans,
      State.parts_setBound]
  · rw [State.ret_noteBind, State.ret_showAllFences, State.ret_dropFence]
    change ((s.setBound target p true).showSpans).retained.erase p = _
    rw [State.ret_showSpans, State.ret_setBound]
  · rw [State.calls_noteBind, State.calls_showAllFences, State.calls_dropFence, calls, State.calls_showSpans,
      State.calls_setBound]

/-- BIND of a free partition at rest. -/
theorem execBind_takes {ld : LdId} {p : PartId} {target : LdId} {n : Notice} {s : State} (h : commanded s ld 0x0101 n)
    (idle : s.recovering p = false) (rest : s.running p = false) (enabled : s.enabled p = true)
    (live : s.f (pt p) F.RS_STATUS_withdrawn = 0) (free : s.ldOf p = none)
    (present : s.f hub (F.CX_LD_BIND_present.nth target.val) = 1) (unlent : ∀ e ∈ s.extents, e.part ≠ p) :
    execBind ld p target s =
      .next (((s.acting ld 0x0101 p.val n).bindTo target p).complete { n with phase := .acting } Cs.done 0) := by
  have rest' : (s.acting ld 0x0101 p.val n).running p = false :=
    (congrArg (decide <| · = 1) (s.acting_pt ld 0x0101 p.val n p (g := F.TK_STATUS_running) (by decide) (by decide)) :).trans rest
  have live' := (s.acting_pt ld 0x0101 p.val n p (g := F.RS_STATUS_withdrawn) (by decide) (by decide)).trans live
  have whole : s.extents.any (fun e => decide (e.part = p)) = false := by simpa using unlent
  unfold execBind
  rw [State.command_of_commanded h]
  simp only [State.acting_recovering, idle, rest', State.acting_enabled, enabled, live', State.acting_ldOf, free,
    State.acting_CX_LD_BIND_present, present, State.acting_extents, whole]
  rfl

/-- The completion of a command whose steps answer no notice. -/
theorem ended_of_calls {s u : State} {ld : LdId} {op : Nat} {n : Notice} (found : s.cmdNotice ld op = some n) (arg : Nat)
    (status result : Nat) (calls : u.calls = (s.acting ld op arg n).calls) :
    Ended n status result s (u.complete { n with phase := .acting } status result) := by
  have comps : u.comps = s.comps := (congrArg Prod.fst calls).trans (s.acting_comps ld op arg n)
  refine ended_of_acting ld op arg (mem_of_cmdNotice found).1 _ _ ?_ ?_
  · rw [State.complete_comps, comps]
    rfl
  · rw [State.complete_notices]
    exact congrArg (fun c : List Completion × List Notice => c.2.erase { n with phase := .acting }) calls

/-- The steps of UNBIND before the partition comes to rest. -/
theorem unbindFrom_bound (s : State) (p : PartId) (l m : LdId) (r : PartId) :
    (s.unbindFrom p l).bound m r = if m = l ∧ r = p then false else s.bound m r := by
  unfold State.unbindFrom
  dsimp only
  have before : ∀ a b, ((((s.raiseFence p 0xA9).clearHost p).abortTests p).devClearAll p).bound a b = s.bound a b := by
    refine bound_of_f fun l => ?_
    have off : (F.CX_LD_BIND_parts.nth l.val).reg.off < 0x1000000 := by revert l; decide
    rw [State.f_devClearAll, State.f_abortTests _ _ (hub_notMem_of off (by decide)),
      State.f_clearHost _ _ (hub_notMem_of off (by decide)), State.f_raiseFence _ _ _ (hub_notMem_of off (by decide))]
  rw [← before, ← setBound_bound _ l m p r false]
  refine bound_of_f (fun l => ?_) m r
  have off : (F.CX_LD_BIND_parts.nth l.val).reg.off < 0x1000000 := by revert l; decide
  rw [State.f_noteBind _ _ _ (hub_notMem_of off (by decide)), State.f_showAllFences _ (hub_notMem_of off (by decide)),
    State.f_showSpans _ (hub_notMem_of off (by decide))]

/-- A field of the partition's block that UNBIND's steps leave, after the fence is up. -/
theorem unbindFrom_pt (s : State) (p : PartId) (l : LdId) {g : Fld} (r : PartId)
    (h : (g.reg.off < 0x640 ∨ 0x6C0 ≤ g.reg.off ∧ g.reg.off < 0x1000 ∨ 0x1800 ≤ g.reg.off ∧ g.reg.off < 0x2000 ∨
      0x2200 ≤ g.reg.off ∧ g.reg.off < 0x800000) ∧ (1, g.reg.off) ∉ [(1, R.MS_SPAN.off), (1, 0xB00), (1, R.MB_STAT.off),
        (1, R.MB_PEND.off)]) :
    (s.unbindFrom p l).f (pt r) g = (s.raiseFence p 0xA9).f (pt r) g := by
  obtain ⟨near, away⟩ := h
  have outside : ∀ W, (∀ w ∈ W, w.1 = 1 → w ∈ [(1, R.MS_SPAN.off), (1, 0xB00), (1, R.MB_STAT.off), (1, R.MB_PEND.off)]) →
      site (pt r + g.reg.off) ∉ W := fun W sub => pt_notMem r ⟨near, fun m => away (sub _ m rfl)⟩
  unfold State.unbindFrom
  dsimp only
  rw [State.f_noteBind _ _ _ (outside _ (by decide)), State.f_showAllFences _ (outside _ (by decide)),
    State.f_showSpans _ (outside _ (by decide)), State.f_setBound _ _ _ _ (outside _ (by decide)), State.f_devClearAll,
    State.f_abortTests _ _ (outside _ (by decide)), State.f_clearHost _ _ (outside _ (by decide))]

theorem unbindFrom_fenced (s : State) (p : PartId) (l : LdId) : (s.unbindFrom p l).fenced p = true := by
  have up := s.raiseFence_fenced p 0xA9
  unfold State.fenced at up ⊢
  rw [unbindFrom_pt s p l p (by decide)]
  exact up

/-- A partition left on hold: its hold stands, and the recovery's ends. -/
theorem leaveHeld_cases (s : State) (p : PartId) : ∃ t : State, t.memories = s.memories ∧
    (∀ b g, t.f b g = (s.setF (pt p) F.TK_CTRL_hold 1).f b g) ∧ (s.leaveHeld p = t ∨ s.leaveHeld p = t.showHeld p) := by
  unfold State.leaveHeld State.dropHold
  split
  · let t := (s.setF (pt p) F.TK_CTRL_hold 1).updPart p (fun x => { x with holds := x.holds.erase .recovery })
    have field : ∀ b g, t.f b g = (s.setF (pt p) F.TK_CTRL_hold 1).f b g := fun b g => State.f_updPart ..
    have held : t.holdIn p = true := by
      unfold State.holdIn
      rw [field, State.f_setF_same _ _ _ _ (by decide)]
      rfl
    refine ⟨t, (State.memories_updPart ..).trans (State.memories_setF ..), field, .inr ?_⟩
    unfold State.holdEnded
    rw [if_pos held]
  · exact ⟨_, State.memories_setF .., fun _ _ => rfl, .inl rfl⟩

theorem leaveHeld_keeps (s : State) (p : PartId) : (s.leaveHeld p).memories = s.memories ∧
    (s.leaveHeld p).f (pt p) F.TK_CTRL_hold = 1 ∧ (s.leaveHeld p).fenced p = s.fenced p ∧
    ∀ l r, (s.leaveHeld p).bound l r = s.bound l r := by
  obtain ⟨t, kept, field, h⟩ := leaveHeld_cases s p
  have memories : (s.leaveHeld p).memories = s.memories := by
    rcases h with h | h <;> rw [h]
    · exact kept
    · rw [State.memories_showHeld, kept]
  have pt_ : ∀ g : Fld, ((g.reg.off < 0x640 ∨ 0x6C0 ≤ g.reg.off ∧ g.reg.off < 0x1000 ∨ 0x1800 ≤ g.reg.off ∧ g.reg.off < 0x2000 ∨
      0x2200 ≤ g.reg.off ∧ g.reg.off < 0x800000) ∧ (1, g.reg.off) ∉ [(1, R.TK_STATUS.off), (1, R.MB_STAT.off),
        (1, R.MB_PEND.off)]) → (s.leaveHeld p).f (pt p) g = (s.setF (pt p) F.TK_CTRL_hold 1).f (pt p) g := fun g near => by
    rcases h with h | h <;> rw [h]
    · exact field _ _
    · rw [State.f_showHeld _ _ (pt_notMem p near), field]
  refine ⟨memories, ?_, ?_, bound_of_f fun l => ?_⟩
  · rw [pt_ _ (by decide), State.f_setF_same _ _ _ _ (by decide)]
    rfl
  · unfold State.fenced
    rw [pt_ _ (by decide), State.f_setF_pt (W := [(1, R.TK_CTRL.off)]) (pt_notMem p (by decide)) p 1 (by decide)]
  · have off : (F.CX_LD_BIND_parts.nth l.val).reg.off < 0x1000000 := by revert l; decide
    have same : t.f hub (F.CX_LD_BIND_parts.nth l.val) = s.f hub (F.CX_LD_BIND_parts.nth l.val) := by
      rw [field, State.f_setF_pt (W := [(1, R.TK_CTRL.off)]) (hub_notMem_of off (by decide)) p 1 (by decide)]
    rcases h with h | h <;> rw [h]
    · exact same
    · rw [State.f_showHeld _ _ (hub_notMem_of off (by decide)), same]

/-- The reset of an unbound partition begins. -/
theorem startReset_unbound (s : State) (p : PartId) (ld : Nat) (idle : (s.part p).recovery = none) :
    (∃ r, ((s.startReset p 6 ld false none).part p).recovery = some r ∧ r.cause = 6) ∧
      (s.startReset p 6 ld false none).fenced p = s.fenced p ∧ (s.startReset p 6 ld false none).memories = s.memories ∧
      ∀ l r, (s.startReset p 6 ld false none).bound l r = s.bound l r := by
  obtain ⟨r, times, cap, hr, h⟩ : ∃ (r : Recovery) (times : List Nat) (cap : List Nat),
      r.cause = 6 ∧ s.startReset p 6 ld false none =
      (((((((s.updPart p (fun x => { x with recovery := some r, resetTimes := times })).setF (pt p) F.RS_STATUS_state
        1).incF (pt p) F.RS_COUNT_resets).addHold p .recovery).logReset 3 p.val).dropRotation p 0x5A).abortTests p).ev
        (.part p) Ev.RS_PARTITION cap := by
    unfold State.startReset
    rw [idle]
    dsimp only
    rw [if_neg (by simp)]
    exact ⟨_, _, _, rfl, rfl⟩
  rw [h]
  refine ⟨⟨r, ?recovery, hr⟩, ?fence, ?memories, bound_of_f fun l => ?bound⟩
  case recovery =>
    have kept : ∀ a b : State, b.recoveries = a.recoveries → (b.part p).recovery = (a.part p).recovery :=
      fun a b e => congrFun e p
    rw [kept (s.updPart p (fun x => { x with recovery := some r, resetTimes := times })) _ (by
      rw [State.recov_ev, State.recov_abortTests, State.recov_dropRotation, State.recov_logReset, State.recov_addHold,
        State.recov_incF, State.recov_setF]), State.part_updPart_same]
  case fence =>
    unfold State.fenced
    rw [State.f_ev _ _ _ _ (pt_notMem p (by decide)), State.f_abortTests _ _ (pt_notMem p (by decide)),
      State.f_dropRotation _ _ _ (pt_notMem p (by decide)), State.f_logReset, State.f_addHold _ _ _ (pt_notMem p (by decide)),
      State.f_incF_pt (W := [(1, R.RS_COUNT.off)]) (pt_notMem p (by decide)) p 1 (by decide),
      State.f_setF_field (g := F.RS_STATUS_state) (k := F.RS_STATUS_fenced) _ _ _ rfl (by decide), State.f_updPart]
  case memories =>
    rw [State.memories_ev, State.memories_abortTests, State.memories_dropRotation, State.memories_logReset,
      State.memories_addHold, State.memories_incF, State.memories_setF, State.memories_updPart]
  case bound =>
    have off : (F.CX_LD_BIND_parts.nth l.val).reg.off < 0x1000000 := by revert l; decide
    rw [State.f_ev _ _ _ _ (hub_notMem_of off (by decide)), State.f_abortTests _ _ (hub_notMem_of off (by decide)),
      State.f_dropRotation _ _ _ (hub_notMem_of off (by decide)), State.f_logReset,
      State.f_addHold _ _ _ (hub_notMem_of off (by decide)),
      State.f_incF_pt (W := [(1, R.RS_COUNT.off)]) (hub_notMem_of off (by decide)) p 1 (by decide),
      State.f_setF_pt (W := [(1, R.RS_STATUS.off)]) (hub_notMem_of off (by decide)) p 1 (by decide), State.f_updPart]

/-- The completion of a command leaves what its steps have reached. -/
theorem complete_leaves (u : State) (p : PartId) (n : Notice) (status result : Nat) :
    (u.complete n status result).memories = u.memories ∧ (u.complete n status result).parts = u.parts ∧
      (u.complete n status result).fenced p = u.fenced p ∧ (∀ l r, (u.complete n status result).bound l r = u.bound l r) ∧
      (u.complete n status result).f (pt p) F.TK_CTRL_hold = u.f (pt p) F.TK_CTRL_hold := by
  refine ⟨State.memories_complete .., State.parts_complete .., ?_,
    bound_of_f fun l => State.complete_hub _ _ _ _ (by revert l; decide), State.f_complete _ _ _ _ (pt_notMem p (by decide))⟩
  unfold State.fenced
  rw [State.f_complete _ _ _ _ (pt_notMem p (by decide))]

/-- A completion stands in the queue. -/
theorem compOf_mem_complete (u : State) (n : Notice) (status result : Nat) :
    compOf n status result ∈ (u.complete { n with phase := .acting } status result).comps := by
  rw [State.complete_comps]
  exact List.mem_append_right _ (List.mem_singleton.mpr rfl)

theorem recovery_of_recoveries {s t : State} (h : t.recoveries = s.recoveries) (p : PartId) :
    (t.part p).recovery = (s.part p).recovery := congrFun h p

/-- UNBIND of a partition at rest. -/
theorem execUnbind_takes {ld l : LdId} {p : PartId} {n : Notice} {s : State} (h : commanded s ld 0x0101 n)
    (idle : s.recovering p = false) (rest : s.running p = false) (owned : s.ldOf p = some l) :
    execUnbind ld p s = .next (let u := (s.acting ld 0x0101 p.val n).unbindFrom p l
      (if s.stew.retain.contains p = true then u.leaveHeld p else u.startReset p 6 ld.val false none).complete
        { n with phase := .acting } Cs.done 0) := by
  have rest' : (s.acting ld 0x0101 p.val n).running p = false :=
    (congrArg (decide <| · = 1) (s.acting_pt ld 0x0101 p.val n p (g := F.TK_STATUS_running) (by decide) (by decide)) :).trans rest
  have retain : ((s.acting ld 0x0101 p.val n).unbindFrom p l).stew.retain = s.stew.retain := by
    rw [← State.retained_eq, State.ret_unbindFrom, State.retained_eq, State.acting_stew]
  unfold execUnbind
  rw [State.command_of_commanded h]
  simp only [State.acting_recovering, idle, rest', State.acting_ldOf, owned, retain]
  rfl

theorem budget_lt {s : State} {p : PartId} {v : Nat} (good : s.budgetCause p v = 0x72) : v < 2048 := by
  unfold State.budgetCause at good
  split at good
  · simp at good
  · omega

/-- Settles O44. -/
theorem bindings : Obligations.Bindings := by
  unfold Obligations.Bindings
  refine ⟨?bind, ?unbind, ?retain, ?budget⟩
  case bind =>
    intro ld p target n s h idle rest enabled live free present unlent
    obtain ⟨memories, parts, retained, calls⟩ := bindTo_keeps (s.acting ld 0x0101 p.val n) target p
    have fenced := bindTo_fenced (s.acting ld 0x0101 p.val n) target p
    have bound := fun l r => bindTo_bound (s.acting ld 0x0101 p.val n) target l p r
    have ended := ended_of_calls h.1 p.val Cs.done 0 calls
    have stew := s.acting_stew ld 0x0101 p.val n
    have run := execBind_takes h idle rest enabled live free present unlent
    generalize (s.acting ld 0x0101 p.val n).bindTo target p = u at *
    obtain ⟨memories', parts', fenced', bound', -⟩ := complete_leaves u p { n with phase := .acting } Cs.done 0
    refine ⟨_, run, ended, ?_, fenced'.trans fenced, ?_, fun l r h => ?_, memoriesKept_of ?_, ?_⟩
    · rw [bound', bound, if_pos ⟨rfl, rfl⟩]
    · rw [State.stew_complete, ← State.retained_eq, retained, State.retained_eq, stew]
    · rw [bound', bound, if_neg (fun e => h (Prod.ext e.1 e.2)), State.acting_bound]
    · rw [memories', memories, State.memories_acting]
    · rw [parts', parts, State.acting_parts]
  case unbind =>
    intro ld p l n s h idle rest owned live
    have run := execUnbind_takes h idle rest owned
    have bound := unbindFrom_bound (s.acting ld 0x0101 p.val n) p l l p
    have fenced := unbindFrom_fenced (s.acting ld 0x0101 p.val n) p l
    have memories := ((s.acting ld 0x0101 p.val n).memories_unbindFrom p l).trans (s.memories_acting ld 0x0101 p.val n)
    have none_ : (((s.acting ld 0x0101 p.val n).unbindFrom p l).part p).recovery = none := by
      have kept : (((s.acting ld 0x0101 p.val n).unbindFrom p l).part p).recovery = ((s.acting ld 0x0101 p.val n).part p).recovery :=
        recovery_of_recoveries ((s.acting ld 0x0101 p.val n).recov_unbindFrom p l) p
      unfold State.recovering at idle
      rw [Bool.or_eq_false_iff, Option.isSome_eq_false_iff, Option.isNone_iff_eq_none] at idle
      rw [kept, State.part, State.acting_parts]
      exact idle.1
    generalize (s.acting ld 0x0101 p.val n).unbindFrom p l = u at *
    have held := leaveHeld_keeps u p
    have reset := startReset_unbound u p ld.val none_
    rw [if_pos ⟨rfl, rfl⟩] at bound
    dsimp only at run
    by_cases keep : p ∈ s.stew.retain
    · rw [if_pos (List.contains_iff_mem.mpr keep)] at run
      obtain ⟨kept, hold, fence, bits⟩ := held
      obtain ⟨memories', -, fenced', bound', hold'⟩ := complete_leaves (u.leaveHeld p) p { n with phase := .acting } Cs.done 0
      exact ⟨_, run, compOf_mem_complete _ _ _ _, (bound' l p).trans ((bits l p).trans bound), fenced'.trans (fence.trans fenced),
        memoriesKept_of (memories'.trans (kept.trans memories)), fun _ => hold'.trans hold, fun away => absurd keep away⟩
    · rw [if_neg (fun m => keep (List.contains_iff_mem.mp m))] at run
      obtain ⟨recovery, fence, kept, bits⟩ := reset
      obtain ⟨memories', parts', fenced', bound', -⟩ :=
        complete_leaves (u.startReset p 6 ld.val false none) p { n with phase := .acting } Cs.done 0
      refine ⟨_, run, compOf_mem_complete _ _ _ _, (bound' l p).trans ((bits l p).trans bound),
        fenced'.trans (fence.trans fenced), memoriesKept_of (memories'.trans (kept.trans memories)), fun m => absurd m keep,
        fun _ => ?_⟩
      unfold State.part at recovery ⊢
      rw [parts']
      exact recovery
  case retain =>
    intro ld p v n s h idle enabled live
    have live' := (s.acting_pt ld 0x0102 p.val n p (g := F.RS_STATUS_withdrawn) (by decide) (by decide)).trans live
    have stew := s.acting_stew ld 0x0102 p.val n
    let l := if v then (s.acting ld 0x0102 p.val n).stew.retain.erase p ++ [p] else (s.acting ld 0x0102 p.val n).stew.retain.erase p
    have run : execRetain ld p v s = .next (((s.acting ld 0x0102 p.val n).retaining l).complete { n with phase := .acting }
        Cs.done 0) := by
      unfold execRetain
      rw [State.command_of_commanded h]
      dsimp only
      rw [State.acting_recovering, idle, State.acting_enabled, enabled, live', if_neg Bool.false_ne_true, if_neg (by decide)]
      rfl
    obtain ⟨memories, parts, calls, retained⟩ := retaining_keeps (s.acting ld 0x0102 p.val n) l
    have ended := ended_of_calls h.1 p.val Cs.done 0 calls
    obtain ⟨memories', parts', -⟩ := complete_leaves ((s.acting ld 0x0102 p.val n).retaining l) p { n with phase := .acting }
      Cs.done 0
    refine ⟨_, run, ended, memoriesKept_of ?_, ?_, ?_⟩
    · rw [memories', memories, State.memories_acting]
    · rw [parts', parts, State.acting_parts]
    · rw [State.stew_complete, ← State.retained_eq, retained]
      simp only [l, stew]
  case budget =>
    intro ld p w n s h live
    have live' := (s.acting_pt ld 0x0201 p.val n p (g := F.RS_STATUS_withdrawn) (by decide) (by decide)).trans live
    have budgets : ∀ r, (s.acting ld 0x0201 p.val n).budgetOf r = s.budgetOf r := fun r =>
      s.acting_pt ld 0x0201 p.val n r (by decide) (by decide)
    have cause := budgetCause_of_budgets budgets p w.toNat
    have run : execBudget ld p w s = .next (((s.acting ld 0x0201 p.val n).setBudget p w.toNat ld.val).complete
        { n with phase := .acting } (if s.budgetCause p w.toNat = 0x72 then Cs.done else Cs.refused) 0) := by
      unfold execBudget
      rw [State.command_of_commanded h]
      dsimp only
      rw [live', cause, if_neg (by decide)]
    have calls := (s.acting ld 0x0201 p.val n).calls_setBudget p w.toNat ld.val
    have value := setBudget_budgetOf (s.acting ld 0x0201 p.val n) p w.toNat ld.val
    have parts := setBudget_parts (s.acting ld 0x0201 p.val n) p w.toNat ld.val
    have memories := (s.acting ld 0x0201 p.val n).memories_setBudget p w.toNat ld.val
    rw [cause, budgets] at value
    generalize (s.acting ld 0x0201 p.val n).setBudget p w.toNat ld.val = u at *
    have shown : ∀ status, (u.complete { n with phase := .acting } status 0).budgetOf p = u.budgetOf p := fun status =>
      State.f_complete _ _ _ _ (pt_notMem p (by decide))
    refine ⟨_, run, memoriesKept_of ?_, ?_, fun good => ?_, fun bad => ?_⟩
    · rw [State.memories_complete, memories, State.memories_acting]
    · rw [State.parts_complete, parts, State.acting_parts]
    · rw [if_pos good]
      refine ⟨ended_of_calls h.1 p.val Cs.done 0 calls, ?_⟩
      rw [shown, value, if_pos good]
      exact Nat.mod_eq_of_lt (budget_lt good)
    · rw [if_neg bad]
      refine ⟨ended_of_calls h.1 p.val Cs.refused 0 calls, ?_⟩
      rw [shown, value, if_neg bad]

end Sys2Proof.Machine
end

section
namespace Sys2Proof.Machine

-- Proved in parallel, these proofs hold a thread each, whose stacks pass the check's memory.
set_option Elab.async false

/-! ## Bring-up (O53) -/

/-- A device that is ready shows step 9. -/
theorem ready_step (s : State) : s.ready.f hub F.HB_BOOT_step = 9 := by
  unfold State.ready
  dsimp only
  generalize allParts.foldl _ s.bindAll = u
  have woken : ((u.setF hub F.HB_BOOT_step 9).wakePin).f hub F.HB_BOOT_step = 9 := by
    unfold State.wakePin
    have nine : (u.setF hub F.HB_BOOT_step 9).f hub F.HB_BOOT_step = 9 := (State.f_setF_same _ _ _ _ (by decide)).trans rfl
    dsimp only
    split
    · exact (State.f_mk ..).trans nine
    · exact nine
  generalize (u.setF hub F.HB_BOOT_step 9).wakePin = v at woken ⊢
  have shut : ∀ t : State, (allParts.foldl (fun t p => (t.raiseFence p 0xAA).addHold p .recovery) t).f hub F.HB_BOOT_step =
      t.f hub F.HB_BOOT_step :=
    fun t => State.f_foldl (fun t p => (State.f_addHold _ p .recovery (hub_notMem (by decide))).trans
      (State.f_raiseFence t p 0xAA (hub_notMem (by decide)))) _
  rw [State.f_ite, shut, ite_self, State.f_ev _ _ _ _ (hub_notMem (by decide)), woken]

theorem finishBoot_step (s : State) (i : TrainInput) (wipe : State → State) :
    (s.finishBoot i wipe).f hub F.HB_BOOT_step = 9 := ready_step _

/-- Step 6 waits for PERST#, or the bring-up goes on to its end. -/
theorem step6_step (s : State) (i : TrainInput) (wipe : State → State) :
    (s.step6 i wipe).f hub F.HB_BOOT_step = 9 ∨
      (s.step6 i wipe).f hub F.HB_BOOT_step = 6 ∧ (s.step6 i wipe).stew.perst = true ∧
        (s.step6 i wipe).stew.pwrGood = true ∧ (s.step6 i wipe).stew.clkreq = true := by
  unfold State.step6
  extract_lets a b
  split
  · next waits =>
    exact .inr ⟨(State.f_setF_same _ _ _ _ (by decide)).trans rfl, waits, rfl, rfl⟩
  · exact .inl (finishBoot_step ..)

/-- The start of a steward whose images and configuration are good runs through to step 6. -/
theorem boot_good {i : BootInput} (s : State) (image : i.image = none) (copyA : i.copyA = none)
    (version : i.store.minFw ≤ i.version) : ∃ u : State, s.boot i = u.step6 i.train id := by
  unfold State.boot
  rw [image, copyA]
  dsimp only
  rw [if_neg (by simp), if_neg (Nat.not_lt.mpr version)]
  exact ⟨_, rfl⟩

/-- What the recovery loader keeps: a record of the colophon changes neither memory nor the input's band. -/
theorem colRecord_keeps (s : State) (x : Src) (code : Nat) (cap : List Nat) :
    (s.colRecord x code cap).stew.band = s.stew.band ∧ (s.colRecord x code cap).mem = s.mem := ⟨rfl, rfl⟩

/-- The steward in its recovery loader, the die off. -/
def State.inLoader (s : State) (c : Nat) : State := { s with stew := { s.stew with
  running := false, recovery := some c, faultPin := true, die := false, pwrGood := false, recImage := [] } }

theorem inLoader_rests (s : State) (c : Nat) :
    let t := s.inLoader c
    t.stew.recovery = some c ∧ t.stew.die = false ∧ t.stew.running = false ∧ t.stew.faultPin = true ∧
      t.stew.band = s.stew.band ∧ t.mem = s.mem := ⟨rfl, rfl, rfl, rfl, rfl, rfl⟩

theorem recover_eq (s : State) (c : Nat) : s.recover c [] = (s.colRecord .hub Ev.FW_RECOVERY [c]).inLoader c := rfl

theorem recover_rests (s : State) (c : Nat) :
    let t := s.recover c []
    t.stew.recovery = some c ∧ t.stew.die = false ∧ t.stew.running = false ∧ t.stew.faultPin = true ∧
      t.stew.band = s.stew.band ∧ t.mem = s.mem := by
  obtain ⟨band, mem⟩ := colRecord_keeps s .hub Ev.FW_RECOVERY [c]
  rw [recover_eq, ← band, ← mem]
  exact inLoader_rests _ c

/-- The start of a steward with no good image ends in the recovery loader. -/
theorem boot_bad {i : BootInput} {c : Nat} (s : State) (image : i.image = some c) :
    ∃ u : State, s.boot i = u.recover c [] ∧ u.stew.band = s.stew.band ∧ u.mem = [] := by
  unfold State.boot
  rw [image]
  exact ⟨_, rfl, rfl, rfl⟩

/-- Settles O53. -/
theorem bringUp : Obligations.BringUp := by
  unfold Obligations.BringUp
  refine ⟨?bad, ?good, ?reset, ?release, ?assert, ?block⟩
  case bad =>
    intro i c s die idle image
    obtain ⟨u, run, band, mem⟩ := boot_bad ({ s with stew := { s.stew with band := 0 } }) image
    obtain ⟨recovery, off, stopped, pin, band', mem'⟩ := recover_rests u c
    have run' : exec (.powerOn i) s = .next (u.recover c []) := by
      change execPowerOn i s = _
      unfold execPowerOn
      rw [if_neg (by simp [die, idle]), run]
    exact ⟨_, run', recovery, off, stopped, pin, band'.trans band, mem'.trans mem⟩
  case good =>
    intro i s die idle image copyA _ version
    obtain ⟨u, run⟩ := boot_good ({ s with stew := { s.stew with band := 0 } }) image copyA version
    have run' : exec (.powerOn i) s = .next (u.step6 i.train id) := by
      change execPowerOn i s = _
      unfold execPowerOn
      rw [if_neg (by simp [die, idle]), run]
    exact ⟨_, run', step6_step u i.train id⟩
  case reset =>
    intro i r s asked
    obtain ⟨u, wipe, run⟩ : ∃ u wipe, execDeviceReset i s = .next (State.step6 u i wipe) := by
      obtain ⟨cause, ld, t0⟩ := r
      unfold execDeviceReset
      rw [asked]
      exact ⟨_, _, rfl⟩
    exact ⟨_, run, step6_step u i wipe⟩
  case release =>
    intro i s die idle waits
    let u : State := { s with stew := { s.stew with perst := false } }
    have waits' : u.f hub F.HB_BOOT_step = 6 := waits
    have run : execPerstRelease i s = .next (u.finishBoot i (wipeFor u)) :=
      if_pos ⟨die, Option.isNone_iff_eq_none.mpr idle, waits'⟩
    exact ⟨_, run, finishBoot_step u i _⟩
  case assert =>
    intro s good idle die
    let u : State := { s with stew := { s.stew with perst := true } }
    obtain ⟨req, -, off, kept, -, perst⟩ := startDevice_begins u 2 0xFF (.inr (.inl rfl)) idle die
    have run : execPerstAssert s = .next (u.startDevice 2 0xFF) := if_pos good
    exact ⟨_, run, perst, req, fun p => (off p).1, memoriesKept_of (kept.trans State.memories_mk)⟩
  case block =>
    intro bytes crc s loading length sum
    obtain ⟨c, loading'⟩ := Option.isSome_iff_exists.mp loading
    have run : execRecoveryImageBlock bytes crc none s = .next { s with stew := { s.stew with
        recImage := s.stew.recImage ++ bytes, smbus := [0x4B] } } := by
      unfold execRecoveryImageBlock
      rw [loading']
      dsimp only
      rw [if_neg (by simp [length, sum])]
    exact ⟨_, run, rfl, rfl, rfl⟩

end Sys2Proof.Machine
end

section
namespace Sys2Proof.Machine

-- Proved in parallel, these proofs hold a thread each, whose stacks pass the check's memory.
set_option Elab.async false

/-! ## Requests for a half's clock (O33) -/

theorem State.f_chargeStall (s : State) (u : StId) (old : Option Stall) (t : Nat) (adr : Nat) (fld : Fld) :
    (s.chargeStall u old t).f adr fld = s.f adr fld := by
  unfold State.chargeStall
  split <;> simp only [State.f_updQu]

theorem State.f_endRefusals (s : State) (q : QuireId) (toward : Nat → Bool) (adr : Nat) (fld : Fld) :
    (s.endRefusals q toward).f adr fld = s.f adr fld := by
  unfold State.endRefusals
  refine State.f_foldl (fun t a => ?_) _
  repeat' split
  all_goals simp only [State.f_updSt, State.f_chargeStall]

theorem State.f_evalShield (s : State) (p : PartId) (writer : Nat) {adr : Nat} {fld : Fld}
    (h : site (adr + fld.reg.off) ∉ [(1, R.IN_SHIELD.off), (1, 0xB00)]) :
    (s.evalShield p writer).f adr fld = s.f adr fld := by
  simp only [State.evalShield, State.f_ite, ite_self, State.f_setF_pt (g := F.IN_SHIELD_check) (h := h) (hw := by decide),
    State.f_setF_pt (g := F.IN_SHIELD_firmware) (h := h) (hw := by decide), State.f_setF_pt (g := F.IN_SHIELD_ratings) (h :=
    h) (hw := by decide), State.f_setF_pt (g := F.IN_SHIELD_scrub) (h := h) (hw := by decide), State.f_setF_pt (g :=
    F.IN_SHIELD_shielded) (h := h) (hw := by decide), State.f_incF_pt (g := F.IN_SHIELD_lapses) (h := h) (hw := by decide),
    State.f_ev (h := notMem_of_subset h (by decide))]

theorem State.f_evalShields (s : State) {adr : Nat} {fld : Fld}
    (h : site (adr + fld.reg.off) ∉ [(1, R.IN_SHIELD.off), (1, 0xB00)]) :
    (s.evalShields).f adr fld = s.f adr fld := by
  simp only [State.evalShields, implies_true, State.f_foldl, State.f_evalShield (h := h)]

theorem State.f_noteHalf (s : State) (side : Half) (old new result ld : Nat) {adr : Nat} {fld : Fld}
    (h : site (adr + fld.reg.off) ∉ [(1, 0xB00)]) :
    (s.noteHalf side old new result ld).f adr fld = s.f adr fld := by
  simp only [State.noteHalf, State.f_raise (h := h)]

theorem State.f_halfAnswer (s : State) (side : Half) (target result ld : Nat) {adr : Nat} {fld : Fld}
    (h : site (adr + fld.reg.off) ∉ [(0, R.MS_HALF.off), (1, 0xB00)]) :
    (s.halfAnswer side target result ld).f adr fld = s.f adr fld := by
  simp only [State.halfAnswer, State.f_ite, ite_self, State.f_setF_hub (g := F.MS_HALF_result) (h := h) (hw := by decide),
    State.f_noteHalf (h := notMem_of_subset h (by decide))]


/-- The changes of the halves' clocks and the messages of the spine. -/
def State.crossing (s : State) := (s.halfChg, s.spine)

theorem State.cross_mk {s : State} {pending now timeBase freeCount regs latches stitchers quires parts flights creditFlights
    srcs mem memMark triggers trackers charges mgn dramFixes sparesUsed remaps notices comps ctlPage cmdArea bar2 msix extents
    filter snoops readWait hostData links spNext regAns thermal staging stageLostAt stageLostN recNext mapCopies mapBefore
    runs tested pulseEnd ioNext tickIn stew} :
    State.crossing ⟨pending, now, timeBase, freeCount, regs, latches, stitchers, quires, parts, flights, creditFlights, srcs,
      mem, memMark, triggers, trackers, charges, mgn, dramFixes, sparesUsed, remaps, notices, comps, ctlPage, cmdArea, bar2,
      msix, extents, filter, snoops, readWait, hostData, links, s.spine, spNext, regAns, s.halfChg, thermal, staging,
      stageLostAt, stageLostN, recNext, mapCopies, mapBefore, runs, tested, pulseEnd, ioNext, tickIn, stew⟩ = s.crossing :=
      (rfl)

theorem State.cross_ite {c : Prop} [Decidable c] {a b : State} :
    State.crossing (if c then a else b) = if c then a.crossing else b.crossing := by
  split <;> rfl

theorem State.cross_foldl {α : Type} {g : State → α → State} {s : State} (step : ∀ s a, (g s a).crossing = s.crossing)
    (xs : List α) : (xs.foldl g s).crossing = s.crossing :=
  State.foldl_rest State.crossing g step xs s

theorem State.cross_setSt (s : State) (u : StId) (x : Stitcher) : (s.setSt u x).crossing = s.crossing := (rfl)

theorem State.cross_updSt (s : State) (u : StId) (f : Stitcher → Stitcher) : (s.updSt u f).crossing = s.crossing := (rfl)

theorem State.cross_setQu (s : State) (q : QuireId) (x : Quire) : (s.setQu q x).crossing = s.crossing := (rfl)

theorem State.cross_updQu (s : State) (q : QuireId) (f : Quire → Quire) : (s.updQu q f).crossing = s.crossing := (rfl)

theorem State.cross_setPart (s : State) (p : PartId) (x : Part) : (s.setPart p x).crossing = s.crossing := (rfl)

theorem State.cross_updPart (s : State) (p : PartId) (f : Part → Part) : (s.updPart p f).crossing = s.crossing := (rfl)

theorem State.cross_setSrc (s : State) (x : Src) (v : SrcSt) : (s.setSrc x v).crossing = s.crossing := (rfl)

theorem State.cross_updSrc (s : State) (x : Src) (f : SrcSt → SrcSt) : (s.updSrc x f).crossing = s.crossing := (rfl)

theorem State.cross_wr (s : State) (b : Nat) (r : Reg) (v : BitVec 32) : (s.wr b r v).crossing = s.crossing := (rfl)

theorem State.cross_setF (s : State) (b : Nat) (g : Fld) (v : Nat) : (s.setF b g v).crossing = s.crossing := (rfl)

theorem State.cross_incF (s : State) (b : Nat) (g : Fld) (n : Nat) : (s.incF b g n).crossing = s.crossing := (rfl)

theorem State.cross_setCnt (s : State) (b : Nat) (lo hi : Reg) (v : Nat) : (s.setCnt b lo hi v).crossing = s.crossing := (rfl)

theorem State.cross_raise (s : State) (x : Src) (code sev : Nat) (cap : List Nat) : (s.raise x code sev cap).crossing = s.crossing :=
  (congrArg State.crossing (s.raise_rest x code sev cap) :)

theorem State.cross_ev (s : State) (x : Src) (code : Nat) (cap : List Nat) : (s.ev x code cap).crossing = s.crossing :=
  s.cross_raise x code (evSev code) cap

theorem State.cross_complete (s : State) (n : Notice) (status result : Nat) : (s.complete n status result).crossing = s.crossing :=
  (congrArg State.crossing (s.complete_rest n status result) :)

theorem State.cross_chargeStall (s : State) (u : StId) (old : Option Stall) (t : Nat) :
    (s.chargeStall u old t).crossing = s.crossing := by
  unfold State.chargeStall
  split <;> simp only [State.cross_updQu]

theorem State.cross_endRefusals (s : State) (q : QuireId) (toward : Nat → Bool) :
    (s.endRefusals q toward).crossing = s.crossing := by
  unfold State.endRefusals
  refine State.cross_foldl (fun t a => ?_) _
  repeat' split
  all_goals simp only [State.cross_updSt, State.cross_chargeStall]

theorem State.cross_evalShield (s : State) (p : PartId) (writer : Nat) : (s.evalShield p writer).crossing = s.crossing := by
  simp only [State.evalShield, State.cross_ite, ite_self, State.cross_setF, State.cross_incF, State.cross_ev]

theorem State.cross_evalShields (s : State)  : (s.evalShields).crossing = s.crossing := by
  simp only [State.evalShields, implies_true, State.cross_foldl, State.cross_evalShield]

theorem State.cross_setHalf (s : State) (h : Half) (v : Nat) : (s.setHalf h v).crossing = s.crossing := (rfl)

theorem State.cross_noteHalf (s : State) (h : Half) (old new result ld : Nat) :
    (s.noteHalf h old new result ld).crossing = s.crossing := by
  simp only [State.noteHalf, State.cross_raise]


theorem State.parts_chargeStall (s : State) (u : StId) (old : Option Stall) (t : Nat) :
    (s.chargeStall u old t).parts = s.parts := by
  unfold State.chargeStall
  split <;> simp only [State.parts_updQu]

theorem State.parts_endRefusals (s : State) (q : QuireId) (toward : Nat → Bool) :
    (s.endRefusals q toward).parts = s.parts := by
  unfold State.endRefusals
  refine State.parts_foldl (fun t a => ?_) _
  repeat' split
  all_goals simp only [State.parts_updSt, State.parts_chargeStall]

theorem State.parts_evalShield (s : State) (p : PartId) (writer : Nat) : (s.evalShield p writer).parts = s.parts := by
  simp only [State.evalShield, State.parts_ite, ite_self, State.parts_setF, State.parts_incF, State.parts_ev]

theorem State.parts_evalShields (s : State)  : (s.evalShields).parts = s.parts := by
  simp only [State.evalShields, implies_true, State.parts_foldl, State.parts_evalShield]

theorem State.parts_setHalf (s : State) (h : Half) (v : Nat) : (s.setHalf h v).parts = s.parts := (rfl)

theorem State.parts_noteHalf (s : State) (h : Half) (old new result ld : Nat) :
    (s.noteHalf h old new result ld).parts = s.parts := by
  simp only [State.noteHalf, State.parts_raise]

theorem State.parts_halfAnswer (s : State) (h : Half) (target result ld : Nat) :
    (s.halfAnswer h target result ld).parts = s.parts := by
  simp only [State.halfAnswer, State.parts_ite, ite_self, State.parts_setF, State.parts_noteHalf]

theorem State.halfState_of_f {s t : State} {h : Half} (e : t.f hub (halfFld h) = s.f hub (halfFld h)) :
    t.halfState h = s.halfState h := e

theorem halfFld_off (h : Half) : (halfFld h).reg.off < 0x1000000 := by cases h <;> decide

theorem State.halfState_setHalf (s : State) (h : Half) {v : Nat} (small : v < 4) : (s.setHalf h v).halfState h = v := by
  unfold State.setHalf State.halfState
  rw [State.f_setF_same _ _ _ _ (by cases h <;> decide)]
  cases h <;> exact Nat.mod_eq_of_lt small

theorem State.halfState_result (s : State) (h : Half) (v : Nat) :
    (s.setF hub F.MS_HALF_result v).halfState h = s.halfState h := by
  unfold State.halfState
  cases h <;> exact State.f_setF_field (g := F.MS_HALF_result) _ _ _ rfl (by decide)

/-- The state in which a change of a half's clock has begun. -/
def State.changing (s : State) (h : Half) (c : HalfChange) : State :=
  (({ s with halfChg := spSet none s.halfChg (halfNum h) (some c) } : State).setHalf h 3).setF hub F.MS_HALF_result 4

theorem changing_shows (s : State) (h : Half) (c : HalfChange) :
    (s.changing h c).halfState h = 3 ∧ (s.changing h c).f hub F.MS_HALF_result = 4 ∧ (s.changing h c).memories = s.memories ∧
      (s.changing h c).halfChange h = some c := by
  unfold State.changing
  refine ⟨?_, ?_, ?_, ?_⟩
  · rw [State.halfState_result, State.halfState_setHalf _ _ (by decide)]
  · exact (State.f_setF_same _ _ _ _ (by decide)).trans rfl
  · rw [State.memories_setF, State.memories_setHalf]
    exact State.memories_mk
  · exact (spGet_spSet_same none s.halfChg (halfNum h) (some c) :)

/-- What a note of a write leaves of a half. -/
theorem noted_half (s : State) (w : Writer) (addr value : Nat) (h : Half) :
    (s.noted w addr value).halfState h = s.halfState h ∧ (s.noted w addr value).busyRun h = s.busyRun h ∧
      (s.noted w addr value).busySpan h = s.busySpan h ∧ (s.noted w addr value).ns = s.ns ∧
      (s.noted w addr value).halfChg = s.halfChg := by
  have rest := s.noted_rest w addr value
  have running : ∀ p, (s.noted w addr value).running p = s.running p := fun p => by
    unfold State.running
    rw [State.noted_f _ _ _ _ (pt_notMem p (by decide))]
  have part : ∀ p, (s.noted w addr value).part p = s.part p := fun p => (congrArg (State.part · p) rest :)
  have field : ∀ p, (s.noted w addr value).f (pt p) F.MS_SPAN_seam = s.f (pt p) F.MS_SPAN_seam ∧
      (s.noted w addr value).f (pt p) F.MS_SPAN_members = s.f (pt p) F.MS_SPAN_members := fun p =>
    ⟨State.noted_f _ _ _ _ (pt_notMem p (by decide)), State.noted_f _ _ _ _ (pt_notMem p (by decide))⟩
  have flights : (s.noted w addr value).flights = s.flights := (congrArg State.flights rest :)
  have credits : (s.noted w addr value).creditFlights = s.creditFlights := (congrArg State.creditFlights rest :)
  refine ⟨?_, ?_, ?_, (congrArg State.ns rest :), (congrArg State.halfChg rest :)⟩
  · exact State.noted_f _ _ _ _ (hub_notMem_of (halfFld_off h) (by decide))
  · simp only [State.busyRun, running, part, flights, credits]
  · simp only [State.busySpan, running, field]

theorem halfCmd_eq {s : State} {w : Writer} (h : Half) (target : Nat) (pass : s.gateOf w R.MS_HALF_REQ.off = .pass) :
    s.halfCmd w h target = (s.noted w R.MS_HALF_REQ.off (halfReqWord h target)).halfReq h target w.word := by
  unfold State.halfCmd
  rw [asWrite_hub _ _ pass (by decide)]

/-- A half whose clock is slow or stopped starts to clock up. -/
theorem halfReq_up {s : State} {h : Half} (ld : Nat) (slow : s.halfState h = 1 ∨ s.halfState h = 2) :
    ∃ c, s.halfReq h 0 ld = s.changing h c ∧ c.target = 0 ∧ c.firstDone = false ∧
      c.readyAt = s.ns + (if s.halfState h = 1 then 40000 else 300000) := by
  unfold State.halfReq
  dsimp only
  rw [if_neg (by omega), if_neg (by omega), if_pos rfl]
  exact ⟨_, rfl, rfl, rfl, rfl⟩

/-- A half of which nothing runs starts to clock down. -/
theorem halfReq_down {s : State} {h : Half} {target : Nat} (ld : Nat) (down : target = 1 ∨ target = 2)
    (full : s.halfState h = 0) (rests : s.busyRun h = false) (free : s.busySpan h = false) :
    ∃ c, s.halfReq h target ld = s.changing h c ∧ c.target = target := by
  unfold State.halfReq
  dsimp only
  rw [if_neg (by omega), if_neg (by omega), if_neg (by omega), rests, free, if_neg Bool.false_ne_true,
    if_neg Bool.false_ne_true]
  exact ⟨_, rfl, rfl⟩

/-- A half of which something runs, or that a span needs, refuses. -/
theorem halfReq_refused {s : State} {h : Half} {target : Nat} (ld : Nat) (down : target = 1 ∨ target = 2)
    (full : s.halfState h = 0) (busy : s.busyRun h = true ∨ s.busySpan h = true) :
    s.halfReq h target ld = s.halfAnswer h target (if s.busyRun h then 2 else 1) ld := by
  unfold State.halfReq
  dsimp only
  rw [if_neg (by omega), if_neg (by omega), if_neg (by omega)]
  split
  · rfl
  · next rests => rw [if_pos (busy.resolve_left rests)]

theorem halfAnswer_shows (s : State) (h : Half) (target ld : Nat) {result : Nat} (some_ : result = 1 ∨ result = 2) :
    let t := s.halfAnswer h target result ld
    t.halfState h = s.halfState h ∧ t.f hub F.MS_HALF_result = result ∧ t.halfChg = s.halfChg ∧ t.memories = s.memories := by
  intro t
  have e : t = (s.setF hub F.MS_HALF_result result).noteHalf h ((s.setF hub F.MS_HALF_result result).halfState h) target
      result ld := if_neg (by omega)
  rw [e]
  have chg := fun (u : State) old => congrArg Prod.fst (u.cross_noteHalf h old target result ld)
  refine ⟨?_, ?_, ?_, ?_⟩
  · refine (State.halfState_of_f (State.f_noteHalf _ _ _ _ _ _ (hub_notMem_of (halfFld_off h) (by decide)))).trans ?_
    exact s.halfState_result h result
  · rw [State.f_noteHalf _ _ _ _ _ _ (hub_notMem (by decide)), State.f_setF_same _ _ _ _ (by decide)]
    obtain rfl | rfl := some_ <;> rfl
  · exact chg _ _
  · rw [State.memories_noteHalf, State.memories_setF]

/-- What each step establishes for its own item, and no step takes away, holds of every item at the end. -/
theorem foldl_reaches {β : Type} (step : State → β → State) (P : β → State → Prop) (does : ∀ t b, P b (step t b))
    (stays : ∀ t a b, P a t → P a (step t b)) (l : List β) : ∀ t, ∀ b ∈ l, P b (l.foldl step t) := by
  have keeps : ∀ (l : List β) t b, P b t → P b (l.foldl step t) := by
    intro l
    induction l with
    | nil => exact fun _ _ h => h
    | cons a l ih => exact fun t b h => ih _ b (stays t b a h)
  induction l with
  | nil => exact fun _ b m => absurd m (List.not_mem_nil)
  | cons a l ih =>
    intro t b m
    obtain rfl | m := List.mem_cons.mp m
    · exact keeps l _ _ (does t b)
    · exact ih _ b m

/-- A partition's memory sleeps and its clock is stopped. -/
def State.sleepIn (s : State) (p : PartId) : State :=
  (s.updPart p (fun x => { x with memAsleep := true })).setF (pt p) F.TK_STATUS_clock 3

theorem sleepIn_sleeps (s : State) (p : PartId) :
    ((s.sleepIn p).part p).memAsleep = true ∧ (s.sleepIn p).f (pt p) F.TK_STATUS_clock = 3 := by
  refine ⟨?_, (State.f_setF_same _ _ _ _ (by decide)).trans rfl⟩
  unfold State.sleepIn State.part
  rw [State.setF_parts]
  exact congrArg Part.memAsleep (State.part_updPart_same ..)

theorem sleepIn_all (l : List PartId) (s : State) (p : PartId) (m : p ∈ l) :
    ((l.foldl State.sleepIn s).part p).memAsleep = true ∧ (l.foldl State.sleepIn s).f (pt p) F.TK_STATUS_clock = 3 := by
  refine foldl_reaches State.sleepIn (fun p t => (t.part p).memAsleep = true ∧ t.f (pt p) F.TK_STATUS_clock = 3)
    sleepIn_sleeps (fun t a b h => ?_) l s p m
  by_cases e : a = b
  · exact e ▸ sleepIn_sleeps t a
  · refine ⟨?_, ?_⟩
    · unfold State.sleepIn State.part
      rw [State.setF_parts]
      exact (congrArg Part.memAsleep (State.part_updPart_ne _ _ e)).trans h.1
    · unfold State.sleepIn
      rw [setF_pt_ne _ e _ rfl, State.f_updPart]
      exact h.2

/-- What the partitions of a half going to sleep leave. -/
theorem sleepIn_keeps (l : List PartId) (s : State) :
    (l.foldl State.sleepIn s).memories = s.memories ∧ (l.foldl State.sleepIn s).crossing = s.crossing ∧
      ∀ g : Fld, g.reg.off < 0x1000000 → (l.foldl State.sleepIn s).f hub g = s.f hub g := by
  refine ⟨State.memories_foldl (fun t p => (State.memories_setF ..).trans (State.memories_updPart ..)) _,
    State.cross_foldl (fun t p => (State.cross_setF ..).trans (State.cross_updPart ..)) _,
    fun g off => State.f_foldl (fun t p => ?_) _⟩
  unfold State.sleepIn
  rw [State.f_setF_pt (W := [(1, R.TK_STATUS.off)]) (hub_notMem_of off (by decide)) p 3 (by decide), State.f_updPart]

/-- The half's change is over: its state stands, and no result is owed. -/
def State.settled (s : State) (h : Half) (v : Nat) : State :=
  (({ s with halfChg := spSet none s.halfChg (halfNum h) none } : State).setHalf h v).setF hub F.MS_HALF_result 0

theorem settled_shows (s : State) (h : Half) {v : Nat} (small : v < 4) :
    (s.settled h v).halfState h = v ∧ (s.settled h v).halfChange h = none ∧ (s.settled h v).f hub F.MS_HALF_result = 0 ∧
      (s.settled h v).memories = s.memories ∧ (s.settled h v).parts = s.parts ∧ (s.settled h v).spine = s.spine := by
  unfold State.settled
  refine ⟨?_, ?_, ?_, ?_, rfl, rfl⟩
  · rw [State.halfState_result, State.halfState_setHalf _ _ small]
  · exact (spGet_spSet_same none s.halfChg (halfNum h) none :)
  · exact (State.f_setF_same _ _ _ _ (by decide)).trans rfl
  · rw [State.memories_setF, State.memories_setHalf]
    exact State.memories_mk

theorem halfChange_of_crossing {s t : State} (e : t.crossing = s.crossing) (h : Half) : t.halfChange h = s.halfChange h :=
  congrArg (fun c : Sparse (Option HalfChange) × List SpMsg => spGet none c.1 (halfNum h)) e

theorem spine_of_crossing {s t : State} (e : t.crossing = s.crossing) : t.spine = s.spine := congrArg Prod.snd e

/-- What the note of a change and the shields leave of a half. -/
theorem noted_shields (s : State) (h : Half) (old new result ld : Nat) :
    let t := (s.noteHalf h old new result ld).evalShields
    t.halfState h = s.halfState h ∧ t.crossing = s.crossing ∧ t.f hub F.MS_HALF_result = s.f hub F.MS_HALF_result ∧
      t.memories = s.memories ∧ t.parts = s.parts ∧ ∀ p, t.f (pt p) F.TK_STATUS_clock = s.f (pt p) F.TK_STATUS_clock := by
  refine ⟨State.halfState_of_f ?_, ?_, ?_, ?_, ?_, fun p => ?_⟩
  · rw [State.f_evalShields _ (hub_notMem_of (halfFld_off h) (by decide)),
      State.f_noteHalf _ _ _ _ _ _ (hub_notMem_of (halfFld_off h) (by decide))]
  · rw [State.cross_evalShields, State.cross_noteHalf]
  · rw [State.f_evalShields _ (hub_notMem (by decide)), State.f_noteHalf _ _ _ _ _ _ (hub_notMem (by decide))]
  · rw [State.memories_evalShields, State.memories_noteHalf]
  · rw [State.parts_evalShields, State.parts_noteHalf]
  · rw [State.f_evalShields _ (pt_notMem p (by decide)), State.f_noteHalf _ _ _ _ _ _ (pt_notMem p (by decide))]

theorem execHalfClockDownDone_eq {h : Half} {c : HalfChange} {s : State} (some_ : s.halfChange h = some c)
    (down : c.target = 1 ∨ c.target = 2) : execHalfClockDownDone h s =
      .next ((((halfParts h).foldl State.sleepIn (s.settled h c.target)).noteHalf h c.old c.target 0 c.ld).evalShields) := by
  unfold execHalfClockDownDone
  rw [some_]
  dsimp only
  rw [if_neg (by omega)]
  rfl

/-- A partition's memory answers again. -/
def State.wake (s : State) (p : PartId) : State := s.updPart p (fun x => { x with memAsleep := false })

/-- A partition's clock as its half wants it. -/
def State.clockUp (h : Half) (s : State) (p : PartId) : State := s.setF (pt p) F.TK_STATUS_clock (s.wantClock h)

/-- A quire's refusals towards a half end. -/
def State.endToward (h : Half) (s : State) (q : QuireId) : State :=
  s.endRefusals q (fun c => halfOf (partOf (s.entryQuire q c)) == h)

/-- The end of a change up: the half runs, its clocks are up, and no refusal towards it stands. -/
def State.fullUp (s : State) (h : Half) (c : HalfChange) : State :=
  ((List.finRange 32).foldl (State.endToward h) ((halfParts h).foldl (State.clockUp h)
    ((s.settled h 0).noteHalf h c.old 0 0 c.ld))).evalShields

theorem fst_of_eq {α β : Type} {x : α × β} {a : α} {b : β} (h : x = (a, b)) : x.1 = a := by rw [h]

theorem upDone_second {s : State} {h : Half} {c : HalfChange} (some_ : s.halfChange h = some c) (up : c.target = 0)
    (first : c.firstDone = true) (due : c.secondAt ≤ s.ns) :
    s.upDone h = ((((halfParts h).filter (fun p => p ≠ c.first)).foldl State.wake s).fullUp h c,
      (halfParts h).filter (fun p => p ≠ c.first)) := by
  unfold State.upDone
  rw [some_]
  dsimp only
  rw [if_neg (by omega), first, if_neg (by decide), State.waitNs_of_le s due]
  rfl

theorem fullUp_shows (s : State) (h : Half) (c : HalfChange) :
    (s.fullUp h c).halfState h = 0 ∧ (s.fullUp h c).halfChange h = none ∧ (s.fullUp h c).f hub F.MS_HALF_result = 0 ∧
      (s.fullUp h c).memories = s.memories ∧ (s.fullUp h c).parts = s.parts ∧ (s.fullUp h c).spine = s.spine := by
  obtain ⟨state, change, result, memories, parts, spine⟩ := settled_shows s h (v := 0) (by decide)
  have hubF : ∀ g : Fld, g.reg.off < 0x1000000 → (s.fullUp h c).f hub g = (s.settled h 0).f hub g := fun g off => by
    unfold State.fullUp
    rw [State.f_evalShields _ (hub_notMem_of off (by decide)), State.f_foldl (g := State.endToward h) (fun t q => t.f_endRefusals ..),
      State.f_foldl (g := State.clockUp h) (fun t p => State.f_setF_pt (W := [(1, R.TK_STATUS.off)]) (hub_notMem_of off (by decide)) p _ (by decide)),
      State.f_noteHalf _ _ _ _ _ _ (hub_notMem_of off (by decide))]
  have crossing : (s.fullUp h c).crossing = (s.settled h 0).crossing := by
    unfold State.fullUp
    rw [State.cross_evalShields, State.cross_foldl (g := State.endToward h) (fun t q => t.cross_endRefusals ..),
      State.cross_foldl (g := State.clockUp h) (fun t p => t.cross_setF ..), State.cross_noteHalf]
  refine ⟨(State.halfState_of_f (hubF _ (halfFld_off h))).trans state, (halfChange_of_crossing crossing h).trans change,
    (hubF _ (by decide)).trans result, ?_, ?_, (spine_of_crossing crossing).trans spine⟩
  · unfold State.fullUp
    rw [State.memories_evalShields, State.memories_foldl (g := State.endToward h) (fun t q => t.memories_endRefusals ..),
      State.memories_foldl (g := State.clockUp h) (fun t p => t.memories_setF ..), State.memories_noteHalf, memories]
  · unfold State.fullUp
    rw [State.parts_evalShields, State.parts_foldl (g := State.endToward h) (fun t q => t.parts_endRefusals ..),
      State.parts_foldl (g := State.clockUp h) (fun t p => t.parts_setF ..), State.parts_noteHalf, parts]

/-- No message is on the spine. -/
def State.spineClear (s : State) : State := { s with spine := [] }

theorem spineClear_keeps (s : State) (h : Half) :
    s.spineClear.halfState h = s.halfState h ∧ s.spineClear.halfChange h = s.halfChange h ∧
      s.spineClear.f hub F.MS_HALF_result = s.f hub F.MS_HALF_result ∧ s.spineClear.memories = s.memories ∧
      s.spineClear.parts = s.parts := ⟨State.f_mk .., rfl, State.f_mk .., State.memories_mk, rfl⟩

theorem execHalfClockUpDone_quiet {h : Half} {s : State} (quiet : (s.upDone h).1.spine = []) :
    execHalfClockUpDone h s = .next (s.upDone h).1.spineClear := by
  unfold execHalfClockUpDone
  dsimp only
  rw [quiet]
  rfl

theorem wake_all (l : List PartId) (s : State) (p : PartId) (m : p ∈ l) :
    ((l.foldl State.wake s).part p).memAsleep = false := by
  refine foldl_reaches State.wake (fun p t => (t.part p).memAsleep = false) (fun t p => ?_) (fun t a b h => ?_) l s p m
  · exact congrArg Part.memAsleep (State.part_updPart_same ..)
  · by_cases e : a = b
    · exact e ▸ congrArg Part.memAsleep (State.part_updPart_same ..)
    · exact (congrArg Part.memAsleep (State.part_updPart_ne _ _ e)).trans h

/-- Settles O33. -/
theorem halfRequests : Obligations.HalfRequests := by
  unfold Obligations.HalfRequests
  refine ⟨?up, ?down, ?refused, ?downDone, ?upDone⟩
  case up =>
    intro w h s pass slow
    obtain ⟨state, -, -, ns, -⟩ := noted_half s w R.MS_HALF_REQ.off (halfReqWord h 0) h
    have eq := halfCmd_eq h 0 pass
    have memories : (s.noted w R.MS_HALF_REQ.off (halfReqWord h 0)).memories = s.memories := State.memories_ev ..
    generalize s.noted w R.MS_HALF_REQ.off (halfReqWord h 0) = u at *
    obtain ⟨c, req, target, first, ready⟩ := halfReq_up w.word (state.symm ▸ slow)
    obtain ⟨state', result, kept, change⟩ := changing_shows u h c
    have run : execHalfClockUp w h s = .next (u.changing h c) := by
      unfold execHalfClockUp
      rw [eq, req]
    exact ⟨_, run, state', result, memoriesKept_of (kept.trans memories), c, change, target, first, by rw [ready, ns, state]⟩
  case down =>
    intro w h s pass full rests free
    have down : ∀ target, target = 1 ∨ target = 2 → ∃ t c, s.halfCmd w h target = t ∧ t.halfState h = 3 ∧
        t.f hub F.MS_HALF_result = 4 ∧ MemoriesKept s t ∧ t.halfChange h = some c ∧ c.target = target := by
      intro target ht
      obtain ⟨state, run, span, -⟩ := noted_half s w R.MS_HALF_REQ.off (halfReqWord h target) h
      have eq := halfCmd_eq h target pass
      have memories : (s.noted w R.MS_HALF_REQ.off (halfReqWord h target)).memories = s.memories := State.memories_ev ..
      generalize s.noted w R.MS_HALF_REQ.off (halfReqWord h target) = u at *
      obtain ⟨c, req, targets⟩ := halfReq_down w.word ht (state.trans full) (run.trans rests) (span.trans free)
      obtain ⟨state', result, kept, change⟩ := changing_shows u h c
      exact ⟨_, c, eq.trans req, state', result, memoriesKept_of (kept.trans memories), change, targets⟩
    obtain ⟨t, c, e, shows⟩ := down 1 (.inl rfl)
    obtain ⟨t', c', e', shows'⟩ := down 2 (.inr rfl)
    have retention : execHalfRetention w h s = .next t := by
      unfold execHalfRetention
      rw [e]
    have stop : execHalfStop w h s = .next t' := by
      unfold execHalfStop
      rw [e']
    exact ⟨⟨t, c, retention, shows⟩, t', c', stop, shows'⟩
  case refused =>
    intro w h s pass full busy
    have refused : ∀ target, target = 1 ∨ target = 2 → ∃ t, s.halfCmd w h target = t ∧ t.halfState h = 0 ∧
        t.f hub F.MS_HALF_result = (if s.busyRun h then 2 else 1) ∧ t.halfChg = s.halfChg ∧ MemoriesKept s t := by
      intro target ht
      obtain ⟨state, run, span, -, chg⟩ := noted_half s w R.MS_HALF_REQ.off (halfReqWord h target) h
      have eq := halfCmd_eq h target pass
      have memories : (s.noted w R.MS_HALF_REQ.off (halfReqWord h target)).memories = s.memories := State.memories_ev ..
      generalize s.noted w R.MS_HALF_REQ.off (halfReqWord h target) = u at *
      have req := halfReq_refused w.word ht (state.trans full) (by rw [run, span]; exact busy)
      obtain ⟨state', result, chg', kept⟩ := halfAnswer_shows u h target w.word (result := if u.busyRun h then 2 else 1)
        (by split <;> simp)
      exact ⟨_, eq.trans req, state'.trans (state.trans full), result.trans (by rw [run]), chg'.trans chg,
        memoriesKept_of (kept.trans memories)⟩
    intro c m
    obtain rfl | rfl : c = .halfRetention w h ∨ c = .halfStop w h := by simpa using m
    · obtain ⟨t, e, shows⟩ := refused 1 (.inl rfl)
      have run : execHalfRetention w h s = .next t := by
        unfold execHalfRetention
        rw [e]
      exact ⟨t, run, shows⟩
    · obtain ⟨t, e, shows⟩ := refused 2 (.inr rfl)
      have run : execHalfStop w h s = .next t := by
        unfold execHalfStop
        rw [e]
      exact ⟨t, run, shows⟩
  case downDone =>
    intro h c s some_ down
    have run := execHalfClockDownDone_eq some_ down
    obtain ⟨state, change, result, memories, -, -⟩ := settled_shows s h (v := c.target) (by omega)
    obtain ⟨kept, crossing, hubF⟩ := sleepIn_keeps (halfParts h) (s.settled h c.target)
    have sleeps := sleepIn_all (halfParts h) (s.settled h c.target)
    generalize (halfParts h).foldl State.sleepIn (s.settled h c.target) = u at *
    obtain ⟨state', crossing', result', kept', parts', clock'⟩ := noted_shields u h c.old c.target 0 c.ld
    refine ⟨_, run, state'.trans ((State.halfState_of_f (hubF _ (halfFld_off h))).trans state),
      (halfChange_of_crossing (crossing'.trans crossing) h).trans change, memoriesKept_of (kept'.trans (kept.trans memories)),
      result'.trans ((hubF _ (by decide)).trans result), fun p m => ?_⟩
    obtain ⟨asleep, clock⟩ := sleeps p m
    refine ⟨?_, (clock' p).trans clock⟩
    unfold State.part at asleep ⊢
    rw [parts']
    exact asleep
  case upDone =>
    intro h c s some_ up first due quiet
    have done := upDone_second some_ up first due
    have awake := wake_all ((halfParts h).filter (fun p => p ≠ c.first)) s
    have kept : (((halfParts h).filter (fun p => p ≠ c.first)).foldl State.wake s).memories = s.memories :=
      State.memories_foldl (fun t p => t.memories_updPart ..) _
    have spine : (((halfParts h).filter (fun p => p ≠ c.first)).foldl State.wake s).spine = s.spine :=
      State.foldl_rest State.spine State.wake (fun t p => rfl) _ _
    generalize ((halfParts h).filter (fun p => p ≠ c.first)).foldl State.wake s = u at *
    obtain ⟨state', change', result', memories', parts', spine'⟩ := fullUp_shows u h c
    have here : (s.upDone h).1 = u.fullUp h c := fst_of_eq done
    have run := execHalfClockUpDone_quiet (h := h) (s := s) (by rw [here, spine', spine, quiet])
    rw [here] at run
    obtain ⟨state, change, result, memories, parts⟩ := spineClear_keeps (u.fullUp h c) h
    refine ⟨_, run, state.trans state', change.trans change', memoriesKept_of (memories.trans (memories'.trans kept)),
      result.trans result', fun p m other => ?_⟩
    have here := awake p (List.mem_filter.mpr ⟨m, by simpa using other⟩)
    unfold State.part at here ⊢
    rw [parts, parts']
    exact here

end Sys2Proof.Machine
end

section
namespace Sys2Proof.Machine

-- Proved in parallel, these proofs hold a thread each, whose stacks pass the check's memory.
set_option Elab.async false

/-! ## More statements that a concrete state refutes -/

/-! ### A drain that lets an upload go (O28) -/

/-- A page-in to quire 0 that waits in its partition's queue. -/
def queuedPage : Hint :=
  { id := 0, owner := 0, sender := 0, quire := 0, word := 0, tag := 0, index := 0, dueTick := 0, duePos := 0, phase := .queued,
    status := 0, pma := 0, code := 0, size := 64, land_ := 0, data := [], moved := 0, bad := [], arrive := 0, quiet := false,
    freed := false, waited := false, sentAt := 0, accepted := 0 }

/-- Partition 0 is held; a page-in to its quire 0 waits, and behind it an upload of one byte of the page. -/
def waitingUpload : State :=
  let s := (State.reset.setF (pt 0) F.CH_RECONF_quires 1).setF (pt 0) F.TK_STATUS_held 1
  s.updPart 0 (fun x => { x with hints := [queuedPage], uploads := [{ pma := 0, bytes := [1#8], ld := 0, marked := false }] })

theorem waitingUpload_start : waitingUpload.gateOf .steward (pt 0 + R.CH_RECONF.off) = .pass ∧
    waitingUpload.f (pt 0) F.TK_STATUS_held = 1 ∧ waitingUpload.mem = [] := by decide +kernel

theorem waitingUpload_drain : Answers (execReconfDrain .steward 0 waitingUpload) (fun t => !t.mem.isEmpty) = true := by
  decide +kernel

/-- Refutes O28: a drain cancels the page-ins that wait, and an upload that waited for one of them lands in partition
memory. -/
theorem not_reconfiguration : ¬ Obligations.Reconfiguration := by
  rintro ⟨drain, -⟩
  obtain ⟨pass, held, empty⟩ := waitingUpload_start
  obtain ⟨t, ht, -, -, -, -, kept, -⟩ := drain .steward 0 waitingUpload pass held
  have h := answers_next waitingUpload_drain ht
  simp [kept, empty] at h

/-! ### A fill that is marked before its check (O25) -/

/-- A fill of 64 bytes that waits, and stands as refused already. -/
def markedFill : LeafOp :=
  { bytes := leBytes 64 (64 * 2 ^ 96), op := 0, sender := 0, addr := 0, at_ := 0, running := false, refused := true,
    poison := false, doneAt := 0 }

/-- The fill is the only operation of quire 0. -/
def fillingLeaf : State := State.reset.updQu 0 (fun x => { x with ops := [markedFill] })

theorem fillingLeaf_start : (fillingLeaf.qu 0).ops = [markedFill] ∧ fillingLeaf.leafOpCheck 0 markedFill = 0 ∧
    cleanLeaf fillingLeaf 0 markedFill.dst markedFill.len := by decide +kernel

theorem fillingLeaf_runs : Answers (execLeafOpStart 0 fillingLeaf)
    (fun t => (t.qu 0).ops.all (fun o => o.refused)) = true := by decide +kernel

/-- Refutes O25: the start of an operation keeps the mark of a refusal, which the statement does not ask to be down. -/
theorem not_leafWork : ¬ Obligations.LeafWork := by
  rintro ⟨-, -, -, fill, -⟩
  obtain ⟨ops, good, clean⟩ := fillingLeaf_start
  obtain ⟨t, o, ht, here, -, down, -⟩ := fill 0 markedFill [] fillingLeaf ops rfl good rfl clean
  have h := answers_next fillingLeaf_runs ht
  simp [here, down] at h

/-! ### A hung quire whose page-in holds an upload back (O21) -/

/-- Quire 0 has overrun its tick for 1 µs under STRETCH; it has a page-in that waits, and an upload waits behind that. -/
def hungQuire : State :=
  let s := (State.reset.setF (pt 0) F.TK_CTRL_policy 1).updQu 0 (fun x => { x with open_ := true, overrun := true })
  let s := s.updPart 0 (fun x => { x with
    frameOpen := true, hints := [queuedPage], uploads := [{ pma := 0, bytes := [1#8], ld := 0, marked := false }] })
  { s with timeBase := 1000 }

theorem hungQuire_start : hungQuire.f (pt (partOf 0)) F.TK_CTRL_policy = 1 ∧ (hungQuire.qu 0).open_ = true ∧
    (hungQuire.qu 0).overrun = true ∧ (hungQuire.qu 0).overrunNs + 1000 ≤ hungQuire.ns ∧
    hungQuire.partResets (partOf 0) = false ∧ (hungQuire.part (partOf 0)).frameOpen = true ∧ hungQuire.mem = [] := by
  decide +kernel

theorem hungQuire_resets : Answers (execHangWatchdog 0 hungQuire) (fun t => !t.mem.isEmpty) = true := by decide +kernel

/-- Refutes O21: the reset of a hung quire cancels its page-ins, and an upload that waited for one of them lands in partition
memory. -/
theorem not_deadlinesAndCloses : ¬ Obligations.DeadlinesAndCloses := by
  rintro ⟨-, ⟨hang, -⟩, -⟩
  obtain ⟨policy, here, late, due, up, frame, empty⟩ := hungQuire_start
  obtain ⟨t, ht, -, -, -, -, kept, -⟩ := hang 0 hungQuire policy here late due up frame
  have h := answers_next hungQuire_resets ht
  simp [kept, empty] at h

/-! ### A quire reset whose page-in holds an upload back (O36) -/

/-- Quire 0, which is present and runs no tick, has a page-in that waits, and an upload waits behind that. -/
def quietQuire : State :=
  (State.reset.setF (pt 0) (F.MS_MAP_absent.nth 0) 0).updPart 0 (fun x => { x with
    hints := [queuedPage], uploads := [{ pma := 0, bytes := [1#8], ld := 0, marked := false }] })

theorem quietQuire_start : quietQuire.present 0 = true ∧ quietQuire.halfDown (partOf 0) = false ∧
    quietQuire.partResets (partOf 0) = false ∧ quietQuire.spine = [] ∧ (quietQuire.qu 0).inReset = false ∧
    quietQuire.mem = [] := by decide +kernel

theorem quietQuire_resets : Answers (execSpineReset (.quire 0 false) none quietQuire) (fun t => !t.mem.isEmpty) = true := by
  decide +kernel

/-- Refutes O36: the reset of a quire cancels its page-ins, and an upload that waited for one of them lands in partition
memory. -/
theorem not_spineExchange : ¬ Obligations.SpineExchange := by
  rintro ⟨-, -, -, -, -, -, reset, -⟩
  obtain ⟨here, awake, up, idle, work, empty⟩ := quietQuire_start
  obtain ⟨t, ht, -, -, -, -, -, -, kept, -⟩ := reset 0 false quietQuire here awake up idle work
  have h := answers_next quietQuire_resets ht
  simp [kept, empty] at h

/-! ### A reconfiguration that lets an upload go (O43) -/

/-- A doorbell's notice for the reconfiguration of partition 0. -/
def reconfNotice : Notice :=
  { ld := 0, mailbox := 1, bit := 2, ptr := 0, tag := 0, irq := false, vec := 0, phase := .delivered }

/-- No frame of partition 0 is open; a page-in to its quire 0 waits, behind it an upload of one byte of the page, and the
sequencer has a reconfiguration before it. -/
def reconfUpload : State :=
  { quietQuire with notices := [reconfNotice] }

theorem reconfUpload_start : reconfUpload.notices = [reconfNotice] ∧ (reconfUpload.part 0).frameOpen = false ∧
    nothingPends reconfUpload 0 ∧ reconfUpload.anyInFlight (maskQuires 0 1) = false ∧
    (∀ q ∈ maskQuires 0 1, reconfUpload.inflight 0 ((reconfUpload.f (qb q) F.CH_EPOCH_epoch + 1) % 4) = 0) ∧
    reconfUpload.mem = [] := by
  decide +kernel

theorem reconfUpload_runs : Answers (execDoorbellReconfiguration 0 1#8 [] reconfUpload)
    (fun t => !t.mem.isEmpty) = true := by
  decide +kernel

/-- Refutes O43: a reconfiguration cancels the page-ins of its quires, and an upload that waited for one of them lands in
partition memory. -/
theorem not_doorbells : ¬ Obligations.Doorbells := by
  rintro ⟨-, -, -, -, -, -, reconf⟩
  obtain ⟨only, idle, quiet, still, epochs, empty⟩ := reconfUpload_start
  obtain ⟨t, ht, -, -, -, kept, -⟩ := reconf 0 1#8 reconfNotice reconfUpload only rfl rfl rfl idle quiet still epochs
  have h := answers_next reconfUpload_runs ht
  simp [kept, empty] at h

/-! ### A ring message that corrects a weight word (O27) -/

/-- A message of one unit to ring 0 of quire 0, with a byte more than its units hold. -/
def longMessage : Flight :=
  { src := 0, entry := 0, sender := 0, dst := 0, st := 0, landing := .ring 0 [1#8] 0 1 0, epoch := 0, span := false,
    relPos := 100, arrive := 0, code := 0, sentAt := 0 }

/-- A message of quire 0 to quire 1 that is still on its way. -/
def laterMessage : Flight :=
  { src := 0, entry := 0, sender := 0, dst := 1, st := 0, landing := .queue 0 [], epoch := 0, span := false,
    relPos := 5000, arrive := 4000, code := 0, sentAt := 4000 }

/-- Quire 0 is present; its ring 0 lies in a weight band, whose second word holds a corrected error. -/
def weightRing : State :=
  let s := (State.reset.setF (pt 0) (F.MS_MAP_absent.nth 0) 0).setF (qb 0) (F.LF_CLASS_weight.nth 0) 1
  let s := (s.setF (rb_ 0 0) F.CH_RING_CFG_valid 1).copyTo 0 [0] ((s.setF (pt 0) (F.MS_MAP_absent.nth 0) 0).mapWords 0)
  { s.setMark 0 64 1 with flights := [longMessage, laterMessage] }

theorem weightRing_start :
    takeLeast Flight.key (weightRing.flights.filter (fun m => decide (m.dst = 0) && !m.span)) = some (longMessage, []) ∧
      weightRing.unitWaits 0 0 = false ∧ weightRing.addressed 0 0 = weightRing.tileOf 0 ∧
      0 ≤ (weightRing.qu 0).runAt 100 ∧ weightRing.flights.erase longMessage = [laterMessage] := by decide +kernel

theorem weightRing_release : Answers (execMessageRelease 0 0 weightRing)
    (fun t => t.flights.all (fun m => decide (m.arrive = 4006))) = true := by decide +kernel

/-- Refutes O27: a ring message whose bytes do not fill its last word corrects that word, and the correction's pause delays
the messages that the quire has sent. -/
theorem not_channelArrivals : ¬ Obligations.ChannelArrivals := by
  rintro ⟨⟨release, -⟩, -⟩
  obtain ⟨first, clear, here, due, rest⟩ := weightRing_start
  obtain ⟨t, ht, kept, -⟩ := release 0 longMessage [] weightRing first clear here due
  have h := answers_next weightRing_release ht
  rw [kept, rest] at h
  exact absurd h (by decide)

end Sys2Proof.Machine
end

section
namespace Sys2Proof.Machine

-- Proved in parallel, these proofs hold a thread each, whose stacks pass the check's memory.
set_option Elab.async false

/-! ## Tokens, firings and the faults that checks report (O22) -/

/-! ### A token that its port takes in -/

theorem State.arriveToken_of_receivable {s : State} {u : StId} {k : Tok} (h : receivable s u k) (o : Origin) (pos : Nat) :
    s.arriveToken u k o pos = (s.setSt u { s.st u with store := (s.st u).store ++
      [{ data := k.data, tag := k.tag, port := k.port, ctl := k.ctl, at_ := pos, origin := o }] }).setF (sb u)
        F.ST_MATCH_peak (max (s.f (sb u) F.ST_MATCH_peak) ((s.st u).store.length + 1)) := by
  obtain ⟨check, epoch, used, sealed_, up, valid, open_, fresh, room⟩ := h
  have new : (s.st u).store.any (fun w => decide (w.port = k.port) && decide (w.tag = k.tag)) = false := by
    rw [List.any_eq_false]
    intro w hw
    rcases fresh w hw with h | h <;> simp [h]
  have space : ¬ (k.port ≠ 31 ∧ s.f (sb u) (portFld F.ST_PORT_credits k.port) ≤ (s.st u).waitingAt k.port) := by
    rcases room with h | h <;> omega
  unfold State.arriveToken
  simp only [check, epoch, used, sealed_, up, valid, open_, new, space, ne_eq, not_true_eq_false, if_false, reduceCtorEq,
    one_ne_zero]
  rfl

/-- A token that its port takes in joins the match store; every quire and every memory stays. -/
theorem State.arriveToken_took {s : State} {u : StId} {k : Tok} (h : receivable s u k) (o : Origin) (pos : Nat) :
    TookToken u k pos o s (s.arriveToken u k o pos) ∧ (s.arriveToken u k o pos).quires = s.quires ∧
      (s.arriveToken u k o pos).mem = s.mem := by
  rw [State.arriveToken_of_receivable h]
  refine ⟨⟨?store, fun v hv => ?others, State.f_setF_same _ _ _ _ (by decide)⟩, rfl, rfl⟩
  case store => rw [State.st_setF, State.st_setSt_same]
  case others => rw [State.st_setF, State.st_setSt_ne _ _ hv]

/-! ### A token that fails its check -/

theorem State.quires_charge (s : State) (p : PartId) (w : HwUnit) (code : Nat) (r : Bool) :
    (s.charge p w code r).quires = s.quires :=
  (congrArg State.quires (s.charge_rest p w code r) :)

theorem State.regs_charge (s : State) (p : PartId) (w : HwUnit) (code : Nat) (r : Bool) :
    (s.charge p w code r).regs = s.regs :=
  (congrArg State.regs (s.charge_rest p w code r) :)

theorem State.mem_charge (s : State) (p : PartId) (w : HwUnit) (code : Nat) (r : Bool) :
    (s.charge p w code r).mem = s.mem :=
  (congrArg State.mem (s.charge_rest p w code r) :)

/-- A credit that goes back touches the credits on their way alone. -/
theorem State.freeCredit_of_credits {α : Type} {k : State → α} (hk : ∀ (s : State) l, k { s with creditFlights := l } = k s)
    (s : State) (q : QuireId) (pos : Nat) (o : Origin) (n : Nat) : k (s.freeCredit q pos o n) = k s := by
  unfold State.freeCredit
  cases o with
  | internal => rfl
  | entry => exact hk s _

theorem State.f_incF_same (s : State) (b : Nat) (g : Fld) (n : Nat) (hw : g.lo + g.w ≤ 32) :
    (s.incF b g n).f b g = min (2 ^ g.w - 1) (s.f b g + n) := by
  have pos := Nat.two_pow_pos g.w
  rw [State.incF, State.f_setF_same _ _ _ _ hw, Nat.mod_eq_of_lt (by omega)]

theorem State.arriveToken_of_badCheck {s : State} {u : StId} {k : Tok}
    (h : (tokenCheck k.body u.st.val u.quire.val).toNat ≠ k.check) (o : Origin) (pos : Nat) :
    let t := s.arriveToken u k o pos
    t.stitchers = s.stitchers ∧ t.quires = s.quires ∧ t.mem = s.mem ∧
      t.f (sb u) F.ST_ERR_token_check = min (2 ^ F.ST_ERR_token_check.w - 1) (s.f (sb u) F.ST_ERR_token_check + 1) ∧
      ((s.part (partOf u.quire)).frameOpen = true → (t.part (partOf u.quire)).failed = true) := by
  intro t
  obtain ⟨x, unit, code, sev, cap, ht⟩ : ∃ x unit code sev cap, t = ((((s.incF (sb u) F.ST_ERR_token_check).freeCredit
      u.quire pos o 1).raise x code sev cap).charge (partOf u.quire) unit Ev.ST_TOKEN_CHECK false).failTick
        (partOf u.quire) := by
    simp only [t, State.arriveToken, State.dropToken, ne_eq, h, not_false_eq_true, if_true]
    exact ⟨_, _, _, _, _, rfl⟩
  rw [ht]
  have credit {α : Type} {k : State → α} (hk : ∀ (s : State) l, k { s with creditFlights := l } = k s) (a : State) :
      k (a.freeCredit u.quire pos o 1) = k a := State.freeCredit_of_credits hk a _ _ _ _
  have records (a : State) := a.raise_rest x code sev cap
  refine ⟨?stitchers, ?quires, ?mem, ?count, fun open_ => ?fails⟩
  case stitchers =>
    rw [State.failTick, State.updPart_stitchers, State.charge_stitchers, State.stitchers_of_butEvents (records _),
      credit (k := State.stitchers) fun _ _ => rfl, State.incF_stitchers]
  case quires =>
    rw [State.failTick, State.updPart_quires, State.quires_charge, State.quires_of_butEvents (records _),
      credit (k := State.quires) fun _ _ => rfl, State.incF_quires]
  case mem =>
    rw [State.failTick, State.updPart_mem, State.mem_charge, State.mem_of_butEvents (records _),
      credit (k := State.mem) fun _ _ => rfl, State.incF_mem]
  case count =>
    rw [State.failTick, State.f_updPart, State.f_congr (State.regs_charge ..), State.f_raise _ _ _ _ _ (sb_notMem u (by decide)),
      credit (k := fun a => a.f (sb u) F.ST_ERR_token_check) fun _ _ => rfl]
    exact s.f_incF_same _ _ _ (by decide)
  case fails =>
    refine State.failTick_failed _ _ ?_
    rw [State.part_congr (State.charge_parts ..), State.part_congr (State.parts_of_butEvents (records _)),
      State.part_congr (credit (k := State.parts) (fun _ _ => rfl) _), State.part_incF]
    exact open_

/-! ### The first ready firing (R93) -/

theorem State.cnt_wr_of_ne (s : State) {b c : Nat} {r lo hi : Reg} (v : BitVec 32) (hlo : b + r.off ≠ c + lo.off)
    (hhi : b + r.off ≠ c + hi.off) : (s.wr b r v).cnt c lo hi = s.cnt c lo hi := by
  unfold State.cnt
  rw [s.rd_wr_ne v hlo, s.rd_wr_ne v hhi]

theorem State.cnt_setCnt (s : State) (b : Nat) {lo hi : Reg} (v : Nat) (h : lo.off ≠ hi.off) :
    (s.setCnt b lo hi v).cnt b lo hi = v % 2 ^ 64 := by
  unfold State.setCnt State.cnt
  rw [State.rd_wr_ne _ _ (fun e => h (by omega)), State.rd_wr_same, State.rd_wr_same, BitVec.toNat_ofNat, BitVec.toNat_ofNat]
  omega

theorem State.f_setCnt_of_ne (s : State) {b c : Nat} {lo hi : Reg} {k : Fld} (v : Nat) (hlo : b + lo.off ≠ c + k.reg.off)
    (hhi : b + hi.off ≠ c + k.reg.off) : (s.setCnt b lo hi v).f c k = s.f c k := by
  unfold State.setCnt State.f
  rw [State.rd_wr_ne _ _ hhi, State.rd_wr_ne _ _ hlo]

/-- Loading slots writes scalar registers alone. -/
theorem Stitcher.loadSlots_keeps (l : List Waiting) (j : Nat) (x : Stitcher) :
    ∃ m, x.loadSlots j l = { x with sreg := m } := by
  induction l generalizing j x with
  | nil => exact ⟨_, rfl⟩
  | cons w l ih =>
    obtain ⟨m, hm⟩ := ih (j + 1) ((x.setS (BitVec.ofNat 5 (24 + 2 * j)) (w.data.setWidth 32)).setS
      (BitVec.ofNat 5 (25 + 2 * j)) ((w.data >>> 32).setWidth 32))
    refine ⟨m, ?_⟩
    rw [Stitcher.loadSlots, hm]
    unfold Stitcher.setS
    split <;> split <;> rfl

/-- A scalar register below the slots keeps its value. -/
theorem Stitcher.s_loadSlots_below (l : List Waiting) (j : Nat) (x : Stitcher) (k : SReg) (hj : j + l.length ≤ 4)
    (hk : k.toNat < 24 + 2 * j) : (x.loadSlots j l).s k = x.s k := by
  induction l generalizing j x with
  | nil => rfl
  | cons w l ih =>
    rw [List.length_cons] at hj
    rw [Stitcher.loadSlots, ih _ _ (by omega) (by omega), Stitcher.s_setS, Stitcher.s_setS]
    rw [if_neg, if_neg] <;> rintro ⟨rfl, -⟩ <;> simp only [BitVec.toNat_ofNat] at hk <;> omega

/-- The slots hold the two halves of their data. -/
theorem Stitcher.s_loadSlots (l : List Waiting) (j : Nat) (x : Stitcher) (hj : j + l.length ≤ 4) (i : Nat) (w : Waiting)
    (h : l[i]? = some w) :
    (x.loadSlots j l).s (BitVec.ofNat 5 (24 + 2 * (j + i))) = w.data.extractLsb' 0 32 ∧
      (x.loadSlots j l).s (BitVec.ofNat 5 (25 + 2 * (j + i))) = w.data.extractLsb' 32 32 := by
  induction l generalizing j x i with
  | nil => simp at h
  | cons v l ih =>
    rw [List.length_cons] at hj
    cases i with
    | succ i =>
      rw [Stitcher.loadSlots, show j + (i + 1) = j + 1 + i by omega]
      exact ih _ _ (by omega) i h
    | zero =>
      obtain rfl : v = w := by simpa using h
      have low : v.data.setWidth 32 = v.data.extractLsb' 0 32 := by
        ext k hk; simp
      have high : (v.data >>> 32).setWidth 32 = v.data.extractLsb' 32 32 := by
        ext k hk; simp
      have lo : (BitVec.ofNat 5 (24 + 2 * j)).toNat = 24 + 2 * j := by rw [BitVec.toNat_ofNat]; omega
      have hi : (BitVec.ofNat 5 (25 + 2 * j)).toNat = 25 + 2 * j := by rw [BitVec.toNat_ofNat]; omega
      have nz : BitVec.ofNat 5 (24 + 2 * j) ≠ (0 : SReg) := fun e => by rw [e] at lo; simp at lo; omega
      have nz' : BitVec.ofNat 5 (25 + 2 * j) ≠ (0 : SReg) := fun e => by rw [e] at hi; simp at hi; omega
      have ne : BitVec.ofNat 5 (24 + 2 * j) ≠ BitVec.ofNat 5 (25 + 2 * j) := fun e => by rw [e, hi] at lo; omega
      rw [Nat.add_zero, Stitcher.loadSlots]
      constructor
      · rw [Stitcher.s_loadSlots_below _ _ _ _ (by omega) (by omega), Stitcher.s_setS, if_neg (fun a => ne a.1),
          Stitcher.s_setS, if_pos ⟨rfl, nz⟩, low]
      · rw [Stitcher.s_loadSlots_below _ _ _ _ (by omega) (by omega), Stitcher.s_setS, if_pos ⟨rfl, nz'⟩, high]

/-- The stitcher as a firing finds it: its slots and s23 loaded, its tokens taken, its handler's entry next. -/
def Stitcher.fired (x : Stitcher) (r : Ready) (entry : Nat) : Stitcher :=
  let t := max (r.last + 2) x.nextAt
  let ports := r.toks.map (fun w => w.port)
  { (x.loadSlots 0 r.toks).setS 23 (BitVec.ofNat 32 (r.tag % 4096 + 2 ^ 12 * kindBits 0 r.toks + 2 ^ 16 * r.handler)) with
    store := x.store.filter (fun w => !(decide (w.tag = r.tag) && ports.contains w.port)),
    firing := some ⟨r.handler, r.tag⟩, pc := entry, nextAt := t, doneAt := 0,
    issues := [], stall := none, score := x.score.filter (fun c => !(decide (23 ≤ c.1) && decide (c.1 < 32))),
    portFreed := ports.foldl (fun m j => spUpd [] m j (t :: ·)) x.portFreed }

theorem execFiringDispatch_of_ready {s : State} {u : StId} {r : Ready} (may : s.mayFire u = true)
    (next : s.nextReady u = some r) :
    ∃ pos l t, execFiringDispatch u s = .next t ∧ t =
      ((((s.setSt u ((s.st u).fired r (s.f (sb u) (F.ST_HANDLER_entry.nth r.handler)))).freeCredits u.quire pos l).setF (sb u)
        F.ST_STATUS_handler r.handler).setF (sb u) F.ST_PC_count 0).setCnt (sb u) R.ST_FIRINGS_LO R.ST_FIRINGS_HI
          (s.cnt (sb u) R.ST_FIRINGS_LO R.ST_FIRINGS_HI + 1) := by
  refine ⟨max (r.last + 2) (s.st u).nextAt, r.toks.map (fun w => (w.origin, 1)), _, ?_, rfl⟩
  unfold execFiringDispatch
  simp only [may, next, reduceCtorEq, if_false]
  refine congrArg Host.Outcome.next ?_
  have credits (a : State) (pos : Nat) (l : List (Origin × Nat)) :
      (a.freeCredits u.quire pos l).cnt (sb u) R.ST_FIRINGS_LO R.ST_FIRINGS_HI = a.cnt (sb u) R.ST_FIRINGS_LO R.ST_FIRINGS_HI :=
    State.freeCredits_of_credits (k := fun a => a.cnt (sb u) R.ST_FIRINGS_LO R.ST_FIRINGS_HI) (fun _ _ => rfl) _ _ _ _
  have count : (((((s.setSt u ((s.st u).fired r (s.f (sb u) (F.ST_HANDLER_entry.nth r.handler)))).freeCredits u.quire
      (max (r.last + 2) (s.st u).nextAt) (r.toks.map (fun w => (w.origin, 1)))).setF (sb u) F.ST_STATUS_handler
        r.handler).setF (sb u) F.ST_PC_count 0).cnt (sb u) R.ST_FIRINGS_LO R.ST_FIRINGS_HI) =
      s.cnt (sb u) R.ST_FIRINGS_LO R.ST_FIRINGS_HI := by
    have apart (o k : Nat) (h : o ≠ k) : sb u + o ≠ sb u + k := by omega
    rw [State.setF, State.cnt_wr_of_ne _ _ (apart _ _ (by decide)) (apart _ _ (by decide)), State.setF,
      State.cnt_wr_of_ne _ _ (apart _ _ (by decide)) (apart _ _ (by decide)), credits]
    rfl
  rw [← count]
  rfl

/-- The first ready firing begins. -/
theorem firingDispatch_begins {s : State} {u : StId} {r : Ready} (may : s.mayFire u = true) (next : s.nextReady u = some r)
    (few : r.toks.length ≤ 4) :
    ∃ t, exec (.firingDispatch u) s = .next t ∧ (t.st u).firing = some ⟨r.handler, r.tag⟩ ∧
      (t.st u).pc = s.f (sb u) (F.ST_HANDLER_entry.nth r.handler) ∧ t.f (sb u) F.ST_PC_count = 0 ∧
      t.cnt (sb u) R.ST_FIRINGS_LO R.ST_FIRINGS_HI = (s.cnt (sb u) R.ST_FIRINGS_LO R.ST_FIRINGS_HI + 1) % 2 ^ 64 ∧
      (t.st u).s 23 = BitVec.ofNat 32 (r.tag % 4096 + 2 ^ 12 * kindBits 0 r.toks + 2 ^ 16 * r.handler) ∧
      (∀ j w, r.toks[j]? = some w → (t.st u).s (BitVec.ofNat 5 (24 + 2 * j)) = w.data.extractLsb' 0 32 ∧
        (t.st u).s (BitVec.ofNat 5 (25 + 2 * j)) = w.data.extractLsb' 32 32) ∧
      (∀ k : SReg, k.toNat < 23 → (t.st u).s k = (s.st u).s k) ∧
      (t.st u).store = (s.st u).store.filter
        (fun w => !(decide (w.tag = r.tag) && (r.toks.map (fun w => w.port)).contains w.port)) ∧
      (t.st u).vreg = (s.st u).vreg ∧ (t.st u).preg = (s.st u).preg ∧ (∀ v, v ≠ u → t.st v = s.st v) ∧ MemoriesKept s t := by
  obtain ⟨pos, l, t, run, ht⟩ := execFiringDispatch_of_ready may next
  refine ⟨t, run, ?_⟩
  have stitchers : t.stitchers = (s.setSt u ((s.st u).fired r (s.f (sb u) (F.ST_HANDLER_entry.nth r.handler)))).stitchers := by
    rw [ht]
    exact State.freeCredits_of_credits (k := State.stitchers) (fun _ _ => rfl) _ _ _ _
  have here : t.st u = (s.st u).fired r (s.f (sb u) (F.ST_HANDLER_entry.nth r.handler)) := by
    rw [State.st_congr stitchers, State.st_setSt_same]
  obtain ⟨m, hm⟩ := Stitcher.loadSlots_keeps r.toks 0 (s.st u)
  have slots (k : SReg) : (t.st u).s k =
      (((s.st u).loadSlots 0 r.toks).setS 23 (BitVec.ofNat 32 (r.tag % 4096 + 2 ^ 12 * kindBits 0 r.toks + 2 ^ 16 *
        r.handler))).s k := by
    rw [here]; rfl
  have slot (o : Nat) (ho : 24 ≤ o ∧ o < 32) : ¬ (BitVec.ofNat 5 o = (23 : SReg) ∧ (23 : SReg) ≠ 0) := fun ⟨e, _⟩ => by
    have := congrArg BitVec.toNat e
    rw [BitVec.toNat_ofNat] at this
    simp at this
    omega
  refine ⟨?firing, ?pc, ?count, ?firings, ?s23, fun j w hw => ?slots, fun k hk => ?below, ?store, ?vreg, ?preg,
    fun v hv => ?others, ?memories⟩
  case firing => rw [here]; rfl
  case pc => rw [here]; rfl
  case count =>
    rw [ht, State.f_setCnt_of_ne _ _ (fun e => absurd e (by simp [sb]; decide)) (fun e => absurd e (by simp [sb]; decide))]
    exact State.f_setF_same _ _ _ _ (by decide)
  case firings => rw [ht]; exact State.cnt_setCnt _ _ _ (by decide)
  case s23 => rw [slots, Stitcher.s_setS, if_pos ⟨rfl, by decide⟩]
  case slots =>
    have := (List.getElem?_eq_some_iff.mp hw).1
    rw [slots, slots, Stitcher.s_setS, Stitcher.s_setS, if_neg (slot _ (by omega)), if_neg (slot _ (by omega))]
    have := Stitcher.s_loadSlots r.toks 0 (s.st u) (by omega) j w hw
    rwa [Nat.zero_add] at this
  case below =>
    rw [slots, Stitcher.s_setS, if_neg (by rintro ⟨rfl, -⟩; simp at hk), Stitcher.s_loadSlots_below _ _ _ _ (by omega)
      (by omega)]
  case store => rw [here]; rfl
  case vreg => rw [here, Stitcher.fired, hm]; rfl
  case preg => rw [here, Stitcher.fired, hm]; rfl
  case others => rw [State.st_congr stitchers, State.st_setSt_ne _ _ hv]
  case memories =>
    have mem : t.mem = s.mem := by
      rw [ht]; exact State.freeCredits_of_credits (k := State.mem) (fun _ _ => rfl) _ _ _ _
    have quires : t.quires = s.quires := by
      rw [ht]; exact State.freeCredits_of_credits (k := State.quires) (fun _ _ => rfl) _ _ _ _
    refine ⟨mem, fun q => congrArg Quire.leaf (State.qu_congr quires q), fun v => ?_⟩
    by_cases hv : v = u
    · rw [hv, here, Stitcher.fired, hm]; rfl
    · rw [State.st_congr stitchers, State.st_setSt_ne _ _ hv]

/-! ### Register writes that reach a quire's block -/

theorem State.present_noted (s : State) (w : Writer) (addr value : Nat) (q : QuireId) :
    (s.noted w addr value).present q = s.present q := by
  unfold State.present
  rw [State.noted_f _ _ _ _ (pt_notMem _ _)]
  have := Nat.mod_lt q.val (show 0 < 8 by decide)
  refine ⟨.inl ?_, ?_⟩ <;> simp only [Fld.nth, Reg.nth, F.MS_MAP_absent, R.MS_MAP, localOf, List.mem_singleton, Prod.mk.injEq] <;>
    omega

theorem State.asleepCause_noted (s : State) (w : Writer) (addr value a : Nat) :
    (s.noted w addr value).asleepCause a = s.asleepCause a := by
  unfold State.asleepCause
  simp only [s.present_noted, State.noted_f _ _ _ _ (hub_notMem_of (halfFld_off _) (by decide))]

/-- A write that reaches its register does there what `k` says, once it is recorded. -/
theorem asWrite_reaches {s : State} {w : Writer} {addr : Nat} (value : Nat) (k : State → State) (h : reaches s w addr)
    (hs : addr % 0x1000000 ≠ R.TK_STRIKE.off) : s.asWrite w addr value k = k (s.noted w addr value) :=
  s.asWrite_pass value k h.1 (fun a => hs a.1) ((s.asleepCause_noted w addr value addr).trans h.2)

theorem qb_ne_strike (q : QuireId) {x : Nat} (h : x < 0x10000) : (qb q + x) % 0x1000000 ≠ R.TK_STRIKE.off := by
  have := Nat.mod_lt q.val (show 0 < 8 by decide)
  unfold qb pt localOf
  simp only [R.TK_STRIKE]
  omega

theorem sb_ne_strike (u : StId) {x : Nat} (h : x < 0x100) : (sb u + x) % 0x1000000 ≠ R.TK_STRIKE.off := by
  have := u.st.isLt
  rw [sb, Nat.add_assoc, Nat.add_assoc]
  exact qb_ne_strike _ (by omega)

theorem State.noted_stitchers (s : State) (w : Writer) (addr value : Nat) : (s.noted w addr value).stitchers = s.stitchers :=
  State.stitchers_of_butEvents (s.noted_rest w addr value)

theorem State.noted_quires (s : State) (w : Writer) (addr value : Nat) : (s.noted w addr value).quires = s.quires :=
  State.quires_of_butEvents (s.noted_rest w addr value)

theorem State.noted_parts (s : State) (w : Writer) (addr value : Nat) : (s.noted w addr value).parts = s.parts :=
  State.parts_of_butEvents (s.noted_rest w addr value)

theorem State.noted_mem (s : State) (w : Writer) (addr value : Nat) : (s.noted w addr value).mem = s.mem :=
  State.mem_of_butEvents (s.noted_rest w addr value)

theorem State.runsFree_noted (s : State) (w : Writer) (addr value : Nat) (p : PartId) :
    (s.noted w addr value).runsFree p = s.runsFree p := by
  unfold State.runsFree
  rw [State.noted_f _ _ _ _ (pt_notMem p (by decide)), State.noted_f _ _ _ _ (pt_notMem p (by decide))]

theorem State.partResets_noted (s : State) (w : Writer) (addr value : Nat) (p : PartId) :
    (s.noted w addr value).partResets p = s.partResets p := by
  unfold State.partResets
  rw [State.noted_f _ _ _ _ (pt_notMem p (by decide)), State.part_congr (s.noted_parts w addr value)]

/-- A field of a quire's block that a write clears. -/
theorem clearField_reaches {s : State} {w : Writer} {q : QuireId} {g k : Fld} (value : Nat) (hr : g.reg.off < 0x10000)
    (h : reaches s w (qb q + g.reg.off)) (hw : g.lo + g.w ≤ 32) (hk : k.reg = g.reg)
    (apart : (g.lo + g.w ≤ k.lo ∧ k.lo + k.w ≤ 32) ∨ (k.lo + k.w ≤ g.lo ∧ g.lo + g.w ≤ 32))
    (site_ : site (qb q + k.reg.off) ∉ [(1, 0xB00)]) :
    let t := s.asWrite w (qb q + g.reg.off) value (fun t => t.setF (qb q) g 0)
    t.f (qb q) g = 0 ∧ t.f (qb q) k = s.f (qb q) k ∧ t.stitchers = s.stitchers ∧ t.quires = s.quires := by
  intro t
  have ht : t = (s.noted w (qb q + g.reg.off) value).setF (qb q) g 0 := asWrite_reaches _ _ h (qb_ne_strike q hr)
  rw [ht]
  exact ⟨(State.f_setF_same _ _ _ _ hw).trans (Nat.zero_mod _),
    (State.f_setF_field _ _ 0 hk apart).trans (s.noted_f w _ _ site_), s.noted_stitchers w _ _, s.noted_quires w _ _⟩

/-! ### Faults that the checks report, and resets (R110, R112, R114) -/

theorem residueMismatch_faults {s : State} {u : StId} {pc : BitVec 10} (used : s.f (sb u) F.ST_STATUS_used = 1)
    (sealed_ : s.f (sb u) F.ST_STATUS_sealed = 1) (up : (s.st u).inReset = false)
    (issued : ∃ i ∈ (s.st u).issues, i.1 = pc.toNat) (covered : residueChecks ((s.st u).progWord pc.toNat) = true) :
    ∃ t, exec (.residueMismatch u pc) s = .next t ∧ Faulted u 1 s t := by
  obtain ⟨i, hi, at_⟩ := issued
  have found := List.find?_isSome (p := fun i => decide (i.1 = pc.toNat)) |>.mpr ⟨i, hi, decide_eq_true at_⟩
  obtain ⟨j, hj⟩ := Option.isSome_iff_exists.mp found
  refine ⟨_, ?_, faulted_firingFault s u (by decide) (j.2 + 4) [pc.toNat, ((s.st u).progWord pc.toNat).toNat]⟩
  show execResidueMismatch u pc s = _
  simp only [execResidueMismatch, hj, used, sealed_, up, covered, reduceCtorEq, or_self, one_ne_zero, if_false]

theorem residueMismatch_of_none {s : State} {u : StId} {pc : BitVec 10}
    (h : (∀ i ∈ (s.st u).issues, i.1 ≠ pc.toNat) ∨ residueChecks ((s.st u).progWord pc.toNat) = false) :
    exec (.residueMismatch u pc) s = .next s := by
  show execResidueMismatch u pc s = _
  unfold execResidueMismatch
  rcases h with h | h
  · have none_ : (s.st u).issues.find? (fun i => decide (i.1 = pc.toNat)) = none := by simpa using h
    simp only [none_]
  · dsimp only
    split
    · rfl
    · rw [if_pos (.inr (.inr (.inr h)))]

theorem illegalInstruction_faults {s : State} {u : StId} (runs : s.executes u = true)
    (illegal : decodeWord u ((s.st u).progWord (s.st u).pc) = none) (few : s.f (sb u) F.ST_PC_count < 256)
    (readable : (s.st u).progErr (s.st u).pc ≠ 2) :
    ∃ t, exec (.illegalInstruction u) s = .next t ∧ Faulted u 3 s t := by
  refine ⟨((s.fetchFix u).issued u { srcs := [] } ((s.st u).issueAt { srcs := [] })).firingFault u 3
    ((s.st u).issueAt { srcs := [] }) [(s.st u).pc, ((s.st u).progWord (s.st u).pc).toNat], ?_, ?_⟩
  · show execIllegalInstruction u s = _
    simp only [execIllegalInstruction, runs, illegal, Option.isSome_none, reduceCtorEq, or_self, if_false,
      Nat.not_le.mpr few, readable]
  · exact faulted_afterIssue s u { srcs := [] } (by decide) _ _

theorem State.resetStitcher_quires (s : State) (u : StId) (pos : Nat) : (s.resetStitcher u pos).quires = s.quires := by
  unfold State.resetStitcher
  dsimp only
  rw [State.incF_quires, State.setSt_quires, State.freeCredits_of_credits (k := State.quires) fun _ _ => rfl]
  rfl

theorem State.resetStitcher_mem (s : State) (u : StId) (pos : Nat) : (s.resetStitcher u pos).mem = s.mem :=
  State.mem_of_butFaults (s.resetStitcher_rest u pos)

theorem State.resetStitcher_st_ne (s : State) {u v : StId} (pos : Nat) (h : v ≠ u) :
    (s.resetStitcher u pos).st v = s.st v := by
  unfold State.resetStitcher
  dsimp only
  rw [State.st_incF, State.st_setSt_ne _ _ h,
    State.st_congr (State.freeCredits_of_credits (k := State.stitchers) (fun _ _ => rfl) _ _ _ _)]
  rfl

theorem execStCtrlReset_eq {s : State} {w : Writer} {u : StId} (h : reaches s w (sb u + R.ST_CTRL.off)) :
    execStCtrlReset w u s = .next ((s.noted w (sb u + R.ST_CTRL.off) 1).stCtrlReset w u) :=
  congrArg Host.Outcome.next (asWrite_reaches _ _ h (sb_ne_strike u (by decide)))

theorem stCtrlReset_ignored {s : State} {w : Writer} {u : StId} (h : reaches s w (sb u + R.ST_CTRL.off))
    (free : s.runsFree (partOf u.quire) = true) :
    ∃ t, exec (.stCtrlReset w u) s = .next t ∧ t.stitchers = s.stitchers ∧ t.quires = s.quires ∧ t.mem = s.mem := by
  refine ⟨_, execStCtrlReset_eq h, ?_⟩
  rw [State.stCtrlReset, State.runsFree_noted, if_pos free]
  have records := fun (a : State) x code sev cap => a.raise_rest x code sev cap
  exact ⟨(State.stitchers_of_butEvents (records ..)).trans (s.noted_stitchers ..),
    (State.quires_of_butEvents (records ..)).trans (s.noted_quires ..),
    (State.mem_of_butEvents (records ..)).trans (s.noted_mem ..)⟩

theorem stCtrlReset_resets {s : State} {w : Writer} {u : StId} (h : reaches s w (sb u + R.ST_CTRL.off))
    (free : s.runsFree (partOf u.quire) = false) (calm : s.partResets (partOf u.quire) = false) :
    ∃ t, exec (.stCtrlReset w u) s = .next t ∧ (t.st u).inReset = true ∧ (t.st u).sreg = [] ∧ (t.st u).vreg = [] ∧
      (t.st u).preg = [] ∧ (t.st u).pc = 0 ∧ (t.st u).store = [] ∧ (t.st u).queues = [] ∧ (t.st u).firing = none ∧
      (t.st u).pocket = (s.st u).pocket ∧ (t.st u).prog = (s.st u).prog ∧ (∀ v, v ≠ u → t.st v = s.st v) ∧
      t.quires = s.quires ∧ t.mem = s.mem := by
  let a := s.noted w (sb u + R.ST_CTRL.off) 1
  refine ⟨a.resetStitcher u (a.posNow u.quire), ?_, ?_⟩
  · refine (execStCtrlReset_eq h).trans (congrArg Host.Outcome.next ?_)
    rw [State.stCtrlReset, State.runsFree_noted, State.partResets_noted, free, calm]
    rfl
  obtain ⟨n, g, e, here⟩ := a.resetStitcher_st u (a.posNow u.quire)
  have before (v : StId) : a.st v = s.st v := State.st_congr (s.noted_stitchers ..) v
  rw [here, before]
  exact ⟨rfl, rfl, rfl, rfl, rfl, rfl, rfl, rfl, rfl, rfl, fun v hv => (a.resetStitcher_st_ne _ hv).trans (before v),
    (a.resetStitcher_quires ..).trans (s.noted_quires ..), (a.resetStitcher_mem ..).trans (s.noted_mem ..)⟩

theorem stitcherResetEnd_ends {s : State} {u : StId} (down : (s.st u).inReset = true)
    (due : (s.st u).resetEnd ≤ (s.part (partOf u.quire)).cyc) :
    ∃ t, exec (.stitcherResetEnd u) s = .next t ∧ (t.st u).inReset = false ∧ (t.st u).pocket = (s.st u).pocket ∧
      (∀ v, v ≠ u → t.st v = s.st v) ∧ { t with stitchers := s.stitchers } = s := by
  refine ⟨s.updSt u (fun x => { x with inReset := false, nextAt := max x.nextAt (s.posNow u.quire) }), ?_, ?_, ?_,
    fun v hv => State.st_updSt_ne _ _ hv, rfl⟩
  · show execStitcherResetEnd u s = _
    simp only [execStitcherResetEnd, down, s.waitCycle_of_le due, reduceCtorEq, if_false]
  · rw [State.st_updSt_same]
  · rw [State.st_updSt_same]

/-- Settles O22: each clause is what one lemma above says of its command. -/
theorem tokensAndFirings : Obligations.TokensAndFirings := by
  refine ⟨⟨fun u w o pos s h => ⟨_, rfl, ?took⟩, fun u w o pos s h => ⟨_, rfl, State.arriveToken_of_badCheck h o pos⟩⟩,
    fun u r s may next few => firingDispatch_begins may next few,
    fun u pc s used sealed_ up issued covered => residueMismatch_faults used sealed_ up issued covered,
    fun u pc s h => residueMismatch_of_none h,
    fun u s runs illegal few readable => illegalInstruction_faults runs illegal few readable,
    fun w u s h free => stCtrlReset_ignored h free, fun w u s h free calm => stCtrlReset_resets h free calm,
    fun u s down due => stitcherResetEnd_ends down due, fun w q s h => ⟨_, rfl, ?fault⟩, fun w q s h => ⟨_, rfl, ?vote⟩⟩
  case took => exact State.arriveToken_took h o pos
  case fault =>
    exact clearField_reaches (g := F.ST_FAULT_suspect) (k := F.ST_FAULT_cause) _ (by decide) h (by decide) rfl (by decide)
      (qb_notMem q (by decide))
  case vote =>
    exact clearField_reaches (g := F.PS_VOTE_suspect) (k := F.PS_VOTE_checker) _ (by decide) h (by decide) rfl (by decide)
      (qb_notMem q (by decide))

end Sys2Proof.Machine
end

section
namespace Sys2Proof.Machine

-- Proved in parallel, these proofs hold a thread each, whose stacks pass the check's memory.
set_option Elab.async false

/-! ## The messages of an open tick (O20) -/

/-! ### Registers that a token leaves -/

theorem State.f_setQu (s : State) (q : QuireId) (x : Quire) (b : Nat) (k : Fld) : (s.setQu q x).f b k = s.f b k := (rfl)

theorem State.f_setSt (s : State) (u : StId) (x : Stitcher) (b : Nat) (k : Fld) : (s.setSt u x).f b k = s.f b k := (rfl)

theorem State.f_failTick (s : State) (p : PartId) (b : Nat) (k : Fld) : (s.failTick p).f b k = s.f b k := (rfl)

theorem State.f_charge (s : State) (p : PartId) (unit : HwUnit) (code : Nat) (resolved : Bool) (adr : Nat) (fld : Fld) :
    (s.charge p unit code resolved).f adr fld = s.f adr fld := by
  simp only [State.charge, State.f_mk, State.f_ite, ite_self]

theorem State.f_freeCredit (s : State) (q : QuireId) (pos : Nat) (o : Origin) (n : Nat) (adr : Nat) (fld : Fld) :
    (s.freeCredit q pos o n).f adr fld = s.f adr fld := by
  unfold State.freeCredit
  split <;> simp only [State.f_mk]

theorem State.f_orphan (s : State) (u : StId) (pos port tag : Nat) (o : Origin) {adr : Nat} {fld : Fld}
    (h : site (adr + fld.reg.off) ∉ [(6, R.ST_MATCH.off)]) :
    (s.orphan u pos port tag o).f adr fld = s.f adr fld := by
  simp only [State.orphan, State.f_updQu, State.f_incF_sb (g := F.ST_MATCH_orphans) (h := h) (hw := by decide),
    State.f_freeCredit]

theorem State.f_recordOrphans (s : State) (q : QuireId) {adr : Nat} {fld : Fld}
    (h : site (adr + fld.reg.off) ∉ [(5, R.CH_STAT.off), (1, 0xB00)]) :
    (s.recordOrphans q).f adr fld = s.f adr fld := by
  simp only [State.recordOrphans, State.f_ite, ite_self, State.f_setQu, State.f_incF_qb (g := F.CH_STAT_orphan_ticks) (h :=
    h) (hw := by decide), State.f_raise (h := notMem_of_subset h (by decide))]

theorem State.f_lateOrphan (s : State) (q : QuireId) {adr : Nat} {fld : Fld}
    (h : site (adr + fld.reg.off) ∉ [(5, R.CH_STAT.off), (1, 0xB00)]) :
    (s.lateOrphan q).f adr fld = s.f adr fld := by
  simp only [State.lateOrphan, State.f_ite, ite_self, State.f_updQu, State.f_recordOrphans (h := h)]

theorem State.f_dropToken (s : State) (u : StId) (pos : Nat) (t : Tok) (o : Origin) {cnt : Fld} (hc : cnt.reg = R.ST_ERR)
    (code : Nat) (extra : List Nat) (fails : Bool) {adr : Nat} {fld : Fld}
    (h : site (adr + fld.reg.off) ∉ [(6, R.ST_ERR.off), (1, 0xB00)]) :
    (s.dropToken u pos t o cnt code extra fails).f adr fld = s.f adr fld := by
  simp only [State.dropToken, State.f_ite, ite_self, State.f_raise (h := notMem_of_subset h (by decide)), State.f_charge,
    State.f_failTick, State.f_freeCredit, State.f_incF_sb (g := cnt) (h := h) (hw := by rw [hc]; decide)]

theorem State.f_arriveToken (s : State) (u : StId) (t : Tok) (o : Origin) (pos : Nat) {adr : Nat} {fld : Fld}
    (h : site (adr + fld.reg.off) ∉ [(5, R.CH_EPOCH_DISC.off), (6, R.ST_MATCH.off), (6, R.ST_ERR.off), (5, R.CH_STAT.off), (1, 0xB00)]) :
    (s.arriveToken u t o pos).f adr fld = s.f adr fld := by
  simp only [State.arriveToken, State.f_ite, ite_self, State.f_setSt, State.f_updSt, State.f_setF_sb (g := F.ST_MATCH_peak) (h := h) (hw := by decide),
    State.f_incF_qb (g := F.CH_EPOCH_DISC_arrival) (h := h) (hw := by decide), State.f_incF_qb (g := F.CH_STAT_overflow) (h
    := h) (hw := by decide), State.f_incF_sb (g := F.ST_MATCH_absorbed) (h := h) (hw := by decide), State.f_raise (h :=
    notMem_of_subset h (by decide)), State.f_failTick, State.f_freeCredit, State.f_orphan (h := notMem_of_subset h (by decide)),
    State.f_lateOrphan (h := notMem_of_subset h (by decide)), State.f_dropToken (cnt := F.ST_ERR_token_check) (hc := rfl) (h := notMem_of_subset h (by decide)),
    State.f_dropToken (cnt := F.ST_ERR_port_unbound) (hc := rfl) (h := notMem_of_subset h (by decide)),
    State.f_dropToken (cnt := F.ST_ERR_tag_dup) (hc := rfl) (h := notMem_of_subset h (by decide))]

theorem State.f_internalToken (s : State) (u : StId) (port tag : Nat) (ctl : Bool) (data : BitVec 64) (pos : Nat) {adr : Nat}
    {fld : Fld}
    (h : site (adr + fld.reg.off) ∉ [(5, R.CH_EPOCH_DISC.off), (6, R.ST_MATCH.off), (6, R.ST_ERR.off), (5, R.CH_STAT.off), (1, 0xB00)]) :
    (s.internalToken u port tag ctl data pos).f adr fld = s.f adr fld := by
  simp only [State.internalToken, State.f_arriveToken (h := h)]

theorem State.f_parityDrop (s : State) (p : PartId) (stop cls opcode : Nat) {adr : Nat} {fld : Fld}
    (h : site (adr + fld.reg.off) ∉ [(1, R.SP_STAT.off), (1, 0xB00)]) :
    (s.parityDrop p stop cls opcode).f adr fld = s.f adr fld := by
  simp only [State.parityDrop, State.f_incF_pt (g := F.SP_STAT_parity) (h := h) (hw := by decide), State.f_charge, State.f_ev
    (h := notMem_of_subset h (by decide))]

theorem State.f_checkIntakes (s : State) (q : QuireId) (tick : Nat) {adr : Nat} {fld : Fld}
    (h : site (adr + fld.reg.off) ∉ [(1, 0xB00)]) :
    (s.checkIntakes q tick).f adr fld = s.f adr fld := by
  unfold State.checkIntakes
  refine State.f_foldl (fun t a => ?_) _
  split
  · rfl
  · split <;> simp only [State.f_ite, ite_self, State.f_updPart, State.f_failTick, State.f_ev (h := h)]

theorem State.f_publish (s : State) (p : PartId) (first : Nat) {adr : Nat} {fld : Fld}
    (h : site (adr + fld.reg.off) ∉ [(1, R.TK_STATUS.off), (4, R.CX_SLOT_STAT.off), (1, 0xB00)]) :
    (s.publish p first).f adr fld = s.f adr fld := by
  simp only [State.publish, State.f_ite, ite_self, State.f_updPart, State.f_setF_pt (g := F.TK_STATUS_phase) (h := h) (hw :=
    by decide), State.f_settlePubs (h := notMem_of_subset h (by decide))]

theorem State.f_publishIfDone (s : State) (p : PartId) {adr : Nat} {fld : Fld}
    (h : site (adr + fld.reg.off) ∉ [(1, R.TK_STATUS.off), (4, R.CX_SLOT_STAT.off), (1, 0xB00)]) :
    (s.publishIfDone p).f adr fld = s.f adr fld := by
  simp only [State.publishIfDone, State.f_ite, ite_self, State.f_publish (h := h)]

/-! ### What a token leaves of its quire's tick and of its stitcher -/

/-- A quire's tick as its stroke opened it. -/
def State.opened (s : State) (q : QuireId) : Bool × Bool × Nat × Nat :=
  ((s.qu q).open_, (s.qu q).done, (s.qu q).tick, (s.qu q).start)

/-- A stitcher's pace, with its scalar registers. -/
def State.paced (s : State) (u : StId) : Bool × Nat × Sparse (BitVec 32) :=
  ((s.st u).stopped, (s.st u).nextAt, (s.st u).sreg)

theorem State.opened_of_quires {s t : State} (h : t.quires = s.quires) (r : QuireId) : t.opened r = s.opened r := by
  unfold State.opened
  rw [State.qu_congr h]

theorem State.paced_of_stitchers {s t : State} (h : t.stitchers = s.stitchers) (v : StId) : t.paced v = s.paced v := by
  unfold State.paced
  rw [State.st_congr h]

theorem State.opened_setQu {s : State} {q : QuireId} {x : Quire} (h : (x.open_, x.done, x.tick, x.start) = s.opened q)
    (r : QuireId) : (s.setQu q x).opened r = s.opened r := by
  unfold State.opened
  by_cases hr : r = q
  · subst hr
    rw [State.qu_setQu_same]
    exact h
  · rw [State.qu_setQu_ne _ _ hr]

theorem State.paced_setSt {s : State} {u : StId} {x : Stitcher} (h : (x.stopped, x.nextAt, x.sreg) = s.paced u) (v : StId) :
    (s.setSt u x).paced v = s.paced v := by
  unfold State.paced
  by_cases hv : v = u
  · subst hv
    rw [State.st_setSt_same]
    exact h
  · rw [State.st_setSt_ne _ _ hv]

/-- The pace of a quire and of a stitcher that an operation on other units, records, credits and charges leaves. -/
def State.pace (s : State) (r : QuireId) (v : StId) : (Bool × Bool × Nat × Nat) × Bool × Nat × Sparse (BitVec 32) :=
  (s.opened r, s.paced v)

theorem State.pace_of {s t : State} (hq : t.quires = s.quires) (hs : t.stitchers = s.stitchers) (r : QuireId) (v : StId) :
    t.pace r v = s.pace r v := by
  rw [State.pace, State.opened_of_quires hq, State.paced_of_stitchers hs, State.pace]

theorem State.pace_raise (s : State) (x : Src) (code sev : Nat) (cap : List Nat) (r : QuireId) (v : StId) :
    (s.raise x code sev cap).pace r v = s.pace r v :=
  State.pace_of (State.quires_of_butEvents (s.raise_rest ..)) (State.stitchers_of_butEvents (s.raise_rest ..)) r v

theorem State.pace_freeCredit (s : State) (q : QuireId) (pos : Nat) (o : Origin) (n : Nat) (r : QuireId) (v : StId) :
    (s.freeCredit q pos o n).pace r v = s.pace r v :=
  State.freeCredit_of_credits (k := fun a => a.pace r v) (fun _ _ => rfl) s q pos o n

theorem State.pace_setQu {s : State} {q : QuireId} {x : Quire} (h : (x.open_, x.done, x.tick, x.start) = s.opened q)
    (r : QuireId) (v : StId) : (s.setQu q x).pace r v = s.pace r v :=
  congrArg (·, s.paced v) (State.opened_setQu h r)

theorem State.pace_setSt {s : State} {u : StId} {x : Stitcher} (h : (x.stopped, x.nextAt, x.sreg) = s.paced u) (r : QuireId)
    (v : StId) : (s.setSt u x).pace r v = s.pace r v :=
  congrArg (s.opened r, ·) (State.paced_setSt h v)

theorem State.pace_incF (s : State) (b : Nat) (g : Fld) (n : Nat) (r : QuireId) (v : StId) :
    (s.incF b g n).pace r v = s.pace r v := (rfl)

theorem State.pace_setF (s : State) (b : Nat) (g : Fld) (n : Nat) (r : QuireId) (v : StId) :
    (s.setF b g n).pace r v = s.pace r v := (rfl)

theorem State.pace_failTick (s : State) (p : PartId) (r : QuireId) (v : StId) : (s.failTick p).pace r v = s.pace r v := (rfl)

theorem State.pace_charge (s : State) (p : PartId) (w : HwUnit) (code : Nat) (b : Bool) (r : QuireId) (v : StId) :
    (s.charge p w code b).pace r v = s.pace r v :=
  State.pace_of (s.quires_charge ..) (s.charge_stitchers ..) r v

theorem State.pace_ite {c : Prop} [Decidable c] {a b : State} (r : QuireId) (v : StId) :
    State.pace (if c then a else b) r v = if c then a.pace r v else b.pace r v := by
  split <;> rfl

theorem State.pace_orphan (s : State) (u : StId) (pos port tag : Nat) (o : Origin) (r : QuireId) (v : StId) :
    (s.orphan u pos port tag o).pace r v = s.pace r v := by
  unfold State.orphan
  refine (State.pace_setQu (by rfl) r v).trans ?_
  rw [State.pace_freeCredit, State.pace_incF]

theorem State.pace_recordOrphans (s : State) (q : QuireId) (r : QuireId) (v : StId) :
    (s.recordOrphans q).pace r v = s.pace r v := by
  unfold State.recordOrphans
  dsimp only
  split
  · rfl
  · rw [State.pace_raise, State.pace_incF]
    exact State.pace_setQu (by rfl) r v

theorem State.pace_lateOrphan (s : State) (q : QuireId) (r : QuireId) (v : StId) : (s.lateOrphan q).pace r v = s.pace r v := by
  unfold State.lateOrphan
  split
  · exact State.pace_setQu (by rfl) r v
  · exact s.pace_recordOrphans q r v

theorem State.pace_dropToken (s : State) (u : StId) (pos : Nat) (t : Tok) (o : Origin) (cnt : Fld) (code : Nat)
    (extra : List Nat) (fails : Bool) (r : QuireId) (v : StId) :
    (s.dropToken u pos t o cnt code extra fails).pace r v = s.pace r v := by
  simp only [State.dropToken, State.pace_ite, State.pace_failTick, State.pace_charge, State.pace_raise, State.pace_freeCredit,
    State.pace_incF, ite_self]

/-- A token's arrival keeps the tick of every quire, and what every stitcher runs. -/
theorem State.pace_arriveToken (s : State) (u : StId) (t : Tok) (o : Origin) (pos : Nat) (r : QuireId) (v : StId) :
    (s.arriveToken u t o pos).pace r v = s.pace r v := by
  have seen (a : State) : (a.updSt u (fun x => { x with unsealedSeen := true })).pace r v = a.pace r v :=
    State.pace_setSt (by rfl) r v
  have joins (l : List Waiting) : (s.setSt u { s.st u with store := l }).pace r v = s.pace r v := State.pace_setSt (by rfl) r v
  unfold State.arriveToken
  simp only [State.pace_ite, State.pace_dropToken, State.pace_raise, State.pace_incF, State.pace_setF, State.pace_freeCredit,
    State.pace_failTick, State.pace_lateOrphan, State.pace_orphan, seen, joins, ite_self]

theorem State.pace_internalToken (s : State) (u : StId) (port tag : Nat) (ctl : Bool) (data : BitVec 64) (pos : Nat)
    (r : QuireId) (v : StId) : (s.internalToken u port tag ctl data pos).pace r v = s.pace r v :=
  s.pace_arriveToken u _ _ pos r v

theorem State.pace_checkIntakes (s : State) (q : QuireId) (tick : Nat) (r : QuireId) (v : StId) :
    (s.checkIntakes q tick).pace r v = s.pace r v := by
  unfold State.checkIntakes
  refine State.foldl_rest (fun t => t.pace r v) _ (fun t a => ?_) _ s
  have ev (x : Src) (c : Nat) (l : List Nat) : (t.ev x c l).pace r v = t.pace r v := t.pace_raise x c _ l r v
  have upd (g : Part → Part) : (t.updPart (partOf q) g).pace r v = t.pace r v := rfl
  split
  · rfl
  · split
    · simp only [State.pace_ite, State.pace_failTick, ev, upd, ite_self]
    · simp only [State.pace_failTick, ev]

/-! ### A stroke that opens its quire's tick -/

/-- What is in flight counts in the cycles of the quire's new tick, which starts at `start`. -/
def State.rebasedTo (s : State) (q : QuireId) (old start : Nat) : State :=
  let s : State := { s with flights := s.flights.map (fun m => m.rebased q old start),
                            creditFlights := s.creditFlights.map (fun c => c.rebased q old start) }
  s.updPart (partOf q) (fun y => { y with hints := y.hints.map (fun h => if h.owner = q then { h with sentAt := 0 } else h) })

/-- A free value is used where a map switch owes the tip-in slip. -/
def State.tipped (s : State) (q : QuireId) : State := if (s.qu q).tipinDue = 0 then s else s.useFree

/-- The stitchers of a quire start their tick. -/
def State.stitchersStart (s : State) (q : QuireId) : State :=
  (List.finRange 64).foldl (fun t i => t.updSt ⟨q, i⟩ Stitcher.newTick) s

/-- The quire and its stitchers at stroke delivery, before its tokens. -/
def State.strokeQuire (s : State) (q : QuireId) (tick : Nat) : State :=
  let old := (s.qu q).start
  let start := (s.part (partOf q)).cyc
  let behind := decide (s.f (qb q) F.PS_MODE_behind = 1)
  let check := decide (s.f (qb q) F.PS_MODE_check = 1)
  let tip := (Config.freeBits s.freeCount 0 4).toNat % 9
  (((s.tipped q).updQu q (fun y => y.newTick start tick tip behind check)).stitchersStart q).rebasedTo q old start

/-- The token of port 31 of a stitcher that has it bound. -/
def State.strokeToken (q : QuireId) (tick : Nat) (t : State) (i : Fin 64) : State :=
  let u : StId := ⟨q, i⟩
  if t.f (sb u) F.ST_STATUS_sealed = 1 ∧ t.portValid u 31 then
    t.internalToken u 31 (tick % 4096) true (BitVec.ofNat 64 tick) 1
  else t

/-- The partition's note of a stroke delivered to a quire. -/
def State.strokeNoted (s : State) (q : QuireId) : State :=
  (s.updPart (partOf q) (fun y => { y with strokeMask := y.strokeMask + 2 ^ localOf q })).setF (pt (partOf q))
    F.TK_STATUS_phase 2

theorem State.cnt_strokeNoted (s : State) (q : QuireId) :
    (s.strokeNoted q).cnt (pt (partOf q)) R.TK_COUNT_LO R.TK_COUNT_HI = s.cnt (pt (partOf q)) R.TK_COUNT_LO R.TK_COUNT_HI := by
  have apart (o k : Nat) (h : o ≠ k) : pt (partOf q) + o ≠ pt (partOf q) + k := by omega
  unfold State.strokeNoted State.setF
  rw [State.cnt_wr_of_ne _ _ (apart _ _ (by decide)) (apart _ _ (by decide))]
  rfl

/-- The counter's low word and the quire's high word, with the carry, make the tick that the quire expects (R215). -/
theorem tick_of_counter {c n : Nat} (h : c = (n + 1) % 2 ^ 48) :
    (c % 2 ^ 32 + (n / 2 ^ 32 + if c % 2 ^ 32 = 0 then 1 else 0) * 2 ^ 32) % 2 ^ 48 = c := by
  split <;> omega

theorem execSpineStroke_open {s : State} {q : QuireId} (frame : (s.part (partOf q)).frameOpen = true)
    (first : (s.part (partOf q)).strokeMask / 2 ^ localOf q % 2 = 0) (here : s.present q = true)
    (due : (s.part (partOf q)).strokeAt + 14 ≤ (s.part (partOf q)).cyc) (up : (s.qu q).inReset = false)
    (count : s.cnt (pt (partOf q)) R.TK_COUNT_LO R.TK_COUNT_HI = ((s.qu q).tick + 1) % 2 ^ 48) :
    let tick := s.cnt (pt (partOf q)) R.TK_COUNT_LO R.TK_COUNT_HI
    exec (.spineStroke q none) s =
      .next (((List.finRange 64).foldl (State.strokeToken q tick) ((s.strokeNoted q).strokeQuire q tick)).checkIntakes q
        tick) := by
  intro tick
  have same : (s.strokeNoted q).qu q = s.qu q := rfl
  have expect := tick_of_counter count
  show execSpineStroke q none s = _
  unfold execSpineStroke
  simp only [frame, first, here, reduceCtorEq, or_self, if_false, zero_ne_one, s.waitCycle_of_le due]
  rw [show (s.updPart (partOf q) fun y => { y with strokeMask := y.strokeMask + 2 ^ localOf q }).setF (pt (partOf q))
    F.TK_STATUS_phase 2 = s.strokeNoted q from rfl]
  simp only [s.cnt_strokeNoted, same, expect, if_pos count, up, reduceCtorEq, if_false]
  rfl

theorem State.foldl_updSt_st (q : QuireId) (g : Stitcher → Stitcher) (l : List (Fin 64)) (nodup : l.Nodup) (s : State)
    (i : Fin 64) :
    (l.foldl (fun t i => t.updSt ⟨q, i⟩ g) s).st ⟨q, i⟩ = if i ∈ l then g (s.st ⟨q, i⟩) else s.st ⟨q, i⟩ := by
  induction l generalizing s with
  | nil => simp
  | cons j l ih =>
    obtain ⟨new, rest⟩ := List.nodup_cons.mp nodup
    rw [List.foldl_cons, ih rest]
    by_cases h : i = j
    · subst h
      rw [if_neg new, if_pos List.mem_cons_self, State.st_updSt_same]
    · have other : (⟨q, i⟩ : StId) ≠ ⟨q, j⟩ := fun e => h (congrArg StId.st e)
      rw [State.st_updSt_ne _ _ other]
      simp [h]

/-- A change of every stitcher of a quire. -/
theorem State.foldl_updSt_all (q : QuireId) (g : Stitcher → Stitcher) (s : State) (i : Fin 64) :
    ((List.finRange 64).foldl (fun t i => t.updSt ⟨q, i⟩ g) s).st ⟨q, i⟩ = g (s.st ⟨q, i⟩) := by
  rw [State.foldl_updSt_st q g _ (List.nodup_finRange 64), if_pos (List.mem_finRange i)]

theorem State.rebasedTo_keeps (s : State) (q : QuireId) (old start : Nat) :
    let t := s.rebasedTo q old start
    t.quires = s.quires ∧ t.stitchers = s.stitchers ∧ t.regs = s.regs ∧ t.memories = s.memories :=
  ⟨rfl, rfl, rfl, rfl⟩

theorem State.tipped_keeps (s : State) (q : QuireId) :
    (s.tipped q).quires = s.quires ∧ (s.tipped q).stitchers = s.stitchers ∧ (s.tipped q).regs = s.regs ∧
      (s.tipped q).memories = s.memories := by
  unfold State.tipped
  split <;> exact ⟨rfl, rfl, rfl, rfl⟩

theorem State.quires_stitchersStart (s : State) (q : QuireId) : (s.stitchersStart q).quires = s.quires :=
  State.foldl_rest State.quires (fun t i => t.updSt ⟨q, i⟩ Stitcher.newTick) (fun _ _ => rfl) _ s

theorem State.regs_stitchersStart (s : State) (q : QuireId) : (s.stitchersStart q).regs = s.regs :=
  State.foldl_rest State.regs (fun t i => t.updSt ⟨q, i⟩ Stitcher.newTick) (fun _ _ => rfl) _ s

theorem State.memories_stitchersStart (s : State) (q : QuireId) : (s.stitchersStart q).memories = s.memories :=
  State.memories_foldl (g := fun t i => t.updSt ⟨q, i⟩ Stitcher.newTick) (fun t _ => t.memories_updSt _ _ rfl) _

theorem State.strokeQuire_opened (s : State) (q : QuireId) (tick : Nat) :
    (s.strokeQuire q tick).opened q = (true, false, tick, (s.part (partOf q)).cyc) := by
  unfold State.strokeQuire
  rw [State.opened_of_quires (State.rebasedTo_keeps _ q _ _).1, State.opened_of_quires (State.quires_stitchersStart _ q),
    State.opened, State.qu_updQu_same]
  rfl

theorem State.strokeQuire_paced (s : State) (q : QuireId) (tick : Nat) (i : Fin 64) :
    (s.strokeQuire q tick).paced ⟨q, i⟩ = (false, 1, (s.st ⟨q, i⟩).sreg) := by
  unfold State.strokeQuire
  rw [State.paced_of_stitchers (State.rebasedTo_keeps _ q _ _).2.1, State.paced, State.stitchersStart,
    State.foldl_updSt_all, State.st_updQu, State.st_congr (s.tipped_keeps q).2.1]
  rfl

theorem State.strokeQuire_f (s : State) (q : QuireId) (tick b : Nat) (k : Fld) : (s.strokeQuire q tick).f b k = s.f b k := by
  unfold State.strokeQuire
  rw [State.f_congr (State.rebasedTo_keeps _ q _ _).2.2.1, State.f_congr (State.regs_stitchersStart _ q), State.f_updQu,
    State.f_congr (s.tipped_keeps q).2.2.1]

theorem State.strokeQuire_memories (s : State) (q : QuireId) (tick : Nat) :
    (s.strokeQuire q tick).memories = s.memories := by
  unfold State.strokeQuire
  rw [(State.rebasedTo_keeps _ q _ _).2.2.2, State.memories_stitchersStart, State.memories_updQu _ _ _ rfl,
    (s.tipped_keeps q).2.2.2]

/-- The tokens of a stroke leave what a token leaves. -/
theorem State.foldl_strokeToken {α : Type} {k : State → α}
    (step : ∀ s u port tag ctl data pos, k (State.internalToken s u port tag ctl data pos) = k s) (q : QuireId) (tick : Nat)
    (s : State) : k ((List.finRange 64).foldl (State.strokeToken q tick) s) = k s := by
  refine State.foldl_rest k (State.strokeToken q tick) (fun t i => ?_) _ s
  unfold State.strokeToken
  dsimp only
  split
  · exact step ..
  · rfl

theorem stroke_opens {s : State} {q : QuireId} (frame : (s.part (partOf q)).frameOpen = true)
    (first : (s.part (partOf q)).strokeMask / 2 ^ localOf q % 2 = 0) (here : s.present q = true)
    (due : (s.part (partOf q)).strokeAt + 14 ≤ (s.part (partOf q)).cyc) (up : (s.qu q).inReset = false)
    (count : s.cnt (pt (partOf q)) R.TK_COUNT_LO R.TK_COUNT_HI = ((s.qu q).tick + 1) % 2 ^ 48) :
    ∃ t, exec (.spineStroke q none) s = .next t ∧ (t.qu q).open_ = true ∧ (t.qu q).done = false ∧
      (t.qu q).tick = s.cnt (pt (partOf q)) R.TK_COUNT_LO R.TK_COUNT_HI ∧ (t.qu q).start = (s.part (partOf q)).cyc ∧
      (∀ i, (t.st ⟨q, i⟩).stopped = false ∧ (t.st ⟨q, i⟩).nextAt = 1 ∧ (t.st ⟨q, i⟩).sreg = (s.st ⟨q, i⟩).sreg) ∧
      t.f (pt (partOf q)) F.TK_STATUS_phase = 2 ∧ MemoriesKept s t := by
  refine ⟨_, execSpineStroke_open frame first here due up count, ?_⟩
  set tick := s.cnt (pt (partOf q)) R.TK_COUNT_LO R.TK_COUNT_HI
  have pace (r : QuireId) (v : StId) := ((State.pace_checkIntakes _ q tick r v).trans
    (State.foldl_strokeToken (k := fun t => t.pace r v) (fun t u port tag ctl data pos =>
      t.pace_internalToken u port tag ctl data pos r v) q tick ((s.strokeNoted q).strokeQuire q tick)))
  have opened := (congrArg Prod.fst (pace q ⟨q, 0⟩)).trans ((s.strokeNoted q).strokeQuire_opened q tick)
  simp only [State.pace, State.opened, Prod.mk.injEq] at opened
  obtain ⟨o, d, n, c⟩ := opened
  refine ⟨o, d, n, c.trans ?cyc, fun i => ?stitcher, ?phase, memoriesKept_of ?memories⟩
  case cyc => unfold State.strokeNoted; rw [State.part_setF, State.part_updPart_same]
  case stitcher =>
    have paced := (congrArg Prod.snd (pace q ⟨q, i⟩)).trans ((s.strokeNoted q).strokeQuire_paced q tick i)
    have same : (s.strokeNoted q).st ⟨q, i⟩ = s.st ⟨q, i⟩ := rfl
    simpa only [State.pace, State.paced, Prod.mk.injEq, same] using paced
  case phase =>
    rw [State.f_checkIntakes _ _ _ (pt_notMem _ (by decide)), State.foldl_strokeToken (k := fun t => t.f _ _)
      (fun t u port tag ctl data pos => t.f_internalToken u port tag ctl data pos (pt_notMem _ (by decide))),
      State.strokeQuire_f]
    exact State.f_setF_same _ _ _ _ (by decide)
  case memories =>
    rw [State.memories_checkIntakes, State.foldl_strokeToken (k := State.memories)
      (fun t u port tag ctl data pos => t.memories_internalToken u port tag ctl data pos), State.strokeQuire_memories]
    rfl

/-! ### A stroke that fails parity -/

theorem setBit_same (m i : Nat) : setBit m i / 2 ^ i % 2 = 1 := by
  unfold setBit
  split
  · assumption
  · rw [Nat.add_div_right _ (Nat.two_pow_pos i)]
    omega

theorem setBit_keeps {m i : Nat} (j : Nat) (h : m / 2 ^ i % 2 = 1) : setBit m j / 2 ^ i % 2 = 1 := by
  unfold setBit
  split
  · exact h
  next zero =>
    rcases Nat.lt_trichotomy j i with lt | rfl | gt
    · obtain ⟨d, rfl⟩ := Nat.exists_eq_add_of_lt lt
      have pos := Nat.two_pow_pos j
      have low : (m + 2 ^ j) / 2 ^ (j + 1) = m / 2 ^ (j + 1) := by
        have split_ := Nat.div_add_mod m (2 ^ j)
        have small := Nat.mod_lt m pos
        rw [pow_succ, ← Nat.div_div_eq_div_mul, ← Nat.div_div_eq_div_mul, Nat.add_div_right _ pos]
        omega
      rw [show j + d + 1 = j + 1 + d by omega, pow_add, ← Nat.div_div_eq_div_mul, low, Nat.div_div_eq_div_mul, ← pow_add,
        show j + 1 + d = j + d + 1 by omega, h]
    · exact absurd h zero
    · obtain ⟨d, rfl⟩ := Nat.exists_eq_add_of_lt gt
      have split_ : 2 ^ (i + d + 1) = 2 ^ i * (2 ^ d * 2) := by ring
      rw [split_, Nat.add_mul_div_left _ _ (Nat.two_pow_pos i)]
      omega

theorem setBit_foldl {i : Nat} (l : List QuireId) {m : Nat} (h : m / 2 ^ i % 2 = 1) :
    l.foldl (fun m r => setBit m (localOf r)) m / 2 ^ i % 2 = 1 := by
  induction l generalizing m with
  | nil => exact h
  | cons r l ih => exact ih (setBit_keeps _ h)

/-- A drop for parity is counted and recorded, and changes nothing else of its partition. -/
theorem State.parityDrop_keeps (s : State) (p : PartId) (d cls opcode : Nat) :
    let t := s.parityDrop p d cls opcode
    t.quires = s.quires ∧ t.stitchers = s.stitchers ∧ t.parts = s.parts ∧ t.memories = s.memories ∧
      t.f (pt p) F.SP_STAT_parity = min (2 ^ F.SP_STAT_parity.w - 1) (s.f (pt p) F.SP_STAT_parity + 1) := by
  intro t
  have records (a : State) := a.ev_rest (.part p) Ev.SP_PARITY [d, cls, opcode]
  refine ⟨?_, ?_, ?_, s.memories_parityDrop p d cls opcode, ?_⟩
  · exact (State.quires_of_butEvents (records _)).trans (State.quires_charge ..)
  · exact (State.stitchers_of_butEvents (records _)).trans (State.charge_stitchers ..)
  · exact (State.parts_of_butEvents (records _)).trans (State.charge_parts ..)
  · refine (State.f_ev _ _ _ _ (pt_notMem p (by decide))).trans ?_
    rw [State.f_charge]
    exact s.f_incF_same _ _ _ (by decide)

theorem stroke_dropped {s : State} {q : QuireId} (h : Hop) (frame : (s.part (partOf q)).frameOpen = true)
    (first : (s.part (partOf q)).strokeMask / 2 ^ localOf q % 2 = 0) (here : s.present q = true)
    (due : (s.part (partOf q)).strokeAt + 14 ≤ (s.part (partOf q)).cyc) :
    ∃ t, exec (.spineStroke q (some h)) s = .next t ∧ t.quires = s.quires ∧ t.stitchers = s.stitchers ∧
      (t.part (partOf q)).strokeMask / 2 ^ localOf q % 2 = 1 ∧
      t.f (pt (partOf q)) F.SP_STAT_parity =
        min (2 ^ F.SP_STAT_parity.w - 1) (s.f (pt (partOf q)) F.SP_STAT_parity + 1) := by
  let d := s.dropStop (seqStop (partOf q)) q.val h
  let lost := (q :: s.fedQuires (seqStop (partOf q)) (partOf q) d).foldl (fun m r => setBit m (localOf r))
    (s.part (partOf q)).strokeMask
  have run : exec (.spineStroke q (some h)) s =
      .next ((s.updPart (partOf q) (fun y => { y with strokeMask := lost })).parityDrop (partOf q) d 1 0x01) := by
    show execSpineStroke q (some h) s = _
    unfold execSpineStroke
    simp only [frame, first, here, reduceCtorEq, or_self, if_false, zero_ne_one, s.waitCycle_of_le due]
    rfl
  obtain ⟨quires, stitchers, parts, -, count⟩ :=
    (s.updPart (partOf q) (fun y => { y with strokeMask := lost })).parityDrop_keeps (partOf q) d 1 0x01
  refine ⟨_, run, quires, stitchers, ?_, count⟩
  rw [State.part_congr parts, State.part_updPart_same]
  exact setBit_foldl (s.fedQuires (seqStop (partOf q)) (partOf q) d) (setBit_same _ _)

/-! ### Tick-done tokens -/

/-- With no header due, nothing is published. -/
theorem settlePubs_of_later {s : State} {p : PartId} (later : ∀ g ∈ (s.part p).pubs, (s.part p).cyc < g.cyc) :
    s.settlePubs p = s.updPart p (fun x => { x with pubs := x.pubs.drop 0 }) := by
  have none_ : (s.part p).pubs.takeWhile (fun g => decide (g.cyc ≤ (s.part p).cyc)) = [] := by
    cases h : (s.part p).pubs with
    | nil => rfl
    | cons g l => simpa using later g (h ▸ List.mem_cons_self)
  unfold State.settlePubs
  rw [none_]
  rfl

/-- The headers of a tick that is published from `first` cycles on. -/
def State.headersFrom (s : State) (p : PartId) (first : Nat) : List PubHeader :=
  (s.validSlots p).zipIdx.map (fun e =>
    let d := first + 2 * e.2
    { slot := e.1, cyc := (s.part p).cyc + d, ns := s.timeBase + (s.now + d * s.period p) / 8 })

theorem State.headersFrom_later (s : State) (p : PartId) {first : Nat} (h : 0 < first) :
    ∀ g ∈ s.headersFrom p first, (s.part p).cyc < g.cyc := by
  intro g hg
  obtain ⟨e, -, he⟩ := List.mem_map.mp hg
  have at_ : g.cyc = (s.part p).cyc + (first + 2 * e.2) := congrArg PubHeader.cyc he.symm
  omega

/-- The state as a tick's publication starts. -/
def State.publishing (s : State) (p : PartId) (first : Nat) : State :=
  let close := max ((s.part p).strokeAt + s.frameLen p)
    (if (s.part p).overran then (s.part p).cyc + s.f (pt p) F.TK_FRAME_publish_len + 256 else 0)
  (s.updPart p (fun y => { y with
    published := true, doneAt := y.cyc, closeAt := some close, pubs := s.headersFrom p first })).setF (pt p)
      F.TK_STATUS_phase 3

theorem State.publish_eq {s : State} {p : PartId} (first : Nat) (h : ¬ (s.part p).published = true) :
    s.publish p first = (s.publishing p first).settlePubs p :=
  if_neg h

theorem State.publishing_part (s : State) (p : PartId) (first : Nat) :
    ((s.publishing p first).part p).pubs = s.headersFrom p first ∧ ((s.publishing p first).part p).cyc = (s.part p).cyc ∧
      ((s.publishing p first).part p).doneMask = (s.part p).doneMask := by
  unfold State.publishing
  rw [State.part_setF, State.part_updPart_same]
  exact ⟨rfl, rfl, rfl⟩

/-- The publication of a tick starts after its cycle: what it changes is its partition's, and its phase. -/
theorem publish_keeps (s : State) (p : PartId) {first : Nat} (h : 0 < first) :
    let t := s.publish p first
    t.quires = s.quires ∧ (t.part p).doneMask = (s.part p).doneMask ∧
      t.f (pt p) F.TK_STATUS_quires_done = s.f (pt p) F.TK_STATUS_quires_done := by
  intro t
  by_cases done : (s.part p).published = true
  · have same : t = s := if_pos done
    rw [same]
    exact ⟨rfl, rfl, rfl⟩
  · obtain ⟨pubs, cyc, mask⟩ := s.publishing_part p first
    have ht : t = (s.publishing p first).updPart p (fun x => { x with pubs := x.pubs.drop 0 }) :=
      (State.publish_eq first done).trans (settlePubs_of_later (by rw [pubs, cyc]; exact s.headersFrom_later p h))
    rw [ht]
    refine ⟨rfl, ?_, ?_⟩
    · rw [State.part_updPart_same]
      exact mask
    · rw [State.f_updPart, State.publishing, State.f_setF_field (g := F.TK_STATUS_phase) (k := F.TK_STATUS_quires_done) _ _ _
        rfl (by decide), State.f_updPart]

theorem publishIfDone_keeps (s : State) (p : PartId) :
    let t := s.publishIfDone p
    t.quires = s.quires ∧ (t.part p).doneMask = (s.part p).doneMask ∧
      t.f (pt p) F.TK_STATUS_quires_done = s.f (pt p) F.TK_STATUS_quires_done := by
  intro t
  have ht : t = s.publish p 2 ∨ t = s := by
    simp only [t, State.publishIfDone]
    split
    · exact .inl rfl
    · exact .inr rfl
  rcases ht with ht | ht <;> rw [ht]
  · exact publish_keeps s p (by decide)
  · exact ⟨rfl, rfl, rfl⟩

/-- A tick-done token marks its quire done. -/
theorem tickdone_marks {s : State} {q : QuireId} (frame : (s.part (partOf q)).frameOpen = true) (done : (s.qu q).done = true)
    (sent : (s.qu q).doneAt ≠ 0) (due : (s.qu q).doneAt ≤ (s.part (partOf q)).cyc)
    (first : (s.part (partOf q)).doneMask / 2 ^ localOf q % 2 = 0) :
    ∃ t, exec (.spineTickdone q none) s = .next t ∧
      (t.part (partOf q)).doneMask = (s.part (partOf q)).doneMask + 2 ^ localOf q ∧
      t.f (pt (partOf q)) F.TK_STATUS_quires_done = (s.f (pt (partOf q)) F.TK_STATUS_quires_done + 1) % 256 ∧
      (t.qu q).doneAt = 0 ∧ MemoriesKept s t := by
  let a := (((s.updQu q (fun y => { y with doneAt := 0 })).updPart (partOf q) (fun y =>
    { y with doneMask := y.doneMask + 2 ^ localOf q }))).setF (pt (partOf q)) F.TK_STATUS_quires_done
      (s.f (pt (partOf q)) F.TK_STATUS_quires_done + 1)
  have run : exec (.spineTickdone q none) s = .next (a.publishIfDone (partOf q)) := by
    show execSpineTickdone q none s = _
    unfold execSpineTickdone
    simp only [frame, done, sent, reduceCtorEq, or_self, if_false, s.waitCycle_of_le due, State.part_updQu, first, zero_ne_one]
    rfl
  obtain ⟨quires, mask, count⟩ := publishIfDone_keeps a (partOf q)
  refine ⟨_, run, mask.trans ?_, count.trans ?_, ?_, memoriesKept_of ?_⟩
  · rw [State.part_setF, State.part_updPart_same, State.part_updQu]
  · exact State.f_setF_same _ _ _ _ (by decide)
  · rw [State.qu_congr quires, State.qu_setF, State.qu_updPart, State.qu_updQu_same]
  · rw [State.memories_publishIfDone, State.memories_setF, State.memories_updPart, State.memories_updQu _ _ _ rfl]

/-- A tick-done token that fails parity marks no quire. -/
theorem tickdone_dropped {s : State} {q : QuireId} (h : Hop) (frame : (s.part (partOf q)).frameOpen = true)
    (done : (s.qu q).done = true) (sent : (s.qu q).doneAt ≠ 0) (due : (s.qu q).doneAt ≤ (s.part (partOf q)).cyc) :
    ∃ t, exec (.spineTickdone q (some h)) s = .next t ∧ (t.qu q).doneAt = 0 ∧
      (t.part (partOf q)).doneMask = (s.part (partOf q)).doneMask ∧ MemoriesKept s t := by
  have clear (a : State) (r : QuireId) : (a.updQu r (fun y => { y with doneAt := 0 })).memories = a.memories :=
    a.memories_updQu r _ rfl
  obtain ⟨l, d, run⟩ : ∃ (l : List QuireId) (d : Nat), exec (.spineTickdone q (some h)) s = .next
      (((l.foldl (fun t r => t.updQu r (fun y => { y with doneAt := 0 })) s).updQu q (fun y =>
        { y with doneAt := 0 })).parityDrop (partOf q) d 1 0x03) := by
    have e : exec (.spineTickdone q (some h)) s = execSpineTickdone q (some h) s := rfl
    rw [e]
    unfold execSpineTickdone
    simp only [frame, done, sent, reduceCtorEq, or_self, if_false, s.waitCycle_of_le due]
    exact ⟨_, _, rfl⟩
  obtain ⟨quires, -, parts, memories, -⟩ := State.parityDrop_keeps ((l.foldl (fun t r => t.updQu r (fun y =>
    { y with doneAt := 0 })) s).updQu q (fun y => { y with doneAt := 0 })) (partOf q) d 1 0x03
  refine ⟨_, run, ?_, ?_, memoriesKept_of ?_⟩
  · rw [State.qu_congr quires, State.qu_updQu_same]
  · rw [State.part_congr parts, State.part_updQu]
    exact congrArg Part.doneMask (State.part_congr (State.foldl_rest State.parts
      (fun t r => t.updQu r (fun y => { y with doneAt := 0 })) (fun _ _ => rfl) l s) _)
  · rw [memories, clear, State.memories_foldl (g := fun t r => t.updQu r (fun y => { y with doneAt := 0 })) fun t r =>
      clear t r]

/-- Settles O20: what a stroke and a tick-done token do where they arrive, and where they fail parity. -/
theorem tickMessages : Obligations.TickMessages :=
  ⟨fun _ _ frame first here due up count _ => stroke_opens frame first here due up count,
    fun _ h _ frame first here due => stroke_dropped h frame first here due,
    fun _ _ frame done sent due first => tickdone_marks frame done sent due first,
    fun _ h _ frame done sent due => tickdone_dropped h frame done sent due⟩

end Sys2Proof.Machine
end

section
namespace Sys2Proof.Machine

-- Proved in parallel, these proofs hold a thread each, whose stacks pass the check's memory.
set_option Elab.async false

/-! ## Strikes and strokes (O19) -/

/-! ### Registers that the steps of a stroke leave -/

theorem State.f_showPending (s : State) (p : PartId) {adr : Nat} {fld : Fld}
    (h : site (adr + fld.reg.off) ∉ [(1, R.TK_STATUS.off)]) :
    (s.showPending p).f adr fld = s.f adr fld := by
  simp only [State.showPending, State.f_setF_pt (g := F.TK_STATUS_pending) (h := h) (hw := by decide)]

theorem State.f_noteFull (s : State) (p : PartId) {adr : Nat} {fld : Fld}
    (h : site (adr + fld.reg.off) ∉ [(4, R.CX_SLOT_STAT.off), (1, 0xB00)]) :
    (s.noteFull p).f adr fld = s.f adr fld := by
  unfold State.noteFull
  split <;> simp only [State.f_ite, ite_self, State.f_updPart, State.f_incF_lb (g := F.CX_SLOT_STAT_ring_full) (h := h) (hw
    := by decide), State.f_ev (h := notMem_of_subset h (by decide))]

theorem State.f_passLines (s : State) (p : PartId) (r lines : Nat) {adr : Nat} {fld : Fld}
    (h : site (adr + fld.reg.off) ∉ [(2, R.CX_IN_CONS.off)]) :
    (s.passLines p r lines).f adr fld = s.f adr fld := by
  simp only [State.passLines, State.f_setRing, State.f_setCons (h := h)]

theorem State.f_bindRing (s : State) (p : PartId) (tick : Nat) (r : Nat) {adr : Nat} {fld : Fld}
    (h : site (adr + fld.reg.off) ∉ [(2, R.CX_IN_SEQ.off), (2, R.CX_IN_STAT.off), (1, R.TK_INTAKE_STATS.off), (2,
    R.CX_IN_CONS.off)]) :
    (s.bindRing p tick r).f adr fld = s.f adr fld := by
  simp only [State.bindRing, State.f_ite, ite_self, implies_true, State.f_ite, ite_self, State.f_foldl, State.f_updPart,
    State.f_setF_ib (g := F.CX_IN_SEQ_next) (h := h) (hw := by decide), State.f_setF_ib (g := F.CX_IN_STAT_sealed) (h := h)
    (hw := by decide), State.f_incF_pt (g := F.TK_INTAKE_STATS_deferred) (h := h) (hw := by decide), State.f_setRing,
    State.f_passLines (h := notMem_of_subset h (by decide))]

theorem State.f_settleIo (s : State) {adr : Nat} {fld : Fld}
    (h : site (adr + fld.reg.off) ∉ [(0, R.HB_TICK_IO.off)]) :
    (s.settleIo).f adr fld = s.f adr fld := by
  unfold State.settleIo
  split <;> simp only [State.f_mk, State.f_ite, ite_self, State.f_wr_hub (r := R.HB_TICK_IO) (h := h) (hw := by decide)]

theorem State.f_tickOut (s : State) (p : PartId) {adr : Nat} {fld : Fld}
    (h : site (adr + fld.reg.off) ∉ [(0, R.HB_TICK_IO.off)]) :
    (s.tickOut p).f adr fld = s.f adr fld := by
  simp only [State.tickOut, State.f_mk, State.f_ite, ite_self, State.f_incF_hub (g := F.HB_TICK_IO_missed) (h := h) (hw := by
    decide), State.f_settleIo (h := h)]

theorem State.f_strike (s : State) (p : PartId) {adr : Nat} {fld : Fld}
    (h : site (adr + fld.reg.off) ∉ [(1, R.TK_STRIKE_STATS.off), (1, R.TK_STATUS.off), (4, R.CX_SLOT_STAT.off), (1, 0xB00)]) :
    (s.strike p).f adr fld = s.f adr fld := by
  unfold State.strike
  simp only [State.f_ite, State.f_incF_pt (g := F.TK_STRIKE_STATS_merged) (h := h) (hw := by decide)]
  repeat' split
  all_goals simp only [State.f_updPart, State.f_showPending (h := notMem_of_subset h (by decide)), State.f_noteFull (h :=
    notMem_of_subset h (by decide))]

/-! ### Partitions that the steps of a stroke leave -/

theorem State.parts_ctlWrite (s : State) (ld off : Nat) (bytes : List Byte) : (s.ctlWrite ld off bytes).parts = s.parts := by
  unfold State.ctlWrite
  rw [State.parts_devWrite]

theorem State.parts_completeActing (s : State) (p : PartId) (bit result : Nat) :
    (s.completeActing p bit result).parts = s.parts := by
  simp only [State.completeActing, implies_true, State.parts_foldl, State.parts_complete]

theorem State.parts_showHeld (s : State) (p : PartId) : (s.showHeld p).parts = s.parts := by
  simp only [State.showHeld, State.parts_ite, ite_self, State.parts_setF, State.parts_completeActing]

theorem State.parts_settleIo (s : State) : (s.settleIo).parts = s.parts := by
  unfold State.settleIo
  split <;> simp only [State.parts_ite, ite_self, State.parts_wr]

theorem State.parts_tickOut (s : State) (p : PartId) : (s.tickOut p).parts = s.parts := by
  simp only [State.tickOut, State.parts_ite, ite_self, State.parts_incF, State.parts_settleIo]

/-- What a stroke sets of its partition: the frame, its cycle, what is pending, the budget and the next grid point; with
every other partition. -/
def State.stroke (s : State) (p : PartId) :
    (Bool × Nat × Bool × Bool × Bool × Bool × Nat × Nat × Nat × Option Nat) × (PartId → Part) :=
  ((fun x : Part => (x.frameOpen, x.strokeAt, x.struck, x.pendEdge, x.gridLate, x.published, x.doneMask, x.budget, x.gridAt,
    x.strikeDue)) (s.part p), fun r => if r = p then .init else s.part r)

theorem State.stroke_of_parts {s t : State} (h : t.parts = s.parts) (p : PartId) : t.stroke p = s.stroke p := by
  simp only [State.stroke, State.part_congr h]

/-- A change of the partition that keeps the fields of the view. -/
theorem State.stroke_updPart {s : State} {p : PartId} {g : Part → Part}
    (h : ∀ x : Part, ((g x).frameOpen, (g x).strokeAt, (g x).struck, (g x).pendEdge, (g x).gridLate, (g x).published,
      (g x).doneMask, (g x).budget, (g x).gridAt, (g x).strikeDue) = (x.frameOpen, x.strokeAt, x.struck, x.pendEdge,
        x.gridLate, x.published, x.doneMask, x.budget, x.gridAt, x.strikeDue)) :
    (s.updPart p g).stroke p = s.stroke p := by
  refine Prod.ext ?_ (funext fun r => ?_)
  · show _ = _
    simp only [State.stroke, State.part_updPart_same]
    exact h _
  · simp only [State.stroke]
    split
    · rfl
    next hr => exact State.part_updPart_ne _ _ hr

theorem othersKept_of_stroke {s t : State} {p : PartId} (h : (t.stroke p).2 = (s.stroke p).2) : OthersKept p s t := by
  intro r hr
  simpa [State.stroke, hr] using congrFun h r

theorem State.stroke_foldl {α : Type} {g : State → α → State} {s : State} {p : PartId}
    (step : ∀ s a, (g s a).stroke p = s.stroke p) (xs : List α) : (xs.foldl g s).stroke p = s.stroke p :=
  State.foldl_rest (fun t => t.stroke p) g step xs s

theorem State.stroke_setRing (s : State) (p : PartId) (r : Nat) (x : InRing) : (s.setRing p r x).stroke p = s.stroke p :=
  State.stroke_updPart fun _ => rfl

theorem State.stroke_setCons (s : State) (p : PartId) (r c : Nat) : (s.setCons p r c).stroke p = s.stroke p := by
  obtain ⟨f, body⟩ : ∃ f, State.setCons = f := ⟨_, rfl⟩
  rw [body]
  delta State.setCons at body
  subst body
  dsimp only
  split
  · rw [State.stroke_of_parts (State.parts_ctlWrite ..), State.stroke_of_parts (State.parts_setF ..)]
  · rw [State.stroke_of_parts (State.parts_setF ..)]

theorem State.stroke_passLines (s : State) (p : PartId) (r lines : Nat) : (s.passLines p r lines).stroke p = s.stroke p := by
  unfold State.passLines
  dsimp only
  rw [State.stroke_setCons, State.stroke_setRing]

/-- The messages of a ring that a stroke takes. -/
theorem State.stroke_bindRing (s : State) (p : PartId) (tick r : Nat) : (s.bindRing p tick r).stroke p = s.stroke p := by
  have intake (a : State) (i : Intake) : (a.updPart p (fun y => { y with intakes := y.intakes ++ [i] })).stroke p = a.stroke p :=
    State.stroke_updPart fun _ => rfl
  have pends (a : State) : (a.updPart p (fun y => { y with pendStrike := true })).stroke p = a.stroke p :=
    State.stroke_updPart fun _ => rfl
  have setF (a : State) (b : Nat) (g : Fld) (v : Nat) : (a.setF b g v).stroke p = a.stroke p := rfl
  have incF (a : State) (b : Nat) (g : Fld) (v : Nat) : (a.incF b g v).stroke p = a.stroke p := rfl
  have pass (a : State) (l : List InMsg) :
      (l.foldl (fun t (m : InMsg) => t.passLines p r m.lines) a).stroke p = a.stroke p :=
    State.stroke_foldl (g := fun t (m : InMsg) => t.passLines p r m.lines) (fun t m => t.stroke_passLines p r m.lines) l
  have ite (c : Prop) [Decidable c] (a b : State) : (if c then a else b : State).stroke p = if c then a.stroke p else b.stroke p := by
    split <;> rfl
  unfold State.bindRing
  rw [ite]
  dsimp only
  rw [ite]
  rw [pends, intake, incF, setF, setF, pass, State.stroke_setRing, ite_self, ite_self]

/-! ### Memories that strikes and strokes leave -/

theorem State.memories_passLines (s : State) (p : PartId) (r lines : Nat) :
    (s.passLines p r lines).memories = s.memories := by
  simp only [State.passLines, State.memories_setRing, State.memories_setCons]

theorem State.memories_bindRing (s : State) (p : PartId) (tick : Nat) (r : Nat) :
    (s.bindRing p tick r).memories = s.memories := by
  simp only [State.bindRing, State.memories_ite, ite_self, implies_true, State.memories_foldl, State.memories_updPart,
    State.memories_setF, State.memories_incF, State.memories_setRing, State.memories_passLines]

theorem State.memories_issueStroke (s : State) (p : PartId) (late : Bool) :
    (s.issueStroke p late).memories = s.memories := by
  simp only [State.issueStroke, State.memories_ite, ite_self, implies_true, State.memories_foldl, State.memories_updPart,
    State.memories_setF, State.memories_setCnt, State.memories_ev, State.memories_completeActing, State.memories_showHeld,
    State.memories_showPending, State.memories_bindRing, State.memories_tickOut]

theorem State.memories_tryStrike (s : State) (p : PartId) (at_ : Nat) (wait : Bool) :
    (s.tryStrike p at_ wait).memories = s.memories := by
  simp only [State.tryStrike, State.memories_ite, ite_self, State.memories_updPart, State.memories_waitCycle,
    State.memories_showPending, State.memories_issueStroke]

theorem State.memories_tryPending (s : State) (p : PartId) (wait : Bool) :
    (s.tryPending p wait).memories = s.memories := by
  unfold State.tryPending
  dsimp only
  split <;> simp only [State.memories_ite, ite_self, State.memories_incF, State.memories_waitCycle, State.memories_noteFull,
    State.memories_issueStroke, State.memories_tryStrike]

theorem State.memories_strokeNow (s : State) (p : PartId) :
    (s.strokeNow p).memories = s.memories := by
  simp only [State.strokeNow, State.memories_ite, ite_self, State.memories_updPart, State.memories_issueStroke,
    State.memories_tryPending]

theorem State.memories_edge (s : State) (p : PartId) (at_ : Nat) :
    (s.edge p at_).memories = s.memories := by
  simp only [State.edge, State.memories_ite, ite_self, State.memories_updPart, State.memories_incF,
    State.memories_waitCycle, State.memories_showPending, State.memories_noteFull, State.memories_issueStroke]

theorem State.memories_skipHead (s : State) (p : PartId) (r : Nat) :
    (s.skipHead p r).memories = s.memories := by
  unfold State.skipHead
  dsimp only
  split <;> simp only [State.memories_ite, ite_self, State.memories_setF, State.memories_ev, State.memories_setRing,
    State.memories_passLines, State.memories_sealStrike]

/-! ### The stroke itself (R16, R22) -/

/-- The tick that a stroke opens. -/
def State.nextTick (s : State) (p : PartId) : Nat := (s.cnt (pt p) R.TK_COUNT_LO R.TK_COUNT_HI + 1) % 2 ^ 48

/-- The counter counts a stroke. -/
def State.strokeCounted (s : State) (p : PartId) : State :=
  let s' := s.setCnt (pt p) R.TK_COUNT_LO R.TK_COUNT_HI (s.nextTick p)
  if s.nextTick p = 0 then s'.ev (.part p) Ev.TICK_WRAP [] else s'

/-- A partition whose frame a stroke opens. -/
def Part.opened (x : Part) (now : Nat) (late suspect : Bool) (wait budget : Nat) : Part :=
  { x with frameOpen := true, strokeAt := x.cyc, strokeNs := now, struck := true, pendStrike := false, pendEdge := false,
           gridLate := false, spaceOnly := false, late := late || x.lateNext, lateNext := false, failed := suspect,
           failAt := x.cyc, pubs := [],
           published := false, doneMask := 0, waitMask := wait, doneAt := 0, closeAt := none,
           strokeMask := 0, overran := false, overMask := 0, intakes := [], dueToks := [], ringFull := false,
           budget := budget }

/-- The frame is open. -/
def State.frameOpened (s : State) (p : PartId) (late : Bool) : State :=
  s.updPart p (fun x => x.opened s.ns late (s.suspect p) (localMask (s.quiresOf p)) (s.f (pt p) F.PW_BUDGET_watts))

/-- What is bound to the frame: messages of the rings, and injected tokens. -/
def State.frameBound (s : State) (p : PartId) (tick : Nat) : State :=
  let s := (List.range 4).foldl (fun t r => t.bindRing p tick r) s
  let inj := s.notices.filter (fun n => !s.insecure && decide (n.mailbox = p.val + 1) && decide (8 ≤ n.bit) &&
    decide (n.phase = .acting))
  s.updPart p (fun x => { x with dueToks := x.dueToks ++ inj.map (s.injectTok p) })

/-- What a stroke shows in the registers, to the host and at TICK_OUT. -/
def State.strokeShown (s : State) (p : PartId) (tick : Nat) : State :=
  let s := ((s.setF (pt p) F.TK_STATUS_phase 1).setF (pt p) F.TK_STATUS_quires_done 0).showPending p
  ((s.completeActing p 0 tick).showHeld p).tickOut p

theorem State.issueStroke_eq (s : State) (p : PartId) (late : Bool) :
    s.issueStroke p late = (((s.strokeCounted p).frameOpened p late).frameBound p (s.nextTick p)).strokeShown p
      (s.nextTick p) := (rfl)

/-- A counter is two whole registers. -/
theorem State.cnt_of_f {s t : State} {b : Nat} {lo hi : Reg} (hlo : t.f b ⟨lo, 0, 32⟩ = s.f b ⟨lo, 0, 32⟩)
    (hhi : t.f b ⟨hi, 0, 32⟩ = s.f b ⟨hi, 0, 32⟩) : t.cnt b lo hi = s.cnt b lo hi := by
  unfold State.cnt
  rw [State.rd_of_f hlo, State.rd_of_f hhi]

theorem State.f_strokeCounted (s : State) (p : PartId) {b : Nat} {k : Fld} (hlo : pt p + R.TK_COUNT_LO.off ≠ b + k.reg.off)
    (hhi : pt p + R.TK_COUNT_HI.off ≠ b + k.reg.off) (h : site (b + k.reg.off) ∉ [(1, 0xB00)]) :
    (s.strokeCounted p).f b k = s.f b k := by
  unfold State.strokeCounted
  dsimp only
  split
  · rw [State.f_ev _ _ _ _ h, State.f_setCnt_of_ne _ _ hlo hhi]
  · rw [State.f_setCnt_of_ne _ _ hlo hhi]

theorem State.cnt_strokeCounted (s : State) (p : PartId) :
    (s.strokeCounted p).cnt (pt p) R.TK_COUNT_LO R.TK_COUNT_HI = s.nextTick p := by
  have small : s.nextTick p % 2 ^ 64 = s.nextTick p :=
    Nat.mod_eq_of_lt ((Nat.mod_lt _ (by decide)).trans (by decide))
  unfold State.strokeCounted
  dsimp only
  split
  · refine (State.cnt_of_f (s := s.setCnt (pt p) R.TK_COUNT_LO R.TK_COUNT_HI (s.nextTick p)) ?_ ?_).trans
      ((State.cnt_setCnt _ _ _ (by decide)).trans small) <;> exact State.f_ev _ _ _ _ (pt_notMem p (by decide))
  · exact (State.cnt_setCnt _ _ _ (by decide)).trans small

theorem State.parts_strokeCounted (s : State) (p : PartId) : (s.strokeCounted p).parts = s.parts := by
  unfold State.strokeCounted
  dsimp only
  split
  · rw [State.parts_ev, State.parts_setCnt]
  · rw [State.parts_setCnt]

theorem State.stroke_frameBound (s : State) (p : PartId) (tick : Nat) : (s.frameBound p tick).stroke p = s.stroke p := by
  unfold State.frameBound
  dsimp only
  exact (State.stroke_updPart fun _ => by rfl).trans
    (State.stroke_foldl (g := fun t r => t.bindRing p tick r) (fun t r => t.stroke_bindRing p tick r) _)

theorem State.f_frameBound (s : State) (p : PartId) (tick : Nat) {b : Nat} {k : Fld}
    (h : site (b + k.reg.off) ∉ [(2, R.CX_IN_SEQ.off), (2, R.CX_IN_STAT.off), (1, R.TK_INTAKE_STATS.off),
      (2, R.CX_IN_CONS.off)]) :
    (s.frameBound p tick).f b k = s.f b k := by
  unfold State.frameBound
  dsimp only
  rw [State.f_updPart, State.f_foldl (g := fun t r => t.bindRing p tick r) fun t r => t.f_bindRing p tick r h]

theorem State.stroke_strokeShown (s : State) (p : PartId) (tick : Nat) : (s.strokeShown p tick).stroke p = s.stroke p := by
  unfold State.strokeShown
  dsimp only
  rw [State.stroke_of_parts (State.parts_tickOut ..), State.stroke_of_parts (State.parts_showHeld ..),
    State.stroke_of_parts (State.parts_completeActing ..), State.showPending, State.stroke_of_parts (State.parts_setF ..),
    State.stroke_of_parts (State.parts_setF ..), State.stroke_of_parts (State.parts_setF ..)]

theorem State.f_strokeShown (s : State) (p : PartId) (tick : Nat) {b : Nat} {k : Fld}
    (h : site (b + k.reg.off) ∉ [(0, R.HB_TICK_IO.off), (1, R.TK_STATUS.off), (1, R.MB_STAT.off), (1, R.MB_PEND.off)]) :
    (s.strokeShown p tick).f b k = s.f b k := by
  unfold State.strokeShown
  dsimp only
  rw [State.f_tickOut _ _ (notMem_of_subset h (by decide)), State.f_showHeld _ _ (notMem_of_subset h (by decide)),
    State.f_completeActing _ _ _ _ (notMem_of_subset h (by decide)), State.f_showPending _ _ (notMem_of_subset h (by decide)),
    State.f_setF_pt h _ _ (by decide), State.f_setF_pt h _ _ (by decide)]

/-- TK_STATUS.phase as a stroke leaves it. -/
theorem State.phase_strokeShown (s : State) (p : PartId) (tick : Nat) : (s.strokeShown p tick).f (pt p) F.TK_STATUS_phase = 1 := by
  have held (a : State) : (a.showHeld p).f (pt p) F.TK_STATUS_phase = a.f (pt p) F.TK_STATUS_phase := by
    unfold State.showHeld
    dsimp only
    rw [State.f_ite, State.f_completeActing _ _ _ _ (pt_notMem p (by decide)), ite_self,
      State.f_setF_field (g := F.TK_STATUS_held) (k := F.TK_STATUS_phase) _ _ _ rfl (by decide)]
  unfold State.strokeShown
  dsimp only
  rw [State.f_tickOut _ _ (pt_notMem p (by decide)), held, State.f_completeActing _ _ _ _ (pt_notMem p (by decide)),
    State.showPending, State.f_setF_field (g := F.TK_STATUS_pending) (k := F.TK_STATUS_phase) _ _ _ rfl (by decide),
    State.f_setF_field (g := F.TK_STATUS_quires_done) (k := F.TK_STATUS_phase) _ _ _ rfl (by decide),
    State.f_setF_same _ _ _ _ (by decide)]
  rfl

/-- A stroke, and what it leaves of the partition beside its frame. -/
theorem issueStroke_strikes (s : State) (p : PartId) (late : Bool) :
    let t := s.issueStroke p late
    Stroked p (s.part p).cyc s t ∧ (t.part p).gridAt = (s.part p).gridAt ∧ (t.part p).strikeDue = (s.part p).strikeDue ∧
      OthersKept p s t ∧ t.memories = s.memories := by
  intro t
  have view : t.stroke p = ((s.strokeCounted p).frameOpened p late).stroke p := by
    rw [show t = _ from s.issueStroke_eq p late, State.stroke_strokeShown, State.stroke_frameBound]
  have before : (s.strokeCounted p).part p = s.part p := State.part_congr (s.parts_strokeCounted p) p
  have others : OthersKept p s t := fun r hr => by
    rw [othersKept_of_stroke (congrArg Prod.snd view) r hr, State.frameOpened, State.part_updPart_ne _ _ hr,
      State.part_congr (s.parts_strokeCounted p)]
  have budget : (s.strokeCounted p).f (pt p) F.PW_BUDGET_watts = s.f (pt p) F.PW_BUDGET_watts :=
    s.f_strokeCounted p (by simp [pt]; decide) (by simp [pt]; decide) (pt_notMem p (by decide))
  have fields := congrArg Prod.fst view
  simp only [State.stroke, State.frameOpened, State.part_updPart_same, Part.opened, before, budget, Prod.mk.injEq] at fields
  obtain ⟨frame, at_, struck, edge, grid, published, mask, watts, gridAt, due⟩ := fields
  have counter (g : Reg) (hg : g = R.TK_COUNT_LO ∨ g = R.TK_COUNT_HI) :
      t.f (pt p) ⟨g, 0, 32⟩ = (s.strokeCounted p).f (pt p) ⟨g, 0, 32⟩ := by
    rw [show t = _ from s.issueStroke_eq p late]
    rcases hg with rfl | rfl <;>
      rw [State.f_strokeShown _ _ _ (pt_notMem p (by decide)), State.f_frameBound _ _ _ (pt_notMem p (by decide)),
        State.frameOpened, State.f_updPart]
  refine ⟨⟨frame, at_, struck, ?count, ?phase, edge, grid, published, mask, watts⟩, gridAt, due, others, s.memories_issueStroke p late⟩
  case count => exact (State.cnt_of_f (counter _ (.inl rfl)) (counter _ (.inr rfl))).trans (s.cnt_strokeCounted p)
  case phase => rw [show t = _ from s.issueStroke_eq p late]; exact State.phase_strokeShown _ p _

/-! ### Where a stroke may issue -/

theorem State.mayStroke_iff (s : State) (p : PartId) : s.mayStroke p = true ↔
    s.running p = true ∧ s.holdIn p = false ∧ (s.part p).frameOpen = false ∧ s.fullSlot p = none := by
  simp [State.mayStroke, and_assoc]

theorem State.mayStroke_of_hold {s : State} {p : PartId} (h : s.holdIn p = true) : s.mayStroke p = false := by
  simp [State.mayStroke, h]

theorem State.noteFull_of_none {s : State} {p : PartId} (h : s.fullSlot p = none) : s.noteFull p = s := by
  unfold State.noteFull
  rw [h]

/-- A stroke may issue as before where the registers, the holds, the frame and the slots are as before. -/
theorem State.mayStroke_congr {s t : State} {p : PartId} (f : ∀ b k, t.f b k = s.f b k)
    (frame : (t.part p).frameOpen = (s.part p).frameOpen) (holds : (t.part p).holds = (s.part p).holds)
    (slots : (t.part p).slots = (s.part p).slots) : t.mayStroke p = s.mayStroke p := by
  unfold State.mayStroke State.running State.holdIn State.fullSlot slotDepth
  simp only [f, frame, holds, slots]

theorem State.part_waitCycle (s : State) {p : PartId} {c : Nat} (le : (s.part p).cyc ≤ c) (runs : s.clockStopped p = false) :
    ∃ n, (s.waitCycle p c).part p = { s.part p with cyc := c, sub := n } := by
  by_cases h : c ≤ (s.part p).cyc
  · obtain rfl : c = (s.part p).cyc := by omega
    exact ⟨_, by rw [s.waitCycle_of_le h]⟩
  · have rest := s.waitCycle_part p p c
    have cyc : ((s.waitCycle p c).part p).cyc = c := by
      unfold State.waitCycle
      rw [if_neg (by simp [h, runs])]
      dsimp only
      rw [State.part_updPart_same]
    refine ⟨((s.waitCycle p c).part p).sub, ?_⟩
    calc (s.waitCycle p c).part p
        = { ((s.waitCycle p c).part p).butClock with
            cyc := ((s.waitCycle p c).part p).cyc, sub := ((s.waitCycle p c).part p).sub } := rfl
      _ = _ := by rw [rest, cyc]; rfl

/-! ### Strokes seen from before and from after -/

theorem Stroked.of_before {p : PartId} {c : Nat} {r s t : State} (h : Stroked p c s t) (f : ∀ b k, s.f b k = r.f b k) :
    Stroked p c r t := by
  have count : s.cnt (pt p) R.TK_COUNT_LO R.TK_COUNT_HI = r.cnt (pt p) R.TK_COUNT_LO R.TK_COUNT_HI :=
    State.cnt_of_f (f _ _) (f _ _)
  unfold Stroked at h ⊢
  rwa [count, f] at h

/-- What is pending after a stroke shows in TK_STATUS. -/
theorem Stroked.showPending {p : PartId} {c : Nat} {s t : State} (h : Stroked p c s t) {g : Part → Part}
    (keeps : ∀ x : Part, ((g x).frameOpen, (g x).strokeAt, (g x).struck, (g x).pendEdge, (g x).gridLate, (g x).published,
      (g x).doneMask, (g x).budget, (g x).gridAt, (g x).strikeDue) = (x.frameOpen, x.strokeAt, x.struck, x.pendEdge,
        x.gridLate, x.published, x.doneMask, x.budget, x.gridAt, x.strikeDue)) :
    let u := (t.updPart p g).showPending p
    Stroked p c s u ∧ (u.part p).strikeDue = (t.part p).strikeDue ∧ u.mem = t.mem := by
  intro u
  have part : u.part p = g (t.part p) := by
    simp only [u, State.showPending, State.part_setF, State.part_updPart_same]
  have count : u.cnt (pt p) R.TK_COUNT_LO R.TK_COUNT_HI = t.cnt (pt p) R.TK_COUNT_LO R.TK_COUNT_HI :=
    State.cnt_of_f (State.f_showPending _ _ (pt_notMem p (by decide))) (State.f_showPending _ _ (pt_notMem p (by decide)))
  have phase : u.f (pt p) F.TK_STATUS_phase = t.f (pt p) F.TK_STATUS_phase :=
    State.f_setF_field (g := F.TK_STATUS_pending) (k := F.TK_STATUS_phase) (t.updPart p g) _ _ rfl (by decide)
  have fields := keeps (t.part p)
  simp only [← part, Prod.mk.injEq] at fields
  obtain ⟨frame, at_, struck, edge, grid, published, mask, watts, -, due⟩ := fields
  unfold Stroked at h ⊢
  rw [frame, at_, struck, edge, grid, published, mask, watts, count, phase]
  exact ⟨h, due, rfl⟩

/-! ### Strikes (R19) -/

theorem asWrite_strike {s : State} {w : Writer} {addr : Nat} (value : Nat) (k : State → State) (pass : s.gateOf w addr = .pass)
    (h : addr % 0x1000000 = R.TK_STRIKE.off ∧ (blockPart addr).isSome) : s.asWrite w addr value k = k s := by
  unfold State.asWrite
  rw [pass]
  exact if_pos h

theorem blockPart_pt {p : PartId} {x : Nat} (h : x < 0x1000000) : (blockPart (pt p + x)).isSome = true := by
  have := p.isLt
  unfold blockPart
  rw [if_neg (by unfold pt; omega), Option.isSome_some]

theorem execTkStrikeWrite_pass {s : State} {w : Writer} {p : PartId} (pass : s.gateOf w (pt p + R.TK_STRIKE.off) = .pass) :
    execTkStrikeWrite w p s = .next (s.strike p) := by
  have at_ : (pt p + R.TK_STRIKE.off) % 0x1000000 = R.TK_STRIKE.off := by simp only [pt, R.TK_STRIKE]; omega
  exact congrArg Host.Outcome.next (asWrite_strike 1 _ pass ⟨at_, blockPart_pt (by decide)⟩)

theorem strike_strokes {s : State} {p : PartId} (mode : s.mode p = 1) (none_ : (s.part p).pendStrike = false)
    (idle : (s.part p).strikeDue = none) (may : s.mayStroke p = true) (spaced : s.spacedAt p ≤ (s.part p).cyc + 2) :
    s.strike p = s.updPart p (fun y => { y with strikeDue := some ((s.part p).cyc + 2) }) := by
  obtain ⟨running, free, frame, room⟩ := (s.mayStroke_iff p).mp may
  unfold State.strike
  simp only [mode, running, none_, idle, free, frame, State.noteFull_of_none room, may, spaced, reduceCtorEq, or_self, if_false,
    ne_eq, not_true_eq_false, Bool.not_false, Bool.and_self, if_true, decide_true]

theorem strike_pends {s : State} {p : PartId} (mode : s.mode p = 1) (running : s.running p = true)
    (none_ : (s.part p).pendStrike = false) (idle : (s.part p).strikeDue = none) (held : s.holdIn p = true) :
    s.strike p = (s.updPart p (fun y => { y with pendStrike := true, spaceOnly := false })).showPending p := by
  unfold State.strike
  simp only [mode, running, none_, idle, held, State.mayStroke_of_hold held, reduceCtorEq, or_self, if_false, ne_eq,
    not_true_eq_false, Bool.not_true, Bool.false_and]

theorem strike_merges {s : State} {p : PartId} (mode : s.mode p = 1) (running : s.running p = true)
    (pends : (s.part p).pendStrike = true) : s.strike p = s.incF (pt p) F.TK_STRIKE_STATS_merged := by
  unfold State.strike
  simp only [mode, running, pends, reduceCtorEq, or_self, if_false, ne_eq, not_true_eq_false, if_true]

theorem strike_again {s : State} {p : PartId} (none_ : (s.part p).pendStrike = false)
    (due : (s.part p).strikeDue = some ((s.part p).cyc + 2)) : s.strike p = s := by
  unfold State.strike
  simp only [none_, due, if_true, reduceCtorEq, if_false, ite_self]

/-- TK_STATUS.pending shows a strike or an edge that pends. -/
theorem State.pending_showPending {s : State} {p : PartId} (h : ((s.part p).pendStrike || (s.part p).pendEdge) = true) :
    (s.showPending p).f (pt p) F.TK_STATUS_pending = 1 := by
  unfold State.showPending
  rw [State.f_setF_same _ _ _ _ (by decide), if_pos h]
  rfl

/-- What a partition's own field and the display of what pends leave. -/
theorem showPending_keeps (s : State) (p : PartId) (g : Part → Part) :
    let t := (s.updPart p g).showPending p
    t.part p = g (s.part p) ∧ OthersKept p s t ∧ MemoriesKept s t := by
  refine ⟨?_, fun r hr => ?_, memoriesKept_of ?_⟩
  · rw [State.showPending, State.part_setF, State.part_updPart_same]
  · rw [State.showPending, State.part_setF, State.part_updPart_ne _ _ hr]
  · rw [State.memories_showPending, State.memories_updPart]

/-! ### The other ways to a stroke (R19 to R21) -/

/-- A strike that is due strokes in its cycle. -/
theorem pendingStrikeStroke_due {s : State} {p : PartId} {c : Nat} (due : (s.part p).strikeDue = some c)
    (le : (s.part p).cyc ≤ c) (runs : s.clockStopped p = false) (may : s.mayStroke p = true) :
    ∃ t, exec (.pendingStrikeStroke p) s = .next t ∧ Stroked p c s t ∧ (t.part p).strikeDue = none ∧ t.mem = s.mem := by
  obtain ⟨n, waited⟩ := s.part_waitCycle le runs
  let u := (s.waitCycle p c).updPart p (fun y => { y with strikeDue := none })
  have part : u.part p = { s.part p with cyc := c, sub := n, strikeDue := none } := by
    rw [State.part_updPart_same, waited]
  have fields (b : Nat) (k : Fld) : u.f b k = s.f b k := s.f_waitCycle p c b k
  have mayNow : u.mayStroke p = true :=
    (State.mayStroke_congr fields (by rw [part]) (by rw [part]) (by rw [part])).trans may
  have run : exec (.pendingStrikeStroke p) s = .next (((u.issueStroke p false).updPart p (fun y =>
      { y with pendStrike := y.pendStrike || (s.part p).pendStrike, spaceOnly := false })).showPending p) := by
    show Host.Outcome.next (s.tryPending p true) = _
    refine congrArg Host.Outcome.next ?_
    unfold State.tryPending
    simp only [due]
    unfold State.tryStrike
    rw [if_neg (by simp)]
    dsimp only
    rw [if_pos mayNow]
  obtain ⟨stroked, -, idle, -, memories⟩ := issueStroke_strikes u p false
  rw [part] at stroked idle
  obtain ⟨stroked', idle', mem⟩ := stroked.showPending (g := fun y =>
    { y with pendStrike := y.pendStrike || (s.part p).pendStrike, spaceOnly := false }) fun _ => rfl
  refine ⟨_, run, stroked'.of_before fields, idle'.trans idle, mem.trans ?_⟩
  have kept : MemoriesKept s (u.issueStroke p false) := memoriesKept_of (by
    rw [memories, State.memories_updPart, State.memories_waitCycle])
  exact kept.1

/-- A strike that only its spacing kept waiting is counted when it strokes (R20). -/
def State.countSpaced (s : State) (p : PartId) : State :=
  if (s.part p).pendStrike && (s.part p).spaceOnly then s.incF (pt p) F.TK_STRIKE_STATS_spaced else s

theorem State.part_countSpaced (s : State) (p r : PartId) : (s.countSpaced p).part r = s.part r := by
  unfold State.countSpaced
  split
  · exact State.part_incF ..
  · rfl

theorem State.memories_countSpaced (s : State) (p : PartId) : (s.countSpaced p).memories = s.memories := by
  unfold State.countSpaced
  split
  · exact State.memories_incF ..
  · rfl

theorem State.f_countSpaced (s : State) (p : PartId) {b : Nat} {k : Fld} (h : site (b + k.reg.off) ∉ [(1, R.TK_STRIKE_STATS.off)]) :
    (s.countSpaced p).f b k = s.f b k := by
  unfold State.countSpaced
  split
  · exact State.f_incF_pt h _ _ (by decide)
  · rfl

/-- What pends strokes where a stroke may issue and its spacing has passed. -/
theorem pendingStrikeStroke_now {s : State} {p : PartId} (may : s.mayStroke p = true) (spaced : s.spacedAt p ≤ (s.part p).cyc)
    (idle : (s.part p).strikeDue = none)
    (pends : (s.part p).pendStrike = true ∨ (s.part p).pendEdge = true ∨ (s.part p).gridLate = true) :
    ∃ t, exec (.pendingStrikeStroke p) s = .next t ∧ Stroked p (s.part p).cyc s t ∧ t.mem = s.mem := by
  obtain ⟨running, free, frame, room⟩ := (s.mayStroke_iff p).mp may
  have run : s.tryPending p true = (s.countSpaced p).issueStroke p ((s.part p).pendEdge || (s.part p).gridLate) := by
    have some_ : (!((s.part p).pendStrike || (s.part p).pendEdge || (s.part p).gridLate)) = false := by
      rcases pends with h | h | h <;> simp [h]
    unfold State.tryPending State.countSpaced
    simp only [idle, some_, running, free, frame, State.noteFull_of_none room, may, s.waitCycle_of_le spaced, reduceCtorEq,
      if_false, Bool.not_false, Bool.and_self, if_true, and_false]
  obtain ⟨stroked, -, -, -, memories⟩ := issueStroke_strikes (s.countSpaced p) p ((s.part p).pendEdge || (s.part p).gridLate)
  have count : (s.countSpaced p).cnt (pt p) R.TK_COUNT_LO R.TK_COUNT_HI = s.cnt (pt p) R.TK_COUNT_LO R.TK_COUNT_HI :=
    State.cnt_of_f (s.f_countSpaced p (pt_notMem p (by decide))) (s.f_countSpaced p (pt_notMem p (by decide)))
  have watts : (s.countSpaced p).f (pt p) F.PW_BUDGET_watts = s.f (pt p) F.PW_BUDGET_watts :=
    s.f_countSpaced p (pt_notMem p (by decide))
  refine ⟨_, congrArg Host.Outcome.next run, ?_, (memoriesKept_of (memories.trans (s.memories_countSpaced p))).1⟩
  unfold Stroked at stroked ⊢
  rwa [State.part_countSpaced, count, watts] at stroked

theorem execTimedGridPoint_due {s : State} {p : PartId} (mode : s.mode p = 0) (running : s.running p = true)
    (due : (s.part p).gridAt ≤ (s.part p).cyc) :
    let u := s.updPart p (fun x => { x with gridAt := x.gridAt + s.periodOf p })
    exec (.timedGridPoint p) s = .next (
      if (u.part p).gridLate then u.incF (pt p) F.TK_INTAKE_STATS_skipped
      else if u.mayStroke p ∧ u.spacedAt p ≤ (u.part p).cyc then u.issueStroke p false
      else (if !u.holdIn p && !(u.part p).frameOpen then u.noteFull p else u : State).updPart p
        (fun x => { x with gridLate := true })) := by
  intro u
  show execTimedGridPoint p s = _
  unfold execTimedGridPoint
  simp only [mode, running, s.waitCycle_of_le due, reduceCtorEq, or_self, if_false, ne_eq, not_true_eq_false]
  split
  · rfl
  · split <;> rfl

/-- A grid point that is due, before it strokes, is deferred or is skipped. -/
theorem gridPoint_keeps (s : State) (p : PartId) :
    let u := s.updPart p (fun x => { x with gridAt := x.gridAt + s.periodOf p })
    u.part p = { s.part p with gridAt := (s.part p).gridAt + s.periodOf p } ∧ u.mayStroke p = s.mayStroke p ∧
      u.spacedAt p = s.spacedAt p ∧ u.holdIn p = s.holdIn p := by
  intro u
  have part : u.part p = { s.part p with gridAt := (s.part p).gridAt + s.periodOf p } := State.part_updPart_same ..
  refine ⟨part, State.mayStroke_congr (fun _ _ => rfl) (by rw [part]) (by rw [part]) (by rw [part]), ?_, ?_⟩
  · unfold State.spacedAt
    rw [part]
    rfl
  · unfold State.holdIn
    rw [part]
    rfl

theorem timedGridPoint_strokes {s : State} {p : PartId} (mode : s.mode p = 0) (running : s.running p = true)
    (due : (s.part p).gridAt ≤ (s.part p).cyc) (first : (s.part p).gridLate = false) (may : s.mayStroke p = true)
    (spaced : s.spacedAt p ≤ (s.part p).cyc) :
    ∃ t, exec (.timedGridPoint p) s = .next t ∧ Stroked p (s.part p).cyc s t ∧
      (t.part p).gridAt = (s.part p).gridAt + s.periodOf p ∧ t.mem = s.mem := by
  obtain ⟨part, mayNow, spacing, -⟩ := gridPoint_keeps s p
  have run := execTimedGridPoint_due mode running due
  simp only [part, first, mayNow, may, spacing, spaced, reduceCtorEq, if_false, and_self, if_true] at run
  obtain ⟨stroked, grid, -, -, memories⟩ :=
    issueStroke_strikes (s.updPart p (fun x => { x with gridAt := x.gridAt + s.periodOf p })) p false
  rw [part] at stroked grid
  exact ⟨_, run, stroked.of_before fun _ _ => rfl, grid,
    (memoriesKept_of (memories.trans (s.memories_updPart ..))).1⟩

theorem timedGridPoint_defers {s : State} {p : PartId} (mode : s.mode p = 0) (running : s.running p = true)
    (due : (s.part p).gridAt ≤ (s.part p).cyc) (first : (s.part p).gridLate = false) (held : s.holdIn p = true) :
    ∃ t, exec (.timedGridPoint p) s = .next t ∧
      t.part p = { s.part p with gridAt := (s.part p).gridAt + s.periodOf p, gridLate := true } ∧ OthersKept p s t ∧
      MemoriesKept s t := by
  obtain ⟨part, mayNow, -, holdNow⟩ := gridPoint_keeps s p
  have run := execTimedGridPoint_due mode running due
  simp only [part, first, mayNow, State.mayStroke_of_hold held, holdNow, held, reduceCtorEq, if_false, false_and,
    Bool.not_true, Bool.false_and] at run
  refine ⟨_, run, ?_, fun r hr => ?_, memoriesKept_of ?_⟩
  · rw [State.part_updPart_same, State.part_updPart_same]
  · rw [State.part_updPart_ne _ _ hr, State.part_updPart_ne _ _ hr]
  · rw [State.memories_updPart, State.memories_updPart]

theorem timedGridPoint_skips {s : State} {p : PartId} (mode : s.mode p = 0) (running : s.running p = true)
    (due : (s.part p).gridAt ≤ (s.part p).cyc) (late : (s.part p).gridLate = true) :
    ∃ t, exec (.timedGridPoint p) s = .next t ∧
      t.f (pt p) F.TK_INTAKE_STATS_skipped = min 65535 (s.f (pt p) F.TK_INTAKE_STATS_skipped + 1) ∧
      t.part p = { s.part p with gridAt := (s.part p).gridAt + s.periodOf p } ∧ OthersKept p s t ∧ MemoriesKept s t := by
  obtain ⟨part, -⟩ := gridPoint_keeps s p
  have run := execTimedGridPoint_due mode running due
  simp only [part, late, if_true] at run
  refine ⟨_, run, State.f_incF_same _ _ _ _ (by decide), ?_, fun r hr => ?_, memoriesKept_of ?_⟩
  · rw [State.part_incF, State.part_updPart_same]
  · rw [State.part_incF, State.part_updPart_ne _ _ hr]
  · rw [State.memories_incF, State.memories_updPart]

/-! ### Edges of TICK_IN (R20) -/

/-- A partition that an edge of TICK_IN concerns (R20). -/
def State.sees (s : State) (falling : Bool) (p : PartId) : Bool :=
  decide (s.mode p = 2) && s.running p && decide (s.f (pt p) F.TK_MODE_ext_edge = if falling then 1 else 0)

theorem State.sees_iff (s : State) (falling : Bool) (p : PartId) : s.sees falling p = true ↔
    s.mode p = 2 ∧ s.running p = true ∧ s.f (pt p) F.TK_MODE_ext_edge = (if falling then 1 else 0) := by
  unfold State.sees
  simp only [Bool.and_eq_true, decide_eq_true_eq, and_assoc]

/-- The level of TICK_IN. -/
def State.setTickIn (s : State) (level : Bool) : State := { s with tickIn := level }

theorem State.f_setTickIn (s : State) (level : Bool) : (s.setTickIn level).f = s.f := rfl

theorem State.part_setTickIn (s : State) (level : Bool) : (s.setTickIn level).part = s.part := rfl

theorem State.memories_setTickIn (s : State) (level : Bool) : (s.setTickIn level).memories = s.memories := rfl

theorem State.tickIn_setTickIn (s : State) (level : Bool) : (s.setTickIn level).tickIn = level := rfl

/-- The device after an edge of TICK_IN is counted, before any partition sees it. -/
def State.countEdge (s : State) (falling : Bool) : State :=
  (s.setF hub F.HB_TICK_IO_in_edges (s.f hub F.HB_TICK_IO_in_edges + 1)).setTickIn (!falling)

theorem State.f_countEdge_pt (s : State) (falling : Bool) (p : PartId) (k : Fld) :
    (s.countEdge falling).f (pt p) k = s.f (pt p) k := by
  rw [State.countEdge, State.f_setTickIn]
  exact s.f_setF_reg _ (by simp only [hub, pt, F.HB_TICK_IO_in_edges, R.HB_TICK_IO]; omega)

theorem State.f_countEdge (s : State) (falling : Bool) : (s.countEdge falling).f hub F.HB_TICK_IO_in_edges =
    (s.f hub F.HB_TICK_IO_in_edges + 1) % 2 ^ F.HB_TICK_IO_in_edges.w := by
  rw [State.countEdge, State.f_setTickIn]
  exact s.f_setF_same _ _ _ (by decide)

theorem State.part_countEdge (s : State) (falling : Bool) (p : PartId) : (s.countEdge falling).part p = s.part p := by
  rw [State.countEdge, State.part_setTickIn, State.part_setF]

theorem State.memories_countEdge (s : State) (falling : Bool) : (s.countEdge falling).memories = s.memories := by
  rw [State.countEdge, State.memories_setTickIn, State.memories_setF]

theorem State.period_speed (s : State) (p : PartId) : s.period p ∈ [4, 5, 8, 32] := by
  unfold State.period
  split <;> decide

theorem filter_allParts_eq : ∀ p : PartId, allParts.filter (fun r => decide (r = p)) = [p] := by decide

/-- The order in which partitions see an edge names a partition that sees it alone. -/
theorem speeds_of_one (f : PartId → Nat) (g : PartId → Bool) {p : PartId} (one : ∀ r, g r = true ↔ r = p)
    (speed : f p ∈ [4, 5, 8, 32]) :
    ([4, 5, 8, 32] : List Nat).flatMap (fun k => allParts.filter (fun r => decide (f r = k) && g r)) = [p] := by
  have each : ∀ k, allParts.filter (fun r => decide (f r = k) && g r) = if f p = k then [p] else [] := by
    intro k
    have same : (fun r => decide (f r = k) && g r) = fun r => decide (f p = k) && decide (r = p) := by
      funext r
      by_cases h : r = p
      · subst h
        rw [(one r).mpr rfl, decide_eq_true (rfl : r = r)]
      · rw [Bool.eq_false_iff.mpr fun a => h ((one r).mp a), decide_eq_false h, Bool.and_false, Bool.and_false]
    rw [same]
    split
    next h =>
      simp only [h, decide_true, Bool.true_and]
      exact filter_allParts_eq p
    next h => simp only [h, decide_false, Bool.false_and, List.filter_false]
  simp only [each, List.flatMap_cons, List.flatMap_nil]
  simp only [List.mem_cons, List.not_mem_nil, or_false] at speed
  rcases speed with h | h | h | h <;> simp [h]

theorem edge_pends {s : State} {p : PartId} (first : (s.part p).pendEdge = false) (held : s.holdIn p = true) (c : Nat) :
    s.edge p c = (s.updPart p (fun y => { y with pendEdge := true })).showPending p := by
  unfold State.edge
  simp only [first, held, State.mayStroke_of_hold held, reduceCtorEq, if_false, Bool.not_true, Bool.false_and, false_and]

theorem execTickInEdge_one {falling : Bool} {s : State} {p : PartId} (one : ∀ r, s.sees falling r = true ↔ r = p) :
    execTickInEdge falling s = .next ((s.countEdge falling).edge p (s.part p).cyc) := by
  let u := s.countEdge falling
  have seen : ∀ r, u.sees falling r = s.sees falling r := by
    intro r
    unfold State.sees State.mode State.running
    simp only [u, State.f_countEdge_pt]
  have order := speeds_of_one u.period (u.sees falling) (fun r => by rw [seen, one]) (u.period_speed p)
  have run : execTickInEdge falling s = .next (((([4, 5, 8, 32] : List Nat).flatMap
      (fun k => allParts.filter (fun r => decide (u.period r = k) && u.sees falling r))).map
        (fun r => (r, (u.part r).cyc))).foldl (fun t d => t.edge d.1 d.2) u) := rfl
  rw [run, order, List.map_cons, List.map_nil, List.foldl_cons, List.foldl_nil, State.part_countEdge]

theorem tickIn_updPart (s : State) (p : PartId) (g : Part → Part) : (s.updPart p g).tickIn = s.tickIn := rfl

theorem tickIn_showPending (s : State) (p : PartId) : (s.showPending p).tickIn = s.tickIn := rfl

/-- An edge that comes while a hold is in force pends (R20). -/
theorem tickInEdge_pends {falling : Bool} {s : State} {p : PartId}
    (one : ∀ r, (s.mode r = 2 ∧ s.running r = true ∧ s.f (pt r) F.TK_MODE_ext_edge = (if falling then 1 else 0)) ↔ r = p)
    (first : (s.part p).pendEdge = false) (held : s.holdIn p = true) :
    ∃ t, exec (.tickInEdge falling) s = .next t ∧ t.tickIn = !falling ∧
      t.f hub F.HB_TICK_IO_in_edges = (s.f hub F.HB_TICK_IO_in_edges + 1) % 2 ^ F.HB_TICK_IO_in_edges.w ∧
      t.part p = { s.part p with pendEdge := true } ∧ t.f (pt p) F.TK_STATUS_pending = 1 ∧ OthersKept p s t ∧
      MemoriesKept s t := by
  let u := s.countEdge falling
  have heldNow : u.holdIn p = true := by
    unfold State.holdIn at held ⊢
    rwa [State.part_countEdge, State.f_countEdge_pt]
  have firstNow : (u.part p).pendEdge = false := by rwa [State.part_countEdge]
  have run : exec (.tickInEdge falling) s = .next ((u.updPart p (fun y => { y with pendEdge := true })).showPending p) := by
    show execTickInEdge falling s = _
    rw [execTickInEdge_one fun r => (s.sees_iff falling r).trans (one r), edge_pends firstNow heldNow]
  obtain ⟨part, others, -⟩ := showPending_keeps u p (fun y => { y with pendEdge := true })
  refine ⟨_, run, ?_, ?_, ?_, State.pending_showPending ?_, fun r hr => ?_, memoriesKept_of ?_⟩
  · rw [tickIn_showPending, tickIn_updPart]
    exact State.tickIn_setTickIn _ _
  · rw [State.f_showPending _ _ (hub_notMem (by decide)), State.f_updPart, s.f_countEdge falling]
  · rw [part, State.part_countEdge]
  · rw [State.part_updPart_same, Bool.or_true]
  · rw [others r hr, State.part_countEdge]
  · rw [State.memories_showPending, State.memories_updPart, State.memories_countEdge]

/-- Settles O19: a strike and an edge end in a stroke, a time for one, or something that pends, as a stroke may issue or
not. -/
theorem strikesAndStrokes : Obligations.StrikesAndStrokes := by
  unfold Obligations.StrikesAndStrokes
  refine ⟨⟨?strokes, ?again, ?due, ?pends, ?merges, ?other⟩, ?grid, ?defers, ?skips, ?now, ?edges⟩
  case strokes =>
    intro w p s pass mode none_ idle may spaced
    refine ⟨_, (execTkStrikeWrite_pass pass).trans (congrArg Host.Outcome.next (strike_strokes mode none_ idle may spaced)),
      s.part_updPart_same .., fun r hr => s.part_updPart_ne _ hr, rfl⟩
  case again =>
    intro w p s pass none_ due
    exact (execTkStrikeWrite_pass pass).trans (congrArg Host.Outcome.next (strike_again none_ due))
  case due =>
    intro p c s due le runs may
    exact pendingStrikeStroke_due due le runs.1 may
  case pends =>
    intro w p s pass mode running none_ idle held
    obtain ⟨part, others, kept⟩ := showPending_keeps s p (fun y => { y with pendStrike := true, spaceOnly := false })
    refine ⟨_, (execTkStrikeWrite_pass pass).trans (congrArg Host.Outcome.next (strike_pends mode running none_ idle held)),
      by rw [part], State.pending_showPending (by rw [State.part_updPart_same]; rfl), by rw [part], kept, others⟩
  case merges =>
    intro w p s pass mode running pends
    exact ⟨_, (execTkStrikeWrite_pass pass).trans (congrArg Host.Outcome.next (strike_merges mode running pends)),
      s.f_incF_same _ _ _ (by decide), rfl⟩
  case other =>
    intro w p s pass mode
    refine (execTkStrikeWrite_pass pass).trans (congrArg Host.Outcome.next ?_)
    unfold State.strike
    exact if_pos (.inl mode)
  case grid =>
    intro p s mode running due first may spaced
    exact timedGridPoint_strokes mode running due first may spaced
  case defers =>
    intro p s mode running due first held
    exact timedGridPoint_defers mode running due first held
  case skips =>
    intro p s mode running due late
    exact timedGridPoint_skips mode running due late
  case now =>
    intro p s may spaced idle pends
    exact pendingStrikeStroke_now may spaced idle pends
  case edges =>
    intro falling p s one first held
    exact tickInEdge_pends one first held

end Sys2Proof.Machine
end

section
namespace Sys2Proof.Machine

-- Proved in parallel, these proofs hold a thread each, whose stacks pass the check's memory.
set_option Elab.async false

/-! ## O38: program loads

What the steps of a load leave: the registers of other blocks, and each partition's load and last image. -/

/-- The load and the last image of each partition. -/
def State.images (s : State) := fun r : PartId => ((s.part r).load, (s.part r).image)

theorem State.img_mk {s : State} {pending now timeBase freeCount regs latches stitchers quires flights creditFlights srcs mem
    memMark triggers trackers charges mgn dramFixes sparesUsed remaps notices comps ctlPage cmdArea bar2 msix extents filter
    snoops readWait hostData links spine spNext regAns halfChg thermal staging stageLostAt stageLostN recNext mapCopies
    mapBefore runs tested pulseEnd ioNext tickIn stew} :
    State.images ⟨pending, now, timeBase, freeCount, regs, latches, stitchers, quires, s.parts, flights, creditFlights, srcs,
      mem, memMark, triggers, trackers, charges, mgn, dramFixes, sparesUsed, remaps, notices, comps, ctlPage, cmdArea, bar2,
      msix, extents, filter, snoops, readWait, hostData, links, spine, spNext, regAns, halfChg, thermal, staging, stageLostAt,
      stageLostN, recNext, mapCopies, mapBefore, runs, tested, pulseEnd, ioNext, tickIn, stew⟩ = s.images := (rfl)

theorem State.img_ite {c : Prop} [Decidable c] {a b : State} :
    State.images (if c then a else b) = if c then a.images else b.images := by
  split <;> rfl

theorem State.img_foldl {α : Type} {g : State → α → State} {s : State} (step : ∀ s a, (g s a).images = s.images)
    (xs : List α) : (xs.foldl g s).images = s.images :=
  State.foldl_rest State.images g step xs s

theorem State.img_setSt (s : State) (u : StId) (x : Stitcher) : (s.setSt u x).images = s.images := (rfl)

theorem State.img_updSt (s : State) (u : StId) (f : Stitcher → Stitcher) : (s.updSt u f).images = s.images := (rfl)

theorem State.img_setQu (s : State) (q : QuireId) (x : Quire) : (s.setQu q x).images = s.images := (rfl)

theorem State.img_updQu (s : State) (q : QuireId) (f : Quire → Quire) : (s.updQu q f).images = s.images := (rfl)

theorem State.img_setSrc (s : State) (x : Src) (v : SrcSt) : (s.setSrc x v).images = s.images := (rfl)

theorem State.img_updSrc (s : State) (x : Src) (f : SrcSt → SrcSt) : (s.updSrc x f).images = s.images := (rfl)

theorem State.img_wr (s : State) (b : Nat) (r : Reg) (v : BitVec 32) : (s.wr b r v).images = s.images := (rfl)

theorem State.img_setF (s : State) (b : Nat) (g : Fld) (v : Nat) : (s.setF b g v).images = s.images := (rfl)

theorem State.img_incF (s : State) (b : Nat) (g : Fld) (n : Nat) : (s.incF b g n).images = s.images := (rfl)

theorem State.img_setCnt (s : State) (b : Nat) (lo hi : Reg) (v : Nat) : (s.setCnt b lo hi v).images = s.images := (rfl)

theorem State.img_raise (s : State) (x : Src) (code sev : Nat) (cap : List Nat) : (s.raise x code sev cap).images = s.images :=
  (congrArg State.images (s.raise_rest x code sev cap) :)

theorem State.img_ev (s : State) (x : Src) (code : Nat) (cap : List Nat) : (s.ev x code cap).images = s.images :=
  s.img_raise x code (evSev code) cap

theorem State.img_complete (s : State) (n : Notice) (status result : Nat) : (s.complete n status result).images = s.images :=
  (congrArg State.images (s.complete_rest n status result) :)

theorem State.img_of_parts {s t : State} (h : t.parts = s.parts) : t.images = s.images := by
  funext r
  unfold State.images
  rw [State.part_congr h]

theorem State.img_updPart (s : State) (p : PartId) (g : Part → Part)
    (h : ∀ x : Part, ((g x).load, (g x).image) = (x.load, x.image)) : (s.updPart p g).images = s.images := by
  funext r
  unfold State.images
  by_cases e : r = p
  · subst e
    rw [State.part_updPart_same]
    exact h _
  · rw [State.part_updPart_ne _ _ e]

theorem State.img_advPart (s : State) (n : Nat) (p : PartId) : (s.advPart n p).images = s.images := by
  simp only [State.advPart, State.img_ite, ite_self, implies_true, State.img_updPart]

theorem State.img_advance (s : State) (n : Nat) : (s.advance n).images = s.images := by
  simp only [State.advance, State.img_mk, implies_true, State.img_foldl, State.img_advPart]

theorem State.img_waitCycle (s : State) (p : PartId) (c : Nat) : (s.waitCycle p c).images = s.images := by
  simp only [State.waitCycle, State.img_ite, ite_self, implies_true, State.img_updPart, State.img_advance]

theorem State.img_devWrite (s : State) (ld : Nat) (off : Nat) : (s.devWrite ld off).images = s.images := by
  simp only [State.devWrite, State.img_mk, State.img_ite, ite_self]

theorem State.img_ctlWrite (s : State) (ld off : Nat) (bytes : List (BitVec 8)) :
    (s.ctlWrite ld off bytes).images = s.images := by
  unfold State.ctlWrite
  rw [State.img_devWrite]
  rfl

theorem State.img_completeActing (s : State) (p : PartId) (bit result : Nat) :
    (s.completeActing p bit result).images = s.images := by
  simp only [State.completeActing, implies_true, State.img_foldl, State.img_complete]

theorem State.img_showHeld (s : State) (p : PartId) : (s.showHeld p).images = s.images := by
  simp only [State.showHeld, State.img_ite, ite_self, State.img_setF, State.img_completeActing]

theorem State.img_catchGrid (s : State) (p : PartId) : (s.catchGrid p).images = s.images := by
  simp only [State.catchGrid, State.img_ite, ite_self, implies_true, State.img_updPart, State.img_incF]

theorem State.img_recheck (s : State) (p : PartId) : (s.recheck p).images = s.images := by
  simp only [State.recheck, State.img_ite, ite_self, State.img_setF, State.img_ev]

theorem State.img_holdEnded (s : State) (p : PartId) : (s.holdEnded p).images = s.images := by
  simp only [State.holdEnded, State.img_ite, ite_self, State.img_showHeld, State.img_catchGrid, State.img_recheck]

theorem State.img_dropHold (s : State) (p : PartId) (c : HoldCause) : (s.dropHold p c).images = s.images := by
  simp only [State.dropHold, State.img_ite, ite_self, implies_true, State.img_updPart, State.img_holdEnded]

theorem State.img_showPending (s : State) (p : PartId) : (s.showPending p).images = s.images := by
  simp only [State.showPending, State.img_setF]

theorem State.img_noteFull (s : State) (p : PartId) : (s.noteFull p).images = s.images := by
  unfold State.noteFull
  split <;> simp only [State.img_ite, ite_self, implies_true, State.img_updPart, State.img_incF, State.img_ev]

theorem State.img_setRing (s : State) (p : PartId) (r : Nat) (x : InRing) : (s.setRing p r x).images = s.images :=
  State.img_updPart _ _ _ (fun _ => rfl)

theorem State.img_setCons (s : State) (p : PartId) (r c : Nat) :
    (s.setCons p r c).images = s.images := by
  obtain ⟨f, body⟩ : ∃ f, State.setCons = f := ⟨_, rfl⟩
  rw [body]
  delta State.setCons at body
  subst body
  dsimp only
  split <;> simp only [State.img_setF, State.img_ctlWrite]

theorem State.img_passLines (s : State) (p : PartId) (r lines : Nat) :
    (s.passLines p r lines).images = s.images := by
  simp only [State.passLines, State.img_setRing, State.img_setCons]

theorem State.img_bindRing (s : State) (p : PartId) (tick : Nat) (r : Nat) :
    (s.bindRing p tick r).images = s.images := by
  simp only [State.bindRing, State.img_ite, ite_self, implies_true, State.img_foldl, State.img_updPart, State.img_setF,
    State.img_incF, State.img_setRing, State.img_passLines]

theorem State.img_settleIo (s : State)  : (s.settleIo).images = s.images := by
  unfold State.settleIo
  split <;> simp only [State.img_mk, State.img_ite, ite_self, State.img_wr]

theorem State.img_tickOut (s : State) (p : PartId) : (s.tickOut p).images = s.images := by
  simp only [State.tickOut, State.img_mk, State.img_ite, ite_self, State.img_incF, State.img_settleIo]

theorem State.img_issueStroke (s : State) (p : PartId) (late : Bool) :
    (s.issueStroke p late).images = s.images := by
  simp only [State.issueStroke, State.img_ite, ite_self, implies_true, State.img_foldl, State.img_updPart, State.img_setF,
    State.img_setCnt, State.img_ev, State.img_completeActing, State.img_showHeld, State.img_showPending, State.img_bindRing,
    State.img_tickOut]

theorem State.img_tryStrike (s : State) (p : PartId) (at_ : Nat) (wait : Bool) :
    (s.tryStrike p at_ wait).images = s.images := by
  simp only [State.tryStrike, State.img_ite, ite_self, implies_true, State.img_updPart, State.img_waitCycle,
    State.img_showPending, State.img_issueStroke]

theorem State.img_tryPending (s : State) (p : PartId) (wait : Bool) :
    (s.tryPending p wait).images = s.images := by
  unfold State.tryPending
  simp only []
  split <;> simp only [State.img_ite, ite_self, State.img_incF, State.img_waitCycle, State.img_noteFull,
    State.img_issueStroke, State.img_tryStrike]

theorem State.img_checkEntries (s : State) (q : QuireId) : (s.checkEntries q).images = s.images := by
  unfold State.checkEntries
  refine State.img_foldl (fun t a => ?_) _
  repeat' split
  all_goals simp only [State.img_setF, State.img_ev]

theorem State.f_catchGrid (s : State) (p : PartId) {adr : Nat} {fld : Fld}
    (h : site (adr + fld.reg.off) ∉ [(1, R.TK_INTAKE_STATS.off)]) :
    (s.catchGrid p).f adr fld = s.f adr fld := by
  simp only [State.catchGrid, State.f_ite, ite_self, State.f_updPart, State.f_incF_pt (g := F.TK_INTAKE_STATS_skipped) (h :=
    h) (hw := by decide)]

theorem State.f_recheck (s : State) (p : PartId) {adr : Nat} {fld : Fld}
    (h : site (adr + fld.reg.off) ∉ [(1, R.TK_CTRL.off), (1, 0xB00)]) :
    (s.recheck p).f adr fld = s.f adr fld := by
  simp only [State.recheck, State.f_ite, ite_self, State.f_setF_pt (g := F.TK_CTRL_hold) (h := h) (hw := by decide),
    State.f_ev (h := notMem_of_subset h (by decide))]

theorem State.f_holdEnded (s : State) (p : PartId) {adr : Nat} {fld : Fld}
    (h : site (adr + fld.reg.off) ∉ [(1, R.TK_STATUS.off), (1, R.MB_STAT.off), (1, R.MB_PEND.off), (1,
    R.TK_INTAKE_STATS.off), (1, R.TK_CTRL.off), (1, 0xB00)]) :
    (s.holdEnded p).f adr fld = s.f adr fld := by
  simp only [State.holdEnded, State.f_ite, ite_self, State.f_showHeld (h := notMem_of_subset h (by decide)),
    State.f_catchGrid (h := notMem_of_subset h (by decide)), State.f_recheck (h := notMem_of_subset h (by decide))]

theorem State.f_dropHold (s : State) (p : PartId) (c : HoldCause) {adr : Nat} {fld : Fld}
    (h : site (adr + fld.reg.off) ∉ [(1, R.TK_STATUS.off), (1, R.MB_STAT.off), (1, R.MB_PEND.off), (1,
    R.TK_INTAKE_STATS.off), (1, R.TK_CTRL.off), (1, 0xB00)]) :
    (s.dropHold p c).f adr fld = s.f adr fld := by
  simp only [State.dropHold, State.f_ite, ite_self, State.f_updPart, State.f_holdEnded (h := h)]

theorem State.f_issueStroke (s : State) (p : PartId) (late : Bool) {adr : Nat} {fld : Fld}
    (h : site (adr + fld.reg.off) ∉ [(1, R.TK_STATUS.off), (1, R.TK_COUNT_LO.off), (1, R.TK_COUNT_HI.off), (1, 0xB00), (1,
    R.MB_STAT.off), (1, R.MB_PEND.off), (2, R.CX_IN_SEQ.off), (2, R.CX_IN_STAT.off), (1, R.TK_INTAKE_STATS.off), (2,
    R.CX_IN_CONS.off), (0, R.HB_TICK_IO.off)]) :
    (s.issueStroke p late).f adr fld = s.f adr fld := by
  simp only [State.issueStroke, State.f_ite, ite_self, implies_true, State.f_foldl, State.f_updPart, State.f_setF_pt (g :=
    F.TK_STATUS_phase) (h := h) (hw := by decide), State.f_setF_pt (g := F.TK_STATUS_quires_done) (h := h) (hw := by decide),
    State.f_wr_pt (r := R.TK_COUNT_HI) (h := h) (hw := by decide), State.f_wr_pt (r := R.TK_COUNT_LO) (h := h) (hw := by
    decide), State.setCnt, State.f_ev (h := notMem_of_subset h (by decide)), State.f_completeActing (h := notMem_of_subset h
    (by decide)), State.f_showHeld (h := notMem_of_subset h (by decide)), State.f_showPending (h := notMem_of_subset h (by
    decide)), State.f_bindRing (h := notMem_of_subset h (by decide)), State.f_tickOut (h := notMem_of_subset h (by decide))]

theorem State.f_tryStrike (s : State) (p : PartId) (at_ : Nat) (wait : Bool) {adr : Nat} {fld : Fld}
    (h : site (adr + fld.reg.off) ∉ [(1, R.TK_STATUS.off), (1, R.TK_COUNT_LO.off), (1, R.TK_COUNT_HI.off), (1, 0xB00), (1,
    R.MB_STAT.off), (1, R.MB_PEND.off), (2, R.CX_IN_SEQ.off), (2, R.CX_IN_STAT.off), (1, R.TK_INTAKE_STATS.off), (2,
    R.CX_IN_CONS.off), (0, R.HB_TICK_IO.off)]) :
    (s.tryStrike p at_ wait).f adr fld = s.f adr fld := by
  simp only [State.tryStrike, State.f_ite, ite_self, State.f_ite, ite_self, State.f_updPart, State.f_waitCycle,
    State.f_showPending (h := notMem_of_subset h (by decide)), State.f_issueStroke (h := h)]

theorem State.f_tryPending (s : State) (p : PartId) (wait : Bool) {adr : Nat} {fld : Fld}
    (h : site (adr + fld.reg.off) ∉ [(1, R.TK_STRIKE_STATS.off), (4, R.CX_SLOT_STAT.off), (1, 0xB00), (1, R.TK_STATUS.off),
    (1, R.TK_COUNT_LO.off), (1, R.TK_COUNT_HI.off), (1, R.MB_STAT.off), (1, R.MB_PEND.off), (2, R.CX_IN_SEQ.off), (2,
    R.CX_IN_STAT.off), (1, R.TK_INTAKE_STATS.off), (2, R.CX_IN_CONS.off), (0, R.HB_TICK_IO.off)]) :
    (s.tryPending p wait).f adr fld = s.f adr fld := by
  unfold State.tryPending
  simp only []
  split <;> simp only [State.f_ite, ite_self, State.f_ite, ite_self, State.f_incF_pt (g := F.TK_STRIKE_STATS_spaced) (h := h)
    (hw := by decide), State.f_waitCycle, State.f_noteFull (h := notMem_of_subset h (by decide)), State.f_issueStroke (h :=
    notMem_of_subset h (by decide)), State.f_tryStrike (h := notMem_of_subset h (by decide))]

theorem State.f_parityAt (s : State) (p : Option PartId) (stop cls opcode : Nat) {adr : Nat} {fld : Fld}
    (h : site (adr + fld.reg.off) ∉ [(1, 0xB00), (1, R.SP_STAT.off)]) :
    (s.parityAt p stop cls opcode).f adr fld = s.f adr fld := by
  unfold State.parityAt
  split <;> simp only [State.f_ev (h := notMem_of_subset h (by decide)), State.f_parityDrop (h := notMem_of_subset h (by
    decide))]

theorem State.f_nextSeq (s : State) (stop cls : Nat) (adr : Nat) (fld : Fld) :
    (s.nextSeq stop cls).1.f adr fld = s.f adr fld := by
  simp only [State.nextSeq, State.f_mk]

theorem State.f_spArrive (s : State) (part : Option PartId) (stop dest cls opcode arg : Nat) (drop : Option Hop) {adr : Nat}
    {fld : Fld}
    (h : site (adr + fld.reg.off) ∉ [(1, 0xB00), (1, R.SP_STAT.off)]) :
    (s.spArrive part stop dest cls opcode arg drop).1.f adr fld = s.f adr fld := by
  unfold State.spArrive
  repeat' split
  all_goals simp only [State.f_mk, State.f_parityAt (h := h), State.f_nextSeq]

theorem State.f_checkEntries (s : State) (q : QuireId) {adr : Nat} {fld : Fld}
    (h : site (adr + fld.reg.off) ∉ [(8, R.CH_ROUTE_A.off), (1, 0xB00)]) :
    (s.checkEntries q).f adr fld = s.f adr fld := by
  unfold State.checkEntries
  refine State.f_foldl (fun t a => ?_) _
  repeat' split
  all_goals simp only [State.f_setF_eb (g := F.CH_ROUTE_A_cfg_err) (h := h) (hw := by decide), State.f_ev (h :=
    notMem_of_subset h (by decide))]

theorem State.f_seal (s : State) (u : StId) {adr : Nat} {fld : Fld}
    (h : site (adr + fld.reg.off) ∉ [(6, R.ST_STATUS.off), (1, 0xB00)]) :
    (s.seal u).f adr fld = s.f adr fld := by
  unfold State.seal
  repeat' split
  all_goals simp only [State.f_updSt, State.f_setF_sb (g := F.ST_STATUS_cfg_err) (h := h) (hw := by decide), State.f_setF_sb
    (g := F.ST_STATUS_sealed) (h := h) (hw := by decide), State.f_ev (h := notMem_of_subset h (by decide))]

theorem State.f_setLoad (s : State) (p : PartId) (l : Option Load) (adr : Nat) (fld : Fld) :
    (s.setLoad p l).f adr fld = s.f adr fld := (rfl)

theorem State.f_endLoad (s : State) (p : PartId) {adr : Nat} {fld : Fld}
    (h : site (adr + fld.reg.off) ∉ [(1, R.MB_STAT.off), (1, R.MB_PEND.off), (1, R.TK_STATUS.off), (1,
    R.TK_INTAKE_STATS.off), (1, R.TK_CTRL.off), (1, 0xB00), (1, R.TK_STRIKE_STATS.off), (4, R.CX_SLOT_STAT.off), (1,
    R.TK_COUNT_LO.off), (1, R.TK_COUNT_HI.off), (2, R.CX_IN_SEQ.off), (2, R.CX_IN_STAT.off), (2, R.CX_IN_CONS.off), (0,
    R.HB_TICK_IO.off)]) :
    (s.endLoad p).f adr fld = s.f adr fld := by
  simp only [State.endLoad, State.f_completeActing (h := notMem_of_subset h (by decide)), State.f_dropHold (h :=
    notMem_of_subset h (by decide)), State.f_tryPending (h := notMem_of_subset h (by decide)), State.f_setLoad]

theorem State.f_imageDone (s : State) (p : PartId) (im : Image) {adr : Nat} {fld : Fld}
    (h : site (adr + fld.reg.off) ∉ [(1, R.RS_IMAGE.off), (8, R.CH_ROUTE_A.off), (1, 0xB00)]) :
    (s.imageDone p im).f adr fld = s.f adr fld := by
  simp only [State.imageDone, implies_true, State.f_foldl, State.f_updPart, State.f_wr_pt (r := R.RS_IMAGE) (h := h) (hw :=
    by decide), State.f_checkEntries (h := notMem_of_subset h (by decide))]

/-! ### A message of the loader that arrives at once -/

/-- The device with other messages in the spine. -/
def State.withSpine (s : State) (l : List SpMsg) (m : Sparse Nat) : State := { s with spine := l, spNext := m }

theorem State.f_withSpine (s : State) (l : List SpMsg) (m : Sparse Nat) : (s.withSpine l m).f = s.f := rfl

theorem State.st_withSpine (s : State) (l : List SpMsg) (m : Sparse Nat) : (s.withSpine l m).st = s.st := rfl

theorem State.mem_withSpine (s : State) (l : List SpMsg) (m : Sparse Nat) : (s.withSpine l m).mem = s.mem := rfl

theorem State.quires_withSpine (s : State) (l : List SpMsg) (m : Sparse Nat) : (s.withSpine l m).quires = s.quires := rfl

theorem State.memories_withSpine (s : State) (l : List SpMsg) (m : Sparse Nat) : (s.withSpine l m).memories = s.memories := rfl

/-- With nothing in the spine a message that no stop drops arrives. -/
theorem State.spArrive_first {s : State} (empty : s.spine = []) (part : Option PartId) (stop dest cls opcode arg : Nat) :
    ∃ l m, s.spArrive part stop dest cls opcode arg none = (s.withSpine l m, true) := by
  unfold State.spArrive
  rw [empty]
  exact ⟨_, _, rfl⟩

/-! ### The load's display -/

theorem State.showLoad_state (s : State) (p : PartId) (im : Image) (st round : Nat) :
    (s.showLoad p im st round).f (pt p) F.SP_LOAD_state = st % 2 ^ F.SP_LOAD_state.w := by
  unfold State.showLoad
  rw [State.f_setF_field (g := F.SP_LOAD_unsealed) (k := F.SP_LOAD_state) _ _ _ rfl (by decide),
    State.f_setF_field (g := F.SP_LOAD_round) (k := F.SP_LOAD_state) _ _ _ rfl (by decide), State.f_setF_same _ _ _ _ (by decide)]

theorem State.img_showLoad (s : State) (p : PartId) (im : Image) (st round : Nat) :
    (s.showLoad p im st round).images = s.images := by
  simp only [State.showLoad, State.img_setF]

theorem State.part_setLoad (s : State) (p : PartId) (l : Option Load) :
    (s.setLoad p l).part p = { s.part p with load := l } := s.part_updPart_same ..

theorem State.loadOf_of_images {s t : State} (h : t.images = s.images) (p : PartId) : t.loadOf p = s.loadOf p :=
  congrArg Prod.fst (congrFun h p)

theorem State.image_of_images {s t : State} (h : t.images = s.images) (p : PartId) :
    (t.part p).image = (s.part p).image :=
  congrArg Prod.snd (congrFun h p)

theorem State.loadOf_setLoad (s : State) (p : PartId) (l : Option Load) : (s.setLoad p l).loadOf p = l := by
  rw [State.loadOf, State.part_setLoad]

/-- A round with answers outstanding goes on (R213). -/
theorem State.endRound_waits {s : State} {p : PartId} {l : Load} (some_ : s.loadOf p = some l) (waits : l.waiting ≠ []) :
    s.endRound p = s.showLoad p l.image 3 l.round := by
  unfold State.endRound
  rw [some_]
  exact if_pos waits

theorem State.endRound_done {s : State} {p : PartId} {l : Load} (some_ : s.loadOf p = some l) (none_ : l.waiting = [])
    (sealed : s.unsealed l.image = []) : s.endRound p = s.loadDone p l := by
  unfold State.endRound
  rw [some_]
  simp only [none_, sealed, ne_eq, not_true_eq_false, if_false, if_true]

/-- A load that is set with answers outstanding shows that it waits. -/
theorem setLoad_endRound (s : State) (p : PartId) {l : Load} (waits : l.waiting ≠ []) :
    let t := (s.setLoad p (some l)).endRound p
    t.loadOf p = some l ∧ t.f (pt p) F.SP_LOAD_state = 3 ∧ t.memories = s.memories := by
  dsimp only
  rw [State.endRound_waits (s.loadOf_setLoad p (some l)) waits]
  refine ⟨?_, ?_, ?_⟩
  · rw [State.loadOf_of_images (State.img_showLoad ..), State.loadOf_setLoad]
  · rw [State.showLoad_state]
    rfl
  · rw [State.memories_showLoad, State.memories_setLoad]

/-! ### The end of a load -/

theorem State.unsealed_of_sealed {s : State} {im : Image} (h : ∀ x ∈ im.stitchers, s.f (sb x.u) F.ST_STATUS_sealed = 1) :
    s.unsealed im = [] := by
  unfold State.unsealed
  refine List.filter_eq_nil_iff.mpr fun x hx => ?_
  rw [h x hx]
  decide

theorem State.endLoad_images (s : State) (p : PartId) : (s.endLoad p).images = (s.setLoad p none).images := by
  unfold State.endLoad
  dsimp only
  rw [State.img_completeActing, State.img_tryPending, State.img_dropHold]

theorem State.memories_endLoad (s : State) (p : PartId) : (s.endLoad p).memories = s.memories := by
  unfold State.endLoad
  dsimp only
  rw [State.memories_completeActing, State.memories_tryPending, State.memories_dropHold, State.memories_setLoad]

/-- The image that a load ends with is the partition's last one. -/
theorem State.imageDone_image (s : State) (p : PartId) (im : Image) : ((s.imageDone p im).part p).image = some im := by
  unfold State.imageDone
  dsimp only
  rw [State.image_of_images (State.img_foldl (fun t q => t.img_checkEntries q) _), State.part_updPart_same]

/-- A load that is done (R213): no load, its image the last one, SP_LOAD at 5. -/
theorem loadDone_ends (s : State) (p : PartId) (l : Load) :
    let t := s.loadDone p l
    (t.part p).load = none ∧ (t.part p).image = some l.image ∧ t.f (pt p) F.SP_LOAD_state = 5 ∧ t.memories = s.memories := by
  dsimp only
  unfold State.loadDone
  have images := State.endLoad_images ((s.showLoad p l.image 5 l.round).imageDone p l.image) p
  refine ⟨(State.loadOf_of_images images p).trans (State.loadOf_setLoad ..), ?_, ?_, ?_⟩
  · rw [State.image_of_images images, State.part_setLoad]
    exact State.imageDone_image _ p l.image
  · rw [State.f_endLoad _ _ (pt_notMem p (by decide)), State.f_imageDone _ _ _ (pt_notMem p (by decide)), State.showLoad_state]
    rfl
  · rw [State.memories_endLoad, State.memories_imageDone, State.memories_showLoad]

/-! ### The start of a load -/

theorem State.f_setPhase (s : State) (n : Notice) (ph : NoticePhase) : (s.setPhase n ph).f = s.f := rfl

theorem State.stew_setPhase (s : State) (n : Notice) (ph : NoticePhase) : (s.setPhase n ph).stew = s.stew := rfl

theorem State.present_congr {s t : State} (same : ∀ r i, i < 8 → t.f (pt r) (F.MS_MAP_absent.nth i) = s.f (pt r) (F.MS_MAP_absent.nth i))
    (q : QuireId) : t.present q = s.present q := by
  unfold State.present
  rw [same _ (localOf q) (Nat.mod_lt _ (by decide))]

theorem State.tileOf_congr {s t : State} (same : ∀ r i, i < 8 → t.f (pt r) (F.MS_MAP_tile.nth i) = s.f (pt r) (F.MS_MAP_tile.nth i))
    (q : QuireId) : t.tileOf q = s.tileOf q := by
  unfold State.tileOf
  rw [same _ (localOf q) (Nat.mod_lt _ (by decide))]

/-- The estimate of an image is that of a device with the same clock, map and restrictions (R32, R280). -/
theorem State.estimate_congr {s t : State} (clock : ∀ r, t.f (pt r) F.TK_STATUS_clock = s.f (pt r) F.TK_STATUS_clock)
    (present : ∀ q, t.present q = s.present q) (tile : ∀ q, t.tileOf q = s.tileOf q) (stew : t.stew = s.stew) (p : PartId)
    (im : Image) : t.estimate p im = s.estimate p im := by
  unfold State.estimate State.imageWatts State.raiseOf State.quiresOf
  simp only [clock, stew, present, tile]

theorem State.badShape_congr {s t : State} (present : ∀ q, t.present q = s.present q) (p : PartId) (im : Image) :
    t.badShape p im = s.badShape p im := by
  unfold State.badShape
  simp only [present]

/-- A hold shows in no field of TK_STATUS but its own. -/
theorem State.addHold_clock (s : State) (p r : PartId) (c : HoldCause) :
    (s.addHold p c).f (pt r) F.TK_STATUS_clock = s.f (pt r) F.TK_STATUS_clock := by
  have held (t : State) (v : Nat) : (t.setF (pt p) F.TK_STATUS_held v).f (pt r) F.TK_STATUS_clock = t.f (pt r) F.TK_STATUS_clock := by
    by_cases e : r = p
    · subst e
      exact t.f_setF_field _ v rfl (by decide)
    · refine t.f_setF_reg v fun a => e (Fin.ext ?_)
      simp only [pt, F.TK_STATUS_held, F.TK_STATUS_clock] at a
      omega
  have done (t : State) (n : Nat) : (t.completeActing p 3 n).f (pt r) F.TK_STATUS_clock = t.f (pt r) F.TK_STATUS_clock :=
    t.f_completeActing p 3 n (pt_notMem r (by decide))
  unfold State.addHold State.noteHold State.showHeld
  dsimp only
  split <;> simp only [done, held, State.f_updPart]

/-- The device that a load finds when its checks are made. -/
def State.loadStarted (s : State) (p : PartId) (n : Notice) : State :=
  ((s.setPhase n .acting).addHold p .load).wr (pt p) R.SP_LOAD_STAT 0

theorem State.f_loadStarted (s : State) (p : PartId) (n : Notice) {b : Nat} {k : Fld}
    (h : site (b + k.reg.off) ∉ [(1, R.TK_STATUS.off), (1, R.MB_STAT.off), (1, R.MB_PEND.off), (1, R.SP_LOAD_STAT.off)]) :
    (s.loadStarted p n).f b k = s.f b k := by
  unfold State.loadStarted
  rw [State.f_wr_pt (h := h) (hw := by decide), State.f_addHold _ _ _ (notMem_of_subset h (by decide)), State.f_setPhase]

theorem State.loadStarted_checks (s : State) (p : PartId) (n : Notice) (im : Image) :
    (s.loadStarted p n).estimate p im = s.estimate p im ∧ (s.loadStarted p n).badShape p im = s.badShape p im := by
  have map_ {g : Fld} (lt : g.reg.off = 0x300) (r : PartId) (i : Nat) (h : i < 8) :
      (s.loadStarted p n).f (pt r) (g.nth i) = s.f (pt r) (g.nth i) := by
    refine s.f_loadStarted p n ?_
    have : (g.nth i).reg.off = 0x300 + 4 * i := by rw [← lt]; rfl
    rw [this]
    interval_cases i <;> exact pt_notMem r (by decide)
  have present := State.present_congr (map_ (g := F.MS_MAP_absent) rfl)
  have tile := State.tileOf_congr (map_ (g := F.MS_MAP_tile) rfl)
  refine ⟨State.estimate_congr (fun r => ?_) present tile ?_ p im, State.badShape_congr present p im⟩
  · unfold State.loadStarted
    rw [State.f_wr_pt (W := [(1, R.SP_LOAD_STAT.off)]) (pt_notMem r (by decide)) p _ (by decide), State.addHold_clock,
      State.f_setPhase]
  · unfold State.loadStarted
    rw [State.stew_wr, State.stew_addHold, State.stew_setPhase]

theorem startLoad_loads {s : State} {p : PartId} {n : Notice} {im : Image} (fits : s.estimate p im ≤ s.f (pt p) F.PW_BUDGET_watts * 100)
    (shape : s.badShape p im = false) :
    let t := (s.setPhase n .acting).startLoad p im
    loading t p im 0 [] ∧ t.f (pt p) F.SP_LOAD_state = 1 := by
  obtain ⟨estimate, shape'⟩ := s.loadStarted_checks p n im
  have budget : (s.loadStarted p n).f (pt p) F.PW_BUDGET_watts = s.f (pt p) F.PW_BUDGET_watts :=
    s.f_loadStarted p n (pt_notMem p (by decide))
  have run : ∃ u l, (s.setPhase n .acting).startLoad p im = (State.setLoad u p (some l)).showLoad p im 1 1 ∧ l.image = im ∧
      l.round = 0 ∧ l.waiting = [] := by
    unfold State.startLoad
    dsimp only
    rw [show ((s.setPhase n .acting).addHold p .load).wr (pt p) R.SP_LOAD_STAT 0 = s.loadStarted p n from rfl,
      if_neg (by rw [budget, estimate]; omega), if_neg (by rw [shape', shape]; decide)]
    exact ⟨_, _, rfl, rfl, rfl, rfl⟩
  obtain ⟨u, l, run, image, round, waiting⟩ := run
  dsimp only
  rw [run]
  refine ⟨⟨l, (State.loadOf_of_images (State.img_showLoad ..) p).trans (State.loadOf_setLoad ..), image, round, waiting⟩, ?_⟩
  rw [State.showLoad_state]
  rfl

/-! ### The packets of a load -/

theorem chunkOf_length (l : List (BitVec 8)) (i : Nat) : (chunkOf l i).length = 32 := by
  unfold chunkOf
  simp only [List.length_append, List.length_replicate, List.length_take]
  omega

/-- A chunk of pocket memory stands in it, and its arrival is noted (R212). -/
theorem putChunk_pocket (x : Stitcher) (i : Nat) (l : List (BitVec 8)) :
    (x.putChunk 1 i (chunkOf l i)).arrived (1, i) = true ∧
      memRead (x.putChunk 1 i (chunkOf l i)).pocket (32 * i) 32 = chunkOf l i := by
  refine ⟨spGet_spSet_same false x.loadMap (1024 * 1 + i) true, ?_⟩
  have h := memRead_memWrite x.pocket (32 * i) (chunkOf l i)
  rwa [chunkOf_length] at h

theorem State.dropAt_nil (s : State) (p : PartId) (opcode : Nat) : s.dropAt p [] opcode = s := rfl

theorem loadData_named {p : PartId} {x : StImage} {chunk : Fin 512} (here : partOf x.u.quire = p)
    (counted : chunk.val < imCount x 1) (gaps : List (StId × Nat × Nat)) :
    [x].filter (fun y => decide (partOf y.u.quire = p) && (255 : BitVec 8).getLsbD (localOf y.u.quire) &&
      (BitVec.allOnes 64).getLsbD y.u.st.val && decide (chunk.val < imCount y 1) &&
      (!false || gaps.contains (y.u, 1, chunk.val))) = [x] := by
  have lane : (255 : BitVec 8).getLsbD (localOf x.u.quire) = true := by
    rw [show (255 : BitVec 8) = BitVec.allOnes 8 from rfl, BitVec.getLsbD_allOnes]
    exact decide_eq_true (Nat.mod_lt _ (by decide))
  have unit : (BitVec.allOnes 64).getLsbD x.u.st.val = true := by
    rw [BitVec.getLsbD_allOnes]
    exact decide_eq_true x.u.st.isLt
  simp only [List.filter_cons, List.filter_nil, here, lane, unit, counted, decide_true, Bool.and_self, Bool.not_false,
    Bool.true_or, if_true]

theorem execLoadData_one {s : State} {p : PartId} {im : Image} {x : StImage} {chunk : Fin 512} (load : loading s p im 0 [])
    (one : im.stitchers = [x]) (here : partOf x.u.quire = p) (counted : chunk.val < imCount x 1) (up : s.halfDown p = false) :
    execLoadData p 255 (BitVec.allOnes 64) 1 chunk [] [] 0 0 s =
      .next ((s.putChunk x.u 1 chunk.val (chunkOf (imBytes x 1) chunk.val)).setF (pt p) F.SP_LOAD_state 2) := by
  obtain ⟨l, some_, rfl, round, waits⟩ := load
  have some' : s.loadOf p = some l := some_
  have stops : dropStops [] [] = [] := rfl
  have none_ : s.missedBy p [] = [] := rfl
  have space : ((1 : Fin 3) : Nat) = 1 := rfl
  have straight (i : Nat) : (0 : BitVec 8).getLsbD i = false := BitVec.getLsbD_zero
  unfold execLoadData
  rw [some']
  simp only [one, round, show decide (0 < 0) = false from rfl, space, loadData_named here counted l.gaps, stops, none_]
  simp only [waits, up, State.dropAt_nil, straight, ne_eq, not_true_eq_false, reduceCtorEq, if_false, List.filter_cons,
    List.filter_nil, List.contains_nil, Bool.not_false, if_true, List.foldl_cons, List.foldl_nil]

theorem State.putChunk_one (s : State) (u : StId) (i : Nat) (b : List (BitVec 8)) :
    s.putChunk u 1 i b = s.updSt u (fun x => x.putChunk 1 i b) := rfl

/-- A chunk of pocket memory reaches the one stitcher of an image. -/
theorem loadData_pocket {s : State} {p : PartId} {im : Image} {x : StImage} {chunk : Fin 512} (load : loading s p im 0 [])
    (one : im.stitchers = [x]) (here : partOf x.u.quire = p) (counted : chunk.val < imCount x 1) (up : s.halfDown p = false) :
    ∃ t, exec (.loadData p 255 (BitVec.allOnes 64) 1 chunk [] [] 0 0) s = .next t ∧ t.f (pt p) F.SP_LOAD_state = 2 ∧
      (t.st x.u).arrived (1, chunk.val) = true ∧
      memRead (t.st x.u).pocket (32 * chunk.val) 32 = chunkOf (imBytes x 1) chunk.val ∧
      (∀ v, v ≠ x.u → t.st v = s.st v) ∧ t.mem = s.mem ∧ t.quires = s.quires := by
  obtain ⟨arrives, stands⟩ := putChunk_pocket (s.st x.u) chunk.val (imBytes x 1)
  have run : exec (.loadData p 255 (BitVec.allOnes 64) 1 chunk [] [] 0 0) s = _ := execLoadData_one load one here counted up
  rw [State.putChunk_one] at run
  refine ⟨_, run, State.f_setF_same _ _ _ _ (by decide), ?_, ?_, fun v hv => ?_, ?_, ?_⟩
  · rwa [State.st_setF, State.st_updSt_same]
  · rwa [State.st_setF, State.st_updSt_same]
  · rw [State.st_setF, State.st_updSt_ne _ _ hv]
  · rw [State.setF_mem, State.updSt_mem]
  · rw [State.setF_quires, State.updSt_quires]

/-! ### The answers -/

/-- LOAD.END asks every stitcher of a first round. -/
theorem loadEnd_asks {s : State} {p : PartId} {im : Image} (load : loading s p im 0 []) (some_ : im.stitchers ≠ [])
    (up : s.halfDown p = false) :
    ∃ t, exec (.loadEnd p [] []) s = .next t ∧ loading t p im 1 (im.stitchers.map (fun x => x.u)) ∧
      t.f (pt p) F.SP_LOAD_state = 3 ∧ MemoriesKept s t := by
  obtain ⟨l, is, rfl, round, waits⟩ := load
  have is' : s.loadOf p = some l := is
  have stops : dropStops [] [] = [] := rfl
  have run : ∃ (v : State) (k : Load), execLoadEnd p [] [] s = .next ((v.setLoad p (some k)).endRound p) ∧ k.image = l.image ∧
      k.round = 1 ∧ k.waiting = l.image.stitchers.map (fun x => x.u) ∧ v.memories = s.memories := by
    unfold execLoadEnd
    rw [is']
    simp only [waits, up, stops, State.dropAt_nil, ne_eq, not_true_eq_false, reduceCtorEq, if_false, round, if_true]
    exact ⟨_, _, rfl, rfl, rfl, rfl, State.memories_foldl (fun t (x : StImage) => t.memories_seal x.u) _⟩
  obtain ⟨v, k, run, image, round', waiting, kept⟩ := run
  obtain ⟨stands, shown, memories⟩ := setLoad_endRound v p (l := k) (by rw [waiting]; simpa using some_)
  exact ⟨_, run, ⟨k, stands, image, round', waiting⟩, shown, memoriesKept_of (memories.trans kept)⟩

/-- An answer of a sealed stitcher (R213). -/
theorem execLoadStat_sealed {s : State} {u : StId} {l : Load} {x : StImage} (image : s.imageOf u = some (l, x))
    (asked : u ∈ l.waiting) (hears : u ∉ l.deaf) (sealed : s.f (sb u) F.ST_STATUS_sealed = 1) (empty : s.spine = []) :
    ∃ a b, execLoadStat u none s = .next ((s.withSpine a b).answered l u [] 0) := by
  obtain ⟨a, b, arrives⟩ := State.spArrive_first empty (some (partOf u.quire)) (s.tileOf u.quire) 38 4 0x2B u.key
  refine ⟨a, b, ?_⟩
  unfold execLoadStat
  rw [image]
  simp only [List.contains_eq_mem, asked, hears, decide_true, decide_false, reduceCtorEq, or_self, if_false, arrives,
    State.f_withSpine, sealed, if_true]

/-- An answer that leaves others outstanding. -/
theorem answered_waits (s : State) {l : Load} {u : StId} (more : l.waiting.erase u ≠ []) (gaps : List (Nat × Nat)) (n : Nat) :
    let t := s.answered l u gaps n
    ∃ k, t.loadOf (partOf u.quire) = some k ∧ k.image = l.image ∧ k.round = l.round ∧ k.waiting = l.waiting.erase u ∧
      k.gaps = l.gaps ++ gaps.map (fun c => (u, c.1, c.2)) ∧ t.f (pt (partOf u.quire)) F.SP_LOAD_state = 3 ∧
      t.memories = s.memories := by
  obtain ⟨stands, shown, memories⟩ := setLoad_endRound s (partOf u.quire)
    (l := { l with waiting := l.waiting.erase u, gaps := l.gaps ++ gaps.map (fun c => (u, c.1, c.2)), faulty := l.faulty + n })
    more
  exact ⟨_, stands, rfl, rfl, rfl, rfl, shown, memories⟩

/-- The last answer of a load whose stitchers are all sealed. -/
theorem answered_last (s : State) {l : Load} {u : StId} (last : l.waiting = [u])
    (sealed : ∀ y ∈ l.image.stitchers, s.f (sb y.u) F.ST_STATUS_sealed = 1) :
    let t := s.answered l u [] 0
    (t.part (partOf u.quire)).load = none ∧ (t.part (partOf u.quire)).image = some l.image ∧
      t.f (pt (partOf u.quire)) F.SP_LOAD_state = 5 ∧ t.memories = s.memories := by
  dsimp only
  unfold State.answered
  have done : l.waiting.erase u = [] := by rw [last, List.erase_cons_head]
  dsimp only
  rw [State.endRound_done (s.loadOf_setLoad _ _) done (State.unsealed_of_sealed fun y hy => by
    rw [State.f_setLoad]
    exact sealed y hy)]
  obtain ⟨load, image, shown, memories⟩ := loadDone_ends (s.setLoad (partOf u.quire) (some { l with
    waiting := l.waiting.erase u, gaps := l.gaps ++ ([] : List (Nat × Nat)).map (fun c => (u, c.1, c.2)), faulty := l.faulty + 0 }))
    (partOf u.quire) { l with waiting := l.waiting.erase u, gaps := l.gaps ++ ([] : List (Nat × Nat)).map (fun c => (u, c.1, c.2)), faulty := l.faulty + 0 }
  exact ⟨load, image, shown, memories.trans (State.memories_setLoad ..)⟩

/-- Settles O38: every packet and answer of a load leaves the load that the next one finds. -/
theorem programLoads : Obligations.ProgramLoads := by
  unfold Obligations.ProgramLoads
  refine ⟨?doorbell, ?header, ?chunk, ?ends, ?answer, ?last, ?silent⟩
  case doorbell =>
    intro p im n s delivered pointer stopped fits shape
    have run : exec (.doorbellProgramLoad p im) s = .next ((s.setPhase n .acting).startLoad p im) := by
      show execDoorbellProgramLoad p im s = _
      unfold execDoorbellProgramLoad
      rw [delivered]
      simp only [pointer, stopped, ne_eq, not_true_eq_false, reduceCtorEq, false_and, if_false]
    exact ⟨_, run, startLoad_loads fits shape⟩
  case header =>
    intro u im l s image rfl empty present up
    obtain ⟨a, b, arrives⟩ := State.spArrive_first empty (some (partOf im.u.quire)) 38 im.u.quire.val 4 0x28 im.u.key
    have run : exec (.loadBegin im.u none) s = .next ((s.withSpine a b).begin im) := by
      show execLoadBegin im.u none s = _
      unfold execLoadBegin
      rw [image]
      simp only [present, up, arrives, reduceCtorEq, if_false, if_true]
    refine ⟨_, run, ?_, fun v hv => ?_, ?_, ?_⟩
    · rw [State.begin, State.st_updSt_same]
    · rw [State.begin, State.st_updSt_ne _ _ hv, State.st_withSpine]
    · rw [State.begin, State.updSt_mem, State.mem_withSpine]
    · rw [State.begin, State.updSt_quires, State.quires_withSpine]
  case chunk =>
    intro p im x chunk s load one here counted up
    exact loadData_pocket load one here counted up
  case ends =>
    intro p im s load some_ up _
    exact loadEnd_asks load some_ up
  case answer =>
    intro u im x l s image asked hears more sealed empty rfl
    obtain ⟨a, b, run⟩ := execLoadStat_sealed image asked hears sealed empty
    obtain ⟨k, stands, same, round, waiting, -, shown, memories⟩ := answered_waits (s.withSpine a b) more [] 0
    exact ⟨_, run, ⟨k, stands, same, round, waiting⟩, shown, memoriesKept_of (memories.trans (State.memories_withSpine ..))⟩
  case last =>
    intro u x l s image last hears all empty sealed _
    obtain ⟨a, b, run⟩ := execLoadStat_sealed image (by rw [last]; exact List.mem_cons_self) hears sealed empty
    obtain ⟨none_, done, shown, memories⟩ := answered_last (s.withSpine a b) last fun y hy => by
      rw [State.f_withSpine]
      exact all y hy
    exact ⟨_, run, none_, done, shown, memoriesKept_of (memories.trans (State.memories_withSpine ..))⟩
  case silent =>
    intro u x l s image asked more late
    have run : exec (.loadAnswerTimeout u) s = .next (s.answered l u (imChunks x) 0) := by
      show execLoadAnswerTimeout u s = _
      unfold execLoadAnswerTimeout
      rw [image]
      simp only [List.contains_eq_mem, asked, decide_true, reduceCtorEq, if_false, State.waitNs, late, if_true]
    obtain ⟨k, stands, -, -, waiting, gaps, -, memories⟩ := answered_waits s more (imChunks x) 0
    exact ⟨_, k, run, stands, waiting, gaps, memoriesKept_of memories⟩

end Sys2Proof.Machine
end

section
namespace Sys2Proof.Machine

-- Proved in parallel, these proofs hold a thread each, whose stacks pass the check's memory.
set_option Elab.async false

/-! ## O41: the window and the link

What a read of a host leaves, and the notices that stand. -/

theorem State.parts_fst_ite {α : Type} {c : Prop} [Decidable c] {a b : State × α} :
    State.parts (if c then a else b).1 = if c then a.1.parts else b.1.parts := by
  split <;> rfl

theorem State.parts_useFree (s : State)  : (s.useFree).parts = s.parts := (rfl)

theorem State.parts_charge (s : State) (p : PartId) (unit : HwUnit) (code : Nat) (resolved : Bool) :
    (s.charge p unit code resolved).parts = s.parts := by
  simp only [State.charge, State.parts_ite, ite_self]

theorem State.parts_colAdd (s : State) (sec off n : Nat) : (s.colAdd sec off n).parts = s.parts := by
  simp only [State.colAdd, State.parts_mk]

theorem State.parts_countEcc (s : State) (p : PartId) (a : Nat) : (s.countEcc p a).parts = s.parts := by
  unfold State.countEcc
  split <;> simp only [State.parts_incF, State.parts_colAdd]

theorem State.parts_pmRead (s : State) (p : PartId) (a n : Nat) : (s.pmRead p a n).1.parts = s.parts := by
  simp only [State.pmRead, implies_true, State.parts_foldl, State.parts_countEcc]

theorem State.parts_setBar2 (s : State) (a : Nat) (v : BitVec 8) : (s.setBar2 a v).parts = s.parts := (rfl)

theorem State.parts_msi (s : State) (ld vec : Nat) : (s.msi ld vec).parts = s.parts := by
  simp only [State.msi, State.parts_ite, ite_self, State.parts_setBar2]

theorem State.parts_hostMem (s : State) (ld : LdId) (p : PartId) (a : Nat) : (s.hostMem ld p a).1.parts = s.parts := by
  unfold State.hostMem
  simp only [State.parts_fst_ite, State.parts_useFree]
  repeat' split
  all_goals simp only [State.parts_charge, State.parts_pmRead, State.parts_ev, State.parts_msi]

theorem State.parts_mirrorLine (s : State) (ld : LdId) (x : Src) (o : Nat) : (s.mirrorLine ld x o).1.parts = s.parts := by
  unfold State.mirrorLine
  split <;> simp only [State.parts_fst_ite, ite_self, State.parts_hostMem]

theorem State.parts_partLine (s : State) (ld : LdId) (p : PartId) (o : Nat) : (s.partLine ld p o).1.parts = s.parts := by
  simp only [State.partLine, State.parts_fst_ite, ite_self, State.parts_hostMem, State.parts_mirrorLine]

theorem State.parts_hostLine (s : State) (ld : LdId) (o : Nat) : (s.hostLine ld o).1.parts = s.parts := by
  unfold State.hostLine
  repeat' split
  all_goals simp only [State.parts_hostMem, State.parts_mirrorLine, State.parts_partLine]

theorem State.parts_answerLine (s : State) (ld : LdId) (line : Nat) : (s.answerLine ld line).parts = s.parts := by
  simp only [State.answerLine, State.parts_mk, State.parts_hostLine]

/-- The notices that stand. -/
def State.posted (s : State) := s.notices

theorem State.post_mk {s : State} {pending now timeBase freeCount regs latches stitchers quires parts flights creditFlights
    srcs mem memMark triggers trackers charges mgn dramFixes sparesUsed remaps comps ctlPage cmdArea bar2 msix extents filter
    snoops readWait hostData links spine spNext regAns halfChg thermal staging stageLostAt stageLostN recNext mapCopies
    mapBefore runs tested pulseEnd ioNext tickIn stew} :
    State.posted ⟨pending, now, timeBase, freeCount, regs, latches, stitchers, quires, parts, flights, creditFlights, srcs,
      mem, memMark, triggers, trackers, charges, mgn, dramFixes, sparesUsed, remaps, s.notices, comps, ctlPage, cmdArea, bar2,
      msix, extents, filter, snoops, readWait, hostData, links, spine, spNext, regAns, halfChg, thermal, staging, stageLostAt,
      stageLostN, recNext, mapCopies, mapBefore, runs, tested, pulseEnd, ioNext, tickIn, stew⟩ = s.posted := (rfl)

theorem State.post_ite {c : Prop} [Decidable c] {a b : State} :
    State.posted (if c then a else b) = if c then a.posted else b.posted := by
  split <;> rfl

theorem State.post_foldl {α : Type} {g : State → α → State} {s : State} (step : ∀ s a, (g s a).posted = s.posted)
    (xs : List α) : (xs.foldl g s).posted = s.posted :=
  State.foldl_rest State.posted g step xs s

theorem State.post_setSt (s : State) (u : StId) (x : Stitcher) : (s.setSt u x).posted = s.posted := (rfl)

theorem State.post_updSt (s : State) (u : StId) (f : Stitcher → Stitcher) : (s.updSt u f).posted = s.posted := (rfl)

theorem State.post_setQu (s : State) (q : QuireId) (x : Quire) : (s.setQu q x).posted = s.posted := (rfl)

theorem State.post_updQu (s : State) (q : QuireId) (f : Quire → Quire) : (s.updQu q f).posted = s.posted := (rfl)

theorem State.post_setPart (s : State) (p : PartId) (x : Part) : (s.setPart p x).posted = s.posted := (rfl)

theorem State.post_updPart (s : State) (p : PartId) (f : Part → Part) : (s.updPart p f).posted = s.posted := (rfl)

theorem State.post_setSrc (s : State) (x : Src) (v : SrcSt) : (s.setSrc x v).posted = s.posted := (rfl)

theorem State.post_updSrc (s : State) (x : Src) (f : SrcSt → SrcSt) : (s.updSrc x f).posted = s.posted := (rfl)

theorem State.post_wr (s : State) (b : Nat) (r : Reg) (v : BitVec 32) : (s.wr b r v).posted = s.posted := (rfl)

theorem State.post_setF (s : State) (b : Nat) (g : Fld) (v : Nat) : (s.setF b g v).posted = s.posted := (rfl)

theorem State.post_incF (s : State) (b : Nat) (g : Fld) (n : Nat) : (s.incF b g n).posted = s.posted := (rfl)

theorem State.post_setCnt (s : State) (b : Nat) (lo hi : Reg) (v : Nat) : (s.setCnt b lo hi v).posted = s.posted := (rfl)

theorem State.post_raise (s : State) (x : Src) (code sev : Nat) (cap : List Nat) : (s.raise x code sev cap).posted = s.posted :=
  (congrArg State.posted (s.raise_rest x code sev cap) :)

theorem State.post_ev (s : State) (x : Src) (code : Nat) (cap : List Nat) : (s.ev x code cap).posted = s.posted :=
  s.post_raise x code (evSev code) cap

theorem State.post_logReset (s : State) (scope target : Nat) : (s.logReset scope target).posted = s.posted := (rfl)

theorem State.post_devClearLd (s : State) (l : LdId) (lo hi : Nat) : (s.devClearLd l lo hi).posted = s.posted := by
  simp only [State.devClearLd, State.post_mk]

theorem State.post_showPend (s : State) (mailbox : Nat) : (s.showPend mailbox).posted = s.posted := by
  unfold State.showPend
  split <;> simp only [State.post_setF]

theorem State.post_dropRotation (s : State) (p : PartId) (cause : Nat) :
    (s.dropRotation p cause).posted = s.posted := by
  unfold State.dropRotation
  split <;> simp only [State.post_ite, ite_self, State.post_updQu, State.post_updPart, State.post_setF,
    State.post_setCnt, State.post_ev]

/-- The control pages of the LDs. -/
def State.controls (s : State) := s.ctlPage

theorem State.ctl_mk {s : State} {pending now timeBase freeCount regs latches stitchers quires parts flights creditFlights
    srcs mem memMark triggers trackers charges mgn dramFixes sparesUsed remaps notices comps cmdArea bar2 msix extents filter
    snoops readWait hostData links spine spNext regAns halfChg thermal staging stageLostAt stageLostN recNext mapCopies
    mapBefore runs tested pulseEnd ioNext tickIn stew} :
    State.controls ⟨pending, now, timeBase, freeCount, regs, latches, stitchers, quires, parts, flights, creditFlights, srcs,
      mem, memMark, triggers, trackers, charges, mgn, dramFixes, sparesUsed, remaps, notices, comps, s.ctlPage, cmdArea, bar2,
      msix, extents, filter, snoops, readWait, hostData, links, spine, spNext, regAns, halfChg, thermal, staging, stageLostAt,
      stageLostN, recNext, mapCopies, mapBefore, runs, tested, pulseEnd, ioNext, tickIn, stew⟩ = s.controls := (rfl)

theorem State.ctl_ite {c : Prop} [Decidable c] {a b : State} :
    State.controls (if c then a else b) = if c then a.controls else b.controls := by
  split <;> rfl

theorem State.ctl_foldl {α : Type} {g : State → α → State} {s : State} (step : ∀ s a, (g s a).controls = s.controls)
    (xs : List α) : (xs.foldl g s).controls = s.controls :=
  State.foldl_rest State.controls g step xs s

theorem State.ctl_setSt (s : State) (u : StId) (x : Stitcher) : (s.setSt u x).controls = s.controls := (rfl)

theorem State.ctl_updSt (s : State) (u : StId) (f : Stitcher → Stitcher) : (s.updSt u f).controls = s.controls := (rfl)

theorem State.ctl_setQu (s : State) (q : QuireId) (x : Quire) : (s.setQu q x).controls = s.controls := (rfl)

theorem State.ctl_updQu (s : State) (q : QuireId) (f : Quire → Quire) : (s.updQu q f).controls = s.controls := (rfl)

theorem State.ctl_setPart (s : State) (p : PartId) (x : Part) : (s.setPart p x).controls = s.controls := (rfl)

theorem State.ctl_updPart (s : State) (p : PartId) (f : Part → Part) : (s.updPart p f).controls = s.controls := (rfl)

theorem State.ctl_setSrc (s : State) (x : Src) (v : SrcSt) : (s.setSrc x v).controls = s.controls := (rfl)

theorem State.ctl_updSrc (s : State) (x : Src) (f : SrcSt → SrcSt) : (s.updSrc x f).controls = s.controls := (rfl)

theorem State.ctl_wr (s : State) (b : Nat) (r : Reg) (v : BitVec 32) : (s.wr b r v).controls = s.controls := (rfl)

theorem State.ctl_setF (s : State) (b : Nat) (g : Fld) (v : Nat) : (s.setF b g v).controls = s.controls := (rfl)

theorem State.ctl_incF (s : State) (b : Nat) (g : Fld) (n : Nat) : (s.incF b g n).controls = s.controls := (rfl)

theorem State.ctl_setCnt (s : State) (b : Nat) (lo hi : Reg) (v : Nat) : (s.setCnt b lo hi v).controls = s.controls := (rfl)

theorem State.ctl_raise (s : State) (x : Src) (code sev : Nat) (cap : List Nat) : (s.raise x code sev cap).controls = s.controls :=
  (congrArg State.controls (s.raise_rest x code sev cap) :)

theorem State.ctl_ev (s : State) (x : Src) (code : Nat) (cap : List Nat) : (s.ev x code cap).controls = s.controls :=
  s.ctl_raise x code (evSev code) cap

theorem State.ctl_complete (s : State) (n : Notice) (status result : Nat) : (s.complete n status result).controls = s.controls :=
  (congrArg State.controls (s.complete_rest n status result) :)

theorem State.ctl_logReset (s : State) (scope target : Nat) : (s.logReset scope target).controls = s.controls := (rfl)

theorem State.ctl_devClearLd (s : State) (l : LdId) (lo hi : Nat) : (s.devClearLd l lo hi).controls = s.controls := by
  simp only [State.devClearLd, State.ctl_mk]

theorem State.ctl_showPend (s : State) (mailbox : Nat) : (s.showPend mailbox).controls = s.controls := by
  unfold State.showPend
  split <;> simp only [State.ctl_setF]

theorem State.ctl_completeActing (s : State) (p : PartId) (bit result : Nat) :
    (s.completeActing p bit result).controls = s.controls := by
  simp only [State.completeActing, implies_true, State.ctl_foldl, State.ctl_complete]

theorem State.ctl_showHeld (s : State) (p : PartId) : (s.showHeld p).controls = s.controls := by
  simp only [State.showHeld, State.ctl_ite, ite_self, State.ctl_setF, State.ctl_completeActing]

theorem State.ctl_noteHold (s : State) (p : PartId) : (s.noteHold p).controls = s.controls := by
  simp only [State.noteHold, State.ctl_updPart, State.ctl_showHeld]

theorem State.ctl_addHold (s : State) (p : PartId) (c : HoldCause) : (s.addHold p c).controls = s.controls := by
  simp only [State.addHold, State.ctl_updPart, State.ctl_noteHold]

theorem State.ctl_endCmd (s : State) (k : Nat × Nat) (status result : Nat) : (s.endCmd k status result).controls = s.controls
    := by
  unfold State.endCmd
  split <;> simp only [State.ctl_complete]

theorem State.ctl_dropRotation (s : State) (p : PartId) (cause : Nat) :
    (s.dropRotation p cause).controls = s.controls := by
  unfold State.dropRotation
  split <;> simp only [State.ctl_ite, ite_self, State.ctl_updQu, State.ctl_updPart, State.ctl_setF,
    State.ctl_setCnt, State.ctl_ev]

theorem State.ctl_abortTests (s : State) (p : PartId) : (s.abortTests p).controls = s.controls := by
  simp only [State.abortTests, implies_true, State.ctl_foldl, State.ctl_updPart, State.ctl_endCmd]

theorem State.ctl_startReset (s : State) (p : PartId) (cause ld : Nat) (cycled : Bool) (notice : Option (Nat × Nat)) :
    (s.startReset p cause ld cycled notice).controls = s.controls := by
  unfold State.startReset
  split <;> simp only [State.ctl_ite, ite_self, State.ctl_updPart, State.ctl_setF, State.ctl_incF,
    State.ctl_logReset, State.ctl_ev, State.ctl_addHold, State.ctl_dropRotation, State.ctl_abortTests]

theorem State.recov_showPend (s : State) (mailbox : Nat) : (s.showPend mailbox).recoveries = s.recoveries := by
  unfold State.showPend
  split <;> simp only [State.recov_setF]

theorem State.f_showPend (s : State) (mailbox : Nat) {adr : Nat} {fld : Fld}
    (h : site (adr + fld.reg.off) ∉ [(1, R.MB_PEND.off)]) :
    (s.showPend mailbox).f adr fld = s.f adr fld := by
  unfold State.showPend
  split <;> simp only [State.f_setF_pt (g := F.MB_PEND_pending) (h := h) (hw := by decide)]

theorem State.memories_startReset (s : State) (p : PartId) (cause ld : Nat) (cycled : Bool) (notice : Option (Nat × Nat)) :
    (s.startReset p cause ld cycled notice).memories = s.memories := by
  unfold State.startReset
  split <;> simp only [State.memories_ite, ite_self, State.memories_updPart, State.memories_setF,
    State.memories_incF, State.memories_logReset, State.memories_ev, State.memories_addHold, State.memories_dropRotation,
    State.memories_abortTests]


/-! ### Lines that hosts read -/

/-- The device with another table of partitions. -/
def State.setParts (s : State) (l : Sparse Part) : State := { s with parts := l }

theorem State.memories_setParts (s : State) (l : Sparse Part) : (s.setParts l).memories = s.memories := rfl

/-- The bytes of a line of partition memory that a host reads. -/
theorem State.hostMem_bytes (s : State) (ld : LdId) (p : PartId) (a : Nat) : (s.hostMem ld p a).2 =
    if (s.part p).memAsleep then (List.range 64).map (fun i => Config.freeBits s.freeCount i 8)
    else if (s.pmRead p a 64).2.2 = [] then (s.pmRead p a 64).2.1 else List.replicate 64 0 := by
  unfold State.hostMem
  split
  · rfl
  · dsimp only
    split
    next h => rw [if_pos h]
    next bad rest h => exact (if_neg (h ▸ List.cons_ne_nil bad rest)).symm

section
variable {s : State} {l : Sparse Part} (same : ∀ r, (s.setParts l).part r = s.part r)
include same

theorem hostMem_setParts (ld : LdId) (p : PartId) (a : Nat) : ((s.setParts l).hostMem ld p a).2 = (s.hostMem ld p a).2 := by
  rw [State.hostMem_bytes, State.hostMem_bytes, same]
  rfl

theorem ringReady_setParts (x : Src) : (s.setParts l).ringReady x = s.ringReady x := by
  unfold State.ringReady
  simp only [same]
  rfl

theorem mirrorLine_setParts (ld : LdId) (x : Src) (o : Nat) : ((s.setParts l).mirrorLine ld x o).2 = (s.mirrorLine ld x o).2 := by
  have home : (s.setParts l).ringHome x = s.ringHome x := rfl
  unfold State.mirrorLine
  rw [home]
  split
  · rfl
  · simp only [apply_ite Prod.snd, ringReady_setParts same, hostMem_setParts same]
    rfl

theorem partLine_setParts (ld : LdId) (p : PartId) (o : Nat) : ((s.setParts l).partLine ld p o).2 = (s.partLine ld p o).2 := by
  unfold State.partLine State.ring
  simp only [apply_ite Prod.snd, mirrorLine_setParts same, hostMem_setParts same, same]
  rfl

/-- A line that a host reads depends on each partition alone, not on the table that holds them. -/
theorem hostLine_setParts (ld : LdId) (o : Nat) : ((s.setParts l).hostLine ld o).2 = (s.hostLine ld o).2 := by
  have extent : (s.setParts l).extentOf ld o = s.extentOf ld o := rfl
  unfold State.hostLine
  rw [extent]
  cases windowPart o <;> cases s.extentOf ld o <;>
    simp only [apply_ite Prod.snd, partLine_setParts same, mirrorLine_setParts same, hostMem_setParts same] <;> rfl

end

/-- With no result header waiting, none lands. -/
theorem settleAllPubs_of_none {s : State} (none_ : ∀ p, (s.part p).pubs = []) :
    ∃ l, s.settleAllPubs = s.setParts l ∧ ∀ r, (s.setParts l).part r = s.part r := by
  have all : ∀ (ps : List PartId) (t : State), (∃ l, t = s.setParts l) → (∀ r, t.part r = s.part r) →
      (∃ l, ps.foldl (fun t p => t.settlePubs p) t = s.setParts l) ∧
        ∀ r, (ps.foldl (fun t p => t.settlePubs p) t).part r = s.part r := by
    intro ps
    induction ps with
    | nil => exact fun t h same => ⟨h, same⟩
    | cons p ps ih =>
      rintro t ⟨l, rfl⟩ same
      obtain ⟨rest, parts⟩ := settlePubs_of_none (s := s.setParts l) (p := p) (by rw [same, none_])
      refine ih _ ⟨((s.setParts l).settlePubs p).parts, ?_⟩ fun r => (parts r).trans (same r)
      exact (congrArg (State.setParts · ((s.setParts l).settlePubs p).parts) rest :)
  obtain ⟨⟨l, h⟩, same⟩ := all allParts s ⟨s.parts, rfl⟩ fun _ => rfl
  exact ⟨l, h, fun r => h ▸ same r⟩

/-- The line of a read that is answered, its data, and the line's place in the filter. -/
theorem answerLine_answers (s : State) (ld : LdId) (line : Nat) :
    (s.answerLine ld line).hostData = (s.hostLine ld (64 * line)).2 ∧ (ld.val, line) ∈ (s.answerLine ld line).filter ∧
      (∀ p, (s.answerLine ld line).part p = s.part p) := by
  refine ⟨rfl, ?_, fun p => State.part_congr (s.parts_answerLine ld line) p⟩
  unfold State.answerLine
  dsimp only
  split
  next h => exact List.contains_iff_mem.mp h
  next => exact List.mem_append_right _ (List.mem_singleton_self _)

theorem hostLine_control {s : State} {ld : LdId} {line : Nat} (live : s.withdrawn = false) (lt : line < 64) :
    (s.hostLine ld (64 * line)).2 = memRead s.ctlPage (ld.val * 4096 + 64 * line) 64 := by
  unfold State.hostLine
  rw [if_neg (by simp [live]), if_pos (by omega)]

/-! ### A function-level reset -/

/-- Every notice that stands in a device stood in another. -/
def fewer (s t : State) : Prop := ∀ n ∈ t.posted, n ∈ s.posted

theorem fewer_of_eq {s t : State} (h : t.posted = s.posted) : fewer s t := fun _ hn => h ▸ hn

theorem fewer_trans {s t u : State} (h : fewer s t) (k : fewer t u) : fewer s u := fun n hn => h n (k n hn)

theorem fewer_foldl {α : Type} {g : State → α → State} (step : ∀ s a, fewer s (g s a)) (l : List α) :
    ∀ s, fewer s (l.foldl g s) := by
  induction l with
  | nil => exact fun s => fewer_of_eq rfl
  | cons a l ih => exact fun s => fewer_trans (step s a) (ih _)

theorem fewer_complete (s : State) (n : Notice) (status result : Nat) : fewer s (s.complete n status result) := by
  have posted : (s.complete n status result).posted = s.notices.erase n := by
    unfold State.complete State.pushComp
    rw [State.post_showPend]
    dsimp only
    split
    · rfl
    · simp only [State.post_ite, State.post_incF, ite_self]
      rfl
  exact fun m hm => List.mem_of_mem_erase (posted ▸ hm)

theorem fewer_completeActing (s : State) (p : PartId) (bit result : Nat) : fewer s (s.completeActing p bit result) :=
  fewer_foldl (fun t n => fewer_complete t n Cs.done result) _ s

theorem fewer_addHold (s : State) (p : PartId) (c : HoldCause) : fewer s (s.addHold p c) := by
  unfold State.addHold State.noteHold State.showHeld
  dsimp only
  split
  · exact fewer_trans (fewer_of_eq rfl) (fewer_completeActing _ _ _ _)
  · exact fewer_of_eq rfl

theorem fewer_abortTests (s : State) (p : PartId) : fewer s (s.abortTests p) := by
  unfold State.abortTests
  refine fewer_trans (fewer_of_eq (State.post_updPart s p _)) (fewer_foldl (fun t k => ?_) _ _)
  unfold State.endCmd
  split
  · exact fewer_complete _ _ _ _
  · exact fewer_of_eq rfl

/-- The reset of a partition that is idle and not withdrawn. -/
theorem startReset_from_idle {s : State} {p : PartId} {cause : Nat} (idle : (s.part p).recovery = none)
    (live : ¬(s.f (pt p) F.RS_STATUS_withdrawn = 1 ∧ cause ≠ 6)) (ld : Nat) (cycled : Bool) (notice : Option (Nat × Nat)) :
    ∃ (r : Recovery) (times : List Nat) (cap : List Nat), s.startReset p cause ld cycled notice =
      (((((((s.updPart p (fun x => { x with recovery := some r, resetTimes := times })).setF (pt p) F.RS_STATUS_state 1).incF
        (pt p) F.RS_COUNT_resets).addHold p .recovery).logReset 3 p.val).dropRotation p 0x5A).abortTests p).ev (.part p)
          Ev.RS_PARTITION cap := by
  unfold State.startReset
  rw [idle]
  dsimp only
  rw [if_neg live]
  exact ⟨_, _, _, rfl⟩

theorem fewer_startReset (s : State) (p : PartId) (cause ld : Nat) (cycled : Bool) (notice : Option (Nat × Nat)) :
    fewer s (s.startReset p cause ld cycled notice) := by
  by_cases live : s.f (pt p) F.RS_STATUS_withdrawn = 1 ∧ cause ≠ 6
  · unfold State.startReset
    split
    · exact fewer_of_eq (State.post_updPart ..)
    · rw [if_pos live]
      exact fewer_of_eq rfl
  · cases idle : (s.part p).recovery with
    | some r =>
      unfold State.startReset
      rw [idle]
      exact fewer_of_eq (State.post_updPart ..)
    | none =>
      obtain ⟨r, times, cap, run⟩ := startReset_from_idle idle live ld cycled notice
      rw [run]
      refine fewer_trans ?_ (fewer_of_eq (State.post_ev ..))
      refine fewer_trans ?_ (fewer_abortTests _ _)
      refine fewer_trans ?_ (fewer_of_eq ((State.post_dropRotation ..).trans (State.post_logReset ..)))
      refine fewer_trans ?_ (fewer_addHold _ _ _)
      exact fewer_of_eq (by rw [State.post_incF, State.post_setF, State.post_updPart])

/-- A partition in a reset stays in one, and one that is not withdrawn is in one once its own begins. -/
theorem startReset_recovers (s : State) (p : PartId) (cause ld : Nat) (cycled : Bool) (notice : Option (Nat × Nat)) :
    let t := s.startReset p cause ld cycled notice
    (∀ r, (s.part r).recovery.isSome = true → (t.part r).recovery.isSome = true) ∧
      (∀ r, t.f (pt r) F.RS_STATUS_withdrawn = s.f (pt r) F.RS_STATUS_withdrawn) ∧
      (s.f (pt p) F.RS_STATUS_withdrawn = 0 → (t.part p).recovery.isSome = true) := by
  have own {g : Part → Part} (some_ : ∀ x, (g x).recovery.isSome = true) (r : PartId)
      (h : r = p ∨ (s.part r).recovery.isSome = true) : ((s.updPart p g).part r).recovery.isSome = true := by
    by_cases e : r = p
    · subst e
      rw [State.part_updPart_same]
      exact some_ _
    · rw [State.part_updPart_ne _ _ e]
      exact h.resolve_left e
  cases idle : (s.part p).recovery with
  | some k =>
    have run : s.startReset p cause ld cycled notice = s.updPart p (fun y => { y with
        recovery := some { k with notices := k.notices ++ notice.toList, cycled := k.cycled || cycled } }) := by
      unfold State.startReset
      rw [idle]
    dsimp only
    rw [run]
    exact ⟨fun r h => own (fun _ => rfl) r (.inr h), fun r => rfl, fun _ => own (fun _ => rfl) p (.inl rfl)⟩
  | none =>
    by_cases live : s.f (pt p) F.RS_STATUS_withdrawn = 1 ∧ cause ≠ 6
    · have run : s.startReset p cause ld cycled notice = s := by
        unfold State.startReset
        rw [idle]
        exact if_pos live
      dsimp only
      rw [run]
      exact ⟨fun r h => h, fun r => rfl, fun h => by omega⟩
    · obtain ⟨k, times, cap, run⟩ := startReset_from_idle idle live ld cycled notice
      have kept : (s.startReset p cause ld cycled notice).recoveries =
          (s.updPart p (fun x => { x with recovery := some k, resetTimes := times })).recoveries := by
        rw [run, State.recov_ev, State.recov_abortTests, State.recov_dropRotation, State.recov_logReset, State.recov_addHold,
          State.recov_incF, State.recov_setF]
      have same (r : PartId) : ((s.startReset p cause ld cycled notice).part r).recovery =
          ((s.updPart p (fun x => { x with recovery := some k, resetTimes := times })).part r).recovery := congrFun kept r
      refine ⟨fun r h => ?_, fun r => ?_, fun _ => ?_⟩
      · rw [same]
        exact own (fun _ => rfl) r (.inr h)
      · rw [run, State.f_ev _ _ _ _ (pt_notMem r (by decide)), State.f_abortTests _ _ (pt_notMem r (by decide)),
          State.f_dropRotation _ _ _ (pt_notMem r (by decide)), State.f_logReset, State.f_addHold _ _ _ (pt_notMem r (by decide)),
          State.f_incF_pt (W := [(1, R.RS_COUNT.off)]) (pt_notMem r (by decide)) p 1 (by decide)]
        by_cases e : r = p
        · subst e
          rw [State.f_setF_field (g := F.RS_STATUS_state) (k := F.RS_STATUS_withdrawn) _ _ _ rfl (by decide), State.f_updPart]
        · rw [setF_pt_ne (g := F.RS_STATUS_state) (k := F.RS_STATUS_withdrawn) _ e _ rfl, State.f_updPart]
      · rw [same]
        exact own (fun _ => rfl) p (.inl rfl)

/-- A map without the cells of a set of keys reads there as its default. -/
theorem spGet_filter_of_not {α : Type} (d : α) (keep : Nat → Bool) {k : Nat} (h : keep k = false) (m : Sparse α) :
    spGet d (m.filter (fun c => keep c.1)) k = d := by
  induction m with
  | nil => rfl
  | cons c m ih =>
    obtain ⟨i, v⟩ := c
    by_cases e : keep i = true
    · rw [List.filter_cons_of_pos (p := fun c : Nat × α => keep c.1) e]
      exact (if_neg fun a => by rw [a, h] at e; cases e).trans ih
    · rw [List.filter_cons_of_neg (p := fun c : Nat × α => keep c.1) e, ih]

/-- What a function-level reset takes of an LD at once: its control page, its notices, its completions (R261). -/
def State.dropLd (s : State) (ld : LdId) : State :=
  { s with ctlPage := s.ctlPage.filter (fun c => decide (c.1 / 4096 ≠ ld.val)),
           notices := s.notices.filter (fun n => decide (n.ld ≠ ld.val)),
           comps := s.comps.filter (fun c => decide (c.ld ≠ ld.val)) }

theorem dropLd_clears (s : State) (ld : LdId) :
    (∀ n ∈ (s.dropLd ld).posted, n.ld ≠ ld.val) ∧ (∀ a, a / 4096 = ld.val → spGet 0 (s.dropLd ld).controls a = 0) ∧
      (s.dropLd ld).memories = s.memories ∧ (s.dropLd ld).recoveries = s.recoveries ∧ (s.dropLd ld).f = s.f := by
  refine ⟨fun n hn => ?_, fun a ha => ?_, rfl, rfl, rfl⟩
  · exact of_decide_eq_true (List.mem_filter.mp hn).2
  · exact spGet_filter_of_not 0 (fun c => decide (c / 4096 ≠ ld.val)) (by simp [ha]) s.ctlPage

/-- The device in which a function-level reset starts the resets of the LD's partitions. -/
def State.unpended (s : State) (ld : LdId) : State :=
  (([1, 2, 3, 4] : List Nat).foldl (fun t m => t.showPend m) (s.dropLd ld)).devClearLd ld 0 0x1000

theorem bindOff (l : LdId) : (F.CX_LD_BIND_parts.nth l.val).reg.off < 0x1000000 := by
  revert l
  decide

theorem unpended_keeps (s : State) (ld : LdId) :
    (s.unpended ld).posted = (s.dropLd ld).posted ∧ (s.unpended ld).controls = (s.dropLd ld).controls ∧
      (s.unpended ld).memories = s.memories ∧ ∀ p, (s.unpended ld).bound ld p = s.bound ld p ∧
        (s.unpended ld).f (pt p) F.RS_STATUS_withdrawn = s.f (pt p) F.RS_STATUS_withdrawn := by
  obtain ⟨-, -, memories, -, fields⟩ := dropLd_clears s ld
  have kept {b : Nat} {k : Fld} (h : site (b + k.reg.off) ∉ [(1, R.MB_PEND.off)]) : (s.unpended ld).f b k = s.f b k := by
    rw [State.unpended, State.f_devClearLd, State.f_foldl (fun t m => t.f_showPend m h), fields]
  refine ⟨?_, ?_, ?_, fun p => ⟨?_, kept (pt_notMem p (by decide))⟩⟩
  · rw [State.unpended, State.post_devClearLd, State.post_foldl fun t m => t.post_showPend m]
  · rw [State.unpended, State.ctl_devClearLd, State.ctl_foldl fun t m => t.ctl_showPend m]
  · rw [State.unpended, State.memories_devClearLd, State.memories_foldl fun t m => t.memories_showPend m, memories]
  · exact bound_of_f (fun l => kept (hub_notMem_of (bindOff l) (by decide))) ld p

theorem execFunctionLevelReset_runs {s : State} (die : s.stew.die = true) (ld : LdId) :
    execFunctionLevelReset ld s = .next ((allParts.filter (fun p => (s.unpended ld).bound ld p)).foldl
      (fun t p => t.startReset p 2 ld.val false none) (s.unpended ld)) := by
  unfold execFunctionLevelReset
  rw [if_neg (by simp [die])]
  rfl

theorem mem_allParts : ∀ p : PartId, p ∈ allParts := by decide

/-- The partitions whose resets start are in a reset. -/
theorem startResets_recover (cause ld : Nat) (l : List PartId) (s : State) (p : PartId) (h : p ∈ l)
    (live : s.f (pt p) F.RS_STATUS_withdrawn = 0) :
    ((l.foldl (fun t p => t.startReset p cause ld false none) s).part p).recovery.isSome = true := by
  refine foldl_reaches (fun t p => t.startReset p cause ld false none)
    (fun p t => t.f (pt p) F.RS_STATUS_withdrawn = 0 → (t.part p).recovery.isSome = true) (fun t b => ?_) (fun t a b h => ?_)
    l s p h ?_
  · obtain ⟨-, same, begins⟩ := startReset_recovers t b cause ld false none
    exact fun z => begins ((same b).symm.trans z)
  · obtain ⟨stays, same, -⟩ := startReset_recovers t b cause ld false none
    exact fun z => stays a (h ((same a).symm.trans z))
  · have same : ∀ (l : List PartId) (t : State),
        (l.foldl (fun t p => t.startReset p cause ld false none) t).f (pt p) F.RS_STATUS_withdrawn =
          t.f (pt p) F.RS_STATUS_withdrawn := by
      intro l
      induction l with
      | nil => exact fun t => rfl
      | cons b l ih => exact fun t => (ih _).trans ((startReset_recovers t b cause ld false none).2.1 p)
    exact (same l s).trans live

theorem linkUp_shows (s : State) (speed width : Fin 3) (lat : Bool) :
    let t := s.linkUp (some (speed, width, lat))
    t.f hub F.CX_LINK_speed = speed.val + 1 ∧ t.f hub F.CX_LINK_width = 2 ^ (width.val + 1) ∧
      t.f hub F.CX_LINK_lat_opt = (if lat then 1 else 0) ∧ t.f hub F.CX_LINK_ide = s.f hub F.CX_LINK_ide := by
  have wide : ∀ w : Fin 3, 2 ^ (w.val + 1) % 2 ^ F.CX_LINK_width.w = 2 ^ (w.val + 1) := by decide
  have fast : ∀ w : Fin 3, (w.val + 1) % 2 ^ F.CX_LINK_speed.w = w.val + 1 := by decide
  unfold State.linkUp
  dsimp only
  refine ⟨?_, ?_, ?_, ?_⟩
  · rw [State.f_setF_field (g := F.CX_LINK_lat_opt) (k := F.CX_LINK_speed) _ _ _ rfl (by decide),
      State.f_setF_field (g := F.CX_LINK_width) (k := F.CX_LINK_speed) _ _ _ rfl (by decide),
      State.f_setF_same _ _ _ _ (by decide), fast]
  · rw [State.f_setF_field (g := F.CX_LINK_lat_opt) (k := F.CX_LINK_width) _ _ _ rfl (by decide),
      State.f_setF_same _ _ _ _ (by decide), wide]
  · rw [State.f_setF_same _ _ _ _ (by decide)]
    cases lat <;> rfl
  · rw [State.f_setF_field (g := F.CX_LINK_lat_opt) (k := F.CX_LINK_ide) _ _ _ rfl (by decide),
      State.f_setF_field (g := F.CX_LINK_width) (k := F.CX_LINK_ide) _ _ _ rfl (by decide),
      State.f_setF_field (g := F.CX_LINK_speed) (k := F.CX_LINK_ide) _ _ _ rfl (by decide)]

/-- A retraining shows the link's new state in CX_LINK. -/
theorem cxlLinkRetrain_shows {s : State} (die : s.stew.die = true) (speed width : Fin 3) (lat : Bool) :
    ∃ t, exec (.cxlLinkRetrain (some (speed, width, lat))) s = .next t ∧ t.f hub F.CX_LINK_speed = speed.val + 1 ∧
      t.f hub F.CX_LINK_width = 2 ^ (width.val + 1) ∧ t.f hub F.CX_LINK_lat_opt = (if lat then 1 else 0) ∧
      t.f hub F.CX_LINK_ide = s.f hub F.CX_LINK_ide ∧ t.memories = s.memories ∧ t.parts = s.parts := by
  let u := s.linkUp (some (speed, width, lat))
  have run : exec (.cxlLinkRetrain (some (speed, width, lat))) s = .next ((u.incF hub F.CX_LINK_retrains).ev .hub Ev.CX_LINK
      [(s.rd hub R.CX_LINK).toNat, ((u.incF hub F.CX_LINK_retrains).rd hub R.CX_LINK).toNat]) := by
    show execCxlLinkRetrain (some (speed, width, lat)) s = _
    unfold execCxlLinkRetrain
    rw [if_neg (by simp [die])]
    rfl
  have field {k : Fld} (v : Nat) (reg : k.reg = R.CX_LINK) (below : k.lo + k.w ≤ 16) (h : u.f hub k = v) :
      ((u.incF hub F.CX_LINK_retrains).ev .hub Ev.CX_LINK [(s.rd hub R.CX_LINK).toNat,
        ((u.incF hub F.CX_LINK_retrains).rd hub R.CX_LINK).toNat]).f hub k = v := by
    rw [State.f_ev _ _ _ _ (hub_notMem (by rw [reg]; decide)), State.incF,
      State.f_setF_field (g := F.CX_LINK_retrains) (k := k) _ _ _ reg (.inr ⟨below, by decide⟩), h]
  obtain ⟨speed', width', lat', ide⟩ := linkUp_shows s speed width lat
  refine ⟨_, run, field _ rfl (by decide) speed', field _ rfl (by decide) width', field _ rfl (by decide) lat',
    field _ rfl (by decide) ide, ?_, ?_⟩
  · rw [State.memories_ev, State.memories_incF]
    unfold u State.linkUp
    rw [State.memories_setF, State.memories_setF, State.memories_setF]
  · rw [State.parts_ev, State.parts_incF]
    unfold u State.linkUp
    rw [State.parts_setF, State.parts_setF, State.parts_setF]

/-- A read of an LD's BAR2 (R224). -/
theorem hostRead_vectors (ld : LdId) (line : BitVec 35) {s : State} (die : s.stew.die = true) (secure : s.insecure = false)
    (live : s.withdrawn = false) (fits : 64 * line.toNat + 64 ≤ 16384) (none_ : ∀ p, (s.part p).pubs = []) :
    ∃ t, exec (.hostRead ld ⟨.bar2, line⟩) s = .next t ∧ MemoriesKept s t ∧ (∀ p, t.part p = s.part p) ∧
      t.hostData = (List.range 64).map (fun i => s.bar2At (ld.val * 16384 + 64 * line.toNat + i)) := by
  obtain ⟨l, settled, same⟩ := settleAllPubs_of_none none_
  have run : exec (.hostRead ld ⟨.bar2, line⟩) s =
      .next { s.setParts l with hostData := (s.setParts l).bar2Line ld (64 * line.toNat) } := by
    show execHostRead ld ⟨.bar2, line⟩ s = _
    unfold execHostRead
    have die' : (s.setParts l).stew.die = true := die
    have secure' : (s.setParts l).insecure = false := secure
    simp only [settled, die', secure', reduceCtorEq, or_self, if_false]
  refine ⟨_, run, memoriesKept_of rfl, same, ?_⟩
  have live' : (s.setParts l).withdrawn = false := live
  show (s.setParts l).bar2Line ld (64 * line.toNat) = _
  unfold State.bar2Line
  rw [if_neg (by simp [live'])]
  refine List.map_congr_left fun i hi => ?_
  rw [Nat.mod_eq_of_lt (by have := List.mem_range.mp hi; omega), ← Nat.add_assoc]
  rfl

/-- The answer of a host to a back-invalidate frees the line's entry (R227, R228). -/
theorem backInvalidateResponse_frees (ld : LdId) (line : BitVec 35) {s : State}
    (taken : s.snoops.contains (ld.val, line.toNat) = true) (none_ : s.readWait = []) :
    ∃ t, exec (.backInvalidateResponse ld line none) s = .next t ∧ t.snoops = s.snoops.erase (ld.val, line.toNat) ∧
      t.filter = (if (ld.val, line.toNat) ∈ s.snoops.erase (ld.val, line.toNat) then s.filter
        else s.filter.erase (ld.val, line.toNat)) ∧ { t with snoops := s.snoops, filter := s.filter } = s := by
  let t : State := { s with
    snoops := s.snoops.erase (ld.val, line.toNat),
    filter := if (s.snoops.erase (ld.val, line.toNat)).contains (ld.val, line.toNat) then s.filter
      else s.filter.erase (ld.val, line.toNat) }
  have run : exec (.backInvalidateResponse ld line none) s = .next t := by
    show execBackInvalidateResponse ld line none s = _
    unfold execBackInvalidateResponse
    dsimp only
    rw [if_neg (by simp only [taken, reduceCtorEq, not_false_eq_true])]
    refine congrArg Host.Outcome.next ?_
    have none' : t.readWait = [] := none_
    show t.answerWaiting = t
    unfold State.answerWaiting
    rw [none']
  refine ⟨t, run, rfl, ?_, rfl⟩
  simp only [t, List.contains_iff_mem]

/-- A function-level reset clears what the LD has waiting and starts the resets of its partitions. -/
theorem functionLevelReset_clears {s : State} (die : s.stew.die = true) (ld : LdId) :
    ∃ t, exec (.functionLevelReset ld) s = .next t ∧ t.memories = s.memories ∧ (∀ n ∈ t.posted, n.ld ≠ ld.val) ∧
      (∀ a, a / 4096 = ld.val → spGet 0 t.controls a = 0) ∧
      ∀ p, s.bound ld p = true → s.f (pt p) F.RS_STATUS_withdrawn = 0 → (t.part p).recovery.isSome = true := by
  obtain ⟨gone, zero, -⟩ := dropLd_clears s ld
  obtain ⟨posted, controls, memories, kept⟩ := unpended_keeps s ld
  refine ⟨_, execFunctionLevelReset_runs die ld, ?_, fun n hn => ?_, fun a ha => ?_, fun p own live => ?_⟩
  · rw [State.memories_foldl fun t p => t.memories_startReset p .., memories]
  · have stood := fewer_foldl (fun t p => fewer_startReset t p 2 ld.val false none) _ _ n hn
    rw [posted] at stood
    exact gone n stood
  · rw [State.ctl_foldl (fun t p => t.ctl_startReset p 2 ld.val false none), controls]
    exact zero a ha
  · obtain ⟨bound, still⟩ := kept p
    exact startResets_recover 2 ld.val _ _ p (List.mem_filter.mpr ⟨mem_allParts p, bound.trans own⟩) (still.trans live)

/-- Settles O41: a read changes no memory, a reset clears its LD. -/
theorem windowAndLink : Obligations.WindowAndLink := by
  unfold Obligations.WindowAndLink
  refine ⟨?read, ?vectors, ?table, ?area, ?response, ?integrity, ?keys, ?retrain, ?owner, ?reset⟩
  case read =>
    intro ld line s die secure room none_
    obtain ⟨l, settled, same⟩ := settleAllPubs_of_none none_
    have run : exec (.hostRead ld ⟨.window, line⟩) s = .next ((s.setParts l).answerLine ld line.toNat) := by
      show execHostRead ld ⟨.window, line⟩ s = _
      unfold execHostRead
      have die' : (s.setParts l).stew.die = true := die
      have secure' : (s.setParts l).insecure = false := secure
      have room' : (s.setParts l).filter.length < filterSize := room
      simp only [settled, die', secure', room', reduceCtorEq, or_self, if_false, or_true, if_true]
    obtain ⟨data, tracked, parts⟩ := answerLine_answers (s.setParts l) ld line.toNat
    have data' := data.trans (hostLine_setParts same ld (64 * line.toNat))
    refine ⟨_, run, data', tracked, memoriesKept_of ?_, fun p => (parts p).trans (same p), fun live lt =>
      data'.trans (hostLine_control live lt)⟩
    rw [State.memories_answerLine, State.memories_setParts]
  case vectors =>
    intro ld line s die secure live fits none_
    exact hostRead_vectors ld line die secure live fits none_
  case table =>
    intro ld off bytes s takes aligned whole fits
    show execHostWriteOther ld ⟨.bar2, off⟩ bytes false s = _
    unfold execHostWriteOther
    dsimp only
    rw [if_neg (by simp only [takes, reduceCtorEq, false_or]; omega), if_neg Bool.false_ne_true]
  case area =>
    intro ld off bytes s takes above fits
    have run : exec (.hostWriteOther ld ⟨.window, off⟩ bytes false) s =
        .next { s with cmdArea := memWrite s.cmdArea (ld.val * 65536 + (off.toNat - 0x10000)) bytes } := by
      show Host.Outcome.next (s.hostWrite ld off.toNat bytes false) = _
      refine congrArg Host.Outcome.next ?_
      unfold State.hostWrite
      dsimp only
      rw [if_neg (by omega), if_pos ⟨above, fits⟩, if_neg (by simp [takes]), if_neg Bool.false_ne_true]
    exact ⟨_, run, rfl, rfl⟩
  case response =>
    intro ld line s taken none_
    exact backInvalidateResponse_frees ld line taken none_
  case integrity =>
    intro stream protocol s secure
    have run : exec (.cxlIdeFail stream protocol) s =
        .next ((s.setF hub F.CX_LINK_ide 2).ev .hub Ev.CX_IDE_FAIL [stream.toNat, protocol.val]) := if_neg (by simp [secure])
    refine ⟨_, run, ?_, memoriesKept_of ?_, ?_⟩
    · unfold State.insecure
      rw [State.f_ev _ _ _ _ (hub_notMem (by decide)), State.f_setF_same _ _ _ _ (by decide)]
      rfl
    · rw [State.memories_ev, State.memories_setF]
    · rw [State.parts_ev, State.parts_setF]
  case keys =>
    intro s die
    have run : exec .ideKeysProgrammed s = .next (s.setF hub F.CX_LINK_ide 1) := if_neg (by simp [die])
    have shown : (s.setF hub F.CX_LINK_ide 1).f hub F.CX_LINK_ide = 1 := State.f_setF_same _ _ _ _ (by decide)
    refine ⟨_, run, shown, ?_, rfl⟩
    unfold State.insecure
    rw [shown]
    rfl
  case retrain =>
    intro speed width lat s die
    obtain ⟨t, run, speed', width', lat', ide, memories, parts⟩ := cxlLinkRetrain_shows die speed width lat
    exact ⟨t, run, speed', width', lat', ide, memoriesKept_of memories, parts⟩
  case owner =>
    intro ld s die present
    have run : exec (.setOwnerLd ld) s = .next ((s.setF hub F.CX_OWNER_ld ld.val).noteBind ld (s.f hub F.CX_OWNER_ld)) :=
      if_neg (by simp [die, present])
    refine ⟨_, run, ?_, memoriesKept_of ?_, ?_⟩
    · unfold State.owner State.noteBind
      refine Fin.ext ?_
      dsimp only
      rw [State.f_ev _ _ _ _ (hub_notMem (by decide)), State.f_setF_same _ _ _ _ (by decide)]
      have := ld.isLt
      simp only [F.CX_OWNER_ld]
      omega
    · rw [State.noteBind, State.memories_ev, State.memories_setF]
    · rw [State.noteBind, State.parts_ev, State.parts_setF]
  case reset =>
    intro ld s die
    obtain ⟨t, run, memories, gone, zero, recovers⟩ := functionLevelReset_clears die ld
    exact ⟨t, run, memoriesKept_of memories, gone, zero, recovers⟩

end Sys2Proof.Machine
end

section
namespace Sys2Proof.Machine

-- Proved in parallel, these proofs hold a thread each, whose stacks pass the check's memory.
set_option Elab.async false

/-! ## O39: inbox rings -/

theorem State.f_fst_ite {α : Type} {c : Prop} [Decidable c] {a b : State × α} (adr : Nat) (fld : Fld) :
    State.f (if c then a else b).1 adr fld = if c then a.1.f adr fld else b.1.f adr fld := by
  split <;> rfl

theorem State.f_strokeNow (s : State) (p : PartId) {adr : Nat} {fld : Fld}
    (h : site (adr + fld.reg.off) ∉ [(1, R.TK_STATUS.off), (1, R.TK_COUNT_LO.off), (1, R.TK_COUNT_HI.off), (1, 0xB00), (1,
    R.MB_STAT.off), (1, R.MB_PEND.off), (2, R.CX_IN_SEQ.off), (2, R.CX_IN_STAT.off), (1, R.TK_INTAKE_STATS.off), (2,
    R.CX_IN_CONS.off), (0, R.HB_TICK_IO.off), (1, R.TK_STRIKE_STATS.off), (4, R.CX_SLOT_STAT.off)]) :
    (s.strokeNow p).f adr fld = s.f adr fld := by
  simp only [State.strokeNow, State.f_ite, ite_self, State.f_ite, ite_self, State.f_updPart, State.f_issueStroke (h :=
    notMem_of_subset h (by decide)), State.f_tryPending (h := notMem_of_subset h (by decide))]

theorem State.f_sealOne (s : State) (p : PartId) (r : Nat) {adr : Nat} {fld : Fld}
    (h : site (adr + fld.reg.off) ∉ [(2, R.CX_IN_STAT.off), (1, 0xB00)]) :
    (s.sealOne p r).1.f adr fld = s.f adr fld := by
  simp only [State.sealOne, State.f_ite, State.f_fst_ite, ite_self, State.f_setF_ib (g := F.CX_IN_STAT_bad) (h := h) (hw :=
    by decide), State.f_setF_ib (g := F.CX_IN_STAT_sealed) (h := h) (hw := by decide), State.f_setF_ib (g :=
    F.CX_IN_STAT_stale) (h := h) (hw := by decide), State.f_ev (h := notMem_of_subset h (by decide)),
    State.f_setRing]

theorem State.f_sealAll (s : State) (p : PartId) (r : Nat) (n : Nat) {adr : Nat} {fld : Fld}
    (h : site (adr + fld.reg.off) ∉ [(2, R.CX_IN_STAT.off), (1, 0xB00)]) :
    (s.sealAll p r n).1.f adr fld = s.f adr fld := by
  induction n generalizing s with
  | zero => rfl
  | succ n ih =>
    unfold State.sealAll
    simp only [ih, State.f_fst_ite, ite_self, State.f_sealOne (h := h)]

theorem State.f_sealStrike (s : State) (p : PartId) (r : Nat) {adr : Nat} {fld : Fld}
    (h : site (adr + fld.reg.off) ∉ [(1, R.TK_STRIKE_STATS.off), (1, R.TK_STATUS.off), (4, R.CX_SLOT_STAT.off), (1, 0xB00),
    (2, R.CX_IN_STAT.off)]) :
    (s.sealStrike p r).f adr fld = s.f adr fld := by
  unfold State.sealStrike
  simp only [State.f_ite, ite_self, State.f_waitCycle, State.f_strike (h := notMem_of_subset h (by decide)), State.f_sealAll
    (h := notMem_of_subset h (by decide))]

theorem State.f_skipHead (s : State) (p : PartId) (r : Nat) {adr : Nat} {fld : Fld}
    (h : site (adr + fld.reg.off) ∉ [(2, R.CX_IN_SEQ.off), (2, R.CX_IN_STAT.off), (1, 0xB00), (2, R.CX_IN_CONS.off), (1,
    R.TK_STRIKE_STATS.off), (1, R.TK_STATUS.off), (4, R.CX_SLOT_STAT.off)]) :
    (s.skipHead p r).f adr fld = s.f adr fld := by
  unfold State.skipHead
  simp only []
  split <;> simp only [State.f_ite, ite_self, State.f_ite, ite_self, State.f_setF_ib (g := F.CX_IN_SEQ_next) (h := h) (hw :=
    by decide), State.f_setF_ib (g := F.CX_IN_STAT_sealed) (h := h) (hw := by decide), State.f_setF_ib (g :=
    F.CX_IN_STAT_stale) (h := h) (hw := by decide), State.f_ev (h := notMem_of_subset h (by decide)), State.f_setRing,
    State.f_passLines (h := notMem_of_subset h (by decide)), State.f_sealStrike (h := notMem_of_subset h (by decide))]

theorem ib_notMem (p : PartId) (i : Nat) {W : List (Nat × Nat)} {x : Nat} (h : x < 0x20 ∧ (2, x) ∉ W) : site (ib p i + x) ∉ W :=
  site_ib p i h.1 ▸ h.2

/-! ### Other partitions, and the lines that have come -/

/-- The table of partitions. -/
def State.table (s : State) : Sparse Part := s.parts

theorem State.table_ctlWrite (s : State) (ld off : Nat) (bytes : List (BitVec 8)) : (s.ctlWrite ld off bytes).table = s.table :=
  s.parts_ctlWrite ld off bytes

theorem State.table_setF (s : State) (b : Nat) (g : Fld) (v : Nat) : (s.setF b g v).table = s.table := rfl

theorem State.part_of_table {s t : State} (h : t.table = s.table) : t.part = s.part := funext (State.part_congr h)

theorem State.table_setCons (s : State) (p : PartId) (r c : Nat) : (s.setCons p r c).table = s.table := by
  obtain ⟨f, body⟩ : ∃ f, State.setCons = f := ⟨_, rfl⟩
  rw [body]
  delta State.setCons at body
  subst body
  dsimp only
  split
  · rw [State.table_ctlWrite, State.table_setF]
  · rw [State.table_setF]

theorem State.part_setCons (s : State) (p : PartId) (r c : Nat) : (s.setCons p r c).part = s.part :=
  State.part_of_table (s.table_setCons p r c)

theorem othersKept_of_part {p : PartId} {s t : State} (h : t.part = s.part) : OthersKept p s t := fun r _ => congrFun h r

theorem othersKept_trans {p : PartId} {s t u : State} (h : OthersKept p s t) (k : OthersKept p t u) : OthersKept p s u :=
  fun r hr => (k r hr).trans (h r hr)

theorem othersKept_ite {p : PartId} {s a b : State} {c : Prop} [Decidable c] (h : OthersKept p s a) (k : OthersKept p s b) :
    OthersKept p s (if c then a else b) := by
  split
  · exact h
  · exact k

theorem State.ring_setRing (s : State) (p : PartId) (r : Nat) (x : InRing) : (s.setRing p r x).ring p r = x := by
  unfold State.ring State.setRing
  rw [State.part_updPart_same]
  exact spGet_spSet_same ..

theorem State.ring_of_part {s t : State} (h : t.part = s.part) (p : PartId) (r : Nat) : t.ring p r = s.ring p r := by
  rw [State.ring, State.ring, h]

/-- A step that leaves every other partition, every memory and the lines that have come to a ring. -/
def SealsOnly (p : PartId) (r : Nat) (s t : State) : Prop :=
  (t.ring p r).cells = (s.ring p r).cells ∧ (t.ring p r).came = (s.ring p r).came ∧ OthersKept p s t ∧ t.memories = s.memories

theorem sealsOnly_of_part {p : PartId} {r : Nat} {s t : State} (h : t.part = s.part) (memories : t.memories = s.memories) :
    SealsOnly p r s t :=
  ⟨by rw [State.ring_of_part h], by rw [State.ring_of_part h], othersKept_of_part h, memories⟩

theorem sealsOnly_trans {p : PartId} {r : Nat} {s t u : State} (h : SealsOnly p r s t) (k : SealsOnly p r t u) :
    SealsOnly p r s u :=
  ⟨k.1.trans h.1, k.2.1.trans h.2.1, othersKept_trans h.2.2.1 k.2.2.1, k.2.2.2.trans h.2.2.2⟩

theorem State.part_ev (s : State) (x : Src) (code : Nat) (cap : List Nat) : (s.ev x code cap).part = s.part :=
  funext (State.part_congr (s.parts_ev x code cap))

theorem State.part_setF_eq (s : State) (b : Nat) (g : Fld) (v : Nat) : (s.setF b g v).part = s.part :=
  funext (State.part_congr (s.parts_setF b g v))

theorem setRing_seals {s : State} {p : PartId} {r : Nat} {x : InRing} (cells : x.cells = (s.ring p r).cells)
    (came : x.came = (s.ring p r).came) : SealsOnly p r s (s.setRing p r x) :=
  ⟨by rw [State.ring_setRing, cells], by rw [State.ring_setRing, came], fun _ hr => State.part_updPart_ne _ _ hr,
    State.memories_updPart ..⟩

theorem sealOne_seals (s : State) (p : PartId) (r : Nat) : SealsOnly p r s (s.sealOne p r).1 := by
  have shown (t : State) (n : Nat) : SealsOnly p r t ((t.setF (ib p r) F.CX_IN_STAT_sealed n).setF (ib p r) F.CX_IN_STAT_stale 0) :=
    sealsOnly_of_part (by rw [State.part_setF_eq, State.part_setF_eq]) (by rw [State.memories_setF, State.memories_setF])
  have noted (t : State) (c : List Nat) : SealsOnly p r t (t.ev (.part p) Ev.INBOX_LATE c) :=
    sealsOnly_of_part (State.part_ev ..) (State.memories_ev ..)
  unfold State.sealOne
  dsimp only
  split
  · exact sealsOnly_of_part rfl rfl
  · split
    · exact sealsOnly_of_part (by rw [State.part_ev, State.part_setF_eq]) (by rw [State.memories_ev, State.memories_setF])
    · split
      · split
        · refine sealsOnly_trans ?_ (noted _ _)
          exact sealsOnly_trans (setRing_seals (by rfl) (by rfl)) (shown _ _)
        · exact sealsOnly_trans (setRing_seals (by rfl) (by rfl)) (shown _ _)
      · exact sealsOnly_of_part rfl rfl

theorem sealAll_seals (p : PartId) (r n : Nat) : ∀ s : State, SealsOnly p r s (s.sealAll p r n).1 := by
  induction n with
  | zero => exact fun s => sealsOnly_of_part rfl rfl
  | succ n ih =>
    intro s
    unfold State.sealAll
    dsimp only
    split
    · exact sealsOnly_trans (sealOne_seals s p r) (ih _)
    · exact sealOne_seals s p r

/-- Where a sealing does not strike, it seals only (R242). -/
theorem sealStrike_seals {s : State} {p : PartId} {r : Nat} (quiet : s.f (ib p r) F.CX_IN_CFG_strike = 0) :
    s.sealStrike p r = (s.sealAll p r (s.ringSize p r)).1 := by
  unfold State.sealStrike
  dsimp only
  rw [if_neg (by rw [quiet]; exact fun h => absurd h.2.1 (by decide))]

/-! ### A line that comes -/

theorem InRing.rewrite_lines (x : InRing) (d : Nat) (bytes : List (BitVec 8)) :
    (x.rewrite d bytes).cells = x.cells ∧ (x.rewrite d bytes).came = x.came := by
  unfold InRing.rewrite
  split
  · exact ⟨rfl, rfl⟩
  · dsimp only
    split <;> exact ⟨rfl, rfl⟩

theorem InRing.line_eq {x y : InRing} (h : x.cells = y.cells) (l : Nat) : x.line l = y.line l := by
  rw [InRing.line, h, InRing.line]

theorem memRead_memWrite_apart (m : Sparse (BitVec 8)) {a b n : Nat} {l : List (BitVec 8)}
    (h : b + n ≤ a ∨ a + l.length ≤ b) : memRead (memWrite m a l) b n = memRead m b n := by
  refine List.ext_getElem? fun i => ?_
  by_cases hi : i < n
  · rw [getElem?_memRead _ _ _ _ hi, getElem?_memRead _ _ _ _ hi, spGet_memWrite_out _ _ _ _ (by omega)]
  · rw [List.getElem?_eq_none (by rw [memRead_length]; omega), List.getElem?_eq_none (by rw [memRead_length]; omega)]

/-- The ring that a line has come to. -/
def InRing.put (x : InRing) (d l first : Nat) (bytes : List (BitVec 8)) : InRing :=
  { x.rewrite d bytes with cells := memWrite (x.rewrite d bytes).cells (l * 64) bytes,
                           came := spSet 0 x.came l first }

theorem InRing.put_lines (x : InRing) (d l first : Nat) {bytes : List (BitVec 8)} (length : bytes.length = 64) :
    (x.put d l first bytes).line l = bytes ∧ (∀ k, k ≠ l → (x.put d l first bytes).line k = x.line k) ∧
      spGet 0 (x.put d l first bytes).came l = first := by
  obtain ⟨cells, -⟩ := x.rewrite_lines d bytes
  refine ⟨?_, fun k hk => ?_, spGet_spSet_same ..⟩
  · have h := memRead_memWrite x.cells (l * 64) bytes
    rw [length] at h
    unfold InRing.put InRing.line
    rwa [cells]
  · unfold InRing.put InRing.line
    rw [cells, memRead_memWrite_apart _ (by omega)]

/-- A line that comes again is counted (R238). -/
def State.countRewrite (s : State) (p : PartId) (r l : Nat) : State :=
  if spGet 0 (s.ring p r).came l ≠ 0 then s.incF (ib p r) F.CX_IN_STAT_rewrites else s

theorem State.countRewrite_keeps (s : State) (p : PartId) (r l : Nat) :
    (s.countRewrite p r l).part = s.part ∧ (s.countRewrite p r l).memories = s.memories ∧
      (s.countRewrite p r l).f (ib p r) F.CX_IN_CFG_strike = s.f (ib p r) F.CX_IN_CFG_strike := by
  unfold State.countRewrite
  split
  · exact ⟨State.part_setF_eq .., State.memories_incF .., State.f_setF_reg _ _ (by simp [F.CX_IN_STAT_rewrites, F.CX_IN_CFG_strike,
      R.CX_IN_STAT, R.CX_IN_CFG])⟩
  · exact ⟨rfl, rfl, rfl⟩

/-- The time at which a line came first, and 1 (R238). -/
def State.firstCame (s : State) (x : InRing) (l : Nat) : Nat := if spGet 0 x.came l ≠ 0 then spGet 0 x.came l else s.ns + 1

/-- A line that stands in a ring, once its message is sealed where it is whole. -/
theorem inboxLineWrite_stands (ld : LdId) {p : PartId} (r : Fin 4) {l : Nat} {off : BitVec 20} {bytes : List Byte} {s : State}
    (takes : s.takesMem = true) (bound : s.bound ld p = true) (open_ : s.fenced p = false)
    (at_ : off.toNat = r.val * 0x40000 + 64 * l) (lt : l < s.ringSize p r) (small : l < 4096) (length : bytes.length = 64)
    (valid : s.f (ib p r) F.CX_IN_CFG_valid = 1) (quiet : s.f (ib p r) F.CX_IN_CFG_strike = 0)
    (free : linesOf ((s.ring p r).sealedBy (s.part p).cyc) ≤
      (l + s.ringSize p r - s.f (ib p r) F.CX_IN_CONS_c % s.ringSize p r) % s.ringSize p r) :
    ∃ t, exec (.inboxLineWrite ld p off bytes false) s = .next t ∧ (t.ring p r).line l = bytes ∧
      (∀ k, k ≠ l → (t.ring p r).line k = (s.ring p r).line k) ∧ spGet 0 (t.ring p r).came l ≠ 0 ∧ MemoriesKept s t ∧
      OthersKept p s t := by
  let d := (l + s.ringSize p r - s.f (ib p r) F.CX_IN_CONS_c % s.ringSize p r) % s.ringSize p r
  let y := (s.ring p r).put d l ((s.countRewrite p r l).firstCame (s.ring p r) l) bytes
  have run : exec (.inboxLineWrite ld p off bytes false) s = .next (((s.countRewrite p r l).setRing p r y).sealStrike p r) := by
    have ring : off.toNat / 0x40000 = r.val := by omega
    have line : off.toNat % 0x40000 / 64 = l := by omega
    have whole : off.toNat % 64 = 0 := by omega
    have came := ((s.ring p r).rewrite_lines d bytes).2
    show execInboxLineWrite ld p off bytes false s = _
    unfold execInboxLineWrite
    simp only [d] at came
    simp only [ring, line, takes, bound, open_, valid, length, whole, came, Nat.not_le.mpr lt, Nat.not_lt.mpr free, reduceCtorEq,
      Nat.one_ne_zero, ne_eq, not_true_eq_false, or_self, if_false]
    rfl
  obtain ⟨part, memories, fields⟩ := s.countRewrite_keeps p r l
  have quiet' : ((s.countRewrite p r l).setRing p r y).f (ib p r) F.CX_IN_CFG_strike = 0 := by
    rw [State.f_setRing, fields, quiet]
  rw [sealStrike_seals quiet'] at run
  obtain ⟨cells, came, others, kept⟩ := sealAll_seals p r (((s.countRewrite p r l).setRing p r y).ringSize p r)
    ((s.countRewrite p r l).setRing p r y)
  rw [State.ring_setRing] at cells came
  obtain ⟨here, apart, stamp⟩ := (s.ring p r).put_lines d l ((s.countRewrite p r l).firstCame (s.ring p r) l) length
  refine ⟨_, run, (InRing.line_eq cells l).trans here, fun k hk => (InRing.line_eq cells k).trans (apart k hk), ?_,
    memoriesKept_of ?_, fun q hq => ?_⟩
  · rw [came, stamp]
    unfold State.firstCame
    split <;> omega
  · rw [kept, State.setRing, State.memories_updPart, memories]
  · rw [others q hq, State.setRing, State.part_updPart_ne _ _ hq, part]

/-! ### A head message that waits, and one that is skipped (R241) -/

theorem inboxStale_shows {p : PartId} {r : Fin 4} {s : State} (valid : s.f (ib p r) F.CX_IN_CFG_valid = 1)
    (good : s.f (ib p r) F.CX_IN_STAT_bad = 0) (none_ : (s.ring p r).msgs = []) (first : (s.ring p r).staleSeen = false)
    (some_ : (s.headLines p r).1 ≠ 0)
    (late : (s.headLines p r).2 - 1 + 1000 * (if s.f (pt p) F.CX_IN_STALE_limit_us = 0 then 10000
      else s.f (pt p) F.CX_IN_STALE_limit_us) ≤ s.ns) :
    ∃ t, exec (.inboxStale p r) s = .next t ∧ t.f (ib p r) F.CX_IN_STAT_stale = 1 ∧ (t.ring p r).staleSeen = true ∧
      MemoriesKept s t ∧ OthersKept p s t := by
  have run : exec (.inboxStale p r) s = .next (((s.setRing p r { s.ring p r with staleSeen := true }).setF (ib p r)
      F.CX_IN_STAT_stale 1).ev (.part p) Ev.INBOX_STALE [r, s.f (ib p r) F.CX_IN_SEQ_next, (s.headLines p r).1]) := by
    show execInboxStale p r s = _
    unfold execInboxStale
    simp only [valid, good, none_, first, some_, Nat.one_ne_zero, Nat.zero_ne_one, List.isEmpty_nil, Bool.not_true,
      reduceCtorEq, or_self, if_false, State.waitNs, late, if_true]
    rfl
  refine ⟨_, run, ?_, ?_, memoriesKept_of ?_, fun q hq => ?_⟩
  · rw [State.f_ev _ _ _ _ (ib_notMem p r (by decide)), State.f_setF_same _ _ _ _ (by decide)]
    rfl
  · rw [State.ring_of_part ((State.part_ev ..).trans (State.part_setF_eq ..)), State.ring_setRing]
  · rw [State.memories_ev, State.memories_setF, State.setRing, State.memories_updPart]
  · rw [State.part_ev, State.part_setF_eq, State.setRing, State.part_updPart_ne _ _ hq]

/-- A consumer pointer that is set shows (R237). -/
theorem State.f_setCons_same (s : State) (p : PartId) (r c : Nat) : (s.setCons p r c).f (ib p r) F.CX_IN_CONS_c = c % 2 ^ 32 := by
  have shown (t : State) : (t.setF (ib p r) F.CX_IN_CONS_c (c % 2 ^ 32)).f (ib p r) F.CX_IN_CONS_c = c % 2 ^ 32 := by
    rw [State.f_setF_same _ _ _ _ (by decide)]
    exact Nat.mod_mod _ _
  obtain ⟨f, body⟩ : ∃ f, State.setCons = f := ⟨_, rfl⟩
  rw [body]
  delta State.setCons at body
  subst body
  dsimp only
  split
  · rw [State.f_ctlWrite, shown]
  · rw [shown]

/-- A ring that its head message of some lines has left. -/
def State.headPassed (s : State) (p : PartId) (r lines : Nat) : State :=
  let u := (s.setRing p r { s.ring p r with msgs := (s.ring p r).msgs.drop 1, staleSeen := false }).passLines p r lines
  ((u.setF (ib p r) F.CX_IN_SEQ_next ((u.f (ib p r) F.CX_IN_SEQ_next + 1) % 2 ^ 32)).setF (ib p r) F.CX_IN_STAT_sealed
    ((s.ring p r).msgs.length - 1)).setF (ib p r) F.CX_IN_STAT_stale 0

theorem State.skipHead_eq {s : State} {p : PartId} {r : Nat} {m : InMsg} {l : List InMsg} (first : (s.ring p r).msgs = m :: l) :
    s.skipHead p r = ((s.headPassed p r m.lines).ev (.part p) Ev.INBOX_SKIP [r, 1]).sealStrike p r := by
  unfold State.skipHead
  dsimp only
  rw [first]
  dsimp only
  rw [← first]
  rfl

theorem State.headPassed_shows (s : State) (p : PartId) (r lines : Nat) :
    let t := s.headPassed p r lines
    t.f (ib p r) F.CX_IN_CONS_c = (s.f (ib p r) F.CX_IN_CONS_c + lines) % 2 ^ 32 ∧
      t.f (ib p r) F.CX_IN_SEQ_next = (s.f (ib p r) F.CX_IN_SEQ_next + 1) % 2 ^ 32 ∧
      t.f (ib p r) F.CX_IN_CFG_strike = s.f (ib p r) F.CX_IN_CFG_strike ∧ OthersKept p s t ∧ t.memories = s.memories := by
  let x : InRing := { s.ring p r with msgs := (s.ring p r).msgs.drop 1, staleSeen := false }
  let u := (s.setRing p r x).passLines p r lines
  have stat (v : State) (a b : Nat) {k : Fld} (h : site (ib p r + k.reg.off) ∉ [(2, R.CX_IN_STAT.off)]) :
      ((v.setF (ib p r) F.CX_IN_STAT_sealed a).setF (ib p r) F.CX_IN_STAT_stale b).f (ib p r) k = v.f (ib p r) k := by
    rw [State.f_setF_ib (g := F.CX_IN_STAT_stale) (h := h) (hw := by decide),
      State.f_setF_ib (g := F.CX_IN_STAT_sealed) (h := h) (hw := by decide)]
  have passed {k : Fld} (h : site (ib p r + k.reg.off) ∉ [(2, R.CX_IN_CONS.off)]) : u.f (ib p r) k = s.f (ib p r) k := by
    rw [State.f_passLines _ _ _ _ h, State.f_setRing]
  have seq (v : State) (n : Nat) {k : Fld} (h : site (ib p r + k.reg.off) ∉ [(2, R.CX_IN_SEQ.off)]) :
      (v.setF (ib p r) F.CX_IN_SEQ_next n).f (ib p r) k = v.f (ib p r) k :=
    State.f_setF_ib (g := F.CX_IN_SEQ_next) (h := h) (hw := by decide) ..
  have cons : u.f (ib p r) F.CX_IN_CONS_c = (s.f (ib p r) F.CX_IN_CONS_c + lines) % 2 ^ 32 := by
    unfold u State.passLines
    dsimp only
    rw [State.f_setCons_same, State.f_setRing]
  have parts : OthersKept p s u := by
    unfold u State.passLines
    dsimp only
    refine othersKept_trans ?_ (othersKept_of_part (State.part_setCons ..))
    exact othersKept_trans (othersKept_updPart s p _) (othersKept_updPart _ p _)
  unfold State.headPassed
  refine ⟨?_, ?_, ?_, othersKept_trans parts (othersKept_of_part ?_), ?_⟩
  · rw [stat _ _ _ (ib_notMem p r (by decide)), seq _ _ (ib_notMem p r (by decide))]
    exact cons
  · rw [stat _ _ _ (ib_notMem p r (by decide)), State.f_setF_same _ _ _ _ (by decide)]
    refine (Nat.mod_mod _ _).trans ?_
    rw [show _ = s.f (ib p r) F.CX_IN_SEQ_next from passed (ib_notMem p r (by decide))]
  · rw [stat _ _ _ (ib_notMem p r (by decide)), seq _ _ (ib_notMem p r (by decide))]
    exact passed (ib_notMem p r (by decide))
  · rw [State.part_setF_eq, State.part_setF_eq, State.part_setF_eq]
  · rw [State.memories_setF, State.memories_setF, State.memories_setF, State.memories_passLines, State.setRing,
      State.memories_updPart]

/-! ### A stroke that is due -/

/-- Every partition but one. -/
def State.apart (s : State) (p : PartId) : PartId → Part := fun r => if r = p then .init else s.part r

theorem State.apart_of_part {s t : State} (h : t.part = s.part) (p : PartId) : t.apart p = s.apart p := by
  unfold State.apart
  rw [h]

theorem othersKept_iff {p : PartId} {s t : State} : OthersKept p s t ↔ t.apart p = s.apart p := by
  refine ⟨fun h => funext fun r => ?_, fun h r hr => ?_⟩
  · unfold State.apart
    split
    · rfl
    next hr => exact h r hr
  · simpa only [State.apart, hr, if_false] using congrFun h r

theorem State.apart_updPart (s : State) (p : PartId) (g : Part → Part) : (s.updPart p g).apart p = s.apart p :=
  othersKept_iff.mp (othersKept_updPart s p g)

theorem State.apart_ite {c : Prop} [Decidable c] {a b : State} (p : PartId) :
    State.apart (if c then a else b) p = if c then a.apart p else b.apart p := by
  split <;> rfl

theorem State.apart_setF (s : State) (b : Nat) (g : Fld) (v : Nat) (p : PartId) : (s.setF b g v).apart p = s.apart p :=
  State.apart_of_part (s.part_setF_eq b g v) p

theorem State.apart_incF (s : State) (b : Nat) (g : Fld) (n : Nat) (p : PartId) : (s.incF b g n).apart p = s.apart p :=
  s.apart_setF ..

theorem State.apart_ev (s : State) (x : Src) (code : Nat) (cap : List Nat) (p : PartId) : (s.ev x code cap).apart p = s.apart p :=
  State.apart_of_part (s.part_ev x code cap) p

theorem State.apart_showPending (s : State) (p r : PartId) : (s.showPending p).apart r = s.apart r := s.apart_setF ..

theorem State.apart_noteFull (s : State) (p : PartId) : (s.noteFull p).apart p = s.apart p := by
  unfold State.noteFull
  split
  · rfl
  · simp only [State.apart_ite, State.apart_ev, State.apart_incF, State.apart_updPart, ite_self]

theorem State.apart_issueStroke (s : State) (p : PartId) (late : Bool) : (s.issueStroke p late).apart p = s.apart p :=
  othersKept_iff.mp (issueStroke_strikes s p late).2.2.2.1

theorem State.apart_tryStrike (s : State) (p : PartId) (c : Nat) : (s.tryStrike p c false).apart p = s.apart p := by
  unfold State.tryStrike
  split
  · rfl
  next h =>
    rw [s.waitCycle_of_le (by simpa using h)]
    simp only [State.apart_showPending, State.apart_updPart, State.apart_ite, State.apart_issueStroke, ite_self]

theorem State.cyc_noteFull (s : State) (p : PartId) : ((s.noteFull p).part p).cyc = (s.part p).cyc := by
  unfold State.noteFull
  split
  · rfl
  · split
    · rfl
    · dsimp only
      rw [State.part_ev, State.part_incF, State.part_updPart_same]

/-- What pends strokes, or waits. -/
theorem apart_pending {s u : State} {p : PartId} (same : u.apart p = s.apart p) (cyc : (u.part p).cyc = (s.part p).cyc) (late : Bool)
    (b : Bool) :
    (if u.mayStroke p = false then u
      else if (s.part p).cyc < u.spacedAt p ∧ false = false then u
      else (if b then (u.waitCycle p (u.spacedAt p)).incF (pt p) F.TK_STRIKE_STATS_spaced
        else u.waitCycle p (u.spacedAt p) : State).issueStroke p late : State).apart p = s.apart p := by
  split
  · exact same
  · split
    · exact same
    next h =>
      rw [u.waitCycle_of_le (by rw [cyc]; simpa using h), State.apart_issueStroke, State.apart_ite, State.apart_incF, ite_self, same]

theorem State.apart_tryPending (s : State) (p : PartId) : (s.tryPending p false).apart p = s.apart p := by
  unfold State.tryPending
  dsimp only
  split
  · exact s.apart_tryStrike p _
  · split
    · rfl
    · split
      · exact apart_pending (s.apart_noteFull p) (s.cyc_noteFull p) _ _
      · exact apart_pending rfl rfl _ _

theorem State.apart_strokeNow (s : State) (p : PartId) : (s.strokeNow p).apart p = s.apart p := by
  simp only [State.strokeNow, State.apart_ite, State.apart_issueStroke, State.apart_updPart, State.apart_tryPending, ite_self]

/-! ### A ring's reset (R240) -/

theorem resetRing_empties (s : State) (p : PartId) (r : Nat) :
    let t := s.resetRing p r
    (t.ring p r).msgs = [] ∧ (t.ring p r).came = [] ∧ t.f (ib p r) F.CX_IN_CONS_c = 0 ∧ t.f (ib p r) F.CX_IN_SEQ_next = 0 ∧
      t.f (ib p r) F.CX_IN_STAT_bad = 0 ∧ t.f (ib p r) F.CX_IN_STAT_sealed = 0 ∧ OthersKept p s t := by
  have stat (v : State) {k : Fld} (h : site (ib p r + k.reg.off) ∉ [(2, R.CX_IN_STAT.off), (1, 0xB00)]) (c : List Nat) :
      ((((v.setF (ib p r) F.CX_IN_STAT_bad 0).setF (ib p r) F.CX_IN_STAT_stale 0).setF (ib p r) F.CX_IN_STAT_sealed 0).ev
        (.part p) Ev.INBOX_SKIP c).f (ib p r) k = v.f (ib p r) k := by
    rw [State.f_ev _ _ _ _ (notMem_of_subset h (by decide)), State.f_setF_ib (g := F.CX_IN_STAT_sealed) (h := h) (hw := by decide),
      State.f_setF_ib (g := F.CX_IN_STAT_stale) (h := h) (hw := by decide),
      State.f_setF_ib (g := F.CX_IN_STAT_bad) (h := h) (hw := by decide)]
  unfold State.resetRing
  dsimp only
  have part (v : State) (c : List Nat) : ((((v.setF (ib p r) F.CX_IN_STAT_bad 0).setF (ib p r) F.CX_IN_STAT_stale 0).setF (ib p r)
      F.CX_IN_STAT_sealed 0).ev (.part p) Ev.INBOX_SKIP c).part = v.part := by
    rw [State.part_ev, State.part_setF_eq, State.part_setF_eq, State.part_setF_eq]
  refine ⟨?_, ?_, ?_, ?_, ?_, ?_, ?_⟩
  · rw [State.ring_of_part (part _ _), State.ring_of_part (State.part_setF_eq ..), State.ring_of_part (State.part_setCons ..),
      State.ring_setRing]
  · rw [State.ring_of_part (part _ _), State.ring_of_part (State.part_setF_eq ..), State.ring_of_part (State.part_setCons ..),
      State.ring_setRing]
  · rw [stat _ (ib_notMem p r (by decide)), State.f_setF_ib (W := [(2, R.CX_IN_SEQ.off)]) (ib_notMem p r (by decide)) _ _ _ (by decide),
      State.f_setCons_same]
    rfl
  · rw [stat _ (ib_notMem p r (by decide)), State.f_setF_same _ _ _ _ (by decide)]
    rfl
  · rw [State.f_ev _ _ _ _ (ib_notMem p r (by decide)),
      State.f_setF_field (g := F.CX_IN_STAT_sealed) (k := F.CX_IN_STAT_bad) _ _ _ rfl (by decide),
      State.f_setF_field (g := F.CX_IN_STAT_stale) (k := F.CX_IN_STAT_bad) _ _ _ rfl (by decide),
      State.f_setF_same _ _ _ _ (by decide)]
    rfl
  · rw [State.f_ev _ _ _ _ (ib_notMem p r (by decide)), State.f_setF_same _ _ _ _ (by decide)]
    rfl
  · rw [othersKept_iff, State.apart_of_part (part _ _), State.apart_setF, State.apart_of_part (State.part_setCons ..), State.setRing,
      State.apart_updPart]

/-! ### Landing copies and intake tokens (R243, R244) -/

/-- A piece of a held write in one row (R128). -/
def HeldWrite.piece (w : HeldWrite) (v : Nat × Nat) : HeldWrite :=
  { w with addr := v.1, bytes := (w.bytes.drop (v.1 - w.addr)).take v.2 }

/-- One piece of a held write joins the write buffer, or waits for room in it. -/
def State.holdPiece (t : State) (q : QuireId) (w : HeldWrite) (v : Nat × Nat) : State :=
  let o := v.1 - w.addr
  let piece : HeldWrite :=
    { w with addr := v.1, bytes := (w.bytes.drop o).take v.2, poison := w.poison / 2 ^ (o / 64) % 2 ^ ((v.2 + 63) / 64) }
  let x := t.qu q
  if x.wbuf.length < 32 ∧ x.wwait.isEmpty then
    (t.setQu q { x with wbuf := x.wbuf ++ [piece] }).setF (qb q) F.LF_RACE_wbuf_peak
      (max (t.f (qb q) F.LF_RACE_wbuf_peak) (x.wbuf.length + 1))
  else t.setQu q { x with wwait := x.wwait ++ [piece] }

theorem holdPiece_joins {t : State} {q : QuireId} {w : HeldWrite} (plain : w.poison = 0) (none_ : (t.qu q).wwait = [])
    (room : (t.qu q).wbuf.length < 32) (v : Nat × Nat) :
    (t.holdPiece q w v).qu q = { t.qu q with wbuf := (t.qu q).wbuf ++ [w.piece v] } := by
  unfold State.holdPiece
  dsimp only
  rw [if_pos ⟨room, by rw [none_]; rfl⟩, State.qu_setF, State.qu_setQu_same]
  simp only [HeldWrite.piece, plain, Nat.zero_div, Nat.zero_mod]

/-- With room in the write buffer every piece of a write joins it. -/
theorem holdWrite_joins {s : State} {q : QuireId} {w : HeldWrite} (plain : w.poison = 0) (none_ : (s.qu q).wwait = [])
    (room : (s.qu q).wbuf.length + (rowParts w.addr w.bytes.length).length ≤ 32) :
    ((s.holdWrite q w).qu q).wbuf = (s.qu q).wbuf ++ (rowParts w.addr w.bytes.length).map w.piece := by
  have pieces : ∀ (l : List (Nat × Nat)) (t : State), (t.qu q).wwait = [] → (t.qu q).wbuf.length + l.length ≤ 32 →
      ((l.foldl (fun t v => t.holdPiece q w v) t).qu q).wbuf = (t.qu q).wbuf ++ l.map w.piece := by
    intro l
    induction l with
    | nil => exact fun t _ _ => (List.append_nil _).symm
    | cons v l ih =>
      intro t none_ room
      rw [List.length_cons] at room
      have first := holdPiece_joins plain none_ (by omega) v
      rw [List.foldl_cons, ih _ (by rw [first]; exact none_) (by rw [first, List.length_append]; simp only [List.length_singleton]; omega),
        first, List.map_cons, List.append_assoc, List.singleton_append]
  exact pieces _ s none_ room

/-- A write of a ring's control register reaches it (R240, R241). -/
theorem asWrite_ib {s : State} {w : Writer} {p : PartId} (r : Fin 4) (value : Nat) (k : State → State)
    (pass : s.gateOf w (ib p r + R.CX_IN_CTRL.off) = .pass) :
    s.asWrite w (ib p r + R.CX_IN_CTRL.off) value k = k (s.noted w (ib p r + R.CX_IN_CTRL.off) value) := by
  have at_ : ib p r + R.CX_IN_CTRL.off = pt p + (0x640 + 0x20 * r.val + R.CX_IN_CTRL.off) := by
    have := r.isLt
    unfold ib
    omega
  have small : 0x640 + 0x20 * r.val + R.CX_IN_CTRL.off < 0x800000 ∧ 0x640 + 0x20 * r.val + R.CX_IN_CTRL.off ≠ R.TK_STRIKE.off := by
    clear at_ pass
    revert r
    decide
  rw [at_] at pass ⊢
  exact asWrite_pt value k pass small.1 small.2

theorem State.part_noted (s : State) (w : Writer) (addr value : Nat) : (s.noted w addr value).part = s.part :=
  funext (State.part_congr (s.noted_parts w addr value))

theorem State.memories_noted (s : State) (w : Writer) (addr value : Nat) : (s.noted w addr value).memories = s.memories :=
  State.memories_of_butEvents (s.noted_rest ..)

/-- The head message of a ring is skipped. -/
theorem inboxSkip_passes {w : Writer} {p : PartId} {r : Fin 4} {m : InMsg} {l : List InMsg} {s : State}
    (pass : s.gateOf w (ib p r + R.CX_IN_CTRL.off) = .pass) (first : (s.ring p r).msgs = m :: l)
    (quiet : s.f (ib p r) F.CX_IN_CFG_strike = 0) :
    ∃ t, exec (.inboxSkip w p r) s = .next t ∧ MemoriesKept s t ∧ OthersKept p s t ∧
      t.f (ib p r) F.CX_IN_CONS_c = (s.f (ib p r) F.CX_IN_CONS_c + m.lines) % 2 ^ 32 ∧
      t.f (ib p r) F.CX_IN_SEQ_next = (s.f (ib p r) F.CX_IN_SEQ_next + 1) % 2 ^ 32 := by
  let u := s.noted w (ib p r + R.CX_IN_CTRL.off) 1
  have fields {k : Fld} (h : k.reg.off < 0x20) : u.f (ib p r) k = s.f (ib p r) k :=
    s.noted_f w _ _ (ib_notMem p r ⟨h, by simp⟩)
  have first' : (u.ring p r).msgs = m :: l := by rw [State.ring_of_part (s.part_noted ..), first]
  obtain ⟨cons, seq, strike, others, memories⟩ := u.headPassed_shows p r m.lines
  let v := (u.headPassed p r m.lines).ev (.part p) Ev.INBOX_SKIP [r, 1]
  have kept {k : Fld} (h : k.reg.off < 0x20) : v.f (ib p r) k = (u.headPassed p r m.lines).f (ib p r) k :=
    State.f_ev _ _ _ _ (ib_notMem p r ⟨h, by simp⟩)
  have run : exec (.inboxSkip w p r) s = .next (v.sealAll p r (v.ringSize p r)).1 := by
    refine congrArg Host.Outcome.next ((asWrite_ib r 1 _ pass).trans ?_)
    rw [State.skipHead_eq first', sealStrike_seals]
    rw [kept (by decide), strike, fields (by decide), quiet]
  obtain ⟨-, -, others', memories'⟩ := sealAll_seals p r (v.ringSize p r) v
  refine ⟨_, run, memoriesKept_of ?_, ?_, ?_, ?_⟩
  · rw [memories', State.memories_ev, memories, State.memories_noted]
  · refine othersKept_trans (othersKept_of_part (s.part_noted ..)) (othersKept_trans others ?_)
    exact othersKept_trans (othersKept_of_part (State.part_ev ..)) others'
  · rw [State.f_sealAll _ _ _ _ (ib_notMem p r (by decide)), kept (by decide), cons, fields (by decide)]
  · rw [State.f_sealAll _ _ _ _ (ib_notMem p r (by decide)), kept (by decide), seq, fields (by decide)]

theorem inboxReset_empties {w : Writer} {p : PartId} {r : Fin 4} {s : State}
    (pass : s.gateOf w (ib p r + R.CX_IN_CTRL.off) = .pass) :
    ∃ t, exec (.inboxReset w p r) s = .next t ∧ (t.ring p r).msgs = [] ∧ (t.ring p r).came = [] ∧
      t.f (ib p r) F.CX_IN_CONS_c = 0 ∧ t.f (ib p r) F.CX_IN_SEQ_next = 0 ∧ t.f (ib p r) F.CX_IN_STAT_bad = 0 ∧
      t.f (ib p r) F.CX_IN_STAT_sealed = 0 ∧ MemoriesKept s t ∧ OthersKept p s t := by
  let u := s.noted w (ib p r + R.CX_IN_CTRL.off) 2
  have run : exec (.inboxReset w p r) s = .next ((u.strokeNow p).resetRing p r) :=
    congrArg Host.Outcome.next (asWrite_ib r 2 _ pass)
  obtain ⟨msgs, came, cons, seq, bad, sealed_, others⟩ := resetRing_empties (u.strokeNow p) p r
  refine ⟨_, run, msgs, came, cons, seq, bad, sealed_, memoriesKept_of ?_, othersKept_trans ?_ others⟩
  · rw [State.memories_resetRing, State.memories_strokeNow, State.memories_noted]
  · rw [othersKept_iff, State.apart_strokeNow, State.apart_of_part (s.part_noted ..)]

/-- A ring whose message is being copied to its landing slot (R243). -/
def InRing.copying (x : InRing) (m : InMsg) : InRing :=
  let mark (l : List InMsg) := l.map (fun b => if b = m then { b with copied := true } else b)
  { x with bound := mark x.bound, msgs := mark x.msgs }

/-- The next message of a ring joins the write buffer of its quire (R243). -/
theorem landingCopy_joins {p : PartId} {r : Fin 4} {m : InMsg} {s : State}
    (next_ : nextCopy [] ((s.ring p r).bound ++ (s.ring p r).msgs) = some (m, [])) :
    let q := quireOf p (s.f (ib p r) F.CX_IN_TGT_quire)
    let w : HeldWrite := { addr := (s.landSlot p r m.seq).2, bytes := m.landed, writer := unitWord 0x10 0, poison := 0,
                           marked := false, page := none }
    (s.qu q).wwait = [] → (s.qu q).wbuf.length + (rowParts w.addr m.landed.length).length ≤ 32 →
    ∃ t, exec (.landingCopy p r) s = .next t ∧ t.memories = s.memories ∧
      (t.qu q).wbuf = (s.qu q).wbuf ++ (rowParts w.addr m.landed.length).map w.piece := by
  intro q w none_ room
  obtain ⟨u, run, memories, qu⟩ : ∃ u : State, exec (.landingCopy p r) s = .next (u.holdWrite q w) ∧ u.memories = s.memories ∧
      u.qu q = s.qu q := by
    refine ⟨(s.setRing p r ((s.ring p r).copying m)).waitCycle p m.sealedAt, ?run, ?memories, ?qu⟩
    case run =>
      show execLandingCopy p r s = _
      unfold execLandingCopy
      dsimp only
      rw [next_]
      rfl
    case memories => rw [State.memories_waitCycle, State.setRing, State.memories_updPart]
    case qu =>
      rw [State.qu, State.quires_of_butTime (State.waitCycle_rest ..)]
      rfl
  refine ⟨_, run, (State.memories_holdWrite ..).trans memories, ?_⟩
  rw [holdWrite_joins (w := w) rfl (by rw [qu]; exact none_) (by rw [qu]; exact room), qu]

/-- An intake token whose copy has landed is taken in. -/
theorem intakeTokenRelease_took {p : PartId} {r : Fin 4} {d : DueTok} {seq : Nat} {s : State} (one : (s.part p).dueToks = [d])
    (of_ : d.msg = some (r.val, seq)) (open_ : (s.qu d.u.quire).open_ = true) (landed : s.copyLanded p r seq = true)
    (first : d.blocked = false) (port : d.port < 32) (tag : d.tag < 4096) :
    let k : Tok := { data := d.data, tag := d.tag, port := d.port, epoch := s.f (qb d.u.quire) F.CH_EPOCH_epoch, ctl := d.ctl,
                     check := 0 }
    receivable s d.u (k.sealed d.u) →
    ∃ t, exec (.intakeTokenRelease p r) s = .next t ∧ (t.part p).dueToks = [] ∧
      TookToken d.u (k.sealed d.u) d.pos .internal s t ∧ t.mem = s.mem ∧ t.quires = s.quires := by
  intro k ready
  let u := s.updPart p (fun x => { x with dueToks := x.dueToks.erase d })
  have run : exec (.intakeTokenRelease p r) s = .next (u.arriveToken d.u (k.sealed d.u) .internal d.pos) := by
    show execIntakeTokenRelease p r s = _
    unfold execIntakeTokenRelease
    simp only [one, List.find?_cons, of_, decide_true, open_, landed, first, reduceCtorEq, if_false, State.pauseTransit, if_true,
      Nat.add_zero, State.internalToken, Nat.mod_eq_of_lt port, Nat.mod_eq_of_lt tag]
    rfl
  have ready' : receivable u d.u (k.sealed d.u) := ready
  obtain ⟨took, quires, mem⟩ := State.arriveToken_took ready' .internal d.pos
  refine ⟨_, run, ?_, took, mem, quires⟩
  rw [State.arriveToken_of_receivable ready', State.part_setF_eq]
  show (u.part p).dueToks = []
  rw [State.part_updPart_same, one]
  exact List.erase_cons_head ..

/-- Settles O39: what a ring, its messages and their copies take leaves the other partitions and every memory. -/
theorem inboxRings : Obligations.InboxRings := by
  unfold Obligations.InboxRings
  refine ⟨?line, ?stale, ?skip, ?reset, ?copy, ?token⟩
  case line =>
    intro ld p r l off bytes s takes bound open_ at_ lt small length valid quiet free
    exact inboxLineWrite_stands ld r takes bound open_ at_ lt small length valid quiet free
  case stale =>
    intro p r s valid good none_ first some_ late
    exact inboxStale_shows valid good none_ first some_ late
  case skip =>
    intro w p r m l s pass first quiet
    exact inboxSkip_passes pass first quiet
  case reset =>
    intro w p r s pass
    exact inboxReset_empties pass
  case copy =>
    intro p r m s next_ q a none_ room
    obtain ⟨t, run, memories, joins⟩ := landingCopy_joins next_ none_ room
    exact ⟨t, run, memoriesKept_of memories, joins⟩
  case token =>
    intro p r d seq s one of_ open_ landed first port tag k ready
    exact intakeTokenRelease_took one of_ open_ landed first port tag ready

end Sys2Proof.Machine
end

section
namespace Sys2Proof.Machine

-- Proved in parallel, these proofs hold a thread each, whose stacks pass the check's memory.
set_option Elab.async false

/-! ## O29: the pager's entries

Where no word of partition memory holds an error, a read counts none and a write stands whole. -/

theorem State.parts_devWriteP (s : State) (p : PartId) (off : Nat) : (s.devWriteP p off).parts = s.parts := by
  unfold State.devWriteP
  split <;> simp only [State.parts_devWrite]

theorem State.parts_devWriteMem (s : State) (p : PartId) (a n : Nat) : (s.devWriteMem p a n).parts = s.parts := by
  simp only [State.devWriteMem, State.parts_ite, ite_self, implies_true, State.parts_foldl, State.parts_devWrite,
    State.parts_devWriteP]

theorem State.parts_countPage (s : State) (h : Hint) : (s.countPage h).parts = s.parts := by
  simp only [State.countPage, State.parts_setCnt]

theorem State.memErr_of_clean {s : State} (clean : s.memMark = []) (p : PartId) (a : Nat) : s.memErr p a = 0 := by
  rw [State.memErr, clean]
  rfl

theorem State.countEcc_of_clean {s : State} (clean : s.memMark = []) (p : PartId) (a : Nat) : s.countEcc p a = s := by
  unfold State.countEcc
  rw [State.memErr_of_clean clean]
  rfl

/-- A read of memory without error. -/
theorem State.pmRead_of_clean {s : State} (clean : s.memMark = []) (p : PartId) (a n : Nat) :
    s.pmRead p a n = (s, memRead s.mem (memKey p a) n, []) := by
  have same : ∀ l : List Nat, l.foldl (fun t x => State.countEcc t p x) s = s := by
    intro l
    induction l with
    | nil => rfl
    | cons x l ih => rw [List.foldl_cons, State.countEcc_of_clean clean, ih]
  unfold State.pmRead
  simp only [same, State.memErr_of_clean clean]
  simp

/-- The device with other bytes in partition memory. -/
def State.withMem (s : State) (m : Sparse (BitVec 8)) : State := { s with mem := m }

theorem memWrite_append (l k : List (BitVec 8)) : ∀ (m : Sparse (BitVec 8)) (a : Nat),
    memWrite (memWrite m a l) (a + l.length) k = memWrite m a (l ++ k) := by
  induction l with
  | nil => exact fun m a => rfl
  | cons b l ih =>
    intro m a
    rw [List.length_cons, List.cons_append, show a + (l.length + 1) = a + 1 + l.length by omega]
    exact ih (spSet 0 m a b) (a + 1)

/-- One code word of a write to partition memory (R187). -/
def pmStep (p : PartId) (a : Nat) (l : List (BitVec 8)) (t : State × Bool) (w : Nat) : State × Bool :=
  let n := l.length
  let lo := max w a
  let hi := min (w + 32) (a + n)
  let part := (l.drop (lo - a)).take (hi - lo)
  let whole := decide (a ≤ w) && decide (w + 32 ≤ a + n)
  if !whole && decide (t.1.memErr p w = 2) then (t.1.countEcc p w, true)
  else
    let u := if whole then t.1 else t.1.countEcc p w
    ({ u with mem := memWrite u.mem (memKey p lo) part, memMark := spDel u.memMark (markKey p w) }, t.2)

theorem pmStep_of_clean {t : State} (clean : t.memMark = []) (p : PartId) (a : Nat) (l : List (BitVec 8)) (b : Bool) (w : Nat) :
    pmStep p a l (t, b) w = (t.withMem (memWrite t.mem (memKey p (max w a))
      ((l.drop (max w a - a)).take (min (w + 32) (a + l.length) - max w a))), b) := by
  have marks : spDel t.memMark (markKey p w) = t.memMark := by rw [clean]; rfl
  unfold pmStep
  simp only [State.memErr_of_clean clean, State.countEcc_of_clean clean, ite_self, marks]
  rw [if_neg (by simp)]
  rfl

/-- The bytes of a write that its first code words take. -/
def pmDone (a n i : Nat) : Nat := min (a + n) ((a / 32 + i) * 32) - a

/-- The first code words of a write to memory without error. -/
theorem pmSteps_of_clean {s : State} (clean : s.memMark = []) (p : PartId) (a : Nat) (l : List (BitVec 8)) (i : Nat)
    (le : ∀ j < i, (a / 32 + j) * 32 ≤ a + l.length) :
    (List.range i).foldl (fun t j => pmStep p a l t ((a / 32 + j) * 32)) (s, false) =
      (s.withMem (memWrite s.mem (memKey p a) (l.take (pmDone a l.length i))), false) := by
  induction i with
  | zero =>
    rw [show pmDone a l.length 0 = 0 by unfold pmDone; omega, List.take_zero]
    rfl
  | succ i ih =>
    have still (m : Sparse (BitVec 8)) : (s.withMem m).memMark = [] := clean
    have fits := le i (Nat.lt_succ_self i)
    have done : pmDone a l.length i ≤ l.length := by unfold pmDone; omega
    have start : max ((a / 32 + i) * 32) a = a + pmDone a l.length i := by unfold pmDone; omega
    have stop : min ((a / 32 + i) * 32 + 32) (a + l.length) = a + pmDone a l.length (i + 1) := by unfold pmDone; omega
    rw [List.range_succ, List.foldl_append, ih fun j hj => le j (Nat.lt_succ_of_lt hj), List.foldl_cons, List.foldl_nil,
      pmStep_of_clean (still _), start, stop]
    have key : memKey p (a + pmDone a l.length i) = memKey p a + (l.take (pmDone a l.length i)).length := by
      rw [List.length_take, Nat.min_eq_left done, memKey, memKey, Nat.add_assoc]
    have pieces : l.take (pmDone a l.length i) ++ (l.drop (a + pmDone a l.length i - a)).take
        (a + pmDone a l.length (i + 1) - (a + pmDone a l.length i)) = l.take (pmDone a l.length (i + 1)) := by
      rw [Nat.add_sub_cancel_left, Nat.add_sub_add_left, ← List.take_add]
      congr 1
      unfold pmDone
      omega
    show (s.withMem (memWrite (memWrite s.mem _ _) _ _), false) = _
    rw [key, memWrite_append, pieces]

/-- A write to memory without error stands whole. -/
theorem State.pmWrite_of_clean {s : State} (clean : s.memMark = []) (p : PartId) (a : Nat) (l : List (BitVec 8)) :
    (s.pmWrite p a l).1 = s.withMem (memWrite s.mem (memKey p a) l) := by
  have steps : s.pmWrite p a l = (codeWords 32 a l.length).foldl (pmStep p a l) (s, false) := rfl
  rw [steps]
  unfold codeWords
  split
  next none_ =>
    rw [List.length_eq_zero_iff.mp none_]
    rfl
  next some_ =>
    rw [List.foldl_map, pmSteps_of_clean clean p a l _ (by omega)]
    have whole : l.length ≤ pmDone a l.length ((a + l.length - 1) / 32 - a / 32 + 1) := by unfold pmDone; omega
    rw [List.take_of_length_le whole]

/-! ### An entry's place -/

/-- The entries of partition `p` are one, `g`. -/
def State.hasHint (s : State) (p : PartId) (g : Hint) : Prop := (s.part p).hints = [g]

theorem hasHint_setHint {s : State} {p : PartId} {g h : Hint} (one : s.hasHint p g) (id : g.id = h.id) (part : h.part = p) :
    (s.setHint h).hasHint p h := by
  unfold State.setHint State.updHints State.hasHint
  rw [part, State.part_updPart_same, one]
  simp only [List.map_cons, List.map_nil, id, if_true]

theorem hasHint_of_part {s t : State} {p : PartId} {g : Hint} (h : t.part = s.part) (one : s.hasHint p g) : t.hasHint p g := by
  unfold State.hasHint
  rw [h]
  exact one

/-- Rows that go to the write buffer change of their entry only how much of it has gone. -/
theorem pushRows_moves (n : Nat) : ∀ (s : State) (p : PartId) (g h : Hint), s.hasHint p g → g.id = h.id → h.part = p →
    g.part = p → ∃ m, (s.pushRows h n).hasHint p { g with moved := m } := by
  induction n with
  | zero => exact fun s p g h one _ _ _ => ⟨g.moved, one⟩
  | succ n ih =>
    intro s p g h one id part own
    have found : [g].find? (fun k => decide (k.id = h.id)) = some g := by simp [id]
    unfold State.pushRows
    rw [part, show (s.part p).hints = [g] from one, found]
    dsimp only
    split
    · refine ih _ p { g with moved := g.moved + 512 } g (hasHint_setHint (g := g) (hasHint_of_part ?_ one) rfl own) rfl own own
      rw [State.part_setF_eq]
      rfl
    · exact ⟨g.moved, one⟩

/-! ### The start of an entry (R170, R182) -/

/-- A single entry that waits is the next to start. -/
theorem execPagerEntryStart_one {p : PartId} {h : Hint} {s : State} (one : (s.part p).hints = [h]) (queued : h.phase = .queued)
    (free : s.f (pt p) F.RS_STATUS_fenced = 0) :
    execPagerEntryStart p s = if (s.findPage h).2.2.1 = 5 then .fault .noPartitionMemory
      else if 2048 < s.outstanding p + h.size / 256 then .next s else .next (s.startHint h) := by
  have alone : s.blockedBy h [h] = 0 := by
    unfold State.blockedBy
    simp
  unfold execPagerEntryStart
  simp only [one, queued, free, alone, List.filter_cons, List.filter_nil, beq_self_eq_true, if_true, List.foldl_cons,
    List.foldl_nil, insHint, Nat.zero_ne_one, if_false, List.find?_cons, decide_true, List.takeWhile_cons, ne_eq,
    not_true_eq_false, decide_false, reduceCtorEq]

/-- The page of an entry of a linear table in range (R170). -/
theorem State.findPage_linear {s : State} {h : Hint} {p : PartId} (own : h.part = p)
    (linear : s.f (tb p h.table) F.PG_TBL_CFG_mode = 0) (code : h.code + 4 ≤ pmaEnd)
    (range : s.f (tb p h.table) F.PG_TBL_BASE_pma * 64 + s.pageIndex p h.table h.pos * h.size + h.size ≤ progEnd) :
    s.findPage h = (s, s.f (tb p h.table) F.PG_TBL_BASE_pma * 64 + s.pageIndex p h.table h.pos * h.size, 0, 0) := by
  unfold State.findPage
  simp only [own, linear, if_true, Nat.not_lt.mpr code, Nat.not_lt.mpr range, if_false]

/-- A page-in that moves: its address, its bytes and no error. -/
def Hint.movingFrom (h : Hint) (a : Nat) (data : List (BitVec 8)) : Hint :=
  { h with phase := .moving, pma := a, data := data, bad := [], status := 0 }

theorem State.startHint_moves {s : State} {h : Hint} {p : PartId} {a : Nat} (own : h.part = p) (into : h.isOut = false)
    (clean : s.memMark = []) (page : s.findPage h = (s, a, 0, 0)) :
    s.startHint h = (s.setHint (h.movingFrom a (memRead s.mem (memKey p a) h.size))).pushRows
      (h.movingFrom a (memRead s.mem (memKey p a) h.size)) 32 := by
  unfold State.startHint
  simp only [page, own, into, State.pmRead_of_clean clean, reduceCtorEq, if_false, ne_eq, not_true_eq_false, List.map_nil,
    List.dedup_nil, if_true, badGranules, List.foldl_nil, Nat.zero_ne_one, OfNat.zero_ne_ofNat]
  rfl

theorem pagerEntryStart_moves {p : PartId} {h : Hint} {s : State} (one : (s.part p).hints = [h]) (queued : h.phase = .queued)
    (own : h.part = p) (into : h.isOut = false) (free : s.f (pt p) F.RS_STATUS_fenced = 0) (code : h.code + 4 ≤ pmaEnd)
    (left : s.outstanding p + h.size / 256 ≤ 2048) (linear : s.f (tb p h.table) F.PG_TBL_CFG_mode = 0) (clean : s.memMark = [])
    (range : s.f (tb p h.table) F.PG_TBL_BASE_pma * 64 + s.pageIndex p h.table h.pos * h.size + h.size ≤ progEnd) :
    ∃ t h', exec (.pagerEntryStart p) s = .next t ∧ (t.part p).hints = [h'] ∧ h'.id = h.id ∧ h'.phase = .moving ∧
      h'.pma = s.f (tb p h.table) F.PG_TBL_BASE_pma * 64 + s.pageIndex p h.table h.pos * h.size ∧
      h'.data = memRead s.mem (memKey p h'.pma) h.size ∧ h'.status = 0 ∧ MemoriesKept s t := by
  have page := State.findPage_linear own linear code range
  let a := s.f (tb p h.table) F.PG_TBL_BASE_pma * 64 + s.pageIndex p h.table h.pos * h.size
  let g := h.movingFrom a (memRead s.mem (memKey p a) h.size)
  have run : exec (.pagerEntryStart p) s = .next ((s.setHint g).pushRows g 32) := by
    refine (execPagerEntryStart_one one queued free).trans ?_
    rw [page]
    dsimp only
    rw [if_neg (by decide), if_neg (by omega), State.startHint_moves own into clean page]
  obtain ⟨m, moved⟩ := pushRows_moves 32 (s.setHint g) p g g (hasHint_setHint (g := h) one rfl own) rfl own own
  refine ⟨_, _, run, moved, rfl, rfl, rfl, rfl, rfl, memoriesKept_of ?_⟩
  rw [State.memories_pushRows, State.memories_setHint]

/-! ### The end of an entry (R178) -/

/-- With no upload waiting none lands. -/
theorem landUploads_of_none {s : State} {p : PartId} (none_ : (s.part p).uploads = []) :
    s.landUploads p = s.updPart p (fun x => { x with uploads := [] }) := by
  unfold State.landUploads
  rw [none_]
  rfl

theorem uploads_of_part {s t : State} (h : t.part = s.part) (p : PartId) : (t.part p).uploads = (s.part p).uploads := by rw [h]

theorem State.uploads_setHint {s : State} {h : Hint} (p : PartId) (none_ : (s.part p).uploads = []) :
    ((s.setHint h).part p).uploads = [] := by
  unfold State.setHint State.updHints
  by_cases e : p = h.part
  · rw [e, State.part_updPart_same, ← e]
    exact none_
  · rw [State.part_updPart_ne _ _ e, none_]

/-- An entry that ends, with nothing waiting behind its page. -/
theorem landed_hasHint {u s : State} {p : PartId} {h g : Hint} (one : s.hasHint p h) (id : h.id = g.id) (own : g.part = p)
    (none_ : (s.part p).uploads = []) (same : u.part = (s.setHint g).part) :
    (u.landUploads p).hasHint p g ∧ u.landUploads p = u.updPart p (fun x => { x with uploads := [] }) := by
  have quiet : u.landUploads p = u.updPart p (fun x => { x with uploads := [] }) := by
    refine landUploads_of_none ?_
    rw [same]
    exact State.uploads_setHint p none_
  refine ⟨?_, quiet⟩
  have stands : ((s.setHint g).part p).hints = [g] := hasHint_setHint one id own
  unfold State.hasHint
  rw [quiet, State.part_updPart_same, same]
  exact stands

theorem State.part_countPage (s : State) (h : Hint) : (s.countPage h).part = s.part :=
  funext (State.part_congr (s.parts_countPage h))

theorem State.part_raise (s : State) (x : Src) (code sev : Nat) (cap : List Nat) : (s.raise x code sev cap).part = s.part :=
  funext (State.part_congr (s.parts_raise x code sev cap))

/-- The code that a page-in was stored with decides its status (R178). -/
theorem completeHint_in {p : PartId} {h : Hint} {s : State} (own : h.part = p) (into : h.isOut = false) (good : h.status = 0) :
    ∃ g : Hint, (s.completeHint h).part = (s.setHint g).part ∧ g.id = h.id ∧ g.part = p ∧ g.phase = .complete ∧
      g.arrive = (s.part p).cyc + 3 ∧
      g.status = (if leNat (memRead s.mem (memKey p h.code) 4) = (crc32c h.data).toNat then 0 else 3) ∧
      (s.completeHint h).memories = s.memories := by
  let bad := decide (h.status = 0) && decide (leNat (s.pmRead p h.code 4).2.1 ≠ (crc32c h.data).toNat)
  refine ⟨{ h with phase := .complete, arrive := (s.part p).cyc + 3, status := if bad then 3 else h.status }, ?_, rfl, own, rfl, rfl,
    ?_, ?_⟩
  · unfold State.completeHint
    rw [if_neg (by simp [into]), own]
    dsimp only
    split
    · rw [State.part_raise, State.incF, State.part_setF_eq, State.part_countPage]
    · rw [State.part_countPage]
  · simp only [bad, good, decide_true, Bool.true_and, decide_eq_true_eq, ite_not]
    rfl
  · unfold State.completeHint
    rw [if_neg (by simp [into])]
    simp only [State.memories_ite, State.memories_raise, State.memories_incF, State.memories_countPage, State.memories_setHint,
      ite_self]

theorem countPage_keeps (s : State) (h : Hint) :
    (s.countPage h).mem = s.mem ∧ (s.countPage h).quires = s.quires ∧ (s.countPage h).stitchers = s.stitchers := ⟨rfl, rfl, rfl⟩

theorem setHint_keeps (s : State) (h : Hint) :
    (s.setHint h).mem = s.mem ∧ (s.setHint h).quires = s.quires ∧ (s.setHint h).stitchers = s.stitchers := ⟨rfl, rfl, rfl⟩

theorem State.devWriteMem_rest (s : State) (p : PartId) (a n : Nat) : (s.devWriteMem p a n).butSnoops = s.butSnoops := by
  have device (t : State) (ld off : Nat) : (t.devWrite ld off).butSnoops = t.butSnoops :=
    (congrArg State.butSnoops (t.devWrite_rest ld off) :)
  unfold State.devWriteMem
  dsimp only
  refine State.foldl_rest State.butSnoops _ (fun t i => ?_) _ s
  refine (State.foldl_rest State.butSnoops _ (fun t e => device t _ _) _ _).trans ?_
  split
  · exact State.devWriteP_rest ..
  · rfl

/-- A page-out's bytes and code stand in memory (R178). -/
theorem completeHint_out {p : PartId} {h : Hint} {s : State} (own : h.part = p) (out : h.isOut = true) (clean : s.memMark = []) :
    (s.completeHint h).part = (s.setHint { h with phase := .complete, arrive := (s.part p).cyc + 24 }).part ∧
      (s.completeHint h).mem = memWrite (memWrite s.mem (memKey p h.pma) h.data) (memKey p h.code)
        (leBytes 4 (crc32c h.data).toNat) ∧
      (s.completeHint h).quires = s.quires ∧ (s.completeHint h).stitchers = s.stitchers := by
  let u := (s.withMem (memWrite s.mem (memKey p h.pma) h.data)).withMem (memWrite (memWrite s.mem (memKey p h.pma) h.data)
    (memKey p h.code) (leBytes 4 (crc32c h.data).toNat))
  let v := (u.devWriteMem p h.pma h.data.length).devWriteMem p h.code 4
  let g : Hint := { h with phase := .complete, arrive := (s.part p).cyc + 24 }
  have still (m : Sparse (BitVec 8)) : (s.withMem m).memMark = [] := clean
  have run : s.completeHint h = (v.setHint g).countPage h := by
    unfold State.completeHint
    rw [if_pos out, own]
    dsimp only
    rw [State.pmWrite_of_clean clean, State.pmWrite_of_clean (still _)]
    rfl
  have rest : v.butSnoops = u.butSnoops := (State.devWriteMem_rest ..).trans (State.devWriteMem_rest ..)
  have part : v.part = s.part := (congrArg State.part rest :)
  have mem : v.mem = u.mem := (congrArg State.mem rest :)
  have quires : v.quires = s.quires := (congrArg State.quires rest :)
  have stitchers : v.stitchers = s.stitchers := (congrArg State.stitchers rest :)
  rw [run]
  refine ⟨?_, ?_, ?_, ?_⟩
  · rw [State.part_countPage]
    funext r
    unfold State.setHint State.updHints
    by_cases e : r = g.part
    · rw [e, State.part_updPart_same, State.part_updPart_same, part]
    · rw [State.part_updPart_ne _ _ e, State.part_updPart_ne _ _ e, part]
  · exact (countPage_keeps _ _).1.trans ((setHint_keeps _ _).1.trans mem)
  · exact (countPage_keeps _ _).2.1.trans ((setHint_keeps _ _).2.1.trans quires)
  · exact (countPage_keeps _ _).2.2.trans ((setHint_keeps _ _).2.2.trans stitchers)

/-- A page-in whose last write has landed ends with its code checked. -/
theorem pageComplete_in {p : PartId} {h : Hint} {s : State} (one : (s.part p).hints = [h]) (moving : h.phase = .moving)
    (own : h.part = p) (into : h.isOut = false) (gone : h.size ≤ h.moved)
    (landed : ∀ w ∈ (s.qu h.quire).wbuf ++ (s.qu h.quire).wwait, w.page ≠ some h.id) (free : s.f (pt p) F.RS_STATUS_fenced = 0)
    (none_ : (s.part p).uploads = []) (good : h.status = 0) :
    ∃ t h', exec (.pageComplete p) s = .next t ∧ (t.part p).hints = [h'] ∧ h'.phase = .complete ∧
      h'.arrive = (s.part p).cyc + 3 ∧
      h'.status = (if leNat (memRead s.mem (memKey p h.code) 4) = (crc32c h.data).toNat then 0 else 3) ∧
      MemoriesKept s t := by
  have quiet : ((s.qu h.quire).wbuf ++ (s.qu h.quire).wwait).any (fun w => decide (w.page = some h.id)) = false := by
    rw [List.any_eq_false]
    exact fun w hw => by simpa using landed w hw
  have run : exec (.pageComplete p) s = .next ((s.completeHint h).landUploads p) := by
    show execPageComplete p s = _
    unfold execPageComplete
    simp only [one, free, moving, into, gone, quiet, Nat.zero_ne_one, if_false, List.find?_cons, beq_self_eq_true, Bool.false_and,
      Bool.not_false, decide_true, Bool.and_self, Bool.or_true]
  obtain ⟨g, part, id, own', complete, arrive, status, kept⟩ := completeHint_in own into good
  obtain ⟨stands, same⟩ := landed_hasHint (g := g) one id.symm own' none_ part
  refine ⟨_, g, run, stands, complete, arrive, status, memoriesKept_of ?_⟩
  rw [same, State.memories_updPart, kept]

/-- A page-out stands in memory, with its code, when it ends. -/
theorem pageComplete_out {p : PartId} {h : Hint} {s : State} (one : (s.part p).hints = [h]) (moving : h.phase = .moving)
    (own : h.part = p) (out : h.isOut = true) (up : s.routeDown (toMem p (s.tileOf h.quire)) = false)
    (free : s.f (pt p) F.RS_STATUS_fenced = 0) (none_ : (s.part p).uploads = []) (clean : s.memMark = [])
    (apart : h.pma + h.data.length ≤ h.code) :
    ∃ t h', exec (.pageComplete p) s = .next t ∧ (t.part p).hints = [h'] ∧ h'.phase = .complete ∧
      h'.arrive = (s.part p).cyc + 24 ∧ memRead t.mem (memKey p h.pma) h.data.length = h.data ∧
      leNat (memRead t.mem (memKey p h.code) 4) = (crc32c h.data).toNat ∧
      (∀ a, (a < memKey p h.pma ∨ memKey p h.pma + h.data.length ≤ a) → (a < memKey p h.code ∨ memKey p h.code + 4 ≤ a) →
        spGet 0 t.mem a = spGet 0 s.mem a) ∧ t.quires = s.quires ∧ t.stitchers = s.stitchers := by
  let crc := leBytes 4 (crc32c h.data).toNat
  let m := memWrite (memWrite s.mem (memKey p h.pma) h.data) (memKey p h.code) crc
  have run : exec (.pageComplete p) s = .next ((s.completeHint h).landUploads p) := by
    show execPageComplete p s = _
    unfold execPageComplete
    simp only [one, free, moving, out, up, Nat.zero_ne_one, if_false, List.find?_cons, beq_self_eq_true, Bool.not_false,
      Bool.and_self, Bool.true_or]
  obtain ⟨part, mem, quires, stitchers⟩ := completeHint_out own out clean
  obtain ⟨stands, same⟩ := landed_hasHint (g := { h with phase := .complete, arrive := (s.part p).cyc + 24 }) one rfl own none_ part
  have mem' : ((s.completeHint h).landUploads p).mem = m := by rw [same, State.updPart_mem, mem]
  have length : crc.length = 4 := leBytes_length ..
  have code := memRead_memWrite (memWrite s.mem (memKey p h.pma) h.data) (memKey p h.code) crc
  rw [length] at code
  have below : memKey p h.pma + h.data.length ≤ memKey p h.code := by unfold memKey; omega
  refine ⟨_, _, run, stands, rfl, rfl, ?_, ?_, fun a ha hb => ?_, ?_, ?_⟩
  · rw [mem', show m = _ from rfl, memRead_memWrite_apart _ (.inl below), memRead_memWrite]
  · rw [mem', code, leNat_leBytes, show 256 ^ 4 = 2 ^ 32 from rfl, Nat.mod_eq_of_lt (crc32c h.data).isLt]
  · rw [mem', spGet_memWrite_out _ _ _ _ (by rw [length]; exact hb), spGet_memWrite_out _ _ _ _ ha]
  · rw [same, State.updPart_quires, quires]
  · rw [same, State.updPart_stitchers, stitchers]

/-- Settles O29: an entry starts at its page and ends with its code. -/
theorem pagerEntries : Obligations.PagerEntries := by
  unfold Obligations.PagerEntries
  refine ⟨⟨?starts, ?past, ?stopped⟩, ?comes, ?goes⟩
  case starts =>
    intro p h s one queued own into free code left linear clean _ range
    exact pagerEntryStart_moves one queued own into free code left linear clean range
  case past =>
    intro p h s one queued free past
    exact (execPagerEntryStart_one one queued free).trans (if_pos past)
  case stopped =>
    intro p s fenced
    exact if_pos fenced
  case comes =>
    intro p h s one moving own into gone landed free none_ good
    exact pageComplete_in one moving own into gone landed free none_ good
  case goes =>
    intro p h s one moving own out up free none_ clean apart
    exact pageComplete_out one moving own out up free none_ clean apart

end Sys2Proof.Machine
end

section
namespace Sys2Proof.Machine

-- Proved in parallel, these proofs hold a thread each, whose stacks pass the check's memory.
set_option Elab.async false

/-! ## What the end of a quire's tick leaves (O13)

The progress of each quire's tick, the stitchers, the quires that have overrun, and the registers of other blocks. -/

/-- How far each quire's tick is. -/
def State.ticked (s : State) := fun r : QuireId => ((s.qu r).open_, (s.qu r).done, (s.qu r).doneAt, (s.qu r).overrun)

theorem State.ticked_mk {s : State} {pending now timeBase freeCount regs latches stitchers parts flights creditFlights srcs
    mem memMark triggers trackers charges mgn dramFixes sparesUsed remaps notices comps ctlPage cmdArea bar2 msix extents
    filter snoops readWait hostData links spine spNext regAns halfChg thermal staging stageLostAt stageLostN recNext mapCopies
    mapBefore runs tested pulseEnd ioNext tickIn stew} :
    State.ticked ⟨pending, now, timeBase, freeCount, regs, latches, stitchers, s.quires, parts, flights, creditFlights, srcs,
      mem, memMark, triggers, trackers, charges, mgn, dramFixes, sparesUsed, remaps, notices, comps, ctlPage, cmdArea, bar2,
      msix, extents, filter, snoops, readWait, hostData, links, spine, spNext, regAns, halfChg, thermal, staging, stageLostAt,
      stageLostN, recNext, mapCopies, mapBefore, runs, tested, pulseEnd, ioNext, tickIn, stew⟩ = s.ticked := (rfl)

theorem State.ticked_ite {c : Prop} [Decidable c] {a b : State} :
    State.ticked (if c then a else b) = if c then a.ticked else b.ticked := by
  split <;> rfl

theorem State.ticked_foldl {α : Type} {g : State → α → State} {s : State} (step : ∀ s a, (g s a).ticked = s.ticked)
    (xs : List α) : (xs.foldl g s).ticked = s.ticked :=
  State.foldl_rest State.ticked g step xs s

theorem State.ticked_setSt (s : State) (u : StId) (x : Stitcher) : (s.setSt u x).ticked = s.ticked := (rfl)

theorem State.ticked_updSt (s : State) (u : StId) (f : Stitcher → Stitcher) : (s.updSt u f).ticked = s.ticked := (rfl)

theorem State.ticked_setPart (s : State) (p : PartId) (x : Part) : (s.setPart p x).ticked = s.ticked := (rfl)

theorem State.ticked_updPart (s : State) (p : PartId) (f : Part → Part) : (s.updPart p f).ticked = s.ticked := (rfl)

theorem State.ticked_setSrc (s : State) (x : Src) (v : SrcSt) : (s.setSrc x v).ticked = s.ticked := (rfl)

theorem State.ticked_updSrc (s : State) (x : Src) (f : SrcSt → SrcSt) : (s.updSrc x f).ticked = s.ticked := (rfl)

theorem State.ticked_wr (s : State) (b : Nat) (r : Reg) (v : BitVec 32) : (s.wr b r v).ticked = s.ticked := (rfl)

theorem State.ticked_setF (s : State) (b : Nat) (g : Fld) (v : Nat) : (s.setF b g v).ticked = s.ticked := (rfl)

theorem State.ticked_incF (s : State) (b : Nat) (g : Fld) (n : Nat) : (s.incF b g n).ticked = s.ticked := (rfl)

theorem State.ticked_setCnt (s : State) (b : Nat) (lo hi : Reg) (v : Nat) : (s.setCnt b lo hi v).ticked = s.ticked := (rfl)

theorem State.ticked_raise (s : State) (x : Src) (code sev : Nat) (cap : List Nat) : (s.raise x code sev cap).ticked = s.ticked :=
  (congrArg State.ticked (s.raise_rest x code sev cap) :)

theorem State.ticked_ev (s : State) (x : Src) (code : Nat) (cap : List Nat) : (s.ev x code cap).ticked = s.ticked :=
  s.ticked_raise x code (evSev code) cap

theorem State.ticked_complete (s : State) (n : Notice) (status result : Nat) : (s.complete n status result).ticked = s.ticked :=
  (congrArg State.ticked (s.complete_rest n status result) :)

theorem State.ticked_of_quires {s t : State} (h : t.quires = s.quires) : t.ticked = s.ticked := by
  funext r
  unfold State.ticked State.qu
  rw [h]

theorem State.ticked_setQu (s : State) (q : QuireId) (x : Quire) (h : (x.open_, x.done, x.doneAt, x.overrun) = s.ticked q) :
    (s.setQu q x).ticked = s.ticked := by
  funext r
  by_cases e : r = q
  · subst e
    unfold State.ticked at *
    rw [State.qu_setQu_same]
    exact h
  · unfold State.ticked
    rw [State.qu_setQu_ne _ _ e]

theorem State.ticked_updQu (s : State) (q : QuireId) (g : Quire → Quire)
    (h : ∀ x : Quire, ((g x).open_, (g x).done, (g x).doneAt, (g x).overrun) = (x.open_, x.done, x.doneAt, x.overrun)) :
    (s.updQu q g).ticked = s.ticked :=
  s.ticked_setQu q _ (h _)

theorem State.ticked_advPart (s : State) (n : Nat) (p : PartId) : (s.advPart n p).ticked = s.ticked := by
  simp only [State.advPart, State.ticked_ite, ite_self, State.ticked_updPart]

theorem State.ticked_advance (s : State) (n : Nat) : (s.advance n).ticked = s.ticked := by
  simp only [State.advance, State.ticked_mk, implies_true, State.ticked_foldl, State.ticked_advPart]

theorem State.ticked_waitCycle (s : State) (p : PartId) (c : Nat) : (s.waitCycle p c).ticked = s.ticked := by
  simp only [State.waitCycle, State.ticked_ite, ite_self, State.ticked_updPart, State.ticked_advance]

theorem State.ticked_charge (s : State) (p : PartId) (unit : HwUnit) (code : Nat) (resolved : Bool) :
    (s.charge p unit code resolved).ticked = s.ticked := by
  simp only [State.charge, State.ticked_mk, State.ticked_ite, ite_self]

theorem State.ticked_failTick (s : State) (p : PartId) : (s.failTick p).ticked = s.ticked := by
  simp only [State.failTick, State.ticked_updPart]

theorem State.ticked_chargeStall (s : State) (u : StId) (old : Option Stall) (t : Nat) :
    (s.chargeStall u old t).ticked = s.ticked := by
  unfold State.chargeStall
  split
  · refine State.ticked_updQu _ _ _ (fun x => ?_)
    split <;> rfl
  · rfl

theorem State.ticked_freeCredit (s : State) (q : QuireId) (pos : Nat) (o : Origin) (n : Nat) :
    (s.freeCredit q pos o n).ticked = s.ticked := by
  unfold State.freeCredit
  split <;> simp only [State.ticked_mk]

theorem State.ticked_freeCredits (s : State) (q : QuireId) (pos : Nat) (l : List (Origin × Nat)) :
    (s.freeCredits q pos l).ticked = s.ticked := by
  simp only [State.freeCredits, implies_true, State.ticked_foldl, State.ticked_freeCredit]

theorem State.ticked_orphan (s : State) (u : StId) (pos port tag : Nat) (o : Origin) :
    (s.orphan u pos port tag o).ticked = s.ticked := by
  unfold State.orphan
  refine (State.ticked_updQu _ _ _ ?_).trans ?_
  · exact fun _ => rfl
  · rw [State.ticked_freeCredit, State.ticked_incF]

theorem State.ticked_recordOrphans (s : State) (q : QuireId) : (s.recordOrphans q).ticked = s.ticked := by
  unfold State.recordOrphans
  refine State.ticked_ite.trans ?_
  split
  · rfl
  · refine (State.ticked_raise ..).trans ((State.ticked_incF ..).trans ?_)
    exact State.ticked_setQu _ _ _ (by rfl)

theorem State.ticked_logReset (s : State) (scope target : Nat) : (s.logReset scope target).ticked = s.ticked := (rfl)

theorem State.ticked_resetStitcher (s : State) (u : StId) (pos : Nat) : (s.resetStitcher u pos).ticked = s.ticked := by
  simp only [State.resetStitcher, State.ticked_setSt, State.ticked_incF, State.ticked_freeCredits, State.ticked_logReset]

theorem State.ticked_refund (s : State) (m : Flight) : (s.refund m).ticked = s.ticked := by
  unfold State.refund
  split
  · exact State.ticked_updQu _ _ _ (fun _ => rfl)
  · rfl

theorem State.ticked_devWrite (s : State) (ld : Nat) (off : Nat) : (s.devWrite ld off).ticked = s.ticked := by
  simp only [State.devWrite, State.ticked_mk, State.ticked_ite, ite_self]

theorem State.ticked_devWriteP (s : State) (p : PartId) (off : Nat) : (s.devWriteP p off).ticked = s.ticked := by
  unfold State.devWriteP
  split <;> simp only [State.ticked_devWrite]

theorem State.ticked_updHints (s : State) (p : PartId) (f : List Hint → List Hint) : (s.updHints p f).ticked = s.ticked := (rfl)

theorem State.ticked_dropDue (s : State) (q : QuireId) : (s.dropDue q).ticked = s.ticked := by
  unfold State.dropDue
  refine (State.ticked_incF ..).trans ((State.ticked_updQu _ _ _ ?_).trans (State.ticked_updHints ..))
  exact fun _ => rfl

theorem State.ticked_chargePause (s : State) (q : QuireId) (run : Nat) : (s.chargePause q run).ticked = s.ticked := by
  unfold State.chargePause
  split
  · refine State.ticked_ite.trans ?_
    split
    · rfl
    · exact State.ticked_updQu _ _ _ (fun _ => rfl)
  · rfl

theorem State.ticked_abandonPresses (s : State) (q : QuireId) : (s.abandonPresses q).ticked = s.ticked := by
  unfold State.abandonPresses
  have held (t : State) (h : HeldOut) : (match h.msg with | .flight m => t.refund m | .fwd _ => t).ticked = t.ticked := by
    split
    · exact State.ticked_refund ..
    · rfl
  extract_lets x na nb voting gone press0 s1 s2 s3
  have kept1 : s1.ticked = s.ticked := State.ticked_setQu _ _ _ (by rfl)
  have kept2 : s2.ticked = s.ticked := (State.ticked_foldl held _).trans kept1
  have kept3 : s3.ticked = s.ticked := by
    simp only [s3, State.ticked_ite, State.ticked_incF, kept2, ite_self]
  simp only [State.ticked_ite, State.ticked_raise, kept3, ite_self]

theorem State.ticked_purgeQuire (s : State) (q : QuireId) (pos : Nat) : (s.purgeQuire q pos).ticked = s.ticked := by
  simp only [State.purgeQuire, State.ticked_ite, ite_self, implies_true, State.ticked_foldl, State.ticked_updSt,
    State.ticked_orphan]

theorem State.ticked_writeLedger (s : State) (q : QuireId) (tick run : Nat) (overrun mismatch : Bool) :
    (s.writeLedger q tick run overrun mismatch).ticked = s.ticked := by
  simp only [State.writeLedger, State.ticked_setF]

theorem State.ticked_writeInherit (s : State) (q : QuireId) : (s.writeInherit q).ticked = s.ticked := by
  simp only [State.writeInherit, State.ticked_setF]

theorem State.ticked_contractMismatch (s : State) (q : QuireId) : (s.contractMismatch q).ticked = s.ticked := by
  simp only [State.contractMismatch, State.ticked_incF, State.ticked_raise]

theorem State.ticked_setBar2 (s : State) (a : Nat) (v : BitVec 8) : (s.setBar2 a v).ticked = s.ticked := (rfl)

theorem State.ticked_msi (s : State) (ld vec : Nat) : (s.msi ld vec).ticked = s.ticked := by
  simp only [State.msi, State.ticked_mk, State.ticked_ite, ite_self, State.ticked_setBar2]

theorem State.ticked_setSlot (s : State) (p : PartId) (k : Nat) (x : SlotSt) : (s.setSlot p k x).ticked = s.ticked := (rfl)

theorem State.ticked_resultWrite (s : State) (p : PartId) (off : Nat) (bytes : List (BitVec 8)) :
    (s.resultWrite p off bytes).ticked = s.ticked := by
  simp only [State.resultWrite, implies_true, State.ticked_foldl, State.ticked_updPart, State.ticked_devWriteP]

theorem State.ticked_landForward (s : State) (p : PartId) (w : Fwd) : (s.landForward p w).ticked = s.ticked := by
  simp only [State.landForward, State.ticked_ite, ite_self, State.ticked_incF, State.ticked_ev, State.ticked_setSlot,
    State.ticked_resultWrite]

theorem State.ticked_landForwards (s : State) (q : QuireId) (cyc : Nat) : (s.landForwards q cyc).ticked = s.ticked := by
  simp only [State.landForwards, implies_true, State.ticked_foldl, State.ticked_updQu, State.ticked_landForward]

theorem State.ticked_publishSlot (r : State) (p : PartId) (g : PubHeader) : (r.publishSlot p g).ticked = r.ticked := by
  unfold State.publishSlot
  simp only [State.ticked_ite, ite_self, State.ticked_incF, State.ticked_ev, State.ticked_setSlot, State.ticked_resultWrite]
  repeat' split
  all_goals simp only [State.ticked_incF, State.ticked_ev, State.ticked_msi, State.ticked_setSlot, State.ticked_resultWrite]

theorem State.ticked_settlePubs (s : State) (p : PartId) : (s.settlePubs p).ticked = s.ticked := by
  simp only [State.settlePubs, implies_true, State.ticked_foldl, State.ticked_updPart, State.ticked_landForwards,
    State.ticked_publishSlot]

theorem State.ticked_publish (s : State) (p : PartId) (first : Nat) : (s.publish p first).ticked = s.ticked := by
  simp only [State.publish, State.ticked_ite, ite_self, State.ticked_updPart, State.ticked_setF,
    State.ticked_settlePubs]

theorem State.ticked_sendStall (s : State) (u : StId) (e cycles : Nat) : (s.sendStall u e cycles).ticked = s.ticked := by
  simp only [State.sendStall, State.ticked_ev]

theorem State.ticked_recordStalls (s : State) (q : QuireId) (pos : Nat) (fired : Option StId) :
    (s.recordStalls q pos fired).ticked = s.ticked := by
  unfold State.recordStalls
  refine State.ticked_foldl (fun t a => ?_) _
  repeat' split
  all_goals simp only [State.ticked_sendStall]

theorem State.ticked_chargeStalls (s : State) (q : QuireId) (pos : Nat) : (s.chargeStalls q pos).ticked = s.ticked := by
  unfold State.chargeStalls
  refine State.ticked_foldl (fun t a => ?_) _
  repeat' split
  all_goals simp only [State.ticked_updSt, State.ticked_chargeStall]

/-- The quires of each partition that have overrun its open tick. -/
def State.masks (s : State) := fun r : PartId => (s.part r).overMask

theorem State.masks_mk {s : State} {pending now timeBase freeCount regs latches stitchers quires flights creditFlights srcs
    mem memMark triggers trackers charges mgn dramFixes sparesUsed remaps notices comps ctlPage cmdArea bar2 msix extents
    filter snoops readWait hostData links spine spNext regAns halfChg thermal staging stageLostAt stageLostN recNext mapCopies
    mapBefore runs tested pulseEnd ioNext tickIn stew} :
    State.masks ⟨pending, now, timeBase, freeCount, regs, latches, stitchers, quires, s.parts, flights, creditFlights, srcs,
      mem, memMark, triggers, trackers, charges, mgn, dramFixes, sparesUsed, remaps, notices, comps, ctlPage, cmdArea, bar2,
      msix, extents, filter, snoops, readWait, hostData, links, spine, spNext, regAns, halfChg, thermal, staging, stageLostAt,
      stageLostN, recNext, mapCopies, mapBefore, runs, tested, pulseEnd, ioNext, tickIn, stew⟩ = s.masks := (rfl)

theorem State.masks_ite {c : Prop} [Decidable c] {a b : State} :
    State.masks (if c then a else b) = if c then a.masks else b.masks := by
  split <;> rfl

theorem State.masks_foldl {α : Type} {g : State → α → State} {s : State} (step : ∀ s a, (g s a).masks = s.masks)
    (xs : List α) : (xs.foldl g s).masks = s.masks :=
  State.foldl_rest State.masks g step xs s

theorem State.masks_setSt (s : State) (u : StId) (x : Stitcher) : (s.setSt u x).masks = s.masks := (rfl)

theorem State.masks_updSt (s : State) (u : StId) (f : Stitcher → Stitcher) : (s.updSt u f).masks = s.masks := (rfl)

theorem State.masks_setQu (s : State) (q : QuireId) (x : Quire) : (s.setQu q x).masks = s.masks := (rfl)

theorem State.masks_updQu (s : State) (q : QuireId) (f : Quire → Quire) : (s.updQu q f).masks = s.masks := (rfl)

theorem State.masks_setSrc (s : State) (x : Src) (v : SrcSt) : (s.setSrc x v).masks = s.masks := (rfl)

theorem State.masks_updSrc (s : State) (x : Src) (f : SrcSt → SrcSt) : (s.updSrc x f).masks = s.masks := (rfl)

theorem State.masks_wr (s : State) (b : Nat) (r : Reg) (v : BitVec 32) : (s.wr b r v).masks = s.masks := (rfl)

theorem State.masks_setF (s : State) (b : Nat) (g : Fld) (v : Nat) : (s.setF b g v).masks = s.masks := (rfl)

theorem State.masks_incF (s : State) (b : Nat) (g : Fld) (n : Nat) : (s.incF b g n).masks = s.masks := (rfl)

theorem State.masks_setCnt (s : State) (b : Nat) (lo hi : Reg) (v : Nat) : (s.setCnt b lo hi v).masks = s.masks := (rfl)

theorem State.masks_raise (s : State) (x : Src) (code sev : Nat) (cap : List Nat) : (s.raise x code sev cap).masks = s.masks :=
  (congrArg State.masks (s.raise_rest x code sev cap) :)

theorem State.masks_ev (s : State) (x : Src) (code : Nat) (cap : List Nat) : (s.ev x code cap).masks = s.masks :=
  s.masks_raise x code (evSev code) cap

theorem State.masks_complete (s : State) (n : Notice) (status result : Nat) : (s.complete n status result).masks = s.masks :=
  (congrArg State.masks (s.complete_rest n status result) :)

theorem State.masks_of_parts {s t : State} (h : t.parts = s.parts) : t.masks = s.masks := by
  funext r
  unfold State.masks
  rw [State.part_congr h]

theorem State.masks_updPart (s : State) (p : PartId) (g : Part → Part) (h : ∀ x : Part, (g x).overMask = x.overMask) :
    (s.updPart p g).masks = s.masks := by
  funext r
  unfold State.masks
  by_cases e : r = p
  · subst e
    rw [State.part_updPart_same]
    exact h _
  · rw [State.part_updPart_ne _ _ e]

theorem State.masks_charge (s : State) (p : PartId) (unit : HwUnit) (code : Nat) (resolved : Bool) :
    (s.charge p unit code resolved).masks = s.masks := by
  simp only [State.charge, State.masks_mk, State.masks_ite, ite_self]

theorem State.masks_failTick (s : State) (p : PartId) : (s.failTick p).masks = s.masks := by
  refine State.masks_updPart _ _ _ (fun x => ?_)
  split <;> rfl

theorem State.masks_chargeStall (s : State) (u : StId) (old : Option Stall) (t : Nat) :
    (s.chargeStall u old t).masks = s.masks := by
  unfold State.chargeStall
  split <;> simp only [State.masks_updQu]

theorem State.masks_freeCredit (s : State) (q : QuireId) (pos : Nat) (o : Origin) (n : Nat) :
    (s.freeCredit q pos o n).masks = s.masks := by
  unfold State.freeCredit
  split <;> simp only [State.masks_mk]

theorem State.masks_freeCredits (s : State) (q : QuireId) (pos : Nat) (l : List (Origin × Nat)) :
    (s.freeCredits q pos l).masks = s.masks := by
  simp only [State.freeCredits, implies_true, State.masks_foldl, State.masks_freeCredit]

theorem State.masks_orphan (s : State) (u : StId) (pos port tag : Nat) (o : Origin) :
    (s.orphan u pos port tag o).masks = s.masks := by
  simp only [State.orphan, State.masks_updQu, State.masks_incF, State.masks_freeCredit]

theorem State.masks_recordOrphans (s : State) (q : QuireId) : (s.recordOrphans q).masks = s.masks := by
  simp only [State.recordOrphans, State.masks_ite, ite_self, State.masks_setQu, State.masks_incF, State.masks_raise]

theorem State.masks_logReset (s : State) (scope target : Nat) : (s.logReset scope target).masks = s.masks := (rfl)

theorem State.masks_resetStitcher (s : State) (u : StId) (pos : Nat) : (s.resetStitcher u pos).masks = s.masks := by
  simp only [State.resetStitcher, State.masks_setSt, State.masks_incF, State.masks_freeCredits, State.masks_logReset]

theorem State.masks_refund (s : State) (m : Flight) : (s.refund m).masks = s.masks := by
  unfold State.refund
  split <;> simp only [State.masks_updQu, State.masks_setF]

theorem State.masks_devWrite (s : State) (ld : Nat) (off : Nat) : (s.devWrite ld off).masks = s.masks := by
  simp only [State.devWrite, State.masks_mk, State.masks_ite, ite_self]

theorem State.masks_devWriteP (s : State) (p : PartId) (off : Nat) : (s.devWriteP p off).masks = s.masks := by
  unfold State.devWriteP
  split <;> simp only [State.masks_devWrite]

theorem State.masks_updHints (s : State) (p : PartId) (f : List Hint → List Hint) : (s.updHints p f).masks = s.masks :=
  State.masks_updPart _ _ _ (fun _ => rfl)

theorem State.masks_dropDue (s : State) (q : QuireId) : (s.dropDue q).masks = s.masks := by
  simp only [State.dropDue, State.masks_updQu, State.masks_incF, State.masks_updHints]

theorem State.masks_chargePause (s : State) (q : QuireId) (run : Nat) : (s.chargePause q run).masks = s.masks := by
  unfold State.chargePause
  split <;> simp only [State.masks_ite, ite_self, State.masks_updQu]

theorem State.masks_abandonPresses (s : State) (q : QuireId) : (s.abandonPresses q).masks = s.masks := by
  unfold State.abandonPresses
  have held (t : State) (h : HeldOut) : (match h.msg with | .flight m => t.refund m | .fwd _ => t).masks = t.masks := by
    split
    · exact State.masks_refund ..
    · rfl
  extract_lets x na nb voting gone press0 s1 s2 s3
  have kept1 : s1.masks = s.masks := State.masks_setQu ..
  have kept2 : s2.masks = s.masks := (State.masks_foldl held _).trans kept1
  have kept3 : s3.masks = s.masks := by
    simp only [s3, State.masks_ite, State.masks_incF, kept2, ite_self]
  simp only [State.masks_ite, State.masks_raise, kept3, ite_self]

theorem State.masks_purgeQuire (s : State) (q : QuireId) (pos : Nat) : (s.purgeQuire q pos).masks = s.masks := by
  simp only [State.purgeQuire, State.masks_ite, ite_self, implies_true, State.masks_foldl, State.masks_updSt,
    State.masks_orphan]

theorem State.masks_writeLedger (s : State) (q : QuireId) (tick run : Nat) (overrun mismatch : Bool) :
    (s.writeLedger q tick run overrun mismatch).masks = s.masks := by
  simp only [State.writeLedger, State.masks_setF]

theorem State.masks_writeInherit (s : State) (q : QuireId) : (s.writeInherit q).masks = s.masks := by
  simp only [State.writeInherit, State.masks_setF]

theorem State.masks_contractMismatch (s : State) (q : QuireId) : (s.contractMismatch q).masks = s.masks := by
  simp only [State.contractMismatch, State.masks_incF, State.masks_raise]

theorem State.masks_setBar2 (s : State) (a : Nat) (v : BitVec 8) : (s.setBar2 a v).masks = s.masks := (rfl)

theorem State.masks_msi (s : State) (ld vec : Nat) : (s.msi ld vec).masks = s.masks := by
  simp only [State.msi, State.masks_mk, State.masks_ite, ite_self, State.masks_setBar2]

theorem State.masks_setSlot (s : State) (p : PartId) (k : Nat) (x : SlotSt) : (s.setSlot p k x).masks = s.masks :=
  State.masks_updPart _ _ _ (fun _ => rfl)

theorem State.masks_resultWrite (s : State) (p : PartId) (off : Nat) (bytes : List (BitVec 8)) :
    (s.resultWrite p off bytes).masks = s.masks := by
  simp only [State.resultWrite, implies_true, State.masks_foldl, State.masks_updPart, State.masks_devWriteP]

theorem State.masks_landForward (s : State) (p : PartId) (w : Fwd) : (s.landForward p w).masks = s.masks := by
  simp only [State.landForward, State.masks_ite, ite_self, State.masks_incF, State.masks_ev, State.masks_setSlot,
    State.masks_resultWrite]

theorem State.masks_landForwards (s : State) (q : QuireId) (cyc : Nat) : (s.landForwards q cyc).masks = s.masks := by
  simp only [State.landForwards, implies_true, State.masks_foldl, State.masks_updQu, State.masks_landForward]

theorem State.masks_publishSlot (r : State) (p : PartId) (g : PubHeader) : (r.publishSlot p g).masks = r.masks := by
  unfold State.publishSlot
  simp only [State.masks_ite, ite_self, State.masks_incF, State.masks_ev, State.masks_setSlot, State.masks_resultWrite]
  repeat' split
  all_goals simp only [State.masks_incF, State.masks_ev, State.masks_msi, State.masks_setSlot, State.masks_resultWrite]

theorem State.masks_settlePubs (s : State) (p : PartId) : (s.settlePubs p).masks = s.masks := by
  simp only [State.settlePubs, implies_true, State.masks_foldl, State.masks_updPart, State.masks_landForwards,
    State.masks_publishSlot]

theorem State.masks_publish (s : State) (p : PartId) (first : Nat) : (s.publish p first).masks = s.masks := by
  simp only [State.publish, State.masks_ite, ite_self, implies_true, State.masks_updPart, State.masks_setF,
    State.masks_settlePubs]

theorem State.masks_sendStall (s : State) (u : StId) (e cycles : Nat) : (s.sendStall u e cycles).masks = s.masks := by
  simp only [State.sendStall, State.masks_ev]

theorem State.masks_recordStalls (s : State) (q : QuireId) (pos : Nat) (fired : Option StId) :
    (s.recordStalls q pos fired).masks = s.masks := by
  unfold State.recordStalls
  refine State.masks_foldl (fun t a => ?_) _
  repeat' split
  all_goals simp only [State.masks_sendStall]

theorem State.masks_chargeStalls (s : State) (q : QuireId) (pos : Nat) : (s.chargeStalls q pos).masks = s.masks := by
  unfold State.chargeStalls
  refine State.masks_foldl (fun t a => ?_) _
  repeat' split
  all_goals simp only [State.masks_updSt, State.masks_chargeStall]

/-- The stitchers, as one field. -/
def State.crew (s : State) := s.stitchers

theorem State.crew_mk {s : State} {pending now timeBase freeCount regs latches quires parts flights creditFlights srcs mem
    memMark triggers trackers charges mgn dramFixes sparesUsed remaps notices comps ctlPage cmdArea bar2 msix extents filter
    snoops readWait hostData links spine spNext regAns halfChg thermal staging stageLostAt stageLostN recNext mapCopies
    mapBefore runs tested pulseEnd ioNext tickIn stew} :
    State.crew ⟨pending, now, timeBase, freeCount, regs, latches, s.stitchers, quires, parts, flights, creditFlights, srcs,
      mem, memMark, triggers, trackers, charges, mgn, dramFixes, sparesUsed, remaps, notices, comps, ctlPage, cmdArea, bar2,
      msix, extents, filter, snoops, readWait, hostData, links, spine, spNext, regAns, halfChg, thermal, staging, stageLostAt,
      stageLostN, recNext, mapCopies, mapBefore, runs, tested, pulseEnd, ioNext, tickIn, stew⟩ = s.crew := (rfl)

theorem State.crew_ite {c : Prop} [Decidable c] {a b : State} :
    State.crew (if c then a else b) = if c then a.crew else b.crew := by
  split <;> rfl

theorem State.crew_foldl {α : Type} {g : State → α → State} {s : State} (step : ∀ s a, (g s a).crew = s.crew)
    (xs : List α) : (xs.foldl g s).crew = s.crew :=
  State.foldl_rest State.crew g step xs s

theorem State.crew_setQu (s : State) (q : QuireId) (x : Quire) : (s.setQu q x).crew = s.crew := (rfl)

theorem State.crew_updQu (s : State) (q : QuireId) (f : Quire → Quire) : (s.updQu q f).crew = s.crew := (rfl)

theorem State.crew_setPart (s : State) (p : PartId) (x : Part) : (s.setPart p x).crew = s.crew := (rfl)

theorem State.crew_updPart (s : State) (p : PartId) (f : Part → Part) : (s.updPart p f).crew = s.crew := (rfl)

theorem State.crew_setSrc (s : State) (x : Src) (v : SrcSt) : (s.setSrc x v).crew = s.crew := (rfl)

theorem State.crew_updSrc (s : State) (x : Src) (f : SrcSt → SrcSt) : (s.updSrc x f).crew = s.crew := (rfl)

theorem State.crew_wr (s : State) (b : Nat) (r : Reg) (v : BitVec 32) : (s.wr b r v).crew = s.crew := (rfl)

theorem State.crew_setF (s : State) (b : Nat) (g : Fld) (v : Nat) : (s.setF b g v).crew = s.crew := (rfl)

theorem State.crew_incF (s : State) (b : Nat) (g : Fld) (n : Nat) : (s.incF b g n).crew = s.crew := (rfl)

theorem State.crew_setCnt (s : State) (b : Nat) (lo hi : Reg) (v : Nat) : (s.setCnt b lo hi v).crew = s.crew := (rfl)

theorem State.crew_raise (s : State) (x : Src) (code sev : Nat) (cap : List Nat) : (s.raise x code sev cap).crew = s.crew :=
  (congrArg State.crew (s.raise_rest x code sev cap) :)

theorem State.crew_ev (s : State) (x : Src) (code : Nat) (cap : List Nat) : (s.ev x code cap).crew = s.crew :=
  s.crew_raise x code (evSev code) cap

theorem State.crew_complete (s : State) (n : Notice) (status result : Nat) : (s.complete n status result).crew = s.crew :=
  (congrArg State.crew (s.complete_rest n status result) :)

theorem State.crew_advPart (s : State) (n : Nat) (p : PartId) : (s.advPart n p).crew = s.crew := by
  simp only [State.advPart, State.crew_ite, ite_self, State.crew_updPart]

theorem State.crew_advance (s : State) (n : Nat) : (s.advance n).crew = s.crew := by
  simp only [State.advance, State.crew_mk, implies_true, State.crew_foldl, State.crew_advPart]

theorem State.crew_waitCycle (s : State) (p : PartId) (c : Nat) : (s.waitCycle p c).crew = s.crew := by
  simp only [State.waitCycle, State.crew_ite, ite_self, State.crew_updPart, State.crew_advance]

theorem State.crew_charge (s : State) (p : PartId) (unit : HwUnit) (code : Nat) (resolved : Bool) :
    (s.charge p unit code resolved).crew = s.crew := by
  simp only [State.charge, State.crew_mk, State.crew_ite, ite_self]

theorem State.crew_failTick (s : State) (p : PartId) : (s.failTick p).crew = s.crew := by
  simp only [State.failTick, State.crew_updPart]

theorem State.crew_freeCredit (s : State) (q : QuireId) (pos : Nat) (o : Origin) (n : Nat) :
    (s.freeCredit q pos o n).crew = s.crew := by
  unfold State.freeCredit
  split <;> simp only [State.crew_mk]

theorem State.crew_orphan (s : State) (u : StId) (pos port tag : Nat) (o : Origin) :
    (s.orphan u pos port tag o).crew = s.crew := by
  simp only [State.orphan, State.crew_updQu, State.crew_incF, State.crew_freeCredit]

theorem State.crew_recordOrphans (s : State) (q : QuireId) : (s.recordOrphans q).crew = s.crew := by
  simp only [State.recordOrphans, State.crew_ite, ite_self, State.crew_setQu, State.crew_incF, State.crew_raise]

theorem State.crew_refund (s : State) (m : Flight) : (s.refund m).crew = s.crew := by
  unfold State.refund
  split <;> simp only [State.crew_updQu, State.crew_setF]

theorem State.crew_devWrite (s : State) (ld : Nat) (off : Nat) : (s.devWrite ld off).crew = s.crew := by
  simp only [State.devWrite, State.crew_mk, State.crew_ite, ite_self]

theorem State.crew_devWriteP (s : State) (p : PartId) (off : Nat) : (s.devWriteP p off).crew = s.crew := by
  unfold State.devWriteP
  split <;> simp only [State.crew_devWrite]

theorem State.crew_updHints (s : State) (p : PartId) (f : List Hint → List Hint) : (s.updHints p f).crew = s.crew := (rfl)

theorem State.crew_dropDue (s : State) (q : QuireId) : (s.dropDue q).crew = s.crew := by
  simp only [State.dropDue, State.crew_updQu, State.crew_incF, State.crew_updHints]

theorem State.crew_chargePause (s : State) (q : QuireId) (run : Nat) : (s.chargePause q run).crew = s.crew := by
  unfold State.chargePause
  split <;> simp only [State.crew_ite, ite_self, State.crew_updQu]

theorem State.crew_abandonPresses (s : State) (q : QuireId) : (s.abandonPresses q).crew = s.crew := by
  unfold State.abandonPresses
  have held (t : State) (h : HeldOut) : (match h.msg with | .flight m => t.refund m | .fwd _ => t).crew = t.crew := by
    split
    · exact State.crew_refund ..
    · rfl
  extract_lets x na nb voting gone press0 s1 s2 s3
  have kept1 : s1.crew = s.crew := State.crew_setQu ..
  have kept2 : s2.crew = s.crew := (State.crew_foldl held _).trans kept1
  have kept3 : s3.crew = s.crew := by
    simp only [s3, State.crew_ite, State.crew_incF, kept2, ite_self]
  simp only [State.crew_ite, State.crew_raise, kept3, ite_self]

theorem State.crew_writeLedger (s : State) (q : QuireId) (tick run : Nat) (overrun mismatch : Bool) :
    (s.writeLedger q tick run overrun mismatch).crew = s.crew := by
  simp only [State.writeLedger, State.crew_setF]

theorem State.crew_writeInherit (s : State) (q : QuireId) : (s.writeInherit q).crew = s.crew := by
  simp only [State.writeInherit, State.crew_setF]

theorem State.crew_contractMismatch (s : State) (q : QuireId) : (s.contractMismatch q).crew = s.crew := by
  simp only [State.contractMismatch, State.crew_incF, State.crew_raise]

theorem State.crew_setBar2 (s : State) (a : Nat) (v : BitVec 8) : (s.setBar2 a v).crew = s.crew := (rfl)

theorem State.crew_msi (s : State) (ld vec : Nat) : (s.msi ld vec).crew = s.crew := by
  simp only [State.msi, State.crew_mk, State.crew_ite, ite_self, State.crew_setBar2]

theorem State.crew_setSlot (s : State) (p : PartId) (k : Nat) (x : SlotSt) : (s.setSlot p k x).crew = s.crew := (rfl)

theorem State.crew_resultWrite (s : State) (p : PartId) (off : Nat) (bytes : List (BitVec 8)) :
    (s.resultWrite p off bytes).crew = s.crew := by
  simp only [State.resultWrite, implies_true, State.crew_foldl, State.crew_updPart, State.crew_devWriteP]

theorem State.crew_landForward (s : State) (p : PartId) (w : Fwd) : (s.landForward p w).crew = s.crew := by
  simp only [State.landForward, State.crew_ite, ite_self, State.crew_incF, State.crew_ev, State.crew_setSlot,
    State.crew_resultWrite]

theorem State.crew_landForwards (s : State) (q : QuireId) (cyc : Nat) : (s.landForwards q cyc).crew = s.crew := by
  simp only [State.landForwards, implies_true, State.crew_foldl, State.crew_updQu, State.crew_landForward]

theorem State.crew_publishSlot (r : State) (p : PartId) (g : PubHeader) : (r.publishSlot p g).crew = r.crew := by
  unfold State.publishSlot
  simp only [State.crew_ite, ite_self, State.crew_incF, State.crew_ev, State.crew_setSlot, State.crew_resultWrite]
  repeat' split
  all_goals simp only [State.crew_incF, State.crew_ev, State.crew_msi, State.crew_setSlot, State.crew_resultWrite]

theorem State.crew_settlePubs (s : State) (p : PartId) : (s.settlePubs p).crew = s.crew := by
  simp only [State.settlePubs, implies_true, State.crew_foldl, State.crew_updPart, State.crew_landForwards,
    State.crew_publishSlot]

theorem State.crew_publish (s : State) (p : PartId) (first : Nat) : (s.publish p first).crew = s.crew := by
  simp only [State.publish, State.crew_ite, ite_self, State.crew_updPart, State.crew_setF, State.crew_settlePubs]

theorem State.crew_sendStall (s : State) (u : StId) (e cycles : Nat) : (s.sendStall u e cycles).crew = s.crew := by
  simp only [State.sendStall, State.crew_ev]

theorem State.crew_recordStalls (s : State) (q : QuireId) (pos : Nat) (fired : Option StId) :
    (s.recordStalls q pos fired).crew = s.crew := by
  unfold State.recordStalls
  refine State.crew_foldl (fun t a => ?_) _
  repeat' split
  all_goals simp only [State.crew_sendStall]

theorem State.f_freeCredits (s : State) (q : QuireId) (pos : Nat) (l : List (Origin × Nat)) (adr : Nat) (fld : Fld) :
    (s.freeCredits q pos l).f adr fld = s.f adr fld := by
  simp only [State.freeCredits, implies_true, State.f_foldl, State.f_freeCredit]

theorem State.f_resetStitcher (s : State) (u : StId) (pos : Nat) {adr : Nat} {fld : Fld}
    (h : site (adr + fld.reg.off) ∉ [(6, R.ST_STATUS.off)]) :
    (s.resetStitcher u pos).f adr fld = s.f adr fld := by
  simp only [State.resetStitcher, State.f_setSt, State.f_incF_sb (g := F.ST_STATUS_resets) (h := h) (hw := by decide),
    State.f_freeCredits, State.f_logReset]

theorem State.f_refund (s : State) (m : Flight) {adr : Nat} {fld : Fld}
    (h : site (adr + fld.reg.off) ∉ [(8, R.CH_ROUTE_D.off)]) :
    (s.refund m).f adr fld = s.f adr fld := by
  unfold State.refund
  split <;> simp only [State.f_updQu, State.f_setF_eb (g := F.CH_ROUTE_D_held) (h := h) (hw := by decide)]

theorem State.f_updHints (s : State) (p : PartId) (f : List Hint → List Hint) (adr : Nat) (fld : Fld) :
    (s.updHints p f).f adr fld = s.f adr fld := (rfl)

theorem State.f_dropDue (s : State) (q : QuireId) {adr : Nat} {fld : Fld}
    (h : site (adr + fld.reg.off) ∉ [(1, R.PG_ERR.off)]) :
    (s.dropDue q).f adr fld = s.f adr fld := by
  simp only [State.dropDue, State.f_updQu, State.f_incF_pt (g := F.PG_ERR_unreleased) (h := h) (hw := by decide),
    State.f_updHints]

theorem State.f_chargePause (s : State) (q : QuireId) (run : Nat) (adr : Nat) (fld : Fld) :
    (s.chargePause q run).f adr fld = s.f adr fld := by
  unfold State.chargePause
  split <;> simp only [State.f_ite, ite_self, State.f_updQu]

theorem State.f_abandonPresses (s : State) (q : QuireId) {adr : Nat} {fld : Fld}
    (h : site (adr + fld.reg.off) ∉ [(5, R.PS_VOTE.off), (8, R.CH_ROUTE_D.off), (1, 0xB00)]) :
    (s.abandonPresses q).f adr fld = s.f adr fld := by
  unfold State.abandonPresses
  have held (t : State) (g : HeldOut) : (match g.msg with | .flight m => t.refund m | .fwd _ => t).f adr fld = t.f adr fld := by
    split
    · exact State.f_refund (h := notMem_of_subset h (by decide)) ..
    · rfl
  extract_lets x na nb voting gone press0 s1 s2 s3
  have kept1 : s1.f adr fld = s.f adr fld := State.f_setQu ..
  have kept2 : s2.f adr fld = s.f adr fld := (State.f_foldl held _).trans kept1
  have kept3 : s3.f adr fld = s.f adr fld := by
    simp only [s3, State.f_ite, State.f_incF_qb (g := F.PS_VOTE_abandoned) (h := h) (hw := by decide), kept2, ite_self]
  simp only [State.f_ite, State.f_raise (h := notMem_of_subset h (by decide)), kept3, ite_self]

theorem State.f_purgeQuire (s : State) (q : QuireId) (pos : Nat) {adr : Nat} {fld : Fld}
    (h : site (adr + fld.reg.off) ∉ [(6, R.ST_MATCH.off)]) :
    (s.purgeQuire q pos).f adr fld = s.f adr fld := by
  simp only [State.purgeQuire, State.f_ite, ite_self, implies_true, State.f_foldl, State.f_updSt,
    State.f_orphan (h := h)]

theorem State.f_writeInherit (s : State) (q : QuireId) {adr : Nat} {fld : Fld}
    (h : site (adr + fld.reg.off) ∉ [(5, R.CH_INHERIT.off), (5, R.MS_QTRANSIT.off)]) :
    (s.writeInherit q).f adr fld = s.f adr fld := by
  simp only [State.writeInherit, State.f_setF_qb (g := F.CH_INHERIT_cycles) (h := h) (hw := by decide), State.f_setF_qb (g :=
    F.CH_INHERIT_pauses) (h := h) (hw := by decide), State.f_setF_qb (g := F.MS_QTRANSIT_cycles) (h := h) (hw := by decide),
    State.f_setF_qb (g := F.MS_QTRANSIT_units) (h := h) (hw := by decide)]

theorem State.f_contractMismatch (s : State) (q : QuireId) {adr : Nat} {fld : Fld}
    (h : site (adr + fld.reg.off) ∉ [(5, R.TK_LG_MISMATCH.off), (1, 0xB00)]) :
    (s.contractMismatch q).f adr fld = s.f adr fld := by
  simp only [State.contractMismatch, State.f_incF_qb (g := F.TK_LG_MISMATCH_mismatches) (h := h) (hw := by decide),
    State.f_raise (h := notMem_of_subset h (by decide))]

theorem State.f_sendStall (s : State) (u : StId) (e cycles : Nat) {adr : Nat} {fld : Fld}
    (h : site (adr + fld.reg.off) ∉ [(1, 0xB00)]) :
    (s.sendStall u e cycles).f adr fld = s.f adr fld := by
  simp only [State.sendStall, State.f_ev (h := h)]

theorem State.f_recordStalls (s : State) (q : QuireId) (pos : Nat) (fired : Option StId) {adr : Nat} {fld : Fld}
    (h : site (adr + fld.reg.off) ∉ [(1, 0xB00)]) :
    (s.recordStalls q pos fired).f adr fld = s.f adr fld := by
  unfold State.recordStalls
  refine State.f_foldl (fun t a => ?_) _
  repeat' split
  all_goals simp only [State.f_sendStall (h := h)]

theorem State.f_chargeStalls (s : State) (q : QuireId) (pos : Nat) (adr : Nat) (fld : Fld) :
    (s.chargeStalls q pos).f adr fld = s.f adr fld := by
  unfold State.chargeStalls
  refine State.f_foldl (fun t a => ?_) _
  repeat' split
  all_goals simp only [State.f_updSt, State.f_chargeStall]

end Sys2Proof.Machine
end

section
namespace Sys2Proof.Machine

-- Proved in parallel, these proofs hold a thread each, whose stacks pass the check's memory.
set_option Elab.async false

/-! ## O13: NOP, FENCE, END and TICKDONE -/

theorem State.f_fetchFix (s : State) (u : StId) {adr : Nat} {fld : Fld} (h : site (adr + fld.reg.off) ∉ [(6, R.ST_ECC.off)]) :
    (s.fetchFix u).f adr fld = s.f adr fld := by
  simp only [State.fetchFix, State.f_ite, State.f_incF_sb (g := F.ST_ECC_corrected) (h := h) (hw := by decide), ite_self]

theorem State.f_afterIssue (s : State) (u : StId) (g : Gate) {adr : Nat} {fld : Fld}
    (h : site (adr + fld.reg.off) ∉ [(6, R.ST_ECC.off), (6, R.ST_PC.off)]) :
    (s.afterIssue u g).f adr fld = s.f adr fld := by
  unfold State.afterIssue State.issued
  simp only [State.f_setF_sb (g := F.ST_PC_pc) (h := h) (hw := by decide),
    State.f_setF_sb (g := F.ST_PC_count) (h := h) (hw := by decide), State.f_setSt,
    State.f_fetchFix (h := notMem_of_subset h (by decide))]

/-- An issue leaves every quire, every partition and every memory. -/
theorem State.afterIssue_keeps (s : State) (u : StId) (g : Gate) :
    (s.afterIssue u g).quires = s.quires ∧ (s.afterIssue u g).parts = s.parts := by
  have rest := s.afterIssue_rest u g
  exact ⟨(congrArg State.quires rest :), (congrArg State.parts rest :)⟩

theorem State.memories_afterIssue (s : State) (u : StId) (g : Gate) : (s.afterIssue u g).memories = s.memories := by
  unfold State.afterIssue
  rw [State.memories_issued, State.memories_fetchFix]

/-! ### NOP, FENCE and END -/

theorem nop_issues {s : State} {u : StId} (may : s.canIssue u (.nop u) = true) :
    ∃ t, exec (.nop u) s = .next t ∧ OnlyStitcher u s t ∧ CountsIssue u s t ∧ Advances u s t ∧
      (t.st u).issueOf (s.st u) = s.st u := by
  refine ⟨s.afterIssue u { srcs := [] }, (State.issue_next may rfl _ : execNop u s = _), s.afterIssue_only u _,
    s.afterIssue_counts u _ (State.canIssue_count may), ?_, ?_⟩
  · rw [Advances, State.afterIssue_st]
  · rw [State.afterIssue_st]
    rfl

theorem fence_issues {s : State} {u : StId} (may : s.canIssue u (.fence u) = true) :
    ∃ t, exec (.fence u) s = .next t ∧ OnlyStitcher u s t ∧ CountsIssue u s t ∧ Advances u s t ∧
      (t.st u).issueOf (s.st u) = s.st u ∧ (s.st u).acceptedAt + 1 ≤ (t.st u).nextAt := by
  refine ⟨s.afterIssue u { srcs := [], notBefore := (s.st u).acceptedAt }, (State.issue_next may rfl _ : execFence u s = _),
    s.afterIssue_only u _, s.afterIssue_counts u _ (State.canIssue_count may), ?_, ?_, ?_⟩
  · rw [Advances, State.afterIssue_st]
  · rw [State.afterIssue_st]
    rfl
  · rw [State.afterIssue_st]
    have late : (s.st u).acceptedAt ≤ (s.st u).issueAt { srcs := [], notBefore := (s.st u).acceptedAt } :=
      (Nat.le_max_right ..).trans (Nat.le_max_left ..)
    exact Nat.add_le_add_right late 1

/-- What the end of a firing leaves. -/
theorem State.endFiring_keeps (s : State) (u : StId) (t : Nat) :
    let e := s.endFiring u t
    e.st u = { s.st u with firing := none, doneAt := 0 } ∧ (∀ v, v ≠ u → e.st v = s.st v) ∧
      e.qu u.quire = { s.qu u.quire with lastEnd := max (s.qu u.quire).lastEnd t } ∧ e.parts = s.parts ∧
      e.regs = s.regs ∧ e.memories = s.memories := by
  intro e
  refine ⟨?_, fun v other => ?_, ?_, rfl, rfl, s.memories_endFiring u t⟩
  · exact (State.st_updQu ..).trans (State.st_updSt_same ..)
  · exact (State.st_updQu ..).trans (State.st_updSt_ne _ _ other)
  · exact State.qu_updQu_same ..

theorem endF_issues {s : State} {u : StId} (may : s.canIssue u (.endF u) = true) :
    ∃ t, exec (.endF u) s = .next t ∧ MemoriesKept s t ∧ CountsIssue u s t ∧ Advances u s t ∧
      (t.st u).firing = none ∧ (∀ v, v ≠ u → t.st v = s.st v) ∧
      { (t.st u).issueOf (s.st u) with firing := (s.st u).firing } = s.st u ∧
      { t with quires := s.quires }.butStitchers = s.butStitchers := by
  let g : Gate := { srcs := [], notBefore := (s.st u).doneAt }
  let a := s.afterIssue u g
  obtain ⟨own, others, -, -, regs, memories⟩ := a.endFiring_keeps u ((s.st u).issueAt g)
  refine ⟨a.endFiring u ((s.st u).issueAt g), (State.issue_next may rfl _ : execEndF u s = _),
    memoriesKept_of ?_, ?_, ?_, ?_, ?_, ?_, ?_⟩
  · exact memories.trans (s.memories_afterIssue u g)
  · have counts := s.afterIssue_counts u g (State.canIssue_count may)
    unfold CountsIssue
    rw [State.f_congr regs, State.f_congr regs, State.f_congr regs]
    exact counts
  · rw [Advances, own, State.afterIssue_st]
  · rw [own]
  · exact fun v other => (others v other).trans (s.afterIssue_st_ne g other)
  · rw [own, State.afterIssue_st]
    rfl
  · exact (congrArg (fun x : State => { x with quires := s.quires }) (s.afterIssue_rest u g) :)

/-! ### The end of a quire's tick -/

theorem State.masks_at (s : State) (p : PartId) : s.masks p = (s.part p).overMask := (rfl)

theorem State.st_of_crew {s t : State} (h : t.crew = s.crew) (v : StId) : t.st v = s.st v := State.st_congr h v

theorem State.ticked_iff {s : State} {q : QuireId} {opened done : Bool} {doneAt : Nat} {overrun : Bool} :
    s.ticked q = (opened, done, doneAt, overrun) ↔ (s.qu q).open_ = opened ∧ (s.qu q).done = done ∧
      (s.qu q).doneAt = doneAt ∧ (s.qu q).overrun = overrun := by
  simp only [State.ticked, Prod.mk.injEq]

theorem State.open_of_ticked {s t : State} (h : t.ticked = s.ticked) (q : QuireId) : (t.qu q).open_ = (s.qu q).open_ :=
  (State.ticked_iff.mp (congrFun h q)).1

/-- The tokens that wait at one stitcher are discarded. -/
def State.purgeOne (q : QuireId) (pos : Nat) (s : State) (i : Fin 64) : State :=
  let u : StId := ⟨q, i⟩
  let w := (s.st u).store
  if w.isEmpty then s
  else w.foldl (fun s x => s.orphan u pos x.port x.tag x.origin) (s.updSt u (fun x => { x with store := [] }))

theorem State.crew_purgeOne (q : QuireId) (pos : Nat) (s : State) (i : Fin 64) (v : StId) :
    (s.purgeOne q pos i).st v = (s.updSt ⟨q, i⟩ (fun x => { x with store := [] })).st v := by
  unfold State.purgeOne
  dsimp only
  split
  next empty =>
    rw [List.isEmpty_iff] at empty
    by_cases h : v = ⟨q, i⟩
    · subst h
      rw [State.st_updSt_same, ← empty]
    · rw [State.st_updSt_ne _ _ h]
  · exact State.st_of_crew (State.crew_foldl (fun _ _ => State.crew_orphan ..) _) v

theorem State.purgeQuire_st (s : State) (q : QuireId) (pos : Nat) (v : StId) :
    (s.purgeQuire q pos).st v = if v.quire = q then { s.st v with store := [] } else s.st v := by
  have each : ∀ (l : List (Fin 64)) (s : State), (l.foldl (State.purgeOne q pos) s).st v =
      if v.quire = q ∧ v.st ∈ l then { s.st v with store := [] } else s.st v := by
    intro l
    induction l with
    | nil => simp
    | cons i l ih =>
      intro s
      rw [List.foldl_cons, ih, State.crew_purgeOne]
      by_cases here : v = ⟨q, i⟩
      · subst here
        rw [State.st_updSt_same]
        simp
      · rw [State.st_updSt_ne _ _ here]
        have iff : (v.quire = q ∧ v.st ∈ l) ↔ (v.quire = q ∧ v.st ∈ i :: l) := by
          refine and_congr_right fun hq => ?_
          rw [List.mem_cons]
          refine ⟨.inr, fun h => h.resolve_left fun e => here ?_⟩
          cases v
          simp_all
        simp only [iff]
  exact (each _ s).trans (by simp only [List.mem_finRange, and_true])

/-- Two fields that share no bit of a block. -/
def Fld.apart (g k : Fld) : Bool :=
  g.reg.off != k.reg.off ||
    g.reg == k.reg && (decide (g.lo + g.w ≤ k.lo ∧ k.lo + k.w ≤ 32) || decide (k.lo + k.w ≤ g.lo ∧ g.lo + g.w ≤ 32))

theorem State.f_setF_apart (s : State) (b : Nat) {g k : Fld} (v : Nat) (h : g.apart k = true) :
    (s.setF b g v).f b k = s.f b k := by
  simp only [Fld.apart, Bool.or_eq_true, Bool.and_eq_true, bne_iff_ne, beq_iff_eq, decide_eq_true_eq] at h
  rcases h with h | ⟨hr, h⟩
  · exact State.f_setF_reg _ _ (by omega)
  · exact State.f_setF_field _ _ _ hr.symm h

/-- The ledger of a quire with a run: the run, whether it overran and whether it missed its contract. -/
theorem State.writeLedger_shows (s : State) (q : QuireId) (tick run : Nat) (overrun mismatch : Bool) :
    let t := s.writeLedger q tick run overrun mismatch
    t.f (qb q) F.TK_LG_RUN_run = min (2 ^ 32 - 1) run ∧ t.f (qb q) F.TK_LG_TICK_overrun = (if overrun then 1 else 0) ∧
      t.f (qb q) F.TK_LG_TICK_mismatch = (if mismatch then 1 else 0) := by
  intro t
  simp (disch := decide) only [t, State.writeLedger, State.f_setF_apart, State.f_setF_same]
  refine ⟨Nat.mod_eq_of_lt (show _ < 2 ^ 32 by omega), ?_, ?_⟩
  · cases overrun <;> rfl
  · cases mismatch <;> rfl

/-- The quire's tick shown as ended, with its ledger. -/
def State.tickShown (s : State) (q : QuireId) (t : Nat) : State :=
  let x := s.qu q
  let run := x.runAt t
  let bad := decide (run ≠ s.f (qb q) F.TK_LG_EXPECT_reported_run + x.slip + x.latePage)
  ((s.updQu q (fun x => { x with open_ := false, done := true, doneAt := x.start + run - 1 + 14 })).writeLedger q x.tick run
    x.overrun bad).writeInherit q

/-- What a tick that ended records of its contract and of its slip. -/
def State.contractChecked (s : State) (q : QuireId) (bad : Bool) (slip : Nat) : State :=
  let s := if bad then s.contractMismatch q else s
  if s.f (qb q) F.TK_LG_ALLOW_allowance < slip then s.raise (.quire q) Ev.SLIP_EXCEEDED (evSev Ev.SLIP_EXCEEDED) [] else s

/-- What a tick that ended leaves of the outbound hold and of the hints that were due in it. -/
def State.holdChecked (s : State) (q : QuireId) (x : Quire) : State :=
  let s := if x.holding.isEmpty then s
    else (s.raise (.quire q) Ev.PS_HOLD_OPEN (evSev Ev.PS_HOLD_OPEN) [x.holding.length, x.windowClose]).failTick (partOf q)
  s.dropDue q

theorem State.endQuireTick_eq (s : State) (q : QuireId) (t : Nat) :
    s.endQuireTick q t =
      (((((s.tickShown q t).contractChecked q (decide ((s.qu q).runAt t ≠
        s.f (qb q) F.TK_LG_EXPECT_reported_run + (s.qu q).slip + (s.qu q).latePage)) (s.qu q).slip).purgeQuire q
          t).recordOrphans q).holdChecked q (s.qu q)).updQu q (fun x => { x with discarding := false }) := (rfl)

theorem State.contractChecked_keeps (s : State) (q : QuireId) (bad : Bool) (slip : Nat) :
    let t := s.contractChecked q bad slip
    t.ticked = s.ticked ∧ t.crew = s.crew ∧ t.masks = s.masks ∧ t.memories = s.memories ∧
      ∀ adr fld, site (adr + fld.reg.off) ∉ [(5, R.TK_LG_MISMATCH.off), (1, 0xB00)] → t.f adr fld = s.f adr fld := by
  intro t
  refine ⟨?_, ?_, ?_, ?_, fun adr fld h => ?_⟩
  · simp only [t, State.contractChecked, State.ticked_ite, State.ticked_raise, State.ticked_contractMismatch, ite_self]
  · simp only [t, State.contractChecked, State.crew_ite, State.crew_raise, State.crew_contractMismatch, ite_self]
  · simp only [t, State.contractChecked, State.masks_ite, State.masks_raise, State.masks_contractMismatch, ite_self]
  · simp only [t, State.contractChecked, State.memories_ite, State.memories_raise, State.memories_contractMismatch, ite_self]
  · simp only [t, State.contractChecked, State.f_ite, State.f_raise (h := notMem_of_subset h (by decide)),
      State.f_contractMismatch (h := h), ite_self]

theorem State.holdChecked_keeps (s : State) (q : QuireId) (x : Quire) :
    let t := s.holdChecked q x
    t.ticked = s.ticked ∧ t.crew = s.crew ∧ t.masks = s.masks ∧ t.memories = s.memories ∧
      ∀ adr fld, site (adr + fld.reg.off) ∉ [(1, R.PG_ERR.off), (1, 0xB00)] → t.f adr fld = s.f adr fld := by
  intro t
  refine ⟨?_, ?_, ?_, ?_, fun adr fld h => ?_⟩
  · simp only [t, State.holdChecked, State.ticked_ite, State.ticked_raise, State.ticked_failTick, State.ticked_dropDue, ite_self]
  · simp only [t, State.holdChecked, State.crew_ite, State.crew_raise, State.crew_failTick, State.crew_dropDue, ite_self]
  · simp only [t, State.holdChecked, State.masks_ite, State.masks_raise, State.masks_failTick, State.masks_dropDue, ite_self]
  · simp only [t, State.holdChecked, State.memories_ite, State.memories_raise, State.memories_failTick, State.memories_dropDue,
      ite_self]
  · simp only [t, State.holdChecked, State.f_ite, State.f_raise (h := notMem_of_subset h (by decide)), State.f_failTick,
      State.f_dropDue (h := notMem_of_subset h (by decide)), ite_self]

theorem State.tickShown_shows (s : State) (q : QuireId) (t : Nat) :
    let e := s.tickShown q t
    let run := (s.qu q).runAt t
    e.ticked q = (false, true, (s.qu q).start + run - 1 + 14, (s.qu q).overrun) ∧ e.crew = s.crew ∧ e.masks = s.masks ∧
      e.memories = s.memories ∧ e.f (qb q) F.TK_LG_RUN_run = min (2 ^ 32 - 1) run ∧
      e.f (qb q) F.TK_LG_TICK_overrun = (if (s.qu q).overrun then 1 else 0) ∧
      e.f (qb q) F.TK_LG_TICK_mismatch =
        (if run = s.f (qb q) F.TK_LG_EXPECT_reported_run + (s.qu q).slip + (s.qu q).latePage then 0 else 1) := by
  intro e run
  let a := s.updQu q (fun x => { x with open_ := false, done := true, doneAt := x.start + run - 1 + 14 })
  let bad := decide (run ≠ s.f (qb q) F.TK_LG_EXPECT_reported_run + (s.qu q).slip + (s.qu q).latePage)
  have he : e = (a.writeLedger q (s.qu q).tick run (s.qu q).overrun bad).writeInherit q := rfl
  obtain ⟨shownRun, overran, mismatch⟩ := a.writeLedger_shows q (s.qu q).tick run (s.qu q).overrun bad
  rw [he]
  refine ⟨?_, ?_, ?_, ?_, ?_, ?_, ?_⟩
  · rw [State.ticked_writeInherit, State.ticked_writeLedger, State.ticked, State.qu_updQu_same]
  · rw [State.crew_writeInherit, State.crew_writeLedger]
    rfl
  · rw [State.masks_writeInherit, State.masks_writeLedger]
    rfl
  · rw [State.memories_writeInherit, State.memories_writeLedger]
    exact State.memories_updQu _ _ _ rfl
  · rw [State.f_writeInherit (h := qb_notMem q (by decide)), shownRun]
  · rw [State.f_writeInherit (h := qb_notMem q (by decide)), overran]
  · rw [State.f_writeInherit (h := qb_notMem q (by decide)), mismatch]
    simp [bad]

/-- What the end of a quire's tick leaves: its ledger, its tick done, its stitchers without a waiting token. -/
theorem State.endQuireTick_shows (s : State) (q : QuireId) (t : Nat) :
    let e := s.endQuireTick q t
    let run := (s.qu q).runAt t
    e.memories = s.memories ∧ e.masks = s.masks ∧
      (∀ v, e.st v = if v.quire = q then { s.st v with store := [] } else s.st v) ∧
      e.ticked q = (false, true, (s.qu q).start + run - 1 + 14, (s.qu q).overrun) ∧ (e.qu q).discarding = false ∧
      e.f (qb q) F.TK_LG_RUN_run = min (2 ^ 32 - 1) run ∧
      e.f (qb q) F.TK_LG_TICK_overrun = (if (s.qu q).overrun then 1 else 0) ∧
      e.f (qb q) F.TK_LG_TICK_mismatch =
        (if run = s.f (qb q) F.TK_LG_EXPECT_reported_run + (s.qu q).slip + (s.qu q).latePage then 0 else 1) := by
  intro e run
  let a := s.tickShown q t
  let b := a.contractChecked q (decide (run ≠ s.f (qb q) F.TK_LG_EXPECT_reported_run + (s.qu q).slip + (s.qu q).latePage))
    (s.qu q).slip
  let c := (b.purgeQuire q t).recordOrphans q
  let d := c.holdChecked q (s.qu q)
  have he : e = d.updQu q (fun x => { x with discarding := false }) := s.endQuireTick_eq q t
  obtain ⟨aTicked, aCrew, aMasks, aMem, aRun, aOver, aBad⟩ := s.tickShown_shows q t
  obtain ⟨bTicked, bCrew, bMasks, bMem, bF⟩ := a.contractChecked_keeps q (decide (run ≠
    s.f (qb q) F.TK_LG_EXPECT_reported_run + (s.qu q).slip + (s.qu q).latePage)) (s.qu q).slip
  obtain ⟨dTicked, dCrew, dMasks, dMem, dF⟩ := c.holdChecked_keeps q (s.qu q)
  have ledger (k : Fld) (h : site (qb q + k.reg.off) ∉ [(5, R.TK_LG_MISMATCH.off), (1, 0xB00), (6, R.ST_MATCH.off),
      (5, R.CH_STAT.off), (1, R.PG_ERR.off)]) : e.f (qb q) k = a.f (qb q) k := by
    rw [he, State.f_updQu]
    refine (dF _ _ (notMem_of_subset h (by decide))).trans ?_
    refine (State.f_recordOrphans (h := notMem_of_subset h (by decide)) ..).trans ?_
    refine (State.f_purgeQuire (h := notMem_of_subset h (by decide)) ..).trans ?_
    exact bF _ _ (notMem_of_subset h (by decide))
  refine ⟨?_, ?_, fun v => ?_, ?_, ?_, ?_, ?_, ?_⟩
  · rw [he, State.memories_updQu _ _ _ rfl, dMem, State.memories_recordOrphans, State.memories_purgeQuire, bMem, aMem]
  · rw [he, State.masks_updQu, dMasks, State.masks_recordOrphans, State.masks_purgeQuire, bMasks, aMasks]
  · rw [he, State.st_updQu, State.st_of_crew dCrew, State.st_of_crew (State.crew_recordOrphans ..), State.purgeQuire_st,
      State.st_of_crew bCrew, State.st_of_crew aCrew]
  · have keeps : e.ticked = d.ticked := (congrArg State.ticked he).trans (d.ticked_updQu q _ (fun _ => rfl))
    rw [keeps, dTicked, State.ticked_recordOrphans, State.ticked_purgeQuire, bTicked, aTicked]
  · rw [he, State.qu_updQu_same]
  · rw [ledger _ (qb_notMem q (by decide)), aRun]
  · rw [ledger _ (qb_notMem q (by decide)), aOver]
  · rw [ledger _ (qb_notMem q (by decide)), aBad]

/-! ### TICKDONE -/

/-- When TICKDONE of a quiet quire may issue. -/
def tickdoneGate (s : State) (u : StId) : Gate :=
  { srcs := [], notBefore := max (max (s.st u).doneAt ((s.qu u.quire).lastEnd + 1))
      (max (if spGet 0 (s.qu u.quire).freedAt 1 = 0 then 0 else spGet 0 (s.qu u.quire).freedAt 1 + 1)
        (if spGet 0 (s.qu u.quire).freedAt 2 = 0 then 0 else spGet 0 (s.qu u.quire).freedAt 2 + 1)) }

/-- The state in which TICKDONE has ended its firing. -/
def State.retired (s : State) (u : StId) : State := (s.afterIssue u (tickdoneGate s u)).endFiring u (tickdoneAt s u)

/-- What TICKDONE does once its firing has ended: `x` is the quire before it. -/
def State.tickDone (s : State) (q : QuireId) (x : Quire) (t : Nat) : State :=
  if x.done then s.contractMismatch q
  else if s.deadlineOf q < x.runAt t ∧ x.overrun = false then
    let s := (s.waitCycle (partOf q) ((s.part (partOf q)).strokeAt + 14 + s.deadlineOf q)).overrunQuire q none
    if (s.qu q).open_ then s.endQuireTick q t else s
  else s.endQuireTick q t

theorem execTickdone_eq (u : StId) (s : State) :
    execTickdone u s =
      s.issue u (.tickdone u) { tickdoneGate s u with wait := if s.quireQuiet u then none else some (1, none) }
        (fun a t _ => (a.endFiring u t).tickDone u.quire (s.qu u.quire) t) := by
  unfold execTickdone State.tickDone tickdoneGate
  rfl

theorem execTickdone_runs {s : State} {u : StId} (may : s.canIssue u (.tickdone u) = true) (quiet : s.quireQuiet u = true) :
    exec (.tickdone u) s = .next ((s.retired u).tickDone u.quire (s.qu u.quire) (tickdoneAt s u)) := by
  have at_ : (s.st u).issueAt (tickdoneGate s u) = tickdoneAt s u := Nat.max_zero _
  have gate : ({ tickdoneGate s u with wait := if (true : Bool) = true then none else some (1, none) } : Gate) =
      tickdoneGate s u := rfl
  refine (execTickdone_eq u s).trans ?_
  rw [quiet, gate, State.issue_next may rfl, at_, State.retired, State.afterIssue, at_]

/-- The end of the firing leaves the quire's tick, the partition, the quire's registers and the memories. -/
theorem State.retired_keeps (s : State) (u : StId) :
    let a := s.retired u
    (a.st u).firing = none ∧ a.qu u.quire = { s.qu u.quire with lastEnd := max (s.qu u.quire).lastEnd (tickdoneAt s u) } ∧
      a.parts = s.parts ∧ a.memories = s.memories ∧
      (∀ adr fld, site (adr + fld.reg.off) ∉ [(6, R.ST_ECC.off), (6, R.ST_PC.off)] → a.f adr fld = s.f adr fld) := by
  obtain ⟨own, -, quire, parts, regs, memories⟩ :=
    (s.afterIssue u (tickdoneGate s u)).endFiring_keeps u (tickdoneAt s u)
  obtain ⟨quires', parts'⟩ := s.afterIssue_keeps u (tickdoneGate s u)
  refine ⟨?_, ?_, parts.trans parts', memories.trans (s.memories_afterIssue ..), fun adr fld h => ?_⟩
  · rw [State.retired, own]
  · rw [State.retired, quire, State.qu, quires']
    rfl
  · rw [State.retired, State.f_congr regs, State.f_afterIssue (h := h)]

/-! ### TICKDONE after the deadline -/

/-- The overrun of a quire counted and shown. -/
def State.overrunCounted (s : State) (q : QuireId) : State :=
  let p := partOf q
  let s := if (s.part p).overran then s
    else (s.updPart p (fun y => { y with overran := true })).setCnt (pt p) R.TK_OVERRUNS_LO R.TK_OVERRUNS_HI
      (s.cnt (pt p) R.TK_OVERRUNS_LO R.TK_OVERRUNS_HI + 1)
  let s := s.updPart p (fun y => { y with overMask := setBit y.overMask (localOf q) })
  s.updQu q (fun y => { y with overrunNs := s.ns })

/-- The overrun of a quire counted, shown and recorded. -/
def State.overrunNoted (s : State) (q : QuireId) : State :=
  let fail := decide (s.f (pt (partOf q)) F.TK_CTRL_policy = 0)
  let s := s.overrunCounted q
  s.raise (.quire q) Ev.TICK_OVERRUN (if fail || !(s.qu q).open_ then 2 else evSev Ev.TICK_OVERRUN) []

theorem State.overrunCounted_keeps (s : State) (q : QuireId) :
    let t := s.overrunCounted q
    (∃ n, t.qu q = { s.qu q with overrunNs := n }) ∧ t.stitchers = s.stitchers ∧
      t.masks (partOf q) / 2 ^ localOf q % 2 = 1 := by
  intro t
  let a := if (s.part (partOf q)).overran then s
    else (s.updPart (partOf q) (fun y => { y with overran := true })).setCnt (pt (partOf q)) R.TK_OVERRUNS_LO
      R.TK_OVERRUNS_HI (s.cnt (pt (partOf q)) R.TK_OVERRUNS_LO R.TK_OVERRUNS_HI + 1)
  let b := a.updPart (partOf q) (fun y => { y with overMask := setBit y.overMask (localOf q) })
  have ht : t = b.updQu q (fun y => { y with overrunNs := b.ns }) := rfl
  have quires : a.quires = s.quires := by
    simp only [a]
    split <;> rfl
  have stitchers : a.stitchers = s.stitchers := by
    simp only [a]
    split <;> rfl
  rw [ht]
  refine ⟨⟨b.ns, ?_⟩, stitchers, ?_⟩
  · refine (State.qu_updQu_same ..).trans ?_
    have same : b.qu q = s.qu q := by
      unfold State.qu
      rw [← quires]
      rfl
    rw [same]
  · rw [State.masks_updQu, State.masks, State.part_updPart_same]
    exact setBit_same _ _

theorem State.overrunNoted_keeps (s : State) (q : QuireId) :
    let t := s.overrunNoted q
    (∃ n, t.qu q = { s.qu q with overrunNs := n }) ∧ t.stitchers = s.stitchers ∧
      t.masks (partOf q) / 2 ^ localOf q % 2 = 1 := by
  intro t
  obtain ⟨quire, stitchers, mask⟩ := s.overrunCounted_keeps q
  have events : t.butEvents = (s.overrunCounted q).butEvents := State.raise_rest ..
  refine ⟨?_, (State.stitchers_of_butEvents events).trans stitchers, ?_⟩
  · rw [State.qu, State.quires_of_butEvents events]
    exact quire
  · rw [State.masks_of_parts (State.parts_of_butEvents events)]
    exact mask

theorem State.resetStitcher_down (s : State) (u : StId) (pos : Nat) :
    ((s.resetStitcher u pos).st u).inReset = true ∧ ((s.resetStitcher u pos).st u).firing = none := by
  obtain ⟨n, g, e, h⟩ := s.resetStitcher_st u pos
  rw [h]
  exact ⟨rfl, rfl⟩

/-- Every stitcher of a quire reset. -/
def State.stitchersReset (s : State) (q : QuireId) (pos : Nat) : State :=
  (List.finRange 64).foldl (fun t i => t.resetStitcher ⟨q, i⟩ pos) s

theorem State.stitchersReset_st (s : State) (q : QuireId) (pos : Nat) (i : Fin 64) :
    ((s.stitchersReset q pos).st ⟨q, i⟩).inReset = true ∧ ((s.stitchersReset q pos).st ⟨q, i⟩).firing = none := by
  have each : ∀ (l : List (Fin 64)) (s : State), i ∈ l ∨ (s.st ⟨q, i⟩).inReset = true ∧ (s.st ⟨q, i⟩).firing = none →
      ((l.foldl (fun t j => t.resetStitcher ⟨q, j⟩ pos) s).st ⟨q, i⟩).inReset = true ∧
        ((l.foldl (fun t j => t.resetStitcher ⟨q, j⟩ pos) s).st ⟨q, i⟩).firing = none := by
    intro l
    induction l with
    | nil => exact fun s h => h.resolve_left List.not_mem_nil
    | cons j l ih =>
      intro s h
      refine ih _ ?_
      by_cases here : i = j
      · subst here
        exact .inr (s.resetStitcher_down ⟨q, i⟩ pos)
      · have other : (⟨q, i⟩ : StId) ≠ ⟨q, j⟩ := fun e => here (congrArg StId.st e)
        rw [State.resetStitcher_st_ne _ _ other]
        exact h.imp_left fun m => (List.mem_cons.mp m).resolve_left here
  exact each _ s (.inl (List.mem_finRange i))

/-- The quire flushed: its stitchers reset, its page waits charged. -/
def State.flushed (s : State) (q : QuireId) (deadline : Nat) : State :=
  let p := partOf q
  let pos := s.posNow q
  let s := (s.failTick p).chargeStalls q pos
  let s := s.updQu q (fun x => { x with open_ := false, flushBy := some ((s.part p).cyc + 256) })
  (s.stitchersReset q pos).chargePause q deadline

/-- What a flush records of the slip, the presses, the tokens and the hints of its quire. -/
def State.flushNoted (s : State) (q : QuireId) : State :=
  let s := if s.f (qb q) F.TK_LG_ALLOW_allowance < (s.qu q).slip then s.ev (.quire q) Ev.SLIP_EXCEEDED [] else s
  ((s.abandonPresses q).recordOrphans q).dropDue q

/-- The flushed quire's tick done, with no token to send, and the frame's results published. -/
def State.flushEnded (s : State) (q : QuireId) : State :=
  (s.updQu q (fun x => { x with done := true, doneAt := 0, discarding := false })).publish (partOf q) 0

theorem State.failFlush_eq (s : State) (q : QuireId) (tick deadline : Nat) :
    s.failFlush q tick deadline =
      ((((s.flushed q deadline).writeLedger q tick deadline true false).writeInherit q).flushNoted q).flushEnded q := (rfl)

theorem State.flushEnded_shows (s : State) (q : QuireId) :
    let t := s.flushEnded q
    t.ticked q = ((s.qu q).open_, true, 0, (s.qu q).overrun) ∧ t.crew = s.crew ∧ t.masks = s.masks ∧
      ∀ adr fld, site (adr + fld.reg.off) ∉ [(1, R.TK_STATUS.off), (4, R.CX_SLOT_STAT.off), (1, 0xB00)] →
        t.f adr fld = s.f adr fld := by
  intro t
  have ht : t = (s.updQu q (fun x => { x with done := true, doneAt := 0, discarding := false })).publish (partOf q) 0 := rfl
  rw [ht]
  refine ⟨?_, ?_, ?_, fun adr fld h => ?_⟩
  · rw [State.ticked_publish, State.ticked, State.qu_updQu_same]
  · rw [State.crew_publish, State.crew_updQu]
  · rw [State.masks_publish, State.masks_updQu]
  · rw [State.f_publish (h := h), State.f_updQu]

theorem State.masks_stitchersReset (s : State) (q : QuireId) (pos : Nat) : (s.stitchersReset q pos).masks = s.masks :=
  State.masks_foldl (fun _ _ => State.masks_resetStitcher ..) _

theorem State.flushed_keeps (s : State) (q : QuireId) (deadline : Nat) :
    let t := s.flushed q deadline
    t.masks = s.masks ∧ (t.qu q).open_ = false ∧
      ∀ i, (t.st ⟨q, i⟩).inReset = true ∧ (t.st ⟨q, i⟩).firing = none := by
  intro t
  let a := (s.failTick (partOf q)).chargeStalls q (s.posNow q)
  let b := a.updQu q (fun x => { x with open_ := false, flushBy := some ((a.part (partOf q)).cyc + 256) })
  have ht : t = (b.stitchersReset q (s.posNow q)).chargePause q deadline := rfl
  have ticked : t.ticked = b.ticked := by
    rw [ht, State.ticked_chargePause]
    exact State.ticked_foldl (fun _ _ => State.ticked_resetStitcher ..) _
  refine ⟨?_, ?_, fun i => ?_⟩
  · rw [ht, State.masks_chargePause, State.masks_stitchersReset, State.masks_updQu, State.masks_chargeStalls,
      State.masks_failTick]
  · rw [State.open_of_ticked ticked, State.qu_updQu_same]
  · rw [ht, State.st_of_crew (State.crew_chargePause ..)]
    exact b.stitchersReset_st q (s.posNow q) i

theorem State.flushNoted_keeps (s : State) (q : QuireId) :
    let t := s.flushNoted q
    t.ticked = s.ticked ∧ t.crew = s.crew ∧ t.masks = s.masks ∧
      ∀ adr fld, site (adr + fld.reg.off) ∉ [(1, R.PG_ERR.off), (1, 0xB00), (5, R.CH_STAT.off), (5, R.PS_VOTE.off),
        (8, R.CH_ROUTE_D.off)] → t.f adr fld = s.f adr fld := by
  intro t
  refine ⟨?_, ?_, ?_, fun adr fld h => ?_⟩
  · simp only [t, State.flushNoted, State.ticked_dropDue, State.ticked_recordOrphans, State.ticked_abandonPresses,
      State.ticked_ite, State.ticked_ev, ite_self]
  · simp only [t, State.flushNoted, State.crew_dropDue, State.crew_recordOrphans, State.crew_abandonPresses,
      State.crew_ite, State.crew_ev, ite_self]
  · simp only [t, State.flushNoted, State.masks_dropDue, State.masks_recordOrphans, State.masks_abandonPresses,
      State.masks_ite, State.masks_ev, ite_self]
  · simp only [t, State.flushNoted, State.f_dropDue (h := notMem_of_subset h (by decide)),
      State.f_recordOrphans (h := notMem_of_subset h (by decide)),
      State.f_abandonPresses (h := notMem_of_subset h (by decide)), State.f_ite,
      State.f_ev (h := notMem_of_subset h (by decide)), ite_self]

/-- What a flush leaves: the tick done without a token to send, its ledger at the deadline, every stitcher in reset. -/
theorem State.failFlush_shows (s : State) (q : QuireId) (tick deadline : Nat) :
    let t := s.failFlush q tick deadline
    t.masks = s.masks ∧ (t.qu q).open_ = false ∧ (t.qu q).done = true ∧ (t.qu q).doneAt = 0 ∧
      (∀ i, (t.st ⟨q, i⟩).inReset = true ∧ (t.st ⟨q, i⟩).firing = none) ∧
      t.f (qb q) F.TK_LG_RUN_run = min (2 ^ 32 - 1) deadline ∧ t.f (qb q) F.TK_LG_TICK_overrun = 1 := by
  intro t
  have ht : t = _ := s.failFlush_eq q tick deadline
  obtain ⟨aMasks, aClosed, aDown⟩ := s.flushed_keeps q deadline
  generalize s.flushed q deadline = a at *
  obtain ⟨bRun, bOver, -⟩ := a.writeLedger_shows q tick deadline true false
  have bTicked := a.ticked_writeLedger q tick deadline true false
  have bCrew := a.crew_writeLedger q tick deadline true false
  have bMasks := a.masks_writeLedger q tick deadline true false
  generalize a.writeLedger q tick deadline true false = b at *
  obtain ⟨cTicked, cCrew, cMasks, cF⟩ := (b.writeInherit q).flushNoted_keeps q
  generalize (b.writeInherit q).flushNoted q = c at *
  obtain ⟨dTicked, dCrew, dMasks, dF⟩ := c.flushEnded_shows q
  rw [← ht] at dTicked dCrew dMasks dF
  clear_value t
  have closed : (c.qu q).open_ = false := by
    rw [State.open_of_ticked (cTicked.trans ((b.ticked_writeInherit q).trans bTicked)), aClosed]
  have ledger (k : Fld) (h : site (qb q + k.reg.off) ∉ [(5, R.CH_INHERIT.off), (5, R.MS_QTRANSIT.off), (1, R.PG_ERR.off),
      (1, 0xB00), (5, R.CH_STAT.off), (5, R.PS_VOTE.off), (8, R.CH_ROUTE_D.off), (1, R.TK_STATUS.off),
      (4, R.CX_SLOT_STAT.off)]) : t.f (qb q) k = b.f (qb q) k := by
    rw [dF _ _ (notMem_of_subset h (by decide)), cF _ _ (notMem_of_subset h (by decide)),
      State.f_writeInherit (h := notMem_of_subset h (by decide))]
  obtain ⟨opened, done, doneAt, -⟩ := State.ticked_iff.mp dTicked
  refine ⟨?_, opened.trans closed, done, doneAt, fun i => ?_, ?_, ?_⟩
  · rw [dMasks, cMasks, State.masks_writeInherit, bMasks, aMasks]
  · rw [State.st_of_crew (dCrew.trans (cCrew.trans ((b.crew_writeInherit q).trans bCrew)))]
    exact aDown i
  · rw [ledger _ (qb_notMem q (by decide)), bRun]
  · rw [ledger _ (qb_notMem q (by decide)), bOver, if_pos rfl]

theorem State.quires_recordStalls (s : State) (q : QuireId) (pos : Nat) (fired : Option StId) :
    (s.recordStalls q pos fired).quires = s.quires := by
  unfold State.recordStalls
  refine State.foldl_rest State.quires _ (fun t i => ?_) _ s
  repeat' split
  · rfl
  · exact State.quires_of_butEvents (State.ev_rest ..)
  · rfl
  · rfl

/-- An overrun of an open tick, with the stalls that are recorded with it. -/
def State.overrunShown (s : State) (q : QuireId) : State :=
  let s := s.overrunNoted q
  (s.updQu q (fun y => { y with overrun := true })).recordStalls q (s.posNow q) none

/-- A quire that overruns with its tick not open. -/
def State.overrunClosed (s : State) (q : QuireId) (fail : Bool) (d : Nat) : State :=
  let p := partOf q
  let tick := s.cnt (pt p) R.TK_COUNT_LO R.TK_COUNT_HI
  let s := s.failTick p
  let s := s.updPart p (fun y => { y with waitMask := dropBit y.waitMask (localOf q) })
  if fail then (if (s.qu q).tick = tick then s else ((s.updQu q Quire.unused).failFlush q tick d)).publish p 0
  else s.publishIfDone p

theorem State.overrunQuire_eq (s : State) (q : QuireId) :
    s.overrunQuire q none =
      if ((s.overrunNoted q).qu q).open_ = false then
        (s.overrunNoted q).overrunClosed q (decide (s.f (pt (partOf q)) F.TK_CTRL_policy = 0)) (s.deadlineOf q)
      else if decide (s.f (pt (partOf q)) F.TK_CTRL_policy = 0) = true then
        (s.overrunShown q).failFlush q ((s.overrunShown q).qu q).tick (s.deadlineOf q)
      else (s.overrunShown q).updPart (partOf q) (fun y => { y with lateNext := true }) := by
  unfold State.overrunQuire State.overrunShown State.overrunNoted State.overrunCounted State.overrunClosed
  rfl

theorem State.overrunQuire_open {s : State} {q : QuireId} (opened : (s.qu q).open_ = true) :
    s.overrunQuire q none =
      if s.f (pt (partOf q)) F.TK_CTRL_policy = 0 then
        (s.overrunShown q).failFlush q ((s.overrunShown q).qu q).tick (s.deadlineOf q)
      else (s.overrunShown q).updPart (partOf q) (fun y => { y with lateNext := true }) := by
  obtain ⟨⟨n, quire⟩, -, -⟩ := s.overrunNoted_keeps q
  have stays : ((s.overrunNoted q).qu q).open_ = true := by rw [quire, opened]
  rw [State.overrunQuire_eq, stays, if_neg (by decide)]
  simp only [decide_eq_true_eq]

theorem State.overrunShown_keeps (s : State) (q : QuireId) :
    let t := s.overrunShown q
    (∃ n, t.qu q = { s.qu q with overrunNs := n, overrun := true }) ∧ t.stitchers = s.stitchers ∧
      t.masks (partOf q) / 2 ^ localOf q % 2 = 1 := by
  intro t
  obtain ⟨⟨n, quire⟩, stitchers, mask⟩ := s.overrunNoted_keeps q
  let a := (s.overrunNoted q).updQu q (fun y => { y with overrun := true })
  have ht : t = a.recordStalls q ((s.overrunNoted q).posNow q) none := rfl
  have same : t.qu q = { s.qu q with overrunNs := n, overrun := true } := by
    rw [ht, State.qu, State.quires_recordStalls]
    refine (State.qu_updQu_same ..).trans ?_
    rw [quire]
  refine ⟨⟨n, same⟩, ?_, ?_⟩
  · rw [ht]
    exact (State.crew_recordStalls ..).trans stitchers
  · rw [ht, State.masks_recordStalls, State.masks_updQu]
    exact mask

/-! ### The four ways of TICKDONE -/

section
variable {s : State} {u : StId}

theorem State.retired_qu (s : State) (u : StId) :
    (s.retired u).qu u.quire = { s.qu u.quire with lastEnd := max (s.qu u.quire).lastEnd (tickdoneAt s u) } :=
  (s.retired_keeps u).2.1

theorem State.f_retired (s : State) (u : StId) {adr : Nat} {fld : Fld}
    (h : site (adr + fld.reg.off) ∉ [(6, R.ST_ECC.off), (6, R.ST_PC.off)]) : (s.retired u).f adr fld = s.f adr fld :=
  (s.retired_keeps u).2.2.2.2 adr fld h

theorem State.deadlineOf_retired (s : State) (u : StId) : (s.retired u).deadlineOf u.quire = s.deadlineOf u.quire := by
  unfold State.deadlineOf
  rw [State.retired_qu, State.f_retired (h := pt_notMem _ (by decide))]

/-- One more TICKDONE of a tick that is done. -/
theorem tickdone_again (may : s.canIssue u (.tickdone u) = true) (quiet : s.quireQuiet u = true)
    (done : (s.qu u.quire).done = true) :
    ∃ t, exec (.tickdone u) s = .next t ∧ MemoriesKept s t ∧ (t.st u).firing = none ∧
      (t.qu u.quire).done = true ∧ (t.qu u.quire).doneAt = (s.qu u.quire).doneAt ∧
      t.f (qb u.quire) F.TK_LG_MISMATCH_mismatches =
        min (2 ^ 32 - 1) (s.f (qb u.quire) F.TK_LG_MISMATCH_mismatches + 1) := by
  obtain ⟨firing, quire, -, memories, regs⟩ := s.retired_keeps u
  have ticked : ((s.retired u).contractMismatch u.quire).ticked u.quire =
      ((s.qu u.quire).open_, true, (s.qu u.quire).doneAt, (s.qu u.quire).overrun) := by
    rw [State.ticked_contractMismatch, State.ticked, quire, done]
  obtain ⟨-, stays, doneAt, -⟩ := State.ticked_iff.mp ticked
  refine ⟨(s.retired u).contractMismatch u.quire, ?_, memoriesKept_of ?_, ?_, stays, doneAt, ?_⟩
  · rw [execTickdone_runs may quiet, State.tickDone, if_pos done]
  · rw [State.memories_contractMismatch, memories]
  · rw [State.st_of_crew (State.crew_contractMismatch ..), firing]
  · rw [State.contractMismatch, State.f_raise (h := qb_notMem _ (by decide)), State.f_incF_same _ _ _ _ (by decide),
      regs _ _ (qb_notMem _ (by decide))]
    rfl

/-- The first TICKDONE of a tick, by its deadline or after its overrun. -/
theorem tickdone_first (may : s.canIssue u (.tickdone u) = true) (quiet : s.quireQuiet u = true)
    (first : (s.qu u.quire).done = false)
    (timely : (s.qu u.quire).overrun = true ∨ (s.qu u.quire).runAt (tickdoneAt s u) ≤ s.deadlineOf u.quire) :
    let run := (s.qu u.quire).runAt (tickdoneAt s u)
    ∃ t, exec (.tickdone u) s = .next t ∧ MemoriesKept s t ∧ (t.st u).firing = none ∧
      (t.qu u.quire).done = true ∧ (t.qu u.quire).open_ = false ∧ (t.qu u.quire).discarding = false ∧
      (∀ i, (t.st ⟨u.quire, i⟩).store = []) ∧
      t.f (qb u.quire) F.TK_LG_RUN_run = min (2 ^ 32 - 1) run ∧
      (t.qu u.quire).doneAt = (s.qu u.quire).start + run - 1 + 14 ∧
      t.f (qb u.quire) F.TK_LG_TICK_mismatch =
        (if run = s.f (qb u.quire) F.TK_LG_EXPECT_reported_run + (s.qu u.quire).slip + (s.qu u.quire).latePage
          then 0 else 1) := by
  intro run
  obtain ⟨firing, quire, -, memories, regs⟩ := s.retired_keeps u
  obtain ⟨mem, -, st, ticked, discarding, ledgerRun, -, mismatch⟩ :=
    (s.retired u).endQuireTick_shows u.quire (tickdoneAt s u)
  have atRun : ((s.retired u).qu u.quire).runAt (tickdoneAt s u) = run := by rw [quire]; rfl
  rw [atRun] at ticked ledgerRun mismatch
  obtain ⟨opened, done, doneAt, -⟩ := State.ticked_iff.mp ticked
  have intime : ¬ ((s.retired u).deadlineOf u.quire < (s.qu u.quire).runAt (tickdoneAt s u) ∧
      (s.qu u.quire).overrun = false) := by
    rw [State.deadlineOf_retired]
    rintro ⟨late, never⟩
    rcases timely with over_ | by_
    · exact absurd over_ (by rw [never]; decide)
    · omega
  refine ⟨(s.retired u).endQuireTick u.quire (tickdoneAt s u), ?_, memoriesKept_of (mem.trans memories), ?_, done, opened,
    discarding, fun i => ?_, ledgerRun, ?_, ?_⟩
  · rw [execTickdone_runs may quiet, State.tickDone, first, if_neg (by decide), if_neg intime]
  · rw [st, if_pos rfl]
    exact firing
  · rw [st, if_pos rfl]
  · rw [doneAt, quire]
  · rw [mismatch, quire, regs _ _ (qb_notMem _ (by decide))]

/-- A TICKDONE after the deadline, as it finds the quire: at the cycle of the deadline. -/
def State.pastDeadline (s : State) (u : StId) : State :=
  (s.retired u).waitCycle (partOf u.quire) (((s.retired u).part (partOf u.quire)).strokeAt + 14 +
    (s.retired u).deadlineOf u.quire)

theorem State.pastDeadline_keeps (s : State) (u : StId) :
    ((s.pastDeadline u).st u).firing = none ∧ (s.pastDeadline u).qu u.quire = (s.retired u).qu u.quire ∧
      (s.pastDeadline u).deadlineOf u.quire = s.deadlineOf u.quire ∧
      (s.pastDeadline u).f (pt (partOf u.quire)) F.TK_CTRL_policy = s.f (pt (partOf u.quire)) F.TK_CTRL_policy := by
  have rest : (s.pastDeadline u).butTime = (s.retired u).butTime := State.waitCycle_rest ..
  have quires := State.quires_of_butTime rest
  have regs := State.regs_of_butTime rest
  have quire : (s.pastDeadline u).qu u.quire = (s.retired u).qu u.quire := by rw [State.qu, quires, State.qu]
  refine ⟨?_, quire, ?_, ?_⟩
  · rw [State.st_congr (State.stitchers_of_butTime rest)]
    exact (s.retired_keeps u).1
  · refine Eq.trans ?_ (s.deadlineOf_retired u)
    unfold State.deadlineOf
    rw [quire, State.f_congr regs]
  · rw [State.f_congr regs, State.f_retired (h := pt_notMem _ (by decide))]

theorem execTickdone_late (may : s.canIssue u (.tickdone u) = true) (quiet : s.quireQuiet u = true)
    (first : (s.qu u.quire).done = false) (never : (s.qu u.quire).overrun = false)
    (late : s.deadlineOf u.quire < (s.qu u.quire).runAt (tickdoneAt s u)) :
    exec (.tickdone u) s = .next (
      let a := (s.pastDeadline u).overrunQuire u.quire none
      if (a.qu u.quire).open_ then a.endQuireTick u.quire (tickdoneAt s u) else a) := by
  have passed : (s.retired u).deadlineOf u.quire < (s.qu u.quire).runAt (tickdoneAt s u) ∧
      (s.qu u.quire).overrun = false := ⟨(s.deadlineOf_retired u).symm ▸ late, never⟩
  rw [execTickdone_runs may quiet, State.tickDone, first, if_neg (by decide), if_pos passed]
  rfl

/-- A TICKDONE after the deadline, by the partition's policy. -/
theorem tickdone_late (may : s.canIssue u (.tickdone u) = true) (quiet : s.quireQuiet u = true)
    (first : (s.qu u.quire).done = false) (never : (s.qu u.quire).overrun = false)
    (late : s.deadlineOf u.quire < (s.qu u.quire).runAt (tickdoneAt s u)) (opened : (s.qu u.quire).open_ = true) :
    let run := (s.qu u.quire).runAt (tickdoneAt s u)
    ∃ t, exec (.tickdone u) s = .next t ∧ (t.st u).firing = none ∧ (t.qu u.quire).done = true ∧
      (t.part (partOf u.quire)).overMask / 2 ^ localOf u.quire % 2 = 1 ∧
      t.f (qb u.quire) F.TK_LG_TICK_overrun = 1 ∧
      (s.f (pt (partOf u.quire)) F.TK_CTRL_policy = 0 →
        t.f (qb u.quire) F.TK_LG_RUN_run = min (2 ^ 32 - 1) (s.deadlineOf u.quire) ∧ (t.qu u.quire).doneAt = 0 ∧
        (∀ i, (t.st ⟨u.quire, i⟩).inReset = true)) ∧
      (s.f (pt (partOf u.quire)) F.TK_CTRL_policy = 1 → t.f (qb u.quire) F.TK_LG_RUN_run = min (2 ^ 32 - 1) run) := by
  intro run
  obtain ⟨firing, quire, deadline, policy⟩ := s.pastDeadline_keeps u
  rw [State.retired_qu] at quire
  obtain ⟨⟨n, shown⟩, stitchers, mask⟩ := (s.pastDeadline u).overrunShown_keeps u.quire
  rw [quire] at shown
  have runs := execTickdone_late may quiet first never late
  have split_ := State.overrunQuire_open (s := s.pastDeadline u) (q := u.quire) (by rw [quire]; exact opened)
  rw [policy, deadline] at split_
  generalize (s.pastDeadline u).overrunShown u.quire = m at *
  by_cases fail : s.f (pt (partOf u.quire)) F.TK_CTRL_policy = 0
  case pos =>
    rw [if_pos fail] at split_
    obtain ⟨masks, closed, done, doneAt, down, ledgerRun, overran⟩ :=
      m.failFlush_shows u.quire (m.qu u.quire).tick (s.deadlineOf u.quire)
    rw [split_] at runs
    generalize m.failFlush u.quire (m.qu u.quire).tick (s.deadlineOf u.quire) = a at *
    dsimp only at runs
    rw [closed, if_neg (by decide)] at runs
    refine ⟨a, runs, (down u.st).2, done, ?_, overran, fun _ => ⟨ledgerRun, doneAt, fun i => (down i).1⟩, fun one => ?_⟩
    · rw [← State.masks_at, masks]
      exact mask
    · exact absurd (fail.symm.trans one) (by decide)
  case neg =>
    rw [if_neg fail] at split_
    rw [split_] at runs
    have same : (m.updPart (partOf u.quire) (fun y => { y with lateNext := true })).qu u.quire = m.qu u.quire := rfl
    have masks : (m.updPart (partOf u.quire) (fun y => { y with lateNext := true })).masks = m.masks :=
      State.masks_updPart _ _ _ (fun _ => rfl)
    have crew : (m.updPart (partOf u.quire) (fun y => { y with lateNext := true })).crew = m.crew := rfl
    generalize m.updPart (partOf u.quire) (fun y => { y with lateNext := true }) = a at *
    rw [shown] at same
    have goes : (a.qu u.quire).open_ = true := by rw [same]; exact opened
    have overrun : (a.qu u.quire).overrun = true := by rw [same]
    have atRun : (a.qu u.quire).runAt (tickdoneAt s u) = run := by rw [same]; rfl
    dsimp only at runs
    rw [goes, if_pos rfl] at runs
    obtain ⟨-, masks', st, ticked, -, ledgerRun, overran, -⟩ := a.endQuireTick_shows u.quire (tickdoneAt s u)
    rw [overrun] at overran
    rw [atRun] at ledgerRun
    refine ⟨_, runs, ?_, (State.ticked_iff.mp ticked).2.1, ?_, overran, fun zero => absurd zero fail, fun _ => ledgerRun⟩
    · rw [st, if_pos rfl, State.st_of_crew crew, State.st_congr stitchers]
      exact firing
    · rw [← State.masks_at, masks', masks]
      exact mask

end

/-- Settles O13: NOP and FENCE have their issue alone, END ends the firing, and TICKDONE ends the quire's tick: in time, past
its deadline under each policy, and once more in a tick that is done. -/
theorem endsOfWork : Obligations.EndsOfWork := by
  refine ⟨⟨fun u s => nop_issues, fun u s => fence_issues, fun u s => endF_issues⟩, fun u s may quiet => ⟨?_, ?_, ?_⟩⟩
  · exact fun first timely => tickdone_first may quiet first timely
  · exact fun first never late opened => tickdone_late may quiet first never late opened
  · exact fun done => tickdone_again may quiet done

end Sys2Proof.Machine
end

section
namespace Sys2Proof.Machine

-- Proved in parallel, these proofs hold a thread each, whose stacks pass the check's memory.
set_option Elab.async false

/-! ## What the holds and clocks of a half leave (O31, O32)

The holds, the thermal state, the steward's state and the registers of other blocks, through the steps of a half's clock. -/

theorem State.f_updTherm (s : State) (side : Half) (f : Thermal → Thermal) (adr : Nat) (fld : Fld) :
    (s.updTherm side f).f adr fld = s.f adr fld := by
  simp only [State.updTherm, State.f_mk]

theorem State.f_dueStep (s : State) (side : Half) (c : Nat) {adr : Nat} {fld : Fld}
    (h : site (adr + fld.reg.off) ∉ [(1, R.TK_STATUS.off), (1, R.MB_STAT.off), (1, R.MB_PEND.off)]) :
    (s.dueStep side c).f adr fld = s.f adr fld := by
  simp only [State.dueStep, implies_true, State.f_foldl, State.f_updTherm, State.f_addHold (h := h)]

theorem State.f_retarget (s : State) (side : Half) {adr : Nat} {fld : Fld}
    (h : site (adr + fld.reg.off) ∉ [(1, R.TK_STATUS.off), (1, R.MB_STAT.off), (1, R.MB_PEND.off), (1,
    R.TK_INTAKE_STATS.off), (1, R.TK_CTRL.off), (1, 0xB00)]) :
    (s.retarget side).f adr fld = s.f adr fld := by
  simp only [State.retarget, State.f_ite, ite_self, implies_true, State.f_foldl, State.f_updTherm,
    State.f_dropHold (h := h), State.f_dueStep (h := notMem_of_subset h (by decide))]

theorem State.f_recentre (s : State) (adr : Nat) (fld : Fld) :
    (s.recentre).f adr fld = s.f adr fld := by
  simp only [State.recentre, State.f_ite, ite_self, implies_true, State.f_foldl, State.f_updQu]

theorem State.f_setClock (s : State) (side : Half) (c : Nat) {adr : Nat} {fld : Fld}
    (h : site (adr + fld.reg.off) ∉ [(1, R.TK_STATUS.off), (1, 0xB00)]) :
    (s.setClock side c).f adr fld = s.f adr fld := by
  simp only [State.setClock, implies_true, State.f_foldl, State.f_setF_pt (g := F.TK_STATUS_clock) (h := h) (hw := by
    decide), State.f_ev (h := notMem_of_subset h (by decide)), State.f_recentre]

theorem State.f_showLevel (s : State) (side : Half) {adr : Nat} {fld : Fld} (h : site (adr + fld.reg.off) ∉ [(0, R.PW_THERM.off)]) :
    (s.showLevel side).f adr fld = s.f adr fld := by
  cases side
  · exact State.f_setF_hub (g := F.PW_THERM_west) (h := h) (hw := by decide) ..
  · exact State.f_setF_hub (g := F.PW_THERM_east) (h := h) (hw := by decide) ..

theorem State.holds_updTherm (s : State) (h : Half) (f : Thermal → Thermal) : (s.updTherm h f).holdsOf = s.holdsOf := by
  simp only [State.updTherm, State.holds_mk]

theorem State.holds_advPart (s : State) (n : Nat) (p : PartId) : (s.advPart n p).holdsOf = s.holdsOf := by
  simp only [State.advPart, State.holds_ite, ite_self, implies_true, State.holds_updPart]

theorem State.holds_advance (s : State) (n : Nat) : (s.advance n).holdsOf = s.holdsOf := by
  simp only [State.advance, State.holds_mk, implies_true, State.holds_foldl, State.holds_advPart]

theorem State.holds_waitCycle (s : State) (p : PartId) (c : Nat) : (s.waitCycle p c).holdsOf = s.holdsOf := by
  simp only [State.waitCycle, State.holds_ite, ite_self, implies_true, State.holds_updPart, State.holds_advance]

theorem State.holds_waitNs (s : State) (t : Nat) : (s.waitNs t).holdsOf = s.holdsOf := by
  simp only [State.waitNs, State.holds_ite, ite_self, State.holds_advance]

theorem State.holds_charge (s : State) (p : PartId) (unit : HwUnit) (code : Nat) (resolved : Bool) :
    (s.charge p unit code resolved).holdsOf = s.holdsOf := by
  simp only [State.charge, State.holds_mk, State.holds_ite, ite_self]

theorem State.holds_failTick (s : State) (p : PartId) : (s.failTick p).holdsOf = s.holdsOf := by
  refine State.holds_updPart _ _ _ (fun x => ?_)
  split <;> rfl

theorem State.holds_devWrite (s : State) (ld : Nat) (off : Nat) : (s.devWrite ld off).holdsOf = s.holdsOf := by
  simp only [State.devWrite, State.holds_mk, State.holds_ite, ite_self]

theorem State.holds_ctlWrite (s : State) (ld off : Nat) (bytes : List (BitVec 8)) :
    (s.ctlWrite ld off bytes).holdsOf = s.holdsOf := by
  unfold State.ctlWrite
  rw [State.holds_devWrite]
  rfl

theorem State.holds_catchGrid (s : State) (p : PartId) : (s.catchGrid p).holdsOf = s.holdsOf := by
  simp only [State.catchGrid, State.holds_ite, ite_self, implies_true, State.holds_updPart, State.holds_incF]

theorem State.holds_recheck (s : State) (p : PartId) : (s.recheck p).holdsOf = s.holdsOf := by
  simp only [State.recheck, State.holds_ite, ite_self, State.holds_setF, State.holds_ev]

theorem State.holds_holdEnded (s : State) (p : PartId) : (s.holdEnded p).holdsOf = s.holdsOf := by
  simp only [State.holdEnded, State.holds_ite, ite_self, State.holds_showHeld, State.holds_catchGrid, State.holds_recheck]

theorem State.holds_showPending (s : State) (p : PartId) : (s.showPending p).holdsOf = s.holdsOf := by
  simp only [State.showPending, State.holds_setF]

theorem State.holds_noteFull (s : State) (p : PartId) : (s.noteFull p).holdsOf = s.holdsOf := by
  unfold State.noteFull
  split <;> simp only [State.holds_ite, ite_self, implies_true, State.holds_updPart, State.holds_incF, State.holds_ev]

theorem State.holds_setRing (s : State) (p : PartId) (r : Nat) (x : InRing) : (s.setRing p r x).holdsOf = s.holdsOf :=
  State.holds_updPart _ _ _ (fun _ => rfl)

theorem State.holds_setCons (s : State) (p : PartId) (r c : Nat) :
    (s.setCons p r c).holdsOf = s.holdsOf := by
  obtain ⟨f, body⟩ : ∃ f, State.setCons = f := ⟨_, rfl⟩
  rw [body]
  delta State.setCons at body
  subst body
  dsimp only
  split <;> simp only [State.holds_setF, State.holds_ctlWrite]

theorem State.holds_passLines (s : State) (p : PartId) (r lines : Nat) :
    (s.passLines p r lines).holdsOf = s.holdsOf := by
  simp only [State.passLines, State.holds_setRing, State.holds_setCons]

theorem State.holds_bindRing (s : State) (p : PartId) (tick : Nat) (r : Nat) :
    (s.bindRing p tick r).holdsOf = s.holdsOf := by
  simp only [State.bindRing, State.holds_ite, ite_self, implies_true, State.holds_foldl, State.holds_updPart,
    State.holds_setF, State.holds_incF, State.holds_setRing, State.holds_passLines]

theorem State.holds_settleIo (s : State)  : (s.settleIo).holdsOf = s.holdsOf := by
  unfold State.settleIo
  split <;> simp only [State.holds_mk, State.holds_ite, ite_self, State.holds_wr]

theorem State.holds_tickOut (s : State) (p : PartId) : (s.tickOut p).holdsOf = s.holdsOf := by
  simp only [State.tickOut, State.holds_mk, State.holds_ite, ite_self, State.holds_incF, State.holds_settleIo]

theorem State.holds_issueStroke (s : State) (p : PartId) (late : Bool) :
    (s.issueStroke p late).holdsOf = s.holdsOf := by
  simp only [State.issueStroke, State.holds_ite, ite_self, implies_true, State.holds_foldl, State.holds_updPart,
    State.holds_setF, State.holds_setCnt, State.holds_ev, State.holds_completeActing, State.holds_showHeld,
    State.holds_showPending, State.holds_bindRing, State.holds_tickOut]

theorem State.holds_tryStrike (s : State) (p : PartId) (at_ : Nat) (wait : Bool) :
    (s.tryStrike p at_ wait).holdsOf = s.holdsOf := by
  simp only [State.tryStrike, State.holds_ite, ite_self, implies_true, State.holds_updPart, State.holds_waitCycle,
    State.holds_showPending, State.holds_issueStroke]

theorem State.holds_tryPending (s : State) (p : PartId) (wait : Bool) :
    (s.tryPending p wait).holdsOf = s.holdsOf := by
  unfold State.tryPending
  simp only []
  split <;> simp only [State.holds_ite, ite_self, State.holds_incF, State.holds_waitCycle, State.holds_noteFull,
    State.holds_issueStroke, State.holds_tryStrike]

theorem State.holds_evalShield (s : State) (p : PartId) (writer : Nat) : (s.evalShield p writer).holdsOf = s.holdsOf := by
  simp only [State.evalShield, State.holds_ite, ite_self, State.holds_setF, State.holds_incF, State.holds_ev]

theorem State.holds_evalShields (s : State)  : (s.evalShields).holdsOf = s.holdsOf := by
  simp only [State.evalShields, implies_true, State.holds_foldl, State.holds_evalShield]

theorem State.holds_recentre (s : State)  : (s.recentre).holdsOf = s.holdsOf := by
  simp only [State.recentre, State.holds_ite, ite_self, implies_true, State.holds_foldl, State.holds_updQu]

theorem State.holds_setClock (s : State) (h : Half) (c : Nat) : (s.setClock h c).holdsOf = s.holdsOf := by
  simp only [State.setClock, implies_true, State.holds_foldl, State.holds_setF, State.holds_ev, State.holds_recentre]

theorem State.holds_showLevel (s : State) (h : Half) : (s.showLevel h).holdsOf = s.holdsOf := by
  simp only [State.showLevel, State.holds_setF]


theorem State.stew_updTherm (s : State) (h : Half) (f : Thermal → Thermal) : (s.updTherm h f).stew = s.stew := by
  simp only [State.updTherm, State.stew_mk]

theorem State.stew_failTick (s : State) (p : PartId) : (s.failTick p).stew = s.stew := by
  simp only [State.failTick, State.stew_updPart]

theorem State.stew_catchGrid (s : State) (p : PartId) : (s.catchGrid p).stew = s.stew := by
  simp only [State.catchGrid, State.stew_ite, ite_self, State.stew_updPart, State.stew_incF]

theorem State.stew_recheck (s : State) (p : PartId) : (s.recheck p).stew = s.stew := by
  simp only [State.recheck, State.stew_ite, ite_self, State.stew_setF, State.stew_ev]

theorem State.stew_holdEnded (s : State) (p : PartId) : (s.holdEnded p).stew = s.stew := by
  simp only [State.holdEnded, State.stew_ite, ite_self, State.stew_showHeld, State.stew_catchGrid, State.stew_recheck]

theorem State.stew_dropHold (s : State) (p : PartId) (c : HoldCause) : (s.dropHold p c).stew = s.stew := by
  simp only [State.dropHold, State.stew_ite, ite_self, State.stew_updPart, State.stew_holdEnded]

theorem State.stew_evalShield (s : State) (p : PartId) (writer : Nat) : (s.evalShield p writer).stew = s.stew := by
  simp only [State.evalShield, State.stew_ite, ite_self, State.stew_setF, State.stew_incF, State.stew_ev]

theorem State.stew_evalShields (s : State)  : (s.evalShields).stew = s.stew := by
  simp only [State.evalShields, implies_true, State.stew_foldl, State.stew_evalShield]

theorem State.stew_recentre (s : State)  : (s.recentre).stew = s.stew := by
  simp only [State.recentre, State.stew_ite, ite_self, implies_true, State.stew_foldl, State.stew_updQu]

theorem State.stew_setClock (s : State) (h : Half) (c : Nat) : (s.setClock h c).stew = s.stew := by
  simp only [State.setClock, implies_true, State.stew_foldl, State.stew_setF, State.stew_ev, State.stew_recentre]

theorem State.stew_showLevel (s : State) (h : Half) : (s.showLevel h).stew = s.stew := by
  simp only [State.showLevel, State.stew_setF]


/-- The thermal state of the halves, as one field. -/
def State.warm (s : State) := s.thermal

theorem State.warm_mk {s : State} {pending now timeBase freeCount regs latches stitchers quires parts flights creditFlights
    srcs mem memMark triggers trackers charges mgn dramFixes sparesUsed remaps notices comps ctlPage cmdArea bar2 msix extents
    filter snoops readWait hostData links spine spNext regAns halfChg staging stageLostAt stageLostN recNext mapCopies
    mapBefore runs tested pulseEnd ioNext tickIn stew} :
    State.warm ⟨pending, now, timeBase, freeCount, regs, latches, stitchers, quires, parts, flights, creditFlights, srcs, mem,
      memMark, triggers, trackers, charges, mgn, dramFixes, sparesUsed, remaps, notices, comps, ctlPage, cmdArea, bar2, msix,
      extents, filter, snoops, readWait, hostData, links, spine, spNext, regAns, halfChg, s.thermal, staging, stageLostAt,
      stageLostN, recNext, mapCopies, mapBefore, runs, tested, pulseEnd, ioNext, tickIn, stew⟩ = s.warm := (rfl)

theorem State.warm_ite {c : Prop} [Decidable c] {a b : State} :
    State.warm (if c then a else b) = if c then a.warm else b.warm := by
  split <;> rfl

theorem State.warm_foldl {α : Type} {g : State → α → State} {s : State} (step : ∀ s a, (g s a).warm = s.warm)
    (xs : List α) : (xs.foldl g s).warm = s.warm :=
  State.foldl_rest State.warm g step xs s

theorem State.warm_setSt (s : State) (u : StId) (x : Stitcher) : (s.setSt u x).warm = s.warm := (rfl)

theorem State.warm_updSt (s : State) (u : StId) (f : Stitcher → Stitcher) : (s.updSt u f).warm = s.warm := (rfl)

theorem State.warm_setQu (s : State) (q : QuireId) (x : Quire) : (s.setQu q x).warm = s.warm := (rfl)

theorem State.warm_updQu (s : State) (q : QuireId) (f : Quire → Quire) : (s.updQu q f).warm = s.warm := (rfl)

theorem State.warm_setPart (s : State) (p : PartId) (x : Part) : (s.setPart p x).warm = s.warm := (rfl)

theorem State.warm_updPart (s : State) (p : PartId) (f : Part → Part) : (s.updPart p f).warm = s.warm := (rfl)

theorem State.warm_setSrc (s : State) (x : Src) (v : SrcSt) : (s.setSrc x v).warm = s.warm := (rfl)

theorem State.warm_updSrc (s : State) (x : Src) (f : SrcSt → SrcSt) : (s.updSrc x f).warm = s.warm := (rfl)

theorem State.warm_wr (s : State) (b : Nat) (r : Reg) (v : BitVec 32) : (s.wr b r v).warm = s.warm := (rfl)

theorem State.warm_setF (s : State) (b : Nat) (g : Fld) (v : Nat) : (s.setF b g v).warm = s.warm := (rfl)

theorem State.warm_incF (s : State) (b : Nat) (g : Fld) (n : Nat) : (s.incF b g n).warm = s.warm := (rfl)

theorem State.warm_setCnt (s : State) (b : Nat) (lo hi : Reg) (v : Nat) : (s.setCnt b lo hi v).warm = s.warm := (rfl)

theorem State.warm_raise (s : State) (x : Src) (code sev : Nat) (cap : List Nat) : (s.raise x code sev cap).warm = s.warm :=
  (congrArg State.warm (s.raise_rest x code sev cap) :)

theorem State.warm_ev (s : State) (x : Src) (code : Nat) (cap : List Nat) : (s.ev x code cap).warm = s.warm :=
  s.warm_raise x code (evSev code) cap

theorem State.warm_complete (s : State) (n : Notice) (status result : Nat) : (s.complete n status result).warm = s.warm :=
  (congrArg State.warm (s.complete_rest n status result) :)

theorem State.warm_advPart (s : State) (n : Nat) (p : PartId) : (s.advPart n p).warm = s.warm := by
  simp only [State.advPart, State.warm_ite, ite_self, State.warm_updPart]

theorem State.warm_advance (s : State) (n : Nat) : (s.advance n).warm = s.warm := by
  simp only [State.advance, State.warm_mk, implies_true, State.warm_foldl, State.warm_advPart]

theorem State.warm_waitCycle (s : State) (p : PartId) (c : Nat) : (s.waitCycle p c).warm = s.warm := by
  simp only [State.waitCycle, State.warm_ite, ite_self, State.warm_updPart, State.warm_advance]

theorem State.warm_waitNs (s : State) (t : Nat) : (s.waitNs t).warm = s.warm := by
  simp only [State.waitNs, State.warm_ite, ite_self, State.warm_advance]

theorem State.warm_charge (s : State) (p : PartId) (unit : HwUnit) (code : Nat) (resolved : Bool) :
    (s.charge p unit code resolved).warm = s.warm := by
  simp only [State.charge, State.warm_mk, State.warm_ite, ite_self]

theorem State.warm_failTick (s : State) (p : PartId) : (s.failTick p).warm = s.warm := by
  simp only [State.failTick, State.warm_updPart]

theorem State.warm_devWrite (s : State) (ld : Nat) (off : Nat) : (s.devWrite ld off).warm = s.warm := by
  simp only [State.devWrite, State.warm_mk, State.warm_ite, ite_self]

theorem State.warm_ctlWrite (s : State) (ld off : Nat) (bytes : List (BitVec 8)) :
    (s.ctlWrite ld off bytes).warm = s.warm := by
  unfold State.ctlWrite
  rw [State.warm_devWrite]
  rfl

theorem State.warm_completeActing (s : State) (p : PartId) (bit result : Nat) :
    (s.completeActing p bit result).warm = s.warm := by
  simp only [State.completeActing, implies_true, State.warm_foldl, State.warm_complete]

theorem State.warm_showHeld (s : State) (p : PartId) : (s.showHeld p).warm = s.warm := by
  simp only [State.showHeld, State.warm_ite, ite_self, State.warm_setF, State.warm_completeActing]

theorem State.warm_noteHold (s : State) (p : PartId) : (s.noteHold p).warm = s.warm := by
  simp only [State.noteHold, State.warm_updPart, State.warm_showHeld]

theorem State.warm_addHold (s : State) (p : PartId) (c : HoldCause) : (s.addHold p c).warm = s.warm := by
  simp only [State.addHold, State.warm_updPart, State.warm_noteHold]

theorem State.warm_catchGrid (s : State) (p : PartId) : (s.catchGrid p).warm = s.warm := by
  simp only [State.catchGrid, State.warm_ite, ite_self, State.warm_updPart, State.warm_incF]

theorem State.warm_recheck (s : State) (p : PartId) : (s.recheck p).warm = s.warm := by
  simp only [State.recheck, State.warm_ite, ite_self, State.warm_setF, State.warm_ev]

theorem State.warm_holdEnded (s : State) (p : PartId) : (s.holdEnded p).warm = s.warm := by
  simp only [State.holdEnded, State.warm_ite, ite_self, State.warm_showHeld, State.warm_catchGrid, State.warm_recheck]

theorem State.warm_dropHold (s : State) (p : PartId) (c : HoldCause) : (s.dropHold p c).warm = s.warm := by
  simp only [State.dropHold, State.warm_ite, ite_self, State.warm_updPart, State.warm_holdEnded]

theorem State.warm_showPending (s : State) (p : PartId) : (s.showPending p).warm = s.warm := by
  simp only [State.showPending, State.warm_setF]

theorem State.warm_noteFull (s : State) (p : PartId) : (s.noteFull p).warm = s.warm := by
  unfold State.noteFull
  split <;> simp only [State.warm_ite, ite_self, State.warm_updPart, State.warm_incF, State.warm_ev]

theorem State.warm_setRing (s : State) (p : PartId) (r : Nat) (x : InRing) : (s.setRing p r x).warm = s.warm := (rfl)

theorem State.warm_setCons (s : State) (p : PartId) (r c : Nat) :
    (s.setCons p r c).warm = s.warm := by
  obtain ⟨f, body⟩ : ∃ f, State.setCons = f := ⟨_, rfl⟩
  rw [body]
  delta State.setCons at body
  subst body
  dsimp only
  split <;> simp only [State.warm_setF, State.warm_ctlWrite]

theorem State.warm_passLines (s : State) (p : PartId) (r lines : Nat) :
    (s.passLines p r lines).warm = s.warm := by
  simp only [State.passLines, State.warm_setRing, State.warm_setCons]

theorem State.warm_bindRing (s : State) (p : PartId) (tick : Nat) (r : Nat) :
    (s.bindRing p tick r).warm = s.warm := by
  simp only [State.bindRing, State.warm_ite, ite_self, implies_true, State.warm_foldl, State.warm_updPart, State.warm_setF,
    State.warm_incF, State.warm_setRing, State.warm_passLines]

theorem State.warm_settleIo (s : State)  : (s.settleIo).warm = s.warm := by
  unfold State.settleIo
  split <;> simp only [State.warm_mk, State.warm_ite, ite_self, State.warm_wr]

theorem State.warm_tickOut (s : State) (p : PartId) : (s.tickOut p).warm = s.warm := by
  simp only [State.tickOut, State.warm_mk, State.warm_ite, ite_self, State.warm_incF, State.warm_settleIo]

theorem State.warm_issueStroke (s : State) (p : PartId) (late : Bool) :
    (s.issueStroke p late).warm = s.warm := by
  simp only [State.issueStroke, State.warm_ite, ite_self, implies_true, State.warm_foldl, State.warm_updPart, State.warm_setF,
    State.warm_setCnt, State.warm_ev, State.warm_completeActing, State.warm_showHeld, State.warm_showPending,
    State.warm_bindRing, State.warm_tickOut]

theorem State.warm_tryStrike (s : State) (p : PartId) (at_ : Nat) (wait : Bool) :
    (s.tryStrike p at_ wait).warm = s.warm := by
  simp only [State.tryStrike, State.warm_ite, ite_self, State.warm_updPart, State.warm_waitCycle,
    State.warm_showPending, State.warm_issueStroke]

theorem State.warm_tryPending (s : State) (p : PartId) (wait : Bool) :
    (s.tryPending p wait).warm = s.warm := by
  unfold State.tryPending
  simp only []
  split <;> simp only [State.warm_ite, ite_self, State.warm_incF, State.warm_waitCycle, State.warm_noteFull,
    State.warm_issueStroke, State.warm_tryStrike]

theorem State.warm_evalShield (s : State) (p : PartId) (writer : Nat) : (s.evalShield p writer).warm = s.warm := by
  simp only [State.evalShield, State.warm_ite, ite_self, State.warm_setF, State.warm_incF, State.warm_ev]

theorem State.warm_evalShields (s : State)  : (s.evalShields).warm = s.warm := by
  simp only [State.evalShields, implies_true, State.warm_foldl, State.warm_evalShield]

theorem State.warm_recentre (s : State)  : (s.recentre).warm = s.warm := by
  simp only [State.recentre, State.warm_ite, ite_self, implies_true, State.warm_foldl, State.warm_updQu]

theorem State.warm_setClock (s : State) (h : Half) (c : Nat) : (s.setClock h c).warm = s.warm := by
  simp only [State.setClock, implies_true, State.warm_foldl, State.warm_setF, State.warm_ev, State.warm_recentre]

theorem State.warm_showLevel (s : State) (h : Half) : (s.showLevel h).warm = s.warm := by
  simp only [State.showLevel, State.warm_setF]


/-- Whether a frame of each partition is open, and whether its tick has failed. -/
def State.fails (s : State) := fun r : PartId => ((s.part r).frameOpen, (s.part r).failed)

theorem State.fails_mk {s : State} {pending now timeBase freeCount regs latches stitchers quires flights creditFlights srcs
    mem memMark triggers trackers charges mgn dramFixes sparesUsed remaps notices comps ctlPage cmdArea bar2 msix extents
    filter snoops readWait hostData links spine spNext regAns halfChg thermal staging stageLostAt stageLostN recNext mapCopies
    mapBefore runs tested pulseEnd ioNext tickIn stew} :
    State.fails ⟨pending, now, timeBase, freeCount, regs, latches, stitchers, quires, s.parts, flights, creditFlights, srcs,
      mem, memMark, triggers, trackers, charges, mgn, dramFixes, sparesUsed, remaps, notices, comps, ctlPage, cmdArea, bar2,
      msix, extents, filter, snoops, readWait, hostData, links, spine, spNext, regAns, halfChg, thermal, staging, stageLostAt,
      stageLostN, recNext, mapCopies, mapBefore, runs, tested, pulseEnd, ioNext, tickIn, stew⟩ = s.fails := (rfl)

theorem State.fails_ite {c : Prop} [Decidable c] {a b : State} :
    State.fails (if c then a else b) = if c then a.fails else b.fails := by
  split <;> rfl

theorem State.fails_foldl {α : Type} {g : State → α → State} {s : State} (step : ∀ s a, (g s a).fails = s.fails)
    (xs : List α) : (xs.foldl g s).fails = s.fails :=
  State.foldl_rest State.fails g step xs s

theorem State.fails_setSt (s : State) (u : StId) (x : Stitcher) : (s.setSt u x).fails = s.fails := (rfl)

theorem State.fails_updSt (s : State) (u : StId) (f : Stitcher → Stitcher) : (s.updSt u f).fails = s.fails := (rfl)

theorem State.fails_setQu (s : State) (q : QuireId) (x : Quire) : (s.setQu q x).fails = s.fails := (rfl)

theorem State.fails_updQu (s : State) (q : QuireId) (f : Quire → Quire) : (s.updQu q f).fails = s.fails := (rfl)

theorem State.fails_setSrc (s : State) (x : Src) (v : SrcSt) : (s.setSrc x v).fails = s.fails := (rfl)

theorem State.fails_updSrc (s : State) (x : Src) (f : SrcSt → SrcSt) : (s.updSrc x f).fails = s.fails := (rfl)

theorem State.fails_wr (s : State) (b : Nat) (r : Reg) (v : BitVec 32) : (s.wr b r v).fails = s.fails := (rfl)

theorem State.fails_setF (s : State) (b : Nat) (g : Fld) (v : Nat) : (s.setF b g v).fails = s.fails := (rfl)

theorem State.fails_incF (s : State) (b : Nat) (g : Fld) (n : Nat) : (s.incF b g n).fails = s.fails := (rfl)

theorem State.fails_setCnt (s : State) (b : Nat) (lo hi : Reg) (v : Nat) : (s.setCnt b lo hi v).fails = s.fails := (rfl)

theorem State.fails_raise (s : State) (x : Src) (code sev : Nat) (cap : List Nat) : (s.raise x code sev cap).fails = s.fails :=
  (congrArg State.fails (s.raise_rest x code sev cap) :)

theorem State.fails_ev (s : State) (x : Src) (code : Nat) (cap : List Nat) : (s.ev x code cap).fails = s.fails :=
  s.fails_raise x code (evSev code) cap

theorem State.fails_complete (s : State) (n : Notice) (status result : Nat) : (s.complete n status result).fails = s.fails :=
  (congrArg State.fails (s.complete_rest n status result) :)

theorem State.fails_of_parts {s t : State} (h : t.parts = s.parts) : t.fails = s.fails := by
  funext r
  unfold State.fails
  rw [State.part_congr h]

theorem State.fails_updPart (s : State) (p : PartId) (g : Part → Part)
    (h : ∀ x : Part, ((g x).frameOpen, (g x).failed) = (x.frameOpen, x.failed)) : (s.updPart p g).fails = s.fails := by
  funext r
  unfold State.fails
  by_cases e : r = p
  · subst e
    rw [State.part_updPart_same]
    exact h _
  · rw [State.part_updPart_ne _ _ e]

theorem State.fails_updTherm (s : State) (h : Half) (f : Thermal → Thermal) : (s.updTherm h f).fails = s.fails := by
  simp only [State.updTherm, State.fails_mk]

theorem State.fails_charge (s : State) (p : PartId) (unit : HwUnit) (code : Nat) (resolved : Bool) :
    (s.charge p unit code resolved).fails = s.fails := by
  simp only [State.charge, State.fails_mk, State.fails_ite, ite_self]

theorem State.fails_completeActing (s : State) (p : PartId) (bit result : Nat) :
    (s.completeActing p bit result).fails = s.fails := by
  simp only [State.completeActing, implies_true, State.fails_foldl, State.fails_complete]

theorem State.fails_showHeld (s : State) (p : PartId) : (s.showHeld p).fails = s.fails := by
  simp only [State.showHeld, State.fails_ite, ite_self, State.fails_setF, State.fails_completeActing]

theorem State.fails_noteHold (s : State) (p : PartId) : (s.noteHold p).fails = s.fails := by
  simp only [State.noteHold, implies_true, State.fails_updPart, State.fails_showHeld]

theorem State.fails_addHold (s : State) (p : PartId) (c : HoldCause) : (s.addHold p c).fails = s.fails := by
  simp only [State.addHold, implies_true, State.fails_updPart, State.fails_noteHold]

theorem State.fails_catchGrid (s : State) (p : PartId) : (s.catchGrid p).fails = s.fails := by
  simp only [State.catchGrid, State.fails_ite, ite_self, implies_true, State.fails_updPart, State.fails_incF]

theorem State.fails_recheck (s : State) (p : PartId) : (s.recheck p).fails = s.fails := by
  simp only [State.recheck, State.fails_ite, ite_self, State.fails_setF, State.fails_ev]

theorem State.fails_holdEnded (s : State) (p : PartId) : (s.holdEnded p).fails = s.fails := by
  simp only [State.holdEnded, State.fails_ite, ite_self, State.fails_showHeld, State.fails_catchGrid, State.fails_recheck]

theorem State.fails_dropHold (s : State) (p : PartId) (c : HoldCause) : (s.dropHold p c).fails = s.fails := by
  simp only [State.dropHold, State.fails_ite, ite_self, implies_true, State.fails_updPart, State.fails_holdEnded]

theorem State.fails_evalShield (s : State) (p : PartId) (writer : Nat) : (s.evalShield p writer).fails = s.fails := by
  simp only [State.evalShield, State.fails_ite, ite_self, State.fails_setF, State.fails_incF, State.fails_ev]

theorem State.fails_evalShields (s : State)  : (s.evalShields).fails = s.fails := by
  simp only [State.evalShields, implies_true, State.fails_foldl, State.fails_evalShield]

theorem State.fails_dueStep (s : State) (h : Half) (c : Nat) : (s.dueStep h c).fails = s.fails := by
  simp only [State.dueStep, implies_true, State.fails_foldl, State.fails_updTherm, State.fails_addHold]

theorem State.fails_retarget (s : State) (h : Half) : (s.retarget h).fails = s.fails := by
  simp only [State.retarget, State.fails_ite, ite_self, implies_true, State.fails_foldl, State.fails_updTherm,
    State.fails_dropHold, State.fails_dueStep]

theorem State.fails_recentre (s : State)  : (s.recentre).fails = s.fails := by
  simp only [State.recentre, State.fails_ite, ite_self, implies_true, State.fails_foldl, State.fails_updQu]

theorem State.fails_setClock (s : State) (h : Half) (c : Nat) : (s.setClock h c).fails = s.fails := by
  simp only [State.setClock, implies_true, State.fails_foldl, State.fails_setF, State.fails_ev, State.fails_recentre]

theorem State.fails_showLevel (s : State) (h : Half) : (s.showLevel h).fails = s.fails := by
  simp only [State.showLevel, State.fails_setF]

/-! ### The clock that TK_STATUS shows -/

theorem State.clk_setF (s : State) (p r : PartId) {g : Fld} (v : Nat)
    (h : g.apart F.TK_STATUS_clock = true ∧ g.reg.off < 0x1000) :
    (s.setF (pt p) g v).f (pt r) F.TK_STATUS_clock = s.f (pt r) F.TK_STATUS_clock := by
  obtain ⟨apart, small⟩ := h
  by_cases e : r = p
  · subst e
    exact s.f_setF_apart _ v apart
  · refine s.f_setF_reg v fun a => e (Fin.ext ?_)
    simp only [pt, F.TK_STATUS_clock, R.TK_STATUS] at a
    omega

section
variable (s : State) (p r : PartId)

theorem State.clk_showHeld : (s.showHeld p).f (pt r) F.TK_STATUS_clock = s.f (pt r) F.TK_STATUS_clock := by
  simp only [State.showHeld, State.f_ite, ite_self, State.clk_setF (g := F.TK_STATUS_held) (h := by decide),
    State.f_completeActing (adr := pt r) (fld := F.TK_STATUS_clock) (h := pt_notMem r (by decide))]

theorem State.clk_holdEnded : (s.holdEnded p).f (pt r) F.TK_STATUS_clock = s.f (pt r) F.TK_STATUS_clock := by
  simp only [State.holdEnded, State.f_ite, State.clk_showHeld, ite_self,
    State.f_catchGrid (adr := pt r) (fld := F.TK_STATUS_clock) (h := pt_notMem r (by decide)),
    State.f_recheck (adr := pt r) (fld := F.TK_STATUS_clock) (h := pt_notMem r (by decide))]

theorem State.clk_dropHold (c : HoldCause) :
    (s.dropHold p c).f (pt r) F.TK_STATUS_clock = s.f (pt r) F.TK_STATUS_clock := by
  simp only [State.dropHold, State.f_ite, State.f_updPart, State.clk_holdEnded, ite_self]

theorem State.clk_showPending : (s.showPending p).f (pt r) F.TK_STATUS_clock = s.f (pt r) F.TK_STATUS_clock :=
  s.clk_setF p r _ (by decide)

theorem State.clk_issueStroke (late : Bool) :
    (s.issueStroke p late).f (pt r) F.TK_STATUS_clock = s.f (pt r) F.TK_STATUS_clock := by
  simp only [State.issueStroke, State.f_ite, ite_self, implies_true, State.f_foldl, State.f_updPart, State.setCnt,
    State.clk_setF (g := F.TK_STATUS_phase) (h := by decide), State.clk_setF (g := F.TK_STATUS_quires_done) (h := by decide),
    State.f_wr_pt (r := R.TK_COUNT_HI) (c := pt r) (k := F.TK_STATUS_clock) (W := [(1, R.TK_COUNT_HI.off)])
      (h := pt_notMem r (by decide)) (hw := by decide),
    State.f_wr_pt (r := R.TK_COUNT_LO) (c := pt r) (k := F.TK_STATUS_clock) (W := [(1, R.TK_COUNT_LO.off)])
      (h := pt_notMem r (by decide)) (hw := by decide),
    State.f_ev (b := pt r) (k := F.TK_STATUS_clock) (h := pt_notMem r (by decide)),
    State.f_completeActing (adr := pt r) (fld := F.TK_STATUS_clock) (h := pt_notMem r (by decide)),
    State.f_bindRing (adr := pt r) (fld := F.TK_STATUS_clock) (h := pt_notMem r (by decide)),
    State.f_tickOut (adr := pt r) (fld := F.TK_STATUS_clock) (h := pt_notMem r (by decide)),
    State.clk_showHeld, State.clk_showPending]

theorem State.clk_tryStrike (at_ : Nat) (wait : Bool) :
    (s.tryStrike p at_ wait).f (pt r) F.TK_STATUS_clock = s.f (pt r) F.TK_STATUS_clock := by
  simp only [State.tryStrike, State.f_ite, ite_self, State.f_updPart, State.f_waitCycle, State.clk_showPending,
    State.clk_issueStroke]

theorem State.clk_tryPending (wait : Bool) :
    (s.tryPending p wait).f (pt r) F.TK_STATUS_clock = s.f (pt r) F.TK_STATUS_clock := by
  unfold State.tryPending
  simp only []
  split <;> simp only [State.f_ite, ite_self, State.f_waitCycle, State.clk_issueStroke, State.clk_tryStrike,
    State.f_incF_pt (g := F.TK_STRIKE_STATS_spaced) (c := pt r) (k := F.TK_STATUS_clock) (W := [(1, R.TK_STRIKE_STATS.off)])
      (h := pt_notMem r (by decide)) (hw := by decide),
    State.f_noteFull (adr := pt r) (fld := F.TK_STATUS_clock) (h := pt_notMem r (by decide))]

end

end Sys2Proof.Machine
end

section
namespace Sys2Proof.Machine

-- Proved in parallel, these proofs hold a thread each, whose stacks pass the check's memory.
set_option Elab.async false

/-! ## O31: clock steps and the clock monitor -/

theorem mem_halfParts {h : Half} {p : PartId} : p ∈ halfParts h ↔ halfOf p = h := by
  simp [halfParts, mem_allParts]

/-- What is done to both partitions of a half: each of the two after the other. -/
theorem halfParts_two (h : Half) : ∃ a b, a ≠ b ∧ halfParts h = [a, b] := by
  cases h
  · exact ⟨0, 2, by decide, by decide⟩
  · exact ⟨1, 3, by decide, by decide⟩

theorem State.dropHold_holds (s : State) (p r : PartId) (c : HoldCause) :
    (s.dropHold p c).holdsOf r = if r = p then (s.holdsOf r).erase c else s.holdsOf r := by
  unfold State.dropHold
  split
  · rw [State.holds_holdEnded]
    unfold State.holdsOf
    by_cases e : r = p
    · subst e
      rw [if_pos rfl, State.part_updPart_same]
    · rw [if_neg e, State.part_updPart_ne _ _ e]
  next absent =>
    split
    next e =>
      subst e
      exact (List.erase_of_not_mem fun m => absent (List.contains_iff_mem.mpr m)).symm
    · rfl

theorem State.memories_releaseHalf (s : State) (h : Half) (c : HoldCause) : (s.releaseHalf h c).memories = s.memories :=
  State.memories_foldl (fun _ _ => (State.memories_tryPending ..).trans (State.memories_dropHold ..)) _

theorem State.warm_releaseHalf (s : State) (h : Half) (c : HoldCause) : (s.releaseHalf h c).warm = s.warm :=
  State.warm_foldl (fun _ _ => (State.warm_tryPending ..).trans (State.warm_dropHold ..)) _

theorem State.clk_releaseHalf (s : State) (h : Half) (c : HoldCause) (r : PartId) :
    (s.releaseHalf h c).f (pt r) F.TK_STATUS_clock = s.f (pt r) F.TK_STATUS_clock :=
  State.f_foldl (fun _ _ => (State.clk_tryPending ..).trans (State.clk_dropHold ..)) _

theorem State.holds_releaseHalf (s : State) {h : Half} (c : HoldCause) {p : PartId} (mine : p ∈ halfParts h) :
    ((s.releaseHalf h c).part p).holds = (s.part p).holds.erase c := by
  have step (t : State) (q r : PartId) : ((t.dropHold q c).tryPending q false).holdsOf r =
      if r = q then (t.holdsOf r).erase c else t.holdsOf r := by
    rw [State.holds_tryPending, State.dropHold_holds]
  obtain ⟨a, b, apart, two⟩ := halfParts_two h
  show (s.releaseHalf h c).holdsOf p = (s.holdsOf p).erase c
  unfold State.releaseHalf
  rw [two] at mine ⊢
  simp only [List.foldl_cons, List.foldl_nil, step]
  rcases List.mem_pair.mp mine with rfl | rfl
  · rw [if_neg apart, if_pos rfl]
  · rw [if_pos rfl, if_neg (Ne.symm apart)]

/-- A half at a new point of its clock, with holds of it released. -/
theorem State.setClock_clock (s : State) {h : Half} {c : Nat} (small : c < 4) {p : PartId} (mine : p ∈ halfParts h) :
    (s.setClock h c).f (pt p) F.TK_STATUS_clock = c := by
  unfold State.setClock
  rw [State.f_recentre]
  refine foldl_reaches (fun t p => (t.setF (pt p) F.TK_STATUS_clock c).ev (.part p) Ev.CLOCK_STEP [])
    (fun p t => t.f (pt p) F.TK_STATUS_clock = c) ?_ ?_ _ s p mine
  · intro t b
    rw [State.f_ev (h := pt_notMem b (by decide)), State.f_setF_same _ _ _ _ (by decide)]
    exact Nat.mod_eq_of_lt small
  · intro t a b shown
    rw [State.f_ev (h := pt_notMem a (by decide))]
    by_cases e : a = b
    · subst e
      rw [State.f_setF_same _ _ _ _ (by decide)]
      exact Nat.mod_eq_of_lt small
    · rwa [setF_pt_ne _ e _ rfl]

/-! ### The steps -/

theorem State.therm_of_warm {s t : State} (h : t.warm = s.warm) (k : Half) : t.therm k = s.therm k := by
  unfold State.therm
  exact congrArg (fun l => spGet Thermal.init l (if k then 1 else 0)) h

theorem State.therm_updTherm (s : State) (h k : Half) (g : Thermal → Thermal) :
    (s.updTherm h g).therm k = if k = h then g (s.therm k) else s.therm k := by
  split
  next same =>
    subst same
    exact spGet_spUpd_same ..
  next other => exact spGet_spUpd_ne _ _ _ fun e => other (by revert e; cases k <;> cases h <;> decide)

theorem clockStep_steps {h : Half} {c : Nat} {s : State} (due : (s.therm h).stepTo = some c) (small : c < 4)
    (held : ∀ p ∈ halfParts h, s.f (pt p) F.TK_STATUS_held = 1) :
    ∃ t, exec (.clockStep h) s = .next t ∧ (t.therm h).stepTo = none ∧ MemoriesKept s t ∧
      ∀ p ∈ halfParts h, t.f (pt p) F.TK_STATUS_clock = c ∧ (t.part p).holds = (s.part p).holds.erase .clockStep := by
  let a := (s.waitNs (s.ns + 256)).updTherm h (fun x => { x with stepTo := none, spread := false })
  let b := (a.setClock h c).showLevel h
  have all : (halfParts h).all (fun p => decide (s.f (pt p) F.TK_STATUS_held = 1)) = true :=
    List.all_eq_true.mpr fun p m => decide_eq_true (held p m)
  have run : exec (.clockStep h) s = .next (b.releaseHalf h .clockStep) := by
    show execClockStep h s = _
    unfold execClockStep
    rw [due]
    dsimp only
    rw [all, if_neg (by decide)]
  have warm : (b.releaseHalf h .clockStep).warm = a.warm := by
    rw [State.warm_releaseHalf, State.warm_showLevel, State.warm_setClock]
  refine ⟨b.releaseHalf h .clockStep, run, ?_, memoriesKept_of ?_, fun p mine => ⟨?_, ?_⟩⟩
  · rw [State.therm_of_warm warm, State.therm_updTherm, if_pos rfl]
  · rw [State.memories_releaseHalf, State.memories_showLevel, State.memories_setClock, State.memories_updTherm,
      State.memories_waitNs]
  · rw [State.clk_releaseHalf, State.f_showLevel (h := pt_notMem p (by decide)), State.setClock_clock a small mine]
  · rw [State.holds_releaseHalf _ _ mine]
    have same : b.holdsOf p = s.holdsOf p := by
      rw [State.holds_showLevel, State.holds_setClock, State.holds_updTherm, State.holds_waitNs]
    exact congrArg (·.erase HoldCause.clockStep) same

theorem clockRelock_releases {h : Half} {b : Nat} {s : State} (good : (s.therm h).goodSince = some b)
    (due : b + 1000000 ≤ s.ns) :
    ∃ t, exec (.clockRelockRelease h) s = .next t ∧ (t.therm h).faulty = false ∧ MemoriesKept s t ∧
      ∀ p ∈ halfParts h, (t.part p).holds = (s.part p).holds.erase .clockMonitor := by
  let a := s.updTherm h (fun y => { y with faulty := false, goodSince := none })
  refine ⟨a.releaseHalf h .clockMonitor, ?_, ?_, memoriesKept_of ?_, fun p mine => ?_⟩
  · show execClockRelockRelease h s = _
    unfold execClockRelockRelease
    rw [good]
    dsimp only
    rw [State.waitNs, if_pos due]
  · rw [State.therm_of_warm (State.warm_releaseHalf ..), State.therm_updTherm, if_pos rfl]
  · rw [State.memories_releaseHalf, State.memories_updTherm]
  · rw [State.holds_releaseHalf _ _ mine]
    rfl

/-- A hold of one partition, with its open tick failed. -/
def State.holdAndFail (c : HoldCause) (s : State) (p : PartId) : State := (s.addHold p c).failTick p

theorem State.fails_frameOpen (s : State) (p : PartId) : (s.fails p).1 = (s.part p).frameOpen := (rfl)

theorem State.fails_failed (s : State) (p : PartId) : (s.fails p).2 = (s.part p).failed := (rfl)

theorem State.holdsOf_at (s : State) (p : PartId) : s.holdsOf p = (s.part p).holds := (rfl)

theorem State.failTick_fails (s : State) (p r : PartId) :
    (s.failTick p).fails r = if r = p then ((s.fails r).1, (s.fails r).1 || (s.fails r).2) else s.fails r := by
  unfold State.failTick State.fails
  split
  next same =>
    subst same
    rw [State.part_updPart_same]
    cases o : (s.part r).frameOpen <;> cases f : (s.part r).failed <;> simp [o, f]
  next other => rw [State.part_updPart_ne _ _ other]

theorem State.fails_holdAndFail (c : HoldCause) (s : State) (p r : PartId) :
    (s.holdAndFail c p).fails r = if r = p then ((s.fails r).1, (s.fails r).1 || (s.fails r).2) else s.fails r := by
  rw [State.holdAndFail, State.failTick_fails, State.fails_addHold]

theorem State.holds_holdAndFail (c : HoldCause) (s : State) (p r : PartId) :
    (r = p → c ∈ (s.holdAndFail c p).holdsOf r) ∧ (r ≠ p → (s.holdAndFail c p).holdsOf r = s.holdsOf r) := by
  rw [State.holdAndFail, State.holds_failTick]
  refine ⟨fun same => ?_, fun other => s.addHold_holds_ne other c⟩
  subst same
  exact s.addHold_holds r c

/-- Both partitions of a half held for a cause, with their open ticks failed. -/
def State.holdHalf (s : State) (h : Half) (c : HoldCause) : State := (halfParts h).foldl (State.holdAndFail c) s

theorem State.holdHalf_holds (s : State) {h : Half} (c : HoldCause) {p : PartId} (mine : p ∈ halfParts h) :
    c ∈ (s.holdHalf h c).holdsOf p ∧ ((s.fails p).1 = true → ((s.holdHalf h c).fails p).2 = true) := by
  obtain ⟨a, b, apart, two⟩ := halfParts_two h
  have fails : (s.holdHalf h c).fails p = ((s.fails p).1, (s.fails p).1 || (s.fails p).2) := by
    unfold State.holdHalf
    rw [two] at mine ⊢
    rw [List.foldl_cons, List.foldl_cons, List.foldl_nil, State.fails_holdAndFail, State.fails_holdAndFail]
    rcases List.mem_pair.mp mine with rfl | rfl
    · rw [if_neg apart, if_pos rfl]
    · rw [if_pos rfl, if_neg (Ne.symm apart)]
  refine ⟨?_, fun framed => ?_⟩
  · unfold State.holdHalf
    refine foldl_reaches (State.holdAndFail c) (fun p t => c ∈ t.holdsOf p)
      (fun t q => (t.holds_holdAndFail c q q).1 rfl) (fun t q r held => ?_) _ s p mine
    by_cases e : q = r
    · exact (State.holds_holdAndFail c t r q).1 e
    · rwa [(State.holds_holdAndFail c t r q).2 e]
  · rw [fails]
    exact Bool.or_eq_true_iff.mpr (.inl framed)

theorem State.memories_holdHalf (s : State) (h : Half) (c : HoldCause) : (s.holdHalf h c).memories = s.memories :=
  State.memories_foldl (fun _ _ => (State.memories_failTick ..).trans (State.memories_addHold ..)) _

theorem State.warm_holdHalf (s : State) (h : Half) (c : HoldCause) : (s.holdHalf h c).warm = s.warm :=
  State.warm_foldl (fun _ _ => (State.warm_failTick ..).trans (State.warm_addHold ..)) _

theorem clockMonitor_finds {h : Half} {kHz : BitVec 32} {s : State} (up : s.halfState h ≠ 2) (die : s.stew.die = true)
    (sound : (s.therm h).faulty = false) (out : inBand kHz.toNat (s.halfClock h) = false) :
    ∃ t, exec (.clockMonitorWindow h kHz) s = .next t ∧ (t.therm h).faulty = true ∧ (t.therm h).goodSince = none ∧
      MemoriesKept s t ∧ ∀ p ∈ halfParts h, .clockMonitor ∈ (t.part p).holds ∧
        ((s.part p).frameOpen = true → (t.part p).failed = true) := by
  obtain ⟨a, b, -, two⟩ := halfParts_two h
  let x := (s.updTherm h (fun y => { y with faulty := true, goodSince := none })).charge a (.clock h) Ev.IN_CLOCK false
  let t := (x.holdHalf h .clockMonitor).ev .hub Ev.IN_CLOCK [halfNum h, kHz.toNat, s.halfClock h]
  have run : exec (.clockMonitorWindow h kHz) s = .next t := by
    show execClockMonitorWindow h kHz s = _
    unfold execClockMonitorWindow
    have asleep : ¬ (s.f hub (halfFld h) = 2 ∨ s.stew.die = false) := by
      rintro (e | e)
      · exact up e
      · exact absurd (die.symm.trans e) (by decide)
    simp only [asleep, out, sound, if_false, Bool.false_eq_true]
    simp only [t, x, State.holdHalf, two]
    rfl
  have warm : t.warm = (s.updTherm h (fun y => { y with faulty := true, goodSince := none })).warm := by
    rw [State.warm_ev, State.warm_holdHalf, State.warm_charge]
  refine ⟨t, run, ?_, ?_, memoriesKept_of ?_, fun p mine => ?_⟩
  · rw [State.therm_of_warm warm, State.therm_updTherm, if_pos rfl]
  · rw [State.therm_of_warm warm, State.therm_updTherm, if_pos rfl]
  · rw [State.memories_ev, State.memories_holdHalf, State.memories_charge, State.memories_updTherm]
  · obtain ⟨held, failed⟩ := x.holdHalf_holds .clockMonitor mine
    have before : x.fails = s.fails := by rw [State.fails_charge, State.fails_updTherm]
    rw [before, State.fails_frameOpen] at failed
    rw [← State.fails_failed, ← State.holdsOf_at, State.holds_ev, State.fails_ev]
    exact ⟨held, failed⟩

/-! ### The spread of the clocks -/

theorem State.halfClock_congr {s t : State} (h : ∀ r, t.f (pt r) F.TK_STATUS_clock = s.f (pt r) F.TK_STATUS_clock) (k : Half) :
    t.halfClock k = s.halfClock k := by
  obtain ⟨a, b, -, two⟩ := halfParts_two k
  unfold State.halfClock
  rw [two]
  exact h a

theorem State.clk_dueStep (s : State) (h : Half) (c : Nat) (r : PartId) :
    (s.dueStep h c).f (pt r) F.TK_STATUS_clock = s.f (pt r) F.TK_STATUS_clock :=
  State.f_foldl (fun _ _ => State.addHold_clock ..) _

/-- A step of a half that is due: the point it goes to, and the holds it asks for. -/
theorem State.dueStep_shows (s : State) (h : Half) (c : Nat) :
    let t := s.dueStep h c
    (∀ k, t.therm k = if k = h then { s.therm k with stepTo := some c } else s.therm k) ∧ t.memories = s.memories ∧ t.stew = s.stew ∧
      ∀ p, (p ∈ halfParts h → .clockStep ∈ t.holdsOf p) ∧ (.clockStep ∈ s.holdsOf p → .clockStep ∈ t.holdsOf p) := by
  intro t
  let a := s.updTherm h (fun x => { x with stepTo := some c })
  have ht : t = (halfParts h).foldl (fun t p => t.addHold p .clockStep) a := rfl
  have takes (t : State) (q : PartId) : .clockStep ∈ (t.addHold q .clockStep).holdsOf q := t.addHold_holds q _
  have stays (t : State) (q r : PartId) (held : .clockStep ∈ t.holdsOf q) : .clockStep ∈ (t.addHold r .clockStep).holdsOf q := by
    by_cases e : q = r
    · subst e
      exact takes t q
    · rwa [State.holdsOf_at, t.addHold_holds_ne e]
  have therm : ∀ k, a.therm k = if k = h then { s.therm k with stepTo := some c } else s.therm k :=
    fun k => s.therm_updTherm h k _
  have memories : a.memories = s.memories := s.memories_updTherm ..
  have stew : a.stew = s.stew := s.stew_updTherm ..
  have holds : a.holdsOf = s.holdsOf := s.holds_updTherm ..
  rw [ht]
  clear_value a
  refine ⟨fun k => ?_, ?_, ?_, fun p => ⟨fun mine => ?_, fun held => ?_⟩⟩
  · rw [State.therm_of_warm (State.warm_foldl (fun _ _ => State.warm_addHold ..) _), therm]
  · refine Eq.trans (State.memories_foldl (fun _ _ => ?_) _) memories
    exact State.memories_addHold ..
  · refine Eq.trans (State.stew_foldl (fun _ _ => ?_) _) stew
    exact State.stew_addHold ..
  · exact foldl_reaches (fun t p => t.addHold p .clockStep) (fun p t => .clockStep ∈ t.holdsOf p)
      takes stays (halfParts h) a p mine
  · have start : .clockStep ∈ a.holdsOf p := by rwa [holds]
    exact List.foldlRecOn (motive := fun t => .clockStep ∈ t.holdsOf p) (halfParts h) _ start
      fun t held r _ => stays t p r held

/-- A change of the spread asks a half for a step at its present point. -/
def State.spreadHalf (t : State) (h : Half) : State :=
  if t.f hub (halfFld h) ≠ 0 ∨ t.halfClock h = 3 then t
  else
    (t.dueStep h ((t.therm h).stepTo.getD (t.halfClock h))).updTherm h (fun x => { x with spread := !x.spread })

/-- The spread as PW_CLK shows it and as the steward keeps it. -/
def State.showSpread (s : State) (v : Nat) : State :=
  let s := s.setF hub F.PW_CLK_spread v
  { s with stew := { s.stew with keepClk := v } }

theorem State.setSpread_eq (s : State) (v : Nat) :
    s.setSpread v = if v = s.f hub F.PW_CLK_spread then s.showSpread v
      else ((s.showSpread v).spreadHalf false).spreadHalf true := (rfl)

theorem State.showSpread_keeps (s : State) (v : Nat) :
    let t := s.showSpread v
    t.parts = s.parts ∧ t.thermal = s.thermal ∧ t.memories = s.memories ∧
      (∀ r, t.f (pt r) F.TK_STATUS_clock = s.f (pt r) F.TK_STATUS_clock) ∧
      (∀ h, t.f hub (halfFld h) = s.f hub (halfFld h)) ∧ t.f hub F.PW_CLK_spread = v % 2 ^ F.PW_CLK_spread.w := by
  intro t
  have reg (b : Nat) (k : Fld) : t.f b k = (s.setF hub F.PW_CLK_spread v).f b k := rfl
  refine ⟨rfl, rfl, State.memories_mk.trans (s.memories_setF ..), fun r => ?_, fun h => ?_, ?_⟩
  · rw [reg, State.f_setF_hub (W := [(0, R.PW_CLK.off)]) (pt_notMem r (by decide)) _ (by decide)]
  · rw [reg]
    cases h <;> exact State.f_setF_hub (W := [(0, R.PW_CLK.off)]) (hub_notMem (by decide)) _ (by decide)
  · rw [reg, State.f_setF_same _ _ _ _ (by decide)]

theorem State.spreadHalf_due {s : State} {h : Half} (up : s.f hub (halfFld h) = 0) (fast : s.halfClock h ≠ 3)
    (calm : (s.therm h).stepTo = none) :
    let t := s.spreadHalf h
    (∀ k, (t.therm k).stepTo = if k = h then some (s.halfClock h) else (s.therm k).stepTo) ∧ t.memories = s.memories ∧
      (∀ r, t.f (pt r) F.TK_STATUS_clock = s.f (pt r) F.TK_STATUS_clock) ∧
      (∀ k, t.f hub (halfFld k) = s.f hub (halfFld k)) ∧ t.f hub F.PW_CLK_spread = s.f hub F.PW_CLK_spread ∧
      ∀ p, (p ∈ halfParts h → .clockStep ∈ t.holdsOf p) ∧ (.clockStep ∈ s.holdsOf p → .clockStep ∈ t.holdsOf p) := by
  intro t
  obtain ⟨therm, memories, -, holds⟩ := s.dueStep_shows h (s.halfClock h)
  have ht : t = (s.dueStep h (s.halfClock h)).updTherm h (fun x => { x with spread := !x.spread }) := by
    have goes : ¬ (s.f hub (halfFld h) ≠ 0 ∨ s.halfClock h = 3) := by simp [up, fast]
    simp only [t, State.spreadHalf, if_neg goes, calm, Option.getD_none]
  rw [ht]
  refine ⟨fun k => ?_, ?_, fun r => ?_, fun k => ?_, ?_, fun p => ?_⟩
  · rw [State.therm_updTherm, therm]
    split <;> rfl
  · rw [State.memories_updTherm, memories]
  · rw [State.f_updTherm, State.clk_dueStep]
  · rw [State.f_updTherm]
    cases k <;> exact State.f_dueStep (h := hub_notMem (by decide)) ..
  · rw [State.f_updTherm, State.f_dueStep (h := hub_notMem (by decide))]
  · rw [State.holds_updTherm]
    exact holds p

theorem Fld.get_mod (g : Fld) (v : Word) : g.get v % 2 ^ g.w = g.get v :=
  Nat.mod_mod ..

theorem pwClkWrite_runs {w : Writer} {v : Word} {s : State} (pass : s.gateOf w R.PW_CLK.off = .pass) :
    exec (.pwClkWrite w v) s =
      .next ((s.noted w R.PW_CLK.off v.toNat).setSpread (F.PW_CLK_spread.get v)) :=
  congrArg Host.Outcome.next (asWrite_hub v.toNat _ pass (by decide))

theorem State.noted_hub (s : State) (w : Writer) (addr value : Nat) {k : Fld} (h : k.reg.off < 0x1000000) :
    (s.noted w addr value).f hub k = s.f hub k :=
  State.f_ev (h := hub_notMem ⟨h, by simp⟩) ..

theorem pwClkWrite_same {w : Writer} {v : Word} {s : State} (pass : s.gateOf w R.PW_CLK.off = .pass)
    (same : F.PW_CLK_spread.get v = s.f hub F.PW_CLK_spread) :
    ∃ t, exec (.pwClkWrite w v) s = .next t ∧ t.f hub F.PW_CLK_spread = F.PW_CLK_spread.get v ∧ t.thermal = s.thermal ∧
      t.parts = s.parts ∧ MemoriesKept s t := by
  have run := pwClkWrite_runs (v := v) pass
  have stays : F.PW_CLK_spread.get v = (s.noted w R.PW_CLK.off v.toNat).f hub F.PW_CLK_spread := by
    rw [s.noted_hub _ _ _ (by decide), same]
  have warm : (s.noted w R.PW_CLK.off v.toNat).warm = s.warm := State.warm_ev ..
  have parts : (s.noted w R.PW_CLK.off v.toNat).parts = s.parts := State.parts_ev ..
  have memories := s.memories_noted w R.PW_CLK.off v.toNat
  rw [State.setSpread_eq, if_pos stays] at run
  clear stays
  generalize s.noted w R.PW_CLK.off v.toNat = a at *
  obtain ⟨parts', thermal, memories', -, -, shown⟩ := a.showSpread_keeps (F.PW_CLK_spread.get v)
  exact ⟨_, run, shown.trans (Fld.get_mod ..), thermal.trans warm, parts'.trans parts, memoriesKept_of (memories'.trans memories)⟩

theorem pwClkWrite_steps {w : Writer} {v : Word} {s : State} (pass : s.gateOf w R.PW_CLK.off = .pass)
    (new : F.PW_CLK_spread.get v ≠ s.f hub F.PW_CLK_spread)
    (calm : ∀ h, s.halfState h = 0 ∧ s.halfClock h ≠ 3 ∧ (s.therm h).stepTo = none) :
    ∃ t, exec (.pwClkWrite w v) s = .next t ∧ t.f hub F.PW_CLK_spread = F.PW_CLK_spread.get v ∧ MemoriesKept s t ∧
      (∀ h, (t.therm h).stepTo = some (s.halfClock h)) ∧ ∀ p, .clockStep ∈ (t.part p).holds := by
  have run := pwClkWrite_runs (v := v) pass
  have moves : ¬ F.PW_CLK_spread.get v = (s.noted w R.PW_CLK.off v.toNat).f hub F.PW_CLK_spread := by
    rwa [s.noted_hub _ _ _ (by decide)]
  have warm : (s.noted w R.PW_CLK.off v.toNat).warm = s.warm := State.warm_ev ..
  have memories := s.memories_noted w R.PW_CLK.off v.toNat
  have clocks (r : PartId) : (s.noted w R.PW_CLK.off v.toNat).f (pt r) F.TK_STATUS_clock = s.f (pt r) F.TK_STATUS_clock :=
    State.f_ev (h := pt_notMem r (by decide)) ..
  have halves (h : Half) : (s.noted w R.PW_CLK.off v.toNat).f hub (halfFld h) = s.f hub (halfFld h) := by
    cases h <;> exact s.noted_hub _ _ _ (by decide)
  rw [State.setSpread_eq, if_neg moves] at run
  clear moves
  generalize s.noted w R.PW_CLK.off v.toNat = n at *
  obtain ⟨-, aWarm, aMem, aClk, aHalf, aShown⟩ := n.showSpread_keeps (F.PW_CLK_spread.get v)
  generalize n.showSpread (F.PW_CLK_spread.get v) = a at *
  have clock (h : Half) : a.halfClock h = s.halfClock h := by
    rw [State.halfClock_congr aClk, State.halfClock_congr clocks]
  have therm (h : Half) : a.therm h = s.therm h := State.therm_of_warm (aWarm.trans warm) h
  have up (h : Half) : a.f hub (halfFld h) = 0 := by
    rw [aHalf, halves]
    exact (calm h).1
  obtain ⟨bStep, bMem, bClk, bHalf, bShown, bHolds⟩ := a.spreadHalf_due (up false)
    (by rw [clock]; exact (calm false).2.1) (by rw [therm]; exact (calm false).2.2)
  generalize a.spreadHalf false = b at *
  obtain ⟨cStep, cMem, -, -, cShown, cHolds⟩ := b.spreadHalf_due (h := true) (by rw [bHalf, up])
    (by rw [State.halfClock_congr bClk, clock]; exact (calm true).2.1)
    (by rw [bStep, if_neg (by decide), therm]; exact (calm true).2.2)
  generalize b.spreadHalf true = c at *
  refine ⟨c, run, ?_, memoriesKept_of ?_, fun h => ?_, fun p => ?_⟩
  · rw [cShown, bShown, aShown, Fld.get_mod]
  · rw [cMem, bMem, aMem, memories]
  · cases h
    · rw [cStep, if_neg (by decide), bStep, if_pos rfl, clock]
    · rw [cStep, if_pos rfl, State.halfClock_congr bClk, clock]
  · rw [← State.holdsOf_at]
    cases west : halfOf p
    · exact (cHolds p).2 ((bHolds p).1 (mem_halfParts.mpr west))
    · exact (cHolds p).1 (mem_halfParts.mpr west)

/-- Settles O31: a half's clock steps and ends its holds, a change of the spread asks both halves for a step, and the clock
monitor holds a half until its clock is back in its band. -/
theorem clockSteps : Obligations.ClockSteps := by
  refine ⟨fun h c s due small ready => clockStep_steps due small fun p m => (ready p m).1, fun w v s => pwClkWrite_same,
    fun w v s => pwClkWrite_steps, fun h kHz s => clockMonitor_finds, fun h b s good due _ => clockRelock_releases good due⟩

end Sys2Proof.Machine
end

section
namespace Sys2Proof.Machine

-- Proved in parallel, these proofs hold a thread each, whose stacks pass the check's memory.
set_option Elab.async false

/-! ## O32: throttling -/

/-- A step that is one half's own: the other half keeps its holds, frames, clock and thermal state; no memory changes. -/
structure HalfStep (h : Half) (s t : State) : Prop where
  holds : ∀ p, halfOf p ≠ h → t.holdsOf p = s.holdsOf p
  fails : ∀ p, halfOf p ≠ h → t.fails p = s.fails p
  clock : ∀ p, halfOf p ≠ h → t.f (pt p) F.TK_STATUS_clock = s.f (pt p) F.TK_STATUS_clock
  therm : ∀ k, k ≠ h → t.therm k = s.therm k
  memories : t.memories = s.memories
  temps : t.stew.temps = s.stew.temps

theorem HalfStep.trans {h : Half} {s t u : State} (a : HalfStep h s t) (b : HalfStep h t u) : HalfStep h s u where
  holds p e := (b.holds p e).trans (a.holds p e)
  fails p e := (b.fails p e).trans (a.fails p e)
  clock p e := (b.clock p e).trans (a.clock p e)
  therm k e := (b.therm k e).trans (a.therm k e)
  memories := b.memories.trans a.memories
  temps := b.temps.trans a.temps

theorem HalfStep.refl (h : Half) (s : State) : HalfStep h s s :=
  ⟨fun _ _ => rfl, fun _ _ => rfl, fun _ _ => rfl, fun _ _ => rfl, rfl, rfl⟩

theorem HalfStep.of_foldl {h : Half} {g : State → PartId → State} (step : ∀ t p, halfOf p = h → HalfStep h t (g t p)) (s : State) :
    HalfStep h s ((halfParts h).foldl g s) :=
  List.foldlRecOn (motive := HalfStep h s) (halfParts h) g (HalfStep.refl h s)
    fun t kept p mine => kept.trans (step t p (mem_halfParts.mp mine))

theorem State.halfStep_updTherm (s : State) (h : Half) (g : Thermal → Thermal) : HalfStep h s (s.updTherm h g) where
  holds p _ := congrFun (s.holds_updTherm h g) p
  fails p _ := congrFun (s.fails_updTherm h g) p
  clock _ _ := s.f_updTherm h g _ _
  therm k e := (s.therm_updTherm h k g).trans (if_neg e)
  memories := s.memories_updTherm h g
  temps := congrArg Steward.temps (s.stew_updTherm h g)

theorem ne_of_half {h : Half} {p r : PartId} (mine : halfOf p = h) (other : halfOf r ≠ h) : r ≠ p :=
  fun same => other (same ▸ mine)

section
variable {h : Half} (s : State) {p : PartId} (mine : halfOf p = h)
include mine

theorem State.halfStep_addHold (c : HoldCause) : HalfStep h s (s.addHold p c) where
  holds _ e := s.addHold_holds_ne (ne_of_half mine e) c
  fails r _ := congrFun (s.fails_addHold p c) r
  clock r _ := s.addHold_clock p r c
  therm k _ := State.therm_of_warm (s.warm_addHold p c) k
  memories := s.memories_addHold p c
  temps := congrArg Steward.temps (s.stew_addHold p c)

theorem State.halfStep_dropHold (c : HoldCause) : HalfStep h s (s.dropHold p c) where
  holds r e := (s.dropHold_holds p r c).trans (if_neg (ne_of_half mine e))
  fails r _ := congrFun (s.fails_dropHold p c) r
  clock r _ := s.clk_dropHold p r c
  therm k _ := State.therm_of_warm (s.warm_dropHold p c) k
  memories := s.memories_dropHold p c
  temps := congrArg Steward.temps (s.stew_dropHold p c)

theorem State.halfStep_failTick : HalfStep h s (s.failTick p) where
  holds r _ := congrFun (s.holds_failTick p) r
  fails r e := (s.failTick_fails p r).trans (if_neg (ne_of_half mine e))
  clock _ _ := s.f_failTick p _ _
  therm k _ := State.therm_of_warm (s.warm_failTick p) k
  memories := s.memories_failTick p
  temps := congrArg Steward.temps (s.stew_failTick p)

/-- A partition of the half shows a point of its clock. -/
theorem State.halfStep_clock (c : Nat) : HalfStep h s ((s.setF (pt p) F.TK_STATUS_clock c).ev (.part p) Ev.CLOCK_STEP []) where
  holds r _ := congrFun ((State.holds_ev ..).trans (State.holds_setF ..)) r
  fails r _ := congrFun ((State.fails_ev ..).trans (State.fails_setF ..)) r
  clock r e := by
    rw [State.f_ev (h := pt_notMem r (by decide)), setF_pt_ne _ (ne_of_half mine e) _ rfl]
  therm k _ := State.therm_of_warm ((State.warm_ev ..).trans (State.warm_setF ..)) k
  memories := (State.memories_ev ..).trans (State.memories_setF ..)
  temps := congrArg Steward.temps ((State.stew_ev ..).trans (State.stew_setF ..))

end

/-- A step that changes no partition, register of one, thermal state, memory or temperature. -/
theorem HalfStep.of_kept {h : Half} {s t : State} (holds : t.holdsOf = s.holdsOf) (fails : t.fails = s.fails)
    (clock : ∀ p, t.f (pt p) F.TK_STATUS_clock = s.f (pt p) F.TK_STATUS_clock) (warm : t.warm = s.warm)
    (memories : t.memories = s.memories) (temps : t.stew.temps = s.stew.temps) : HalfStep h s t :=
  ⟨fun p _ => congrFun holds p, fun p _ => congrFun fails p, fun p _ => clock p, fun k _ => State.therm_of_warm warm k,
    memories, temps⟩

theorem State.halfStep_setClock (s : State) (h : Half) (c : Nat) : HalfStep h s (s.setClock h c) := by
  refine (HalfStep.of_foldl (fun t p mine => t.halfStep_clock mine c) s).trans ?_
  exact .of_kept (State.holds_recentre _) (State.fails_recentre _) (fun p => State.f_recentre ..) (State.warm_recentre _)
    (State.memories_recentre _) (congrArg Steward.temps (State.stew_recentre _))

theorem State.halfStep_showLevel (s : State) (h : Half) : HalfStep h s (s.showLevel h) :=
  .of_kept (s.holds_showLevel h) (s.fails_showLevel h) (fun p => State.f_showLevel _ _ (pt_notMem p (by decide)))
    (s.warm_showLevel h) (s.memories_showLevel h) (congrArg Steward.temps (s.stew_showLevel h))

theorem State.halfStep_ev (s : State) {h : Half} (x : Src) (code : Nat) (cap : List Nat) : HalfStep h s (s.ev x code cap) :=
  .of_kept (State.holds_ev ..) (State.fails_ev ..) (fun p => State.f_ev _ _ _ _ (pt_notMem p (by decide))) (State.warm_ev ..)
    (State.memories_ev ..) (congrArg Steward.temps (State.stew_ev ..))

/-- A register of the hub written. -/
theorem State.halfStep_hub (s : State) {h : Half} {g : Fld} (v : Nat) (small : g.reg.off < 0x1000000) :
    HalfStep h s (s.setF hub g v) :=
  .of_kept (State.holds_setF ..) (State.fails_setF ..)
    (fun p => State.f_setF_hub (W := [(0, g.reg.off)]) (pt_notMem p ⟨by decide, by simp⟩) v ⟨small, List.mem_singleton_self _⟩)
    (State.warm_setF ..) (State.memories_setF ..) (congrArg Steward.temps (State.stew_setF ..))

theorem State.halfStep_retarget (s : State) (h : Half) : HalfStep h s (s.retarget h) := by
  unfold State.retarget
  dsimp only
  split
  · exact .refl h s
  · split
    · exact (s.halfStep_updTherm h _).trans (.of_foldl (fun t p mine => t.halfStep_addHold mine .clockStep) _)
    · split
      · exact (s.halfStep_updTherm h _).trans (.of_foldl (fun t p mine => t.halfStep_dropHold mine .clockStep) _)
      · exact .refl h s

theorem State.stew_dueStep (s : State) (h : Half) (c : Nat) : (s.dueStep h c).stew = s.stew := by
  simp only [State.dueStep, implies_true, State.stew_foldl, State.stew_updTherm, State.stew_addHold]

theorem State.stew_retarget (s : State) (h : Half) : (s.retarget h).stew = s.stew := by
  simp only [State.retarget, State.stew_ite, ite_self, implies_true, State.stew_foldl, State.stew_updTherm,
    State.stew_dropHold, State.stew_dueStep]

/-! ### A half becomes critical -/

/-- What a critical half's partitions show. -/
def IsCritical (h : Half) (s t : State) : Prop :=
  (t.therm h).level = 3 ∧ ∀ p ∈ halfParts h, t.f (pt p) F.TK_STATUS_clock = 3 ∧ .critical ∈ t.holdsOf p ∧
    ((s.fails p).1 = true → (t.fails p).2 = true)

/-- The state as a half's critical temperature is recorded. -/
def State.criticalHeld (s : State) (h : Half) : State :=
  let s := s.updTherm h (fun x => { x with level := 3, stepTo := none, spread := false })
  (halfParts h).foldl (fun u p => u.dropHold p .clockStep) (s.holdHalf h .critical)

theorem State.critical_eq (s : State) (h : Half) (sensor : Nat) (t : Int) :
    s.critical h sensor t = ((((s.criticalHeld h).setClock h 3).showLevel h).incF hub F.PW_THERM_crit).ev .hub Ev.THERM_CRIT
      [halfNum h, sensor, tempByte t] := (rfl)

theorem State.criticalHeld_shows (s : State) (h : Half) :
    HalfStep h s (s.criticalHeld h) ∧ ((s.criticalHeld h).therm h).level = 3 ∧
      ∀ p ∈ halfParts h, .critical ∈ (s.criticalHeld h).holdsOf p ∧
        ((s.fails p).1 = true → ((s.criticalHeld h).fails p).2 = true) := by
  let a := s.updTherm h (fun x => { x with level := 3, stepTo := none, spread := false })
  have own : HalfStep h s a := s.halfStep_updTherm h _
  have fails : a.fails = s.fails := s.fails_updTherm h _
  have level : (a.therm h).level = 3 := by rw [State.therm_updTherm, if_pos rfl]
  have held (p : PartId) (mine : p ∈ halfParts h) := a.holdHalf_holds .critical mine
  have holds : HalfStep h a (a.holdHalf h .critical) :=
    .of_foldl (fun t p mine => (t.halfStep_addHold mine .critical).trans (State.halfStep_failTick _ mine)) a
  have warm : (a.holdHalf h .critical).warm = a.warm := a.warm_holdHalf h .critical
  have ht : s.criticalHeld h = (halfParts h).foldl (fun u p => u.dropHold p .clockStep) (a.holdHalf h .critical) := rfl
  rw [ht]
  clear ht
  clear_value a
  rw [fails] at held
  generalize a.holdHalf h .critical = b at *
  have dropped : HalfStep h b ((halfParts h).foldl (fun u p => u.dropHold p .clockStep) b) :=
    .of_foldl (fun t p mine => t.halfStep_dropHold mine .clockStep) b
  have warm' : ((halfParts h).foldl (fun u p => u.dropHold p .clockStep) b).warm = b.warm := by
    refine State.warm_foldl (fun u p => ?_) _
    exact State.warm_dropHold ..
  have fails' : ((halfParts h).foldl (fun u p => u.dropHold p .clockStep) b).fails = b.fails := by
    refine State.fails_foldl (fun u p => ?_) _
    exact State.fails_dropHold ..
  refine ⟨(own.trans holds).trans dropped, ?_, fun p mine => ⟨?_, ?_⟩⟩
  · rw [State.therm_of_warm (warm'.trans warm), level]
  · refine List.foldlRecOn (motive := fun u : State => HoldCause.critical ∈ u.holdsOf p) (halfParts h) _ (held p mine).1 fun u kept r _ => ?_
    rw [State.dropHold_holds]
    split
    · exact (List.mem_erase_of_ne (by decide)).mpr kept
    · exact kept
  · rw [fails']
    exact (held p mine).2

theorem State.critical_shows (s : State) (h : Half) (sensor : Nat) (t : Int) :
    HalfStep h s (s.critical h sensor t) ∧ IsCritical h s (s.critical h sensor t) := by
  obtain ⟨own, level, shown⟩ := s.criticalHeld_shows h
  rw [State.critical_eq]
  generalize s.criticalHeld h = a at *
  have clock (p : PartId) (mine : p ∈ halfParts h) := a.setClock_clock (c := 3) (by decide) mine
  have ends : HalfStep h a (((a.setClock h 3).showLevel h).incF hub F.PW_THERM_crit |>.ev .hub Ev.THERM_CRIT
      [halfNum h, sensor, tempByte t]) :=
    (((a.halfStep_setClock h 3).trans (State.halfStep_showLevel _ h)).trans (State.halfStep_hub _ _ (by decide))).trans
      (State.halfStep_ev ..)
  refine ⟨own.trans ends, ?_, fun p mine => ⟨?_, ?_, ?_⟩⟩
  · rw [State.therm_of_warm (t := State.ev _ _ _ _) (s := a) (by
      rw [State.warm_ev, State.warm_incF, State.warm_showLevel, State.warm_setClock]), level]
  · rw [State.f_ev (h := pt_notMem p (by decide)), State.f_incF_hub (W := [(0, R.PW_THERM.off)]) (pt_notMem p (by decide)) _
      (by decide), State.f_showLevel (h := pt_notMem p (by decide)), clock p mine]
  · rw [State.holds_ev, State.holds_incF, State.holds_showLevel, State.holds_setClock]
    exact (shown p mine).1
  · rw [State.fails_ev, State.fails_incF, State.fails_showLevel, State.fails_setClock]
    exact (shown p mine).2

/-! ### A temperature sample -/

/-- How long a half has been cool or hot, at a reading. -/
def Thermal.read (x : Thermal) (now : Nat) (t hubT : Int) : Thermal := { x with
  below87 := since x.below87 now (decide (t < 87)),
  below85 := since x.below85 now (decide (t < 85) && (!x.byHub || decide (hubT < 85))),
  above95 := since x.above95 now (decide (95 ≤ t)) }

/-- The restrictions of a half's tiles at a reading of it. -/
def Steward.restricted (x : Steward) (h : Half) (now : Nat) (t : Int) : Steward := { x with
  restrictions := x.restrictions.map (fun r =>
    if tileHalf (F.IN_RESTRICT_tile.get r.word) ≠ h then r
    else if capRange r.word t then { r with inForce := true, leftAt := none }
    else { r with leftAt := if r.inForce then since r.leftAt now true else none }) }

/-- The readings of one half noted: its register, how long it has been cool or hot, its restrictions. -/
def State.halfRead (s : State) (l : List Int) (h : Half) : State :=
  let t := hottest ((halfSensors h).map (fun i => l.getD i (-40)))
  let now := s.ns
  let s := s.setF hub (if h then F.PW_TEMP_east else F.PW_TEMP_west) (tempByte t)
  let s := s.updTherm h (·.read now t (hottest ((l.drop 72).take 4)))
  { s with stew := s.stew.restricted h now t }

/-- What a half does at a reading: it becomes critical by its own sensors or by the hub's, or aims at a point. -/
def State.reacted (s : State) (l : List Int) (h : Half) : State :=
  let idx := halfSensors h
  let t := hottest (idx.map (fun i => l.getD i (-40)))
  let hubT := hottest ((l.drop 72).take 4)
  if (s.therm h).level = 3 then s
  else if 95 ≤ t then s.critical h (sensorAt l idx t) t
  else if 95 ≤ hubT then
    (s.updTherm h (fun x => { x with byHub := true, below85 := none })).critical h (sensorAt l [72, 73, 74, 75] hubT) hubT
  else
    let want := if 93 < t then 2 else if 90 < t then 1 else 0
    (s.updTherm h (fun x => { x with level := max x.level want })).retarget h

theorem State.sampleHalf_eq (s : State) (l : List Int) (h : Half) : s.sampleHalf l h = (s.halfRead l h).reacted l h := (rfl)

theorem State.halfStep_stew (s : State) {h : Half} (x : Steward) (temps : x.temps = s.stew.temps) :
    HalfStep h s { s with stew := x } :=
  .of_kept rfl rfl (fun _ => rfl) rfl rfl temps

theorem State.halfRead_keeps (s : State) (l : List Int) (h : Half) :
    HalfStep h s (s.halfRead l h) ∧ ((s.halfRead l h).therm h).level = (s.therm h).level ∧ (s.halfRead l h).fails = s.fails := by
  let t := hottest ((halfSensors h).map (fun i => l.getD i (-40)))
  let a := s.setF hub (if h then F.PW_TEMP_east else F.PW_TEMP_west) (tempByte t)
  let b := a.updTherm h (·.read s.ns t (hottest ((l.drop 72).take 4)))
  have same : s.halfRead l h = { b with stew := b.stew.restricted h s.ns t } := rfl
  have first : HalfStep h s a := by cases h <;> exact s.halfStep_hub _ (by decide)
  have second : HalfStep h a b := a.halfStep_updTherm h _
  have level : (b.therm h).level = (s.therm h).level := by
    rw [State.therm_updTherm, if_pos rfl, State.therm_of_warm (State.warm_setF ..)]
    rfl
  have fails : b.fails = s.fails := (State.fails_updTherm ..).trans (State.fails_setF ..)
  rw [same]
  clear_value b
  exact ⟨(first.trans second).trans (State.halfStep_stew b _ rfl), level, fails⟩

theorem State.halfStep_reacted (s : State) (l : List Int) (h : Half) : HalfStep h s (s.reacted l h) := by
  unfold State.reacted
  dsimp only
  split
  · exact .refl h s
  · split
    · exact (s.critical_shows h _ _).1
    · split
      · exact (s.halfStep_updTherm h _).trans (State.critical_shows _ h _ _).1
      · exact (s.halfStep_updTherm h _).trans (State.halfStep_retarget _ h)

theorem State.halfStep_sampleHalf (s : State) (l : List Int) (h : Half) : HalfStep h s (s.sampleHalf l h) :=
  (s.halfRead_keeps l h).1.trans (State.halfStep_reacted _ l h)

theorem State.sampleHalf_critical {s : State} {l : List Int} {h : Half} (cool : (s.therm h).level ≠ 3)
    (hot : 95 ≤ hottest ((halfSensors h).map (fun i => l.getD i (-40)))) : IsCritical h s (s.sampleHalf l h) := by
  obtain ⟨-, level, fails⟩ := s.halfRead_keeps l h
  rw [State.sampleHalf_eq, State.reacted, level, if_neg cool, if_pos hot]
  obtain ⟨full, shown⟩ := ((s.halfRead l h).critical_shows h (sensorAt l (halfSensors h)
    (hottest ((halfSensors h).map (fun i => l.getD i (-40))))) (hottest ((halfSensors h).map (fun i => l.getD i (-40))))).2
  rw [fails] at shown
  exact ⟨full, shown⟩

/-- A step of the other half leaves a critical half as it is. -/
theorem IsCritical.of_step {h k : Half} {r s t : State} (shown : IsCritical h r s) (step : HalfStep k s t) (other : h ≠ k) :
    IsCritical h r t := by
  obtain ⟨level, parts⟩ := shown
  refine ⟨by rw [step.therm h other, level], fun p mine => ?_⟩
  have far : halfOf p ≠ k := fun e => other ((mem_halfParts.mp mine).symm.trans e)
  rw [step.clock p far, step.holds p far, step.fails p far]
  exact parts p mine

theorem IsCritical.of_before {h k : Half} {r s t : State} (shown : IsCritical h s t) (step : HalfStep k r s) (other : h ≠ k) :
    IsCritical h r t := by
  obtain ⟨level, parts⟩ := shown
  refine ⟨level, fun p mine => ?_⟩
  have far : halfOf p ≠ k := fun e => other ((mem_halfParts.mp mine).symm.trans e)
  rw [← step.fails p far]
  exact parts p mine

/-- Both halves sampled: no memory changes, and a half that was not critical and is hot becomes so. -/
theorem State.sampleBoth_shows {s : State} {l : List Int} {h : Half} (cool : (s.therm h).level ≠ 3)
    (hot : 95 ≤ hottest ((halfSensors h).map (fun i => l.getD i (-40)))) :
    let t := (s.sampleHalf l false).sampleHalf l true
    IsCritical h s t ∧ t.memories = s.memories ∧ t.stew.temps = s.stew.temps := by
  intro t
  have west := s.halfStep_sampleHalf l false
  have east := (s.sampleHalf l false).halfStep_sampleHalf l true
  refine ⟨?_, east.memories.trans west.memories, east.temps.trans west.temps⟩
  cases h
  · exact (State.sampleHalf_critical cool hot).of_step east (by decide)
  · refine IsCritical.of_before (State.sampleHalf_critical ?_ hot) west (by decide)
    rwa [west.therm true (by decide)]

/-- The inlet's reading noted. -/
def State.plateNoted (s : State) (plate : Int) : State :=
  if plate > 50 ∧ s.stew.plateHot = false then
    ((({ s with stew := { s.stew with plateHot := true } }).incF hub F.PW_THERM_plate_hot).ev .hub Ev.THERM_PLATE
      [tempByte plate])
  else if plate ≤ 48 ∧ s.stew.plateHot then
    ({ s with stew := { s.stew with plateHot := false } }).ev .hub Ev.THERM_PLATE [tempByte plate]
  else s

theorem State.plateNoted_keeps (s : State) (plate : Int) (h : Half) : HalfStep h s (s.plateNoted plate) := by
  unfold State.plateNoted
  split
  · refine ((State.halfStep_stew s _ ?_).trans (State.halfStep_hub _ _ (by decide))).trans (State.halfStep_ev ..)
    rfl
  · split
    · refine (State.halfStep_stew s _ ?_).trans (State.halfStep_ev ..)
      rfl
    · exact .refl h s

theorem State.evalShields_keeps (s : State) (h : Half) : HalfStep h s s.evalShields :=
  .of_kept s.holds_evalShields s.fails_evalShields (fun p => State.f_evalShields (h := pt_notMem p (by decide)) ..)
    s.warm_evalShields s.memories_evalShields (congrArg Steward.temps s.stew_evalShields)

/-- The sample noted before either half reacts to it. -/
def State.temperaturesNoted (s : State) (l : List Int) (hot : Option Nat) (plate : Int) : State :=
  let s : State := { s with stew := { s.stew with temps := l, hub95 := hot } }
  (s.setF hub F.PW_TEMP_hub (tempByte (hottest ((l.drop 72).take 4)))).setF hub F.PW_TEMP_plate (tempByte plate)

theorem State.temperaturesNoted_keeps (s : State) (l : List Int) (hot : Option Nat) (plate : Int) :
    let t := s.temperaturesNoted l hot plate
    t.fails = s.fails ∧ t.warm = s.warm ∧ t.memories = s.memories ∧ t.stew.temps = l := by
  intro t
  let a : State := { s with stew := { s.stew with temps := l, hub95 := hot } }
  let b := a.setF hub F.PW_TEMP_hub (tempByte (hottest ((l.drop 72).take 4)))
  have ht : t = b.setF hub F.PW_TEMP_plate (tempByte plate) := rfl
  rw [ht, State.fails_setF, State.warm_setF, State.memories_setF, State.stew_setF, State.fails_setF, State.warm_setF,
    State.memories_setF, State.stew_setF]
  exact ⟨State.fails_mk, State.warm_mk, State.memories_mk, rfl⟩

/-- The readings of a sample: 72 junction sensors, then the four of the hub. -/
def samples (junctions hubs : List Int) : List Int :=
  (junctions.take 72 ++ List.replicate (72 - junctions.length) (-40)) ++ hubs.take 4

/-- Since when the hub has been at 95 degrees, at a sample. -/
def State.hubHot (s : State) (hubs : List Int) : Option Nat := since s.stew.hub95 s.ns (decide (95 ≤ hottest (hubs.take 4)))

theorem execTempSample_eq (s : State) (junctions hubs : List Int) (plate : Int) :
    execTempSample junctions hubs plate s =
      if s.stew.die = false then
        .next { s with stew := { s.stew with temps := samples junctions hubs, hub95 := s.hubHot hubs } }
      else .next (((((s.temperaturesNoted (samples junctions hubs) (s.hubHot hubs) plate).sampleHalf
        (samples junctions hubs) false).sampleHalf (samples junctions hubs) true).plateNoted plate).evalShields) := by
  unfold execTempSample State.plateNoted State.temperaturesNoted
  rfl

theorem tempSample_critical {junctions hubs : List Int} {plate : Int} {h : Half} {s : State} (all : junctions.length = 72)
    (four : hubs.length = 4) (die : s.stew.die = true)
    (hot : 95 ≤ hottest ((halfSensors h).map (fun i => junctions.getD i (-40)))) (cool : (s.therm h).level ≠ 3) :
    ∃ t, exec (.tempSample junctions hubs plate) s = .next t ∧ t.stew.temps = junctions ++ hubs ∧ (t.therm h).level = 3 ∧
      MemoriesKept s t ∧ ∀ p ∈ halfParts h, t.f (pt p) F.TK_STATUS_clock = 3 ∧ .critical ∈ (t.part p).holds ∧
        ((s.part p).frameOpen = true → (t.part p).failed = true) := by
  have readings : samples junctions hubs = junctions ++ hubs := by
    rw [samples, all, List.take_of_length_le (by omega), List.take_of_length_le (by omega)]
    simp
  have run : exec (.tempSample junctions hubs plate) s = _ := execTempSample_eq s junctions hubs plate
  rw [die, if_neg (by decide), readings] at run
  obtain ⟨fails, warm, memories, temps⟩ := s.temperaturesNoted_keeps (junctions ++ hubs) (s.hubHot hubs) plate
  generalize s.temperaturesNoted (junctions ++ hubs) (s.hubHot hubs) plate = a at *
  have same : (halfSensors h).map (fun i => (junctions ++ hubs).getD i (-40)) =
      (halfSensors h).map (fun i => junctions.getD i (-40)) := by
    refine List.map_congr_left fun i mem => ?_
    have small : i < junctions.length := by
      rw [all]
      exact List.mem_range.mp (List.mem_of_mem_filter mem)
    simp [List.getD_eq_getElem?_getD, List.getElem?_append_left small]
  obtain ⟨critical, memories', temps'⟩ := State.sampleBoth_shows (s := a) (l := junctions ++ hubs) (h := h)
    (by rwa [State.therm_of_warm warm]) (by rwa [same])
  generalize (a.sampleHalf (junctions ++ hubs) false).sampleHalf (junctions ++ hubs) true = b at *
  have ends : HalfStep (!h) b (b.plateNoted plate).evalShields :=
    (b.plateNoted_keeps plate _).trans (State.evalShields_keeps _ _)
  obtain ⟨level, shown⟩ := critical.of_step ends (by cases h <;> decide)
  refine ⟨_, run, ?_, level, memoriesKept_of ?_, fun p mine => ?_⟩
  · rw [ends.temps, temps', temps]
  · rw [ends.memories, memories', memories]
  · rw [fails] at shown
    exact shown p mine

/-! ### Back from the heat -/

theorem thermalCritEnd_ends {h : Half} {b : Nat} {s : State} (cool : (s.therm h).below85 = some b)
    (full : (s.therm h).level = 3) (hubCool : hottest ((s.stew.temps.drop 72).take 4) < 95) (due : b + 100000000 ≤ s.ns) :
    ∃ t, exec (.thermalCritEnd h) s = .next t ∧ (t.therm h).level = 2 ∧ MemoriesKept s t ∧
      ∀ p ∈ halfParts h, t.f (pt p) F.TK_STATUS_clock = 2 ∧ (t.part p).holds = (s.part p).holds.erase .critical := by
  let a := s.updTherm h (fun y => { y with
    level := 2, byHub := false, below87 := if y.below87.isSome then some s.ns else none })
  let b' := (a.setClock h 2).showLevel h
  have run : exec (.thermalCritEnd h) s = .next (b'.releaseHalf h .critical).evalShields := by
    show execThermalCritEnd h s = _
    unfold execThermalCritEnd
    have goes : ¬ ((s.therm h).level ≠ 3 ∨ 95 ≤ hottest ((s.stew.temps.drop 72).take 4)) := by
      rintro (e | e)
      · exact e full
      · omega
    dsimp only
    rw [cool]
    dsimp only
    rw [if_neg goes, State.waitNs, if_pos due]
  have warm : (b'.releaseHalf h .critical).evalShields.warm = a.warm := by
    rw [State.warm_evalShields, State.warm_releaseHalf, State.warm_showLevel, State.warm_setClock]
  refine ⟨_, run, ?_, memoriesKept_of ?_, fun p mine => ⟨?_, ?_⟩⟩
  · rw [State.therm_of_warm warm, State.therm_updTherm, if_pos rfl]
  · rw [State.memories_evalShields, State.memories_releaseHalf, State.memories_showLevel, State.memories_setClock,
      State.memories_updTherm]
  · rw [State.f_evalShields (h := pt_notMem p (by decide)), State.clk_releaseHalf,
      State.f_showLevel (h := pt_notMem p (by decide)), State.setClock_clock a (by decide) mine]
  · have same : b'.holdsOf = s.holdsOf := by
      rw [State.holds_showLevel, State.holds_setClock, State.holds_updTherm]
    rw [← State.holdsOf_at, State.holds_evalShields, State.holdsOf_at, State.holds_releaseHalf _ _ mine, ← State.holdsOf_at,
      same, State.holdsOf_at]

theorem State.capLevel_congr {s t : State} (present : ∀ q, t.present q = s.present q) (tile : ∀ q, t.tileOf q = s.tileOf q)
    (stew : t.stew = s.stew) (h : Half) : t.capLevel h = s.capLevel h := by
  unfold State.capLevel State.quiresOf
  simp only [present, tile, stew]

/-- The map of a partition lies apart from what a hold writes. -/
theorem map_notMem (r : PartId) {k : Fld} {i : Nat} (small : i < 8) (reg : k.reg.off = R.MS_MAP.off + 4 * i) :
    site (pt r + k.reg.off) ∉ [(1, R.TK_STATUS.off), (1, R.MB_STAT.off), (1, R.MB_PEND.off)] := by
  rw [reg]
  interval_cases i <;> exact pt_notMem r (by decide)

theorem State.capLevel_dueStep (s : State) (h k : Half) (c : Nat) : (s.dueStep h c).capLevel k = s.capLevel k := by
  refine State.capLevel_congr ?_ ?_ (s.stew_dueStep h c) k
  · exact State.present_congr fun r i small => State.f_dueStep (h := map_notMem r small rfl) ..
  · exact State.tileOf_congr fun r i small => State.f_dueStep (h := map_notMem r small rfl) ..

theorem State.capLevel_updTherm (s : State) (h k : Half) (g : Thermal → Thermal) :
    (s.updTherm h g).capLevel k = s.capLevel k :=
  State.capLevel_congr (State.present_congr fun _ _ _ => State.f_updTherm ..)
    (State.tileOf_congr fun _ _ _ => State.f_updTherm ..) (s.stew_updTherm h g) k

/-- A half that should run at another point, short of the retention clock, asks for the step. -/
theorem State.retarget_steps {s : State} {h : Half} (up : s.halfState h = 0) (fast : s.wantClock h ≠ 3)
    (now : s.halfClock h ≠ 3) (other : s.wantClock h ≠ s.halfClock h) : s.retarget h = s.dueStep h (s.wantClock h) := by
  have goes : ¬ (s.f hub (halfFld h) ≠ 0 ∨ s.wantClock h = 3 ∨ s.halfClock h = 3) := by
    rintro (e | e | e)
    · exact e up
    · exact fast e
    · exact now e
  unfold State.retarget
  dsimp only
  rw [if_neg goes, if_pos other]

theorem thermalStepUp_steps {h : Half} {b : Nat} {s : State} (cool : (s.therm h).below87 = some b)
    (high : (s.therm h).level < 3) (at_ : s.halfClock h = (s.therm h).level)
    (free : s.capLevel h < (s.therm h).level) (up : s.halfState h = 0) (due : b + 10000000 ≤ s.ns) :
    ∃ t, exec (.thermalStepUp h) s = .next t ∧ (t.therm h).level = (s.therm h).level - 1 ∧
      (t.therm h).below87 = some s.ns ∧ (t.therm h).stepTo = some (t.wantClock h) ∧ MemoriesKept s t ∧
      ∀ p ∈ halfParts h, .clockStep ∈ (t.part p).holds := by
  let a := s.updTherm h (fun y => { y with level := y.level - 1, below87 := some s.ns })
  have therm : a.therm h = { s.therm h with level := (s.therm h).level - 1, below87 := some s.ns } :=
    (s.therm_updTherm h h _).trans (if_pos rfl)
  have cap : a.capLevel h = s.capLevel h := s.capLevel_updTherm ..
  have clock : a.halfClock h = s.halfClock h := State.halfClock_congr (fun _ => State.f_updTherm ..) h
  have state : a.halfState h = s.halfState h := State.f_updTherm ..
  have memories : a.memories = s.memories := State.memories_updTherm ..
  have want (t : State) (level : (t.therm h).level = (s.therm h).level - 1) (same : t.capLevel h = s.capLevel h) :
      t.wantClock h = max ((s.therm h).level - 1) (s.capLevel h) := by
    unfold State.wantClock
    dsimp only
    rw [level, same, if_neg (by omega)]
  have run : exec (.thermalStepUp h) s = .next (a.retarget h) := by
    show execThermalStepUp h s = _
    have goes : ¬ ((s.therm h).level = 0 ∨ (s.therm h).level = 3) := by omega
    unfold execThermalStepUp
    dsimp only
    rw [cool]
    dsimp only
    rw [if_neg goes, State.waitNs, if_pos due]
  clear_value a
  have aims := want a (by rw [therm]) cap
  rw [State.retarget_steps (by rw [state, up]) (by omega) (by omega) (by omega)] at run
  obtain ⟨therm', memories', -, holds⟩ := a.dueStep_shows h (a.wantClock h)
  have goal := want (a.dueStep h (a.wantClock h)) (by rw [therm', if_pos rfl, therm]) ((a.capLevel_dueStep ..).trans cap)
  refine ⟨_, run, ?_, ?_, ?_, memoriesKept_of (memories'.trans memories), fun p mine => (holds p).1 mine⟩
  · rw [therm', if_pos rfl, therm]
  · rw [therm', if_pos rfl, therm]
  · rw [goal, ← aims, therm', if_pos rfl]

theorem thermalTrip_trips {s : State} (die : s.stew.die = true) (hot : s.hotSensor.isSome = true) :
    ∃ t, exec .thermalTrip s = .next t ∧ t.stew.die = false ∧ t.stew.pwrGood = false ∧ t.stew.faultPin = true ∧ t.mem = [] := by
  obtain ⟨i, sensor⟩ := Option.isSome_iff_exists.mp hot
  let at_ : Int := s.stew.temps.getD i (-40)
  let since_ : Option Nat := if 72 ≤ i then s.stew.hub95 else (s.therm (tileHalf (i / 2))).above95
  refine ⟨s.trip i at_ since_, ?_, rfl, rfl, rfl, rfl⟩
  show execThermalTrip s = _
  unfold execThermalTrip
  rw [die, if_neg (by decide)]
  dsimp only
  rw [sensor]

theorem State.memories_stew (s : State) (x : Steward) : ({ s with stew := x } : State).memories = s.memories := State.memories_mk

/-- A restriction lifted, with its place in the list. -/
def Restriction.lifted (i j : Nat) (x : Restriction) : Restriction := if j = i then { x with inForce := false, leftAt := none } else x

theorem restrictionLift_lifts {i : Fin 16} {r : Restriction} {b : Nat} {s : State}
    (here : s.stew.restrictions[i.val]? = some r) (left : r.leftAt = some b) (due : b + 10000000 ≤ s.ns) :
    ∃ t, exec (.restrictionLift i) s = .next t ∧
      t.stew.restrictions[i.val]? = some { r with inForce := false, leftAt := none } ∧
      (∀ j, j ≠ i.val → t.stew.restrictions[j]? = s.stew.restrictions[j]?) ∧ MemoriesKept s t := by
  let x : Steward := { s.stew with restrictions := s.stew.restrictions.mapIdx (Restriction.lifted i.val) }
  let a : State := { s with stew := x }
  have run : exec (.restrictionLift i) s = .next (a.retarget (tileHalf (F.IN_RESTRICT_tile.get r.word))) := by
    show execRestrictionLift i s = _
    unfold execRestrictionLift
    rw [here]
    dsimp only
    rw [left]
    dsimp only
    rw [State.waitNs, if_pos due]
    rfl
  have stew : (a.retarget (tileHalf (F.IN_RESTRICT_tile.get r.word))).stew = x := State.stew_retarget ..
  have memories := (a.halfStep_retarget (tileHalf (F.IN_RESTRICT_tile.get r.word))).memories
  have listed (j : Nat) : x.restrictions[j]? = s.stew.restrictions[j]?.map (Restriction.lifted i.val j) := List.getElem?_mapIdx
  refine ⟨_, run, ?_, fun j other => ?_, memoriesKept_of (memories.trans (s.memories_stew x))⟩
  · rw [stew, listed, here]
    exact congrArg some (if_pos rfl)
  · rw [stew, listed]
    cases s.stew.restrictions[j]? with
    | none => rfl
    | some y => exact congrArg some (if_neg other)

/-- Settles O32: a hot half becomes critical, steps up as it cools and comes back at 1.0 GHz, a sensor at 105 degrees takes the
rails away, and a restriction is lifted in its time. -/
theorem throttling : Obligations.Throttling :=
  ⟨fun _ _ _ _ _ all four die hot cool => tempSample_critical all four die hot cool,
    fun _ _ _ cool _ high at_ free up due => thermalStepUp_steps cool high at_ free up due,
    fun _ _ _ cool full hubCool due _ => thermalCritEnd_ends cool full hubCool due,
    fun _ die hot => thermalTrip_trips die hot, fun _ _ _ _ here left due => restrictionLift_lifts here left due⟩

end Sys2Proof.Machine
end

section
namespace Sys2Proof.Machine

-- Proved in parallel, these proofs hold a thread each, whose stacks pass the check's memory.
set_option Elab.async false

/-! ## What leaf accesses and tokens leave of the presses (O24) -/

/-- The presses of each quire and its votes. -/
def State.seats (s : State) := fun r : QuireId => ((s.qu r).pa, (s.qu r).pb, (s.qu r).votes)

theorem State.seats_mk {s : State} {pending now timeBase freeCount regs latches stitchers parts flights creditFlights srcs mem
    memMark triggers trackers charges mgn dramFixes sparesUsed remaps notices comps ctlPage cmdArea bar2 msix extents filter
    snoops readWait hostData links spine spNext regAns halfChg thermal staging stageLostAt stageLostN recNext mapCopies
    mapBefore runs tested pulseEnd ioNext tickIn stew} :
    State.seats ⟨pending, now, timeBase, freeCount, regs, latches, stitchers, s.quires, parts, flights, creditFlights, srcs,
      mem, memMark, triggers, trackers, charges, mgn, dramFixes, sparesUsed, remaps, notices, comps, ctlPage, cmdArea, bar2,
      msix, extents, filter, snoops, readWait, hostData, links, spine, spNext, regAns, halfChg, thermal, staging, stageLostAt,
      stageLostN, recNext, mapCopies, mapBefore, runs, tested, pulseEnd, ioNext, tickIn, stew⟩ = s.seats := (rfl)

theorem State.seats_ite {c : Prop} [Decidable c] {a b : State} :
    State.seats (if c then a else b) = if c then a.seats else b.seats := by
  split <;> rfl

theorem State.seats_foldl {α : Type} {g : State → α → State} {s : State} (step : ∀ s a, (g s a).seats = s.seats)
    (xs : List α) : (xs.foldl g s).seats = s.seats :=
  State.foldl_rest State.seats g step xs s

theorem State.seats_setSt (s : State) (u : StId) (x : Stitcher) : (s.setSt u x).seats = s.seats := (rfl)

theorem State.seats_updSt (s : State) (u : StId) (f : Stitcher → Stitcher) : (s.updSt u f).seats = s.seats := (rfl)

theorem State.seats_setPart (s : State) (p : PartId) (x : Part) : (s.setPart p x).seats = s.seats := (rfl)

theorem State.seats_updPart (s : State) (p : PartId) (f : Part → Part) : (s.updPart p f).seats = s.seats := (rfl)

theorem State.seats_setSrc (s : State) (x : Src) (v : SrcSt) : (s.setSrc x v).seats = s.seats := (rfl)

theorem State.seats_updSrc (s : State) (x : Src) (f : SrcSt → SrcSt) : (s.updSrc x f).seats = s.seats := (rfl)

theorem State.seats_wr (s : State) (b : Nat) (r : Reg) (v : BitVec 32) : (s.wr b r v).seats = s.seats := (rfl)

theorem State.seats_setF (s : State) (b : Nat) (g : Fld) (v : Nat) : (s.setF b g v).seats = s.seats := (rfl)

theorem State.seats_incF (s : State) (b : Nat) (g : Fld) (n : Nat) : (s.incF b g n).seats = s.seats := (rfl)

theorem State.seats_setCnt (s : State) (b : Nat) (lo hi : Reg) (v : Nat) : (s.setCnt b lo hi v).seats = s.seats := (rfl)

theorem State.seats_raise (s : State) (x : Src) (code sev : Nat) (cap : List Nat) : (s.raise x code sev cap).seats = s.seats :=
  (congrArg State.seats (s.raise_rest x code sev cap) :)

theorem State.seats_ev (s : State) (x : Src) (code : Nat) (cap : List Nat) : (s.ev x code cap).seats = s.seats :=
  s.seats_raise x code (evSev code) cap

theorem State.seats_complete (s : State) (n : Notice) (status result : Nat) : (s.complete n status result).seats = s.seats :=
  (congrArg State.seats (s.complete_rest n status result) :)

theorem State.seats_of_quires {s t : State} (h : t.quires = s.quires) : t.seats = s.seats := by
  funext r
  unfold State.seats State.qu
  rw [h]

theorem State.seats_setQu (s : State) (q : QuireId) (x : Quire) (h : (x.pa, x.pb, x.votes) = ((s.qu q).pa, (s.qu q).pb, (s.qu q).votes)) :
    (s.setQu q x).seats = s.seats := by
  funext r
  by_cases e : r = q
  · subst e
    unfold State.seats at *
    rw [State.qu_setQu_same]
    exact h
  · unfold State.seats
    rw [State.qu_setQu_ne _ _ e]

theorem State.seats_updQu (s : State) (q : QuireId) (g : Quire → Quire)
    (h : ∀ x : Quire, ((g x).pa, (g x).pb, (g x).votes) = (x.pa, x.pb, x.votes)) :
    (s.updQu q g).seats = s.seats :=
  s.seats_setQu q _ (h _)

theorem State.seats_foldl_of {α β : Type} (v : β → State) {g : β → α → β} {x : β}
    (step : ∀ x a, (v (g x a)).seats = (v x).seats) (xs : List α) : (v (xs.foldl g x)).seats = (v x).seats := by
  induction xs generalizing x with
  | nil => rfl
  | cons a xs ih => exact ih.trans (step x a)

theorem State.seats_fst_foldl {α β : Type} {g : State × β → α → State × β} {x : State × β}
    (step : ∀ x a, (g x a).1.seats = x.1.seats) (xs : List α) : (xs.foldl g x).1.seats = x.1.seats :=
  State.seats_foldl_of Prod.fst step xs

theorem State.seats_useFree (s : State)  : (s.useFree).seats = s.seats := (rfl)

theorem State.seats_charge (s : State) (p : PartId) (unit : HwUnit) (code : Nat) (resolved : Bool) :
    (s.charge p unit code resolved).seats = s.seats := by
  simp only [State.charge, State.seats_mk, State.seats_ite, ite_self]

theorem State.seats_failTick (s : State) (p : PartId) : (s.failTick p).seats = s.seats := by
  simp only [State.failTick, State.seats_updPart]

theorem State.seats_delayFrom (s : State) (q : QuireId) (pos n : Nat) : (s.delayFrom q pos n).seats = s.seats := by
  simp only [State.delayFrom, State.seats_mk]

theorem State.seats_pauseCorrection (s : State) (q : QuireId) (pos : Nat) : (s.pauseCorrection q pos).seats = s.seats := by
  simp only [State.pauseCorrection, State.seats_ite, ite_self, implies_true, State.seats_updQu, State.seats_delayFrom]

theorem State.seats_freeCredit (s : State) (q : QuireId) (pos : Nat) (o : Origin) (n : Nat) :
    (s.freeCredit q pos o n).seats = s.seats := by
  unfold State.freeCredit
  split <;> simp only [State.seats_mk]

theorem State.seats_orphan (s : State) (u : StId) (pos port tag : Nat) (o : Origin) :
    (s.orphan u pos port tag o).seats = s.seats := by
  simp only [State.orphan, implies_true, State.seats_updQu, State.seats_incF, State.seats_freeCredit]

theorem State.seats_recordOrphans (s : State) (q : QuireId) : (s.recordOrphans q).seats = s.seats := by
  simp only [State.recordOrphans, State.seats_ite, ite_self, State.seats_setQu, State.seats_incF, State.seats_raise]

theorem State.seats_lateOrphan (s : State) (q : QuireId) : (s.lateOrphan q).seats = s.seats := by
  simp only [State.lateOrphan, State.seats_ite, ite_self, implies_true, State.seats_updQu, State.seats_recordOrphans]

theorem State.seats_dropToken (s : State) (u : StId) (pos : Nat) (t : Tok) (o : Origin) (cnt : Fld) (code : Nat)
    (extra : List Nat) (fails : Bool) :
    (s.dropToken u pos t o cnt code extra fails).seats = s.seats := by
  simp only [State.dropToken, State.seats_ite, ite_self, State.seats_incF, State.seats_raise, State.seats_charge,
    State.seats_failTick, State.seats_freeCredit]

theorem State.seats_arriveToken (s : State) (u : StId) (t : Tok) (o : Origin) (pos : Nat) :
    (s.arriveToken u t o pos).seats = s.seats := by
  simp only [State.arriveToken, State.seats_ite, ite_self, State.seats_setSt, State.seats_updSt, State.seats_setF,
    State.seats_incF, State.seats_raise, State.seats_failTick, State.seats_freeCredit, State.seats_orphan,
    State.seats_lateOrphan, State.seats_dropToken]

theorem State.seats_internalToken (s : State) (u : StId) (port tag : Nat) (ctl : Bool) (data : BitVec 64) (pos : Nat) :
    (s.internalToken u port tag ctl data pos).seats = s.seats := by
  simp only [State.internalToken, State.seats_arriveToken]

theorem Quire.takeBank_seats (x : Quire) (v pos bank n : Nat) :
    ((x.takeBank v pos bank n).pa, (x.takeBank v pos bank n).pb, (x.takeBank v pos bank n).votes) = (x.pa, x.pb, x.votes) := by
  induction n generalizing x pos with
  | zero => rfl
  | succ n ih => exact (ih _ _).trans rfl

theorem State.seats_pressGrant (s : State) (q : QuireId) (rank pos : Nat) (addrs : List Nat) :
    (s.pressGrant q rank pos addrs).1.seats = s.seats := by
  obtain ⟨v, g, banks, body⟩ : ∃ v g banks, (s.pressGrant q rank pos addrs).1 =
      s.setQu q (List.foldl (fun (y : Quire) b => y.takeBank v g b 1) (s.qu q) banks) := ⟨_, _, _, rfl⟩
  rw [body]
  refine State.seats_setQu _ _ _ ?_
  exact List.foldlRecOn (motive := fun y : Quire => (y.pa, y.pb, y.votes) = ((s.qu q).pa, (s.qu q).pb, (s.qu q).votes))
    banks _ rfl fun y kept b _ => (y.takeBank_seats v g b 1).trans kept

theorem State.seats_holdBank (s : State) (q : QuireId) (sched : Option Nat) (addr : Nat) (merged fixed : Bool) :
    (s.holdBank q sched addr merged fixed).seats = s.seats := by
  unfold State.holdBank
  split
  · exact State.seats_updQu _ _ _ (fun x => x.takeBank_seats ..)
  · rfl

theorem State.seats_setTracker (s : State) (q : QuireId) (l : List Track) : (s.setTracker q l).seats = s.seats := (rfl)

theorem State.seats_trackRow (s : State) (q : QuireId) (addr : Nat) : (s.trackRow q addr).seats = s.seats := by
  unfold State.trackRow
  simp only []
  split <;> simp only [State.seats_ite, ite_self, State.seats_incF, State.seats_raise, State.seats_setTracker]

theorem State.seats_setMark (s : State) (q : QuireId) (a m : Nat) : (s.setMark q a m).seats = s.seats := by
  exact State.seats_updQu _ _ _ (fun _ => rfl)

theorem State.seats_leafUncorr (s : State) (q : QuireId) (addr reader cause : Nat) :
    (s.leafUncorr q addr reader cause).seats = s.seats := by
  simp only [State.leafUncorr, State.seats_ite, ite_self, State.seats_incF, State.seats_raise, State.seats_charge]

theorem State.seats_rowRead (s : State) (q : QuireId) (reader addr n : Nat) :
    (s.rowRead q reader addr n).state.seats = s.seats := by
  unfold State.rowRead
  split <;> simp only [State.seats_ite, ite_self, State.seats_incF, State.seats_useFree, State.seats_trackRow,
    State.seats_leafUncorr]

theorem State.seats_portAccess (s : State) (q : QuireId) (reader : Nat) (sched : Option Nat) (parts : List (Nat × Nat)) :
    (s.portAccess q reader sched parts).state.seats = s.seats := by
  unfold State.portAccess
  extract_lets +onlyGivenNames r s1 s2
  have kept0 : r.state.seats = s.seats := State.seats_foldl_of LeafRead.state (fun r v => by exact State.seats_rowRead ..) parts
  have kept1 : s1.seats = s.seats := by
    simp only [s1, State.seats_ite, State.seats_incF, kept0, ite_self]
  clear_value s1 r
  simp only [s2]
  split
  · simp only [State.seats_ite, State.seats_pauseCorrection, kept1, ite_self]
  · exact kept1

theorem State.seats_touchRow (s : State) (q : QuireId) (addr : Nat) : (s.touchRow q addr).seats = s.seats := by
  unfold State.touchRow
  have torn (t : State) (x : Quire) (posn i : Nat) : (match x.regions[i]? with
      | some (first, count) =>
        if count ≠ 0 ∧ first ≤ bandOf addr ∧ bandOf addr < first + count ∧ (first * 256 < posn ∨ x.scrubEnd) ∧
            x.regionTorn / 2 ^ i % 2 = 0 then
          (t.updQu q (fun y => { y with regionTorn := y.regionTorn + 2 ^ i })).raise (.quire q) Ev.SCRUB_TORN 0 [i, addr]
        else t
      | none => t).seats = t.seats := by
    split <;> simp only [State.seats_ite, ite_self, implies_true, State.seats_updQu, State.seats_raise]
  dsimp only
  split
  · refine (State.seats_foldl (fun t i => torn t _ _ i) _).trans ?_
    exact State.seats_updQu _ _ _ (fun _ => rfl)
  · exact State.seats_updQu _ _ _ (fun _ => rfl)

theorem State.seats_holdWrite (s : State) (q : QuireId) (w : HeldWrite) : (s.holdWrite q w).seats = s.seats := by
  simp only [State.holdWrite, State.seats_ite, ite_self, implies_true, State.seats_foldl, State.seats_setQu, State.seats_setF]

theorem State.seats_holdFilling (s : State) (q : QuireId) (addr : Nat) (bytes : List (BitVec 8)) (writer poison : Nat) :
    (s.holdFilling q addr bytes writer poison).seats = s.seats := by
  simp only [State.holdFilling, State.seats_holdWrite]

theorem State.seats_writeWord (s : State) (q : QuireId) (size a addr : Nat) (bytes : List (BitVec 8)) :
    (s.writeWord q size a addr bytes).state.seats = s.seats := by
  unfold State.writeWord
  simp only []
  repeat' split
  all_goals simp only [implies_true, State.seats_updQu, State.seats_setMark]

theorem State.seats_rowWrite (s : State) (q : QuireId) (addr : Nat) (bytes : List (BitVec 8)) (writer : Nat)
    (sched : Option Nat) :
    (s.rowWrite q addr bytes writer sched).1.seats = s.seats := by
  unfold State.rowWrite
  repeat' split
  all_goals simp only [State.seats_ite, ite_self, implies_true, State.seats_fst_foldl, State.seats_incF, State.seats_useFree,
    State.seats_pauseCorrection, State.seats_holdBank, State.seats_trackRow, State.seats_touchRow, State.seats_holdFilling,
    State.seats_writeWord]

theorem State.seats_sendFwd (s : State) (q : QuireId) (w : Fwd) : (s.sendFwd q w).seats = s.seats := by
  simp only [State.sendFwd, State.seats_ite, ite_self, State.seats_setQu, State.seats_setF, State.seats_incF]

theorem State.seats_forwardWrite (s : State) (q : QuireId) (addr : Nat) (bytes : List (BitVec 8)) (pos : Nat) :
    (s.forwardWrite q addr bytes pos).seats = s.seats := by
  unfold State.forwardWrite
  refine State.seats_foldl (fun t a => ?_) _
  repeat' split
  all_goals simp only [State.seats_sendFwd]

theorem State.seats_leafWrite (s : State) (q : QuireId) (addr : Nat) (bytes : List (BitVec 8)) (writer : Nat)
    (sched : Option Nat) :
    (s.leafWrite q addr bytes writer sched).seats = s.seats := by
  unfold State.leafWrite
  split <;> simp only [State.seats_ite, ite_self, implies_true, State.seats_fst_foldl, State.seats_leafUncorr,
    State.seats_rowWrite, State.seats_forwardWrite]

theorem State.seats_portRead (s : State) (q : QuireId) (p : PressId) (pos : Nat) (segs : List Nat) :
    (s.portRead q p pos segs).state.seats = s.seats := by
  simp only [State.portRead, State.seats_pressGrant, State.seats_portAccess]

theorem State.seats_portReads (s : State) (q : QuireId) (p : PressId) (pos : Nat) (cycles : List (List Nat)) :
    (s.portReads q p pos cycles).state.seats = s.seats := by
  unfold State.portReads
  exact State.seats_foldl_of PortReads.state (fun r c => by exact State.seats_portRead ..) cycles

theorem State.seats_loadActs (s : State) (q : QuireId) (p : PressId) (d : PDesc) (pos : Nat) :
    (s.loadActs q p d pos).state.seats = s.seats := by
  simp only [State.loadActs, State.seats_portReads]

theorem State.seats_pressEvent (s : State) (q : QuireId) (p : PressId) (code : Nat) (cap : List Nat) :
    (s.pressEvent q p code cap).seats = s.seats := by
  simp only [State.pressEvent, State.seats_raise]

theorem State.seats_endCommand (s : State) (q : QuireId) (p : PressId) (d : PDesc) (status outCode pos : Nat)
    (wrap bound : Bool) :
    (s.endCommand q p d status outCode pos wrap bound).seats = s.seats := by
  simp only [State.endCommand, State.seats_ite, ite_self, implies_true, State.seats_updQu, State.seats_setF, State.seats_setCnt,
    State.seats_failTick, State.seats_internalToken]

theorem State.seats_nanScales (s : State) (q : QuireId) (p : PressId) (base : Nat) (bytes : List (BitVec 8)) :
    (s.nanScales q p base bytes).seats = s.seats := by
  simp only [State.nanScales, State.seats_ite, ite_self, implies_true, State.seats_foldl, State.seats_pressEvent]

theorem State.seats_nanRows (s : State) (q : QuireId) (p : PressId) (d : PDesc) (scales : List (List (BitVec 8))) :
    (s.nanRows q p d scales).seats = s.seats := by
  simp only [State.nanRows, implies_true, State.seats_foldl, State.seats_nanScales]

theorem State.seats_trnDecode (s : State) (q : QuireId) (p : PressId) (d : PDesc) (j : Nat) (elems : List (BitVec 8)) :
    (s.trnDecode q p d j elems false).seats = s.seats := by
  simp only [State.trnDecode, Bool.false_eq_true, if_false, State.seats_ite, ite_self, implies_true, State.seats_foldl,
    State.seats_incF, State.seats_pressEvent]

theorem Stream.seats_tile (r : Stream) (q : QuireId) (p : PressId) (d : PDesc) (j : Nat) (own : Bool) (t : Nat) :
    (r.tile q p d j own t).state.seats = r.state.seats := by
  simp only [Stream.tile, State.seats_portRead]

theorem State.seats_readTile (s : State) (q : QuireId) (p : PressId) (d : PDesc) (j : Nat) (acts ascales : List (List
    (BitVec 8))) (init start streamed : Nat) :
    (s.readTile q p d j acts ascales false init start streamed).state.seats = s.seats := by
  unfold State.readTile
  have tiles (w : Stream) (n : Nat) : ((List.range n).foldl (fun r t => r.tile q p d j false t) w).state.seats =
      w.state.seats :=
    State.seats_foldl_of Stream.state (fun _ _ => Stream.seats_tile ..) _
  simp only [tiles, State.seats_ite, ite_self, State.seats_portReads, State.seats_nanScales, State.seats_trnDecode]

theorem State.seats_openWindow (s : State) (q : QuireId) (rel : Nat) : (s.openWindow q rel).seats = s.seats := by
  unfold State.openWindow
  dsimp only
  refine (State.seats_setQu _ _ _ ?_).trans (State.seats_mk.trans (State.seats_setF ..))
  rfl
end Sys2Proof.Machine
end

section
namespace Sys2Proof.Machine

-- Proved in parallel, these proofs hold a thread each, whose stacks pass the check's memory.
set_option Elab.async false

/-! ## Votes, delivery, release and completion of press work (O24) -/

/-! ### The presses of a quire -/

theorem Quire.press_setPress_same (x : Quire) (p : PressId) (v : Press) : (x.setPress p v).press p = v := by
  cases p <;> rfl

theorem Quire.press_setPress_other (x : Quire) (p : PressId) (v : Press) : (x.setPress p v).press (!p) = x.press (!p) := by
  cases p <;> rfl

theorem Quire.votes_setPress (x : Quire) (p : PressId) (v : Press) : (x.setPress p v).votes = x.votes := by
  cases p <;> rfl

theorem State.press_updPress_same (s : State) (q : QuireId) (p : PressId) (f : Press → Press) :
    (s.updPress q p f).press q p = f (s.press q p) :=
  (congrArg (fun x : Quire => x.press p) (s.qu_setQu_same q _)).trans (Quire.press_setPress_same ..)

theorem State.press_updPress_other (s : State) (q : QuireId) (p : PressId) (f : Press → Press) :
    (s.updPress q p f).press q (!p) = s.press q (!p) :=
  (congrArg (fun x : Quire => x.press (!p)) (s.qu_setQu_same q _)).trans (Quire.press_setPress_other ..)

theorem State.votes_updPress (s : State) (q : QuireId) (p : PressId) (f : Press → Press) :
    ((s.updPress q p f).qu q).votes = (s.qu q).votes :=
  (congrArg Quire.votes (s.qu_setQu_same q _)).trans (Quire.votes_setPress ..)

theorem State.press_updRun_same (s : State) (q : QuireId) (p : PressId) (f : PRun → PRun) :
    (s.updRun q p f).press q p = { s.press q p with run := (s.press q p).run.map f } :=
  s.press_updPress_same q p _

theorem State.press_of_seats {s t : State} (h : t.seats = s.seats) (q : QuireId) (p : PressId) :
    t.press q p = s.press q p := by
  obtain ⟨hpa, hpb, -⟩ : (t.qu q).pa = (s.qu q).pa ∧ (t.qu q).pb = (s.qu q).pb ∧ (t.qu q).votes = (s.qu q).votes := by
    simpa only [State.seats, Prod.mk.injEq] using congrFun h q
  unfold State.press Quire.press
  rw [hpa, hpb]

theorem State.votes_of_seats {s t : State} (h : t.seats = s.seats) (q : QuireId) : (t.qu q).votes = (s.qu q).votes :=
  congrArg (fun x => x.2.2) (congrFun h q)

theorem State.press_updQu (s : State) (q : QuireId) (p : PressId) (f : Quire → Quire)
    (h : ∀ x, (f x).pa = x.pa ∧ (f x).pb = x.pb) : (s.updQu q f).press q p = s.press q p := by
  unfold State.press Quire.press
  rw [State.qu_updQu_same, (h _).1, (h _).2]

theorem State.mem_of_host {s t : State} (h : t.host = s.host) : t.mem = s.mem := congrArg (fun x => x.2.1) h

/-! ### What a judgement's release leaves: the votes, the press's freeze, and that it runs -/

/-- The votes of a quire, the freeze of one of its presses, and whether that press runs. -/
def State.bench (q : QuireId) (p : PressId) (s : State) : List Vote × Bool × Bool :=
  ((s.qu q).votes, (s.press q p).frozen, (s.press q p).run.isSome)

theorem State.bench_of_seats {s t : State} (q : QuireId) (p : PressId) (h : t.seats = s.seats) :
    t.bench q p = s.bench q p := by
  unfold State.bench
  rw [State.press_of_seats h, State.votes_of_seats h]

theorem State.bench_updPress (s : State) (q : QuireId) (p : PressId) (f : Press → Press)
    (h : ∀ x : Press, (f x).frozen = x.frozen ∧ (f x).run.isSome = x.run.isSome) :
    (s.updPress q p f).bench q p = s.bench q p := by
  unfold State.bench
  rw [State.press_updPress_same, State.votes_updPress, (h _).1, (h _).2]

theorem State.bench_updPress_other (s : State) (q : QuireId) (p : PressId) (f : Press → Press) :
    (s.updPress q (!p) f).bench q p = s.bench q p := by
  unfold State.bench
  have other := s.press_updPress_other q (!p) f
  rw [Bool.not_not] at other
  rw [other, State.votes_updPress]

theorem State.bench_updRun (s : State) (q : QuireId) (p : PressId) (f : PRun → PRun) :
    (s.updRun q p f).bench q p = s.bench q p :=
  s.bench_updPress q p _ fun _ => ⟨rfl, Option.isSome_map⟩

theorem State.bench_stageTile (s : State) (q : QuireId) (p : PressId) (j rel : Nat) :
    (s.stageTile q p j rel).bench q p = s.bench q p := by
  refine s.bench_updPress q p _ fun x => ?_
  cases h : x.run with
  | none => exact ⟨rfl, congrArg Option.isSome h⟩
  | some r => exact ⟨rfl, rfl⟩

theorem State.bench_releaseTile (s : State) (q : QuireId) (p writer : PressId) (j : Nat) (outs : List (List (BitVec 8)))
    (rel : Nat) : (s.releaseTile q p writer j outs rel).bench q p = s.bench q p := by
  unfold State.releaseTile
  split
  · rfl
  · extract_lets d at0 len s1 words s2
    have released : s1.bench q p = s.bench q p := by
      refine State.bench_of_seats q p ?_
      simp only [s1]
      split
      · rfl
      · exact State.seats_foldl (fun t i => by simp only [State.seats_leafWrite, State.seats_pressGrant]) _
    have kept : s2.bench q p = s.bench q p := (State.bench_updRun ..).trans released
    split
    · exact (State.bench_of_seats q p (State.seats_openWindow ..)).trans kept
    · exact kept

/-! ### The clauses -/

theorem pressVoteStart_starts (q : QuireId) (v : Vote) (l : List Vote) (r : PRun) (s : State)
    (hvotes : (s.qu q).votes = v :: l) (hrun : (s.press q v.press).run = some r) (hstarted : v.started = false) :
    ∃ t v', exec (.pressVoteStart q) s = .next t ∧ (t.qu q).votes = v' :: l ∧ v'.started = true ∧ v'.press = v.press ∧
      v'.tile = v.tile ∧ v'.accs = v.accs ∧ v'.checks = v.checks ∧ t.press q v.press = s.press q v.press ∧
      MemoriesKept s t := by
  have run : exec (.pressVoteStart q) s = execPressVoteStart q s := rfl
  rw [run]
  unfold execPressVoteStart
  simp only [hvotes, hrun, hstarted, Bool.false_eq_true, if_false]
  refine ⟨_, _, rfl, congrArg Quire.votes (State.qu_updQu_same ..), rfl, rfl, rfl, rfl, rfl, ?_, memoriesKept_of ?_⟩
  · refine (State.press_updQu _ q v.press _ ?_).trans (State.press_of_seats ?_ q v.press)
    · exact fun _ => ⟨rfl, rfl⟩
    · rw [State.seats_nanRows, State.seats_loadActs]
  · refine (State.memories_updQu _ _ _ rfl).trans ?_
    rw [State.memories_nanRows, State.memories_loadActs]

theorem pressVoteJudgement_judges (q : QuireId) (up : Option PressUpset) (v : Vote) (l : List Vote) (r : PRun) (s : State)
    (hvotes : (s.qu q).votes = v :: l) (hrun : (s.press q v.press).run = some r) (hstarted : v.started = true) :
    ∃ t, exec (.pressVoteJudgement q up) s = .next t ∧ (t.qu q).votes = l ∧
      (t.press q v.press).frozen = l.any (fun w => w.press = v.press) ∧ (t.press q v.press).run.isSome = true ∧
      t.mem = s.mem := by
  suffices h : ∃ t, exec (.pressVoteJudgement q up) s = .next t ∧
      t.bench q v.press = (l, l.any (fun w => w.press = v.press), true) ∧ t.host = s.host by
    obtain ⟨t, run, bench, host⟩ := h
    obtain ⟨hv, hf, hr⟩ : (t.qu q).votes = l ∧ (t.press q v.press).frozen = l.any (fun w => w.press = v.press) ∧
        (t.press q v.press).run.isSome = true := by
      simpa only [State.bench, Prod.mk.injEq] using bench
    exact ⟨t, run, hv, hf, hr, State.mem_of_host host⟩
  have run : exec (.pressVoteJudgement q up) s = execPressVoteJudgement q up s := rfl
  rw [run]
  unfold execPressVoteJudgement
  simp -zeta only [hvotes, hrun, hstarted, Bool.true_eq_false, if_false]
  extract_lets +onlyGivenNames d p y start rd judge o same passes judgement behind tile s0 s1 s2 s3 s4 s5 s6 s7 s8 s9
  have charged : s3.seats = s.seats ∧ s3.host = s.host := by
    have read : s0.seats = s.seats ∧ s0.host = s.host := ⟨State.seats_readTile .., State.host_readTile ..⟩
    clear_value s0 judgement
    simp only [s3, s2, s1]
    constructor
    · repeat' split
      all_goals simp only [State.seats_charge, State.seats_pressEvent, State.seats_incF, read.1]
    · repeat' split
      all_goals simp only [State.host_charge, State.host_pressEvent, State.host_incF, read.2]
  clear_value s3 judgement
  obtain ⟨seats3, host3⟩ := charged
  have running : (s3.press q p).run.isSome = true := by
    rw [State.press_of_seats seats3]
    exact congrArg Option.isSome hrun
  have thawed : s6.bench q p = (l, l.any (fun w => w.press = p), true) := by
    have run4 : (s4.press q p).run.isSome = true :=
      (congrArg (fun x : Press => x.run.isSome) (State.press_updQu _ _ _ _ (by exact fun _ => ⟨rfl, rfl⟩))).trans running
    have run5 : (s5.press q p).run.isSome = true :=
      (congrArg (fun x => x.2.2) (State.bench_updRun s4 q p _)).trans run4
    have votes5 : (s5.qu q).votes = l :=
      (State.votes_updPress ..).trans (congrArg Quire.votes (State.qu_updQu_same ..))
    clear_value s5
    unfold State.bench
    rw [State.votes_updPress, State.press_updPress_same, votes5, run5]
  have shown : s7.bench q p = (l, l.any (fun w => w.press = p), true) ∧ s7.host = s.host := by
    refine ⟨(State.bench_updPress_other s6 q p _).trans thawed, (State.host_updPress ..).trans ?_⟩
    exact (State.host_updPress ..).trans ((State.host_updRun ..).trans ((State.host_updQu ..).trans host3))
  clear_value s7
  obtain ⟨bench7, host7⟩ := shown
  change ∃ t : State, _ ∧ t.bench q p = (l, l.any (fun w => w.press = p), true) ∧ t.host = s.host
  split
  · refine ⟨_, rfl, ?_, ?_⟩
    · split <;> simp only [s8, State.bench_stageTile, State.bench_updRun, bench7]
    · split <;> simp only [s8, State.host_stageTile, State.host_updRun, host7]
  · split
    · exact ⟨_, rfl, bench7, host7⟩
    · refine ⟨_, rfl, ?_, ?_⟩
      · simp only [State.bench_stageTile, State.bench_releaseTile, s9]
        split <;> simp only [State.bench_updRun, bench7]
      · simp only [State.host_stageTile, State.host_releaseTile, s9]
        split <;> simp only [State.host_updRun, host7]

theorem pressDeliveryToken_delivers (q : QuireId) (x : PressId) (r : PRun) (w : Nat × BitVec 64)
    (l : List (Nat × BitVec 64)) (s : State) (hrun : (s.press q x).run = some r) (hdeliver : r.deliver = w :: l)
    (thawed : (s.press q x).frozen = false)
    (room : (s.st ⟨q, ⟨r.desc.deliv % 64, by omega⟩⟩).waitingAt (r.desc.deliv / 64 % 32) <
      s.f (sb ⟨q, ⟨r.desc.deliv % 64, by omega⟩⟩) (portFld F.ST_PORT_credits (r.desc.deliv / 64 % 32))) :
    ∃ t r', exec (.pressDeliveryToken q x) s = .next t ∧ (t.press q x).run = some r' ∧ r'.deliver = l ∧
      r'.delivered = r.delivered + 1 ∧ r'.waiting = false ∧ MemoriesKept s t := by
  have run : exec (.pressDeliveryToken q x) s = execPressDeliveryToken q x s := rfl
  rw [run]
  unfold execPressDeliveryToken
  extract_lets +onlyGivenNames y
  simp -zeta only [y, hrun, hdeliver]
  extract_lets +onlyGivenNames d u port due pos s1 s2
  rw [if_neg (by simp [thawed]), if_neg (Nat.not_le.mpr room)]
  obtain ⟨r1, held, same⟩ : ∃ r1, (s1.press q x).run = some r1 ∧ r1.delivered = r.delivered := by
    simp only [s1, State.press_updPress_same, Press.holdStage, hrun, Option.map_some, Option.some.injEq, exists_eq_left']
  have sent : ((s2.internalToken u port ((d.deliv / 2048 + r.delivered) % 4096) false w.2 (pos + 3)).press q x).run =
      some { r1 with deliver := l, delivered := r1.delivered + 1, sendAt := pos + 1, waiting := false } := by
    rw [State.press_of_seats (State.seats_internalToken ..), State.press_updRun_same]
    exact congrArg (Option.map _) held
  refine ⟨_, _, rfl, sent, rfl, congrArg (· + 1) same, rfl, memoriesKept_of ?_⟩
  rw [State.memories_internalToken, State.memories_updRun, State.memories_updPress]

theorem pressDeliveryToken_waits (q : QuireId) (x : PressId) (r : PRun) (w : Nat × BitVec 64) (l : List (Nat × BitVec 64))
    (s : State) (hrun : (s.press q x).run = some r) (hdeliver : r.deliver = w :: l) (thawed : (s.press q x).frozen = false)
    (full : s.f (sb ⟨q, ⟨r.desc.deliv % 64, by omega⟩⟩) (portFld F.ST_PORT_credits (r.desc.deliv / 64 % 32)) ≤
      (s.st ⟨q, ⟨r.desc.deliv % 64, by omega⟩⟩).waitingAt (r.desc.deliv / 64 % 32)) :
    ∃ t, exec (.pressDeliveryToken q x) s = .next t ∧ (t.press q x).run = some { r with waiting := true } ∧
      t.stitchers = s.stitchers ∧ MemoriesKept s t := by
  have run : exec (.pressDeliveryToken q x) s = execPressDeliveryToken q x s := rfl
  rw [run]
  unfold execPressDeliveryToken
  extract_lets y
  simp -zeta only [y, hrun, hdeliver]
  extract_lets
  rw [if_neg (by simp [thawed]), if_pos full]
  refine ⟨_, rfl, ?_, rfl, memoriesKept_of (State.memories_updRun ..)⟩
  rw [State.press_updRun_same]
  simp only [hrun, Option.map_some, hdeliver]

theorem pressCompletion_completes (q : QuireId) (x : PressId) (r : PRun) (s : State) (hrun : (s.press q x).run = some r)
    (tiles : r.desc.colTiles ≤ r.tile) (thawed : (s.press q x).frozen = false) (delivered : r.deliver = []) :
    ∃ t, exec (.pressCompletion q x) s = .next t ∧ (t.press q x).run = none ∧
      (t.press q x).queue = (s.press q x).queue ∧ t.press q (!x) = s.press q (!x) ∧ t.mem = s.mem := by
  have run : exec (.pressCompletion q x) s = execPressCompletion q x s := rfl
  rw [run]
  unfold execPressCompletion
  extract_lets +onlyGivenNames y
  simp -zeta only [y, hrun, thawed, delivered]
  extract_lets +onlyGivenNames d pos rows code s1 g pos2 s2 s3 s4
  rw [if_neg (by simpa using tiles)]
  have written : s3.seats = s.seats ∧ s3.host = s.host := by
    simp only [s3, s2, g, s1]
    constructor
    · simp only [State.seats_ite, State.seats_incF, State.seats_leafWrite, State.seats_pressGrant, State.seats_useFree,
        ite_self]
    · repeat' split
      all_goals simp only [State.host_incF, State.host_leafWrite, State.host_pressGrant, State.host_useFree]
  clear_value s3
  obtain ⟨seats3, host3⟩ := written
  have ended (p : PressId) := State.press_of_seats (State.seats_endCommand s4 q x d r.status code pos2 r.wrap d.portBound) q p
  refine ⟨_, rfl, ?_, ?_, ?_, State.mem_of_host ?_⟩
  · rw [ended, State.press_updPress_same]
  · rw [ended, State.press_updPress_same, State.press_of_seats seats3]
  · rw [ended, State.press_updPress_other, State.press_of_seats seats3]
  · rw [State.host_endCommand, State.host_updPress, host3]

theorem outboundHoldRelease_sends (q : QuireId) (c : Nat) (m : Flight) (l : List HeldOut) (s : State)
    (h : (s.qu q).holding = ⟨c, .flight m⟩ :: l) :
    ∃ t f, exec (.outboundHoldRelease q) s = .next t ∧ (t.qu q).holding = l ∧ t.flights = s.flights ++ [f] ∧
      f.src = m.src ∧ f.dst = m.dst ∧ f.landing = m.landing ∧ f.relPos = m.relPos ∧ MemoriesKept s t := by
  have run : exec (.outboundHoldRelease q) s = execOutboundHoldRelease q s := rfl
  rw [run]
  unfold execOutboundHoldRelease
  extract_lets x
  simp -zeta only [x, h]
  extract_lets
  refine ⟨_, _, rfl, ?_, rfl, rfl, rfl, rfl, rfl, memoriesKept_of ?_⟩
  · exact congrArg Quire.holding (State.qu_setQu_same ..)
  · exact (State.memories_mk ..).trans (State.memories_setQu _ _ _ rfl)

theorem outboundHoldRelease_forwards (q : QuireId) (c : Nat) (m : Fwd) (l : List HeldOut) (s : State)
    (h : (s.qu q).holding = ⟨c, .fwd m⟩ :: l) :
    ∃ t, exec (.outboundHoldRelease q) s = .next t ∧ (t.qu q).holding = l ∧
      (t.qu q).forwards = (s.qu q).forwards ++ [{ m with sentAt := c - 4 }] ∧ t.flights = s.flights ∧ MemoriesKept s t := by
  have run : exec (.outboundHoldRelease q) s = execOutboundHoldRelease q s := rfl
  rw [run]
  unfold execOutboundHoldRelease
  extract_lets x
  simp -zeta only [x, h]
  extract_lets
  refine ⟨_, rfl, ?_, ?_, rfl, memoriesKept_of ?_⟩
  · rw [State.qu_updQu_same, State.qu_setQu_same]
  · rw [State.qu_updQu_same, State.qu_setQu_same]
  · exact (State.memories_updQu _ _ _ rfl).trans (State.memories_setQu _ _ _ rfl)

/-- Settles O24, clause by clause: presses and votes are changed by their own updates only. -/
theorem pressChecks : Obligations.PressChecks := by
  unfold Obligations.PressChecks
  refine ⟨⟨pressVoteStart_starts, pressVoteJudgement_judges⟩, ?_, pressCompletion_completes, outboundHoldRelease_sends,
    outboundHoldRelease_forwards⟩
  intro q x r w l s hrun hdeliver thawed u port
  exact ⟨pressDeliveryToken_delivers q x r w l s hrun hdeliver thawed,
    pressDeliveryToken_waits q x r w l s hrun hdeliver thawed⟩

end Sys2Proof.Machine
end
